-- ==== Sys2Proof/Word.lean ====
section
/-! DEFINITION. The word types of the TW-52 (spec 00 R5, R8): a byte, a halfword of code, a word of 8 bytes, a line of 64 bytes. -/

namespace Sys2Proof

/-- A byte (00 R5). -/
abbrev Byte := BitVec 8

/-- A halfword of code (00 R5, 02 R39). -/
abbrev Half := BitVec 16

/-- A word of 8 bytes: a scalar register, an address, a control word (00 R5, 04 R108). -/
abbrev Word := BitVec 64

/-- A line of 64 bytes: a vector register, a queue entry (00 R5, 06 R194, 08 R241). -/
abbrev Line := BitVec 512

end Sys2Proof
end

