-- ==== Sys2Proof/Config.lean ====
section
/-! DEFINITION. What the manual leaves to standards and keys outside it: uninterpreted constants, so that no proof can lean on a value.
Log entries 18, 20, 23, 28, 31, 34, 43, 47 and 67. -/

namespace Sys2Proof.Config

/-- What a slot of the retirement log reads as once an append has been cut off (18 R495): the manual says only that its record is not valid, when it is not.
Log entry 23. -/
opaque tornSlot : Nat → Line

/-- Whether a zone's replay log of so many entries for the open round fills its space at the buddy (16 R445): the manual gives no sizes. Log entry 18. -/
opaque logFull : (zone : Nat) → (entries : Nat) → Bool

/-- Which address of the launch's HBM the steward takes for a deadlock record (06 R196): the manual asks only that it be 64-byte aligned. Log entry 43. -/
opaque recordChoice : Nat → Nat

/-- What the SPDM 1.3 standard fixes of a die's answer and the manual does not (18 R504), for a request's bytes. Log entry 20. -/
opaque spdmBody : (die request : Nat) → (payload : List Byte) → List Byte

/-- The bytes that a die signs for an answer, as SPDM 1.3 has them (18 R504). Log entry 20. -/
opaque spdmSigned : (die request : Nat) → (payload answer : List Byte) → List Byte

/-- The certificate chain of slot 0 of a die (18 R504). Log entry 20. -/
opaque certificate : (die : Nat) → List Byte

/-- The P-384 key with which a die signs, and the number that it takes for a signature of a digest (18 R504). Log entry 20. -/
opaque signingKey : (die : Nat) → Nat
opaque signingNonce : (die digest : Nat) → Nat

/-- The version of the boot ROM, measurement block 1 (18 Table 18.5). Log entry 20. -/
opaque bootRomVersion : List Byte

/-- Which of the tiles that qualify a roaming child meets first on its way (05 R159): the manual does not give the way. Log entry 28. -/
opaque roamingChoice : Nat → Nat

/-- Which of the free scope slots a launch is allotted (12 R356): the manual does not say. Log entry 31. -/
opaque slotChoice : Nat → Nat

/-- The program handle that a load issues, moved on past those in use (18 R505): the manual asks only that it be unique. Log entry 34. -/
opaque handleChoice : Nat → BitVec 32

/-- The partition whose command page lies at a 4 KiB page of a link's bus addresses (17 R480): the place of HW-B there is the host's choice. Log entry 47. -/
opaque commandPage : (link : Nat) → (page : Nat) → Option (BitVec 8)

/-- The code address at which a die's steward begins a firmware image (18 R491): the manual does not give it. Log entry 67. -/
opaque firmwareEntry : (die : Nat) → (image : List Byte) → BitVec 64

end Sys2Proof.Config
end

