-- ==== Sys2Proof/Syntax.lean ====
section
/-! DEFINITION. The instruction set and the device's steps as plain data: Instr has one constructor for each row of the opcode table.
Operands of a unit are the fields of its encoding, from bit 31 downward, each a bit vector of the field's width;
the field m of a vector or conversion form is its modifier word, none when M = 0 (02 R39, R52).
Operands of a device step are what the outside or timing chooses: an interface, a flight, a value (log entry 2). -/

namespace Sys2Proof

/-- A core's role, with cw.role's codes 0 to 3 (01 R24, 04 Table 4.4, 02 R521). -/
inductive Role where
  | mc
  | fc
  | ac
  | steward
  deriving DecidableEq, Repr

/-- A logical tile of a launch (01 R20): the launch's number in the model and the logical number. -/
structure TileId where
  l : Nat
  t : Nat
  deriving DecidableEq, Repr

/-- A core: a role of a logical tile, or for the role steward the core of die t (l = 0). -/
structure CoreId where
  l : Nat
  t : Nat
  r : Role
  deriving DecidableEq, Repr

/-- A hardware context, 0 to 3, of a core (05 R139). -/
structure CtxId where
  core : CoreId
  c : Nat
  deriving DecidableEq, Repr

/-- A tile task, named by its launch and its ticket path of 1 to 6 elements (12 R350, R351). -/
structure TTId where
  l : Nat
  path : List (BitVec 16)
  deriving DecidableEq, Repr

/-- A physical tile: die, die column 0 to 31, die row 0 to 23 (15 R424, 16 R526). -/
structure PTile where
  die : Nat
  x : Nat
  y : Nat
  deriving DecidableEq, Repr

/-- A home (11 R328): a logical tile's, an HBM stack's memory agent, a link's host interface. -/
inductive Home where
  | tile (id : TileId)
  | agent (stack : Nat)
  | host (link : Nat)
  deriving DecidableEq, Repr

/-- Where a due activation comes from (05 R141, R150, R156): message k of a receive end, a waiting-task entry, a waiting start, spawn or upcall, a resumed fibre. -/
inductive ActSource where
  | message (ch : Nat) (k : Nat)
  | entry (e : Nat)
  | waiting (k : Nat)
  | fibre (n : Nat)
  deriving DecidableEq, Repr

/-- A class entry of an object (02 Table 2.15, 05 R145). -/
structure ObjClass where
  graph : Nat
  role : Role
  cls : Nat
  handler : Nat
  prio : Nat
  node : Nat
  deriving DecidableEq, Repr

/-- A rate declaration of the handler at a code offset (02 Table 2.15, 05 R150). -/
structure ObjRate where
  role : Role
  handler : Nat
  isChan : Bool
  num : Nat
  consume : Nat
  produce : Nat
  deriving DecidableEq, Repr

/-- A .seg directive (02 Table 2.15). -/
structure ObjSeg where
  n : Nat
  base : Nat
  limit : Nat
  r : Bool
  w : Bool
  deriving DecidableEq, Repr

/-- A .ring directive (02 Table 2.15). -/
structure ObjRing where
  n : Nat
  slotBytes : Nat
  slots : Nat
  deriving DecidableEq, Repr

/-- A .tsr directive (02 Table 2.15): extents and byte strides, innermost first. -/
structure ObjTsr where
  seg : Nat
  offset : Nat
  type : Nat
  extents : List Nat
  strides : List Int
  deriving DecidableEq, Repr

/-- A .region directive (02 Table 2.15). -/
structure ObjRegion where
  offset : Nat
  bytes : Nat
  persist : Bool
  deriving DecidableEq, Repr

/-- An object in the parsed form of its sections (18 Table 18.6; log entry 21). The graph section stands as its words (18 R510). -/
structure Object where
  profile : Nat
  x : Nat
  y : Nat
  free : Bool
  codeMc : List Byte
  codeFc : List Byte
  codeAc : List Byte
  uvec : Nat
  data : List Byte
  classes : List ObjClass
  rates : List ObjRate
  graph : List Word
  prots : List (Nat × Word)
  rings : List ObjRing
  tsrs : List ObjTsr
  segs : List ObjSeg
  regions : List ObjRegion
  /-- Offset and length of each section in the object's bytes, as its header's section table names them (18 R505): the header, the code of MC, FC and AC, the data,
  the graph section, then the others (the order is the model's, log entry 21). -/
  sections : List (Nat × Nat)
  deriving DecidableEq, Repr

/-- A firmware image of a steward's flash slot: its bytes, its two signatures, its security version (18 R491). -/
structure FwImage where
  code : List Byte
  /-- The ECDSA P-384 key under which it is signed, as a point, and that signature, r and s. -/
  ecKey : Nat × Nat
  ecSig : Nat × Nat
  /-- The LMS signature, 2,508 bytes. -/
  lmsSig : List Byte
  version : BitVec 32
  deriving DecidableEq, Repr

/-- A link whose slot table 17 R482 names: a mesh link of a die, a seam link, a scale-out port, a host link; out tells the direction. -/
inductive LinkId where
  | mesh (die tile dir : Nat)
  | seam (die tile dir : Nat)
  | port (n : Nat) (out : Bool)
  | host (n : Nat) (out : Bool)
  deriving DecidableEq, Repr

/-- A host-visible register without behaviour of its own (00 R9, 17 Tables 17.1, 17.5, 17.6, R479, R481). -/
inductive HostReg where
  /-- Word w, 0 to 15, of packet slot s of an interface page (Table 17.1). -/
  | packetWord (iface slot w : Nat)
  | nbase (iface : Nat)
  | nsize (iface : Nat)
  | vector (iface : Nat)
  | abase (iface : Nat)
  /-- Interface assignment: link in bits 63:62, partition in bits 27:20, PASID in bits 19:0 (R470; log entry 21). -/
  | assign (iface : Nat)
  /-- The page-table descriptor of a partition (Table 14.1). -/
  | ptDesc (tag : Nat)
  /-- Base of a partition's fault queue (R479). -/
  | faultBase (tag : Nat)
  /-- Log2 of the fault queue's records, 4 to 16 (R479). -/
  | faultSize (tag : Nat)
  /-- Head of a partition's fault queue, RW (R479). -/
  | faultHead (tag : Nat)
  /-- Tail of a partition's fault queue, RO (R479). -/
  | faultTail (tag : Nat)
  /-- Profile mask of a partition (R479, R489). -/
  | profileMask (tag : Nat)
  /-- Word w, 0 to 3, of a partition's permit mask (R464). -/
  | permit (tag w : Nat)
  /-- Word w, 0 to 7, of command slot s of a command page (Table 17.7). -/
  | commandWord (tag slot w : Nat)
  /-- Tail of a command page, RW (R481). -/
  | commandTail (tag : Nat)
  /-- Head of a command page, RO (R481). -/
  | commandHead (tag : Nat)
  /-- Kernel entry of a role (18 R512). -/
  | kernelEntry (tag : Nat) (role : Role)
  /-- The module's hyper entry (18 R512). -/
  | hyperEntry
  /-- Staged slot-table entry k of a link (17 R482, R484). -/
  | slotEntry (link : LinkId) (k : Nat)
  /-- The port of the ordinary clock (17 R486). -/
  | clock
  /-- A reserved offset: reads 0, ignores writes (00 R11). -/
  | reserved
  deriving DecidableEq, Repr

/-- The partition in whose block of HW-B a register stands (17 R479, R481). -/
def HostReg.partition : HostReg → Option Nat
  | .ptDesc t => some t
  | .faultBase t => some t
  | .faultSize t => some t
  | .faultHead t => some t
  | .faultTail t => some t
  | .profileMask t => some t
  | .permit t _ => some t
  | .commandWord t _ _ => some t
  | .commandTail t => some t
  | .commandHead t => some t
  | .kernelEntry t _ => some t
  | .packetWord _ _ _ => none
  | .nbase _ => none
  | .nsize _ => none
  | .vector _ => none
  | .abase _ => none
  | .assign _ => none
  | .hyperEntry => none
  | .slotEntry _ _ => none
  | .clock => none
  | .reserved => none

/-- Whether a register stands in the global block of HW-B (17 Table 17.5). -/
def HostReg.isGlobal : HostReg → Bool
  | .assign _ => true
  | .hyperEntry => true
  | .slotEntry _ _ => true
  | .clock => true
  | _ => false

/-- The register at an offset of the global block of HW-B beyond the boot status block: the manual gives no offsets. Log entry 21. -/
opaque Config.globalRegister : (off : Nat) → Option HostReg

/-- The register at an offset of a partition's block of HW-B: each stands "at a fixed place" (17 R479), which the manual does not give. Log entry 21. -/
opaque Config.partitionRegister : (tag off : Nat) → Option HostReg

/-- A frame of the scale-out transport (17 R487): edge number, sequence number, and a credit return of so many flits (06 R184) or a message: its header word
(06 Table 6.1) and payload, the sender's logical tile, the path and sequence number of its key (06 R176, R179; log entry 33). -/
structure PortFrame where
  edge : Nat
  seq : BitVec 32
  credit : Option Nat
  payload : List Word
  tile : Nat
  path : List (BitVec 16)
  num : BitVec 32
  deriving DecidableEq, Repr

/-- What system software binds a remote edge to (17 R487): the peer's module, tag and channel, and the end on this module. -/
structure EdgeEnd where
  peer : Nat
  tag : BitVec 8
  peerCh : Nat
  core : CoreId
  ch : Nat
  deriving DecidableEq, Repr

/-- What a port receives (17 R485): a transport frame, or any other frame. -/
inductive PortInput where
  | transport (f : PortFrame)
  | other
  deriving DecidableEq, Repr

/-- The instruction set: one constructor for each row of the opcode table, in its order (02 R54, R55, R58; 95 for the device's own steps). -/
inductive Instr where
  /-- ADD (R123): Writes the 64-bit sum of two scalar registers. -/
  | add (b : BitVec 5) (a : BitVec 5) (d : BitVec 5)
  /-- SUB (R123): Writes the 64-bit difference of two scalar registers. -/
  | sub (b : BitVec 5) (a : BitVec 5) (d : BitVec 5)
  /-- MUL (R123): Writes the low 64 bits of the signed product. -/
  | mul (b : BitVec 5) (a : BitVec 5) (d : BitVec 5)
  /-- MULH (R123): Writes the high 64 bits of the signed product. -/
  | mulh (b : BitVec 5) (a : BitVec 5) (d : BitVec 5)
  /-- MULHN (R123): Writes the high 64 bits of the unsigned product. -/
  | mulhn (b : BitVec 5) (a : BitVec 5) (d : BitVec 5)
  /-- DIV (R125): Signed division toward zero that never traps. -/
  | div (b : BitVec 5) (a : BitVec 5) (d : BitVec 5)
  /-- DIVN (R125): Unsigned division that never traps. -/
  | divn (b : BitVec 5) (a : BitVec 5) (d : BitVec 5)
  /-- REM (R125): Signed remainder with the dividend's sign. -/
  | rem (b : BitVec 5) (a : BitVec 5) (d : BitVec 5)
  /-- REMN (R125): Unsigned remainder. -/
  | remn (b : BitVec 5) (a : BitVec 5) (d : BitVec 5)
  /-- MIN (R123): Writes the signed smaller operand. -/
  | min (b : BitVec 5) (a : BitVec 5) (d : BitVec 5)
  /-- MAX (R123): Writes the signed larger operand. -/
  | max (b : BitVec 5) (a : BitVec 5) (d : BitVec 5)
  /-- MINN (R123): Writes the unsigned smaller operand. -/
  | minn (b : BitVec 5) (a : BitVec 5) (d : BitVec 5)
  /-- MAXN (R123): Writes the unsigned larger operand. -/
  | maxn (b : BitVec 5) (a : BitVec 5) (d : BitVec 5)
  /-- AND (R123): Bitwise and of two registers. -/
  | and (b : BitVec 5) (a : BitVec 5) (d : BitVec 5)
  /-- OR (R123): Bitwise or of two registers. -/
  | or (b : BitVec 5) (a : BitVec 5) (d : BitVec 5)
  /-- XOR (R123): Bitwise exclusive or of two registers. -/
  | xor (b : BitVec 5) (a : BitVec 5) (d : BitVec 5)
  /-- ANDN (R123): A and not B. -/
  | andn (b : BitVec 5) (a : BitVec 5) (d : BitVec 5)
  /-- SHL (R124): Logical left shift by the whole unsigned B, zero at 64 or more. -/
  | shl (b : BitVec 5) (a : BitVec 5) (d : BitVec 5)
  /-- SHR (R124): Logical right shift by the whole unsigned B. -/
  | shr (b : BitVec 5) (a : BitVec 5) (d : BitVec 5)
  /-- SHA (R124): Arithmetic right shift by the whole unsigned B. -/
  | sha (b : BitVec 5) (a : BitVec 5) (d : BitVec 5)
  /-- ROTL (R123): Rotates A left by B mod 64. -/
  | rotl (b : BitVec 5) (a : BitVec 5) (d : BitVec 5)
  /-- CLZ (R123): Counts leading zero bits. -/
  | clz (a : BitVec 5) (d : BitVec 5)
  /-- CTZ (R123): Counts trailing zero bits. -/
  | ctz (a : BitVec 5) (d : BitVec 5)
  /-- POPC (R123): Counts one bits. -/
  | popc (a : BitVec 5) (d : BitVec 5)
  /-- SEQ (R123): Writes 1 if the operands are equal. -/
  | seq (b : BitVec 5) (a : BitVec 5) (d : BitVec 5)
  /-- SLT (R123): Writes 1 if A < B signed. -/
  | slt (b : BitVec 5) (a : BitVec 5) (d : BitVec 5)
  /-- SLTN (R123): Writes 1 if A < B unsigned. -/
  | sltn (b : BitVec 5) (a : BitVec 5) (d : BitVec 5)
  /-- PADD (R126): Packed add of 8- or 16-bit sub-elements. -/
  | padd (w : BitVec 1) (b : BitVec 5) (a : BitVec 5) (d : BitVec 5)
  /-- PSUB (R126): Packed subtract. -/
  | psub (w : BitVec 1) (b : BitVec 5) (a : BitVec 5) (d : BitVec 5)
  /-- PMIN (R126): Packed minimum, signed or unsigned. -/
  | pmin (n : BitVec 1) (w : BitVec 1) (b : BitVec 5) (a : BitVec 5) (d : BitVec 5)
  /-- PMAX (R126): Packed maximum, signed or unsigned. -/
  | pmax (n : BitVec 1) (w : BitVec 1) (b : BitVec 5) (a : BitVec 5) (d : BitVec 5)
  /-- PSHL (R126): Packed left shift by each sub-element's low 8 bits. -/
  | pshl (w : BitVec 1) (b : BitVec 5) (a : BitVec 5) (d : BitVec 5)
  /-- PSHR (R126): Packed logical right shift. -/
  | pshr (w : BitVec 1) (b : BitVec 5) (a : BitVec 5) (d : BitVec 5)
  /-- PSHA (R126): Packed arithmetic right shift. -/
  | psha (w : BitVec 1) (b : BitVec 5) (a : BitVec 5) (d : BitVec 5)
  /-- ADDI (R127): Adds a sign-extended 14-bit immediate. -/
  | addi (i : BitVec 14) (a : BitVec 5) (d : BitVec 5)
  /-- ANDI (R127): Ands with a sign-extended immediate. -/
  | andi (i : BitVec 14) (a : BitVec 5) (d : BitVec 5)
  /-- ORI (R127): Ors with a sign-extended immediate. -/
  | ori (i : BitVec 14) (a : BitVec 5) (d : BitVec 5)
  /-- XORI (R127): Exclusive-ors with a sign-extended immediate. -/
  | xori (i : BitVec 14) (a : BitVec 5) (d : BitVec 5)
  /-- SHLI (R128): Left shift by an immediate 0 to 63. -/
  | shli (n : BitVec 6) (a : BitVec 5) (d : BitVec 5)
  /-- SHRI (R128): Logical right shift by an immediate. -/
  | shri (n : BitVec 6) (a : BitVec 5) (d : BitVec 5)
  /-- SHAI (R128): Arithmetic right shift by an immediate. -/
  | shai (n : BitVec 6) (a : BitVec 5) (d : BitVec 5)
  /-- BFX_S (R129): Extracts a sign-extended bit field. -/
  | bfxS (p : BitVec 6) (l : BitVec 6) (a : BitVec 5) (d : BitVec 5)
  /-- BFX_Z (R129): Extracts a zero-extended bit field. -/
  | bfxZ (p : BitVec 6) (l : BitVec 6) (a : BitVec 5) (d : BitVec 5)
  /-- BFI (R129): Inserts the low bits of A into a field of D. -/
  | bfi (p : BitVec 6) (l : BitVec 6) (a : BitVec 5) (d : BitVec 5)
  /-- SEL (R130): Selects A or B by whether register sc is non-zero. -/
  | sel (c : BitVec 5) (b : BitVec 5) (a : BitVec 5) (d : BitVec 5)
  /-- MOVI (R131): Loads a sign-extended 19-bit immediate. -/
  | movi (i : BitVec 19) (d : BitVec 5)
  /-- MOVH (R131): Shifts D left 19 and adds an unsigned immediate. -/
  | movh (i : BitVec 19) (d : BitVec 5)
  /-- BEQ (R132): Branches when a = b. -/
  | beq (o : BitVec 11) (b : BitVec 5) (a : BitVec 5)
  /-- BNE (R132): Branches when a != b. -/
  | bne (o : BitVec 11) (b : BitVec 5) (a : BitVec 5)
  /-- BLT (R132): Branches when a < b signed. -/
  | blt (o : BitVec 11) (b : BitVec 5) (a : BitVec 5)
  /-- BGE (R132): Branches when a >= b signed. -/
  | bge (o : BitVec 11) (b : BitVec 5) (a : BitVec 5)
  /-- BLTN (R132): Branches when a < b unsigned. -/
  | bltn (o : BitVec 11) (b : BitVec 5) (a : BitVec 5)
  /-- BGEN (R132): Branches when a >= b unsigned. -/
  | bgen (o : BitVec 11) (b : BitVec 5) (a : BitVec 5)
  /-- JMP (R133): Jumps by a 24-bit halfword offset. -/
  | jmp (o : BitVec 24)
  /-- JAL (R133): Jumps and writes the link to s31. -/
  | jal (o : BitVec 24)
  /-- JR (R134): Jumps to A plus an offset, writing the link to sd. -/
  | jr (i : BitVec 14) (a : BitVec 5) (d : BitVec 5)
  /-- REP (R135): Starts a hardware loop over the following body. -/
  | rep (l : BitVec 14) (a : BitVec 5)
  /-- NOP (R137): Does nothing. -/
  | nop
  /-- BRK (R137): Traps BRK. -/
  | brk
  /-- TRAP (R137): Traps TRAP with cw.tval := A. -/
  | trap (a : BitVec 5)
  /-- SYSC (R137): Traps SYSC with cw.tval := A. -/
  | sysc (a : BitVec 5)
  /-- ERET (R121): Returns from a trap handler to cw.epc at plevel. -/
  | eret
  /-- CWR (R138): Reads a control word. -/
  | cwr (h : BitVec 1) (n : BitVec 12) (d : BitVec 5)
  /-- CWW (R138): Writes the RW fields of a control word. -/
  | cww (n : BitVec 12) (a : BitVec 5)
  /-- END (R165): Ends the task, releasing reservations and or-ing flags into the tile task. -/
  | endTask
  /-- ARM (R166): Arms a waiting-task entry with threshold, class, join and argument. -/
  | arm (b : BitVec 5) (a : BitVec 5)
  /-- DISARM (R167): Disarms an entry and returns and clears its counter. -/
  | disarm (a : BitVec 5) (d : BitVec 5)
  /-- WAITA (R168): Arms an entry and sends a wait request to the home of an address. -/
  | waita (c : BitVec 5) (b : BitVec 5) (a : BitVec 5)
  /-- WAKE (R169): Sends a wake of up to B waiters to the home of an address. -/
  | wake (b : BitVec 5) (a : BitVec 5)
  /-- TID (R170): Writes the task word. -/
  | tid (d : BitVec 5)
  /-- PRIO (R171): Reads and may set a class's priority. -/
  | prio (a : BitVec 5) (d : BitVec 5)
  /-- DEFER (R172): Sets or clears the context's background mode. -/
  | defer (a : BitVec 5)
  /-- UIRET (R173): Returns from a user-interrupt handler. -/
  | uiret
  /-- UIMASK (R174): Reads and sets the user-interrupt mask. -/
  | uimask (a : BitVec 5) (d : BitVec 5)
  /-- SPAWN (R175): Creates a bound child tile task on a named tile. -/
  | spawn (c : BitVec 6) (a : BitVec 5) (d : BitVec 5)
  /-- SPAWNR (R175): Creates a roaming child placed by hash or by idle core. -/
  | spawnr (c : BitVec 6) (a : BitVec 5) (d : BitVec 5)
  /-- SEND_R (R198): Sends registers on a send end, spending credits. -/
  | sendR (n : BitVec 5) (q : BitVec 6) (d : BitVec 5)
  /-- SEND_M (R198): Sends scratchpad flits on a send end. -/
  | sendM (n : BitVec 5) (q : BitVec 6) (d : BitVec 5)
  /-- SENDI_R (R199): Sends registers directly to a channel of a tile. -/
  | sendiR (r : BitVec 2) (n : BitVec 5) (q : BitVec 6) (d : BitVec 5)
  /-- SENDI_M (R199): Sends scratchpad flits directly to a channel of a tile. -/
  | sendiM (r : BitVec 2) (n : BitVec 5) (q : BitVec 6) (d : BitVec 5)
  /-- SENDW_R (R200): Writes a register payload to a window address and may notify an entry. -/
  | sendwR (r : BitVec 2) (n : BitVec 5) (d : BitVec 5)
  /-- SENDW_M (R200): Writes a scratchpad payload to a window address and may notify an entry. -/
  | sendwM (r : BitVec 2) (n : BitVec 5) (d : BitVec 5)
  /-- REPLY_R (R201): Replies with registers to the activating direct message's sender. -/
  | replyR (n : BitVec 5) (d : BitVec 5)
  /-- REPLY_M (R201): Replies with scratchpad flits. -/
  | replyM (n : BitVec 5) (d : BitVec 5)
  /-- REFUSE (R201): Releases and returns the activating direct message. -/
  | refuse
  /-- QPEEK_Q (R203): Reads a word or tag of the first available queue entry. -/
  | qpeekQ (i : BitVec 6) (q : BitVec 6) (d : BitVec 5)
  /-- QPEEK_C (R203): Reads a word of the first held message on a channel. -/
  | qpeekC (h : BitVec 1) (i : BitVec 6) (q : BitVec 6) (d : BitVec 5)
  /-- QCNT_Q (R204): Returns the queue entries still reserved to the task. -/
  | qcntQ (q : BitVec 6) (d : BitVec 5)
  /-- QCNT_C (R204): Returns the messages the task holds on a channel. -/
  | qcntC (q : BitVec 6) (d : BitVec 5)
  /-- QFLUSH_Q (R205): Pops and discards one queue entry. -/
  | qflushQ (q : BitVec 6)
  /-- QFLUSH_C (R205): Releases the first message held on a channel. -/
  | qflushC (q : BitVec 6)
  /-- QBIND (R206): Sets the class or count binding of a receive end. -/
  | qbind (q : BitVec 6) (d : BitVec 5)
  /-- CHOPEN (R207): Opens a direct receive end. -/
  | chopen (q : BitVec 6) (d : BitVec 5)
  /-- CHCLOSE (R207): Closes an empty direct receive end. -/
  | chclose (q : BitVec 6)
  /-- CHSTAT (R208): Writes the channel status word. -/
  | chstat (q : BitVec 6) (d : BitVec 5)
  /-- LD_B_Z (R231): Loads a zero-extended byte through a segment. -/
  | ldBZ (g : BitVec 4) (o : BitVec 7) (a : BitVec 5) (d : BitVec 5)
  /-- LD_B_S (R231): Loads a sign-extended byte. -/
  | ldBS (g : BitVec 4) (o : BitVec 7) (a : BitVec 5) (d : BitVec 5)
  /-- LD_H_Z (R231): Loads a zero-extended halfword. -/
  | ldHZ (g : BitVec 4) (o : BitVec 7) (a : BitVec 5) (d : BitVec 5)
  /-- LD_H_S (R231): Loads a sign-extended halfword. -/
  | ldHS (g : BitVec 4) (o : BitVec 7) (a : BitVec 5) (d : BitVec 5)
  /-- LD_W_Z (R231): Loads a zero-extended 4-byte word. -/
  | ldWZ (g : BitVec 4) (o : BitVec 7) (a : BitVec 5) (d : BitVec 5)
  /-- LD_W_S (R231): Loads a sign-extended 4-byte word. -/
  | ldWS (g : BitVec 4) (o : BitVec 7) (a : BitVec 5) (d : BitVec 5)
  /-- LD_D (R231): Loads an 8-byte word. -/
  | ldD (g : BitVec 4) (o : BitVec 7) (a : BitVec 5) (d : BitVec 5)
  /-- ST_B (R231): Stores a byte. -/
  | stB (g : BitVec 4) (o : BitVec 7) (a : BitVec 5) (d : BitVec 5)
  /-- ST_H (R231): Stores a halfword. -/
  | stH (g : BitVec 4) (o : BitVec 7) (a : BitVec 5) (d : BitVec 5)
  /-- ST_W (R231): Stores a 4-byte word. -/
  | stW (g : BitVec 4) (o : BitVec 7) (a : BitVec 5) (d : BitVec 5)
  /-- ST_D (R231): Stores an 8-byte word. -/
  | stD (g : BitVec 4) (o : BitVec 7) (a : BitVec 5) (d : BitVec 5)
  /-- LDQ (R233): Loads n lines into MF0 or MF1. -/
  | ldq (g : BitVec 4) (n : BitVec 6) (q : BitVec 6) (d : BitVec 5)
  /-- STQ (R233): Pops n FM0 entries and stores them as lines. -/
  | stq (g : BitVec 4) (n : BitVec 6) (d : BitVec 5)
  /-- LDFF (R234): Loads up to the first unreadable byte and pushes a count entry. -/
  | ldff (g : BitVec 4) (n : BitVec 6) (q : BitVec 6) (d : BitVec 5)
  /-- PRF (R235): Announces a read to the place's home without visible effect. -/
  | prf (g : BitVec 4) (n : BitVec 6) (d : BitVec 5)
  /-- LDSYNC (R237): Loads a scratchpad word once it is full. -/
  | ldsync (g : BitVec 4) (o : BitVec 7) (a : BitVec 5) (d : BitVec 5)
  /-- STFULL (R237): Stores a word and sets it full. -/
  | stfull (g : BitVec 4) (o : BitVec 7) (a : BitVec 5) (d : BitVec 5)
  /-- STEMPTY (R237): Sets a word empty. -/
  | stempty (g : BitVec 4) (o : BitVec 7) (a : BitVec 5)
  /-- GADDR (R239): Returns the global address of a segment byte. -/
  | gaddr (g : BitVec 4) (a : BitVec 5) (d : BitVec 5)
  /-- SEGW (R240): Replaces a segment register, narrowing at user level. -/
  | segw (g : BitVec 4) (b : BitVec 5) (a : BitVec 5)
  /-- SEGR (R240): Reads a segment base or limit word. -/
  | segr (h : BitVec 1) (g : BitVec 4) (d : BitVec 5)
  /-- VADD_F32 (R246): Lane-wise .f32 add. -/
  | vaddF32 (k : BitVec 3) (b : BitVec 5) (a : BitVec 5) (d : BitVec 5) (m : Option (BitVec 32))
  /-- VSUB_F32 (R246): Lane-wise .f32 subtract. -/
  | vsubF32 (k : BitVec 3) (b : BitVec 5) (a : BitVec 5) (d : BitVec 5) (m : Option (BitVec 32))
  /-- VMUL_F32 (R246): Lane-wise .f32 multiply. -/
  | vmulF32 (k : BitVec 3) (b : BitVec 5) (a : BitVec 5) (d : BitVec 5) (m : Option (BitVec 32))
  /-- VFMA_F32 (R246): Lane-wise fused a*b+c in .f32. -/
  | vfmaF32 (k : BitVec 3) (b : BitVec 5) (a : BitVec 5) (d : BitVec 5) (m : Option (BitVec 32))
  /-- VFMS_F32 (R246): Lane-wise fused a*b-c in .f32. -/
  | vfmsF32 (k : BitVec 3) (b : BitVec 5) (a : BitVec 5) (d : BitVec 5) (m : Option (BitVec 32))
  /-- VFNMA_F32 (R246): Lane-wise fused c-a*b in .f32. -/
  | vfnmaF32 (k : BitVec 3) (b : BitVec 5) (a : BitVec 5) (d : BitVec 5) (m : Option (BitVec 32))
  /-- VMIN_F32 (R247): Lane-wise .f32 minimum. -/
  | vminF32 (k : BitVec 3) (b : BitVec 5) (a : BitVec 5) (d : BitVec 5) (m : Option (BitVec 32))
  /-- VMAX_F32 (R247): Lane-wise .f32 maximum. -/
  | vmaxF32 (k : BitVec 3) (b : BitVec 5) (a : BitVec 5) (d : BitVec 5) (m : Option (BitVec 32))
  /-- VRCP (R249): Correctly rounded reciprocal per lane. -/
  | vrcp (k : BitVec 3) (a : BitVec 5) (d : BitVec 5) (m : Option (BitVec 32))
  /-- VRSQRT (R249): Correctly rounded reciprocal square root. -/
  | vrsqrt (k : BitVec 3) (a : BitVec 5) (d : BitVec 5) (m : Option (BitVec 32))
  /-- VSQRT (R249): Correctly rounded square root. -/
  | vsqrt (k : BitVec 3) (a : BitVec 5) (d : BitVec 5) (m : Option (BitVec 32))
  /-- VEXP2 (R249): Correctly rounded 2^x. -/
  | vexp2 (k : BitVec 3) (a : BitVec 5) (d : BitVec 5) (m : Option (BitVec 32))
  /-- VLOG2 (R249): Correctly rounded log2 x. -/
  | vlog2 (k : BitVec 3) (a : BitVec 5) (d : BitVec 5) (m : Option (BitVec 32))
  /-- VTANH (R249): Correctly rounded tanh x. -/
  | vtanh (k : BitVec 3) (a : BitVec 5) (d : BitVec 5) (m : Option (BitVec 32))
  /-- VCMP_EQ_F32 (R250): Lane-wise .f32 equal compare. -/
  | vcmpEqF32 (k : BitVec 3) (b : BitVec 5) (a : BitVec 5) (d : BitVec 5) (m : Option (BitVec 32))
  /-- VCMP_NE_F32 (R250): Lane-wise .f32 not-equal compare. -/
  | vcmpNeF32 (k : BitVec 3) (b : BitVec 5) (a : BitVec 5) (d : BitVec 5) (m : Option (BitVec 32))
  /-- VCMP_LT_F32 (R250): Lane-wise .f32 less-than compare. -/
  | vcmpLtF32 (k : BitVec 3) (b : BitVec 5) (a : BitVec 5) (d : BitVec 5) (m : Option (BitVec 32))
  /-- VCMP_LE_F32 (R250): Lane-wise .f32 less-or-equal compare. -/
  | vcmpLeF32 (k : BitVec 3) (b : BitVec 5) (a : BitVec 5) (d : BitVec 5) (m : Option (BitVec 32))
  /-- VSEL_F32 (R250): Selects va or vb by the old destination lane. -/
  | vselF32 (k : BitVec 3) (b : BitVec 5) (a : BitVec 5) (d : BitVec 5) (m : Option (BitVec 32))
  /-- VREDADD_F32 (R254): Sums the lanes over the fixed tree into lane 0. -/
  | vredaddF32 (k : BitVec 3) (a : BitVec 5) (d : BitVec 5) (m : Option (BitVec 32))
  /-- VREDMAX_F32 (R254): Maximum over the fixed tree into lane 0. -/
  | vredmaxF32 (k : BitVec 3) (a : BitVec 5) (d : BitVec 5) (m : Option (BitVec 32))
  /-- VSCAN_F32 (R255): Inclusive prefix sum by doubling. -/
  | vscanF32 (k : BitVec 3) (a : BitVec 5) (d : BitVec 5) (m : Option (BitVec 32))
  /-- VADD_F16 (R246): Lane-wise .f16 or .bf16 add. -/
  | vaddF16 (t : BitVec 1) (k : BitVec 3) (b : BitVec 5) (a : BitVec 5) (d : BitVec 5) (m : Option (BitVec 32))
  /-- VSUB_F16 (R246): Lane-wise .f16 or .bf16 subtract. -/
  | vsubF16 (t : BitVec 1) (k : BitVec 3) (b : BitVec 5) (a : BitVec 5) (d : BitVec 5) (m : Option (BitVec 32))
  /-- VMUL_F16 (R246): Lane-wise .f16 or .bf16 multiply. -/
  | vmulF16 (t : BitVec 1) (k : BitVec 3) (b : BitVec 5) (a : BitVec 5) (d : BitVec 5) (m : Option (BitVec 32))
  /-- VFMA_F16 (R246): Lane-wise fused a*b+c. -/
  | vfmaF16 (t : BitVec 1) (k : BitVec 3) (b : BitVec 5) (a : BitVec 5) (d : BitVec 5) (m : Option (BitVec 32))
  /-- VFMS_F16 (R246): Lane-wise fused a*b-c. -/
  | vfmsF16 (t : BitVec 1) (k : BitVec 3) (b : BitVec 5) (a : BitVec 5) (d : BitVec 5) (m : Option (BitVec 32))
  /-- VFNMA_F16 (R246): Lane-wise fused c-a*b. -/
  | vfnmaF16 (t : BitVec 1) (k : BitVec 3) (b : BitVec 5) (a : BitVec 5) (d : BitVec 5) (m : Option (BitVec 32))
  /-- VMIN_F16 (R247): Lane-wise minimum. -/
  | vminF16 (t : BitVec 1) (k : BitVec 3) (b : BitVec 5) (a : BitVec 5) (d : BitVec 5) (m : Option (BitVec 32))
  /-- VMAX_F16 (R247): Lane-wise maximum. -/
  | vmaxF16 (t : BitVec 1) (k : BitVec 3) (b : BitVec 5) (a : BitVec 5) (d : BitVec 5) (m : Option (BitVec 32))
  /-- VDOT_F32 (R248): Pairwise 16-bit float dot product accumulated into .f32 lanes. -/
  | vdotF32 (t : BitVec 1) (k : BitVec 3) (b : BitVec 5) (a : BitVec 5) (d : BitVec 5) (m : Option (BitVec 32))
  /-- VCMP_EQ_F16 (R250): Lane-wise equal compare. -/
  | vcmpEqF16 (t : BitVec 1) (k : BitVec 3) (b : BitVec 5) (a : BitVec 5) (d : BitVec 5) (m : Option (BitVec 32))
  /-- VCMP_NE_F16 (R250): Lane-wise not-equal compare. -/
  | vcmpNeF16 (t : BitVec 1) (k : BitVec 3) (b : BitVec 5) (a : BitVec 5) (d : BitVec 5) (m : Option (BitVec 32))
  /-- VCMP_LT_F16 (R250): Lane-wise less-than compare. -/
  | vcmpLtF16 (t : BitVec 1) (k : BitVec 3) (b : BitVec 5) (a : BitVec 5) (d : BitVec 5) (m : Option (BitVec 32))
  /-- VCMP_LE_F16 (R250): Lane-wise less-or-equal compare. -/
  | vcmpLeF16 (t : BitVec 1) (k : BitVec 3) (b : BitVec 5) (a : BitVec 5) (d : BitVec 5) (m : Option (BitVec 32))
  /-- VSEL_F16 (R250): Selects by the old destination lane. -/
  | vselF16 (t : BitVec 1) (k : BitVec 3) (b : BitVec 5) (a : BitVec 5) (d : BitVec 5) (m : Option (BitVec 32))
  /-- VREDADD_F16 (R254): Tree sum into lane 0. -/
  | vredaddF16 (t : BitVec 1) (k : BitVec 3) (a : BitVec 5) (d : BitVec 5) (m : Option (BitVec 32))
  /-- VREDMAX_F16 (R254): Tree maximum into lane 0. -/
  | vredmaxF16 (t : BitVec 1) (k : BitVec 3) (a : BitVec 5) (d : BitVec 5) (m : Option (BitVec 32))
  /-- VSCAN_F16 (R255): Inclusive prefix sum. -/
  | vscanF16 (t : BitVec 1) (k : BitVec 3) (a : BitVec 5) (d : BitVec 5) (m : Option (BitVec 32))
  /-- VADD_I32 (R251): Lane-wise 32-bit integer add. -/
  | vaddI32 (n : BitVec 1) (k : BitVec 3) (b : BitVec 5) (a : BitVec 5) (d : BitVec 5) (m : Option (BitVec 32))
  /-- VSUB_I32 (R251): Lane-wise 32-bit subtract. -/
  | vsubI32 (n : BitVec 1) (k : BitVec 3) (b : BitVec 5) (a : BitVec 5) (d : BitVec 5) (m : Option (BitVec 32))
  /-- VMUL_I32 (R251): Lane-wise 32-bit multiply. -/
  | vmulI32 (n : BitVec 1) (k : BitVec 3) (b : BitVec 5) (a : BitVec 5) (d : BitVec 5) (m : Option (BitVec 32))
  /-- VMIN_I32 (R251): Lane-wise 32-bit minimum. -/
  | vminI32 (n : BitVec 1) (k : BitVec 3) (b : BitVec 5) (a : BitVec 5) (d : BitVec 5) (m : Option (BitVec 32))
  /-- VMAX_I32 (R251): Lane-wise 32-bit maximum. -/
  | vmaxI32 (n : BitVec 1) (k : BitVec 3) (b : BitVec 5) (a : BitVec 5) (d : BitVec 5) (m : Option (BitVec 32))
  /-- VAND_I32 (R251): Lane-wise and. -/
  | vandI32 (n : BitVec 1) (k : BitVec 3) (b : BitVec 5) (a : BitVec 5) (d : BitVec 5) (m : Option (BitVec 32))
  /-- VOR_I32 (R251): Lane-wise or. -/
  | vorI32 (n : BitVec 1) (k : BitVec 3) (b : BitVec 5) (a : BitVec 5) (d : BitVec 5) (m : Option (BitVec 32))
  /-- VXOR_I32 (R251): Lane-wise exclusive or. -/
  | vxorI32 (n : BitVec 1) (k : BitVec 3) (b : BitVec 5) (a : BitVec 5) (d : BitVec 5) (m : Option (BitVec 32))
  /-- VSHL_I32 (R252): Lane-wise left shift. -/
  | vshlI32 (n : BitVec 1) (k : BitVec 3) (b : BitVec 5) (a : BitVec 5) (d : BitVec 5) (m : Option (BitVec 32))
  /-- VSHR_I32 (R252): Lane-wise logical right shift. -/
  | vshrI32 (n : BitVec 1) (k : BitVec 3) (b : BitVec 5) (a : BitVec 5) (d : BitVec 5) (m : Option (BitVec 32))
  /-- VSHA_I32 (R252): Lane-wise arithmetic right shift. -/
  | vshaI32 (n : BitVec 1) (k : BitVec 3) (b : BitVec 5) (a : BitVec 5) (d : BitVec 5) (m : Option (BitVec 32))
  /-- VCMP_EQ_I32 (R251): Lane-wise equal compare. -/
  | vcmpEqI32 (n : BitVec 1) (k : BitVec 3) (b : BitVec 5) (a : BitVec 5) (d : BitVec 5) (m : Option (BitVec 32))
  /-- VCMP_NE_I32 (R251): Lane-wise not-equal compare. -/
  | vcmpNeI32 (n : BitVec 1) (k : BitVec 3) (b : BitVec 5) (a : BitVec 5) (d : BitVec 5) (m : Option (BitVec 32))
  /-- VCMP_LT_I32 (R251): Lane-wise less-than compare. -/
  | vcmpLtI32 (n : BitVec 1) (k : BitVec 3) (b : BitVec 5) (a : BitVec 5) (d : BitVec 5) (m : Option (BitVec 32))
  /-- VCMP_LE_I32 (R251): Lane-wise less-or-equal compare. -/
  | vcmpLeI32 (n : BitVec 1) (k : BitVec 3) (b : BitVec 5) (a : BitVec 5) (d : BitVec 5) (m : Option (BitVec 32))
  /-- VSEL_I32 (R251): Selects by the old destination lane. -/
  | vselI32 (n : BitVec 1) (k : BitVec 3) (b : BitVec 5) (a : BitVec 5) (d : BitVec 5) (m : Option (BitVec 32))
  /-- VREDADD_I32 (R254): Integer tree sum into lane 0. -/
  | vredaddI32 (n : BitVec 1) (k : BitVec 3) (a : BitVec 5) (d : BitVec 5) (m : Option (BitVec 32))
  /-- VREDMAX_I32 (R254): Integer tree maximum into lane 0. -/
  | vredmaxI32 (n : BitVec 1) (k : BitVec 3) (a : BitVec 5) (d : BitVec 5) (m : Option (BitVec 32))
  /-- VSCAN_I32 (R255): Integer inclusive prefix sum. -/
  | vscanI32 (n : BitVec 1) (k : BitVec 3) (a : BitVec 5) (d : BitVec 5) (m : Option (BitVec 32))
  /-- VADD_I16 (R251): Lane-wise 16-bit integer add. -/
  | vaddI16 (n : BitVec 1) (k : BitVec 3) (b : BitVec 5) (a : BitVec 5) (d : BitVec 5) (m : Option (BitVec 32))
  /-- VSUB_I16 (R251): Lane-wise 16-bit subtract. -/
  | vsubI16 (n : BitVec 1) (k : BitVec 3) (b : BitVec 5) (a : BitVec 5) (d : BitVec 5) (m : Option (BitVec 32))
  /-- VMUL_I16 (R251): Lane-wise 16-bit multiply. -/
  | vmulI16 (n : BitVec 1) (k : BitVec 3) (b : BitVec 5) (a : BitVec 5) (d : BitVec 5) (m : Option (BitVec 32))
  /-- VMIN_I16 (R251): Lane-wise 16-bit minimum. -/
  | vminI16 (n : BitVec 1) (k : BitVec 3) (b : BitVec 5) (a : BitVec 5) (d : BitVec 5) (m : Option (BitVec 32))
  /-- VMAX_I16 (R251): Lane-wise 16-bit maximum. -/
  | vmaxI16 (n : BitVec 1) (k : BitVec 3) (b : BitVec 5) (a : BitVec 5) (d : BitVec 5) (m : Option (BitVec 32))
  /-- VAND_I16 (R251): Lane-wise and. -/
  | vandI16 (n : BitVec 1) (k : BitVec 3) (b : BitVec 5) (a : BitVec 5) (d : BitVec 5) (m : Option (BitVec 32))
  /-- VOR_I16 (R251): Lane-wise or. -/
  | vorI16 (n : BitVec 1) (k : BitVec 3) (b : BitVec 5) (a : BitVec 5) (d : BitVec 5) (m : Option (BitVec 32))
  /-- VXOR_I16 (R251): Lane-wise exclusive or. -/
  | vxorI16 (n : BitVec 1) (k : BitVec 3) (b : BitVec 5) (a : BitVec 5) (d : BitVec 5) (m : Option (BitVec 32))
  /-- VSHL_I16 (R252): Lane-wise left shift. -/
  | vshlI16 (n : BitVec 1) (k : BitVec 3) (b : BitVec 5) (a : BitVec 5) (d : BitVec 5) (m : Option (BitVec 32))
  /-- VSHR_I16 (R252): Lane-wise logical right shift. -/
  | vshrI16 (n : BitVec 1) (k : BitVec 3) (b : BitVec 5) (a : BitVec 5) (d : BitVec 5) (m : Option (BitVec 32))
  /-- VSHA_I16 (R252): Lane-wise arithmetic right shift. -/
  | vshaI16 (n : BitVec 1) (k : BitVec 3) (b : BitVec 5) (a : BitVec 5) (d : BitVec 5) (m : Option (BitVec 32))
  /-- VCMP_EQ_I16 (R251): Lane-wise equal compare. -/
  | vcmpEqI16 (n : BitVec 1) (k : BitVec 3) (b : BitVec 5) (a : BitVec 5) (d : BitVec 5) (m : Option (BitVec 32))
  /-- VCMP_NE_I16 (R251): Lane-wise not-equal compare. -/
  | vcmpNeI16 (n : BitVec 1) (k : BitVec 3) (b : BitVec 5) (a : BitVec 5) (d : BitVec 5) (m : Option (BitVec 32))
  /-- VCMP_LT_I16 (R251): Lane-wise less-than compare. -/
  | vcmpLtI16 (n : BitVec 1) (k : BitVec 3) (b : BitVec 5) (a : BitVec 5) (d : BitVec 5) (m : Option (BitVec 32))
  /-- VCMP_LE_I16 (R251): Lane-wise less-or-equal compare. -/
  | vcmpLeI16 (n : BitVec 1) (k : BitVec 3) (b : BitVec 5) (a : BitVec 5) (d : BitVec 5) (m : Option (BitVec 32))
  /-- VSEL_I16 (R251): Selects by the old destination lane. -/
  | vselI16 (n : BitVec 1) (k : BitVec 3) (b : BitVec 5) (a : BitVec 5) (d : BitVec 5) (m : Option (BitVec 32))
  /-- VREDADD_I16 (R254): Integer tree sum into lane 0. -/
  | vredaddI16 (n : BitVec 1) (k : BitVec 3) (a : BitVec 5) (d : BitVec 5) (m : Option (BitVec 32))
  /-- VREDMAX_I16 (R254): Integer tree maximum into lane 0. -/
  | vredmaxI16 (n : BitVec 1) (k : BitVec 3) (a : BitVec 5) (d : BitVec 5) (m : Option (BitVec 32))
  /-- VSCAN_I16 (R255): Integer inclusive prefix sum. -/
  | vscanI16 (n : BitVec 1) (k : BitVec 3) (a : BitVec 5) (d : BitVec 5) (m : Option (BitVec 32))
  /-- VDOT_D_I16 (R253): Pairwise 16-bit integer dot product into 32-bit lanes. -/
  | vdotDI16 (n : BitVec 1) (k : BitVec 3) (b : BitVec 5) (a : BitVec 5) (d : BitVec 5) (m : Option (BitVec 32))
  /-- VADD_I8 (R251): Lane-wise 8-bit integer add. -/
  | vaddI8 (n : BitVec 1) (k : BitVec 3) (b : BitVec 5) (a : BitVec 5) (d : BitVec 5) (m : Option (BitVec 32))
  /-- VSUB_I8 (R251): Lane-wise 8-bit subtract. -/
  | vsubI8 (n : BitVec 1) (k : BitVec 3) (b : BitVec 5) (a : BitVec 5) (d : BitVec 5) (m : Option (BitVec 32))
  /-- VMUL_I8 (R251): Lane-wise 8-bit multiply. -/
  | vmulI8 (n : BitVec 1) (k : BitVec 3) (b : BitVec 5) (a : BitVec 5) (d : BitVec 5) (m : Option (BitVec 32))
  /-- VMIN_I8 (R251): Lane-wise 8-bit minimum. -/
  | vminI8 (n : BitVec 1) (k : BitVec 3) (b : BitVec 5) (a : BitVec 5) (d : BitVec 5) (m : Option (BitVec 32))
  /-- VMAX_I8 (R251): Lane-wise 8-bit maximum. -/
  | vmaxI8 (n : BitVec 1) (k : BitVec 3) (b : BitVec 5) (a : BitVec 5) (d : BitVec 5) (m : Option (BitVec 32))
  /-- VAND_I8 (R251): Lane-wise and. -/
  | vandI8 (n : BitVec 1) (k : BitVec 3) (b : BitVec 5) (a : BitVec 5) (d : BitVec 5) (m : Option (BitVec 32))
  /-- VOR_I8 (R251): Lane-wise or. -/
  | vorI8 (n : BitVec 1) (k : BitVec 3) (b : BitVec 5) (a : BitVec 5) (d : BitVec 5) (m : Option (BitVec 32))
  /-- VXOR_I8 (R251): Lane-wise exclusive or. -/
  | vxorI8 (n : BitVec 1) (k : BitVec 3) (b : BitVec 5) (a : BitVec 5) (d : BitVec 5) (m : Option (BitVec 32))
  /-- VSHL_I8 (R252): Lane-wise left shift. -/
  | vshlI8 (n : BitVec 1) (k : BitVec 3) (b : BitVec 5) (a : BitVec 5) (d : BitVec 5) (m : Option (BitVec 32))
  /-- VSHR_I8 (R252): Lane-wise logical right shift. -/
  | vshrI8 (n : BitVec 1) (k : BitVec 3) (b : BitVec 5) (a : BitVec 5) (d : BitVec 5) (m : Option (BitVec 32))
  /-- VSHA_I8 (R252): Lane-wise arithmetic right shift. -/
  | vshaI8 (n : BitVec 1) (k : BitVec 3) (b : BitVec 5) (a : BitVec 5) (d : BitVec 5) (m : Option (BitVec 32))
  /-- VCMP_EQ_I8 (R251): Lane-wise equal compare. -/
  | vcmpEqI8 (n : BitVec 1) (k : BitVec 3) (b : BitVec 5) (a : BitVec 5) (d : BitVec 5) (m : Option (BitVec 32))
  /-- VCMP_NE_I8 (R251): Lane-wise not-equal compare. -/
  | vcmpNeI8 (n : BitVec 1) (k : BitVec 3) (b : BitVec 5) (a : BitVec 5) (d : BitVec 5) (m : Option (BitVec 32))
  /-- VCMP_LT_I8 (R251): Lane-wise less-than compare. -/
  | vcmpLtI8 (n : BitVec 1) (k : BitVec 3) (b : BitVec 5) (a : BitVec 5) (d : BitVec 5) (m : Option (BitVec 32))
  /-- VCMP_LE_I8 (R251): Lane-wise less-or-equal compare. -/
  | vcmpLeI8 (n : BitVec 1) (k : BitVec 3) (b : BitVec 5) (a : BitVec 5) (d : BitVec 5) (m : Option (BitVec 32))
  /-- VSEL_I8 (R251): Selects by the old destination lane. -/
  | vselI8 (n : BitVec 1) (k : BitVec 3) (b : BitVec 5) (a : BitVec 5) (d : BitVec 5) (m : Option (BitVec 32))
  /-- VREDADD_I8 (R254): Integer tree sum into lane 0. -/
  | vredaddI8 (n : BitVec 1) (k : BitVec 3) (a : BitVec 5) (d : BitVec 5) (m : Option (BitVec 32))
  /-- VREDMAX_I8 (R254): Integer tree maximum into lane 0. -/
  | vredmaxI8 (n : BitVec 1) (k : BitVec 3) (a : BitVec 5) (d : BitVec 5) (m : Option (BitVec 32))
  /-- VSCAN_I8 (R255): Integer inclusive prefix sum. -/
  | vscanI8 (n : BitVec 1) (k : BitVec 3) (a : BitVec 5) (d : BitVec 5) (m : Option (BitVec 32))
  /-- VDOT_D_I8 (R253): Four-way 8-bit integer dot product into 32-bit lanes. -/
  | vdotDI8 (n : BitVec 1) (k : BitVec 3) (b : BitVec 5) (a : BitVec 5) (d : BitVec 5) (m : Option (BitVec 32))
  /-- VPERM (R257): Permutes lanes by an index vector. -/
  | vperm (w : BitVec 2) (k : BitVec 3) (b : BitVec 5) (a : BitVec 5) (d : BitVec 5)
  /-- VBCAST_S (R257): Broadcasts a scalar to the active lanes. -/
  | vbcastS (w : BitVec 2) (k : BitVec 3) (a : BitVec 5) (d : BitVec 5)
  /-- VCOMPRESS (R258): Packs selected lanes toward lane 0. -/
  | vcompress (w : BitVec 2) (k : BitVec 3) (b : BitVec 5) (a : BitVec 5) (d : BitVec 5)
  /-- VEXPAND (R258): Spreads lanes to selected positions. -/
  | vexpand (w : BitVec 2) (k : BitVec 3) (b : BitVec 5) (a : BitVec 5) (d : BitVec 5)
  /-- VMOVS_TO_SCALAR (R259): Moves one vector lane to a scalar register. -/
  | vmovsToScalar (w : BitVec 2) (b : BitVec 5) (a : BitVec 5) (d : BitVec 5)
  /-- VMOVS_TO_VECTOR (R259): Moves a scalar into one vector lane. -/
  | vmovsToVector (w : BitVec 2) (b : BitVec 5) (a : BitVec 5) (d : BitVec 5)
  /-- VEXT (R257): Shifts lanes down by a scalar amount. -/
  | vext (w : BitVec 2) (k : BitVec 3) (b : BitVec 5) (a : BitVec 5) (d : BitVec 5)
  /-- VBCAST_V (R257): Broadcasts one lane of a vector. -/
  | vbcastV (w : BitVec 2) (k : BitVec 3) (b : BitVec 5) (a : BitVec 5) (d : BitVec 5)
  /-- VMOV (R257): Copies active lanes. -/
  | vmov (w : BitVec 2) (k : BitVec 3) (a : BitVec 5) (d : BitVec 5)
  /-- VPOP (R260): Pops a data entry of FA0 or FA1 into a vector. -/
  | vpop (w : BitVec 2) (k : BitVec 3) (a : BitVec 5) (d : BitVec 5)
  /-- VPUSH (R260): Pushes a vector as a data entry to AF0. -/
  | vpush (w : BitVec 2) (k : BitVec 3) (a : BitVec 5) (d : BitVec 5)
  /-- KSET (R262): Sets a predicate count from a scalar. -/
  | kset (a : BitVec 5) (d : BitVec 5)
  /-- KFIRST (R262): Counts leading non-zero active lanes. -/
  | kfirst (w : BitVec 2) (k : BitVec 3) (a : BitVec 5) (d : BitVec 5)
  /-- KMIN (R262): Takes the smaller of two predicate counts. -/
  | kmin (b : BitVec 5) (a : BitVec 5) (d : BitVec 5)
  /-- KPOP (R263): Turns an ldff count entry into a predicate. -/
  | kpop (w : BitVec 2) (b : BitVec 5) (a : BitVec 5) (d : BitVec 5)
  /-- GANG (R267): Forms a gang if every follower offer is ready. -/
  | gang (a : BitVec 5) (d : BitVec 5)
  /-- GJOIN (R266): Records a gang offer and ends the task. -/
  | gjoin (a : BitVec 5)
  /-- GDISBAND (R268): Disbands the gang. -/
  | gdisband
  /-- CVT (R279): Converts a unit of queue entries between element types. -/
  | cvt (t : BitVec 4) (s : BitVec 4) (a : BitVec 5) (d : BitVec 5) (m : Option (BitVec 32))
  /-- FQMV (R278): Moves n queue entries unchanged, tags included. -/
  | fqmv (n : BitVec 5) (a : BitVec 5) (d : BitVec 5) (m : Option (BitVec 32))
  /-- UNPACK_CE8 (R282): Decodes one CE8 block from a queue stream. -/
  | unpackCe8 (t : BitVec 4) (b : BitVec 5) (a : BitVec 5) (d : BitVec 5)
  /-- PACK_CE8 (R283): Codes 64 .e4m3 values into a CE8 block in the pack buffer. -/
  | packCe8 (f : BitVec 1) (b : BitVec 5) (a : BitVec 5) (d : BitVec 5)
  /-- MXS (R284): Computes MX scale bytes without popping. -/
  | mxs (t : BitVec 4) (x : BitVec 2) (a : BitVec 5) (d : BitVec 5)
  /-- MXQ (R284): Quantises floats into MX blocks. -/
  | mxq (t : BitVec 4) (x : BitVec 2) (b : BitVec 5) (a : BitVec 5) (d : BitVec 5)
  /-- MXD (R285): Dequantises MX blocks to floats. -/
  | mxd (t : BitVec 4) (x : BitVec 2) (b : BitVec 5) (a : BitVec 5) (d : BitVec 5)
  /-- MMA (R302): Accepts a matrix operation on two rings into an accumulator. -/
  | mma (m : BitVec 3) (t : BitVec 4) (s : BitVec 5) (b : BitVec 3) (a : BitVec 3) (c : BitVec 2)
  /-- GISSUE (R303): Joint matrix operation across a gang. -/
  | gissue (m : BitVec 3) (t : BitVec 4) (s : BitVec 5) (b : BitVec 3) (a : BitVec 3) (c : BitVec 2)
  /-- MZERO (R305): Zeroes an accumulator as an array operation. -/
  | mzero (c : BitVec 2)
  /-- MROW (R305): Copies half an accumulator row into a vector register. -/
  | mrow (v : BitVec 5) (h : BitVec 1) (r : BitVec 5) (c : BitVec 2)
  /-- MDRAIN (R307): Drains an accumulator through a shape record via the BCE. -/
  | mdrain (m : BitVec 3) (t : BitVec 4) (a : BitVec 5) (c : BitVec 2)
  /-- MDRAINADD (R308): Drains an accumulator by adding into the destination at its homes. -/
  | mdrainadd (m : BitVec 3) (t : BitVec 4) (a : BitVec 5) (c : BitVec 2)
  /-- RINGCFG (R292): Configures or disables an operand ring. -/
  | ringcfg (n : BitVec 3) (a : BitVec 5)
  /-- RINGPUSH_M (R293): Appends scratchpad lines to the filling ring slot. -/
  | ringpushM (n : BitVec 3) (b : BitVec 5) (a : BitVec 5) (d : BitVec 5)
  /-- RINGPUSH_Q (R293): Appends queue entries to the filling ring slot. -/
  | ringpushQ (n : BitVec 3) (b : BitVec 5) (a : BitVec 5)
  /-- TSRW (R314): Writes a shape record and returns its new handle. -/
  | tsrw (g : BitVec 4) (b : BitVec 5) (a : BitVec 5) (d : BitVec 5)
  /-- TSRINV (R314): Invalidates a shape-record slot. -/
  | tsrinv (b : BitVec 5)
  /-- BCOPY (R318): Issues a tensor copy between records. -/
  | bcopy (d : BitVec 5)
  /-- BCOPY_RING (R319): Issues a tensor copy delivered into a ring slot. -/
  | bcopyRing (q : BitVec 6) (d : BitVec 5)
  /-- BGATHER (R320): Issues a row gather by an index array. -/
  | bgather (d : BitVec 5)
  /-- BGATHER_RING (R320): Issues a row gather delivered into a ring slot. -/
  | bgatherRing (q : BitVec 6) (d : BitVec 5)
  /-- BSCATTER (R320): Issues a row scatter by an index array. -/
  | bscatter (d : BitVec 5)
  /-- BSTAT (R321): Writes the BCE status word. -/
  | bstat (d : BitVec 5)
  /-- FENCE (R344): Holds until earlier posted writes in the scope, and optionally engine work, are done. -/
  | fence (s : BitVec 2) (e : BitVec 1)
  /-- ACKW (R345): Holds until unacknowledged writes in the scope are at most A. -/
  | ackw (s : BitVec 2) (a : BitVec 5) (d : BitVec 5)
  /-- ST_REL (R347): Stores a word after a release at a scope. -/
  | stRel (g : BitVec 4) (s : BitVec 2) (o : BitVec 7) (a : BitVec 5) (d : BitVec 5)
  /-- LD_ACQ (R348): Loads a word with a scope test. -/
  | ldAcq (g : BitVec 4) (s : BitVec 2) (o : BitVec 7) (a : BitVec 5) (d : BitVec 5)
  /-- AMO_ADD (R373): Atomic integer add returning the old value. -/
  | amoAdd (g : BitVec 4) (w : BitVec 1) (b : BitVec 5) (a : BitVec 5) (d : BitVec 5)
  /-- AMO_AND (R373): Atomic and. -/
  | amoAnd (g : BitVec 4) (w : BitVec 1) (b : BitVec 5) (a : BitVec 5) (d : BitVec 5)
  /-- AMO_OR (R373): Atomic or. -/
  | amoOr (g : BitVec 4) (w : BitVec 1) (b : BitVec 5) (a : BitVec 5) (d : BitVec 5)
  /-- AMO_XOR (R373): Atomic exclusive or. -/
  | amoXor (g : BitVec 4) (w : BitVec 1) (b : BitVec 5) (a : BitVec 5) (d : BitVec 5)
  /-- AMO_MIN (R373): Atomic signed minimum. -/
  | amoMin (g : BitVec 4) (w : BitVec 1) (b : BitVec 5) (a : BitVec 5) (d : BitVec 5)
  /-- AMO_MAX (R373): Atomic signed maximum. -/
  | amoMax (g : BitVec 4) (w : BitVec 1) (b : BitVec 5) (a : BitVec 5) (d : BitVec 5)
  /-- AMO_MINN (R373): Atomic unsigned minimum. -/
  | amoMinn (g : BitVec 4) (w : BitVec 1) (b : BitVec 5) (a : BitVec 5) (d : BitVec 5)
  /-- AMO_MAXN (R373): Atomic unsigned maximum. -/
  | amoMaxn (g : BitVec 4) (w : BitVec 1) (b : BitVec 5) (a : BitVec 5) (d : BitVec 5)
  /-- AMO_SWAP (R373): Atomic swap. -/
  | amoSwap (g : BitVec 4) (w : BitVec 1) (b : BitVec 5) (a : BitVec 5) (d : BitVec 5)
  /-- AMO_CAS (R373): Atomic compare and swap. -/
  | amoCas (g : BitVec 4) (w : BitVec 1) (b : BitVec 5) (a : BitVec 5) (d : BitVec 5)
  /-- RED_INTEGER (R373): Posted no-return integer atomic. -/
  | redInteger (o : BitVec 3) (g : BitVec 4) (w : BitVec 1) (b : BitVec 5) (a : BitVec 5)
  /-- FAMO_ADD (R374): Atomic float add returning the old value. -/
  | famoAdd (g : BitVec 4) (t : BitVec 1) (b : BitVec 5) (a : BitVec 5) (d : BitVec 5)
  /-- FAMO_MIN (R374): Atomic float minimum. -/
  | famoMin (g : BitVec 4) (t : BitVec 1) (b : BitVec 5) (a : BitVec 5) (d : BitVec 5)
  /-- FAMO_MAX (R374): Atomic float maximum. -/
  | famoMax (g : BitVec 4) (t : BitVec 1) (b : BitVec 5) (a : BitVec 5) (d : BitVec 5)
  /-- RED_FLOAT (R374): Posted no-return float atomic. -/
  | redFloat (o : BitVec 2) (g : BitVec 4) (t : BitVec 1) (b : BitVec 5) (a : BitVec 5)
  /-- BFINS (R375): Atomically inserts masked bits into a word. -/
  | bfins (g : BitVec 4) (b : BitVec 5) (a : BitVec 5) (d : BitVec 5)
  /-- BFFCS (R375): Atomically finds and sets the lowest clear eligible bit. -/
  | bffcs (g : BitVec 4) (b : BitVec 5) (a : BitVec 5) (d : BitVec 5)
  /-- BFPLS (R375): Atomically sets request bits if the population stays within a limit. -/
  | bfpls (g : BitVec 4) (b : BitVec 5) (a : BitVec 5) (d : BitVec 5)
  /-- TKT_GET (R377): Writes the ticket state word. -/
  | tktGet (d : BitVec 5)
  /-- TKT_SCOPE (R378): Queries the scope, sets its overflow hamper or ends the stream. -/
  | tktScope (a : BitVec 5) (d : BitVec 5)
  /-- TKT_VOID (R379): Voids the trapped task's tile task and ends the task. -/
  | tktVoid (a : BitVec 5)
  /-- BAR_INIT (R394): Sets a named barrier counted, bound or off. -/
  | barInit (n : BitVec 7) (a : BitVec 5)
  /-- BAR_ARR (R396): Sends an arrival to a barrier and writes its status. -/
  | barArr (r : BitVec 2) (n : BitVec 7) (a : BitVec 5) (d : BitVec 5)
  /-- BAR_WAIT (R397): Registers a wait for the next completion of a barrier. -/
  | barWait (r : BitVec 2) (n : BitVec 7) (a : BitVec 5)
  /-- BAR_EXP (R395): Sets the next phase's expected count. -/
  | barExp (n : BitVec 7) (a : BitVec 5)
  /-- GRP_JOIN (R399): Joins a collective group. -/
  | grpJoin (a : BitVec 5) (d : BitVec 5)
  /-- GRP_LEAVE (R399): Leaves a collective group. -/
  | grpLeave (a : BitVec 5) (d : BitVec 5)
  /-- GRP_Q (R399): Queries a group at its owner. -/
  | grpQ (a : BitVec 5) (d : BitVec 5)
  /-- SEM_INIT (R400): Sets a semaphore's value and serves claims. -/
  | semInit (n : BitVec 4) (a : BitVec 5)
  /-- SEM_POST (R400): Adds to a semaphore and serves claims. -/
  | semPost (n : BitVec 4) (a : BitVec 5)
  /-- SEM_ARM (R400): Appends a claim to a semaphore. -/
  | semArm (n : BitVec 4) (a : BitVec 5)
  /-- RND_CLOSE (R461): Makes a close of the issuing zone due. -/
  | rndClose
  /-- RND_Q (R462): Writes the round status word. -/
  | rndQ (d : BitVec 5)
  /-- LMAP (R441): Reads a tile-table entry. -/
  | lmap (a : BitVec 5) (d : BitVec 5)
  /-- FOLD_Q (R442): Queries, summons, pins or unpins a bundle. -/
  | foldQ (b : BitVec 5) (a : BitVec 5) (d : BitVec 5)
  /-- COMPACT_ADD (R58): Compact add D, D, S. -/
  | compactAdd (s : BitVec 5) (d : BitVec 5)
  /-- COMPACT_SUB (R58): Compact sub D, D, S. -/
  | compactSub (s : BitVec 5) (d : BitVec 5)
  /-- COMPACT_AND (R58): Compact and D, D, S. -/
  | compactAnd (s : BitVec 5) (d : BitVec 5)
  /-- COMPACT_OR (R58): Compact or D, D, S. -/
  | compactOr (s : BitVec 5) (d : BitVec 5)
  /-- COMPACT_MOVE (R58): Compact add D, s0, S. -/
  | compactMove (s : BitVec 5) (d : BitVec 5)
  /-- COMPACT_XOR (R58): Compact xor D, D, S. -/
  | compactXor (s : BitVec 5) (d : BitVec 5)
  /-- COMPACT_ADDI (R58): Compact addi D, D, i5. -/
  | compactAddi (i : BitVec 5) (d : BitVec 5)
  /-- COMPACT_MOVI (R58): Compact movi D, i5. -/
  | compactMovi (i : BitVec 5) (d : BitVec 5)
  /-- COMPACT_SHLI (R58): Compact shli D, D, u5. -/
  | compactShli (u : BitVec 5) (d : BitVec 5)
  /-- COMPACT_SHRI (R58): Compact shri D, D, u5. -/
  | compactShri (u : BitVec 5) (d : BitVec 5)
  /-- COMPACT_SHAI (R58): Compact shai D, D, u5. -/
  | compactShai (u : BitVec 5) (d : BitVec 5)
  /-- COMPACT_ANDI (R58): Compact andi D, D, i5. -/
  | compactAndi (i : BitVec 5) (d : BitVec 5)
  /-- COMPACT_SLT (R58): Compact slt D, D, S. -/
  | compactSlt (s : BitVec 5) (d : BitVec 5)
  /-- COMPACT_SEQ (R58): Compact seq D, D, S. -/
  | compactSeq (s : BitVec 5) (d : BitVec 5)
  /-- COMPACT_MUL (R58): Compact mul D, D, S. -/
  | compactMul (s : BitVec 5) (d : BitVec 5)
  /-- COMPACT_LD_D (R58): Compact ld.d D, [seg0 + S]. -/
  | compactLdD (s : BitVec 5) (d : BitVec 5)
  /-- COMPACT_ST_D (R58): Compact st.d D, [seg0 + S]. -/
  | compactStD (s : BitVec 5) (d : BitVec 5)
  /-- COMPACT_BEQ (R58): Compact beq D, s0, o5. -/
  | compactBeq (o : BitVec 5) (d : BitVec 5)
  /-- COMPACT_BNE (R58): Compact bne D, s0, o5. -/
  | compactBne (o : BitVec 5) (d : BitVec 5)
  /-- COMPACT_NOP (R59): Compact nop, halfword 0x0028. -/
  | compactNop
  /-- COMPACT_BRK (R59): Compact brk, halfword 0x0068. -/
  | compactBrk
  /-- COMPACT_END (R59): Compact end, halfword 0x00A8. -/
  | compactEnd
  /-- LAUNCH_SUBMIT (R471): A host write of an interface page's tail submits launch packets. -/
  | launchSubmit (link : Nat) (iface : Nat) (tail : Word)
  /-- LAUNCH_ADMISSION (R474): Admission takes a packet, checks it, allots resources, initialises tiles and places bundles, or refuses it. -/
  | launchAdmission (iface : Nat) (allot : Bool)
  /-- START_RELEASE (R458): A power group's start activations are released 300 cycles times its rank after admission. -/
  | startRelease (l : Nat) (pg : Nat)
  /-- LAUNCH_COMPLETION (R475): Once a launch completes or is refused, flags and the completion record are written and the MSI-X vector raised. -/
  | launchCompletion (l : Nat)
  /-- CONSUMED_COUNT_WRITE (R475): A host write of cons frees completion-ring places for held records. -/
  | consumedCountWrite (link : Nat) (iface : Nat) (cons : Word)
  /-- ACTIVATION_ENTER (R150): A due activation enters the run queue once its declared room is present and an entry is free, reserving that room. -/
  | activationEnter (core : CoreId) (src : ActSource)
  /-- TASK_START (R154): A free context starts the highest-priority ready entry, reloading a fibre or trapping for an invalid class. -/
  | taskStart (core : CoreId)
  /-- WAIT_CLEAR (R151): A unit held on an empty or full queue or an empty word proceeds once the condition clears. -/
  | waitClear (ctx : CtxId)
  /-- LONG (R152): The handler watchdog expires and the held unit traps LONG. -/
  | long (ctx : CtxId)
  /-- BOUNDARY_OVERRUN (R153): A task still running cw.wdog cycles after a fold or close request traps LONG kind 4. -/
  | boundaryOverrun (ctx : CtxId)
  /-- ASYNC_TRAP_TAKE (R420): A pending asynchronous trap is taken at a unit boundary, abandoning any wait. -/
  | asyncTrapTake (ctx : CtxId)
  /-- USER_INTERRUPT_ENTRY (R163): A pending unmasked user interrupt enters its handler at a unit boundary. -/
  | userInterruptEntry (ctx : CtxId)
  /-- KERNEL_NOTICE (R421): DEADLOCK, ZONELOST or TILEFAULT starts a notice context at kernel level. -/
  | kernelNotice (core : CoreId)
  /-- TILE_TASK_COMPLETE (R144): A tile task with nothing running, ready or armed completes and reports to its join entry. -/
  | tileTaskComplete (tt : TTId)
  /-- TILE_TASK_RETIRE (R359): A completed tile task with all effects acknowledged retires and the front moves on. -/
  | tileTaskRetire (tt : TTId)
  /-- FRONT_ADVANCE (R360): A home learns of a front advance and applies the newly passed held entries in commit order. -/
  | frontAdvance (home : Home)
  /-- MESSAGE_INJECT (R187): The NI injects a pending message once its device-scope release is satisfied. -/
  | messageInject (core : CoreId)
  /-- MESSAGE_ARRIVAL (R182): A message reaches a receive end and is buffered, hampered, refused, bounced or parked. -/
  | messageArrival (id : Nat)
  /-- CREDIT_RETURN (R184): Released message flits are credited back to the send end. -/
  | creditReturn (id : Nat)
  /-- RETRY_REPLY (R193): The sending NI consumes a retry reply and schedules a resend. -/
  | retryReply (id : Nat)
  /-- RETRY_RESEND (R193): After the backoff the same message is resent with the same key. -/
  | retryResend (id : Nat)
  /-- COUNTER_INCREMENT_ARRIVAL (R147): A counter increment reaches a waiting-task entry. -/
  | counterIncrementArrival (id : Nat)
  /-- REMOTE_ACCESS_ARRIVAL (R217): A read or ldsync request is checked and performed at its home. -/
  | remoteAccessArrival (id : Nat)
  /-- EFFECT_ARRIVAL (R363): A write, atomic, wake or add reaches its home and is applied, held, hampered or retried. -/
  | effectArrival (id : Nat)
  /-- WAIT_REQUEST_ARRIVAL (R162): A waita request is compared at the home and registered or answered at once. -/
  | waitRequestArrival (id : Nat)
  /-- LDSYNC_CANCEL (R227): A cancel discards a held remote ldsync at its home. -/
  | ldsyncCancel (id : Nat)
  /-- READ_REPLY (R218): The reply of an in-progress unit arrives and completes it or traps PROT. -/
  | readReply (id : Nat)
  /-- WRITE_ACKNOWLEDGEMENT (R334): A posted write's acknowledgement decrements the context's counts and may release a hold. -/
  | writeAcknowledgement (id : Nat)
  /-- WRITE_DENIAL (R220): A denied posted write is reported, counted and raises async PROT. -/
  | writeDenial (id : Nat)
  /-- XPART_NOTICE (R465): An arrival refused at ejection for its tag is reported to the sending NI. -/
  | xpartNotice (id : Nat)
  /-- FLUSH_READ_COMPLETE (R338): The zero-length host read of a system release completes. -/
  | flushReadComplete (id : Nat)
  /-- TRANSFER_COMPLETE (R228): All writes of a transfer or drain are applied and its notice is given. -/
  | transferComplete (x : Nat)
  /-- RING_DELIVERY_COMPLETE (R289): A BCE ring delivery completes in claim order and publishes its slot. -/
  | ringDeliveryComplete (x : Nat)
  /-- ARRAY_OPERATION_RETIRE (R301): A matrix or accumulator operation retires, pops its slots and posts flags. -/
  | arrayOperationRetire (tile : TileId)
  /-- GJOIN_OFFER_READY (R266): A gang offer becomes ready once no task runs on the AC, optionally notifying the leader. -/
  | gjoinOfferReady (core : CoreId)
  /-- APERTURE_WRITE (R478): A host write through an aperture is translated and applied at its home. -/
  | apertureWrite (link : Nat) (iface : Nat) (off : Word) (bytes : List Byte)
  /-- APERTURE_READ (R478): A host read through an aperture returns the bytes at the home. -/
  | apertureRead (link : Nat) (iface : Nat) (off : Word) (n : Nat)
  /-- BARRIER_ARRIVAL (R383): An arrival is counted, registered or refused at the barrier owner. -/
  | barrierArrival (id : Nat)
  /-- BARRIER_REGISTRATION (R397): A bar.wait registration reaches the owner. -/
  | barrierRegistration (id : Nat)
  /-- BARRIER_BIND (R394): A bound bar.init is bound at the group owner and replied. -/
  | barrierBind (id : Nat)
  /-- GROUP_CHANGE (R387): A join or leave is applied at the group owner and propagated. -/
  | groupChange (id : Nat)
  /-- MEMBERSHIP_UPDATE (R388): A member core or barrier owner applies a join or leave. -/
  | membershipUpdate (id : Nat)
  /-- PAGE_WALK (R407): A cluster home reads buckets and performs a walk. -/
  | pageWalk (id : Nat)
  /-- WALK_COMPLETE (R406): The translation interface forwards a hit or handles a not-present result. -/
  | walkComplete (id : Nat)
  /-- FAULT_COMPLETION (R415): A posted completion resumes or fails a fibre or held engine part. -/
  | faultCompletion (tag : BitVec 8) (number : BitVec 32) (fail : Bool)
  /-- FAULT_QUEUE_HEAD_WRITE (R479): Advancing the fault-queue head frees a place for a held record. -/
  | faultQueueHeadWrite (tag : BitVec 8) (head : Word)
  /-- INVALIDATION (R408): An invalidation through HW-B drops matching cached entries. -/
  | invalidation (tag : BitVec 8) (va : Word) (size : BitVec 2)
  /-- INVALIDATION_COMPLETE (R408): An invalidation completes once caches dropped and old accesses acknowledged. -/
  | invalidationComplete (k : Nat)
  /-- FOLD (R433): A bundle's entries go to folding and its members stop starting activations. -/
  | fold (l : Nat) (b : Nat)
  /-- FOLD_STREAMED (R433): Once members are at their boundaries their state is streamed and entries become folded. -/
  | foldStreamed (l : Nat) (b : Nat)
  /-- UNFOLD (R436): A summoned bundle takes a free frame and its images stream in. -/
  | unfold (l : Nat) (b : Nat)
  /-- UNFOLD_COMPLETE (R436): Fold hampers are replayed and entries become resident. -/
  | unfoldComplete (l : Nat) (b : Nat)
  /-- PARKED_ARRIVAL (R435): An arrival for a folded tile is parked in its fold hamper and summons the bundle. -/
  | parkedArrival (id : Nat)
  /-- REGULATOR_FAILURE (R452): A regulator power failure stops and kills the zone's tiles. -/
  | regulatorFailure (zone : Nat)
  /-- UNCORRECTABLE_ERROR (R452): An uncorrectable tile error stops the zone and kills the tile. -/
  | uncorrectableError (tile : PTile)
  /-- CORRECTABLE_ERROR (R452): A correctable error is corrected and counted. -/
  | correctableError (tile : PTile)
  /-- HBM_LINE_ERROR (R452): An uncorrectable HBM line error fails every launch mapping it. -/
  | hbmLineError (stack : Nat) (off : Nat) (areas : List Nat)
  /-- REMAP_WAVE_COMMIT (R438): After every tile is visited moved entries take their new places. -/
  | remapWaveCommit (zone : Nat)
  /-- ROUND_TIMER (R445): A round open 75,000 cycles makes its close due. -/
  | roundTimer (zone : Nat)
  /-- CLOSE_DEFERRAL_END (R445): A deferred close becomes effective-due after 1,024 cycles. -/
  | closeDeferralEnd (zone : Nat)
  /-- ROUND_CLOSE (R446): Once tasks and engines are at boundaries the round closes and its image is captured. -/
  | roundClose (zone : Nat)
  /-- ROUND_MIRRORED (R449): The buddy acknowledges an image; held tagged traffic is released and the log discarded. -/
  | roundMirrored (zone : Nat)
  /-- CURRENT_STEP (R457): At each 300-cycle step the controller applies the group's current limit. -/
  | currentStep (pg : Nat)
  /-- DROOP_ALARM (R459): A zone under 0.70 V for 30 cycles throttles its power group. -/
  | droopAlarm (zone : Nat)
  /-- DROOP_CLEAR (R459): The alarm clears 3,000 cycles after the last low sample. -/
  | droopClear (pg : Nat)
  /-- DEADLOCK_SCAN (R195): Every 8,192 cycles the stewards scan for cycles of stuck cores. -/
  | deadlockScan (records : List Nat)
  /-- PARTITION_CREATE (R463): System software creates a partition through HW-B. -/
  | partitionCreate (tag : BitVec 8) (tiles : List PTile) (pool : Nat)
  /-- PARTITION_DELETE (R463): System software deletes a partition through HW-B. -/
  | partitionDelete (tag : BitVec 8)
  /-- GROW (R467): Assigns tiles to a partition and serves queued summonses. -/
  | grow (tag : BitVec 8) (tiles : List PTile)
  /-- SHRINK (R467): Folds bundles on named tiles and releases them, or is refused. -/
  | shrink (tag : BitVec 8) (tiles : List PTile)
  /-- PRE_EMPTION (R469): Shrinks one partition and grows another with the same tiles. -/
  | preEmption (p : BitVec 8) (q : BitVec 8) (tiles : List PTile)
  /-- COMMAND_SUBMIT (R481): A write of the command page tail submits commands. -/
  | commandSubmit (tag : BitVec 8) (tail : Word)
  /-- PROTECTION_DESCRIPTOR (R480): Command operation 1 writes a tile's protection descriptor. -/
  | protectionDescriptor (tag : BitVec 8)
  /-- CONTEXT_SAVE (R422): Command operation 2 saves a LONG-trapped context at its trap entry. -/
  | contextSave (tag : BitVec 8)
  /-- LOAD_OBJECT (R505): Command operation 3 checks an object and issues a handle or refusal record. -/
  | loadObject (tag : BitVec 8) (obj : Object)
  /-- UNLOAD_PROGRAM (R481): Command operation 4 frees a program handle. -/
  | unloadProgram (tag : BitVec 8)
  /-- UNKNOWN_COMMAND (R481): A command with an unknown operation gets status 2. -/
  | unknownCommand (tag : BitVec 8)
  /-- SLOT_TABLE_COMMIT (R484): A commit write schedules staged slot tables. -/
  | slotTableCommit (slot : Word)
  /-- SLOT_TABLE_TAKE_EFFECT (R484): Staged tables take effect at a frame boundary on every link. -/
  | slotTableTakeEffect
  /-- SCALE_OUT_FRAME_RECEIVE (R487): A transport frame is taken in sequence, duplicates dropped, and acknowledged. -/
  | scaleOutFrameReceive (port : Nat) (input : PortInput)
  /-- SCALE_OUT_ACK (R487): An acknowledgement frees a sent frame. -/
  | scaleOutAck (edge : Nat) (seq : BitVec 32)
  /-- SCALE_OUT_RETRANSMIT (R487): An unacknowledged frame is resent after 10 microseconds. -/
  | scaleOutRetransmit (edge : Nat)
  /-- PORT_DOWN (R488): A port goes down and its edges' messages are held. -/
  | portDown (port : Nat)
  /-- PORT_UP (R488): A port comes back and held messages are sent. -/
  | portUp (port : Nat)
  /-- EDGE_REBIND (R488): An edge rebound to another port resends from the oldest unacknowledged sequence. -/
  | edgeRebind (edge : Nat) (port : Nat) (bind : Option EdgeEnd)
  /-- PTP_EVENT_MESSAGE (R486): A 1588 event message is timestamped and disciplines the slot counter. -/
  | ptpEventMessage (port : Nat) (time : Nat)
  /-- PROFILE_MASK_WRITE (R489): A profile-mask write is copied to cw.prof at the next activation. -/
  | profileMaskWrite (tag : BitVec 8) (mask : BitVec 8)
  /-- KERNEL_IMAGE_WRITE (R512): A kernel image write is stored or rejected and logged. -/
  | kernelImageWrite (tag : BitVec 8) (role : Role) (off : Nat) (bytes : List Byte)
  /-- HYPER_IMAGE_WRITE (R512): A hyper image write is stored or rejected and logged. -/
  | hyperImageWrite (off : Nat) (bytes : List Byte)
  /-- FAILS_CLEAR (R501): Clearing fails resets every steward's failed-start count. -/
  | failsClear (value : Word)
  /-- REGISTER_WRITE (R9): A write to a register without behaviour of its own stores its RW fields. -/
  | registerWrite (link : Nat) (reg : HostReg) (value : Word)
  /-- RESET (R490): A module reset starts bring-up on every die. -/
  | reset
  /-- FIRMWARE_VERIFY (R491): Phase 1: the boot ROM verifies a firmware slot and counts the start. -/
  | firmwareVerify (die : Nat)
  /-- DIE_SELF_TEST (R492): Phase 2: the log is read and the die self-tested. -/
  | dieSelfTest (die : Nat) (tiles : List Nat) (links : List Nat) (zones : List Nat) (ports : List (Nat × Bool))
  /-- SEAM_TRAINING (R498): Phase 3: seam links train pairwise. -/
  | seamTraining (a : Nat) (b : Nat) (fails : List Nat)
  /-- ISLAND_MERGING (R499): Phase 4: islands merge over up seams. -/
  | islandMerging
  /-- START_TEST (R500): Phase 5: start test, routes, pool order, buddy pairing and front network. -/
  | startTest (faults : List Nat)
  /-- BOOT_STATUS_WRITE (R502): Phase 6: the boot status block is written and counts updated. -/
  | bootStatusWrite
  /-- PHASE_TIME_LIMIT (R490): A die or seam missing its phase time limit drops out. -/
  | phaseTimeLimit (die : Nat)
  /-- GET_VERSION (R504): SPDM GET_VERSION request. -/
  | getVersion (link : Nat)
  /-- GET_CAPABILITIES (R504): SPDM GET_CAPABILITIES request. -/
  | getCapabilities (link : Nat)
  /-- NEGOTIATE_ALGORITHMS (R504): SPDM NEGOTIATE_ALGORITHMS request. -/
  | negotiateAlgorithms (link : Nat)
  /-- GET_DIGESTS (R504): SPDM GET_DIGESTS request for slot 0. -/
  | getDigests (link : Nat)
  /-- GET_CERTIFICATE (R504): SPDM GET_CERTIFICATE request for slot 0. -/
  | getCertificate (link : Nat) (slot : BitVec 8) (off : BitVec 16) (len : BitVec 16)
  /-- CHALLENGE (R504): SPDM CHALLENGE request. -/
  | challenge (link : Nat) (slot : BitVec 8) (nonce : BitVec 256)
  /-- GET_MEASUREMENTS (R504): SPDM signed GET_MEASUREMENTS request. -/
  | getMeasurements (link : Nat) (block : BitVec 8) (signed : Bool) (nonce : BitVec 256)
  /-- UNSUPPORTED_REQUEST (R504): Any other SPDM request is answered ERROR UnsupportedRequest. -/
  | unsupportedRequest (link : Nat) (code : BitVec 8)
  /-- ILLEGAL (R56): A unit whose bits match no assigned form (an unassigned major or compact major, an unassigned func, a non-zero reserved field, M = 1 on an unmarked major) traps ILLEGAL with no effect. -/
  | illegal (bits : Word)
  /-- FETCH_PROT (R40): A fetch whose first halfword lies outside every code image, or in an image above the current level, or whose unit runs past its image, traps PROT with cw.tval holding the fetch address. -/
  | fetchProt (addr : Word)
  /-- POWER_LOSS (R496): Loss of the module supply stops every die at once, possibly mid-append or mid-compaction of a retirement log or during bring-up. -/
  | powerLoss (torn : List Nat) (mid : List (Nat × Nat))
  /-- FRAME_BOUNDARY (R486): At a slot-frame boundary, a pending 1588 time step of more than 512 cycles is applied to the wafer slot counter. -/
  | frameBoundary
  deriving DecidableEq, Repr

end Sys2Proof
end

