-- ==== Sys2Proof/WellFormed.lean ====
section
/-! DEFINITION. Which operands an instruction admits: every test of 02 R60 step 2 that looks at the encoding alone, beyond the fixed bits of its row.
A term that fails is an encoding that traps ILLEGAL. -/

namespace Sys2Proof

/-- The control-word numbers of 02 Table 2.14 that a cwr may name. -/
def cwReadable (n : BitVec 12) : Bool :=
  [0x000, 0x001, 0x002, 0x003, 0x004, 0x005, 0x010, 0x011, 0x012, 0x013, 0x014, 0x015, 0x016, 0x020, 0x021, 0x022, 0x030, 0x031, 0x032,
    0x033].contains n.toNat

/-- The control-word numbers of 02 Table 2.14 that a cww may name. -/
def cwWritable (n : BitVec 12) : Bool :=
  [0x000, 0x001, 0x002, 0x003, 0x004, 0x005, 0x010, 0x011, 0x012, 0x013, 0x014, 0x015, 0x016, 0x030, 0x031, 0x032, 0x033].contains n.toNat

/-- The modifier word, if there is one, has only the bits of a mask set (02 R52). -/
def modWithin (mask : BitVec 32) (m : Option (BitVec 32)) : Bool :=
  match m with
  | none => true
  | some w => w &&& ~~~mask == 0

/-- Honoured fields "all" of 08 R245: bits 15:0. -/
def modAll (m : Option (BitVec 32)) : Bool := modWithin 0x0000FFFF m
/-- Honoured fields "ab" of 08 R245: negb, nega, absb, absa. -/
def modAb (m : Option (BitVec 32)) : Bool := modWithin 0x0000003C m
/-- Honoured fields "fn" of 08 R245: nega, absa, scale, rmode, sat, clamp. -/
def modFn (m : Option (BitVec 32)) : Bool := modWithin 0x0000FFD7 m
/-- Honoured fields "rs" of 08 R245: rmode and sat. -/
def modRs (m : Option (BitVec 32)) : Bool := modWithin 0x0000C001 m
/-- Honoured fields "sc" of 08 R251: sat and clamp. -/
def modSc (m : Option (BitVec 32)) : Bool := modWithin 0x00000003 m
/-- No honoured field: only an all-zero modifier word. -/
def modNone (m : Option (BitVec 32)) : Bool := modWithin 0 m

/-- A float type code of 02 Table 2.5, .ce8 apart. -/
def isFloatType (t : BitVec 4) : Bool := t.toNat < 8

/-- Honoured fields of cvt by destination and source class (09 Table 9.2). -/
def modCvt (t s : BitVec 4) (m : Option (BitVec 32)) : Bool :=
  if isFloatType t then modFn m else if isFloatType s then modWithin 0x00000014 m else modWithin 0x00000017 m

/-- An MX element type (09 R280): .e4m3 .e5m2 .e3m2 .e2m3 .e2m1 .i8. -/
def mxType (t : BitVec 4) : Bool := [3, 4, 5, 6, 7, 9].contains t.toNat

/-- Operands of cvt (09 R277). -/
def wfCvt (t s : BitVec 4) (a d : BitVec 5) (m : Option (BitVec 32)) : Bool :=
  d.toNat < 6 && a.toNat < 6 && t != 8 && s != 8 && t != 15 && s != 15 && t != s && modCvt t s m

/-- Operands of unpack.ce8 (09 R282). -/
def wfUnpackCe8 (t : BitVec 4) (a d : BitVec 5) : Bool := d.toNat < 6 && a.toNat < 6 && t.toNat ≤ 3

/-- Operands of pack.ce8 (09 R283). -/
def wfPackCe8 (b a : BitVec 5) : Bool := a.toNat < 6 && b.toNat < 6

/-- Operands of mxs, mxq and mxd (09 R284, R285): a source queue, the other queue if there is one, type and scale code. -/
def wfMx (t : BitVec 4) (x : BitVec 2) (a : BitVec 5) (q : Option (BitVec 5)) : Bool :=
  a.toNat < 6 && (q.elim true fun q => decide (q.toNat < 6)) && mxType t && x != 3

/-- The operands of an instruction are ones its encoding admits. -/
def wf : Instr → Bool
  | .add _ _ _ => true
  | .sub _ _ _ => true
  | .mul _ _ _ => true
  | .mulh _ _ _ => true
  | .mulhn _ _ _ => true
  | .div _ _ _ => true
  | .divn _ _ _ => true
  | .rem _ _ _ => true
  | .remn _ _ _ => true
  | .min _ _ _ => true
  | .max _ _ _ => true
  | .minn _ _ _ => true
  | .maxn _ _ _ => true
  | .and _ _ _ => true
  | .or _ _ _ => true
  | .xor _ _ _ => true
  | .andn _ _ _ => true
  | .shl _ _ _ => true
  | .shr _ _ _ => true
  | .sha _ _ _ => true
  | .rotl _ _ _ => true
  | .clz _ _ => true
  | .ctz _ _ => true
  | .popc _ _ => true
  | .seq _ _ _ => true
  | .slt _ _ _ => true
  | .sltn _ _ _ => true
  | .padd _ _ _ _ => true
  | .psub _ _ _ _ => true
  | .pmin _ _ _ _ _ => true
  | .pmax _ _ _ _ _ => true
  | .pshl _ _ _ _ => true
  | .pshr _ _ _ _ => true
  | .psha _ _ _ _ => true
  | .addi _ _ _ => true
  | .andi _ _ _ => true
  | .ori _ _ _ => true
  | .xori _ _ _ => true
  | .shli _ _ _ => true
  | .shri _ _ _ => true
  | .shai _ _ _ => true
  | .bfxS _ _ _ _ => true
  | .bfxZ _ _ _ _ => true
  | .bfi _ _ _ _ => true
  | .sel _ _ _ _ => true
  | .movi _ _ => true
  | .movh _ _ => true
  | .beq _ _ _ => true
  | .bne _ _ _ => true
  | .blt _ _ _ => true
  | .bge _ _ _ => true
  | .bltn _ _ _ => true
  | .bgen _ _ _ => true
  | .jmp _ => true
  | .jal _ => true
  | .jr _ _ _ => true
  | .rep l _ => l != 0
  | .nop => true
  | .brk => true
  | .trap _ => true
  | .sysc _ => true
  | .eret => true
  | .cwr h n _ => cwReadable n && (h == 0 || n == 0x022)
  | .cww n _ => cwWritable n
  | .endTask => true
  | .arm _ _ => true
  | .disarm _ _ => true
  | .waita _ _ _ => true
  | .wake _ _ => true
  | .tid _ => true
  | .prio _ _ => true
  | .defer _ => true
  | .uiret => true
  | .uimask _ _ => true
  | .spawn _ _ _ => true
  | .spawnr _ _ _ => true
  | .sendR n _ d => n.toNat ≤ 16 && d.toNat + n.toNat ≤ 32 && (n != 0 || d == 0)
  | .sendM n _ _ => n.toNat ≤ 16
  | .sendiR r n _ d => r != 3 && n.toNat ≤ 16 && d.toNat + n.toNat ≤ 31
  | .sendiM r n _ d => r != 3 && n.toNat ≤ 16 && d.toNat ≤ 30
  | .sendwR r n d => r != 3 && n.toNat ≤ 16 && d.toNat + n.toNat ≤ 30
  | .sendwM r n d => r != 3 && n.toNat ≤ 16 && d.toNat ≤ 29
  | .replyR n d => n.toNat ≤ 16 && d.toNat + n.toNat ≤ 32 && (n != 0 || d == 0)
  | .replyM n _ => n.toNat ≤ 16
  | .refuse => true
  | .qpeekQ i q _ => q.toNat < 6 && i.toNat ≤ 8
  | .qpeekC _ _ _ _ => true
  | .qcntQ q _ => q.toNat < 6
  | .qcntC _ _ => true
  | .qflushQ q => q.toNat < 6
  | .qflushC _ => true
  | .qbind _ _ => true
  | .chopen _ _ => true
  | .chclose _ => true
  | .chstat _ _ => true
  | .ldBZ _ _ _ _ => true
  | .ldBS _ _ _ _ => true
  | .ldHZ _ _ _ _ => true
  | .ldHS _ _ _ _ => true
  | .ldWZ _ _ _ _ => true
  | .ldWS _ _ _ _ => true
  | .ldD _ _ _ _ => true
  | .stB _ _ _ _ => true
  | .stH _ _ _ _ => true
  | .stW _ _ _ _ => true
  | .stD _ _ _ _ => true
  | .ldq _ n q _ => q.toNat < 6 && 1 ≤ n.toNat && n.toNat ≤ 16
  | .stq _ n _ => 1 ≤ n.toNat && n.toNat ≤ 16
  | .ldff _ n q _ => q.toNat < 6 && 1 ≤ n.toNat && n.toNat ≤ 15
  | .prf _ n _ => 1 ≤ n.toNat && n.toNat ≤ 16
  | .ldsync _ _ _ _ => true
  | .stfull _ _ _ _ => true
  | .stempty _ _ _ => true
  | .gaddr _ _ _ => true
  | .segw _ _ _ => true
  | .segr _ _ _ => true
  | .vaddF32 _ _ _ _ m => modAll m
  | .vsubF32 _ _ _ _ m => modAll m
  | .vmulF32 _ _ _ _ m => modAll m
  | .vfmaF32 _ _ _ _ m => modAll m
  | .vfmsF32 _ _ _ _ m => modAll m
  | .vfnmaF32 _ _ _ _ m => modAll m
  | .vminF32 _ _ _ _ m => modAb m
  | .vmaxF32 _ _ _ _ m => modAb m
  | .vrcp _ _ _ m => modFn m
  | .vrsqrt _ _ _ m => modFn m
  | .vsqrt _ _ _ m => modFn m
  | .vexp2 _ _ _ m => modFn m
  | .vlog2 _ _ _ m => modFn m
  | .vtanh _ _ _ m => modFn m
  | .vcmpEqF32 _ _ _ _ m => modAb m
  | .vcmpNeF32 _ _ _ _ m => modAb m
  | .vcmpLtF32 _ _ _ _ m => modAb m
  | .vcmpLeF32 _ _ _ _ m => modAb m
  | .vselF32 _ _ _ _ m => modNone m
  | .vredaddF32 _ _ _ m => modRs m
  | .vredmaxF32 _ _ _ m => modNone m
  | .vscanF32 _ _ _ m => modRs m
  | .vaddF16 _ _ _ _ _ m => modAll m
  | .vsubF16 _ _ _ _ _ m => modAll m
  | .vmulF16 _ _ _ _ _ m => modAll m
  | .vfmaF16 _ _ _ _ _ m => modAll m
  | .vfmsF16 _ _ _ _ _ m => modAll m
  | .vfnmaF16 _ _ _ _ _ m => modAll m
  | .vminF16 _ _ _ _ _ m => modAb m
  | .vmaxF16 _ _ _ _ _ m => modAb m
  | .vdotF32 _ _ _ _ _ m => modAll m
  | .vcmpEqF16 _ _ _ _ _ m => modAb m
  | .vcmpNeF16 _ _ _ _ _ m => modAb m
  | .vcmpLtF16 _ _ _ _ _ m => modAb m
  | .vcmpLeF16 _ _ _ _ _ m => modAb m
  | .vselF16 _ _ _ _ _ m => modNone m
  | .vredaddF16 _ _ _ _ m => modRs m
  | .vredmaxF16 _ _ _ _ m => modNone m
  | .vscanF16 _ _ _ _ m => modRs m
  | .vaddI32 _ _ _ _ _ m => modSc m
  | .vsubI32 _ _ _ _ _ m => modSc m
  | .vmulI32 _ _ _ _ _ m => modSc m
  | .vminI32 _ _ _ _ _ m => modNone m
  | .vmaxI32 _ _ _ _ _ m => modNone m
  | .vandI32 _ _ _ _ _ m => modNone m
  | .vorI32 _ _ _ _ _ m => modNone m
  | .vxorI32 _ _ _ _ _ m => modNone m
  | .vshlI32 _ _ _ _ _ m => modNone m
  | .vshrI32 _ _ _ _ _ m => modNone m
  | .vshaI32 _ _ _ _ _ m => modNone m
  | .vcmpEqI32 _ _ _ _ _ m => modNone m
  | .vcmpNeI32 _ _ _ _ _ m => modNone m
  | .vcmpLtI32 _ _ _ _ _ m => modNone m
  | .vcmpLeI32 _ _ _ _ _ m => modNone m
  | .vselI32 _ _ _ _ _ m => modNone m
  | .vredaddI32 _ _ _ _ m => modSc m
  | .vredmaxI32 _ _ _ _ m => modNone m
  | .vscanI32 _ _ _ _ m => modSc m
  | .vaddI16 _ _ _ _ _ m => modSc m
  | .vsubI16 _ _ _ _ _ m => modSc m
  | .vmulI16 _ _ _ _ _ m => modSc m
  | .vminI16 _ _ _ _ _ m => modNone m
  | .vmaxI16 _ _ _ _ _ m => modNone m
  | .vandI16 _ _ _ _ _ m => modNone m
  | .vorI16 _ _ _ _ _ m => modNone m
  | .vxorI16 _ _ _ _ _ m => modNone m
  | .vshlI16 _ _ _ _ _ m => modNone m
  | .vshrI16 _ _ _ _ _ m => modNone m
  | .vshaI16 _ _ _ _ _ m => modNone m
  | .vcmpEqI16 _ _ _ _ _ m => modNone m
  | .vcmpNeI16 _ _ _ _ _ m => modNone m
  | .vcmpLtI16 _ _ _ _ _ m => modNone m
  | .vcmpLeI16 _ _ _ _ _ m => modNone m
  | .vselI16 _ _ _ _ _ m => modNone m
  | .vredaddI16 _ _ _ _ m => modSc m
  | .vredmaxI16 _ _ _ _ m => modNone m
  | .vscanI16 _ _ _ _ m => modSc m
  | .vdotDI16 _ _ _ _ _ m => modSc m
  | .vaddI8 _ _ _ _ _ m => modSc m
  | .vsubI8 _ _ _ _ _ m => modSc m
  | .vmulI8 _ _ _ _ _ m => modSc m
  | .vminI8 _ _ _ _ _ m => modNone m
  | .vmaxI8 _ _ _ _ _ m => modNone m
  | .vandI8 _ _ _ _ _ m => modNone m
  | .vorI8 _ _ _ _ _ m => modNone m
  | .vxorI8 _ _ _ _ _ m => modNone m
  | .vshlI8 _ _ _ _ _ m => modNone m
  | .vshrI8 _ _ _ _ _ m => modNone m
  | .vshaI8 _ _ _ _ _ m => modNone m
  | .vcmpEqI8 _ _ _ _ _ m => modNone m
  | .vcmpNeI8 _ _ _ _ _ m => modNone m
  | .vcmpLtI8 _ _ _ _ _ m => modNone m
  | .vcmpLeI8 _ _ _ _ _ m => modNone m
  | .vselI8 _ _ _ _ _ m => modNone m
  | .vredaddI8 _ _ _ _ m => modSc m
  | .vredmaxI8 _ _ _ _ m => modNone m
  | .vscanI8 _ _ _ _ m => modSc m
  | .vdotDI8 _ _ _ _ _ m => modSc m
  | .vperm w _ _ _ _ => w != 3
  | .vbcastS w _ _ _ => w != 3
  | .vcompress w _ _ _ _ => w != 3
  | .vexpand w _ _ _ _ => w != 3
  | .vmovsToScalar w _ _ _ => w != 3
  | .vmovsToVector w _ _ _ => w != 3
  | .vext w _ _ _ _ => w != 3
  | .vbcastV w _ _ _ _ => w != 3
  | .vmov w _ _ _ => w != 3
  | .vpop w _ a _ => w != 3 && a.toNat < 6
  | .vpush w _ _ d => w != 3 && d.toNat < 6
  | .kset _ d => d.toNat < 8
  | .kfirst w _ _ d => w != 3 && d.toNat < 8
  | .kmin b a d => d.toNat < 8 && a.toNat < 8 && b.toNat < 8
  | .kpop w _ a d => w != 3 && d.toNat < 8 && a.toNat < 6
  | .gang _ _ => true
  | .gjoin _ => true
  | .gdisband => true
  | .cvt t s a d m => wfCvt t s a d m
  | .fqmv n a d m => d.toNat < 6 && a.toNat < 6 && 1 ≤ n.toNat && n.toNat ≤ 16 && modNone m
  | .unpackCe8 t _ a d => wfUnpackCe8 t a d
  | .packCe8 _ b a _ => wfPackCe8 b a
  | .mxs t x a _ => wfMx t x a none
  | .mxq t x b a _ => wfMx t x a (some b)
  | .mxd t x _ a d => wfMx t x a (some d)
  | .mma m t s _ _ _ => (t == 0 || t == 13) && m.toNat ≤ 1 && s.toNat ≤ 11
  | .gissue m t s _ _ _ => (t == 0 || t == 13) && m.toNat ≤ 1 && s.toNat ≤ 11
  | .mzero _ => true
  | .mrow _ _ _ _ => true
  | .mdrain m t a _ => (t == 0 || t == 13) && m.toNat ≤ 1 && a.toNat ≤ 30
  | .mdrainadd m t a _ => (t == 0 || t == 13) && m.toNat ≤ 1 && a.toNat ≤ 30
  | .ringcfg _ _ => true
  | .ringpushM _ b _ d => d.toNat ≤ 15 && 1 ≤ b.toNat && b.toNat ≤ 16
  | .ringpushQ _ b a => a.toNat < 6 && 1 ≤ b.toNat && b.toNat ≤ 16
  | .tsrw _ _ _ _ => true
  | .tsrinv _ => true
  | .bcopy d => d.toNat ≤ 28
  | .bcopyRing q d => q.toNat < 8 && d.toNat ≤ 28
  | .bgather d => d.toNat ≤ 27
  | .bgatherRing q d => q.toNat < 8 && d.toNat ≤ 27
  | .bscatter d => d.toNat ≤ 27
  | .bstat _ => true
  | .fence _ _ => true
  | .ackw _ _ _ => true
  | .stRel _ _ _ _ _ => true
  | .ldAcq _ _ _ _ _ => true
  | .amoAdd _ _ _ _ d => d != 0
  | .amoAnd _ _ _ _ d => d != 0
  | .amoOr _ _ _ _ d => d != 0
  | .amoXor _ _ _ _ d => d != 0
  | .amoMin _ _ _ _ d => d != 0
  | .amoMax _ _ _ _ d => d != 0
  | .amoMinn _ _ _ _ d => d != 0
  | .amoMaxn _ _ _ _ d => d != 0
  | .amoSwap _ _ _ _ d => d != 0
  | .amoCas _ _ _ _ d => d != 0
  | .redInteger _ _ _ _ _ => true
  | .famoAdd _ _ _ _ d => d != 0
  | .famoMin _ _ _ _ d => d != 0
  | .famoMax _ _ _ _ d => d != 0
  | .redFloat o _ _ _ _ => o != 3
  | .bfins _ b _ _ => b != 31
  | .bffcs _ _ _ d => d != 0
  | .bfpls _ b _ d => b != 31 && d != 0
  | .tktGet _ => true
  | .tktScope _ _ => true
  | .tktVoid _ => true
  | .barInit _ _ => true
  | .barArr r _ a _ => r != 3 && a != 31
  | .barWait r _ a => r != 3 && a != 31
  | .barExp _ _ => true
  | .grpJoin _ _ => true
  | .grpLeave _ _ => true
  | .grpQ _ _ => true
  | .semInit _ _ => true
  | .semPost _ _ => true
  | .semArm _ _ => true
  | .rndClose => true
  | .rndQ _ => true
  | .lmap _ _ => true
  | .foldQ _ _ _ => true
  | .compactAdd _ _ => true
  | .compactSub _ _ => true
  | .compactAnd _ _ => true
  | .compactOr _ _ => true
  | .compactMove _ _ => true
  | .compactXor _ _ => true
  | .compactAddi _ _ => true
  | .compactMovi _ _ => true
  | .compactShli _ _ => true
  | .compactShri _ _ => true
  | .compactShai _ _ => true
  | .compactAndi _ _ => true
  | .compactSlt _ _ => true
  | .compactSeq _ _ => true
  | .compactMul _ _ => true
  | .compactLdD _ _ => true
  | .compactStD _ _ => true
  | .compactBeq _ _ => true
  | .compactBne _ _ => true
  | .compactNop => true
  | .compactBrk => true
  | .compactEnd => true
  | .launchSubmit _ _ _ => true
  | .launchAdmission _ _ => true
  | .startRelease _ _ => true
  | .launchCompletion _ => true
  | .consumedCountWrite _ _ _ => true
  | .activationEnter _ _ => true
  | .taskStart _ => true
  | .waitClear _ => true
  | .long _ => true
  | .boundaryOverrun _ => true
  | .asyncTrapTake _ => true
  | .userInterruptEntry _ => true
  | .kernelNotice _ => true
  | .tileTaskComplete _ => true
  | .tileTaskRetire _ => true
  | .frontAdvance _ => true
  | .messageInject _ => true
  | .messageArrival _ => true
  | .creditReturn _ => true
  | .retryReply _ => true
  | .retryResend _ => true
  | .counterIncrementArrival _ => true
  | .remoteAccessArrival _ => true
  | .effectArrival _ => true
  | .waitRequestArrival _ => true
  | .ldsyncCancel _ => true
  | .readReply _ => true
  | .writeAcknowledgement _ => true
  | .writeDenial _ => true
  | .xpartNotice _ => true
  | .flushReadComplete _ => true
  | .transferComplete _ => true
  | .ringDeliveryComplete _ => true
  | .arrayOperationRetire _ => true
  | .gjoinOfferReady _ => true
  | .apertureWrite _ _ _ _ => true
  | .apertureRead _ _ _ _ => true
  | .barrierArrival _ => true
  | .barrierRegistration _ => true
  | .barrierBind _ => true
  | .groupChange _ => true
  | .membershipUpdate _ => true
  | .pageWalk _ => true
  | .walkComplete _ => true
  | .faultCompletion _ _ _ => true
  | .faultQueueHeadWrite _ _ => true
  | .invalidation _ _ _ => true
  | .invalidationComplete _ => true
  | .fold _ _ => true
  | .foldStreamed _ _ => true
  | .unfold _ _ => true
  | .unfoldComplete _ _ => true
  | .parkedArrival _ => true
  | .regulatorFailure _ => true
  | .uncorrectableError _ => true
  | .correctableError _ => true
  | .hbmLineError _ _ _ => true
  | .remapWaveCommit _ => true
  | .roundTimer _ => true
  | .closeDeferralEnd _ => true
  | .roundClose _ => true
  | .roundMirrored _ => true
  | .currentStep _ => true
  | .droopAlarm _ => true
  | .droopClear _ => true
  | .deadlockScan _ => true
  | .partitionCreate _ _ _ => true
  | .partitionDelete _ => true
  | .grow _ _ => true
  | .shrink _ _ => true
  | .preEmption _ _ _ => true
  | .commandSubmit _ _ => true
  | .protectionDescriptor _ => true
  | .contextSave _ => true
  | .loadObject _ _ => true
  | .unloadProgram _ => true
  | .unknownCommand _ => true
  | .slotTableCommit _ => true
  | .slotTableTakeEffect => true
  | .scaleOutFrameReceive _ _ => true
  | .scaleOutAck _ _ => true
  | .scaleOutRetransmit _ => true
  | .portDown _ => true
  | .portUp _ => true
  | .edgeRebind _ _ _ => true
  | .ptpEventMessage _ _ => true
  | .profileMaskWrite _ _ => true
  | .kernelImageWrite _ _ _ _ => true
  | .hyperImageWrite _ _ => true
  | .failsClear _ => true
  | .registerWrite _ _ _ => true
  | .reset => true
  | .firmwareVerify _ => true
  | .dieSelfTest _ _ _ _ _ => true
  | .seamTraining _ _ _ => true
  | .islandMerging => true
  | .startTest _ => true
  | .bootStatusWrite => true
  | .phaseTimeLimit _ => true
  | .getVersion _ => true
  | .getCapabilities _ => true
  | .negotiateAlgorithms _ => true
  | .getDigests _ => true
  | .getCertificate _ _ _ _ => true
  | .challenge _ _ _ => true
  | .getMeasurements _ _ _ _ => true
  | .unsupportedRequest _ _ => true
  | .illegal _ => true
  | .fetchProt _ => true
  | .powerLoss _ _ => true
  | .frameBoundary => true

end Sys2Proof
end

