-- ==== Sys2Proof/Decode.lean ====
section
/-! DEFINITION. From bytes to an instruction and back (02 R39 to R62): the words of each row of the opcode table as its fields stand from the high bit down.
The decoder picks a candidate by major and operation, re-encodes it, and accepts it only when every bit agrees (so that a reserved bit is never dropped) and its operands are admitted.
Definitions that build an instruction are marked noncomputable: Lean compiles no type with more than 245 constructors that carry fields, and the kernel evaluates them all the same (log entry 3). -/

namespace Sys2Proof

/-- The low two bits M and W of a form that may take a modifier word (02 R39). -/
def modBits (m : Option (BitVec 32)) : BitVec 2 := if m.isSome then 3#2 else 1#2

/-- ADD (R123). -/
def encAdd (b : BitVec 5) (a : BitVec 5) (d : BitVec 5) : BitVec 32 := (0#9 : BitVec 9) ++ b ++ a ++ d ++ (5#8 : BitVec 8)
/-- SUB (R123). -/
def encSub (b : BitVec 5) (a : BitVec 5) (d : BitVec 5) : BitVec 32 := (1#9 : BitVec 9) ++ b ++ a ++ d ++ (5#8 : BitVec 8)
/-- MUL (R123). -/
def encMul (b : BitVec 5) (a : BitVec 5) (d : BitVec 5) : BitVec 32 := (2#9 : BitVec 9) ++ b ++ a ++ d ++ (5#8 : BitVec 8)
/-- MULH (R123). -/
def encMulh (b : BitVec 5) (a : BitVec 5) (d : BitVec 5) : BitVec 32 := (3#9 : BitVec 9) ++ b ++ a ++ d ++ (5#8 : BitVec 8)
/-- MULHN (R123). -/
def encMulhn (b : BitVec 5) (a : BitVec 5) (d : BitVec 5) : BitVec 32 := (4#9 : BitVec 9) ++ b ++ a ++ d ++ (5#8 : BitVec 8)
/-- DIV (R125). -/
def encDiv (b : BitVec 5) (a : BitVec 5) (d : BitVec 5) : BitVec 32 := (5#9 : BitVec 9) ++ b ++ a ++ d ++ (5#8 : BitVec 8)
/-- DIVN (R125). -/
def encDivn (b : BitVec 5) (a : BitVec 5) (d : BitVec 5) : BitVec 32 := (6#9 : BitVec 9) ++ b ++ a ++ d ++ (5#8 : BitVec 8)
/-- REM (R125). -/
def encRem (b : BitVec 5) (a : BitVec 5) (d : BitVec 5) : BitVec 32 := (7#9 : BitVec 9) ++ b ++ a ++ d ++ (5#8 : BitVec 8)
/-- REMN (R125). -/
def encRemn (b : BitVec 5) (a : BitVec 5) (d : BitVec 5) : BitVec 32 := (8#9 : BitVec 9) ++ b ++ a ++ d ++ (5#8 : BitVec 8)
/-- MIN (R123). -/
def encMin (b : BitVec 5) (a : BitVec 5) (d : BitVec 5) : BitVec 32 := (9#9 : BitVec 9) ++ b ++ a ++ d ++ (5#8 : BitVec 8)
/-- MAX (R123). -/
def encMax (b : BitVec 5) (a : BitVec 5) (d : BitVec 5) : BitVec 32 := (10#9 : BitVec 9) ++ b ++ a ++ d ++ (5#8 : BitVec 8)
/-- MINN (R123). -/
def encMinn (b : BitVec 5) (a : BitVec 5) (d : BitVec 5) : BitVec 32 := (11#9 : BitVec 9) ++ b ++ a ++ d ++ (5#8 : BitVec 8)
/-- MAXN (R123). -/
def encMaxn (b : BitVec 5) (a : BitVec 5) (d : BitVec 5) : BitVec 32 := (12#9 : BitVec 9) ++ b ++ a ++ d ++ (5#8 : BitVec 8)
/-- AND (R123). -/
def encAnd (b : BitVec 5) (a : BitVec 5) (d : BitVec 5) : BitVec 32 := (13#9 : BitVec 9) ++ b ++ a ++ d ++ (5#8 : BitVec 8)
/-- OR (R123). -/
def encOr (b : BitVec 5) (a : BitVec 5) (d : BitVec 5) : BitVec 32 := (14#9 : BitVec 9) ++ b ++ a ++ d ++ (5#8 : BitVec 8)
/-- XOR (R123). -/
def encXor (b : BitVec 5) (a : BitVec 5) (d : BitVec 5) : BitVec 32 := (15#9 : BitVec 9) ++ b ++ a ++ d ++ (5#8 : BitVec 8)
/-- ANDN (R123). -/
def encAndn (b : BitVec 5) (a : BitVec 5) (d : BitVec 5) : BitVec 32 := (16#9 : BitVec 9) ++ b ++ a ++ d ++ (5#8 : BitVec 8)
/-- SHL (R124). -/
def encShl (b : BitVec 5) (a : BitVec 5) (d : BitVec 5) : BitVec 32 := (17#9 : BitVec 9) ++ b ++ a ++ d ++ (5#8 : BitVec 8)
/-- SHR (R124). -/
def encShr (b : BitVec 5) (a : BitVec 5) (d : BitVec 5) : BitVec 32 := (18#9 : BitVec 9) ++ b ++ a ++ d ++ (5#8 : BitVec 8)
/-- SHA (R124). -/
def encSha (b : BitVec 5) (a : BitVec 5) (d : BitVec 5) : BitVec 32 := (19#9 : BitVec 9) ++ b ++ a ++ d ++ (5#8 : BitVec 8)
/-- ROTL (R123). -/
def encRotl (b : BitVec 5) (a : BitVec 5) (d : BitVec 5) : BitVec 32 := (20#9 : BitVec 9) ++ b ++ a ++ d ++ (5#8 : BitVec 8)
/-- CLZ (R123). -/
def encClz (a : BitVec 5) (d : BitVec 5) : BitVec 32 := (672#14 : BitVec 14) ++ a ++ d ++ (5#8 : BitVec 8)
/-- CTZ (R123). -/
def encCtz (a : BitVec 5) (d : BitVec 5) : BitVec 32 := (704#14 : BitVec 14) ++ a ++ d ++ (5#8 : BitVec 8)
/-- POPC (R123). -/
def encPopc (a : BitVec 5) (d : BitVec 5) : BitVec 32 := (736#14 : BitVec 14) ++ a ++ d ++ (5#8 : BitVec 8)
/-- SEQ (R123). -/
def encSeq (b : BitVec 5) (a : BitVec 5) (d : BitVec 5) : BitVec 32 := (24#9 : BitVec 9) ++ b ++ a ++ d ++ (5#8 : BitVec 8)
/-- SLT (R123). -/
def encSlt (b : BitVec 5) (a : BitVec 5) (d : BitVec 5) : BitVec 32 := (25#9 : BitVec 9) ++ b ++ a ++ d ++ (5#8 : BitVec 8)
/-- SLTN (R123). -/
def encSltn (b : BitVec 5) (a : BitVec 5) (d : BitVec 5) : BitVec 32 := (26#9 : BitVec 9) ++ b ++ a ++ d ++ (5#8 : BitVec 8)
/-- PADD (R126). -/
def encPadd (w : BitVec 1) (b : BitVec 5) (a : BitVec 5) (d : BitVec 5) : BitVec 32 := (0#8 : BitVec 8) ++ w ++ b ++ a ++ d ++ (9#8 : BitVec 8)
/-- PSUB (R126). -/
def encPsub (w : BitVec 1) (b : BitVec 5) (a : BitVec 5) (d : BitVec 5) : BitVec 32 := (2#8 : BitVec 8) ++ w ++ b ++ a ++ d ++ (9#8 : BitVec 8)
/-- PMIN (R126). -/
def encPmin (n : BitVec 1) (w : BitVec 1) (b : BitVec 5) (a : BitVec 5) (d : BitVec 5) : BitVec 32 := (2#7 : BitVec 7) ++ n ++ w ++ b ++ a ++ d ++ (9#8 : BitVec 8)
/-- PMAX (R126). -/
def encPmax (n : BitVec 1) (w : BitVec 1) (b : BitVec 5) (a : BitVec 5) (d : BitVec 5) : BitVec 32 := (3#7 : BitVec 7) ++ n ++ w ++ b ++ a ++ d ++ (9#8 : BitVec 8)
/-- PSHL (R126). -/
def encPshl (w : BitVec 1) (b : BitVec 5) (a : BitVec 5) (d : BitVec 5) : BitVec 32 := (8#8 : BitVec 8) ++ w ++ b ++ a ++ d ++ (9#8 : BitVec 8)
/-- PSHR (R126). -/
def encPshr (w : BitVec 1) (b : BitVec 5) (a : BitVec 5) (d : BitVec 5) : BitVec 32 := (10#8 : BitVec 8) ++ w ++ b ++ a ++ d ++ (9#8 : BitVec 8)
/-- PSHA (R126). -/
def encPsha (w : BitVec 1) (b : BitVec 5) (a : BitVec 5) (d : BitVec 5) : BitVec 32 := (12#8 : BitVec 8) ++ w ++ b ++ a ++ d ++ (9#8 : BitVec 8)
/-- ADDI (R127). -/
def encAddi (i : BitVec 14) (a : BitVec 5) (d : BitVec 5) : BitVec 32 := i ++ a ++ d ++ (13#8 : BitVec 8)
/-- ANDI (R127). -/
def encAndi (i : BitVec 14) (a : BitVec 5) (d : BitVec 5) : BitVec 32 := i ++ a ++ d ++ (17#8 : BitVec 8)
/-- ORI (R127). -/
def encOri (i : BitVec 14) (a : BitVec 5) (d : BitVec 5) : BitVec 32 := i ++ a ++ d ++ (21#8 : BitVec 8)
/-- XORI (R127). -/
def encXori (i : BitVec 14) (a : BitVec 5) (d : BitVec 5) : BitVec 32 := i ++ a ++ d ++ (25#8 : BitVec 8)
/-- SHLI (R128). -/
def encShli (n : BitVec 6) (a : BitVec 5) (d : BitVec 5) : BitVec 32 := (0#8 : BitVec 8) ++ n ++ a ++ d ++ (29#8 : BitVec 8)
/-- SHRI (R128). -/
def encShri (n : BitVec 6) (a : BitVec 5) (d : BitVec 5) : BitVec 32 := (64#8 : BitVec 8) ++ n ++ a ++ d ++ (29#8 : BitVec 8)
/-- SHAI (R128). -/
def encShai (n : BitVec 6) (a : BitVec 5) (d : BitVec 5) : BitVec 32 := (128#8 : BitVec 8) ++ n ++ a ++ d ++ (29#8 : BitVec 8)
/-- BFX_S (R129). -/
def encBfxS (p : BitVec 6) (l : BitVec 6) (a : BitVec 5) (d : BitVec 5) : BitVec 32 := (0#2 : BitVec 2) ++ p ++ l ++ a ++ d ++ (33#8 : BitVec 8)
/-- BFX_Z (R129). -/
def encBfxZ (p : BitVec 6) (l : BitVec 6) (a : BitVec 5) (d : BitVec 5) : BitVec 32 := (1#2 : BitVec 2) ++ p ++ l ++ a ++ d ++ (33#8 : BitVec 8)
/-- BFI (R129). -/
def encBfi (p : BitVec 6) (l : BitVec 6) (a : BitVec 5) (d : BitVec 5) : BitVec 32 := (2#2 : BitVec 2) ++ p ++ l ++ a ++ d ++ (33#8 : BitVec 8)
/-- SEL (R130). -/
def encSel (c : BitVec 5) (b : BitVec 5) (a : BitVec 5) (d : BitVec 5) : BitVec 32 := (0#4 : BitVec 4) ++ c ++ b ++ a ++ d ++ (37#8 : BitVec 8)
/-- MOVI (R131). -/
def encMovi (i : BitVec 19) (d : BitVec 5) : BitVec 32 := i ++ d ++ (41#8 : BitVec 8)
/-- MOVH (R131). -/
def encMovh (i : BitVec 19) (d : BitVec 5) : BitVec 32 := i ++ d ++ (45#8 : BitVec 8)
/-- BEQ (R132). -/
def encBeq (o : BitVec 11) (b : BitVec 5) (a : BitVec 5) : BitVec 32 := o ++ (0#3 : BitVec 3) ++ b ++ a ++ (49#8 : BitVec 8)
/-- BNE (R132). -/
def encBne (o : BitVec 11) (b : BitVec 5) (a : BitVec 5) : BitVec 32 := o ++ (1#3 : BitVec 3) ++ b ++ a ++ (49#8 : BitVec 8)
/-- BLT (R132). -/
def encBlt (o : BitVec 11) (b : BitVec 5) (a : BitVec 5) : BitVec 32 := o ++ (2#3 : BitVec 3) ++ b ++ a ++ (49#8 : BitVec 8)
/-- BGE (R132). -/
def encBge (o : BitVec 11) (b : BitVec 5) (a : BitVec 5) : BitVec 32 := o ++ (3#3 : BitVec 3) ++ b ++ a ++ (49#8 : BitVec 8)
/-- BLTN (R132). -/
def encBltn (o : BitVec 11) (b : BitVec 5) (a : BitVec 5) : BitVec 32 := o ++ (4#3 : BitVec 3) ++ b ++ a ++ (49#8 : BitVec 8)
/-- BGEN (R132). -/
def encBgen (o : BitVec 11) (b : BitVec 5) (a : BitVec 5) : BitVec 32 := o ++ (5#3 : BitVec 3) ++ b ++ a ++ (49#8 : BitVec 8)
/-- JMP (R133). -/
def encJmp (o : BitVec 24) : BitVec 32 := o ++ (53#8 : BitVec 8)
/-- JAL (R133). -/
def encJal (o : BitVec 24) : BitVec 32 := o ++ (57#8 : BitVec 8)
/-- JR (R134). -/
def encJr (i : BitVec 14) (a : BitVec 5) (d : BitVec 5) : BitVec 32 := i ++ a ++ d ++ (61#8 : BitVec 8)
/-- REP (R135). -/
def encRep (l : BitVec 14) (a : BitVec 5) : BitVec 32 := l ++ a ++ (0#5 : BitVec 5) ++ (65#8 : BitVec 8)
/-- NOP (R137). -/
def encNop : BitVec 32 := (0#24 : BitVec 24) ++ (69#8 : BitVec 8)
/-- BRK (R137). -/
def encBrk : BitVec 32 := (32768#24 : BitVec 24) ++ (69#8 : BitVec 8)
/-- TRAP (R137). -/
def encTrap (a : BitVec 5) : BitVec 32 := (64#14 : BitVec 14) ++ a ++ (0#5 : BitVec 5) ++ (69#8 : BitVec 8)
/-- SYSC (R137). -/
def encSysc (a : BitVec 5) : BitVec 32 := (96#14 : BitVec 14) ++ a ++ (0#5 : BitVec 5) ++ (69#8 : BitVec 8)
/-- ERET (R121). -/
def encEret : BitVec 32 := (131072#24 : BitVec 24) ++ (69#8 : BitVec 8)
/-- CWR (R138). -/
def encCwr (h : BitVec 1) (n : BitVec 12) (d : BitVec 5) : BitVec 32 := (0#1 : BitVec 1) ++ h ++ n ++ (0#5 : BitVec 5) ++ d ++ (73#8 : BitVec 8)
/-- CWW (R138). -/
def encCww (n : BitVec 12) (a : BitVec 5) : BitVec 32 := (2#2 : BitVec 2) ++ n ++ a ++ (0#5 : BitVec 5) ++ (73#8 : BitVec 8)
/-- END (R165). -/
def encEndTask : BitVec 32 := (0#24 : BitVec 24) ++ (77#8 : BitVec 8)
/-- ARM (R166). -/
def encArm (b : BitVec 5) (a : BitVec 5) : BitVec 32 := (32#9 : BitVec 9) ++ b ++ a ++ (0#5 : BitVec 5) ++ (77#8 : BitVec 8)
/-- DISARM (R167). -/
def encDisarm (a : BitVec 5) (d : BitVec 5) : BitVec 32 := (2048#14 : BitVec 14) ++ a ++ d ++ (77#8 : BitVec 8)
/-- WAITA (R168). -/
def encWaita (c : BitVec 5) (b : BitVec 5) (a : BitVec 5) : BitVec 32 := (3#4 : BitVec 4) ++ c ++ b ++ a ++ (0#5 : BitVec 5) ++ (77#8 : BitVec 8)
/-- WAKE (R169). -/
def encWake (b : BitVec 5) (a : BitVec 5) : BitVec 32 := (128#9 : BitVec 9) ++ b ++ a ++ (0#5 : BitVec 5) ++ (77#8 : BitVec 8)
/-- TID (R170). -/
def encTid (d : BitVec 5) : BitVec 32 := (163840#19 : BitVec 19) ++ d ++ (77#8 : BitVec 8)
/-- PRIO (R171). -/
def encPrio (a : BitVec 5) (d : BitVec 5) : BitVec 32 := (6144#14 : BitVec 14) ++ a ++ d ++ (77#8 : BitVec 8)
/-- DEFER (R172). -/
def encDefer (a : BitVec 5) : BitVec 32 := (7168#14 : BitVec 14) ++ a ++ (0#5 : BitVec 5) ++ (77#8 : BitVec 8)
/-- UIRET (R173). -/
def encUiret : BitVec 32 := (8388608#24 : BitVec 24) ++ (77#8 : BitVec 8)
/-- UIMASK (R174). -/
def encUimask (a : BitVec 5) (d : BitVec 5) : BitVec 32 := (9216#14 : BitVec 14) ++ a ++ d ++ (77#8 : BitVec 8)
/-- SPAWN (R175). -/
def encSpawn (c : BitVec 6) (a : BitVec 5) (d : BitVec 5) : BitVec 32 := (0#8 : BitVec 8) ++ c ++ a ++ d ++ (81#8 : BitVec 8)
/-- SPAWNR (R175). -/
def encSpawnr (c : BitVec 6) (a : BitVec 5) (d : BitVec 5) : BitVec 32 := (128#8 : BitVec 8) ++ c ++ a ++ d ++ (81#8 : BitVec 8)
/-- SEND_R (R198). -/
def encSendR (n : BitVec 5) (q : BitVec 6) (d : BitVec 5) : BitVec 32 := (0#8 : BitVec 8) ++ n ++ q ++ d ++ (85#8 : BitVec 8)
/-- SEND_M (R198). -/
def encSendM (n : BitVec 5) (q : BitVec 6) (d : BitVec 5) : BitVec 32 := (16#8 : BitVec 8) ++ n ++ q ++ d ++ (85#8 : BitVec 8)
/-- SENDI_R (R199). -/
def encSendiR (r : BitVec 2) (n : BitVec 5) (q : BitVec 6) (d : BitVec 5) : BitVec 32 := (4#5 : BitVec 5) ++ r ++ (0#1 : BitVec 1) ++ n ++ q ++ d ++ (85#8 : BitVec 8)
/-- SENDI_M (R199). -/
def encSendiM (r : BitVec 2) (n : BitVec 5) (q : BitVec 6) (d : BitVec 5) : BitVec 32 := (6#5 : BitVec 5) ++ r ++ (0#1 : BitVec 1) ++ n ++ q ++ d ++ (85#8 : BitVec 8)
/-- SENDW_R (R200). -/
def encSendwR (r : BitVec 2) (n : BitVec 5) (d : BitVec 5) : BitVec 32 := (8#5 : BitVec 5) ++ r ++ (0#1 : BitVec 1) ++ n ++ (0#6 : BitVec 6) ++ d ++ (85#8 : BitVec 8)
/-- SENDW_M (R200). -/
def encSendwM (r : BitVec 2) (n : BitVec 5) (d : BitVec 5) : BitVec 32 := (10#5 : BitVec 5) ++ r ++ (0#1 : BitVec 1) ++ n ++ (0#6 : BitVec 6) ++ d ++ (85#8 : BitVec 8)
/-- REPLY_R (R201). -/
def encReplyR (n : BitVec 5) (d : BitVec 5) : BitVec 32 := (96#8 : BitVec 8) ++ n ++ (0#6 : BitVec 6) ++ d ++ (85#8 : BitVec 8)
/-- REPLY_M (R201). -/
def encReplyM (n : BitVec 5) (d : BitVec 5) : BitVec 32 := (112#8 : BitVec 8) ++ n ++ (0#6 : BitVec 6) ++ d ++ (85#8 : BitVec 8)
/-- REFUSE (R201). -/
def encRefuse : BitVec 32 := (8388608#24 : BitVec 24) ++ (85#8 : BitVec 8)
/-- QPEEK_Q (R203). -/
def encQpeekQ (i : BitVec 6) (q : BitVec 6) (d : BitVec 5) : BitVec 32 := (0#7 : BitVec 7) ++ i ++ q ++ d ++ (89#8 : BitVec 8)
/-- QPEEK_C (R203). -/
def encQpeekC (h : BitVec 1) (i : BitVec 6) (q : BitVec 6) (d : BitVec 5) : BitVec 32 := (4#6 : BitVec 6) ++ h ++ i ++ q ++ d ++ (89#8 : BitVec 8)
/-- QCNT_Q (R204). -/
def encQcntQ (q : BitVec 6) (d : BitVec 5) : BitVec 32 := (1024#13 : BitVec 13) ++ q ++ d ++ (89#8 : BitVec 8)
/-- QCNT_C (R204). -/
def encQcntC (q : BitVec 6) (d : BitVec 5) : BitVec 32 := (1536#13 : BitVec 13) ++ q ++ d ++ (89#8 : BitVec 8)
/-- QFLUSH_Q (R205). -/
def encQflushQ (q : BitVec 6) : BitVec 32 := (2048#13 : BitVec 13) ++ q ++ (0#5 : BitVec 5) ++ (89#8 : BitVec 8)
/-- QFLUSH_C (R205). -/
def encQflushC (q : BitVec 6) : BitVec 32 := (2560#13 : BitVec 13) ++ q ++ (0#5 : BitVec 5) ++ (89#8 : BitVec 8)
/-- QBIND (R206). -/
def encQbind (q : BitVec 6) (d : BitVec 5) : BitVec 32 := (3072#13 : BitVec 13) ++ q ++ d ++ (89#8 : BitVec 8)
/-- CHOPEN (R207). -/
def encChopen (q : BitVec 6) (d : BitVec 5) : BitVec 32 := (3584#13 : BitVec 13) ++ q ++ d ++ (89#8 : BitVec 8)
/-- CHCLOSE (R207). -/
def encChclose (q : BitVec 6) : BitVec 32 := (4096#13 : BitVec 13) ++ q ++ (0#5 : BitVec 5) ++ (89#8 : BitVec 8)
/-- CHSTAT (R208). -/
def encChstat (q : BitVec 6) (d : BitVec 5) : BitVec 32 := (4608#13 : BitVec 13) ++ q ++ d ++ (89#8 : BitVec 8)
/-- LD_B_Z (R231). -/
def encLdBZ (g : BitVec 4) (o : BitVec 7) (a : BitVec 5) (d : BitVec 5) : BitVec 32 := g ++ (0#3 : BitVec 3) ++ o ++ a ++ d ++ (93#8 : BitVec 8)
/-- LD_B_S (R231). -/
def encLdBS (g : BitVec 4) (o : BitVec 7) (a : BitVec 5) (d : BitVec 5) : BitVec 32 := g ++ (1#3 : BitVec 3) ++ o ++ a ++ d ++ (93#8 : BitVec 8)
/-- LD_H_Z (R231). -/
def encLdHZ (g : BitVec 4) (o : BitVec 7) (a : BitVec 5) (d : BitVec 5) : BitVec 32 := g ++ (2#3 : BitVec 3) ++ o ++ a ++ d ++ (93#8 : BitVec 8)
/-- LD_H_S (R231). -/
def encLdHS (g : BitVec 4) (o : BitVec 7) (a : BitVec 5) (d : BitVec 5) : BitVec 32 := g ++ (3#3 : BitVec 3) ++ o ++ a ++ d ++ (93#8 : BitVec 8)
/-- LD_W_Z (R231). -/
def encLdWZ (g : BitVec 4) (o : BitVec 7) (a : BitVec 5) (d : BitVec 5) : BitVec 32 := g ++ (4#3 : BitVec 3) ++ o ++ a ++ d ++ (93#8 : BitVec 8)
/-- LD_W_S (R231). -/
def encLdWS (g : BitVec 4) (o : BitVec 7) (a : BitVec 5) (d : BitVec 5) : BitVec 32 := g ++ (5#3 : BitVec 3) ++ o ++ a ++ d ++ (93#8 : BitVec 8)
/-- LD_D (R231). -/
def encLdD (g : BitVec 4) (o : BitVec 7) (a : BitVec 5) (d : BitVec 5) : BitVec 32 := g ++ (6#3 : BitVec 3) ++ o ++ a ++ d ++ (93#8 : BitVec 8)
/-- ST_B (R231). -/
def encStB (g : BitVec 4) (o : BitVec 7) (a : BitVec 5) (d : BitVec 5) : BitVec 32 := g ++ (0#3 : BitVec 3) ++ o ++ a ++ d ++ (97#8 : BitVec 8)
/-- ST_H (R231). -/
def encStH (g : BitVec 4) (o : BitVec 7) (a : BitVec 5) (d : BitVec 5) : BitVec 32 := g ++ (2#3 : BitVec 3) ++ o ++ a ++ d ++ (97#8 : BitVec 8)
/-- ST_W (R231). -/
def encStW (g : BitVec 4) (o : BitVec 7) (a : BitVec 5) (d : BitVec 5) : BitVec 32 := g ++ (4#3 : BitVec 3) ++ o ++ a ++ d ++ (97#8 : BitVec 8)
/-- ST_D (R231). -/
def encStD (g : BitVec 4) (o : BitVec 7) (a : BitVec 5) (d : BitVec 5) : BitVec 32 := g ++ (6#3 : BitVec 3) ++ o ++ a ++ d ++ (97#8 : BitVec 8)
/-- LDQ (R233). -/
def encLdq (g : BitVec 4) (n : BitVec 6) (q : BitVec 6) (d : BitVec 5) : BitVec 32 := (0#2 : BitVec 2) ++ g ++ (0#1 : BitVec 1) ++ n ++ q ++ d ++ (101#8 : BitVec 8)
/-- STQ (R233). -/
def encStq (g : BitVec 4) (n : BitVec 6) (d : BitVec 5) : BitVec 32 := (1#2 : BitVec 2) ++ g ++ (0#1 : BitVec 1) ++ n ++ (5#6 : BitVec 6) ++ d ++ (101#8 : BitVec 8)
/-- LDFF (R234). -/
def encLdff (g : BitVec 4) (n : BitVec 6) (q : BitVec 6) (d : BitVec 5) : BitVec 32 := (2#2 : BitVec 2) ++ g ++ (0#1 : BitVec 1) ++ n ++ q ++ d ++ (101#8 : BitVec 8)
/-- PRF (R235). -/
def encPrf (g : BitVec 4) (n : BitVec 6) (d : BitVec 5) : BitVec 32 := (3#2 : BitVec 2) ++ g ++ (0#1 : BitVec 1) ++ n ++ (0#6 : BitVec 6) ++ d ++ (101#8 : BitVec 8)
/-- LDSYNC (R237). -/
def encLdsync (g : BitVec 4) (o : BitVec 7) (a : BitVec 5) (d : BitVec 5) : BitVec 32 := (0#2 : BitVec 2) ++ g ++ (0#1 : BitVec 1) ++ o ++ a ++ d ++ (105#8 : BitVec 8)
/-- STFULL (R237). -/
def encStfull (g : BitVec 4) (o : BitVec 7) (a : BitVec 5) (d : BitVec 5) : BitVec 32 := (1#2 : BitVec 2) ++ g ++ (0#1 : BitVec 1) ++ o ++ a ++ d ++ (105#8 : BitVec 8)
/-- STEMPTY (R237). -/
def encStempty (g : BitVec 4) (o : BitVec 7) (a : BitVec 5) : BitVec 32 := (2#2 : BitVec 2) ++ g ++ (0#1 : BitVec 1) ++ o ++ a ++ (0#5 : BitVec 5) ++ (105#8 : BitVec 8)
/-- GADDR (R239). -/
def encGaddr (g : BitVec 4) (a : BitVec 5) (d : BitVec 5) : BitVec 32 := (0#4 : BitVec 4) ++ g ++ (0#6 : BitVec 6) ++ a ++ d ++ (109#8 : BitVec 8)
/-- SEGW (R240). -/
def encSegw (g : BitVec 4) (b : BitVec 5) (a : BitVec 5) : BitVec 32 := (2#4 : BitVec 4) ++ g ++ (0#1 : BitVec 1) ++ b ++ a ++ (0#5 : BitVec 5) ++ (109#8 : BitVec 8)
/-- SEGR (R240). -/
def encSegr (h : BitVec 1) (g : BitVec 4) (d : BitVec 5) : BitVec 32 := (2#3 : BitVec 3) ++ h ++ g ++ (0#11 : BitVec 11) ++ d ++ (109#8 : BitVec 8)
/-- VADD_F32 (R246). -/
def encVaddF32 (k : BitVec 3) (b : BitVec 5) (a : BitVec 5) (d : BitVec 5) (m : Option (BitVec 32)) : BitVec 32 := (0#6 : BitVec 6) ++ k ++ b ++ a ++ d ++ (28#6 : BitVec 6) ++ modBits m
/-- VSUB_F32 (R246). -/
def encVsubF32 (k : BitVec 3) (b : BitVec 5) (a : BitVec 5) (d : BitVec 5) (m : Option (BitVec 32)) : BitVec 32 := (2#6 : BitVec 6) ++ k ++ b ++ a ++ d ++ (28#6 : BitVec 6) ++ modBits m
/-- VMUL_F32 (R246). -/
def encVmulF32 (k : BitVec 3) (b : BitVec 5) (a : BitVec 5) (d : BitVec 5) (m : Option (BitVec 32)) : BitVec 32 := (4#6 : BitVec 6) ++ k ++ b ++ a ++ d ++ (28#6 : BitVec 6) ++ modBits m
/-- VFMA_F32 (R246). -/
def encVfmaF32 (k : BitVec 3) (b : BitVec 5) (a : BitVec 5) (d : BitVec 5) (m : Option (BitVec 32)) : BitVec 32 := (6#6 : BitVec 6) ++ k ++ b ++ a ++ d ++ (28#6 : BitVec 6) ++ modBits m
/-- VFMS_F32 (R246). -/
def encVfmsF32 (k : BitVec 3) (b : BitVec 5) (a : BitVec 5) (d : BitVec 5) (m : Option (BitVec 32)) : BitVec 32 := (8#6 : BitVec 6) ++ k ++ b ++ a ++ d ++ (28#6 : BitVec 6) ++ modBits m
/-- VFNMA_F32 (R246). -/
def encVfnmaF32 (k : BitVec 3) (b : BitVec 5) (a : BitVec 5) (d : BitVec 5) (m : Option (BitVec 32)) : BitVec 32 := (10#6 : BitVec 6) ++ k ++ b ++ a ++ d ++ (28#6 : BitVec 6) ++ modBits m
/-- VMIN_F32 (R247). -/
def encVminF32 (k : BitVec 3) (b : BitVec 5) (a : BitVec 5) (d : BitVec 5) (m : Option (BitVec 32)) : BitVec 32 := (12#6 : BitVec 6) ++ k ++ b ++ a ++ d ++ (28#6 : BitVec 6) ++ modBits m
/-- VMAX_F32 (R247). -/
def encVmaxF32 (k : BitVec 3) (b : BitVec 5) (a : BitVec 5) (d : BitVec 5) (m : Option (BitVec 32)) : BitVec 32 := (14#6 : BitVec 6) ++ k ++ b ++ a ++ d ++ (28#6 : BitVec 6) ++ modBits m
/-- VRCP (R249). -/
def encVrcp (k : BitVec 3) (a : BitVec 5) (d : BitVec 5) (m : Option (BitVec 32)) : BitVec 32 := (18#6 : BitVec 6) ++ k ++ (0#5 : BitVec 5) ++ a ++ d ++ (28#6 : BitVec 6) ++ modBits m
/-- VRSQRT (R249). -/
def encVrsqrt (k : BitVec 3) (a : BitVec 5) (d : BitVec 5) (m : Option (BitVec 32)) : BitVec 32 := (20#6 : BitVec 6) ++ k ++ (0#5 : BitVec 5) ++ a ++ d ++ (28#6 : BitVec 6) ++ modBits m
/-- VSQRT (R249). -/
def encVsqrt (k : BitVec 3) (a : BitVec 5) (d : BitVec 5) (m : Option (BitVec 32)) : BitVec 32 := (22#6 : BitVec 6) ++ k ++ (0#5 : BitVec 5) ++ a ++ d ++ (28#6 : BitVec 6) ++ modBits m
/-- VEXP2 (R249). -/
def encVexp2 (k : BitVec 3) (a : BitVec 5) (d : BitVec 5) (m : Option (BitVec 32)) : BitVec 32 := (24#6 : BitVec 6) ++ k ++ (0#5 : BitVec 5) ++ a ++ d ++ (28#6 : BitVec 6) ++ modBits m
/-- VLOG2 (R249). -/
def encVlog2 (k : BitVec 3) (a : BitVec 5) (d : BitVec 5) (m : Option (BitVec 32)) : BitVec 32 := (26#6 : BitVec 6) ++ k ++ (0#5 : BitVec 5) ++ a ++ d ++ (28#6 : BitVec 6) ++ modBits m
/-- VTANH (R249). -/
def encVtanh (k : BitVec 3) (a : BitVec 5) (d : BitVec 5) (m : Option (BitVec 32)) : BitVec 32 := (28#6 : BitVec 6) ++ k ++ (0#5 : BitVec 5) ++ a ++ d ++ (28#6 : BitVec 6) ++ modBits m
/-- VCMP_EQ_F32 (R250). -/
def encVcmpEqF32 (k : BitVec 3) (b : BitVec 5) (a : BitVec 5) (d : BitVec 5) (m : Option (BitVec 32)) : BitVec 32 := (30#6 : BitVec 6) ++ k ++ b ++ a ++ d ++ (28#6 : BitVec 6) ++ modBits m
/-- VCMP_NE_F32 (R250). -/
def encVcmpNeF32 (k : BitVec 3) (b : BitVec 5) (a : BitVec 5) (d : BitVec 5) (m : Option (BitVec 32)) : BitVec 32 := (32#6 : BitVec 6) ++ k ++ b ++ a ++ d ++ (28#6 : BitVec 6) ++ modBits m
/-- VCMP_LT_F32 (R250). -/
def encVcmpLtF32 (k : BitVec 3) (b : BitVec 5) (a : BitVec 5) (d : BitVec 5) (m : Option (BitVec 32)) : BitVec 32 := (34#6 : BitVec 6) ++ k ++ b ++ a ++ d ++ (28#6 : BitVec 6) ++ modBits m
/-- VCMP_LE_F32 (R250). -/
def encVcmpLeF32 (k : BitVec 3) (b : BitVec 5) (a : BitVec 5) (d : BitVec 5) (m : Option (BitVec 32)) : BitVec 32 := (36#6 : BitVec 6) ++ k ++ b ++ a ++ d ++ (28#6 : BitVec 6) ++ modBits m
/-- VSEL_F32 (R250). -/
def encVselF32 (k : BitVec 3) (b : BitVec 5) (a : BitVec 5) (d : BitVec 5) (m : Option (BitVec 32)) : BitVec 32 := (38#6 : BitVec 6) ++ k ++ b ++ a ++ d ++ (28#6 : BitVec 6) ++ modBits m
/-- VREDADD_F32 (R254). -/
def encVredaddF32 (k : BitVec 3) (a : BitVec 5) (d : BitVec 5) (m : Option (BitVec 32)) : BitVec 32 := (40#6 : BitVec 6) ++ k ++ (0#5 : BitVec 5) ++ a ++ d ++ (28#6 : BitVec 6) ++ modBits m
/-- VREDMAX_F32 (R254). -/
def encVredmaxF32 (k : BitVec 3) (a : BitVec 5) (d : BitVec 5) (m : Option (BitVec 32)) : BitVec 32 := (42#6 : BitVec 6) ++ k ++ (0#5 : BitVec 5) ++ a ++ d ++ (28#6 : BitVec 6) ++ modBits m
/-- VSCAN_F32 (R255). -/
def encVscanF32 (k : BitVec 3) (a : BitVec 5) (d : BitVec 5) (m : Option (BitVec 32)) : BitVec 32 := (44#6 : BitVec 6) ++ k ++ (0#5 : BitVec 5) ++ a ++ d ++ (28#6 : BitVec 6) ++ modBits m
/-- VADD_F16 (R246). -/
def encVaddF16 (t : BitVec 1) (k : BitVec 3) (b : BitVec 5) (a : BitVec 5) (d : BitVec 5) (m : Option (BitVec 32)) : BitVec 32 := (0#5 : BitVec 5) ++ t ++ k ++ b ++ a ++ d ++ (29#6 : BitVec 6) ++ modBits m
/-- VSUB_F16 (R246). -/
def encVsubF16 (t : BitVec 1) (k : BitVec 3) (b : BitVec 5) (a : BitVec 5) (d : BitVec 5) (m : Option (BitVec 32)) : BitVec 32 := (1#5 : BitVec 5) ++ t ++ k ++ b ++ a ++ d ++ (29#6 : BitVec 6) ++ modBits m
/-- VMUL_F16 (R246). -/
def encVmulF16 (t : BitVec 1) (k : BitVec 3) (b : BitVec 5) (a : BitVec 5) (d : BitVec 5) (m : Option (BitVec 32)) : BitVec 32 := (2#5 : BitVec 5) ++ t ++ k ++ b ++ a ++ d ++ (29#6 : BitVec 6) ++ modBits m
/-- VFMA_F16 (R246). -/
def encVfmaF16 (t : BitVec 1) (k : BitVec 3) (b : BitVec 5) (a : BitVec 5) (d : BitVec 5) (m : Option (BitVec 32)) : BitVec 32 := (3#5 : BitVec 5) ++ t ++ k ++ b ++ a ++ d ++ (29#6 : BitVec 6) ++ modBits m
/-- VFMS_F16 (R246). -/
def encVfmsF16 (t : BitVec 1) (k : BitVec 3) (b : BitVec 5) (a : BitVec 5) (d : BitVec 5) (m : Option (BitVec 32)) : BitVec 32 := (4#5 : BitVec 5) ++ t ++ k ++ b ++ a ++ d ++ (29#6 : BitVec 6) ++ modBits m
/-- VFNMA_F16 (R246). -/
def encVfnmaF16 (t : BitVec 1) (k : BitVec 3) (b : BitVec 5) (a : BitVec 5) (d : BitVec 5) (m : Option (BitVec 32)) : BitVec 32 := (5#5 : BitVec 5) ++ t ++ k ++ b ++ a ++ d ++ (29#6 : BitVec 6) ++ modBits m
/-- VMIN_F16 (R247). -/
def encVminF16 (t : BitVec 1) (k : BitVec 3) (b : BitVec 5) (a : BitVec 5) (d : BitVec 5) (m : Option (BitVec 32)) : BitVec 32 := (6#5 : BitVec 5) ++ t ++ k ++ b ++ a ++ d ++ (29#6 : BitVec 6) ++ modBits m
/-- VMAX_F16 (R247). -/
def encVmaxF16 (t : BitVec 1) (k : BitVec 3) (b : BitVec 5) (a : BitVec 5) (d : BitVec 5) (m : Option (BitVec 32)) : BitVec 32 := (7#5 : BitVec 5) ++ t ++ k ++ b ++ a ++ d ++ (29#6 : BitVec 6) ++ modBits m
/-- VDOT_F32 (R248). -/
def encVdotF32 (t : BitVec 1) (k : BitVec 3) (b : BitVec 5) (a : BitVec 5) (d : BitVec 5) (m : Option (BitVec 32)) : BitVec 32 := (8#5 : BitVec 5) ++ t ++ k ++ b ++ a ++ d ++ (29#6 : BitVec 6) ++ modBits m
/-- VCMP_EQ_F16 (R250). -/
def encVcmpEqF16 (t : BitVec 1) (k : BitVec 3) (b : BitVec 5) (a : BitVec 5) (d : BitVec 5) (m : Option (BitVec 32)) : BitVec 32 := (15#5 : BitVec 5) ++ t ++ k ++ b ++ a ++ d ++ (29#6 : BitVec 6) ++ modBits m
/-- VCMP_NE_F16 (R250). -/
def encVcmpNeF16 (t : BitVec 1) (k : BitVec 3) (b : BitVec 5) (a : BitVec 5) (d : BitVec 5) (m : Option (BitVec 32)) : BitVec 32 := (16#5 : BitVec 5) ++ t ++ k ++ b ++ a ++ d ++ (29#6 : BitVec 6) ++ modBits m
/-- VCMP_LT_F16 (R250). -/
def encVcmpLtF16 (t : BitVec 1) (k : BitVec 3) (b : BitVec 5) (a : BitVec 5) (d : BitVec 5) (m : Option (BitVec 32)) : BitVec 32 := (17#5 : BitVec 5) ++ t ++ k ++ b ++ a ++ d ++ (29#6 : BitVec 6) ++ modBits m
/-- VCMP_LE_F16 (R250). -/
def encVcmpLeF16 (t : BitVec 1) (k : BitVec 3) (b : BitVec 5) (a : BitVec 5) (d : BitVec 5) (m : Option (BitVec 32)) : BitVec 32 := (18#5 : BitVec 5) ++ t ++ k ++ b ++ a ++ d ++ (29#6 : BitVec 6) ++ modBits m
/-- VSEL_F16 (R250). -/
def encVselF16 (t : BitVec 1) (k : BitVec 3) (b : BitVec 5) (a : BitVec 5) (d : BitVec 5) (m : Option (BitVec 32)) : BitVec 32 := (19#5 : BitVec 5) ++ t ++ k ++ b ++ a ++ d ++ (29#6 : BitVec 6) ++ modBits m
/-- VREDADD_F16 (R254). -/
def encVredaddF16 (t : BitVec 1) (k : BitVec 3) (a : BitVec 5) (d : BitVec 5) (m : Option (BitVec 32)) : BitVec 32 := (20#5 : BitVec 5) ++ t ++ k ++ (0#5 : BitVec 5) ++ a ++ d ++ (29#6 : BitVec 6) ++ modBits m
/-- VREDMAX_F16 (R254). -/
def encVredmaxF16 (t : BitVec 1) (k : BitVec 3) (a : BitVec 5) (d : BitVec 5) (m : Option (BitVec 32)) : BitVec 32 := (21#5 : BitVec 5) ++ t ++ k ++ (0#5 : BitVec 5) ++ a ++ d ++ (29#6 : BitVec 6) ++ modBits m
/-- VSCAN_F16 (R255). -/
def encVscanF16 (t : BitVec 1) (k : BitVec 3) (a : BitVec 5) (d : BitVec 5) (m : Option (BitVec 32)) : BitVec 32 := (22#5 : BitVec 5) ++ t ++ k ++ (0#5 : BitVec 5) ++ a ++ d ++ (29#6 : BitVec 6) ++ modBits m
/-- VADD_I32 (R251). -/
def encVaddI32 (n : BitVec 1) (k : BitVec 3) (b : BitVec 5) (a : BitVec 5) (d : BitVec 5) (m : Option (BitVec 32)) : BitVec 32 := (0#5 : BitVec 5) ++ n ++ k ++ b ++ a ++ d ++ (30#6 : BitVec 6) ++ modBits m
/-- VSUB_I32 (R251). -/
def encVsubI32 (n : BitVec 1) (k : BitVec 3) (b : BitVec 5) (a : BitVec 5) (d : BitVec 5) (m : Option (BitVec 32)) : BitVec 32 := (1#5 : BitVec 5) ++ n ++ k ++ b ++ a ++ d ++ (30#6 : BitVec 6) ++ modBits m
/-- VMUL_I32 (R251). -/
def encVmulI32 (n : BitVec 1) (k : BitVec 3) (b : BitVec 5) (a : BitVec 5) (d : BitVec 5) (m : Option (BitVec 32)) : BitVec 32 := (2#5 : BitVec 5) ++ n ++ k ++ b ++ a ++ d ++ (30#6 : BitVec 6) ++ modBits m
/-- VMIN_I32 (R251). -/
def encVminI32 (n : BitVec 1) (k : BitVec 3) (b : BitVec 5) (a : BitVec 5) (d : BitVec 5) (m : Option (BitVec 32)) : BitVec 32 := (3#5 : BitVec 5) ++ n ++ k ++ b ++ a ++ d ++ (30#6 : BitVec 6) ++ modBits m
/-- VMAX_I32 (R251). -/
def encVmaxI32 (n : BitVec 1) (k : BitVec 3) (b : BitVec 5) (a : BitVec 5) (d : BitVec 5) (m : Option (BitVec 32)) : BitVec 32 := (4#5 : BitVec 5) ++ n ++ k ++ b ++ a ++ d ++ (30#6 : BitVec 6) ++ modBits m
/-- VAND_I32 (R251). -/
def encVandI32 (n : BitVec 1) (k : BitVec 3) (b : BitVec 5) (a : BitVec 5) (d : BitVec 5) (m : Option (BitVec 32)) : BitVec 32 := (5#5 : BitVec 5) ++ n ++ k ++ b ++ a ++ d ++ (30#6 : BitVec 6) ++ modBits m
/-- VOR_I32 (R251). -/
def encVorI32 (n : BitVec 1) (k : BitVec 3) (b : BitVec 5) (a : BitVec 5) (d : BitVec 5) (m : Option (BitVec 32)) : BitVec 32 := (6#5 : BitVec 5) ++ n ++ k ++ b ++ a ++ d ++ (30#6 : BitVec 6) ++ modBits m
/-- VXOR_I32 (R251). -/
def encVxorI32 (n : BitVec 1) (k : BitVec 3) (b : BitVec 5) (a : BitVec 5) (d : BitVec 5) (m : Option (BitVec 32)) : BitVec 32 := (7#5 : BitVec 5) ++ n ++ k ++ b ++ a ++ d ++ (30#6 : BitVec 6) ++ modBits m
/-- VSHL_I32 (R252). -/
def encVshlI32 (n : BitVec 1) (k : BitVec 3) (b : BitVec 5) (a : BitVec 5) (d : BitVec 5) (m : Option (BitVec 32)) : BitVec 32 := (8#5 : BitVec 5) ++ n ++ k ++ b ++ a ++ d ++ (30#6 : BitVec 6) ++ modBits m
/-- VSHR_I32 (R252). -/
def encVshrI32 (n : BitVec 1) (k : BitVec 3) (b : BitVec 5) (a : BitVec 5) (d : BitVec 5) (m : Option (BitVec 32)) : BitVec 32 := (9#5 : BitVec 5) ++ n ++ k ++ b ++ a ++ d ++ (30#6 : BitVec 6) ++ modBits m
/-- VSHA_I32 (R252). -/
def encVshaI32 (n : BitVec 1) (k : BitVec 3) (b : BitVec 5) (a : BitVec 5) (d : BitVec 5) (m : Option (BitVec 32)) : BitVec 32 := (10#5 : BitVec 5) ++ n ++ k ++ b ++ a ++ d ++ (30#6 : BitVec 6) ++ modBits m
/-- VCMP_EQ_I32 (R251). -/
def encVcmpEqI32 (n : BitVec 1) (k : BitVec 3) (b : BitVec 5) (a : BitVec 5) (d : BitVec 5) (m : Option (BitVec 32)) : BitVec 32 := (11#5 : BitVec 5) ++ n ++ k ++ b ++ a ++ d ++ (30#6 : BitVec 6) ++ modBits m
/-- VCMP_NE_I32 (R251). -/
def encVcmpNeI32 (n : BitVec 1) (k : BitVec 3) (b : BitVec 5) (a : BitVec 5) (d : BitVec 5) (m : Option (BitVec 32)) : BitVec 32 := (12#5 : BitVec 5) ++ n ++ k ++ b ++ a ++ d ++ (30#6 : BitVec 6) ++ modBits m
/-- VCMP_LT_I32 (R251). -/
def encVcmpLtI32 (n : BitVec 1) (k : BitVec 3) (b : BitVec 5) (a : BitVec 5) (d : BitVec 5) (m : Option (BitVec 32)) : BitVec 32 := (13#5 : BitVec 5) ++ n ++ k ++ b ++ a ++ d ++ (30#6 : BitVec 6) ++ modBits m
/-- VCMP_LE_I32 (R251). -/
def encVcmpLeI32 (n : BitVec 1) (k : BitVec 3) (b : BitVec 5) (a : BitVec 5) (d : BitVec 5) (m : Option (BitVec 32)) : BitVec 32 := (14#5 : BitVec 5) ++ n ++ k ++ b ++ a ++ d ++ (30#6 : BitVec 6) ++ modBits m
/-- VSEL_I32 (R251). -/
def encVselI32 (n : BitVec 1) (k : BitVec 3) (b : BitVec 5) (a : BitVec 5) (d : BitVec 5) (m : Option (BitVec 32)) : BitVec 32 := (15#5 : BitVec 5) ++ n ++ k ++ b ++ a ++ d ++ (30#6 : BitVec 6) ++ modBits m
/-- VREDADD_I32 (R254). -/
def encVredaddI32 (n : BitVec 1) (k : BitVec 3) (a : BitVec 5) (d : BitVec 5) (m : Option (BitVec 32)) : BitVec 32 := (16#5 : BitVec 5) ++ n ++ k ++ (0#5 : BitVec 5) ++ a ++ d ++ (30#6 : BitVec 6) ++ modBits m
/-- VREDMAX_I32 (R254). -/
def encVredmaxI32 (n : BitVec 1) (k : BitVec 3) (a : BitVec 5) (d : BitVec 5) (m : Option (BitVec 32)) : BitVec 32 := (17#5 : BitVec 5) ++ n ++ k ++ (0#5 : BitVec 5) ++ a ++ d ++ (30#6 : BitVec 6) ++ modBits m
/-- VSCAN_I32 (R255). -/
def encVscanI32 (n : BitVec 1) (k : BitVec 3) (a : BitVec 5) (d : BitVec 5) (m : Option (BitVec 32)) : BitVec 32 := (18#5 : BitVec 5) ++ n ++ k ++ (0#5 : BitVec 5) ++ a ++ d ++ (30#6 : BitVec 6) ++ modBits m
/-- VADD_I16 (R251). -/
def encVaddI16 (n : BitVec 1) (k : BitVec 3) (b : BitVec 5) (a : BitVec 5) (d : BitVec 5) (m : Option (BitVec 32)) : BitVec 32 := (0#5 : BitVec 5) ++ n ++ k ++ b ++ a ++ d ++ (31#6 : BitVec 6) ++ modBits m
/-- VSUB_I16 (R251). -/
def encVsubI16 (n : BitVec 1) (k : BitVec 3) (b : BitVec 5) (a : BitVec 5) (d : BitVec 5) (m : Option (BitVec 32)) : BitVec 32 := (1#5 : BitVec 5) ++ n ++ k ++ b ++ a ++ d ++ (31#6 : BitVec 6) ++ modBits m
/-- VMUL_I16 (R251). -/
def encVmulI16 (n : BitVec 1) (k : BitVec 3) (b : BitVec 5) (a : BitVec 5) (d : BitVec 5) (m : Option (BitVec 32)) : BitVec 32 := (2#5 : BitVec 5) ++ n ++ k ++ b ++ a ++ d ++ (31#6 : BitVec 6) ++ modBits m
/-- VMIN_I16 (R251). -/
def encVminI16 (n : BitVec 1) (k : BitVec 3) (b : BitVec 5) (a : BitVec 5) (d : BitVec 5) (m : Option (BitVec 32)) : BitVec 32 := (3#5 : BitVec 5) ++ n ++ k ++ b ++ a ++ d ++ (31#6 : BitVec 6) ++ modBits m
/-- VMAX_I16 (R251). -/
def encVmaxI16 (n : BitVec 1) (k : BitVec 3) (b : BitVec 5) (a : BitVec 5) (d : BitVec 5) (m : Option (BitVec 32)) : BitVec 32 := (4#5 : BitVec 5) ++ n ++ k ++ b ++ a ++ d ++ (31#6 : BitVec 6) ++ modBits m
/-- VAND_I16 (R251). -/
def encVandI16 (n : BitVec 1) (k : BitVec 3) (b : BitVec 5) (a : BitVec 5) (d : BitVec 5) (m : Option (BitVec 32)) : BitVec 32 := (5#5 : BitVec 5) ++ n ++ k ++ b ++ a ++ d ++ (31#6 : BitVec 6) ++ modBits m
/-- VOR_I16 (R251). -/
def encVorI16 (n : BitVec 1) (k : BitVec 3) (b : BitVec 5) (a : BitVec 5) (d : BitVec 5) (m : Option (BitVec 32)) : BitVec 32 := (6#5 : BitVec 5) ++ n ++ k ++ b ++ a ++ d ++ (31#6 : BitVec 6) ++ modBits m
/-- VXOR_I16 (R251). -/
def encVxorI16 (n : BitVec 1) (k : BitVec 3) (b : BitVec 5) (a : BitVec 5) (d : BitVec 5) (m : Option (BitVec 32)) : BitVec 32 := (7#5 : BitVec 5) ++ n ++ k ++ b ++ a ++ d ++ (31#6 : BitVec 6) ++ modBits m
/-- VSHL_I16 (R252). -/
def encVshlI16 (n : BitVec 1) (k : BitVec 3) (b : BitVec 5) (a : BitVec 5) (d : BitVec 5) (m : Option (BitVec 32)) : BitVec 32 := (8#5 : BitVec 5) ++ n ++ k ++ b ++ a ++ d ++ (31#6 : BitVec 6) ++ modBits m
/-- VSHR_I16 (R252). -/
def encVshrI16 (n : BitVec 1) (k : BitVec 3) (b : BitVec 5) (a : BitVec 5) (d : BitVec 5) (m : Option (BitVec 32)) : BitVec 32 := (9#5 : BitVec 5) ++ n ++ k ++ b ++ a ++ d ++ (31#6 : BitVec 6) ++ modBits m
/-- VSHA_I16 (R252). -/
def encVshaI16 (n : BitVec 1) (k : BitVec 3) (b : BitVec 5) (a : BitVec 5) (d : BitVec 5) (m : Option (BitVec 32)) : BitVec 32 := (10#5 : BitVec 5) ++ n ++ k ++ b ++ a ++ d ++ (31#6 : BitVec 6) ++ modBits m
/-- VCMP_EQ_I16 (R251). -/
def encVcmpEqI16 (n : BitVec 1) (k : BitVec 3) (b : BitVec 5) (a : BitVec 5) (d : BitVec 5) (m : Option (BitVec 32)) : BitVec 32 := (11#5 : BitVec 5) ++ n ++ k ++ b ++ a ++ d ++ (31#6 : BitVec 6) ++ modBits m
/-- VCMP_NE_I16 (R251). -/
def encVcmpNeI16 (n : BitVec 1) (k : BitVec 3) (b : BitVec 5) (a : BitVec 5) (d : BitVec 5) (m : Option (BitVec 32)) : BitVec 32 := (12#5 : BitVec 5) ++ n ++ k ++ b ++ a ++ d ++ (31#6 : BitVec 6) ++ modBits m
/-- VCMP_LT_I16 (R251). -/
def encVcmpLtI16 (n : BitVec 1) (k : BitVec 3) (b : BitVec 5) (a : BitVec 5) (d : BitVec 5) (m : Option (BitVec 32)) : BitVec 32 := (13#5 : BitVec 5) ++ n ++ k ++ b ++ a ++ d ++ (31#6 : BitVec 6) ++ modBits m
/-- VCMP_LE_I16 (R251). -/
def encVcmpLeI16 (n : BitVec 1) (k : BitVec 3) (b : BitVec 5) (a : BitVec 5) (d : BitVec 5) (m : Option (BitVec 32)) : BitVec 32 := (14#5 : BitVec 5) ++ n ++ k ++ b ++ a ++ d ++ (31#6 : BitVec 6) ++ modBits m
/-- VSEL_I16 (R251). -/
def encVselI16 (n : BitVec 1) (k : BitVec 3) (b : BitVec 5) (a : BitVec 5) (d : BitVec 5) (m : Option (BitVec 32)) : BitVec 32 := (15#5 : BitVec 5) ++ n ++ k ++ b ++ a ++ d ++ (31#6 : BitVec 6) ++ modBits m
/-- VREDADD_I16 (R254). -/
def encVredaddI16 (n : BitVec 1) (k : BitVec 3) (a : BitVec 5) (d : BitVec 5) (m : Option (BitVec 32)) : BitVec 32 := (16#5 : BitVec 5) ++ n ++ k ++ (0#5 : BitVec 5) ++ a ++ d ++ (31#6 : BitVec 6) ++ modBits m
/-- VREDMAX_I16 (R254). -/
def encVredmaxI16 (n : BitVec 1) (k : BitVec 3) (a : BitVec 5) (d : BitVec 5) (m : Option (BitVec 32)) : BitVec 32 := (17#5 : BitVec 5) ++ n ++ k ++ (0#5 : BitVec 5) ++ a ++ d ++ (31#6 : BitVec 6) ++ modBits m
/-- VSCAN_I16 (R255). -/
def encVscanI16 (n : BitVec 1) (k : BitVec 3) (a : BitVec 5) (d : BitVec 5) (m : Option (BitVec 32)) : BitVec 32 := (18#5 : BitVec 5) ++ n ++ k ++ (0#5 : BitVec 5) ++ a ++ d ++ (31#6 : BitVec 6) ++ modBits m
/-- VDOT_D_I16 (R253). -/
def encVdotDI16 (n : BitVec 1) (k : BitVec 3) (b : BitVec 5) (a : BitVec 5) (d : BitVec 5) (m : Option (BitVec 32)) : BitVec 32 := (19#5 : BitVec 5) ++ n ++ k ++ b ++ a ++ d ++ (31#6 : BitVec 6) ++ modBits m
/-- VADD_I8 (R251). -/
def encVaddI8 (n : BitVec 1) (k : BitVec 3) (b : BitVec 5) (a : BitVec 5) (d : BitVec 5) (m : Option (BitVec 32)) : BitVec 32 := (0#5 : BitVec 5) ++ n ++ k ++ b ++ a ++ d ++ (32#6 : BitVec 6) ++ modBits m
/-- VSUB_I8 (R251). -/
def encVsubI8 (n : BitVec 1) (k : BitVec 3) (b : BitVec 5) (a : BitVec 5) (d : BitVec 5) (m : Option (BitVec 32)) : BitVec 32 := (1#5 : BitVec 5) ++ n ++ k ++ b ++ a ++ d ++ (32#6 : BitVec 6) ++ modBits m
/-- VMUL_I8 (R251). -/
def encVmulI8 (n : BitVec 1) (k : BitVec 3) (b : BitVec 5) (a : BitVec 5) (d : BitVec 5) (m : Option (BitVec 32)) : BitVec 32 := (2#5 : BitVec 5) ++ n ++ k ++ b ++ a ++ d ++ (32#6 : BitVec 6) ++ modBits m
/-- VMIN_I8 (R251). -/
def encVminI8 (n : BitVec 1) (k : BitVec 3) (b : BitVec 5) (a : BitVec 5) (d : BitVec 5) (m : Option (BitVec 32)) : BitVec 32 := (3#5 : BitVec 5) ++ n ++ k ++ b ++ a ++ d ++ (32#6 : BitVec 6) ++ modBits m
/-- VMAX_I8 (R251). -/
def encVmaxI8 (n : BitVec 1) (k : BitVec 3) (b : BitVec 5) (a : BitVec 5) (d : BitVec 5) (m : Option (BitVec 32)) : BitVec 32 := (4#5 : BitVec 5) ++ n ++ k ++ b ++ a ++ d ++ (32#6 : BitVec 6) ++ modBits m
/-- VAND_I8 (R251). -/
def encVandI8 (n : BitVec 1) (k : BitVec 3) (b : BitVec 5) (a : BitVec 5) (d : BitVec 5) (m : Option (BitVec 32)) : BitVec 32 := (5#5 : BitVec 5) ++ n ++ k ++ b ++ a ++ d ++ (32#6 : BitVec 6) ++ modBits m
/-- VOR_I8 (R251). -/
def encVorI8 (n : BitVec 1) (k : BitVec 3) (b : BitVec 5) (a : BitVec 5) (d : BitVec 5) (m : Option (BitVec 32)) : BitVec 32 := (6#5 : BitVec 5) ++ n ++ k ++ b ++ a ++ d ++ (32#6 : BitVec 6) ++ modBits m
/-- VXOR_I8 (R251). -/
def encVxorI8 (n : BitVec 1) (k : BitVec 3) (b : BitVec 5) (a : BitVec 5) (d : BitVec 5) (m : Option (BitVec 32)) : BitVec 32 := (7#5 : BitVec 5) ++ n ++ k ++ b ++ a ++ d ++ (32#6 : BitVec 6) ++ modBits m
/-- VSHL_I8 (R252). -/
def encVshlI8 (n : BitVec 1) (k : BitVec 3) (b : BitVec 5) (a : BitVec 5) (d : BitVec 5) (m : Option (BitVec 32)) : BitVec 32 := (8#5 : BitVec 5) ++ n ++ k ++ b ++ a ++ d ++ (32#6 : BitVec 6) ++ modBits m
/-- VSHR_I8 (R252). -/
def encVshrI8 (n : BitVec 1) (k : BitVec 3) (b : BitVec 5) (a : BitVec 5) (d : BitVec 5) (m : Option (BitVec 32)) : BitVec 32 := (9#5 : BitVec 5) ++ n ++ k ++ b ++ a ++ d ++ (32#6 : BitVec 6) ++ modBits m
/-- VSHA_I8 (R252). -/
def encVshaI8 (n : BitVec 1) (k : BitVec 3) (b : BitVec 5) (a : BitVec 5) (d : BitVec 5) (m : Option (BitVec 32)) : BitVec 32 := (10#5 : BitVec 5) ++ n ++ k ++ b ++ a ++ d ++ (32#6 : BitVec 6) ++ modBits m
/-- VCMP_EQ_I8 (R251). -/
def encVcmpEqI8 (n : BitVec 1) (k : BitVec 3) (b : BitVec 5) (a : BitVec 5) (d : BitVec 5) (m : Option (BitVec 32)) : BitVec 32 := (11#5 : BitVec 5) ++ n ++ k ++ b ++ a ++ d ++ (32#6 : BitVec 6) ++ modBits m
/-- VCMP_NE_I8 (R251). -/
def encVcmpNeI8 (n : BitVec 1) (k : BitVec 3) (b : BitVec 5) (a : BitVec 5) (d : BitVec 5) (m : Option (BitVec 32)) : BitVec 32 := (12#5 : BitVec 5) ++ n ++ k ++ b ++ a ++ d ++ (32#6 : BitVec 6) ++ modBits m
/-- VCMP_LT_I8 (R251). -/
def encVcmpLtI8 (n : BitVec 1) (k : BitVec 3) (b : BitVec 5) (a : BitVec 5) (d : BitVec 5) (m : Option (BitVec 32)) : BitVec 32 := (13#5 : BitVec 5) ++ n ++ k ++ b ++ a ++ d ++ (32#6 : BitVec 6) ++ modBits m
/-- VCMP_LE_I8 (R251). -/
def encVcmpLeI8 (n : BitVec 1) (k : BitVec 3) (b : BitVec 5) (a : BitVec 5) (d : BitVec 5) (m : Option (BitVec 32)) : BitVec 32 := (14#5 : BitVec 5) ++ n ++ k ++ b ++ a ++ d ++ (32#6 : BitVec 6) ++ modBits m
/-- VSEL_I8 (R251). -/
def encVselI8 (n : BitVec 1) (k : BitVec 3) (b : BitVec 5) (a : BitVec 5) (d : BitVec 5) (m : Option (BitVec 32)) : BitVec 32 := (15#5 : BitVec 5) ++ n ++ k ++ b ++ a ++ d ++ (32#6 : BitVec 6) ++ modBits m
/-- VREDADD_I8 (R254). -/
def encVredaddI8 (n : BitVec 1) (k : BitVec 3) (a : BitVec 5) (d : BitVec 5) (m : Option (BitVec 32)) : BitVec 32 := (16#5 : BitVec 5) ++ n ++ k ++ (0#5 : BitVec 5) ++ a ++ d ++ (32#6 : BitVec 6) ++ modBits m
/-- VREDMAX_I8 (R254). -/
def encVredmaxI8 (n : BitVec 1) (k : BitVec 3) (a : BitVec 5) (d : BitVec 5) (m : Option (BitVec 32)) : BitVec 32 := (17#5 : BitVec 5) ++ n ++ k ++ (0#5 : BitVec 5) ++ a ++ d ++ (32#6 : BitVec 6) ++ modBits m
/-- VSCAN_I8 (R255). -/
def encVscanI8 (n : BitVec 1) (k : BitVec 3) (a : BitVec 5) (d : BitVec 5) (m : Option (BitVec 32)) : BitVec 32 := (18#5 : BitVec 5) ++ n ++ k ++ (0#5 : BitVec 5) ++ a ++ d ++ (32#6 : BitVec 6) ++ modBits m
/-- VDOT_D_I8 (R253). -/
def encVdotDI8 (n : BitVec 1) (k : BitVec 3) (b : BitVec 5) (a : BitVec 5) (d : BitVec 5) (m : Option (BitVec 32)) : BitVec 32 := (19#5 : BitVec 5) ++ n ++ k ++ b ++ a ++ d ++ (32#6 : BitVec 6) ++ modBits m
/-- VPERM (R257). -/
def encVperm (w : BitVec 2) (k : BitVec 3) (b : BitVec 5) (a : BitVec 5) (d : BitVec 5) : BitVec 32 := (0#4 : BitVec 4) ++ w ++ k ++ b ++ a ++ d ++ (133#8 : BitVec 8)
/-- VBCAST_S (R257). -/
def encVbcastS (w : BitVec 2) (k : BitVec 3) (a : BitVec 5) (d : BitVec 5) : BitVec 32 := (1#4 : BitVec 4) ++ w ++ k ++ (0#5 : BitVec 5) ++ a ++ d ++ (133#8 : BitVec 8)
/-- VCOMPRESS (R258). -/
def encVcompress (w : BitVec 2) (k : BitVec 3) (b : BitVec 5) (a : BitVec 5) (d : BitVec 5) : BitVec 32 := (2#4 : BitVec 4) ++ w ++ k ++ b ++ a ++ d ++ (133#8 : BitVec 8)
/-- VEXPAND (R258). -/
def encVexpand (w : BitVec 2) (k : BitVec 3) (b : BitVec 5) (a : BitVec 5) (d : BitVec 5) : BitVec 32 := (3#4 : BitVec 4) ++ w ++ k ++ b ++ a ++ d ++ (133#8 : BitVec 8)
/-- VMOVS_TO_SCALAR (R259). -/
def encVmovsToScalar (w : BitVec 2) (b : BitVec 5) (a : BitVec 5) (d : BitVec 5) : BitVec 32 := (4#4 : BitVec 4) ++ w ++ (0#3 : BitVec 3) ++ b ++ a ++ d ++ (133#8 : BitVec 8)
/-- VMOVS_TO_VECTOR (R259). -/
def encVmovsToVector (w : BitVec 2) (b : BitVec 5) (a : BitVec 5) (d : BitVec 5) : BitVec 32 := (5#4 : BitVec 4) ++ w ++ (0#3 : BitVec 3) ++ b ++ a ++ d ++ (133#8 : BitVec 8)
/-- VEXT (R257). -/
def encVext (w : BitVec 2) (k : BitVec 3) (b : BitVec 5) (a : BitVec 5) (d : BitVec 5) : BitVec 32 := (6#4 : BitVec 4) ++ w ++ k ++ b ++ a ++ d ++ (133#8 : BitVec 8)
/-- VBCAST_V (R257). -/
def encVbcastV (w : BitVec 2) (k : BitVec 3) (b : BitVec 5) (a : BitVec 5) (d : BitVec 5) : BitVec 32 := (7#4 : BitVec 4) ++ w ++ k ++ b ++ a ++ d ++ (133#8 : BitVec 8)
/-- VMOV (R257). -/
def encVmov (w : BitVec 2) (k : BitVec 3) (a : BitVec 5) (d : BitVec 5) : BitVec 32 := (8#4 : BitVec 4) ++ w ++ k ++ (0#5 : BitVec 5) ++ a ++ d ++ (133#8 : BitVec 8)
/-- VPOP (R260). -/
def encVpop (w : BitVec 2) (k : BitVec 3) (a : BitVec 5) (d : BitVec 5) : BitVec 32 := (9#4 : BitVec 4) ++ w ++ k ++ (0#5 : BitVec 5) ++ a ++ d ++ (133#8 : BitVec 8)
/-- VPUSH (R260). -/
def encVpush (w : BitVec 2) (k : BitVec 3) (a : BitVec 5) (d : BitVec 5) : BitVec 32 := (10#4 : BitVec 4) ++ w ++ k ++ (0#5 : BitVec 5) ++ a ++ d ++ (133#8 : BitVec 8)
/-- KSET (R262). -/
def encKset (a : BitVec 5) (d : BitVec 5) : BitVec 32 := (0#14 : BitVec 14) ++ a ++ d ++ (137#8 : BitVec 8)
/-- KFIRST (R262). -/
def encKfirst (w : BitVec 2) (k : BitVec 3) (a : BitVec 5) (d : BitVec 5) : BitVec 32 := (1#4 : BitVec 4) ++ w ++ k ++ (0#5 : BitVec 5) ++ a ++ d ++ (137#8 : BitVec 8)
/-- KMIN (R262). -/
def encKmin (b : BitVec 5) (a : BitVec 5) (d : BitVec 5) : BitVec 32 := (64#9 : BitVec 9) ++ b ++ a ++ d ++ (137#8 : BitVec 8)
/-- KPOP (R263). -/
def encKpop (w : BitVec 2) (b : BitVec 5) (a : BitVec 5) (d : BitVec 5) : BitVec 32 := (3#4 : BitVec 4) ++ w ++ (0#3 : BitVec 3) ++ b ++ a ++ d ++ (137#8 : BitVec 8)
/-- GANG (R267). -/
def encGang (a : BitVec 5) (d : BitVec 5) : BitVec 32 := (0#14 : BitVec 14) ++ a ++ d ++ (141#8 : BitVec 8)
/-- GJOIN (R266). -/
def encGjoin (a : BitVec 5) : BitVec 32 := (1024#14 : BitVec 14) ++ a ++ (0#5 : BitVec 5) ++ (141#8 : BitVec 8)
/-- GDISBAND (R268). -/
def encGdisband : BitVec 32 := (2097152#24 : BitVec 24) ++ (141#8 : BitVec 8)
/-- CVT (R279). -/
def encCvt (t : BitVec 4) (s : BitVec 4) (a : BitVec 5) (d : BitVec 5) (m : Option (BitVec 32)) : BitVec 32 := t ++ s ++ (0#6 : BitVec 6) ++ a ++ d ++ (36#6 : BitVec 6) ++ modBits m
/-- FQMV (R278). -/
def encFqmv (n : BitVec 5) (a : BitVec 5) (d : BitVec 5) (m : Option (BitVec 32)) : BitVec 32 := (1#9 : BitVec 9) ++ n ++ a ++ d ++ (36#6 : BitVec 6) ++ modBits m
/-- UNPACK_CE8 (R282). -/
def encUnpackCe8 (t : BitVec 4) (b : BitVec 5) (a : BitVec 5) (d : BitVec 5) : BitVec 32 := (0#3 : BitVec 3) ++ t ++ (0#2 : BitVec 2) ++ b ++ a ++ d ++ (149#8 : BitVec 8)
/-- PACK_CE8 (R283). -/
def encPackCe8 (f : BitVec 1) (b : BitVec 5) (a : BitVec 5) (d : BitVec 5) : BitVec 32 := (32#8 : BitVec 8) ++ f ++ b ++ a ++ d ++ (149#8 : BitVec 8)
/-- MXS (R284). -/
def encMxs (t : BitVec 4) (x : BitVec 2) (a : BitVec 5) (d : BitVec 5) : BitVec 32 := (2#3 : BitVec 3) ++ t ++ x ++ (0#5 : BitVec 5) ++ a ++ d ++ (149#8 : BitVec 8)
/-- MXQ (R284). -/
def encMxq (t : BitVec 4) (x : BitVec 2) (b : BitVec 5) (a : BitVec 5) (d : BitVec 5) : BitVec 32 := (3#3 : BitVec 3) ++ t ++ x ++ b ++ a ++ d ++ (149#8 : BitVec 8)
/-- MXD (R285). -/
def encMxd (t : BitVec 4) (x : BitVec 2) (b : BitVec 5) (a : BitVec 5) (d : BitVec 5) : BitVec 32 := (4#3 : BitVec 3) ++ t ++ x ++ b ++ a ++ d ++ (149#8 : BitVec 8)
/-- MMA (R302). -/
def encMma (m : BitVec 3) (t : BitVec 4) (s : BitVec 5) (b : BitVec 3) (a : BitVec 3) (c : BitVec 2) : BitVec 32 := (0#4 : BitVec 4) ++ m ++ t ++ s ++ b ++ a ++ c ++ (153#8 : BitVec 8)
/-- GISSUE (R303). -/
def encGissue (m : BitVec 3) (t : BitVec 4) (s : BitVec 5) (b : BitVec 3) (a : BitVec 3) (c : BitVec 2) : BitVec 32 := (1#4 : BitVec 4) ++ m ++ t ++ s ++ b ++ a ++ c ++ (153#8 : BitVec 8)
/-- MZERO (R305). -/
def encMzero (c : BitVec 2) : BitVec 32 := (0#22 : BitVec 22) ++ c ++ (157#8 : BitVec 8)
/-- MROW (R305). -/
def encMrow (v : BitVec 5) (h : BitVec 1) (r : BitVec 5) (c : BitVec 2) : BitVec 32 := (128#11 : BitVec 11) ++ v ++ h ++ r ++ c ++ (157#8 : BitVec 8)
/-- MDRAIN (R307). -/
def encMdrain (m : BitVec 3) (t : BitVec 4) (a : BitVec 5) (c : BitVec 2) : BitVec 32 := (2#4 : BitVec 4) ++ m ++ t ++ a ++ (0#6 : BitVec 6) ++ c ++ (157#8 : BitVec 8)
/-- MDRAINADD (R308). -/
def encMdrainadd (m : BitVec 3) (t : BitVec 4) (a : BitVec 5) (c : BitVec 2) : BitVec 32 := (3#4 : BitVec 4) ++ m ++ t ++ a ++ (0#6 : BitVec 6) ++ c ++ (157#8 : BitVec 8)
/-- RINGCFG (R292). -/
def encRingcfg (n : BitVec 3) (a : BitVec 5) : BitVec 32 := (0#3 : BitVec 3) ++ n ++ (0#8 : BitVec 8) ++ a ++ (0#5 : BitVec 5) ++ (161#8 : BitVec 8)
/-- RINGPUSH_M (R293). -/
def encRingpushM (n : BitVec 3) (b : BitVec 5) (a : BitVec 5) (d : BitVec 5) : BitVec 32 := (1#3 : BitVec 3) ++ n ++ (0#3 : BitVec 3) ++ b ++ a ++ d ++ (161#8 : BitVec 8)
/-- RINGPUSH_Q (R293). -/
def encRingpushQ (n : BitVec 3) (b : BitVec 5) (a : BitVec 5) : BitVec 32 := (2#3 : BitVec 3) ++ n ++ (0#3 : BitVec 3) ++ b ++ a ++ (0#5 : BitVec 5) ++ (161#8 : BitVec 8)
/-- TSRW (R314). -/
def encTsrw (g : BitVec 4) (b : BitVec 5) (a : BitVec 5) (d : BitVec 5) : BitVec 32 := (0#4 : BitVec 4) ++ g ++ (0#1 : BitVec 1) ++ b ++ a ++ d ++ (165#8 : BitVec 8)
/-- TSRINV (R314). -/
def encTsrinv (b : BitVec 5) : BitVec 32 := (32#9 : BitVec 9) ++ b ++ (0#10 : BitVec 10) ++ (165#8 : BitVec 8)
/-- BCOPY (R318). -/
def encBcopy (d : BitVec 5) : BitVec 32 := (0#19 : BitVec 19) ++ d ++ (169#8 : BitVec 8)
/-- BCOPY_RING (R319). -/
def encBcopyRing (q : BitVec 6) (d : BitVec 5) : BitVec 32 := (256#13 : BitVec 13) ++ q ++ d ++ (169#8 : BitVec 8)
/-- BGATHER (R320). -/
def encBgather (d : BitVec 5) : BitVec 32 := (32768#19 : BitVec 19) ++ d ++ (169#8 : BitVec 8)
/-- BGATHER_RING (R320). -/
def encBgatherRing (q : BitVec 6) (d : BitVec 5) : BitVec 32 := (768#13 : BitVec 13) ++ q ++ d ++ (169#8 : BitVec 8)
/-- BSCATTER (R320). -/
def encBscatter (d : BitVec 5) : BitVec 32 := (65536#19 : BitVec 19) ++ d ++ (169#8 : BitVec 8)
/-- BSTAT (R321). -/
def encBstat (d : BitVec 5) : BitVec 32 := (98304#19 : BitVec 19) ++ d ++ (169#8 : BitVec 8)
/-- FENCE (R344). -/
def encFence (s : BitVec 2) (e : BitVec 1) : BitVec 32 := (0#4 : BitVec 4) ++ s ++ e ++ (0#17 : BitVec 17) ++ (173#8 : BitVec 8)
/-- ACKW (R345). -/
def encAckw (s : BitVec 2) (a : BitVec 5) (d : BitVec 5) : BitVec 32 := (1#4 : BitVec 4) ++ s ++ (0#8 : BitVec 8) ++ a ++ d ++ (173#8 : BitVec 8)
/-- ST_REL (R347). -/
def encStRel (g : BitVec 4) (s : BitVec 2) (o : BitVec 7) (a : BitVec 5) (d : BitVec 5) : BitVec 32 := g ++ s ++ (0#1 : BitVec 1) ++ o ++ a ++ d ++ (177#8 : BitVec 8)
/-- LD_ACQ (R348). -/
def encLdAcq (g : BitVec 4) (s : BitVec 2) (o : BitVec 7) (a : BitVec 5) (d : BitVec 5) : BitVec 32 := g ++ s ++ (0#1 : BitVec 1) ++ o ++ a ++ d ++ (181#8 : BitVec 8)
/-- AMO_ADD (R373). -/
def encAmoAdd (g : BitVec 4) (w : BitVec 1) (b : BitVec 5) (a : BitVec 5) (d : BitVec 5) : BitVec 32 := (0#4 : BitVec 4) ++ g ++ w ++ b ++ a ++ d ++ (185#8 : BitVec 8)
/-- AMO_AND (R373). -/
def encAmoAnd (g : BitVec 4) (w : BitVec 1) (b : BitVec 5) (a : BitVec 5) (d : BitVec 5) : BitVec 32 := (1#4 : BitVec 4) ++ g ++ w ++ b ++ a ++ d ++ (185#8 : BitVec 8)
/-- AMO_OR (R373). -/
def encAmoOr (g : BitVec 4) (w : BitVec 1) (b : BitVec 5) (a : BitVec 5) (d : BitVec 5) : BitVec 32 := (2#4 : BitVec 4) ++ g ++ w ++ b ++ a ++ d ++ (185#8 : BitVec 8)
/-- AMO_XOR (R373). -/
def encAmoXor (g : BitVec 4) (w : BitVec 1) (b : BitVec 5) (a : BitVec 5) (d : BitVec 5) : BitVec 32 := (3#4 : BitVec 4) ++ g ++ w ++ b ++ a ++ d ++ (185#8 : BitVec 8)
/-- AMO_MIN (R373). -/
def encAmoMin (g : BitVec 4) (w : BitVec 1) (b : BitVec 5) (a : BitVec 5) (d : BitVec 5) : BitVec 32 := (4#4 : BitVec 4) ++ g ++ w ++ b ++ a ++ d ++ (185#8 : BitVec 8)
/-- AMO_MAX (R373). -/
def encAmoMax (g : BitVec 4) (w : BitVec 1) (b : BitVec 5) (a : BitVec 5) (d : BitVec 5) : BitVec 32 := (5#4 : BitVec 4) ++ g ++ w ++ b ++ a ++ d ++ (185#8 : BitVec 8)
/-- AMO_MINN (R373). -/
def encAmoMinn (g : BitVec 4) (w : BitVec 1) (b : BitVec 5) (a : BitVec 5) (d : BitVec 5) : BitVec 32 := (6#4 : BitVec 4) ++ g ++ w ++ b ++ a ++ d ++ (185#8 : BitVec 8)
/-- AMO_MAXN (R373). -/
def encAmoMaxn (g : BitVec 4) (w : BitVec 1) (b : BitVec 5) (a : BitVec 5) (d : BitVec 5) : BitVec 32 := (7#4 : BitVec 4) ++ g ++ w ++ b ++ a ++ d ++ (185#8 : BitVec 8)
/-- AMO_SWAP (R373). -/
def encAmoSwap (g : BitVec 4) (w : BitVec 1) (b : BitVec 5) (a : BitVec 5) (d : BitVec 5) : BitVec 32 := (8#4 : BitVec 4) ++ g ++ w ++ b ++ a ++ d ++ (185#8 : BitVec 8)
/-- AMO_CAS (R373). -/
def encAmoCas (g : BitVec 4) (w : BitVec 1) (b : BitVec 5) (a : BitVec 5) (d : BitVec 5) : BitVec 32 := (9#4 : BitVec 4) ++ g ++ w ++ b ++ a ++ d ++ (185#8 : BitVec 8)
/-- RED_INTEGER (R373). -/
def encRedInteger (o : BitVec 3) (g : BitVec 4) (w : BitVec 1) (b : BitVec 5) (a : BitVec 5) : BitVec 32 := (0#1 : BitVec 1) ++ o ++ g ++ w ++ b ++ a ++ (0#5 : BitVec 5) ++ (185#8 : BitVec 8)
/-- FAMO_ADD (R374). -/
def encFamoAdd (g : BitVec 4) (t : BitVec 1) (b : BitVec 5) (a : BitVec 5) (d : BitVec 5) : BitVec 32 := (0#4 : BitVec 4) ++ g ++ t ++ b ++ a ++ d ++ (189#8 : BitVec 8)
/-- FAMO_MIN (R374). -/
def encFamoMin (g : BitVec 4) (t : BitVec 1) (b : BitVec 5) (a : BitVec 5) (d : BitVec 5) : BitVec 32 := (1#4 : BitVec 4) ++ g ++ t ++ b ++ a ++ d ++ (189#8 : BitVec 8)
/-- FAMO_MAX (R374). -/
def encFamoMax (g : BitVec 4) (t : BitVec 1) (b : BitVec 5) (a : BitVec 5) (d : BitVec 5) : BitVec 32 := (2#4 : BitVec 4) ++ g ++ t ++ b ++ a ++ d ++ (189#8 : BitVec 8)
/-- RED_FLOAT (R374). -/
def encRedFloat (o : BitVec 2) (g : BitVec 4) (t : BitVec 1) (b : BitVec 5) (a : BitVec 5) : BitVec 32 := (0#2 : BitVec 2) ++ o ++ g ++ t ++ b ++ a ++ (0#5 : BitVec 5) ++ (189#8 : BitVec 8)
/-- BFINS (R375). -/
def encBfins (g : BitVec 4) (b : BitVec 5) (a : BitVec 5) (d : BitVec 5) : BitVec 32 := (0#2 : BitVec 2) ++ g ++ (0#3 : BitVec 3) ++ b ++ a ++ d ++ (193#8 : BitVec 8)
/-- BFFCS (R375). -/
def encBffcs (g : BitVec 4) (b : BitVec 5) (a : BitVec 5) (d : BitVec 5) : BitVec 32 := (1#2 : BitVec 2) ++ g ++ (0#3 : BitVec 3) ++ b ++ a ++ d ++ (193#8 : BitVec 8)
/-- BFPLS (R375). -/
def encBfpls (g : BitVec 4) (b : BitVec 5) (a : BitVec 5) (d : BitVec 5) : BitVec 32 := (2#2 : BitVec 2) ++ g ++ (0#3 : BitVec 3) ++ b ++ a ++ d ++ (193#8 : BitVec 8)
/-- TKT_GET (R377). -/
def encTktGet (d : BitVec 5) : BitVec 32 := (0#19 : BitVec 19) ++ d ++ (197#8 : BitVec 8)
/-- TKT_SCOPE (R378). -/
def encTktScope (a : BitVec 5) (d : BitVec 5) : BitVec 32 := (1024#14 : BitVec 14) ++ a ++ d ++ (197#8 : BitVec 8)
/-- TKT_VOID (R379). -/
def encTktVoid (a : BitVec 5) : BitVec 32 := (2048#14 : BitVec 14) ++ a ++ (0#5 : BitVec 5) ++ (197#8 : BitVec 8)
/-- BAR_INIT (R394). -/
def encBarInit (n : BitVec 7) (a : BitVec 5) : BitVec 32 := (0#7 : BitVec 7) ++ n ++ a ++ (0#5 : BitVec 5) ++ (201#8 : BitVec 8)
/-- BAR_ARR (R396). -/
def encBarArr (r : BitVec 2) (n : BitVec 7) (a : BitVec 5) (d : BitVec 5) : BitVec 32 := (1#2 : BitVec 2) ++ r ++ (0#3 : BitVec 3) ++ n ++ a ++ d ++ (201#8 : BitVec 8)
/-- BAR_WAIT (R397). -/
def encBarWait (r : BitVec 2) (n : BitVec 7) (a : BitVec 5) : BitVec 32 := (2#2 : BitVec 2) ++ r ++ (0#3 : BitVec 3) ++ n ++ a ++ (0#5 : BitVec 5) ++ (201#8 : BitVec 8)
/-- BAR_EXP (R395). -/
def encBarExp (n : BitVec 7) (a : BitVec 5) : BitVec 32 := (96#7 : BitVec 7) ++ n ++ a ++ (0#5 : BitVec 5) ++ (201#8 : BitVec 8)
/-- GRP_JOIN (R399). -/
def encGrpJoin (a : BitVec 5) (d : BitVec 5) : BitVec 32 := (0#14 : BitVec 14) ++ a ++ d ++ (205#8 : BitVec 8)
/-- GRP_LEAVE (R399). -/
def encGrpLeave (a : BitVec 5) (d : BitVec 5) : BitVec 32 := (1024#14 : BitVec 14) ++ a ++ d ++ (205#8 : BitVec 8)
/-- GRP_Q (R399). -/
def encGrpQ (a : BitVec 5) (d : BitVec 5) : BitVec 32 := (2048#14 : BitVec 14) ++ a ++ d ++ (205#8 : BitVec 8)
/-- SEM_INIT (R400). -/
def encSemInit (n : BitVec 4) (a : BitVec 5) : BitVec 32 := (0#10 : BitVec 10) ++ n ++ a ++ (0#5 : BitVec 5) ++ (209#8 : BitVec 8)
/-- SEM_POST (R400). -/
def encSemPost (n : BitVec 4) (a : BitVec 5) : BitVec 32 := (256#10 : BitVec 10) ++ n ++ a ++ (0#5 : BitVec 5) ++ (209#8 : BitVec 8)
/-- SEM_ARM (R400). -/
def encSemArm (n : BitVec 4) (a : BitVec 5) : BitVec 32 := (512#10 : BitVec 10) ++ n ++ a ++ (0#5 : BitVec 5) ++ (209#8 : BitVec 8)
/-- RND_CLOSE (R461). -/
def encRndClose : BitVec 32 := (0#24 : BitVec 24) ++ (213#8 : BitVec 8)
/-- RND_Q (R462). -/
def encRndQ (d : BitVec 5) : BitVec 32 := (32768#19 : BitVec 19) ++ d ++ (213#8 : BitVec 8)
/-- LMAP (R441). -/
def encLmap (a : BitVec 5) (d : BitVec 5) : BitVec 32 := (0#14 : BitVec 14) ++ a ++ d ++ (217#8 : BitVec 8)
/-- FOLD_Q (R442). -/
def encFoldQ (b : BitVec 5) (a : BitVec 5) (d : BitVec 5) : BitVec 32 := (32#9 : BitVec 9) ++ b ++ a ++ d ++ (217#8 : BitVec 8)
/-- COMPACT_ADD (R58). -/
def encCompactAdd (s : BitVec 5) (d : BitVec 5) : BitVec 16 := s ++ d ++ (2#6 : BitVec 6)
/-- COMPACT_SUB (R58). -/
def encCompactSub (s : BitVec 5) (d : BitVec 5) : BitVec 16 := s ++ d ++ (4#6 : BitVec 6)
/-- COMPACT_AND (R58). -/
def encCompactAnd (s : BitVec 5) (d : BitVec 5) : BitVec 16 := s ++ d ++ (6#6 : BitVec 6)
/-- COMPACT_OR (R58). -/
def encCompactOr (s : BitVec 5) (d : BitVec 5) : BitVec 16 := s ++ d ++ (8#6 : BitVec 6)
/-- COMPACT_MOVE (R58). -/
def encCompactMove (s : BitVec 5) (d : BitVec 5) : BitVec 16 := s ++ d ++ (10#6 : BitVec 6)
/-- COMPACT_XOR (R58). -/
def encCompactXor (s : BitVec 5) (d : BitVec 5) : BitVec 16 := s ++ d ++ (12#6 : BitVec 6)
/-- COMPACT_ADDI (R58). -/
def encCompactAddi (i : BitVec 5) (d : BitVec 5) : BitVec 16 := i ++ d ++ (14#6 : BitVec 6)
/-- COMPACT_MOVI (R58). -/
def encCompactMovi (i : BitVec 5) (d : BitVec 5) : BitVec 16 := i ++ d ++ (16#6 : BitVec 6)
/-- COMPACT_SHLI (R58). -/
def encCompactShli (u : BitVec 5) (d : BitVec 5) : BitVec 16 := u ++ d ++ (18#6 : BitVec 6)
/-- COMPACT_SHRI (R58). -/
def encCompactShri (u : BitVec 5) (d : BitVec 5) : BitVec 16 := u ++ d ++ (20#6 : BitVec 6)
/-- COMPACT_SHAI (R58). -/
def encCompactShai (u : BitVec 5) (d : BitVec 5) : BitVec 16 := u ++ d ++ (22#6 : BitVec 6)
/-- COMPACT_ANDI (R58). -/
def encCompactAndi (i : BitVec 5) (d : BitVec 5) : BitVec 16 := i ++ d ++ (24#6 : BitVec 6)
/-- COMPACT_SLT (R58). -/
def encCompactSlt (s : BitVec 5) (d : BitVec 5) : BitVec 16 := s ++ d ++ (26#6 : BitVec 6)
/-- COMPACT_SEQ (R58). -/
def encCompactSeq (s : BitVec 5) (d : BitVec 5) : BitVec 16 := s ++ d ++ (28#6 : BitVec 6)
/-- COMPACT_MUL (R58). -/
def encCompactMul (s : BitVec 5) (d : BitVec 5) : BitVec 16 := s ++ d ++ (30#6 : BitVec 6)
/-- COMPACT_LD_D (R58). -/
def encCompactLdD (s : BitVec 5) (d : BitVec 5) : BitVec 16 := s ++ d ++ (32#6 : BitVec 6)
/-- COMPACT_ST_D (R58). -/
def encCompactStD (s : BitVec 5) (d : BitVec 5) : BitVec 16 := s ++ d ++ (34#6 : BitVec 6)
/-- COMPACT_BEQ (R58). -/
def encCompactBeq (o : BitVec 5) (d : BitVec 5) : BitVec 16 := o ++ d ++ (36#6 : BitVec 6)
/-- COMPACT_BNE (R58). -/
def encCompactBne (o : BitVec 5) (d : BitVec 5) : BitVec 16 := o ++ d ++ (38#6 : BitVec 6)
/-- COMPACT_NOP (R59). -/
def encCompactNop : BitVec 16 := (40#16 : BitVec 16)
/-- COMPACT_BRK (R59). -/
def encCompactBrk : BitVec 16 := (104#16 : BitVec 16)
/-- COMPACT_END (R59). -/
def encCompactEnd : BitVec 16 := (168#16 : BitVec 16)

/-- The halfword of a compact instruction (02 Table 2.2). -/
def encodeCompact : Instr → BitVec 16
  | .compactAdd s d => encCompactAdd s d
  | .compactSub s d => encCompactSub s d
  | .compactAnd s d => encCompactAnd s d
  | .compactOr s d => encCompactOr s d
  | .compactMove s d => encCompactMove s d
  | .compactXor s d => encCompactXor s d
  | .compactAddi i d => encCompactAddi i d
  | .compactMovi i d => encCompactMovi i d
  | .compactShli u d => encCompactShli u d
  | .compactShri u d => encCompactShri u d
  | .compactShai u d => encCompactShai u d
  | .compactAndi i d => encCompactAndi i d
  | .compactSlt s d => encCompactSlt s d
  | .compactSeq s d => encCompactSeq s d
  | .compactMul s d => encCompactMul s d
  | .compactLdD s d => encCompactLdD s d
  | .compactStD s d => encCompactStD s d
  | .compactBeq o d => encCompactBeq o d
  | .compactBne o d => encCompactBne o d
  | .compactNop => encCompactNop
  | .compactBrk => encCompactBrk
  | .compactEnd => encCompactEnd
  | _ => 0

/-- The first 32 bits of an instruction (02 Tables 2.1, 2.3); 0 for a compact form and for a step without an encoding. -/
def encodeWord : Instr → BitVec 32
  | .add b a d => encAdd b a d
  | .sub b a d => encSub b a d
  | .mul b a d => encMul b a d
  | .mulh b a d => encMulh b a d
  | .mulhn b a d => encMulhn b a d
  | .div b a d => encDiv b a d
  | .divn b a d => encDivn b a d
  | .rem b a d => encRem b a d
  | .remn b a d => encRemn b a d
  | .min b a d => encMin b a d
  | .max b a d => encMax b a d
  | .minn b a d => encMinn b a d
  | .maxn b a d => encMaxn b a d
  | .and b a d => encAnd b a d
  | .or b a d => encOr b a d
  | .xor b a d => encXor b a d
  | .andn b a d => encAndn b a d
  | .shl b a d => encShl b a d
  | .shr b a d => encShr b a d
  | .sha b a d => encSha b a d
  | .rotl b a d => encRotl b a d
  | .clz a d => encClz a d
  | .ctz a d => encCtz a d
  | .popc a d => encPopc a d
  | .seq b a d => encSeq b a d
  | .slt b a d => encSlt b a d
  | .sltn b a d => encSltn b a d
  | .padd w b a d => encPadd w b a d
  | .psub w b a d => encPsub w b a d
  | .pmin n w b a d => encPmin n w b a d
  | .pmax n w b a d => encPmax n w b a d
  | .pshl w b a d => encPshl w b a d
  | .pshr w b a d => encPshr w b a d
  | .psha w b a d => encPsha w b a d
  | .addi i a d => encAddi i a d
  | .andi i a d => encAndi i a d
  | .ori i a d => encOri i a d
  | .xori i a d => encXori i a d
  | .shli n a d => encShli n a d
  | .shri n a d => encShri n a d
  | .shai n a d => encShai n a d
  | .bfxS p l a d => encBfxS p l a d
  | .bfxZ p l a d => encBfxZ p l a d
  | .bfi p l a d => encBfi p l a d
  | .sel c b a d => encSel c b a d
  | .movi i d => encMovi i d
  | .movh i d => encMovh i d
  | .beq o b a => encBeq o b a
  | .bne o b a => encBne o b a
  | .blt o b a => encBlt o b a
  | .bge o b a => encBge o b a
  | .bltn o b a => encBltn o b a
  | .bgen o b a => encBgen o b a
  | .jmp o => encJmp o
  | .jal o => encJal o
  | .jr i a d => encJr i a d
  | .rep l a => encRep l a
  | .nop => encNop
  | .brk => encBrk
  | .trap a => encTrap a
  | .sysc a => encSysc a
  | .eret => encEret
  | .cwr h n d => encCwr h n d
  | .cww n a => encCww n a
  | .endTask => encEndTask
  | .arm b a => encArm b a
  | .disarm a d => encDisarm a d
  | .waita c b a => encWaita c b a
  | .wake b a => encWake b a
  | .tid d => encTid d
  | .prio a d => encPrio a d
  | .defer a => encDefer a
  | .uiret => encUiret
  | .uimask a d => encUimask a d
  | .spawn c a d => encSpawn c a d
  | .spawnr c a d => encSpawnr c a d
  | .sendR n q d => encSendR n q d
  | .sendM n q d => encSendM n q d
  | .sendiR r n q d => encSendiR r n q d
  | .sendiM r n q d => encSendiM r n q d
  | .sendwR r n d => encSendwR r n d
  | .sendwM r n d => encSendwM r n d
  | .replyR n d => encReplyR n d
  | .replyM n d => encReplyM n d
  | .refuse => encRefuse
  | .qpeekQ i q d => encQpeekQ i q d
  | .qpeekC h i q d => encQpeekC h i q d
  | .qcntQ q d => encQcntQ q d
  | .qcntC q d => encQcntC q d
  | .qflushQ q => encQflushQ q
  | .qflushC q => encQflushC q
  | .qbind q d => encQbind q d
  | .chopen q d => encChopen q d
  | .chclose q => encChclose q
  | .chstat q d => encChstat q d
  | .ldBZ g o a d => encLdBZ g o a d
  | .ldBS g o a d => encLdBS g o a d
  | .ldHZ g o a d => encLdHZ g o a d
  | .ldHS g o a d => encLdHS g o a d
  | .ldWZ g o a d => encLdWZ g o a d
  | .ldWS g o a d => encLdWS g o a d
  | .ldD g o a d => encLdD g o a d
  | .stB g o a d => encStB g o a d
  | .stH g o a d => encStH g o a d
  | .stW g o a d => encStW g o a d
  | .stD g o a d => encStD g o a d
  | .ldq g n q d => encLdq g n q d
  | .stq g n d => encStq g n d
  | .ldff g n q d => encLdff g n q d
  | .prf g n d => encPrf g n d
  | .ldsync g o a d => encLdsync g o a d
  | .stfull g o a d => encStfull g o a d
  | .stempty g o a => encStempty g o a
  | .gaddr g a d => encGaddr g a d
  | .segw g b a => encSegw g b a
  | .segr h g d => encSegr h g d
  | .vaddF32 k b a d m => encVaddF32 k b a d m
  | .vsubF32 k b a d m => encVsubF32 k b a d m
  | .vmulF32 k b a d m => encVmulF32 k b a d m
  | .vfmaF32 k b a d m => encVfmaF32 k b a d m
  | .vfmsF32 k b a d m => encVfmsF32 k b a d m
  | .vfnmaF32 k b a d m => encVfnmaF32 k b a d m
  | .vminF32 k b a d m => encVminF32 k b a d m
  | .vmaxF32 k b a d m => encVmaxF32 k b a d m
  | .vrcp k a d m => encVrcp k a d m
  | .vrsqrt k a d m => encVrsqrt k a d m
  | .vsqrt k a d m => encVsqrt k a d m
  | .vexp2 k a d m => encVexp2 k a d m
  | .vlog2 k a d m => encVlog2 k a d m
  | .vtanh k a d m => encVtanh k a d m
  | .vcmpEqF32 k b a d m => encVcmpEqF32 k b a d m
  | .vcmpNeF32 k b a d m => encVcmpNeF32 k b a d m
  | .vcmpLtF32 k b a d m => encVcmpLtF32 k b a d m
  | .vcmpLeF32 k b a d m => encVcmpLeF32 k b a d m
  | .vselF32 k b a d m => encVselF32 k b a d m
  | .vredaddF32 k a d m => encVredaddF32 k a d m
  | .vredmaxF32 k a d m => encVredmaxF32 k a d m
  | .vscanF32 k a d m => encVscanF32 k a d m
  | .vaddF16 t k b a d m => encVaddF16 t k b a d m
  | .vsubF16 t k b a d m => encVsubF16 t k b a d m
  | .vmulF16 t k b a d m => encVmulF16 t k b a d m
  | .vfmaF16 t k b a d m => encVfmaF16 t k b a d m
  | .vfmsF16 t k b a d m => encVfmsF16 t k b a d m
  | .vfnmaF16 t k b a d m => encVfnmaF16 t k b a d m
  | .vminF16 t k b a d m => encVminF16 t k b a d m
  | .vmaxF16 t k b a d m => encVmaxF16 t k b a d m
  | .vdotF32 t k b a d m => encVdotF32 t k b a d m
  | .vcmpEqF16 t k b a d m => encVcmpEqF16 t k b a d m
  | .vcmpNeF16 t k b a d m => encVcmpNeF16 t k b a d m
  | .vcmpLtF16 t k b a d m => encVcmpLtF16 t k b a d m
  | .vcmpLeF16 t k b a d m => encVcmpLeF16 t k b a d m
  | .vselF16 t k b a d m => encVselF16 t k b a d m
  | .vredaddF16 t k a d m => encVredaddF16 t k a d m
  | .vredmaxF16 t k a d m => encVredmaxF16 t k a d m
  | .vscanF16 t k a d m => encVscanF16 t k a d m
  | .vaddI32 n k b a d m => encVaddI32 n k b a d m
  | .vsubI32 n k b a d m => encVsubI32 n k b a d m
  | .vmulI32 n k b a d m => encVmulI32 n k b a d m
  | .vminI32 n k b a d m => encVminI32 n k b a d m
  | .vmaxI32 n k b a d m => encVmaxI32 n k b a d m
  | .vandI32 n k b a d m => encVandI32 n k b a d m
  | .vorI32 n k b a d m => encVorI32 n k b a d m
  | .vxorI32 n k b a d m => encVxorI32 n k b a d m
  | .vshlI32 n k b a d m => encVshlI32 n k b a d m
  | .vshrI32 n k b a d m => encVshrI32 n k b a d m
  | .vshaI32 n k b a d m => encVshaI32 n k b a d m
  | .vcmpEqI32 n k b a d m => encVcmpEqI32 n k b a d m
  | .vcmpNeI32 n k b a d m => encVcmpNeI32 n k b a d m
  | .vcmpLtI32 n k b a d m => encVcmpLtI32 n k b a d m
  | .vcmpLeI32 n k b a d m => encVcmpLeI32 n k b a d m
  | .vselI32 n k b a d m => encVselI32 n k b a d m
  | .vredaddI32 n k a d m => encVredaddI32 n k a d m
  | .vredmaxI32 n k a d m => encVredmaxI32 n k a d m
  | .vscanI32 n k a d m => encVscanI32 n k a d m
  | .vaddI16 n k b a d m => encVaddI16 n k b a d m
  | .vsubI16 n k b a d m => encVsubI16 n k b a d m
  | .vmulI16 n k b a d m => encVmulI16 n k b a d m
  | .vminI16 n k b a d m => encVminI16 n k b a d m
  | .vmaxI16 n k b a d m => encVmaxI16 n k b a d m
  | .vandI16 n k b a d m => encVandI16 n k b a d m
  | .vorI16 n k b a d m => encVorI16 n k b a d m
  | .vxorI16 n k b a d m => encVxorI16 n k b a d m
  | .vshlI16 n k b a d m => encVshlI16 n k b a d m
  | .vshrI16 n k b a d m => encVshrI16 n k b a d m
  | .vshaI16 n k b a d m => encVshaI16 n k b a d m
  | .vcmpEqI16 n k b a d m => encVcmpEqI16 n k b a d m
  | .vcmpNeI16 n k b a d m => encVcmpNeI16 n k b a d m
  | .vcmpLtI16 n k b a d m => encVcmpLtI16 n k b a d m
  | .vcmpLeI16 n k b a d m => encVcmpLeI16 n k b a d m
  | .vselI16 n k b a d m => encVselI16 n k b a d m
  | .vredaddI16 n k a d m => encVredaddI16 n k a d m
  | .vredmaxI16 n k a d m => encVredmaxI16 n k a d m
  | .vscanI16 n k a d m => encVscanI16 n k a d m
  | .vdotDI16 n k b a d m => encVdotDI16 n k b a d m
  | .vaddI8 n k b a d m => encVaddI8 n k b a d m
  | .vsubI8 n k b a d m => encVsubI8 n k b a d m
  | .vmulI8 n k b a d m => encVmulI8 n k b a d m
  | .vminI8 n k b a d m => encVminI8 n k b a d m
  | .vmaxI8 n k b a d m => encVmaxI8 n k b a d m
  | .vandI8 n k b a d m => encVandI8 n k b a d m
  | .vorI8 n k b a d m => encVorI8 n k b a d m
  | .vxorI8 n k b a d m => encVxorI8 n k b a d m
  | .vshlI8 n k b a d m => encVshlI8 n k b a d m
  | .vshrI8 n k b a d m => encVshrI8 n k b a d m
  | .vshaI8 n k b a d m => encVshaI8 n k b a d m
  | .vcmpEqI8 n k b a d m => encVcmpEqI8 n k b a d m
  | .vcmpNeI8 n k b a d m => encVcmpNeI8 n k b a d m
  | .vcmpLtI8 n k b a d m => encVcmpLtI8 n k b a d m
  | .vcmpLeI8 n k b a d m => encVcmpLeI8 n k b a d m
  | .vselI8 n k b a d m => encVselI8 n k b a d m
  | .vredaddI8 n k a d m => encVredaddI8 n k a d m
  | .vredmaxI8 n k a d m => encVredmaxI8 n k a d m
  | .vscanI8 n k a d m => encVscanI8 n k a d m
  | .vdotDI8 n k b a d m => encVdotDI8 n k b a d m
  | .vperm w k b a d => encVperm w k b a d
  | .vbcastS w k a d => encVbcastS w k a d
  | .vcompress w k b a d => encVcompress w k b a d
  | .vexpand w k b a d => encVexpand w k b a d
  | .vmovsToScalar w b a d => encVmovsToScalar w b a d
  | .vmovsToVector w b a d => encVmovsToVector w b a d
  | .vext w k b a d => encVext w k b a d
  | .vbcastV w k b a d => encVbcastV w k b a d
  | .vmov w k a d => encVmov w k a d
  | .vpop w k a d => encVpop w k a d
  | .vpush w k a d => encVpush w k a d
  | .kset a d => encKset a d
  | .kfirst w k a d => encKfirst w k a d
  | .kmin b a d => encKmin b a d
  | .kpop w b a d => encKpop w b a d
  | .gang a d => encGang a d
  | .gjoin a => encGjoin a
  | .gdisband => encGdisband
  | .cvt t s a d m => encCvt t s a d m
  | .fqmv n a d m => encFqmv n a d m
  | .unpackCe8 t b a d => encUnpackCe8 t b a d
  | .packCe8 f b a d => encPackCe8 f b a d
  | .mxs t x a d => encMxs t x a d
  | .mxq t x b a d => encMxq t x b a d
  | .mxd t x b a d => encMxd t x b a d
  | .mma m t s b a c => encMma m t s b a c
  | .gissue m t s b a c => encGissue m t s b a c
  | .mzero c => encMzero c
  | .mrow v h r c => encMrow v h r c
  | .mdrain m t a c => encMdrain m t a c
  | .mdrainadd m t a c => encMdrainadd m t a c
  | .ringcfg n a => encRingcfg n a
  | .ringpushM n b a d => encRingpushM n b a d
  | .ringpushQ n b a => encRingpushQ n b a
  | .tsrw g b a d => encTsrw g b a d
  | .tsrinv b => encTsrinv b
  | .bcopy d => encBcopy d
  | .bcopyRing q d => encBcopyRing q d
  | .bgather d => encBgather d
  | .bgatherRing q d => encBgatherRing q d
  | .bscatter d => encBscatter d
  | .bstat d => encBstat d
  | .fence s e => encFence s e
  | .ackw s a d => encAckw s a d
  | .stRel g s o a d => encStRel g s o a d
  | .ldAcq g s o a d => encLdAcq g s o a d
  | .amoAdd g w b a d => encAmoAdd g w b a d
  | .amoAnd g w b a d => encAmoAnd g w b a d
  | .amoOr g w b a d => encAmoOr g w b a d
  | .amoXor g w b a d => encAmoXor g w b a d
  | .amoMin g w b a d => encAmoMin g w b a d
  | .amoMax g w b a d => encAmoMax g w b a d
  | .amoMinn g w b a d => encAmoMinn g w b a d
  | .amoMaxn g w b a d => encAmoMaxn g w b a d
  | .amoSwap g w b a d => encAmoSwap g w b a d
  | .amoCas g w b a d => encAmoCas g w b a d
  | .redInteger o g w b a => encRedInteger o g w b a
  | .famoAdd g t b a d => encFamoAdd g t b a d
  | .famoMin g t b a d => encFamoMin g t b a d
  | .famoMax g t b a d => encFamoMax g t b a d
  | .redFloat o g t b a => encRedFloat o g t b a
  | .bfins g b a d => encBfins g b a d
  | .bffcs g b a d => encBffcs g b a d
  | .bfpls g b a d => encBfpls g b a d
  | .tktGet d => encTktGet d
  | .tktScope a d => encTktScope a d
  | .tktVoid a => encTktVoid a
  | .barInit n a => encBarInit n a
  | .barArr r n a d => encBarArr r n a d
  | .barWait r n a => encBarWait r n a
  | .barExp n a => encBarExp n a
  | .grpJoin a d => encGrpJoin a d
  | .grpLeave a d => encGrpLeave a d
  | .grpQ a d => encGrpQ a d
  | .semInit n a => encSemInit n a
  | .semPost n a => encSemPost n a
  | .semArm n a => encSemArm n a
  | .rndClose => encRndClose
  | .rndQ d => encRndQ d
  | .lmap a d => encLmap a d
  | .foldQ b a d => encFoldQ b a d
  | _ => 0

/-- The modifier word of an instruction, if it has one. -/
def Instr.modifier : Instr → Option (BitVec 32)
  | .vaddF32 _ _ _ _ m => m
  | .vsubF32 _ _ _ _ m => m
  | .vmulF32 _ _ _ _ m => m
  | .vfmaF32 _ _ _ _ m => m
  | .vfmsF32 _ _ _ _ m => m
  | .vfnmaF32 _ _ _ _ m => m
  | .vminF32 _ _ _ _ m => m
  | .vmaxF32 _ _ _ _ m => m
  | .vrcp _ _ _ m => m
  | .vrsqrt _ _ _ m => m
  | .vsqrt _ _ _ m => m
  | .vexp2 _ _ _ m => m
  | .vlog2 _ _ _ m => m
  | .vtanh _ _ _ m => m
  | .vcmpEqF32 _ _ _ _ m => m
  | .vcmpNeF32 _ _ _ _ m => m
  | .vcmpLtF32 _ _ _ _ m => m
  | .vcmpLeF32 _ _ _ _ m => m
  | .vselF32 _ _ _ _ m => m
  | .vredaddF32 _ _ _ m => m
  | .vredmaxF32 _ _ _ m => m
  | .vscanF32 _ _ _ m => m
  | .vaddF16 _ _ _ _ _ m => m
  | .vsubF16 _ _ _ _ _ m => m
  | .vmulF16 _ _ _ _ _ m => m
  | .vfmaF16 _ _ _ _ _ m => m
  | .vfmsF16 _ _ _ _ _ m => m
  | .vfnmaF16 _ _ _ _ _ m => m
  | .vminF16 _ _ _ _ _ m => m
  | .vmaxF16 _ _ _ _ _ m => m
  | .vdotF32 _ _ _ _ _ m => m
  | .vcmpEqF16 _ _ _ _ _ m => m
  | .vcmpNeF16 _ _ _ _ _ m => m
  | .vcmpLtF16 _ _ _ _ _ m => m
  | .vcmpLeF16 _ _ _ _ _ m => m
  | .vselF16 _ _ _ _ _ m => m
  | .vredaddF16 _ _ _ _ m => m
  | .vredmaxF16 _ _ _ _ m => m
  | .vscanF16 _ _ _ _ m => m
  | .vaddI32 _ _ _ _ _ m => m
  | .vsubI32 _ _ _ _ _ m => m
  | .vmulI32 _ _ _ _ _ m => m
  | .vminI32 _ _ _ _ _ m => m
  | .vmaxI32 _ _ _ _ _ m => m
  | .vandI32 _ _ _ _ _ m => m
  | .vorI32 _ _ _ _ _ m => m
  | .vxorI32 _ _ _ _ _ m => m
  | .vshlI32 _ _ _ _ _ m => m
  | .vshrI32 _ _ _ _ _ m => m
  | .vshaI32 _ _ _ _ _ m => m
  | .vcmpEqI32 _ _ _ _ _ m => m
  | .vcmpNeI32 _ _ _ _ _ m => m
  | .vcmpLtI32 _ _ _ _ _ m => m
  | .vcmpLeI32 _ _ _ _ _ m => m
  | .vselI32 _ _ _ _ _ m => m
  | .vredaddI32 _ _ _ _ m => m
  | .vredmaxI32 _ _ _ _ m => m
  | .vscanI32 _ _ _ _ m => m
  | .vaddI16 _ _ _ _ _ m => m
  | .vsubI16 _ _ _ _ _ m => m
  | .vmulI16 _ _ _ _ _ m => m
  | .vminI16 _ _ _ _ _ m => m
  | .vmaxI16 _ _ _ _ _ m => m
  | .vandI16 _ _ _ _ _ m => m
  | .vorI16 _ _ _ _ _ m => m
  | .vxorI16 _ _ _ _ _ m => m
  | .vshlI16 _ _ _ _ _ m => m
  | .vshrI16 _ _ _ _ _ m => m
  | .vshaI16 _ _ _ _ _ m => m
  | .vcmpEqI16 _ _ _ _ _ m => m
  | .vcmpNeI16 _ _ _ _ _ m => m
  | .vcmpLtI16 _ _ _ _ _ m => m
  | .vcmpLeI16 _ _ _ _ _ m => m
  | .vselI16 _ _ _ _ _ m => m
  | .vredaddI16 _ _ _ _ m => m
  | .vredmaxI16 _ _ _ _ m => m
  | .vscanI16 _ _ _ _ m => m
  | .vdotDI16 _ _ _ _ _ m => m
  | .vaddI8 _ _ _ _ _ m => m
  | .vsubI8 _ _ _ _ _ m => m
  | .vmulI8 _ _ _ _ _ m => m
  | .vminI8 _ _ _ _ _ m => m
  | .vmaxI8 _ _ _ _ _ m => m
  | .vandI8 _ _ _ _ _ m => m
  | .vorI8 _ _ _ _ _ m => m
  | .vxorI8 _ _ _ _ _ m => m
  | .vshlI8 _ _ _ _ _ m => m
  | .vshrI8 _ _ _ _ _ m => m
  | .vshaI8 _ _ _ _ _ m => m
  | .vcmpEqI8 _ _ _ _ _ m => m
  | .vcmpNeI8 _ _ _ _ _ m => m
  | .vcmpLtI8 _ _ _ _ _ m => m
  | .vcmpLeI8 _ _ _ _ _ m => m
  | .vselI8 _ _ _ _ _ m => m
  | .vredaddI8 _ _ _ _ m => m
  | .vredmaxI8 _ _ _ _ m => m
  | .vscanI8 _ _ _ _ m => m
  | .vdotDI8 _ _ _ _ _ m => m
  | .cvt _ _ _ _ m => m
  | .fqmv _ _ _ m => m
  | _ => none

/-- Whether an instruction is a compact form. -/
def Instr.isCompact : Instr → Bool
  | .compactAdd _ _ => true
  | .compactSub _ _ => true
  | .compactAnd _ _ => true
  | .compactOr _ _ => true
  | .compactMove _ _ => true
  | .compactXor _ _ => true
  | .compactAddi _ _ => true
  | .compactMovi _ _ => true
  | .compactShli _ _ => true
  | .compactShri _ _ => true
  | .compactShai _ _ => true
  | .compactAndi _ _ => true
  | .compactSlt _ _ => true
  | .compactSeq _ _ => true
  | .compactMul _ _ => true
  | .compactLdD _ _ => true
  | .compactStD _ _ => true
  | .compactBeq _ _ => true
  | .compactBne _ _ => true
  | .compactNop => true
  | .compactBrk => true
  | .compactEnd => true
  | _ => false

/-- A 32-bit form and its modifier word as one word (02 R61). -/
def withModifier (w : BitVec 32) (m : Option (BitVec 32)) : Word := (m.getD 0) ++ w

/-- The bits of a unit as 02 R61 gives them to cw.tval: a halfword, a word, or a word with its modifier word above it. -/
def encodeBits (i : Instr) : Word :=
  if i.isCompact then (encodeCompact i).setWidth 64 else withModifier (encodeWord i) i.modifier

/-- A step of the device that no encoding names. -/
def Instr.isEvent : Instr → Bool
  | .launchSubmit _ _ _ => true
  | .launchAdmission _ _ => true
  | .startRelease _ _ => true
  | .launchCompletion _ => true
  | .consumedCountWrite _ _ _ => true
  | .activationEnter _ _ => true
  | .taskStart _ => true
  | .waitClear _ => true
  | .long _ => true
  | .boundaryOverrun _ => true
  | .asyncTrapTake _ => true
  | .userInterruptEntry _ => true
  | .kernelNotice _ => true
  | .tileTaskComplete _ => true
  | .tileTaskRetire _ => true
  | .frontAdvance _ => true
  | .messageInject _ => true
  | .messageArrival _ => true
  | .creditReturn _ => true
  | .retryReply _ => true
  | .retryResend _ => true
  | .counterIncrementArrival _ => true
  | .remoteAccessArrival _ => true
  | .effectArrival _ => true
  | .waitRequestArrival _ => true
  | .ldsyncCancel _ => true
  | .readReply _ => true
  | .writeAcknowledgement _ => true
  | .writeDenial _ => true
  | .xpartNotice _ => true
  | .flushReadComplete _ => true
  | .transferComplete _ => true
  | .ringDeliveryComplete _ => true
  | .arrayOperationRetire _ => true
  | .gjoinOfferReady _ => true
  | .apertureWrite _ _ _ _ => true
  | .apertureRead _ _ _ _ => true
  | .barrierArrival _ => true
  | .barrierRegistration _ => true
  | .barrierBind _ => true
  | .groupChange _ => true
  | .membershipUpdate _ => true
  | .pageWalk _ => true
  | .walkComplete _ => true
  | .faultCompletion _ _ _ => true
  | .faultQueueHeadWrite _ _ => true
  | .invalidation _ _ _ => true
  | .invalidationComplete _ => true
  | .fold _ _ => true
  | .foldStreamed _ _ => true
  | .unfold _ _ => true
  | .unfoldComplete _ _ => true
  | .parkedArrival _ => true
  | .regulatorFailure _ => true
  | .uncorrectableError _ => true
  | .correctableError _ => true
  | .hbmLineError _ _ _ => true
  | .remapWaveCommit _ => true
  | .roundTimer _ => true
  | .closeDeferralEnd _ => true
  | .roundClose _ => true
  | .roundMirrored _ => true
  | .currentStep _ => true
  | .droopAlarm _ => true
  | .droopClear _ => true
  | .deadlockScan _ => true
  | .partitionCreate _ _ _ => true
  | .partitionDelete _ => true
  | .grow _ _ => true
  | .shrink _ _ => true
  | .preEmption _ _ _ => true
  | .commandSubmit _ _ => true
  | .protectionDescriptor _ => true
  | .contextSave _ => true
  | .loadObject _ _ => true
  | .unloadProgram _ => true
  | .unknownCommand _ => true
  | .slotTableCommit _ => true
  | .slotTableTakeEffect => true
  | .scaleOutFrameReceive _ _ => true
  | .scaleOutAck _ _ => true
  | .scaleOutRetransmit _ => true
  | .portDown _ => true
  | .portUp _ => true
  | .edgeRebind _ _ _ => true
  | .ptpEventMessage _ _ => true
  | .profileMaskWrite _ _ => true
  | .kernelImageWrite _ _ _ _ => true
  | .hyperImageWrite _ _ => true
  | .failsClear _ => true
  | .registerWrite _ _ _ => true
  | .reset => true
  | .firmwareVerify _ => true
  | .dieSelfTest _ _ _ _ _ => true
  | .seamTraining _ _ _ => true
  | .islandMerging => true
  | .startTest _ => true
  | .bootStatusWrite => true
  | .phaseTimeLimit _ => true
  | .getVersion _ => true
  | .getCapabilities _ => true
  | .negotiateAlgorithms _ => true
  | .getDigests _ => true
  | .getCertificate _ _ _ _ => true
  | .challenge _ _ _ => true
  | .getMeasurements _ _ _ _ => true
  | .unsupportedRequest _ _ => true
  | .illegal _ => true
  | .fetchProt _ => true
  | .powerLoss _ _ => true
  | .frameBoundary => true
  | _ => false

/-- The length of a unit in bytes (02 R39). -/
def Instr.len (i : Instr) : Nat :=
  if i.isEvent then 0 else if i.isCompact then 2 else if i.modifier.isSome then 8 else 4

/-- The units as halfwords, first at the lowest address (02 R39): the encoder. -/
def encode (i : Instr) : List Half :=
  if i.isEvent then []
  else if i.isCompact then [encodeCompact i]
  else [(encodeWord i).extractLsb' 0 16, (encodeWord i).extractLsb' 16 16] ++
    match i.modifier with
    | none => []
    | some m => [m.extractLsb' 0 16, m.extractLsb' 16 16]

/-- Major 0x01: the row its operation field selects (02 Table 2.9). -/
noncomputable def candidate01 (w : BitVec 32) : Option Instr :=
  match (w.extractLsb' 23 9).toNat with
    | 0 => some (.add (w.extractLsb' 18 5) (w.extractLsb' 13 5) (w.extractLsb' 8 5))
    | 1 => some (.sub (w.extractLsb' 18 5) (w.extractLsb' 13 5) (w.extractLsb' 8 5))
    | 2 => some (.mul (w.extractLsb' 18 5) (w.extractLsb' 13 5) (w.extractLsb' 8 5))
    | 3 => some (.mulh (w.extractLsb' 18 5) (w.extractLsb' 13 5) (w.extractLsb' 8 5))
    | 4 => some (.mulhn (w.extractLsb' 18 5) (w.extractLsb' 13 5) (w.extractLsb' 8 5))
    | 5 => some (.div (w.extractLsb' 18 5) (w.extractLsb' 13 5) (w.extractLsb' 8 5))
    | 6 => some (.divn (w.extractLsb' 18 5) (w.extractLsb' 13 5) (w.extractLsb' 8 5))
    | 7 => some (.rem (w.extractLsb' 18 5) (w.extractLsb' 13 5) (w.extractLsb' 8 5))
    | 8 => some (.remn (w.extractLsb' 18 5) (w.extractLsb' 13 5) (w.extractLsb' 8 5))
    | 9 => some (.min (w.extractLsb' 18 5) (w.extractLsb' 13 5) (w.extractLsb' 8 5))
    | 10 => some (.max (w.extractLsb' 18 5) (w.extractLsb' 13 5) (w.extractLsb' 8 5))
    | 11 => some (.minn (w.extractLsb' 18 5) (w.extractLsb' 13 5) (w.extractLsb' 8 5))
    | 12 => some (.maxn (w.extractLsb' 18 5) (w.extractLsb' 13 5) (w.extractLsb' 8 5))
    | 13 => some (.and (w.extractLsb' 18 5) (w.extractLsb' 13 5) (w.extractLsb' 8 5))
    | 14 => some (.or (w.extractLsb' 18 5) (w.extractLsb' 13 5) (w.extractLsb' 8 5))
    | 15 => some (.xor (w.extractLsb' 18 5) (w.extractLsb' 13 5) (w.extractLsb' 8 5))
    | 16 => some (.andn (w.extractLsb' 18 5) (w.extractLsb' 13 5) (w.extractLsb' 8 5))
    | 17 => some (.shl (w.extractLsb' 18 5) (w.extractLsb' 13 5) (w.extractLsb' 8 5))
    | 18 => some (.shr (w.extractLsb' 18 5) (w.extractLsb' 13 5) (w.extractLsb' 8 5))
    | 19 => some (.sha (w.extractLsb' 18 5) (w.extractLsb' 13 5) (w.extractLsb' 8 5))
    | 20 => some (.rotl (w.extractLsb' 18 5) (w.extractLsb' 13 5) (w.extractLsb' 8 5))
    | 21 => some (.clz (w.extractLsb' 13 5) (w.extractLsb' 8 5))
    | 22 => some (.ctz (w.extractLsb' 13 5) (w.extractLsb' 8 5))
    | 23 => some (.popc (w.extractLsb' 13 5) (w.extractLsb' 8 5))
    | 24 => some (.seq (w.extractLsb' 18 5) (w.extractLsb' 13 5) (w.extractLsb' 8 5))
    | 25 => some (.slt (w.extractLsb' 18 5) (w.extractLsb' 13 5) (w.extractLsb' 8 5))
    | 26 => some (.sltn (w.extractLsb' 18 5) (w.extractLsb' 13 5) (w.extractLsb' 8 5))
    | _ => none

/-- Major 0x02: the row its operation field selects (02 Table 2.9). -/
noncomputable def candidate02 (w : BitVec 32) : Option Instr :=
  match (w.extractLsb' 25 7).toNat with
    | 0 => some (.padd (w.extractLsb' 23 1) (w.extractLsb' 18 5) (w.extractLsb' 13 5) (w.extractLsb' 8 5))
    | 1 => some (.psub (w.extractLsb' 23 1) (w.extractLsb' 18 5) (w.extractLsb' 13 5) (w.extractLsb' 8 5))
    | 2 => some (.pmin (w.extractLsb' 24 1) (w.extractLsb' 23 1) (w.extractLsb' 18 5) (w.extractLsb' 13 5) (w.extractLsb' 8 5))
    | 3 => some (.pmax (w.extractLsb' 24 1) (w.extractLsb' 23 1) (w.extractLsb' 18 5) (w.extractLsb' 13 5) (w.extractLsb' 8 5))
    | 4 => some (.pshl (w.extractLsb' 23 1) (w.extractLsb' 18 5) (w.extractLsb' 13 5) (w.extractLsb' 8 5))
    | 5 => some (.pshr (w.extractLsb' 23 1) (w.extractLsb' 18 5) (w.extractLsb' 13 5) (w.extractLsb' 8 5))
    | 6 => some (.psha (w.extractLsb' 23 1) (w.extractLsb' 18 5) (w.extractLsb' 13 5) (w.extractLsb' 8 5))
    | _ => none

/-- Major 0x03: the row its operation field selects (02 Table 2.9). -/
noncomputable def candidate03 (w : BitVec 32) : Option Instr :=
  some (.addi (w.extractLsb' 18 14) (w.extractLsb' 13 5) (w.extractLsb' 8 5))

/-- Major 0x04: the row its operation field selects (02 Table 2.9). -/
noncomputable def candidate04 (w : BitVec 32) : Option Instr :=
  some (.andi (w.extractLsb' 18 14) (w.extractLsb' 13 5) (w.extractLsb' 8 5))

/-- Major 0x05: the row its operation field selects (02 Table 2.9). -/
noncomputable def candidate05 (w : BitVec 32) : Option Instr :=
  some (.ori (w.extractLsb' 18 14) (w.extractLsb' 13 5) (w.extractLsb' 8 5))

/-- Major 0x06: the row its operation field selects (02 Table 2.9). -/
noncomputable def candidate06 (w : BitVec 32) : Option Instr :=
  some (.xori (w.extractLsb' 18 14) (w.extractLsb' 13 5) (w.extractLsb' 8 5))

/-- Major 0x07: the row its operation field selects (02 Table 2.9). -/
noncomputable def candidate07 (w : BitVec 32) : Option Instr :=
  match (w.extractLsb' 30 2).toNat with
    | 0 => some (.shli (w.extractLsb' 18 6) (w.extractLsb' 13 5) (w.extractLsb' 8 5))
    | 1 => some (.shri (w.extractLsb' 18 6) (w.extractLsb' 13 5) (w.extractLsb' 8 5))
    | 2 => some (.shai (w.extractLsb' 18 6) (w.extractLsb' 13 5) (w.extractLsb' 8 5))
    | _ => none

/-- Major 0x08: the row its operation field selects (02 Table 2.9). -/
noncomputable def candidate08 (w : BitVec 32) : Option Instr :=
  match (w.extractLsb' 30 2).toNat with
    | 0 => some (.bfxS (w.extractLsb' 24 6) (w.extractLsb' 18 6) (w.extractLsb' 13 5) (w.extractLsb' 8 5))
    | 1 => some (.bfxZ (w.extractLsb' 24 6) (w.extractLsb' 18 6) (w.extractLsb' 13 5) (w.extractLsb' 8 5))
    | 2 => some (.bfi (w.extractLsb' 24 6) (w.extractLsb' 18 6) (w.extractLsb' 13 5) (w.extractLsb' 8 5))
    | _ => none

/-- Major 0x09: the row its operation field selects (02 Table 2.9). -/
noncomputable def candidate09 (w : BitVec 32) : Option Instr :=
  some (.sel (w.extractLsb' 23 5) (w.extractLsb' 18 5) (w.extractLsb' 13 5) (w.extractLsb' 8 5))

/-- Major 0x0A: the row its operation field selects (02 Table 2.9). -/
noncomputable def candidate0A (w : BitVec 32) : Option Instr :=
  some (.movi (w.extractLsb' 13 19) (w.extractLsb' 8 5))

/-- Major 0x0B: the row its operation field selects (02 Table 2.9). -/
noncomputable def candidate0B (w : BitVec 32) : Option Instr :=
  some (.movh (w.extractLsb' 13 19) (w.extractLsb' 8 5))

/-- Major 0x0C: the row its operation field selects (02 Table 2.9). -/
noncomputable def candidate0C (w : BitVec 32) : Option Instr :=
  match (w.extractLsb' 18 3).toNat with
    | 0 => some (.beq (w.extractLsb' 21 11) (w.extractLsb' 13 5) (w.extractLsb' 8 5))
    | 1 => some (.bne (w.extractLsb' 21 11) (w.extractLsb' 13 5) (w.extractLsb' 8 5))
    | 2 => some (.blt (w.extractLsb' 21 11) (w.extractLsb' 13 5) (w.extractLsb' 8 5))
    | 3 => some (.bge (w.extractLsb' 21 11) (w.extractLsb' 13 5) (w.extractLsb' 8 5))
    | 4 => some (.bltn (w.extractLsb' 21 11) (w.extractLsb' 13 5) (w.extractLsb' 8 5))
    | 5 => some (.bgen (w.extractLsb' 21 11) (w.extractLsb' 13 5) (w.extractLsb' 8 5))
    | _ => none

/-- Major 0x0D: the row its operation field selects (02 Table 2.9). -/
noncomputable def candidate0D (w : BitVec 32) : Option Instr :=
  some (.jmp (w.extractLsb' 8 24))

/-- Major 0x0E: the row its operation field selects (02 Table 2.9). -/
noncomputable def candidate0E (w : BitVec 32) : Option Instr :=
  some (.jal (w.extractLsb' 8 24))

/-- Major 0x0F: the row its operation field selects (02 Table 2.9). -/
noncomputable def candidate0F (w : BitVec 32) : Option Instr :=
  some (.jr (w.extractLsb' 18 14) (w.extractLsb' 13 5) (w.extractLsb' 8 5))

/-- Major 0x10: the row its operation field selects (02 Table 2.9). -/
noncomputable def candidate10 (w : BitVec 32) : Option Instr :=
  some (.rep (w.extractLsb' 18 14) (w.extractLsb' 13 5))

/-- Major 0x11: the row its operation field selects (02 Table 2.9). -/
noncomputable def candidate11 (w : BitVec 32) : Option Instr :=
  match (w.extractLsb' 23 9).toNat with
    | 0 => some (.nop)
    | 1 => some (.brk)
    | 2 => some (.trap (w.extractLsb' 13 5))
    | 3 => some (.sysc (w.extractLsb' 13 5))
    | 4 => some (.eret)
    | _ => none

/-- Major 0x12: the row its operation field selects (02 Table 2.9). -/
noncomputable def candidate12 (w : BitVec 32) : Option Instr :=
  match (w.extractLsb' 31 1).toNat with
    | 0 => some (.cwr (w.extractLsb' 30 1) (w.extractLsb' 18 12) (w.extractLsb' 8 5))
    | 1 => some (.cww (w.extractLsb' 18 12) (w.extractLsb' 13 5))
    | _ => none

/-- Major 0x13: the row its operation field selects (02 Table 2.9). -/
noncomputable def candidate13 (w : BitVec 32) : Option Instr :=
  match (w.extractLsb' 28 4).toNat with
    | 0 => some (.endTask)
    | 1 => some (.arm (w.extractLsb' 18 5) (w.extractLsb' 13 5))
    | 2 => some (.disarm (w.extractLsb' 13 5) (w.extractLsb' 8 5))
    | 3 => some (.waita (w.extractLsb' 23 5) (w.extractLsb' 18 5) (w.extractLsb' 13 5))
    | 4 => some (.wake (w.extractLsb' 18 5) (w.extractLsb' 13 5))
    | 5 => some (.tid (w.extractLsb' 8 5))
    | 6 => some (.prio (w.extractLsb' 13 5) (w.extractLsb' 8 5))
    | 7 => some (.defer (w.extractLsb' 13 5))
    | 8 => some (.uiret)
    | 9 => some (.uimask (w.extractLsb' 13 5) (w.extractLsb' 8 5))
    | _ => none

/-- Major 0x14: the row its operation field selects (02 Table 2.9). -/
noncomputable def candidate14 (w : BitVec 32) : Option Instr :=
  match (w.extractLsb' 31 1).toNat with
    | 0 => some (.spawn (w.extractLsb' 18 6) (w.extractLsb' 13 5) (w.extractLsb' 8 5))
    | 1 => some (.spawnr (w.extractLsb' 18 6) (w.extractLsb' 13 5) (w.extractLsb' 8 5))
    | _ => none

/-- Major 0x15: the row its operation field selects (02 Table 2.9). -/
noncomputable def candidate15 (w : BitVec 32) : Option Instr :=
  match (w.extractLsb' 28 4).toNat with
    | 0 => some (.sendR (w.extractLsb' 19 5) (w.extractLsb' 13 6) (w.extractLsb' 8 5))
    | 1 => some (.sendM (w.extractLsb' 19 5) (w.extractLsb' 13 6) (w.extractLsb' 8 5))
    | 2 => some (.sendiR (w.extractLsb' 25 2) (w.extractLsb' 19 5) (w.extractLsb' 13 6) (w.extractLsb' 8 5))
    | 3 => some (.sendiM (w.extractLsb' 25 2) (w.extractLsb' 19 5) (w.extractLsb' 13 6) (w.extractLsb' 8 5))
    | 4 => some (.sendwR (w.extractLsb' 25 2) (w.extractLsb' 19 5) (w.extractLsb' 8 5))
    | 5 => some (.sendwM (w.extractLsb' 25 2) (w.extractLsb' 19 5) (w.extractLsb' 8 5))
    | 6 => some (.replyR (w.extractLsb' 19 5) (w.extractLsb' 8 5))
    | 7 => some (.replyM (w.extractLsb' 19 5) (w.extractLsb' 8 5))
    | 8 => some (.refuse)
    | _ => none

/-- Major 0x16: the row its operation field selects (02 Table 2.9). -/
noncomputable def candidate16 (w : BitVec 32) : Option Instr :=
  match (w.extractLsb' 28 4).toNat with
    | 0 => some (.qpeekQ (w.extractLsb' 19 6) (w.extractLsb' 13 6) (w.extractLsb' 8 5))
    | 1 => some (.qpeekC (w.extractLsb' 25 1) (w.extractLsb' 19 6) (w.extractLsb' 13 6) (w.extractLsb' 8 5))
    | 2 => some (.qcntQ (w.extractLsb' 13 6) (w.extractLsb' 8 5))
    | 3 => some (.qcntC (w.extractLsb' 13 6) (w.extractLsb' 8 5))
    | 4 => some (.qflushQ (w.extractLsb' 13 6))
    | 5 => some (.qflushC (w.extractLsb' 13 6))
    | 6 => some (.qbind (w.extractLsb' 13 6) (w.extractLsb' 8 5))
    | 7 => some (.chopen (w.extractLsb' 13 6) (w.extractLsb' 8 5))
    | 8 => some (.chclose (w.extractLsb' 13 6))
    | 9 => some (.chstat (w.extractLsb' 13 6) (w.extractLsb' 8 5))
    | _ => none

/-- Major 0x17: the row its operation field selects (02 Table 2.9). -/
noncomputable def candidate17 (w : BitVec 32) : Option Instr :=
  match (w.extractLsb' 25 3).toNat with
    | 0 => some (.ldBZ (w.extractLsb' 28 4) (w.extractLsb' 18 7) (w.extractLsb' 13 5) (w.extractLsb' 8 5))
    | 1 => some (.ldBS (w.extractLsb' 28 4) (w.extractLsb' 18 7) (w.extractLsb' 13 5) (w.extractLsb' 8 5))
    | 2 => some (.ldHZ (w.extractLsb' 28 4) (w.extractLsb' 18 7) (w.extractLsb' 13 5) (w.extractLsb' 8 5))
    | 3 => some (.ldHS (w.extractLsb' 28 4) (w.extractLsb' 18 7) (w.extractLsb' 13 5) (w.extractLsb' 8 5))
    | 4 => some (.ldWZ (w.extractLsb' 28 4) (w.extractLsb' 18 7) (w.extractLsb' 13 5) (w.extractLsb' 8 5))
    | 5 => some (.ldWS (w.extractLsb' 28 4) (w.extractLsb' 18 7) (w.extractLsb' 13 5) (w.extractLsb' 8 5))
    | 6 => some (.ldD (w.extractLsb' 28 4) (w.extractLsb' 18 7) (w.extractLsb' 13 5) (w.extractLsb' 8 5))
    | _ => none

/-- Major 0x18: the row its operation field selects (02 Table 2.9). -/
noncomputable def candidate18 (w : BitVec 32) : Option Instr :=
  match (w.extractLsb' 26 2).toNat with
    | 0 => some (.stB (w.extractLsb' 28 4) (w.extractLsb' 18 7) (w.extractLsb' 13 5) (w.extractLsb' 8 5))
    | 1 => some (.stH (w.extractLsb' 28 4) (w.extractLsb' 18 7) (w.extractLsb' 13 5) (w.extractLsb' 8 5))
    | 2 => some (.stW (w.extractLsb' 28 4) (w.extractLsb' 18 7) (w.extractLsb' 13 5) (w.extractLsb' 8 5))
    | 3 => some (.stD (w.extractLsb' 28 4) (w.extractLsb' 18 7) (w.extractLsb' 13 5) (w.extractLsb' 8 5))
    | _ => none

/-- Major 0x19: the row its operation field selects (02 Table 2.9). -/
noncomputable def candidate19 (w : BitVec 32) : Option Instr :=
  match (w.extractLsb' 30 2).toNat with
    | 0 => some (.ldq (w.extractLsb' 26 4) (w.extractLsb' 19 6) (w.extractLsb' 13 6) (w.extractLsb' 8 5))
    | 1 => some (.stq (w.extractLsb' 26 4) (w.extractLsb' 19 6) (w.extractLsb' 8 5))
    | 2 => some (.ldff (w.extractLsb' 26 4) (w.extractLsb' 19 6) (w.extractLsb' 13 6) (w.extractLsb' 8 5))
    | 3 => some (.prf (w.extractLsb' 26 4) (w.extractLsb' 19 6) (w.extractLsb' 8 5))
    | _ => none

/-- Major 0x1A: the row its operation field selects (02 Table 2.9). -/
noncomputable def candidate1A (w : BitVec 32) : Option Instr :=
  match (w.extractLsb' 30 2).toNat with
    | 0 => some (.ldsync (w.extractLsb' 26 4) (w.extractLsb' 18 7) (w.extractLsb' 13 5) (w.extractLsb' 8 5))
    | 1 => some (.stfull (w.extractLsb' 26 4) (w.extractLsb' 18 7) (w.extractLsb' 13 5) (w.extractLsb' 8 5))
    | 2 => some (.stempty (w.extractLsb' 26 4) (w.extractLsb' 18 7) (w.extractLsb' 13 5))
    | _ => none

/-- Major 0x1B: the row its operation field selects (02 Table 2.9). -/
noncomputable def candidate1B (w : BitVec 32) : Option Instr :=
  match (w.extractLsb' 29 3).toNat with
    | 0 => some (.gaddr (w.extractLsb' 24 4) (w.extractLsb' 13 5) (w.extractLsb' 8 5))
    | 1 => some (.segw (w.extractLsb' 24 4) (w.extractLsb' 18 5) (w.extractLsb' 13 5))
    | 2 => some (.segr (w.extractLsb' 28 1) (w.extractLsb' 24 4) (w.extractLsb' 8 5))
    | _ => none

/-- Major 0x1C: the row its operation field selects (02 Table 2.9). -/
noncomputable def candidate1C (w : BitVec 32) (m : Option (BitVec 32)) : Option Instr :=
  match (w.extractLsb' 27 5).toNat with
    | 0 => some (.vaddF32 (w.extractLsb' 23 3) (w.extractLsb' 18 5) (w.extractLsb' 13 5) (w.extractLsb' 8 5) m)
    | 1 => some (.vsubF32 (w.extractLsb' 23 3) (w.extractLsb' 18 5) (w.extractLsb' 13 5) (w.extractLsb' 8 5) m)
    | 2 => some (.vmulF32 (w.extractLsb' 23 3) (w.extractLsb' 18 5) (w.extractLsb' 13 5) (w.extractLsb' 8 5) m)
    | 3 => some (.vfmaF32 (w.extractLsb' 23 3) (w.extractLsb' 18 5) (w.extractLsb' 13 5) (w.extractLsb' 8 5) m)
    | 4 => some (.vfmsF32 (w.extractLsb' 23 3) (w.extractLsb' 18 5) (w.extractLsb' 13 5) (w.extractLsb' 8 5) m)
    | 5 => some (.vfnmaF32 (w.extractLsb' 23 3) (w.extractLsb' 18 5) (w.extractLsb' 13 5) (w.extractLsb' 8 5) m)
    | 6 => some (.vminF32 (w.extractLsb' 23 3) (w.extractLsb' 18 5) (w.extractLsb' 13 5) (w.extractLsb' 8 5) m)
    | 7 => some (.vmaxF32 (w.extractLsb' 23 3) (w.extractLsb' 18 5) (w.extractLsb' 13 5) (w.extractLsb' 8 5) m)
    | 9 => some (.vrcp (w.extractLsb' 23 3) (w.extractLsb' 13 5) (w.extractLsb' 8 5) m)
    | 10 => some (.vrsqrt (w.extractLsb' 23 3) (w.extractLsb' 13 5) (w.extractLsb' 8 5) m)
    | 11 => some (.vsqrt (w.extractLsb' 23 3) (w.extractLsb' 13 5) (w.extractLsb' 8 5) m)
    | 12 => some (.vexp2 (w.extractLsb' 23 3) (w.extractLsb' 13 5) (w.extractLsb' 8 5) m)
    | 13 => some (.vlog2 (w.extractLsb' 23 3) (w.extractLsb' 13 5) (w.extractLsb' 8 5) m)
    | 14 => some (.vtanh (w.extractLsb' 23 3) (w.extractLsb' 13 5) (w.extractLsb' 8 5) m)
    | 15 => some (.vcmpEqF32 (w.extractLsb' 23 3) (w.extractLsb' 18 5) (w.extractLsb' 13 5) (w.extractLsb' 8 5) m)
    | 16 => some (.vcmpNeF32 (w.extractLsb' 23 3) (w.extractLsb' 18 5) (w.extractLsb' 13 5) (w.extractLsb' 8 5) m)
    | 17 => some (.vcmpLtF32 (w.extractLsb' 23 3) (w.extractLsb' 18 5) (w.extractLsb' 13 5) (w.extractLsb' 8 5) m)
    | 18 => some (.vcmpLeF32 (w.extractLsb' 23 3) (w.extractLsb' 18 5) (w.extractLsb' 13 5) (w.extractLsb' 8 5) m)
    | 19 => some (.vselF32 (w.extractLsb' 23 3) (w.extractLsb' 18 5) (w.extractLsb' 13 5) (w.extractLsb' 8 5) m)
    | 20 => some (.vredaddF32 (w.extractLsb' 23 3) (w.extractLsb' 13 5) (w.extractLsb' 8 5) m)
    | 21 => some (.vredmaxF32 (w.extractLsb' 23 3) (w.extractLsb' 13 5) (w.extractLsb' 8 5) m)
    | 22 => some (.vscanF32 (w.extractLsb' 23 3) (w.extractLsb' 13 5) (w.extractLsb' 8 5) m)
    | _ => none

/-- Major 0x1D: the row its operation field selects (02 Table 2.9). -/
noncomputable def candidate1D (w : BitVec 32) (m : Option (BitVec 32)) : Option Instr :=
  match (w.extractLsb' 27 5).toNat with
    | 0 => some (.vaddF16 (w.extractLsb' 26 1) (w.extractLsb' 23 3) (w.extractLsb' 18 5) (w.extractLsb' 13 5) (w.extractLsb' 8 5) m)
    | 1 => some (.vsubF16 (w.extractLsb' 26 1) (w.extractLsb' 23 3) (w.extractLsb' 18 5) (w.extractLsb' 13 5) (w.extractLsb' 8 5) m)
    | 2 => some (.vmulF16 (w.extractLsb' 26 1) (w.extractLsb' 23 3) (w.extractLsb' 18 5) (w.extractLsb' 13 5) (w.extractLsb' 8 5) m)
    | 3 => some (.vfmaF16 (w.extractLsb' 26 1) (w.extractLsb' 23 3) (w.extractLsb' 18 5) (w.extractLsb' 13 5) (w.extractLsb' 8 5) m)
    | 4 => some (.vfmsF16 (w.extractLsb' 26 1) (w.extractLsb' 23 3) (w.extractLsb' 18 5) (w.extractLsb' 13 5) (w.extractLsb' 8 5) m)
    | 5 => some (.vfnmaF16 (w.extractLsb' 26 1) (w.extractLsb' 23 3) (w.extractLsb' 18 5) (w.extractLsb' 13 5) (w.extractLsb' 8 5) m)
    | 6 => some (.vminF16 (w.extractLsb' 26 1) (w.extractLsb' 23 3) (w.extractLsb' 18 5) (w.extractLsb' 13 5) (w.extractLsb' 8 5) m)
    | 7 => some (.vmaxF16 (w.extractLsb' 26 1) (w.extractLsb' 23 3) (w.extractLsb' 18 5) (w.extractLsb' 13 5) (w.extractLsb' 8 5) m)
    | 8 => some (.vdotF32 (w.extractLsb' 26 1) (w.extractLsb' 23 3) (w.extractLsb' 18 5) (w.extractLsb' 13 5) (w.extractLsb' 8 5) m)
    | 15 => some (.vcmpEqF16 (w.extractLsb' 26 1) (w.extractLsb' 23 3) (w.extractLsb' 18 5) (w.extractLsb' 13 5) (w.extractLsb' 8 5) m)
    | 16 => some (.vcmpNeF16 (w.extractLsb' 26 1) (w.extractLsb' 23 3) (w.extractLsb' 18 5) (w.extractLsb' 13 5) (w.extractLsb' 8 5) m)
    | 17 => some (.vcmpLtF16 (w.extractLsb' 26 1) (w.extractLsb' 23 3) (w.extractLsb' 18 5) (w.extractLsb' 13 5) (w.extractLsb' 8 5) m)
    | 18 => some (.vcmpLeF16 (w.extractLsb' 26 1) (w.extractLsb' 23 3) (w.extractLsb' 18 5) (w.extractLsb' 13 5) (w.extractLsb' 8 5) m)
    | 19 => some (.vselF16 (w.extractLsb' 26 1) (w.extractLsb' 23 3) (w.extractLsb' 18 5) (w.extractLsb' 13 5) (w.extractLsb' 8 5) m)
    | 20 => some (.vredaddF16 (w.extractLsb' 26 1) (w.extractLsb' 23 3) (w.extractLsb' 13 5) (w.extractLsb' 8 5) m)
    | 21 => some (.vredmaxF16 (w.extractLsb' 26 1) (w.extractLsb' 23 3) (w.extractLsb' 13 5) (w.extractLsb' 8 5) m)
    | 22 => some (.vscanF16 (w.extractLsb' 26 1) (w.extractLsb' 23 3) (w.extractLsb' 13 5) (w.extractLsb' 8 5) m)
    | _ => none

/-- Major 0x1E: the row its operation field selects (02 Table 2.9). -/
noncomputable def candidate1E (w : BitVec 32) (m : Option (BitVec 32)) : Option Instr :=
  match (w.extractLsb' 27 5).toNat with
    | 0 => some (.vaddI32 (w.extractLsb' 26 1) (w.extractLsb' 23 3) (w.extractLsb' 18 5) (w.extractLsb' 13 5) (w.extractLsb' 8 5) m)
    | 1 => some (.vsubI32 (w.extractLsb' 26 1) (w.extractLsb' 23 3) (w.extractLsb' 18 5) (w.extractLsb' 13 5) (w.extractLsb' 8 5) m)
    | 2 => some (.vmulI32 (w.extractLsb' 26 1) (w.extractLsb' 23 3) (w.extractLsb' 18 5) (w.extractLsb' 13 5) (w.extractLsb' 8 5) m)
    | 3 => some (.vminI32 (w.extractLsb' 26 1) (w.extractLsb' 23 3) (w.extractLsb' 18 5) (w.extractLsb' 13 5) (w.extractLsb' 8 5) m)
    | 4 => some (.vmaxI32 (w.extractLsb' 26 1) (w.extractLsb' 23 3) (w.extractLsb' 18 5) (w.extractLsb' 13 5) (w.extractLsb' 8 5) m)
    | 5 => some (.vandI32 (w.extractLsb' 26 1) (w.extractLsb' 23 3) (w.extractLsb' 18 5) (w.extractLsb' 13 5) (w.extractLsb' 8 5) m)
    | 6 => some (.vorI32 (w.extractLsb' 26 1) (w.extractLsb' 23 3) (w.extractLsb' 18 5) (w.extractLsb' 13 5) (w.extractLsb' 8 5) m)
    | 7 => some (.vxorI32 (w.extractLsb' 26 1) (w.extractLsb' 23 3) (w.extractLsb' 18 5) (w.extractLsb' 13 5) (w.extractLsb' 8 5) m)
    | 8 => some (.vshlI32 (w.extractLsb' 26 1) (w.extractLsb' 23 3) (w.extractLsb' 18 5) (w.extractLsb' 13 5) (w.extractLsb' 8 5) m)
    | 9 => some (.vshrI32 (w.extractLsb' 26 1) (w.extractLsb' 23 3) (w.extractLsb' 18 5) (w.extractLsb' 13 5) (w.extractLsb' 8 5) m)
    | 10 => some (.vshaI32 (w.extractLsb' 26 1) (w.extractLsb' 23 3) (w.extractLsb' 18 5) (w.extractLsb' 13 5) (w.extractLsb' 8 5) m)
    | 11 => some (.vcmpEqI32 (w.extractLsb' 26 1) (w.extractLsb' 23 3) (w.extractLsb' 18 5) (w.extractLsb' 13 5) (w.extractLsb' 8 5) m)
    | 12 => some (.vcmpNeI32 (w.extractLsb' 26 1) (w.extractLsb' 23 3) (w.extractLsb' 18 5) (w.extractLsb' 13 5) (w.extractLsb' 8 5) m)
    | 13 => some (.vcmpLtI32 (w.extractLsb' 26 1) (w.extractLsb' 23 3) (w.extractLsb' 18 5) (w.extractLsb' 13 5) (w.extractLsb' 8 5) m)
    | 14 => some (.vcmpLeI32 (w.extractLsb' 26 1) (w.extractLsb' 23 3) (w.extractLsb' 18 5) (w.extractLsb' 13 5) (w.extractLsb' 8 5) m)
    | 15 => some (.vselI32 (w.extractLsb' 26 1) (w.extractLsb' 23 3) (w.extractLsb' 18 5) (w.extractLsb' 13 5) (w.extractLsb' 8 5) m)
    | 16 => some (.vredaddI32 (w.extractLsb' 26 1) (w.extractLsb' 23 3) (w.extractLsb' 13 5) (w.extractLsb' 8 5) m)
    | 17 => some (.vredmaxI32 (w.extractLsb' 26 1) (w.extractLsb' 23 3) (w.extractLsb' 13 5) (w.extractLsb' 8 5) m)
    | 18 => some (.vscanI32 (w.extractLsb' 26 1) (w.extractLsb' 23 3) (w.extractLsb' 13 5) (w.extractLsb' 8 5) m)
    | _ => none

/-- Major 0x1F: the row its operation field selects (02 Table 2.9). -/
noncomputable def candidate1F (w : BitVec 32) (m : Option (BitVec 32)) : Option Instr :=
  match (w.extractLsb' 27 5).toNat with
    | 0 => some (.vaddI16 (w.extractLsb' 26 1) (w.extractLsb' 23 3) (w.extractLsb' 18 5) (w.extractLsb' 13 5) (w.extractLsb' 8 5) m)
    | 1 => some (.vsubI16 (w.extractLsb' 26 1) (w.extractLsb' 23 3) (w.extractLsb' 18 5) (w.extractLsb' 13 5) (w.extractLsb' 8 5) m)
    | 2 => some (.vmulI16 (w.extractLsb' 26 1) (w.extractLsb' 23 3) (w.extractLsb' 18 5) (w.extractLsb' 13 5) (w.extractLsb' 8 5) m)
    | 3 => some (.vminI16 (w.extractLsb' 26 1) (w.extractLsb' 23 3) (w.extractLsb' 18 5) (w.extractLsb' 13 5) (w.extractLsb' 8 5) m)
    | 4 => some (.vmaxI16 (w.extractLsb' 26 1) (w.extractLsb' 23 3) (w.extractLsb' 18 5) (w.extractLsb' 13 5) (w.extractLsb' 8 5) m)
    | 5 => some (.vandI16 (w.extractLsb' 26 1) (w.extractLsb' 23 3) (w.extractLsb' 18 5) (w.extractLsb' 13 5) (w.extractLsb' 8 5) m)
    | 6 => some (.vorI16 (w.extractLsb' 26 1) (w.extractLsb' 23 3) (w.extractLsb' 18 5) (w.extractLsb' 13 5) (w.extractLsb' 8 5) m)
    | 7 => some (.vxorI16 (w.extractLsb' 26 1) (w.extractLsb' 23 3) (w.extractLsb' 18 5) (w.extractLsb' 13 5) (w.extractLsb' 8 5) m)
    | 8 => some (.vshlI16 (w.extractLsb' 26 1) (w.extractLsb' 23 3) (w.extractLsb' 18 5) (w.extractLsb' 13 5) (w.extractLsb' 8 5) m)
    | 9 => some (.vshrI16 (w.extractLsb' 26 1) (w.extractLsb' 23 3) (w.extractLsb' 18 5) (w.extractLsb' 13 5) (w.extractLsb' 8 5) m)
    | 10 => some (.vshaI16 (w.extractLsb' 26 1) (w.extractLsb' 23 3) (w.extractLsb' 18 5) (w.extractLsb' 13 5) (w.extractLsb' 8 5) m)
    | 11 => some (.vcmpEqI16 (w.extractLsb' 26 1) (w.extractLsb' 23 3) (w.extractLsb' 18 5) (w.extractLsb' 13 5) (w.extractLsb' 8 5) m)
    | 12 => some (.vcmpNeI16 (w.extractLsb' 26 1) (w.extractLsb' 23 3) (w.extractLsb' 18 5) (w.extractLsb' 13 5) (w.extractLsb' 8 5) m)
    | 13 => some (.vcmpLtI16 (w.extractLsb' 26 1) (w.extractLsb' 23 3) (w.extractLsb' 18 5) (w.extractLsb' 13 5) (w.extractLsb' 8 5) m)
    | 14 => some (.vcmpLeI16 (w.extractLsb' 26 1) (w.extractLsb' 23 3) (w.extractLsb' 18 5) (w.extractLsb' 13 5) (w.extractLsb' 8 5) m)
    | 15 => some (.vselI16 (w.extractLsb' 26 1) (w.extractLsb' 23 3) (w.extractLsb' 18 5) (w.extractLsb' 13 5) (w.extractLsb' 8 5) m)
    | 16 => some (.vredaddI16 (w.extractLsb' 26 1) (w.extractLsb' 23 3) (w.extractLsb' 13 5) (w.extractLsb' 8 5) m)
    | 17 => some (.vredmaxI16 (w.extractLsb' 26 1) (w.extractLsb' 23 3) (w.extractLsb' 13 5) (w.extractLsb' 8 5) m)
    | 18 => some (.vscanI16 (w.extractLsb' 26 1) (w.extractLsb' 23 3) (w.extractLsb' 13 5) (w.extractLsb' 8 5) m)
    | 19 => some (.vdotDI16 (w.extractLsb' 26 1) (w.extractLsb' 23 3) (w.extractLsb' 18 5) (w.extractLsb' 13 5) (w.extractLsb' 8 5) m)
    | _ => none

/-- Major 0x20: the row its operation field selects (02 Table 2.9). -/
noncomputable def candidate20 (w : BitVec 32) (m : Option (BitVec 32)) : Option Instr :=
  match (w.extractLsb' 27 5).toNat with
    | 0 => some (.vaddI8 (w.extractLsb' 26 1) (w.extractLsb' 23 3) (w.extractLsb' 18 5) (w.extractLsb' 13 5) (w.extractLsb' 8 5) m)
    | 1 => some (.vsubI8 (w.extractLsb' 26 1) (w.extractLsb' 23 3) (w.extractLsb' 18 5) (w.extractLsb' 13 5) (w.extractLsb' 8 5) m)
    | 2 => some (.vmulI8 (w.extractLsb' 26 1) (w.extractLsb' 23 3) (w.extractLsb' 18 5) (w.extractLsb' 13 5) (w.extractLsb' 8 5) m)
    | 3 => some (.vminI8 (w.extractLsb' 26 1) (w.extractLsb' 23 3) (w.extractLsb' 18 5) (w.extractLsb' 13 5) (w.extractLsb' 8 5) m)
    | 4 => some (.vmaxI8 (w.extractLsb' 26 1) (w.extractLsb' 23 3) (w.extractLsb' 18 5) (w.extractLsb' 13 5) (w.extractLsb' 8 5) m)
    | 5 => some (.vandI8 (w.extractLsb' 26 1) (w.extractLsb' 23 3) (w.extractLsb' 18 5) (w.extractLsb' 13 5) (w.extractLsb' 8 5) m)
    | 6 => some (.vorI8 (w.extractLsb' 26 1) (w.extractLsb' 23 3) (w.extractLsb' 18 5) (w.extractLsb' 13 5) (w.extractLsb' 8 5) m)
    | 7 => some (.vxorI8 (w.extractLsb' 26 1) (w.extractLsb' 23 3) (w.extractLsb' 18 5) (w.extractLsb' 13 5) (w.extractLsb' 8 5) m)
    | 8 => some (.vshlI8 (w.extractLsb' 26 1) (w.extractLsb' 23 3) (w.extractLsb' 18 5) (w.extractLsb' 13 5) (w.extractLsb' 8 5) m)
    | 9 => some (.vshrI8 (w.extractLsb' 26 1) (w.extractLsb' 23 3) (w.extractLsb' 18 5) (w.extractLsb' 13 5) (w.extractLsb' 8 5) m)
    | 10 => some (.vshaI8 (w.extractLsb' 26 1) (w.extractLsb' 23 3) (w.extractLsb' 18 5) (w.extractLsb' 13 5) (w.extractLsb' 8 5) m)
    | 11 => some (.vcmpEqI8 (w.extractLsb' 26 1) (w.extractLsb' 23 3) (w.extractLsb' 18 5) (w.extractLsb' 13 5) (w.extractLsb' 8 5) m)
    | 12 => some (.vcmpNeI8 (w.extractLsb' 26 1) (w.extractLsb' 23 3) (w.extractLsb' 18 5) (w.extractLsb' 13 5) (w.extractLsb' 8 5) m)
    | 13 => some (.vcmpLtI8 (w.extractLsb' 26 1) (w.extractLsb' 23 3) (w.extractLsb' 18 5) (w.extractLsb' 13 5) (w.extractLsb' 8 5) m)
    | 14 => some (.vcmpLeI8 (w.extractLsb' 26 1) (w.extractLsb' 23 3) (w.extractLsb' 18 5) (w.extractLsb' 13 5) (w.extractLsb' 8 5) m)
    | 15 => some (.vselI8 (w.extractLsb' 26 1) (w.extractLsb' 23 3) (w.extractLsb' 18 5) (w.extractLsb' 13 5) (w.extractLsb' 8 5) m)
    | 16 => some (.vredaddI8 (w.extractLsb' 26 1) (w.extractLsb' 23 3) (w.extractLsb' 13 5) (w.extractLsb' 8 5) m)
    | 17 => some (.vredmaxI8 (w.extractLsb' 26 1) (w.extractLsb' 23 3) (w.extractLsb' 13 5) (w.extractLsb' 8 5) m)
    | 18 => some (.vscanI8 (w.extractLsb' 26 1) (w.extractLsb' 23 3) (w.extractLsb' 13 5) (w.extractLsb' 8 5) m)
    | 19 => some (.vdotDI8 (w.extractLsb' 26 1) (w.extractLsb' 23 3) (w.extractLsb' 18 5) (w.extractLsb' 13 5) (w.extractLsb' 8 5) m)
    | _ => none

/-- Major 0x21: the row its operation field selects (02 Table 2.9). -/
noncomputable def candidate21 (w : BitVec 32) : Option Instr :=
  match (w.extractLsb' 28 4).toNat with
    | 0 => some (.vperm (w.extractLsb' 26 2) (w.extractLsb' 23 3) (w.extractLsb' 18 5) (w.extractLsb' 13 5) (w.extractLsb' 8 5))
    | 1 => some (.vbcastS (w.extractLsb' 26 2) (w.extractLsb' 23 3) (w.extractLsb' 13 5) (w.extractLsb' 8 5))
    | 2 => some (.vcompress (w.extractLsb' 26 2) (w.extractLsb' 23 3) (w.extractLsb' 18 5) (w.extractLsb' 13 5) (w.extractLsb' 8 5))
    | 3 => some (.vexpand (w.extractLsb' 26 2) (w.extractLsb' 23 3) (w.extractLsb' 18 5) (w.extractLsb' 13 5) (w.extractLsb' 8 5))
    | 4 => some (.vmovsToScalar (w.extractLsb' 26 2) (w.extractLsb' 18 5) (w.extractLsb' 13 5) (w.extractLsb' 8 5))
    | 5 => some (.vmovsToVector (w.extractLsb' 26 2) (w.extractLsb' 18 5) (w.extractLsb' 13 5) (w.extractLsb' 8 5))
    | 6 => some (.vext (w.extractLsb' 26 2) (w.extractLsb' 23 3) (w.extractLsb' 18 5) (w.extractLsb' 13 5) (w.extractLsb' 8 5))
    | 7 => some (.vbcastV (w.extractLsb' 26 2) (w.extractLsb' 23 3) (w.extractLsb' 18 5) (w.extractLsb' 13 5) (w.extractLsb' 8 5))
    | 8 => some (.vmov (w.extractLsb' 26 2) (w.extractLsb' 23 3) (w.extractLsb' 13 5) (w.extractLsb' 8 5))
    | 9 => some (.vpop (w.extractLsb' 26 2) (w.extractLsb' 23 3) (w.extractLsb' 13 5) (w.extractLsb' 8 5))
    | 10 => some (.vpush (w.extractLsb' 26 2) (w.extractLsb' 23 3) (w.extractLsb' 13 5) (w.extractLsb' 8 5))
    | _ => none

/-- Major 0x22: the row its operation field selects (02 Table 2.9). -/
noncomputable def candidate22 (w : BitVec 32) : Option Instr :=
  match (w.extractLsb' 28 4).toNat with
    | 0 => some (.kset (w.extractLsb' 13 5) (w.extractLsb' 8 5))
    | 1 => some (.kfirst (w.extractLsb' 26 2) (w.extractLsb' 23 3) (w.extractLsb' 13 5) (w.extractLsb' 8 5))
    | 2 => some (.kmin (w.extractLsb' 18 5) (w.extractLsb' 13 5) (w.extractLsb' 8 5))
    | 3 => some (.kpop (w.extractLsb' 26 2) (w.extractLsb' 18 5) (w.extractLsb' 13 5) (w.extractLsb' 8 5))
    | _ => none

/-- Major 0x23: the row its operation field selects (02 Table 2.9). -/
noncomputable def candidate23 (w : BitVec 32) : Option Instr :=
  match (w.extractLsb' 28 4).toNat with
    | 0 => some (.gang (w.extractLsb' 13 5) (w.extractLsb' 8 5))
    | 1 => some (.gjoin (w.extractLsb' 13 5))
    | 2 => some (.gdisband)
    | _ => none

/-- Major 0x24: the row its operation field selects (02 Table 2.9). -/
noncomputable def candidate24 (w : BitVec 32) (m : Option (BitVec 32)) : Option Instr :=
  match (w.extractLsb' 23 1).toNat with
    | 0 => some (.cvt (w.extractLsb' 28 4) (w.extractLsb' 24 4) (w.extractLsb' 13 5) (w.extractLsb' 8 5) m)
    | 1 => some (.fqmv (w.extractLsb' 18 5) (w.extractLsb' 13 5) (w.extractLsb' 8 5) m)
    | _ => none

/-- Major 0x25: the row its operation field selects (02 Table 2.9). -/
noncomputable def candidate25 (w : BitVec 32) : Option Instr :=
  match (w.extractLsb' 29 3).toNat with
    | 0 => some (.unpackCe8 (w.extractLsb' 25 4) (w.extractLsb' 18 5) (w.extractLsb' 13 5) (w.extractLsb' 8 5))
    | 1 => some (.packCe8 (w.extractLsb' 23 1) (w.extractLsb' 18 5) (w.extractLsb' 13 5) (w.extractLsb' 8 5))
    | 2 => some (.mxs (w.extractLsb' 25 4) (w.extractLsb' 23 2) (w.extractLsb' 13 5) (w.extractLsb' 8 5))
    | 3 => some (.mxq (w.extractLsb' 25 4) (w.extractLsb' 23 2) (w.extractLsb' 18 5) (w.extractLsb' 13 5) (w.extractLsb' 8 5))
    | 4 => some (.mxd (w.extractLsb' 25 4) (w.extractLsb' 23 2) (w.extractLsb' 18 5) (w.extractLsb' 13 5) (w.extractLsb' 8 5))
    | _ => none

/-- Major 0x26: the row its operation field selects (02 Table 2.9). -/
noncomputable def candidate26 (w : BitVec 32) : Option Instr :=
  match (w.extractLsb' 28 4).toNat with
    | 0 => some (.mma (w.extractLsb' 25 3) (w.extractLsb' 21 4) (w.extractLsb' 16 5) (w.extractLsb' 13 3) (w.extractLsb' 10 3) (w.extractLsb' 8 2))
    | 1 => some (.gissue (w.extractLsb' 25 3) (w.extractLsb' 21 4) (w.extractLsb' 16 5) (w.extractLsb' 13 3) (w.extractLsb' 10 3) (w.extractLsb' 8 2))
    | _ => none

/-- Major 0x27: the row its operation field selects (02 Table 2.9). -/
noncomputable def candidate27 (w : BitVec 32) : Option Instr :=
  match (w.extractLsb' 28 4).toNat with
    | 0 => some (.mzero (w.extractLsb' 8 2))
    | 1 => some (.mrow (w.extractLsb' 16 5) (w.extractLsb' 15 1) (w.extractLsb' 10 5) (w.extractLsb' 8 2))
    | 2 => some (.mdrain (w.extractLsb' 25 3) (w.extractLsb' 21 4) (w.extractLsb' 16 5) (w.extractLsb' 8 2))
    | 3 => some (.mdrainadd (w.extractLsb' 25 3) (w.extractLsb' 21 4) (w.extractLsb' 16 5) (w.extractLsb' 8 2))
    | _ => none

/-- Major 0x28: the row its operation field selects (02 Table 2.9). -/
noncomputable def candidate28 (w : BitVec 32) : Option Instr :=
  match (w.extractLsb' 29 3).toNat with
    | 0 => some (.ringcfg (w.extractLsb' 26 3) (w.extractLsb' 13 5))
    | 1 => some (.ringpushM (w.extractLsb' 26 3) (w.extractLsb' 18 5) (w.extractLsb' 13 5) (w.extractLsb' 8 5))
    | 2 => some (.ringpushQ (w.extractLsb' 26 3) (w.extractLsb' 18 5) (w.extractLsb' 13 5))
    | _ => none

/-- Major 0x29: the row its operation field selects (02 Table 2.9). -/
noncomputable def candidate29 (w : BitVec 32) : Option Instr :=
  match (w.extractLsb' 28 4).toNat with
    | 0 => some (.tsrw (w.extractLsb' 24 4) (w.extractLsb' 18 5) (w.extractLsb' 13 5) (w.extractLsb' 8 5))
    | 1 => some (.tsrinv (w.extractLsb' 18 5))
    | _ => none

/-- Major 0x2A: the row its operation field selects (02 Table 2.9). -/
noncomputable def candidate2A (w : BitVec 32) : Option Instr :=
  match (w.extractLsb' 27 5).toNat with
    | 0 => some (.bcopy (w.extractLsb' 8 5))
    | 1 => some (.bcopyRing (w.extractLsb' 13 6) (w.extractLsb' 8 5))
    | 2 => some (.bgather (w.extractLsb' 8 5))
    | 3 => some (.bgatherRing (w.extractLsb' 13 6) (w.extractLsb' 8 5))
    | 4 => some (.bscatter (w.extractLsb' 8 5))
    | 6 => some (.bstat (w.extractLsb' 8 5))
    | _ => none

/-- Major 0x2B: the row its operation field selects (02 Table 2.9). -/
noncomputable def candidate2B (w : BitVec 32) : Option Instr :=
  match (w.extractLsb' 28 4).toNat with
    | 0 => some (.fence (w.extractLsb' 26 2) (w.extractLsb' 25 1))
    | 1 => some (.ackw (w.extractLsb' 26 2) (w.extractLsb' 13 5) (w.extractLsb' 8 5))
    | _ => none

/-- Major 0x2C: the row its operation field selects (02 Table 2.9). -/
noncomputable def candidate2C (w : BitVec 32) : Option Instr :=
  some (.stRel (w.extractLsb' 28 4) (w.extractLsb' 26 2) (w.extractLsb' 18 7) (w.extractLsb' 13 5) (w.extractLsb' 8 5))

/-- Major 0x2D: the row its operation field selects (02 Table 2.9). -/
noncomputable def candidate2D (w : BitVec 32) : Option Instr :=
  some (.ldAcq (w.extractLsb' 28 4) (w.extractLsb' 26 2) (w.extractLsb' 18 7) (w.extractLsb' 13 5) (w.extractLsb' 8 5))

/-- Major 0x2E: the row its operation field selects (02 Table 2.9). -/
noncomputable def candidate2E (w : BitVec 32) : Option Instr :=
  if w.extractLsb' 8 5 = 0 ∧ w.extractLsb' 31 1 = 0 then some (.redInteger (w.extractLsb' 28 3) (w.extractLsb' 24 4) (w.extractLsb' 23 1) (w.extractLsb' 18 5) (w.extractLsb' 13 5))
  else match (w.extractLsb' 28 4).toNat with
    | 0 => some (.amoAdd (w.extractLsb' 24 4) (w.extractLsb' 23 1) (w.extractLsb' 18 5) (w.extractLsb' 13 5) (w.extractLsb' 8 5))
    | 1 => some (.amoAnd (w.extractLsb' 24 4) (w.extractLsb' 23 1) (w.extractLsb' 18 5) (w.extractLsb' 13 5) (w.extractLsb' 8 5))
    | 2 => some (.amoOr (w.extractLsb' 24 4) (w.extractLsb' 23 1) (w.extractLsb' 18 5) (w.extractLsb' 13 5) (w.extractLsb' 8 5))
    | 3 => some (.amoXor (w.extractLsb' 24 4) (w.extractLsb' 23 1) (w.extractLsb' 18 5) (w.extractLsb' 13 5) (w.extractLsb' 8 5))
    | 4 => some (.amoMin (w.extractLsb' 24 4) (w.extractLsb' 23 1) (w.extractLsb' 18 5) (w.extractLsb' 13 5) (w.extractLsb' 8 5))
    | 5 => some (.amoMax (w.extractLsb' 24 4) (w.extractLsb' 23 1) (w.extractLsb' 18 5) (w.extractLsb' 13 5) (w.extractLsb' 8 5))
    | 6 => some (.amoMinn (w.extractLsb' 24 4) (w.extractLsb' 23 1) (w.extractLsb' 18 5) (w.extractLsb' 13 5) (w.extractLsb' 8 5))
    | 7 => some (.amoMaxn (w.extractLsb' 24 4) (w.extractLsb' 23 1) (w.extractLsb' 18 5) (w.extractLsb' 13 5) (w.extractLsb' 8 5))
    | 8 => some (.amoSwap (w.extractLsb' 24 4) (w.extractLsb' 23 1) (w.extractLsb' 18 5) (w.extractLsb' 13 5) (w.extractLsb' 8 5))
    | 9 => some (.amoCas (w.extractLsb' 24 4) (w.extractLsb' 23 1) (w.extractLsb' 18 5) (w.extractLsb' 13 5) (w.extractLsb' 8 5))
    | _ => none

/-- Major 0x2F: the row its operation field selects (02 Table 2.9). -/
noncomputable def candidate2F (w : BitVec 32) : Option Instr :=
  if w.extractLsb' 8 5 = 0 then some (.redFloat (w.extractLsb' 28 2) (w.extractLsb' 24 4) (w.extractLsb' 23 1) (w.extractLsb' 18 5) (w.extractLsb' 13 5))
  else match (w.extractLsb' 28 4).toNat with
    | 0 => some (.famoAdd (w.extractLsb' 24 4) (w.extractLsb' 23 1) (w.extractLsb' 18 5) (w.extractLsb' 13 5) (w.extractLsb' 8 5))
    | 1 => some (.famoMin (w.extractLsb' 24 4) (w.extractLsb' 23 1) (w.extractLsb' 18 5) (w.extractLsb' 13 5) (w.extractLsb' 8 5))
    | 2 => some (.famoMax (w.extractLsb' 24 4) (w.extractLsb' 23 1) (w.extractLsb' 18 5) (w.extractLsb' 13 5) (w.extractLsb' 8 5))
    | _ => none

/-- Major 0x30: the row its operation field selects (02 Table 2.9). -/
noncomputable def candidate30 (w : BitVec 32) : Option Instr :=
  match (w.extractLsb' 30 2).toNat with
    | 0 => some (.bfins (w.extractLsb' 26 4) (w.extractLsb' 18 5) (w.extractLsb' 13 5) (w.extractLsb' 8 5))
    | 1 => some (.bffcs (w.extractLsb' 26 4) (w.extractLsb' 18 5) (w.extractLsb' 13 5) (w.extractLsb' 8 5))
    | 2 => some (.bfpls (w.extractLsb' 26 4) (w.extractLsb' 18 5) (w.extractLsb' 13 5) (w.extractLsb' 8 5))
    | _ => none

/-- Major 0x31: the row its operation field selects (02 Table 2.9). -/
noncomputable def candidate31 (w : BitVec 32) : Option Instr :=
  match (w.extractLsb' 28 4).toNat with
    | 0 => some (.tktGet (w.extractLsb' 8 5))
    | 1 => some (.tktScope (w.extractLsb' 13 5) (w.extractLsb' 8 5))
    | 2 => some (.tktVoid (w.extractLsb' 13 5))
    | _ => none

/-- Major 0x32: the row its operation field selects (02 Table 2.9). -/
noncomputable def candidate32 (w : BitVec 32) : Option Instr :=
  match (w.extractLsb' 30 2).toNat with
    | 0 => some (.barInit (w.extractLsb' 18 7) (w.extractLsb' 13 5))
    | 1 => some (.barArr (w.extractLsb' 28 2) (w.extractLsb' 18 7) (w.extractLsb' 13 5) (w.extractLsb' 8 5))
    | 2 => some (.barWait (w.extractLsb' 28 2) (w.extractLsb' 18 7) (w.extractLsb' 13 5))
    | 3 => some (.barExp (w.extractLsb' 18 7) (w.extractLsb' 13 5))
    | _ => none

/-- Major 0x33: the row its operation field selects (02 Table 2.9). -/
noncomputable def candidate33 (w : BitVec 32) : Option Instr :=
  match (w.extractLsb' 28 4).toNat with
    | 0 => some (.grpJoin (w.extractLsb' 13 5) (w.extractLsb' 8 5))
    | 1 => some (.grpLeave (w.extractLsb' 13 5) (w.extractLsb' 8 5))
    | 2 => some (.grpQ (w.extractLsb' 13 5) (w.extractLsb' 8 5))
    | _ => none

/-- Major 0x34: the row its operation field selects (02 Table 2.9). -/
noncomputable def candidate34 (w : BitVec 32) : Option Instr :=
  match (w.extractLsb' 30 2).toNat with
    | 0 => some (.semInit (w.extractLsb' 18 4) (w.extractLsb' 13 5))
    | 1 => some (.semPost (w.extractLsb' 18 4) (w.extractLsb' 13 5))
    | 2 => some (.semArm (w.extractLsb' 18 4) (w.extractLsb' 13 5))
    | _ => none

/-- Major 0x35: the row its operation field selects (02 Table 2.9). -/
noncomputable def candidate35 (w : BitVec 32) : Option Instr :=
  match (w.extractLsb' 28 4).toNat with
    | 0 => some (.rndClose)
    | 1 => some (.rndQ (w.extractLsb' 8 5))
    | _ => none

/-- Major 0x36: the row its operation field selects (02 Table 2.9). -/
noncomputable def candidate36 (w : BitVec 32) : Option Instr :=
  match (w.extractLsb' 28 4).toNat with
    | 0 => some (.lmap (w.extractLsb' 13 5) (w.extractLsb' 8 5))
    | 1 => some (.foldQ (w.extractLsb' 18 5) (w.extractLsb' 13 5) (w.extractLsb' 8 5))
    | _ => none

/-- The candidate of a 32-bit form: by its major (02 Table 2.9). Majors 0x00 and 0x37 to 0x3F have none (02 R56). -/
noncomputable def candidate (w : BitVec 32) (m : Option (BitVec 32)) : Option Instr :=
  match (w.extractLsb' 2 6).toNat with
  | 0x01 => candidate01 w
  | 0x02 => candidate02 w
  | 0x03 => candidate03 w
  | 0x04 => candidate04 w
  | 0x05 => candidate05 w
  | 0x06 => candidate06 w
  | 0x07 => candidate07 w
  | 0x08 => candidate08 w
  | 0x09 => candidate09 w
  | 0x0A => candidate0A w
  | 0x0B => candidate0B w
  | 0x0C => candidate0C w
  | 0x0D => candidate0D w
  | 0x0E => candidate0E w
  | 0x0F => candidate0F w
  | 0x10 => candidate10 w
  | 0x11 => candidate11 w
  | 0x12 => candidate12 w
  | 0x13 => candidate13 w
  | 0x14 => candidate14 w
  | 0x15 => candidate15 w
  | 0x16 => candidate16 w
  | 0x17 => candidate17 w
  | 0x18 => candidate18 w
  | 0x19 => candidate19 w
  | 0x1A => candidate1A w
  | 0x1B => candidate1B w
  | 0x1C => candidate1C w m
  | 0x1D => candidate1D w m
  | 0x1E => candidate1E w m
  | 0x1F => candidate1F w m
  | 0x20 => candidate20 w m
  | 0x21 => candidate21 w
  | 0x22 => candidate22 w
  | 0x23 => candidate23 w
  | 0x24 => candidate24 w m
  | 0x25 => candidate25 w
  | 0x26 => candidate26 w
  | 0x27 => candidate27 w
  | 0x28 => candidate28 w
  | 0x29 => candidate29 w
  | 0x2A => candidate2A w
  | 0x2B => candidate2B w
  | 0x2C => candidate2C w
  | 0x2D => candidate2D w
  | 0x2E => candidate2E w
  | 0x2F => candidate2F w
  | 0x30 => candidate30 w
  | 0x31 => candidate31 w
  | 0x32 => candidate32 w
  | 0x33 => candidate33 w
  | 0x34 => candidate34 w
  | 0x35 => candidate35 w
  | 0x36 => candidate36 w
  | _ => none

/-- The candidate of a compact form: by its compact major (02 Table 2.11); 0x00 and 0x15 to 0x1F have none. -/
noncomputable def candidateCompact (h : BitVec 16) : Option Instr :=
  match (h.extractLsb' 1 5).toNat with
  | 0x01 => some (.compactAdd (h.extractLsb' 11 5) (h.extractLsb' 6 5))
  | 0x02 => some (.compactSub (h.extractLsb' 11 5) (h.extractLsb' 6 5))
  | 0x03 => some (.compactAnd (h.extractLsb' 11 5) (h.extractLsb' 6 5))
  | 0x04 => some (.compactOr (h.extractLsb' 11 5) (h.extractLsb' 6 5))
  | 0x05 => some (.compactMove (h.extractLsb' 11 5) (h.extractLsb' 6 5))
  | 0x06 => some (.compactXor (h.extractLsb' 11 5) (h.extractLsb' 6 5))
  | 0x07 => some (.compactAddi (h.extractLsb' 11 5) (h.extractLsb' 6 5))
  | 0x08 => some (.compactMovi (h.extractLsb' 11 5) (h.extractLsb' 6 5))
  | 0x09 => some (.compactShli (h.extractLsb' 11 5) (h.extractLsb' 6 5))
  | 0x0A => some (.compactShri (h.extractLsb' 11 5) (h.extractLsb' 6 5))
  | 0x0B => some (.compactShai (h.extractLsb' 11 5) (h.extractLsb' 6 5))
  | 0x0C => some (.compactAndi (h.extractLsb' 11 5) (h.extractLsb' 6 5))
  | 0x0D => some (.compactSlt (h.extractLsb' 11 5) (h.extractLsb' 6 5))
  | 0x0E => some (.compactSeq (h.extractLsb' 11 5) (h.extractLsb' 6 5))
  | 0x0F => some (.compactMul (h.extractLsb' 11 5) (h.extractLsb' 6 5))
  | 0x10 => some (.compactLdD (h.extractLsb' 11 5) (h.extractLsb' 6 5))
  | 0x11 => some (.compactStD (h.extractLsb' 11 5) (h.extractLsb' 6 5))
  | 0x12 => some (.compactBeq (h.extractLsb' 11 5) (h.extractLsb' 6 5))
  | 0x13 => some (.compactBne (h.extractLsb' 11 5) (h.extractLsb' 6 5))
  | 0x14 =>
    match (h.extractLsb' 6 5).toNat with
    | 0 => some .compactNop
    | 1 => some .compactBrk
    | 2 => some .compactEnd
    | _ => none
  | _ => none

/-- Why a decode fails: the first three are ILLEGAL (02 R60), truncated is the fetch PROT of 02 R40. -/
inductive DecodeError where
  /-- No row has this major and operation (02 R56). -/
  | unassigned (bits : Word)
  /-- A reserved field or bit is not 0, or M = 1 on a major that takes no modifier word (02 R47, R52). -/
  | reserved (bits : Word)
  /-- An operand value that the form refuses (02 R47, R50, R51, R52, R68). -/
  | operand (bits : Word)
  /-- The unit extends past the end of its image (02 R40). -/
  | truncated
  deriving DecidableEq, Repr

/-- Accepts a candidate whose encoding is these bits and whose operands are admitted. -/
def accept (bits : Word) (c : Option Instr) : Except DecodeError Instr :=
  match c with
  | none => .error (.unassigned bits)
  | some i => if encodeBits i = bits then (if wf i then .ok i else .error (.operand bits)) else .error (.reserved bits)

/-- The decoder: the instruction at the head of a list of halfwords (02 R39, R60). Total; every rejection has its name. -/
noncomputable def decode : List Half → Except DecodeError Instr
  | [] => .error .truncated
  | h0 :: rest =>
    if h0.getLsbD 0 = false then accept (h0.setWidth 64) (candidateCompact h0)
    else
      match rest with
      | [] => .error .truncated
      | h1 :: rest =>
        if h0.getLsbD 1 = false then accept ((h1 ++ h0 : BitVec 32).setWidth 64) (candidate (h1 ++ h0) none)
        else
          match rest with
          | h2 :: h3 :: _ => accept ((h3 ++ h2 : BitVec 32) ++ (h1 ++ h0 : BitVec 32)) (candidate (h1 ++ h0) (some (h3 ++ h2)))
          | _ => .error .truncated

/-- The halfwords of a number, lowest first. -/
def halves : Nat → Nat → List Half
  | 0, _ => []
  | k + 1, w => BitVec.ofNat 16 w :: halves k (w / 65536)

/-- Whether a word of the opcode table belongs to a unit: a compact form has W = 0. -/
noncomputable def decodeTableWord (nbits w : Nat) : Option Instr :=
  match decode (halves ((nbits + 48) / 16) w) with
  | .ok i => some i
  | .error _ => none

end Sys2Proof
end

