-- ==== Sys2Proof/Machine/Forms.lean ====
section
/-! DEFINITION. What the decode tests of 02 R60 need to know of each form: its bits, its length, the roles that may execute it, the lowest level, its features.
From 02 Table 2.9, Table 2.12, Table 2.14, 01 Table 1.2 and the owning chapters. -/

namespace Sys2Proof.Machine

/-- What decoding fixes about a unit: cw.tval bits (02 R61), length in bytes, roles (02 R55, 01 R24), level (02 R55), features in MASKED order (02 R63). -/
structure Form where
  bits : Word
  len : Nat
  roles : List Role
  level : Nat
  feats : List Nat
  deriving DecidableEq, Repr

/-- Roles "all" of 02 R521. -/
def everyRole : List Role := [.mc, .fc, .ac, .steward]

/-- The cores of a tile: the forms that a die steward lacks (02 R521). -/
def tileRoles : List Role := [.mc, .fc, .ac]

/-- The roles in both lists. -/
def both (a b : List Role) : List Role := a.filter b.contains

/-- The role that reads a queue (01 Table 1.2, 02 Table 2.6). -/
def readers (q : Nat) : List Role :=
  match q with
  | 0 => [.fc]
  | 1 => [.fc]
  | 2 => [.ac]
  | 3 => [.ac]
  | 4 => [.fc]
  | 5 => [.mc]
  | _ => []

/-- The role that writes a queue (01 Table 1.2, 02 Table 2.6). -/
def writers (q : Nat) : List Role :=
  match q with
  | 0 => [.mc]
  | 1 => [.mc]
  | 2 => [.fc]
  | 3 => [.fc]
  | 4 => [.ac]
  | 5 => [.fc]
  | _ => []

/-- The roles that have a control word (02 Table 2.14). -/
def cwRoles (n : BitVec 12) : List Role := if 0x010 ≤ n.toNat ∧ n.toNat ≤ 0x013 then [.ac] else everyRole

/-- The lowest level that reads a control word (02 Table 2.14). -/
def cwReadLevel (n : BitVec 12) : Nat := if [0x001, 0x002, 0x003, 0x004, 0x030, 0x032].contains n.toNat then 1 else 0

/-- The lowest level that writes a control word (02 Table 2.14). -/
def cwWriteLevel (n : BitVec 12) : Nat :=
  if n = 0x031 then 2 else if [0x005, 0x010, 0x011, 0x012, 0x013, 0x014, 0x015].contains n.toNat then 0 else 1

/-- The feature of an element type code (02 Table 2.12). -/
def typeFeatures (t : BitVec 4) : List Nat :=
  match t.toNat with
  | 5 => [1]
  | 6 => [1]
  | 8 => [1]
  | 7 => [6]
  | _ => []

/-- Feature 7 for an rmode of 3 (02 Table 2.12). -/
def modeFeatures (m : Option (BitVec 32)) : List Nat :=
  match m with
  | none => []
  | some w => if w.extractLsb' 14 2 = 3 then [7] else []

/-- ADD (R123). -/
def formAdd (b : BitVec 5) (a : BitVec 5) (d : BitVec 5) : Form :=
  { bits := (encAdd b a d).setWidth 64, len := 4, roles := everyRole, level := 0, feats := [] }
/-- SUB (R123). -/
def formSub (b : BitVec 5) (a : BitVec 5) (d : BitVec 5) : Form :=
  { bits := (encSub b a d).setWidth 64, len := 4, roles := everyRole, level := 0, feats := [] }
/-- MUL (R123). -/
def formMul (b : BitVec 5) (a : BitVec 5) (d : BitVec 5) : Form :=
  { bits := (encMul b a d).setWidth 64, len := 4, roles := everyRole, level := 0, feats := [] }
/-- MULH (R123). -/
def formMulh (b : BitVec 5) (a : BitVec 5) (d : BitVec 5) : Form :=
  { bits := (encMulh b a d).setWidth 64, len := 4, roles := everyRole, level := 0, feats := [] }
/-- MULHN (R123). -/
def formMulhn (b : BitVec 5) (a : BitVec 5) (d : BitVec 5) : Form :=
  { bits := (encMulhn b a d).setWidth 64, len := 4, roles := everyRole, level := 0, feats := [] }
/-- DIV (R125). -/
def formDiv (b : BitVec 5) (a : BitVec 5) (d : BitVec 5) : Form :=
  { bits := (encDiv b a d).setWidth 64, len := 4, roles := everyRole, level := 0, feats := [] }
/-- DIVN (R125). -/
def formDivn (b : BitVec 5) (a : BitVec 5) (d : BitVec 5) : Form :=
  { bits := (encDivn b a d).setWidth 64, len := 4, roles := everyRole, level := 0, feats := [] }
/-- REM (R125). -/
def formRem (b : BitVec 5) (a : BitVec 5) (d : BitVec 5) : Form :=
  { bits := (encRem b a d).setWidth 64, len := 4, roles := everyRole, level := 0, feats := [] }
/-- REMN (R125). -/
def formRemn (b : BitVec 5) (a : BitVec 5) (d : BitVec 5) : Form :=
  { bits := (encRemn b a d).setWidth 64, len := 4, roles := everyRole, level := 0, feats := [] }
/-- MIN (R123). -/
def formMin (b : BitVec 5) (a : BitVec 5) (d : BitVec 5) : Form :=
  { bits := (encMin b a d).setWidth 64, len := 4, roles := everyRole, level := 0, feats := [] }
/-- MAX (R123). -/
def formMax (b : BitVec 5) (a : BitVec 5) (d : BitVec 5) : Form :=
  { bits := (encMax b a d).setWidth 64, len := 4, roles := everyRole, level := 0, feats := [] }
/-- MINN (R123). -/
def formMinn (b : BitVec 5) (a : BitVec 5) (d : BitVec 5) : Form :=
  { bits := (encMinn b a d).setWidth 64, len := 4, roles := everyRole, level := 0, feats := [] }
/-- MAXN (R123). -/
def formMaxn (b : BitVec 5) (a : BitVec 5) (d : BitVec 5) : Form :=
  { bits := (encMaxn b a d).setWidth 64, len := 4, roles := everyRole, level := 0, feats := [] }
/-- AND (R123). -/
def formAnd (b : BitVec 5) (a : BitVec 5) (d : BitVec 5) : Form :=
  { bits := (encAnd b a d).setWidth 64, len := 4, roles := everyRole, level := 0, feats := [] }
/-- OR (R123). -/
def formOr (b : BitVec 5) (a : BitVec 5) (d : BitVec 5) : Form :=
  { bits := (encOr b a d).setWidth 64, len := 4, roles := everyRole, level := 0, feats := [] }
/-- XOR (R123). -/
def formXor (b : BitVec 5) (a : BitVec 5) (d : BitVec 5) : Form :=
  { bits := (encXor b a d).setWidth 64, len := 4, roles := everyRole, level := 0, feats := [] }
/-- ANDN (R123). -/
def formAndn (b : BitVec 5) (a : BitVec 5) (d : BitVec 5) : Form :=
  { bits := (encAndn b a d).setWidth 64, len := 4, roles := everyRole, level := 0, feats := [] }
/-- SHL (R124). -/
def formShl (b : BitVec 5) (a : BitVec 5) (d : BitVec 5) : Form :=
  { bits := (encShl b a d).setWidth 64, len := 4, roles := everyRole, level := 0, feats := [] }
/-- SHR (R124). -/
def formShr (b : BitVec 5) (a : BitVec 5) (d : BitVec 5) : Form :=
  { bits := (encShr b a d).setWidth 64, len := 4, roles := everyRole, level := 0, feats := [] }
/-- SHA (R124). -/
def formSha (b : BitVec 5) (a : BitVec 5) (d : BitVec 5) : Form :=
  { bits := (encSha b a d).setWidth 64, len := 4, roles := everyRole, level := 0, feats := [] }
/-- ROTL (R123). -/
def formRotl (b : BitVec 5) (a : BitVec 5) (d : BitVec 5) : Form :=
  { bits := (encRotl b a d).setWidth 64, len := 4, roles := everyRole, level := 0, feats := [] }
/-- CLZ (R123). -/
def formClz (a : BitVec 5) (d : BitVec 5) : Form :=
  { bits := (encClz a d).setWidth 64, len := 4, roles := everyRole, level := 0, feats := [] }
/-- CTZ (R123). -/
def formCtz (a : BitVec 5) (d : BitVec 5) : Form :=
  { bits := (encCtz a d).setWidth 64, len := 4, roles := everyRole, level := 0, feats := [] }
/-- POPC (R123). -/
def formPopc (a : BitVec 5) (d : BitVec 5) : Form :=
  { bits := (encPopc a d).setWidth 64, len := 4, roles := everyRole, level := 0, feats := [] }
/-- SEQ (R123). -/
def formSeq (b : BitVec 5) (a : BitVec 5) (d : BitVec 5) : Form :=
  { bits := (encSeq b a d).setWidth 64, len := 4, roles := everyRole, level := 0, feats := [] }
/-- SLT (R123). -/
def formSlt (b : BitVec 5) (a : BitVec 5) (d : BitVec 5) : Form :=
  { bits := (encSlt b a d).setWidth 64, len := 4, roles := everyRole, level := 0, feats := [] }
/-- SLTN (R123). -/
def formSltn (b : BitVec 5) (a : BitVec 5) (d : BitVec 5) : Form :=
  { bits := (encSltn b a d).setWidth 64, len := 4, roles := everyRole, level := 0, feats := [] }
/-- PADD (R126). -/
def formPadd (w : BitVec 1) (b : BitVec 5) (a : BitVec 5) (d : BitVec 5) : Form :=
  { bits := (encPadd w b a d).setWidth 64, len := 4, roles := everyRole, level := 0, feats := [] }
/-- PSUB (R126). -/
def formPsub (w : BitVec 1) (b : BitVec 5) (a : BitVec 5) (d : BitVec 5) : Form :=
  { bits := (encPsub w b a d).setWidth 64, len := 4, roles := everyRole, level := 0, feats := [] }
/-- PMIN (R126). -/
def formPmin (n : BitVec 1) (w : BitVec 1) (b : BitVec 5) (a : BitVec 5) (d : BitVec 5) : Form :=
  { bits := (encPmin n w b a d).setWidth 64, len := 4, roles := everyRole, level := 0, feats := [] }
/-- PMAX (R126). -/
def formPmax (n : BitVec 1) (w : BitVec 1) (b : BitVec 5) (a : BitVec 5) (d : BitVec 5) : Form :=
  { bits := (encPmax n w b a d).setWidth 64, len := 4, roles := everyRole, level := 0, feats := [] }
/-- PSHL (R126). -/
def formPshl (w : BitVec 1) (b : BitVec 5) (a : BitVec 5) (d : BitVec 5) : Form :=
  { bits := (encPshl w b a d).setWidth 64, len := 4, roles := everyRole, level := 0, feats := [] }
/-- PSHR (R126). -/
def formPshr (w : BitVec 1) (b : BitVec 5) (a : BitVec 5) (d : BitVec 5) : Form :=
  { bits := (encPshr w b a d).setWidth 64, len := 4, roles := everyRole, level := 0, feats := [] }
/-- PSHA (R126). -/
def formPsha (w : BitVec 1) (b : BitVec 5) (a : BitVec 5) (d : BitVec 5) : Form :=
  { bits := (encPsha w b a d).setWidth 64, len := 4, roles := everyRole, level := 0, feats := [] }
/-- ADDI (R127). -/
def formAddi (i : BitVec 14) (a : BitVec 5) (d : BitVec 5) : Form :=
  { bits := (encAddi i a d).setWidth 64, len := 4, roles := everyRole, level := 0, feats := [] }
/-- ANDI (R127). -/
def formAndi (i : BitVec 14) (a : BitVec 5) (d : BitVec 5) : Form :=
  { bits := (encAndi i a d).setWidth 64, len := 4, roles := everyRole, level := 0, feats := [] }
/-- ORI (R127). -/
def formOri (i : BitVec 14) (a : BitVec 5) (d : BitVec 5) : Form :=
  { bits := (encOri i a d).setWidth 64, len := 4, roles := everyRole, level := 0, feats := [] }
/-- XORI (R127). -/
def formXori (i : BitVec 14) (a : BitVec 5) (d : BitVec 5) : Form :=
  { bits := (encXori i a d).setWidth 64, len := 4, roles := everyRole, level := 0, feats := [] }
/-- SHLI (R128). -/
def formShli (n : BitVec 6) (a : BitVec 5) (d : BitVec 5) : Form :=
  { bits := (encShli n a d).setWidth 64, len := 4, roles := everyRole, level := 0, feats := [] }
/-- SHRI (R128). -/
def formShri (n : BitVec 6) (a : BitVec 5) (d : BitVec 5) : Form :=
  { bits := (encShri n a d).setWidth 64, len := 4, roles := everyRole, level := 0, feats := [] }
/-- SHAI (R128). -/
def formShai (n : BitVec 6) (a : BitVec 5) (d : BitVec 5) : Form :=
  { bits := (encShai n a d).setWidth 64, len := 4, roles := everyRole, level := 0, feats := [] }
/-- BFX_S (R129). -/
def formBfxS (p : BitVec 6) (l : BitVec 6) (a : BitVec 5) (d : BitVec 5) : Form :=
  { bits := (encBfxS p l a d).setWidth 64, len := 4, roles := everyRole, level := 0, feats := [] }
/-- BFX_Z (R129). -/
def formBfxZ (p : BitVec 6) (l : BitVec 6) (a : BitVec 5) (d : BitVec 5) : Form :=
  { bits := (encBfxZ p l a d).setWidth 64, len := 4, roles := everyRole, level := 0, feats := [] }
/-- BFI (R129). -/
def formBfi (p : BitVec 6) (l : BitVec 6) (a : BitVec 5) (d : BitVec 5) : Form :=
  { bits := (encBfi p l a d).setWidth 64, len := 4, roles := everyRole, level := 0, feats := [] }
/-- SEL (R130). -/
def formSel (c : BitVec 5) (b : BitVec 5) (a : BitVec 5) (d : BitVec 5) : Form :=
  { bits := (encSel c b a d).setWidth 64, len := 4, roles := everyRole, level := 0, feats := [] }
/-- MOVI (R131). -/
def formMovi (i : BitVec 19) (d : BitVec 5) : Form :=
  { bits := (encMovi i d).setWidth 64, len := 4, roles := everyRole, level := 0, feats := [] }
/-- MOVH (R131). -/
def formMovh (i : BitVec 19) (d : BitVec 5) : Form :=
  { bits := (encMovh i d).setWidth 64, len := 4, roles := everyRole, level := 0, feats := [] }
/-- BEQ (R132). -/
def formBeq (o : BitVec 11) (b : BitVec 5) (a : BitVec 5) : Form :=
  { bits := (encBeq o b a).setWidth 64, len := 4, roles := everyRole, level := 0, feats := [] }
/-- BNE (R132). -/
def formBne (o : BitVec 11) (b : BitVec 5) (a : BitVec 5) : Form :=
  { bits := (encBne o b a).setWidth 64, len := 4, roles := everyRole, level := 0, feats := [] }
/-- BLT (R132). -/
def formBlt (o : BitVec 11) (b : BitVec 5) (a : BitVec 5) : Form :=
  { bits := (encBlt o b a).setWidth 64, len := 4, roles := everyRole, level := 0, feats := [] }
/-- BGE (R132). -/
def formBge (o : BitVec 11) (b : BitVec 5) (a : BitVec 5) : Form :=
  { bits := (encBge o b a).setWidth 64, len := 4, roles := everyRole, level := 0, feats := [] }
/-- BLTN (R132). -/
def formBltn (o : BitVec 11) (b : BitVec 5) (a : BitVec 5) : Form :=
  { bits := (encBltn o b a).setWidth 64, len := 4, roles := everyRole, level := 0, feats := [] }
/-- BGEN (R132). -/
def formBgen (o : BitVec 11) (b : BitVec 5) (a : BitVec 5) : Form :=
  { bits := (encBgen o b a).setWidth 64, len := 4, roles := everyRole, level := 0, feats := [] }
/-- JMP (R133). -/
def formJmp (o : BitVec 24) : Form :=
  { bits := (encJmp o).setWidth 64, len := 4, roles := everyRole, level := 0, feats := [] }
/-- JAL (R133). -/
def formJal (o : BitVec 24) : Form :=
  { bits := (encJal o).setWidth 64, len := 4, roles := everyRole, level := 0, feats := [] }
/-- JR (R134). -/
def formJr (i : BitVec 14) (a : BitVec 5) (d : BitVec 5) : Form :=
  { bits := (encJr i a d).setWidth 64, len := 4, roles := everyRole, level := 0, feats := [] }
/-- REP (R135). -/
def formRep (l : BitVec 14) (a : BitVec 5) : Form :=
  { bits := (encRep l a).setWidth 64, len := 4, roles := everyRole, level := 0, feats := [] }
/-- NOP (R137). -/
def formNop : Form :=
  { bits := (encNop).setWidth 64, len := 4, roles := everyRole, level := 0, feats := [] }
/-- BRK (R137). -/
def formBrk : Form :=
  { bits := (encBrk).setWidth 64, len := 4, roles := everyRole, level := 0, feats := [] }
/-- TRAP (R137). -/
def formTrap (a : BitVec 5) : Form :=
  { bits := (encTrap a).setWidth 64, len := 4, roles := everyRole, level := 0, feats := [] }
/-- SYSC (R137). -/
def formSysc (a : BitVec 5) : Form :=
  { bits := (encSysc a).setWidth 64, len := 4, roles := everyRole, level := 0, feats := [] }
/-- ERET (R121). -/
def formEret : Form :=
  { bits := (encEret).setWidth 64, len := 4, roles := everyRole, level := 1, feats := [] }
/-- CWR (R138). -/
def formCwr (h : BitVec 1) (n : BitVec 12) (d : BitVec 5) : Form :=
  { bits := (encCwr h n d).setWidth 64, len := 4, roles := cwRoles n, level := cwReadLevel n, feats := [] }
/-- CWW (R138). -/
def formCww (n : BitVec 12) (a : BitVec 5) : Form :=
  { bits := (encCww n a).setWidth 64, len := 4, roles := cwRoles n, level := cwWriteLevel n, feats := [] }
/-- END (R165). -/
def formEndTask : Form :=
  { bits := (encEndTask).setWidth 64, len := 4, roles := tileRoles, level := 0, feats := [] }
/-- ARM (R166). -/
def formArm (b : BitVec 5) (a : BitVec 5) : Form :=
  { bits := (encArm b a).setWidth 64, len := 4, roles := tileRoles, level := 0, feats := [] }
/-- DISARM (R167). -/
def formDisarm (a : BitVec 5) (d : BitVec 5) : Form :=
  { bits := (encDisarm a d).setWidth 64, len := 4, roles := tileRoles, level := 0, feats := [] }
/-- WAITA (R168). -/
def formWaita (c : BitVec 5) (b : BitVec 5) (a : BitVec 5) : Form :=
  { bits := (encWaita c b a).setWidth 64, len := 4, roles := tileRoles, level := 0, feats := [] }
/-- WAKE (R169). -/
def formWake (b : BitVec 5) (a : BitVec 5) : Form :=
  { bits := (encWake b a).setWidth 64, len := 4, roles := tileRoles, level := 0, feats := [] }
/-- TID (R170). -/
def formTid (d : BitVec 5) : Form :=
  { bits := (encTid d).setWidth 64, len := 4, roles := tileRoles, level := 0, feats := [] }
/-- PRIO (R171). -/
def formPrio (a : BitVec 5) (d : BitVec 5) : Form :=
  { bits := (encPrio a d).setWidth 64, len := 4, roles := tileRoles, level := 0, feats := [] }
/-- DEFER (R172). -/
def formDefer (a : BitVec 5) : Form :=
  { bits := (encDefer a).setWidth 64, len := 4, roles := tileRoles, level := 0, feats := [] }
/-- UIRET (R173). -/
def formUiret : Form :=
  { bits := (encUiret).setWidth 64, len := 4, roles := tileRoles, level := 0, feats := [5] }
/-- UIMASK (R174). -/
def formUimask (a : BitVec 5) (d : BitVec 5) : Form :=
  { bits := (encUimask a d).setWidth 64, len := 4, roles := tileRoles, level := 0, feats := [5] }
/-- SPAWN (R175). -/
def formSpawn (c : BitVec 6) (a : BitVec 5) (d : BitVec 5) : Form :=
  { bits := (encSpawn c a d).setWidth 64, len := 4, roles := tileRoles, level := 0, feats := [] }
/-- SPAWNR (R175). -/
def formSpawnr (c : BitVec 6) (a : BitVec 5) (d : BitVec 5) : Form :=
  { bits := (encSpawnr c a d).setWidth 64, len := 4, roles := tileRoles, level := 0, feats := [4] }
/-- SEND_R (R198). -/
def formSendR (n : BitVec 5) (q : BitVec 6) (d : BitVec 5) : Form :=
  { bits := (encSendR n q d).setWidth 64, len := 4, roles := tileRoles, level := 0, feats := [] }
/-- SEND_M (R198). -/
def formSendM (n : BitVec 5) (q : BitVec 6) (d : BitVec 5) : Form :=
  { bits := (encSendM n q d).setWidth 64, len := 4, roles := [.mc], level := 0, feats := [] }
/-- SENDI_R (R199). -/
def formSendiR (r : BitVec 2) (n : BitVec 5) (q : BitVec 6) (d : BitVec 5) : Form :=
  { bits := (encSendiR r n q d).setWidth 64, len := 4, roles := tileRoles, level := 0, feats := [] }
/-- SENDI_M (R199). -/
def formSendiM (r : BitVec 2) (n : BitVec 5) (q : BitVec 6) (d : BitVec 5) : Form :=
  { bits := (encSendiM r n q d).setWidth 64, len := 4, roles := [.mc], level := 0, feats := [] }
/-- SENDW_R (R200). -/
def formSendwR (r : BitVec 2) (n : BitVec 5) (d : BitVec 5) : Form :=
  { bits := (encSendwR r n d).setWidth 64, len := 4, roles := tileRoles, level := 0, feats := [] }
/-- SENDW_M (R200). -/
def formSendwM (r : BitVec 2) (n : BitVec 5) (d : BitVec 5) : Form :=
  { bits := (encSendwM r n d).setWidth 64, len := 4, roles := [.mc], level := 0, feats := [] }
/-- REPLY_R (R201). -/
def formReplyR (n : BitVec 5) (d : BitVec 5) : Form :=
  { bits := (encReplyR n d).setWidth 64, len := 4, roles := tileRoles, level := 0, feats := [] }
/-- REPLY_M (R201). -/
def formReplyM (n : BitVec 5) (d : BitVec 5) : Form :=
  { bits := (encReplyM n d).setWidth 64, len := 4, roles := [.mc], level := 0, feats := [] }
/-- REFUSE (R201). -/
def formRefuse : Form :=
  { bits := (encRefuse).setWidth 64, len := 4, roles := tileRoles, level := 0, feats := [] }
/-- QPEEK_Q (R203). -/
def formQpeekQ (i : BitVec 6) (q : BitVec 6) (d : BitVec 5) : Form :=
  { bits := (encQpeekQ i q d).setWidth 64, len := 4, roles := readers q.toNat, level := 0, feats := [] }
/-- QPEEK_C (R203). -/
def formQpeekC (h : BitVec 1) (i : BitVec 6) (q : BitVec 6) (d : BitVec 5) : Form :=
  { bits := (encQpeekC h i q d).setWidth 64, len := 4, roles := tileRoles, level := 0, feats := [] }
/-- QCNT_Q (R204). -/
def formQcntQ (q : BitVec 6) (d : BitVec 5) : Form :=
  { bits := (encQcntQ q d).setWidth 64, len := 4, roles := readers q.toNat ++ writers q.toNat, level := 0, feats := [] }
/-- QCNT_C (R204). -/
def formQcntC (q : BitVec 6) (d : BitVec 5) : Form :=
  { bits := (encQcntC q d).setWidth 64, len := 4, roles := tileRoles, level := 0, feats := [] }
/-- QFLUSH_Q (R205). -/
def formQflushQ (q : BitVec 6) : Form :=
  { bits := (encQflushQ q).setWidth 64, len := 4, roles := readers q.toNat, level := 0, feats := [] }
/-- QFLUSH_C (R205). -/
def formQflushC (q : BitVec 6) : Form :=
  { bits := (encQflushC q).setWidth 64, len := 4, roles := tileRoles, level := 0, feats := [] }
/-- QBIND (R206). -/
def formQbind (q : BitVec 6) (d : BitVec 5) : Form :=
  { bits := (encQbind q d).setWidth 64, len := 4, roles := tileRoles, level := 0, feats := [] }
/-- CHOPEN (R207). -/
def formChopen (q : BitVec 6) (d : BitVec 5) : Form :=
  { bits := (encChopen q d).setWidth 64, len := 4, roles := tileRoles, level := 0, feats := [] }
/-- CHCLOSE (R207). -/
def formChclose (q : BitVec 6) : Form :=
  { bits := (encChclose q).setWidth 64, len := 4, roles := tileRoles, level := 0, feats := [] }
/-- CHSTAT (R208). -/
def formChstat (q : BitVec 6) (d : BitVec 5) : Form :=
  { bits := (encChstat q d).setWidth 64, len := 4, roles := tileRoles, level := 0, feats := [] }
/-- LD_B_Z (R231). -/
def formLdBZ (g : BitVec 4) (o : BitVec 7) (a : BitVec 5) (d : BitVec 5) : Form :=
  { bits := (encLdBZ g o a d).setWidth 64, len := 4, roles := [.mc], level := 0, feats := [] }
/-- LD_B_S (R231). -/
def formLdBS (g : BitVec 4) (o : BitVec 7) (a : BitVec 5) (d : BitVec 5) : Form :=
  { bits := (encLdBS g o a d).setWidth 64, len := 4, roles := [.mc], level := 0, feats := [] }
/-- LD_H_Z (R231). -/
def formLdHZ (g : BitVec 4) (o : BitVec 7) (a : BitVec 5) (d : BitVec 5) : Form :=
  { bits := (encLdHZ g o a d).setWidth 64, len := 4, roles := [.mc], level := 0, feats := [] }
/-- LD_H_S (R231). -/
def formLdHS (g : BitVec 4) (o : BitVec 7) (a : BitVec 5) (d : BitVec 5) : Form :=
  { bits := (encLdHS g o a d).setWidth 64, len := 4, roles := [.mc], level := 0, feats := [] }
/-- LD_W_Z (R231). -/
def formLdWZ (g : BitVec 4) (o : BitVec 7) (a : BitVec 5) (d : BitVec 5) : Form :=
  { bits := (encLdWZ g o a d).setWidth 64, len := 4, roles := [.mc], level := 0, feats := [] }
/-- LD_W_S (R231). -/
def formLdWS (g : BitVec 4) (o : BitVec 7) (a : BitVec 5) (d : BitVec 5) : Form :=
  { bits := (encLdWS g o a d).setWidth 64, len := 4, roles := [.mc], level := 0, feats := [] }
/-- LD_D (R231). -/
def formLdD (g : BitVec 4) (o : BitVec 7) (a : BitVec 5) (d : BitVec 5) : Form :=
  { bits := (encLdD g o a d).setWidth 64, len := 4, roles := [.mc], level := 0, feats := [] }
/-- ST_B (R231). -/
def formStB (g : BitVec 4) (o : BitVec 7) (a : BitVec 5) (d : BitVec 5) : Form :=
  { bits := (encStB g o a d).setWidth 64, len := 4, roles := [.mc], level := 0, feats := [] }
/-- ST_H (R231). -/
def formStH (g : BitVec 4) (o : BitVec 7) (a : BitVec 5) (d : BitVec 5) : Form :=
  { bits := (encStH g o a d).setWidth 64, len := 4, roles := [.mc], level := 0, feats := [] }
/-- ST_W (R231). -/
def formStW (g : BitVec 4) (o : BitVec 7) (a : BitVec 5) (d : BitVec 5) : Form :=
  { bits := (encStW g o a d).setWidth 64, len := 4, roles := [.mc], level := 0, feats := [] }
/-- ST_D (R231). -/
def formStD (g : BitVec 4) (o : BitVec 7) (a : BitVec 5) (d : BitVec 5) : Form :=
  { bits := (encStD g o a d).setWidth 64, len := 4, roles := [.mc], level := 0, feats := [] }
/-- LDQ (R233). -/
def formLdq (g : BitVec 4) (n : BitVec 6) (q : BitVec 6) (d : BitVec 5) : Form :=
  { bits := (encLdq g n q d).setWidth 64, len := 4, roles := both [.mc] (writers q.toNat), level := 0, feats := [] }
/-- STQ (R233). -/
def formStq (g : BitVec 4) (n : BitVec 6) (d : BitVec 5) : Form :=
  { bits := (encStq g n d).setWidth 64, len := 4, roles := [.mc], level := 0, feats := [] }
/-- LDFF (R234). -/
def formLdff (g : BitVec 4) (n : BitVec 6) (q : BitVec 6) (d : BitVec 5) : Form :=
  { bits := (encLdff g n q d).setWidth 64, len := 4, roles := both [.mc] (writers q.toNat), level := 0, feats := [] }
/-- PRF (R235). -/
def formPrf (g : BitVec 4) (n : BitVec 6) (d : BitVec 5) : Form :=
  { bits := (encPrf g n d).setWidth 64, len := 4, roles := [.mc], level := 0, feats := [] }
/-- LDSYNC (R237). -/
def formLdsync (g : BitVec 4) (o : BitVec 7) (a : BitVec 5) (d : BitVec 5) : Form :=
  { bits := (encLdsync g o a d).setWidth 64, len := 4, roles := [.mc], level := 0, feats := [] }
/-- STFULL (R237). -/
def formStfull (g : BitVec 4) (o : BitVec 7) (a : BitVec 5) (d : BitVec 5) : Form :=
  { bits := (encStfull g o a d).setWidth 64, len := 4, roles := [.mc], level := 0, feats := [] }
/-- STEMPTY (R237). -/
def formStempty (g : BitVec 4) (o : BitVec 7) (a : BitVec 5) : Form :=
  { bits := (encStempty g o a).setWidth 64, len := 4, roles := [.mc], level := 0, feats := [] }
/-- GADDR (R239). -/
def formGaddr (g : BitVec 4) (a : BitVec 5) (d : BitVec 5) : Form :=
  { bits := (encGaddr g a d).setWidth 64, len := 4, roles := [.mc], level := 0, feats := [] }
/-- SEGW (R240). -/
def formSegw (g : BitVec 4) (b : BitVec 5) (a : BitVec 5) : Form :=
  { bits := (encSegw g b a).setWidth 64, len := 4, roles := [.mc], level := 0, feats := [] }
/-- SEGR (R240). -/
def formSegr (h : BitVec 1) (g : BitVec 4) (d : BitVec 5) : Form :=
  { bits := (encSegr h g d).setWidth 64, len := 4, roles := [.mc], level := 0, feats := [] }
/-- VADD_F32 (R246). -/
def formVaddF32 (k : BitVec 3) (b : BitVec 5) (a : BitVec 5) (d : BitVec 5) (m : Option (BitVec 32)) : Form :=
  { bits := withModifier (encVaddF32 k b a d m) m, len := if m.isSome then 8 else 4, roles := [.ac], level := 0, feats := modeFeatures m }
/-- VSUB_F32 (R246). -/
def formVsubF32 (k : BitVec 3) (b : BitVec 5) (a : BitVec 5) (d : BitVec 5) (m : Option (BitVec 32)) : Form :=
  { bits := withModifier (encVsubF32 k b a d m) m, len := if m.isSome then 8 else 4, roles := [.ac], level := 0, feats := modeFeatures m }
/-- VMUL_F32 (R246). -/
def formVmulF32 (k : BitVec 3) (b : BitVec 5) (a : BitVec 5) (d : BitVec 5) (m : Option (BitVec 32)) : Form :=
  { bits := withModifier (encVmulF32 k b a d m) m, len := if m.isSome then 8 else 4, roles := [.ac], level := 0, feats := modeFeatures m }
/-- VFMA_F32 (R246). -/
def formVfmaF32 (k : BitVec 3) (b : BitVec 5) (a : BitVec 5) (d : BitVec 5) (m : Option (BitVec 32)) : Form :=
  { bits := withModifier (encVfmaF32 k b a d m) m, len := if m.isSome then 8 else 4, roles := [.ac], level := 0, feats := modeFeatures m }
/-- VFMS_F32 (R246). -/
def formVfmsF32 (k : BitVec 3) (b : BitVec 5) (a : BitVec 5) (d : BitVec 5) (m : Option (BitVec 32)) : Form :=
  { bits := withModifier (encVfmsF32 k b a d m) m, len := if m.isSome then 8 else 4, roles := [.ac], level := 0, feats := modeFeatures m }
/-- VFNMA_F32 (R246). -/
def formVfnmaF32 (k : BitVec 3) (b : BitVec 5) (a : BitVec 5) (d : BitVec 5) (m : Option (BitVec 32)) : Form :=
  { bits := withModifier (encVfnmaF32 k b a d m) m, len := if m.isSome then 8 else 4, roles := [.ac], level := 0, feats := modeFeatures m }
/-- VMIN_F32 (R247). -/
def formVminF32 (k : BitVec 3) (b : BitVec 5) (a : BitVec 5) (d : BitVec 5) (m : Option (BitVec 32)) : Form :=
  { bits := withModifier (encVminF32 k b a d m) m, len := if m.isSome then 8 else 4, roles := [.ac], level := 0, feats := modeFeatures m }
/-- VMAX_F32 (R247). -/
def formVmaxF32 (k : BitVec 3) (b : BitVec 5) (a : BitVec 5) (d : BitVec 5) (m : Option (BitVec 32)) : Form :=
  { bits := withModifier (encVmaxF32 k b a d m) m, len := if m.isSome then 8 else 4, roles := [.ac], level := 0, feats := modeFeatures m }
/-- VRCP (R249). -/
def formVrcp (k : BitVec 3) (a : BitVec 5) (d : BitVec 5) (m : Option (BitVec 32)) : Form :=
  { bits := withModifier (encVrcp k a d m) m, len := if m.isSome then 8 else 4, roles := [.ac], level := 0, feats := modeFeatures m }
/-- VRSQRT (R249). -/
def formVrsqrt (k : BitVec 3) (a : BitVec 5) (d : BitVec 5) (m : Option (BitVec 32)) : Form :=
  { bits := withModifier (encVrsqrt k a d m) m, len := if m.isSome then 8 else 4, roles := [.ac], level := 0, feats := modeFeatures m }
/-- VSQRT (R249). -/
def formVsqrt (k : BitVec 3) (a : BitVec 5) (d : BitVec 5) (m : Option (BitVec 32)) : Form :=
  { bits := withModifier (encVsqrt k a d m) m, len := if m.isSome then 8 else 4, roles := [.ac], level := 0, feats := modeFeatures m }
/-- VEXP2 (R249). -/
def formVexp2 (k : BitVec 3) (a : BitVec 5) (d : BitVec 5) (m : Option (BitVec 32)) : Form :=
  { bits := withModifier (encVexp2 k a d m) m, len := if m.isSome then 8 else 4, roles := [.ac], level := 0, feats := modeFeatures m }
/-- VLOG2 (R249). -/
def formVlog2 (k : BitVec 3) (a : BitVec 5) (d : BitVec 5) (m : Option (BitVec 32)) : Form :=
  { bits := withModifier (encVlog2 k a d m) m, len := if m.isSome then 8 else 4, roles := [.ac], level := 0, feats := modeFeatures m }
/-- VTANH (R249). -/
def formVtanh (k : BitVec 3) (a : BitVec 5) (d : BitVec 5) (m : Option (BitVec 32)) : Form :=
  { bits := withModifier (encVtanh k a d m) m, len := if m.isSome then 8 else 4, roles := [.ac], level := 0, feats := modeFeatures m }
/-- VCMP_EQ_F32 (R250). -/
def formVcmpEqF32 (k : BitVec 3) (b : BitVec 5) (a : BitVec 5) (d : BitVec 5) (m : Option (BitVec 32)) : Form :=
  { bits := withModifier (encVcmpEqF32 k b a d m) m, len := if m.isSome then 8 else 4, roles := [.ac], level := 0, feats := modeFeatures m }
/-- VCMP_NE_F32 (R250). -/
def formVcmpNeF32 (k : BitVec 3) (b : BitVec 5) (a : BitVec 5) (d : BitVec 5) (m : Option (BitVec 32)) : Form :=
  { bits := withModifier (encVcmpNeF32 k b a d m) m, len := if m.isSome then 8 else 4, roles := [.ac], level := 0, feats := modeFeatures m }
/-- VCMP_LT_F32 (R250). -/
def formVcmpLtF32 (k : BitVec 3) (b : BitVec 5) (a : BitVec 5) (d : BitVec 5) (m : Option (BitVec 32)) : Form :=
  { bits := withModifier (encVcmpLtF32 k b a d m) m, len := if m.isSome then 8 else 4, roles := [.ac], level := 0, feats := modeFeatures m }
/-- VCMP_LE_F32 (R250). -/
def formVcmpLeF32 (k : BitVec 3) (b : BitVec 5) (a : BitVec 5) (d : BitVec 5) (m : Option (BitVec 32)) : Form :=
  { bits := withModifier (encVcmpLeF32 k b a d m) m, len := if m.isSome then 8 else 4, roles := [.ac], level := 0, feats := modeFeatures m }
/-- VSEL_F32 (R250). -/
def formVselF32 (k : BitVec 3) (b : BitVec 5) (a : BitVec 5) (d : BitVec 5) (m : Option (BitVec 32)) : Form :=
  { bits := withModifier (encVselF32 k b a d m) m, len := if m.isSome then 8 else 4, roles := [.ac], level := 0, feats := modeFeatures m }
/-- VREDADD_F32 (R254). -/
def formVredaddF32 (k : BitVec 3) (a : BitVec 5) (d : BitVec 5) (m : Option (BitVec 32)) : Form :=
  { bits := withModifier (encVredaddF32 k a d m) m, len := if m.isSome then 8 else 4, roles := [.ac], level := 0, feats := modeFeatures m }
/-- VREDMAX_F32 (R254). -/
def formVredmaxF32 (k : BitVec 3) (a : BitVec 5) (d : BitVec 5) (m : Option (BitVec 32)) : Form :=
  { bits := withModifier (encVredmaxF32 k a d m) m, len := if m.isSome then 8 else 4, roles := [.ac], level := 0, feats := modeFeatures m }
/-- VSCAN_F32 (R255). -/
def formVscanF32 (k : BitVec 3) (a : BitVec 5) (d : BitVec 5) (m : Option (BitVec 32)) : Form :=
  { bits := withModifier (encVscanF32 k a d m) m, len := if m.isSome then 8 else 4, roles := [.ac], level := 0, feats := modeFeatures m }
/-- VADD_F16 (R246). -/
def formVaddF16 (t : BitVec 1) (k : BitVec 3) (b : BitVec 5) (a : BitVec 5) (d : BitVec 5) (m : Option (BitVec 32)) : Form :=
  { bits := withModifier (encVaddF16 t k b a d m) m, len := if m.isSome then 8 else 4, roles := [.ac], level := 0, feats := modeFeatures m }
/-- VSUB_F16 (R246). -/
def formVsubF16 (t : BitVec 1) (k : BitVec 3) (b : BitVec 5) (a : BitVec 5) (d : BitVec 5) (m : Option (BitVec 32)) : Form :=
  { bits := withModifier (encVsubF16 t k b a d m) m, len := if m.isSome then 8 else 4, roles := [.ac], level := 0, feats := modeFeatures m }
/-- VMUL_F16 (R246). -/
def formVmulF16 (t : BitVec 1) (k : BitVec 3) (b : BitVec 5) (a : BitVec 5) (d : BitVec 5) (m : Option (BitVec 32)) : Form :=
  { bits := withModifier (encVmulF16 t k b a d m) m, len := if m.isSome then 8 else 4, roles := [.ac], level := 0, feats := modeFeatures m }
/-- VFMA_F16 (R246). -/
def formVfmaF16 (t : BitVec 1) (k : BitVec 3) (b : BitVec 5) (a : BitVec 5) (d : BitVec 5) (m : Option (BitVec 32)) : Form :=
  { bits := withModifier (encVfmaF16 t k b a d m) m, len := if m.isSome then 8 else 4, roles := [.ac], level := 0, feats := modeFeatures m }
/-- VFMS_F16 (R246). -/
def formVfmsF16 (t : BitVec 1) (k : BitVec 3) (b : BitVec 5) (a : BitVec 5) (d : BitVec 5) (m : Option (BitVec 32)) : Form :=
  { bits := withModifier (encVfmsF16 t k b a d m) m, len := if m.isSome then 8 else 4, roles := [.ac], level := 0, feats := modeFeatures m }
/-- VFNMA_F16 (R246). -/
def formVfnmaF16 (t : BitVec 1) (k : BitVec 3) (b : BitVec 5) (a : BitVec 5) (d : BitVec 5) (m : Option (BitVec 32)) : Form :=
  { bits := withModifier (encVfnmaF16 t k b a d m) m, len := if m.isSome then 8 else 4, roles := [.ac], level := 0, feats := modeFeatures m }
/-- VMIN_F16 (R247). -/
def formVminF16 (t : BitVec 1) (k : BitVec 3) (b : BitVec 5) (a : BitVec 5) (d : BitVec 5) (m : Option (BitVec 32)) : Form :=
  { bits := withModifier (encVminF16 t k b a d m) m, len := if m.isSome then 8 else 4, roles := [.ac], level := 0, feats := modeFeatures m }
/-- VMAX_F16 (R247). -/
def formVmaxF16 (t : BitVec 1) (k : BitVec 3) (b : BitVec 5) (a : BitVec 5) (d : BitVec 5) (m : Option (BitVec 32)) : Form :=
  { bits := withModifier (encVmaxF16 t k b a d m) m, len := if m.isSome then 8 else 4, roles := [.ac], level := 0, feats := modeFeatures m }
/-- VDOT_F32 (R248). -/
def formVdotF32 (t : BitVec 1) (k : BitVec 3) (b : BitVec 5) (a : BitVec 5) (d : BitVec 5) (m : Option (BitVec 32)) : Form :=
  { bits := withModifier (encVdotF32 t k b a d m) m, len := if m.isSome then 8 else 4, roles := [.ac], level := 0, feats := modeFeatures m }
/-- VCMP_EQ_F16 (R250). -/
def formVcmpEqF16 (t : BitVec 1) (k : BitVec 3) (b : BitVec 5) (a : BitVec 5) (d : BitVec 5) (m : Option (BitVec 32)) : Form :=
  { bits := withModifier (encVcmpEqF16 t k b a d m) m, len := if m.isSome then 8 else 4, roles := [.ac], level := 0, feats := modeFeatures m }
/-- VCMP_NE_F16 (R250). -/
def formVcmpNeF16 (t : BitVec 1) (k : BitVec 3) (b : BitVec 5) (a : BitVec 5) (d : BitVec 5) (m : Option (BitVec 32)) : Form :=
  { bits := withModifier (encVcmpNeF16 t k b a d m) m, len := if m.isSome then 8 else 4, roles := [.ac], level := 0, feats := modeFeatures m }
/-- VCMP_LT_F16 (R250). -/
def formVcmpLtF16 (t : BitVec 1) (k : BitVec 3) (b : BitVec 5) (a : BitVec 5) (d : BitVec 5) (m : Option (BitVec 32)) : Form :=
  { bits := withModifier (encVcmpLtF16 t k b a d m) m, len := if m.isSome then 8 else 4, roles := [.ac], level := 0, feats := modeFeatures m }
/-- VCMP_LE_F16 (R250). -/
def formVcmpLeF16 (t : BitVec 1) (k : BitVec 3) (b : BitVec 5) (a : BitVec 5) (d : BitVec 5) (m : Option (BitVec 32)) : Form :=
  { bits := withModifier (encVcmpLeF16 t k b a d m) m, len := if m.isSome then 8 else 4, roles := [.ac], level := 0, feats := modeFeatures m }
/-- VSEL_F16 (R250). -/
def formVselF16 (t : BitVec 1) (k : BitVec 3) (b : BitVec 5) (a : BitVec 5) (d : BitVec 5) (m : Option (BitVec 32)) : Form :=
  { bits := withModifier (encVselF16 t k b a d m) m, len := if m.isSome then 8 else 4, roles := [.ac], level := 0, feats := modeFeatures m }
/-- VREDADD_F16 (R254). -/
def formVredaddF16 (t : BitVec 1) (k : BitVec 3) (a : BitVec 5) (d : BitVec 5) (m : Option (BitVec 32)) : Form :=
  { bits := withModifier (encVredaddF16 t k a d m) m, len := if m.isSome then 8 else 4, roles := [.ac], level := 0, feats := modeFeatures m }
/-- VREDMAX_F16 (R254). -/
def formVredmaxF16 (t : BitVec 1) (k : BitVec 3) (a : BitVec 5) (d : BitVec 5) (m : Option (BitVec 32)) : Form :=
  { bits := withModifier (encVredmaxF16 t k a d m) m, len := if m.isSome then 8 else 4, roles := [.ac], level := 0, feats := modeFeatures m }
/-- VSCAN_F16 (R255). -/
def formVscanF16 (t : BitVec 1) (k : BitVec 3) (a : BitVec 5) (d : BitVec 5) (m : Option (BitVec 32)) : Form :=
  { bits := withModifier (encVscanF16 t k a d m) m, len := if m.isSome then 8 else 4, roles := [.ac], level := 0, feats := modeFeatures m }
/-- VADD_I32 (R251). -/
def formVaddI32 (n : BitVec 1) (k : BitVec 3) (b : BitVec 5) (a : BitVec 5) (d : BitVec 5) (m : Option (BitVec 32)) : Form :=
  { bits := withModifier (encVaddI32 n k b a d m) m, len := if m.isSome then 8 else 4, roles := [.ac], level := 0, feats := modeFeatures m }
/-- VSUB_I32 (R251). -/
def formVsubI32 (n : BitVec 1) (k : BitVec 3) (b : BitVec 5) (a : BitVec 5) (d : BitVec 5) (m : Option (BitVec 32)) : Form :=
  { bits := withModifier (encVsubI32 n k b a d m) m, len := if m.isSome then 8 else 4, roles := [.ac], level := 0, feats := modeFeatures m }
/-- VMUL_I32 (R251). -/
def formVmulI32 (n : BitVec 1) (k : BitVec 3) (b : BitVec 5) (a : BitVec 5) (d : BitVec 5) (m : Option (BitVec 32)) : Form :=
  { bits := withModifier (encVmulI32 n k b a d m) m, len := if m.isSome then 8 else 4, roles := [.ac], level := 0, feats := modeFeatures m }
/-- VMIN_I32 (R251). -/
def formVminI32 (n : BitVec 1) (k : BitVec 3) (b : BitVec 5) (a : BitVec 5) (d : BitVec 5) (m : Option (BitVec 32)) : Form :=
  { bits := withModifier (encVminI32 n k b a d m) m, len := if m.isSome then 8 else 4, roles := [.ac], level := 0, feats := modeFeatures m }
/-- VMAX_I32 (R251). -/
def formVmaxI32 (n : BitVec 1) (k : BitVec 3) (b : BitVec 5) (a : BitVec 5) (d : BitVec 5) (m : Option (BitVec 32)) : Form :=
  { bits := withModifier (encVmaxI32 n k b a d m) m, len := if m.isSome then 8 else 4, roles := [.ac], level := 0, feats := modeFeatures m }
/-- VAND_I32 (R251). -/
def formVandI32 (n : BitVec 1) (k : BitVec 3) (b : BitVec 5) (a : BitVec 5) (d : BitVec 5) (m : Option (BitVec 32)) : Form :=
  { bits := withModifier (encVandI32 n k b a d m) m, len := if m.isSome then 8 else 4, roles := [.ac], level := 0, feats := modeFeatures m }
/-- VOR_I32 (R251). -/
def formVorI32 (n : BitVec 1) (k : BitVec 3) (b : BitVec 5) (a : BitVec 5) (d : BitVec 5) (m : Option (BitVec 32)) : Form :=
  { bits := withModifier (encVorI32 n k b a d m) m, len := if m.isSome then 8 else 4, roles := [.ac], level := 0, feats := modeFeatures m }
/-- VXOR_I32 (R251). -/
def formVxorI32 (n : BitVec 1) (k : BitVec 3) (b : BitVec 5) (a : BitVec 5) (d : BitVec 5) (m : Option (BitVec 32)) : Form :=
  { bits := withModifier (encVxorI32 n k b a d m) m, len := if m.isSome then 8 else 4, roles := [.ac], level := 0, feats := modeFeatures m }
/-- VSHL_I32 (R252). -/
def formVshlI32 (n : BitVec 1) (k : BitVec 3) (b : BitVec 5) (a : BitVec 5) (d : BitVec 5) (m : Option (BitVec 32)) : Form :=
  { bits := withModifier (encVshlI32 n k b a d m) m, len := if m.isSome then 8 else 4, roles := [.ac], level := 0, feats := modeFeatures m }
/-- VSHR_I32 (R252). -/
def formVshrI32 (n : BitVec 1) (k : BitVec 3) (b : BitVec 5) (a : BitVec 5) (d : BitVec 5) (m : Option (BitVec 32)) : Form :=
  { bits := withModifier (encVshrI32 n k b a d m) m, len := if m.isSome then 8 else 4, roles := [.ac], level := 0, feats := modeFeatures m }
/-- VSHA_I32 (R252). -/
def formVshaI32 (n : BitVec 1) (k : BitVec 3) (b : BitVec 5) (a : BitVec 5) (d : BitVec 5) (m : Option (BitVec 32)) : Form :=
  { bits := withModifier (encVshaI32 n k b a d m) m, len := if m.isSome then 8 else 4, roles := [.ac], level := 0, feats := modeFeatures m }
/-- VCMP_EQ_I32 (R251). -/
def formVcmpEqI32 (n : BitVec 1) (k : BitVec 3) (b : BitVec 5) (a : BitVec 5) (d : BitVec 5) (m : Option (BitVec 32)) : Form :=
  { bits := withModifier (encVcmpEqI32 n k b a d m) m, len := if m.isSome then 8 else 4, roles := [.ac], level := 0, feats := modeFeatures m }
/-- VCMP_NE_I32 (R251). -/
def formVcmpNeI32 (n : BitVec 1) (k : BitVec 3) (b : BitVec 5) (a : BitVec 5) (d : BitVec 5) (m : Option (BitVec 32)) : Form :=
  { bits := withModifier (encVcmpNeI32 n k b a d m) m, len := if m.isSome then 8 else 4, roles := [.ac], level := 0, feats := modeFeatures m }
/-- VCMP_LT_I32 (R251). -/
def formVcmpLtI32 (n : BitVec 1) (k : BitVec 3) (b : BitVec 5) (a : BitVec 5) (d : BitVec 5) (m : Option (BitVec 32)) : Form :=
  { bits := withModifier (encVcmpLtI32 n k b a d m) m, len := if m.isSome then 8 else 4, roles := [.ac], level := 0, feats := modeFeatures m }
/-- VCMP_LE_I32 (R251). -/
def formVcmpLeI32 (n : BitVec 1) (k : BitVec 3) (b : BitVec 5) (a : BitVec 5) (d : BitVec 5) (m : Option (BitVec 32)) : Form :=
  { bits := withModifier (encVcmpLeI32 n k b a d m) m, len := if m.isSome then 8 else 4, roles := [.ac], level := 0, feats := modeFeatures m }
/-- VSEL_I32 (R251). -/
def formVselI32 (n : BitVec 1) (k : BitVec 3) (b : BitVec 5) (a : BitVec 5) (d : BitVec 5) (m : Option (BitVec 32)) : Form :=
  { bits := withModifier (encVselI32 n k b a d m) m, len := if m.isSome then 8 else 4, roles := [.ac], level := 0, feats := modeFeatures m }
/-- VREDADD_I32 (R254). -/
def formVredaddI32 (n : BitVec 1) (k : BitVec 3) (a : BitVec 5) (d : BitVec 5) (m : Option (BitVec 32)) : Form :=
  { bits := withModifier (encVredaddI32 n k a d m) m, len := if m.isSome then 8 else 4, roles := [.ac], level := 0, feats := modeFeatures m }
/-- VREDMAX_I32 (R254). -/
def formVredmaxI32 (n : BitVec 1) (k : BitVec 3) (a : BitVec 5) (d : BitVec 5) (m : Option (BitVec 32)) : Form :=
  { bits := withModifier (encVredmaxI32 n k a d m) m, len := if m.isSome then 8 else 4, roles := [.ac], level := 0, feats := modeFeatures m }
/-- VSCAN_I32 (R255). -/
def formVscanI32 (n : BitVec 1) (k : BitVec 3) (a : BitVec 5) (d : BitVec 5) (m : Option (BitVec 32)) : Form :=
  { bits := withModifier (encVscanI32 n k a d m) m, len := if m.isSome then 8 else 4, roles := [.ac], level := 0, feats := modeFeatures m }
/-- VADD_I16 (R251). -/
def formVaddI16 (n : BitVec 1) (k : BitVec 3) (b : BitVec 5) (a : BitVec 5) (d : BitVec 5) (m : Option (BitVec 32)) : Form :=
  { bits := withModifier (encVaddI16 n k b a d m) m, len := if m.isSome then 8 else 4, roles := [.ac], level := 0, feats := modeFeatures m }
/-- VSUB_I16 (R251). -/
def formVsubI16 (n : BitVec 1) (k : BitVec 3) (b : BitVec 5) (a : BitVec 5) (d : BitVec 5) (m : Option (BitVec 32)) : Form :=
  { bits := withModifier (encVsubI16 n k b a d m) m, len := if m.isSome then 8 else 4, roles := [.ac], level := 0, feats := modeFeatures m }
/-- VMUL_I16 (R251). -/
def formVmulI16 (n : BitVec 1) (k : BitVec 3) (b : BitVec 5) (a : BitVec 5) (d : BitVec 5) (m : Option (BitVec 32)) : Form :=
  { bits := withModifier (encVmulI16 n k b a d m) m, len := if m.isSome then 8 else 4, roles := [.ac], level := 0, feats := modeFeatures m }
/-- VMIN_I16 (R251). -/
def formVminI16 (n : BitVec 1) (k : BitVec 3) (b : BitVec 5) (a : BitVec 5) (d : BitVec 5) (m : Option (BitVec 32)) : Form :=
  { bits := withModifier (encVminI16 n k b a d m) m, len := if m.isSome then 8 else 4, roles := [.ac], level := 0, feats := modeFeatures m }
/-- VMAX_I16 (R251). -/
def formVmaxI16 (n : BitVec 1) (k : BitVec 3) (b : BitVec 5) (a : BitVec 5) (d : BitVec 5) (m : Option (BitVec 32)) : Form :=
  { bits := withModifier (encVmaxI16 n k b a d m) m, len := if m.isSome then 8 else 4, roles := [.ac], level := 0, feats := modeFeatures m }
/-- VAND_I16 (R251). -/
def formVandI16 (n : BitVec 1) (k : BitVec 3) (b : BitVec 5) (a : BitVec 5) (d : BitVec 5) (m : Option (BitVec 32)) : Form :=
  { bits := withModifier (encVandI16 n k b a d m) m, len := if m.isSome then 8 else 4, roles := [.ac], level := 0, feats := modeFeatures m }
/-- VOR_I16 (R251). -/
def formVorI16 (n : BitVec 1) (k : BitVec 3) (b : BitVec 5) (a : BitVec 5) (d : BitVec 5) (m : Option (BitVec 32)) : Form :=
  { bits := withModifier (encVorI16 n k b a d m) m, len := if m.isSome then 8 else 4, roles := [.ac], level := 0, feats := modeFeatures m }
/-- VXOR_I16 (R251). -/
def formVxorI16 (n : BitVec 1) (k : BitVec 3) (b : BitVec 5) (a : BitVec 5) (d : BitVec 5) (m : Option (BitVec 32)) : Form :=
  { bits := withModifier (encVxorI16 n k b a d m) m, len := if m.isSome then 8 else 4, roles := [.ac], level := 0, feats := modeFeatures m }
/-- VSHL_I16 (R252). -/
def formVshlI16 (n : BitVec 1) (k : BitVec 3) (b : BitVec 5) (a : BitVec 5) (d : BitVec 5) (m : Option (BitVec 32)) : Form :=
  { bits := withModifier (encVshlI16 n k b a d m) m, len := if m.isSome then 8 else 4, roles := [.ac], level := 0, feats := modeFeatures m }
/-- VSHR_I16 (R252). -/
def formVshrI16 (n : BitVec 1) (k : BitVec 3) (b : BitVec 5) (a : BitVec 5) (d : BitVec 5) (m : Option (BitVec 32)) : Form :=
  { bits := withModifier (encVshrI16 n k b a d m) m, len := if m.isSome then 8 else 4, roles := [.ac], level := 0, feats := modeFeatures m }
/-- VSHA_I16 (R252). -/
def formVshaI16 (n : BitVec 1) (k : BitVec 3) (b : BitVec 5) (a : BitVec 5) (d : BitVec 5) (m : Option (BitVec 32)) : Form :=
  { bits := withModifier (encVshaI16 n k b a d m) m, len := if m.isSome then 8 else 4, roles := [.ac], level := 0, feats := modeFeatures m }
/-- VCMP_EQ_I16 (R251). -/
def formVcmpEqI16 (n : BitVec 1) (k : BitVec 3) (b : BitVec 5) (a : BitVec 5) (d : BitVec 5) (m : Option (BitVec 32)) : Form :=
  { bits := withModifier (encVcmpEqI16 n k b a d m) m, len := if m.isSome then 8 else 4, roles := [.ac], level := 0, feats := modeFeatures m }
/-- VCMP_NE_I16 (R251). -/
def formVcmpNeI16 (n : BitVec 1) (k : BitVec 3) (b : BitVec 5) (a : BitVec 5) (d : BitVec 5) (m : Option (BitVec 32)) : Form :=
  { bits := withModifier (encVcmpNeI16 n k b a d m) m, len := if m.isSome then 8 else 4, roles := [.ac], level := 0, feats := modeFeatures m }
/-- VCMP_LT_I16 (R251). -/
def formVcmpLtI16 (n : BitVec 1) (k : BitVec 3) (b : BitVec 5) (a : BitVec 5) (d : BitVec 5) (m : Option (BitVec 32)) : Form :=
  { bits := withModifier (encVcmpLtI16 n k b a d m) m, len := if m.isSome then 8 else 4, roles := [.ac], level := 0, feats := modeFeatures m }
/-- VCMP_LE_I16 (R251). -/
def formVcmpLeI16 (n : BitVec 1) (k : BitVec 3) (b : BitVec 5) (a : BitVec 5) (d : BitVec 5) (m : Option (BitVec 32)) : Form :=
  { bits := withModifier (encVcmpLeI16 n k b a d m) m, len := if m.isSome then 8 else 4, roles := [.ac], level := 0, feats := modeFeatures m }
/-- VSEL_I16 (R251). -/
def formVselI16 (n : BitVec 1) (k : BitVec 3) (b : BitVec 5) (a : BitVec 5) (d : BitVec 5) (m : Option (BitVec 32)) : Form :=
  { bits := withModifier (encVselI16 n k b a d m) m, len := if m.isSome then 8 else 4, roles := [.ac], level := 0, feats := modeFeatures m }
/-- VREDADD_I16 (R254). -/
def formVredaddI16 (n : BitVec 1) (k : BitVec 3) (a : BitVec 5) (d : BitVec 5) (m : Option (BitVec 32)) : Form :=
  { bits := withModifier (encVredaddI16 n k a d m) m, len := if m.isSome then 8 else 4, roles := [.ac], level := 0, feats := modeFeatures m }
/-- VREDMAX_I16 (R254). -/
def formVredmaxI16 (n : BitVec 1) (k : BitVec 3) (a : BitVec 5) (d : BitVec 5) (m : Option (BitVec 32)) : Form :=
  { bits := withModifier (encVredmaxI16 n k a d m) m, len := if m.isSome then 8 else 4, roles := [.ac], level := 0, feats := modeFeatures m }
/-- VSCAN_I16 (R255). -/
def formVscanI16 (n : BitVec 1) (k : BitVec 3) (a : BitVec 5) (d : BitVec 5) (m : Option (BitVec 32)) : Form :=
  { bits := withModifier (encVscanI16 n k a d m) m, len := if m.isSome then 8 else 4, roles := [.ac], level := 0, feats := modeFeatures m }
/-- VDOT_D_I16 (R253). -/
def formVdotDI16 (n : BitVec 1) (k : BitVec 3) (b : BitVec 5) (a : BitVec 5) (d : BitVec 5) (m : Option (BitVec 32)) : Form :=
  { bits := withModifier (encVdotDI16 n k b a d m) m, len := if m.isSome then 8 else 4, roles := [.ac], level := 0, feats := modeFeatures m }
/-- VADD_I8 (R251). -/
def formVaddI8 (n : BitVec 1) (k : BitVec 3) (b : BitVec 5) (a : BitVec 5) (d : BitVec 5) (m : Option (BitVec 32)) : Form :=
  { bits := withModifier (encVaddI8 n k b a d m) m, len := if m.isSome then 8 else 4, roles := [.ac], level := 0, feats := modeFeatures m }
/-- VSUB_I8 (R251). -/
def formVsubI8 (n : BitVec 1) (k : BitVec 3) (b : BitVec 5) (a : BitVec 5) (d : BitVec 5) (m : Option (BitVec 32)) : Form :=
  { bits := withModifier (encVsubI8 n k b a d m) m, len := if m.isSome then 8 else 4, roles := [.ac], level := 0, feats := modeFeatures m }
/-- VMUL_I8 (R251). -/
def formVmulI8 (n : BitVec 1) (k : BitVec 3) (b : BitVec 5) (a : BitVec 5) (d : BitVec 5) (m : Option (BitVec 32)) : Form :=
  { bits := withModifier (encVmulI8 n k b a d m) m, len := if m.isSome then 8 else 4, roles := [.ac], level := 0, feats := modeFeatures m }
/-- VMIN_I8 (R251). -/
def formVminI8 (n : BitVec 1) (k : BitVec 3) (b : BitVec 5) (a : BitVec 5) (d : BitVec 5) (m : Option (BitVec 32)) : Form :=
  { bits := withModifier (encVminI8 n k b a d m) m, len := if m.isSome then 8 else 4, roles := [.ac], level := 0, feats := modeFeatures m }
/-- VMAX_I8 (R251). -/
def formVmaxI8 (n : BitVec 1) (k : BitVec 3) (b : BitVec 5) (a : BitVec 5) (d : BitVec 5) (m : Option (BitVec 32)) : Form :=
  { bits := withModifier (encVmaxI8 n k b a d m) m, len := if m.isSome then 8 else 4, roles := [.ac], level := 0, feats := modeFeatures m }
/-- VAND_I8 (R251). -/
def formVandI8 (n : BitVec 1) (k : BitVec 3) (b : BitVec 5) (a : BitVec 5) (d : BitVec 5) (m : Option (BitVec 32)) : Form :=
  { bits := withModifier (encVandI8 n k b a d m) m, len := if m.isSome then 8 else 4, roles := [.ac], level := 0, feats := modeFeatures m }
/-- VOR_I8 (R251). -/
def formVorI8 (n : BitVec 1) (k : BitVec 3) (b : BitVec 5) (a : BitVec 5) (d : BitVec 5) (m : Option (BitVec 32)) : Form :=
  { bits := withModifier (encVorI8 n k b a d m) m, len := if m.isSome then 8 else 4, roles := [.ac], level := 0, feats := modeFeatures m }
/-- VXOR_I8 (R251). -/
def formVxorI8 (n : BitVec 1) (k : BitVec 3) (b : BitVec 5) (a : BitVec 5) (d : BitVec 5) (m : Option (BitVec 32)) : Form :=
  { bits := withModifier (encVxorI8 n k b a d m) m, len := if m.isSome then 8 else 4, roles := [.ac], level := 0, feats := modeFeatures m }
/-- VSHL_I8 (R252). -/
def formVshlI8 (n : BitVec 1) (k : BitVec 3) (b : BitVec 5) (a : BitVec 5) (d : BitVec 5) (m : Option (BitVec 32)) : Form :=
  { bits := withModifier (encVshlI8 n k b a d m) m, len := if m.isSome then 8 else 4, roles := [.ac], level := 0, feats := modeFeatures m }
/-- VSHR_I8 (R252). -/
def formVshrI8 (n : BitVec 1) (k : BitVec 3) (b : BitVec 5) (a : BitVec 5) (d : BitVec 5) (m : Option (BitVec 32)) : Form :=
  { bits := withModifier (encVshrI8 n k b a d m) m, len := if m.isSome then 8 else 4, roles := [.ac], level := 0, feats := modeFeatures m }
/-- VSHA_I8 (R252). -/
def formVshaI8 (n : BitVec 1) (k : BitVec 3) (b : BitVec 5) (a : BitVec 5) (d : BitVec 5) (m : Option (BitVec 32)) : Form :=
  { bits := withModifier (encVshaI8 n k b a d m) m, len := if m.isSome then 8 else 4, roles := [.ac], level := 0, feats := modeFeatures m }
/-- VCMP_EQ_I8 (R251). -/
def formVcmpEqI8 (n : BitVec 1) (k : BitVec 3) (b : BitVec 5) (a : BitVec 5) (d : BitVec 5) (m : Option (BitVec 32)) : Form :=
  { bits := withModifier (encVcmpEqI8 n k b a d m) m, len := if m.isSome then 8 else 4, roles := [.ac], level := 0, feats := modeFeatures m }
/-- VCMP_NE_I8 (R251). -/
def formVcmpNeI8 (n : BitVec 1) (k : BitVec 3) (b : BitVec 5) (a : BitVec 5) (d : BitVec 5) (m : Option (BitVec 32)) : Form :=
  { bits := withModifier (encVcmpNeI8 n k b a d m) m, len := if m.isSome then 8 else 4, roles := [.ac], level := 0, feats := modeFeatures m }
/-- VCMP_LT_I8 (R251). -/
def formVcmpLtI8 (n : BitVec 1) (k : BitVec 3) (b : BitVec 5) (a : BitVec 5) (d : BitVec 5) (m : Option (BitVec 32)) : Form :=
  { bits := withModifier (encVcmpLtI8 n k b a d m) m, len := if m.isSome then 8 else 4, roles := [.ac], level := 0, feats := modeFeatures m }
/-- VCMP_LE_I8 (R251). -/
def formVcmpLeI8 (n : BitVec 1) (k : BitVec 3) (b : BitVec 5) (a : BitVec 5) (d : BitVec 5) (m : Option (BitVec 32)) : Form :=
  { bits := withModifier (encVcmpLeI8 n k b a d m) m, len := if m.isSome then 8 else 4, roles := [.ac], level := 0, feats := modeFeatures m }
/-- VSEL_I8 (R251). -/
def formVselI8 (n : BitVec 1) (k : BitVec 3) (b : BitVec 5) (a : BitVec 5) (d : BitVec 5) (m : Option (BitVec 32)) : Form :=
  { bits := withModifier (encVselI8 n k b a d m) m, len := if m.isSome then 8 else 4, roles := [.ac], level := 0, feats := modeFeatures m }
/-- VREDADD_I8 (R254). -/
def formVredaddI8 (n : BitVec 1) (k : BitVec 3) (a : BitVec 5) (d : BitVec 5) (m : Option (BitVec 32)) : Form :=
  { bits := withModifier (encVredaddI8 n k a d m) m, len := if m.isSome then 8 else 4, roles := [.ac], level := 0, feats := modeFeatures m }
/-- VREDMAX_I8 (R254). -/
def formVredmaxI8 (n : BitVec 1) (k : BitVec 3) (a : BitVec 5) (d : BitVec 5) (m : Option (BitVec 32)) : Form :=
  { bits := withModifier (encVredmaxI8 n k a d m) m, len := if m.isSome then 8 else 4, roles := [.ac], level := 0, feats := modeFeatures m }
/-- VSCAN_I8 (R255). -/
def formVscanI8 (n : BitVec 1) (k : BitVec 3) (a : BitVec 5) (d : BitVec 5) (m : Option (BitVec 32)) : Form :=
  { bits := withModifier (encVscanI8 n k a d m) m, len := if m.isSome then 8 else 4, roles := [.ac], level := 0, feats := modeFeatures m }
/-- VDOT_D_I8 (R253). -/
def formVdotDI8 (n : BitVec 1) (k : BitVec 3) (b : BitVec 5) (a : BitVec 5) (d : BitVec 5) (m : Option (BitVec 32)) : Form :=
  { bits := withModifier (encVdotDI8 n k b a d m) m, len := if m.isSome then 8 else 4, roles := [.ac], level := 0, feats := modeFeatures m }
/-- VPERM (R257). -/
def formVperm (w : BitVec 2) (k : BitVec 3) (b : BitVec 5) (a : BitVec 5) (d : BitVec 5) : Form :=
  { bits := (encVperm w k b a d).setWidth 64, len := 4, roles := [.ac], level := 0, feats := [] }
/-- VBCAST_S (R257). -/
def formVbcastS (w : BitVec 2) (k : BitVec 3) (a : BitVec 5) (d : BitVec 5) : Form :=
  { bits := (encVbcastS w k a d).setWidth 64, len := 4, roles := [.ac], level := 0, feats := [] }
/-- VCOMPRESS (R258). -/
def formVcompress (w : BitVec 2) (k : BitVec 3) (b : BitVec 5) (a : BitVec 5) (d : BitVec 5) : Form :=
  { bits := (encVcompress w k b a d).setWidth 64, len := 4, roles := [.ac], level := 0, feats := [] }
/-- VEXPAND (R258). -/
def formVexpand (w : BitVec 2) (k : BitVec 3) (b : BitVec 5) (a : BitVec 5) (d : BitVec 5) : Form :=
  { bits := (encVexpand w k b a d).setWidth 64, len := 4, roles := [.ac], level := 0, feats := [] }
/-- VMOVS_TO_SCALAR (R259). -/
def formVmovsToScalar (w : BitVec 2) (b : BitVec 5) (a : BitVec 5) (d : BitVec 5) : Form :=
  { bits := (encVmovsToScalar w b a d).setWidth 64, len := 4, roles := [.ac], level := 0, feats := [] }
/-- VMOVS_TO_VECTOR (R259). -/
def formVmovsToVector (w : BitVec 2) (b : BitVec 5) (a : BitVec 5) (d : BitVec 5) : Form :=
  { bits := (encVmovsToVector w b a d).setWidth 64, len := 4, roles := [.ac], level := 0, feats := [] }
/-- VEXT (R257). -/
def formVext (w : BitVec 2) (k : BitVec 3) (b : BitVec 5) (a : BitVec 5) (d : BitVec 5) : Form :=
  { bits := (encVext w k b a d).setWidth 64, len := 4, roles := [.ac], level := 0, feats := [] }
/-- VBCAST_V (R257). -/
def formVbcastV (w : BitVec 2) (k : BitVec 3) (b : BitVec 5) (a : BitVec 5) (d : BitVec 5) : Form :=
  { bits := (encVbcastV w k b a d).setWidth 64, len := 4, roles := [.ac], level := 0, feats := [] }
/-- VMOV (R257). -/
def formVmov (w : BitVec 2) (k : BitVec 3) (a : BitVec 5) (d : BitVec 5) : Form :=
  { bits := (encVmov w k a d).setWidth 64, len := 4, roles := [.ac], level := 0, feats := [] }
/-- VPOP (R260). -/
def formVpop (w : BitVec 2) (k : BitVec 3) (a : BitVec 5) (d : BitVec 5) : Form :=
  { bits := (encVpop w k a d).setWidth 64, len := 4, roles := both [.ac] (readers a.toNat), level := 0, feats := [] }
/-- VPUSH (R260). -/
def formVpush (w : BitVec 2) (k : BitVec 3) (a : BitVec 5) (d : BitVec 5) : Form :=
  { bits := (encVpush w k a d).setWidth 64, len := 4, roles := both [.ac] (writers d.toNat), level := 0, feats := [] }
/-- KSET (R262). -/
def formKset (a : BitVec 5) (d : BitVec 5) : Form :=
  { bits := (encKset a d).setWidth 64, len := 4, roles := [.ac], level := 0, feats := [] }
/-- KFIRST (R262). -/
def formKfirst (w : BitVec 2) (k : BitVec 3) (a : BitVec 5) (d : BitVec 5) : Form :=
  { bits := (encKfirst w k a d).setWidth 64, len := 4, roles := [.ac], level := 0, feats := [] }
/-- KMIN (R262). -/
def formKmin (b : BitVec 5) (a : BitVec 5) (d : BitVec 5) : Form :=
  { bits := (encKmin b a d).setWidth 64, len := 4, roles := [.ac], level := 0, feats := [] }
/-- KPOP (R263). -/
def formKpop (w : BitVec 2) (b : BitVec 5) (a : BitVec 5) (d : BitVec 5) : Form :=
  { bits := (encKpop w b a d).setWidth 64, len := 4, roles := both [.ac] (readers a.toNat), level := 0, feats := [] }
/-- GANG (R267). -/
def formGang (a : BitVec 5) (d : BitVec 5) : Form :=
  { bits := (encGang a d).setWidth 64, len := 4, roles := [.ac], level := 0, feats := [3] }
/-- GJOIN (R266). -/
def formGjoin (a : BitVec 5) : Form :=
  { bits := (encGjoin a).setWidth 64, len := 4, roles := [.ac], level := 0, feats := [3] }
/-- GDISBAND (R268). -/
def formGdisband : Form :=
  { bits := (encGdisband).setWidth 64, len := 4, roles := [.ac], level := 0, feats := [3] }
/-- CVT (R279). -/
def formCvt (t : BitVec 4) (s : BitVec 4) (a : BitVec 5) (d : BitVec 5) (m : Option (BitVec 32)) : Form :=
  { bits := withModifier (encCvt t s a d m) m, len := if m.isSome then 8 else 4, roles := both (both [.fc] (readers a.toNat)) (writers d.toNat), level := 0, feats := typeFeatures t ++ typeFeatures s ++ modeFeatures m }
/-- FQMV (R278). -/
def formFqmv (n : BitVec 5) (a : BitVec 5) (d : BitVec 5) (m : Option (BitVec 32)) : Form :=
  { bits := withModifier (encFqmv n a d m) m, len := if m.isSome then 8 else 4, roles := both (both [.fc] (readers a.toNat)) (writers d.toNat), level := 0, feats := modeFeatures m }
/-- UNPACK_CE8 (R282). -/
def formUnpackCe8 (t : BitVec 4) (b : BitVec 5) (a : BitVec 5) (d : BitVec 5) : Form :=
  { bits := (encUnpackCe8 t b a d).setWidth 64, len := 4, roles := both (both [.fc] (readers a.toNat)) (writers d.toNat), level := 0, feats := 1 :: typeFeatures t }
/-- PACK_CE8 (R283). -/
def formPackCe8 (f : BitVec 1) (b : BitVec 5) (a : BitVec 5) (d : BitVec 5) : Form :=
  { bits := (encPackCe8 f b a d).setWidth 64, len := 4, roles := both (both [.fc] (readers a.toNat)) (writers b.toNat), level := 0, feats := [1] }
/-- MXS (R284). -/
def formMxs (t : BitVec 4) (x : BitVec 2) (a : BitVec 5) (d : BitVec 5) : Form :=
  { bits := (encMxs t x a d).setWidth 64, len := 4, roles := both [.fc] (readers a.toNat), level := 0, feats := 6 :: typeFeatures t }
/-- MXQ (R284). -/
def formMxq (t : BitVec 4) (x : BitVec 2) (b : BitVec 5) (a : BitVec 5) (d : BitVec 5) : Form :=
  { bits := (encMxq t x b a d).setWidth 64, len := 4, roles := both (both [.fc] (readers a.toNat)) (writers b.toNat), level := 0, feats := 6 :: typeFeatures t }
/-- MXD (R285). -/
def formMxd (t : BitVec 4) (x : BitVec 2) (b : BitVec 5) (a : BitVec 5) (d : BitVec 5) : Form :=
  { bits := (encMxd t x b a d).setWidth 64, len := 4, roles := both (both [.fc] (readers a.toNat)) (writers d.toNat), level := 0, feats := 6 :: typeFeatures t }
/-- MMA (R302). -/
def formMma (m : BitVec 3) (t : BitVec 4) (s : BitVec 5) (b : BitVec 3) (a : BitVec 3) (c : BitVec 2) : Form :=
  { bits := (encMma m t s b a c).setWidth 64, len := 4, roles := [.ac], level := 0, feats := [] }
/-- GISSUE (R303). -/
def formGissue (m : BitVec 3) (t : BitVec 4) (s : BitVec 5) (b : BitVec 3) (a : BitVec 3) (c : BitVec 2) : Form :=
  { bits := (encGissue m t s b a c).setWidth 64, len := 4, roles := [.ac], level := 0, feats := [3] }
/-- MZERO (R305). -/
def formMzero (c : BitVec 2) : Form :=
  { bits := (encMzero c).setWidth 64, len := 4, roles := [.ac], level := 0, feats := [] }
/-- MROW (R305). -/
def formMrow (v : BitVec 5) (h : BitVec 1) (r : BitVec 5) (c : BitVec 2) : Form :=
  { bits := (encMrow v h r c).setWidth 64, len := 4, roles := [.ac], level := 0, feats := [] }
/-- MDRAIN (R307). -/
def formMdrain (m : BitVec 3) (t : BitVec 4) (a : BitVec 5) (c : BitVec 2) : Form :=
  { bits := (encMdrain m t a c).setWidth 64, len := 4, roles := [.ac], level := 0, feats := [] }
/-- MDRAINADD (R308). -/
def formMdrainadd (m : BitVec 3) (t : BitVec 4) (a : BitVec 5) (c : BitVec 2) : Form :=
  { bits := (encMdrainadd m t a c).setWidth 64, len := 4, roles := [.ac], level := 0, feats := [] }
/-- RINGCFG (R292). -/
def formRingcfg (n : BitVec 3) (a : BitVec 5) : Form :=
  { bits := (encRingcfg n a).setWidth 64, len := 4, roles := [.mc], level := 0, feats := [] }
/-- RINGPUSH_M (R293). -/
def formRingpushM (n : BitVec 3) (b : BitVec 5) (a : BitVec 5) (d : BitVec 5) : Form :=
  { bits := (encRingpushM n b a d).setWidth 64, len := 4, roles := [.mc], level := 0, feats := [] }
/-- RINGPUSH_Q (R293). -/
def formRingpushQ (n : BitVec 3) (b : BitVec 5) (a : BitVec 5) : Form :=
  { bits := (encRingpushQ n b a).setWidth 64, len := 4, roles := both [.fc] (readers a.toNat), level := 0, feats := [] }
/-- TSRW (R314). -/
def formTsrw (g : BitVec 4) (b : BitVec 5) (a : BitVec 5) (d : BitVec 5) : Form :=
  { bits := (encTsrw g b a d).setWidth 64, len := 4, roles := [.mc], level := 0, feats := [] }
/-- TSRINV (R314). -/
def formTsrinv (b : BitVec 5) : Form :=
  { bits := (encTsrinv b).setWidth 64, len := 4, roles := [.mc], level := 0, feats := [] }
/-- BCOPY (R318). -/
def formBcopy (d : BitVec 5) : Form :=
  { bits := (encBcopy d).setWidth 64, len := 4, roles := [.mc], level := 0, feats := [] }
/-- BCOPY_RING (R319). -/
def formBcopyRing (q : BitVec 6) (d : BitVec 5) : Form :=
  { bits := (encBcopyRing q d).setWidth 64, len := 4, roles := [.mc], level := 0, feats := [] }
/-- BGATHER (R320). -/
def formBgather (d : BitVec 5) : Form :=
  { bits := (encBgather d).setWidth 64, len := 4, roles := [.mc], level := 0, feats := [] }
/-- BGATHER_RING (R320). -/
def formBgatherRing (q : BitVec 6) (d : BitVec 5) : Form :=
  { bits := (encBgatherRing q d).setWidth 64, len := 4, roles := [.mc], level := 0, feats := [] }
/-- BSCATTER (R320). -/
def formBscatter (d : BitVec 5) : Form :=
  { bits := (encBscatter d).setWidth 64, len := 4, roles := [.mc], level := 0, feats := [] }
/-- BSTAT (R321). -/
def formBstat (d : BitVec 5) : Form :=
  { bits := (encBstat d).setWidth 64, len := 4, roles := [.mc], level := 0, feats := [] }
/-- FENCE (R344). -/
def formFence (s : BitVec 2) (e : BitVec 1) : Form :=
  { bits := (encFence s e).setWidth 64, len := 4, roles := everyRole, level := 0, feats := [] }
/-- ACKW (R345). -/
def formAckw (s : BitVec 2) (a : BitVec 5) (d : BitVec 5) : Form :=
  { bits := (encAckw s a d).setWidth 64, len := 4, roles := everyRole, level := 0, feats := [] }
/-- ST_REL (R347). -/
def formStRel (g : BitVec 4) (s : BitVec 2) (o : BitVec 7) (a : BitVec 5) (d : BitVec 5) : Form :=
  { bits := (encStRel g s o a d).setWidth 64, len := 4, roles := [.mc], level := 0, feats := [] }
/-- LD_ACQ (R348). -/
def formLdAcq (g : BitVec 4) (s : BitVec 2) (o : BitVec 7) (a : BitVec 5) (d : BitVec 5) : Form :=
  { bits := (encLdAcq g s o a d).setWidth 64, len := 4, roles := [.mc], level := 0, feats := [] }
/-- AMO_ADD (R373). -/
def formAmoAdd (g : BitVec 4) (w : BitVec 1) (b : BitVec 5) (a : BitVec 5) (d : BitVec 5) : Form :=
  { bits := (encAmoAdd g w b a d).setWidth 64, len := 4, roles := [.mc], level := 0, feats := [] }
/-- AMO_AND (R373). -/
def formAmoAnd (g : BitVec 4) (w : BitVec 1) (b : BitVec 5) (a : BitVec 5) (d : BitVec 5) : Form :=
  { bits := (encAmoAnd g w b a d).setWidth 64, len := 4, roles := [.mc], level := 0, feats := [] }
/-- AMO_OR (R373). -/
def formAmoOr (g : BitVec 4) (w : BitVec 1) (b : BitVec 5) (a : BitVec 5) (d : BitVec 5) : Form :=
  { bits := (encAmoOr g w b a d).setWidth 64, len := 4, roles := [.mc], level := 0, feats := [] }
/-- AMO_XOR (R373). -/
def formAmoXor (g : BitVec 4) (w : BitVec 1) (b : BitVec 5) (a : BitVec 5) (d : BitVec 5) : Form :=
  { bits := (encAmoXor g w b a d).setWidth 64, len := 4, roles := [.mc], level := 0, feats := [] }
/-- AMO_MIN (R373). -/
def formAmoMin (g : BitVec 4) (w : BitVec 1) (b : BitVec 5) (a : BitVec 5) (d : BitVec 5) : Form :=
  { bits := (encAmoMin g w b a d).setWidth 64, len := 4, roles := [.mc], level := 0, feats := [] }
/-- AMO_MAX (R373). -/
def formAmoMax (g : BitVec 4) (w : BitVec 1) (b : BitVec 5) (a : BitVec 5) (d : BitVec 5) : Form :=
  { bits := (encAmoMax g w b a d).setWidth 64, len := 4, roles := [.mc], level := 0, feats := [] }
/-- AMO_MINN (R373). -/
def formAmoMinn (g : BitVec 4) (w : BitVec 1) (b : BitVec 5) (a : BitVec 5) (d : BitVec 5) : Form :=
  { bits := (encAmoMinn g w b a d).setWidth 64, len := 4, roles := [.mc], level := 0, feats := [] }
/-- AMO_MAXN (R373). -/
def formAmoMaxn (g : BitVec 4) (w : BitVec 1) (b : BitVec 5) (a : BitVec 5) (d : BitVec 5) : Form :=
  { bits := (encAmoMaxn g w b a d).setWidth 64, len := 4, roles := [.mc], level := 0, feats := [] }
/-- AMO_SWAP (R373). -/
def formAmoSwap (g : BitVec 4) (w : BitVec 1) (b : BitVec 5) (a : BitVec 5) (d : BitVec 5) : Form :=
  { bits := (encAmoSwap g w b a d).setWidth 64, len := 4, roles := [.mc], level := 0, feats := [] }
/-- AMO_CAS (R373). -/
def formAmoCas (g : BitVec 4) (w : BitVec 1) (b : BitVec 5) (a : BitVec 5) (d : BitVec 5) : Form :=
  { bits := (encAmoCas g w b a d).setWidth 64, len := 4, roles := [.mc], level := 0, feats := [] }
/-- RED_INTEGER (R373). -/
def formRedInteger (o : BitVec 3) (g : BitVec 4) (w : BitVec 1) (b : BitVec 5) (a : BitVec 5) : Form :=
  { bits := (encRedInteger o g w b a).setWidth 64, len := 4, roles := [.mc], level := 0, feats := [] }
/-- FAMO_ADD (R374). -/
def formFamoAdd (g : BitVec 4) (t : BitVec 1) (b : BitVec 5) (a : BitVec 5) (d : BitVec 5) : Form :=
  { bits := (encFamoAdd g t b a d).setWidth 64, len := 4, roles := [.mc], level := 0, feats := [] }
/-- FAMO_MIN (R374). -/
def formFamoMin (g : BitVec 4) (t : BitVec 1) (b : BitVec 5) (a : BitVec 5) (d : BitVec 5) : Form :=
  { bits := (encFamoMin g t b a d).setWidth 64, len := 4, roles := [.mc], level := 0, feats := [] }
/-- FAMO_MAX (R374). -/
def formFamoMax (g : BitVec 4) (t : BitVec 1) (b : BitVec 5) (a : BitVec 5) (d : BitVec 5) : Form :=
  { bits := (encFamoMax g t b a d).setWidth 64, len := 4, roles := [.mc], level := 0, feats := [] }
/-- RED_FLOAT (R374). -/
def formRedFloat (o : BitVec 2) (g : BitVec 4) (t : BitVec 1) (b : BitVec 5) (a : BitVec 5) : Form :=
  { bits := (encRedFloat o g t b a).setWidth 64, len := 4, roles := [.mc], level := 0, feats := [] }
/-- BFINS (R375). -/
def formBfins (g : BitVec 4) (b : BitVec 5) (a : BitVec 5) (d : BitVec 5) : Form :=
  { bits := (encBfins g b a d).setWidth 64, len := 4, roles := [.mc], level := 0, feats := [] }
/-- BFFCS (R375). -/
def formBffcs (g : BitVec 4) (b : BitVec 5) (a : BitVec 5) (d : BitVec 5) : Form :=
  { bits := (encBffcs g b a d).setWidth 64, len := 4, roles := [.mc], level := 0, feats := [] }
/-- BFPLS (R375). -/
def formBfpls (g : BitVec 4) (b : BitVec 5) (a : BitVec 5) (d : BitVec 5) : Form :=
  { bits := (encBfpls g b a d).setWidth 64, len := 4, roles := [.mc], level := 0, feats := [] }
/-- TKT_GET (R377). -/
def formTktGet (d : BitVec 5) : Form :=
  { bits := (encTktGet d).setWidth 64, len := 4, roles := tileRoles, level := 0, feats := [] }
/-- TKT_SCOPE (R378). -/
def formTktScope (a : BitVec 5) (d : BitVec 5) : Form :=
  { bits := (encTktScope a d).setWidth 64, len := 4, roles := tileRoles, level := 0, feats := [2] }
/-- TKT_VOID (R379). -/
def formTktVoid (a : BitVec 5) : Form :=
  { bits := (encTktVoid a).setWidth 64, len := 4, roles := tileRoles, level := 1, feats := [2] }
/-- BAR_INIT (R394). -/
def formBarInit (n : BitVec 7) (a : BitVec 5) : Form :=
  { bits := (encBarInit n a).setWidth 64, len := 4, roles := tileRoles, level := 0, feats := [] }
/-- BAR_ARR (R396). -/
def formBarArr (r : BitVec 2) (n : BitVec 7) (a : BitVec 5) (d : BitVec 5) : Form :=
  { bits := (encBarArr r n a d).setWidth 64, len := 4, roles := tileRoles, level := 0, feats := [] }
/-- BAR_WAIT (R397). -/
def formBarWait (r : BitVec 2) (n : BitVec 7) (a : BitVec 5) : Form :=
  { bits := (encBarWait r n a).setWidth 64, len := 4, roles := tileRoles, level := 0, feats := [] }
/-- BAR_EXP (R395). -/
def formBarExp (n : BitVec 7) (a : BitVec 5) : Form :=
  { bits := (encBarExp n a).setWidth 64, len := 4, roles := tileRoles, level := 0, feats := [] }
/-- GRP_JOIN (R399). -/
def formGrpJoin (a : BitVec 5) (d : BitVec 5) : Form :=
  { bits := (encGrpJoin a d).setWidth 64, len := 4, roles := tileRoles, level := 0, feats := [] }
/-- GRP_LEAVE (R399). -/
def formGrpLeave (a : BitVec 5) (d : BitVec 5) : Form :=
  { bits := (encGrpLeave a d).setWidth 64, len := 4, roles := tileRoles, level := 0, feats := [] }
/-- GRP_Q (R399). -/
def formGrpQ (a : BitVec 5) (d : BitVec 5) : Form :=
  { bits := (encGrpQ a d).setWidth 64, len := 4, roles := tileRoles, level := 0, feats := [] }
/-- SEM_INIT (R400). -/
def formSemInit (n : BitVec 4) (a : BitVec 5) : Form :=
  { bits := (encSemInit n a).setWidth 64, len := 4, roles := tileRoles, level := 0, feats := [] }
/-- SEM_POST (R400). -/
def formSemPost (n : BitVec 4) (a : BitVec 5) : Form :=
  { bits := (encSemPost n a).setWidth 64, len := 4, roles := tileRoles, level := 0, feats := [] }
/-- SEM_ARM (R400). -/
def formSemArm (n : BitVec 4) (a : BitVec 5) : Form :=
  { bits := (encSemArm n a).setWidth 64, len := 4, roles := tileRoles, level := 0, feats := [] }
/-- RND_CLOSE (R461). -/
def formRndClose : Form :=
  { bits := (encRndClose).setWidth 64, len := 4, roles := tileRoles, level := 0, feats := [2] }
/-- RND_Q (R462). -/
def formRndQ (d : BitVec 5) : Form :=
  { bits := (encRndQ d).setWidth 64, len := 4, roles := tileRoles, level := 0, feats := [] }
/-- LMAP (R441). -/
def formLmap (a : BitVec 5) (d : BitVec 5) : Form :=
  { bits := (encLmap a d).setWidth 64, len := 4, roles := tileRoles, level := 1, feats := [] }
/-- FOLD_Q (R442). -/
def formFoldQ (b : BitVec 5) (a : BitVec 5) (d : BitVec 5) : Form :=
  { bits := (encFoldQ b a d).setWidth 64, len := 4, roles := tileRoles, level := 1, feats := [] }
/-- COMPACT_ADD (R58). -/
def formCompactAdd (s : BitVec 5) (d : BitVec 5) : Form :=
  { bits := (encCompactAdd s d).setWidth 64, len := 2, roles := everyRole, level := 0, feats := [] }
/-- COMPACT_SUB (R58). -/
def formCompactSub (s : BitVec 5) (d : BitVec 5) : Form :=
  { bits := (encCompactSub s d).setWidth 64, len := 2, roles := everyRole, level := 0, feats := [] }
/-- COMPACT_AND (R58). -/
def formCompactAnd (s : BitVec 5) (d : BitVec 5) : Form :=
  { bits := (encCompactAnd s d).setWidth 64, len := 2, roles := everyRole, level := 0, feats := [] }
/-- COMPACT_OR (R58). -/
def formCompactOr (s : BitVec 5) (d : BitVec 5) : Form :=
  { bits := (encCompactOr s d).setWidth 64, len := 2, roles := everyRole, level := 0, feats := [] }
/-- COMPACT_MOVE (R58). -/
def formCompactMove (s : BitVec 5) (d : BitVec 5) : Form :=
  { bits := (encCompactMove s d).setWidth 64, len := 2, roles := everyRole, level := 0, feats := [] }
/-- COMPACT_XOR (R58). -/
def formCompactXor (s : BitVec 5) (d : BitVec 5) : Form :=
  { bits := (encCompactXor s d).setWidth 64, len := 2, roles := everyRole, level := 0, feats := [] }
/-- COMPACT_ADDI (R58). -/
def formCompactAddi (i : BitVec 5) (d : BitVec 5) : Form :=
  { bits := (encCompactAddi i d).setWidth 64, len := 2, roles := everyRole, level := 0, feats := [] }
/-- COMPACT_MOVI (R58). -/
def formCompactMovi (i : BitVec 5) (d : BitVec 5) : Form :=
  { bits := (encCompactMovi i d).setWidth 64, len := 2, roles := everyRole, level := 0, feats := [] }
/-- COMPACT_SHLI (R58). -/
def formCompactShli (u : BitVec 5) (d : BitVec 5) : Form :=
  { bits := (encCompactShli u d).setWidth 64, len := 2, roles := everyRole, level := 0, feats := [] }
/-- COMPACT_SHRI (R58). -/
def formCompactShri (u : BitVec 5) (d : BitVec 5) : Form :=
  { bits := (encCompactShri u d).setWidth 64, len := 2, roles := everyRole, level := 0, feats := [] }
/-- COMPACT_SHAI (R58). -/
def formCompactShai (u : BitVec 5) (d : BitVec 5) : Form :=
  { bits := (encCompactShai u d).setWidth 64, len := 2, roles := everyRole, level := 0, feats := [] }
/-- COMPACT_ANDI (R58). -/
def formCompactAndi (i : BitVec 5) (d : BitVec 5) : Form :=
  { bits := (encCompactAndi i d).setWidth 64, len := 2, roles := everyRole, level := 0, feats := [] }
/-- COMPACT_SLT (R58). -/
def formCompactSlt (s : BitVec 5) (d : BitVec 5) : Form :=
  { bits := (encCompactSlt s d).setWidth 64, len := 2, roles := everyRole, level := 0, feats := [] }
/-- COMPACT_SEQ (R58). -/
def formCompactSeq (s : BitVec 5) (d : BitVec 5) : Form :=
  { bits := (encCompactSeq s d).setWidth 64, len := 2, roles := everyRole, level := 0, feats := [] }
/-- COMPACT_MUL (R58). -/
def formCompactMul (s : BitVec 5) (d : BitVec 5) : Form :=
  { bits := (encCompactMul s d).setWidth 64, len := 2, roles := everyRole, level := 0, feats := [] }
/-- COMPACT_LD_D (R58). -/
def formCompactLdD (s : BitVec 5) (d : BitVec 5) : Form :=
  { bits := (encCompactLdD s d).setWidth 64, len := 2, roles := [.mc], level := 0, feats := [] }
/-- COMPACT_ST_D (R58). -/
def formCompactStD (s : BitVec 5) (d : BitVec 5) : Form :=
  { bits := (encCompactStD s d).setWidth 64, len := 2, roles := [.mc], level := 0, feats := [] }
/-- COMPACT_BEQ (R58). -/
def formCompactBeq (o : BitVec 5) (d : BitVec 5) : Form :=
  { bits := (encCompactBeq o d).setWidth 64, len := 2, roles := everyRole, level := 0, feats := [] }
/-- COMPACT_BNE (R58). -/
def formCompactBne (o : BitVec 5) (d : BitVec 5) : Form :=
  { bits := (encCompactBne o d).setWidth 64, len := 2, roles := everyRole, level := 0, feats := [] }
/-- COMPACT_NOP (R59). -/
def formCompactNop : Form :=
  { bits := (encCompactNop).setWidth 64, len := 2, roles := everyRole, level := 0, feats := [] }
/-- COMPACT_BRK (R59). -/
def formCompactBrk : Form :=
  { bits := (encCompactBrk).setWidth 64, len := 2, roles := everyRole, level := 0, feats := [] }
/-- COMPACT_END (R59). -/
def formCompactEnd : Form :=
  { bits := (encCompactEnd).setWidth 64, len := 2, roles := tileRoles, level := 0, feats := [] }

end Sys2Proof.Machine
end

