-- ==== Sys2Proof/Machine/Flash.lean ====
section
/-! DEFINITION. The slots of a die's retirement log in its steward's flash: 64 bytes each, with the layout and the checksum of 18 Table 18.2. -/

namespace Sys2Proof.Machine

/-- The fields of a retirement record (18 Table 18.2). -/
structure LogRecord where
  /-- 1 tile dead, 2 zone dead, 3 link dead, 4 seal, 5 bank commit. -/
  kind : Nat
  index : Nat
  cause : Nat
  attempt : Nat
  seq : Nat
  die : Nat
  deriving DecidableEq, Repr

/-- An erased slot: flash that reads 0xFF throughout (18 R493). -/
def erasedSlot : Line := BitVec.allOnes 512

/-- A word of a slot. -/
def slotWord (l : Line) (n : Nat) : Word := l.extractLsb' (64 * n) 64

/-- One bit through CRC-32C (Castagnoli), low bit first. -/
def crcBit (c : BitVec 32) : BitVec 32 := if c.getLsbD 0 then (c >>> 1) ^^^ 0x82F63B78 else c >>> 1

/-- One byte through CRC-32C. -/
def crcByte (c : BitVec 32) (b : Byte) : BitVec 32 := crcBit (crcBit (crcBit (crcBit (crcBit (crcBit (crcBit (crcBit (c ^^^ b.setWidth 32))))))))

/-- CRC-32C of a byte string. PRESUMED, log entry 20: the manual names the polynomial; initial value and final complement are those of the standard. -/
def crc32c (bs : List Byte) : BitVec 32 := ~~~(bs.foldl crcByte 0xFFFFFFFF)

/-- The checksum of a slot: of its bytes 0 to 59 (18 Table 18.2). -/
def slotCrc (l : Line) : BitVec 32 := crc32c ((List.range 60).map fun i => l.extractLsb' (8 * i) 8)

/-- The slot of a record (18 Table 18.2). -/
def LogRecord.slot (r : LogRecord) : Line :=
  let l : Line := BitVec.ofNat 512 (r.seq % 2 ^ 32 + r.kind % 256 * 2 ^ 32 + r.die % 256 * 2 ^ 40 +
    (r.index % 2 ^ 16 + r.cause % 2 ^ 16 * 2 ^ 16 + r.attempt % 2 ^ 32 * 2 ^ 32) * 2 ^ 64)
  l ||| ((slotCrc l).setWidth 512 <<< 480)

/-- The record of a slot, its checksum apart. -/
def slotRecord (l : Line) : LogRecord :=
  { seq := ((slotWord l 0).extractLsb' 0 32).toNat, kind := ((slotWord l 0).extractLsb' 32 8).toNat, die := ((slotWord l 0).extractLsb' 40 8).toNat,
    index := ((slotWord l 1).extractLsb' 0 16).toNat, cause := ((slotWord l 1).extractLsb' 16 16).toNat, attempt := ((slotWord l 1).extractLsb' 32 32).toNat }

/-- The number of indexes of a kind: tiles, quadrants, links of a die, slots of a bank, 1 (18 Table 18.2). -/
def kindRange : Nat → Nat
  | 1 => 768
  | 2 => 4
  | 3 => 3072
  | 4 => 2048
  | 5 => 1
  | _ => 0

/-- Whether every field keeps to Table 18.2. -/
def LogRecord.fits (r : LogRecord) : Bool :=
  decide (1 ≤ r.seq) && decide (r.die < 52) && decide (r.index < kindRange r.kind) &&
  (if r.kind ≤ 3 then decide (1 ≤ r.cause ∧ r.cause ≤ 4) else decide (r.cause = 0))

/-- The valid record of a slot (18 R494): its checksum matches and every field keeps to Table 18.2. -/
def validRecord (l : Line) : Option LogRecord :=
  let r := slotRecord l
  if (slotWord l 7).extractLsb' 32 32 = slotCrc l ∧ (slotWord l 0).extractLsb' 48 16 = 0 ∧ l.extractLsb' 128 352 = 0 ∧ r.fits then some r else none

/-- A slot that is neither empty nor a valid record (18 R495). -/
def isTorn (l : Line) : Bool := decide (l ≠ erasedSlot) && (validRecord l).isNone

/-- A bank up to its highest non-empty slot. -/
def trimBank (b : List Line) : List Line := (b.reverse.dropWhile fun l => decide (l = erasedSlot)).reverse

/-- Writes a slot into the first empty slot after the highest non-empty one (18 R494). -/
def appendSlot (b : List Line) (l : Line) : List Line := trimBank b ++ [l]

/-- The slots of a bank that a seal names (18 R495). -/
def sealedSlots (b : List Line) : List Nat := (b.filterMap validRecord).filterMap fun r => if r.kind = 4 then some r.index else none

/-- The valid records of a bank, in the order of its slots: a sealed slot is never read again (18 R495). -/
def bankRecords (b : List Line) : List LogRecord := b.zipIdx.filterMap fun x => if (sealedSlots b).contains x.2 then none else validRecord x.1

end Sys2Proof.Machine
end

