-- ==== Sys2Proof/Machine/State.lean ====
section
/-! DEFINITION. The state of the device as plain data: everything the manual gives the machine, and the model's own bookkeeping fields, marked "model".
Each field's text gives its rule and its value at reset or, for state that a launch or an activation creates, at launch or activation.
Maps are association lists; an absent entry stands for the default record, whose values are those given here. -/

namespace Sys2Proof.Machine

/-- An association list. -/
abbrev Map (κ ν : Type) := List (κ × ν)

/-- A byte memory: pairs (address, byte) in rising address order, no byte equal to the 0 that an unlisted address reads as. -/
abbrev Memory := List Host.Cell

/-- Why a step may stop with a fault: never. The manual turns every error of a program into a trap, a denial or a retry, which are next states. -/
inductive Fault where
  deriving DecidableEq, Repr

/-- Why a step may be refused. -/
inductive Refusal where
  /-- An instruction without a meaning in this model; raised by Dispatch only. Safe. -/
  | notModelled (mnemonic : String)
  deriving DecidableEq, Repr

/-! ### Contexts -/

/-- The kinds of activation, coded 0 to 7 in tid (05 Table 5.1, Table 5.4). -/
inductive ActKind where
  | start
  | message
  | counter
  | join
  | spawn
  | roaming
  | upcall
  | notice
  deriving DecidableEq, Repr

/-- A key: launch, path (1 to 6 elements, its length the depth), sequence number (12 R350, R352). -/
structure Key where
  /-- Launch number (model): its scope and stream number give the first part of the key (12 R352, R358). -/
  l : Nat
  /-- Ticket path, 1 to 6 elements of 16 bits (12 R350). -/
  path : List (BitVec 16)
  /-- Sequence number, 32 bits: role in 31:30, number in 29:0 (12 R353). -/
  seq : BitVec 32
  deriving DecidableEq, Repr

/-- A trap bank: cause, epc, tval, plevel, tnest (14 R418, 04 Tables 4.2, 4.3). -/
structure Bank where
  /-- cw.cause.code, 8 bits (04 R116); 0 at activation. -/
  code : BitVec 8
  /-- cw.cause.async, 1 bit (04 R116); 0 at activation. -/
  async : Bool
  /-- cw.epc, 64 bits, bit 0 always 0 (04 R116); 0 at activation. -/
  epc : Word
  /-- cw.tval, 64 bits (04 R116); 0 at activation. -/
  tval : Word
  /-- cw.status.plevel, 2 bits (04 R115); 0 at activation. -/
  plevel : BitVec 2
  /-- cw.status.tnest, 1 bit (04 R115); 0 at activation. -/
  tnest : Bool
  deriving DecidableEq, Repr

/-- The loop state (04 R108, R135). -/
structure Loop where
  /-- The loop is active (04 R135). -/
  active : Bool
  /-- Address of the first unit of the body, 64 bits (04 R135). -/
  start : Word
  /-- Address after the body, 64 bits (04 R135). -/
  stop : Word
  /-- Iterations left, 64 bits (04 R135). -/
  count : Word
  deriving DecidableEq, Repr

/-- A segment register: base and limit word (07 R213, Table 7.3). -/
structure Seg where
  /-- Base, 64 bits (07 R213); the launch binding at activation, else 0. -/
  base : Word
  /-- Limit word, 64 bits (07 Table 7.3); the launch binding at activation, else 0. -/
  limit : Word
  deriving DecidableEq, Repr

/-- The message an activation holds: receive end and message number (06 R185). -/
structure MsgRef where
  ch : Nat
  id : Nat
  deriving DecidableEq, Repr

/-- The running task of a context (05 R139, R141, R142). -/
structure Task where
  /-- Activation number (model): distinct for every activation. -/
  uid : Nat
  /-- Kind of activation, coded in 3 bits of tid (05 Table 5.4). -/
  kind : ActKind
  /-- Class, 0 to 63 (05 R145). -/
  cls : Nat
  /-- The firing entry of a counter or join activation, else 0xFF (05 Table 5.4). -/
  entry : BitVec 8
  /-- Its tile task; none in a kernel-notice context (05 R142, 14 R421). -/
  tt : Option TTId
  /-- The key of the activation (05 R154). -/
  key : Key
  /-- The activating message, while the task's kind is message (06 R185, R201). -/
  msg : Option MsgRef
  /-- Header word of the activating message (06 R177). -/
  hdr : Word
  /-- The sender's tile of the activating message (05 Table 5.1). -/
  sender : TileId
  /-- Profile mask in force since the activation (02 R64). -/
  prof : BitVec 8
  deriving DecidableEq, Repr

/-- The waits of 05 R151 on queues, with the entries or the room that the unit lacks; the wait of ldsync is a unit in progress (07 R227). -/
inductive Wait where
  | emptyQueue (q n : Nat)
  | fullQueue (q n : Nat)
  /-- A conversion unit: n entries of q and room for m entries of p (09 R273). -/
  | convert (q n p m : Nat)
  deriving DecidableEq, Repr

/-- A waiting-task entry (05 R146). -/
structure WEntry where
  /-- 32-bit counter (05 R146); 0 at launch. -/
  counter : BitVec 32
  /-- Armed bit (05 R146); 0 at launch. -/
  armed : Bool
  /-- Threshold, 32 bits (05 R146); 0 at launch. -/
  thr : BitVec 32
  /-- Class that a firing activates, 6 bits (05 R146). -/
  cls : Nat
  /-- A join entry (05 R157). -/
  join : Bool
  /-- Argument word, 64 bits (05 R146). -/
  arg : Word
  /-- Owning tile task while armed. -/
  owner : Option TTId
  /-- Sequence number of the arm or waita unit (05 R154). -/
  seq : BitVec 32
  /-- Spawn index of a join (05 R160). -/
  index : BitVec 16
  deriving DecidableEq, Repr

/-- Who issued an access: core, context, activation, tile task, and whether as the engine (11, 12). -/
structure Issuer where
  core : CoreId
  ctx : Nat
  uid : Nat
  tt : Option TTId
  engine : Bool
  /-- System software: the unit was issued at kernel level or above (00 R16; 04 R120, 11 R329). -/
  sys : Bool
  /-- The partition tag that its core carried at issue (14 R401, 17 R464). -/
  tag : BitVec 8
  deriving DecidableEq, Repr

/-- What a write does to full/empty bits (07 R224). -/
inductive FE where
  | keep
  | full
  | empty
  deriving DecidableEq, Repr

/-- The effects at a home (07 R223, R237; 12 R362, R370). Offsets are in the home's own space. -/
inductive Act where
  | write (off : Nat) (bytes : List Byte) (fe : FE)
  /-- Sets a word empty (stempty, 07 R237). -/
  | setEmpty (off : Nat)
  /-- A write of some bits of the byte at off (07 R223). -/
  | bits (off : Nat) (mask bits : Byte) (fe : FE)
  /-- Integer atomic (12 Table 12.4): op, size in bytes, operand, expected. -/
  | amo (op : Nat) (off : Nat) (size : Nat) (b e : Word)
  /-- Float atomic (12 R374): op, .bf16, operand. -/
  | famo (op : Nat) (off : Nat) (bf16 : Bool) (b : Word)
  /-- Bit-field atomic (12 Table 12.5): op, operand, second operand. -/
  | bf (op : Nat) (off : Nat) (b m : Word)
  /-- Wake of up to n waiters (05 R162). -/
  | wake (off : Nat) (n : Word)
  /-- mdrainadd's add of an accumulator value to an element of a record type, at bit position bit of the byte at off (10 R308): float accumulator?, value, draw
  index, seed, ticket word, count. -/
  | add (off bit : Nat) (type : Nat) (fl : Bool) (val : BitVec 32) (draw : BitVec 32) (fe : FE)
  /-- Increment of an entry after a sendw (06 R200). -/
  | incr (core : CoreId) (entry : Nat)
  deriving DecidableEq, Repr

/-- An effect on its way or held (12 R353, R362, R365). -/
structure Effect where
  /-- Its key; none from a unit that takes no number (12 R353). -/
  key : Option Key
  /-- Which part of its unit's effect it is: parts of one key are told apart by it (12 R365). -/
  part : Nat
  /-- It is put in ticket order: its unit is numbered and its core's mode ordered (12 R353, R355). -/
  gated : Bool
  /-- It keeps the order of messages (06 R178, R340): a sendw. -/
  sendw : Bool
  /-- It stands in the overflow hamper (12 R363). -/
  spilled : Bool
  by_ : Issuer
  acts : List Act
  /-- The posted write it acknowledges, the transfer it belongs to, or the request it answers. -/
  wid : Option Nat
  xfer : Option Nat
  reply : Option Nat
  /-- Address in the form the unit named it (07 R523). -/
  addr : Word
  /-- The elements of a transfer that it writes (10 R323); 0 of a unit. -/
  elems : Nat
  /-- Zone and round when it crosses a zone boundary (12 R365, 16 R450). -/
  round : Option (Nat × BitVec 32)
  deriving DecidableEq, Repr

/-- What a read, once its value has come, does with it: the rest of a unit in progress (07 R218, 12 R371, 13 R394 to R399, 15 R440). -/
inductive Cont where
  /-- Writes the value, extended, to a scalar register (07 R231; atomics 12 R373 to R375). -/
  | scalar (d : BitVec 5) (bytes : Nat) (sext : Bool)
  /-- Pushes lines on a queue (07 R233). -/
  | queue (q : Nat) (n : Nat)
  /-- Pushes lines and the count entry of an ldff (07 R234). -/
  | firstFault (q : Nat) (n : Nat) (valid cause : Nat) (addr : Word)
  /-- Fills ring slots (10 R293). -/
  | ring (n : Nat) (lines : Nat) (last : Bool)
  /-- Records a shape record read from memory (10 R311). -/
  | tsr (d : BitVec 5) (slot : Nat)
  /-- Pops the entries of an accepted stq (07 R233). -/
  | popped (q : Nat) (n : Nat)
  /-- Completes with no result: a write accepted after translation, a wait registered (07 R219, 05 R168, 13 R397). -/
  | none
  /-- A write with a translated part, once that is accepted (14 R410): the effects of its other parts, the entries it pops. -/
  | posts (es : List (Home × Effect)) (pop : Option (Nat × Nat))
  /-- bar.init of a bound barrier: the members come back (13 R394). -/
  | barInit (n : Nat) (g : Nat)
  /-- waita at a translated place: the entry is armed once the wait is accepted (05 R168, 14 R410). -/
  | armed (e : Nat) (w : WEntry)
  /-- bar.arr, with its group when bound (13 R396). -/
  | barArr (d : BitVec 5) (g : Option Nat)
  | grpJoin (d : BitVec 5) (g : Nat)
  | grpLeave (d : BitVec 5) (g : Nat)
  | word (d : BitVec 5)
  deriving DecidableEq, Repr

/-- The set of homes of a scope (11 R336): some tile homes, the device set, the system set. -/
inductive ScopeSet where
  | tiles (ts : List TileId)
  | device
  | system
  deriving DecidableEq, Repr

/-- What a unit held for acknowledgements does then (11 R343 to R347): a fence (at .system, with .eng), an ackw, a st.rel. -/
inductive Released where
  /-- Flush reads on these links (11 R338), then the engine wait. -/
  | fence (links : List Nat) (eng : Bool)
  | ackw (d : BitVec 5)
  | store (links : List Nat) (device : Bool) (seg : Nat) (off : Word) (v : Word)
  deriving DecidableEq, Repr

/-- What a context in progress but not waiting is held for (11 R337, R338, R343 to R345, 12 R363). -/
inductive Stall where
  /-- Acknowledgements of the homes of a scope, the set fixed at issue (11 R336, R337); at most n may remain. -/
  | acks (set : ScopeSet) (n : Nat) (step : Nat) (then_ : Released)
  /-- The zero-length reads of 11 R338 still out. -/
  | flush (ids : List Nat) (step : Nat) (then_ : Released)
  /-- Transfers of the task (11 R344). -/
  | engines (step : Nat)
  /-- A place of a commit buffer, of a fibre, of a translation, of the 256 unacknowledged writes: the unit is issued again. -/
  | retry
  deriving DecidableEq, Repr

/-- What a context is doing (05 R139, R140, R151; 07 R218; 04 R119). -/
inductive Phase where
  | free
  | run
  /-- Held by a wait (05 R151). -/
  | held (w : Wait)
  /-- In progress: request id, parts still to come, the bytes so far, the unit's length, whether it is a wait (ldsync, 07 R227), what then follows. -/
  | busy (id : Nat) (need : Nat) (buf : List Byte) (step : Nat) (wait : Bool) (cont : Cont)
  | stall (st : Stall)
  /-- Double-trapped (04 R119). -/
  | dead
  /-- Saved at its LONG trap entry until its tile unfolds (14 R422). -/
  | saved
  deriving DecidableEq, Repr

/-- A unit in progress beneath the handler of its LONG kind 4: its request stands in another zone until the round closes, and the unit goes on with the eret to its
address (16 R446, R450). -/
structure Beneath where
  phase : Phase
  /-- The unit's address, 64 bits. -/
  pc : Word
  /-- The sequence number that the unit holds (12 R353). -/
  took : Option Nat
  deriving DecidableEq, Repr

/-- A pending asynchronous trap: cause code and value (14 R420, R421). -/
structure Async where
  /-- Cause code, 8 bits (14 Table 14.7). -/
  code : BitVec 8
  /-- Value for cw.tval, 64 bits (14 R420). -/
  tval : Word
  deriving DecidableEq, Repr

/-- A gang: its leader's context, its member tiles, and the leader's task (08 R264 to R268). -/
structure Gang where
  /-- Members, 2, 4 or 8 (08 R264). -/
  size : Nat
  /-- The follower tiles (08 R264). -/
  members : List TileId
  deriving DecidableEq, Repr

/-- A hardware context (04 R108; 05 R139). -/
structure Ctx where
  /-- Phase (05 R140); free at reset. -/
  phase : Phase
  /-- Consecutive cycles in which the next unit is held by a wait (05 R152); 0 at activation. -/
  waited : Nat
  /-- s0 to s31, 64 bits each; s0 reads 0 (04 R108); 0 at activation save s1 to s3 (05 R141). -/
  regs : Vector Word 32
  /-- h0 to h7, 64 bits each (04 R108, R111); 0 at activation. -/
  shadow : Vector Word 8
  /-- Program counter, 64 bits (02 R40, 05 R141); the handler's address at activation. -/
  pc : Word
  /-- Loop state (04 R108); inactive at activation. -/
  loop : Loop
  /-- Saved loop state (04 R108); inactive at activation. -/
  savedLoop : Loop
  /-- Saved pc of a user interrupt, 64 bits (05 R163); 0 at activation. -/
  upc : Word
  /-- Saved loop of a user interrupt (05 R163); inactive at activation. -/
  uloop : Loop
  /-- Sticky flags nv dz of uf nx, bits 0 to 4 (04 Table 4.2, 03 R98); 0 at activation. -/
  flags : BitVec 5
  /-- cw.status.level, 2 bits (04 R112); 0 at activation, 3 for a steward. -/
  level : BitVec 2
  /-- Kernel bank (14 R418). -/
  kbank : Bank
  /-- Hyper bank (14 R418). -/
  hbank : Bank
  /-- cw.status.uih (04 Table 4.2); 0 at activation. -/
  uih : Bool
  /-- cw.status.uim (04 Table 4.2); 0 at activation. -/
  uim : Bool
  /-- Pending user interrupts, one bit per source (05 R163); 0 at activation. -/
  pending : BitVec 16
  /-- cw.uvec, 64 bits, bits 5:0 are 0 (04 Table 4.4); the core's launch value at activation. -/
  uvec : Word
  /-- cw.fmta, 5 bits (04 Table 4.4); 0 at activation. -/
  fmta : BitVec 5
  /-- cw.fmtb, 5 bits (04 Table 4.4); 0 at activation. -/
  fmtb : BitVec 5
  /-- cw.scla, 20 bits (04 Table 4.4); 0 at activation. -/
  scla : BitVec 20
  /-- cw.sclb, 20 bits (04 Table 4.4); 0 at activation. -/
  sclb : BitVec 20
  /-- cw.round, 2 bits (04 Table 4.4); 0 at activation. -/
  round : BitVec 2
  /-- cw.seed, 64 bits (04 Table 4.4); the launch seed at activation. -/
  seed : Word
  /-- seg0 to seg15 (07 R213); the core's launch bindings at activation (07 R214). -/
  segs : Vector Seg 16
  /-- v0 to v31, 512 bits each (08 R241); 0 at activation. -/
  v : Vector Line 32
  /-- k0 to k7 as lane counts in bytes, 0 to 64; k0 reads all lanes (08 R242); 0 at activation. -/
  k : Vector Nat 8
  /-- Background mode (05 R172); off at activation. -/
  background : Bool
  /-- Units executed, for stochastic rounding, 32 bits (03 R92); 0 at activation. -/
  count : BitVec 32
  /-- The running task; none when free (05 R139). -/
  task : Option Task
  /-- Denials of the task's transfers (10 R321, Table 10.10); 0 at activation. -/
  edenials : Nat
  /-- Pending asynchronous traps (14 R420); none at activation. -/
  asyncs : List Async
  /-- Gang led (08 R264); none at activation. -/
  gang : Option Gang
  /-- The cycle from which a fold or a close counts this task's cw.wdog cycles (05 R153, 16 R446); none while none is asked. -/
  asked : Option Nat
  /-- The sequence number that a unit in progress gave back when LONG kind 4 trapped it: the unit takes it when it is executed again (12 R353). -/
  redo : Option Nat
  /-- The sequence number that the unit in progress holds: given back when it is denied (12 R353); none at activation. -/
  took : Option Nat
  /-- The unit in progress that its LONG kind 4 found and that goes on afterwards (16 R446); none at activation. -/
  under : Option Beneath
  /-- Its tile task has been voided by another task: it ends at its next unit boundary (12 R369); not, at activation. -/
  ends : Bool
  deriving DecidableEq, Repr

/-! ### Cores -/

/-- What an arriving message becomes at a receive end (06 R182). -/
inductive Binding where
  | cls (c : Nat)
  | count (e : Nat)
  deriving DecidableEq, Repr

/-- A message (06 R176, R177, R179). -/
structure Message where
  id : Nat
  /-- The core the header names: the sender, or for a return by refusal the core that refused. -/
  src : CoreId
  /-- Channel of the send end; the refused sender's for a return. -/
  sendCh : Nat
  /-- Channel of the receive end. -/
  ch : Nat
  /-- Payload words (06 R176). -/
  words : List Word
  /-- A return by refusal (06 R191). -/
  refused : Bool
  /-- A reply (06 R199). -/
  reply : Bool
  /-- Sent by sendi or reply (06 R190). -/
  direct : Bool
  key : Key
  /-- The sender's tile task; none from a kernel-notice context. -/
  tt : Option TTId
  /-- The activation that sent it (17 R465); 0 for a return by the NI. -/
  uid : Nat
  deriving DecidableEq, Repr

/-- A message present at a receive end (06 R182, R185, R188). -/
structure EndMsg where
  msg : Message
  bind : Binding
  /-- The activation that holds it, once one does. -/
  holder : Option Nat
  /-- True while it stands in the hamper. -/
  hampered : Bool
  deriving DecidableEq, Repr

/-- The states of a channel (06 R180). -/
inductive ChanKind where
  | closed
  | send
  | bound
  | direct
  deriving DecidableEq, Repr

/-- A channel of a core (06 R180 to R184, R208). -/
structure Chan where
  /-- State (06 R180); closed at launch save what the graph names. -/
  kind : ChanKind
  /-- Buffer in flits (06 R181). -/
  depth : Nat
  /-- Hamper in 64 KiB units (06 R188). -/
  hamper : Nat
  /-- Binding of later arrivals (06 R182). -/
  bind : Binding
  /-- The other end: core and channel (06 R180); of a remote edge, see Port. -/
  peer : Option (CoreId × Nat)
  /-- Remote edge number of the end, when its peer lies on another module (17 R487). -/
  edge : Option Nat
  /-- Credits in flits (06 R184). -/
  credits : Nat
  /-- Messages in order of arrival (06 R182, R186, R188). -/
  msgs : List EndMsg
  /-- Refusals returned, 14 bits (06 Table 6.6); 0 at launch. -/
  refusals : Nat
  /-- Retry replies consumed, 16 bits (06 Table 6.6); 0 at launch. -/
  retries : Nat
  deriving DecidableEq, Repr

/-- A ready entry of the run queue (05 R141, R155). -/
structure Ready where
  uid : Nat
  kind : ActKind
  /-- Class, 0 to 63 (05 R145). -/
  cls : Nat
  /-- s1 to s3 of the activation, 64 bits each (05 Table 5.1). -/
  s1 : Word
  s2 : Word
  s3 : Word
  /-- Its key, for the tie rule (05 R154). -/
  key : Key
  tt : Option TTId
  /-- Firing entry, else 0xFF. -/
  entry : BitVec 8
  /-- Priority, 3 bits (05 R154). -/
  prio : Nat
  /-- Effective priority, 3 bits (05 R155). -/
  eff : Nat
  /-- Times passed over since the effective priority last rose, 6 bits (05 R155). -/
  pass : Nat
  /-- Fixed handler address of an upcall (14 R414). -/
  addr : Option Word
  /-- Fibre to reload (14 R415). -/
  fibre : Option Nat
  /-- The activating message (06 R185). -/
  msg : Option MsgRef
  hdr : Word
  sender : TileId
  deriving DecidableEq, Repr

/-- An activation that waits for room: start, spawn, roaming (05 R143, R156), upcall (14 R414). -/
structure Waiting where
  kind : ActKind
  cls : Nat
  s1 : Word
  s2 : Word
  s3 : Word
  tt : TTId
  key : Key
  /-- Fixed handler address of an upcall (14 R414). -/
  addr : Option Word
  /-- The cycle of a start's release, until START_RELEASE releases it (16 R458). -/
  release : Option Nat
  deriving DecidableEq, Repr

/-- A class entry (05 R145, R525). -/
structure Class where
  /-- Valid bit (05 R525); from the object at launch. -/
  valid : Bool
  /-- Handler code address (05 R145); from the object at launch. -/
  handler : Word
  /-- Priority, 0 to 7 (05 R145); from the object at launch. -/
  prio : Nat
  /-- Node (05 R145); from the object at launch. -/
  node : Nat
  deriving DecidableEq, Repr

/-- Room reserved for an activation (05 R150, 06 R185): per written queue, per send end in flits. -/
structure Resv where
  uid : Nat
  rooms : List (Nat × Nat)
  credits : List (Nat × Nat)
  deriving DecidableEq, Repr

/-- A fibre record (14 R412, R413): the suspended context and where its completion stands. -/
structure Fibre where
  /-- The suspended context (14 R412). -/
  ctx : Ctx
  /-- Fault number of its record (14 R411). -/
  number : BitVec 32
  /-- The faulting virtual address (14 R411). -/
  va : Word
  /-- Its completion has come; that it was fail (14 R415). -/
  resumed : Bool
  failed : Bool
  /-- It has its entry in the run queue. -/
  ready : Bool
  deriving DecidableEq, Repr

/-- Barrier mode (13 R380). -/
inductive BarMode where
  | off
  | counted
  | bound (g : Nat)
  deriving DecidableEq, Repr

/-- A named barrier (13 R380). -/
structure Barrier where
  /-- Mode (13 R380); off at launch. -/
  mode : BarMode
  /-- Parity p, 1 bit (13 R380); 0 at launch. -/
  parity : Bool
  /-- Overflow counter, 16 bits (13 R380); 0 at launch. -/
  overflow : Nat
  /-- Ecur, expected arrivals of the current phase, 1 to 1,048,575 (13 R380); 0 at launch. -/
  ecur : Nat
  /-- Enext, expected arrivals of the next phase, 1 to 1,048,575 (13 R380); 0 at launch. -/
  enext : Nat
  /-- ncur, arrivals of the current phase (13 R380); 0 at launch. -/
  ncur : Nat
  /-- nnext, arrivals of the next phase (13 R380); 0 at launch. -/
  nnext : Nat
  /-- Pcur, participants of the current phase in bound mode (13 R380); empty at launch. -/
  pcur : List Nat
  /-- Pnext, participants of the next phase in bound mode (13 R380); empty at launch. -/
  pnext : List Nat
  /-- Acur, members that have arrived in the current phase (13 R380); empty at launch. -/
  acur : List Nat
  /-- Anext, members that have arrived in the next phase (13 R380); empty at launch. -/
  anext : List Nat
  /-- A bound bar.init in progress: its request (13 R394). -/
  binding : Option Nat
  deriving DecidableEq, Repr

/-- A registration of the barrier waiter store (13 R381). -/
structure Registration where
  /-- Waiting core and entry (13 R381). -/
  core : CoreId
  entry : Nat
  /-- Barrier number, 0 to 127 (13 R381). -/
  bar : Nat
  /-- Tagged next phase. -/
  next : Bool
  deriving DecidableEq, Repr

/-- A membership record (13 R386). -/
structure Member where
  /-- Group number g, 0 to 255 (13 R386). -/
  g : Nat
  /-- Member index, 12 bits (13 R386). -/
  index : Nat
  /-- Generation as joined, 32 bits (13 R386). -/
  gen : BitVec 32
  /-- The group's members as this core has applied them: index and tile (13 R387). -/
  peers : List (Nat × TileId)
  deriving DecidableEq, Repr

/-- A gang offer (08 R266). -/
structure Offer where
  /-- Size offered (08 R266). -/
  size : Nat
  /-- Leader's waiting-task entry to notify (08 R266). -/
  entry : Nat
  /-- It notifies the leader (08 R266). -/
  notify : Bool
  /-- It is ready (08 R266); not, when made. -/
  ready : Bool
  deriving DecidableEq, Repr

/-- A follower's part in a gang (08 R264): the leader's context, and the gang context's v and k registers. -/
structure Follow where
  leader : CtxId
  v : Vector Line 32
  k : Vector Nat 8
  deriving DecidableEq, Repr

/-- A core of a logical tile, or a die steward (05 R139). -/
structure Core where
  /-- Run queue, at most 64 entries (05 R139); empty at launch. -/
  runq : List Ready
  /-- Waiting-task table: entries 0 to 255 (05 R146); every entry unarmed with counter 0 at launch. -/
  wtt : Map Nat WEntry
  /-- Message class table: entries 0 to 63 (05 R145); from the object at launch, the rest invalid. -/
  classes : Map Nat Class
  /-- Channels 0 to 63 (06 R180). -/
  chans : Map Nat Chan
  /-- Activations that wait outside the run queue: starts, spawns (05 R143, R156). -/
  waiting : List Waiting
  /-- cw.tvec, kernel bank, 64 bits (04 Table 4.1, 14 R418); 0 at reset, the kernel entry at launch. -/
  tvecK : Word
  /-- cw.tvec, hyper bank, 64 bits (14 R418); 0 at reset, the hyper entry at launch. -/
  tvecH : Word
  /-- cw.mode, 1 bit, 1 free (04 Table 4.1); the packet's at launch. -/
  free : Bool
  /-- cw.ptag, 8 bits (04 Table 4.1); the partition's tag at launch. -/
  ptag : BitVec 8
  /-- cw.prof, 8 bits, bit 0 always 0 (04 Table 4.4); 0 at reset. -/
  prof : BitVec 8
  /-- cw.prof as it takes effect at the next activation, when the partition's mask has been written since (17 R489). -/
  profNew : Option (BitVec 8)
  /-- cw.wdog, 32 bits (04 Table 4.4); 65,536. -/
  wdog : BitVec 32
  /-- Launch value of cw.uvec (04 Table 4.1). -/
  uvec : Word
  /-- Launch bindings of seg0 to seg15 (07 R214). -/
  binds : Map Nat Seg
  /-- Fibres 0 to 15 taken (14 R413); none at launch. -/
  fibres : Map Nat Fibre
  /-- nb0 to nb127 (13 R380). -/
  bars : Map Nat Barrier
  /-- Contexts as they stood at a LONG kind 4 entry, pc at cw.epc and level at plevel, by number (14 R422, 16 R446); none at launch. -/
  overruns : Map Nat Ctx
  /-- Barrier waiter store, at most 256 (13 R381); empty at launch. -/
  regs : List Registration
  /-- Membership records, at most 8 (13 R386); none at launch. -/
  members : List Member
  /-- Reservations of activations (05 R150). -/
  resv : List Resv
  /-- Kernel notices not yet taken (14 R421). -/
  notices : List Async
  /-- The context that issued last, 0 to 3 (05 R140). -/
  lastCtx : Nat
  /-- Tiles for which this core has raised TILEFAULT and that have not unfolded since (14 R421, 15 R435). -/
  tileFaults : List TileId
  /-- A gang offer of this core (08 R266); none at launch. -/
  offer : Option Offer
  /-- The leader this AC follows, with the gang context's registers (08 R264); none at launch. -/
  follows : Option Follow
  /-- Per level 0 to 7: messages of higher levels injected since the level's last turn (06 R187); 0 at launch. -/
  since : List Nat
  /-- Per level 0 to 7: the channel that injected last (06 R187); 0 at launch. -/
  lastCh : List Nat
  deriving DecidableEq, Repr

/-! ### Tiles -/

/-- A queue entry (06 R194, 05 R150). -/
structure QEntry where
  /-- A line (06 R194). -/
  data : Line
  /-- 1: a count entry. -/
  tag : Bool
  /-- The activation it is earmarked to. -/
  owner : Option Nat
  deriving DecidableEq, Repr

/-- One of the six queues of a tile (06 R194), with the conversion state of 09 R276. -/
structure Queue where
  /-- At most 16 entries, oldest first (06 R194); empty at launch. -/
  entries : List QEntry
  /-- Reader's cursor in elements or bytes of the oldest entry (09 R276); 0 at launch. -/
  cursor : Nat
  /-- Writer's pack buffer (09 R276); empty at launch. -/
  pack : List Byte
  deriving DecidableEq, Repr

/-- An operand ring (10 R286). -/
structure Ring where
  /-- Enable bit (10 R286); from the object at launch. -/
  en : Bool
  /-- Base line b, 14 bits (10 R286). -/
  base : Nat
  /-- Slot length L in lines, 1 to 512 (10 R286). -/
  lines : Nat
  /-- Slot count S, 2 to 256 (10 R286). -/
  slots : Nat
  /-- Filler: 0 MC, 1 FC, 2 BCE (10 R286); MC at launch. -/
  filler : Nat
  /-- Publish semaphore when enabled (10 R286); disabled at launch. -/
  semp : Option Nat
  /-- Free semaphore when enabled (10 R286); disabled at launch. -/
  semf : Option Nat
  /-- head, P, C, F, fill (10 R286); 0 at launch. -/
  head : Nat
  /-- P, published slots not yet popped (10 R286); 0 at launch. -/
  pub : Nat
  /-- C, published slots claimed by accepted array operations (10 R286); 0 at launch. -/
  claimed : Nat
  /-- F, slots claimed by deliveries not yet published (10 R286); 0 at launch. -/
  deliv : Nat
  /-- fill, 0 to L - 1 lines (10 R286); 0 at launch. -/
  fill : Nat
  deriving DecidableEq, Repr

/-- A slot of the TSR table (10 R310, R311). -/
structure Tsr where
  /-- Valid bit (10 R310); set at launch for the slots of `.tsr`. -/
  valid : Bool
  /-- 8-bit generation (10 R310); 0 at launch. -/
  gen : BitVec 8
  /-- The record, 8 words (10 R311). -/
  words : List Word
  deriving DecidableEq, Repr

/-- A claim of a semaphore (13 R390). -/
structure Claim where
  /-- Claiming core and entry (13 R390). -/
  core : CoreId
  entry : Nat
  /-- Need, 1 to 255 (13 R390). -/
  need : Nat
  deriving DecidableEq, Repr

/-- A semaphore (13 R390). -/
structure Sem where
  /-- 32-bit value (13 R390); 0 at launch. -/
  value : BitVec 32
  /-- At most 8 claims (13 R390); none at launch. -/
  claims : List Claim
  deriving DecidableEq, Repr

/-- An array operation accepted and not retired (10 R294, R298, R304): what it will do, with its operands as read at acceptance (10 R289, R297). -/
inductive ArrayKind where
  /-- mma or gissue: mode, shape, the two sampled formats, operand A's bytes, operand B's bytes of this tile's columns, the scale bytes of each,
  the rings it pops on this tile, A before B. -/
  | matrix (mode shape : Nat) (fa fb : BitVec 5) (a b sa sb : List Byte) (pops : List Nat)
  | zero
  /-- mrow: destination, row, half, the request its unit awaits, the gang member whose register it writes (10 R305, R309). -/
  | row (d : BitVec 5) (r half : Nat) (id member : Nat)
  /-- mdrain or mdrainadd: the transfer it feeds, z, the member (10 R306, R309). -/
  | drain (xfer : Nat) (z : Bool) (member : Nat)
  deriving DecidableEq, Repr

/-- An entry of the array order. -/
structure ArrayOp where
  kind : ArrayKind
  acc : Nat
  by_ : Issuer
  deriving DecidableEq, Repr

/-- A collective group's table at its owner (13 R386, R387). -/
structure Group where
  /-- 32-bit generation (13 R386); 0 at launch. -/
  gen : BitVec 32
  /-- Members: index and core (13 R386); none at launch. -/
  members : List (Nat × CoreId)
  /-- Bound barriers, at most 16: owner and number (13 R386). -/
  bars : List (CoreId × Nat)
  /-- Change in progress (13 R387): issuer, request, updates still to be applied, the reply. -/
  change : Option (Issuer × Nat × Nat × List Byte)
  deriving DecidableEq, Repr

/-- The state of a logical tile apart from its cores (01 R26; 05 to 13). -/
structure Tile where
  /-- 1 MiB of scratchpad (07 R209); every byte 0 at launch (01 R26). -/
  mem : Memory
  /-- The offsets of the words whose full/empty bit is full (07 R210); none at launch. -/
  full : List Nat
  /-- Protection regions 0 to 7, 64 bits each (07 R211); from the object at launch. -/
  prot : List Word
  /-- Queues MF0 MF1 FA0 FA1 AF0 FM0 (06 R194). -/
  queues : Map Nat Queue
  /-- Operand rings 0 to 7 (10 R287). -/
  rings : Map Nat Ring
  /-- Accumulators 0 to 3: 32 x 32 elements of 32 bits, row r in bits 1024r and up (10 R287); +0 at launch. -/
  accs : Map Nat (BitVec 32768)
  /-- Shape records (10 R310); none at launch. -/
  tsrs : Map Nat Tsr
  /-- sem0 to sem15 (13 R390). -/
  sems : Map Nat Sem
  /-- Accepted array operations in order (10 R294). -/
  ops : List ArrayOp
  /-- Groups whose table lives here (13 R386). -/
  groups : Map Nat Group
  /-- Flights parked for the folded tile, oldest first (15 R435). -/
  parked : List Nat
  /-- The NI's cached tile-table generations by logical tile (15 R430). -/
  cache : Map Nat Nat
  deriving DecidableEq, Repr

/-! ### Homes and flights -/

/-- A waiter record (05 R161). -/
structure Waiter where
  /-- Offset of the word (05 R161). -/
  off : Nat
  /-- Its core and entry (05 R161). -/
  core : CoreId
  entry : Nat
  /-- Its partition tag (05 R162). -/
  tag : BitVec 8
  deriving DecidableEq, Repr

/-- A held ldsync (07 R226). -/
structure Sync where
  /-- Offset of the empty word (07 R226). -/
  off : Nat
  by_ : Issuer
  id : Nat
  remote : Bool
  deriving DecidableEq, Repr

/-- A home's ordering state (11 R328, 12 R362). -/
structure HomeSt where
  /-- Commit buffer and overflow hamper, in order of arrival (12 R362, R363, R378); empty at launch. -/
  held : List Effect
  /-- Waiter table (05 R161); empty at launch. -/
  waiters : List Waiter
  /-- Held ldsync requests (07 R226). -/
  syncs : List Sync
  /-- Keys and parts applied, with the value a returning atomic gave, for the discard of repeats (12 R365). -/
  applied : List (Key × Nat × Option Word)
  deriving DecidableEq, Repr

/-- A place of an access (07 R217). -/
inductive Place where
  | tile (t : TileId) (off : Nat)
  | hbm (stack : Nat) (off : Nat)
  | host (link : Nat) (addr : Nat)
  deriving DecidableEq, Repr

/-- The kinds of access for rights and fault records (14 Table 14.4). -/
inductive AccessKind where
  | read
  | write
  | atomic
  | wait
  | engineRead
  | engineWrite
  deriving DecidableEq, Repr

/-- How a home performs a read (07 R217, R226, R234): plainly, as an ldsync, or up to the first byte it cannot read. -/
inductive ReadMode where
  | plain
  | sync
  | leading
  deriving DecidableEq, Repr

/-- What a translated or window access does once its places are known. -/
inductive Then where
  /-- Read for request id, the bytes going to position pos of the reply. -/
  | read (id pos : Nat) (mode : ReadMode)
  /-- A posted effect, its reply the acceptance; the offsets of its acts count from the access's first byte. -/
  | effect (e : Effect)
  /-- A release store's test of its own home, for request id; what then follows is the release at a set of homes (11 R347). -/
  | check (id : Nat) (set : ScopeSet) (step : Nat) (r : Released)
  /-- An atomic whose answer the unit takes. -/
  | atomic (e : Effect)
  /-- A wait request: expected value, entry (05 R162). -/
  | wait (expected : Word) (entry : Nat)
  deriving DecidableEq, Repr

/-- An access to memory (07 R217, 14 R402): who, which kind, its global address and length, the form of the address for a trap value, what it does. -/
structure Access where
  by_ : Issuer
  kind : AccessKind
  va : Word
  len : Nat
  addr : Word
  /-- A st.rel or ld.acq at .device: a host place is outside its set (11 R347, R348). -/
  device : Bool
  then_ : Then
  deriving DecidableEq, Repr

/-- A page of an access as its walk has found it (14 R405, R406, R409): its length in the access, its place unless it is absent, its rights. -/
structure Page where
  len : Nat
  place : Option Place
  r : Bool
  w : Bool
  deriving DecidableEq, Repr

/-- What travels (06 R176, R192, R193; 07 R217; 13; 14 R402). -/
inductive Packet where
  | message (dst : CoreId) (m : Message)
  /-- A spawned activation with the activation that spawned it (05 R158). -/
  | spawn (dst : CoreId) (w : Waiting) (uid : Nat)
  | credit (dst : CoreId) (ch flits : Nat)
  | increment (dst : CoreId) (entry : Nat)
  /-- A read of len bytes at a place (07 R217, R226). -/
  | read (place : Place) (len : Nat) (by_ : Issuer) (id pos : Nat) (mode : ReadMode) (addr : Word)
  | effect (home : Home) (e : Effect)
  | wait (place : Place) (expected : Word) (by_ : Issuer) (entry : Nat) (addr : Word)
  | cancel (t : TileId) (by_ : Issuer) (id : Nat)
  | reply (by_ : Issuer) (id pos : Nat) (bytes : List Byte)
  /-- A denied read of an engine: zeros for the element, and the denial (10 R323). -/
  | zeros (by_ : Issuer) (id pos len : Nat) (xfer : Option Nat) (addr : Word)
  /-- The leading bytes that an ldff may read, and why it stops (07 R234). -/
  | prefixReply (by_ : Issuer) (id pos : Nat) (bytes : List Byte) (cause : Nat)
  /-- A fault reply: cause and value (07 R218, 13 R396). -/
  | faultReply (by_ : Issuer) (id : Nat) (code : BitVec 8) (tval : Word)
  | ack (wid : Nat)
  /-- A denial of a posted write or of an engine element (07 R220, 10 R323). -/
  | denial (by_ : Issuer) (wid : Option Nat) (xfer : Option Nat) (addr : Word)
  /-- The notice of a refusal at ejection (17 R465): flight refused. -/
  | xpart (by_ : Issuer) (wid id : Option Nat) (addr : Word) (credit : Option (Nat × Nat))
  | flushRead (link : Nat) (by_ : Issuer) (id : Nat)
  | barArr (dst : CoreId) (n : Nat) (word : Word) (index : Nat) (by_ : Issuer) (id : Nat)
  | barReg (dst : CoreId) (n entry : Nat) (by_ : Issuer) (id : Nat)
  /-- Bind (or unbind) of a barrier at a group's owner (13 R394). -/
  | barBind (t : TileId) (g n : Nat) (unbind : Bool) (by_ : Issuer) (id : Nat)
  /-- 0 join, 1 leave, 2 query (13 R399). -/
  | grpChange (t : TileId) (g op index : Nat) (by_ : Issuer) (id : Nat)
  /-- A membership update for a member core (bar none) or a bound barrier (13 R387). -/
  | grpUpdate (dst : CoreId) (t : TileId) (g : Nat) (bar : Option Nat) (join : Bool) (index : Nat) (who : TileId)
  /-- A protection descriptor that the host has written, as the replay log holds it (16 R451; 17 R481). -/
  | protect (t : TileId) (n : Nat) (w : Word)
  /-- The profile mask that the host has written for a partition, at a tile of its (17 R489), and the binding of a channel's remote edge (17 R487), as the replay
  log holds them (16 R451). -/
  | profile (t : TileId) (m : BitVec 8)
  | bindEdge (dst : CoreId) (ch edge : Nat)
  /-- A completion that a fibre of a core has had, as the replay log holds it: fibre, fault number, fail (14 R415, 16 R451). -/
  | resume (dst : CoreId) (n : Nat) (number : BitVec 32) (fail : Bool)
  /-- A translation under way: the access, its pages found so far; served for the pages left (14 R402, R406). -/
  | walk (a : Access) (left : List (Word × Nat)) (found : List Page)
  deriving DecidableEq, Repr

/-- Where a flight stands (06 R187, R193; 15 R435; 16 R450). -/
inductive FlightSt where
  /-- In the sender's NI, until the posted writes listed are acknowledged and its turn comes (06 R187, 11 R340). -/
  | queued (after : List Nat)
  | transit
  /-- A retry reply is on its way back. -/
  | bounced
  /-- Resent at this cycle. -/
  | waiting (at_ : Nat)
  | parked
  /-- Held at a full fault queue or for a fibre: its walk is complete (14 R413, 17 R479). -/
  | faulted
  /-- Held until the completion of a fault record (14 R417). -/
  | fault (number : BitVec 32)
  deriving DecidableEq, Repr

/-- A flight: an item between its sender and where it takes effect. -/
structure Flight where
  id : Nat
  /-- Source core, for a flight that one core sent (06 R178). -/
  src : Option CoreId
  /-- Destination tile, when it has one. -/
  dst : Option TileId
  pkt : Packet
  st : FlightSt
  /-- Retries so far (06 R193). -/
  tries : Nat
  /-- Partition tag carried (06 R176). -/
  tag : BitVec 8
  /-- Remap generation of the entry that routed it (15 R430). -/
  gen : Nat
  /-- Zone and round when it crosses a zone boundary (16 R450). -/
  round : Option (Nat × BitVec 32)
  /-- The zone of its sender and the round of that zone in which it left the NI (16 R450). -/
  sent : Option (Nat × BitVec 32)
  deriving DecidableEq, Repr

/-- A posted write not yet acknowledged (11 R335). -/
structure Posted where
  wid : Nat
  by_ : Issuer
  home : Home
  addr : Word
  deriving DecidableEq, Repr

/-! ### Transfers -/

/-- A notice (07 Table 7.4): 0 none, 1 counter, 2 interrupt; target; the core and context it goes to. -/
structure Notice where
  kind : Nat
  target : Nat
  deriving DecidableEq, Repr

/-- An element of a transfer that has not been written yet (10 R318 to R320, R306). -/
structure Elem where
  /-- Its number in the transfer's order; for a drain row x 32 + column (03 Table 3.6). -/
  num : Nat
  /-- The gang member whose accumulator it comes from; 0 otherwise (10 R309). -/
  member : Nat
  /-- The read under way, its parts still to come, the bytes so far, the place of the element's first bit in them. -/
  req : Option Nat
  need : Nat
  buf : List Byte
  bit : Nat
  /-- Its raw bits once known; for mdrainadd the accumulator's. -/
  val : Option Nat
  /-- Where it is written: the address of its first byte, its first bit there; none when clipped, and in a ring form. -/
  dst : Option Word
  dbit : Nat
  /-- The 8-byte words, by address divided by 8, that its write has still to reach (07 R222, 10 R326). -/
  left : List Nat
  deriving DecidableEq, Repr

/-- What a drain converts by (10 R307, R308; 03 R93): a .f32 accumulator, mdrainadd, the seed, ticket word and sequence number of the issuing unit. -/
structure Drain where
  fl : Bool
  add : Bool
  seed : Word
  ticket : BitVec 128
  seqno : BitVec 32
  deriving DecidableEq, Repr

/-- A transfer of the BCE: a copy, gather, scatter or drain (10 R306, R316 to R324). -/
structure Xfer where
  id : Nat
  by_ : Issuer
  key : Option Key
  /-- Element type code of the records. -/
  type : Nat
  drain : Option Drain
  /-- Elements not yet written, in order. -/
  todo : List Elem
  /-- Numbers of the writes under way. -/
  writes : List Nat
  /-- Array operations that still have to retire (10 R294, R309). -/
  waits : Nat
  /-- A ring form: ring and slot claimed (10 R319). -/
  ring : Option (Nat × Nat)
  notice : Notice
  /-- The one asynchronous PROT has been raised (10 R323). -/
  told : Bool
  deriving DecidableEq, Repr

/-! ### Tile tasks and launches -/

/-- A tile task (01 R27, 05 R142 to R144, 12 R359, R369). -/
structure TileTask where
  /-- Its static ancestor's index (17 R476). -/
  index : Nat
  /-- Its node (01 R27). -/
  node : Nat
  /-- Its logical tile (01 R27). -/
  tile : TileId
  /-- Complete under 05 R144. -/
  done : Bool
  /-- Retired (12 R359); not, when created. -/
  retired : Bool
  /-- Voided (12 R369); not, when created. -/
  voided : Bool
  /-- A task of it has started (12 R359). -/
  ran : Bool
  /-- Flag word (03 R99); 0 when created. -/
  flags : BitVec 5
  /-- Denial count and first denied address (07 R220). -/
  denials : Nat
  /-- First denied address (07 R220); none when created. -/
  denied : Option Word
  /-- Returns lost (06 R192). -/
  lost : Nat
  /-- Join entry its completion reports to (05 R157). -/
  report : Option (CoreId × Nat)
  /-- Numbered units issued, per role MC FC AC (12 R353); 0 when created. -/
  seqs : List Nat
  /-- Spawn indices taken, per role MC FC AC (12 R351); 0 when created. -/
  spawns : List Nat
  deriving DecidableEq, Repr

/-- The ticket scope of a launch (12 R355). -/
inductive Scope where
  | none
  | launch
  | stream
  deriving DecidableEq, Repr

/-- A launch (17 R471 to R476). -/
structure Launch where
  /-- Its partition tag, 8 bits (17 R471). -/
  tag : BitVec 8
  /-- Its interface, 0 to 4,095 (17 R471). -/
  iface : Nat
  /-- Packet number k on the interface (17 R471, R481). -/
  packet : Nat
  /-- Cookie, 64 bits (17 Table 17.2). -/
  cookie : Word
  /-- Program handle, 32 bits (17 Table 17.2). -/
  handle : BitVec 32
  /-- The loaded object (18 R505). -/
  obj : Object
  /-- Graph number (17 Table 17.2). -/
  graph : Nat
  /-- Grid width X (01 R19). -/
  x : Nat
  /-- Grid height Y (01 R19). -/
  y : Nat
  /-- Free mode (12 R354). -/
  free : Bool
  /-- Ticket scope (12 R355). -/
  scope : Scope
  /-- Scope slot, 0 to 1,023 (12 R356). -/
  slot : Nat
  /-- Launch number in the stream, 16 bits (12 R358); 0 otherwise. -/
  number : BitVec 16
  /-- Seed, 64 bits (17 Table 17.2). -/
  seed : Word
  /-- Flag array address, 64 bits (17 R476); 0 none. -/
  flagarr : Word
  /-- Static tile tasks (01 R29). -/
  statics : Nat
  /-- Hamper pool in units (06 R189), and those not taken. -/
  units : Nat
  /-- Units of its hamper pool not taken (06 R189). -/
  pool : Nat
  /-- The stream that it belongs to, by the number of the launch that opened it (12 R356, R358); its own number otherwise. -/
  stream : Nat
  /-- Overflow hamper units, once op 1 has set them (12 R378). -/
  overflow : Option Nat
  /-- The place of its op 1 among those of the module, from 1 (12 R378); 0 before it. -/
  overflowAt : Nat
  /-- End of the stream asked (12 R378). -/
  ending : Bool
  /-- Completed, failed with ZONELOST, or running. -/
  done : Bool
  /-- Failed with ZONELOST (14 R421). -/
  failed : Bool
  /-- Mendings and droop alarms since admission, 16 bits each (16 R462). -/
  mended : Nat
  /-- Droop alarms by power group since admission (16 R462). -/
  droops : Map Nat Nat
  deriving DecidableEq, Repr

/-- State of a bundle's tile-table entries, coded 0 to 4 (15 Table 15.1). -/
inductive BundleSt where
  | resident
  | folding
  | folded
  | unfolding
  | remapping
  deriving DecidableEq, Repr

/-- A bundle (15 R426 to R429, R435, R442). -/
structure Bundle where
  /-- State, 3 bits (15 Table 15.1). -/
  st : BundleSt
  /-- Generation, 16 bits (15 R429); 0 at launch. -/
  gen : Nat
  /-- Zone and frame number, and the physical tile of member 0. -/
  frame : Nat
  /-- Physical tile of member 0 (15 R427). -/
  home : PTile
  /-- Pinned (15 R442); not, at launch. -/
  pinned : Bool
  /-- Order of its summons, when one is queued (15 R436). -/
  summoned : Option Nat
  /-- Cycle from which it has been resident (15 R432). -/
  since : Nat
  deriving DecidableEq, Repr

/-! ### The module -/

/-- A fault record not completed (14 R411, R415). -/
structure Pending where
  number : BitVec 32
  /-- The suspended fibre, or the held flight of an engine part. -/
  fibre : Option (CoreId × Nat)
  flight : Option Nat
  deriving DecidableEq, Repr

/-- A record of an error log (14 R419, 17 R478, 18 R512). -/
inductive ErrRecord where
  /-- A double trap: epc and cause. -/
  | doubleTrap (ctx : CtxId) (epc : Word) (code : BitVec 8)
  | aperture (iface : Nat) (off : Word)
  | kernelImage
  | hyperImage
  | hbmLine (stack off : Nat)
  deriving DecidableEq, Repr

/-- A partition (17 R463, R479). -/
structure Partition where
  /-- Page-table descriptor, 64 bits (14 R404); 0 at reset. -/
  desc : Word
  /-- Fault queue base, m, head, tail (17 R479); DESIGN CHOICE 0, 4, 0, 0 at creation, log 22. -/
  fbase : Word
  /-- m, 4 to 16 (17 R479); DESIGN CHOICE 4 at creation, log 22. -/
  fsize : Nat
  /-- Head of the fault queue (17 R479); DESIGN CHOICE 0 at creation, log 22. -/
  fhead : Word
  /-- Tail of the fault queue (17 R479); DESIGN CHOICE 0 at creation, log 22. -/
  ftail : Word
  /-- Next fault number, 32 bits (14 R411); 0 at creation. -/
  fnext : BitVec 32
  /-- The records of the fault queue by place, 0 to 2^m - 1 (17 R479, 14 Table 14.4); none at creation. -/
  frecs : Map Nat (List Word)
  /-- Records not completed (14 R415); none at creation. -/
  pendings : List Pending
  /-- Profile mask, 8 bits (17 R489); 0 at creation. -/
  mask : BitVec 8
  /-- Permit mask, 256 bits (17 R464); only its own tag at creation. -/
  permit : BitVec 256
  /-- Error log (14 R419, 18 R512); empty at creation. -/
  errors : List ErrRecord
  /-- Kernel image of MC, FC, AC (18 R512); empty at creation. -/
  kernMc : List Byte
  /-- Kernel image of the FC, at most 49,152 bytes (18 R512); empty at creation. -/
  kernFc : List Byte
  /-- Kernel image of the AC, at most 49,152 bytes (18 R512); empty at creation. -/
  kernAc : List Byte
  /-- Kernel entries of MC, FC, AC (18 R512); 0 at creation. -/
  entMc : Word
  /-- Kernel entry of the FC, 64 bits (18 R512); 0 at creation. -/
  entFc : Word
  /-- Kernel entry of the AC, 64 bits (18 R512); 0 at creation. -/
  entAc : Word
  /-- Command page: slots' words by 8 x slot + word, tail, head (17 R481); 0 at reset. -/
  cmds : Map Nat Word
  /-- Command page tail, 32 bits (17 R481); 0 at reset. -/
  ctail : BitVec 32
  /-- Command page head, 32 bits (17 R481); 0 at reset. -/
  chead : BitVec 32
  /-- Loaded programs by handle, at most 64 (18 R505); none at creation. -/
  programs : Map Nat Object
  /-- Hamper pool of the partition: 64 KiB units not taken (17 R463). -/
  pool : Nat
  /-- Invalidations not complete: number, va, size (14 R408). -/
  invs : List (Nat × Word × BitVec 2)
  deriving DecidableEq, Repr

/-- A request that changes a partition's tiles (17 R467 to R469). -/
inductive Request where
  | grow (tag : BitVec 8) (tiles : List PTile)
  | shrink (tag : BitVec 8) (tiles : List PTile)
  | preEmpt (p q : BitVec 8) (tiles : List PTile)
  deriving DecidableEq, Repr

/-- A shrink in progress: its partition, the one that then takes the tiles, the tiles not yet released (17 R467, R469). -/
structure Shrinking where
  tag : BitVec 8
  then_ : Option (BitVec 8)
  tiles : List PTile
  deriving DecidableEq, Repr

/-- An assignable interface (17 R470, Table 17.1). -/
structure Iface where
  /-- Link, PASID and partition; none until assigned (17 R470). -/
  assigned : Option (Nat × BitVec 20 × BitVec 8)
  /-- Words of the sixteen slots, by 16 x slot + word (Table 17.1); 0 at reset. -/
  packets : Map Nat Word
  /-- tail, 32 bits; 0 at reset. -/
  tail : BitVec 32
  /-- head, 32 bits; 0 at reset. -/
  head : BitVec 32
  /-- nbase, bits 63:6; 0 at reset. -/
  nbase : Word
  /-- nsize, 5 bits; 0 at reset. -/
  nsize : BitVec 5
  /-- vector, 11 bits; 0 at reset. -/
  vector : BitVec 11
  /-- cons, 32 bits; 0 at reset. -/
  cons : BitVec 32
  /-- abase, bits 63:20; 0 at reset. -/
  abase : Word
  /-- Completion records written (17 R475); 0 at reset. -/
  written : Nat
  /-- Completion records held back, oldest first (17 R475). -/
  backlog : List (List Word)
  /-- The open stream: slot, next launch number (12 R355, R358). -/
  stream : Option (Nat × BitVec 16)
  deriving DecidableEq, Repr

/-- A round image of a zone (16 R447). -/
structure Image where
  round : BitVec 32
  tiles : Map TileId Tile
  cores : Map CoreId Core
  ctxs : Map CtxId Ctx
  homes : Map Home HomeSt
  tts : Map TTId TileTask
  queued : List Flight
  /-- Transfers whose every write crosses the zone's boundary in the round (10 R327, 16 R450). -/
  xfers : List Xfer
  /-- The posted writes of its tiles not yet acknowledged (11 R335). -/
  posted : List Nat
  deriving DecidableEq, Repr

/-- A remap wave of a zone (15 R438, R439). -/
structure Wave where
  /-- Bundles of the zone with their new frame and member 0's tile, or folded. -/
  moves : List ((Nat × Nat) × Option (Nat × Nat × PTile))
  /-- A tile death recorded for the next wave. -/
  again : List PTile
  deriving DecidableEq, Repr

/-- A supply zone (16 R443 to R459). -/
structure Zone where
  /-- Its regulator is sound (16 R444); as found by self-test. -/
  sound : Bool
  /-- 32-bit round number (16 R445); 0 at bring-up. -/
  round : BitVec 32
  /-- Cycle at which the round opened (16 R445). -/
  opened : Nat
  /-- Cycle at which a close fell due, and whether it is past its deferral (16 R445). -/
  due : Option Nat
  /-- A close is asked of the zone's cores (16 R446); not, at bring-up. -/
  asked : Bool
  /-- The image being mirrored (16 R446). -/
  streaming : Option Image
  /-- The image of the restore point (16 R449). -/
  restore : Option Image
  /-- Its buddy (16 R444); as paired in phase 5. -/
  buddy : Option Nat
  /-- The zone with which it pairs once its full image has been mirrored there (16 R456). -/
  next : Option Nat
  /-- Tiles that have come to stand in the zone, as they then were, each with the open round: their restore point until an image that holds them is mirrored. -/
  placed : List (BitVec 32 × Image)
  /-- Replay log: round and arrival, in order of acceptance (16 R451). -/
  log : List (BitVec 32 × Packet)
  /-- Its remap wave (15 R438); none at bring-up. -/
  wave : Option Wave
  /-- Lost and not yet mended (16 R452). -/
  lost : Bool
  /-- Re-run tile tasks that have not retired again since the zone was mended (16 R454). -/
  rerun : List TTId
  /-- The tiles that its mendings have restored while such tile tasks are left: their homes go by the mending front, wherever they stand (16 R454). -/
  restored : List TileId
  deriving DecidableEq, Repr

/-- A power group (16 R443, R457, R459). -/
structure PowerGroup where
  /-- cw.curstep as stored, 16 bits (04 Table 4.4); 520 at bring-up. -/
  limit : BitVec 16
  /-- The limit in force since the last step boundary (16 R457); 520 at bring-up. -/
  acting : BitVec 16
  /-- A droop alarm stands (16 R459). -/
  alarm : Bool
  /-- The cycle of the last sample under 0.70 V (16 R459). -/
  low : Nat
  /-- Its bus converter reports a fault (18 Table 18.3). -/
  fault : Bool
  deriving DecidableEq, Repr

/-- A die (18 R490 to R501): what flash and fuses hold, and how far its bring-up is. -/
structure Die where
  /-- Firmware slots A and B in flash (18 R491); DESIGN CHOICE empty, log 23. -/
  slotA : Option FwImage
  /-- Firmware slot B in flash (18 R491); DESIGN CHOICE empty, log 23. -/
  slotB : Option FwImage
  /-- Fused minimum security version, 32 bits (18 R491); DESIGN CHOICE 0, log 23. -/
  minimum : BitVec 32
  /-- Failed-start count in flash, 0 to 15 (18 R500); DESIGN CHOICE 0, log 23. -/
  fails : Nat
  /-- The count read in phase 1 (18 R501). -/
  read : Nat
  /-- SHA-384 of the P-384 key, fused, 384 bits (18 R491); DESIGN CHOICE 0, log 23. -/
  ecHash : BitVec 384
  /-- The LMS public key, fused, 56 bytes (18 R491); DESIGN CHOICE none, log 23. -/
  lmsKey : List Byte
  /-- Bank 0 of the retirement log, 2,048 slots of 64 bytes, the slots after those listed erased (18 R493); DESIGN CHOICE its commit record, log 23. -/
  bank0 : List Line
  /-- Bank 1 of the retirement log, 2,048 slots (18 R493); DESIGN CHOICE erased, log 23. -/
  bank1 : List Line
  /-- Next sequence number of the log (18 R494). -/
  seq : Nat
  /-- Phase finished, 0 to 6 (18 R490); 0 at reset. -/
  phase : Nat
  /-- The cycle at which it finished that phase (18 R490); 0 at reset. -/
  since : Nat
  /-- Takes part (18 R490). -/
  part : Bool
  /-- The reason it does not: 0 none, 1, 2 or 4 of Table 18.3. -/
  why : Nat
  /-- The image that runs (18 R491). -/
  image : Option FwImage
  /-- Its HBM ports trained (18 Table 18.1). -/
  ports : List (Nat × Bool)
  deriving DecidableEq, Repr

/-- A remote edge bound to a port (17 R487, R488). -/
structure Edge where
  /-- Its port, 0 to 15 (17 R487). -/
  port : Nat
  /-- What it is bound to: the peer's module, tag and channel, the local core and channel (17 R487). -/
  end_ : EdgeEnd
  /-- Sequence number of the next frame (17 R487). -/
  next : BitVec 32
  /-- Frames not acknowledged, oldest first, each with the cycle at which it was last sent (17 R487). -/
  unacked : List (Nat × PortFrame)
  /-- Sequence number of the next frame to be taken (17 R487). -/
  expect : BitVec 32
  deriving DecidableEq, Repr

/-- What the device gives to the outside (17 R475, R487; 18 R504; 17 R478). -/
inductive Output where
  | msix (link vector : Nat)
  | spdm (link : Nat) (answer : List Byte)
  | apertureRead (link : Nat) (bytes : List Byte)
  | frame (port : Nat) (f : PortFrame)
  | ackFrame (port edge : Nat) (seq : BitVec 32)
  deriving DecidableEq, Repr

/-- A wait of a stuck core for another (06 R195, Table 6.2): kind 0 held for messages, 1 for credits, 2 empty queue, 3 full queue, 4 return held. -/
structure Relation where
  core : CoreId
  kind : Nat
  num : Nat
  target : CoreId
  deriving DecidableEq, Repr

/-- The whole device. -/
structure State where
  /-- The cycle count (model), for the rules that count cycles; 0 at reset. -/
  cycle : Nat
  /-- Device steps that the outside or timing brings about next, in order (model); empty at reset. -/
  agenda : List Instr
  /-- The context whose unit exec runs (model). -/
  cur : CtxId
  /-- The cores that have issued a unit in this cycle (05 R140); none at reset. -/
  issued : List CoreId
  /-- The cause of the trap that the latest unit raised, none if it raised none (model). -/
  trapped : Option (BitVec 8)
  /-- Increments of entries that this cycle's semaphore changes have made, applied once the units of the cycle have issued (05 R147, 13 R392); none at reset. -/
  later : List (CoreId × Nat)
  /-- Next fresh number for activations, messages, flights, writes, requests, transfers (model). -/
  fresh : Nat
  /-- Hardware contexts (05 R139); none listed at reset: an unlisted context is free. -/
  ctxs : Map CtxId Ctx
  /-- Cores of launched tiles and stewards (01 R24, 02 R521); none at reset. -/
  cores : Map CoreId Core
  /-- Logical tiles of running launches (01 R20); none at reset. -/
  tiles : Map TileId Tile
  /-- Tile tasks (01 R27, 05 R142); none at reset. -/
  tts : Map TTId TileTask
  /-- Launches by number (17 R471); none at reset. -/
  launches : Map Nat Launch
  /-- Ordering state of homes (12 R362); none at reset. -/
  homes : Map Home HomeSt
  /-- Items under way, in the order sent. -/
  net : List Flight
  /-- Posted writes not acknowledged (11 R335). -/
  posted : List Posted
  /-- Transfers of the engines (10 R316 to R324); none at reset. -/
  xfers : List Xfer
  /-- HBM by stack: offsets 0 to 2^36 - 1 (14 Table 14.2); DESIGN CHOICE every byte 0, log 24. -/
  hbm : Map Nat Memory
  /-- Host memory by link (14 Table 14.2): the byte of a bus address under a PASID stands at PASID x 2^64 + address (14 R402, 17 R466); DESIGN CHOICE every
  byte 0, log 24. -/
  host : Map Nat Memory
  /-- Translation caches by die: partition tag, size, virtual base, entry (14 R403); empty at reset. -/
  tlbs : Map Nat (List (BitVec 8 × BitVec 2 × Word × Word))
  /-- Partitions by tag, 8 bits (17 R463); none at reset. -/
  parts : Map (BitVec 8) Partition
  /-- Interfaces 0 to 4,095 (17 R470); at reset as Iface.init. -/
  ifaces : Map Nat Iface
  /-- Bundles by launch and number (15 R426). -/
  bundles : Map (Nat × Nat) Bundle
  /-- Dead tiles (15 R424). -/
  dead : List PTile
  /-- Route tables by die (15 R431): the dead tiles that a die's table goes round, as bring-up or a remap wave last wrote it; none at reset. -/
  routes : Map Nat (List PTile)
  /-- Assigned tiles with their tags (17 R463); none at reset. -/
  tags : Map PTile (BitVec 8)
  /-- Requests that change a partition, waiting behind the one in progress, in their order (17 R468). -/
  requests : List Request
  /-- Shrinks in progress (17 R467). -/
  shrinking : List Shrinking
  /-- Supply zones 0 to 207 (16 R443); created in phase 5 (18 Table 18.1); none at reset. -/
  zones : Map Nat Zone
  /-- Power groups 0 to 15 (16 R443); none listed at reset: as PowerGroup.init. -/
  groups : Map Nat PowerGroup
  /-- Dies 0 to 51 (18 R490); none listed at reset: as Die.init. -/
  dies : Map Nat Die
  /-- Seams trained, and those found up, by die pair (18 R498); none at reset. -/
  trained : List (Nat × Nat)
  seams : List (Nat × Nat)
  /-- The cycle of the last seam training, or of a die's dropping out, from which phase 4 counts its second (18 Table 18.1); 0 at reset. -/
  trainedAt : Nat
  /-- Leader of each die's island (18 R499). -/
  islands : Map Nat Nat
  /-- Boot status block w0 to w7 (18 Table 18.4); 0 at reset. -/
  boot : List Word
  /-- Measurement blocks by index, once phase 6 has fixed them (18 R504); none at reset. -/
  measures : Map Nat (List Byte)
  /-- The hyper image and hyper entry (18 R512); empty and 0 at reset. -/
  hyper : List Byte
  /-- The hyper entry, 64 bits, bits 5:0 are 0 (18 R512); 0 at reset. -/
  hyperEntry : Word
  /-- Module error log (17 Table 17.5). -/
  errors : List ErrRecord
  /-- Slot tables in force and staged: entry by 64 x ... (17 R482, R484); 0 at reset. -/
  slots : Map (LinkId × Nat) (BitVec 16)
  /-- Staged slot-table entries (17 R484); 0 at reset. -/
  staged : Map (LinkId × Nat) (BitVec 16)
  /-- Frame at which a commit takes effect (17 R484). -/
  commitAt : Option Nat
  /-- Wafer slot counter, and a time step still to be applied (17 R486); DESIGN CHOICE 0 at reset, log 25. -/
  slotTime : Int
  /-- A time step still to be applied at a frame boundary (17 R486); none at reset. -/
  timeStep : Option Int
  /-- The port chosen for the ordinary clock (17 R486); none at reset. -/
  clock : Option Nat
  /-- Each port's timestamp of its last 1588 event message (17 R486); none at reset. -/
  stamps : Map Nat Int
  /-- Ports down (17 R488); none at reset. -/
  down : List Nat
  /-- Frames of other kinds dropped (17 R485); 0 at reset. -/
  dropped : Nat
  /-- Remote edges by number (17 R487); none at reset. -/
  edges : Map Nat Edge
  /-- The relations of stuck cores at the last scan: core, kind, number, core waited for (06 R195); none at reset. -/
  scan : List Relation
  /-- The cycles reported that still hold (06 R195); none at reset. -/
  told : List (List Relation)
  /-- The cycle of the last scan (model); 0 at reset. -/
  scanned : Nat
  /-- Correctable errors counted (16 R452); 0 at reset. -/
  corrected : Nat
  /-- What the outside has been given, newest first (model). -/
  out : List Output
  deriving DecidableEq, Repr

/-! ### Initial values -/

/-- A cleared bank (04 Table 4.1). -/
def Bank.init : Bank := { code := 0, async := false, epc := 0, tval := 0, plevel := 0, tnest := false }

/-- No loop (04 R109). -/
def Loop.off : Loop := { active := false, start := 0, stop := 0, count := 0 }

/-- A free context; the values of 04 R109 and Table 4.1 that need no launch. Log entry 26 for a context that has had no activation. -/
def Ctx.init : Ctx :=
  { phase := .free, waited := 0, regs := Vector.replicate 32 0, shadow := Vector.replicate 8 0, pc := 0, loop := Loop.off, savedLoop := Loop.off,
    upc := 0, uloop := Loop.off, flags := 0, level := 0, kbank := Bank.init, hbank := Bank.init, uih := false, uim := false, pending := 0,
    uvec := 0, fmta := 0, fmtb := 0, scla := 0, sclb := 0, round := 0, seed := 0, segs := Vector.replicate 16 { base := 0, limit := 0 },
    v := Vector.replicate 32 0, k := Vector.replicate 8 64, background := false, count := 0, task := none, edenials := 0, asyncs := [], gang := none,
    asked := none, redo := none, took := none, under := none, ends := false }

/-- A closed channel (06 R180). -/
def Chan.closed : Chan :=
  { kind := .closed, depth := 0, hamper := 0, bind := .cls 0, peer := none, edge := none, credits := 0, msgs := [], refusals := 0, retries := 0 }

/-- An unarmed entry (05 R146). -/
def WEntry.init : WEntry :=
  { counter := 0, armed := false, thr := 0, cls := 0, join := false, arg := 0, owner := none, seq := 0, index := 0 }

/-- An invalid class (05 R525). -/
def Class.invalid : Class := { valid := false, handler := 0, prio := 0, node := 0 }

/-- A barrier as at launch (13 R380). -/
def Barrier.init : Barrier :=
  { mode := .off, parity := false, overflow := 0, ecur := 0, enext := 0, ncur := 0, nnext := 0, pcur := [], pnext := [], acur := [],
    anext := [], binding := none }

/-- A core with nothing launched on it (04 Table 4.1). -/
def Core.init : Core :=
  { runq := [], wtt := [], classes := [], chans := [], waiting := [], tvecK := 0, tvecH := 0, free := false, ptag := 0, prof := 0,
    profNew := none, wdog := 65536, uvec := 0, binds := [], fibres := [], bars := [], overruns := [], regs := [], members := [], resv := [], notices := [],
    lastCtx := 3, tileFaults := [], offer := none, follows := none, since := List.replicate 8 0, lastCh := List.replicate 8 63 }

/-- An empty queue (06 R194, 09 R276). -/
def Queue.init : Queue := { entries := [], cursor := 0, pack := [] }

/-- A disabled ring (10 R287). DESIGN CHOICE, log 87: one never configured has slots of one line. -/
def Ring.init : Ring :=
  { en := false, base := 0, lines := 1, slots := 2, filler := 0, semp := none, semf := none, head := 0, pub := 0, claimed := 0, deliv := 0, fill := 0 }

/-- An invalid shape record (10 R310). -/
def Tsr.init : Tsr := { valid := false, gen := 0, words := [] }

/-- A semaphore as at launch (13 R390). -/
def Sem.init : Sem := { value := 0, claims := [] }

/-- An empty group (13 R386). -/
def Group.init : Group := { gen := 0, members := [], bars := [], change := none }

/-- A tile as at launch, before the data image (01 R26). -/
def Tile.init : Tile :=
  { mem := [], full := [], prot := List.replicate 8 0, queues := [], rings := [], accs := [], tsrs := [], sems := [], ops := [], groups := [],
    parked := [], cache := [] }

/-- A home that holds nothing (12 R362). -/
def HomeSt.init : HomeSt := { held := [], waiters := [], syncs := [], applied := [] }

/-- A tile task just created. -/
def TileTask.init (index node : Nat) (tile : TileId) : TileTask :=
  { index := index, node := node, tile := tile, done := false, retired := false, voided := false, ran := false, flags := 0, denials := 0,
    denied := none, lost := 0, report := none, seqs := [0, 0, 0], spawns := [0, 0, 0] }

/-- A partition as created with a tag (17 R463, R464; log entry 22). -/
def Partition.init (tag : BitVec 8) (pool : Nat) : Partition :=
  { desc := 0, fbase := 0, fsize := 4, fhead := 0, ftail := 0, fnext := 0, frecs := [], pendings := [], mask := 0, permit := (1 : BitVec 256) <<< tag.toNat,
    errors := [], kernMc := [], kernFc := [], kernAc := [], entMc := 0, entFc := 0, entAc := 0, cmds := [], ctail := 0, chead := 0,
    programs := [], pool := pool, invs := [] }

/-- An interface as at reset (17 Table 17.1). -/
def Iface.init : Iface :=
  { assigned := none, packets := [], tail := 0, head := 0, nbase := 0, nsize := 0, vector := 0, cons := 0, abase := 0, written := 0,
    backlog := [], stream := none }

/-- A zone as at bring-up (16 R445). -/
def Zone.init : Zone :=
  { sound := true, round := 0, opened := 0, due := none, asked := false, streaming := none, restore := none, buddy := none, next := none, placed := [], log := [],
    wave := none, lost := false, rerun := [], restored := [] }

/-- A power group as at bring-up (16 R457). -/
def PowerGroup.init : PowerGroup := { limit := 520, acting := 520, alarm := false, low := 0, fault := false }

/-- A die with blank flash but for the commit record of bank 0 (log entry 23). -/
def Die.init : Die :=
  { slotA := none, slotB := none, minimum := 0, fails := 0, read := 0, ecHash := 0, lmsKey := [],
    bank0 := [LogRecord.slot { kind := 5, index := 0, cause := 0, attempt := 0, seq := 1, die := 0 }], bank1 := [], seq := 2, phase := 0, since := 0,
    part := true, why := 0, image := none, ports := [] }

/-- The device right after reset, before phase 1 of its bring-up (18 R490): no launch, no partition, every register at its reset value. -/
def State.reset : State :=
  { cycle := 0, agenda := [], cur := ⟨⟨0, 0, .steward⟩, 0⟩, issued := [], trapped := none, later := [], fresh := 1, ctxs := [], cores := [], tiles := [],
    tts := [], launches := [], homes := [], net := [], posted := [], xfers := [], hbm := [], host := [], tlbs := [], parts := [], ifaces := [],
    bundles := [], dead := [], routes := [], tags := [], requests := [], shrinking := [], zones := [], groups := [], dies := [], trained := [], seams := [], trainedAt := 0, islands := [], boot := List.replicate 8 0,
    measures := [], hyper := [], hyperEntry := 0, errors := [], slots := [], staged := [], commitAt := none, slotTime := 0, timeStep := none, clock := none, stamps := [],
    down := [], dropped := 0, edges := [], scan := [], told := [], scanned := 0, corrected := 0, out := [] }

end Sys2Proof.Machine
end

