-- ==== Sys2Proof/Machine/Maps.lean ====
section
/-! DEFINITION. Association lists, byte memories in their canonical form, and byte strings as numbers (00 R8: little-endian). -/

namespace Sys2Proof.Machine

/-- The entry of a key, if there is one. -/
def Map.get? {κ ν : Type} [DecidableEq κ] : Map κ ν → κ → Option ν
  | [], _ => none
  | (k, v) :: r, a => if k = a then some v else Map.get? r a

/-- The entry of a key, or a default. -/
def Map.getD {κ ν : Type} [DecidableEq κ] (m : Map κ ν) (a : κ) (d : ν) : ν := (Map.get? m a).getD d

/-- Sets the entry of a key in its place, or adds it at the end. -/
def Map.set {κ ν : Type} [DecidableEq κ] : Map κ ν → κ → ν → Map κ ν
  | [], a, b => [(a, b)]
  | (k, v) :: r, a, b => if k = a then (a, b) :: r else (k, v) :: Map.set r a b

/-- Removes the entry of a key. -/
def Map.erase {κ ν : Type} [DecidableEq κ] (m : Map κ ν) (a : κ) : Map κ ν := m.filter fun e => e.1 ≠ a

/-- The keys of a map. -/
def Map.keys {κ ν : Type} (m : Map κ ν) : List κ := m.map (·.1)

/-- The canonical form: addresses strictly rising, no byte equal to the 0 of an unlisted address. -/
def Memory.wf : Memory → Bool
  | [] => true
  | [(_, v)] => v != 0
  | (a, v) :: (b, w) :: r => v != 0 && decide (a < b) && Memory.wf ((b, w) :: r)

/-- One byte of a memory; an unlisted address reads 0 (01 R26; log entry 24). -/
def Memory.get : Memory → Nat → Byte
  | [], _ => 0
  | (k, v) :: r, a => if k = a then v else Memory.get r a

/-- Writes one byte, keeping the canonical form. -/
def Memory.set : Memory → Nat → Byte → Memory
  | [], a, b => if b = 0 then [] else [(a, b)]
  | (k, v) :: r, a, b =>
    if a < k then (if b = 0 then (k, v) :: r else (a, b) :: (k, v) :: r)
    else if a = k then (if b = 0 then r else (a, b) :: r)
    else (k, v) :: Memory.set r a b

/-- n bytes from an address. -/
def Memory.read (m : Memory) (a n : Nat) : List Byte := (List.range n).map fun i => m.get (a + i)

/-- Writes a byte string from an address. -/
def Memory.write : Memory → Nat → List Byte → Memory
  | m, _, [] => m
  | m, a, b :: bs => Memory.write (m.set a b) (a + 1) bs

/-- A byte string as a number, little-endian (00 R8). -/
def bytesToNat : List Byte → Nat
  | [] => 0
  | b :: bs => b.toNat + 256 * bytesToNat bs

/-- The low n bytes of a number, little-endian (00 R8). -/
def natToBytes : Nat → Nat → List Byte
  | 0, _ => []
  | n + 1, v => BitVec.ofNat 8 v :: natToBytes n (v / 256)

/-- A byte string as a word. -/
def bytesToWord (bs : List Byte) : Word := BitVec.ofNat 64 (bytesToNat bs)

/-- The 8 bytes of a word. -/
def wordBytes (w : Word) : List Byte := natToBytes 8 w.toNat

/-- The 64 bytes of a line. -/
def lineBytes (l : Line) : List Byte := natToBytes 64 l.toNat

/-- A line from its bytes; missing bytes are 0. -/
def bytesToLine (bs : List Byte) : Line := BitVec.ofNat 512 (bytesToNat bs)

/-- A byte string cut in pieces of n bytes, k of them. -/
def cut (n : Nat) : Nat → List Byte → List (List Byte)
  | 0, _ => []
  | k + 1, bs => bs.take n :: cut n k (bs.drop n)

/-- The words of a byte string. -/
def bytesToWords (k : Nat) (bs : List Byte) : List Word := (cut 8 k bs).map bytesToWord

/-- Inserts a number in a rising list without repeats. -/
def insertSorted (a : Nat) : List Nat → List Nat
  | [] => [a]
  | b :: r => if a < b then a :: b :: r else if a = b then b :: r else b :: insertSorted a r

/-- Sets position i of a list. -/
def setAt {α : Type} (l : List α) (i : Nat) (a : α) : List α := l.set i a

/-- The sum of a list of numbers. -/
def sumOf (l : List Nat) : Nat := l.foldl (· + ·) 0

/-- The first element that minimises a number, if any. -/
def minBy {α : Type} (f : α → Nat) : List α → Option α
  | [] => none
  | a :: r =>
    match minBy f r with
    | none => some a
    | some b => if f b < f a then some b else some a

/-- Inserts an element before the first that it comes before. -/
def insertBy {α : Type} (lt : α → α → Bool) (a : α) : List α → List α
  | [] => [a]
  | b :: r => if lt a b then a :: b :: r else b :: insertBy lt a r

/-- A list in order, equal elements as they stood. -/
def sortBy {α : Type} (lt : α → α → Bool) (l : List α) : List α := l.foldl (fun acc a => insertBy lt a acc) []

end Sys2Proof.Machine
end

