-- ==== Sys2Proof/Machine/Ops.lean ====
section
/-! DEFINITION. The named operations over contexts, cores, tiles and the device: registers, the program counter and its loop, taking a trap and returning from one. -/

namespace Sys2Proof

/-- The logical tile of a core. -/
def CoreId.tile (c : CoreId) : TileId := ⟨c.l, c.t⟩

/-- The core of a role of a tile. -/
def TileId.core (t : TileId) (r : Role) : CoreId := ⟨t.l, t.t, r⟩

/-- The code of a role (04 Table 4.4). -/
def Role.code : Role → Nat
  | .mc => 0
  | .fc => 1
  | .ac => 2
  | .steward => 3

/-- The role of a code 0 to 2. -/
def Role.ofCode : Nat → Role
  | 0 => .mc
  | 1 => .fc
  | 2 => .ac
  | _ => .steward

end Sys2Proof

namespace Sys2Proof.Machine

/-- What exec answers: every unit and every device step ends in a next state. -/
abbrev Outcome := Host.Outcome State Fault Refusal

/-! ### Reading and writing the parts of the state -/

/-- A context; an unlisted one is free, at steward level on a die steward (04 R112). -/
def State.ctx (s : State) (id : CtxId) : Ctx :=
  match s.ctxs.get? id with
  | some c => c
  | none => if id.core.r = .steward then { Ctx.init with level := 3 } else Ctx.init

/-- Replaces a context. -/
def State.setCtx (s : State) (id : CtxId) (c : Ctx) : State := { s with ctxs := s.ctxs.set id c }

/-- Changes a context. -/
def State.modCtx (s : State) (id : CtxId) (f : Ctx → Ctx) : State := s.setCtx id (f (s.ctx id))

/-- A core. -/
def State.core (s : State) (id : CoreId) : Core := s.cores.getD id Core.init

/-- Replaces a core. -/
def State.setCore (s : State) (id : CoreId) (c : Core) : State := { s with cores := s.cores.set id c }

/-- Changes a core. -/
def State.modCore (s : State) (id : CoreId) (f : Core → Core) : State := s.setCore id (f (s.core id))

/-- A logical tile. -/
def State.tile (s : State) (id : TileId) : Tile := s.tiles.getD id Tile.init

/-- Replaces a tile. -/
def State.setTile (s : State) (id : TileId) (t : Tile) : State := { s with tiles := s.tiles.set id t }

/-- Changes a tile. -/
def State.modTile (s : State) (id : TileId) (f : Tile → Tile) : State := s.setTile id (f (s.tile id))

/-- A home's ordering state. -/
def State.home (s : State) (h : Home) : HomeSt := s.homes.getD h HomeSt.init

/-- Changes a home's ordering state. -/
def State.modHome (s : State) (h : Home) (f : HomeSt → HomeSt) : State := { s with homes := s.homes.set h (f (s.home h)) }

/-- Changes a tile task, if it exists. -/
def State.modTT (s : State) (t : TTId) (f : TileTask → TileTask) : State :=
  match s.tts.get? t with
  | none => s
  | some x => { s with tts := s.tts.set t (f x) }

/-- Changes a launch, if it exists. -/
def State.modLaunch (s : State) (l : Nat) (f : Launch → Launch) : State :=
  match s.launches.get? l with
  | none => s
  | some x => { s with launches := s.launches.set l (f x) }

/-- Changes a partition, if it exists. -/
def State.modPart (s : State) (t : BitVec 8) (f : Partition → Partition) : State :=
  match s.parts.get? t with
  | none => s
  | some x => { s with parts := s.parts.set t (f x) }

/-- An interface (17 Table 17.1). -/
def State.iface (s : State) (n : Nat) : Iface := s.ifaces.getD n Iface.init

/-- Changes an interface. -/
def State.modIface (s : State) (n : Nat) (f : Iface → Iface) : State := { s with ifaces := s.ifaces.set n (f (s.iface n)) }

/-- A zone (16 R443). -/
def State.zone (s : State) (n : Nat) : Zone := s.zones.getD n Zone.init

/-- Changes a zone. -/
def State.modZone (s : State) (n : Nat) (f : Zone → Zone) : State := { s with zones := s.zones.set n (f (s.zone n)) }

/-- A power group (16 R443). -/
def State.power (s : State) (n : Nat) : PowerGroup := s.groups.getD n PowerGroup.init

/-- Changes a power group. -/
def State.modPower (s : State) (n : Nat) (f : PowerGroup → PowerGroup) : State := { s with groups := s.groups.set n (f (s.power n)) }

/-- A die (18 R490). -/
def State.die (s : State) (n : Nat) : Die := s.dies.getD n Die.init

/-- Changes a die. -/
def State.modDie (s : State) (n : Nat) (f : Die → Die) : State := { s with dies := s.dies.set n (f (s.die n)) }

/-- The stack's HBM. -/
def State.stack (s : State) (n : Nat) : Memory := s.hbm.getD n []

/-- The host memory behind a link. -/
def State.hostMem (s : State) (n : Nat) : Memory := s.host.getD n []

/-- The context whose unit runs. -/
def State.here (s : State) : Ctx := s.ctx s.cur

/-- The core whose unit runs. -/
def State.hereCore (s : State) : Core := s.core s.cur.core

/-- Width X of a launch's grid; 0 for a launch that does not exist. -/
def State.gridX (s : State) (l : Nat) : Nat := ((s.launches.get? l).map (·.x)).getD 0

/-- X times Y of a launch's grid (01 R19). -/
def State.gridSize (s : State) (l : Nat) : Nat := ((s.launches.get? l).map fun x => x.x * x.y).getD 0

/-- Whether a launch runs in free mode; a launch that does not exist counts as free. -/
def State.isFree (s : State) (l : Nat) : Bool := ((s.launches.get? l).map (·.free)).getD true

/-- A number not used before, and the state that has used it. -/
def State.take (s : State) : Nat × State := (s.fresh, { s with fresh := s.fresh + 1 })

/-! ### Scalar registers -/

/-- A scalar register as a 5-bit field names it: s0 is 0, numbers 24 to 31 name h0 to h7 inside a user-interrupt handler (02 R66, R67). -/
def Ctx.reg (c : Ctx) (n : BitVec 5) : Word :=
  if n = 0 then 0
  else if c.uih && decide (24 ≤ n.toNat) then c.shadow.getD (n.toNat - 24) 0
  else c.regs.getD n.toNat 0

/-- Writes a scalar register; a write of s0 is discarded (02 R66, R67). -/
def Ctx.setReg (c : Ctx) (n : BitVec 5) (v : Word) : Ctx :=
  if n = 0 then c
  else if c.uih && decide (24 ≤ n.toNat) then { c with shadow := c.shadow.setIfInBounds (n.toNat - 24) v }
  else { c with regs := c.regs.setIfInBounds n.toNat v }

/-- The register k places after a field's, for the forms that read several (06 Table 6.3). -/
def Ctx.regAt (c : Ctx) (n : BitVec 5) (k : Nat) : Word := c.reg (BitVec.ofNat 5 (n.toNat + k))

/-! ### The program counter and the hardware loop -/

/-- The loop's adjustment of the address of the next unit (04 R136). -/
def Ctx.jump (c : Ctx) (next : Word) : Ctx :=
  if c.loop.active = false then { c with pc := next }
  else if next = c.loop.stop then
    if 1 < c.loop.count.toNat then { c with pc := c.loop.start, loop := { c.loop with count := c.loop.count - 1 } }
    else { c with pc := next, loop := { c.loop with active := false } }
  else if next < c.loop.start ∨ c.loop.stop < next then { c with pc := next, loop := { c.loop with active := false } }
  else { c with pc := next }

/-- Counts a unit that the task executed below kernel level (03 R92, 04 R120). -/
def Ctx.counted (c : Ctx) (level : BitVec 2) : Ctx := if level = 0 then { c with count := c.count + 1 } else c

/-- Completes a unit that continues at an address: the unit is counted at the level it was executed at, the context runs on. -/
def Ctx.complete (c : Ctx) (level : BitVec 2) (next : Word) : Ctx := { (c.counted level).jump next with phase := .run, waited := 0 }

/-- Completes the current unit of length len. -/
def State.finish (s : State) (len : Nat) : State :=
  s.modCtx s.cur fun c => c.complete c.level (c.pc + BitVec.ofNat 64 len)

/-- Completes the current unit, which writes a scalar register. -/
def State.finishReg (s : State) (len : Nat) (d : BitVec 5) (v : Word) : State :=
  s.modCtx s.cur fun c => (c.setReg d v).complete c.level (c.pc + BitVec.ofNat 64 len)

/-! ### Trap causes (14 Table 14.7) -/

def causeIllegal : BitVec 8 := 0x01
def causeMasked : BitVec 8 := 0x02
def causeRole : BitVec 8 := 0x03
def causePriv : BitVec 8 := 0x04
def causeAlign : BitVec 8 := 0x05
def causeProt : BitVec 8 := 0x06
def causeSeglim : BitVec 8 := 0x07
def causeRights : BitVec 8 := 0x08
def causePage : BitVec 8 := 0x09
def causeStale : BitVec 8 := 0x0A
def causeLong : BitVec 8 := 0x0B
def causeBarover : BitVec 8 := 0x0C
def causeGroupgen : BitVec 8 := 0x0D
def causeXpart : BitVec 8 := 0x0E
def causeGang : BitVec 8 := 0x0F
def causeBrk : BitVec 8 := 0x10
def causeTrap : BitVec 8 := 0x11
def causeSysc : BitVec 8 := 0x12
def causeDeadlock : BitVec 8 := 0x13
def causeZonelost : BitVec 8 := 0x14
def causeTilefault : BitVec 8 := 0x15

/-! ### Gangs -/

/-- Ends a gang that a context leads: its followers' gang contexts are discarded (08 R268). -/
def State.disband (s : State) (id : CtxId) : State :=
  match (s.ctx id).gang with
  | none => s
  | some g =>
    let s := g.members.foldl (fun s t => s.modCore (t.core .ac) fun k => { k with follows := none }) s
    s.modCtx id fun c => { c with gang := none }

/-! ### Taking a trap -/

/-- Whether a trap raised at a level goes to the hyper level (14 Table 14.6); a steward's stays at its own (14 R419). -/
def toHyper (level : BitVec 2) (code : BitVec 8) : Bool :=
  level = 2 || (level = 1 && (code = causePage || code = causePriv || code = causeSysc))

/-- The partition whose error log a core's reports go to: that of its launch. -/
def State.partOf (s : State) (c : CoreId) : BitVec 8 := ((s.launches.get? c.l).map (·.tag)).getD (s.core c).ptag

/-- Adds a record to a partition's error log on HW-B (14 R419). -/
def State.logError (s : State) (tag : BitVec 8) (r : ErrRecord) : State := s.modPart tag fun p => { p with errors := p.errors ++ [r] }

/-- A double trap: the context stops with its state as it was, and the steward records it (04 R119, 14 R419, 18 R512). -/
def State.doubleTrap (s : State) (id : CtxId) (code : BitVec 8) : State :=
  let c := s.ctx id
  let b := if toHyper c.level code then c.hbank else c.kbank
  (s.setCtx id { c with phase := .dead }).logError (s.partOf id.core) (.doubleTrap id b.epc code)

/-- The bank a trap enters, written by the steps of 04 R118. -/
def Bank.enter (b : Bank) (code : BitVec 8) (isAsync : Bool) (epc tval : Word) (level : BitVec 2) : Bank :=
  { b with code := code, async := isAsync, epc := epc, tval := tval, plevel := level, tnest := true }

/-- TAKING A TRAP, the one shared operation (04 R118, R119; 14 R418, R419; 18 R512): a context's gang disbands (08 R268), the bank saves
cause, epc, tval and the level, the loop is saved and cleared, the level becomes that of the bank, and the context fetches at cw.tvec. -/
def State.takeTrap (s : State) (id : CtxId) (code : BitVec 8) (isAsync : Bool) (epc tval : Word) : State :=
  let c := s.ctx id
  let k := s.core id.core
  let hy := toHyper c.level code
  if (if hy then c.hbank.tnest else c.kbank.tnest) || (if hy then k.tvecH else k.tvecK) = 0 then s.doubleTrap id code
  else
    let s := s.disband id
    s.modCtx id fun c =>
      let c := { c with savedLoop := c.loop, loop := { c.loop with active := false }, phase := .run, waited := 0,
                        level := if c.level = 3 then 3 else if hy then 2 else 1 }
      if hy then { c with hbank := c.hbank.enter code isAsync epc tval (s.ctx id).level, pc := k.tvecH }
      else { c with kbank := c.kbank.enter code isAsync epc tval (s.ctx id).level, pc := k.tvecK }

/-- The current unit traps synchronously: cw.epc names it (02 R42), and the unit has no other effect (00 R14). -/
def State.trap (s : State) (code : BitVec 8) (tval : Word) : State :=
  { s.takeTrap s.cur code false s.here.pc tval with trapped := some code }

/-! ### Decode tests -/

/-- The first feature of a form that the task's mask masks, at user and kernel level (02 R63, R64). -/
def Ctx.maskedFeature (c : Ctx) (feats : List Nat) : Option Nat :=
  if 2 ≤ c.level.toNat then none
  else feats.find? fun n => (c.task.elim 0 Task.prof).getLsbD n

/-- The tests MASKED, ROLE and PRIV of 02 R60, in that order, before a unit's own tests and effect. -/
def State.unitOn (s : State) (f : Form) (k : State → State) : State :=
  let s := { s with trapped := none }
  match s.here.maskedFeature f.feats with
  | some n => s.trap causeMasked ((f.bits <<< 32) ||| BitVec.ofNat 64 n)
  | none =>
    if f.roles.contains s.cur.core.r = false then s.trap causeRole f.bits
    else if s.here.level.toNat < f.level then s.trap causePriv f.bits
    else k s

/-- A unit's meaning: its decode tests, then what it does. -/
def unit (f : Form) (s : State) (k : State → State) : Outcome := .next (s.unitOn f k)

/-! ### Tile designators and the window (01) -/

/-- A two's complement field as an integer. -/
def sfield (w : Word) (lo n : Nat) : Int := (w.extractLsb' lo n).toInt

/-- Resolves a tile designator for a core's tile: none when it traps PROT (01 R22, R23). -/
def State.resolve (s : State) (c : CoreId) (d : Word) : Option Nat :=
  match s.launches.get? c.l with
  | none => none
  | some l =>
    if d.getLsbD 63 = false then
      if d.extractLsb' 20 43 = 0 ∧ (d.extractLsb' 0 20).toNat < l.x * l.y then some (d.extractLsb' 0 20).toNat else none
    else if d.extractLsb' 53 10 = 0 ∧ d.extractLsb' 21 11 = 0 then
      let x := Int.emod ((c.t % l.x : Nat) + sfield d 0 21) l.x
      let y := Int.emod ((c.t / l.x : Nat) + sfield d 32 21) l.y
      some (y.toNat * l.x + x.toNat)
    else none

/-- An address in the scratchpad window (01 Table 1.3). -/
def inWindow (a : Word) : Bool := a.extractLsb' 40 24 = 0x10

/-- An address in the reserved range above the window (01 Table 1.3). -/
def inReserved (a : Word) : Bool := decide (0x110000000000 ≤ a.toNat ∧ a.toNat < 0x200000000000)

/-- The tile number of a window address (01 R32). -/
def windowTile (a : Word) : Nat := (a.extractLsb' 20 20).toNat

/-- The scratchpad offset of a window address (01 R32). -/
def windowOff (a : Word) : Nat := (a.extractLsb' 0 20).toNat

/-- The window address of an offset of a tile (01 R32). -/
def windowAddr (t off : Nat) : Word := BitVec.ofNat 64 (0x100000000000 + t * 1048576 + off)

/-! ### Sequence numbers and spawn indices (12 R351, R353) -/

/-- Whether the running task's numbered units take sequence numbers: below kernel level, not in an upcall, in a tile task (12 R353, 14 R414, R421). -/
def Ctx.numbered (c : Ctx) : Option TTId :=
  match c.task with
  | none => none
  | some t => if c.level = 0 ∧ t.kind ≠ .upcall ∧ t.kind ≠ .notice then t.tt else none

/-- The numbered units that a core has issued for a tile task. -/
def TileTask.seqOf (t : TileTask) (r : Role) : Nat := t.seqs.getD r.code 0

/-- The sequence word of number n on a role: seq[31:30] the role, seq[29:0] the number (12 R353). -/
def seqWord (r : Role) (n : Nat) : BitVec 32 := BitVec.ofNat 32 (r.code * 1073741824 + n)

/-- The number that the next numbered unit of a context takes for its tile task: a number given back, else the next one (12 R353). -/
def Ctx.nextSeq (c : Ctx) (t : TileTask) (r : Role) : Nat := c.redo.getD (t.seqOf r + 1)

/-- Takes the next sequence number of the current unit, if it takes one; none when n would be 2^30 (12 R353). -/
def State.takeSeq (s : State) : Option (Option Key × State) :=
  match s.here.numbered with
  | none => some (none, s)
  | some tt =>
    match s.tts.get? tt with
    | none => some (none, s)
    | some t =>
      let n := s.here.nextSeq t s.cur.core.r
      if n = 1073741824 then none
      else some (some ⟨tt.l, tt.path, seqWord s.cur.core.r n⟩,
        (s.modCtx s.cur fun c => { c with redo := none }).modTT tt fun t =>
          { t with seqs := setAt t.seqs s.cur.core.r.code (max n (t.seqOf s.cur.core.r)) })

/-- The ticket word of a path with a sequence number (12 Table 12.1). -/
def ticketWord (path : List (BitVec 16)) (seq : BitVec 32) : BitVec 128 :=
  BitVec.ofNat 128 (((path.getD 0 0).toNat <<< 112) + ((path.getD 1 0).toNat <<< 96) + ((path.getD 2 0).toNat <<< 80) +
    ((path.getD 3 0).toNat <<< 64) + ((path.getD 4 0).toNat <<< 48) + ((path.getD 5 0).toNat <<< 32) + seq.toNat)

/-- cw.ticket of a context (12 R350); 0 without a tile task. -/
def Ctx.ticket (c : Ctx) : BitVec 128 :=
  match c.task with
  | none => 0
  | some t =>
    match t.tt with
    | none => 0
    | some tt => ticketWord tt.path 0

/-- Takes the next spawn index of a tile task on a core: none when c would pass 16,383 or the path has six elements (05 R157, 12 R351). -/
def State.takeSpawn (s : State) (tt : TTId) (r : Role) : Option (BitVec 16 × State) :=
  match s.tts.get? tt with
  | none => none
  | some t =>
    let c := t.spawns.getD r.code 0
    if 16383 < c ∨ 6 ≤ tt.path.length then none
    else some (BitVec.ofNat 16 (r.code * 16384 + c), s.modTT tt fun t => { t with spawns := setAt t.spawns r.code (c + 1) })

end Sys2Proof.Machine
end

