-- ==== Sys2Proof/Machine/Net.lean ====
section
/-! DEFINITION. Where tiles stand, and sending: bundles, zones, tags, flights, credits, increments (06, 15, 16, 17). -/

namespace Sys2Proof

/-- The zone of a physical tile (15 R424): four quadrants of 16 x 12 tiles a die. -/
def PTile.zoneOf (p : PTile) : Nat := 4 * p.die + p.x / 16 + 2 * (p.y / 12)

end Sys2Proof

namespace Sys2Proof.Machine

/-! ### Places of tiles (15 R424 to R427, 16 R443) -/

/-- The bundle number of a logical tile in a grid of width x (15 R426). -/
def bundleOf (x t : Nat) : Nat := (t / x) * ((x + 7) / 8) + (t % x) / 8

/-- The cores of tiles. -/
def coresOf (ts : List TileId) : List CoreId := ts.flatMap fun t => [t.core .mc, t.core .fc, t.core .ac]

/-- The contexts of tiles. -/
def ctxsOf (ts : List TileId) : List CtxId := (coresOf ts).flatMap fun c => (List.range 4).map fun i => ⟨c, i⟩

/-- The bundle that holds a logical tile. -/
def State.bundle (s : State) (t : TileId) : Option Bundle := s.bundles.get? (t.l, bundleOf (s.gridX t.l) t.t)

/-- The power group of a zone (16 R443). -/
def powerOf (zone : Nat) : Nat := zone / 13

/-- The physical tile that serves a logical tile, while its bundle is resident, folding or unfolding (15 R427). -/
def State.physical (s : State) (t : TileId) : Option PTile :=
  match s.bundle t with
  | none => none
  | some b =>
    match b.st with
    | .folded => none
    | .remapping => none
    | _ => some { b.home with x := b.home.x + (t.t % s.gridX t.l) % 8 }

/-- Whether a logical tile is resident: it serves arrivals and starts activations (15 R433, R435). -/
def State.resident (s : State) (t : TileId) : Bool :=
  match s.bundle t with
  | none => true
  | some b => decide (b.st = .resident)

/-- The generation of a tile's table entry (15 R429). -/
def State.genOf (s : State) (t : TileId) : Nat := ((s.bundle t).map (·.gen)).getD 0

/-- The zone in which a logical tile stands. -/
def State.zoneOf (s : State) (t : TileId) : Option Nat := (s.physical t).map PTile.zoneOf

/-- The zone and round tag of what a core sends to a tile (16 R450): none inside one zone; a tile that no frame serves lies in no zone. -/
def State.roundTag (s : State) (src : CoreId) (dst : TileId) : Option (Nat × BitVec 32) :=
  match s.zoneOf src.tile with
  | none => none
  | some a => if src.tile = dst ∨ s.zoneOf dst = some a then none else some (a, (s.zone a).round)

/-- A round that has not been mirrored yet: the open one, or the one streaming (16 R446, R449); a zone without a buddy has only the open one. -/
def State.unmirrored (s : State) (r : Nat × BitVec 32) : Bool :=
  let z := s.zone r.1
  r.2 = z.round || (z.buddy.isSome && (match z.streaming with
    | some i => i.round = r.2
    | none => false))

/-! ### Sending -/

/-- Whether a packet is held at its destination until its round is mirrored (16 R450). -/
def Packet.tagged : Packet → Bool
  | .message _ _ => true
  | .spawn _ _ _ => true
  | .increment _ _ => true
  | .effect _ _ => true
  | .wait _ _ _ _ _ => true
  | .barArr _ _ _ _ _ _ => true
  | .barReg _ _ _ _ _ => true
  | .barBind _ _ _ _ _ _ => true
  | .grpChange _ _ _ _ _ _ => true
  | .grpUpdate _ _ _ _ _ _ _ => true
  | _ => false

/-- The zone and round of a packet (16 R450). What leaves the module by a remote edge lies outside every zone. -/
def State.tagOf (s : State) (src : Option CoreId) (dst : Option TileId) (p : Packet) : Option (Nat × BitVec 32) :=
  match p, src, dst with
  | .message _ _, some c, none => (s.zoneOf c.tile).map fun z => (z, (s.zone z).round)
  | p, some c, some t => if p.tagged then s.roundTag c t else none
  | _, _, _ => none

/-- The generation by which a tile's NI routes to a tile (15 R430): its cached entry, else the table's, which it then caches, 256 at most, the oldest leaving. -/
def State.routed (s : State) (src : Option CoreId) (dst : Option TileId) : Nat × State :=
  match src, dst with
  | some c, some t =>
    if c.tile = t then (s.genOf t, s)
    else
      match (s.tile c.tile).cache.get? t.t with
      | some g => (g, s)
      | none =>
        let g := s.genOf t
        (g, s.modTile c.tile fun x =>
          { x with cache := if x.cache.length < 256 then x.cache ++ [(t.t, g)] else x.cache.drop 1 ++ [(t.t, g)] })
  | none, some t => (s.genOf t, s)
  | _, none => (0, s)

/-- The zone of a core with its open round (16 R450). -/
def State.sentBy (s : State) (c : CoreId) : Option (Nat × BitVec 32) := (s.zoneOf c.tile).map fun z => (z, (s.zone z).round)

/-- The issuer of an access or request that a packet carries. -/
def Packet.issuer : Packet → Option Issuer
  | .read _ _ b _ _ _ _ => some b
  | .effect _ e => some e.by_
  | .wait _ _ b _ _ => some b
  | .walk a _ _ => some a.by_
  | .barArr _ _ _ _ b _ => some b
  | .barReg _ _ _ b _ => some b
  | .barBind _ _ _ _ b _ => some b
  | .grpChange _ _ _ _ b _ => some b
  | _ => none

/-- The partition tag that a packet carries (06 R176, 17 R464): its issuer's at issue, else its sender's, or for an answer that of the launch. -/
def State.packetTag (s : State) (src : Option CoreId) (dst : Option TileId) (p : Packet) : BitVec 8 :=
  match p.issuer with
  | some b => b.tag
  | none => (src.map fun c => (s.core c).ptag).getD (((dst.bind fun t => s.launches.get? t.l).map (·.tag)).getD 0)

/-- Sends a packet: it takes the next number, its sender's tag, the generation of the entry that routes it and its zone and round. -/
def State.sendSt (s : State) (src : Option CoreId) (dst : Option TileId) (p : Packet) (st : FlightSt) : State :=
  let r := s.routed src dst
  let f : Flight :=
    { id := s.fresh, src := src, dst := dst, pkt := p, st := st, tries := 0,
      tag := s.packetTag src dst p,
      gen := r.1, round := s.tagOf src dst p, sent := src.bind s.sentBy }
  { r.2 with fresh := s.fresh + 1, net := s.net ++ [f] }

/-- Sends a packet straight into the network. -/
def State.send (s : State) (src : Option CoreId) (dst : Option TileId) (p : Packet) : State := s.sendSt src dst p .transit

/-- Adds 1 to a waiting-task entry, counting at once: the counter stops at 0xFFFF_FFFF (05 R147). -/
def State.incrEntry (s : State) (c : CoreId) (e : Nat) : State :=
  s.modCore c fun k =>
    let w := k.wtt.getD e WEntry.init
    { k with wtt := k.wtt.set e { w with counter := if w.counter = BitVec.allOnes 32 then w.counter else w.counter + 1 } }

/-- Adds 1 to a waiting-task entry once the units of this cycle have issued: a unit that reaches the entry in the same cycle comes first (05 R147, 13 R392). -/
def State.incrLater (s : State) (c : CoreId) (e : Nat) : State := { s with later := s.later ++ [(c, e)] }

/-- Applies the increments that follow the units of this cycle (05 R147). -/
def State.applyLater (s : State) : State := s.later.foldl (fun s x => s.incrEntry x.1 x.2) { s with later := [] }

/-- Sends an increment as a hardware message (05 R147, 13 R382): a tile's NI injects it at level 0 (06 R187). -/
def State.sendIncr (s : State) (src : Option CoreId) (c : CoreId) (e : Nat) : State :=
  s.sendSt src (some c.tile) (.increment c e) (if src.isSome then .queued [] else .transit)

/-- The channel n of a core; unnamed channels are closed (06 R180). -/
def Core.chan (k : Core) (n : Nat) : Chan := k.chans.getD n Chan.closed

/-- Changes a channel of a core. -/
def State.modChan (s : State) (c : CoreId) (n : Nat) (f : Chan → Chan) : State :=
  s.modCore c fun k => { k with chans := k.chans.set n (f (k.chan n)) }

/-- The payload flits of n words (06 R176). -/
def payloadFlits (n : Nat) : Nat := (n + 7) / 8

/-- The flits of a message, header included (06 R181). -/
def Message.flits (m : Message) : Nat := 1 + payloadFlits m.words.length

/-- The return of a refused message by a core (06 R191): to its sender, with its payload. DESIGN CHOICE, log 74: it carries the refused message's own key, by
which the sender's end orders it in ordered mode. -/
def Message.returned (m : Message) (by_ : CoreId) (uid : Nat) : Message :=
  { m with src := by_, sendCh := m.ch, refused := true, reply := false, direct := true, uid := uid }

/-- Buffer flits in use (06 R181). -/
def Chan.used (c : Chan) : Nat := sumOf ((c.msgs.filter fun m => !m.hampered).map fun m => m.msg.flits)

/-- Flits of the messages in the hamper. -/
def Chan.hampUsed (c : Chan) : Nat := sumOf ((c.msgs.filter fun m => m.hampered).map fun m => m.msg.flits)

/-- Refills the buffer from the hamper, oldest first, as far as they fit (06 R188). -/
def refill (free : Nat) : List EndMsg → List EndMsg
  | [] => []
  | m :: r =>
    if m.hampered = false then m :: refill free r
    else if m.msg.flits ≤ free then { m with hampered := false } :: refill (free - m.msg.flits) r
    else m :: r

/-- Sends a frame on a remote edge (17 R487): it takes the next sequence number and is kept until it is acknowledged; while the port is down it stays here
(17 R488). -/
def State.pushEdge (s : State) (n : Nat) (f : PortFrame) : State :=
  match s.edges.get? n with
  | none => s
  | some e =>
    let f := { f with edge := n, seq := e.next }
    if s.down.contains e.port then { s with edges := s.edges.set n { e with next := e.next + 1, unacked := e.unacked ++ [(0, f)] } }
    else { s with edges := s.edges.set n { e with next := e.next + 1, unacked := e.unacked ++ [(s.cycle, f)] }, out := .frame e.port f :: s.out }

/-- Releases a message of a receive end: its flits go back to the send end, the buffer refills (06 R184, R186, R188). -/
def State.releaseMsg (s : State) (c : CoreId) (ch id : Nat) : State :=
  let k := (s.core c).chan ch
  match k.msgs.find? fun m => m.msg.id = id with
  | none => s
  | some m =>
    let s := s.modChan c ch fun k =>
      let k := { k with msgs := k.msgs.filter fun m => m.msg.id ≠ id }
      { k with msgs := refill (k.depth - k.used) k.msgs }
    match k.kind, k.edge, k.peer with
    | .bound, some n, _ => s.pushEdge n { edge := n, seq := 0, credit := some m.msg.flits, payload := [], tile := c.t, path := [], num := 0 }
    | .bound, none, some (p, pch) => s.send (some c) (some p.tile) (.credit p pch m.msg.flits)
    | _, _, _ => s

/-- The messages that an activation holds on a channel, oldest key first as they are listed (06 R185). -/
def Chan.held (c : Chan) (uid : Nat) : List EndMsg := c.msgs.filter fun m => m.holder = some uid

/-- Releases every message that an activation holds (06 R186). -/
def State.releaseAll (s : State) (c : CoreId) (uid : Nat) : State :=
  (s.core c).chans.foldl (fun s e => (e.2.held uid).foldl (fun s m => s.releaseMsg c e.1 m.msg.id) s) s

/-! ### Keys (01 R29; 12 R352, R358) -/

/-- The path of the static tile task of an index, among n of them (01 R29). -/
def staticPath (n i : Nat) : List (BitVec 16) := if n ≤ 65536 then [BitVec.ofNat 16 i] else [BitVec.ofNat 16 (i / 65536), BitVec.ofNat 16 i]

/-- The length of the paths of a launch's static tile tasks. -/
def State.staticDepth (s : State) (l : Nat) : Nat := (staticPath (((s.launches.get? l).map Launch.statics).getD 0) 0).length

/-- Whether a path comes before another in commit order (12 R352): pre-order over the fork tree. -/
def pathBefore : List (BitVec 16) → List (BitVec 16) → Bool
  | [], [] => false
  | [], _ :: _ => true
  | _ :: _, [] => false
  | a :: r, b :: q => if a = b then pathBefore r q else decide (a.toNat < b.toNat)

/-- Whether a launch number comes before another, in serial order (12 R358). -/
def serialBefore (a b : BitVec 16) : Bool := decide (1 ≤ (b - a).toNat ∧ (b - a).toNat ≤ 32767)

/-- The launch number of a launch in its stream. -/
def State.launchNumber (s : State) (l : Nat) : BitVec 16 := ((s.launches.get? l).map (·.number)).getD 0

/-- Commit order of tile tasks of one scope (12 R352, R358). -/
def State.ttBefore (s : State) (a b : TTId) : Bool :=
  if a.l = b.l then pathBefore a.path b.path else serialBefore (s.launchNumber a.l) (s.launchNumber b.l)

/-- Commit order of keys of one scope (12 R352). -/
def State.keyBefore (s : State) (a b : Key) : Bool :=
  if a.l = b.l ∧ a.path = b.path then decide (a.seq.toNat < b.seq.toNat) else s.ttBefore ⟨a.l, a.path⟩ ⟨b.l, b.path⟩

/-- Whether two launches share a ticket scope: they are one, or two of one stream (12 R355). -/
def State.sameScope (s : State) (a b : Nat) : Bool :=
  a = b || (match s.launches.get? a, s.launches.get? b with
    | some x, some y => x.scope = .stream && y.scope = .stream && x.stream = y.stream
    | _, _ => false)

/-- The front of a launch's scope: its unretired tile task that comes first in commit order (12 R359). -/
def State.front (s : State) (l : Nat) : Option TTId :=
  (s.tts.filter fun e => !e.2.retired && s.sameScope e.1.l l).foldl (fun best e =>
    match best with
    | none => some e.1
    | some b => if s.ttBefore e.1 b then some e.1 else some b) none

/-- Whether the front has reached or passed a tile task (12 R363, R364); always in free mode. -/
def State.frontAt (s : State) (t : TTId) : Bool :=
  s.isFree t.l || (match s.front t.l with
    | none => true
    | some f => f = t || s.ttBefore t f)

/-- Creates a tile task. One that a re-run creates again stays retired if it was: the scope's front has passed it (16 R454); and it stays voided
(12 R369). -/
def State.newTT (s : State) (t : TTId) (x : TileTask) : State :=
  { s with tts := s.tts.set t { x with retired := ((s.tts.get? t).map TileTask.retired).getD false,
                                       voided := x.voided || ((s.tts.get? t).map TileTask.voided).getD false } }

/-- Makes a tile task incomplete again when something of it arrives (05 R524). -/
def State.reopen (s : State) (t : TTId) : State := s.modTT t fun x => { x with done := false }

/-- Whether a core's tag is in its partition's permit mask (17 R464). -/
def State.permitted (s : State) (c : CoreId) : Bool :=
  match s.parts.get? (s.partOf c) with
  | none => true
  | some p => p.permit.getLsbD (s.core c).ptag.toNat

end Sys2Proof.Machine
end

