-- ==== Sys2Proof/Machine/Flags.lean ====
section
/-! DEFINITION. The five sticky float flags (03 Table 3.8), and how a unit sets them (03 R99). Which operation sets which stands beside it, in Numbers, Convert, Matrix and Homes. -/

namespace Sys2Proof.Machine

/-- The five sticky flags, in the bit places of 04 Table 4.2. -/
abbrev Flags := BitVec 5

/-- Invalid operation (03 R95, R96). -/
def flagNv : Flags := 1

/-- Division by zero: a pole of vrcp, vrsqrt or vlog2 (03 Table 3.8). -/
def flagDz : Flags := 2

/-- Overflow (03 R87). -/
def flagOf : Flags := 4

/-- Underflow: tiny and inexact (03 Table 3.8). -/
def flagUf : Flags := 8

/-- Inexact (03 R98). -/
def flagNx : Flags := 16

/-- Or-s flags into the issuing task's (03 R99); a unit executed at kernel level or above sets none (04 R120). -/
def State.setFlags (s : State) (f : Flags) : State := s.modCtx s.cur fun c => { c with flags := if c.level = 0 then c.flags ||| f else c.flags }

end Sys2Proof.Machine
end

