-- ==== Sys2Proof/Machine/Numbers.lean ====
section
/-! DEFINITION. Number formats, rounding, the stochastic-rounding hash, exact operations and correctly rounded functions (03 R80 to R99).
An exact magnitude that need not be a dyadic number is given by its floors at every binary place. -/

namespace Sys2Proof.Machine

/-! ### Formats (03 Tables 3.2, 3.3) -/

/-- Which encodings of the all-ones exponent are special (03 Table 3.3). -/
inductive Special where
  /-- Infinity at m = 0, NaN elsewhere: .f32, .f16, .bf16, .e5m2. -/
  | ieee
  /-- One NaN at m all ones: .e4m3. -/
  | nanOnly
  /-- None: .e3m2, .e2m3, .e2m1. -/
  | none
  deriving DecidableEq, Repr

/-- A floating format (03 Table 3.2). -/
structure Fmt where
  ebits : Nat
  mbits : Nat
  bias : Nat
  special : Special
  /-- R88 applies. -/
  narrow : Bool
  deriving DecidableEq, Repr

def fmtF32 : Fmt := { ebits := 8, mbits := 23, bias := 127, special := .ieee, narrow := false }
def fmtF16 : Fmt := { ebits := 5, mbits := 10, bias := 15, special := .ieee, narrow := true }
def fmtBf16 : Fmt := { ebits := 8, mbits := 7, bias := 127, special := .ieee, narrow := false }
def fmtE4m3 : Fmt := { ebits := 4, mbits := 3, bias := 7, special := .nanOnly, narrow := true }
def fmtE5m2 : Fmt := { ebits := 5, mbits := 2, bias := 15, special := .ieee, narrow := true }
def fmtE3m2 : Fmt := { ebits := 3, mbits := 2, bias := 3, special := .none, narrow := true }
def fmtE2m3 : Fmt := { ebits := 2, mbits := 3, bias := 1, special := .none, narrow := true }
def fmtE2m1 : Fmt := { ebits := 2, mbits := 1, bias := 1, special := .none, narrow := true }

/-- Bits of a format. -/
def Fmt.width (f : Fmt) : Nat := 1 + f.ebits + f.mbits

/-- The infinity of a format that has one, without its sign (03 Table 3.3). -/
def Fmt.infBits (f : Fmt) : Nat := (2 ^ f.ebits - 1) * 2 ^ f.mbits

/-- The canonical NaN (03 Table 3.3); 0 where the format has none. -/
def Fmt.nanBits (f : Fmt) : Nat :=
  match f.special with
  | .ieee => f.infBits + 2 ^ (f.mbits - 1)
  | .nanOnly => f.infBits + (2 ^ f.mbits - 1)
  | .none => 0

/-- The largest finite encoding, without its sign (03 Table 3.2). -/
def Fmt.maxBits (f : Fmt) : Nat :=
  match f.special with
  | .ieee => f.infBits - 1
  | .nanOnly => f.nanBits - 1
  | .none => 2 ^ (f.ebits + f.mbits) - 1

/-- Exponent of the unit of the smallest subnormal. -/
def Fmt.minExp (f : Fmt) : Int := 1 - (f.bias : Int) - (f.mbits : Int)

/-- A sign bit placed at the top of a format. -/
def Fmt.sign (f : Fmt) (neg : Bool) : Nat := if neg then 2 ^ (f.ebits + f.mbits) else 0

/-- An element type of 02 Table 2.5. -/
inductive ElemType where
  | float (f : Fmt)
  | int (signed : Bool) (w : Nat)
  deriving DecidableEq, Repr

/-- The type of a code (02 Table 2.5); .ce8 and the reserved code have no element value and stand as .n8. -/
def elemType : Nat → ElemType
  | 0 => .float fmtF32
  | 1 => .float fmtF16
  | 2 => .float fmtBf16
  | 3 => .float fmtE4m3
  | 4 => .float fmtE5m2
  | 5 => .float fmtE3m2
  | 6 => .float fmtE2m3
  | 7 => .float fmtE2m1
  | 9 => .int true 8
  | 10 => .int false 8
  | 11 => .int true 16
  | 12 => .int false 16
  | 13 => .int true 32
  | 14 => .int false 32
  | _ => .int false 8

/-- Bits of an element. -/
def ElemType.width : ElemType → Nat
  | .float f => f.width
  | .int _ w => w

/-! ### Integers (03 R80, R81) -/

/-- truncate (03 R81). -/
def truncInt (x : Int) (w : Nat) : Nat := (x % (2 ^ w : Nat)).toNat

/-- sext (03 R81). -/
def sextNat (p w : Nat) : Int := if p % 2 ^ w < 2 ^ (w - 1) then (p % 2 ^ w : Nat) else (p % 2 ^ w : Nat) - (2 ^ w : Nat)

/-- Smallest value of an integer type (03 Table 3.1). -/
def intMin (signed : Bool) (w : Nat) : Int := if signed then -(2 ^ (w - 1) : Nat) else 0

/-- Largest value of an integer type (03 Table 3.1). -/
def intMax (signed : Bool) (w : Nat) : Int := if signed then (2 ^ (w - 1) : Nat) - 1 else (2 ^ w : Nat) - 1

/-- clamp_range (03 R81). -/
def clampInt (x : Int) (signed : Bool) (w : Nat) : Int := min (max x (intMin signed w)) (intMax signed w)

/-- The value of an integer pattern. -/
def intValue (signed : Bool) (w p : Nat) : Int := if signed then sextNat p w else (p % 2 ^ w : Nat)

/-! ### Values -/

/-- A decoded operand: NaN, infinity, or (-1)^neg m 2^e, a zero having m = 0 (03 R82, R83). -/
inductive Val where
  | nan
  | inf (neg : Bool)
  | fin (neg : Bool) (m : Nat) (e : Int)
  deriving DecidableEq, Repr

/-- The value of an encoding (03 R82, R83). -/
def Fmt.decode (f : Fmt) (p : Nat) : Val :=
  let p := p % 2 ^ f.width
  let neg := decide (2 ^ (f.ebits + f.mbits) ≤ p)
  let e := (p / 2 ^ f.mbits) % 2 ^ f.ebits
  let m := p % 2 ^ f.mbits
  let finite : Val := if e = 0 then .fin neg m f.minExp else .fin neg (2 ^ f.mbits + m) (f.minExp + (e : Int) - 1)
  match f.special with
  | .ieee => if e = 2 ^ f.ebits - 1 then (if m = 0 then .inf neg else .nan) else finite
  | .nanOnly => if e = 2 ^ f.ebits - 1 ∧ m = 2 ^ f.mbits - 1 then .nan else finite
  | .none => finite

/-- The exact value of an integer. -/
def Val.ofInt (x : Int) : Val := .fin (decide (x < 0)) x.natAbs 0

/-- The value of an element of any type. -/
def ElemType.decode : ElemType → Nat → Val
  | .float f, p => f.decode p
  | .int s w, p => Val.ofInt (intValue s w p)

/-- NaN. -/
def Val.isNan : Val → Bool
  | .nan => true
  | _ => false

/-- Infinite. -/
def Val.isInf : Val → Bool
  | .inf _ => true
  | _ => false

/-- A zero. -/
def Val.isZero : Val → Bool
  | .fin _ 0 _ => true
  | _ => false

/-- The sign. -/
def Val.neg : Val → Bool
  | .nan => false
  | .inf n => n
  | .fin n _ _ => n

/-- Negates; NaN stays NaN (02 R53). -/
def Val.negate : Val → Val
  | .nan => .nan
  | .inf n => .inf !n
  | .fin n m e => .fin (!n) m e

/-- Absolute value; NaN stays NaN (02 R53). -/
def Val.abs : Val → Val
  | .nan => .nan
  | .inf _ => .inf false
  | .fin _ m e => .fin false m e

/-- Floor of m 2^k, and whether it is exact. -/
def shiftFloor (m : Nat) (k : Int) : Nat × Bool :=
  if 0 ≤ k then (m * 2 ^ k.toNat, true) else (m / 2 ^ (-k).toNat, m % 2 ^ (-k).toNat == 0)

/-- The signed mantissa of a finite value at unit 2^e, for e at most its own. -/
def scaled (neg : Bool) (m : Nat) (e q : Int) : Int :=
  let n : Int := (m * 2 ^ (e - q).toNat : Nat)
  if neg then -n else n

/-- Compares two finite values: -1, 0, 1 as an Int of their difference at a common unit. -/
def finDiff (na : Bool) (ma : Nat) (ea : Int) (nb : Bool) (mb : Nat) (eb : Int) : Int :=
  let q := min ea eb
  scaled na ma ea q - scaled nb mb eb q

/-- a < b, false when unordered; -0 equals +0 (03 R94). -/
def Val.lt : Val → Val → Bool
  | .nan, _ => false
  | _, .nan => false
  | .inf n, .inf k => n && !k
  | .inf n, .fin _ _ _ => n
  | .fin _ _ _, .inf k => !k
  | .fin na ma ea, .fin nb mb eb => decide (finDiff na ma ea nb mb eb < 0)

/-- a = b, false when unordered (03 R94). -/
def Val.eq : Val → Val → Bool
  | .nan, _ => false
  | _, .nan => false
  | .inf n, .inf k => n == k
  | .inf _, .fin _ _ _ => false
  | .fin _ _ _, .inf _ => false
  | .fin na ma ea, .fin nb mb eb => decide (finDiff na ma ea nb mb eb = 0)

/-! ### Exact results -/

/-- An exact result before rounding: NaN (with the invalid flag or not), infinity (with the divide-by-zero flag or not), a zero,
or a non-zero real given by its sign, the floor of its base-2 logarithm and the floors of |x| 2^k, each with whether |x| 2^k is that integer. -/
inductive Exact where
  | nan (nv : Bool)
  | inf (neg : Bool) (dz : Bool)
  | zero (neg : Bool)
  | real (neg : Bool) (lg : Int) (floorAt : Int → Nat × Bool)

/-- A dyadic result; a zero takes the sign given. -/
def Exact.dyadic (neg : Bool) (m : Nat) (e : Int) : Exact :=
  if m = 0 then .zero neg else .real neg ((Nat.log2 m : Int) + e) fun k => shiftFloor m (e + k)

/-- A value as an exact result. -/
def Val.exact : Val → Exact
  | .nan => .nan false
  | .inf n => .inf n false
  | .fin n m e => Exact.dyadic n m e

/-- Scales by 2^k, exactly (02 R53). -/
def Exact.scale : Exact → Int → Exact
  | .real n lg f, k => .real n (lg + k) fun j => f (j + k)
  | x, _ => x

/-- The exact sum (03 R94, R95, Table 3.7), as a value with its invalid flag. -/
def addVal : Val → Val → Val × Bool
  | .nan, _ => (.nan, false)
  | _, .nan => (.nan, false)
  | .inf n, .inf k => if n = k then (.inf n, false) else (.nan, true)
  | .inf n, .fin _ _ _ => (.inf n, false)
  | .fin _ _ _, .inf k => (.inf k, false)
  | .fin na ma ea, .fin nb mb eb =>
    let q := min ea eb
    let d := scaled na ma ea q + scaled nb mb eb q
    if d = 0 then (.fin (ma == 0 && mb == 0 && na && nb) 0 0, false) else (.fin (decide (d < 0)) d.natAbs q, false)

/-- The exact product (03 R94, R95, Table 3.7), as a value with its invalid flag. -/
def mulVal : Val → Val → Val × Bool
  | .nan, _ => (.nan, false)
  | _, .nan => (.nan, false)
  | .inf n, .inf k => (.inf (n != k), false)
  | .inf n, .fin k m _ => if m = 0 then (.nan, true) else (.inf (n != k), false)
  | .fin n m _, .inf k => if m = 0 then (.nan, true) else (.inf (n != k), false)
  | .fin na ma ea, .fin nb mb eb => (.fin (na != nb) (ma * mb) (ea + eb), false)

/-- The exact fused a b + c (03 R94, R95, Table 3.7). -/
def fmaVal (a b c : Val) : Val × Bool :=
  let p := mulVal a b
  let r := addVal p.1 c
  (r.1, p.2 || r.2)

/-- A value with its invalid flag as an exact result. -/
def exactOf (r : Val × Bool) : Exact := if r.2 then .nan true else r.1.exact

/-- The smaller or larger of two values: NaN with either NaN; -0 below +0 (08 R247, 03 R94, Table 3.7). -/
def minVal (a b : Val) : Val :=
  if a.isNan || b.isNan then .nan else if a.lt b then a else if b.lt a then b else if a.neg then a else b
def maxVal (a b : Val) : Val :=
  if a.isNan || b.isNan then .nan else if a.lt b then b else if b.lt a then a else if a.neg then b else a

/-! ### Rounding (03 R86 to R88, R94, R96 to R98) -/

/-- Rounding modes by their codes of 02 Table 2.7: 1 nearest even, 2 toward zero, 3 stochastic. -/
abbrev Mode := Nat

/-- The encoding of n units of 2^q, for n at most 2^(mbits + 1); without sign. -/
def Fmt.pack (f : Fmt) (n : Nat) (q : Int) : Nat :=
  if n < 2 ^ f.mbits then n
  else if n = 2 ^ (f.mbits + 1) then (q + 1 - f.minExp + 1).toNat * 2 ^ f.mbits
  else (q - f.minExp + 1).toNat * 2 ^ f.mbits + (n - 2 ^ f.mbits)

/-- Whether n units of 2^q exceed the largest finite value (03 R87). -/
def Fmt.exceeds (f : Fmt) (n : Nat) (q : Int) : Bool :=
  match f.decode f.maxBits with
  | .fin _ m e => decide (0 < finDiff false n q false m e)
  | _ => false

/-- The rounded count of units: lo, whether it is exact, the floors at 1 and 32 further places, the mode, the random word. -/
def roundUnits (lo : Nat) (exact : Bool) (half : Nat × Bool) (fine : Nat) (mode : Mode) (u : Nat) : Nat :=
  if exact then lo
  else if mode = 2 then lo
  else if mode = 3 then (if u < fine - lo * 4294967296 then lo + 1 else lo)
  else if half.1 = 2 * lo then lo
  else if half.2 && lo % 2 == 0 then lo
  else lo + 1

/-- Rounds an exact result to a format: the encoding and the flags (03 R86 to R88, R94, R96, R98). u is the random word of the element. -/
def roundTo (f : Fmt) (x : Exact) (mode : Mode) (u : Nat) : Nat × Flags :=
  match x with
  | .nan nv =>
    match f.special with
    | .none => (0, flagNv)
    | _ => (f.nanBits, if nv then flagNv else 0)
  | .inf n dz =>
    match f.special with
    | .ieee => (f.sign n + f.infBits, if dz then flagDz else 0)
    | .nanOnly => (f.nanBits, flagNv)
    | .none => (f.sign n + f.maxBits, flagOf ||| flagNx)
  | .zero n => (f.sign n, 0)
  | .real n lg fl =>
    let q := max (lg - (f.mbits : Int)) f.minExp
    let lo := fl (-q)
    let mode := if f.narrow && decide (lg < f.minExp) then 3
      else if mode = 3 && (f.exceeds lo.1 q || (lo.1 == (f.decode f.maxBits |> Val.units q) && !lo.2)) then 1 else mode
    let r := roundUnits lo.1 lo.2 (fl (1 - q)) (fl (32 - q)).1 mode u
    let tiny : Flags := if lo.2 then 0 else if lg < 1 - (f.bias : Int) then flagNx ||| flagUf else flagNx
    if f.exceeds r q then
      (f.sign n + (if f.special = .ieee ∧ mode ≠ 2 then f.infBits else f.maxBits), tiny ||| flagOf ||| flagNx)
    else (f.sign n + f.pack r q, tiny)
where
  /-- A finite value in whole units of 2^q. -/
  Val.units (q : Int) : Val → Nat
    | .fin _ m e => (shiftFloor m (e - q)).1
    | _ => 0

/-- saturate_finite (03 R87). -/
def Fmt.saturate (f : Fmt) (p : Nat) : Nat :=
  match f.decode p with
  | .inf n => f.sign n + f.maxBits
  | _ => p

/-- clamp to [-1, 1] (02 R53): NaN stays, -0 stays. -/
def Fmt.clampUnit (f : Fmt) (p : Nat) : Nat :=
  let one : Val := .fin false 1 0
  match f.decode p with
  | .nan => p
  | v => if one.lt v.abs then f.sign v.neg + f.bias * 2 ^ f.mbits else p

/-- The modifier word (02 Table 2.7). -/
structure Mods where
  rmode : Nat
  scale : Int
  absb : Bool
  absa : Bool
  negb : Bool
  nega : Bool
  clamp : Bool
  sat : Bool
  deriving DecidableEq, Repr

/-- The fields of a modifier word; none is all zero (02 R52, Table 2.7). -/
def modsOf : Option (BitVec 32) → Mods
  | none => { rmode := 0, scale := 0, absb := false, absa := false, negb := false, nega := false, clamp := false, sat := false }
  | some w =>
    { rmode := (w.extractLsb' 14 2).toNat, scale := (w.extractLsb' 6 8).toInt, absb := w.getLsbD 5, absa := w.getLsbD 4,
      negb := w.getLsbD 3, nega := w.getLsbD 2, clamp := w.getLsbD 1, sat := w.getLsbD 0 }

/-- Operand A under its modifiers (02 R53). -/
def Mods.opA (m : Mods) (v : Val) : Val :=
  let v := if m.absa then v.abs else v
  if m.nega then v.negate else v

/-- Operand B under its modifiers (02 R53). -/
def Mods.opB (m : Mods) (v : Val) : Val :=
  let v := if m.absb then v.abs else v
  if m.negb then v.negate else v

/-- finish: scaling, rounding, saturation, clamp (02 R53); the flags are those of the rounded result (03 R98). -/
def finishFloat (f : Fmt) (m : Mods) (x : Exact) (mode : Mode) (u : Nat) : Nat × Flags :=
  let r := roundTo f (x.scale m.scale) mode u
  let p := if m.sat then f.saturate r.1 else r.1
  (if m.clamp then f.clampUnit p else p, r.2)

/-- The effective rounding mode (03 R89). -/
def effMode (rmode : Nat) (cwRound : Nat) (default : Mode) : Mode := if rmode ≠ 0 then rmode else if cwRound ≠ 0 then cwRound else default

/-- Rounds a finite value to an integer, ties to even. -/
def roundInt (neg : Bool) (m : Nat) (e : Int) : Int × Bool :=
  let lo := shiftFloor m e
  let half := shiftFloor m (e + 1)
  let n := roundUnits lo.1 lo.2 half 0 1 0
  (if neg then -(n : Int) else n, lo.2)

/-- Converts to an integer type by ne (03 R96). -/
def toIntType (v : Val) (signed : Bool) (w : Nat) : Nat × Flags :=
  match v with
  | .nan => (0, flagNv)
  | .inf n => (truncInt (if n then intMin signed w else intMax signed w) w, flagNv)
  | .fin n m e =>
    let r := roundInt n m e
    if r.1 < intMin signed w ∨ intMax signed w < r.1 then (truncInt (clampInt r.1 signed w) w, flagNv)
    else (truncInt r.1 w, if r.2 then 0 else flagNx)

/-! ### The stochastic-rounding hash (03 R91, R92) -/

/-- One round of hash_sr. -/
def hashRound (x : Word × Word × Word × Word) : Word × Word × Word × Word :=
  let (a, b, c, d) := x
  let a := a + b
  let d := (d ^^^ a).rotateLeft 29
  let c := c + d
  let b := (b ^^^ c).rotateLeft 17
  let a := a + b
  let d := (d ^^^ a).rotateLeft 41
  let c := c + d
  let b := (b ^^^ c).rotateLeft 11
  (a + 0x9E3779B97F4A7C15, b, c, d)

/-- hash_sr (03 R91). -/
def hashSr (seed : Word) (ticket : BitVec 128) (index : Nat) (seqno : BitVec 32) : BitVec 32 :=
  let d : Word := (seqno.setWidth 64 <<< 32) ||| BitVec.ofNat 64 (index % 4294967296)
  let (a, b, c, d) := hashRound (hashRound (hashRound (hashRound (seed, ticket.extractLsb' 0 64, ticket.extractLsb' 64 64, d))))
  (a ^^^ b ^^^ c ^^^ d).setWidth 32

/-- What the random words of a unit are drawn from (03 R91 to R93). -/
structure Draw where
  seed : Word
  ticket : BitVec 128
  seqno : BitVec 32
  deriving DecidableEq, Repr

/-- The random word of element index. -/
def Draw.word (d : Draw) (index : Nat) : Nat := (hashSr d.seed d.ticket index d.seqno).toNat

/-! ### Reciprocals, roots and the transcendental functions (03 R90, 08 R249) -/

/-- Floor of the base-2 logarithm of n / d, for positive n and d. -/
def lgRatio (n d : Nat) : Int :=
  let g : Int := (Nat.log2 n : Int) - (Nat.log2 d : Int)
  if (if 0 ≤ g then decide (d * 2 ^ g.toNat ≤ n) else decide (d ≤ n * 2 ^ (-g).toNat)) then g else g - 1

/-- The exact n 2^e / d. -/
def exactRatio (neg : Bool) (n d : Nat) (e : Int) : Exact :=
  .real neg (lgRatio n d + e) fun k =>
    let j := e + k
    if 0 ≤ j then (n * 2 ^ j.toNat / d, n * 2 ^ j.toNat % d == 0) else (n / (d * 2 ^ (-j).toNat), n % (d * 2 ^ (-j).toNat) == 0)

/-- The exact square root of n 2^e / d: the floor of its product with 2^k is the integer root of n 2^(e + 2k) / d. -/
def exactRoot (n d : Nat) (e : Int) : Exact :=
  .real false ((lgRatio n d + e) / 2) fun k =>
    let j := e + 2 * k
    let (q, r) := if 0 ≤ j then (n * 2 ^ j.toNat / d, n * 2 ^ j.toNat % d) else (n / (d * 2 ^ (-j).toNat), n % (d * 2 ^ (-j).toNat))
    (Nat.sqrt q, r == 0 && Nat.sqrt q * Nat.sqrt q == q)

/-- Floor of a number between lo 2^e and hi 2^e, both excluded or equal, when the bounds fix it. -/
def floorOf (lo hi : Nat) (e : Int) : Option Nat :=
  let a := (shiftFloor lo e).1
  let b := shiftFloor hi e
  let b := if b.2 && decide (lo < hi) && decide (0 < b.1) then b.1 - 1 else b.1
  if a = b then some a else none

/-- The floor from the first of a list of enclosures that fixes it; the last one's lower bound if none does. Never exact. -/
def floorFrom (encl : Nat → Nat × Nat) (e : Nat → Int) : List Nat → Nat × Bool
  | [] => (0, false)
  | [p] => ((shiftFloor (encl p).1 (e p)).1, false)
  | p :: r =>
    match floorOf (encl p).1 (encl p).2 (e p) with
    | some n => (n, false)
    | none => floorFrom encl e r

/-- The working precisions tried in turn (log entry 27). -/
def precisions : List Nat := [256, 512, 1024]

/-- Bounds of 2^f, scaled by 2^p, for f the sum of 2^-(i + 1) over the bits of a number of n bits, highest first; root bounds 2^(2^-i). -/
def expBits (p : Nat) (frac : Nat) : Nat → Nat × Nat → Nat × Nat → Nat × Nat
  | 0, _, acc => acc
  | n + 1, root, acc =>
    let root := (Nat.sqrt (root.1 * 2 ^ p), Nat.sqrt (root.2 * 2 ^ p) + 1)
    let acc := if frac.testBit n then (acc.1 * root.1 / 2 ^ p, acc.2 * root.2 / 2 ^ p + 1) else acc
    expBits p frac n root acc

/-- The exact 2^x of x = (-1)^neg m 2^e, m not 0 (03 R90). Exact where x is an integer. -/
def exp2Exact (neg : Bool) (m : Nat) (e : Int) : Exact :=
  -- x in units of 2^-n, n bits of fraction; |x| beyond 2^12 acts as 2^12, far outside every format
  let n := (-e).toNat
  let big := decide (4096 ≤ (shiftFloor m e).1)
  let x : Int := if big then (if neg then -4096 else 4096) * (2 ^ n : Nat) else scaled neg m e (-(n : Int))
  let i : Int := Int.fdiv x (2 ^ n : Nat)
  let frac := (Int.fmod x (2 ^ n : Nat)).toNat
  if frac = 0 then .real false i fun k => shiftFloor 1 (i + k)
  else .real false i fun k =>
    if i + k < 0 then (0, false)
    else floorFrom (fun p => expBits p frac n (2 * 2 ^ p, 2 * 2 ^ p) (2 ^ p, 2 ^ p)) (fun p => i + k - (p : Int)) precisions

/-- Bits of log2 of y in [1, 2), y between lo and hi scaled by 2^p: n bits, with whether every bit was fixed. -/
def logBits (p : Nat) : Nat → Nat → Nat → Nat → Nat × Bool
  | 0, _, _, acc => (acc, true)
  | n + 1, lo, hi, acc =>
    let a := lo * lo / 2 ^ p
    let b := hi * hi / 2 ^ p + 1
    if 2 * 2 ^ p ≤ a then logBits p n (a / 2) (b / 2 + 1) (2 * acc + 1)
    else if b ≤ 2 * 2 ^ p then logBits p n a b (2 * acc)
    else (acc * 2 ^ (n + 1), false)

/-- Floor of log2(y) 2^n for y = m 2^-s in (1, 2), from the first precision that fixes it. -/
def logFloor (m s n : Nat) : List Nat → Nat
  | [] => 0
  | p :: r =>
    let b := logBits (p + n) n (m * 2 ^ (p + n) / 2 ^ s) (m * 2 ^ (p + n) / 2 ^ s + 1) 0
    if b.2 || r.isEmpty then b.1 else logFloor m s n r

/-- The exact log2 of m 2^e, m not 0 (03 R90). Exact where it is an integer; zero at 1, taken as +0 (DESIGN CHOICE, log 78: 03 Table 3.7 has no row for it). -/
def log2Exact (m : Nat) (e : Int) : Exact :=
  let s := Nat.log2 m
  let i : Int := (s : Int) + e
  if m = 2 ^ s then (if i = 0 then .zero false else .real (decide (i < 0)) (Nat.log2 i.natAbs) fun k => shiftFloor i.natAbs k)
  else
    -- log2 x = i + l, l in (0, 1); |log2 x| = i + l for i ≥ 0, else (-i) - l
    let fl (k : Int) : Nat × Bool :=
      let n := k.toNat
      let l := logFloor m s n precisions
      let v := if 0 ≤ i then i.natAbs * 2 ^ n + l else i.natAbs * 2 ^ n - l - 1
      (if k < 0 then v / 2 ^ (-k).toNat else v, false)
    -- l and 1 - l are above 2^-40 for 24-bit significands
    .real (decide (i < 0)) ((Nat.log2 (fl 64).1 : Int) - 64) fl

/-- Bounds of e^z for z = zn / 2^p in [0, 1/8), scaled by 2^p: the sum of t terms, the rest below the last. -/
def expSeries (p zlo zhi : Nat) : Nat → Nat → Nat × Nat → Nat × Nat → Nat × Nat
  | 0, _, term, acc => (acc.1, acc.2 + term.2 + 1)
  | t + 1, i, term, acc =>
    let term := (term.1 * zlo / (2 ^ p * i), term.2 * zhi / (2 ^ p * i) + 1)
    expSeries p zlo zhi t (i + 1) term (acc.1 + term.1, acc.2 + term.2)

/-- Squares bounds scaled by 2^p, n times. -/
def squares (p : Nat) : Nat → Nat × Nat → Nat × Nat
  | 0, r => r
  | n + 1, r => squares p n (r.1 * r.1 / 2 ^ p, r.2 * r.2 / 2 ^ p + 1)

/-- Bounds of tanh x for x = m 2^e in [2^-40, 64), scaled by 2^p: (t - 1) / (t + 1) for t = e^(2x), by a series at x / 2^10 and ten squarings. -/
def tanhBounds (p m : Nat) (e : Int) : Nat × Nat :=
  let z := shiftFloor m (e + 1 - 10 + (p : Int))
  let r := squares p 10 (expSeries p z.1 (z.1 + 1) (p / 3) 1 (2 ^ p, 2 ^ p) (2 ^ p, 2 ^ p))
  ((r.1 - 2 ^ p) * 2 ^ p / (r.1 + 2 ^ p), (r.2 - 2 ^ p) * 2 ^ p / (r.2 + 2 ^ p) + 1)

/-- The exact tanh of (-1)^neg m 2^e, m not 0 (03 R90): never exact.
Below 2^-40 it lies between x - x^3 / 3 and x; from 64 on, between 1 - 2^-180 and 1. -/
def tanhExact (neg : Bool) (m : Nat) (e : Int) : Exact :=
  let lg : Int := (Nat.log2 m : Int) + e
  if 6 ≤ lg then .real neg (-1) fun k => (2 ^ k.toNat - 1, false)
  else if lg < -40 then
    -- just below x: a power of two loses one binary place
    .real neg (if m = 2 ^ Nat.log2 m then lg - 1 else lg) fun k =>
      let j := e + k
      if 0 ≤ j then (m * 2 ^ j.toNat - 1, false)
      else
        let q := shiftFloor m j
        (if q.2 then q.1 - 1 else q.1, false)
  else
    let fl (k : Int) : Nat × Bool := floorFrom (fun p => tanhBounds p m e) (fun p => k - (p : Int)) precisions
    .real neg ((Nat.log2 (fl 128).1 : Int) - 128) fl

/-! ### The six functions (08 R249, Table 8.3) -/

/-- vrcp: of a NaN, NaN; of ±0, ±∞ with dz; of ±∞, ±0 (08 Table 8.3). -/
def rcpExact : Val → Exact
  | .nan => .nan false
  | .inf n => .zero n
  | .fin n m e => if m = 0 then .inf n true else exactRatio n 1 m (-e)

/-- vrsqrt (08 Table 8.3). -/
def rsqrtExact : Val → Exact
  | .nan => .nan false
  | .inf n => if n then .nan true else .zero false
  | .fin n m e => if m = 0 then .inf n true else if n then .nan true else exactRoot 1 m (-e)

/-- vsqrt (08 Table 8.3). -/
def sqrtExact : Val → Exact
  | .nan => .nan false
  | .inf n => if n then .nan true else .inf false false
  | .fin n m e => if m = 0 then .zero n else if n then .nan true else exactRoot m 1 e

/-- vexp2 (08 Table 8.3). -/
def exp2Of : Val → Exact
  | .nan => .nan false
  | .inf n => if n then .zero false else .inf false false
  | .fin n m e => if m = 0 then .real false 0 fun k => shiftFloor 1 k else exp2Exact n m e

/-- vlog2 (08 Table 8.3). -/
def log2Of : Val → Exact
  | .nan => .nan false
  | .inf n => if n then .nan true else .inf false false
  | .fin n m e => if m = 0 then .inf true true else if n then .nan true else log2Exact m e

/-- vtanh (08 Table 8.3). -/
def tanhOf : Val → Exact
  | .nan => .nan false
  | .inf n => .real n 0 fun k => shiftFloor 1 k
  | .fin n m e => if m = 0 then .zero n else tanhExact n m e

end Sys2Proof.Machine
end

