-- ==== Sys2Proof/Machine/Homes.lean ====
section
/-! DEFINITION. Homes: what an access does to memory and full/empty bits, which right it needs, what a read may see, and how a home orders the effects it is given
(07 R209 to R226; 11 R328 to R334; 12 R362 to R375). -/

namespace Sys2Proof.Machine

/-! ### Memory with its full/empty bits -/

/-- The bytes of a home and the offsets of its full words (07 R210); only scratchpad words have the bit. -/
structure Cells where
  mem : Memory
  full : List Nat
  deriving DecidableEq, Repr

/-- The memory of a home. -/
def State.cells (s : State) : Home → Cells
  | .tile t => { mem := (s.tile t).mem, full := (s.tile t).full }
  | .agent n => { mem := s.stack n, full := [] }
  | .host n => { mem := s.hostMem n, full := [] }

/-- Replaces the memory of a home. -/
def State.setCells (s : State) : Home → Cells → State
  | .tile t, c => s.modTile t fun x => { x with mem := c.mem, full := c.full }
  | .agent n, c => { s with hbm := s.hbm.set n c.mem }
  | .host n, c => { s with host := s.host.set n c.mem }

/-- The offsets of the words that bytes off to off + n - 1 touch. -/
def wordsOf (off n : Nat) : List Nat := if n = 0 then [] else (List.range ((off + n - 1) / 8 - off / 8 + 1)).map fun i => (off / 8 + i) * 8

/-- Sets or clears the bits of words (07 R224). -/
def Cells.mark (c : Cells) (fe : FE) (ws : List Nat) : Cells :=
  match fe with
  | .keep => c
  | .full => { c with full := ws.foldl (fun l w => insertSorted w l) c.full }
  | .empty => { c with full := c.full.filter fun w => !ws.contains w }

/-- The new value of an integer atomic (12 Table 12.4), w bits. -/
def amoNew (op w : Nat) (old b e : Nat) : Nat :=
  match op with
  | 0 => (old + b) % 2 ^ w
  | 1 => old &&& b
  | 2 => old ||| b
  | 3 => old ^^^ b
  | 4 => if sextNat old w ≤ sextNat b w then old else b
  | 5 => if sextNat old w ≤ sextNat b w then b else old
  | 6 => if old ≤ b then old else b
  | 7 => if old ≤ b then b else old
  | 8 => b
  | _ => if old = e then b else old

/-- The new element of a float atomic and its flags (12 R374): op 0 add by ne, 1 min, 2 max. -/
def famoNew (op : Nat) (f : Fmt) (old b : Nat) : Nat × Flags :=
  match op with
  | 0 => roundTo f (exactOf (addVal (f.decode old) (f.decode b))) 1 0
  | 1 => ((roundTo f (minVal (f.decode old) (f.decode b)).exact 1 0).1, 0)
  | _ => ((roundTo f (maxVal (f.decode old) (f.decode b)).exact 1 0).1, 0)

/-- One bits of a word. -/
def popcount (w : Word) : Nat := ((List.range 64).filter fun i => w.getLsbD i).length

/-- A bit-field atomic (12 Table 12.5): the new word and D. -/
def bfNew (op : Nat) (old b m : Word) : Word × Word :=
  match op with
  | 0 => ((old &&& ~~~m) ||| (b &&& m), old)
  | 1 =>
    match (List.range 64).find? fun i => b.getLsbD i && !old.getLsbD i with
    | none => (old, 64)
    | some i => (old ||| ((1 : Word) <<< i), BitVec.ofNat 64 i)
  | _ =>
    if popcount (old ||| b) ≤ m.toNat then (old ||| b, BitVec.ofNat 64 (256 + popcount (old ||| b)))
    else (old, BitVec.ofNat 64 (popcount old))

/-- The conversion of a drain (10 R307): of an exact value to a record's element type. -/
def drainConvert (t : ElemType) (fl : Bool) (v : Val × Bool) (draw : Nat) : Nat × Flags :=
  match t with
  | .float f => roundTo f (exactOf v) 2 draw
  | .int sg w =>
    if fl then
      if v.2 then (0, flagNv)
      else
        match v.1 with
        | .nan => (0, flagNv)
        | .inf n => (truncInt (if n then intMin sg w else intMax sg w) w, flagNv)
        | .fin n m e =>
          let r := shiftFloor m e
          let x : Int := if n then -(r.1 : Int) else r.1
          if x < intMin sg w ∨ intMax sg w < x then (truncInt (clampInt x sg w) w, flagNv) else (truncInt x w, if r.2 then 0 else flagNx)
    else
      match v.1 with
      | .fin n m e => (truncInt (clampInt (if n then -((shiftFloor m e).1 : Int) else (shiftFloor m e).1) sg w) w, 0)
      | _ => (0, 0)

/-- The value of an accumulator element. -/
def accValue (fl : Bool) (p : BitVec 32) : Val := if fl then fmtF32.decode p.toNat else Val.ofInt p.toInt

/-- w bits from bit position bit of a byte string. -/
def bitsAt (bs : List Byte) (bit w : Nat) : Nat := bytesToNat bs / 2 ^ bit % 2 ^ w

/-- Replaces w bits at bit position bit. -/
def putBits (bs : List Byte) (bit w v : Nat) : List Byte :=
  let n := bytesToNat bs
  natToBytes bs.length (n - bitsAt bs bit w * 2 ^ bit + v % 2 ^ w * 2 ^ bit)

/-- What one act does to the memory of its home, with the value it answers and the flags it sets (07 R223 to R225; 12 R370 to R375; 10 R307, R308). -/
def Act.run (a : Act) (c : Cells) : Cells × Option Word × Flags :=
  match a with
  | .write off bs fe => ({ c with mem := c.mem.write off bs }.mark fe (wordsOf off bs.length), none, 0)
  | .setEmpty off => (c.mark .empty [off], none, 0)
  | .bits off mask b fe =>
    ({ c with mem := c.mem.set off ((c.mem.get off &&& ~~~mask) ||| (b &&& mask)) }.mark fe (wordsOf off 1), none, 0)
  | .amo op off size b e =>
    let old := bytesToNat (c.mem.read off size)
    let w := 8 * size
    ({ c with mem := c.mem.write off (natToBytes size (amoNew op w old (b.toNat % 2 ^ w) (e.toNat % 2 ^ w))) }, some (BitVec.ofNat 64 old), 0)
  | .famo op off short b =>
    let f := if short then fmtBf16 else fmtF32
    let size := f.width / 8
    let old := bytesToNat (c.mem.read off size)
    let r := famoNew op f old (b.toNat % 2 ^ f.width)
    ({ c with mem := c.mem.write off (natToBytes size r.1) }, some (BitVec.ofNat 64 old), r.2)
  | .bf op off b m =>
    let old := bytesToWord (c.mem.read off 8)
    let r := bfNew op old b m
    ({ c with mem := c.mem.write off (wordBytes r.1) }, some r.2, 0)
  | .add off bit ty fl val draw fe =>
    let t := elemType ty
    let n := (bit + t.width + 7) / 8
    let bs := c.mem.read off n
    let old := t.decode (bitsAt bs bit t.width)
    let r := drainConvert t fl (addVal old (accValue fl val)) draw.toNat
    ({ c with mem := c.mem.write off (putBits bs bit t.width r.1) }.mark fe (wordsOf off n), none, r.2)
  | .wake _ _ => (c, none, 0)
  | .incr _ _ => (c, none, 0)

/-- The bytes that an act needs a right for: first offset and length. -/
def Act.range : Act → Nat × Nat
  | .write off bs _ => (off, bs.length)
  | .setEmpty off => (off, 8)
  | .bits off _ _ _ => (off, 1)
  | .amo _ off size _ _ => (off, size)
  | .famo _ off short _ => (off, if short then 2 else 4)
  | .bf _ off _ _ => (off, 8)
  | .wake off _ => (off, 8)
  | .add off bit ty _ _ _ _ => (off, (bit + (elemType ty).width + 7) / 8)
  | .incr _ _ => (0, 0)

/-- Whether an act is an atomic, which also needs the read right (07 Table 7.2). -/
def Act.isAtomic : Act → Bool
  | .amo _ _ _ _ _ => true
  | .famo _ _ _ _ => true
  | .bf _ _ _ _ => true
  | _ => false

/-- Whether a locked ring line denies the act (10 R288): every write; a wake writes nothing. -/
def Act.isWrite : Act → Bool
  | .wake _ _ => false
  | .incr _ _ => false
  | _ => true

/-! ### Protection (07 R211, R212; 10 R288) -/

/-- The rights of 07 Table 7.1, by their bit in a descriptor. -/
inductive Right where
  | lr
  | lw
  | rr
  | rw
  | eng
  deriving DecidableEq, Repr

/-- The bit of a right. -/
def Right.bit : Right → Nat
  | .lr => 1
  | .lw => 2
  | .rr => 3
  | .rw => 4
  | .eng => 5

/-- Whether a line has a right: the lowest-numbered enabled region that covers it decides (07 R212). -/
def lineRight (prot : List Word) (line : Nat) (r : Right) : Bool :=
  match prot.find? fun d => d.getLsbD 0 && decide ((d.extractLsb' 12 14).toNat ≤ line) && decide (line ≤ (d.extractLsb' 26 14).toNat) with
  | none => false
  | some d => d.getLsbD r.bit

/-- The lines of a range. -/
def linesOf (off n : Nat) : List Nat := if n = 0 then [] else (List.range ((off + n - 1) / 64 - off / 64 + 1)).map fun i => off / 64 + i

/-- Whether a line belongs to a slot of an enabled ring (10 R288). -/
def Tile.locked (t : Tile) (line : Nat) : Bool :=
  t.rings.any fun r => r.2.en && decide (r.2.base ≤ line) && decide (line < r.2.base + r.2.lines * r.2.slots)

/-- The first denied line of a range (07 R212). -/
def Tile.deniedLine (t : Tile) (rights : List Right) (write : Bool) (off n : Nat) : Option Nat :=
  (linesOf off n).find? fun l => !(rights.all fun r => lineRight t.prot l r) || (write && t.locked l)

/-- The trap address of a denial (07 R523): the first byte of the first denied line of an access of several lines, else the access's first byte. -/
def deniedAddr (addr : Word) (off n line : Nat) : Word :=
  if (linesOf off n).length ≤ 1 then addr else addr + BitVec.ofNat 64 (line * 64) - BitVec.ofNat 64 off

/-- The rights that an effect needs at a tile (07 Table 7.2). DESIGN CHOICE, log 76: a sendw to the issuer's own tile needs lw, as the MC's own stores do. -/
def effectRights (own engine : Bool) (a : Act) : List Right :=
  if engine then [.eng] else if a.isAtomic then (if own then [.lr, .lw] else [.rr, .rw]) else if own then [.lw] else [.rw]

/-- Whether an issuer's own tile is this one. -/
def Issuer.ownTile (b : Issuer) (t : TileId) : Bool := decide (b.core.tile = t)

/-- The address at which a tile denies an effect, if it does. -/
def State.deniesEffect (s : State) (t : TileId) (e : Effect) : Option Word :=
  e.acts.findSome? fun a =>
    ((s.tile t).deniedLine (effectRights (e.by_.ownTile t) e.by_.engine a) a.isWrite a.range.1 a.range.2).map fun l =>
      deniedAddr (e.addr + BitVec.ofNat 64 a.range.1 - BitVec.ofNat 64 ((e.acts.head?.map fun x => x.range.1).getD 0)) a.range.1 a.range.2 l

/-- The address at which a tile denies a read, if it does. -/
def State.deniesRead (s : State) (t : TileId) (b : Issuer) (off n : Nat) (addr : Word) : Option Word :=
  ((s.tile t).deniedLine [if b.ownTile t then .lr else .rr] false off n).map fun l => deniedAddr addr off n l

/-! ### The front at a home (12 R359, R360; 16 R454) -/

/-- The re-run tile tasks by which a home orders: those of the mendings that have restored its tile (16 R454). -/
def State.rerunAt (s : State) : Home → List TTId
  | .tile t => (s.zones.filter fun z => z.2.restored.contains t).flatMap fun z => z.2.rerun
  | _ => []

/-- The front that a home of a launch's scope goes by: the mending front of a restored home where that lies before the scope's front (16 R454). -/
def State.homeFront (s : State) (h : Home) (l : Nat) : Option TTId :=
  ((s.rerunAt h).filter fun t => s.sameScope t.l l).foldl (fun best t =>
    match best with
    | none => some t
    | some b => if s.ttBefore t b then some t else some b) (s.front l)

/-- Whether the front at a home has reached or passed a tile task; always when it is not ordered. -/
def State.reached (s : State) (h : Home) (t : TTId) : Bool :=
  match s.homeFront h t.l with
  | none => true
  | some f => f = t || s.ttBefore t f

/-! ### What a read sees (11 R329, 07 R221) -/

/-- Whether an effect's round has been mirrored, or it carries none (16 R450). -/
def State.mirrored (s : State) (e : Effect) : Bool :=
  match e.round with
  | none => true
  | some r => !s.unmirrored r

/-- The tile task of a key. -/
def Key.tt (k : Key) : TTId := ⟨k.l, k.path⟩

/-- Whether an effect that a home holds is visible to a reader (11 R329; 07 R221 for the task's own, in whichever context it runs, 10 R325 for its engine's
reads). System software sees only applied writes, and its own. -/
def State.visible (s : State) (e : Effect) (b : Issuer) : Bool :=
  (!e.by_.engine && e.by_.core = b.core && e.by_.uid = b.uid && (!b.sys || e.by_.sys)) ||
  (match e.key, b.tt with
   | some k, some t => !b.sys && e.gated && s.mirrored e && s.sameScope k.l t.l && (k.tt = t || s.ttBefore k.tt t)
   | _, _ => false)

/-- Inserts an effect in commit order, after those it does not come before. -/
def State.insertEffect (s : State) (e : Effect) : List Effect → List Effect
  | [] => [e]
  | x :: r =>
    match e.key, x.key with
    | some k, some j => if s.sameScope k.l j.l && s.keyBefore k j then e :: x :: r else x :: s.insertEffect e r
    | _, _ => x :: s.insertEffect e r

/-- Effects in commit order, arrival order where their keys are one. -/
def State.sortEffects (s : State) (l : List Effect) : List Effect := l.foldl (fun acc e => s.insertEffect e acc) []

/-- The memory of a home as a reader sees it: every visible held effect applied in commit order (11 R329). -/
def State.view (s : State) (h : Home) (b : Issuer) : Cells :=
  (s.sortEffects ((s.home h).held.filter fun e => s.visible e b)).foldl (fun c e => e.acts.foldl (fun c a => (a.run c).1) c) (s.cells h)

/-! ### The command page, which device kernels reach on the link's own HW-B (17 R480, R481) -/

/-- The partition whose command page an offset of a home lies in, with the offset in that page (17 R480). Log entry 47. -/
def commandPageAt (h : Home) (off : Nat) : Option (BitVec 8 × Nat) :=
  match h with
  | .host n => (Config.commandPage n (off % 18446744073709551616 / 4096)).map fun t => (t, off % 4096)
  | _ => none

/-- Word w of a command page (17 R481): the commands, tail and head; what is reserved reads 0 (00 R11). -/
def Partition.pageWord (p : Partition) (w : Nat) : Word :=
  if w < 496 then p.cmds.getD w 0 else if w = 496 then p.ctail.setWidth 64 else if w = 497 then p.chead.setWidth 64 else 0

/-- A byte of a command page. -/
def Partition.pageByte (p : Partition) (i : Nat) : Byte := (p.pageWord (i / 8)).extractLsb' (8 * (i % 8)) 8

/-- Writes word w of a command page (17 R481): the commands and tail are RW. -/
def Partition.setPageWord (p : Partition) (w : Nat) (v : Word) : Partition :=
  if w < 496 then { p with cmds := p.cmds.set w v } else if w = 496 then { p with ctail := v.extractLsb' 0 32 } else p

/-- Writes a byte of a command page. -/
def Partition.setPageByte (p : Partition) (i : Nat) (b : Byte) : Partition :=
  p.setPageWord (i / 8) ((p.pageWord (i / 8) &&& ~~~((0xFF : Word) <<< (8 * (i % 8)))) ||| (b.setWidth 64 <<< (8 * (i % 8))))

/-- A write that the host interface delivers to a command page (17 R480, R481). -/
def State.writeCommands (s : State) (tag : BitVec 8) (o : Nat) (bs : List Byte) : State :=
  s.modPart tag fun p => (List.range bs.length).foldl (fun p i => p.setPageByte (o + i) (bs.getD i 0)) p

/-- Bytes of a command page as a device kernel reads them. -/
def State.readCommands (s : State) (tag : BitVec 8) (o n : Nat) : List Byte :=
  (List.range n).map fun i => ((s.parts.get? tag).map fun p => p.pageByte (o + i)).getD 0

/-- n bytes of a home as a reader sees them. -/
def State.readHome (s : State) (h : Home) (b : Issuer) (off n : Nat) : List Byte :=
  match commandPageAt h off with
  | some (tag, o) => s.readCommands tag o n
  | none => (s.view h b).mem.read off n

/-! ### Results that go back -/

/-- Changes the copy of a context that is kept from its LONG kind 4 entry (14 R422), where it is of the activation. -/
def State.modKept (s : State) (id : CtxId) (uid : Nat) (f : Ctx → Ctx) : State :=
  match (s.core id.core).overruns.get? id.c with
  | none => s
  | some o => if o.task.map Task.uid = some uid then s.modCore id.core fun k => { k with overruns := k.overruns.set id.c (f o) } else s

/-- Changes the context, or the fibre, that runs or holds an activation (14 R412), and what is kept of it for a save: what comes to a task from outside, while the
kernel handles its LONG kind 4, is not lost with the handler's progress (14 R420, R422). -/
def State.modRunning (s : State) (core : CoreId) (uid : Nat) (f : Ctx → Ctx) : State :=
  match (List.range 4).find? fun i => decide (((s.ctx ⟨core, i⟩).task.map Task.uid) = some uid) with
  | some i => (s.modCtx ⟨core, i⟩ f).modKept ⟨core, i⟩ uid f
  | none => s.modCore core fun k => { k with fibres := k.fibres.map fun (x : Nat × Fibre) =>
      (x.1, if (x.2.ctx.task.map Task.uid) = some uid then { x.2 with ctx := f x.2.ctx } else x.2) }

/-- Whether an activation still runs or is suspended. -/
def State.isRunning (s : State) (core : CoreId) (uid : Nat) : Bool :=
  ((List.range 4).any fun i => decide (((s.ctx ⟨core, i⟩).task.map Task.uid) = some uid)) ||
  (s.core core).fibres.any fun x => decide ((x.2.ctx.task.map Task.uid) = some uid)

/-- Flags of an effect, or of an engine's element: to the issuing task while it runs, else to its tile task (03 R99); none of a unit executed at kernel level
or above (04 R120). -/
def State.giveFlags (s : State) (b : Issuer) (f : Flags) : State :=
  if f = 0 ∨ b.sys then s
  else if s.isRunning b.core b.uid then s.modRunning b.core b.uid fun c => { c with flags := c.flags ||| f }
  else
    match b.tt with
    | none => s
    | some t => s.modTT t fun x => { x with flags := x.flags ||| f }

/-- Makes an asynchronous trap pending on a task that still runs (14 R420, 07 R220). -/
def State.pend (s : State) (core : CoreId) (uid : Nat) (code : BitVec 8) (tval : Word) : State :=
  s.modRunning core uid fun c => { c with asyncs := c.asyncs ++ [{ code := code, tval := tval }] }

/-- Counts a denial with its address (07 R220). -/
def State.countDenial (s : State) (b : Issuer) (addr : Word) : State :=
  match b.tt with
  | none => s
  | some t => s.modTT t fun x => { x with denials := x.denials + 1, denied := some (x.denied.getD addr) }

/-! ### Applying an effect -/

/-- The core in whose name a home sends an increment: a tile's MC; none for a memory agent or a host interface, which lie in no zone. -/
def homeSender : Home → Option CoreId
  | .tile t => some (t.core .mc)
  | _ => none

/-- The first n waiter records of a word, and the table without them (05 R162). -/
def wakeFirst (off : Nat) : Nat → List Waiter → List Waiter × List Waiter
  | _, [] => ([], [])
  | 0, ws => ([], ws)
  | n + 1, w :: r =>
    if w.off = off then (w :: (wakeFirst off n r).1, (wakeFirst off n r).2) else ((wakeFirst off (n + 1) r).1, w :: (wakeFirst off (n + 1) r).2)

/-- Wakes up to n waiters of a word, oldest first (05 R162): one increment for each record removed. -/
def State.wakeHome (s : State) (h : Home) (off : Nat) (n : Nat) : State :=
  let r := wakeFirst off n (s.home h).waiters
  r.1.foldl (fun s w => s.sendIncr (homeSender h) w.core w.entry) (s.modHome h fun x => { x with waiters := r.2 })

/-- An act on the memory of a home, with the flags it gives its issuer. -/
def State.runCells (s : State) (h : Home) (e : Effect) (a : Act) : State × Option Word :=
  let r := a.run (s.cells h)
  ((s.setCells h r.1).giveFlags e.by_ r.2.2, r.2.1)

/-- An act at its home. The zone tag that a wake's increments and a sendw's count carry is that of their own sender; an increment within the home's tile counts with
the end of the cycle (05 R147). -/
def State.runAct (s : State) (h : Home) (e : Effect) (a : Act) : State × Option Word :=
  match a with
  | .wake off n => (s.wakeHome h off n.toNat, none)
  | .incr core entry => (s.incrLater core entry, none)
  | .write off bs fe =>
    match commandPageAt h off with
    | some (tag, o) => (s.writeCommands tag o bs, none)
    | none => s.runCells h e (.write off bs fe)
  | a => s.runCells h e a

/-- Sends an answer to the tile of an issuer (07 R218, 15 R435). -/
def State.sendBack (s : State) (b : Issuer) (p : Packet) : State := s.send none (some b.core.tile) p

/-- The memory of a home as a reader sees it just after a held effect, none where the reader does not see it (11 R329, R330). -/
def State.viewAfter (s : State) (h : Home) (b : Issuer) (e : Effect) : Option Cells :=
  if s.visible e b then
    let l := s.sortEffects ((s.home h).held.filter fun x => s.visible x b)
    some ((l.takeWhile (fun x => x ≠ e) ++ [e]).foldl (fun c x => x.acts.foldl (fun c a => (a.run c).1) c) (s.cells h))
  else none

/-- The value with which a held ldsync is served, none while no write makes its word full: after the first of the effects that have just become visible to
it that makes the word full, else as the home stands to it (07 R226, 11 R330). -/
def State.syncValue (s : State) (h : Home) (news : List Effect) (y : Sync) : Option (List Byte) :=
  let views := ((s.sortEffects news).filterMap fun e => s.viewAfter h y.by_ e) ++ [s.view h y.by_]
  (views.find? fun v => v.full.contains y.off).map fun v => v.mem.read y.off 8

/-- Serves the ldsync requests that a home holds and that the effects just become visible, or the home as it stands, make full (07 R226, 11 R330). -/
def State.serveNew (s : State) (h : Home) (news : List Effect) : State :=
  (s.home h).syncs.foldl (fun s y =>
    match s.syncValue h news y with
    | some bs => (s.modHome h fun x => { x with syncs := x.syncs.filter fun z => z ≠ y }).sendBack y.by_ (.reply y.by_ y.id 0 bs)
    | none => s) s

/-- Serves the ldsync requests that a home holds for words now full to them (07 R226, 11 R330). -/
def State.serveSyncs (s : State) (h : Home) : State := s.serveNew h []

/-- Serves the ldsync requests that a home holds once an effect has been applied there to what its cells were (07 R226, 11 R330): one applied is visible to all, and
the word that it makes full is so also for a reader to whom a held effect that comes after it empties the word again. -/
def State.serveApplied (s : State) (h : Home) (old : Cells) : State :=
  let now := s.cells h
  ((s.home h).syncs.foldl (fun s y =>
    if now.full.contains y.off && !old.full.contains y.off then
      (s.modHome h fun x => { x with syncs := x.syncs.filter fun z => z ≠ y }).sendBack y.by_ (.reply y.by_ y.id 0 (now.mem.read y.off 8))
    else s) s).serveSyncs h

/-- Whether a home has applied an effect's key and part already (12 R365), with the value it then gave. -/
def State.repeated (s : State) (h : Home) (e : Effect) : Option (Option Word) :=
  match e.key with
  | none => none
  | some k => ((s.home h).applied.find? fun x => x.1 = k && x.2.1 = e.part).map fun x => x.2.2

/-- Answers a returning atomic. -/
def State.answer (s : State) (e : Effect) (v : Option Word) : State :=
  match e.reply, v with
  | some id, some w => s.sendBack e.by_ (.reply e.by_ id 0 (wordBytes w))
  | _, _ => s

/-- Acknowledges a posted write or an engine's write (11 R334). -/
def State.acknowledge (s : State) (e : Effect) : State :=
  match e.wid with
  | none => s
  | some w => s.sendBack e.by_ (.ack w)

/-- Applies an effect at its home in one step, and serves what it makes full (12 R370, 07 R226). The answer of a returning atomic is left to the caller. -/
def State.applyRaw (s : State) (h : Home) (e : Effect) : State × Option Word :=
  let r := e.acts.foldl (fun (r : State × Option Word) a =>
    let x := r.1.runAct h e a
    (x.1, if x.2.isSome then x.2 else r.2)) (s, none)
  let t := match e.key with
    | none => r.1
    | some k => r.1.modHome h fun x => { x with applied := (k, e.part, r.2) :: x.applied }
  (t.serveApplied h (s.cells h), r.2)

/-- Applies an effect and answers it. -/
def State.applyEffect (s : State) (h : Home) (e : Effect) : State :=
  let r := s.applyRaw h e
  r.1.answer e r.2

/-! ### The commit buffer (12 R362 to R364) -/

/-- Entries of a home's commit buffer (12 R362). -/
def bufferSize : Home → Nat
  | .tile _ => 64
  | .agent _ => 4096
  | .host _ => 1024

/-- The places that effects take in a buffer (12 R362): one for the plain writes of one core of a tile task to one line, one for every other act. -/
def placesOf (l : List Effect) : List (Option (Option Key × CoreId × Nat)) :=
  let acts := l.flatMap fun e => e.acts.map fun a => (e, a)
  let plain := acts.filterMap fun (x : Effect × Act) =>
    match x.2 with
    | .write off bs _ => some ((linesOf off bs.length).map fun n => (x.1, n))
    | .setEmpty off => some [(x.1, off / 64)]
    | .bits off _ _ _ => some [(x.1, off / 64)]
    | _ => none
  let lines := plain.flatten.map fun (x : Effect × Nat) => some (x.1.key.map fun k => { k with seq := 0 }, x.1.by_.core, x.2)
  let others := acts.filter fun (x : Effect × Act) =>
    match x.2 with
    | .write _ _ _ => false
    | .setEmpty _ => false
    | .bits _ _ _ _ => false
    | .incr _ _ => false
    | _ => true
  lines.dedup ++ others.map fun _ => none

/-- The units of the overflow hamper of a launch's scope (12 R378): those of the latest op 1 among its launches that still run, whose pools hold them. -/
def State.scopeOverflow (s : State) (l : Nat) : Nat :=
  (((s.launches.filter fun x => !x.2.done && s.sameScope x.1 l).filterMap fun x => x.2.overflow.map fun u => (x.2.overflowAt, u)).foldl
    (fun (b : Nat × Nat) x => if b.1 ≤ x.1 then x else b) (0, 0)).2

/-- The overflow hamper of a launch's scope in entries (12 R363, R378). -/
def State.overflowRoom (s : State) (l : Nat) : Nat := 512 * s.scopeOverflow l

/-- Whether an effect can take entries of the buffer (12 R362): four stay for the front of each scope that has entries there. -/
def State.hasEntry (s : State) (h : Home) (e : Effect) : Bool :=
  let held := (s.home h).held.filter fun x => x.gated && !x.spilled
  match e.key with
  | none => true
  | some k =>
    if s.homeFront h k.l = some k.tt then decide ((placesOf (held ++ [e])).length ≤ bufferSize h)
    else
      let later := held.filter fun x => match x.key with
        | none => false
        | some j => s.homeFront h j.l ≠ some j.tt
      let launches := (held ++ [e]).filterMap fun x => x.key.map Key.l
      let scopes := launches.foldl (fun acc l => if acc.any fun m => s.sameScope m l then acc else l :: acc) []
      decide ((placesOf (later ++ [e])).length + 4 * scopes.length ≤ bufferSize h) && decide ((placesOf (held ++ [e])).length ≤ bufferSize h)

/-- The places that the overflow hamper of a launch's scope gives effects that were held at a home (12 R378), the arriving ones among them. -/
def State.spilledPlaces (s : State) (l : Nat) (held : List Effect) : Nat :=
  (placesOf (held.filter fun x => x.spilled && (match x.key with
    | none => false
    | some j => s.sameScope j.l l))).length

/-- Whether the overflow hamper of the effect's scope has room for it at a home (12 R363, R378): the entries of every home count. -/
def State.hasOverflow (s : State) (h : Home) (e : Effect) : Bool :=
  match e.key with
  | none => false
  | some k =>
    let others := (s.homes.filter fun x => x.1 ≠ h).foldl (fun n x => n + s.spilledPlaces k.l x.2.held) 0
    decide (others + s.spilledPlaces k.l ((s.home h).held ++ [{ e with spilled := true }]) ≤ s.overflowRoom k.l)

/-- The lines that an effect touches. -/
def Effect.lines (e : Effect) : List Nat := e.acts.flatMap fun a => linesOf a.range.1 a.range.2

/-- Whether an effect comes before another in commit order: both are ordered, in one scope (12 R352). -/
def State.precedes (s : State) (e x : Effect) : Bool :=
  match e.key, x.key with
  | some k, some j => e.gated && x.gated && s.sameScope k.l j.l && s.keyBefore k j
  | _, _ => false

/-- Whether a held effect may be applied (12 R364), given the home's other held effects and those that arrived before it. One that is not ordered applies as in
free mode (12 R353): only those of its core that are not ordered either, and wait for their round (16 R450), hold it back. -/
def State.eligible (s : State) (h : Home) (e : Effect) (earlier others : List Effect) : Bool :=
  (match e.key with
   | none => true
   | some k => !e.gated || s.reached h k.tt) &&
  s.mirrored e &&
  !(earlier.any fun x => x.by_.core = e.by_.core && x.by_.engine = e.by_.engine && (e.gated || !x.gated) && !s.precedes e x) &&
  !(others.any fun x => s.precedes x e && x.lines.any fun l => e.lines.contains l)

/-- Whether a tile task is voided (12 R369). -/
def State.isVoided (s : State) (t : TTId) : Bool := ((s.tts.get? t).map TileTask.voided).getD false

/-- What a home does with an arriving effect (12 R363). -/
inductive Taken where
  | applied
  | held
  | full
  deriving DecidableEq, Repr

/-- How a home takes an effect (12 R363; 16 R450 for one that is not ordered). -/
def State.howTaken (s : State) (h : Home) (e : Effect) : Taken :=
  let held := (s.home h).held
  if s.eligible h e held [] then .applied
  else if e.gated = false then .held
  else if s.hasEntry h e then .held
  else if s.hasOverflow h e then .held
  else .full

/-- Whether a home serves: a tile's does while its state stands in a frame, not while it lies in an image (15 R433, R435, R436). -/
def State.homeServes (s : State) : Home → Bool
  | .tile t =>
    match s.bundle t with
    | none => true
    | some b => decide (b.st = .resident) || decide (b.st = .folding)
  | _ => true

/-- The next held effect that may be applied: the first in commit order of those eligible (12 R364). -/
def State.nextEligible (s : State) (h : Home) : Option Effect :=
  let held := if s.homeServes h then (s.home h).held else []
  let can := (List.range held.length).filterMap fun i =>
    match held[i]? with
    | none => none
    | some e => if s.eligible h e (held.take i) (held.filter fun x => x ≠ e) then some e else none
  (s.sortEffects can).head?

/-- Applies every held effect that may be applied, in commit order (12 R364), at most n. One whose key the home has applied meanwhile is discarded, and
answered as though applied (12 R365). -/
def State.drainHome (s : State) (h : Home) : Nat → State
  | 0 => s
  | n + 1 =>
    match s.nextEligible h with
    | none => s
    | some e =>
      let s := s.modHome h fun x => { x with held := x.held.erase e }
      match s.repeated h e with
      | some v => State.drainHome ((s.answer e v).acknowledge e) h n
      | none => State.drainHome ((s.applyEffect h e).acknowledge e) h n

/-- An effect whose key the home has not applied. One held is acknowledged once it is visible to its own tile task (11 R334), a host write too, which then counts so
for ackw (DESIGN CHOICE, log 90). -/
def State.giveNew (s : State) (h : Home) (e : Effect) : Option (State × Option Word) :=
  match s.howTaken h e with
  | .applied =>
    let r := s.applyRaw h e
    some (r.1.acknowledge e, r.2)
  | .full => none
  | .held =>
    let spill := e.gated && !s.hasEntry h e
    let ackNow := s.mirrored e && e.gated
    let e' := { e with spilled := spill, wid := if ackNow then none else e.wid }
    let s := s.modHome h fun x => { x with held := x.held ++ [e'] }
    some ((if ackNow then s.acknowledge e else s).serveNew h [e'], none)

/-- Gives a home an effect, whose rights have been tested (12 R363): none where it finds no place; else the state, and the value of an atomic applied at once. -/
def State.giveHome (s : State) (h : Home) (e : Effect) : Option (State × Option Word) :=
  let s := s.drainHome h ((s.home h).held.length)
  match e.key with
  | some k =>
    if e.gated && s.isVoided k.tt then some (s.acknowledge e, none)
    else
      match s.repeated h e with
      | some v => some (s.acknowledge e, v)
      | none => s.giveNew h e
  | none => s.giveNew h e
/-- Acknowledges the held effects whose round has been mirrored since (11 R334, 12 R365). -/
def State.ackMirrored (s : State) (h : Home) : State :=
  (s.home h).held.foldl (fun s e =>
    if e.gated && s.mirrored e && e.wid.isSome then
      (s.modHome h fun x => { x with held := x.held.map fun y => if y = e then { y with wid := none } else y }).acknowledge e
    else s) s

/-- The held effects of a home that are to be acknowledged now: their round has been mirrored since (12 R365). -/
def State.newMirrored (s : State) (h : Home) : List Effect := (s.home h).held.filter fun e => e.gated && s.mirrored e && e.wid.isSome

/-- A home applies what it may now, acknowledges what is mirrored now, and serves what that makes full (12 R364, R365; 11 R330). -/
def State.catchUp (s : State) (h : Home) : State :=
  if s.homeServes h then
    let s := s.drainHome h (s.home h).held.length
    (s.ackMirrored h).serveNew h (s.newMirrored h)
  else s

/-! ### Waits on an address (05 R161, R162) -/

/-- Records of a home's waiter table (05 R161). DESIGN CHOICE, log 86: the host interface, for which the manual gives no table, keeps as many as a memory agent. -/
def waiterSize : Home → Nat
  | .tile _ => 32
  | _ => 1024

/-- A wait request at its home (05 R162): compared with the value visible to the waiter, else registered, the oldest record leaving a full table. -/
def State.waitAt (s : State) (h : Home) (off : Nat) (expected : Word) (b : Issuer) (entry : Nat) : State :=
  if bytesToWord (s.readHome h b off 8) ≠ expected then s.sendIncr (homeSender h) b.core entry
  else
    let ws := (s.home h).waiters
    let w : Waiter := { off := off, core := b.core, entry := entry, tag := (s.core b.core).ptag }
    match ws with
    | [] => s.modHome h fun x => { x with waiters := [w] }
    | o :: r =>
      if ws.length < waiterSize h then s.modHome h fun x => { x with waiters := ws ++ [w] }
      else (s.modHome h fun x => { x with waiters := r ++ [w] }).sendIncr (homeSender h) o.core o.entry

end Sys2Proof.Machine
end

