-- ==== Sys2Proof/Machine/Tiles.lean ====
section
/-! DEFINITION. The state a tile's cores share: the six queues with their earmarks and reserved room (05 R150, 06 R194), semaphores (13 R390 to R392),
operand rings (10 R286 to R289) and shape records (10 R310, R315). -/

namespace Sys2Proof.Machine

/-! ### Queues -/

/-- The core that writes a queue (01 Table 1.2). -/
def queueWriter (q : Nat) : Role := ((writers q).head?).getD .mc

/-- The core that reads a queue (01 Table 1.2). -/
def queueReader (q : Nat) : Role := ((readers q).head?).getD .mc

/-- A queue of a tile. -/
def Tile.queue (t : Tile) (q : Nat) : Queue := t.queues.getD q Queue.init

/-- Changes a queue of a tile. -/
def State.modQueue (s : State) (t : TileId) (q : Nat) (f : Queue → Queue) : State :=
  s.modTile t fun x => { x with queues := x.queues.set q (f (x.queue q)) }

/-- The positions of the entries that a task may pop, in the order in which it pops them: its own earmarked ones, then those earmarked to no task (05 R150). -/
def Queue.order (q : Queue) (uid : Nat) : List Nat :=
  let ix := List.range q.entries.length
  (ix.filter fun i => ((q.entries[i]?).bind QEntry.owner) = some uid) ++ ix.filter fun i => (q.entries[i]?).map QEntry.owner = some none

/-- The first n entries that a task may pop. -/
def Queue.front (q : Queue) (uid n : Nat) : List QEntry := ((q.order uid).take n).filterMap fun i => q.entries[i]?

/-- Whether n entries are available to a task (05 R150, R151). -/
def Queue.has (q : Queue) (uid n : Nat) : Bool := decide (n ≤ (q.order uid).length)

/-- Pops the first n entries that a task may pop; the others keep their order (05 R150). -/
def Queue.pop (q : Queue) (uid n : Nat) : Queue :=
  let gone := (q.order uid).take n
  { q with entries := ((List.range q.entries.length).filter fun i => !gone.contains i).filterMap fun i => q.entries[i]? }

/-- Appends entries. -/
def Queue.push (q : Queue) (es : List (Line × Bool)) : Queue :=
  { q with entries := q.entries ++ es.map fun (e : Line × Bool) => { data := e.1, tag := e.2, owner := none } }

/-- Room of a queue that other tasks of the writing core have reserved (05 R150). -/
def Core.reservedRoom (k : Core) (q uid : Nat) : Nat :=
  sumOf ((k.resv.filter fun r => r.uid ≠ uid).map fun r => sumOf ((r.rooms.filter fun x => x.1 = q).map fun x => x.2))

/-- Room of a queue that a task has reserved and not used. -/
def Core.ownRoom (k : Core) (q uid : Nat) : Nat :=
  sumOf ((k.resv.filter fun r => r.uid = uid).map fun r => sumOf ((r.rooms.filter fun x => x.1 = q).map fun x => x.2))

/-- The queue and the entries that a unit in progress will push (07 R233, R234). -/
def Ctx.pushes (c : Ctx) : Option (Nat × Nat) :=
  match c.phase with
  | .busy _ _ _ _ _ (.queue q n) => some (q, n)
  | .busy _ _ _ _ _ (.firstFault q n _ _ _) => some (q, n + 1)
  | _ => none

/-- Entries that units in progress on the writing core will push beyond the room their tasks have reserved (07 R233: the room is taken whole before any
byte moves; 05 R150: the reserved room is counted with the reservation). -/
def State.comingTo (s : State) (c : CoreId) (q : Nat) : Nat :=
  sumOf ((List.range 4).map fun i =>
    match (s.ctx ⟨c, i⟩).pushes with
    | some (q', n) => if q' = q then n - (s.core c).ownRoom q ((s.ctx ⟨c, i⟩).task.elim 0 Task.uid) else 0
    | none => 0)

/-- Whether a task of the writing core may push n entries (05 R150, R151). -/
def State.hasRoom (s : State) (t : TileId) (q uid n : Nat) : Bool :=
  let c := t.core (queueWriter q)
  decide (((s.tile t).queue q).entries.length + s.comingTo c q + (s.core c).reservedRoom q uid + n ≤ 16)

/-- Uses up to n of a task's reserved room (05 R150). -/
def useRoom (q n : Nat) : List (Nat × Nat) → List (Nat × Nat)
  | [] => []
  | (a, k) :: r => if a = q then (a, k - n) :: useRoom q (n - k) r else (a, k) :: useRoom q n r

/-- Pushes entries by a task of the writing core. -/
def State.pushQueue (s : State) (t : TileId) (q uid : Nat) (es : List (Line × Bool)) : State :=
  (s.modQueue t q fun x => x.push es).modCore (t.core (queueWriter q)) fun k =>
    { k with resv := k.resv.map fun r => if r.uid = uid then { r with rooms := useRoom q es.length r.rooms } else r }

/-- Pops entries by a task of the reading core. -/
def State.popQueue (s : State) (t : TileId) (q uid n : Nat) : State := s.modQueue t q fun x => x.pop uid n

/-- The uid of the task whose unit runs. -/
def State.uid (s : State) : Nat := (s.here.task.map Task.uid).getD 0

/-- Holds the current unit in a wait, without effect (05 R151). -/
def State.wait (s : State) (w : Wait) : State := s.modCtx s.cur fun c => { c with phase := .held w }

/-- Whether another context of the core has an stq in progress that will pop the queue: pops keep issue order (05 R150). -/
def State.popping (s : State) (id : CtxId) (q : Nat) : Bool :=
  (List.range 4).any fun i => i ≠ id.c && (match (s.ctx ⟨id.core, i⟩).phase with
    | .busy _ _ _ _ _ (.popped q' _) => q' = q
    | .busy _ _ _ _ _ (.posts _ (some x)) => x.1 = q
    | _ => false)

/-- Goes on when n entries of a queue are available to the task, else waits (05 R151). -/
def State.whenEntries (s : State) (q n : Nat) (k : State → State) : State :=
  if s.popping s.cur q then s.modCtx s.cur fun c => { c with phase := .stall .retry }
  else if ((s.tile s.cur.core.tile).queue q).has s.uid n then k s else s.wait (.emptyQueue q n)

/-- Whether another context of the core has an ldq or ldff in progress that will push the queue: pushes keep issue order (06 R194). -/
def State.queuePushing (s : State) (id : CtxId) (q : Nat) : Bool :=
  (List.range 4).any fun i => i ≠ id.c && decide ((s.ctx ⟨id.core, i⟩).pushes.map Prod.fst = some q)

/-- Goes on when n entries of room are available to the task, else waits (05 R151). -/
def State.whenRoom (s : State) (q n : Nat) (k : State → State) : State :=
  if s.queuePushing s.cur q then s.modCtx s.cur fun c => { c with phase := .stall .retry }
  else if s.hasRoom s.cur.core.tile q s.uid n then k s else s.wait (.fullQueue q n)

/-! ### Semaphores (13 R390 to R392) -/

/-- A semaphore of a tile. -/
def Tile.sem (t : Tile) (n : Nat) : Sem := t.sems.getD n Sem.init

/-- Serves the claims that the value covers, in order (13 R391): the new semaphore and the entries to increment. -/
def serveClaims (v : Nat) : List Claim → Nat × List Claim × List (CoreId × Nat)
  | [] => (v, [], [])
  | c :: r =>
    if c.need ≤ v then
      let x := serveClaims (v - c.need) r
      (x.1, x.2.1, (c.core, c.entry) :: x.2.2)
    else (v, c :: r, [])

/-- Changes a semaphore and serves its claims (13 R391). -/
def State.changeSem (s : State) (t : TileId) (n : Nat) (f : Sem → Sem) : State :=
  let m := f ((s.tile t).sem n)
  let x := serveClaims m.value.toNat m.claims
  let s := s.modTile t fun y => { y with sems := y.sems.set n { value := BitVec.ofNat 32 x.1, claims := x.2.1 } }
  x.2.2.foldl (fun s (e : CoreId × Nat) => s.incrLater e.1 e.2) s

/-- Posts to a semaphore; the value stops at its largest (13 R400). -/
def State.postSem (s : State) (t : TileId) (n k : Nat) : State :=
  s.changeSem t n fun m => { m with value := BitVec.ofNat 32 (min (m.value.toNat + k) 4294967295) }

/-- Posts to a semaphore when there is one (10 R289). -/
def State.postIf (s : State) (t : TileId) (n : Option Nat) : State :=
  match n with
  | none => s
  | some n => s.postSem t n 1

/-! ### Operand rings (10 R286 to R289) -/

/-- A ring of a tile. -/
def Tile.ring (t : Tile) (n : Nat) : Ring := t.rings.getD n Ring.init

/-- Changes a ring. -/
def State.modRing (s : State) (t : TileId) (n : Nat) (f : Ring → Ring) : State :=
  s.modTile t fun x => { x with rings := x.rings.set n (f (x.ring n)) }

/-- The first line of slot k after the head (10 R286). -/
def Ring.line (r : Ring) (k : Nat) : Nat := r.base + (r.head + k) % r.slots * r.lines

/-- The scratchpad offset at which a push of lines starts (10 R289). -/
def Ring.fillAt (r : Ring) : Nat := (r.line r.pub + r.fill) * 64

/-- Whether a ringpush of n lines by a role may go on (10 R293). -/
def Ring.accepts (r : Ring) (filler n : Nat) : Bool := r.en && r.filler = filler && decide (r.pub < r.slots) && decide (r.fill + n ≤ r.lines)

/-- Adds n lines to the filling slot, publishing it when it is full (10 R289). -/
def State.ringAdd (s : State) (t : TileId) (n lines : Nat) : State :=
  let r := (s.tile t).ring n
  if r.fill + lines = r.lines then
    (s.modRing t n fun r => { r with fill := 0, pub := r.pub + 1 }).postIf t r.semp
  else s.modRing t n fun r => { r with fill := r.fill + lines }

/-- Writes bytes to the tile's scratchpad directly: ring fills and deliveries, which are not effects (10 R290). -/
def State.poke (s : State) (t : TileId) (off : Nat) (bs : List Byte) : State := s.modTile t fun x => { x with mem := x.mem.write off bs }

/-! ### Shape records (10 R310, R315) -/

/-- A slot of the TSR table. -/
def Tile.tsr (t : Tile) (n : Nat) : Tsr := t.tsrs.getD n Tsr.init

/-- The record that a handle names; none when it is stale (10 R315). -/
def Tile.handle (t : Tile) (h : Word) : Option (List Word) :=
  let slot := (h.extractLsb' 0 16).toNat
  let r := t.tsr slot
  if slot < 256 ∧ r.valid ∧ r.gen = h.extractLsb' 16 8 then some r.words else none

/-! ### Waiting-task entries (05 R146 to R148) -/

/-- A waiting-task entry of a core. -/
def Core.entry (k : Core) (e : Nat) : WEntry := k.wtt.getD e WEntry.init

/-- Changes a waiting-task entry. -/
def State.modEntry (s : State) (c : CoreId) (e : Nat) (f : WEntry → WEntry) : State :=
  s.modCore c fun k => { k with wtt := k.wtt.set e (f (k.entry e)) }

end Sys2Proof.Machine
end

