-- ==== Sys2Proof/Machine/Groups.lean ====
section
/-! DEFINITION. What barrier owners and group owners do (13 R380 to R389), and when a round's close falls due (16 R445). -/

namespace Sys2Proof.Machine

/-! ### Closes falling due (16 R445, R446) -/

/-- Starts the cw.wdog count of the tasks that run on a tile (05 R153, 16 R446). -/
def State.askTile (s : State) (t : TileId) : State :=
  [Role.mc, Role.fc, Role.ac].foldl (fun s r => (List.range 4).foldl (fun s i =>
    let id : CtxId := ⟨t.core r, i⟩
    if (s.ctx id).phase = .free ∨ (s.ctx id).phase = .saved then s
    else s.modCtx id fun c => { c with asked := some (c.asked.getD s.cycle) }) s) s

/-- The logical tiles that stand in a zone. -/
def State.tilesIn (s : State) (z : Nat) : List TileId :=
  s.launches.flatMap fun (l : Nat × Launch) =>
    ((List.range (l.2.x * l.2.y)).map fun t => (⟨l.1, t⟩ : TileId)).filter fun t => s.zoneOf t = some z

/-- A close has fallen due: the zone's cores start no activation, and its tasks have cw.wdog cycles (16 R446). -/
def State.closeNow (s : State) (z : Nat) : State :=
  let s := s.modZone z fun x => { x with due := some s.cycle, asked := true }
  (s.tilesIn z).foldl (fun s t => s.askTile t) s

/-- A close of the open round falls due, or is deferred until the round has been open for 1,024 cycles (16 R445). -/
def State.askClose (s : State) (z : Nat) : State :=
  if (s.zone z).due.isSome then s
  else if (s.zone z).opened + 1024 ≤ s.cycle then s.closeNow z
  else s.modZone z fun x => { x with due := some (x.opened + 1024), asked := false }

/-! ### Barriers (13 R380 to R383) -/

/-- A barrier of a core. -/
def Core.bar (k : Core) (n : Nat) : Barrier := k.bars.getD n Barrier.init

/-- Changes a barrier of a core. -/
def State.modBar (s : State) (c : CoreId) (n : Nat) (f : Barrier → Barrier) : State :=
  s.modCore c fun k => { k with bars := k.bars.set n (f (k.bar n)) }

/-- Whether every element of a list is in another. -/
def subset (a b : List Nat) : Bool := a.all b.contains

/-- Whether the current phase is complete (13 R382). -/
def Barrier.complete (b : Barrier) : Bool :=
  match b.mode with
  | .off => false
  | .counted => b.ncur = b.ecur
  | .bound _ => subset b.pcur b.acur && (!b.pcur.isEmpty || !b.pnext.isEmpty)

/-- The next phase (13 R382). -/
def Barrier.advance (b : Barrier) : Barrier :=
  match b.mode with
  | .counted => { b with parity := !b.parity, ecur := b.enext, ncur := b.nnext, nnext := 0 }
  | _ => { b with parity := !b.parity, pcur := b.pnext, acur := b.anext, anext := [] }

/-- Tests for completion after an event, and completes phases while they are complete (13 R382): registrations tagged current are notified and removed,
those tagged next become current; a completion makes a close of the owner's zone fall due (16 R445). At most n phases. -/
def State.settleBar (s : State) (c : CoreId) (n : Nat) : Nat → State
  | 0 => s
  | k + 1 =>
    if (s.core c).bar n |>.complete then
      let now := (s.core c).regs.filter fun r => r.bar = n && !r.next
      let s := s.modCore c fun k => { k with regs :=
        (k.regs.filter fun r => !(r.bar = n && !r.next)).map fun r => if r.bar = n then { r with next := false } else r }
      let s := now.foldl (fun s r => s.sendIncr (some c) r.core r.entry) s
      let s := s.modBar c n Barrier.advance
      let s := match s.zoneOf c.tile with
        | none => s
        | some z => s.askClose z
      State.settleBar s c n k
    else s

/-- Tests a barrier for completion (13 R382); after four phases none can be complete still. -/
def State.settle (s : State) (c : CoreId) (n : Nat) : State := s.settleBar c n 8

/-- Counts an arrival (13 R383): none when it is refused; else the barrier and whether the current phase counted it. -/
def Barrier.count (b : Barrier) (parity : Bool) (index : Nat) : Option (Barrier × Bool) :=
  match b.mode with
  | .off => none
  | .counted =>
    if parity = b.parity then some ({ b with ncur := b.ncur + 1 }, true)
    else if b.nnext < b.enext then some ({ b with nnext := b.nnext + 1 }, false)
    else none
  | .bound _ =>
    if b.pcur.contains index && !b.acur.contains index then some ({ b with acur := insertSorted index b.acur }, true)
    else if b.pnext.contains index && !b.anext.contains index then some ({ b with anext := insertSorted index b.anext }, false)
    else none

/-- A refusal advances the overflow counter (13 R383). -/
def Barrier.refuse (b : Barrier) : Barrier := { b with overflow := min (b.overflow + 1) 65535 }

/-- Arrivals still due in a phase (13 Table 13.3). -/
def Barrier.left (b : Barrier) (current : Bool) : Nat :=
  match b.mode with
  | .off => 0
  | .counted => if current then b.ecur - b.ncur else b.enext - b.nnext
  | .bound _ =>
    if current then (b.pcur.filter fun i => !b.acur.contains i).length else (b.pnext.filter fun i => !b.anext.contains i).length

/-- A membership update at a bound barrier (13 R388). -/
def Barrier.update (b : Barrier) (join : Bool) (i : Nat) : Barrier :=
  if join then { b with pnext := insertSorted i b.pnext }
  else
    { b with pcur := if b.pcur.contains i && !b.acur.contains i then b.pcur.filter (· ≠ i) else b.pcur,
             pnext := b.pnext.filter (· ≠ i), anext := b.anext.filter (· ≠ i) }

/-- The status word of an arrival (13 Table 13.3). -/
def barStatus (b : Barrier) (parity done : Bool) (left : Nat) : Word :=
  BitVec.ofNat 64 (b.overflow * 281474976710656 + (match b.mode with
    | .bound _ => 17179869184
    | _ => 0) + (if done then 8589934592 else 0) + (if parity then 4294967296 else 0) + left)

/-- What an owner answers: a word, or a trap's cause and value. -/
abbrev BarReply := Except (BitVec 8 × Word) Word

/-- An arrival at its owner (13 R396), once the waiter store is known to have room: the state and the reply. -/
def State.arriveBar (s : State) (owner : CoreId) (n : Nat) (w : Word) (index : Nat) (b : Issuer) : State × BarReply :=
  let x := (s.core owner).bar n
  let bound := w.getLsbD 41
  match x.mode with
  | .off => (s, .error (causeProt, 0xA01))
  | m =>
    let isBound := match m with
      | .bound _ => true
      | _ => false
    if bound ≠ isBound then (s, .error (causeProt, 0xA02))
    else if bound && decide (m ≠ .bound (w.extractLsb' 32 8).toNat) then (s, .error (causeProt, 0xA03))
    else
      match x.count (w.getLsbD 40) index with
      | none =>
        let s := s.modBar owner n Barrier.refuse
        (s, .error (causeBarover, BitVec.ofNat 64 (n * 65536 + ((s.core owner).bar n).overflow)))
      | some (y, current) =>
        let parity := if current then y.parity else !y.parity
        let left := y.left current
        let s := s.modBar owner n fun _ => y
        let s := if w.getLsbD 56 then
            s.modCore owner fun k => { k with regs := k.regs ++ [{ core := b.core, entry := (w.extractLsb' 48 8).toNat, bar := n, next := !current }] }
          else s
        let done := current && y.complete
        let s := s.settle owner n
        (s, .ok (barStatus ((s.core owner).bar n) parity done left))

/-- A registration at its owner (13 R397). -/
def State.registerBar (s : State) (owner : CoreId) (n entry : Nat) (b : Issuer) : State × BarReply :=
  if ((s.core owner).bar n).mode = .off then (s, .error (causeProt, 0xA01))
  else
    (s.modCore owner fun k => { k with regs := k.regs ++ [{ core := b.core, entry := entry, bar := n, next := false }] }, .ok 0)

/-- Whether the barrier waiter store is full (13 R381). -/
def Core.regsFull (k : Core) : Bool := decide (256 ≤ k.regs.length)

/-! ### Groups (13 R386 to R389, R399) -/

/-- The tile whose MC holds a group's table (13 R386). -/
def State.groupTile (s : State) (l g : Nat) : TileId := ⟨l, g % s.gridSize l⟩

/-- A group's table. -/
def Tile.group (t : Tile) (g : Nat) : Group := t.groups.getD g Group.init

/-- Changes a group's table. -/
def State.modGroup (s : State) (t : TileId) (g : Nat) (f : Group → Group) : State :=
  s.modTile t fun x => { x with groups := x.groups.set g (f (x.group g)) }

/-- The lowest free member index (13 R389): among the indices up to the number of members. -/
def Group.freeIndex (x : Group) : Nat :=
  ((List.range (x.members.length + 1)).find? fun i => !(x.members.any fun m => m.1 = i)).getD x.members.length

/-- The membership record of a core for a group. -/
def Core.member (k : Core) (g : Nat) : Option Member := k.members.find? fun m => m.g = g

/-- The query word (13 Table 13.4). -/
def groupWord (x : Group) (m : Option Nat) : Word :=
  BitVec.ofNat 64 ((match m with
    | none => 0
    | some i => 9223372036854775808 + i * 281474976710656) + x.members.length * 4294967296 + x.gen.toNat)

/-- The tiles that scope .group covers for a core, as it has applied them (11 Table 11.1, 13 R387): its own, and those of its groups' members. -/
def State.groupTiles (s : State) (c : CoreId) : List TileId :=
  (c.tile :: (s.core c).members.flatMap fun m => m.peers.map fun x => x.2).dedup

end Sys2Proof.Machine
end

