-- ==== Sys2Proof/Machine/Operands.lean ====
section
/-! DEFINITION. Operand forms of the base instructions (02 R44 to R46, R58): immediates, branch targets, and the shapes "registers to register" and "register and immediate to register". -/

namespace Sys2Proof.Machine

/-- A signed immediate extended to 64 bits (02 R45). -/
def immS {n : Nat} (i : BitVec n) : Word := i.signExtend 64

/-- An unsigned immediate. -/
def immU {n : Nat} (i : BitVec n) : Word := i.setWidth 64

/-- A branch offset in halfwords as a displacement in bytes (02 R45). -/
def offBytes {n : Nat} (o : BitVec n) : Word := o.signExtend 64 * 2

/-- A register number wider than the field that a compact form gives: s0 (02 Table 2.11). -/
def s0 : BitVec 5 := 0

/-- D := g(A, B). -/
def regReg (f : Form) (d a b : BitVec 5) (g : Word → Word → Word) (s : State) : Outcome :=
  unit f s fun s => s.finishReg f.len d (g (s.here.reg a) (s.here.reg b))

/-- D := g(A). -/
def regOne (f : Form) (d a : BitVec 5) (g : Word → Word) (s : State) : Outcome :=
  unit f s fun s => s.finishReg f.len d (g (s.here.reg a))

/-- D := v. -/
def regConst (f : Form) (d : BitVec 5) (v : Word) (s : State) : Outcome :=
  unit f s fun s => s.finishReg f.len d v

/-- A branch: taken when the condition holds of A and B, to the branch's own address plus the offset (04 R132). -/
def branch (f : Form) (a b : BitVec 5) (off : Word) (cond : Word → Word → Bool) (s : State) : Outcome :=
  unit f s fun s =>
    s.modCtx s.cur fun c =>
      c.complete c.level (if cond (c.reg a) (c.reg b) then c.pc + off else c.pc + BitVec.ofNat 64 f.len)

end Sys2Proof.Machine
end

