-- ==== Sys2Proof/Machine/Access.lean ====
section
/-! DEFINITION. How a unit reaches memory: locating an access, performing it at its own home, another tile's or through translation, and what a unit in progress
does when its answer comes (07 R216 to R222; 14 R401, R402; 17 R464, R465). -/

namespace Sys2Proof.Machine

/-! ### Locating (07 R216, 01 R32) -/

/-- A trap's cause and value. -/
abbrev TrapOf := BitVec 8 × Word

/-- Where an access is (07 R216): an offset of the own scratchpad through a local segment, or a global address. -/
inductive Where where
  | pad (off : Nat)
  | global (a : Word)
  deriving DecidableEq, Repr

/-- The address of a place in the form of 07 R523. -/
def Where.addr : Where → Word
  | .pad off => BitVec.ofNat 64 off
  | .global a => a

/-- A part of an access that one home or translation serves, at a position of it. -/
inductive Piece where
  | own (off len pos : Nat)
  | tile (t : TileId) (off len pos : Nat)
  | xlat (va : Word) (len pos : Nat)
  deriving DecidableEq, Repr

/-- The issuer that the current unit is. -/
def State.me (s : State) : Issuer :=
  { core := s.cur.core, ctx := s.cur.c, uid := s.uid, tt := s.here.task.bind Task.tt, engine := false, sys := decide (s.here.level ≠ 0),
    tag := s.hereCore.ptag }

/-- Whether an access of len bytes at a global address names a tile beyond the grid, or the reserved range (01 R32). -/
def State.badWindow (s : State) (l : Nat) (a : Word) (len : Nat) : Bool :=
  let bad (x : Word) : Bool := inReserved x || (inWindow x && decide (s.gridSize l ≤ windowTile x))
  bad a || bad (a + BitVec.ofNat 64 (len - 1))

/-- Whether bit n of a limit word is set (07 Table 7.3). -/
def Seg.canRead (g : Seg) : Bool := g.limit.getLsbD 62
def Seg.canWrite (g : Seg) : Bool := g.limit.getLsbD 63
def Seg.isGlobal (g : Seg) : Bool := g.limit.getLsbD 61
/-- The length of a segment. -/
def Seg.size (g : Seg) : Nat := (g.limit.extractLsb' 0 49).toNat

/-- A segment register of a context. -/
def Ctx.seg (c : Ctx) (n : Nat) : Seg := c.segs.getD n { base := 0, limit := 0 }

/-- locate (07 R216): size bytes at an offset of a segment, for reading, writing or both, aligned as given. -/
def State.locate (s : State) (seg : Nat) (off : Word) (size align : Nat) (rd wr : Bool) : Except TrapOf Where :=
  let g := s.here.seg seg
  if g.size < size ∨ g.size - size < off.toNat then .error (causeSeglim, off)
  else if (rd && !g.canRead) || (wr && !g.canWrite) then .error (causeRights, off)
  else
    let w : Where := if g.isGlobal then .global (g.base + off) else .pad (g.base.toNat + off.toNat)
    if w.addr.toNat % align ≠ 0 then .error (causeAlign, w.addr)
    else
      match w with
      | .pad _ => .ok w
      | .global a => if s.badWindow s.cur.core.l a size then .error (causeProt, a) else .ok w

/-- The pieces of len bytes at a global address, cut where the window's tiles meet (01 R32, 07 R217). -/
def State.piecesAt (s : State) (core : CoreId) (a : Word) (len pos : Nat) : Piece :=
  let _ := s
  if inWindow a then
    if windowTile a = core.t then .own (windowOff a) len pos else .tile ⟨core.l, windowTile a⟩ (windowOff a) len pos
  else .xlat a len pos

/-- The pieces of an access (07 R217). -/
def State.pieces (s : State) (core : CoreId) (w : Where) (len : Nat) : List Piece :=
  match w with
  | .pad off => [.own off len 0]
  | .global a =>
    let first := 1048576 - (a.extractLsb' 0 20).toNat
    let last := a + BitVec.ofNat 64 (len - 1)
    if len ≤ first ∨ (!inWindow a && !inWindow last) then [s.piecesAt core a len 0]
    else [s.piecesAt core a first 0, s.piecesAt core (a + BitVec.ofNat 64 first) (len - first) first]

/-- Runs on from a located place, or traps. -/
def State.withPlace (s : State) (r : Except TrapOf Where) (k : Where → State) : State :=
  match r with
  | .error e => s.trap e.1 e.2
  | .ok w => k w

/-- Whether a piece leaves the tile for another tile. -/
def Piece.isTile : Piece → Bool
  | .tile _ _ _ _ => true
  | _ => false

/-- Whether a piece is translated. -/
def Piece.isXlat : Piece → Bool
  | .xlat _ _ _ => true
  | _ => false

/-- Whether a piece is performed by the own home. -/
def Piece.isOwn : Piece → Bool
  | .own _ _ _ => true
  | _ => false

/-- The tests that come before any effect of a unit that leaves its tile: XPART when the tag is not permitted (17 R464) or names no partition (14 R401). -/
def State.tagBad (s : State) (ps : List Piece) : Bool :=
  (ps.any Piece.isTile && !s.permitted s.cur.core) ||
  (ps.any Piece.isXlat && (s.parts.get? s.hereCore.ptag).isNone)

/-- The same tests for a transfer: a tag that names no partition makes its translated elements denials instead (14 R401). -/
def State.engineTagBad (s : State) (ps : List Piece) : Bool := ps.any Piece.isTile && !s.permitted s.cur.core

/-- XPART at issue: the tag (14 Table 14.7). -/
def State.xpart (s : State) : State := s.trap causeXpart (s.hereCore.ptag.setWidth 64)

/-- Whether a write of a unit of the core to its own tile is still on its way: a sendw, or the own part of a write that had to be translated. Later accesses
of the tile's own home stay behind it (06 R178, 11 R328, R332). -/
def State.ownPending (s : State) (c : CoreId) : Bool :=
  s.net.any fun f => decide (f.src = some c) && (match f.pkt with
    | .effect h e => !e.by_.engine && decide (h = .tile c.tile)
    | _ => false)

/-- Holds the current unit until it can issue: timing only. -/
def State.retry (s : State) : State := s.modCtx s.cur fun c => { c with phase := .stall .retry }

/-- Puts bytes at a position of a buffer. -/
def putBytes (buf : List Byte) (pos : Nat) (bs : List Byte) : List Byte := buf.take pos ++ bs ++ buf.drop (pos + bs.length)

/-! ### What follows a read (07 R231, R233, R234; 10 R293, R314; 13 R394 to R399) -/

/-- The lines of a byte string as data entries. -/
def dataEntries (n : Nat) (bs : List Byte) : List (Line × Bool) := (cut 64 n bs).map fun l => (bytesToLine l, false)

/-- A line of up to eight words. -/
def wordLine (ws : List Word) : Line := bytesToLine (ws.flatMap wordBytes)

/-- The count entry of an ldff (07 Table 7.7). -/
def countEntry (valid n cause : Nat) (addr : Word) : Line :=
  wordLine [BitVec.ofNat 64 valid, BitVec.ofNat 64 n, BitVec.ofNat 64 cause, addr]

/-- A 16-bit field of a word as a number. -/
def field16 (w : Word) (i : Nat) : Nat := (w.extractLsb' (16 * i) 16).toNat

/-- The lowest word that takes part in a broken condition of a shape record (10 R311, R312, R314). -/
def tsrFault (ws : List Word) : Option Nat :=
  let w (i : Nat) : Word := ws.getD i 0
  let ty := ((w 7).extractLsb' 0 4).toNat
  let rank := ((w 7).extractLsb' 6 2).toNat + 1
  let e (i : Nat) := field16 (w 1) i
  let lo (i : Nat) := field16 (w 5) i
  let hi (i : Nat) := field16 (w 6) i
  let dims := List.range 4
  let size := (elemType ty).width / 8
  let badType := ty = 8 || ty = 15
  let checks : List (Nat × Bool) :=
    [(0, !badType && decide (8 ≤ (elemType ty).width) && decide ((w 0).toNat % size ≠ 0)),
     (1, dims.any fun i => decide (e i < hi i) || (decide (rank ≤ i) && e i != 0)),
     (2, decide (rank ≤ 1) && w 2 != 0),
     (3, decide (rank ≤ 2) && w 3 != 0),
     (4, decide (rank ≤ 3) && w 4 != 0),
     (5, dims.any fun i => decide (hi i < lo i) || (decide (rank ≤ i) && lo i != 0)),
     (6, dims.any fun i => decide (rank ≤ i) && hi i != 0),
     (7, (w 7).extractLsb' 8 56 != 0 || (w 7).extractLsb' 4 2 != 0 || badType)]
  (checks.find? fun c => c.2).map fun c => c.1

/-- The next generation of a TSR slot, with a record or invalid (10 R314). -/
def State.setTsr (s : State) (t : TileId) (n : Nat) (r : Option (List Word)) : State :=
  s.modTile t fun x =>
    let old := x.tsr n
    { x with tsrs := x.tsrs.set n { valid := r.isSome, gen := old.gen + 1, words := r.getD old.words } }

/-- The trap of a unit that would take the number 2^30 (12 R353). -/
def State.seqTrap (s : State) : State := s.trap causeProt 0x600

/-- Sends an effect to a home as a posted write: a place among the unacknowledged writes, and a flight with its zone and round (11 R334, R335; 16 R450). -/
def State.post (s : State) (h : Home) (e : Effect) (st : FlightSt) : State :=
  let wid := s.fresh
  let dst : Option TileId := match h with
    | .tile t => some t
    | _ => none
  let e := { e with wid := some wid, round := dst.bind fun t => s.roundTag e.by_.core t }
  let s := { s with fresh := s.fresh + 1, posted := s.posted ++ [Posted.mk wid e.by_ h e.addr] }
  s.sendSt (some e.by_.core) dst (.effect h e) st

/-- What the current unit does with the bytes it has read, and its completion. DESIGN CHOICE, log 88: ringpush.m, whose ring another context may have configured
meanwhile, tests what 10 R293 demands of the ring as it now is, and no right again. -/
def State.finishCont (s : State) (step : Nat) (cont : Cont) (bs : List Byte) : State :=
  let t := s.cur.core.tile
  match cont with
  | .scalar d n sext =>
    let v := bytesToNat (bs.take n)
    s.finishReg step d (if sext then BitVec.ofInt 64 (sextNat v (8 * n)) else BitVec.ofNat 64 v)
  | .word d => s.finishReg step d (bytesToWord (bs.take 8))
  | .none => s.finish step
  | .popped q n => (s.popQueue t q s.uid n).finish step
  | .posts es pop =>
    let s := es.foldl (fun s (x : Home × Effect) => s.post x.1 x.2 .transit) s
    let s := match pop with
      | none => s
      | some (q, n) => s.popQueue t q s.uid n
    s.finish step
  | .queue q n => (s.pushQueue t q s.uid (dataEntries n bs)).finish step
  | .firstFault q n valid cause addr =>
    (s.pushQueue t q s.uid (dataEntries n (bs.take valid ++ List.replicate (64 * n - valid) 0) ++
      [(countEntry valid n cause (if cause = 0 then 0 else addr + BitVec.ofNat 64 valid), true)])).finish step
  | .ring n lines _ =>
    let r := (s.tile t).ring n
    if r.accepts 0 lines then ((s.poke t r.fillAt bs).ringAdd t n lines).finish step
    else s.trap causeProt (BitVec.ofNat 64 (0x200 + n))
  | .tsr d slot =>
    let ws := bytesToWords 8 bs
    match tsrFault ws with
    | some w => s.trap causeProt (BitVec.ofNat 64 (0x400 + w))
    | none =>
      let s := s.setTsr t slot (some ws)
      s.finishReg step d (BitVec.ofNat 64 (((s.tile t).tsr slot).gen.toNat * 65536 + slot))
  | .armed e w =>
    match s.takeSeq with
    | none => s.seqTrap
    | some (key, s) => (s.modEntry s.cur.core e fun _ => { w with seq := (key.map Key.seq).getD 0 }).finish step
  | .barArr d _ => s.finishReg step d (bytesToWord (bs.take 8))
  | .barInit n g =>
    let members := (cut 2 (bs.length / 2) bs).map bytesToNat
    let s := s.modBar s.cur.core n fun b => { b with mode := .bound g, pcur := members, pnext := members, acur := [], anext := [], binding := none }
    (s.settle s.cur.core n).finish step
  | .grpJoin d g =>
    let w := bytesToWord (bs.take 8)
    let peers := (cut 6 ((bs.length - 8) / 6) (bs.drop 8)).map fun (x : List Byte) =>
      (bytesToNat (x.take 2), (⟨s.cur.core.l, bytesToNat (x.drop 2)⟩ : TileId))
    let m : Member := { g := g, index := (w.extractLsb' 32 32).toNat, gen := w.extractLsb' 0 32, peers := peers }
    (s.modCore s.cur.core fun k => { k with members := k.members ++ [m] }).finishReg step d w
  | .grpLeave d g =>
    (s.modCore s.cur.core fun k => { k with members := k.members.filter fun m => m.g ≠ g }).finishReg step d (bytesToWord (bs.take 8))

/-- A unit in progress that completes keeps the sequence number it took (12 R353). -/
def State.keepSeq (s : State) (c : CtxId) : State := if (s.ctx c).took.isSome then s.modCtx c fun x => { x with took := none } else s

/-- A unit in progress that traps gives back the sequence number it took (12 R353). -/
def State.untake (s : State) (c : CtxId) : State := if (s.ctx c).took.isSome then s.modCtx c fun x => { x with redo := x.took, took := none } else s

/-- A part of the answer of a unit in progress has come (07 R218): the unit completes with the last. An answer to no unit in progress is discarded (07 R227). -/
def State.replyTo (s : State) (b : Issuer) (id pos : Nat) (bs : List Byte) : State :=
  let c : CtxId := ⟨b.core, b.ctx⟩
  match (s.ctx c).phase with
  | .busy i need buf step wait cont =>
    if i = id then
      if need ≤ 1 then { s.keepSeq c with cur := c }.finishCont step cont (putBytes buf pos bs)
      else s.modCtx c fun x => { x with phase := .busy i (need - 1) (putBytes buf pos bs) step wait cont }
    else s
  | _ => s

/-- The leading bytes of a part of an ldff have come (07 R234): with a stop cause, no byte after them is valid. -/
def State.prefixTo (s : State) (b : Issuer) (id pos : Nat) (bs : List Byte) (cause : Nat) : State :=
  let c : CtxId := ⟨b.core, b.ctx⟩
  match (s.ctx c).phase with
  | .busy i need buf step wait (.firstFault q n valid old addr) =>
    if i = id then
      let stops := decide (cause ≠ 0) && decide (pos + bs.length < valid)
      let cont : Cont := if stops then .firstFault q n (pos + bs.length) cause addr else .firstFault q n valid old addr
      (s.modCtx c fun x => { x with phase := .busy i need buf step wait cont }).replyTo b id pos bs
    else s
  | _ => s

/-- A fault reply to a unit in progress: it traps, with nothing written (07 R218). -/
def State.faultTo (s : State) (b : Issuer) (id : Nat) (code : BitVec 8) (tval : Word) : State :=
  let c : CtxId := ⟨b.core, b.ctx⟩
  match (s.ctx c).phase with
  | .busy i _ _ _ _ (.barInit n _) =>
    if i = id then (({ s with cur := c }).modBar b.core n fun x => { x with binding := none, mode := .off }).trap code tval else s
  | .busy i _ _ _ _ _ => if i = id then { s.untake c with cur := c }.trap code tval else s
  | _ => s

/-! ### Reading -/

/-- The 4 KiB pieces of a translated range, for its walk (14 R410). -/
def pagePieces (va : Word) (len : Nat) : Nat → List (Word × Nat)
  | 0 => []
  | n + 1 =>
    let k := min len (4096 - (va.extractLsb' 0 12).toNat)
    if len = 0 then [] else (va, k) :: pagePieces (va + BitVec.ofNat 64 k) (len - k) n

/-- Sends a translated access to the translation interface of its die (14 R402). -/
def State.sendWalk (s : State) (a : Access) : State :=
  s.send (some a.by_.core) none (.walk a (pagePieces a.va a.len (a.len / 4096 + 2)) [])

/-- Sends the part of a read that a piece needs elsewhere. -/
def State.sendRead (s : State) (b : Issuer) (w : Where) (id : Nat) (mode : ReadMode) (device : Bool) (p : Piece) : State :=
  match p with
  | .own _ _ _ => s
  | .tile t off len pos => s.send (some b.core) (some t) (.read (.tile t off) len b id pos mode (w.addr + BitVec.ofNat 64 pos))
  | .xlat va len pos => s.sendWalk { by_ := b, kind := .read, va := va, len := len, addr := va, device := device, then_ := .read id pos mode }

/-- The first own piece that the own tile denies a read of. -/
def State.ownReadDenied (s : State) (w : Where) (ps : List Piece) : Option Word :=
  ps.findSome? fun p =>
    match p with
    | .own off len pos => s.deniesRead s.cur.core.tile s.me off len (w.addr + BitVec.ofNat 64 pos)
    | _ => none

/-- Fills a buffer with the own pieces of a read, performed at issue (07 R217, R221). -/
def State.ownBytes (s : State) (len : Nat) (ps : List Piece) : List Byte :=
  ps.foldl (fun buf p =>
    match p with
    | .own off n pos => putBytes buf pos (s.readHome (.tile s.cur.core.tile) s.me off n)
    | _ => buf) (List.replicate len 0)

/-- The current unit reads len bytes at a place, then goes on (07 R217 to R221): at once at its own home, else in progress until the last reply. -/
def State.readUnit (s : State) (w : Where) (len step : Nat) (device : Bool) (cont : Cont) : State :=
  let ps := s.pieces s.cur.core w len
  match s.ownReadDenied w ps with
  | some a => s.trap causeProt a
  | none =>
    if s.tagBad ps then s.xpart
    else if ps.any Piece.isOwn && s.ownPending s.cur.core then s.retry
    else
      let buf := s.ownBytes len ps
      let away := ps.filter fun p => !p.isOwn
      if away.isEmpty then s.finishCont step cont buf
      else
        let b := s.me
        let (id, s) := s.take
        let s := s.modCtx s.cur fun c => { c with phase := .busy id away.length buf step false cont }
        away.foldl (fun s p => s.sendRead b w id .plain device p) s

/-! ### Effects of units -/

/-- The effect of the current unit: its key if it is numbered, put in ticket order in ordered mode (12 R353, R355). -/
def State.effectOf (s : State) (key : Option Key) (part : Nat) (acts : List Act) (addr : Word) : Effect :=
  { key := key, part := part, gated := key.isSome && !s.hereCore.free, sendw := false, spilled := false, by_ := s.me, acts := acts,
    wid := none, xfer := none, reply := none, addr := addr, elems := 0, round := none }

/-- The effect with the request that awaits its answer. -/
def Effect.answering (e : Effect) (id : Nat) : Effect := { e with reply := some id }

/-- The posted writes that the current task has not had acknowledged (11 R335). -/
def State.outstanding (s : State) (uid : Nat) : List Posted := s.posted.filter fun p => p.by_.uid = uid

/-- The places among the unacknowledged writes that the pieces of a write take (11 R335): none at the own home, one for each page of a translated piece. -/
def placesAway (ps : List Piece) : Nat :=
  sumOf (ps.map fun p =>
    match p with
    | .own _ _ _ => 0
    | .tile _ _ _ _ => 1
    | .xlat va len _ => (pagePieces va len (len / 4096 + 2)).length + (if ps.any Piece.isOwn then 1 else 0))

/-- Whether a context's count of 256 unacknowledged writes leaves room for a write (11 R335). -/
def State.countsWrite (s : State) (ps : List Piece) : Bool := placesAway ps = 0 || decide ((s.outstanding s.uid).length + placesAway ps ≤ 256)

/-- Sends an effect whose reply the unit awaits. -/
def State.postReply (s : State) (h : Home) (e : Effect) : State :=
  let dst : Option TileId := match h with
    | .tile t => some t
    | _ => none
  s.send (some e.by_.core) dst (.effect h { e with round := dst.bind fun t => s.roundTag e.by_.core t })

/-- The address of the first own piece whose effect the own tile denies. -/
def State.ownDenied (s : State) (w : Where) (ps : List Piece) (acts : Nat → Nat → Nat → List Act) : Option Word :=
  ps.findSome? fun p =>
    match p with
    | .own off len pos => s.deniesEffect s.cur.core.tile (s.effectOf none 0 (acts off len pos) (w.addr + BitVec.ofNat 64 pos))
    | _ => none

/-- Takes a sequence number unless a piece is translated: such a unit takes it once it is accepted (12 R353, 14 R416). None past 2^30 - 1. -/
def State.keyFor (s : State) (ps : List Piece) : Option (Option Key × State) :=
  match s.takeSeq with
  | none => none
  | some (k, t) => if ps.any Piece.isXlat then some (none, s) else some (k, t)

/-- Performs the pieces of a write of which none is translated; none when the own home has no room for one (12 R363). DESIGN CHOICE, log 73: a unit whose
lines span two tiles makes one access at each, so that a denial at one leaves the other's lines written (07 R212). -/
def State.writePieces (s : State) (key : Option Key) (w : Where) (acts : Nat → Nat → Nat → List Act) : List Piece → Option State
  | [] => some s
  | .own off len pos :: r =>
    match s.giveHome (.tile s.cur.core.tile) (s.effectOf key pos (acts off len pos) (w.addr + BitVec.ofNat 64 pos)) with
    | none => none
    | some (s, _) => State.writePieces s key w acts r
  | .tile t off len pos :: r =>
    State.writePieces (s.post (.tile t) (s.effectOf key pos (acts off len pos) (w.addr + BitVec.ofNat 64 pos)) .transit) key w acts r
  | .xlat _ _ _ :: r => State.writePieces s key w acts r

/-- The effects of the pieces of a write that need no translation, to be sent once the others are accepted (14 R410). -/
def State.otherEffects (s : State) (w : Where) (acts : Nat → Nat → Nat → List Act) (ps : List Piece) : List (Home × Effect) :=
  ps.filterMap fun p =>
    match p with
    | .own off len pos => some (.tile s.cur.core.tile, s.effectOf none pos (acts off len pos) (w.addr + BitVec.ofNat 64 pos))
    | .tile t off len pos => some (.tile t, s.effectOf none pos (acts off len pos) (w.addr + BitVec.ofNat 64 pos))
    | .xlat _ _ _ => none

/-- What follows the acceptance of a write's translated pieces. -/
def Cont.after (c : Cont) (es : List (Home × Effect)) : Cont :=
  match es, c with
  | [], c => c
  | es, .popped q n => .posts es (some (q, n))
  | es, _ => .posts es Option.none

/-- Sends the translated pieces of a write; the unit is in progress until they are accepted (07 R219). -/
def State.walkPieces (s : State) (kind : AccessKind) (device : Bool) (step : Nat) (cont : Cont) (acts : Nat → Nat → Nat → List Act) (ps : List Piece) : State :=
  let xs := ps.filter Piece.isXlat
  let (id, s) := s.take
  let s := s.modCtx s.cur fun c => { c with phase := .busy id xs.length [] step false cont }
  xs.foldl (fun s p =>
    match p with
    | .xlat va len pos =>
      s.sendWalk { by_ := s.me, kind := kind, va := va, len := len, addr := va, device := device,
                   then_ := .effect ((s.effectOf none pos (acts 0 len pos) va).answering id) }
    | _ => s) s

/-- The current unit writes len bytes at a place by the acts given for each piece (offset, length, position), posted (07 R219, R220), and completes.
A local denial traps PROT at issue. -/
def State.writeUnit (s : State) (w : Where) (len step : Nat) (kind : AccessKind) (device : Bool) (cont : Cont) (acts : Nat → Nat → Nat → List Act) : State :=
  let ps := s.pieces s.cur.core w len
  match s.ownDenied w ps acts with
  | some a => s.trap causeProt a
  | none =>
    if s.tagBad ps then s.xpart
    else
      match s.keyFor ps with
      | none => s.seqTrap
      | some (key, s') =>
        if (ps.any Piece.isOwn && s.ownPending s.cur.core) || !s.countsWrite ps then s.retry
        else if ps.any Piece.isXlat then s.walkPieces kind device step (cont.after (s.otherEffects w acts ps)) acts ps
        else
          match s'.writePieces key w acts ps with
          | none => s.retry
          | some s' => s'.finishCont step cont []

/-- The current unit performs an atomic at a place and takes its answer (12 R370, R371). -/
def State.atomicUnit (s : State) (w : Where) (len step : Nat) (act : Nat → Act) (cont : Cont) : State :=
  let ps := s.pieces s.cur.core w len
  match s.ownDenied w ps (fun off _ _ => [act off]) with
  | some a => s.trap causeProt a
  | none =>
    if s.tagBad ps then s.xpart
    else
      match s.keyFor ps with
      | none => s.seqTrap
      | some (key, s') =>
        if ps.any Piece.isOwn && s.ownPending s.cur.core then s.retry
        else
          let (id, s') := s'.take
          let number := key.map fun k => k.seq.toNat % 1073741824
          let busy (s : State) : State := s.modCtx s.cur fun c =>
            { c with phase := .busy id 1 (List.replicate 8 0) step false cont, took := number }
          match ps with
          | [.own off _ _] =>
            match s'.giveHome (.tile s.cur.core.tile) ((s'.effectOf key 0 [act off] w.addr).answering id) with
            | none => s.retry
            | some (t, some v) => t.finishCont step cont (wordBytes v)
            | some (t, none) => busy t
          | [.tile t off _ _] => (busy s').postReply (.tile t) ((s'.effectOf key 0 [act off] w.addr).answering id)
          | [.xlat va n _] =>
            (busy s').sendWalk { by_ := s'.me, kind := .atomic, va := va, len := n, addr := va, device := false,
                                 then_ := .atomic ((s'.effectOf key 0 [act 0] va).answering id) }
          | _ => s

end Sys2Proof.Machine
end

