-- ==== Sys2Proof/Machine/System.lean ====
section
/-! DEFINITION. Majors 0x11 and 0x12: system forms and control words (04 R112 to R121, R137, R138; 02 R68, Table 2.14), their compact forms, and the two units
that do not decode. -/

namespace Sys2Proof.Machine

/-! ### Ending a task (05 R165) -/

/-- Or-s flags into a tile task's flag word (03 R99). -/
def State.orFlags (s : State) (tt : TTId) (f : BitVec 5) : State := s.modTT tt fun t => { t with flags := t.flags ||| f }

/-- Takes the earmarks of an activation off the queue entries of a tile (05 R150). -/
def Tile.unearmark (t : Tile) (uid : Nat) : Tile :=
  { t with queues := t.queues.map fun (q : Nat × Queue) =>
      (q.1, { q.2 with entries := q.2.entries.map fun (e : QEntry) => if e.owner = some uid then { e with owner := none } else e }) }

/-- Gives back to a tile task the number that a unit which trapped, and was not executed again, would have taken (12 R353), unless its core has taken later ones. -/
def State.giveBack (s : State) (tt : TTId) (r : Role) (n : Option Nat) : State :=
  match n with
  | none => s
  | some n => s.modTT tt fun t => if t.seqOf r = n then { t with seqs := setAt t.seqs r.code (n - 1) } else t

/-- Ends the task in a context (05 R165): its gang disbands (08 R268), its reservations, earmarks and held messages are released (05 R150, 06 R186),
its flags go to its tile task unless they are discarded (12 R369), its pending asynchronous traps are discarded (14 R420), and the context is free. -/
def State.endIn (s : State) (id : CtxId) (keepFlags : Bool) : State :=
  let s := s.disband id
  let c := s.ctx id
  let s := match c.task with
    | none => s
    | some t =>
      let s := s.modCore id.core fun k => { k with resv := k.resv.filter fun r => r.uid ≠ t.uid }
      let s := s.modTile id.core.tile fun x => x.unearmark t.uid
      let s := s.releaseAll id.core t.uid
      match t.tt with
      | none => s
      | some tt => (if keepFlags then s.orFlags tt c.flags else s).giveBack tt id.core.r c.redo
  s.setCtx id { Ctx.init with level := if id.core.r = Role.steward then 3 else 0 }

/-- end, by the current unit. -/
def State.endHere (s : State) : State := s.endIn s.cur true

/-- A kernel-notice context (14 R421). -/
def Ctx.isNotice (c : Ctx) : Bool :=
  match c.task with
  | none => false
  | some t => decide (t.kind = .notice)

/-! ### Return from a trap (04 R121, 14 R418, R421) -/

/-- The bank that a level reaches (14 R418): the hyper bank at hyper level, else the kernel bank. -/
def Ctx.bank (c : Ctx) : Bank := if c.level = 2 then c.hbank else c.kbank

/-- Replaces the bank that the level reaches. -/
def Ctx.setBank (c : Ctx) (b : Bank) : Ctx := if c.level = 2 then { c with hbank := b } else { c with kbank := b }

/-- eret on its bank (04 R121): the loop comes back, the level becomes plevel (a steward's stays 3, 04 R112), tnest clears, the pc is cw.epc. -/
def Ctx.eret (c : Ctx) : Ctx :=
  let b := c.bank
  let c := { c with loop := if b.tnest then c.savedLoop else { c.loop with active := false } }
  let c := { c.setBank { b with tnest := false } with level := if c.level = 3 then 3 else b.plevel }
  c.jump b.epc

/-- A context goes on: with the unit in progress that its LONG kind 4 found, else at its program counter (16 R446). -/
def Ctx.resumed (c : Ctx) : Ctx :=
  match c.under with
  | none => { c with phase := .run }
  | some u => { c with phase := u.phase, took := u.took, under := none }

/-- What an eret does with the unit in progress beneath the handler: at its address it goes on; a handler that returns elsewhere leaves it behind (16 R446;
DEDUCED, log 80). -/
def Ctx.goesOn (c : Ctx) : Ctx :=
  match c.under with
  | none => c
  | some u => if c.pc = u.pc then c.resumed else if c.kbank.tnest || c.hbank.tnest then c else { c with under := none }

/-- RETURNING FROM A TRAP: PRIV when plevel is above the level (04 R121); in a kernel notice it acts as end (14 R421). -/
def State.eret (s : State) : State :=
  if s.here.isNotice then s.endHere
  else if s.here.level < s.here.bank.plevel then s.trap causePriv 0
  else s.modCtx s.cur fun c => c.eret.goesOn

/-! ### Control words (04 Tables 4.1 to 4.4, 02 Table 2.14) -/

/-- The power group of a core: that of its tile's zone, or of zone Z(4d) for the steward of die d (02 R521, 04 R114, 16 R443). -/
def State.groupOf (s : State) (c : CoreId) : Nat :=
  if c.r = .steward then powerOf (4 * c.t) else powerOf ((s.zoneOf c.tile).getD 0)

/-- cw.curstep as it reads: a stored 0 reads 0 (04 Table 4.4). -/
def State.curstep (s : State) (c : CoreId) : BitVec 16 := (s.power (s.groupOf c)).limit

/-- cw.status.gang: the AC is a member of a gang (04 Table 4.2, 08 R264). -/
def State.inGang (s : State) (c : CoreId) : Bool :=
  (s.core c).follows.isSome || (List.range 4).any fun i => (s.ctx ⟨c, i⟩).gang.isSome

/-- cw.status (04 Table 4.2). -/
def statusWord (c : Ctx) (gang : Bool) : Word :=
  (BitVec.ofNat 64 c.flags.toNat) ||| (BitVec.ofNat 64 c.level.toNat <<< 8) ||| (BitVec.ofNat 64 c.bank.plevel.toNat <<< 10) |||
  (flagWord c.bank.tnest <<< 13) ||| (flagWord c.uim <<< 14) ||| (flagWord c.uih <<< 15) ||| (flagWord c.loop.active <<< 16) ||| (flagWord gang <<< 17)
where
  /-- A bit as a word. -/
  flagWord (b : Bool) : Word := if b then 1 else 0

/-- cw.cause (04 Table 4.3). -/
def causeWord (b : Bank) : Word := b.code.setWidth 64 ||| (if b.async then 0x100 else 0)

/-- A code address of 64-byte alignment: bits 5:0 are WZ (04 Table 4.4). -/
def align64 (w : Word) : Word := w &&& ~~~0x3F

/-- Reads a control word for the current context (04 R113 to R117, R138; 02 R521). -/
def State.readCw (s : State) (h : BitVec 1) (n : BitVec 12) : Word :=
  let c := s.here
  let id := s.cur.core
  let k := s.hereCore
  let steward := decide (id.r = Role.steward)
  match n.toNat with
  | 0x000 => statusWord c (s.inGang id)
  | 0x001 => causeWord c.bank
  | 0x002 => c.bank.epc
  | 0x003 => c.bank.tval
  | 0x004 => if c.level = 2 then k.tvecH else k.tvecK
  | 0x005 => c.uvec
  | 0x010 => c.fmta.setWidth 64
  | 0x011 => c.fmtb.setWidth 64
  | 0x012 => c.scla.setWidth 64
  | 0x013 => c.sclb.setWidth 64
  | 0x014 => c.round.setWidth 64
  | 0x015 => c.seed
  | 0x016 => if steward then 0 else if k.free then 1 else 0
  | 0x020 => if steward then 0 else BitVec.ofNat 64 id.t
  | 0x021 => BitVec.ofNat 64 id.r.code
  | 0x022 => if steward then 0 else c.ticket.extractLsb' (64 * h.toNat) 64
  | 0x030 => if steward then 0 else k.ptag.setWidth 64
  | 0x031 => k.prof.setWidth 64
  | 0x032 => (s.curstep id).setWidth 64
  | 0x033 => k.wdog.setWidth 64
  | _ => 0

/-- Writes a control word for the current context: only RW fields take the bits (04 R115 to R117, R138). On a die steward, cw.mode and cw.ptag read 0 and
nothing is stored (02 R521). -/
def State.writeCw (s : State) (n : BitVec 12) (a : Word) : State :=
  let id := s.cur.core
  let ctx (f : Ctx → Ctx) : State := s.modCtx s.cur f
  let core (f : Core → Core) : State := s.modCore id f
  match n.toNat with
  | 0x000 => ctx fun c => c.setBank { c.bank with plevel := a.extractLsb' 10 2 }
  | 0x001 => ctx fun c => c.setBank { c.bank with code := a.extractLsb' 0 8, async := a.getLsbD 8 }
  | 0x002 => ctx fun c => c.setBank { c.bank with epc := a &&& ~~~1 }
  | 0x003 => ctx fun c => c.setBank { c.bank with tval := a }
  | 0x004 => if s.here.level = 2 then core fun k => { k with tvecH := align64 a } else core fun k => { k with tvecK := align64 a }
  | 0x005 => ctx fun c => { c with uvec := align64 a }
  | 0x010 => ctx fun c => { c with fmta := a.extractLsb' 0 5 }
  | 0x011 => ctx fun c => { c with fmtb := a.extractLsb' 0 5 }
  | 0x012 => ctx fun c => { c with scla := a.extractLsb' 0 20 }
  | 0x013 => ctx fun c => { c with sclb := a.extractLsb' 0 20 }
  | 0x014 => ctx fun c => { c with round := a.extractLsb' 0 2 }
  | 0x015 => ctx fun c => { c with seed := a }
  | 0x016 => if id.r = Role.steward then s else core fun k => { k with free := a.getLsbD 0 }
  | 0x030 => if id.r = Role.steward then s else core fun k => { k with ptag := a.extractLsb' 0 8 }
  | 0x031 => core fun k => { k with prof := a.extractLsb' 0 8 &&& 0xFE }
  | 0x032 => s.modPower (s.groupOf id) fun g => { g with limit := a.extractLsb' 0 16 }
  | 0x033 => core fun k => { k with wdog := if (a.extractLsb' 0 32).toNat < 1024 then 1024 else a.extractLsb' 0 32 }
  | _ => s

/-! ### The meanings -/

/-- NOP (04 R137). -/
def execNop (s : State) : Outcome := unit formNop s fun s => s.finish formNop.len
/-- BRK (04 R137): traps BRK with cw.tval 0. -/
def execBrk (s : State) : Outcome := unit formBrk s fun s => s.trap causeBrk 0
/-- TRAP (04 R137): traps TRAP with cw.tval A. -/
def execTrap (a : BitVec 5) (s : State) : Outcome := unit (formTrap a) s fun s => s.trap causeTrap (s.here.reg a)
/-- SYSC (04 R137): traps SYSC with cw.tval A. -/
def execSysc (a : BitVec 5) (s : State) : Outcome := unit (formSysc a) s fun s => s.trap causeSysc (s.here.reg a)
/-- ERET (04 R121). -/
def execEret (s : State) : Outcome := unit formEret s fun s => s.eret
/-- CWR (04 R138). -/
def execCwr (h : BitVec 1) (n : BitVec 12) (d : BitVec 5) (s : State) : Outcome :=
  unit (formCwr h n d) s fun s => s.finishReg (formCwr h n d).len d (s.readCw h n)
/-- CWW (04 R138). -/
def execCww (n : BitVec 12) (a : BitVec 5) (s : State) : Outcome :=
  unit (formCww n a) s fun s => (s.writeCw n (s.here.reg a)).finish (formCww n a).len
/-- COMPACT_NOP (02 R58). -/
def execCompactNop (s : State) : Outcome := unit formCompactNop s fun s => s.finish formCompactNop.len
/-- COMPACT_BRK (02 R58). -/
def execCompactBrk (s : State) : Outcome := unit formCompactBrk s fun s => s.trap causeBrk 0
/-- COMPACT_END (02 R58, 05 R165). -/
def execCompactEnd (s : State) : Outcome := unit formCompactEnd s fun s => s.endHere

end Sys2Proof.Machine
end

