-- ==== Sys2Proof/Machine/Tasks.lean ====
section
/-! DEFINITION. Majors 0x13, 0x14 and 0x31: tasks, waiting-task entries, waits on an address, spawning and tickets (05 R164 to R175, 12 R376 to R379). -/

namespace Sys2Proof.Machine

/-! ### Shared by the units that send -/

/-- The tile task of the current unit. -/
def State.ownTT (s : State) : Option TTId := s.here.task.bind Task.tt

/-- Whether a home lies in the device set (11 Table 11.1). -/
def Home.isDevice : Home → Bool
  | .host _ => false
  | _ => true

/-- The posted writes of the current task with a home in the device set, for which its messages wait (11 R340). -/
def State.deviceWrites (s : State) : List Nat := ((s.outstanding s.uid).filter fun p => Home.isDevice p.home).map Posted.wid

/-- Goes on when the core's tag is permitted, else traps XPART (17 R464). -/
def State.whenPermitted (s : State) (k : State → State) : State := if s.permitted s.cur.core then k s else s.xpart

/-- Goes on with the next sequence number of the current unit (12 R353). -/
def State.whenSeq (s : State) (k : Option Key → State → State) : State :=
  match s.takeSeq with
  | none => s.seqTrap
  | some (key, s) => k key s

/-! ### Waiting-task entries (05 R166 to R168) -/

/-- Whether an entry is armed by a tile task other than the current one. -/
def State.armedByOther (s : State) (e : Nat) : Bool :=
  let w := s.hereCore.entry e
  w.armed && decide (w.owner ≠ s.ownTT)

/-- The fields of an arm word (05 Table 5.2). -/
def armEntry (w : Word) : Nat := (w.extractLsb' 0 8).toNat
def armClass (w : Word) : Nat := (w.extractLsb' 8 6).toNat
def armJoin (w : Word) : Bool := w.getLsbD 14
def armThr (w : Word) : BitVec 32 := w.extractLsb' 16 32
/-- The bits of an arm word that must be 0 for every unit are. -/
def armZero (w : Word) : Bool := w.extractLsb' 48 16 = 0 && !w.getLsbD 15

/-- END (05 R165). -/
def execEndTask (s : State) : Outcome := unit formEndTask s fun s => s.endHere

/-- ARM (05 R166): the unit's own tests come before its sequence number (12 R353). -/
def execArm (b a : BitVec 5) (s : State) : Outcome :=
  unit (formArm b a) s fun s =>
    let w := s.here.reg a
    let put (index : BitVec 16) (s : State) : State := s.whenSeq fun key s =>
      (s.modEntry s.cur.core (armEntry w) fun e =>
        { e with armed := true, thr := armThr w, cls := armClass w, join := armJoin w, arg := s.here.reg b, owner := s.ownTT,
                 seq := (key.map Key.seq).getD 0, index := index }).finish (formArm b a).len
    if s.here.isNotice || !armZero w || decide (armThr w = 0) || s.armedByOther (armEntry w) then s.trap causeProt w
    else if armJoin w then
      match s.ownTT.bind fun t => s.takeSpawn t s.cur.core.r with
      | none => s.trap causeProt w
      | some (k, t) => if t.takeSeq.isNone then s.seqTrap else put k t
    else put 0 s

/-- DISARM (05 R167). -/
def execDisarm (a d : BitVec 5) (s : State) : Outcome :=
  unit (formDisarm a d) s fun s =>
    let w := s.here.reg a
    if w.extractLsb' 8 56 ≠ 0 ∨ s.armedByOther (armEntry w) then s.trap causeProt w
    else
      let old := (s.hereCore.entry (armEntry w)).counter
      (s.modEntry s.cur.core (armEntry w) fun e => { e with counter := 0, armed := false }).finishReg (formDisarm a d).len d (old.setWidth 64)

/-- A denial of the current task's own posted unit at its own tile: counted, and asynchronous PROT (07 R220). -/
def State.selfDenied (s : State) (addr : Word) : State :=
  (s.countDenial s.me addr).pend s.cur.core s.uid causeProt addr

/-- Sends a wait request, or hands it to the own home (05 R162, R168). -/
def State.sendWait (s : State) (p : Piece) (expected : Word) (entry : Nat) (addr : Word) : State :=
  let b := s.me
  match p with
  | .own off _ _ =>
    match s.deniesRead s.cur.core.tile b off 8 addr with
    | some x => (s.incrEntry s.cur.core entry).selfDenied x
    | none => s.waitAt (.tile s.cur.core.tile) off expected b entry
  | .tile t off _ _ => s.send (some b.core) (some t) (.wait (.tile t off) expected b entry addr)
  | .xlat _ _ _ => s

/-- WAITA (05 R168): at a translated place the entry is armed once the request has been translated (14 R402, R410). -/
def execWaita (c b a : BitVec 5) (s : State) : Outcome :=
  let f := formWaita c b a
  unit f s fun s =>
    let x := s.here.reg a
    let w := s.here.reg c
    let expected := s.here.reg b
    if x.extractLsb' 0 3 ≠ 0 then s.trap causeAlign x
    else if s.here.isNotice || !armZero w || decide (armThr w ≠ 0) || armJoin w || s.armedByOther (armEntry w) then s.trap causeProt w
    else if s.badWindow s.cur.core.l x 8 then s.trap causeProt x
    else
      let p := s.piecesAt s.cur.core x 8 0
      let e : WEntry := { counter := 0, armed := true, thr := 1, cls := armClass w, join := false, arg := expected, owner := s.ownTT, seq := 0, index := 0 }
      if s.tagBad [p] then s.xpart
      else if p.isOwn && s.ownPending s.cur.core then s.retry
      else
        match p with
        | .xlat va _ _ =>
          if s.takeSeq.isNone then s.seqTrap
          else
            let (id, s) := s.take
            let s := s.modCtx s.cur fun k => { k with phase := .busy id 1 [] f.len false (.armed (armEntry w) e) }
            s.sendWalk { by_ := s.me, kind := .wait, va := va, len := 8, addr := x, device := false, then_ := .wait expected (armEntry w) }
        | p => s.whenSeq fun key s =>
          ((s.modEntry s.cur.core (armEntry w) fun _ => { e with seq := (key.map Key.seq).getD 0 }).sendWait p expected (armEntry w) x).finish f.len

/-- WAKE (05 R169): an effect at the home of A, in ticket order (05 R162). A denial is reported as for a posted write, by the own home too. -/
def execWake (b a : BitVec 5) (s : State) : Outcome :=
  let f := formWake b a
  unit f s fun s =>
    let x := s.here.reg a
    let n := s.here.reg b
    if x.extractLsb' 0 3 ≠ 0 then s.trap causeAlign x
    else if s.badWindow s.cur.core.l x 8 then s.trap causeProt x
    else
      let acts : Nat → Nat → Nat → List Act := fun off _ _ => [.wake off n]
      match s.ownDenied (.global x) (s.pieces s.cur.core (.global x) 8) acts with
      | some y => s.whenSeq fun _ s => (s.selfDenied y).finish f.len
      | none => s.writeUnit (.global x) 8 f.len .write false .none acts

/-! ### The task itself (05 R170 to R174) -/

/-- The code of an activation kind (05 Table 5.4). -/
def ActKind.code : ActKind → Nat
  | .start => 0
  | .message => 1
  | .counter => 2
  | .join => 3
  | .spawn => 4
  | .roaming => 5
  | .upcall => 6
  | .notice => 7

/-- The task word (05 Table 5.4). -/
def taskWord (c : Ctx) (n : Nat) : Word :=
  match c.task with
  | none => 0
  | some t => BitVec.ofNat 64 (t.kind.code * 16777216 + t.entry.toNat * 256 + n * 64 + t.cls)

/-- TID (05 R170). -/
def execTid (d : BitVec 5) (s : State) : Outcome :=
  unit (formTid d) s fun s => s.finishReg (formTid d).len d (taskWord s.here s.cur.c)

/-- PRIO (05 R171). DESIGN CHOICE, log 69: of an invalid class the new value is kept and read back, while its activations enter at 0 (05 R525). -/
def execPrio (a d : BitVec 5) (s : State) : Outcome :=
  unit (formPrio a d) s fun s =>
    let w := s.here.reg a
    if w &&& ~~~0x873F ≠ 0 then s.trap causeProt w
    else
      let n := (w.extractLsb' 0 6).toNat
      let old := s.hereCore.classes.getD n Class.invalid
      let s := if w.getLsbD 15 then
          s.modCore s.cur.core fun k => { k with classes := k.classes.set n { old with prio := (w.extractLsb' 8 3).toNat } }
        else s
      s.finishReg (formPrio a d).len d (BitVec.ofNat 64 old.prio)

/-- DEFER (05 R172). -/
def execDefer (a : BitVec 5) (s : State) : Outcome :=
  unit (formDefer a) s fun s =>
    let w := s.here.reg a
    if w.extractLsb' 1 63 ≠ 0 then s.trap causeProt w
    else (s.modCtx s.cur fun c => { c with background := w.getLsbD 0 }).finish (formDefer a).len

/-- UIRET (05 R173): the loop's adjustment acts on the address it returns to (04 R136). On a die steward it traps ROLE, as every form of its major (02 R521). -/
def execUiret (s : State) : Outcome :=
  if s.here.uih = false ∧ s.cur.core.r ≠ .steward then .next ({ s with trapped := none }.trap causeIllegal formUiret.bits)
  else
    unit formUiret s fun s => s.modCtx s.cur fun c =>
      { ({ c.counted c.level with loop := c.uloop, uih := false } : Ctx).jump c.upc with phase := .run, waited := 0 }

/-- UIMASK (05 R174). -/
def execUimask (a d : BitVec 5) (s : State) : Outcome :=
  unit (formUimask a d) s fun s =>
    let w := s.here.reg a
    if w.extractLsb' 1 63 ≠ 0 then s.trap causeProt w
    else
      let old := s.here.uim
      (s.modCtx s.cur fun c => { c with uim := w.getLsbD 0 }).finishReg (formUimask a d).len d (if old then 1 else 0)

/-! ### Spawning (05 R157 to R159, R175) -/

/-- The candidate tiles of a roaming child, in list order (05 R159). -/
def State.candidates (s : State) (l hint r : Nat) : List Nat :=
  match s.launches.get? l with
  | none => []
  | some g =>
    (List.range (2 * r + 1)).flatMap fun j =>
      let dy : Int := (j : Int) - r
      let w := r - dy.natAbs
      (List.range (2 * w + 1)).map fun i =>
        let dx : Int := (i : Int) - w
        (Int.emod ((hint / g.x : Nat) + dy) g.y).toNat * g.x + (Int.emod ((hint % g.x : Nat) + dx) g.x).toNat

/-- Whether a core has a free context and a free run-queue entry (05 R159). -/
def State.idle (s : State) (c : CoreId) : Bool :=
  decide ((s.core c).runq.length < 64) && (List.range 4).any fun i => decide ((s.ctx ⟨c, i⟩).phase = .free)

/-- Where a roaming child lands (05 R159). In free mode the way that the manual leaves open picks among the idle candidates and the hint (log entry 28). -/
def State.landing (s : State) (hint r : Nat) (role : Role) (child : List (BitVec 16)) : Nat :=
  let l := s.cur.core.l
  let list := s.candidates l hint r
  if s.hereCore.free then
    let can := list.filter fun t => s.idle ⟨l, t, role⟩
    if can.isEmpty then hint else (can ++ [hint]).getD (Config.roamingChoice s.fresh % (can.length + 1)) hint
  else list.getD ((hashSr 0 (ticketWord child 0) 0 0).toNat % list.length) hint

/-- A spawn word that breaks Table 5.5 (05 R175). -/
def State.badSpawn (s : State) (w : Word) (roaming : Bool) : Bool :=
  w.extractLsb' 35 29 ≠ 0 || w.extractLsb' 33 2 = 3 || decide (s.gridSize s.cur.core.l ≤ (w.extractLsb' 0 20).toNat) ||
  (!roaming && w.extractLsb' 20 4 ≠ 0)

/-- The child tile task of the current unit with its activation on the way (05 R157, R158, R175). -/
def State.sendSpawn (s : State) (tt : TTId) (k : BitVec 16) (w arg : Word) (cls : Nat) (roaming : Bool) : State :=
  let child : TTId := ⟨tt.l, tt.path ++ [k]⟩
  let role := Role.ofCode (w.extractLsb' 33 2).toNat
  let t := if roaming then s.landing (w.extractLsb' 0 20).toNat (w.extractLsb' 20 4).toNat role child.path else (w.extractLsb' 0 20).toNat
  let dst : CoreId := ⟨tt.l, t, role⟩
  let parent := (s.tts.get? tt).getD (TileTask.init 0 0 s.cur.core.tile)
  let report := if w.getLsbD 32 then some (s.cur.core, (w.extractLsb' 24 8).toNat) else none
  let s := s.newTT child { TileTask.init parent.index parent.node dst.tile with report := report }
  let x : Waiting := { kind := if roaming then .roaming else .spawn, cls := cls, s1 := arg, s2 := k.setWidth 64,
                       s3 := BitVec.ofNat 64 s.cur.core.t, tt := child, key := ⟨child.l, child.path, 0⟩, addr := none, release := none }
  s.sendSt (some s.cur.core) (some dst.tile) (.spawn dst x s.uid) (.queued s.deviceWrites)

/-- spawn and spawnr (05 R175). -/
def spawnUnit (f : Form) (c : BitVec 6) (a d : BitVec 5) (roaming : Bool) (s : State) : Outcome :=
  unit f s fun s =>
    let w := s.here.reg a
    if s.here.isNotice || s.badSpawn w roaming then s.trap causeProt w
    else
      match s.ownTT with
      | none => s.trap causeProt w
      | some tt =>
        match s.takeSpawn tt s.cur.core.r with
        | none => s.trap causeProt w
        | some (k, s') =>
          if s.permitted s.cur.core = false then s.xpart
          else
            match s'.takeSeq with
            | none => s.seqTrap
            | some (_, s') => (s'.sendSpawn tt k w (s.here.reg d) c.toNat roaming).finish f.len

/-- SPAWN (05 R175). -/
def execSpawn (c : BitVec 6) (a d : BitVec 5) (s : State) : Outcome := spawnUnit (formSpawn c a d) c a d false s
/-- SPAWNR (05 R175). -/
def execSpawnr (c : BitVec 6) (a d : BitVec 5) (s : State) : Outcome := spawnUnit (formSpawnr c a d) c a d true s

/-! ### Tickets (12 R376 to R379) -/

/-- The code of a scope kind (12 Table 12.8). -/
def Scope.code : Scope → Nat
  | .none => 0
  | .launch => 1
  | .stream => 2

/-- The scope kind and launch number of the current launch, as Tables 12.8 and 12.9 place them. -/
def scopeBits (l : Launch) : Nat := l.scope.code * 4611686018427387904 + (if l.scope = .stream then l.number.toNat else 0) * 4294967296

/-- The ticket state word (12 Table 12.8). -/
def State.ticketState (s : State) : Word :=
  match s.launches.get? s.cur.core.l with
  | none => 0
  | some l =>
    match s.ownTT with
    | none => BitVec.ofNat 64 (scopeBits l)
    | some tt =>
      let n := ((s.tts.get? tt).map fun x => s.here.nextSeq x s.cur.core.r).getD 1
      BitVec.ofNat 64 (scopeBits l + (tt.path.length - 1) * 576460752303423488 + (seqWord s.cur.core.r n).toNat)

/-- TKT_GET (12 R377). -/
def execTktGet (d : BitVec 5) (s : State) : Outcome :=
  unit (formTktGet d) s fun s => s.finishReg (formTktGet d).len d s.ticketState

/-- The scope word of a launch whose scope has some overflow hamper units, and ends or not (12 Table 12.9). -/
def scopeWord (l : Launch) (overflow : Nat) (ending : Bool) : Word :=
  BitVec.ofNat 64 (scopeBits l + (if l.scope = .none then 0 else l.slot) * 281474976710656 + overflow * 256 + (if ending then 1 else 0))

/-- Whether op 2 has been accepted in a launch's scope (12 Table 12.9). -/
def State.scopeEnding (s : State) (l : Nat) : Bool := s.launches.any fun x => x.2.ending && s.sameScope x.1 l

/-- The place of the next op 1 among those of the module (12 R378). -/
def State.nextOverflow (s : State) : Nat := s.launches.foldl (fun m x => max m x.2.overflowAt) 0 + 1

/-- Whether the current tile task is the one of static index 0 (12 R378). -/
def State.isIndex0 (s : State) : Bool := decide (s.ownTT.map TTId.path = some (List.replicate (s.staticDepth s.cur.core.l) 0))

/-- The scope of a launch as op n with u units changes it; none when it may not (12 R378). -/
def Launch.scoped (l : Launch) (n u : Nat) : Option Launch :=
  match n with
  | 0 => some l
  | 1 => if l.free || l.overflow.isSome || decide (l.pool < u) then none else some { l with overflow := some u, pool := l.pool - u }
  | _ => if l.free || decide (l.scope ≠ .stream) then none else some { l with ending := true }

/-- The end of a launch's stream: once its end is asked, the interface's next launch opens a new stream (12 R378). -/
def State.endStream (s : State) (l : Launch) : State :=
  if (s.iface l.iface).stream.map Prod.fst = some l.slot then s.modIface l.iface fun f => { f with stream := none } else s

/-- TKT_SCOPE (12 R378). -/
def execTktScope (a d : BitVec 5) (s : State) : Outcome :=
  unit (formTktScope a d) s fun s =>
    let w := s.here.reg a
    let n := (w.extractLsb' 0 4).toNat
    let u := (w.extractLsb' 8 8).toNat
    if 2 < n ∨ w.extractLsb' 16 48 ≠ 0 ∨ w.extractLsb' 4 4 ≠ 0 ∨ (n ≠ 1 ∧ u ≠ 0) ∨ (n ≠ 0 ∧ s.isIndex0 = false) then s.trap causeProt w
    else
      match s.launches.get? s.cur.core.l with
      | none => s.trap causeProt w
      | some l =>
        match l.scoped n u with
        | none => s.trap causeProt w
        | some m =>
          let m := if n = 1 then { m with overflowAt := s.nextOverflow } else m
          let s := { s with launches := s.launches.set s.cur.core.l m }
          let s := if m.ending && !l.ending then s.endStream m else s
          s.finishReg (formTktScope a d).len d (scopeWord m (s.scopeOverflow s.cur.core.l) (s.scopeEnding s.cur.core.l))

/-- Disarms every entry of a core that a tile task has armed. -/
def State.disarmAll (s : State) (c : CoreId) (tt : TTId) : State :=
  s.modCore c fun k => { k with wtt := k.wtt.map fun (e : Nat × WEntry) => (e.1, if e.2.owner = some tt then { e.2 with armed := false } else e.2) }

/-- Voids a tile task (12 R369): its held effects, ready activations and armed entries go, its other tasks end at their next unit boundary, it counts as
retired. -/
def State.void (s : State) (tt : TTId) : State :=
  let s := s.modTT tt fun t => { t with voided := true, retired := true }
  let s := s.homes.keys.foldl (fun s h =>
    let gone := (s.home h).held.filter fun e => e.gated && decide (e.key.map Key.tt = some tt)
    gone.foldl (fun s e => s.acknowledge e) (s.modHome h fun x => { x with held := x.held.filter fun e => !gone.contains e })) s
  s.cores.keys.foldl (fun s c =>
    let mine (x : Nat × Fibre) : Bool := decide (x.2.ctx.task.bind Task.tt = some tt)
    let gone := ((s.core c).runq.filter fun r => decide (r.tt = some tt)).map Ready.uid ++
      ((s.core c).fibres.filter mine).map fun (x : Nat × Fibre) => (x.2.ctx.task.map Task.uid).getD 0
    let s := s.disarmAll c tt
    let s := gone.foldl (fun s r => (s.releaseAll c r).modTile c.tile fun x => x.unearmark r) s
    let s := s.modCore c fun k =>
      { k with runq := (k.runq.filter fun r => !decide (r.tt = some tt)), waiting := (k.waiting.filter fun w => !decide (w.tt = tt)),
               resv := (k.resv.filter fun r => !gone.contains r.uid), fibres := k.fibres.filter fun x => !mine x }
    (List.range 4).foldl (fun s i =>
      let id : CtxId := ⟨c, i⟩
      if id ≠ s.cur ∧ ((s.ctx id).task.bind Task.tt) = some tt then s.modCtx id fun x => { x with ends := true } else s) s) s

/-- TKT_VOID (12 R379). -/
def execTktVoid (a : BitVec 5) (s : State) : Outcome :=
  unit (formTktVoid a) s fun s =>
    let w := s.here.reg a
    if w ≠ 0 then s.trap causeProt w
    else
      match s.ownTT with
      | none => s.endIn s.cur false
      | some tt => (s.void tt).endIn s.cur false

end Sys2Proof.Machine
end

