-- ==== Sys2Proof/Machine/Engine.lean ====
section
/-! DEFINITION. The bulk copy engine: notices (07 R228), records and clipping (10 R310 to R313), transfers and their elements (10 R315 to R324), major 0x2A. -/

namespace Sys2Proof.Machine

/-! ### Notices (07 R228) -/

/-- A notice word (07 Table 7.4, bits 15:0); none when it breaks the table. -/
def noticeOf (w : BitVec 16) : Option Notice :=
  let kind := (w.extractLsb' 14 2).toNat
  let target := (w.extractLsb' 0 8).toNat
  if w.extractLsb' 8 6 ≠ 0 ∨ kind = 3 ∨ (kind = 2 ∧ 16 ≤ target) ∨ (kind = 0 ∧ target ≠ 0) then none
  else some { kind := kind, target := target }

/-- Goes on with a notice, else PROT with the word (07 R228). -/
def State.whenNotice (s : State) (w : BitVec 16) (k : Notice → State) : State :=
  match noticeOf w with
  | none => s.trap causeProt (w.setWidth 64)
  | some n => k n

/-- Gives a completion's notice (07 R228, 05 R163). -/
def State.notify (s : State) (b : Issuer) (n : Notice) : State :=
  match n.kind with
  | 1 => s.incrLater b.core n.target
  | 2 => s.modRunning b.core b.uid fun c => { c with pending := c.pending ||| ((1 : BitVec 16) <<< n.target) }
  | _ => s

/-! ### Records (10 R311 to R313) -/

/-- A shape record (10 Table 10.7). -/
abbrev Record := List Word

def Record.word (r : Record) (i : Nat) : Word := r.getD i 0
/-- The element type code. -/
def Record.type (r : Record) : Nat := (Record.word r 7 |>.extractLsb' 0 4).toNat
/-- First and last unclipped coordinate of a dimension. -/
def Record.lo (r : Record) (i : Nat) : Nat := field16 (Record.word r 5) i
def Record.hi (r : Record) (i : Nat) : Nat := field16 (Record.word r 6) i

/-- Four coordinates. -/
abbrev Coord := Nat × Nat × Nat × Nat

/-- Whether an element is clipped (10 R313). -/
def Record.clipped (r : Record) (c : Coord) : Bool :=
  let out (i x : Nat) : Bool := decide (x < Record.lo r i) || decide (Record.hi r i < x)
  out 0 c.1 || out 1 c.2.1 || out 2 c.2.2.1 || out 3 c.2.2.2

/-- Where an element begins: the address of its first byte and its first bit there (10 R312, 03 R84). -/
def Record.place (r : Record) (c : Coord) : Word × Nat :=
  let a := Record.word r 0 + BitVec.ofNat 64 c.2.1 * Record.word r 2 + BitVec.ofNat 64 c.2.2.1 * Record.word r 3 + BitVec.ofNat 64 c.2.2.2 * Record.word r 4
  let bits := c.1 * (elemType (Record.type r)).width
  (a + BitVec.ofNat 64 (bits / 8), bits % 8)

/-- The 16-bit fields of an origin or box word as a coordinate. -/
def coordOf (w : Word) : Coord := (field16 w 0, field16 w 1, field16 w 2, field16 w 3)

/-- The indices of a box given by its counts minus 1, in linear order (10 R312, R318). -/
def boxIndices (b : Coord) : List Coord :=
  (List.range (b.2.2.2 + 1)).flatMap fun i3 => (List.range (b.2.2.1 + 1)).flatMap fun i2 =>
    (List.range (b.2.1 + 1)).flatMap fun i1 => (List.range (b.1 + 1)).map fun i0 => (i0, i1, i2, i3)

/-- Bytes that w bits from a bit position touch. -/
def spanBytes (bit w : Nat) : Nat := (bit + w + 7) / 8

/-! ### Denials (10 R323) -/

/-- A denial of a transfer's element: counted, and asynchronous PROT once per transfer. -/
def State.engineDenial (s : State) (id : Nat) (b : Issuer) (addr : Word) : State :=
  let told := ((s.xfers.find? fun x => x.id = id).map Xfer.told).getD true
  let s := { s with xfers := s.xfers.map fun (x : Xfer) => if x.id = id then { x with told := true } else x }
  let s := (s.countDenial b addr).modRunning b.core b.uid fun c => { c with edenials := c.edenials + 1 }
  if told then s else s.pend b.core b.uid causeProt addr

/-! ### Elements -/

/-- The issuer of a unit's transfer. -/
def State.engine (s : State) : Issuer := { s.me with engine := true }

/-- Sends the read of some bytes of a line (10 R323, R324): the own tile's like any other's, as an arrival; the bytes go to position pos of the reply. -/
def State.engineRead (s : State) (b : Issuer) (id pos : Nat) (a : Word) (n : Nat) : State :=
  match s.piecesAt b.core a n pos with
  | .own off len pos => s.send (some b.core) (some b.core.tile) (.read (.tile b.core.tile off) len b id pos .plain a)
  | .tile t off len pos => s.send (some b.core) (some t) (.read (.tile t off) len b id pos .plain a)
  | .xlat va len pos => s.sendWalk { by_ := b, kind := .engineRead, va := va, len := len, addr := va, device := false, then_ := .read id pos .plain }

/-- Changes a transfer. -/
def State.modXfer (s : State) (id : Nat) (f : Xfer → Xfer) : State :=
  { s with xfers := s.xfers.map fun (x : Xfer) => if x.id = id then f x else x }

/-- The raw bytes and byte masks of w bits v at a bit position. -/
def rawBytes (bit w v : Nat) : List (Byte × Byte) :=
  let n := spanBytes bit w
  (natToBytes n (v % 2 ^ w * 2 ^ bit)).zip (natToBytes n ((2 ^ w - 1) * 2 ^ bit))

/-- The acts of an element's raw write on the bytes pos to pos + len - 1 of it (07 R223). -/
def rawActs (bit w v off len pos : Nat) : List Act :=
  let bs := ((rawBytes bit w v).drop pos).take len
  if 8 ≤ w then [.write off (bs.map fun x => x.1) .keep]
  else (List.range bs.length).map fun i => .bits (off + i) ((bs.getD i (0, 0)).2) ((bs.getD i (0, 0)).1) .keep

/-- The 8-byte words, by address divided by 8, that n bytes at an address touch (07 R222). -/
def wordNumbers (a n : Nat) : List Nat := (wordsOf a n).map fun x => x / 8

/-- Joins what touches one word, directly or through others: the parts of a list whose words meet no other part's. -/
def wordGroups {α : Type} (words : α → List Nat) (l : List α) : List (List α) :=
  l.foldl (fun gs x =>
    let meets (g : List α) : Bool := g.any fun y => (words y).any (words x).contains
    gs.filter (fun g => !meets g) ++ [(gs.filter meets).flatten ++ [x]]) []

/-- The words that the write of an element to a place of w bits has to reach; none when it is clipped. -/
def wordsAt (dst : Option Word) (bit w : Nat) : List Nat :=
  match dst with
  | none => []
  | some a => wordNumbers a.toNat (spanBytes bit w)

/-- What an element's write does at a piece (10 R307, R308, R318). -/
def Xfer.acts (x : Xfer) (e : Elem) (v : Nat) (off len pos : Nat) : List Act :=
  match x.drain with
  | some d =>
    if d.add then [.add off e.dbit x.type d.fl (BitVec.ofNat 32 v) (hashSr d.seed d.ticket e.num d.seqno) .keep]
    else rawActs e.dbit (elemType x.type).width v off len pos
  | none => rawActs e.dbit (elemType x.type).width v off len pos

/-- Whether a transfer adds to the elements of its record (10 R308). -/
def Xfer.adds (x : Xfer) : Bool := (x.drain.map Drain.add).getD false

/-- The bytes of an element in a word: address and count. -/
def Elem.inWord (e : Elem) (w word : Nat) : Nat × Nat :=
  let a := (e.dst.getD 0).toNat
  let lo := max a (8 * word)
  (lo, min (a + spanBytes e.dbit w) (8 * word + 8) - lo)

/-- The bytes of an element that an effect on a word writes, address and count: an add is never cut. -/
def Xfer.bytesOf (x : Xfer) (e : Elem) (word : Nat) : Nat × Nat :=
  let w := (elemType x.type).width
  if x.adds then ((e.dst.getD 0).toNat, spanBytes e.dbit w) else e.inWord w word

/-- The bytes that elements write together: the first address and the one after the last. -/
def Xfer.extent (x : Xfer) (g : List Elem) (word : Nat) : Nat × Nat :=
  let spans := g.map fun e => x.bytesOf e word
  (((spans.map fun p => p.1).min?).getD 0, spans.foldl (fun m p => max m (p.1 + p.2)) 0)

/-- What the elements written together do (10 R318, R326), with the byte at address lo at offset off of the home. -/
def Xfer.wordActs (x : Xfer) (g : List Elem) (word lo off : Nat) : List Act :=
  g.flatMap fun e =>
    let p := x.bytesOf e word
    x.acts e (e.val.getD 0) (off + (p.1 - lo)) p.2 (p.1 - (e.dst.getD 0).toNat)

/-- The elements among those written together whose access, if the home denies it, counts here: an element makes one access in each line that it touches
(10 R323; log entry 73), an add one. -/
def Xfer.countedHere (x : Xfer) (g : List Elem) (word : Nat) : Nat :=
  (g.filter fun e => x.adds || decide ((e.dst.getD 0).toNat / 8 = word) || decide (word % 8 = 0)).length

/-- The effect of the elements written together (10 R324): with the transfer's key, told apart by the word, or for adds by their first element. -/
def State.elemEffect (s : State) (x : Xfer) (part elems : Nat) (acts : List Act) (a : Word) (h : Option TileId) : Effect :=
  { key := x.key, part := part, gated := x.key.isSome && !(s.core x.by_.core).free, sendw := false, spilled := false,
    by_ := x.by_, acts := acts, wid := some s.fresh, xfer := some x.id, reply := none, addr := a, elems := elems,
    round := h.bind fun t => s.roundTag x.by_.core t }

/-- Sends one write of a transfer (10 R318, R326): the elements written together, at the home of their bytes; at a scratchpad each word that none of the elements
left touches becomes full with it (07 R225). DESIGN CHOICE, log 77: elements denied together leave the word's full bit as it was. -/
def State.sendWrite (s : State) (x : Xfer) (g : List Elem) (word part : Nat) (left : List Elem) : State :=
  let s' := { s.modXfer x.id fun y => { y with writes := y.writes ++ [s.fresh] } with fresh := s.fresh + 1 }
  let r := x.extent g word
  let n := x.countedHere g word
  let a := BitVec.ofNat 64 (((g.head?.map fun e => x.bytesOf e word).getD (r.1, 0)).1)
  let marks (off : Nat) : List Act :=
    ((wordNumbers r.1 (r.2 - r.1)).filter fun k => !(left.any fun e => e.left.contains k)).map fun k => .bits (off + (max (8 * k) r.1 - r.1)) 0 0 .full
  let toTile (t : TileId) (off : Nat) : State :=
    s'.send (some x.by_.core) (some t) (.effect (.tile t) (s.elemEffect x part n (x.wordActs g word r.1 off ++ marks off) a (some t)))
  match s.piecesAt x.by_.core (BitVec.ofNat 64 r.1) (r.2 - r.1) 0 with
  | .own off _ _ => toTile x.by_.core.tile off
  | .tile t off _ _ => toTile t off
  | .xlat va len _ =>
    s'.sendWalk { by_ := x.by_, kind := .engineWrite, va := va, len := len, addr := va, device := false,
                  then_ := .effect (s.elemEffect x part n (x.wordActs g word r.1 0) a none) }

/-- Whether an element's write is a denial wherever it goes (10 R323): beyond the grid or in the reserved range, or an add that has no one home
(log entry 29). -/
def State.badElem (s : State) (x : Xfer) (e : Elem) : Bool :=
  match e.dst with
  | none => false
  | some a =>
    let n := spanBytes e.dbit (elemType x.type).width
    s.badWindow x.by_.core.l a n ||
    (x.adds && (decide (1 < (s.pieces x.by_.core (.global a) n).length) || (!inWindow a && decide (4096 < (a.extractLsb' 0 12).toNat + n))))

/-- The elements of a transfer that are written together with one in a word: every element that touches the word, since a reader finds the word old or new
(10 R326); of adds, which are not cut, every one that touches a word of one written together with it. -/
def State.together (s : State) (x : Xfer) (e : Elem) (word : Nat) : List Elem :=
  let ok := x.todo.filter fun y => !s.badElem x y
  if x.adds then
    let g := ((wordGroups Elem.left ok).find? fun g => g.contains e).getD []
    ok.filter g.contains
  else ok.filter fun y => y.left.contains word

/-- Whether a transfer's writes stay behind those of an earlier one of its tile task, in ordered mode (10 R324): behind the sending of those of its own core,
behind the completion of another core's. -/
def State.behind (s : State) (x : Xfer) : Bool :=
  !(s.core x.by_.core).free && s.xfers.any fun y =>
    decide (y.id < x.id) && decide (y.by_.tt = x.by_.tt) && y.ring.isNone &&
    (!y.todo.isEmpty || (decide (y.by_.core ≠ x.by_.core) && !y.writes.isEmpty))

/-- Sends the writes of a transfer's elements in order, word by word, as far as their values are known; at most n. -/
def State.advance (s : State) (id : Nat) : Nat → State
  | 0 => s
  | n + 1 =>
    match s.xfers.find? fun x => x.id = id with
    | none => s
    | some x =>
      if x.ring.isSome || s.behind x then s
      else
        match x.todo with
        | [] => s
        | e :: rest =>
          match e.left with
          | [] => if e.val.isNone then s else State.advance (s.modXfer id fun y => { y with todo := rest }) id n
          | word :: _ =>
            if s.badElem x e then State.advance ((s.modXfer id fun y => { y with todo := rest }).engineDenial id x.by_ (e.dst.getD 0)) id n
            else
              let g := s.together x e word
              let left := x.todo.filterMap fun y =>
                if g.contains y then
                  let l := if x.adds then [] else y.left.filter fun k => k ≠ word
                  if l.isEmpty then none else some { y with left := l }
                else some y
              if g.any fun y => y.val.isNone then s
              else
                let part := if x.adds then 18446744073709551616 + e.num * 8 + e.member else word
                State.advance ((s.modXfer id fun y => { y with todo := left }).sendWrite x g word part left) id n

/-- The steps that the rest of a transfer can take. -/
def Xfer.stepsLeft (x : Xfer) : Nat := sumOf (x.todo.map fun e => e.left.length + 1)

/-- Sends what every transfer can send, in order of issue. -/
def State.advanceAll (s : State) : State := s.xfers.foldl (fun s x => s.advance x.id x.stepsLeft) s

/-- The addresses of the element accesses that a read of some bytes of a line makes (10 R323, R523; log entry 73): of each element that has bytes there, its first
byte there. -/
def Xfer.accessesIn (x : Xfer) (id pos len : Nat) (addr : Word) : List Word :=
  x.todo.filterMap fun e =>
    let o := e.bit / 8
    let n := spanBytes (e.bit % 8) (elemType x.type).width
    if e.req = some id ∧ o < pos + len ∧ pos < o + n then some (addr + BitVec.ofNat 64 (max o pos - pos)) else none

/-- The home has denied a transfer's read of some bytes of a line: each element access that it makes is a denial (10 R323). -/
def State.readDenied (s : State) (xfer : Nat) (b : Issuer) (id pos len : Nat) (addr : Word) : State :=
  match s.xfers.find? fun x => x.id = xfer with
  | none => s
  | some x => (x.accessesIn id pos len addr).foldl (fun s a => s.engineDenial xfer b a) s

/-- A part of an element's read has come (10 R323). -/
def State.elemReply (s : State) (id pos : Nat) (bs : List Byte) : State :=
  let s := { s with xfers := s.xfers.map fun (x : Xfer) =>
    { x with todo := x.todo.map fun (e : Elem) =>
      if e.req = some id then
        let buf := putBytes e.buf pos bs
        if e.need ≤ 1 then { e with req := none, need := 0, buf := buf, val := some (bitsAt buf e.bit (elemType x.type).width) }
        else { e with need := e.need - 1, buf := buf }
      else e } }
  s.advanceAll

/-! ### Issue (10 R316 to R320) -/

/-- The transfers queued on a tile's BCE (10 R322). -/
def State.bceQueue (s : State) (t : TileId) : List Xfer := s.xfers.filter fun x => decide (x.by_.core.tile = t)

/-- Changes an element of a transfer that is still to be written. -/
def State.modElem (s : State) (id num : Nat) (f : Elem → Elem) : State :=
  s.modXfer id fun x => { x with todo := x.todo.map fun (y : Elem) => if y.num = num then f y else y }

/-- A range of bytes cut at the lines: address and length of each part. -/
def lineParts (lo hi : Nat) : List (Nat × Nat) :=
  (linesOf lo (hi - lo)).map fun l => (max lo (64 * l), min hi (64 * l + 64) - max lo (64 * l))

/-- Reads elements that touch one word, directly or through others, line by line: so each word is read once, whole (07 R222; 10 R325). -/
def State.readGroup (s : State) (b : Issuer) (id w : Nat) (g : List (Elem × Word)) : State :=
  let lo := ((g.map fun x => x.2.toNat).min?).getD 0
  let hi := g.foldl (fun m x => max m (x.2.toNat + spanBytes x.1.bit w)) 0
  let parts := lineParts lo hi
  let req := s.fresh
  let s := g.foldl (fun s x => s.modElem id x.1.num fun y =>
    { y with req := some req, need := parts.length, buf := List.replicate (hi - lo) 0, bit := 8 * (x.2.toNat - lo) + y.bit }) { s with fresh := s.fresh + 1 }
  parts.foldl (fun s p => s.engineRead b req (p.1 - lo) (BitVec.ofNat 64 p.1) p.2) s

/-- Sends the reads of a transfer's elements: (element, source address); a bad address yields zero and is a denial (10 R323). -/
def State.startReads (s : State) (b : Issuer) (id w : Nat) (es : List (Elem × Option Word)) : State :=
  let reads := es.filterMap fun x => x.2.map fun a => (x.1, a)
  let bad (x : Elem × Word) : Bool := s.badWindow b.core.l x.2 (spanBytes x.1.bit w)
  let s := (reads.filter bad).foldl (fun s x => (s.modElem id x.1.num fun y => { y with val := some 0 }).engineDenial id b x.2) s
  (wordGroups (fun (x : Elem × Word) => wordNumbers x.2.toNat (spanBytes x.1.bit w)) (reads.filter fun x => !bad x)).foldl (fun s g => s.readGroup b id w g) s

/-- The pieces that a transfer will reach, for the tests of its tag (17 R464). -/
def State.reach (s : State) (w : Nat) (es : List (Elem × Option Word)) : List Piece :=
  es.flatMap fun (x : Elem × Option Word) =>
    (match x.2 with
     | some a => s.pieces s.cur.core (.global a) (spanBytes x.1.bit w)
     | none => []) ++
    (match x.1.dst with
     | some a => s.pieces s.cur.core (.global a) (spanBytes x.1.dbit w)
     | none => [])

/-- A transfer unit's tests and start, once its descriptor is read: source coordinate and destination coordinate of each box index. -/
structure Shape where
  src : Record
  dst : Option Record
  cells : List (Coord × Coord)

/-- The elements of a transfer with their source addresses (10 R318, R319). -/
def Shape.elems (g : Shape) : List (Elem × Option Word) :=
  (List.range g.cells.length).map fun i =>
    let c := g.cells.getD i ((0, 0, 0, 0), (0, 0, 0, 0))
    let out := Record.clipped g.src c.1
    let p := Record.place g.src c.1
    let q := g.dst.bind fun r => if Record.clipped r c.2 then none else some (Record.place r c.2)
    ({ num := i, member := 0, req := none, need := 0, buf := [], bit := p.2, val := if out then some 0 else none, dst := q.map fun x => x.1,
       dbit := (q.map fun x => x.2).getD 0,
       left := wordsAt (q.map fun x => x.1) ((q.map fun x => x.2).getD 0) (elemType (Record.type g.src)).width }, if out then none else some p.1)

/-- Without the elements that are neither read nor written. -/
def Shape.live (g : Shape) : List (Elem × Option Word) := g.elems.filter fun x => g.dst.isNone || x.1.dst.isSome || x.2.isSome

/-- The descriptor breach of 10 R318. -/
def State.breach (s : State) (n : Nat) : State := s.trap causeProt (BitVec.ofNat 64 (0x500 + n))

/-- Queues a transfer of the current unit. -/
def State.startXfer (s : State) (g : Shape) (ring : Option Nat) (n : Notice) (step : Nat) : State :=
  let w := (elemType (Record.type g.src)).width
  let es := g.live
  if s.engineTagBad (s.reach w es) then s.xpart
  else if 64 ≤ (s.bceQueue s.cur.core.tile).length then s.retry
  else s.whenSeq fun key s =>
    let t := s.cur.core.tile
    let id := s.fresh
    let slot := ring.map fun r => (r, (((s.tile t).ring r).head + ((s.tile t).ring r).pub + ((s.tile t).ring r).deliv) % ((s.tile t).ring r).slots)
    let x : Xfer := { id := id, by_ := s.engine, key := key, type := Record.type g.src, drain := none, todo := es.map fun x => x.1, writes := [],
                      waits := 0, ring := slot, notice := n, told := false }
    let s := { s with fresh := s.fresh + 1, xfers := s.xfers ++ [x] }
    let s := match ring with
      | none => s
      | some r => s.modRing t r fun y => { y with deliv := y.deliv + 1 }
    ((s.startReads x.by_ id w es).advanceAll).finish step

/-- Goes on with the record of a handle, else STALE (10 R315). -/
def State.whenHandle (s : State) (h : Word) (k : Record → State) : State :=
  match (s.tile s.cur.core.tile).handle h with
  | none => s.trap causeStale h
  | some r => k r

/-- The coordinates of a transfer: box index plus origins, a gather's or scatter's row from the index array (10 R318, R320). -/
def cellsOf (o p b : Coord) (rows : Option (Bool × List Nat)) : List (Coord × Coord) :=
  (boxIndices b).map fun i =>
    let plus (a : Coord) : Coord := (a.1 + i.1, a.2.1 + i.2.1, a.2.2.1 + i.2.2.1, a.2.2.2 + i.2.2.2)
    let row (a : Coord) (l : List Nat) : Coord := (a.1 + i.1, l.getD i.2.1 0, a.2.2.1 + i.2.2.1, a.2.2.2 + i.2.2.2)
    match rows with
    | none => (plus o, plus p)
    | some (false, l) => (row o l, plus p)
    | some (true, l) => (plus o, row p l)

/-- The index array of a gather or scatter, read as engine reads of the tile (10 R320); none for reason 4. -/
def State.indexArray (s : State) (w : Word) (n : Nat) : Option (List Nat) :=
  let off := (w.extractLsb' 0 20).toNat
  let b := s.engine
  if w.extractLsb' 20 44 ≠ 0 ∨ off % 4 ≠ 0 ∨ 1048576 < off + 4 * n ∨ ((s.tile s.cur.core.tile).deniedLine [.lr] false off (4 * n)).isSome then none
  else some ((cut 4 n (s.readHome (.tile s.cur.core.tile) b off (4 * n))).map bytesToNat)

/-- bcopy, bgather and bscatter (10 R316 to R320): ring form with a ring number; rows none, gather (false) or scatter (true). -/
def transfer (f : Form) (d : BitVec 5) (ring : Option Nat) (rows : Option Bool) (s : State) : Outcome :=
  unit f s fun s =>
    let w := s.here.reg d
    let box := coordOf (s.here.regAt d 3)
    let t := s.cur.core.tile
    s.whenNotice (w.extractLsb' 48 16) fun n =>
      if ring.isSome ∧ (w.extractLsb' 24 24 ≠ 0 ∨ s.here.regAt d 2 ≠ 0) then s.breach 5
      else s.whenHandle ((w.extractLsb' 0 24).setWidth 64) fun src =>
        let go (dst : Option Record) : State :=
          let bad1 := (dst.map fun r => decide (Record.type r ≠ Record.type src)).getD false
          let count := (box.1 + 1) * (box.2.1 + 1) * (box.2.2.1 + 1) * (box.2.2.2 + 1)
          let bytes := (count * (elemType (Record.type src)).width + 7) / 8
          let bad2 := (ring.map fun r => decide (((s.tile t).ring r).lines * 64 < bytes)).getD false
          let bad3 := (ring.map fun r =>
            let y := (s.tile t).ring r
            !y.en || decide (y.filler ≠ 2) || decide (y.pub + y.deliv = y.slots)).getD false
          if bad1 then s.breach 1
          else if bad2 then s.breach 2
          else if bad3 then s.breach 3
          else
            let start (l : Option (Bool × List Nat)) : State :=
              s.startXfer { src := src, dst := dst, cells := cellsOf (coordOf (s.here.regAt d 1)) (coordOf (s.here.regAt d 2)) box l } ring n f.len
            match rows with
            | none => start none
            | some sc =>
              if s.ownPending s.cur.core then s.retry
              else
                match s.indexArray (s.here.regAt d 4) (box.2.1 + 1) with
                | none => s.breach 4
                | some l => start (some (sc, l))
        match ring with
        | some _ => go none
        | none => s.whenHandle ((w.extractLsb' 24 24).setWidth 64) fun dst => go (some dst)

/-- BCOPY (10 R318). -/
def execBcopy (d : BitVec 5) (s : State) : Outcome := transfer (formBcopy d) d none none s
/-- BCOPY_RING (10 R319). -/
def execBcopyRing (q : BitVec 6) (d : BitVec 5) (s : State) : Outcome := transfer (formBcopyRing q d) d (some q.toNat) none s
/-- BGATHER (10 R320). -/
def execBgather (d : BitVec 5) (s : State) : Outcome := transfer (formBgather d) d none (some false) s
/-- BGATHER_RING (10 R319, R320). -/
def execBgatherRing (q : BitVec 6) (d : BitVec 5) (s : State) : Outcome := transfer (formBgatherRing q d) d (some q.toNat) (some false) s
/-- BSCATTER (10 R320). -/
def execBscatter (d : BitVec 5) (s : State) : Outcome := transfer (formBscatter d) d none (some true) s

/-- BSTAT (10 R321, Table 10.10). -/
def execBstat (d : BitVec 5) (s : State) : Outcome :=
  unit (formBstat d) s fun s =>
    let mine := (s.xfers.filter fun x => decide (x.by_.core = s.cur.core) && decide (x.by_.ctx = s.cur.c)).length
    s.finishReg (formBstat d).len d
      (BitVec.ofNat 64 (min s.here.edenials 65535 * 65536 + (s.bceQueue s.cur.core.tile).length * 256 + mine))

end Sys2Proof.Machine
end

