-- ==== Sys2Proof/Machine/Matrix.lean ====
section
/-! DEFINITION. Majors 0x26 to 0x29: matrix issue and the array order (10 R294 to R303), accumulator operations and drains (10 R304 to R309),
rings (10 R291 to R293) and shape records (10 R314). -/

namespace Sys2Proof.Machine

/-! ### Gangs, as the array sees them (08 R264, 10 R303, R309) -/

/-- The member tiles of the current context's gang, the leader's first; the own tile alone outside a gang. -/
def State.gangTiles (s : State) : List TileId := s.cur.core.tile :: ((s.here.gang.map Gang.members).getD [])

/-- The column by which member j's part of a joint operation starts. -/
def State.gangSize (s : State) : Nat := s.gangTiles.length

/-! ### The array order (10 R294) -/

/-- Goes on when every array in a list of tiles holds fewer than four operations (10 R294). -/
def State.whenArray (s : State) (ts : List TileId) (k : State) : State :=
  if ts.any fun t => decide (4 ≤ (s.tile t).ops.length) then s.retry else k

/-- Enters an operation in a tile's array order. -/
def State.enqueue (s : State) (t : TileId) (op : ArrayOp) : State := s.modTile t fun x => { x with ops := x.ops ++ [op] }

/-- An operand class (10 Table 10.3): base depth and whether the accumulator is .f32, with a name that tells rows apart. -/
structure OpClass where
  row : Nat
  depth : Nat
  fl : Bool
  deriving DecidableEq, Repr

/-- The class of a sampled format: type in bits 3:0, mx in bit 4 (10 Table 10.3). -/
def opClass (f : BitVec 5) : Option OpClass :=
  let t := (f.extractLsb' 0 4).toNat
  let mx := f.getLsbD 4
  match t, mx with
  | 1, false => some ⟨0, 32, true⟩
  | 2, false => some ⟨0, 32, true⟩
  | 3, _ => some ⟨1, 64, true⟩
  | 4, _ => some ⟨1, 64, true⟩
  | 5, _ => some ⟨2, 64, true⟩
  | 6, _ => some ⟨2, 64, true⟩
  | 7, _ => some ⟨3, 128, true⟩
  | 9, false => some ⟨4, 64, false⟩
  | 10, false => some ⟨4, 64, false⟩
  | 9, true => some ⟨5, 64, true⟩
  | _, _ => none

/-- M, N and u of a shape (10 Table 10.4). -/
def shapeOf : Nat → Nat × Nat × Nat
  | 0 => (32, 32, 1)
  | 1 => (32, 32, 2)
  | 2 => (32, 32, 4)
  | 3 => (32, 32, 8)
  | 4 => (32, 16, 1)
  | 5 => (16, 32, 1)
  | 6 => (16, 16, 1)
  | 7 => (16, 16, 2)
  | 8 => (8, 32, 1)
  | 9 => (32, 8, 1)
  | 10 => (8, 8, 1)
  | _ => (1, 32, 1)

/-- Bits of a sampled format's elements. -/
def formatWidth (f : BitVec 5) : Nat := (elemType (f.extractLsb' 0 4).toNat).width

/-- The feature that a sampled type falls under, if any (10 R295). -/
def typeFeature (t : Nat) : List Nat := if t = 5 ∨ t = 6 then [1] else if t = 7 then [6] else []

/-- The masked feature of two sampled formats, in the order of 10 R295. -/
def Ctx.maskedFormats (c : Ctx) (fa fb : BitVec 5) : Option Nat :=
  c.maskedFeature (typeFeature (fa.extractLsb' 0 4).toNat ++ typeFeature (fb.extractLsb' 0 4).toNat ++ (if fa.getLsbD 4 || fb.getLsbD 4 then [6] else []))

/-- Whether a ring fails an acceptance check for n bytes and k slots (10 R298). -/
def Ring.lacks (r : Ring) (n k : Nat) : Bool := !r.en || decide (r.lines * 64 < n) || decide (r.pub - r.claimed < k)

/-- Whether n scale bytes at an offset pass 2^20 or are denied (10 R298). -/
def Tile.scaleBad (t : Tile) (off n : Nat) : Bool := decide (1048576 < off + n) || (t.deniedLine [.lr] false off n).isSome

/-- The acceptance failure of an operation (10 R298, Table 10.5), for N' = cols columns of B. -/
def State.matrixFault (s : State) (fa fb : BitVec 5) (float : Bool) (shape cols ra rb : Nat) : Option Nat :=
  let t := s.tile s.cur.core.tile
  match opClass fa, opClass fb with
  | some a, some b =>
    if a.row ≠ b.row then some 1
    else if fa.getLsbD 4 ≠ fb.getLsbD 4 then some 2
    else if a.fl ≠ float then some 3
    else
      let m := (shapeOf shape).1
      let k := (shapeOf shape).2.2 * a.depth
      let need := if ra = rb then 2 else 1
      if (t.ring ra).lacks (m * k * formatWidth fa / 8) need then some (4 + 256 * ra)
      else if (t.ring rb).lacks (cols * k * formatWidth fb / 8) need then some (5 + 256 * rb)
      else if fa.getLsbD 4 && (t.scaleBad s.here.scla.toNat (m * k / 32) || t.scaleBad s.here.sclb.toNat (cols * k / 32)) then some 6
      else none
  | _, _ => some 1

/-- The bytes of a ring's next unclaimed slot, and the claim (10 R289). -/
def State.claim (s : State) (t : TileId) (r : Nat) : List Byte × State :=
  let y := (s.tile t).ring r
  ((s.tile t).mem.read (y.line y.claimed * 64) (y.lines * 64), s.modRing t r fun z => { z with claimed := z.claimed + 1 })

/-- mma and gissue (10 R302, R303): the tests of 10 R295 and R298 in order, the claims, then the operation of every member. -/
def matrixUnit (f : Form) (mode ty shape rb ra acc : Nat) (joint : Bool) (s : State) : Outcome :=
  unit f s fun s =>
    let tiles := if joint then s.gangTiles else [s.cur.core.tile]
    let fa := s.here.fmta
    let fb := s.here.fmtb
    let n := (shapeOf shape).2.1
    let cols := n * tiles.length
    s.whenArray tiles
      (match s.here.maskedFormats fa fb with
       | some x => s.trap causeMasked ((f.bits <<< 32) ||| BitVec.ofNat 64 x)
       | none =>
         match s.matrixFault fa fb (ty = 0) shape cols ra rb with
         | some r => s.trap causeProt (BitVec.ofNat 64 r)
         | none =>
           let t := s.cur.core.tile
           let k := (shapeOf shape).2.2 * ((opClass fa).map OpClass.depth).getD 0
           let mx := fa.getLsbD 4
           let scales (off n : Nat) : List Byte := if mx then s.readHome (.tile t) s.engine off n else []
           let sa := scales s.here.scla.toNat ((shapeOf shape).1 * k / 32)
           let sb := scales s.here.sclb.toNat (cols * k / 32)
           let (a, s) := s.claim t ra
           let (b, s) := s.claim t rb
           let wb := n * k * formatWidth fb / 8
           let s := (List.range tiles.length).foldl (fun s j =>
             s.enqueue (tiles.getD j t)
               { kind := .matrix mode shape fa fb a ((b.drop (j * wb)).take wb) sa ((sb.drop (j * (n * k / 32))).take (n * k / 32))
                          (if j = 0 then [ra, rb] else []),
                 acc := acc, by_ := s.me }) s
           s.finish f.len)

/-- MMA (10 R302): inside a gang by the leader alone (10 R303). -/
def execMma (m : BitVec 3) (t : BitVec 4) (x : BitVec 5) (b a : BitVec 3) (c : BitVec 2) (s : State) : Outcome :=
  matrixUnit (formMma m t x b a c) m.toNat t.toNat x.toNat b.toNat a.toNat c.toNat false s
/-- GISSUE (10 R303). -/
def execGissue (m : BitVec 3) (t : BitVec 4) (x : BitVec 5) (b a : BitVec 3) (c : BitVec 2) (s : State) : Outcome :=
  matrixUnit (formGissue m t x b a c) m.toNat t.toNat x.toNat b.toNat a.toNat c.toNat true s

/-! ### What a matrix operation computes (10 R299, R300) -/

/-- An accumulator's element. -/
def accElem (a : BitVec 32768) (i j : Nat) : BitVec 32 := a.extractLsb' (1024 * i + 32 * j) 32

/-- An accumulator from its elements by row and column. -/
def accOf (f : Nat → Nat → BitVec 32) : BitVec 32768 :=
  BitVec.ofNat 32768 (bytesToNat ((List.range 1024).flatMap fun n => natToBytes 4 (f (n / 32) (n % 32)).toNat))

/-- Scales a value by 2^k. -/
def Val.scaleBy : Val → Int → Val
  | .fin n m e, k => .fin n m (e + k)
  | v, _ => v

/-- The value of an operand's element: of an .i8 under mx a multiple of 2^-6 (03 Table 3.9). -/
def operandValue (f : BitVec 5) (p : Nat) : Val :=
  let v := (elemType (f.extractLsb' 0 4).toNat).decode p
  if f.getLsbD 4 ∧ (f.extractLsb' 0 4).toNat = 9 then v.scaleBy (-6) else v

/-- The exact sum of a chunk's products with its invalid flag (10 R299, 03 R95): products, and whether a scale is 0xFF. -/
def chunkSum (ps : List (Val × Bool)) (scaleNan : Bool) : Val × Bool :=
  let pos := ps.any fun p => p.1 = .inf false
  let neg := ps.any fun p => p.1 = .inf true
  let nv := (ps.any fun p => p.2) || (pos && neg)
  if scaleNan || (ps.any fun p => p.1.isNan) || (pos && neg) then (.nan, nv)
  else if pos then (.inf false, false)
  else if neg then (.inf true, false)
  else
    match ps.foldl (fun x p => (addVal x p.1).1) (.fin false 0 0) with
    | .fin n m e => (if m = 0 then .fin false 0 0 else .fin n m e, false)
    | v => (v, false)

/-- A float operation's element over its chunks (10 R299): a and b give the operand values of an index k, sa and sb the scale bytes of a chunk. -/
def floatElem (a b : Nat → Val) (sa sb : Nat → Nat) (mx : Bool) : Nat → Nat → Nat × Flags → Nat × Flags
  | 0, _, r => r
  | n + 1, c, (acc, fl) =>
    let k : Int := if mx then (sa c : Int) - 127 + (sb c : Int) - 127 else 0
    let ps := (List.range 32).map fun i => mulVal (a (32 * c + i)) (b (32 * c + i))
    let sum := chunkSum ps (mx && (sa c == 255 || sb c == 255))
    let r := roundTo fmtF32 (exactOf (addVal (fmtF32.decode acc) (sum.1.scaleBy k))) 1 0
    floatElem a b sa sb mx n (c + 1) (r.1, fl ||| r.2 ||| (if sum.2 then flagNv else 0))

/-- A matrix operation on an accumulator (10 R299, R300), with its flags. -/
def matrixResult (mode shape : Nat) (fa fb : BitVec 5) (a b sa sb : List Byte) (acc : BitVec 32768) : BitVec 32768 × Flags :=
  let (m, n, u) := shapeOf shape
  let cls := (opClass fa).getD ⟨0, 32, true⟩
  let k := u * cls.depth
  let an := bytesToNat a
  let bn := bytesToNat b
  let pick (x w i : Nat) : Nat := x / 2 ^ (i * w) % 2 ^ w
  let cell (i j : Nat) : BitVec 32 × Flags :=
    if m ≤ i ∨ n ≤ j then (accElem acc i j, 0)
    else
      let old := if mode = 1 then 0 else accElem acc i j
      let av (x : Nat) : Nat := pick an (formatWidth fa) (i * k + x)
      let bv (x : Nat) : Nat := pick bn (formatWidth fb) (j * k + x)
      if cls.fl then
        let r := floatElem (fun x => operandValue fa (av x)) (fun x => operandValue fb (bv x))
          (fun c => (sa.getD (i * (k / 32) + c) 0).toNat) (fun c => (sb.getD (j * (k / 32) + c) 0).toNat) (fa.getLsbD 4) (k / 32) 0 (old.toNat, 0)
        (BitVec.ofNat 32 r.1, r.2)
      else
        let ia := (fa.extractLsb' 0 4).toNat = 9
        let ib := (fb.extractLsb' 0 4).toNat = 9
        (BitVec.ofInt 32 ((List.range k).foldl (fun x y => x + intValue ia 8 (av y) * intValue ib 8 (bv y)) old.toInt), 0)
  (accOf fun i j => (cell i j).1, (List.range 1024).foldl (fun fl x => fl ||| (cell (x / 32) (x % 32)).2) 0)

/-! ### Accumulator operations (10 R304 to R309) -/

/-- MZERO (10 R305, R309). -/
def execMzero (c : BitVec 2) (s : State) : Outcome :=
  unit (formMzero c) s fun s =>
    s.whenArray s.gangTiles ((s.gangTiles.foldl (fun s t => s.enqueue t { kind := .zero, acc := c.toNat, by_ := s.me }) s).finish (formMzero c).len)

/-- MROW (10 R305, R309): holds its unit until its data are ready. -/
def execMrow (v : BitVec 5) (h : BitVec 1) (r : BitVec 5) (c : BitVec 2) (s : State) : Outcome :=
  let f := formMrow v h r c
  unit f s fun s =>
    s.whenArray s.gangTiles
      (let b := s.me
       let (id, s) := s.take
       let ts := s.gangTiles
       let s := (List.range ts.length).foldl (fun s j =>
         s.enqueue (ts.getD j b.core.tile) { kind := .row v r.toNat h.toNat id j, acc := c.toNat, by_ := b }) s
       s.modCtx s.cur fun x => { x with phase := .busy id ts.length [] f.len false .none })

/-- The elements that a drain writes (10 R306, R309): row i, column j of member m goes to coordinate (c0 + 32 m + j, c1 + i, c2, c3). -/
def drainElems (r : Record) (o : Coord) (members : Nat) : List Elem :=
  (List.range members).flatMap fun m => (List.range 1024).filterMap fun n =>
    let c : Coord := (o.1 + 32 * m + n % 32, o.2.1 + n / 32, o.2.2.1, o.2.2.2)
    if Record.clipped r c then none
    else
      let p := Record.place r c
      some { num := n, member := m, req := none, need := 0, buf := [], bit := 0, val := none, dst := some p.1, dbit := p.2,
                  left := wordsAt (some p.1) p.2 (elemType (Record.type r)).width }

/-- The sequence number that the current unit draws by (03 R92). -/
def Ctx.draw (c : Ctx) : Draw := { seed := c.seed, ticket := c.ticket, seqno := c.count }

/-- mdrain and mdrainadd (10 R306 to R309). -/
def drainUnit (f : Form) (z ty : Nat) (a : BitVec 5) (acc : Nat) (add : Bool) (s : State) : Outcome :=
  unit f s fun s =>
    let w := s.here.reg a
    if w.extractLsb' 40 24 ≠ 0 then s.trap causeProt w
    else s.whenNotice (w.extractLsb' 24 16) fun n => s.whenHandle ((w.extractLsb' 0 24).setWidth 64) fun r =>
      let tiles := s.gangTiles
      let es := drainElems r (coordOf (s.here.regAt a 1)) tiles.length
      s.whenArray tiles
        (if s.engineTagBad (s.reach (elemType (Record.type r)).width (es.map fun e => (e, none))) then s.xpart
         else if 64 ≤ (s.bceQueue s.cur.core.tile).length then s.retry
         else
           let d := s.here.draw
           s.whenSeq fun key s =>
             let id := s.fresh
             let x : Xfer := { id := id, by_ := s.engine, key := key, type := Record.type r,
                               drain := some { fl := ty = 0, add := add, seed := d.seed, ticket := d.ticket, seqno := d.seqno },
                               todo := es, writes := [], waits := tiles.length, ring := none, notice := n, told := false }
             let s := { s with fresh := s.fresh + 1, xfers := s.xfers ++ [x] }
             let s := (List.range tiles.length).foldl (fun s j =>
               s.enqueue (tiles.getD j s.cur.core.tile) { kind := .drain id (z = 1) j, acc := acc, by_ := s.me }) s
             s.finish f.len)

/-- MDRAIN (10 R307). -/
def execMdrain (m : BitVec 3) (t : BitVec 4) (a : BitVec 5) (c : BitVec 2) (s : State) : Outcome :=
  drainUnit (formMdrain m t a c) m.toNat t.toNat a c.toNat false s
/-- MDRAINADD (10 R308). -/
def execMdrainadd (m : BitVec 3) (t : BitVec 4) (a : BitVec 5) (c : BitVec 2) (s : State) : Outcome :=
  drainUnit (formMdrainadd m t a c) m.toNat t.toNat a c.toNat true s

/-! ### Rings (10 R291 to R293) -/

/-- The fields of a configuration word (10 Table 10.2). -/
def ringOf (w : Word) : Ring :=
  { en := w.getLsbD 63, base := (w.extractLsb' 0 14).toNat, lines := (w.extractLsb' 17 9).toNat + 1, slots := (w.extractLsb' 26 8).toNat + 1,
    filler := (w.extractLsb' 34 2).toNat, semp := if w.getLsbD 36 then some (w.extractLsb' 37 4).toNat else none,
    semf := if w.getLsbD 41 then some (w.extractLsb' 42 4).toNat else none, head := 0, pub := 0, claimed := 0, deliv := 0, fill := 0 }

/-- Whether a configuration word breaks 10 Table 10.2. -/
def badRingWord (w : Word) : Bool :=
  if w.getLsbD 63 then
    w.extractLsb' 46 17 ≠ 0 || w.extractLsb' 14 3 ≠ 0 || w.extractLsb' 34 2 = 3 || w.extractLsb' 26 8 = 0
  else w ≠ 0

/-- Whether a ring's slots do not fit or overlap another enabled ring (10 R292). -/
def Tile.ringClash (t : Tile) (n : Nat) (r : Ring) : Bool :=
  let size := r.lines * r.slots
  decide (8192 < size) || decide (16384 < r.base + size) ||
  t.rings.any fun x => decide (x.1 ≠ n) && x.2.en && decide (x.2.base < r.base + size) && decide (r.base < x.2.base + x.2.lines * x.2.slots)

/-- RINGCFG (10 R292). -/
def execRingcfg (n : BitVec 3) (a : BitVec 5) (s : State) : Outcome :=
  unit (formRingcfg n a) s fun s =>
    let w := s.here.reg a
    let t := s.cur.core.tile
    let old := (s.tile t).ring n.toNat
    if badRingWord w then s.trap causeProt w
    else if old.claimed ≠ 0 ∨ old.deliv ≠ 0 then s.trap causeProt (BitVec.ofNat 64 (0x200 + n.toNat))
    else if w.getLsbD 63 && (s.tile t).ringClash n.toNat (ringOf w) then s.trap causeProt w
    else (s.modRing t n.toNat fun _ => if w.getLsbD 63 then ringOf w else Ring.init).finish (formRingcfg n a).len

/-- Whether another context of the core has a ringpush.m to a ring in progress: the filler's units take effect in issue order (10 R293). -/
def State.pushing (s : State) (n : Nat) : Bool :=
  (List.range 4).any fun i => decide (i ≠ s.cur.c) && (match (s.ctx ⟨s.cur.core, i⟩).phase with
    | .busy _ _ _ _ _ (.ring m _ _) => m = n
    | _ => false)

/-- The check of a ringpush (10 R293): the ring's state, then right lw on every line it would write. -/
def State.whenRing (s : State) (filler n lines : Nat) (k : State) : State :=
  let t := s.tile s.cur.core.tile
  let r := t.ring n
  if !r.accepts filler lines then s.trap causeProt (BitVec.ofNat 64 (0x200 + n))
  else
    match t.deniedLine [.lw] false r.fillAt (64 * lines) with
    | some l => s.trap causeProt (BitVec.ofNat 64 (l * 64))
    | none => k

/-- RINGPUSH_M (10 R293): lines read through a segment. -/
def execRingpushM (n : BitVec 3) (b a d : BitVec 5) (s : State) : Outcome :=
  let f := formRingpushM n b a d
  unit f s fun s =>
    if s.pushing n.toNat then s.retry
    else s.whenRing 0 n.toNat b.toNat
      (s.withPlace (s.locate d.toNat (s.here.reg a) (64 * b.toNat) 64 true false) fun w =>
        s.readUnit w (64 * b.toNat) f.len false (.ring n.toNat b.toNat false))

/-- RINGPUSH_Q (10 R293): the check before the wait and again after it; a cursor stops the pop (09 R276). -/
def execRingpushQ (n : BitVec 3) (b a : BitVec 5) (s : State) : Outcome :=
  let f := formRingpushQ n b a
  unit f s fun s =>
    s.whenRing 1 n.toNat b.toNat
      (if ((s.tile s.cur.core.tile).queue a.toNat).cursor ≠ 0 then s.trap causeProt (BitVec.ofNat 64 (0x100 + a.toNat))
       else s.whenEntries a.toNat b.toNat fun s =>
        let t := s.cur.core.tile
        let es := ((s.tile t).queue a.toNat).front s.uid b.toNat
        if es.any QEntry.tag then s.trap causeProt (a.setWidth 64)
        else
          let at_ := ((s.tile t).ring n.toNat).fillAt
          (((s.popQueue t a.toNat s.uid b.toNat).poke t at_ (es.flatMap fun e => lineBytes e.data)).ringAdd t n.toNat b.toNat).finish f.len)

/-! ### Shape records (10 R314) -/

/-- TSRW (10 R314). -/
def execTsrw (g : BitVec 4) (b a d : BitVec 5) (s : State) : Outcome :=
  let f := formTsrw g b a d
  unit f s fun s =>
    let n := s.here.reg b
    if 256 ≤ n.toNat then s.trap causeProt n
    else s.withPlace (s.locate g.toNat (s.here.reg a) 64 64 true false) fun w => s.readUnit w 64 f.len false (.tsr d n.toNat)

/-- TSRINV (10 R314). -/
def execTsrinv (b : BitVec 5) (s : State) : Outcome :=
  unit (formTsrinv b) s fun s =>
    let n := s.here.reg b
    if 256 ≤ n.toNat then s.trap causeProt n
    else (s.setTsr s.cur.core.tile n.toNat none).finish (formTsrinv b).len

end Sys2Proof.Machine
end

