-- ==== Sys2Proof/Machine/Vector.lean ====
section
/-! DEFINITION. Majors 0x1C to 0x20: vector arithmetic (08 R241 to R255), lane by lane on every member of a gang (08 R264, R265). -/

namespace Sys2Proof.Machine

/-! ### Vector and predicate registers (08 R241 to R243, R264) -/

/-- Vector register r of member j of the current context's gang; the leader is member 0. -/
def State.vreg (s : State) (j : Nat) (r : BitVec 5) : Line :=
  if j = 0 then s.here.v.getD r.toNat 0
  else
    match (s.core ((s.gangTiles.getD j s.cur.core.tile).core .ac)).follows with
    | none => 0
    | some f => f.v.getD r.toNat 0

/-- Writes vector register r of member j. -/
def State.setVreg (s : State) (j : Nat) (r : BitVec 5) (x : Line) : State :=
  if j = 0 then s.modCtx s.cur fun c => { c with v := c.v.setIfInBounds r.toNat x }
  else s.modCore ((s.gangTiles.getD j s.cur.core.tile).core .ac) fun k =>
    { k with follows := k.follows.map fun (f : Follow) => { f with v := f.v.setIfInBounds r.toNat x } }

/-- The count of predicate register n of member j; k0 reads 64 (08 R241, R243). -/
def State.kreg (s : State) (j : Nat) (n : Nat) : Nat :=
  if n = 0 then 64
  else if j = 0 then s.here.k.getD n 64
  else
    match (s.core ((s.gangTiles.getD j s.cur.core.tile).core .ac)).follows with
    | none => 64
    | some f => f.k.getD n 64

/-- Writes predicate register n of member j; k0 ignores writes. -/
def State.setKreg (s : State) (j n x : Nat) : State :=
  if n = 0 then s
  else if j = 0 then s.modCtx s.cur fun c => { c with k := c.k.setIfInBounds n x }
  else s.modCore ((s.gangTiles.getD j s.cur.core.tile).core .ac) fun k =>
    { k with follows := k.follows.map fun (f : Follow) => { f with k := f.k.setIfInBounds n x } }

/-- Lanes of width w (08 Table 8.1). -/
def lanesOf (w : Nat) : Nat := 512 / w

/-- Lane i of width w (08 R242). -/
def lane (x : Line) (w i : Nat) : Nat := (x.extractLsb' (w * i) w).toNat

/-- A line from its lanes. -/
def ofLanes (w : Nat) (f : Nat → Nat) : Line :=
  BitVec.ofNat 512 ((List.range (lanesOf w)).foldr (fun i x => f i % 2 ^ w + 2 ^ w * x) 0)

/-- Performs something on every member in turn. -/
def State.eachMember (s : State) (g : Nat → State → State) : State := (List.range s.gangSize).foldl (fun s j => g j s) s

/-- A form that rounds by cw.round as well: mode 3 from there needs feature 7 too (03 R89). -/
def Form.rounding (f : Form) (m : Option (BitVec 32)) (s : State) : Form :=
  if (modsOf m).rmode = 0 ∧ s.here.round = 3 then { f with feats := f.feats ++ [7] } else f

/-- The effective mode of a vector unit (03 R89, Table 3.5). -/
def Ctx.mode (c : Ctx) (m : Option (BitVec 32)) : Mode := effMode (modsOf m).rmode c.round.toNat 1

/-- A unit on destination lanes of width w: lane i of every member becomes what g gives for the lane's number in the concatenated register,
the member's va, vb and vd, and i (08 R243, R244, R264, R265). -/
def lanewise (f : Form) (w : Nat) (k : BitVec 3) (b a d : BitVec 5) (g : State → Nat → Line → Line → Line → Nat → Nat × Flags) (s : State) : Outcome :=
  unit f s fun s =>
    let n := lanesOf w
    (s.eachMember fun j s =>
      let va := s.vreg j a
      let vb := s.vreg j b
      let vd := s.vreg j d
      let act := min (s.kreg j k.toNat) n
      let r (i : Nat) : Nat × Flags := g s (j * n + i) va vb vd i
      (s.setVreg j d (ofLanes w fun i => if i < act then (r i).1 else lane vd w i)).setFlags
        ((List.range act).foldl (fun x i => x ||| (r i).2) 0)).finish f.len

/-! ### Float lanes (08 R245 to R250) -/

/-- .f16 or .bf16 (08 R245). -/
def halfFmt (t : BitVec 1) : Fmt := if t = 1 then fmtBf16 else fmtF16

/-- The operations of 08 R246. -/
inductive FOp where
  | add
  | sub
  | mul
  | fma
  | fms
  | fnma
  deriving DecidableEq, Repr

/-- The exact result on modified operands (08 R246). -/
def floatOp (op : FOp) (a b c : Val) : Exact :=
  match op with
  | .add => exactOf (addVal a b)
  | .sub => exactOf (addVal a b.negate)
  | .mul => exactOf (mulVal a b)
  | .fma => exactOf (fmaVal a b c)
  | .fms => exactOf (fmaVal a b c.negate)
  | .fnma => exactOf (fmaVal a.negate b c)

/-- A function of operand A alone (08 R249). -/
def unaryOp (g : Val → Exact) (a _b _c : Val) : Exact := g a

/-- Lanes that are rounded (08 R246, R249). -/
def floatLanes (f : Form) (t : Fmt) (k : BitVec 3) (b a d : BitVec 5) (m : Option (BitVec 32)) (g : Val → Val → Val → Exact) (s : State) : Outcome :=
  let md := modsOf m
  lanewise (f.rounding m s) t.width k b a d (fun s n va vb vd i =>
    finishFloat t md (g (md.opA (t.decode (lane va t.width i))) (md.opB (t.decode (lane vb t.width i))) (t.decode (lane vd t.width i)))
      (s.here.mode m) (s.here.draw.word n)) s

/-- Lanes of modified float operands that are not rounded and set no flag. -/
def plainLanes (f : Form) (t : Fmt) (k : BitVec 3) (b a d : BitVec 5) (m : Option (BitVec 32)) (g : Val → Val → Nat) (s : State) : Outcome :=
  let md := modsOf m
  lanewise f t.width k b a d (fun _ _ va vb _ i =>
    (g (md.opA (t.decode (lane va t.width i))) (md.opB (t.decode (lane vb t.width i))), 0)) s

/-- vmin and vmax (08 R247). -/
def pickOp (t : Fmt) (g : Val → Val → Val) (a b : Val) : Nat := (roundTo t (g a b).exact 1 0).1

/-- vcmp (08 R250). -/
def compareOp (t : Fmt) (g : Val → Val → Bool) (a b : Val) : Nat := if g a b then 2 ^ t.width - 1 else 0

/-- vsel (08 R250). -/
def selLanes (f : Form) (w : Nat) (k : BitVec 3) (b a d : BitVec 5) (s : State) : Outcome :=
  lanewise f w k b a d (fun _ _ va vb vd i => (if lane vd w i ≠ 0 then lane va w i else lane vb w i, 0)) s

/-- The exact sum of a dot product's terms (08 R248): invalid products and opposite infinities set nv, NaN operands or not. -/
def dotSum (terms : List (Val × Bool)) : Exact :=
  let pos := terms.any fun p => p.1 = .inf false
  let neg := terms.any fun p => p.1 = .inf true
  if (terms.any fun p => p.2) || (pos && neg) then .nan true
  else
    match terms with
    | [] => .zero false
    | p :: r => (r.foldl (fun x q => (addVal x q.1).1) p.1).exact

/-- vdot.f32 (08 R248): c is the destination's .f32 lane, the modifiers act on the 16-bit sources. -/
def dotFloat (f : Form) (t : Fmt) (k : BitVec 3) (b a d : BitVec 5) (m : Option (BitVec 32)) (s : State) : Outcome :=
  let md := modsOf m
  lanewise (f.rounding m s) 32 k b a d (fun s n va vb vd i =>
    let prod (x : Nat) : Val × Bool := mulVal (md.opA (t.decode (lane va 16 x))) (md.opB (t.decode (lane vb 16 x)))
    finishFloat fmtF32 md (dotSum [(fmtF32.decode (lane vd 32 i), false), prod (2 * i), prod (2 * i + 1)]) (s.here.mode m) (s.here.draw.word n)) s

/-! ### Reductions and scans (08 R254, R255, R265) -/

/-- The lanes of a source in the concatenated register: inactive ones give the identity. -/
def State.concat (s : State) (w : Nat) (k : BitVec 3) (a : BitVec 5) (ident : Nat) : List Nat :=
  (List.range s.gangSize).flatMap fun j => (List.range (lanesOf w)).map fun i =>
    if i < s.kreg j k.toNat then lane (s.vreg j a) w i else ident

/-- One level of the pairwise tree (08 R254). -/
def treeLevel (node : Nat → Nat → Nat × Flags) : List Nat → List Nat × Flags
  | x :: y :: r =>
    let p := node x y
    let q := treeLevel node r
    (p.1 :: q.1, p.2 ||| q.2)
  | l => (l, 0)

/-- The tree: n levels. -/
def tree (node : Nat → Nat → Nat × Flags) : Nat → List Nat × Flags → List Nat × Flags
  | 0, x => x
  | n + 1, (l, fl) =>
    let p := treeLevel node l
    tree node n (p.1, fl ||| p.2)

/-- vredadd and vredmax: lane 0 of the leader's destination is written whatever the predicate (08 R254). -/
def reduceLanes (f : Form) (w : Nat) (k : BitVec 3) (a d : BitVec 5) (ident : Nat) (node : Nat → Nat → Nat × Flags) (s : State) : Outcome :=
  unit f s fun s =>
    let l := s.concat w k a ident
    let r := tree node (Nat.log2 l.length) (l, 0)
    let vd := s.vreg 0 d
    ((s.setVreg 0 d (ofLanes w fun i => if i = 0 then r.1.headD 0 else lane vd w i)).setFlags r.2).finish f.len

/-- One step of the doubling scan, all lanes from the values before it (08 R255); a node sets its flags if its lane is active (08 R243). -/
def scanStep (node : Nat → Nat → Nat → Nat × Flags) (on : Nat → Bool) (d : Nat) (t : List Nat) : List Nat × Flags :=
  let r (n : Nat) : Nat × Flags := if n < d then (t.getD n 0, 0) else node n (t.getD (n - d) 0) (t.getD n 0)
  ((List.range t.length).map fun n => (r n).1, (List.range t.length).foldl (fun fl n => if on n then fl ||| (r n).2 else fl) 0)

/-- The scan: n steps from distance d. -/
def scan (node : Nat → Nat → Nat → Nat × Flags) (on : Nat → Bool) : Nat → Nat → List Nat × Flags → List Nat × Flags
  | 0, _, x => x
  | n + 1, d, (t, fl) =>
    let p := scanStep node on d t
    scan node on n (2 * d) (p.1, fl ||| p.2)

/-- vscan (08 R255): first brings a source lane into the form that lane 0 passes on. -/
def scanLanes (f : Form) (w : Nat) (k : BitVec 3) (a d : BitVec 5) (ident : Nat) (first : Nat → Nat) (node : Nat → Nat → Nat → Nat × Flags) (s : State) : Outcome :=
  unit f s fun s =>
    let n := lanesOf w
    let l := (s.concat w k a ident).map first
    let r := scan node (fun i => i % n < s.kreg (i / n) k.toNat) (Nat.log2 l.length) 1 (l, 0)
    ((s.eachMember fun j s =>
      let vd := s.vreg j d
      s.setVreg j d (ofLanes w fun i => if i < s.kreg j k.toNat then r.1.getD (j * n + i) 0 else lane vd w i)).setFlags r.2).finish f.len

/-- A float add node in a lane (08 R254). -/
def addNode (t : Fmt) (md : Mods) (mode : Mode) (u : Nat) (x y : Nat) : Nat × Flags :=
  finishFloat t md (exactOf (addVal (t.decode x) (t.decode y))) mode u

/-- vredadd on floats: every node draws for lane 0; the identity is -0 (08 R254). -/
def reduceFloat (f : Form) (t : Fmt) (k : BitVec 3) (a d : BitVec 5) (m : Option (BitVec 32)) (s : State) : Outcome :=
  reduceLanes (f.rounding m s) t.width k a d (t.sign true) (addNode t (modsOf m) (s.here.mode m) (s.here.draw.word 0)) s

/-- vscan on floats: a node that produces lane n draws for n (08 R255); a NaN passed on is the canonical one (03 R94, DEDUCED). -/
def scanFloat (f : Form) (t : Fmt) (k : BitVec 3) (a d : BitVec 5) (m : Option (BitVec 32)) (s : State) : Outcome :=
  scanLanes (f.rounding m s) t.width k a d (t.sign true) (fun x => if (t.decode x).isNan then t.nanBits else x) (fun n => addNode t (modsOf m) (s.here.mode m) (s.here.draw.word n)) s

/-! ### Integer lanes (08 R251 to R253) -/

/-- An exact integer result in w bits: clamped under sat or clamp, else truncated (08 R251). -/
def intFinish (sg : Bool) (w : Nat) (m : Option (BitVec 32)) (x : Int) : Nat :=
  if (modsOf m).sat || (modsOf m).clamp then truncInt (clampInt x sg w) w else truncInt x w

/-- An integer node or lane: n = 0 signed, 1 unsigned (08 R251). -/
def intNode (n : BitVec 1) (w : Nat) (m : Option (BitVec 32)) (g : Int → Int → Int) (x y : Nat) : Nat × Flags :=
  (intFinish (n = 0) w m (g (intValue (n = 0) w x) (intValue (n = 0) w y)), 0)

/-- Integer lanes (08 R251). -/
def intLanes (f : Form) (n : BitVec 1) (w : Nat) (k : BitVec 3) (b a d : BitVec 5) (m : Option (BitVec 32)) (g : Int → Int → Int) (s : State) : Outcome :=
  lanewise f w k b a d (fun _ _ va vb _ i => intNode n w m g (lane va w i) (lane vb w i)) s

/-- Lanes as bit patterns. -/
def bitLanes (f : Form) (w : Nat) (k : BitVec 3) (b a d : BitVec 5) (g : Nat → Nat → Nat) (s : State) : Outcome :=
  lanewise f w k b a d (fun _ _ va vb _ i => (g (lane va w i) (lane vb w i), 0)) s

/-- Integer compares (08 R251). -/
def intCompare (n : BitVec 1) (w : Nat) (g : Int → Int → Bool) (x y : Nat) : Nat :=
  if g (intValue (n = 0) w x) (intValue (n = 0) w y) then 2 ^ w - 1 else 0

/-- vshl, vshr and vsha by bits 7:0 of the amount lane (08 R252). -/
def vshlLane (w x y : Nat) : Nat := if w ≤ y % 256 then 0 else x * 2 ^ (y % 256) % 2 ^ w
def vshrLane (w x y : Nat) : Nat := if w ≤ y % 256 then 0 else x / 2 ^ (y % 256)
def vshaLane (w x y : Nat) : Nat :=
  if w ≤ y % 256 then (if 2 ^ (w - 1) ≤ x then 2 ^ w - 1 else 0) else truncInt (sextNat x w / (2 ^ (y % 256) : Nat)) w

/-- vdot.d (08 R253): 32-bit lanes from 32 / w lanes of width w each. -/
def dotInt (f : Form) (n : BitVec 1) (w : Nat) (k : BitVec 3) (b a d : BitVec 5) (m : Option (BitVec 32)) (s : State) : Outcome :=
  lanewise f 32 k b a d (fun _ _ va vb vd i =>
    let per := 32 / w
    let sum := (List.range per).foldl (fun x j =>
      x + intValue (n = 0) w (lane va w (per * i + j)) * intValue (n = 0) w (lane vb w (per * i + j))) (intValue (n = 0) 32 (lane vd 32 i))
    (intFinish (n = 0) 32 m sum, 0)) s

/-! ### The meanings -/

/-- VADD_F32 (08 R246). -/
def execVaddF32 (k : BitVec 3) (b a d : BitVec 5) (m : Option (BitVec 32)) (s : State) : Outcome :=
  floatLanes (formVaddF32 k b a d m) fmtF32 k b a d m (floatOp .add) s

/-- VSUB_F32 (08 R246). -/
def execVsubF32 (k : BitVec 3) (b a d : BitVec 5) (m : Option (BitVec 32)) (s : State) : Outcome :=
  floatLanes (formVsubF32 k b a d m) fmtF32 k b a d m (floatOp .sub) s

/-- VMUL_F32 (08 R246). -/
def execVmulF32 (k : BitVec 3) (b a d : BitVec 5) (m : Option (BitVec 32)) (s : State) : Outcome :=
  floatLanes (formVmulF32 k b a d m) fmtF32 k b a d m (floatOp .mul) s

/-- VFMA_F32 (08 R246). -/
def execVfmaF32 (k : BitVec 3) (b a d : BitVec 5) (m : Option (BitVec 32)) (s : State) : Outcome :=
  floatLanes (formVfmaF32 k b a d m) fmtF32 k b a d m (floatOp .fma) s

/-- VFMS_F32 (08 R246). -/
def execVfmsF32 (k : BitVec 3) (b a d : BitVec 5) (m : Option (BitVec 32)) (s : State) : Outcome :=
  floatLanes (formVfmsF32 k b a d m) fmtF32 k b a d m (floatOp .fms) s

/-- VFNMA_F32 (08 R246). -/
def execVfnmaF32 (k : BitVec 3) (b a d : BitVec 5) (m : Option (BitVec 32)) (s : State) : Outcome :=
  floatLanes (formVfnmaF32 k b a d m) fmtF32 k b a d m (floatOp .fnma) s

/-- VMIN_F32 (08 R247). -/
def execVminF32 (k : BitVec 3) (b a d : BitVec 5) (m : Option (BitVec 32)) (s : State) : Outcome :=
  plainLanes (formVminF32 k b a d m) fmtF32 k b a d m (pickOp fmtF32 minVal) s

/-- VMAX_F32 (08 R247). -/
def execVmaxF32 (k : BitVec 3) (b a d : BitVec 5) (m : Option (BitVec 32)) (s : State) : Outcome :=
  plainLanes (formVmaxF32 k b a d m) fmtF32 k b a d m (pickOp fmtF32 maxVal) s

/-- VCMP_EQ_F32 (08 R250). -/
def execVcmpEqF32 (k : BitVec 3) (b a d : BitVec 5) (m : Option (BitVec 32)) (s : State) : Outcome :=
  plainLanes (formVcmpEqF32 k b a d m) fmtF32 k b a d m (compareOp fmtF32 Val.eq) s

/-- VCMP_NE_F32 (08 R250). -/
def execVcmpNeF32 (k : BitVec 3) (b a d : BitVec 5) (m : Option (BitVec 32)) (s : State) : Outcome :=
  plainLanes (formVcmpNeF32 k b a d m) fmtF32 k b a d m (compareOp fmtF32 (fun x y => !x.eq y)) s

/-- VCMP_LT_F32 (08 R250). -/
def execVcmpLtF32 (k : BitVec 3) (b a d : BitVec 5) (m : Option (BitVec 32)) (s : State) : Outcome :=
  plainLanes (formVcmpLtF32 k b a d m) fmtF32 k b a d m (compareOp fmtF32 Val.lt) s

/-- VCMP_LE_F32 (08 R250). -/
def execVcmpLeF32 (k : BitVec 3) (b a d : BitVec 5) (m : Option (BitVec 32)) (s : State) : Outcome :=
  plainLanes (formVcmpLeF32 k b a d m) fmtF32 k b a d m (compareOp fmtF32 (fun x y => x.lt y || x.eq y)) s

/-- VSEL_F32 (08 R250). -/
def execVselF32 (k : BitVec 3) (b a d : BitVec 5) (m : Option (BitVec 32)) (s : State) : Outcome :=
  selLanes (formVselF32 k b a d m) fmtF32.width k b a d s

/-- VREDADD_F32 (08 R254). -/
def execVredaddF32 (k : BitVec 3) (a d : BitVec 5) (m : Option (BitVec 32)) (s : State) : Outcome :=
  reduceFloat (formVredaddF32 k a d m) fmtF32 k a d m s

/-- VREDMAX_F32 (08 R254). -/
def execVredmaxF32 (k : BitVec 3) (a d : BitVec 5) (m : Option (BitVec 32)) (s : State) : Outcome :=
  reduceLanes (formVredmaxF32 k a d m) fmtF32.width k a d (fmtF32.sign true + fmtF32.infBits) (fun x y => ((roundTo fmtF32 (maxVal (fmtF32.decode x) (fmtF32.decode y)).exact 1 0).1, 0)) s

/-- VSCAN_F32 (08 R255). -/
def execVscanF32 (k : BitVec 3) (a d : BitVec 5) (m : Option (BitVec 32)) (s : State) : Outcome :=
  scanFloat (formVscanF32 k a d m) fmtF32 k a d m s

/-- VRCP (08 R249, Table 8.3). -/
def execVrcp (k : BitVec 3) (a d : BitVec 5) (m : Option (BitVec 32)) (s : State) : Outcome :=
  floatLanes (formVrcp k a d m) fmtF32 k 0 a d m (unaryOp rcpExact) s

/-- VRSQRT (08 R249, Table 8.3). -/
def execVrsqrt (k : BitVec 3) (a d : BitVec 5) (m : Option (BitVec 32)) (s : State) : Outcome :=
  floatLanes (formVrsqrt k a d m) fmtF32 k 0 a d m (unaryOp rsqrtExact) s

/-- VSQRT (08 R249, Table 8.3). -/
def execVsqrt (k : BitVec 3) (a d : BitVec 5) (m : Option (BitVec 32)) (s : State) : Outcome :=
  floatLanes (formVsqrt k a d m) fmtF32 k 0 a d m (unaryOp sqrtExact) s

/-- VEXP2 (08 R249, Table 8.3). -/
def execVexp2 (k : BitVec 3) (a d : BitVec 5) (m : Option (BitVec 32)) (s : State) : Outcome :=
  floatLanes (formVexp2 k a d m) fmtF32 k 0 a d m (unaryOp exp2Of) s

/-- VLOG2 (08 R249, Table 8.3). -/
def execVlog2 (k : BitVec 3) (a d : BitVec 5) (m : Option (BitVec 32)) (s : State) : Outcome :=
  floatLanes (formVlog2 k a d m) fmtF32 k 0 a d m (unaryOp log2Of) s

/-- VTANH (08 R249, Table 8.3). -/
def execVtanh (k : BitVec 3) (a d : BitVec 5) (m : Option (BitVec 32)) (s : State) : Outcome :=
  floatLanes (formVtanh k a d m) fmtF32 k 0 a d m (unaryOp tanhOf) s

/-- VADD_F16 (08 R246). -/
def execVaddF16 (t : BitVec 1) (k : BitVec 3) (b a d : BitVec 5) (m : Option (BitVec 32)) (s : State) : Outcome :=
  floatLanes (formVaddF16 t k b a d m) (halfFmt t) k b a d m (floatOp .add) s

/-- VSUB_F16 (08 R246). -/
def execVsubF16 (t : BitVec 1) (k : BitVec 3) (b a d : BitVec 5) (m : Option (BitVec 32)) (s : State) : Outcome :=
  floatLanes (formVsubF16 t k b a d m) (halfFmt t) k b a d m (floatOp .sub) s

/-- VMUL_F16 (08 R246). -/
def execVmulF16 (t : BitVec 1) (k : BitVec 3) (b a d : BitVec 5) (m : Option (BitVec 32)) (s : State) : Outcome :=
  floatLanes (formVmulF16 t k b a d m) (halfFmt t) k b a d m (floatOp .mul) s

/-- VFMA_F16 (08 R246). -/
def execVfmaF16 (t : BitVec 1) (k : BitVec 3) (b a d : BitVec 5) (m : Option (BitVec 32)) (s : State) : Outcome :=
  floatLanes (formVfmaF16 t k b a d m) (halfFmt t) k b a d m (floatOp .fma) s

/-- VFMS_F16 (08 R246). -/
def execVfmsF16 (t : BitVec 1) (k : BitVec 3) (b a d : BitVec 5) (m : Option (BitVec 32)) (s : State) : Outcome :=
  floatLanes (formVfmsF16 t k b a d m) (halfFmt t) k b a d m (floatOp .fms) s

/-- VFNMA_F16 (08 R246). -/
def execVfnmaF16 (t : BitVec 1) (k : BitVec 3) (b a d : BitVec 5) (m : Option (BitVec 32)) (s : State) : Outcome :=
  floatLanes (formVfnmaF16 t k b a d m) (halfFmt t) k b a d m (floatOp .fnma) s

/-- VMIN_F16 (08 R247). -/
def execVminF16 (t : BitVec 1) (k : BitVec 3) (b a d : BitVec 5) (m : Option (BitVec 32)) (s : State) : Outcome :=
  plainLanes (formVminF16 t k b a d m) (halfFmt t) k b a d m (pickOp (halfFmt t) minVal) s

/-- VMAX_F16 (08 R247). -/
def execVmaxF16 (t : BitVec 1) (k : BitVec 3) (b a d : BitVec 5) (m : Option (BitVec 32)) (s : State) : Outcome :=
  plainLanes (formVmaxF16 t k b a d m) (halfFmt t) k b a d m (pickOp (halfFmt t) maxVal) s

/-- VCMP_EQ_F16 (08 R250). -/
def execVcmpEqF16 (t : BitVec 1) (k : BitVec 3) (b a d : BitVec 5) (m : Option (BitVec 32)) (s : State) : Outcome :=
  plainLanes (formVcmpEqF16 t k b a d m) (halfFmt t) k b a d m (compareOp (halfFmt t) Val.eq) s

/-- VCMP_NE_F16 (08 R250). -/
def execVcmpNeF16 (t : BitVec 1) (k : BitVec 3) (b a d : BitVec 5) (m : Option (BitVec 32)) (s : State) : Outcome :=
  plainLanes (formVcmpNeF16 t k b a d m) (halfFmt t) k b a d m (compareOp (halfFmt t) (fun x y => !x.eq y)) s

/-- VCMP_LT_F16 (08 R250). -/
def execVcmpLtF16 (t : BitVec 1) (k : BitVec 3) (b a d : BitVec 5) (m : Option (BitVec 32)) (s : State) : Outcome :=
  plainLanes (formVcmpLtF16 t k b a d m) (halfFmt t) k b a d m (compareOp (halfFmt t) Val.lt) s

/-- VCMP_LE_F16 (08 R250). -/
def execVcmpLeF16 (t : BitVec 1) (k : BitVec 3) (b a d : BitVec 5) (m : Option (BitVec 32)) (s : State) : Outcome :=
  plainLanes (formVcmpLeF16 t k b a d m) (halfFmt t) k b a d m (compareOp (halfFmt t) (fun x y => x.lt y || x.eq y)) s

/-- VSEL_F16 (08 R250). -/
def execVselF16 (t : BitVec 1) (k : BitVec 3) (b a d : BitVec 5) (m : Option (BitVec 32)) (s : State) : Outcome :=
  selLanes (formVselF16 t k b a d m) (halfFmt t).width k b a d s

/-- VREDADD_F16 (08 R254). -/
def execVredaddF16 (t : BitVec 1) (k : BitVec 3) (a d : BitVec 5) (m : Option (BitVec 32)) (s : State) : Outcome :=
  reduceFloat (formVredaddF16 t k a d m) (halfFmt t) k a d m s

/-- VREDMAX_F16 (08 R254). -/
def execVredmaxF16 (t : BitVec 1) (k : BitVec 3) (a d : BitVec 5) (m : Option (BitVec 32)) (s : State) : Outcome :=
  reduceLanes (formVredmaxF16 t k a d m) (halfFmt t).width k a d ((halfFmt t).sign true + (halfFmt t).infBits) (fun x y => ((roundTo (halfFmt t) (maxVal ((halfFmt t).decode x) ((halfFmt t).decode y)).exact 1 0).1, 0)) s

/-- VSCAN_F16 (08 R255). -/
def execVscanF16 (t : BitVec 1) (k : BitVec 3) (a d : BitVec 5) (m : Option (BitVec 32)) (s : State) : Outcome :=
  scanFloat (formVscanF16 t k a d m) (halfFmt t) k a d m s

/-- VDOT_F32 (08 R248). -/
def execVdotF32 (t : BitVec 1) (k : BitVec 3) (b a d : BitVec 5) (m : Option (BitVec 32)) (s : State) : Outcome :=
  dotFloat (formVdotF32 t k b a d m) (halfFmt t) k b a d m s

/-- VADD_I32 (08 R251). -/
def execVaddI32 (n : BitVec 1) (k : BitVec 3) (b a d : BitVec 5) (m : Option (BitVec 32)) (s : State) : Outcome :=
  intLanes (formVaddI32 n k b a d m) n 32 k b a d m (fun x y => x + y) s

/-- VSUB_I32 (08 R251). -/
def execVsubI32 (n : BitVec 1) (k : BitVec 3) (b a d : BitVec 5) (m : Option (BitVec 32)) (s : State) : Outcome :=
  intLanes (formVsubI32 n k b a d m) n 32 k b a d m (fun x y => x - y) s

/-- VMUL_I32 (08 R251). -/
def execVmulI32 (n : BitVec 1) (k : BitVec 3) (b a d : BitVec 5) (m : Option (BitVec 32)) (s : State) : Outcome :=
  intLanes (formVmulI32 n k b a d m) n 32 k b a d m (fun x y => x * y) s

/-- VMIN_I32 (08 R251). -/
def execVminI32 (n : BitVec 1) (k : BitVec 3) (b a d : BitVec 5) (m : Option (BitVec 32)) (s : State) : Outcome :=
  intLanes (formVminI32 n k b a d m) n 32 k b a d none (fun x y => min x y) s

/-- VMAX_I32 (08 R251). -/
def execVmaxI32 (n : BitVec 1) (k : BitVec 3) (b a d : BitVec 5) (m : Option (BitVec 32)) (s : State) : Outcome :=
  intLanes (formVmaxI32 n k b a d m) n 32 k b a d none (fun x y => max x y) s

/-- VAND_I32 (08 R251). -/
def execVandI32 (n : BitVec 1) (k : BitVec 3) (b a d : BitVec 5) (m : Option (BitVec 32)) (s : State) : Outcome :=
  bitLanes (formVandI32 n k b a d m) 32 k b a d (fun x y => x &&& y) s

/-- VOR_I32 (08 R251). -/
def execVorI32 (n : BitVec 1) (k : BitVec 3) (b a d : BitVec 5) (m : Option (BitVec 32)) (s : State) : Outcome :=
  bitLanes (formVorI32 n k b a d m) 32 k b a d (fun x y => x ||| y) s

/-- VXOR_I32 (08 R251). -/
def execVxorI32 (n : BitVec 1) (k : BitVec 3) (b a d : BitVec 5) (m : Option (BitVec 32)) (s : State) : Outcome :=
  bitLanes (formVxorI32 n k b a d m) 32 k b a d (fun x y => x ^^^ y) s

/-- VSHL_I32 (08 R252). -/
def execVshlI32 (n : BitVec 1) (k : BitVec 3) (b a d : BitVec 5) (m : Option (BitVec 32)) (s : State) : Outcome :=
  bitLanes (formVshlI32 n k b a d m) 32 k b a d (vshlLane 32) s

/-- VSHR_I32 (08 R252). -/
def execVshrI32 (n : BitVec 1) (k : BitVec 3) (b a d : BitVec 5) (m : Option (BitVec 32)) (s : State) : Outcome :=
  bitLanes (formVshrI32 n k b a d m) 32 k b a d (vshrLane 32) s

/-- VSHA_I32 (08 R252). -/
def execVshaI32 (n : BitVec 1) (k : BitVec 3) (b a d : BitVec 5) (m : Option (BitVec 32)) (s : State) : Outcome :=
  bitLanes (formVshaI32 n k b a d m) 32 k b a d (vshaLane 32) s

/-- VCMP_EQ_I32 (08 R251). -/
def execVcmpEqI32 (n : BitVec 1) (k : BitVec 3) (b a d : BitVec 5) (m : Option (BitVec 32)) (s : State) : Outcome :=
  bitLanes (formVcmpEqI32 n k b a d m) 32 k b a d (intCompare n 32 fun x y => decide (x = y)) s

/-- VCMP_NE_I32 (08 R251). -/
def execVcmpNeI32 (n : BitVec 1) (k : BitVec 3) (b a d : BitVec 5) (m : Option (BitVec 32)) (s : State) : Outcome :=
  bitLanes (formVcmpNeI32 n k b a d m) 32 k b a d (intCompare n 32 fun x y => decide (x ≠ y)) s

/-- VCMP_LT_I32 (08 R251). -/
def execVcmpLtI32 (n : BitVec 1) (k : BitVec 3) (b a d : BitVec 5) (m : Option (BitVec 32)) (s : State) : Outcome :=
  bitLanes (formVcmpLtI32 n k b a d m) 32 k b a d (intCompare n 32 fun x y => decide (x < y)) s

/-- VCMP_LE_I32 (08 R251). -/
def execVcmpLeI32 (n : BitVec 1) (k : BitVec 3) (b a d : BitVec 5) (m : Option (BitVec 32)) (s : State) : Outcome :=
  bitLanes (formVcmpLeI32 n k b a d m) 32 k b a d (intCompare n 32 fun x y => decide (x ≤ y)) s

/-- VSEL_I32 (08 R251). -/
def execVselI32 (n : BitVec 1) (k : BitVec 3) (b a d : BitVec 5) (m : Option (BitVec 32)) (s : State) : Outcome :=
  selLanes (formVselI32 n k b a d m) 32 k b a d s

/-- VREDADD_I32 (08 R254). -/
def execVredaddI32 (n : BitVec 1) (k : BitVec 3) (a d : BitVec 5) (m : Option (BitVec 32)) (s : State) : Outcome :=
  reduceLanes (formVredaddI32 n k a d m) 32 k a d 0 (intNode n 32 m fun x y => x + y) s

/-- VREDMAX_I32 (08 R254). -/
def execVredmaxI32 (n : BitVec 1) (k : BitVec 3) (a d : BitVec 5) (m : Option (BitVec 32)) (s : State) : Outcome :=
  reduceLanes (formVredmaxI32 n k a d m) 32 k a d (truncInt (intMin (n = 0) 32) 32) (intNode n 32 none fun x y => max x y) s

/-- VSCAN_I32 (08 R255). -/
def execVscanI32 (n : BitVec 1) (k : BitVec 3) (a d : BitVec 5) (m : Option (BitVec 32)) (s : State) : Outcome :=
  scanLanes (formVscanI32 n k a d m) 32 k a d 0 id (fun _ => intNode n 32 m fun x y => x + y) s

/-- VADD_I16 (08 R251). -/
def execVaddI16 (n : BitVec 1) (k : BitVec 3) (b a d : BitVec 5) (m : Option (BitVec 32)) (s : State) : Outcome :=
  intLanes (formVaddI16 n k b a d m) n 16 k b a d m (fun x y => x + y) s

/-- VSUB_I16 (08 R251). -/
def execVsubI16 (n : BitVec 1) (k : BitVec 3) (b a d : BitVec 5) (m : Option (BitVec 32)) (s : State) : Outcome :=
  intLanes (formVsubI16 n k b a d m) n 16 k b a d m (fun x y => x - y) s

/-- VMUL_I16 (08 R251). -/
def execVmulI16 (n : BitVec 1) (k : BitVec 3) (b a d : BitVec 5) (m : Option (BitVec 32)) (s : State) : Outcome :=
  intLanes (formVmulI16 n k b a d m) n 16 k b a d m (fun x y => x * y) s

/-- VMIN_I16 (08 R251). -/
def execVminI16 (n : BitVec 1) (k : BitVec 3) (b a d : BitVec 5) (m : Option (BitVec 32)) (s : State) : Outcome :=
  intLanes (formVminI16 n k b a d m) n 16 k b a d none (fun x y => min x y) s

/-- VMAX_I16 (08 R251). -/
def execVmaxI16 (n : BitVec 1) (k : BitVec 3) (b a d : BitVec 5) (m : Option (BitVec 32)) (s : State) : Outcome :=
  intLanes (formVmaxI16 n k b a d m) n 16 k b a d none (fun x y => max x y) s

/-- VAND_I16 (08 R251). -/
def execVandI16 (n : BitVec 1) (k : BitVec 3) (b a d : BitVec 5) (m : Option (BitVec 32)) (s : State) : Outcome :=
  bitLanes (formVandI16 n k b a d m) 16 k b a d (fun x y => x &&& y) s

/-- VOR_I16 (08 R251). -/
def execVorI16 (n : BitVec 1) (k : BitVec 3) (b a d : BitVec 5) (m : Option (BitVec 32)) (s : State) : Outcome :=
  bitLanes (formVorI16 n k b a d m) 16 k b a d (fun x y => x ||| y) s

/-- VXOR_I16 (08 R251). -/
def execVxorI16 (n : BitVec 1) (k : BitVec 3) (b a d : BitVec 5) (m : Option (BitVec 32)) (s : State) : Outcome :=
  bitLanes (formVxorI16 n k b a d m) 16 k b a d (fun x y => x ^^^ y) s

/-- VSHL_I16 (08 R252). -/
def execVshlI16 (n : BitVec 1) (k : BitVec 3) (b a d : BitVec 5) (m : Option (BitVec 32)) (s : State) : Outcome :=
  bitLanes (formVshlI16 n k b a d m) 16 k b a d (vshlLane 16) s

/-- VSHR_I16 (08 R252). -/
def execVshrI16 (n : BitVec 1) (k : BitVec 3) (b a d : BitVec 5) (m : Option (BitVec 32)) (s : State) : Outcome :=
  bitLanes (formVshrI16 n k b a d m) 16 k b a d (vshrLane 16) s

/-- VSHA_I16 (08 R252). -/
def execVshaI16 (n : BitVec 1) (k : BitVec 3) (b a d : BitVec 5) (m : Option (BitVec 32)) (s : State) : Outcome :=
  bitLanes (formVshaI16 n k b a d m) 16 k b a d (vshaLane 16) s

/-- VCMP_EQ_I16 (08 R251). -/
def execVcmpEqI16 (n : BitVec 1) (k : BitVec 3) (b a d : BitVec 5) (m : Option (BitVec 32)) (s : State) : Outcome :=
  bitLanes (formVcmpEqI16 n k b a d m) 16 k b a d (intCompare n 16 fun x y => decide (x = y)) s

/-- VCMP_NE_I16 (08 R251). -/
def execVcmpNeI16 (n : BitVec 1) (k : BitVec 3) (b a d : BitVec 5) (m : Option (BitVec 32)) (s : State) : Outcome :=
  bitLanes (formVcmpNeI16 n k b a d m) 16 k b a d (intCompare n 16 fun x y => decide (x ≠ y)) s

/-- VCMP_LT_I16 (08 R251). -/
def execVcmpLtI16 (n : BitVec 1) (k : BitVec 3) (b a d : BitVec 5) (m : Option (BitVec 32)) (s : State) : Outcome :=
  bitLanes (formVcmpLtI16 n k b a d m) 16 k b a d (intCompare n 16 fun x y => decide (x < y)) s

/-- VCMP_LE_I16 (08 R251). -/
def execVcmpLeI16 (n : BitVec 1) (k : BitVec 3) (b a d : BitVec 5) (m : Option (BitVec 32)) (s : State) : Outcome :=
  bitLanes (formVcmpLeI16 n k b a d m) 16 k b a d (intCompare n 16 fun x y => decide (x ≤ y)) s

/-- VSEL_I16 (08 R251). -/
def execVselI16 (n : BitVec 1) (k : BitVec 3) (b a d : BitVec 5) (m : Option (BitVec 32)) (s : State) : Outcome :=
  selLanes (formVselI16 n k b a d m) 16 k b a d s

/-- VREDADD_I16 (08 R254). -/
def execVredaddI16 (n : BitVec 1) (k : BitVec 3) (a d : BitVec 5) (m : Option (BitVec 32)) (s : State) : Outcome :=
  reduceLanes (formVredaddI16 n k a d m) 16 k a d 0 (intNode n 16 m fun x y => x + y) s

/-- VREDMAX_I16 (08 R254). -/
def execVredmaxI16 (n : BitVec 1) (k : BitVec 3) (a d : BitVec 5) (m : Option (BitVec 32)) (s : State) : Outcome :=
  reduceLanes (formVredmaxI16 n k a d m) 16 k a d (truncInt (intMin (n = 0) 16) 16) (intNode n 16 none fun x y => max x y) s

/-- VSCAN_I16 (08 R255). -/
def execVscanI16 (n : BitVec 1) (k : BitVec 3) (a d : BitVec 5) (m : Option (BitVec 32)) (s : State) : Outcome :=
  scanLanes (formVscanI16 n k a d m) 16 k a d 0 id (fun _ => intNode n 16 m fun x y => x + y) s

/-- VDOT_D_I16 (08 R253). -/
def execVdotDI16 (n : BitVec 1) (k : BitVec 3) (b a d : BitVec 5) (m : Option (BitVec 32)) (s : State) : Outcome :=
  dotInt (formVdotDI16 n k b a d m) n 16 k b a d m s

/-- VADD_I8 (08 R251). -/
def execVaddI8 (n : BitVec 1) (k : BitVec 3) (b a d : BitVec 5) (m : Option (BitVec 32)) (s : State) : Outcome :=
  intLanes (formVaddI8 n k b a d m) n 8 k b a d m (fun x y => x + y) s

/-- VSUB_I8 (08 R251). -/
def execVsubI8 (n : BitVec 1) (k : BitVec 3) (b a d : BitVec 5) (m : Option (BitVec 32)) (s : State) : Outcome :=
  intLanes (formVsubI8 n k b a d m) n 8 k b a d m (fun x y => x - y) s

/-- VMUL_I8 (08 R251). -/
def execVmulI8 (n : BitVec 1) (k : BitVec 3) (b a d : BitVec 5) (m : Option (BitVec 32)) (s : State) : Outcome :=
  intLanes (formVmulI8 n k b a d m) n 8 k b a d m (fun x y => x * y) s

/-- VMIN_I8 (08 R251). -/
def execVminI8 (n : BitVec 1) (k : BitVec 3) (b a d : BitVec 5) (m : Option (BitVec 32)) (s : State) : Outcome :=
  intLanes (formVminI8 n k b a d m) n 8 k b a d none (fun x y => min x y) s

/-- VMAX_I8 (08 R251). -/
def execVmaxI8 (n : BitVec 1) (k : BitVec 3) (b a d : BitVec 5) (m : Option (BitVec 32)) (s : State) : Outcome :=
  intLanes (formVmaxI8 n k b a d m) n 8 k b a d none (fun x y => max x y) s

/-- VAND_I8 (08 R251). -/
def execVandI8 (n : BitVec 1) (k : BitVec 3) (b a d : BitVec 5) (m : Option (BitVec 32)) (s : State) : Outcome :=
  bitLanes (formVandI8 n k b a d m) 8 k b a d (fun x y => x &&& y) s

/-- VOR_I8 (08 R251). -/
def execVorI8 (n : BitVec 1) (k : BitVec 3) (b a d : BitVec 5) (m : Option (BitVec 32)) (s : State) : Outcome :=
  bitLanes (formVorI8 n k b a d m) 8 k b a d (fun x y => x ||| y) s

/-- VXOR_I8 (08 R251). -/
def execVxorI8 (n : BitVec 1) (k : BitVec 3) (b a d : BitVec 5) (m : Option (BitVec 32)) (s : State) : Outcome :=
  bitLanes (formVxorI8 n k b a d m) 8 k b a d (fun x y => x ^^^ y) s

/-- VSHL_I8 (08 R252). -/
def execVshlI8 (n : BitVec 1) (k : BitVec 3) (b a d : BitVec 5) (m : Option (BitVec 32)) (s : State) : Outcome :=
  bitLanes (formVshlI8 n k b a d m) 8 k b a d (vshlLane 8) s

/-- VSHR_I8 (08 R252). -/
def execVshrI8 (n : BitVec 1) (k : BitVec 3) (b a d : BitVec 5) (m : Option (BitVec 32)) (s : State) : Outcome :=
  bitLanes (formVshrI8 n k b a d m) 8 k b a d (vshrLane 8) s

/-- VSHA_I8 (08 R252). -/
def execVshaI8 (n : BitVec 1) (k : BitVec 3) (b a d : BitVec 5) (m : Option (BitVec 32)) (s : State) : Outcome :=
  bitLanes (formVshaI8 n k b a d m) 8 k b a d (vshaLane 8) s

/-- VCMP_EQ_I8 (08 R251). -/
def execVcmpEqI8 (n : BitVec 1) (k : BitVec 3) (b a d : BitVec 5) (m : Option (BitVec 32)) (s : State) : Outcome :=
  bitLanes (formVcmpEqI8 n k b a d m) 8 k b a d (intCompare n 8 fun x y => decide (x = y)) s

/-- VCMP_NE_I8 (08 R251). -/
def execVcmpNeI8 (n : BitVec 1) (k : BitVec 3) (b a d : BitVec 5) (m : Option (BitVec 32)) (s : State) : Outcome :=
  bitLanes (formVcmpNeI8 n k b a d m) 8 k b a d (intCompare n 8 fun x y => decide (x ≠ y)) s

/-- VCMP_LT_I8 (08 R251). -/
def execVcmpLtI8 (n : BitVec 1) (k : BitVec 3) (b a d : BitVec 5) (m : Option (BitVec 32)) (s : State) : Outcome :=
  bitLanes (formVcmpLtI8 n k b a d m) 8 k b a d (intCompare n 8 fun x y => decide (x < y)) s

/-- VCMP_LE_I8 (08 R251). -/
def execVcmpLeI8 (n : BitVec 1) (k : BitVec 3) (b a d : BitVec 5) (m : Option (BitVec 32)) (s : State) : Outcome :=
  bitLanes (formVcmpLeI8 n k b a d m) 8 k b a d (intCompare n 8 fun x y => decide (x ≤ y)) s

/-- VSEL_I8 (08 R251). -/
def execVselI8 (n : BitVec 1) (k : BitVec 3) (b a d : BitVec 5) (m : Option (BitVec 32)) (s : State) : Outcome :=
  selLanes (formVselI8 n k b a d m) 8 k b a d s

/-- VREDADD_I8 (08 R254). -/
def execVredaddI8 (n : BitVec 1) (k : BitVec 3) (a d : BitVec 5) (m : Option (BitVec 32)) (s : State) : Outcome :=
  reduceLanes (formVredaddI8 n k a d m) 8 k a d 0 (intNode n 8 m fun x y => x + y) s

/-- VREDMAX_I8 (08 R254). -/
def execVredmaxI8 (n : BitVec 1) (k : BitVec 3) (a d : BitVec 5) (m : Option (BitVec 32)) (s : State) : Outcome :=
  reduceLanes (formVredmaxI8 n k a d m) 8 k a d (truncInt (intMin (n = 0) 8) 8) (intNode n 8 none fun x y => max x y) s

/-- VSCAN_I8 (08 R255). -/
def execVscanI8 (n : BitVec 1) (k : BitVec 3) (a d : BitVec 5) (m : Option (BitVec 32)) (s : State) : Outcome :=
  scanLanes (formVscanI8 n k a d m) 8 k a d 0 id (fun _ => intNode n 8 m fun x y => x + y) s

/-- VDOT_D_I8 (08 R253). -/
def execVdotDI8 (n : BitVec 1) (k : BitVec 3) (b a d : BitVec 5) (m : Option (BitVec 32)) (s : State) : Outcome :=
  dotInt (formVdotDI8 n k b a d m) n 8 k b a d m s

end Sys2Proof.Machine
end

