-- ==== Sys2Proof/Machine/Lanes.lean ====
section
/-! DEFINITION. Majors 0x21 to 0x23: lane movement and queues (08 R256 to R260), prefix predicates (08 R261 to R263), gangs (08 R264 to R270). -/

namespace Sys2Proof.Machine

/-- The lane width of a width code (02 R49). -/
def laneWidth (w : BitVec 2) : Nat := if w = 0 then 32 else if w = 1 then 16 else 8

/-! ### Movement (08 R257 to R259) -/

/-- A movement form: active lane i of every member becomes g of the member's va and vb. -/
def moveLanes (f : Form) (w : BitVec 2) (k : BitVec 3) (b a d : BitVec 5) (g : State → Line → Line → Nat → Nat) (s : State) : Outcome :=
  lanewise f (laneWidth w) k b a d (fun s _ va vb _ i => (g s va vb i, 0)) s

/-- Lane j of a line, 0 beyond the register (08 R257). -/
def laneOr0 (x : Line) (w j : Nat) : Nat := if j < lanesOf w then lane x w j else 0

/-- VPERM (08 R257). -/
def execVperm (w : BitVec 2) (k : BitVec 3) (b a d : BitVec 5) (s : State) : Outcome :=
  moveLanes (formVperm w k b a d) w k b a d (fun _ va vb i => laneOr0 va (laneWidth w) (lane vb (laneWidth w) i)) s
/-- VBCAST_S (08 R257). -/
def execVbcastS (w : BitVec 2) (k : BitVec 3) (a d : BitVec 5) (s : State) : Outcome :=
  moveLanes (formVbcastS w k a d) w k 0 a d (fun s _ _ _ => (s.here.reg a).toNat % 2 ^ laneWidth w) s

/-- The lanes that a selector selects, ascending (08 R258). -/
def selected (x : Line) (w : Nat) : List Nat := (List.range (lanesOf w)).filter fun j => lane x w j ≠ 0

/-- VCOMPRESS (08 R258). -/
def execVcompress (w : BitVec 2) (k : BitVec 3) (b a d : BitVec 5) (s : State) : Outcome :=
  moveLanes (formVcompress w k b a d) w k b a d (fun _ va vb i =>
    match (selected vb (laneWidth w))[i]? with
    | some j => lane va (laneWidth w) j
    | none => 0) s
/-- VEXPAND (08 R258). -/
def execVexpand (w : BitVec 2) (k : BitVec 3) (b a d : BitVec 5) (s : State) : Outcome :=
  moveLanes (formVexpand w k b a d) w k b a d (fun _ va vb i =>
    if lane vb (laneWidth w) i ≠ 0 then lane va (laneWidth w) ((selected vb (laneWidth w)).filter fun j => j < i).length else 0) s

/-- VMOVS_TO_SCALAR (08 R259). -/
def execVmovsToScalar (w : BitVec 2) (b a d : BitVec 5) (s : State) : Outcome :=
  let f := formVmovsToScalar w b a d
  unit f s fun s =>
    let n := lanesOf (laneWidth w)
    let l := (s.here.reg b).toNat
    s.finishReg f.len d (if l < s.gangSize * n then BitVec.ofNat 64 (lane (s.vreg (l / n) a) (laneWidth w) (l % n)) else 0)
/-- VMOVS_TO_VECTOR (08 R259). -/
def execVmovsToVector (w : BitVec 2) (b a d : BitVec 5) (s : State) : Outcome :=
  let f := formVmovsToVector w b a d
  unit f s fun s =>
    let n := lanesOf (laneWidth w)
    let l := (s.here.reg b).toNat
    if l < s.gangSize * n then
      let old := s.vreg (l / n) d
      (s.setVreg (l / n) d (ofLanes (laneWidth w) fun i =>
        if i = l % n then (s.here.reg a).toNat else lane old (laneWidth w) i)).finish f.len
    else s.finish f.len

/-- VEXT (08 R257). -/
def execVext (w : BitVec 2) (k : BitVec 3) (b a d : BitVec 5) (s : State) : Outcome :=
  moveLanes (formVext w k b a d) w k b a d (fun s va _ i => laneOr0 va (laneWidth w) (i + (s.here.reg b).toNat)) s
/-- VBCAST_V (08 R257). -/
def execVbcastV (w : BitVec 2) (k : BitVec 3) (b a d : BitVec 5) (s : State) : Outcome :=
  moveLanes (formVbcastV w k b a d) w k b a d (fun s va _ _ => laneOr0 va (laneWidth w) (s.here.reg b).toNat) s
/-- VMOV (08 R257). -/
def execVmov (w : BitVec 2) (k : BitVec 3) (a d : BitVec 5) (s : State) : Outcome :=
  moveLanes (formVmov w k a d) w k 0 a d (fun _ va _ i => lane va (laneWidth w) i) s

/-! ### Queues (08 R260, R265, R269) -/

/-- The tiles of the members whose queue lacks an entry for the task. -/
def State.allHave (s : State) (q : Nat) : Bool := s.gangTiles.all fun t => ((s.tile t).queue q).has s.uid 1

/-- The entry of member j's queue that the task pops next. -/
def State.head (s : State) (j q : Nat) : QEntry :=
  ((((s.tile (s.gangTiles.getD j s.cur.core.tile)).queue q).front s.uid 1).head?).getD { data := 0, tag := false, owner := none }

/-- Goes on when every member's queue has an entry (08 R265) and no entry's tag is bad: the leader's traps PROT, else the lowest follower's GANG kind 5 (08 R269). -/
def State.whenHeads (s : State) (q : Nat) (bad : Bool) (k : State) : State :=
  if !s.allHave q then s.wait (.emptyQueue q 1)
  else if (s.head 0 q).tag = bad then s.trap causeProt (BitVec.ofNat 64 q)
  else
    match (List.range s.gangSize).find? fun j => decide ((s.head j q).tag = bad) with
    | some j => s.trap causeGang (BitVec.ofNat 64 (j * 65536 + causeProt.toNat * 256 + 5))
    | none => k

/-- Pops one entry of every member's queue. -/
def State.popHeads (s : State) (q : Nat) : State := s.gangTiles.foldl (fun s t => s.popQueue t q s.uid 1) s

/-- VPOP (08 R260): a names the queue. -/
def execVpop (w : BitVec 2) (k : BitVec 3) (a d : BitVec 5) (s : State) : Outcome :=
  let f := formVpop w k a d
  unit f s fun s =>
    s.whenHeads a.toNat true
      (let n := lanesOf (laneWidth w)
       ((s.eachMember fun j s =>
         let e := (s.head j a.toNat).data
         let vd := s.vreg j d
         s.setVreg j d (ofLanes (laneWidth w) fun i => if i < min (s.kreg j k.toNat) n then lane e (laneWidth w) i else lane vd (laneWidth w) i)).popHeads
           a.toNat).finish f.len)

/-- VPUSH (08 R260): d names the queue; inactive lanes are zero bytes. -/
def execVpush (w : BitVec 2) (k : BitVec 3) (a d : BitVec 5) (s : State) : Outcome :=
  let f := formVpush w k a d
  unit f s fun s =>
    if s.gangTiles.all fun t => s.hasRoom t d.toNat s.uid 1 then
      (s.eachMember fun j s =>
        let va := s.vreg j a
        s.pushQueue (s.gangTiles.getD j s.cur.core.tile) d.toNat s.uid
          [(ofLanes (laneWidth w) fun i => if i < s.kreg j k.toNat then lane va (laneWidth w) i else 0, false)]).finish f.len
    else s.wait (.fullQueue d.toNat 1)

/-! ### Prefix predicates (08 R261 to R263) -/

/-- KSET (08 R262): the same in every member (08 R265). -/
def execKset (a d : BitVec 5) (s : State) : Outcome :=
  unit (formKset a d) s fun s => (s.eachMember fun j s => s.setKreg j d.toNat (min (s.here.reg a).toNat 64)).finish (formKset a d).len

/-- KFIRST (08 R262). -/
def execKfirst (w : BitVec 2) (k : BitVec 3) (a d : BitVec 5) (s : State) : Outcome :=
  let f := formKfirst w k a d
  unit f s fun s =>
    (s.eachMember fun j s =>
      let n := min (s.kreg j k.toNat) (lanesOf (laneWidth w))
      let va := s.vreg j a
      s.setKreg j d.toNat (((List.range n).find? fun i => lane va (laneWidth w) i = 0).getD n)).finish f.len

/-- KMIN (08 R262). -/
def execKmin (b a d : BitVec 5) (s : State) : Outcome :=
  unit (formKmin b a d) s fun s =>
    (s.eachMember fun j s => s.setKreg j d.toNat (min (s.kreg j a.toNat) (s.kreg j b.toNat))).finish (formKmin b a d).len

/-- KPOP (08 R263): a names the queue; each member reads its own (08 R265). -/
def execKpop (w : BitVec 2) (b a d : BitVec 5) (s : State) : Outcome :=
  let f := formKpop w b a d
  unit f s fun s =>
    let c := s.here.reg b
    if c &&& ~~~0x13F ≠ 0 ∨ 14 < (c.extractLsb' 0 6).toNat then s.trap causeProt c
    else
      s.whenHeads a.toNat false
        (let j := (c.extractLsb' 0 6).toNat
         let s := s.eachMember fun m s =>
           let valid := ((s.head m a.toNat).data.extractLsb' 0 64).toNat
           s.setKreg m d.toNat (min ((valid - 64 * j) / (laneWidth w / 8)) 64)
         ((if c.getLsbD 8 then s else s.popHeads a.toNat)).finish f.len)

/-! ### Gangs (08 R266 to R270) -/

/-- A gang size. -/
def gangSizeOk (g : Nat) : Bool := g = 2 || g = 4 || g = 8

/-- The AC cores of the g - 1 columns after the current tile's. -/
def State.followers (s : State) (g : Nat) : List TileId := (List.range (g - 1)).map fun i => ⟨s.cur.core.l, s.cur.core.t + 1 + i⟩

/-- Whether a tile's AC holds a ready offer of size g, the tile resident (08 R267). -/
def State.offered (s : State) (t : TileId) (g : Nat) : Bool :=
  s.resident t && (match (s.core (t.core .ac)).offer with
    | none => false
    | some o => o.ready && decide (o.size = g))

/-- Forms a gang (08 R264, R267): the offers are consumed, each follower's gang context starts with v 0 and k 64. -/
def State.formGang (s : State) (g : Nat) : State :=
  let ts := s.followers g
  let s := ts.foldl (fun s t => s.modCore (t.core .ac) fun k =>
    { k with offer := none, follows := some { leader := s.cur, v := Vector.replicate 32 0, k := Vector.replicate 8 64 } }) s
  s.modCtx s.cur fun c => { c with gang := some { size := g, members := ts } }

/-- GANG (08 R267). -/
def execGang (a d : BitVec 5) (s : State) : Outcome :=
  let f := formGang a d
  unit f s fun s =>
    let w := s.here.reg a
    let g := (w.extractLsb' 0 4).toNat
    let x := s.cur.core.t % s.gridX s.cur.core.l
    if s.inGang s.cur.core then s.trap causeGang 2
    else if w.extractLsb' 4 60 ≠ 0 ∨ gangSizeOk g = false then s.trap causeGang 3
    else if x % g ≠ 0 ∨ s.gridX s.cur.core.l < x + g then s.trap causeGang 1
    else if (s.followers g).all fun t => s.offered t g then (s.formGang g).finishReg f.len d 1
    else s.finishReg f.len d 0

/-- GJOIN (08 R266, R270): the offer, then the task ends. -/
def execGjoin (a : BitVec 5) (s : State) : Outcome :=
  unit (formGjoin a) s fun s =>
    let w := s.here.reg a
    let g := (w.extractLsb' 0 4).toNat
    let gx := s.gridX s.cur.core.l
    let x := s.cur.core.t % gx
    if w &&& ~~~0x1FF0F ≠ 0 ∨ gangSizeOk g = false then s.trap causeGang 3
    else if x % g = 0 then s.trap causeGang 4
    else if gx < x - x % g + g then s.trap causeGang 1
    else if s.hereCore.offer.isSome then s.trap causeGang 2
    else (s.modCore s.cur.core fun k =>
      { k with offer := some { size := g, entry := (w.extractLsb' 8 8).toNat, notify := w.getLsbD 16, ready := false } }).endHere

/-- GDISBAND (08 R268, R270). -/
def execGdisband (s : State) : Outcome := unit formGdisband s fun s => (s.disband s.cur).finish formGdisband.len

end Sys2Proof.Machine
end

