-- ==== Sys2Proof/Machine/Convert.lean ====
section
/-! DEFINITION. Majors 0x24 and 0x25: the format core's conversions (09 R271 to R285), MX blocks (03 R100 to R102) and CE8 blocks (03 R103 to R107). -/

namespace Sys2Proof.Machine

/-! ### Streams of elements (09 R271, R272; 03 R84) -/

/-- Elements of a unit between widths ws and wd (09 R272). -/
def unitElems (ws wd : Nat) : Nat := Nat.lcm (512 / Nat.gcd 512 ws) (512 / Nat.gcd 512 wd)

/-- Entries that m elements of width w fill (09 R272). -/
def entriesOf (m w : Nat) : Nat := m * w / 512

/-- m elements of width w of a byte stream (03 R84). -/
def streamElems (w m : Nat) (bs : List Byte) : List Nat :=
  let x := bytesToNat bs
  (List.range m).map fun i => x / 2 ^ (w * i) % 2 ^ w

/-- The byte stream of elements of width w (03 R84). -/
def elemStream (w : Nat) (es : List Nat) : List Byte :=
  natToBytes (es.length * w / 8) (es.foldr (fun e x => e % 2 ^ w + 2 ^ w * x) 0)

/-- A byte stream as data entries (09 R271). -/
def entriesFrom (bs : List Byte) : List (Line × Bool) := (cut 64 (bs.length / 64) bs).map fun b => (bytesToLine b, false)

/-- The bytes of popped entries (09 R271). -/
def entryBytes (es : List QEntry) : List Byte := es.flatMap fun e => lineBytes e.data

/-! ### The tests before entries move (09 R273, R274, R276) -/

/-- The first of the cursor and pack-buffer tests that fails: the queue that a popping unit reads, the queue that a pushing unit writes (09 R276). -/
def State.streamFault (s : State) (src : Option Nat) (dst : Option Nat) : Option Word :=
  let t := s.tile s.cur.core.tile
  let bad (q : Nat) : Word := BitVec.ofNat 64 (0x100 + q)
  match src.filter fun q => decide ((t.queue q).cursor ≠ 0), dst.filter fun q => (t.queue q).pack ≠ [] with
  | some q, _ => some (bad q)
  | none, some q => some (bad q)
  | none, none => none

/-- Goes on with the first n entries of q when they and room for m entries of p are there, else holds the unit (09 R273). -/
def State.whenBoth (s : State) (q n p m : Nat) (k : List QEntry → State) : State :=
  let x := (s.tile s.cur.core.tile).queue q
  if x.has s.uid n && (m == 0 || s.hasRoom s.cur.core.tile p s.uid m) then k (x.front s.uid n) else s.wait (.convert q n p m)

/-- The prologue of a conversion unit that pops n entries of q and pushes m of p: the tests of R276, the wait of R273, the tags of R274. -/
def State.whenStream (s : State) (q n p m : Nat) (pushes : Bool) (k : List QEntry → State) : State :=
  match s.streamFault (some q) (if pushes then some p else none) with
  | some v => s.trap causeProt v
  | none => s.whenBoth q n p m fun es => if es.any QEntry.tag then s.trap causeProt (BitVec.ofNat 64 q) else k es

/-- Pops n entries of q and pushes entries on p in one step (09 R273). -/
def State.convert (s : State) (q n p : Nat) (es : List (Line × Bool)) : State :=
  (s.popQueue s.cur.core.tile q s.uid n).pushQueue s.cur.core.tile p s.uid es

/-! ### cvt and fqmv (09 R277 to R279) -/

/-- Whether a type is a float type. -/
def ElemType.isFloat : ElemType → Bool
  | .float _ => true
  | .int _ _ => false

/-- An operand of cvt under its modifiers; an integer zero has no sign (09 R279, 02 R53). -/
def cvtOperand (st : ElemType) (m : Mods) (p : Nat) : Val :=
  match m.opA (st.decode p), st with
  | .fin _ 0 e, .int _ _ => .fin false 0 e
  | v, _ => v

/-- One element of cvt: result and flags (09 R279). -/
def cvtElem (dt st : ElemType) (m : Mods) (mode : Mode) (u : Nat) (p : Nat) : Nat × Flags :=
  let x := cvtOperand st m p
  match dt, st with
  | .float f, _ => finishFloat f m x.exact mode u
  | .int s w, .float _ => toIntType x s w
  | .int s w, .int _ _ =>
    match x with
    | .fin n k _ =>
      let v : Int := if n then -(k : Int) else k
      (truncInt (if m.sat || m.clamp then clampInt v s w else v) w, 0)
    | _ => (0, 0)

/-- CVT (09 R279): t the destination type, x the source type. -/
def execCvt (t x : BitVec 4) (a d : BitVec 5) (m : Option (BitVec 32)) (s : State) : Outcome :=
  let dt := elemType t.toNat
  let st := elemType x.toNat
  let f := formCvt t x a d m
  let f := if dt.isFloat then f.rounding m s else f
  unit f s fun s =>
    let n := unitElems st.width dt.width
    let pop := entriesOf n st.width
    s.whenStream a.toNat pop d.toNat (entriesOf n dt.width) true fun es =>
      let r := (streamElems st.width n (entryBytes es)).mapIdx fun i p => cvtElem dt st (modsOf m) (s.here.mode m) (s.here.draw.word i) p
      ((s.convert a.toNat pop d.toNat (entriesFrom (elemStream dt.width (r.map fun y => y.1)))).setFlags (r.foldl (fun x y => x ||| y.2) 0)).finish f.len

/-- FQMV (09 R278): entries pass unchanged, tags included. -/
def execFqmv (n a d : BitVec 5) (m : Option (BitVec 32)) (s : State) : Outcome :=
  let f := formFqmv n a d m
  unit f s fun s =>
    match s.streamFault (some a.toNat) (some d.toNat) with
    | some v => s.trap causeProt v
    | none => s.whenBoth a.toNat n.toNat d.toNat n.toNat fun es =>
      (s.convert a.toNat n.toNat d.toNat (es.map fun (e : QEntry) => (e.data, e.tag))).finish f.len

/-! ### CE8 blocks (03 R103 to R107) -/

/-- The code of a rank, its leftmost bit first (03 Table 3.11). -/
def ce8Code (r : Nat) : List Bool :=
  let bits (n v : Nat) : List Bool := (List.range n).map fun i => v.testBit (n - 1 - i)
  if r < 2 then bits 2 r
  else if r < 4 then bits 3 (2 + r)
  else if r < 6 then bits 4 (8 + r)
  else if r < 8 then bits 5 (22 + r)
  else if r < 10 then bits 6 (52 + r)
  else if r < 12 then bits 7 (114 + r)
  else bits 8 (240 + r)

/-- The exponent fields in order of rank, per codebook (03 Table 3.12). -/
def ce8Book : Nat → List Nat
  | 0 => [7, 6, 8, 5, 9, 4, 10, 3, 11, 2, 12, 1, 13, 0, 14, 15]
  | 1 => [5, 4, 6, 3, 7, 2, 8, 1, 9, 0, 10, 11, 12, 13, 14, 15]
  | 2 => [9, 8, 10, 7, 11, 6, 12, 5, 13, 4, 14, 3, 15, 2, 1, 0]
  | _ => [0, 7, 6, 8, 5, 9, 4, 10, 3, 11, 2, 12, 1, 13, 14, 15]

/-- The token stream of exponent fields (03 R104). -/
def ce8Stream (book : Nat) (es : List Nat) : List Bool := es.flatMap fun e => ce8Code ((ce8Book book).idxOf e)

/-- A number's bits, lowest first. -/
def bitsOf (n v : Nat) : List Bool := (List.range n).map fun i => v.testBit i

/-- A number from its bits, lowest first. -/
def ofBits : List Bool → Nat
  | [] => 0
  | b :: r => b.toNat + 2 * ofBits r

/-- Units of a coded block whose stream has n bits (03 R104). -/
def ce8Units (n : Nat) : Nat := (33 + (n + 7) / 8 + 7) / 8

/-- 64 nibbles as 32 bytes (03 R103). -/
def nibbleBytes (ns : List Nat) : List Byte := natToBytes 32 (ns.foldr (fun e x => e % 16 + 16 * x) 0)

/-- The 64 nibbles of 32 bytes (03 R103). -/
def nibblesOf (bs : List Byte) : List Nat :=
  let x := bytesToNat bs
  (List.range 64).map fun i => x / 16 ^ i % 16

/-- The block of 64 .e4m3 values (03 R103, R105). -/
def ce8Block (vs : List Nat) : List Byte :=
  let ns := nibbleBytes (vs.map fun v => v / 128 * 8 + v % 8)
  let es := vs.map fun v => v / 8 % 16
  let size (b : Nat) : Nat := (ce8Stream b es).length
  let book := (minBy size [0, 1, 2, 3]).getD 0
  let units := ce8Units (size book)
  if units ≤ 8 then
    BitVec.ofNat 8 ((units - 1) * 8 + book) :: ns ++ natToBytes (units * 8 - 33) (ofBits (ce8Stream book es))
  else BitVec.ofNat 8 (8 * 8 + 4) :: ns ++ nibbleBytes es ++ List.replicate 7 0

/-- Reads k tokens: the exponent fields and the bits left (03 R104, R107). -/
def ce8Tokens (book : Nat) : Nat → List Bool → Option (List Nat × List Bool)
  | 0, bs => some ([], bs)
  | k + 1, bs =>
    match (List.range 16).find? fun r => (ce8Code r).isPrefixOf bs with
    | none => none
    | some r => (ce8Tokens book k (bs.drop (ce8Code r).length)).map fun y => ((ce8Book book).getD r 0 :: y.1, y.2)

/-- The 64 .e4m3 values of a block of the length its units field gives; none when malformed (03 R107). -/
def ce8Decode (blk : List Byte) : Option (List Nat) :=
  let h := (blk.getD 0 0).toNat
  let units := h / 8 % 16
  let raw := h.testBit 2
  let value (ns es : List Nat) : List Nat := (ns.zip es).map fun x => x.1 / 8 * 128 + x.2 * 8 + x.1 % 8
  let ns := nibblesOf ((blk.drop 1).take 32)
  if 128 ≤ h then none
  else if raw then
    if h % 4 ≠ 0 ∨ units ≠ 8 ∨ (blk.drop 65).any (· ≠ 0) then none else some (value ns (nibblesOf ((blk.drop 33).take 32)))
  else if units ≠ 6 ∧ units ≠ 7 then none
  else
    let bits := bitsOf ((blk.length - 33) * 8) (bytesToNat (blk.drop 33))
    match ce8Tokens (h % 4) 64 bits with
    | none => none
    | some (es, rest) =>
      if ce8Units (bits.length - rest.length) ≠ units + 1 ∨ rest.any id then none else some (value ns es)

/-- UNPACK_CE8 (09 R281, R282). -/
def execUnpackCe8 (t : BitVec 4) (b a d : BitVec 5) (s : State) : Outcome :=
  let f := formUnpackCe8 t b a d
  unit f s fun s =>
    let c := s.here.reg b
    let q := a.toNat
    match elemType t.toNat with
    | .int _ _ => s.trap causeProt c
    | .float dt =>
      if c.extractLsb' 7 57 ≠ 0 ∨ c.extractLsb' 0 3 ≠ 0 then s.trap causeProt c
      else
        match s.streamFault none (some d.toNat) with
        | some v => s.trap causeProt v
        | none => s.whenEntries q 1 fun s =>
          let x := (s.tile s.cur.core.tile).queue q
          let head := x.front s.uid 1
          if head.any QEntry.tag then s.trap causeProt (BitVec.ofNat 64 q)
          else
            let at_ := if c.getLsbD 6 then (c.extractLsb' 0 6).toNat else x.cursor
            let len := (((entryBytes head).getD at_ 0).toNat / 8 % 16 + 1) * 8
            let p := dt.width / 8
            s.whenBoth q ((at_ + len + 63) / 64) d.toNat p fun es =>
              if es.any QEntry.tag then s.trap causeProt (BitVec.ofNat 64 q)
              else
                let r := ce8Decode (((entryBytes es).drop at_).take len)
                let vs := match r with
                  | none => List.replicate 64 dt.nanBits
                  | some vs => vs.map fun v => (roundTo dt (fmtE4m3.decode v).exact 1 0).1
                (((s.convert q ((at_ + len) / 64) d.toNat (entriesFrom (elemStream dt.width vs))).modQueue s.cur.core.tile q fun x =>
                  { x with cursor := (at_ + len) % 64 }).setFlags (if r.isNone then flagNv else 0)).finish f.len

/-- PACK_CE8 (09 R283). -/
def execPackCe8 (e : BitVec 1) (b a d : BitVec 5) (s : State) : Outcome :=
  let f := formPackCe8 e b a d
  unit f s fun s =>
    s.whenStream a.toNat 1 b.toNat 2 false fun es =>
      let blk := ce8Block ((entryBytes es).map fun v => if v.toNat % 128 = 127 then 127 else v.toNat)
      let buf := ((s.tile s.cur.core.tile).queue b.toNat).pack ++ blk
      let whole := buf.length / 64
      let rest := buf.drop (whole * 64)
      let last := decide (e = 1) && !rest.isEmpty
      ((s.convert a.toNat 1 b.toNat (entriesFrom (buf.take (whole * 64)) ++ (if last then [(bytesToLine rest, false)] else []))).modQueue
        s.cur.core.tile b.toNat fun x => { x with pack := if last then [] else rest }).finishReg f.len d (BitVec.ofNat 64 (blk.length / 8))

/-! ### MX blocks (03 R100 to R102; 09 R284, R285) -/

/-- The float side of an MX form (09 R280). -/
def mxSide (x : BitVec 2) : Fmt := if x = 0 then fmtF32 else if x = 1 then fmtBf16 else fmtF16

/-- emax of an MX element type (03 Table 3.9). -/
def mxEmax : ElemType → Int
  | .float f =>
    match f.decode f.maxBits with
    | .fin _ m e => (Nat.log2 m : Int) + e
    | _ => 0
  | .int _ _ => 0

/-- The value of an MX element pattern; .i8 counts 2^-6 (03 Table 3.9). -/
def mxValue (t : ElemType) (p : Nat) : Val :=
  match t, t.decode p with
  | .int _ _, .fin n m _ => .fin n m (-6)
  | _, v => v

/-- The scale byte of 32 values (03 R101). -/
def mxScale (t : ElemType) (xs : List Val) : Nat :=
  if xs.any fun v => v.isNan || v.isInf then 0xFF
  else
    let lg : Val → Option Int
      | .fin _ m e => if m = 0 then none else some ((Nat.log2 m : Int) + e)
      | _ => none
    match xs.filterMap lg with
    | [] => 127
    | l :: r => ((min (max (r.foldl max l - mxEmax t) (-127)) 127) + 127).toNat

/-- Rounds a value to an .i8 element, within -127 to 127 (03 R101). -/
def mxRoundInt (v : Val) (k : Int) (mode : Mode) (u : Nat) : Nat × Flags :=
  match v with
  | .fin n m e =>
    let e := e - k + 6
    let lo := shiftFloor m e
    let r := min (roundUnits lo.1 lo.2 (shiftFloor m (e + 1)) (shiftFloor m (e + 32)).1 mode u) 127
    (truncInt (if n then -(r : Int) else r) 8, if lo.2 then 0 else flagNx)
  | _ => (0, 0)

/-- Rounds a value divided by 2^k to an MX element (03 R101): past the largest finite value it is what 03 Table 3.4 gives the type, an infinity for .e5m2 under ne
and sr (R87). DEDUCED, log entry 30. -/
def mxRound (t : ElemType) (v : Val) (k : Int) (mode : Mode) (u : Nat) : Nat × Flags :=
  match t with
  | .float f =>
    roundTo f (v.exact.scale (-k)) mode u
  | .int _ _ => mxRoundInt v k mode u

/-- The elements of block j of a unit (03 R101). -/
def mxBlock (t : ElemType) (j : Nat) (xs : List Val) (mode : Mode) (word : Nat → Nat) : List (Nat × Flags) :=
  let sc := mxScale t xs
  if sc = 0xFF then xs.map fun _ => (0, flagNv)
  else xs.mapIdx fun i v => mxRound t v ((sc : Int) - 127) mode (word (32 * j + i))

/-- A list in blocks of 32. -/
def blocksOf {α : Type} (l : List α) : List (List α) := (List.range (l.length / 32)).map fun j => (l.drop (32 * j)).take 32

/-- One scale byte per block, in the low bytes of a word (09 R284). -/
def scaleWord (t : ElemType) (xs : List Val) : Word := BitVec.ofNat 64 (bytesToNat ((blocksOf xs).map fun b => BitVec.ofNat 8 (mxScale t b)))

/-- MXS (09 R284): nothing moves, no flag is set. -/
def execMxs (t : BitVec 4) (x : BitVec 2) (a d : BitVec 5) (s : State) : Outcome :=
  let f := formMxs t x a d
  let et := elemType t.toNat
  let ft := ElemType.float (mxSide x)
  unit f s fun s =>
    let n := unitElems ft.width et.width
    s.whenStream a.toNat (entriesOf n ft.width) 0 0 false fun es =>
      s.finishReg f.len d (scaleWord et ((streamElems ft.width n (entryBytes es)).map ft.decode))

/-- MXQ (09 R284). -/
def execMxq (t : BitVec 4) (x : BitVec 2) (b a d : BitVec 5) (s : State) : Outcome :=
  let et := elemType t.toNat
  let ft := ElemType.float (mxSide x)
  let f := (formMxq t x b a d).rounding none s
  unit f s fun s =>
    let n := unitElems ft.width et.width
    let pop := entriesOf n ft.width
    s.whenStream a.toNat pop b.toNat (entriesOf n et.width) true fun es =>
      let xs := (streamElems ft.width n (entryBytes es)).map ft.decode
      let r := ((blocksOf xs).mapIdx fun j l => mxBlock et j l (s.here.mode none) s.here.draw.word).flatten
      ((s.convert a.toNat pop b.toNat (entriesFrom (elemStream et.width (r.map fun y => y.1)))).setFlags (r.foldl (fun x y => x ||| y.2) 0)).finishReg
        f.len d (scaleWord et xs)

/-- One element of mxd (03 R102). -/
def mxdElem (ft : Fmt) (et : ElemType) (sc : Nat) (mode : Mode) (u p : Nat) : Nat × Flags :=
  if sc = 0xFF then (ft.nanBits, 0) else roundTo ft ((mxValue et p).exact.scale ((sc : Int) - 127)) mode u

/-- MXD (09 R285). -/
def execMxd (t : BitVec 4) (x : BitVec 2) (b a d : BitVec 5) (s : State) : Outcome :=
  let et := elemType t.toNat
  let f := (formMxd t x b a d).rounding none s
  let ft := mxSide x
  unit f s fun s =>
    let n := unitElems ft.width et.width
    let pop := entriesOf n et.width
    let sc (i : Nat) : Nat := ((s.here.reg b).extractLsb' (8 * (i / 32)) 8).toNat
    s.whenStream a.toNat pop d.toNat (entriesOf n ft.width) true fun es =>
      let r := (streamElems et.width n (entryBytes es)).mapIdx fun i p => mxdElem ft et (sc i) (s.here.mode none) (s.here.draw.word i) p
      ((s.convert a.toNat pop d.toNat (entriesFrom (elemStream ft.width (r.map fun y => y.1)))).setFlags (r.foldl (fun x y => x ||| y.2) 0)).finish f.len

end Sys2Proof.Machine
end

