-- ==== Sys2Proof/Machine/Fetch.lean ====
section
/-! DEFINITION. Fetching a unit's bytes, choosing the context that issues, and the passing of a cycle. -/

namespace Sys2Proof.Machine

/-- The code image of a role of an object (18 Table 18.6). -/
def codeOf (o : Object) : Role → List Byte
  | .mc => o.codeMc
  | .fc => o.codeFc
  | .ac => o.codeAc
  | .steward => []

/-- The kernel image of a role (18 R512). -/
def kernelOf (p : Partition) : Role → List Byte
  | .mc => p.kernMc
  | .fc => p.kernFc
  | .ac => p.kernAc
  | .steward => []

/-- The image that holds a code address at a level, with the address of its first byte: the program part, the kernel image from level 1,
the hyper image from level 2 (18 R511, R512); a steward's firmware (18 R491). -/
def State.image (s : State) (core : CoreId) (level : BitVec 2) (addr : Nat) : Option (Nat × List Byte) :=
  if core.r = .steward then some (0, (((s.die core.t).image).map (·.code)).getD [])
  else if addr < 0x20000 then (s.launches.get? core.l).map fun l => (0, codeOf l.obj core.r)
  else if 0x1000000 ≤ addr ∧ addr < 0x100C000 then
    if 1 ≤ level.toNat then (s.parts.get? (s.partOf core)).map fun p => (0x1000000, kernelOf p core.r) else none
  else if 0x100C000 ≤ addr ∧ addr < 0x1010000 then
    if 2 ≤ level.toNat then some (0x100C000, s.hyper) else none
  else none

/-- The whole halfwords of a byte string, at most n. -/
def toHalves : Nat → List Byte → List Half
  | 0, _ => []
  | n + 1, a :: b :: r => (b ++ a) :: toHalves n r
  | _ + 1, _ => []

/-- Why a fetch gives no instruction. -/
inductive FetchError where
  /-- The unit decodes to nothing: ILLEGAL with its bits (02 R60, R61). -/
  | illegal (bits : Word)
  /-- No image holds the unit, or only a higher level's does: PROT with the fetch address (02 R40). -/
  | prot (addr : Word)
  deriving DecidableEq, Repr

/-- The halfwords from a context's program counter to the end of its image, at most four. -/
def State.fetchHalves (s : State) (id : CtxId) : List Half :=
  match s.image id.core (s.ctx id).level (s.ctx id).pc.toNat with
  | none => []
  | some (base, bytes) => toHalves 4 (bytes.drop ((s.ctx id).pc.toNat - base))

/-- Fetches and decodes the unit at a context's program counter (02 R40, R60). -/
noncomputable def fetch (s : State) (id : CtxId) : Except FetchError Instr :=
  match decode (s.fetchHalves id) with
  | .ok i => .ok i
  | .error .truncated => .error (.prot (s.ctx id).pc)
  | .error (.unassigned b) => .error (.illegal b)
  | .error (.reserved b) => .error (.illegal b)
  | .error (.operand b) => .error (.illegal b)

/-- The context of a core that issues in a cycle (05 R140): the first that can, searching upward with wrap from the one after the last that issued;
one in background mode only when no other can. One whose tile task another task has voided issues no more (12 R369). -/
def pickCtx (s : State) (core : CoreId) : Option CtxId :=
  let order := (List.range 4).map fun i => (⟨core, ((s.core core).lastCtx + 1 + i) % 4⟩ : CtxId)
  let can := order.filter fun id => decide ((s.ctx id).phase = .run) && !(s.ctx id).ends
  match can.find? fun id => !(s.ctx id).background with
  | some id => some id
  | none => can.head?

/-- Whether a droop alarm keeps a core from issuing in this cycle: at most one unit in any 2 cycles (16 R459). -/
def State.throttled (s : State) (core : CoreId) : Bool := decide (s.cycle % 2 = 1) && (s.power (s.groupOf core)).alarm

/-- Whether a core is the steward of a die that takes no part: it is held in reset (18 R490, R501). -/
def State.heldInReset (s : State) (core : CoreId) : Bool := decide (core.r = .steward) && !(s.die core.t).part

/-- The cores of the contexts' list, MCs first, then FCs, then ACs, then stewards: the units of one cycle take effect in this order (13 R392). -/
def State.issueOrder (s : State) : List CoreId :=
  [Role.mc, .fc, .ac, .steward].flatMap fun r => (s.ctxs.keys.map (·.core)).filter fun c => decide (c.r = r)

/-- The first core in order that has not issued in this cycle and has a context that can (05 R140). -/
def nextIssue (s : State) : Option CtxId :=
  s.issueOrder.findSome? fun k => if s.issued.contains k || s.throttled k || s.heldInReset k || (s.core k).follows.isSome then none else pickCtx s k

/-- Marks a context as the one that issues now. -/
def State.select (s : State) (id : CtxId) : State :=
  { (s.modCore id.core fun k => { k with lastCtx := id.c }) with cur := id, issued := id.core :: s.issued }

/-- A pending asynchronous trap is taken at this boundary: neither bank's tnest is set (14 R420). -/
def asyncDue (c : Ctx) : Bool := !c.asyncs.isEmpty && !c.kbank.tnest && !c.hbank.tnest

/-- A user interrupt is taken at this boundary (05 R163). -/
def interruptDue (c : Ctx) : Bool := c.pending != 0 && !c.uim && !c.uih

end Sys2Proof.Machine
end

