-- ==== Sys2Proof/Machine/Messages.lean ====
section
/-! DEFINITION. Majors 0x15 and 0x16: messages, queues and channels (06 R176 to R208). -/

namespace Sys2Proof.Machine

/-! ### Sending (06 R176 to R179, R197; 11 R340) -/

/-- The key of a message of the current task: its own number, or number 0 from kernel level; that of 14 R421 from a notice (06 R179). -/
def State.messageKey (s : State) (key : Option Key) : Key :=
  match key with
  | some k => k
  | none =>
    match s.ownTT with
    | some t => ⟨t.l, t.path, 0⟩
    | none => ⟨s.cur.core.l, [0], 0⟩

/-- A message of the current task with fresh number. -/
def State.newMessage (s : State) (key : Option Key) (sendCh ch : Nat) (words : List Word) (reply direct : Bool) : Message :=
  { id := s.fresh, src := s.cur.core, sendCh := sendCh, ch := ch, words := words, refused := false, reply := reply, direct := direct,
    key := s.messageKey key, tt := s.ownTT, uid := s.uid }

/-- Hands a message to the NI, behind the task's earlier device writes (11 R340). A remote edge has no tile at its other end (17 R487). -/
def State.sendMessage (s : State) (dst : CoreId) (away : Bool) (m : Message) : State :=
  { s with fresh := s.fresh + 1 }.sendSt (some s.cur.core) (if away then none else some dst.tile) (.message dst m) (.queued s.deviceWrites)

/-- The n payload words in registers from d on (06 Table 6.3). -/
def Ctx.payload (c : Ctx) (d : BitVec 5) (k n : Nat) : List Word := (List.range n).map fun i => c.regAt d (k + i)

/-- Goes on with the n flits at an offset of the scratchpad (06 R197). -/
def State.whenPad (s : State) (off : Word) (n : Nat) (k : List Word → State) : State :=
  if n = 0 then k []
  else if off.extractLsb' 0 6 ≠ 0 ∨ off.extractLsb' 20 44 ≠ 0 ∨ 1048576 < off.toNat + 64 * n then s.trap causeProt off
  else
    match (s.tile s.cur.core.tile).deniedLine [.lr] false off.toNat (64 * n) with
    | some l => s.trap causeProt (BitVec.ofNat 64 (l * 64))
    | none =>
      if s.ownPending s.cur.core then s.retry
      else k (bytesToWords (8 * n) (s.readHome (.tile s.cur.core.tile) s.me off.toNat (64 * n)))

/-- Uses a task's reserved credits (05 R150, 06 R185): 17 flits of the reservation for each message produced. -/
def State.useCredits (s : State) (ch : Nat) : State :=
  s.modCore s.cur.core fun k =>
    { k with resv := k.resv.map fun (r : Resv) => if r.uid = s.uid then { r with credits := useRoom ch 17 r.credits } else r }

/-- send (06 R198): the credit check of R190, then the message to the end's peer. -/
def State.sendBound (s : State) (q : Nat) (words : List Word) (step : Nat) : State :=
  let c := s.hereCore.chan q
  let cost := 1 + payloadFlits words.length
  if c.credits < cost then s.trap causeProt (BitVec.ofNat 64 (0x100 + q))
  else s.whenPermitted fun s => s.whenSeq fun key s =>
    let dst := c.peer.getD (s.cur.core, 0)
    let m := s.newMessage key q (((c.edge.bind s.edges.get?).map fun e => e.end_.peerCh).getD dst.2) words false false
    (((s.modChan s.cur.core q fun c => { c with credits := c.credits - cost }).useCredits q).sendMessage dst.1 c.edge.isSome m).finish step

/-- Goes on where channel q is a send end (06 R198). -/
def State.whenSendEnd (s : State) (q : Nat) (k : State) : State :=
  if (s.hereCore.chan q).kind = .send then k else s.trap causeProt (BitVec.ofNat 64 q)

/-- SEND_R (06 R198). -/
def execSendR (n : BitVec 5) (q : BitVec 6) (d : BitVec 5) (s : State) : Outcome :=
  let f := formSendR n q d
  unit f s fun s => s.whenSendEnd q.toNat (s.sendBound q.toNat (s.here.payload d 0 n.toNat) f.len)
/-- SEND_M (06 R197, R198). DESIGN CHOICE, log 75: its offset and line tests follow those of the end, and come before the credit test. -/
def execSendM (n : BitVec 5) (q : BitVec 6) (d : BitVec 5) (s : State) : Outcome :=
  let f := formSendM n q d
  unit f s fun s => s.whenSendEnd q.toNat (s.whenPad (s.here.reg d) n.toNat fun w => s.sendBound q.toNat w f.len)

/-- Goes on with the tile that the designator in d names, else PROT (01 R22, R23). -/
def State.whenTile (s : State) (d : BitVec 5) (k : Nat → State) : State :=
  match s.resolve s.cur.core (s.here.reg d) with
  | none => s.trap causeProt (s.here.reg d)
  | some t => k t

/-- Sends a direct message (06 R199, R201). -/
def State.sendDirect (s : State) (dst : CoreId) (q : Nat) (words : List Word) (reply : Bool) (step : Nat) : State :=
  s.whenPermitted fun s => s.whenSeq fun key s => (s.sendMessage dst false (s.newMessage key q q words reply true)).finish step

/-- SENDI_R (06 R199). -/
def execSendiR (r : BitVec 2) (n : BitVec 5) (q : BitVec 6) (d : BitVec 5) (s : State) : Outcome :=
  let f := formSendiR r n q d
  unit f s fun s => s.whenTile d fun t =>
    s.sendDirect ⟨s.cur.core.l, t, Role.ofCode r.toNat⟩ q.toNat (s.here.payload d 1 n.toNat) false f.len
/-- SENDI_M (06 R199). -/
def execSendiM (r : BitVec 2) (n : BitVec 5) (q : BitVec 6) (d : BitVec 5) (s : State) : Outcome :=
  let f := formSendiM r n q d
  unit f s fun s => s.whenTile d fun t => s.whenPad (s.here.regAt d 1) n.toNat fun w =>
    s.sendDirect ⟨s.cur.core.l, t, Role.ofCode r.toNat⟩ q.toNat w false f.len

/-- sendw (06 R200), of len bytes that the continuation gives: a posted write that keeps the order of messages (06 R178). DESIGN CHOICE,
log 75: the offset and line tests of sendw.m follow all of its other tests (06 R197, R200). -/
def State.sendwUnit (s : State) (r : BitVec 2) (d : BitVec 5) (len step : Nat) (payload : (List Word → State) → State) : State :=
  let x := s.here.reg d
  let n := s.here.regAt d 1
  if x.extractLsb' 0 3 ≠ 0 then s.trap causeAlign x
  else if !inWindow x || decide (s.gridSize s.cur.core.l ≤ windowTile x) || decide (1048576 < windowOff x + len) then s.trap causeProt x
  else if n.extractLsb' 9 55 ≠ 0 then s.trap causeProt n
  else payload fun words =>
    s.whenPermitted fun s =>
      if 256 ≤ (s.outstanding s.uid).length then s.retry
      else s.whenSeq fun key s =>
        let t : TileId := ⟨s.cur.core.l, windowTile x⟩
        let bs := (words.flatMap wordBytes).take len
        let notify : List Act := if n.getLsbD 8 then [.incr (t.core (Role.ofCode r.toNat)) (n.extractLsb' 0 8).toNat] else []
        let e := { s.effectOf key 0 (.write (windowOff x) bs .full :: notify) x with sendw := true }
        (s.post (.tile t) e (.queued [])).finish step

/-- SENDW_R (06 R200). -/
def execSendwR (r : BitVec 2) (n : BitVec 5) (d : BitVec 5) (s : State) : Outcome :=
  let f := formSendwR r n d
  unit f s fun s => s.sendwUnit r d (8 * n.toNat) f.len fun k => k (s.here.payload d 2 n.toNat)
/-- SENDW_M (06 R200). -/
def execSendwM (r : BitVec 2) (n : BitVec 5) (d : BitVec 5) (s : State) : Outcome :=
  let f := formSendwM r n d
  unit f s fun s => s.sendwUnit r d (64 * n.toNat) f.len fun k => s.whenPad (s.here.regAt d 2) n.toNat k

/-! ### Replies and refusals (06 R191, R201) -/

/-- A message activation by a message that may be answered (06 R201): its message's header says direct, not reply, not refused. -/
def Task.answerable (t : Task) : Bool := decide (t.kind = .message) && decide (t.hdr.extractLsb' 0 3 = 1)

/-- Goes on in a task that may reply. -/
def State.whenAnswerable (s : State) (k : Task → State) : State :=
  match s.here.task with
  | none => s.trap causeProt 0
  | some t => if t.answerable then k t else s.trap causeProt 0

/-- The core and channel of the activating message's sender (06 R201). -/
def Task.origin (t : Task) : CoreId := t.sender.core (Role.ofCode (t.hdr.extractLsb' 16 2).toNat)

/-- The channel of the activating message (06 Table 6.1). -/
def Task.originCh (t : Task) : Nat := (t.hdr.extractLsb' 18 6).toNat

/-- REPLY_R (06 R201). -/
def execReplyR (n : BitVec 5) (d : BitVec 5) (s : State) : Outcome :=
  let f := formReplyR n d
  unit f s fun s => s.whenAnswerable fun t => s.sendDirect t.origin t.originCh (s.here.payload d 0 n.toNat) true f.len
/-- REPLY_M (06 R201). -/
def execReplyM (n : BitVec 5) (d : BitVec 5) (s : State) : Outcome :=
  let f := formReplyM n d
  unit f s fun s => s.whenAnswerable fun t => s.whenPad (s.here.reg d) n.toNat fun w => s.sendDirect t.origin t.originCh w true f.len

/-- REFUSE (06 R201): the return keeps its core's message order (06 R178). -/
def execRefuse (s : State) : Outcome :=
  unit formRefuse s fun s => s.whenAnswerable fun t =>
    match t.msg with
    | none => s.trap causeProt 0
    | some r =>
      match ((s.hereCore.chan r.ch).held t.uid).find? fun m => m.msg.id = r.id with
      | none => s.trap causeProt 0
      | some m => s.whenPermitted fun s =>
        ((s.releaseMsg s.cur.core r.ch r.id).sendSt (some s.cur.core) (some m.msg.src.tile)
          (.message m.msg.src (m.msg.returned s.cur.core s.uid)) (.queued [])).finish formRefuse.len

/-! ### Queues and channels (06 R202 to R208) -/

/-- QPEEK_Q (06 R203). -/
def execQpeekQ (i : BitVec 6) (q : BitVec 6) (d : BitVec 5) (s : State) : Outcome :=
  let f := formQpeekQ i q d
  unit f s fun s => s.whenEntries q.toNat 1 fun s =>
    match (((s.tile s.cur.core.tile).queue q.toNat).front s.uid 1).head? with
    | none => s.wait (.emptyQueue q.toNat 1)
    | some e => s.finishReg f.len d (if i = 8 then (if e.tag then 1 else 0) else e.data.extractLsb' (64 * i.toNat) 64)

/-- The messages that a task holds on a channel as they are presented: in ordered mode by key, else as they arrived (06 R186). -/
def State.heldOn (s : State) (c : CoreId) (q uid : Nat) : List EndMsg :=
  let l := ((s.core c).chan q).held uid
  if (s.core c).free then l else sortBy (fun a b => s.keyBefore a.msg.key b.msg.key) l

/-- Goes on with the first message that the current task holds on a channel, else PROT (06 R203, R205). -/
def State.whenHeld (s : State) (q : Nat) (k : EndMsg → State) : State :=
  match (s.heldOn s.cur.core q s.uid).head? with
  | none => s.trap causeProt (BitVec.ofNat 64 q)
  | some m => k m

/-- QPEEK_C (06 R203): word i, i[6] being h; 0 beyond the payload. -/
def execQpeekC (h : BitVec 1) (i : BitVec 6) (q : BitVec 6) (d : BitVec 5) (s : State) : Outcome :=
  let f := formQpeekC h i q d
  unit f s fun s => s.whenHeld q.toNat fun m => s.finishReg f.len d (m.msg.words.getD (64 * h.toNat + i.toNat) 0)

/-- QCNT_Q (06 R204): earmarked entries of a queue that the role reads, reserved room of one it writes. -/
def execQcntQ (q : BitVec 6) (d : BitVec 5) (s : State) : Outcome :=
  let f := formQcntQ q d
  unit f s fun s =>
    let n := if s.cur.core.r = queueWriter q.toNat then s.hereCore.ownRoom q.toNat s.uid
      else (((s.tile s.cur.core.tile).queue q.toNat).entries.filter fun e => e.owner = some s.uid).length
    s.finishReg f.len d (BitVec.ofNat 64 n)
/-- QCNT_C (06 R204). -/
def execQcntC (q : BitVec 6) (d : BitVec 5) (s : State) : Outcome :=
  let f := formQcntC q d
  unit f s fun s => s.finishReg f.len d (BitVec.ofNat 64 (s.heldOn s.cur.core q.toNat s.uid).length)

/-- QFLUSH_Q (06 R205, 09 R276): pops one entry; the reader's cursor returns to 0. -/
def execQflushQ (q : BitVec 6) (s : State) : Outcome :=
  let f := formQflushQ q
  unit f s fun s => s.whenEntries q.toNat 1 fun s =>
    ((s.popQueue s.cur.core.tile q.toNat s.uid 1).modQueue s.cur.core.tile q.toNat fun x => { x with cursor := 0 }).finish f.len
/-- QFLUSH_C (06 R205). -/
def execQflushC (q : BitVec 6) (s : State) : Outcome :=
  let f := formQflushC q
  unit f s fun s => s.whenHeld q.toNat fun m => (s.releaseMsg s.cur.core q.toNat m.msg.id).finish f.len

/-- The static tile task of a node on a tile (01 R29, 05 R142). -/
def State.staticTask (s : State) (t : TileId) (node : Nat) : Option TTId :=
  (s.tts.find? fun e => e.1.l = t.l && e.1.path.length = s.staticDepth t.l && e.2.node = node && e.2.tile = t).map fun e => e.1

/-- Whether a class may be bound on the current core: valid, its node covering the tile (05 R525). -/
def State.classOk (s : State) (n : Nat) : Bool :=
  let c := s.hereCore.classes.getD n Class.invalid
  c.valid && (s.staticTask s.cur.core.tile c.node).isSome

/-- Whether a channel is a receive end. -/
def Chan.receives (c : Chan) : Bool := decide (c.kind = .bound) || decide (c.kind = .direct)

/-- QBIND (06 R206). -/
def execQbind (q : BitVec 6) (d : BitVec 5) (s : State) : Outcome :=
  let f := formQbind q d
  unit f s fun s =>
    let w := s.here.reg d
    let cls := (w.extractLsb' 0 6).toNat
    let count := w.getLsbD 16
    if w.extractLsb' 17 47 ≠ 0 ∨ w.extractLsb' 6 2 ≠ 0 ∨ (count ∧ cls ≠ 0) ∨ (s.hereCore.chan q.toNat).receives = false ∨
        (count = false ∧ s.classOk cls = false) then s.trap causeProt w
    else
      (s.modChan s.cur.core q.toNat fun c =>
        { c with bind := if count then .count (w.extractLsb' 8 8).toNat else .cls cls }).finish f.len

/-- Buffer flits of the open receive ends of a core (06 R181). -/
def Core.depths (k : Core) : Nat := sumOf ((k.chans.filter fun c => c.2.receives).map fun c => c.2.depth)

/-- CHOPEN (06 R207). -/
def execChopen (q : BitVec 6) (d : BitVec 5) (s : State) : Outcome :=
  let f := formChopen q d
  unit f s fun s =>
    let w := s.here.reg d
    let depth := (w.extractLsb' 16 10).toNat
    let hamper := (w.extractLsb' 8 8).toNat
    let cls := (w.extractLsb' 0 6).toNat
    let pool := ((s.launches.get? s.cur.core.l).map Launch.pool).getD 0
    if (s.hereCore.chan q.toNat).kind ≠ .closed ∨ w.extractLsb' 26 38 ≠ 0 ∨ w.extractLsb' 6 2 ≠ 0 ∨ depth < 17 ∨
        1024 < s.hereCore.depths + depth ∨ pool < hamper ∨ s.classOk cls = false then s.trap causeProt w
    else
      let s := s.modLaunch s.cur.core.l fun l => { l with pool := l.pool - hamper }
      (s.modChan s.cur.core q.toNat fun _ =>
        { Chan.closed with kind := .direct, depth := depth, hamper := hamper, bind := .cls cls }).finish f.len

/-- CHCLOSE (06 R207). -/
def execChclose (q : BitVec 6) (s : State) : Outcome :=
  let f := formChclose q
  unit f s fun s =>
    let c := s.hereCore.chan q.toNat
    if c.kind ≠ .direct ∨ c.msgs ≠ [] then s.trap causeProt (q.setWidth 64)
    else
      let s := s.modLaunch s.cur.core.l fun l => { l with pool := l.pool + c.hamper }
      (s.modChan s.cur.core q.toNat fun _ => { Chan.closed with refusals := c.refusals, retries := c.retries }).finish f.len

/-- The code of a channel's state (06 Table 6.6). -/
def ChanKind.code : ChanKind → Nat
  | .closed => 0
  | .send => 1
  | .bound => 2
  | .direct => 3

/-- The channel status word (06 Table 6.6). -/
def Chan.status (c : Chan) : Word :=
  BitVec.ofNat 64 (c.kind.code * 4611686018427387904 + (if c.kind = .send ∨ c.kind = .direct then min c.refusals 0x3FFF else 0) * 281474976710656 +
    min c.retries 0xFFFF * 4294967296 + (if c.receives then min (c.msgs.filter fun m => m.hampered).length 0xFFFF else 0) * 65536 +
    (if c.receives then c.used else if c.kind = .send then min c.credits 0xFFFF else 0))

/-- CHSTAT (06 R208). -/
def execChstat (q : BitVec 6) (d : BitVec 5) (s : State) : Outcome :=
  unit (formChstat q d) s fun s => s.finishReg (formChstat q d).len d (s.hereCore.chan q.toNat).status

end Sys2Proof.Machine
end

