-- ==== Sys2Proof/Machine/RetireLog.lean ====
section
/-! DEFINITION. A die's retirement log in its steward's flash (18 R493 to R497): banks, the active one, appends and compaction. -/

namespace Sys2Proof.Machine

/-- The sequence number of a bank's commit record, when it is valid (18 R496). -/
def bankCommit (b : List Line) : Option Nat :=
  (bankRecords b).foldl (fun acc r => if r.kind = 5 then some (max r.seq (acc.getD 0)) else acc) none

/-- The active bank of a die's log: 0 or 1; none when no bank is valid (18 R496). -/
def Die.activeBank (d : Die) : Option Nat :=
  match bankCommit d.bank0, bankCommit d.bank1 with
  | none, none => none
  | some _, none => some 0
  | none, some _ => some 1
  | some a, some b => some (if a < b then 1 else 0)

/-- The slots of a bank, as far as they are listed. -/
def Die.bank (d : Die) (n : Nat) : List Line := if n = 0 then d.bank0 else d.bank1

/-- Replaces a bank. -/
def Die.setBank (d : Die) (n : Nat) (b : List Line) : Die := if n = 0 then { d with bank0 := b } else { d with bank1 := b }

/-- What a bank retires on its own die, in ascending order of kind, then index (18 R496, R497): kind, index, cause. -/
def retired (die : Nat) (b : List Line) : List (Nat × Nat × Nat) :=
  let l := (bankRecords b).filterMap fun r => if 1 ≤ r.kind ∧ r.kind ≤ 3 ∧ r.die = die then some (r.kind, r.index, r.cause) else none
  sortBy (fun (a b : Nat × Nat × Nat) => decide (a.1 < b.1) || (decide (a.1 = b.1) && decide (a.2.1 < b.2.1)))
    (l.foldl (fun acc x => if acc.any fun (y : Nat × Nat × Nat) => y.1 = x.1 && y.2.1 = x.2.1 then acc else acc ++ [x]) [])

/-- The slot of a die's next record. -/
def Die.nextSlot (d : Die) (die kind index cause : Nat) : Line :=
  LogRecord.slot { kind := kind, index := index, cause := cause, attempt := d.fails, seq := d.seq, die := die }

/-- What a compaction of a die's log writes, in order: the retired items, then the commit record (18 R496). -/
def Die.compaction (d : Die) (die n : Nat) : List Line :=
  let items := retired die (d.bank n)
  (((List.range items.length).map fun i =>
    let x := items.getD i (0, 0, 0)
    { d with seq := d.seq + i }.nextSlot die x.1 x.2.1 x.2.2)) ++ [{ d with seq := d.seq + items.length }.nextSlot die 5 0 0]

/-- Compacts a log (18 R496): the retired items and a commit record in the other bank, the old bank erased. -/
def Die.compact (d : Die) (die n : Nat) : Die :=
  let b := d.compaction die n
  { (d.setBank (1 - n) b).setBank n [] with seq := d.seq + b.length }

/-- Whether a bank has no empty slot after its highest non-empty one. -/
def bankFull (b : List Line) : Bool := decide (2048 ≤ (trimBank b).length)

/-- Compacts the log of a die whose active bank an append has filled (18 R496). -/
def Die.compactFull (d : Die) (die : Nat) : Die :=
  match d.activeBank with
  | none => d
  | some n => if bankFull (d.bank n) then d.compact die n else d

/-- Writes a slot into a die's active bank (18 R494); a log without a valid bank takes none. -/
def Die.put (d : Die) (l : Line) : Die :=
  match d.activeBank with
  | none => d
  | some n => d.setBank n (appendSlot (d.bank n) l)

/-- Appends a record to a die's log (18 R494): it takes the next sequence number. A bank that this fills is compacted in the cycles that follow (18 R496; tick). -/
def Die.append (d : Die) (die kind index cause : Nat) : Die :=
  let d := d.compactFull die
  if d.activeBank.isNone then d else { d.put (d.nextSlot die kind index cause) with seq := d.seq + 1 }

/-- The append under way when the supply is lost leaves a slot that is no longer empty (18 R495); choice is what tells its contents (log entry 23). -/
def Die.tear (d : Die) (choice : Nat) : Die :=
  match d.activeBank with
  | none => d
  | some n => if bankFull (d.bank n) then d else d.put (Config.tornSlot choice)

/-- The compaction under way when the supply is lost has written k of its slots in the other bank (18 R496): an append had filled the active bank. -/
def Die.cutCompaction (d : Die) (die k : Nat) : Die :=
  match d.activeBank with
  | none => d
  | some n => if bankFull (d.bank n) then { d.setBank (1 - n) ((d.compaction die n).take k) with seq := d.seq + k } else d

/-- Whether a slot of a bank is torn and no seal names it (18 R495). -/
def unsealed (b : List Line) (i : Nat) : Bool :=
  ((b[i]?).map isTorn).getD false && !(sealedSlots b).contains i

/-- Makes a die's log ready at boot (18 R496): an invalid bank that a compaction left is erased and the compaction done again. -/
def Die.repair (d : Die) (die : Nat) : Die :=
  match d.activeBank with
  | none => d
  | some n =>
    let other := d.bank (1 - n)
    if (!other.isEmpty && (bankCommit other).isNone) || bankFull (d.bank n) then d.compact die n else d

end Sys2Proof.Machine
end

