-- ==== Sys2Proof/Machine/Sync.lean ====
section
/-! DEFINITION. Majors 0x32 to 0x36: barriers, groups and semaphores (13 R393 to R400), rounds (16 R460 to R462), the tile table (15 R440 to R442). -/

namespace Sys2Proof.Machine

/-! ### Barriers (13 R393 to R397) -/

/-- Whether an init word breaks 13 Table 13.2. -/
def badInit (w : Word) : Bool :=
  let e := w.extractLsb' 0 20
  w.extractLsb' 40 23 ≠ 0 || w.extractLsb' 20 12 ≠ 0 ||
  (if w.getLsbD 63 then e ≠ 0 else (w.extractLsb' 32 8 ≠ 0 || (e = 0 && w ≠ 0)))

/-- Whether an arrival word breaks 13 Table 13.2. -/
def badArrival (w : Word) : Bool :=
  w.extractLsb' 57 7 ≠ 0 || w.extractLsb' 42 6 ≠ 0 ||
  (if w.getLsbD 41 then w.getLsbD 40 else w.extractLsb' 0 40 ≠ 0)

/-- Bound barriers of a core (13 R394). -/
def Core.boundBars (k : Core) : Nat :=
  (k.bars.filter fun x => match x.2.mode with
    | .bound _ => true
    | _ => false).length

/-- Whether a barrier holds arrivals or registrations (13 R394). -/
def Core.barInUse (k : Core) (n : Nat) : Bool :=
  let b := k.bar n
  b.ncur ≠ 0 || b.nnext ≠ 0 || !b.acur.isEmpty || !b.anext.isEmpty || k.regs.any fun r => r.bar = n

/-- Unbinds a barrier at its old group's owner (13 R394). -/
def State.unbind (s : State) (n : Nat) : State :=
  match (s.hereCore.bar n).mode with
  | .bound g => s.send (some s.cur.core) (some (s.groupTile s.cur.core.l g)) (.barBind (s.groupTile s.cur.core.l g) g n true s.me 0)
  | _ => s

/-- Goes on when the message that unbinds a bound barrier is permitted, or none is to be sent (17 R464). -/
def State.whenUnbound (s : State) (n : Nat) (k : State → State) : State :=
  match (s.hereCore.bar n).mode with
  | .bound _ => s.whenPermitted k
  | _ => k s

/-- BAR_INIT (13 R394): in bound mode in progress until the group's owner answers. -/
def execBarInit (n : BitVec 7) (a : BitVec 5) (s : State) : Outcome :=
  let f := formBarInit n a
  unit f s fun s =>
    let w := s.here.reg a
    let n := n.toNat
    let bound := w.getLsbD 63
    if badInit w then s.trap causeProt w
    else if (s.hereCore.bar n).binding.isSome then s.retry
    else if s.hereCore.barInUse n || (bound && decide (8 ≤ s.hereCore.boundBars)) then s.trap causeProt (BitVec.ofNat 64 (0x700 + n))
    else if bound then
      let g := (w.extractLsb' 32 8).toNat
      s.whenPermitted fun s =>
        let s := s.unbind n
        let (id, s) := s.take
        let s := s.modBar s.cur.core n fun b => { b with mode := .off, binding := some id }
        let s := s.modCtx s.cur fun c => { c with phase := .busy id 1 [] f.len false (.barInit n g) }
        s.send (some s.cur.core) (some (s.groupTile s.cur.core.l g)) (.barBind (s.groupTile s.cur.core.l g) g n false s.me id)
    else
      s.whenUnbound n fun s =>
      let e := (w.extractLsb' 0 20).toNat
      let s := s.unbind n
      ((s.modBar s.cur.core n fun b =>
        { b with mode := if e = 0 then .off else .counted, ecur := e, enext := e, ncur := 0, nnext := 0, pcur := [], pnext := [], acur := [],
                 anext := [] }).settle s.cur.core n).finish f.len

/-- Goes on with the core that a designator and a role name, else PROT (01 R22, R23; 13 R393). -/
def State.whenOwner (s : State) (r : BitVec 2) (a : BitVec 5) (k : CoreId → State) : State :=
  match s.resolve s.cur.core (s.here.reg a) with
  | none => s.trap causeProt (s.here.reg a)
  | some t => k ⟨s.cur.core.l, t, Role.ofCode r.toNat⟩

/-- Puts the current unit in progress for one reply, with the request's number. -/
def State.await (s : State) (step : Nat) (c : Cont) (k : Nat → State → State) : State :=
  let (id, s) := s.take
  k id (s.modCtx s.cur fun x => { x with phase := .busy id 1 [] step false c })

/-- BAR_ARR (13 R396): the word's tests, then the designator's, then an arrival behind the task's earlier device writes. -/
def execBarArr (r : BitVec 2) (n : BitVec 7) (a d : BitVec 5) (s : State) : Outcome :=
  let f := formBarArr r n a d
  unit f s fun s =>
    let w := s.here.regAt a 1
    let bound := w.getLsbD 41
    let g := (w.extractLsb' 32 8).toNat
    let m := (s.hereCore.member g).filter fun m => m.gen = w.extractLsb' 0 32
    if badArrival w then s.trap causeProt w
    else if bound && m.isNone then s.trap causeGroupgen w
    else s.whenOwner r a fun o => s.whenPermitted fun s =>
      s.await f.len (.barArr d (if bound then some g else none)) fun id s =>
        s.sendSt (some s.cur.core) (some o.tile) (.barArr o n.toNat w (if bound then (m.map Member.index).getD 0 else 0) s.me id) (.queued s.deviceWrites)

/-- BAR_WAIT (13 R397). -/
def execBarWait (r : BitVec 2) (n : BitVec 7) (a : BitVec 5) (s : State) : Outcome :=
  let f := formBarWait r n a
  unit f s fun s =>
    let w := s.here.regAt a 1
    if w.extractLsb' 8 56 ≠ 0 then s.trap causeProt w
    else s.whenOwner r a fun o => s.whenPermitted fun s =>
      s.await f.len .none fun id s => s.send (some s.cur.core) (some o.tile) (.barReg o n.toNat (w.extractLsb' 0 8).toNat s.me id)

/-- BAR_EXP (13 R395). -/
def execBarExp (n : BitVec 7) (a : BitVec 5) (s : State) : Outcome :=
  let f := formBarExp n a
  unit f s fun s =>
    let w := s.here.reg a
    let b := s.hereCore.bar n.toNat
    if w = 0 ∨ 1048575 < w.toNat then s.trap causeProt w
    else if b.binding.isSome then s.retry
    else if b.mode ≠ .counted ∨ w.toNat < b.nnext then s.trap causeProt (BitVec.ofNat 64 (0x700 + n.toNat))
    else ((s.modBar s.cur.core n.toNat fun b => { b with enext := w.toNat }).settle s.cur.core n.toNat).finish f.len

/-! ### Groups (13 R398, R399) -/

/-- A group unit: its word's test, then what it does with the group. -/
def State.groupUnit (s : State) (a : BitVec 5) (k : Nat → State) : State :=
  let w := s.here.reg a
  if w.extractLsb' 8 56 ≠ 0 then s.trap causeProt w else k (w.extractLsb' 0 8).toNat

/-- Sends a request to a group's owner and awaits the reply (13 R398). -/
def State.askGroup (s : State) (g op index step : Nat) (c : Cont) : State :=
  s.whenPermitted fun s => s.await step c fun id s =>
    let t := s.groupTile s.cur.core.l g
    s.send (some s.cur.core) (some t) (.grpChange t g op index s.me id)

/-- Whether a context of the core has a join or leave of a group in progress. -/
def State.grpBusy (s : State) (g : Nat) : Bool :=
  (List.range 4).any fun i => match (s.ctx ⟨s.cur.core, i⟩).phase with
    | .busy _ _ _ _ _ (.grpJoin _ g') => g' = g
    | .busy _ _ _ _ _ (.grpLeave _ g') => g' = g
    | _ => false

/-- Whether a bar.arr of the core for a group is in progress (13 R396). -/
def State.arrBusy (s : State) (g : Nat) : Bool :=
  (List.range 4).any fun i => match (s.ctx ⟨s.cur.core, i⟩).phase with
    | .busy _ _ _ _ _ (.barArr _ (some g')) => g' = g
    | _ => false

/-- Joins of the core in progress. -/
def State.joining (s : State) : Nat :=
  ((List.range 4).filter fun i => match (s.ctx ⟨s.cur.core, i⟩).phase with
    | .busy _ _ _ _ _ (.grpJoin _ _) => true
    | _ => false).length

/-- GRP_JOIN (13 R399). -/
def execGrpJoin (a d : BitVec 5) (s : State) : Outcome :=
  let f := formGrpJoin a d
  unit f s fun s => s.groupUnit a fun g =>
    if (s.hereCore.member g).isSome ∨ 8 ≤ s.hereCore.members.length then s.trap causeProt (BitVec.ofNat 64 (0x800 + g))
    else if s.grpBusy g || decide (8 ≤ s.hereCore.members.length + s.joining) then s.retry
    else s.askGroup g 0 0 f.len (.grpJoin d g)

/-- GRP_LEAVE (13 R399): held until the core's bar.arr units for the group have their replies (13 R396). -/
def execGrpLeave (a d : BitVec 5) (s : State) : Outcome :=
  let f := formGrpLeave a d
  unit f s fun s => s.groupUnit a fun g =>
    match s.hereCore.member g with
    | none => s.trap causeProt (BitVec.ofNat 64 (0x800 + g))
    | some m => if s.arrBusy g || s.grpBusy g then s.retry else s.askGroup g 1 m.index f.len (.grpLeave d g)

/-- GRP_Q (13 R399, Table 13.4). -/
def execGrpQ (a d : BitVec 5) (s : State) : Outcome :=
  let f := formGrpQ a d
  unit f s fun s => s.groupUnit a fun g => s.askGroup g 2 0 f.len (.word d)

/-! ### Semaphores (13 R400) -/

/-- SEM_INIT (13 R400). -/
def execSemInit (n : BitVec 4) (a : BitVec 5) (s : State) : Outcome :=
  unit (formSemInit n a) s fun s =>
    let w := s.here.reg a
    if w.extractLsb' 32 32 ≠ 0 then s.trap causeProt w
    else (s.changeSem s.cur.core.tile n.toNat fun m => { m with value := w.extractLsb' 0 32 }).finish (formSemInit n a).len

/-- SEM_POST (13 R400). -/
def execSemPost (n : BitVec 4) (a : BitVec 5) (s : State) : Outcome :=
  unit (formSemPost n a) s fun s =>
    let w := s.here.reg a
    if w.extractLsb' 32 32 ≠ 0 then s.trap causeProt w
    else (s.postSem s.cur.core.tile n.toNat w.toNat).finish (formSemPost n a).len

/-- SEM_ARM (13 R400). -/
def execSemArm (n : BitVec 4) (a : BitVec 5) (s : State) : Outcome :=
  unit (formSemArm n a) s fun s =>
    let w := s.here.reg a
    if w.extractLsb' 16 48 ≠ 0 ∨ w.extractLsb' 0 8 = 0 then s.trap causeProt w
    else if 8 ≤ ((s.tile s.cur.core.tile).sem n.toNat).claims.length then s.trap causeProt (BitVec.ofNat 64 (0x900 + n.toNat))
    else
      let c : Claim := { core := s.cur.core, entry := (w.extractLsb' 8 8).toNat, need := (w.extractLsb' 0 8).toNat }
      (s.changeSem s.cur.core.tile n.toNat fun m => { m with claims := m.claims ++ [c] }).finish (formSemArm n a).len

/-! ### Rounds (16 R460 to R462) -/

/-- RND_CLOSE (16 R461). -/
def execRndClose (s : State) : Outcome :=
  unit formRndClose s fun s =>
    match s.zoneOf s.cur.core.tile with
    | none => s.finish formRndClose.len
    | some z => (s.askClose z).finish formRndClose.len

/-- The round status word (16 Table 16.2). -/
def State.roundWord (s : State) : Word :=
  match s.zoneOf s.cur.core.tile, s.launches.get? s.cur.core.l with
  | some n, some l =>
    let z := s.zone n
    BitVec.ofNat 64 (min (l.droops.getD (powerOf n) 0) 65535 * 281474976710656 + min l.mended 65535 * 4294967296 +
      (if z.buddy.isNone then 8 else 0) + (if z.due.isSome then 4 else 0) + (if z.streaming.isSome then 2 else 0) +
      (if l.obj.regions.any ObjRegion.persist then 1 else 0))
  | _, _ => 0

/-- RND_Q (16 R462). -/
def execRndQ (d : BitVec 5) (s : State) : Outcome :=
  unit (formRndQ d) s fun s => s.finishReg (formRndQ d).len d s.roundWord

/-! ### The tile table (15 R440 to R442) -/

/-- The code of a bundle's state (15 Table 15.1). -/
def BundleSt.code : BundleSt → Nat
  | .resident => 0
  | .folding => 1
  | .folded => 2
  | .unfolding => 3
  | .remapping => 4

/-- A tile table entry (15 Table 15.1). -/
def tableEntry (b : Bundle) (j : Nat) : Word :=
  let placed := decide (b.st = .resident) || decide (b.st = .folding) || decide (b.st = .unfolding)
  BitVec.ofNat 64 (b.st.code * 2305843009213693952 + j * 36028797018963968 + b.gen * 4294967296 +
    (if placed then b.home.zoneOf * 16777216 + b.frame * 65536 + b.home.die * 1024 + (b.home.x + j) * 32 + b.home.y else 0))

/-- Goes on with a logical tile's bundle and its number (15 R440). -/
def State.whenBundle (s : State) (a : BitVec 5) (k : Nat → Nat → Bundle → State) : State :=
  let w := s.here.reg a
  let l := s.cur.core.l
  if s.gridSize l ≤ w.toNat then s.trap causeProt w
  else
    let n := bundleOf (s.gridX l) w.toNat
    match s.bundles.get? (l, n) with
    | none => s.trap causeProt w
    | some b => k w.toNat n b

/-- LMAP (15 R441). -/
def execLmap (a d : BitVec 5) (s : State) : Outcome :=
  unit (formLmap a d) s fun s => s.whenBundle a fun t _ b =>
    s.finishReg (formLmap a d).len d (tableEntry b ((t % s.gridX s.cur.core.l) % 8))

/-- The logical tiles of a bundle (15 R426). -/
def State.membersOf (s : State) (l n : Nat) : List TileId :=
  let x := s.gridX l
  let per := (x + 7) / 8
  (List.range (min 8 (x - 8 * (n % per)))).map fun j => ⟨l, (n / per) * x + 8 * (n % per) + j⟩

/-- The bundle status word (15 Table 15.3). -/
def State.bundleWord (s : State) (l n : Nat) (b : Bundle) : Word :=
  let ms := s.membersOf l n
  BitVec.ofNat 64 (b.st.code * 2305843009213693952 + (if b.pinned then 1152921504606846976 else 0) +
    (if b.summoned.isSome then 576460752303423488 else 0) + min (sumOf (ms.map fun t => (s.tile t).parked.length)) 65535 * 4294967296 +
    ((ms.head?.map TileId.t).getD 0))

/-- Queues a summons of a bundle, unless one is queued or it is resident, folding or unfolding (15 R435, R442). -/
def State.summon (s : State) (l n : Nat) : State :=
  match s.bundles.get? (l, n) with
  | none => s
  | some b =>
    if b.summoned.isSome ∨ b.st = .resident ∨ b.st = .folding ∨ b.st = .unfolding then s
    else { s with fresh := s.fresh + 1, bundles := s.bundles.set (l, n) { b with summoned := some s.fresh } }

/-- Bundles pinned in the partition of a launch (15 R442). -/
def State.pins (s : State) (l : Nat) : Nat :=
  let tag := (s.launches.get? l).map Launch.tag
  (s.bundles.filter fun e => e.2.pinned && decide ((s.launches.get? e.1.1).map Launch.tag = tag)).length

/-- FOLD_Q (15 R442). -/
def execFoldQ (b a d : BitVec 5) (s : State) : Outcome :=
  let f := formFoldQ b a d
  unit f s fun s => s.whenBundle a fun _ n x =>
    let w := s.here.reg b
    let l := s.cur.core.l
    if w.extractLsb' 2 62 ≠ 0 then s.trap causeProt w
    else if w = 2 ∧ x.pinned = false ∧ 64 ≤ s.pins l then s.trap causeProt 0xB00
    else
      let s := match w.toNat with
        | 1 => s.summon l n
        | 2 => { s with bundles := s.bundles.set (l, n) { x with pinned := true } }
        | 3 => { s with bundles := s.bundles.set (l, n) { x with pinned := false } }
        | _ => s
      s.finishReg f.len d (s.bundleWord l n ((s.bundles.get? (l, n)).getD x))

end Sys2Proof.Machine
end

