-- ==== Sys2Proof/Machine/Activate.lean ====
section
/-! DEFINITION. Device steps of the core: activations entering the run queue and starting (05 R141 to R160, 12 R361), waits and traps at boundaries
(05 R151 to R153, R163; 14 R420, R421), tile tasks completing and retiring (05 R144; 12 R359), and the two units that decode to nothing (02 R40, R56).
A device step that is not due changes nothing. -/

namespace Sys2Proof.Machine

/-- A device step: its effect when it is due. -/
def event (s : State) (due : Bool) (k : State) : Outcome := .next (if due then k else s)

/-! ### Due activations (05 R141 to R150; 06 R185, R186) -/

/-- The class entry of a core (05 R145). -/
def Core.cls (k : Core) (n : Nat) : Class := k.classes.getD n Class.invalid

/-- The rate declarations of a class's handler (05 R150); an invalid class has no handler. -/
def State.rates (s : State) (c : CoreId) (x : Class) : List ObjRate :=
  if x.valid then
    match s.launches.get? c.l with
    | none => []
    | some l => l.obj.rates.filter fun r => decide (r.role = c.r) && decide (BitVec.ofNat 64 r.handler = x.handler)
  else []

/-- The tile task that a message activates a task of (05 R142): the sender's for one from a task of the same tile, else that of the class's node here. -/
def State.messageTask (s : State) (c : CoreId) (m : EndMsg) : Option TTId :=
  match m.bind with
  | .count _ => none
  | .cls n =>
    match m.msg.tt with
    | some t => if m.msg.src.tile = c.tile then some t else s.staticTask c.tile ((s.core c).cls n).node
    | none => s.staticTask c.tile ((s.core c).cls n).node

/-- The header word of a message at a channel (06 Table 6.1). -/
def Message.header (m : Message) (ch : Nat) : Word :=
  BitVec.ofNat 64 (m.words.length * 16777216 + ch * 262144 + m.src.r.code * 65536 + (if m.refused then 4 else 0) + (if m.reply then 2 else 0) +
    (if m.direct then 1 else 0))

/-- A receive end's messages that no task holds, as it presents them: by key in ordered mode, else as they arrived (06 R186). -/
def State.unheld (s : State) (c : CoreId) (ch : Nat) : List EndMsg :=
  let l := ((s.core c).chan ch).msgs.filter fun m => m.holder.isNone
  if (s.core c).free then l else sortBy (fun a b => s.keyBefore a.msg.key b.msg.key) l

/-- Whether a message is bound to a class. -/
def EndMsg.isClass (m : EndMsg) : Bool :=
  match m.bind with
  | .cls _ => true
  | .count _ => false

/-- A ready entry before it has any room. -/
def blankReady (uid : Nat) (kind : ActKind) (cls prio : Nat) (key : Key) (tt : Option TTId) : Ready :=
  { uid := uid, kind := kind, cls := cls, s1 := 0, s2 := 0, s3 := 0, key := key, tt := tt, entry := 0xFF, prio := prio, eff := prio, pass := 0,
    addr := none, fibre := none, msg := none, hdr := 0, sender := ⟨0, 0⟩ }

/-- The priority of a class (05 R145, R525). -/
def Class.priority (x : Class) : Nat := if x.valid then x.prio else 0

/-- The continuation of a join entry (05 R160). -/
def WEntry.child (e : WEntry) (t : TTId) : TTId := ⟨t.l, t.path ++ [e.index]⟩

/-- The activation that a source of a core offers, when it is due but for room (05 R141, R149, R156; 06 R186; 14 R414, R415; 16 R458). -/
def State.offers (s : State) (c : CoreId) (src : ActSource) : Option Ready :=
  let k := s.core c
  match src with
  | .message ch i =>
    match (k.chan ch).msgs[i]?, (s.unheld c ch).find? EndMsg.isClass with
    | some m, some first =>
      if (k.chan ch).receives && decide (m = first) then
        match m.bind, s.messageTask c m with
        | .cls n, some t =>
          let h := m.msg.header ch
          some { blankReady s.fresh .message n (k.cls n).priority m.msg.key (some t) with
                 s1 := h, s2 := BitVec.ofNat 64 (8 * m.msg.words.length), s3 := BitVec.ofNat 64 m.msg.src.t,
                 msg := some { ch := ch, id := m.msg.id }, hdr := h, sender := m.msg.src.tile }
        | _, _ => none
      else none
    | _, _ => none
  | .entry n =>
    let e := k.entry n
    match e.owner with
    | none => none
    | some t =>
      if e.armed && decide (e.thr.toNat ≤ e.counter.toNat) then
        let tt := if e.join then e.child t else t
        let key : Key := if e.join then ⟨tt.l, tt.path, 0⟩ else ⟨t.l, t.path, e.seq⟩
        some { blankReady s.fresh (if e.join then .join else .counter) e.cls (k.cls e.cls).priority key (some tt) with
               s1 := BitVec.ofNat 64 n, s2 := e.arg, s3 := e.counter.setWidth 64, entry := BitVec.ofNat 8 n }
      else none
  | .waiting i =>
    match k.waiting[i]? with
    | none => none
    | some w =>
      if w.release.isSome then none
      else some { blankReady s.fresh w.kind w.cls (if w.addr.isSome then 7 else (k.cls w.cls).priority) w.key (some w.tt) with
                  s1 := w.s1, s2 := w.s2, s3 := w.s3, addr := w.addr }
  | .fibre n =>
    match k.fibres.get? n with
    | none => none
    | some f =>
      match f.ctx.task with
      | none => none
      | some t =>
        if f.resumed && !f.ready then
          some { blankReady t.uid t.kind t.cls (k.cls t.cls).priority t.key t.tt with fibre := some n, entry := t.entry }
        else none

/-- The handler's declarations that an activation must meet (05 R150); none for an upcall, whose handler is fixed, or for a resumed fibre. -/
def State.needs (s : State) (c : CoreId) (r : Ready) : List ObjRate :=
  if r.addr.isSome || r.fibre.isSome then [] else s.rates c ((s.core c).cls r.cls)

/-- Credits of a send end that tasks have reserved (05 R150). -/
def Core.reservedCredits (k : Core) (ch : Nat) : Nat :=
  sumOf (k.resv.map fun r => sumOf ((r.credits.filter fun x => x.1 = ch).map fun x => x.2))

/-- Whether one declaration is met (05 R150, 06 R185). -/
def State.meets (s : State) (c : CoreId) (d : ObjRate) : Bool :=
  let q := (s.tile c.tile).queue d.num
  if d.isChan then
    let x := (s.core c).chan d.num
    (!x.receives || decide (d.consume ≤ (s.unheld c d.num).length)) &&
    (decide (x.kind ≠ .send) || decide ((s.core c).reservedCredits d.num + 17 * d.produce ≤ x.credits))
  else
    (!(readers d.num).contains c.r || decide (d.consume ≤ (q.entries.filter fun e => e.owner.isNone).length)) &&
    (!(writers d.num).contains c.r || s.hasRoom c.tile d.num 0 d.produce)

/-- Earmarks the n oldest entries of a queue that are earmarked to no task (05 R150). -/
def earmark (uid : Nat) : Nat → List QEntry → List QEntry
  | _, [] => []
  | 0, l => l
  | n + 1, e :: r => if e.owner.isNone then { e with owner := some uid } :: earmark uid n r else e :: earmark uid (n + 1) r

/-- Gives messages of a receive end to an activation. -/
def Chan.hold (x : Chan) (uid : Nat) (ids : List Nat) : Chan :=
  { x with msgs := x.msgs.map fun (m : EndMsg) => if ids.contains m.msg.id then { m with holder := some uid } else m }

/-- Reserves what one declaration asks for, for an activation (05 R150, 06 R185). -/
def State.reserve (s : State) (c : CoreId) (r : Ready) (d : ObjRate) : State :=
  if d.isChan then
    if ((s.core c).chan d.num).receives then
      let own : Bool := match r.msg with
        | some m => decide (m.ch = d.num)
        | none => false
      let n := if own then d.consume - 1 else d.consume
      s.modChan c d.num fun x => x.hold r.uid (((s.unheld c d.num).take n).map fun m => m.msg.id)
    else s
  else if (readers d.num).contains c.r then s.modQueue c.tile d.num fun q => { q with entries := earmark r.uid d.consume q.entries }
  else s

/-- The room of written queues and of send ends that an activation reserves (05 R150). -/
def State.resvOf (s : State) (c : CoreId) (r : Ready) : Resv :=
  let ds := s.needs c r
  { uid := r.uid,
    rooms := (ds.filter fun d => !d.isChan && (writers d.num).contains c.r).map fun (d : ObjRate) => (d.num, d.produce),
    credits := (ds.filter fun d => d.isChan && decide (((s.core c).chan d.num).kind = .send)).map fun (d : ObjRate) => (d.num, 17 * d.produce) }

/-- Whether due activations of a core enter its run queue: its tile's state stands in a frame (05 R149). -/
def State.enters (s : State) (c : CoreId) : Bool :=
  decide (c.r ≠ .steward) && (s.launches.get? c.l).isSome && s.homeServes (.tile c.tile)

/-- Whether a core may start activations: its tile resident, no close of its zone due, no gang offer and no gang it follows
(08 R264, R266; 15 R433; 16 R446). DEDUCED, log 16: activations go on entering its run queue meanwhile, while there is room. -/
def State.activates (s : State) (c : CoreId) : Bool :=
  decide (c.r ≠ .steward) && (s.launches.get? c.l).isSome && s.resident c.tile && (s.core c).offer.isNone && (s.core c).follows.isNone &&
  (match s.zoneOf c.tile with
   | none => true
   | some z => !(s.zone z).asked)

/-- The sources of a core that may offer something. -/
def State.sources (s : State) (c : CoreId) : List ActSource :=
  let k := s.core c
  ((List.range k.waiting.length).map fun i => ActSource.waiting i) ++ (k.fibres.keys.map fun n => ActSource.fibre n) ++
  (k.chans.flatMap fun (x : Nat × Chan) => (List.range x.2.msgs.length).map fun i => ActSource.message x.1 i) ++
  (k.wtt.keys.map fun n => ActSource.entry n)

/-- Whether an entry comes before another of the same priority by the tie rule of ordered mode (05 R154). -/
def State.tieBefore (s : State) (c : CoreId) (a b : Ready) : Bool := !(s.core c).free && s.keyBefore a.key b.key

/-- The activations of a core that could enter now, with their sources. -/
def State.dueList (s : State) (c : CoreId) : List (ActSource × Ready) :=
  if s.enters c && decide ((s.core c).runq.length < 64) then
    (s.sources c).filterMap fun x =>
      match s.offers c x with
      | none => none
      | some r => if (s.needs c r).all fun d => s.meets c d then some (x, r) else none
  else []

/-- The activation of a source, when it may enter now and none that may comes before it (05 R156). -/
def State.entering (s : State) (c : CoreId) (src : ActSource) : Option Ready :=
  let l := s.dueList c
  match l.find? fun x => decide (x.1 = src) with
  | none => none
  | some (_, r) => if l.any fun x => decide (r.prio < x.2.prio) || (decide (x.2.prio = r.prio) && s.tieBefore c x.2 r) then none else some r

/-- Takes an activation from its source (05 R149, R160). -/
def State.consume (s : State) (c : CoreId) (src : ActSource) (r : Ready) : State :=
  match src with
  | .message ch _ => s.modChan c ch fun x => x.hold r.uid ((r.msg.map MsgRef.id).toList)
  | .entry n =>
    let e := (s.core c).entry n
    let s := s.modEntry c n fun e => { e with counter := e.counter - e.thr, armed := false }
    match e.join, e.owner, r.tt with
    | true, some t, some tt =>
      let old := (s.tts.get? t).getD (TileTask.init 0 0 c.tile)
      s.newTT tt (TileTask.init old.index old.node c.tile)
    | _, _, _ => s
  | .waiting i => s.modCore c fun k => { k with waiting := k.waiting.eraseIdx i }
  | .fibre n => s.modCore c fun k => { k with fibres := k.fibres.map fun (x : Nat × Fibre) => if x.1 = n then (x.1, { x.2 with ready := true }) else x }

/-- Enters a ready entry (05 R149, R150): the activation leaves its source, its room is reserved, the entry is appended. -/
def State.enterReady (s : State) (c : CoreId) (src : ActSource) (r : Ready) : State :=
  let ds := s.needs c r
  let resv := s.resvOf c r
  let s := { s with fresh := s.fresh + 1 }
  let s := ds.foldl (fun s d => s.reserve c r d) (s.consume c src r)
  s.modCore c fun k =>
    { k with runq := k.runq ++ [r], resv := if resv.rooms.isEmpty && resv.credits.isEmpty then k.resv else k.resv ++ [resv] }

/-- ACTIVATION_ENTER (05 R149, R150). -/
def execActivationEnter (c : CoreId) (src : ActSource) (s : State) : Outcome :=
  match s.entering c src with
  | none => .next s
  | some r => .next (s.enterReady c src r)

/-- Enters the first of a core's waiting activations that is due (05 R143, 15 R428). -/
def State.enterWaiting (s : State) (c : CoreId) : State :=
  match (s.sources c).findSome? fun x => match x with
    | .waiting _ => ((s.offers c x).filter fun r => decide ((s.core c).runq.length < 64) && (s.needs c r).all fun d => s.meets c d).map fun r => (x, r)
    | _ => none with
  | none => s
  | some (x, r) => s.enterReady c x r

/-! ### Starting tasks (05 R154, R155, R525; 12 R361; 14 R415) -/

/-- Whether a ready entry comes before another (05 R154); list order, the order of entry, decides what is left. -/
def State.readyBefore (s : State) (c : CoreId) (a b : Ready) : Bool :=
  decide (b.eff < a.eff) || (decide (a.eff = b.eff) && s.tieBefore c a b)

/-- Whether a start of the entry keeps to 12 R361: in ordered mode a task that is not of the front leaves a context that is free or runs one of the front. -/
def State.leavesFront (s : State) (c : CoreId) (r : Ready) : Bool :=
  let f := s.front c.l
  (s.core c).free || decide (r.tt = f) ||
  decide (2 ≤ ((List.range 4).filter fun i => decide ((s.ctx ⟨c, i⟩).phase = .free)).length) ||
  (List.range 4).any fun i => decide ((s.ctx ⟨c, i⟩).phase ≠ .free) && f.isSome && decide (((s.ctx ⟨c, i⟩).task.bind Task.tt) = f)

/-- The ready entry that a core starts next. -/
def State.nextReady (s : State) (c : CoreId) : Option Ready :=
  ((s.core c).runq.filter fun r => s.leavesFront c r).foldl (fun best r =>
    match best with
    | none => some r
    | some b => if s.readyBefore c r b then some r else some b) none

/-- Ageing of the entries that did not start (05 R155). -/
def Ready.aged (r : Ready) (e : Nat) : Ready :=
  if r.eff < e then (if r.pass = 63 then { r with eff := min (r.eff + 1) 7, pass := 0 } else { r with pass := r.pass + 1 }) else r

/-- The lowest free context of a core. -/
def State.freeCtx (s : State) (c : CoreId) : Option CtxId :=
  ((List.range 4).map fun i => (⟨c, i⟩ : CtxId)).find? fun id => decide ((s.ctx id).phase = .free)

/-- A context with the words of Table 4.1 at an activation (04 R109, 07 R214). -/
def State.freshCtx (s : State) (c : CoreId) : Ctx :=
  let k := s.core c
  { Ctx.init with phase := .run, uvec := k.uvec, seed := ((s.launches.get? c.l).map Launch.seed).getD 0,
                  segs := (List.range 16).foldl (fun v n => v.setIfInBounds n (k.binds.getD n { base := 0, limit := 0 })) Ctx.init.segs }

/-- The context in which a ready entry's task begins (05 R141). -/
def State.startCtx (s : State) (c : CoreId) (r : Ready) : Ctx :=
  let k := s.core c
  { s.freshCtx c with
    regs := ((Ctx.init.regs.setIfInBounds 1 r.s1).setIfInBounds 2 r.s2).setIfInBounds 3 r.s3,
    pc := r.addr.getD (k.cls r.cls).handler,
    task := some { uid := r.uid, kind := r.kind, cls := r.cls, entry := r.entry, tt := r.tt, key := r.key, msg := r.msg, hdr := r.hdr,
                   sender := r.sender, prof := k.prof } }

/-- Starts a ready entry in a context. -/
def State.startIn (s : State) (id : CtxId) (r : Ready) : State :=
  let c := id.core
  match r.fibre with
  | some n =>
    match (s.core c).fibres.get? n with
    | none => s
    | some f =>
      let s := (s.setCtx id { f.ctx with phase := .run, waited := 0, asked := none }).modCore c fun k => { k with fibres := k.fibres.erase n }
      if f.failed then s.takeTrap id causePage false f.ctx.pc f.va else s
  | none =>
    let s := (match r.tt with
      | none => s
      | some t => s.modTT t fun x => { x with ran := true }).setCtx id (s.startCtx c r)
    if r.addr.isNone && !((s.core c).cls r.cls).valid then
      (s.modCtx id fun x => { x with pc := 0 }).takeTrap id causeProt false 0 (BitVec.ofNat 64 (0xC00 + r.cls))
    else s

/-- TASK_START (05 R154). A write of the profile mask takes effect here (17 R489, 02 R64); a kernel notice comes first (14 R421). -/
def execTaskStart (c : CoreId) (s : State) : Outcome :=
  match s.freeCtx c, s.nextReady c with
  | some id, some r =>
    event s (s.activates c && (s.core c).notices.isEmpty)
      ((s.modCore c fun k =>
        { k with runq := (k.runq.erase r).map fun x => x.aged r.eff, prof := k.profNew.getD k.prof, profNew := none }).startIn id r)
  | _, _ => .next s

/-- START_RELEASE (16 R458): the start activations of a launch's tiles in a power group whose cycle has come. -/
def execStartRelease (l pg : Nat) (s : State) : Outcome :=
  .next (s.cores.keys.foldl (fun s c =>
    if c.l = l ∧ ((s.zoneOf c.tile).map powerOf) = some pg then
      s.modCore c fun k => { k with waiting := k.waiting.map fun (w : Waiting) =>
        match w.release with
        | none => w
        | some t => if t ≤ s.cycle then { w with release := none } else w }
    else s) s)

/-! ### Waits (05 R151, R152; 07 R227; 09 R273) -/

/-- The tiles whose queues a context's unit uses: its own, and its followers'. -/
def State.tilesOf (s : State) (id : CtxId) : List TileId := id.core.tile :: (((s.ctx id).gang.map Gang.members).getD [])

/-- The uid of the task of a context. -/
def State.uidOf (s : State) (id : CtxId) : Nat := ((s.ctx id).task.map Task.uid).getD 0

/-- Whether what a wait lacks is there (05 R151). -/
def State.waitOver (s : State) (id : CtxId) : Wait → Bool
  | .emptyQueue q n => (s.tilesOf id).all fun t => ((s.tile t).queue q).has (s.uidOf id) n
  | .fullQueue q n => (s.tilesOf id).all fun t => s.hasRoom t q (s.uidOf id) n
  | .convert q n p m =>
    ((s.tile id.core.tile).queue q).has (s.uidOf id) n && (m == 0 || s.hasRoom id.core.tile p (s.uidOf id) m)

/-- WAIT_CLEAR (05 R151): the held unit issues again. An ldsync goes on when its reply comes (READ_REPLY). -/
def execWaitClear (id : CtxId) (s : State) : Outcome :=
  match (s.ctx id).phase with
  | .held w => event s (s.waitOver id w) (s.modCtx id fun c => { c with phase := .run })
  | _ => .next s

/-- Withdraws a held or travelling ldsync (07 R227): the own home forgets it, another home is sent a cancel. -/
def State.withdraw (s : State) (id : CtxId) (req : Nat) : State :=
  let b : Issuer := { core := id.core, ctx := id.c, uid := s.uidOf id, tt := (s.ctx id).task.bind Task.tt, engine := false, sys := decide ((s.ctx id).level ≠ 0),
                      tag := (s.core id.core).ptag }
  let own : Home := .tile id.core.tile
  let away := s.homes.keys.filterMap fun h =>
    match h with
    | .tile t => if t ≠ id.core.tile ∧ ((s.home h).syncs.any fun y => decide (y.id = req)) then some t else none
    | _ => none
  let moving := s.net.filterMap fun f =>
    match f.pkt with
    | .read (.tile t _) _ _ i _ _ _ => if i = req then some t else none
    | _ => none
  (away ++ moving).foldl (fun s t => s.send (some id.core) (some t) (.cancel t b req))
    (s.modHome own fun x => { x with syncs := x.syncs.filter fun y => y.id ≠ req })

/-- The request of an ldsync that waits. -/
def Ctx.syncing (c : Ctx) : Option Nat :=
  match c.phase with
  | .busy id _ _ _ true _ => some id
  | _ => none

/-- Gives up the wait of a context, if it is in one. -/
def State.abandon (s : State) (id : CtxId) : State :=
  match (s.ctx id).syncing with
  | none => s
  | some req => s.withdraw id req

/-- The kind and queue of a wait that LONG reports (05 R152, 09 R273). -/
def State.waitWord (s : State) (id : CtxId) : Wait → Word
  | .emptyQueue q _ => BitVec.ofNat 64 (q * 256 + 1)
  | .fullQueue q _ => BitVec.ofNat 64 (q * 256 + 2)
  | .convert q n p _ =>
    if ((s.tile id.core.tile).queue q).has (s.uidOf id) n then BitVec.ofNat 64 (p * 256 + 2) else BitVec.ofNat 64 (q * 256 + 1)

/-- The wait of a context as LONG reports it. -/
def State.longWord (s : State) (id : CtxId) : Option Word :=
  match (s.ctx id).phase with
  | .held w => some (s.waitWord id w)
  | .busy _ _ _ _ true _ => some 3
  | _ => none

/-- Whether a context runs the kernel's handler of the LONG kind 4 that its kept copy belongs to. -/
def State.inOverrun (s : State) (id : CtxId) : Bool :=
  let c := s.ctx id
  c.kbank.tnest && decide (c.kbank.code = causeLong) && decide (c.kbank.tval = 4) &&
  (match (s.core id.core).overruns.get? id.c with
   | none => false
   | some o => decide (o.task.map Task.uid = c.task.map Task.uid))

/-- Whether a fold's or a close's cw.wdog cycles have run out for a context (05 R153, 16 R446). -/
def State.overrunDue (s : State) (id : CtxId) : Bool :=
  match (s.ctx id).asked with
  | none => false
  | some t => !(s.ctx id).isNotice && !s.inOverrun id && decide (t + (s.core id.core).wdog.toNat ≤ s.cycle)

/-- Whether the wait of a context has lasted cw.wdog + 1 cycles (05 R152). -/
def State.longDue (s : State) (id : CtxId) : Bool := (s.longWord id).isSome && decide ((s.core id.core).wdog.toNat + 1 ≤ (s.ctx id).waited)

/-- LONG (05 R152): the count has reached cw.wdog + 1. -/
def execLong (id : CtxId) (s : State) : Outcome :=
  match s.longWord id with
  | none => .next s
  | some w =>
    event s (s.longDue id)
      ((s.abandon id).takeTrap id causeLong false (s.ctx id).pc w)

/-! ### Traps and interrupts at a boundary (05 R153, R163; 14 R420, R421) -/

/-- Whether a context stands at a unit boundary: it could issue, or its unit is held by a wait. -/
def Ctx.atBoundary (c : Ctx) : Bool :=
  match c.phase with
  | .run => true
  | .held _ => true
  | .busy _ _ _ _ true _ => true
  | .stall .retry => true
  | _ => false

/-- The pending asynchronous trap with the lowest cause code (14 R420). -/
def Ctx.nextAsync (c : Ctx) : Option Async := minBy (fun a => a.code.toNat) c.asyncs

/-- ASYNC_TRAP_TAKE (14 R420): a wait is abandoned, the count returns to 0. -/
def execAsyncTrapTake (id : CtxId) (s : State) : Outcome :=
  let c := s.ctx id
  match c.nextAsync with
  | none => .next s
  | some a =>
    event s (asyncDue c && c.atBoundary)
      (((s.abandon id).modCtx id fun x => { x with asyncs := x.asyncs.erase a }).takeTrap id a.code true c.pc a.tval)

/-- The lowest pending source (05 R163). -/
def Ctx.nextSource (c : Ctx) : Nat := ((List.range 16).find? fun n => c.pending.getLsbD n).getD 0

/-- Enters the user-interrupt handler (05 R163, R152). -/
def Ctx.interrupted (c : Ctx) : Ctx :=
  let n := c.nextSource
  { c with phase := .run, waited := 0, pending := c.pending &&& ~~~((1 : BitVec 16) <<< n), upc := c.pc, uloop := c.loop,
           loop := { c.loop with active := false }, uih := true, pc := c.uvec + BitVec.ofNat 64 (64 * n) }

/-- USER_INTERRUPT_ENTRY (05 R163): no trap is due at the boundary, neither LONG nor an asynchronous one; the traps of the unit about to issue are tested by
boundary, in Step. -/
def execUserInterruptEntry (id : CtxId) (s : State) : Outcome :=
  let c := s.ctx id
  event s (interruptDue c && !asyncDue c && !s.longDue id && !s.overrunDue id && c.atBoundary) ((s.abandon id).modCtx id Ctx.interrupted)

/-- A kernel-notice context (14 R421). -/
def State.noticeCtx (s : State) (c : CoreId) (a : Async) : Ctx :=
  let k := s.core c
  { s.freshCtx c with
    level := 1, kbank := Bank.init.enter a.code true 0 a.tval 0, pc := k.tvecK,
    task := some { uid := s.fresh, kind := .notice, cls := 0, entry := 0xFF, tt := none, key := ⟨c.l, [0], 0⟩, msg := none, hdr := 0,
                   sender := c.tile, prof := k.prof } }

/-- Takes a notice in a free context; with no kernel entry it is a double trap (18 R512). -/
def State.noticeIn (s : State) (id : CtxId) (a : Async) : State :=
  let s := { s.setCtx id (s.noticeCtx id.core a) with fresh := s.fresh + 1 }
  if (s.core id.core).tvecK = 0 then
    (s.modCtx id fun c => { c with phase := .dead }).logError (s.partOf id.core) (.doubleTrap id 0 a.code)
  else s

/-- The lowest context of a core that is held in a wait and can take a trap (14 R420, R421). -/
def State.waitingCtx (s : State) (c : CoreId) : Option CtxId :=
  ((List.range 4).map fun i => (⟨c, i⟩ : CtxId)).find? fun id =>
    (s.longWord id).isSome && !(s.ctx id).kbank.tnest && !(s.ctx id).hbank.tnest

/-- KERNEL_NOTICE (14 R421): a follower of a gang fetches nothing (08 R264), so that its notice waits until the gang disbands. -/
def execKernelNotice (c : CoreId) (s : State) : Outcome :=
  match minBy (fun (a : Async) => a.code.toNat) (s.core c).notices with
  | none => .next s
  | some a =>
    let t := s.modCore c fun k => { k with notices := k.notices.erase a }
    match s.freeCtx c, s.waitingCtx c with
    | some id, _ => event s (s.resident c.tile && (s.core c).follows.isNone) (t.noticeIn id a)
    | none, some id => event s (s.resident c.tile && (s.core c).follows.isNone) ((t.abandon id).takeTrap id a.code true (s.ctx id).pc a.tval)
    | none, none => .next s

/-! ### The passing of a cycle -/

/-- A cycle in a wait is counted (05 R152); a unit held for a place is issued again. -/
def Ctx.tick (c : Ctx) : Ctx :=
  match c.phase with
  | .held _ => { c with waited := c.waited + 1 }
  | .busy _ _ _ _ true _ => { c with waited := c.waited + 1 }
  | .stall .retry => { c with phase := .run }
  | _ => c

/-- Whether a context whose tile task has been voided stands where its task ends (12 R369): at a unit boundary, double-trapped, or saved. -/
def Ctx.endsNow (c : Ctx) : Bool := c.ends && (c.atBoundary || decide (c.phase = .dead) || decide (c.phase = .saved))

/-- Ends the tasks of voided tile tasks that stand at a unit boundary, their flags discarded (12 R369). -/
def State.endVoided (s : State) : State :=
  s.ctxs.keys.foldl (fun s id => if (s.ctx id).endsNow then (s.abandon id).endIn id false else s) s

/-- A cycle passes: the increments that follow its units are applied (05 R147), tasks of voided tile tasks end (12 R369), every context held by a wait counts it,
every core may issue again, the wafer slot counter advances (17 R486), a filled bank of a die's retirement log is compacted (18 R496). -/
def State.tick (s : State) : State :=
  let s := s.applyLater.endVoided
  { s with cycle := s.cycle + 1, issued := [], ctxs := s.ctxs.map fun e => (e.1, e.2.tick), slotTime := s.slotTime + 1,
           dies := s.dies.map fun (d : Nat × Die) => (d.1, d.2.compactFull d.1) }

/-! ### Tile tasks (05 R144, R157; 12 R359, R360) -/

/-- Whether anything of a tile task runs, is suspended, ready, waiting or armed on a core (05 R144). -/
def State.activeOn (s : State) (c : CoreId) (tt : TTId) : Bool :=
  let k := s.core c
  ((List.range 4).any fun i => decide (((s.ctx ⟨c, i⟩).task.bind Task.tt) = some tt)) ||
  (k.fibres.any fun x => decide ((x.2.ctx.task.bind Task.tt) = some tt)) ||
  (k.runq.any fun r => decide (r.tt = some tt)) || (k.waiting.any fun w => decide (w.tt = tt)) ||
  (k.wtt.any fun e => e.2.armed && decide (e.2.owner = some tt)) ||
  (k.chans.any fun x => x.2.msgs.any fun m => m.holder.isNone && decide (s.messageTask c m = some tt))

/-- Whether an activation of a tile task is on its way: its spawn, or a message of it to its own tile. -/
def State.arriving (s : State) (tt : TTId) (t : TileId) : Bool :=
  s.net.any fun f => match f.pkt with
    | .spawn _ w _ => decide (w.tt = tt)
    | .message d m => decide (m.tt = some tt) && decide (d.tile = t)
    | _ => false

/-- Whether a tile task has nothing left to run (05 R144). -/
def State.finished (s : State) (tt : TTId) (x : TileTask) : Bool :=
  !s.arriving tt x.tile && !([Role.mc, .fc, .ac].any fun r => s.activeOn (x.tile.core r) tt)

/-- The unacknowledged device-set writes of a tile task: its completion's increment stays behind them (11 R340). -/
def State.writesOf (s : State) (tt : TTId) : List Nat :=
  (s.posted.filter fun p => decide (p.by_.tt = some tt) && Home.isDevice p.home).map Posted.wid

/-- TILE_TASK_COMPLETE (05 R144): once, it reports to its join entry (05 R157). -/
def execTileTaskComplete (tt : TTId) (s : State) : Outcome :=
  match s.tts.get? tt with
  | none => .next s
  | some x =>
    event s (!x.done && s.finished tt x)
      (let s' := s.modTT tt fun y => { y with done := true, report := none }
       match x.report with
       | none => s'
       | some (c, e) => s'.sendSt (some (x.tile.core .mc)) (some c.tile) (.increment c e) (.queued (s.writesOf tt)))

/-- Whether every effect of a tile task has been acknowledged and its engines and arrays are done (12 R359, 11 R334). -/
def State.settled (s : State) (tt : TTId) : Bool :=
  !(s.posted.any fun p => decide (p.by_.tt = some tt)) && !(s.xfers.any fun x => decide (x.by_.tt = some tt)) &&
  !(s.tiles.any fun t => t.2.ops.any fun o => decide (o.by_.tt = some tt)) &&
  !(s.net.any fun f => match f.pkt with
    | .effect _ e => decide (e.by_.tt = some tt)
    | _ => false) &&
  !(s.homes.any fun h => h.2.held.any fun e => e.wid.isSome && decide (e.by_.tt = some tt))

/-- Whether a tile task is to retire again after a mending (16 R454). -/
def State.rerunning (s : State) (tt : TTId) : Bool := s.zones.any fun z => z.2.rerun.contains tt

/-- TILE_TASK_RETIRE (12 R359): completed, run or voided, every effect acknowledged; a re-run one leaves the mending fronts (16 R454). -/
def execTileTaskRetire (tt : TTId) (s : State) : Outcome :=
  match s.tts.get? tt with
  | none => .next s
  | some x =>
    event s ((!x.retired || s.rerunning tt) && x.done && (x.ran || x.voided) && s.settled tt)
      ({ s with zones := s.zones.map fun (z : Nat × Zone) => (z.1, { z.2 with rerun := z.2.rerun.filter fun t => t ≠ tt }) }.modTT tt fun y =>
        { y with retired := true })

/-- FRONT_ADVANCE (12 R360, R364): a home applies what has become eligible, in commit order, and serves and acknowledges what that frees. -/
def execFrontAdvance (h : Home) (s : State) : Outcome :=
  let n := (s.home h).held.length
  .next (if n = 0 then s else s.catchUp h)

/-- GJOIN_OFFER_READY (08 R266): no task runs on the AC. -/
def execGjoinOfferReady (c : CoreId) (s : State) : Outcome :=
  match (s.core c).offer with
  | none => .next s
  | some o =>
    event s (!o.ready && s.resident c.tile && (List.range 4).all fun i => decide ((s.ctx ⟨c, i⟩).phase = .free))
      (let s' := s.modCore c fun k => { k with offer := some { o with ready := true } }
       let leader : CoreId := ⟨c.l, c.t - (c.t % s.gridX c.l) % o.size, .ac⟩
       if o.notify then s'.sendIncr (some c) leader o.entry else s')

/-! ### Units that give no instruction (02 R40, R47, R56, R60) -/

/-- Whether bits are those of an stq of a queue other than FM0: the form stands, the queue is the wrong one for its direction (07 R232, 02 R51). -/
def stqElsewhere (bits : Word) : Bool :=
  let n := (bits.extractLsb' 19 6).toNat
  decide (bits.extractLsb' 0 8 = 0x65) && decide (bits.extractLsb' 30 2 = 1) && !bits.getLsbD 25 && decide (1 ≤ n ∧ n ≤ 16) &&
  decide ((bits.extractLsb' 13 6).toNat < 5)

/-- ILLEGAL (02 R56, R60, R61): traps ILLEGAL with the unit's bits; ROLE for an stq of another queue than FM0 (07 R232). -/
def execIllegal (bits : Word) (s : State) : Outcome :=
  .next ({ s with trapped := none }.trap (if stqElsewhere bits then causeRole else causeIllegal) bits)

/-- FETCH_PROT (02 R40): traps PROT with the fetch address. -/
def execFetchProt (addr : Word) (s : State) : Outcome := .next ({ s with trapped := none }.trap causeProt addr)

end Sys2Proof.Machine
end

