-- ==== Sys2Proof/Machine/Alu.lean ====
section
/-! DEFINITION. The base instructions of majors 0x01 to 0x10 (04 R122 to R136) and their compact forms (02 R58, Table 2.11). -/

namespace Sys2Proof.Machine

/-! ### Integer, logic and compare (04 R123 to R125) -/

/-- mulh: the high half of the signed product (04 Table 4.5). -/
def mulHigh (a b : Word) : Word := BitVec.ofInt 64 ((a.toInt * b.toInt) / 18446744073709551616)

/-- mulhn: the high half of the unsigned product (04 Table 4.5). -/
def mulHighN (a b : Word) : Word := BitVec.ofNat 64 (a.toNat * b.toNat / 18446744073709551616)

/-- Signed quotient, toward zero; by zero all ones (04 R125). -/
def divS (a b : Word) : Word := if b = 0 then BitVec.allOnes 64 else BitVec.ofInt 64 (a.toInt.tdiv b.toInt)

/-- Unsigned quotient; by zero all ones (04 R125). -/
def divU (a b : Word) : Word := if b = 0 then BitVec.allOnes 64 else BitVec.ofNat 64 (a.toNat / b.toNat)

/-- Signed remainder, of the dividend's sign; by zero the dividend (04 R125). -/
def remS (a b : Word) : Word := if b = 0 then a else BitVec.ofInt 64 (a.toInt.tmod b.toInt)

/-- Unsigned remainder; by zero the dividend (04 R125). -/
def remU (a b : Word) : Word := if b = 0 then a else BitVec.ofNat 64 (a.toNat % b.toNat)

/-- shl of a w-bit value by n, never reduced (04 R124). -/
def shiftL {w : Nat} (a : BitVec w) (n : Nat) : BitVec w := if w ≤ n then 0 else a <<< n

/-- shr of a w-bit value by n, never reduced (04 R124). -/
def shiftR {w : Nat} (a : BitVec w) (n : Nat) : BitVec w := if w ≤ n then 0 else a >>> n

/-- sha of a w-bit value by n, never reduced (04 R124). -/
def shiftA {w : Nat} (a : BitVec w) (n : Nat) : BitVec w := if w ≤ n then (if a.msb then BitVec.allOnes w else 0) else a.sshiftRight n

/-- Leading zero bits among the low n bits of a. -/
def leadingZeros : Nat → Nat → Nat
  | 0, _ => 0
  | n + 1, a => if a.testBit n then 0 else leadingZeros n a + 1

/-- Trailing zero bits among bits i to i + n - 1 of a. -/
def trailingZeros : Nat → Nat → Nat → Nat
  | 0, _, _ => 0
  | n + 1, i, a => if a.testBit i then 0 else trailingZeros n (i + 1) a + 1

/-- One bits among the low n bits of a. -/
def oneBits : Nat → Nat → Nat
  | 0, _ => 0
  | n + 1, a => oneBits n a + (if a.testBit n then 1 else 0)

/-- clz (04 Table 4.5). -/
def clz64 (a : Word) : Word := BitVec.ofNat 64 (leadingZeros 64 a.toNat)
/-- ctz (04 Table 4.5). -/
def ctz64 (a : Word) : Word := BitVec.ofNat 64 (trailingZeros 64 0 a.toNat)
/-- popc (04 Table 4.5). -/
def popc64 (a : Word) : Word := BitVec.ofNat 64 (oneBits 64 a.toNat)

/-- A condition as 1 or 0. -/
def flagWord (b : Bool) : Word := if b then 1 else 0

def minS (a b : Word) : Word := if a.toInt ≤ b.toInt then a else b
def maxS (a b : Word) : Word := if a.toInt ≤ b.toInt then b else a
def minU (a b : Word) : Word := if a.toNat ≤ b.toNat then a else b
def maxU (a b : Word) : Word := if a.toNat ≤ b.toNat then b else a

/-- ADD (04 R123). -/
def execAdd (b a d : BitVec 5) (s : State) : Outcome := regReg (formAdd b a d) d a b (fun x y => x + y) s
/-- SUB (04 R123). -/
def execSub (b a d : BitVec 5) (s : State) : Outcome := regReg (formSub b a d) d a b (fun x y => x - y) s
/-- MUL (04 R123). -/
def execMul (b a d : BitVec 5) (s : State) : Outcome := regReg (formMul b a d) d a b (fun x y => x * y) s
/-- MULH (04 R123). -/
def execMulh (b a d : BitVec 5) (s : State) : Outcome := regReg (formMulh b a d) d a b mulHigh s
/-- MULHN (04 R123). -/
def execMulhn (b a d : BitVec 5) (s : State) : Outcome := regReg (formMulhn b a d) d a b mulHighN s
/-- DIV (04 R125). -/
def execDiv (b a d : BitVec 5) (s : State) : Outcome := regReg (formDiv b a d) d a b divS s
/-- DIVN (04 R125). -/
def execDivn (b a d : BitVec 5) (s : State) : Outcome := regReg (formDivn b a d) d a b divU s
/-- REM (04 R125). -/
def execRem (b a d : BitVec 5) (s : State) : Outcome := regReg (formRem b a d) d a b remS s
/-- REMN (04 R125). -/
def execRemn (b a d : BitVec 5) (s : State) : Outcome := regReg (formRemn b a d) d a b remU s
/-- MIN (04 R123). -/
def execMin (b a d : BitVec 5) (s : State) : Outcome := regReg (formMin b a d) d a b minS s
/-- MAX (04 R123). -/
def execMax (b a d : BitVec 5) (s : State) : Outcome := regReg (formMax b a d) d a b maxS s
/-- MINN (04 R123). -/
def execMinn (b a d : BitVec 5) (s : State) : Outcome := regReg (formMinn b a d) d a b minU s
/-- MAXN (04 R123). -/
def execMaxn (b a d : BitVec 5) (s : State) : Outcome := regReg (formMaxn b a d) d a b maxU s
/-- AND (04 R123). -/
def execAnd (b a d : BitVec 5) (s : State) : Outcome := regReg (formAnd b a d) d a b (fun x y => x &&& y) s
/-- OR (04 R123). -/
def execOr (b a d : BitVec 5) (s : State) : Outcome := regReg (formOr b a d) d a b (fun x y => x ||| y) s
/-- XOR (04 R123). -/
def execXor (b a d : BitVec 5) (s : State) : Outcome := regReg (formXor b a d) d a b (fun x y => x ^^^ y) s
/-- ANDN (04 R123). -/
def execAndn (b a d : BitVec 5) (s : State) : Outcome := regReg (formAndn b a d) d a b (fun x y => x &&& ~~~y) s
/-- SHL (04 R124). -/
def execShl (b a d : BitVec 5) (s : State) : Outcome := regReg (formShl b a d) d a b (fun x y => shiftL x y.toNat) s
/-- SHR (04 R124). -/
def execShr (b a d : BitVec 5) (s : State) : Outcome := regReg (formShr b a d) d a b (fun x y => shiftR x y.toNat) s
/-- SHA (04 R124). -/
def execSha (b a d : BitVec 5) (s : State) : Outcome := regReg (formSha b a d) d a b (fun x y => shiftA x y.toNat) s
/-- ROTL (04 R123). -/
def execRotl (b a d : BitVec 5) (s : State) : Outcome := regReg (formRotl b a d) d a b (fun x y => x.rotateLeft (y.toNat % 64)) s
/-- CLZ (04 R123). -/
def execClz (a d : BitVec 5) (s : State) : Outcome := regOne (formClz a d) d a clz64 s
/-- CTZ (04 R123). -/
def execCtz (a d : BitVec 5) (s : State) : Outcome := regOne (formCtz a d) d a ctz64 s
/-- POPC (04 R123). -/
def execPopc (a d : BitVec 5) (s : State) : Outcome := regOne (formPopc a d) d a popc64 s
/-- SEQ (04 R123). -/
def execSeq (b a d : BitVec 5) (s : State) : Outcome := regReg (formSeq b a d) d a b (fun x y => flagWord (x == y)) s
/-- SLT (04 R123). -/
def execSlt (b a d : BitVec 5) (s : State) : Outcome := regReg (formSlt b a d) d a b (fun x y => flagWord (x.slt y)) s
/-- SLTN (04 R123). -/
def execSltn (b a d : BitVec 5) (s : State) : Outcome := regReg (formSltn b a d) d a b (fun x y => flagWord (x.ult y)) s

/-! ### Packed forms (04 R126) -/

/-- The sub-elements of width w of two words, combined one by one; k of them. -/
def packed (w : Nat) (g : BitVec w → BitVec w → BitVec w) : Nat → Nat → Nat → Nat
  | 0, _, _ => 0
  | k + 1, x, y => (g (BitVec.ofNat w x) (BitVec.ofNat w y)).toNat + 2 ^ w * packed w g k (x / 2 ^ w) (y / 2 ^ w)

/-- A packed operation on eight 8-bit (w = 0) or four 16-bit (w = 1) sub-elements. -/
def packedOp (w : BitVec 1) (g : (n : Nat) → BitVec n → BitVec n → BitVec n) (x y : Word) : Word :=
  BitVec.ofNat 64 (if w = 0 then packed 8 (g 8) 8 x.toNat y.toNat else packed 16 (g 16) 4 x.toNat y.toNat)

/-- The shift amount of a sub-element: its low 8 bits (04 R126). -/
def lowByte {n : Nat} (y : BitVec n) : Nat := y.toNat % 256

/-- The smaller of two lanes, signed (n = 0) or unsigned. -/
def laneMin (n : BitVec 1) (w : Nat) (x y : BitVec w) : BitVec w :=
  if n = 0 then (if x.toInt ≤ y.toInt then x else y) else (if x.toNat ≤ y.toNat then x else y)

/-- The larger of two lanes, signed (n = 0) or unsigned. -/
def laneMax (n : BitVec 1) (w : Nat) (x y : BitVec w) : BitVec w :=
  if n = 0 then (if x.toInt ≤ y.toInt then y else x) else (if x.toNat ≤ y.toNat then y else x)

/-- PADD (04 R126). -/
def execPadd (w : BitVec 1) (b a d : BitVec 5) (s : State) : Outcome :=
  regReg (formPadd w b a d) d a b (packedOp w fun _ x y => x + y) s
/-- PSUB (04 R126). -/
def execPsub (w : BitVec 1) (b a d : BitVec 5) (s : State) : Outcome :=
  regReg (formPsub w b a d) d a b (packedOp w fun _ x y => x - y) s
/-- PMIN (04 R126). -/
def execPmin (n w : BitVec 1) (b a d : BitVec 5) (s : State) : Outcome :=
  regReg (formPmin n w b a d) d a b (packedOp w (laneMin n)) s
/-- PMAX (04 R126). -/
def execPmax (n w : BitVec 1) (b a d : BitVec 5) (s : State) : Outcome :=
  regReg (formPmax n w b a d) d a b (packedOp w (laneMax n)) s
/-- PSHL (04 R126). -/
def execPshl (w : BitVec 1) (b a d : BitVec 5) (s : State) : Outcome :=
  regReg (formPshl w b a d) d a b (packedOp w fun _ x y => shiftL x (lowByte y)) s
/-- PSHR (04 R126). -/
def execPshr (w : BitVec 1) (b a d : BitVec 5) (s : State) : Outcome :=
  regReg (formPshr w b a d) d a b (packedOp w fun _ x y => shiftR x (lowByte y)) s
/-- PSHA (04 R126). -/
def execPsha (w : BitVec 1) (b a d : BitVec 5) (s : State) : Outcome :=
  regReg (formPsha w b a d) d a b (packedOp w fun _ x y => shiftA x (lowByte y)) s

/-! ### Immediates, bit fields, select, moves (04 R127 to R131) -/

/-- ADDI (04 R127). -/
def execAddi (i : BitVec 14) (a d : BitVec 5) (s : State) : Outcome := regOne (formAddi i a d) d a (fun x => x + immS i) s
/-- ANDI (04 R127). -/
def execAndi (i : BitVec 14) (a d : BitVec 5) (s : State) : Outcome := regOne (formAndi i a d) d a (fun x => x &&& immS i) s
/-- ORI (04 R127). -/
def execOri (i : BitVec 14) (a d : BitVec 5) (s : State) : Outcome := regOne (formOri i a d) d a (fun x => x ||| immS i) s
/-- XORI (04 R127). -/
def execXori (i : BitVec 14) (a d : BitVec 5) (s : State) : Outcome := regOne (formXori i a d) d a (fun x => x ^^^ immS i) s
/-- SHLI (04 R128). -/
def execShli (n : BitVec 6) (a d : BitVec 5) (s : State) : Outcome := regOne (formShli n a d) d a (fun x => shiftL x n.toNat) s
/-- SHRI (04 R128). -/
def execShri (n : BitVec 6) (a d : BitVec 5) (s : State) : Outcome := regOne (formShri n a d) d a (fun x => shiftR x n.toNat) s
/-- SHAI (04 R128). -/
def execShai (n : BitVec 6) (a d : BitVec 5) (s : State) : Outcome := regOne (formShai n a d) d a (fun x => shiftA x n.toNat) s

/-- The length of a bit field, cut short at bit 63: min(len, 64 - pos), with len - 1 in the field l (04 R129). -/
def fieldLen (p l : BitVec 6) : Nat := min (l.toNat + 1) (64 - p.toNat)

/-- bfx.z (04 R129). -/
def bitFieldZ (p l : BitVec 6) (x : Word) : Word := BitVec.ofNat 64 ((x.toNat >>> p.toNat) % 2 ^ fieldLen p l)

/-- bfx.s (04 R129). -/
def bitFieldS (p l : BitVec 6) (x : Word) : Word := (BitVec.ofNat (fieldLen p l) (x.toNat >>> p.toNat)).signExtend 64

/-- bfi: the low bits of x put into old (04 R129). -/
def bitFieldInsert (p l : BitVec 6) (old x : Word) : Word :=
  let mask : Word := BitVec.ofNat 64 ((2 ^ fieldLen p l - 1) <<< p.toNat)
  (old &&& ~~~mask) ||| ((x <<< p.toNat) &&& mask)

/-- BFX_S (04 R129). -/
def execBfxS (p l : BitVec 6) (a d : BitVec 5) (s : State) : Outcome := regOne (formBfxS p l a d) d a (bitFieldS p l) s
/-- BFX_Z (04 R129). -/
def execBfxZ (p l : BitVec 6) (a d : BitVec 5) (s : State) : Outcome := regOne (formBfxZ p l a d) d a (bitFieldZ p l) s
/-- BFI (04 R129): reads its destination as a source. -/
def execBfi (p l : BitVec 6) (a d : BitVec 5) (s : State) : Outcome :=
  regReg (formBfi p l a d) d d a (bitFieldInsert p l) s
/-- SEL (04 R130). -/
def execSel (c b a d : BitVec 5) (s : State) : Outcome :=
  unit (formSel c b a d) s fun s =>
    s.finishReg 4 d (if s.here.reg c ≠ 0 then s.here.reg a else s.here.reg b)
/-- MOVI (04 R131). -/
def execMovi (i : BitVec 19) (d : BitVec 5) (s : State) : Outcome := regConst (formMovi i d) d (immS i) s
/-- MOVH (04 R131): the immediate is unsigned. -/
def execMovh (i : BitVec 19) (d : BitVec 5) (s : State) : Outcome := regOne (formMovh i d) d d (fun x => x <<< 19 + immU i) s

/-! ### Control transfer (04 R132 to R136) -/

/-- BEQ (04 R132). -/
def execBeq (o : BitVec 11) (b a : BitVec 5) (s : State) : Outcome := branch (formBeq o b a) a b (offBytes o) (fun x y => x == y) s
/-- BNE (04 R132). -/
def execBne (o : BitVec 11) (b a : BitVec 5) (s : State) : Outcome := branch (formBne o b a) a b (offBytes o) (fun x y => x != y) s
/-- BLT (04 R132). -/
def execBlt (o : BitVec 11) (b a : BitVec 5) (s : State) : Outcome := branch (formBlt o b a) a b (offBytes o) (fun x y => x.slt y) s
/-- BGE (04 R132). -/
def execBge (o : BitVec 11) (b a : BitVec 5) (s : State) : Outcome := branch (formBge o b a) a b (offBytes o) (fun x y => !x.slt y) s
/-- BLTN (04 R132). -/
def execBltn (o : BitVec 11) (b a : BitVec 5) (s : State) : Outcome := branch (formBltn o b a) a b (offBytes o) (fun x y => x.ult y) s
/-- BGEN (04 R132). -/
def execBgen (o : BitVec 11) (b a : BitVec 5) (s : State) : Outcome := branch (formBgen o b a) a b (offBytes o) (fun x y => !x.ult y) s
/-- JMP (04 R133). -/
def execJmp (o : BitVec 24) (s : State) : Outcome :=
  unit (formJmp o) s fun s => s.modCtx s.cur fun c => c.complete c.level (c.pc + offBytes o)
/-- JAL (04 R133, 02 R46): the link goes to s31. DESIGN CHOICE, log 68: inside a user-interrupt handler, where s31 cannot be reached (02 R66), it goes to h7. -/
def execJal (o : BitVec 24) (s : State) : Outcome :=
  unit (formJal o) s fun s => s.modCtx s.cur fun c => (c.setReg 31 (c.pc + 4)).complete c.level (c.pc + offBytes o)
/-- JR (04 R134): an odd target traps ALIGN with no register written (02 R41). -/
def execJr (i : BitVec 14) (a d : BitVec 5) (s : State) : Outcome :=
  unit (formJr i a d) s fun s =>
    let target := s.here.reg a + immS i
    if target.getLsbD 0 then s.trap causeAlign target
    else s.modCtx s.cur fun c => (c.setReg d (c.pc + 4)).complete c.level target
/-- REP (04 R135): a count of 0 skips the body and leaves the loop state unchanged. -/
def execRep (l : BitVec 14) (a : BitVec 5) (s : State) : Outcome :=
  unit (formRep l a) s fun s =>
    s.modCtx s.cur fun c =>
      let start := c.pc + 4
      let stop := start + immU l * 2
      if c.reg a = 0 then c.complete c.level stop
      else { c with loop := { active := true, start := start, stop := stop, count := c.reg a } }.complete c.level start

/-! ### Compact forms (02 Table 2.11) -/

/-- COMPACT_ADD: add D, D, S. -/
def execCompactAdd (x d : BitVec 5) (s : State) : Outcome := regReg (formCompactAdd x d) d d x (fun x y => x + y) s
/-- COMPACT_SUB: sub D, D, S. -/
def execCompactSub (x d : BitVec 5) (s : State) : Outcome := regReg (formCompactSub x d) d d x (fun x y => x - y) s
/-- COMPACT_AND: and D, D, S. -/
def execCompactAnd (x d : BitVec 5) (s : State) : Outcome := regReg (formCompactAnd x d) d d x (fun x y => x &&& y) s
/-- COMPACT_OR: or D, D, S. -/
def execCompactOr (x d : BitVec 5) (s : State) : Outcome := regReg (formCompactOr x d) d d x (fun x y => x ||| y) s
/-- COMPACT_MOVE: add D, s0, S. -/
def execCompactMove (x d : BitVec 5) (s : State) : Outcome := regReg (formCompactMove x d) d s0 x (fun x y => x + y) s
/-- COMPACT_XOR: xor D, D, S. -/
def execCompactXor (x d : BitVec 5) (s : State) : Outcome := regReg (formCompactXor x d) d d x (fun x y => x ^^^ y) s
/-- COMPACT_ADDI: addi D, D, i5. -/
def execCompactAddi (i d : BitVec 5) (s : State) : Outcome := regOne (formCompactAddi i d) d d (fun x => x + immS i) s
/-- COMPACT_MOVI: movi D, i5. -/
def execCompactMovi (i d : BitVec 5) (s : State) : Outcome := regConst (formCompactMovi i d) d (immS i) s
/-- COMPACT_SHLI: shli D, D, u5. -/
def execCompactShli (u d : BitVec 5) (s : State) : Outcome := regOne (formCompactShli u d) d d (fun x => shiftL x u.toNat) s
/-- COMPACT_SHRI: shri D, D, u5. -/
def execCompactShri (u d : BitVec 5) (s : State) : Outcome := regOne (formCompactShri u d) d d (fun x => shiftR x u.toNat) s
/-- COMPACT_SHAI: shai D, D, u5. -/
def execCompactShai (u d : BitVec 5) (s : State) : Outcome := regOne (formCompactShai u d) d d (fun x => shiftA x u.toNat) s
/-- COMPACT_ANDI: andi D, D, i5. -/
def execCompactAndi (i d : BitVec 5) (s : State) : Outcome := regOne (formCompactAndi i d) d d (fun x => x &&& immS i) s
/-- COMPACT_SLT: slt D, D, S. -/
def execCompactSlt (x d : BitVec 5) (s : State) : Outcome := regReg (formCompactSlt x d) d d x (fun x y => flagWord (x.slt y)) s
/-- COMPACT_SEQ: seq D, D, S. -/
def execCompactSeq (x d : BitVec 5) (s : State) : Outcome := regReg (formCompactSeq x d) d d x (fun x y => flagWord (x == y)) s
/-- COMPACT_MUL: mul D, D, S. -/
def execCompactMul (x d : BitVec 5) (s : State) : Outcome := regReg (formCompactMul x d) d d x (fun x y => x * y) s
/-- COMPACT_BEQ: beq D, s0, o5. -/
def execCompactBeq (o d : BitVec 5) (s : State) : Outcome := branch (formCompactBeq o d) d s0 (offBytes o) (fun x y => x == y) s
/-- COMPACT_BNE: bne D, s0, o5. -/
def execCompactBne (o d : BitVec 5) (s : State) : Outcome := branch (formCompactBne o d) d s0 (offBytes o) (fun x y => x != y) s

end Sys2Proof.Machine
end

