-- ==== Sys2Proof/Machine/LoadStore.lean ====
section
/-! DEFINITION. Majors 0x17 to 0x1B: loads, stores, queue loads and stores, full/empty forms and segments (07 R213 to R216, R226, R230 to R240). -/

namespace Sys2Proof.Machine

/-- The segment offset of a form with off7 in units of size (07 R231, R237). -/
def State.segOff (s : State) (a : BitVec 5) (o : BitVec 7) (size : Nat) : Word :=
  s.here.reg a + o.signExtend 64 * BitVec.ofNat 64 size

/-- A load of size bytes into D (07 R231). -/
def load (f : Form) (g : BitVec 4) (o : BitVec 7) (a d : BitVec 5) (size : Nat) (sext : Bool) (s : State) : Outcome :=
  unit f s fun s => s.withPlace (s.locate g.toNat (s.segOff a o size) size size true false) fun w =>
    s.readUnit w size f.len false (.scalar d size sext)

/-- The bytes of a list that a piece covers, as one write. -/
def slicedWrite (bs : List Byte) (fe : FE) (off len pos : Nat) : List Act := [.write off ((bs.drop pos).take len) fe]

/-- A store of the low size bytes of sd (07 R231). -/
def store (f : Form) (g : BitVec 4) (o : BitVec 7) (a d : BitVec 5) (size : Nat) (s : State) : Outcome :=
  unit f s fun s => s.withPlace (s.locate g.toNat (s.segOff a o size) size size false true) fun w =>
    s.writeUnit w size f.len .write false .none (slicedWrite (natToBytes size (s.here.reg d).toNat) .keep)

/-- LD_B_Z (07 R231). -/
def execLdBZ (g : BitVec 4) (o : BitVec 7) (a d : BitVec 5) (s : State) : Outcome := load (formLdBZ g o a d) g o a d 1 false s
/-- LD_B_S (07 R231). -/
def execLdBS (g : BitVec 4) (o : BitVec 7) (a d : BitVec 5) (s : State) : Outcome := load (formLdBS g o a d) g o a d 1 true s
/-- LD_H_Z (07 R231). -/
def execLdHZ (g : BitVec 4) (o : BitVec 7) (a d : BitVec 5) (s : State) : Outcome := load (formLdHZ g o a d) g o a d 2 false s
/-- LD_H_S (07 R231). -/
def execLdHS (g : BitVec 4) (o : BitVec 7) (a d : BitVec 5) (s : State) : Outcome := load (formLdHS g o a d) g o a d 2 true s
/-- LD_W_Z (07 R231). -/
def execLdWZ (g : BitVec 4) (o : BitVec 7) (a d : BitVec 5) (s : State) : Outcome := load (formLdWZ g o a d) g o a d 4 false s
/-- LD_W_S (07 R231). -/
def execLdWS (g : BitVec 4) (o : BitVec 7) (a d : BitVec 5) (s : State) : Outcome := load (formLdWS g o a d) g o a d 4 true s
/-- LD_D (07 R231). -/
def execLdD (g : BitVec 4) (o : BitVec 7) (a d : BitVec 5) (s : State) : Outcome := load (formLdD g o a d) g o a d 8 false s
/-- COMPACT_LD_D: ld.d of seg0 at S (02 R58). -/
def execCompactLdD (x d : BitVec 5) (s : State) : Outcome := load (formCompactLdD x d) 0 0 x d 8 false s
/-- ST_B (07 R231). -/
def execStB (g : BitVec 4) (o : BitVec 7) (a d : BitVec 5) (s : State) : Outcome := store (formStB g o a d) g o a d 1 s
/-- ST_H (07 R231). -/
def execStH (g : BitVec 4) (o : BitVec 7) (a d : BitVec 5) (s : State) : Outcome := store (formStH g o a d) g o a d 2 s
/-- ST_W (07 R231). -/
def execStW (g : BitVec 4) (o : BitVec 7) (a d : BitVec 5) (s : State) : Outcome := store (formStW g o a d) g o a d 4 s
/-- ST_D (07 R231). -/
def execStD (g : BitVec 4) (o : BitVec 7) (a d : BitVec 5) (s : State) : Outcome := store (formStD g o a d) g o a d 8 s
/-- COMPACT_ST_D: st.d of seg0 at S (02 R58). -/
def execCompactStD (x d : BitVec 5) (s : State) : Outcome := store (formCompactStD x d) 0 0 x d 8 s

/-! ### Queue memory (07 R232 to R235) -/

/-- LDQ (07 R233). -/
def execLdq (g : BitVec 4) (n q : BitVec 6) (d : BitVec 5) (s : State) : Outcome :=
  unit (formLdq g n q d) s fun s =>
    s.withPlace (s.locate g.toNat (s.here.reg d) (64 * n.toNat) 64 true false) fun w =>
      s.whenRoom q.toNat n.toNat fun s => s.readUnit w (64 * n.toNat) (formLdq g n q d).len false (.queue q.toNat n.toNat)

/-- STQ (07 R233): FM0 is queue 5. -/
def execStq (g : BitVec 4) (n : BitVec 6) (d : BitVec 5) (s : State) : Outcome :=
  unit (formStq g n d) s fun s =>
    s.whenEntries 5 n.toNat fun s =>
      s.withPlace (s.locate g.toNat (s.here.reg d) (64 * n.toNat) 64 false true) fun w =>
        let bs := (((s.tile s.cur.core.tile).queue 5).front s.uid n.toNat).flatMap fun e => lineBytes e.data
        s.writeUnit w (64 * n.toNat) (formStq g n d).len .write false (.popped 5 n.toNat) (slicedWrite bs .keep)

/-- How many leading bytes of an ldff's pieces the tile itself can tell, and the stop cause (07 R234): window range 4, own protection 2. -/
def State.ownPrefix (s : State) (w : Where) : List Piece → Nat × Nat → Nat × Nat
  | [], r => r
  | p :: ps, (valid, cause) =>
    let pos := match p with
      | .own _ _ pos => pos
      | .tile _ _ _ pos => pos
      | .xlat _ _ pos => pos
    let bad := match w with
      | .pad _ => false
      | .global a => s.badWindow s.cur.core.l (a + BitVec.ofNat 64 pos) 1
    if bad then (min valid pos, if pos < valid then 4 else cause)
    else
      match p with
      | .own off len pos =>
        match (s.tile s.cur.core.tile).deniedLine [.lr] false off len with
        | some l => if pos + (l * 64 - off) < valid then (pos + (l * 64 - off), 2) else (valid, cause)
        | none => State.ownPrefix s w ps (valid, cause)
      | _ => State.ownPrefix s w ps (valid, cause)

/-- The current ldff reads the bytes it may at a place (07 R234), of which the segment allows the first given number. -/
def State.firstFaultUnit (s : State) (w : Where) (q n inLimit step : Nat) : State :=
  let len := min (64 * n) inLimit
  let ps := if len = 0 then [] else s.pieces s.cur.core w len
  let r := s.ownPrefix w ps (len, if len < 64 * n then 1 else 0)
  let ps := if r.1 = 0 then [] else s.pieces s.cur.core w r.1
  let cont : Cont := .firstFault q n r.1 r.2 w.addr
  if s.tagBad ps then s.xpart
  else if ps.any Piece.isOwn && s.ownPending s.cur.core then s.retry
  else
    let buf := s.ownBytes (64 * n) ps
    let away := ps.filter fun p => !p.isOwn
    if away.isEmpty then s.finishCont step cont buf
    else
      let b := s.me
      let (id, s) := s.take
      let s := s.modCtx s.cur fun c => { c with phase := .busy id away.length buf step false cont }
      away.foldl (fun s p => s.sendRead b w id .leading false p) s

/-- LDFF (07 R234). -/
def execLdff (g : BitVec 4) (n q : BitVec 6) (d : BitVec 5) (s : State) : Outcome :=
  unit (formLdff g n q d) s fun s =>
    let off := s.here.reg d
    let sg := s.here.seg g.toNat
    if off.extractLsb' 0 6 ≠ 0 then s.trap causeAlign off
    else if sg.size < 1 ∨ sg.size - 1 < off.toNat then s.trap causeSeglim off
    else if !sg.canRead then s.trap causeRights off
    else
      s.whenRoom q.toNat (n.toNat + 1) fun s =>
        let w : Where := if sg.isGlobal then .global (sg.base + off) else .pad (sg.base.toNat + off.toNat)
        s.firstFaultUnit w q.toNat n.toNat (sg.size - off.toNat) (formLdff g n q d).len

/-- PRF (07 R235): no effect. -/
def execPrf (g : BitVec 4) (n : BitVec 6) (d : BitVec 5) (s : State) : Outcome :=
  unit (formPrf g n d) s fun s => s.finish (formPrf g n d).len

/-! ### Full/empty forms (07 R226, R227, R236, R237) -/

/-- Goes on where a place is scratchpad, else traps PROT with the address (07 R237). -/
def State.scratchpad (s : State) (w : Where) (k : List Piece → State) : State :=
  let ps := s.pieces s.cur.core w 8
  if ps.any Piece.isXlat then s.trap causeProt w.addr else k ps

/-- LDSYNC (07 R226, R227, R237): the word of the own home at once if it is full, else in the empty-word wait until the home serves it. -/
def execLdsync (g : BitVec 4) (o : BitVec 7) (a d : BitVec 5) (s : State) : Outcome :=
  let f := formLdsync g o a d
  unit f s fun s => s.withPlace (s.locate g.toNat (s.segOff a o 8) 8 8 true false) fun w =>
    s.scratchpad w fun ps =>
      match s.ownReadDenied w ps with
      | some x => s.trap causeProt x
      | none =>
        if s.tagBad ps then s.xpart
        else if ps.any Piece.isOwn && s.ownPending s.cur.core then s.retry
        else
          let b := s.me
          let t := s.cur.core.tile
          let (id, s') := s.take
          let held : State := s'.modCtx s.cur fun c => { c with phase := .busy id 1 (List.replicate 8 0) f.len true (.scalar d 8 false) }
          match ps with
          | [.own off _ _] =>
            if (s.view (.tile t) b).full.contains off then s.finishCont f.len (.scalar d 8 false) (s.readHome (.tile t) b off 8)
            else held.modHome (.tile t) fun x => { x with syncs := x.syncs ++ [{ off := off, by_ := b, id := id, remote := false }] }
          | [p] => held.sendRead b w id .sync false p
          | _ => s

/-- STFULL (07 R237). -/
def execStfull (g : BitVec 4) (o : BitVec 7) (a d : BitVec 5) (s : State) : Outcome :=
  unit (formStfull g o a d) s fun s => s.withPlace (s.locate g.toNat (s.segOff a o 8) 8 8 false true) fun w =>
    s.scratchpad w fun _ =>
      s.writeUnit w 8 (formStfull g o a d).len .write false .none (slicedWrite (wordBytes (s.here.reg d)) .full)

/-- STEMPTY (07 R237). -/
def execStempty (g : BitVec 4) (o : BitVec 7) (a : BitVec 5) (s : State) : Outcome :=
  unit (formStempty g o a) s fun s => s.withPlace (s.locate g.toNat (s.segOff a o 8) 8 8 false true) fun w =>
    s.scratchpad w fun _ =>
      s.writeUnit w 8 (formStempty g o a).len .write false .none (fun off _ _ => [.setEmpty off])

/-! ### Segments (07 R238 to R240) -/

/-- GADDR (07 R239). -/
def execGaddr (g : BitVec 4) (a d : BitVec 5) (s : State) : Outcome :=
  unit (formGaddr g a d) s fun s =>
    let sg := s.here.seg g.toNat
    let off := s.here.reg a
    if sg.size ≤ off.toNat then s.trap causeSeglim off
    else
      s.finishReg (formGaddr g a d).len d
        (if sg.isGlobal then sg.base + off else windowAddr s.cur.core.t 0 + sg.base + off)

/-- Whether segw may set a segment to base A and limit word B (07 R240). -/
def segAllowed (level : BitVec 2) (bound : Seg) (a b : Word) : Bool :=
  let n : Seg := { base := a, limit := b }
  b.extractLsb' 49 12 = 0 && decide (n.size ≤ 281474976710656) &&
  (n.isGlobal || decide (a.toNat + n.size ≤ 1048576)) &&
  (level ≠ 0 ||
    (n.isGlobal = bound.isGlobal && decide (bound.base.toNat ≤ a.toNat) && decide (a.toNat + n.size ≤ bound.base.toNat + bound.size) &&
     (bound.canRead || !n.canRead) && (bound.canWrite || !n.canWrite)))

/-- The launch binding of a segment on a core (07 R214). -/
def Core.bindOf (k : Core) (n : Nat) : Seg := k.binds.getD n { base := 0, limit := 0 }

/-- SEGW (07 R240). -/
def execSegw (g : BitVec 4) (b a : BitVec 5) (s : State) : Outcome :=
  unit (formSegw g b a) s fun s =>
    let x := s.here.reg a
    let y := s.here.reg b
    if segAllowed s.here.level (s.hereCore.bindOf g.toNat) x y then
      (s.modCtx s.cur fun c => { c with segs := c.segs.setIfInBounds g.toNat { base := x, limit := y } }).finish (formSegw g b a).len
    else s.trap causeProt y

/-- SEGR (07 R240). -/
def execSegr (h : BitVec 1) (g : BitVec 4) (d : BitVec 5) (s : State) : Outcome :=
  unit (formSegr h g d) s fun s =>
    s.finishReg (formSegr h g d).len d (if h = 0 then (s.here.seg g.toNat).base else (s.here.seg g.toNat).limit)

end Sys2Proof.Machine
end

