-- ==== Sys2Proof/Machine/Ordering.lean ====
section
/-! DEFINITION. Majors 0x2B to 0x2D: scopes, fence, ackw, st.rel and ld.acq (11 R336 to R348). -/

namespace Sys2Proof.Machine

/-- The set of homes of a scope code, fixed at issue (11 R336, Table 11.1). -/
def State.scopeSet (s : State) (code : BitVec 2) : ScopeSet :=
  match code.toNat with
  | 0 => .tiles [s.cur.core.tile]
  | 1 => .tiles (s.groupTiles s.cur.core)
  | 2 => .device
  | _ => .system

/-- Whether a home lies in a set (11 Table 11.1). -/
def ScopeSet.has (x : ScopeSet) (h : Home) : Bool :=
  match x, h with
  | .tiles ts, .tile t => ts.contains t
  | .tiles _, _ => false
  | .device, .host _ => false
  | .device, _ => true
  | .system, _ => true

/-- The task's unacknowledged posted writes with homes in a set (11 R337). -/
def State.unacked (s : State) (x : ScopeSet) : Nat := ((s.outstanding s.uid).filter fun p => x.has p.home).length

/-- The links that carry an unacknowledged host write of the task (11 R338). -/
def State.hostLinks (s : State) : List Nat :=
  ((s.outstanding s.uid).filterMap fun p => match p.home with
    | .host n => some n
    | _ => none).dedup

/-- Whether a transfer of the current task is not complete (11 R344). -/
def State.engineBusy (s : State) (uid : Nat) : Bool := s.xfers.any fun x => decide (x.by_.uid = uid)

/-- What follows when the flush of a release is done (11 R338, R344, R347): the engine wait of a fence, the write of a st.rel. -/
def State.afterFlush (s : State) (step : Nat) (r : Released) : State :=
  match r with
  | .fence _ eng =>
    if eng && s.engineBusy s.uid then s.modCtx s.cur fun c => { c with phase := .stall (.engines step) }
    else s.finish step
  | .ackw d => s.finishReg step d 0
  | .store _ device seg off v =>
    s.withPlace (s.locate seg off 8 8 false true) fun w =>
      s.writeUnit w 8 step .write device .none (slicedWrite (wordBytes v) .keep)

/-- What follows when a release has its acknowledgements (11 R337, R338, R345): the flush of each link, or D of ackw. DESIGN CHOICE, log 90: the flush does not wait
for a host write that the host interface holds, visible and acknowledged (11 R334), to be sent on its link. -/
def State.afterAcks (s : State) (set : ScopeSet) (step : Nat) (r : Released) : State :=
  match r with
  | .ackw d => s.finishReg step d (BitVec.ofNat 64 (s.unacked set))
  | _ =>
    let links := match r with
      | .fence l _ => l
      | .store l _ _ _ _ => l
      | .ackw _ => []
    if links.isEmpty then s.afterFlush step r
    else
      let b := s.me
      let ids := (List.range links.length).map fun i => s.fresh + i
      let s := { s with fresh := s.fresh + links.length }
      let s := (links.zip ids).foldl (fun s (x : Nat × Nat) => s.sendBack b (.flushRead x.1 b x.2)) s
      s.modCtx s.cur fun c => { c with phase := .stall (.flush ids step r) }

/-- A release, or ackw with its threshold, at a scope (11 R337, R345): held until at most n writes of the set are unacknowledged. -/
def State.release (s : State) (set : ScopeSet) (n step : Nat) (r : Released) : State :=
  if s.unacked set ≤ n then s.afterAcks set step r
  else s.modCtx s.cur fun c => { c with phase := .stall (.acks set n step r) }

/-- Goes on with a release of a context when its acknowledgements have come (11 R337). -/
def State.resumeRelease (s : State) (id : CtxId) : State :=
  match (s.ctx id).phase with
  | .stall (.acks set n step r) =>
    let s' : State := { s with cur := id }
    if s'.unacked set ≤ n then s'.afterAcks set step r else s
  | _ => s

/-- FENCE (11 R344). -/
def execFence (x : BitVec 2) (e : BitVec 1) (s : State) : Outcome :=
  unit (formFence x e) s fun s =>
    s.release (s.scopeSet x) 0 (formFence x e).len (.fence (if x = 3 then s.hostLinks else []) (e = 1))

/-- ACKW (11 R345). -/
def execAckw (x : BitVec 2) (a d : BitVec 5) (s : State) : Outcome :=
  unit (formAckw x a d) s fun s => s.release (s.scopeSet x) (s.here.reg a).toNat (formAckw x a d).len (.ackw d)

/-- Whether the home of a place can lie in a scope (11 R347): a translated place lies in the device set, or for host memory in the system set alone. -/
def State.inScope (s : State) (x : BitVec 2) (w : Where) : Bool :=
  (s.pieces s.cur.core w 8).all fun p =>
    match p with
    | .own _ _ _ => true
    | .tile t _ _ _ => (s.scopeSet x).has (.tile t)
    | .xlat _ _ _ => decide (2 ≤ x.toNat)

/-- The global address of a place (11 R347). -/
def State.globalOf (s : State) (w : Where) : Word :=
  match w with
  | .pad off => windowAddr s.cur.core.t off
  | .global a => a

/-- ST_REL (11 R347): the tests of the store's own home come before the hold, at a translated place by a walk that only tests; the store itself is
translated when its turn comes. -/
def execStRel (g : BitVec 4) (x : BitVec 2) (o : BitVec 7) (a d : BitVec 5) (s : State) : Outcome :=
  let f := formStRel g x o a d
  unit f s fun s =>
    let off := s.segOff a o 8
    s.withPlace (s.locate g.toNat off 8 8 false true) fun w =>
      if s.inScope x w = false then s.trap causeProt (s.globalOf w)
      else
        let v := s.here.reg d
        let ps := s.pieces s.cur.core w 8
        match s.ownDenied w ps (slicedWrite (wordBytes v) .keep) with
        | some y => s.trap causeProt y
        | none =>
          let set := s.scopeSet x
          let r : Released := .store (if x = 3 then s.hostLinks else []) (x = 2) g.toNat off v
          if s.tagBad ps then s.xpart
          else if s.takeSeq.isNone then s.seqTrap
          else
            match ps with
            | [.xlat va len _] =>
              let (id, s) := s.take
              let s := s.modCtx s.cur fun c => { c with phase := .busy id 1 [] f.len false .none }
              s.sendWalk { by_ := s.me, kind := .write, va := va, len := len, addr := va, device := decide (x = 2), then_ := .check id set f.len r }
            | _ => s.release set 0 f.len r

/-- LD_ACQ (11 R348). -/
def execLdAcq (g : BitVec 4) (x : BitVec 2) (o : BitVec 7) (a d : BitVec 5) (s : State) : Outcome :=
  let f := formLdAcq g x o a d
  unit f s fun s =>
    s.withPlace (s.locate g.toNat (s.segOff a o 8) 8 8 true false) fun w =>
      if s.inScope x w = false then s.trap causeProt (s.globalOf w)
      else s.readUnit w 8 f.len (x = 2) (.scalar d 8 false)

end Sys2Proof.Machine
end

