-- ==== Sys2Proof/Machine/Arrive.lean ====
section
/-! DEFINITION. Device steps of the network: what an arrival meets at its tile (06 R178, R193; 15 R430, R435; 16 R450, R451; 17 R465), messages
(06 R180 to R193), accesses, effects and waits at their homes (05 R162; 07 R217 to R227; 12 R363), replies and acknowledgements. -/

namespace Sys2Proof.Machine

/-! ### Flights -/

/-- A flight by its number. -/
def State.flight (s : State) (id : Nat) : Option Flight := s.net.find? fun f => f.id = id

/-- Takes a flight out of the network. -/
def State.drop (s : State) (id : Nat) : State := { s with net := s.net.filter fun f => f.id ≠ id }

/-- Changes a flight. -/
def State.modFlight (s : State) (id : Nat) (g : Flight → Flight) : State :=
  { s with net := s.net.map fun (f : Flight) => if f.id = id then g f else f }

/-- A retry reply goes back to the sender of a flight (06 R193). -/
def State.bounce (s : State) (id : Nat) : State := s.modFlight id fun f => { f with st := .bounced }

/-- The home of a place. -/
def Place.home : Place → Home
  | .tile t _ => .tile t
  | .hbm n _ => .agent n
  | .host n _ => .host n

/-- The offset of a place in its home's space. -/
def Place.off : Place → Nat
  | .tile _ o => o
  | .hbm _ o => o
  | .host _ a => a

/-- Whether a packet keeps the order of messages from one core to one tile (06 R178; 05 R158; 13 R385); so do the unbind and the bind of a bar.init
(13 R394). -/
def Packet.inOrder : Packet → Bool
  | .message _ _ => true
  | .spawn _ _ _ => true
  | .barArr _ _ _ _ _ _ => true
  | .barBind _ _ _ _ _ _ => true
  | .effect _ e => e.sendw
  | _ => false

/-- The home that an access goes to: accesses of one core to one home keep their order (11 R332). -/
def Packet.home : Packet → Option Home
  | .read p _ _ _ _ _ _ => some p.home
  | .effect h _ => some h
  | .wait p _ _ _ _ => some p.home
  | .cancel t _ _ => some (.tile t)
  | _ => none

/-- Whether an engine sends the packet. -/
def Packet.byEngine : Packet → Bool
  | .read _ _ b _ _ _ _ => b.engine
  | .effect _ e => e.by_.engine
  | _ => false

/-- Whether a packet is a wait request. -/
def Packet.isWait : Packet → Bool
  | .wait _ _ _ _ _ => true
  | _ => false

/-- Whether a packet's round is still unmirrored: its destination holds it (16 R450). An effect is held in its home's buffer instead (12 R365). -/
def State.heldForRound (s : State) (f : Flight) : Bool :=
  match f.pkt, f.round with
  | .effect _ _, _ => false
  | _, some r => s.unmirrored r
  | _, none => false

/-- Whether a flight sent earlier holds back a later one: same source and same destination tile for messages, same home for accesses. An engine's
accesses stay behind its core's, not before them (10 R325); a wait held for its round holds back only waits (16 R450). -/
def State.holdsBack (s : State) (g f : Flight) : Bool :=
  decide (g.src = f.src) && decide (g.st ≠ .parked) &&
  ((g.pkt.inOrder && f.pkt.inOrder && decide (g.dst = f.dst)) ||
   (g.pkt.home.isSome && decide (g.pkt.home = f.pkt.home) && (!g.pkt.byEngine || f.pkt.byEngine) &&
    (!g.pkt.isWait || f.pkt.isWait || !s.heldForRound g)))

/-- Whether a flight must let an earlier one arrive first (06 R178, 11 R332). -/
def State.blocked (s : State) (f : Flight) : Bool :=
  f.src.isSome && (s.net.takeWhile fun g => g.id ≠ f.id).any fun g => s.holdsBack g f

/-- Whether a packet is sent by a unit or an engine of a core: it may raise TILEFAULT; replies and hardware messages raise none (15 R435). -/
def Packet.byUnit : Packet → Bool
  | .message _ _ => true
  | .spawn _ _ _ => true
  | .read _ _ _ _ _ _ _ => true
  | .effect _ _ => true
  | .wait _ _ _ _ _ => true
  | .barArr _ _ _ _ _ _ => true
  | .barReg _ _ _ _ _ => true
  | .barBind _ _ _ _ _ _ => true
  | .grpChange _ _ _ _ _ _ => true
  | _ => false

/-- Whether a packet carries an answer to a unit's request. -/
def Packet.answers (p : Packet) (req : Nat) : Bool :=
  match p with
  | .reply _ i _ _ => decide (i = req)
  | .prefixReply _ i _ _ _ => decide (i = req)
  | .faultReply _ i _ _ => decide (i = req)
  | .xpart _ _ i _ _ => decide (i = some req)
  | _ => false

/-- What a flight meets. -/
inductive Reach where
  /-- It cannot arrive yet. -/
  | late
  | take
  /-- Its target is folded: PARKED_ARRIVAL (15 R435). -/
  | park
  /-- A retry reply (15 R430, R433). -/
  | bounce
  /-- Discarded at ejection for its tag (17 R465). -/
  | foreign
  deriving DecidableEq, Repr

/-- The tag that the router of a logical tile compares (17 R463, R465): that of the physical tile that serves it, for a folded one that of its launch. -/
def State.servingTag (s : State) (t : TileId) : Option (BitVec 8) :=
  match s.physical t with
  | none => (s.launches.get? t.l).map Launch.tag
  | some p => s.tags.get? p

/-- Whether the tag of the tile differs from the tag that a core's flight carries (17 R465). -/
def State.isForeign (s : State) (f : Flight) (t : TileId) : Bool := f.src.isSome && decide (s.servingTag t ≠ some f.tag)

/-- Whether a context of a tile awaits an answer: of its unit in progress, or an acknowledgement for its release. -/
def State.tileAwaits (s : State) (t : TileId) (p : Packet) : Bool :=
  [Role.mc, .fc, .ac].any fun r => (List.range 4).any fun i =>
    match (s.ctx ⟨t.core r, i⟩).phase, p with
    | .busy id _ _ _ _ _, p => p.answers id
    | .stall (.acks _ _ _ _), .ack _ => true
    | .stall (.acks _ _ _ _), .denial _ _ _ _ => true
    | .stall (.flush ids _ _), .flushRead _ _ id => ids.contains id
    | _, _ => false

/-- Whether a context's unit in progress beneath a handler awaits an answer: the answer stays in the network until the unit goes on (16 R446). DEDUCED, log 80. -/
def State.awaitsBeneath (s : State) (t : TileId) (p : Packet) : Bool :=
  (ctxsOf [t]).any fun i => match (s.ctx i).under with
    | some { phase := .busy id _ _ _ _ _, .. } => p.answers id
    | _ => false

/-- Whether an answer ends or advances a transfer of a tile. -/
def State.engineAwaits (s : State) (t : TileId) (p : Packet) : Bool :=
  s.xfers.any fun x => decide (x.by_.core.tile = t) &&
    (match p with
     | .ack w => x.writes.contains w
     | .denial _ _ n _ => decide (n = some x.id)
     | .reply b id _ _ => b.engine && x.todo.any fun e => decide (e.req = some id)
     | .zeros b id _ _ _ _ => b.engine && x.todo.any fun e => decide (e.req = some id)
     | .xpart b _ _ _ _ => b.engine && decide (b.core.tile = t)
     | _ => false)

/-- Whether two logical tiles are members of one bundle (15 R426). -/
def State.sameBundle (s : State) (a b : TileId) : Bool :=
  decide (a.l = b.l) && decide (bundleOf (s.gridX a.l) a.t = bundleOf (s.gridX b.l) b.t)

/-- Whether the router of a folding tile takes an arrival all the same (15 R433 step 2, 10 R327): what the tile's cores and engines send to the tile itself, what
the engines of the bundle's other members send, and the answers that its units in progress and its transfers wait for. DEDUCED, log 81. -/
def State.foldTakes (s : State) (f : Flight) (t : TileId) : Bool :=
  decide (f.src.map CoreId.tile = some t) || (f.pkt.byEngine && (f.src.map fun c => s.sameBundle c.tile t).getD false) ||
  s.tileAwaits t f.pkt || s.engineAwaits t f.pkt

/-- What a flight meets at its destination (15 R430, R433, R435, R436, R438; 16 R450; 17 R465). -/
def State.reachOf (s : State) (f : Flight) : Reach :=
  if f.st ≠ .transit ∨ s.blocked f then .late
  else
    match f.dst with
    | none => .take
    | some t =>
      match s.bundle t with
      | none => .take
      | some b =>
        match b.st with
        | .folded => if f.gen ≠ b.gen then .bounce else if s.isForeign f t then .foreign else .park
        | .resident =>
          if f.gen ≠ b.gen then .bounce
          else if s.isForeign f t then .foreign
          else if s.heldForRound f || s.awaitsBeneath t f.pkt then .late
          else .take
        | .folding =>
          if !s.foldTakes f t then .bounce
          else if s.isForeign f t then .foreign
          else if s.heldForRound f then .late
          else .take
        | _ => .bounce

/-! ### Refusal at ejection (17 R465) -/

/-- The tile task of a running activation. -/
def State.taskOf (s : State) (c : CoreId) (uid : Nat) : Option TTId :=
  ((List.range 4).filterMap fun i => (s.ctx ⟨c, i⟩).task).findSome? fun t => if t.uid = uid then t.tt else none

/-- The notice of a refusal at ejection: the issuer, what it awaits, the address or the absolute designator, the credits of a bound send (17 R465). -/
def State.xpartOf (s : State) (f : Flight) : Option Packet :=
  match f.src, f.dst with
  | some c, some t =>
    let lt := BitVec.ofNat 64 t.t
    match f.pkt with
    | .message _ m =>
      some (.xpart { core := c, ctx := 0, uid := m.uid, tt := if m.refused then s.taskOf c m.uid else m.tt, engine := false, sys := false, tag := f.tag } none none lt
        (if m.direct then none else some (m.sendCh, m.flits)))
    | .spawn _ w uid => some (.xpart { core := c, ctx := 0, uid := uid, tt := some ⟨w.tt.l, w.tt.path.dropLast⟩, engine := false, sys := false, tag := f.tag } none none lt none)
    | .read _ _ b id _ _ addr => some (.xpart b none (some id) addr none)
    | .effect _ e => some (.xpart e.by_ e.wid e.reply e.addr none)
    | .wait _ _ b _ addr => some (.xpart b none none addr none)
    | .barArr _ _ _ _ b id => some (.xpart b none (some id) lt none)
    | .barReg _ _ _ b id => some (.xpart b none (some id) lt none)
    | .barBind _ _ _ _ b id => some (.xpart b none (some id) lt none)
    | .grpChange _ _ _ _ b id => some (.xpart b none (some id) lt none)
    | _ => none
  | _, _ => none

/-- Discards an arrival refused at ejection and tells its sender (17 R465). -/
def State.refuseForeign (s : State) (f : Flight) : State :=
  match s.xpartOf f with
  | none => s.drop f.id
  | some p => (s.drop f.id).send none (f.src.map CoreId.tile) p

/-! ### The replay log (16 R451) -/

/-- Whether an arrival of the kind goes into the replay log (16 R451). -/
def Packet.logged : Packet → Bool
  | .read _ _ _ _ _ _ _ => false
  | .credit _ _ _ => true
  | p => p.tagged

/-- Whether an image records what a packet answers: a unit in progress whose request crossed the zone's boundary (13 R384, 16 R446), or a write that a denial
names. -/
def Image.awaits (i : Image) (p : Packet) : Bool :=
  (i.ctxs.any fun c => match c.2.phase with
    | .busy id _ _ _ _ _ => p.answers id
    | _ => false) ||
  (match p with
   | .denial _ w x _ => (w.map fun w => i.posted.contains w).getD false || i.xfers.any fun y => decide (x = some y.id)
   | .xpart _ w _ _ _ => (w.map fun w => i.posted.contains w || i.xfers.any fun y => y.writes.contains w).getD false
   | _ => false)

/-- The images that a mending of a zone may restore: the restore point, the one on its way there, and those of tiles placed since (16 R447, R449). -/
def Zone.images (z : Zone) : List Image := z.restore.toList ++ z.streaming.toList ++ z.placed.map Prod.snd

/-- Whether an image of a zone records a unit in progress that a packet answers: the answer then belongs to what a mending applies again. DEDUCED, log entry 80. -/
def Zone.awaits (z : Zone) (p : Packet) : Bool := z.images.any fun i => i.awaits p

/-- Whether the buddy of a zone, or the zone with which it pairs, keeps its replay log: it holds an image of the zone or takes one (16 R449, R451, R456). -/
def Zone.logs (z : Zone) : Bool := z.buddy.isSome || z.streaming.isSome

/-- Whether a home holds the ldsync that a packet asks for: a wait registered there (16 R451). -/
def State.holdsSync (s : State) (p : Packet) : Bool :=
  match p with
  | .read pl _ _ id _ .sync _ => (s.home pl.home).syncs.any fun y => decide (y.id = id)
  | _ => false

/-- Logs an arrival that a tile has taken from outside its zone, for the round that is open (16 R451). -/
def State.logTaken (s : State) (f : Flight) : State :=
  match f.dst.bind s.zoneOf with
  | none => s
  | some z =>
    let inside : Bool := match f.src with
      | some c => decide (s.zoneOf c.tile = some z)
      | none => false
    if inside || !(f.pkt.logged || s.holdsSync f.pkt || (s.zone z).awaits f.pkt) || !(s.zone z).logs then s
    else s.modZone z fun x => { x with log := x.log ++ [(x.round, f.pkt)] }

/-- Logs what the outside writes into a tile's state, for the round that is open (16 R451): while the tile stands in a zone or is being remapped from it, and while
it lies folded and the zone that it left holds its image. -/
def State.logHost (s : State) (t : TileId) (p : Packet) : State :=
  match s.bundle t with
  | none => s
  | some b =>
    let z := b.home.zoneOf
    if (b.st = .folded ∧ (s.zone z).images.all fun i => (i.tiles.get? t).isNone) ∨ (s.zone z).logs = false then s
    else s.modZone z fun x => { x with log := x.log ++ [(x.round, p)] }

/-! ### Arrivals -/

/-- What a destination does with an arrival. -/
inductive Taking where
  | done (s : State)
  /-- Answered with a retry reply (06 R193). -/
  | again
  /-- Kept waiting at the destination. -/
  | stay

/-- The step of an arrival: k says what its destination does with it, none when the packet is of another kind. -/
def arrival (s : State) (id : Nat) (k : State → Flight → Option Taking) : Outcome :=
  .next (match s.flight id with
    | none => s
    | some f =>
      match k (s.drop id) f with
      | none => s
      | some v =>
        match s.reachOf f with
        | .late => s
        | .park => s
        | .bounce => s.bounce id
        | .foreign => s.refuseForeign f
        | .take =>
          match v with
          | .done t => t.logTaken f
          | .again => s.bounce id
          | .stay => s)

/-! ### Messages (06 R180 to R193) -/

/-- Where a receive end puts n flits: in its buffer (false), in its hamper (true), nowhere (06 R188). -/
def Chan.takes (x : Chan) (n : Nat) : Option Bool :=
  if !(x.msgs.any EndMsg.hampered) && decide (x.used + n ≤ x.depth) then some false
  else if x.hampUsed + n ≤ 1024 * x.hamper then some true
  else none

/-- A message enters a receive end with the binding in force (06 R182, R188): counted, or due as an activation of a tile task (05 R524). -/
def State.putMessage (s : State) (dst : CoreId) (m : Message) (hampered : Bool) : State :=
  let x := (s.core dst).chan m.ch
  let e : EndMsg := { msg := m, bind := x.bind, holder := none, hampered := hampered }
  let s := s.modChan dst m.ch fun x => { x with msgs := x.msgs ++ [e] }
  match x.bind with
  | .count n => s.incrLater dst n
  | .cls _ =>
    match s.messageTask dst e with
    | some t => s.reopen t
    | none => s

/-- Returns a sendi message to its sender (06 R191). -/
def State.returnMessage (s : State) (dst : CoreId) (m : Message) : State :=
  s.sendSt (some dst) (some m.src.tile) (.message m.src (m.returned dst 0)) (.queued [])

/-- Counts a refusal returned to a channel (06 Table 6.6). -/
def State.countRefusal (s : State) (c : CoreId) (ch : Nat) : State := s.modChan c ch fun y => { y with refusals := y.refusals + 1 }

/-- A message at its core (06 R183, R188, R190 to R192). -/
def State.takeMessage (s : State) (dst : CoreId) (m : Message) : Taking :=
  let x := (s.core dst).chan m.ch
  if m.direct = false then
    .done (if x.kind = .bound then s.putMessage dst m ((x.takes m.flits).getD true) else s)
  else if m.refused || m.reply then
    if x.kind ≠ .direct then
      let s := if m.refused && decide (x.kind = .send) then s.countRefusal dst m.ch else s
      .done (match m.tt with
        | none => s
        | some t => s.modTT t fun y => { y with lost := y.lost + 1 })
    else
      match x.takes m.flits with
      | none => .again
      | some h =>
        let s := s.putMessage dst m h
        .done (if m.refused then s.countRefusal dst m.ch else s)
  else
    match x.kind, x.takes m.flits with
    | .direct, some h => .done (s.putMessage dst m h)
    | _, _ => .done (s.returnMessage dst m)

/-- MESSAGE_ARRIVAL (06 R182, R183, R188, R190 to R192; 05 R158): a message or a spawned activation. DESIGN CHOICE, log 72: a spawned activation waits at its core
outside every channel, without a bound. -/
def execMessageArrival (id : Nat) (s : State) : Outcome :=
  arrival s id fun s f =>
    match f.pkt with
    | .message dst m => some (s.takeMessage dst m)
    | .spawn dst w _ => some (.done ((s.modCore dst fun k => { k with waiting := k.waiting ++ [w] }).reopen w.tt))
    | _ => none

/-- CREDIT_RETURN (06 R184). -/
def execCreditReturn (id : Nat) (s : State) : Outcome :=
  arrival s id fun s f =>
    match f.pkt with
    | .credit dst ch n => some (.done (s.modChan dst ch fun x => { x with credits := x.credits + n }))
    | _ => none

/-- Counts a retry reply on the channel its message was sent on (06 Table 6.6). -/
def State.countRetry (s : State) (f : Flight) : State :=
  match f.src, f.pkt with
  | some c, .message _ m => s.modChan c m.sendCh fun x => { x with retries := x.retries + 1 }
  | _, _ => s

/-- Drops an NI's cached entry of a tile (15 R430). -/
def State.uncache (s : State) (src : Option CoreId) (dst : Option TileId) : State :=
  match src, dst with
  | some c, some t => s.modTile c.tile fun x => { x with cache := x.cache.erase t.t }
  | _, _ => s

/-- RETRY_REPLY (06 R193, 15 R430): the NI will resend after 64 x 2^min(k, 8) cycles. -/
def execRetryReply (id : Nat) (s : State) : Outcome :=
  match s.flight id with
  | none => .next s
  | some f =>
    event s (decide (f.st = .bounced))
      (((s.countRetry f).uncache f.src f.dst).modFlight id fun f =>
        { f with st := .waiting (s.cycle + 64 * 2 ^ min f.tries 8), tries := f.tries + 1 })

/-- COUNTER_INCREMENT_ARRIVAL (05 R147). -/
def execCounterIncrementArrival (id : Nat) (s : State) : Outcome :=
  arrival s id fun s f =>
    match f.pkt with
    | .increment dst e => some (.done (s.incrLater dst e))
    | _ => none

/-! ### The NI's injection (06 R187, 11 R340) -/

/-- The priority level and channel at which the NI injects an item (06 R187, 13 R382): returns and sendw at the level of what they name, hardware messages at 0. -/
def Packet.sendCh : Packet → Nat
  | .message _ m => m.sendCh
  | _ => 0

/-- Whether the port of the remote edge of a message's send end is up (17 R488). -/
def State.edgeUp (s : State) (f : Flight) : Bool :=
  match f.src, f.pkt, f.dst with
  | some c, .message _ m, none =>
    match ((s.core c).chan m.sendCh).edge.bind s.edges.get? with
    | none => false
    | some e => !s.down.contains e.port && !s.heldForRound f
  | _, _, _ => true

/-- The items of a core that its NI may inject: their device-scope release is satisfied (11 R340). A tile that is not resident injects nothing: the fold
saves them (15 R433). -/
def State.pendingOf (s : State) (c : CoreId) : List Flight :=
  s.net.filter fun f => decide (f.src = some c) && s.resident c.tile && (match f.st with
    | .queued after => after.all (fun w => !(s.posted.any fun p => p.wid = w)) && s.edgeUp f
    | _ => false)

/-- The level that injects next: the lowest one that 64 messages of higher levels have passed, so that no level is passed by more, else the highest with an
item (06 R187). -/
def nextLevel (since : List Nat) (levels : List Nat) : Option Nat :=
  let starved := levels.filter fun l => decide (64 ≤ since.getD l 0)
  if starved.isEmpty then minBy (fun l => 8 - l) levels else minBy (fun l => l) starved

/-- The item that the NI injects next: round-robin by channel within the level, in order within a channel (06 R187). -/
def State.nextInject (s : State) (c : CoreId) : Option Flight :=
  let fs := s.pendingOf c
  let k := s.core c
  match nextLevel k.since ((fs.map fun f => f.pkt.sendCh / 8).dedup) with
  | none => none
  | some l =>
    let here := fs.filter fun f => f.pkt.sendCh / 8 = l
    let last := k.lastCh.getD l 63
    minBy (fun (f : Flight) => (f.pkt.sendCh + 63 - last % 64) % 64) here

/-- Sends a message over its remote edge (17 R487): the header word of Table 6.1 and the payload, with the sender's tile and the key. -/
def State.sendEdge (s : State) (c : CoreId) (m : Message) : State :=
  match ((s.core c).chan m.sendCh).edge with
  | none => s
  | some n =>
    s.pushEdge n { edge := n, seq := 0, credit := none, payload := m.header m.ch :: m.words, tile := c.t, path := m.key.path, num := m.key.seq }

/-- An effect as it leaves its sender in a round. -/
def Packet.inRound (p : Packet) (r : Option (Nat × BitVec 32)) : Packet :=
  match p with
  | .effect h e => .effect h { e with round := r }
  | p => p

/-- An item that leaves its NI: it carries the zone and round in which it does (16 R450). -/
def State.leaves (s : State) (f : Flight) : Flight :=
  let r := s.tagOf f.src f.dst f.pkt
  { f with st := .transit, round := r, pkt := f.pkt.inRound r, sent := f.src.bind s.sentBy }

/-- The zone and round of an item that is on its way again: those it had, and where its target has left the zone since, those in which it was sent
(16 R450). -/
def State.retag (s : State) (f : Flight) : Flight :=
  match f.round, f.sent, f.dst with
  | none, some r, some t => if f.pkt.tagged && decide (s.zoneOf t ≠ some r.1) then { f with round := some r, pkt := f.pkt.inRound (some r) } else f
  | _, _, _ => f

/-- Whether the NI of a core resends: its tile stands in a frame. While it folds, what it has sent still comes through; a folded tile's returns are in its image
(15 R433). -/
def State.resends (s : State) (c : CoreId) : Bool :=
  match s.bundle c.tile with
  | none => true
  | some b => decide (b.st = .resident) || decide (b.st = .folding)

/-- RETRY_RESEND (06 R193): the same item, routed by the tile table as it stands when it leaves; a held return of a folded tile waits (15 R433). -/
def execRetryResend (id : Nat) (s : State) : Outcome :=
  match s.flight id with
  | none => .next s
  | some f =>
    match f.st with
    | .waiting t =>
      let r := (s.uncache f.src f.dst).routed f.src f.dst
      event s (decide (t ≤ s.cycle) && (f.src.map s.resends).getD true)
        (r.2.modFlight id fun f => { s.retag f with st := .transit, gen := r.1 })
    | _ => .next s

/-- MESSAGE_INJECT (06 R187). -/
def execMessageInject (c : CoreId) (s : State) : Outcome :=
  match s.nextInject c with
  | none => .next s
  | some f =>
    let ch := f.pkt.sendCh
    let l := ch / 8
    let lower := ((s.pendingOf c).map fun g => g.pkt.sendCh / 8).filter fun x => x < l
    let s := s.modCore c fun k =>
      { k with since := (List.range 8).map (fun x => if x = l then 0 else k.since.getD x 0 + (if lower.contains x then 1 else 0)),
               lastCh := k.lastCh.set l ch }
    match f.dst, f.pkt with
    | none, .message _ m => .next ((s.drop f.id).sendEdge c m)
    | _, _ => .next (s.modFlight f.id s.leaves)

/-! ### Accesses at their homes -/

/-- Applies what the front has passed before an arrival is taken (12 R360, R364). -/
def State.caughtUp (s : State) (h : Home) : State := s.drainHome h (s.home h).held.length

/-- The transfer whose element awaits a read. -/
def State.xferOf (s : State) (req : Nat) : Option Nat :=
  (s.xfers.find? fun x => x.todo.any fun e => decide (e.req = some req)).map Xfer.id

/-- A read denied by its home (07 R218; 10 R323 for an engine's, which yields zeros). -/
def State.denyRead (s : State) (b : Issuer) (id pos len : Nat) (addr : Word) : State :=
  if b.engine then
    s.sendBack b (.zeros b id pos len (s.xferOf id) addr)
  else s.sendBack b (.faultReply b id causeProt addr)

/-- The remote ldsync requests that a tile's home holds (07 R226). -/
def HomeSt.remoteSyncs (h : HomeSt) : Nat := (h.syncs.filter Sync.remote).length

/-- A read at a tile's home (07 R217, R218, R226, R234). -/
def State.readTile (s : State) (t : TileId) (off len : Nat) (b : Issuer) (id pos : Nat) (mode : ReadMode) (addr : Word) : Taking :=
  let h : Home := .tile t
  let denied := (s.tile t).deniedLine [if b.ownTile t then .lr else .rr] false off len
  match mode, denied with
  | .leading, some l =>
    .done (s.sendBack b (.prefixReply b id pos (s.readHome h b off (l * 64 - off)) 2))
  | .leading, none => .done (s.sendBack b (.prefixReply b id pos (s.readHome h b off len) 0))
  | _, some l => .done (s.denyRead b id pos len (deniedAddr addr off len l))
  | .plain, none => .done (s.sendBack b (.reply b id pos (s.readHome h b off len)))
  | .sync, none =>
    if (s.view h b).full.contains off then .done (s.sendBack b (.reply b id pos (s.readHome h b off 8)))
    else if !b.ownTile t && decide (64 ≤ (s.home h).remoteSyncs) then .again
    else .done (s.modHome h fun x => { x with syncs := x.syncs ++ [{ off := off, by_ := b, id := id, remote := !b.ownTile t }] })

/-- A completion of a fibre (14 R415). -/
def State.completeFibre (s : State) (c : CoreId) (n : Nat) (number : BitVec 32) (fail : Bool) : State :=
  s.modCore c fun k => { k with fibres := k.fibres.map fun (x : Nat × Fibre) =>
    if x.1 = n ∧ x.2.number = number ∧ x.2.resumed = false then (x.1, { x.2 with resumed := true, failed := fail }) else x }

/-- Writes a protection descriptor of a tile (07 R211). -/
def State.putProt (s : State) (t : TileId) (n : Nat) (w : Word) : State := s.modTile t fun x => { x with prot := x.prot.set n w }

/-- A profile mask for the next activations of a tile's cores (17 R489). -/
def State.putProfile (s : State) (t : TileId) (m : BitVec 8) : State := (coresOf [t]).foldl (fun s c => s.modCore c fun k => { k with profNew := some m }) s

/-- Binds a channel to a remote edge (17 R487). -/
def State.bindChan (s : State) (c : CoreId) (ch edge : Nat) : State := s.modChan c ch fun x => { x with edge := some edge }

/-- REMOTE_ACCESS_ARRIVAL (07 R217, R226); and what the replay log brings again of the outside's writes (16 R451, R453). -/
def execRemoteAccessArrival (id : Nat) (s : State) : Outcome :=
  arrival s id fun s f =>
    match f.pkt with
    | .read place len b rid pos mode addr =>
      let s := s.caughtUp place.home
      match place with
      | .tile t off => some (s.readTile t off len b rid pos mode addr)
      | p =>
        let bs := s.readHome p.home b p.off len
        some (.done (s.sendBack b (if mode = .leading then .prefixReply b rid pos bs 0 else .reply b rid pos bs)))
    | .protect t n w => some (.done (s.putProt t n w))
    | .profile t m => some (.done (s.putProfile t m))
    | .bindEdge c ch edge => some (.done (s.bindChan c ch edge))
    | .resume c n number fail => some (.done (s.completeFibre c n number fail))
    | _ => none

/-- The denial of an effect goes back (07 R220; 12 R371; 10 R323): one for each element access that it makes, of which the first ends its write; a write of a
transfer that makes none of its own is acknowledged. -/
def State.denyEffect (s : State) (e : Effect) (addr : Word) : State :=
  match e.reply, e.wid with
  | some id, none => s.sendBack e.by_ (.faultReply e.by_ id causeProt addr)
  | _, _ =>
    if e.xfer.isSome && e.elems = 0 then s.acknowledge e
    else (List.range (e.elems - 1)).foldl (fun s _ => s.sendBack e.by_ (.denial e.by_ none e.xfer addr)) (s.sendBack e.by_ (.denial e.by_ e.wid e.xfer addr))

/-- Whether an act is an add of mdrainadd. -/
def Act.isAdd : Act → Bool
  | .add _ _ _ _ _ _ _ => true
  | _ => false

/-- The address at which a tile denies one act of an effect, if it does. -/
def State.actDenied (s : State) (t : TileId) (e : Effect) (a : Act) : Option Word :=
  s.deniesEffect t { e with acts := [a], addr := e.addr + BitVec.ofNat 64 a.range.1 - BitVec.ofNat 64 ((e.acts.head?.map fun x => x.range.1).getD 0) }

/-- The acts that a tile denies of adds that come together, when it lets some of the adds through (10 R323). -/
def State.skips (s : State) (h : Home) (e : Effect) : List Act :=
  match h with
  | .tile t => if e.acts.any fun a => a.isAdd && (s.actDenied t e a).isNone then e.acts.filter fun a => (s.actDenied t e a).isSome else []
  | _ => []

/-- The denials of the adds skipped go back (10 R323). -/
def State.denySkipped (s : State) (h : Home) (e : Effect) (skipped : List Act) : State :=
  match h with
  | .tile t => (skipped.filter Act.isAdd).foldl (fun s a => s.sendBack e.by_ (.denial e.by_ none e.xfer ((s.actDenied t e a).getD e.addr))) s
  | _ => s

/-- EFFECT_ARRIVAL (12 R363): denied, applied, held, or answered with a retry reply. Of adds that come together those that are denied alone are skipped
(10 R323). -/
def execEffectArrival (id : Nat) (s : State) : Outcome :=
  arrival s id fun s f =>
    match f.pkt with
    | .effect h e =>
      let skipped := s.skips h e
      let kept := if skipped.isEmpty then e else { e with acts := e.acts.filter fun a => !skipped.contains a }
      let denied : Option Word := match h with
        | .tile t => s.deniesEffect t kept
        | _ => none
      match denied with
      | some a => some (.done (s.denyEffect e a))
      | none =>
        match s.giveHome h kept with
        | none => some .again
        | some (s, v) => some (.done ((s.denySkipped h e skipped).answer e v))
    | _ => none

/-- WAIT_REQUEST_ARRIVAL (05 R162): a denied one adds its increment, and the denial is reported as a posted unit's (05 R168). -/
def execWaitRequestArrival (id : Nat) (s : State) : Outcome :=
  arrival s id fun s f =>
    match f.pkt with
    | .wait place expected b entry addr =>
      let s := s.caughtUp place.home
      let denied : Option Word := match place with
        | .tile t off => s.deniesRead t b off 8 addr
        | _ => none
      match denied with
      | some a => some (.done ((s.sendIncr (homeSender place.home) b.core entry).sendBack b (.denial b none none a)))
      | none => some (.done (s.waitAt place.home place.off expected b entry))
    | _ => none

/-- LDSYNC_CANCEL (07 R227). -/
def execLdsyncCancel (id : Nat) (s : State) : Outcome :=
  arrival s id fun s f =>
    match f.pkt with
    | .cancel t _ rid => some (.done (s.modHome (.tile t) fun x => { x with syncs := x.syncs.filter fun y => y.id ≠ rid }))
    | _ => none

/-! ### Replies and acknowledgements -/

/-- READ_REPLY (07 R218): a reply, the bytes of an ldff, a fault reply, or the zeros of an engine's denied read with its denial (10 R323). -/
def execReadReply (id : Nat) (s : State) : Outcome :=
  arrival s id fun s f =>
    match f.pkt with
    | .reply b rid pos bs => some (.done (if b.engine then s.elemReply rid pos bs else s.replyTo b rid pos bs))
    | .zeros b rid pos len xfer addr =>
      let s := match xfer with
        | some x => s.readDenied x b rid pos len addr
        | none => s
      some (.done (s.elemReply rid pos (List.replicate len 0)))
    | .prefixReply b rid pos bs cause => some (.done (s.prefixTo b rid pos bs cause))
    | .faultReply b rid code tval => some (.done (s.faultTo b rid code tval))
    | _ => none

/-- Takes a write off the unacknowledged ones, and lets the releases of its core that waited for it go on (11 R334, R337), and the transfers that stay behind its
transfer (10 R324). -/
def State.acked (s : State) (wid : Nat) : State :=
  let cores := (s.posted.filter fun p => p.wid = wid).map fun p => p.by_.core
  let engines := s.xfers.any fun x => x.writes.contains wid
  let s : State := { s with posted := s.posted.filter (fun p => p.wid ≠ wid),
                            xfers := s.xfers.map fun (x : Xfer) => { x with writes := x.writes.filter fun w => w ≠ wid } }
  let s := if engines then s.advanceAll else s
  cores.foldl (fun s c => (List.range 4).foldl (fun s i => s.resumeRelease ⟨c, i⟩) s) s

/-- The acknowledgement of a write that may be none. -/
def State.ackedIf (s : State) (wid : Option Nat) : State :=
  match wid with
  | none => s
  | some w => s.acked w

/-- WRITE_ACKNOWLEDGEMENT (11 R334, R337). -/
def execWriteAcknowledgement (id : Nat) (s : State) : Outcome :=
  arrival s id fun s f =>
    match f.pkt with
    | .ack wid => some (.done (s.acked wid))
    | _ => none

/-- WRITE_DENIAL (07 R220, 10 R323). -/
def execWriteDenial (id : Nat) (s : State) : Outcome :=
  arrival s id fun s f =>
    match f.pkt with
    | .denial b wid xfer addr =>
      let s := match xfer with
        | some x => s.engineDenial x b addr
        | none => (s.countDenial b addr).pend b.core b.uid causeProt addr
      some (.done (s.ackedIf wid))
    | _ => none

/-- Whether a unit in progress awaits a request. -/
def State.awaits (s : State) (b : Issuer) (id : Option Nat) : Bool :=
  match id, (s.ctx ⟨b.core, b.ctx⟩).phase with
  | some i, .busy j _ _ _ _ _ => i = j
  | _, _ => false

/-- What a refusal at ejection does to its issuer (17 R465): a unit in progress traps, else the task takes XPART later; an engine's read yields zeros. -/
def State.xpartTo (s : State) (b : Issuer) (id : Option Nat) (addr : Word) : State :=
  if b.engine then
    let s := s.pend b.core b.uid causeXpart addr
    match id with
    | none => s
    | some i => s.elemReply i 0 []
  else if s.awaits b id then s.faultTo b (id.getD 0) causeXpart addr
  else s.pend b.core b.uid causeXpart addr

/-- XPART_NOTICE (17 R465). -/
def execXpartNotice (id : Nat) (s : State) : Outcome :=
  arrival s id fun s f =>
    match f.pkt with
    | .xpart b wid rid addr credit =>
      let s := (s.countDenial b addr).xpartTo b rid addr
      let s := match credit with
        | none => s
        | some (ch, n) => s.modChan b.core ch fun x => { x with credits := x.credits + n }
      some (.done (s.ackedIf wid))
    | _ => none

/-- FLUSH_READ_COMPLETE (11 R338): with the last read the release goes on. -/
def execFlushReadComplete (id : Nat) (s : State) : Outcome :=
  arrival s id fun s f =>
    match f.pkt with
    | .flushRead _ b rid =>
      let c : CtxId := ⟨b.core, b.ctx⟩
      match (s.ctx c).phase with
      | .stall (.flush ids step r) =>
        let left := ids.filter fun i => i ≠ rid
        some (.done (if !ids.contains rid then s
          else if left.isEmpty then ({ s with cur := c }).afterFlush step r
          else s.modCtx c fun x => { x with phase := .stall (.flush left step r) }))
      | _ => some (.done s)
    | _ => none

/-! ### Barriers and groups at their owners (13 R380 to R399) -/

/-- An owner's answer to a unit in progress. -/
def State.barReply (s : State) (b : Issuer) (id : Nat) (r : BarReply) : State :=
  match r with
  | .ok w => s.sendBack b (.reply b id 0 (wordBytes w))
  | .error e => s.sendBack b (.faultReply b id e.1 e.2)

/-- Whether an arrival's word agrees with a barrier's state (13 R396): an arrival that does not is answered 0xA01, 0xA02 or 0xA03, before the waiter store is
looked at. -/
def Barrier.accepts (b : Barrier) (w : Word) : Bool :=
  match b.mode with
  | .off => false
  | .counted => !w.getLsbD 41
  | .bound g => w.getLsbD 41 && decide (g = (w.extractLsb' 32 8).toNat)

/-- BARRIER_ARRIVAL (13 R383, R394, R396): kept while the barrier is being bound. -/
def execBarrierArrival (id : Nat) (s : State) : Outcome :=
  arrival s id fun s f =>
    match f.pkt with
    | .barArr dst n w index b rid =>
      let m := (s.core dst).bar n
      if m.binding.isSome then some .stay
      else if m.accepts w && w.getLsbD 56 && (s.core dst).regsFull then some .again
      else
        let r := s.arriveBar dst n w index b
        some (.done (r.1.barReply b rid r.2))
    | _ => none

/-- BARRIER_REGISTRATION (13 R381, R394, R397). -/
def execBarrierRegistration (id : Nat) (s : State) : Outcome :=
  arrival s id fun s f =>
    match f.pkt with
    | .barReg dst n entry b rid =>
      let m := (s.core dst).bar n
      if m.binding.isSome then some .stay
      else if m.mode ≠ .off ∧ (s.core dst).regsFull = true then some .again
      else
        let r := s.registerBar dst n entry b
        some (.done (r.1.barReply b rid r.2))
    | _ => none

/-- The member indices of a group as a bind's answer (13 R394). -/
def Group.indexBytes (x : Group) : List Byte := x.members.flatMap fun m => natToBytes 2 m.1

/-- BARRIER_BIND (13 R386, R394): at the group's owner; a 17th bound barrier is refused. -/
def execBarrierBind (id : Nat) (s : State) : Outcome :=
  arrival s id fun s f =>
    match f.pkt with
    | .barBind t g n unbind b rid =>
      let x := (s.tile t).group g
      let others := x.bars.filter fun y => y ≠ (b.core, n)
      if unbind then some (.done (s.modGroup t g fun x => { x with bars := others }))
      else if 16 ≤ others.length then some (.done (s.sendBack b (.faultReply b rid causeProt (BitVec.ofNat 64 (0x800 + g)))))
      else some (.done ((s.modGroup t g fun x => { x with bars := others ++ [(b.core, n)] }).sendBack b (.reply b rid 0 x.indexBytes)))
    | _ => none

/-- The member index of a core in a group. -/
def Group.indexOf (x : Group) (c : CoreId) : Option Nat := (x.members.find? fun m => m.2 = c).map fun m => m.1

/-- The answer of a join: its word, then each member's index and tile (13 R387, R399). -/
def Group.joinBytes (x : Group) (i : Nat) : List Byte :=
  wordBytes (BitVec.ofNat 64 (i * 4294967296 + x.gen.toNat)) ++ x.members.flatMap fun m => natToBytes 2 m.1 ++ natToBytes 4 m.2.t

/-- Sends a change of a group to its member cores but the issuer and to its bound barriers (13 R387), and answers at once when there is none. -/
def State.changeGroup (s : State) (t : TileId) (g : Nat) (x : Group) (join : Bool) (i : Nat) (b : Issuer) (rid : Nat) (bytes : List Byte) : State :=
  let cores := (x.members.filter fun m => m.2 ≠ b.core).map fun m => m.2
  let n := cores.length + x.bars.length
  let src := some (t.core .mc)
  let s := s.modGroup t g fun _ => { x with change := if n = 0 then none else some (b, rid, n, bytes) }
  let s := cores.foldl (fun s c => s.send src (some c.tile) (.grpUpdate c t g none join i b.core.tile)) s
  let s := x.bars.foldl (fun s (c : CoreId × Nat) => s.send src (some c.1.tile) (.grpUpdate c.1 t g (some c.2) join i b.core.tile)) s
  if n = 0 then s.sendBack b (.reply b rid 0 bytes) else s

/-- GROUP_CHANGE (13 R387, R389, R399): a join or leave waits for the one in progress; a query reads the table. -/
def execGroupChange (id : Nat) (s : State) : Outcome :=
  arrival s id fun s f =>
    match f.pkt with
    | .grpChange t g op index b rid =>
      let x := (s.tile t).group g
      match op with
      | 2 => some (.done (s.sendBack b (.reply b rid 0 (wordBytes (groupWord x (x.indexOf b.core))))))
      | 0 =>
        if x.change.isSome then some .stay
        else if 4096 ≤ x.members.length then some (.done (s.sendBack b (.faultReply b rid causeProt (BitVec.ofNat 64 (0x800 + g)))))
        else
          let y : Group := { x with gen := x.gen + 1, members := x.members ++ [(x.freeIndex, b.core)] }
          some (.done (s.changeGroup t g y true x.freeIndex b rid (y.joinBytes x.freeIndex)))
      | _ =>
        if x.change.isSome then some .stay
        else
          let y : Group := { x with gen := x.gen + 1, members := x.members.filter fun m => m ≠ (index, b.core) }
          some (.done (s.changeGroup t g y false index b rid (wordBytes (y.gen.setWidth 64))))
    | _ => none

/-- An update applied: the owner counts it, and with the last the issuer's unit gets its reply (13 R387). -/
def State.updateDone (s : State) (t : TileId) (g : Nat) : State :=
  match ((s.tile t).group g).change with
  | none => s
  | some (b, rid, n, bytes) =>
    if n ≤ 1 then (s.modGroup t g fun x => { x with change := none }).sendBack b (.reply b rid 0 bytes)
    else s.modGroup t g fun x => { x with change := some (b, rid, n - 1, bytes) }

/-- Whether a join of a core to a group awaits its reply. -/
def State.isJoining (s : State) (c : CoreId) (g : Nat) : Bool :=
  (List.range 4).any fun i => match (s.ctx ⟨c, i⟩).phase with
    | .busy _ _ _ _ _ (.grpJoin _ g') => g' = g
    | _ => false

/-- A member core applies a join or leave of another member (13 R387). -/
def Member.update (m : Member) (join : Bool) (i : Nat) (who : TileId) : Member :=
  { m with peers := if join then m.peers ++ [(i, who)] else m.peers.filter fun p => p.1 ≠ i }

/-- MEMBERSHIP_UPDATE (13 R387, R388): at a member core, or at a bound barrier; kept until the join or the binding that it follows is done. -/
def execMembershipUpdate (id : Nat) (s : State) : Outcome :=
  arrival s id fun s f =>
    match f.pkt with
    | .grpUpdate dst t g none join i who =>
      if ((s.core dst).member g).isNone && s.isJoining dst g then some .stay
      else
        some (.done ((s.modCore dst fun k =>
          { k with members := k.members.map fun m => if m.g = g then m.update join i who else m }).updateDone t g))
    | .grpUpdate dst t g (some n) join i _ =>
      let b := (s.core dst).bar n
      if b.binding.isSome then some .stay
      else if b.mode = .bound g then some (.done (((s.modBar dst n fun b => b.update join i).settle dst n).updateDone t g))
      else some (.done (s.updateDone t g))
    | _ => none

/-! ### Arrivals for a folded tile (15 R435) -/

/-- The flits that a parked arrival takes in the fold hamper (log entry 32). -/
def Packet.flits : Packet → Nat
  | .message _ m => m.flits
  | .effect _ e => 1 + (sumOf (e.acts.map fun a => a.range.2) + 63) / 64
  | _ => 1

/-- The flits in a tile's fold hamper. -/
def State.parkedFlits (s : State) (t : TileId) : Nat :=
  sumOf ((s.tile t).parked.map fun i => ((s.flight i).map fun f => f.pkt.flits).getD 0)

/-- 64 KiB units of 1,024 flits that n flits take. -/
def unitsOf (n : Nat) : Nat := (n + 1023) / 1024

/-- TILEFAULT on the sending core, once for a folded tile until it unfolds (15 R435, 14 R421). -/
def State.tileFault (s : State) (f : Flight) (t : TileId) : State :=
  match f.src with
  | none => s
  | some c =>
    if !f.pkt.byUnit || (s.core c).tileFaults.contains t then s
    else s.modCore c fun k =>
      { k with tileFaults := k.tileFaults ++ [t], notices := k.notices ++ [{ code := causeTilefault, tval := BitVec.ofNat 64 t.t }] }

/-- Whether a bundle's fold hampers hold anything. -/
def State.parkedIn (s : State) (l b : Nat) : Bool := (s.membersOf l b).any fun t => !(s.tile t).parked.isEmpty

/-- Queues the summons of a parked arrival (15 R435, R436): its place is that of the bundle's first parked arrival. -/
def State.summonParked (s : State) (l b : Nat) (first : Bool) : State :=
  match s.bundles.get? (l, b) with
  | none => s
  | some x => if first || x.summoned.isNone then { s with bundles := s.bundles.set (l, b) { x with summoned := some s.fresh }, fresh := s.fresh + 1 } else s

/-- PARKED_ARRIVAL (15 R435): into the fold hamper, with a summons and TILEFAULT; a retry reply when the partition's pool has no unit. -/
def execParkedArrival (id : Nat) (s : State) : Outcome :=
  .next (match s.flight id with
    | none => s
    | some f =>
      match s.reachOf f, f.dst with
      | .park, some t =>
        let tag := s.partOf (t.core .mc)
        let more := unitsOf (s.parkedFlits t + f.pkt.flits) - unitsOf (s.parkedFlits t)
        if ((s.parts.get? tag).map Partition.pool).getD 0 < more then s.bounce id
        else
          let b := bundleOf (s.gridX t.l) t.t
          let first := !s.parkedIn t.l b
          let s := s.modPart tag fun p => { p with pool := p.pool - more }
          let s := (s.modFlight id fun f => { s.retag f with st := .parked }).modTile t fun x => { x with parked := x.parked ++ [id] }
          (s.summonParked t.l b first).tileFault f t
      | _, _ => s)

end Sys2Proof.Machine
end

