-- ==== Sys2Proof/Machine/Atomics.lean ====
section
/-! DEFINITION. Majors 0x2E to 0x30: integer, float and bit-field atomics and their no-return forms (12 R370 to R375). -/

namespace Sys2Proof.Machine

/-- The place of an atomic's operand: read and write rights, no offset (12 R372, R373). -/
def State.atomicPlace (s : State) (g : BitVec 4) (a : BitVec 5) (size : Nat) : Except TrapOf Where :=
  s.locate g.toNat (s.here.reg a) size size true true

/-- A returning atomic: D := the old element, or the result of a bit-field form (12 R371). -/
def atomic (f : Form) (g : BitVec 4) (a : BitVec 5) (size : Nat) (act : State → Nat → Act) (cont : Cont) (s : State) : Outcome :=
  unit f s fun s => s.withPlace (s.atomicPlace g a size) fun w => s.atomicUnit w size f.len (act s) cont

/-- A no-return atomic, posted (12 R371). -/
def reduction (f : Form) (g : BitVec 4) (a : BitVec 5) (size : Nat) (act : State → Nat → Act) (s : State) : Outcome :=
  unit f s fun s => s.withPlace (s.atomicPlace g a size) fun w =>
    s.writeUnit w size f.len .atomic false .none (fun off _ _ => [act s off])

/-- Bytes of an integer atomic (12 R373). -/
def amoSize (w : BitVec 1) : Nat := if w = 1 then 8 else 4

/-- An integer atomic (12 R373): operand B, expected value sd. -/
def amo (f : Form) (op : Nat) (g : BitVec 4) (w : BitVec 1) (b a d : BitVec 5) (s : State) : Outcome :=
  atomic f g a (amoSize w) (fun s off => .amo op off (amoSize w) (s.here.reg b) (s.here.reg d)) (.scalar d (amoSize w) false) s

/-- AMO_ADD (12 Table 12.4). -/
def execAmoAdd (g : BitVec 4) (w : BitVec 1) (b a d : BitVec 5) (s : State) : Outcome := amo (formAmoAdd g w b a d) 0 g w b a d s
/-- AMO_AND (12 Table 12.4). -/
def execAmoAnd (g : BitVec 4) (w : BitVec 1) (b a d : BitVec 5) (s : State) : Outcome := amo (formAmoAnd g w b a d) 1 g w b a d s
/-- AMO_OR (12 Table 12.4). -/
def execAmoOr (g : BitVec 4) (w : BitVec 1) (b a d : BitVec 5) (s : State) : Outcome := amo (formAmoOr g w b a d) 2 g w b a d s
/-- AMO_XOR (12 Table 12.4). -/
def execAmoXor (g : BitVec 4) (w : BitVec 1) (b a d : BitVec 5) (s : State) : Outcome := amo (formAmoXor g w b a d) 3 g w b a d s
/-- AMO_MIN (12 Table 12.4). -/
def execAmoMin (g : BitVec 4) (w : BitVec 1) (b a d : BitVec 5) (s : State) : Outcome := amo (formAmoMin g w b a d) 4 g w b a d s
/-- AMO_MAX (12 Table 12.4). -/
def execAmoMax (g : BitVec 4) (w : BitVec 1) (b a d : BitVec 5) (s : State) : Outcome := amo (formAmoMax g w b a d) 5 g w b a d s
/-- AMO_MINN (12 Table 12.4). -/
def execAmoMinn (g : BitVec 4) (w : BitVec 1) (b a d : BitVec 5) (s : State) : Outcome := amo (formAmoMinn g w b a d) 6 g w b a d s
/-- AMO_MAXN (12 Table 12.4). -/
def execAmoMaxn (g : BitVec 4) (w : BitVec 1) (b a d : BitVec 5) (s : State) : Outcome := amo (formAmoMaxn g w b a d) 7 g w b a d s
/-- AMO_SWAP (12 Table 12.4). -/
def execAmoSwap (g : BitVec 4) (w : BitVec 1) (b a d : BitVec 5) (s : State) : Outcome := amo (formAmoSwap g w b a d) 8 g w b a d s
/-- AMO_CAS (12 Table 12.4). -/
def execAmoCas (g : BitVec 4) (w : BitVec 1) (b a d : BitVec 5) (s : State) : Outcome := amo (formAmoCas g w b a d) 9 g w b a d s
/-- RED_INTEGER: operations 0 to 7 without an answer (12 R373). -/
def execRedInteger (o : BitVec 3) (g : BitVec 4) (w : BitVec 1) (b a : BitVec 5) (s : State) : Outcome :=
  reduction (formRedInteger o g w b a) g a (amoSize w) (fun s off => .amo o.toNat off (amoSize w) (s.here.reg b) 0) s

/-- Bytes of a float atomic (12 R374). -/
def famoSize (t : BitVec 1) : Nat := if t = 1 then 2 else 4

/-- A float atomic (12 R374). -/
def famo (f : Form) (op : Nat) (g : BitVec 4) (t : BitVec 1) (b a d : BitVec 5) (s : State) : Outcome :=
  atomic f g a (famoSize t) (fun s off => .famo op off (t = 1) (s.here.reg b)) (.scalar d (famoSize t) false) s

/-- FAMO_ADD (12 R374). -/
def execFamoAdd (g : BitVec 4) (t : BitVec 1) (b a d : BitVec 5) (s : State) : Outcome := famo (formFamoAdd g t b a d) 0 g t b a d s
/-- FAMO_MIN (12 R374). -/
def execFamoMin (g : BitVec 4) (t : BitVec 1) (b a d : BitVec 5) (s : State) : Outcome := famo (formFamoMin g t b a d) 1 g t b a d s
/-- FAMO_MAX (12 R374). -/
def execFamoMax (g : BitVec 4) (t : BitVec 1) (b a d : BitVec 5) (s : State) : Outcome := famo (formFamoMax g t b a d) 2 g t b a d s
/-- RED_FLOAT (12 R374). -/
def execRedFloat (o : BitVec 2) (g : BitVec 4) (t : BitVec 1) (b a : BitVec 5) (s : State) : Outcome :=
  reduction (formRedFloat o g t b a) g a (famoSize t) (fun s off => .famo o.toNat off (t = 1) (s.here.reg b)) s

/-- BFINS (12 R375): with d = 0 the no-return form. -/
def execBfins (g : BitVec 4) (b a d : BitVec 5) (s : State) : Outcome :=
  if d = 0 then reduction (formBfins g b a d) g a 8 (fun s off => .bf 0 off (s.here.reg b) (s.here.regAt b 1)) s
  else atomic (formBfins g b a d) g a 8 (fun s off => .bf 0 off (s.here.reg b) (s.here.regAt b 1)) (.word d) s
/-- BFFCS (12 R375). -/
def execBffcs (g : BitVec 4) (b a d : BitVec 5) (s : State) : Outcome :=
  atomic (formBffcs g b a d) g a 8 (fun s off => .bf 1 off (s.here.reg b) 0) (.word d) s
/-- BFPLS (12 R375): a limit above 64 traps PROT before the tests of the place. -/
def execBfpls (g : BitVec 4) (b a d : BitVec 5) (s : State) : Outcome :=
  let f := formBfpls g b a d
  unit f s fun s =>
    if 64 < (s.here.regAt b 1).toNat then s.trap causeProt (s.here.regAt b 1)
    else s.withPlace (s.atomicPlace g a 8) fun w =>
      s.atomicUnit w 8 f.len (fun off => .bf 2 off (s.here.reg b) (s.here.regAt b 1)) (.word d)

end Sys2Proof.Machine
end

