-- ==== Sys2Proof/Machine/Crypto.lean ====
section
/-! DEFINITION. The standards that 18 R491 and R504 name: SHA-256 and SHA-384 (FIPS 180-4), ECDSA with P-384 (FIPS 186), LMS with LMS_SHA256_M32_H10 and
LMOTS_SHA256_N32_W4 (RFC 8554). PRESUMED, log entry 20: their text is outside the manual. -/

namespace Sys2Proof.Machine

/-! ### SHA-2 -/

/-- The round constants of SHA-256: the first 32 bits of the fractional parts of the cube roots of the first 64 primes. -/
def sha256K : List (BitVec 32) :=
  [0x428A2F98, 0x71374491, 0xB5C0FBCF, 0xE9B5DBA5, 0x3956C25B, 0x59F111F1, 0x923F82A4, 0xAB1C5ED5,
   0xD807AA98, 0x12835B01, 0x243185BE, 0x550C7DC3, 0x72BE5D74, 0x80DEB1FE, 0x9BDC06A7, 0xC19BF174,
   0xE49B69C1, 0xEFBE4786, 0x0FC19DC6, 0x240CA1CC, 0x2DE92C6F, 0x4A7484AA, 0x5CB0A9DC, 0x76F988DA,
   0x983E5152, 0xA831C66D, 0xB00327C8, 0xBF597FC7, 0xC6E00BF3, 0xD5A79147, 0x06CA6351, 0x14292967] ++
  [0x27B70A85, 0x2E1B2138, 0x4D2C6DFC, 0x53380D13, 0x650A7354, 0x766A0ABB, 0x81C2C92E, 0x92722C85,
   0xA2BFE8A1, 0xA81A664B, 0xC24B8B70, 0xC76C51A3, 0xD192E819, 0xD6990624, 0xF40E3585, 0x106AA070,
   0x19A4C116, 0x1E376C08, 0x2748774C, 0x34B0BCB5, 0x391C0CB3, 0x4ED8AA4A, 0x5B9CCA4F, 0x682E6FF3,
   0x748F82EE, 0x78A5636F, 0x84C87814, 0x8CC70208, 0x90BEFFFA, 0xA4506CEB, 0xBEF9A3F7, 0xC67178F2]

/-- Its initial value: those of the square roots of the first 8 primes. -/
def sha256H : List (BitVec 32) :=
  [0x6A09E667, 0xBB67AE85, 0x3C6EF372, 0xA54FF53A, 0x510E527F, 0x9B05688C, 0x1F83D9AB, 0x5BE0CD19]

/-- The round constants of SHA-384: the first 64 bits of the fractional parts of the cube roots of the first 80 primes. -/
def sha512K : List (BitVec 64) :=
  [0x428A2F98D728AE22, 0x7137449123EF65CD, 0xB5C0FBCFEC4D3B2F, 0xE9B5DBA58189DBBC, 0x3956C25BF348B538,
   0x59F111F1B605D019, 0x923F82A4AF194F9B, 0xAB1C5ED5DA6D8118, 0xD807AA98A3030242, 0x12835B0145706FBE,
   0x243185BE4EE4B28C, 0x550C7DC3D5FFB4E2, 0x72BE5D74F27B896F, 0x80DEB1FE3B1696B1, 0x9BDC06A725C71235,
   0xC19BF174CF692694, 0xE49B69C19EF14AD2, 0xEFBE4786384F25E3, 0x0FC19DC68B8CD5B5, 0x240CA1CC77AC9C65] ++
  [0x2DE92C6F592B0275, 0x4A7484AA6EA6E483, 0x5CB0A9DCBD41FBD4, 0x76F988DA831153B5, 0x983E5152EE66DFAB,
   0xA831C66D2DB43210, 0xB00327C898FB213F, 0xBF597FC7BEEF0EE4, 0xC6E00BF33DA88FC2, 0xD5A79147930AA725,
   0x06CA6351E003826F, 0x142929670A0E6E70, 0x27B70A8546D22FFC, 0x2E1B21385C26C926, 0x4D2C6DFC5AC42AED,
   0x53380D139D95B3DF, 0x650A73548BAF63DE, 0x766A0ABB3C77B2A8, 0x81C2C92E47EDAEE6, 0x92722C851482353B] ++
  [0xA2BFE8A14CF10364, 0xA81A664BBC423001, 0xC24B8B70D0F89791, 0xC76C51A30654BE30, 0xD192E819D6EF5218,
   0xD69906245565A910, 0xF40E35855771202A, 0x106AA07032BBD1B8, 0x19A4C116B8D2D0C8, 0x1E376C085141AB53,
   0x2748774CDF8EEB99, 0x34B0BCB5E19B48A8, 0x391C0CB3C5C95A63, 0x4ED8AA4AE3418ACB, 0x5B9CCA4F7763E373,
   0x682E6FF3D6B2B8A3, 0x748F82EE5DEFB2FC, 0x78A5636F43172F60, 0x84C87814A1F0AB72, 0x8CC702081A6439EC] ++
  [0x90BEFFFA23631E28, 0xA4506CEBDE82BDE9, 0xBEF9A3F7B2C67915, 0xC67178F2E372532B, 0xCA273ECEEA26619C,
   0xD186B8C721C0C207, 0xEADA7DD6CDE0EB1E, 0xF57D4F7FEE6ED178, 0x06F067AA72176FBA, 0x0A637DC5A2C898A6,
   0x113F9804BEF90DAE, 0x1B710B35131C471B, 0x28DB77F523047D84, 0x32CAAB7B40C72493, 0x3C9EBE0A15C9BEBC,
   0x431D67C49C100D4C, 0x4CC5D4BECB3E42B6, 0x597F299CFC657E2A, 0x5FCB6FAB3AD6FAEC, 0x6C44198C4A475817]

/-- Its initial value: those of the square roots of the 9th to 16th primes. -/
def sha384H : List (BitVec 64) :=
  [0xCBBB9D5DC1059ED8, 0x629A292A367CD507, 0x9159015A3070DD17, 0x152FECD8F70E5939,
   0x67332667FFC00B31, 0x8EB44A8768581511, 0xDB0C2E0D64F98FA7, 0x47B5481DBEFA4FA4]

/-- The low n bytes of a number, big-endian. -/
def natToBig (n v : Nat) : List Byte := (natToBytes n v).reverse

/-- A byte string as a number, big-endian. -/
def bigToNat (bs : List Byte) : Nat := bytesToNat bs.reverse

/-- A message padded to blocks of b bytes: a one bit, zeros, its length in bits in the last b / 8 bytes. -/
def shaPad (b : Nat) (m : List Byte) : List Byte :=
  m ++ [0x80] ++ List.replicate ((2 * b - 1 - b / 8 - m.length % b) % b) 0 ++ natToBig (b / 8) (8 * m.length)

/-- The words of the message schedule from the first sixteen, n more. -/
def schedule {w : Nat} (s0 s1 : BitVec w → BitVec w) : Nat → List (BitVec w) → List (BitVec w)
  | 0, l => l
  | n + 1, l =>
    let t := l.length
    schedule s0 s1 n (l ++ [s1 (l.getD (t - 2) 0) + l.getD (t - 7) 0 + s0 (l.getD (t - 15) 0) + l.getD (t - 16) 0])

/-- One round on the eight working variables. -/
def shaRound {w : Nat} (e0 e1 : BitVec w → BitVec w) (v : List (BitVec w)) (kw : BitVec w) : List (BitVec w) :=
  match v with
  | [a, b, c, d, e, f, g, h] =>
    let t1 := h + e1 e + ((e &&& f) ^^^ (~~~e &&& g)) + kw
    let t2 := e0 a + ((a &&& b) ^^^ (a &&& c) ^^^ (b &&& c))
    [t1 + t2, a, b, c, d + t1, e, f, g]
  | v => v

/-- A hash of the SHA-2 family: block length, bytes of a word, constants, initial value, the four functions. -/
def sha2 {w : Nat} (b n : Nat) (k h0 : List (BitVec w)) (s0 s1 e0 e1 : BitVec w → BitVec w) (m : List Byte) : List Byte :=
  let p := shaPad b m
  let h := (cut b (p.length / b) p).foldl (fun h blk =>
    let ws := schedule s0 s1 (k.length - 16) ((cut n 16 blk).map fun x => BitVec.ofNat w (bigToNat x))
    let v := (List.zipWith (· + ·) k ws).foldl (shaRound e0 e1) h
    List.zipWith (· + ·) h v) h0
  h.flatMap fun x => natToBig n x.toNat

/-- SHA-256. -/
def sha256 (m : List Byte) : List Byte :=
  sha2 64 4 sha256K sha256H (fun x => x.rotateRight 7 ^^^ x.rotateRight 18 ^^^ (x >>> 3)) (fun x => x.rotateRight 17 ^^^ x.rotateRight 19 ^^^ (x >>> 10))
    (fun x => x.rotateRight 2 ^^^ x.rotateRight 13 ^^^ x.rotateRight 22) (fun x => x.rotateRight 6 ^^^ x.rotateRight 11 ^^^ x.rotateRight 25) m

/-- SHA-384: the first 48 bytes of the 64. -/
def sha384 (m : List Byte) : List Byte :=
  (sha2 128 8 sha512K sha384H (fun x => x.rotateRight 1 ^^^ x.rotateRight 8 ^^^ (x >>> 7)) (fun x => x.rotateRight 19 ^^^ x.rotateRight 61 ^^^ (x >>> 6))
    (fun x => x.rotateRight 28 ^^^ x.rotateRight 34 ^^^ x.rotateRight 39) (fun x => x.rotateRight 14 ^^^ x.rotateRight 18 ^^^ x.rotateRight 41) m).take 48

/-! ### ECDSA with P-384 -/

/-- The field of P-384. -/
def p384p : Nat := 2 ^ 384 - 2 ^ 128 - 2 ^ 96 + 2 ^ 32 - 1
/-- The order of its base point. -/
def p384n : Nat := 0xFFFFFFFFFFFFFFFFFFFFFFFFFFFFFFFFFFFFFFFFFFFFFFFFC7634D81F4372DDF581A0DB248B0A77AECEC196ACCC52973
/-- The curve is y^2 = x^3 - 3x + b. -/
def p384b : Nat := 0xB3312FA7E23EE7E4988E056BE3F82D19181D9C6EFE8141120314088F5013875AC656398D8A2ED19D2A85C8EDD3EC2AEF
/-- Its base point. -/
def p384g : Nat × Nat :=
  (0xAA87CA22BE8B05378EB1C71EF320AD746E1D3B628BA79B9859F741E082542A385502F25DBF55296C3A545E3872760AB7,
   0x3617DE4A96262C6F5D9E98BF9292DC29F8F41DBD289A147CE9DA3113B5F0B8C00A60B1CE1D7E819D7A431D7C90EA0E5F)

/-- A power modulo m, of an exponent of at most n bits. -/
def powMod (m : Nat) : Nat → Nat → Nat → Nat
  | 0, _, _ => 1 % m
  | n + 1, a, e => (if e % 2 = 1 then a else 1) * powMod m n (a * a % m) (e / 2) % m

/-- The inverse modulo a prime below 2^384. -/
def invMod (m a : Nat) : Nat := powMod m 384 (a % m) (m - 2)

/-- The sum of two points of the curve; none is the point at infinity. -/
def p384Add : Option (Nat × Nat) → Option (Nat × Nat) → Option (Nat × Nat)
  | none, b => b
  | a, none => a
  | some a, some b =>
    if a.1 = b.1 ∧ (a.2 + b.2) % p384p = 0 then none
    else
      let l := (if a.1 = b.1 then (3 * a.1 * a.1 + p384p - 3) * invMod p384p (2 * a.2) else (b.2 + p384p - a.2) * invMod p384p (b.1 + p384p - a.1)) % p384p
      let x := (l * l + 2 * p384p - a.1 - b.1) % p384p
      some (x, (l * (a.1 + p384p - x) + p384p - a.2) % p384p)

/-- A multiple of a point, of a factor of at most n bits. -/
def p384Mul : Nat → Nat → Option (Nat × Nat) → Option (Nat × Nat)
  | 0, _, _ => none
  | n + 1, k, a => p384Add (if k % 2 = 1 then a else none) (p384Mul n (k / 2) (p384Add a a))

/-- Whether a point lies on the curve. -/
def onP384 (q : Nat × Nat) : Bool :=
  decide (q.1 < p384p) && decide (q.2 < p384p) && decide (q.2 * q.2 % p384p = (q.1 * q.1 * q.1 + (p384p - 3) * q.1 + p384b) % p384p)

/-- Whether an ECDSA signature (r, s) of a digest verifies under a public key. -/
def ecdsaVerify (q : Nat × Nat) (z : Nat) (sig : Nat × Nat) : Bool :=
  onP384 q && decide (1 ≤ sig.1 ∧ sig.1 < p384n) && decide (1 ≤ sig.2 ∧ sig.2 < p384n) &&
  (let w := invMod p384n sig.2
   match p384Add (p384Mul 384 (z * w % p384n) (some p384g)) (p384Mul 384 (sig.1 * w % p384n) (some q)) with
   | none => false
   | some r => decide (r.1 % p384n = sig.1))

/-! ### LMS (RFC 8554) -/

/-- The ECDSA signature (r, s) of a digest under a private key, with a number of its own. -/
def ecdsaSign (key nonce z : Nat) : Nat × Nat :=
  let r := ((p384Mul 384 (nonce % p384n) (some p384g)).map fun q => q.1 % p384n).getD 0
  (r, invMod p384n nonce * (z + r * key) % p384n)

/-- A slice of a byte string. -/
def slice (bs : List Byte) (at_ n : Nat) : List Byte := (bs.drop at_).take n

/-- The hash chain of one digit of an LM-OTS signature from a step on, n steps. -/
def otsChain (iq : List Byte) (i : Nat) : Nat → Nat → List Byte → List Byte
  | 0, _, y => y
  | n + 1, j, y => otsChain iq i n (j + 1) (sha256 (iq ++ natToBig 2 i ++ natToBig 1 j ++ y))

/-- The 4-bit digits of a byte string, high half first. -/
def otsDigits (bs : List Byte) : List Nat := bs.flatMap fun b => [b.toNat / 16, b.toNat % 16]

/-- The public key that an LM-OTS signature of a message leads to, for identifier I and leaf q. -/
def otsKey (id : List Byte) (q : Nat) (sig m : List Byte) : List Byte :=
  let iq := id ++ natToBig 4 q
  let d := otsDigits (sha256 (iq ++ [0x81, 0x81] ++ slice sig 4 32 ++ m))
  let ds := d ++ otsDigits (natToBig 2 (sumOf (d.map fun x => 15 - x) * 16)) |>.take 67
  let zs := (List.range 67).flatMap fun i => otsChain iq i (15 - ds.getD i 0) (ds.getD i 0) (slice sig (36 + 32 * i) 32)
  sha256 (iq ++ [0x80, 0x80] ++ zs)

/-- The root that a node leads to through its authentication path, for identifier I. -/
def lmsRoot (id : List Byte) : List (List Byte) → Nat → List Byte → List Byte
  | [], _, t => t
  | y :: r, n, t => lmsRoot id r (n / 2) (sha256 (id ++ natToBig 4 (n / 2) ++ [0x83, 0x83] ++ if n % 2 = 1 then y ++ t else t ++ y))

/-- Whether an LMS signature of a message verifies under a public key of 56 bytes. -/
def lmsVerify (key m sig : List Byte) : Bool :=
  let id := slice key 8 16
  let q := bigToNat (slice sig 0 4)
  let ots := slice sig 4 2180
  decide (key.length = 56) && decide (bigToNat (slice key 0 4) = 6) && decide (bigToNat (slice key 4 4) = 3) && decide (sig.length = 2508) &&
  decide (bigToNat (slice ots 0 4) = 3) && decide (bigToNat (slice sig 2184 4) = 6) && decide (q < 1024) &&
  decide (lmsRoot id ((List.range 10).map fun i => slice sig (2188 + 32 * i) 32) (1024 + q) (sha256 (id ++ natToBig 4 (1024 + q) ++ [0x82, 0x82] ++ otsKey id q ots m)) =
    slice key 24 32)

end Sys2Proof.Machine
end

