-- ==== Sys2Proof/Machine/Complete.lean ====
section
/-! DEFINITION. Device steps of the engines: transfers and ring deliveries completing (07 R228, 10 R289, R319) and array operations retiring
(10 R289, R294, R301, R305 to R309). -/

namespace Sys2Proof.Machine

/-! ### Transfers -/

/-- Lets the fences of a core that waited for transfers go on (11 R344). -/
def State.resumeEngines (s : State) (c : CoreId) : State :=
  (List.range 4).foldl (fun s i =>
    let id : CtxId := ⟨c, i⟩
    match (s.ctx id).phase with
    | .stall (.engines step) => if s.engineBusy (s.uidOf id) then s else ({ s with cur := id }).finish step
    | _ => s) s

/-- Ends a transfer: its notice is given (07 R228), fences that waited for it go on, and so do the transfers behind it (10 R324). -/
def State.endXfer (s : State) (x : Xfer) : State :=
  ({ s with xfers := s.xfers.filter fun y => y.id ≠ x.id }.notify x.by_ x.notice).resumeEngines x.by_.core |>.advanceAll

/-- Whether every write of a transfer is done: those of a held entry count once they are acknowledged (11 R330, R334). -/
def Xfer.complete (x : Xfer) : Bool := x.ring.isNone && x.todo.isEmpty && x.writes.isEmpty && decide (x.waits = 0)

/-- TRANSFER_COMPLETE (07 R228, 10 R322). -/
def execTransferComplete (x : Nat) (s : State) : Outcome :=
  match s.xfers.find? fun y => y.id = x with
  | none => .next s
  | some y => event s y.complete (s.endXfer y)

/-- The bytes of a ring slot that a delivery fills: the elements packed from byte 0, zero after them (10 R319). -/
def Xfer.slotBytes (x : Xfer) (n : Nat) : List Byte :=
  let w := (elemType x.type).width
  natToBytes n ((List.range x.todo.length).foldl (fun acc i => acc + (((x.todo[i]?).bind Elem.val).getD 0) * 2 ^ (i * w)) 0)

/-- Delivers one line of a slot: skipped and counted when it is denied (10 R319), else written and its words set full (07 R224). -/
def State.deliverLine (s : State) (x : Xfer) (line : Nat) (bs : List Byte) : State :=
  let t := x.by_.core.tile
  if lineRight (s.tile t).prot line .eng then
    s.modTile t fun y => { y with mem := y.mem.write (line * 64) bs, full := (wordsOf (line * 64) 64).foldl (fun l w => insertSorted w l) y.full }
  else s.engineDenial x.id x.by_ (BitVec.ofNat 64 (line * 64))

/-- Delivers a transfer to its slot and publishes it (10 R289, R319). -/
def State.deliver (s : State) (x : Xfer) (n slot : Nat) : State :=
  let t := x.by_.core.tile
  let r := (s.tile t).ring n
  let bs := x.slotBytes (r.lines * 64)
  let s := (List.range r.lines).foldl (fun s i => s.deliverLine x (r.base + slot * r.lines + i) ((bs.drop (64 * i)).take 64)) s
  let s := (s.modRing t n fun y => { y with deliv := y.deliv - 1, pub := y.pub + 1 }).postIf t r.semp
  (s.serveSyncs (.tile t)).endXfer x

/-- Whether an earlier claim of the same ring stands before a delivery (10 R289). -/
def State.claimBefore (s : State) (x : Xfer) (n : Nat) : Bool :=
  (s.xfers.takeWhile fun y => y.id ≠ x.id).any fun y => decide (y.by_.core.tile = x.by_.core.tile) && decide (y.ring.map Prod.fst = some n)

/-- RING_DELIVERY_COMPLETE (10 R289, R319): in claim order, once every element's value is there. -/
def execRingDeliveryComplete (x : Nat) (s : State) : Outcome :=
  match s.xfers.find? fun y => y.id = x with
  | none => .next s
  | some y =>
    match y.ring with
    | none => .next s
    | some (n, slot) => event s (!s.claimBefore y n && y.todo.all fun e => e.val.isSome) (s.deliver y n slot)

/-! ### The matrix array (10 R294, R301) -/

/-- An accumulator of a tile. -/
def Tile.acc (t : Tile) (n : Nat) : BitVec 32768 := t.accs.getD n 0

/-- Sets an accumulator. -/
def State.setAcc (s : State) (t : TileId) (n : Nat) (v : BitVec 32768) : State := s.modTile t fun x => { x with accs := x.accs.set n v }

/-- Pops a claimed slot of a ring (10 R289). -/
def State.popRing (s : State) (t : TileId) (n : Nat) : State :=
  let r := (s.tile t).ring n
  (s.modRing t n fun y => { y with head := (y.head + 1) % y.slots, pub := y.pub - 1, claimed := y.claimed - 1 }).postIf t r.semf

/-- mrow's data (10 R305): the 16 elements of half a row, written to a register of the member (10 R309). -/
def State.giveRow (s : State) (t : TileId) (b : Issuer) (d : BitVec 5) (line : Line) (member : Nat) : State :=
  if member = 0 then s.modCtx ⟨b.core, b.ctx⟩ fun c => { c with v := c.v.setIfInBounds d.toNat line }
  else s.modCore (t.core .ac) fun k => { k with follows := k.follows.map fun (f : Follow) => { f with v := f.v.setIfInBounds d.toNat line } }

/-- Half a row of an accumulator (10 R305). -/
def accRow (a : BitVec 32768) (r half : Nat) : Line := a.extractLsb' (1024 * r + 512 * half) 512

/-- The value of a drain's element with its flags (10 R307); for mdrainadd the accumulator's, which its home converts (10 R308). -/
def drainValue (d : Drain) (type : Nat) (num : Nat) (p : BitVec 32) : Nat × Flags :=
  if d.add then (p.toNat, 0)
  else drainConvert (elemType type) d.fl (accValue d.fl p, false) (hashSr d.seed d.ticket num d.seqno).toNat

/-- A drain reads a member's accumulator: its elements get their values, and go out as far as they may (10 R306, R307, R309). -/
def State.drainFrom (s : State) (a : BitVec 32768) (x member : Nat) : State :=
  match s.xfers.find? fun y => y.id = x with
  | none => s
  | some y =>
    match y.drain with
    | none => s
    | some d =>
      let value (e : Elem) : Nat × Flags := drainValue d y.type e.num (accElem a (e.num / 32) (e.num % 32))
      let mine := y.todo.filter fun e => e.member = member
      let flags := mine.foldl (fun f e => f ||| (value e).2) 0
      ((s.modXfer x fun z =>
        { z with waits := z.waits - 1,
                 todo := z.todo.map fun (e : Elem) => if e.member = member then { e with val := some (value e).1 } else e }).giveFlags y.by_ flags).advanceAll

/-- What the oldest array operation of a tile does as it retires (10 R299 to R301, R305 to R309). -/
def State.retireOp (s : State) (t : TileId) (op : ArrayOp) : State :=
  let a := (s.tile t).acc op.acc
  match op.kind with
  | .matrix mode shape fa fb x y sx sy pops =>
    let r := matrixResult mode shape fa fb x y sx sy a
    (pops.foldl (fun s n => s.popRing t n) (s.setAcc t op.acc r.1)).giveFlags op.by_ r.2
  | .zero => s.setAcc t op.acc 0
  | .row d r half id member => (s.giveRow t op.by_ d (accRow a r half) member).replyTo op.by_ id 0 []
  | .drain x z member => (if z then s.setAcc t op.acc 0 else s).drainFrom a x member

/-- ARRAY_OPERATION_RETIRE (10 R294, R301): in the array order of a tile. -/
def execArrayOperationRetire (t : TileId) (s : State) : Outcome :=
  match (s.tile t).ops with
  | [] => .next s
  | op :: _ => .next ((s.modTile t fun x => { x with ops := x.ops.drop 1 }).retireOp t op)

end Sys2Proof.Machine
end

