-- ==== Sys2Proof/Machine/Translate.lean ====
section
/-! DEFINITION. Device steps of translation (14 R401 to R417, 17 R479): walks of the hashed page table, translated accesses forwarded to their homes,
page faults suspending tasks and holding engine parts, completions, invalidations. -/

namespace Sys2Proof.Machine

/-! ### The hashed page table (14 R404 to R406) -/

/-- The stack, log2 of the bucket count and base of a descriptor that has a table (14 Table 14.1). -/
def tableOf (d : Word) : Option (Nat × Nat × Nat) :=
  let stack := (d.extractLsb' 42 6).toNat
  let n := (d.extractLsb' 37 5).toNat
  if d.getLsbD 63 ∧ stack ≤ 43 ∧ 10 ≤ n ∧ n ≤ 30 then some (stack, n, (d.extractLsb' 12 24).toNat * 4096) else none

/-- The bits of a page offset, by size code (14 R406). -/
def pageShift : Nat → Nat
  | 2 => 30
  | 1 => 21
  | _ => 12

/-- Whether an entry is malformed (14 R405): w0 and w1 its words. -/
def malformed (w0 w1 : Word) : Bool :=
  let size := (w1.extractLsb' 61 2).toNat
  let tgt := (w1.extractLsb' 57 2).toNat
  let stack := (w1.extractLsb' 51 6).toNat
  let frame := (w1.extractLsb' 0 51).toNat
  let pages := 2 ^ (pageShift size - 12)
  w0.extractLsb' 8 4 != 0 || decide (size = 3) || decide (tgt = 3) || decide (43 < stack) || (decide (tgt ≠ 0) && decide (stack ≠ 0)) ||
  (decide (tgt = 0) && decide (16777216 ≤ frame)) || decide ((w0.extractLsb' 12 52).toNat % pages ≠ 0) || decide (frame % pages ≠ 0)

/-- Whether an entry answers for an address, a tag and a size (14 R406). -/
def entryMatches (w0 w1 va : Word) (tag : BitVec 8) (size : Nat) : Bool :=
  w1.getLsbD 63 && !malformed w0 w1 && decide ((w1.extractLsb' 61 2).toNat = size) && decide (w0.extractLsb' 0 8 = tag) &&
  decide (w0 >>> pageShift size = va >>> pageShift size)

/-- The bucket of an address for a size (14 R406). -/
def bucketOf (va : Word) (tag : BitVec 8) (size n : Nat) : Nat :=
  let key := va >>> pageShift size
  let h := key ^^^ (key >>> 19) ^^^ (key >>> 38) ^^^ ((tag.setWidth 64) <<< 11) ^^^ (BitVec.ofNat 64 (size * 512))
  h.toNat % 2 ^ n

/-- The entry words at an offset of a stack. -/
def entryAt (m : Memory) (off : Nat) : Word × Word := (bytesToWord (m.read off 8), bytesToWord (m.read (off + 8) 8))

/-- The first matching entry of one size (14 R406): word 1. -/
def probe (m : Memory) (n base : Nat) (va : Word) (tag : BitVec 8) (size : Nat) : Option Word :=
  let b := bucketOf va tag size n
  (List.range 8).findSome? fun i =>
    let e := entryAt m (base + 64 * ((b + i / 4) % 2 ^ n) + 16 * (i % 4))
    if entryMatches e.1 e.2 va tag size then some e.2 else none

/-- A walk (14 R406): word 1 of the entry found. -/
def State.walk (s : State) (tag : BitVec 8) (va : Word) : Option Word :=
  match ((s.parts.get? tag).map Partition.desc).bind tableOf with
  | none => none
  | some (stack, n, base) => [2, 1, 0].findSome? fun size => probe (s.stack stack) n base va tag size

/-- The PASID that a partition's host accesses use on a link (14 R402, 17 R466): that of its first interface assigned on the link. DESIGN CHOICE, log 82: 0 where
none is assigned. -/
def State.pasidOf (s : State) (tag : BitVec 8) (link : Nat) : Nat :=
  (s.ifaces.findSome? fun f => match f.2.assigned with
    | some (l, p, t) => if l = link ∧ t = tag then some p.toNat else none
    | none => none).getD 0

/-- Where the byte of a bus address under a PASID stands in a link's host memory (14 R402). -/
def hostAt (pasid a : Nat) : Nat := pasid * 18446744073709551616 + a

/-- A page of an access, as an entry's word 1 gives it (14 R406), with the PASIDs of the partition's links (14 R402). -/
def pageOf (pasid : Nat → Nat) (w1 va : Word) (len : Nat) : Page :=
  let shift := pageShift (w1.extractLsb' 61 2).toNat
  let at_ := (w1.extractLsb' 0 51).toNat * 4096 + va.toNat % 2 ^ shift
  let tgt := (w1.extractLsb' 57 2).toNat
  { len := len, place := some (if tgt = 0 then .hbm (w1.extractLsb' 51 6).toNat at_ else .host (tgt - 1) (hostAt (pasid (tgt - 1)) at_)), r := w1.getLsbD 60, w := w1.getLsbD 59 }

/-- A page that is absent. -/
def absentPage (len : Nat) : Page := { len := len, place := none, r := false, w := false }

/-! ### Device memory through a partition's page table (14 R406; 17 R473, R476, R478, R481) -/

/-- Writes bytes at a place. -/
def State.pokePlace (s : State) (p : Place) (bs : List Byte) : State :=
  match p with
  | .tile t off => s.poke t off bs
  | .hbm n off => { s with hbm := s.hbm.set n ((s.stack n).write off bs) }
  | .host n a => { s with host := s.host.set n ((s.hostMem n).write a bs) }

/-- The pages of n bytes at a virtual address of a partition; none when one is absent, lies in the window or its reserved range, or fails a test. -/
def State.spans (s : State) (tag : BitVec 8) (va : Word) (n : Nat) (ok : Page → Bool) : Option (List Page) :=
  let ps := (pagePieces va n (n / 4096 + 2)).map fun p =>
    if inWindow p.1 || inReserved p.1 then none else (s.walk tag p.1).map fun w1 => pageOf (s.pasidOf tag) w1 p.1 p.2
  if ps.all fun p => (p.map ok).getD false then some (ps.filterMap id) else none

/-- The bytes of pages. -/
def State.readPages (s : State) (ps : List Page) : List Byte :=
  ps.flatMap fun p =>
    match p.place with
    | some (.hbm n off) => (s.stack n).read off p.len
    | some (.host l a) => (s.hostMem l).read a p.len
    | _ => []

/-- Writes bytes to pages. -/
def State.writePages (s : State) : List Page → List Byte → State
  | [], _ => s
  | p :: r, bs =>
    match p.place with
    | some x => (s.pokePlace x (bs.take p.len)).writePages r (bs.drop p.len)
    | none => s

/-- Reads device memory for the device's own use; none when it cannot be read. -/
def State.deviceRead (s : State) (tag : BitVec 8) (va : Word) (n : Nat) : Option (List Byte) := (s.spans tag va n Page.r).map s.readPages

/-- Writes device memory for the device's own use; nothing is written where it cannot be. -/
def State.deviceWrite (s : State) (tag : BitVec 8) (va : Word) (bs : List Byte) : State :=
  match s.spans tag va bs.length Page.w with
  | none => s
  | some ps => s.writePages ps bs

/-! ### The translation caches (14 R403) -/

/-- The die from whose interface a core's access is translated (14 R402). -/
def State.dieOf (s : State) (c : CoreId) : Nat := ((s.physical c.tile).map PTile.die).getD 0

/-- A cached entry for an address, the largest page first. -/
def State.cached (s : State) (die : Nat) (tag : BitVec 8) (va : Word) : Option Word :=
  let es := s.tlbs.getD die []
  [2, 1, 0].findSome? fun (size : Nat) =>
    (es.find? fun e => decide (e.1 = tag) && decide (e.2.1.toNat = size) && decide (e.2.2.1 = va >>> pageShift size)).map fun e => e.2.2.2

/-- Caches an entry: 8,192 at most, the oldest leaving (14 R403). -/
def State.cachePage (s : State) (die : Nat) (tag : BitVec 8) (va w1 : Word) : State :=
  let size := w1.extractLsb' 61 2
  let es := s.tlbs.getD die []
  { s with tlbs := s.tlbs.set die ((if es.length < 8192 then es else es.drop 1) ++ [(tag, size, va >>> pageShift size.toNat, w1)]) }

/-- PAGE_WALK (14 R402, R403, R406, R407): the next page of an access is found in the die's cache, or by a walk. -/
def execPageWalk (id : Nat) (s : State) : Outcome :=
  match s.flight id with
  | none => .next s
  | some f =>
    match f.pkt with
    | .walk a ((va, len) :: left) found =>
      let die := s.dieOf a.by_.core
      let put (s : State) (p : Page) : State := s.modFlight id fun f => { f with pkt := .walk a left (found ++ [p]) }
      event s (decide (f.st = .transit))
        (match s.cached die f.tag va with
         | some w1 => put s (pageOf (s.pasidOf f.tag) w1 va len)
         | none =>
           match s.walk f.tag va with
           | some w1 => put (s.cachePage die f.tag va w1) (pageOf (s.pasidOf f.tag) w1 va len)
           | none => put s (absentPage len))
    | _ => .next s

/-! ### What follows a translation (14 R406, R409) -/

/-- The request that a translated unit awaits. -/
def State.requestOf (s : State) (a : Access) : Nat :=
  match a.then_ with
  | .read id _ _ => id
  | .effect e => e.reply.getD 0
  | .atomic e => e.reply.getD 0
  | .check id _ _ _ => id
  | .wait _ _ =>
    match (s.ctx ⟨a.by_.core, a.by_.ctx⟩).phase with
    | .busy id _ _ _ _ _ => id
    | _ => 0

/-- Whether an access may go to a page (14 R409). -/
def Page.allows (p : Page) (k : AccessKind) : Bool :=
  match k with
  | .read => p.r
  | .wait => p.r
  | .engineRead => p.r
  | .write => p.w
  | .engineWrite => p.w
  | .atomic => p.r && p.w

/-- Whether a page lies in host memory. -/
def Page.isHost (p : Page) : Bool :=
  match p.place with
  | some (.host _ _) => true
  | _ => false

/-- Whether an access is an ldff's (07 R234). -/
def Access.isPrefix (a : Access) : Bool :=
  match a.then_ with
  | .read _ _ .leading => true
  | _ => false

/-- The pages with the offsets at which they begin in the access. -/
def withOffsets : Nat → List Page → List (Nat × Page)
  | _, [] => []
  | o, p :: ps => (o, p) :: withOffsets (o + p.len) ps

/-- A place some bytes further. -/
def Place.plus : Place → Nat → Place
  | .tile t o, n => .tile t (o + n)
  | .hbm k o, n => .hbm k (o + n)
  | .host k a, n => .host k (a + n)

/-- The part of an act that falls on bytes o to o + n - 1 of an access, at an offset of its page's home. -/
def Act.slice (o n at_ : Nat) (a : Act) : Option Act :=
  match a with
  | .write off bs fe =>
    let lo := max off o
    let hi := min (off + bs.length) (o + n)
    if lo < hi then some (.write (at_ + (lo - o)) ((bs.drop (lo - off)).take (hi - lo)) fe) else none
  | .bits off m b fe => if o ≤ off ∧ off < o + n then some (.bits (at_ + (off - o)) m b fe) else none
  | .amo op off size b e => if o ≤ off ∧ off < o + n then some (.amo op (at_ + (off - o)) size b e) else none
  | .famo op off t b => if o ≤ off ∧ off < o + n then some (.famo op (at_ + (off - o)) t b) else none
  | .bf op off b m => if o ≤ off ∧ off < o + n then some (.bf op (at_ + (off - o)) b m) else none
  | .wake off k => if o ≤ off ∧ off < o + n then some (.wake (at_ + (off - o)) k) else none
  | .add off bit ty fl v d fe => if o ≤ off ∧ off < o + n then some (.add (at_ + (off - o)) bit ty fl v d fe) else none
  | .setEmpty off => if o ≤ off ∧ off < o + n then some (.setEmpty (at_ + (off - o))) else none
  | .incr c e => if o = 0 then some (.incr c e) else none

/-- The part of an effect that falls on a page. -/
def Effect.onPage (e : Effect) (o : Nat) (p : Page) (at_ : Nat) : Effect :=
  { e with part := e.part + o, acts := e.acts.filterMap (Act.slice o p.len at_), addr := e.addr + BitVec.ofNat 64 o, reply := none }

/-- Changes how many parts of its answer a unit, or an engine's element, still waits for. -/
def State.moreParts (s : State) (b : Issuer) (id n : Nat) : State :=
  if b.engine then
    { s with xfers := s.xfers.map fun (x : Xfer) =>
      { x with todo := x.todo.map fun (e : Elem) => if e.req = some id then { e with need := e.need + n } else e } }
  else
    s.modCtx ⟨b.core, b.ctx⟩ fun c =>
      match c.phase with
      | .busy i need buf step wait cont => if i = id then { c with phase := .busy i (need + n) buf step wait cont } else c
      | _ => c

/-- Forwards a read, page by page (14 R410); an ldff stops before the first page that it cannot read, with a cause (07 R234). -/
def State.forwardRead (s : State) (a : Access) (id pos : Nat) (mode : ReadMode) (ps : List Page) (cause : Nat) : State :=
  let pages := withOffsets 0 ps
  let len := sumOf (ps.map Page.len)
  let parts := pages.length + (if cause = 0 then 0 else 1)
  let s := s.moreParts a.by_ id (parts - 1)
  let s := pages.foldl (fun s (x : Nat × Page) =>
    match x.2.place with
    | none => s
    | some p => s.send (some a.by_.core) none (.read p x.2.len a.by_ id (pos + x.1) mode (a.addr + BitVec.ofNat 64 x.1))) s
  if cause = 0 then s else s.sendBack a.by_ (.prefixReply a.by_ id (pos + len) [] cause)

/-- Posts a unit's translated write, page by page, and lets the unit go on (07 R219). -/
def State.forwardWrite (s : State) (e : Effect) (id : Nat) (ps : List Page) : State :=
  let s := (withOffsets 0 ps).foldl (fun s (x : Nat × Page) =>
    match x.2.place with
    | none => s
    | some p => s.post p.home (e.onPage x.1 x.2 p.off) .transit) s
  s.replyTo e.by_ id 0 []

/-- Sends an engine's translated write, page by page: the first page carries the number that its transfer waits for, the others take one each (10 R324). -/
def State.forwardEngine (s : State) (e : Effect) (ps : List Page) : State :=
  (withOffsets 0 ps).foldl (fun s (x : Nat × Page) =>
    match x.2.place with
    | none => s
    | some p =>
      let s := if x.1 = 0 then s else
        match e.xfer with
        | none => s
        | some n => s.modXfer n fun y => { y with writes := y.writes ++ [s.fresh] }
      let w := if x.1 = 0 then e.wid else some s.fresh
      let s := if x.1 = 0 then s else { s with fresh := s.fresh + 1 }
      s.send (some e.by_.core) none (.effect p.home { e.onPage x.1 x.2 p.off with wid := w })) s

/-- An effect of the unit in a context with its key, which it takes now unless it took one at issue (12 R353, 14 R416); none past 2^30 - 1. -/
def State.keyed (s : State) (e : Effect) : Option (Effect × State) :=
  if e.key.isSome then some (e, s)
  else
    match ({ s with cur := ⟨e.by_.core, e.by_.ctx⟩ } : State).takeSeq with
    | none => none
    | some (k, s) => some ({ e with key := k, gated := k.isSome && !(s.core e.by_.core).free }, s)

/-- The other effects of a unit take the key of its translated part (12 R353). -/
def State.keyOthers (s : State) (e : Effect) : State :=
  s.modCtx ⟨e.by_.core, e.by_.ctx⟩ fun c =>
    match c.phase with
    | .busy i need buf step wait (.posts es pop) =>
      { c with phase := .busy i need buf step wait (.posts (es.map fun (x : Home × Effect) => (x.1, { x.2 with key := e.key, gated := e.gated })) pop) }
    | _ => c

/-- A denial of a translated access at the interface (14 R409, 10 R323, 11 R347, 12 R372). -/
def State.denyAccess (s : State) (a : Access) (id : Nat) (code : BitVec 8) (tval : Word) : State :=
  if a.by_.engine then
    match a.then_ with
    | .read rid pos _ => s.denyRead a.by_ rid pos a.len tval
    | .effect e => s.denyEffect e e.addr
    | _ => s
  else s.faultTo a.by_ id code tval

/-- A release store whose home has been tested goes on to its release (11 R347). -/
def State.checked (s : State) (b : Issuer) (id : Nat) (set : ScopeSet) (step : Nat) (r : Released) : State :=
  let c : CtxId := ⟨b.core, b.ctx⟩
  match (s.ctx c).phase with
  | .busy i _ _ _ _ _ => if i = id then ({ s with cur := c } : State).release set 0 step r else s
  | _ => s

/-- Forwards an access whose pages are present and allow it. -/
def State.forward (s : State) (a : Access) (ps : List Page) : State :=
  let id := s.requestOf a
  match a.then_ with
  | .read rid pos mode => s.forwardRead a rid pos mode ps 0
  | .check rid set step r => s.checked a.by_ rid set step r
  | .effect e =>
    if e.by_.engine then s.forwardEngine e ps
    else
      match s.keyed e with
      | none => s.faultTo a.by_ id causeProt 0x600
      | some (e, s) => (s.keyOthers e).forwardWrite e id ps
  | .atomic e =>
    match s.keyed e, ps.head?.bind Page.place with
    | none, _ => s.faultTo a.by_ id causeProt 0x600
    | some (e, s), some p => s.postReply p.home { e with acts := e.acts.filterMap (Act.slice 0 a.len p.off) }
    | some _, none => s
  | .wait expected entry =>
    match ps.head?.bind Page.place with
    | none => s
    | some p =>
      let t := ({ s with trapped := none } : State).replyTo a.by_ id 0 []
      if t.trapped.isSome then t else State.send t (some a.by_.core) none (.wait p expected a.by_ entry a.va)

/-! ### Page faults (14 R410 to R414, 17 R479) -/

/-- The access code of a fault record (14 Table 14.4). -/
def Access.code (a : Access) : Nat :=
  match a.kind, a.then_ with
  | .read, _ => 0
  | .write, .effect e => if e.acts.any (fun x => !x.isWrite) then 3 else 1
  | .write, _ => 1
  | .atomic, _ => 2
  | .wait, _ => 3
  | .engineRead, _ => 4
  | .engineWrite, _ => 5

/-- Records in a fault queue (17 R479). -/
def Partition.faultRoom (p : Partition) : Bool := decide ((p.ftail - p.fhead).toNat < 2 ^ (min (max p.fsize 4) 16))

/-- The words of a fault record (14 Table 14.4). -/
def faultRecord (tag : BitVec 8) (a : Access) (role fibre : Nat) (isTrapped : Bool) (number : BitVec 32) (va : Word) : List Word :=
  [va, BitVec.ofNat 64 (tag.toNat * 72057594037927936 + a.code * 4503599627370496 + role * 1125899906842624 +
        (if isTrapped then 281474976710656 else 0) + fibre * 17592186044416 + a.by_.core.t), number.setWidth 64, 0]

/-- Writes a fault record (14 R411, 17 R479): pending unless its unit traps. It stands at its place of the queue from the queue's base, a device address of the
partition (DESIGN CHOICE, log entry 22). -/
def State.recordFault (s : State) (tag : BitVec 8) (a : Access) (fibre : Option Nat) (flight : Option Nat) (va : Word) : State :=
  match s.parts.get? tag with
  | none => s
  | some p =>
    let isTrapped := fibre.isNone && flight.isNone
    let place := p.ftail.toNat % 2 ^ (min (max p.fsize 4) 16)
    let r := faultRecord tag a a.by_.core.r.code (fibre.getD 0) isTrapped p.fnext va
    (s.modPart tag fun p =>
      { p with fnext := p.fnext + 1, ftail := p.ftail + 1, frecs := p.frecs.set place r,
               pendings := if isTrapped then p.pendings
                 else p.pendings ++ [{ number := p.fnext, fibre := fibre.map fun n => (a.by_.core, n), flight := flight }] }).deviceWrite
      tag (p.fbase + BitVec.ofNat 64 (32 * place)) (r.flatMap wordBytes)

/-- The lowest free fibre of a core (14 R413). -/
def Core.freeFibre (k : Core) : Option Nat := (List.range 16).find? fun n => (k.fibres.get? n).isNone

/-- The fibre word of an upcall (14 Table 14.5). -/
def fibreWord (cls code fibre : Nat) : Word := BitVec.ofNat 64 (cls * 65536 + code * 256 + fibre)

/-- Suspends the task of a context in a fibre (14 R412) and enters its upcall (14 R414). -/
def State.suspend (s : State) (id : CtxId) (n : Nat) (number : BitVec 32) (code : Nat) (va : Word) : State :=
  let s := s.disband id
  let c := s.ctx id
  let f : Fibre := { ctx := { c with phase := .run, waited := 0, asked := none }, number := number, va := va, resumed := false, failed := false, ready := false }
  let s := s.modCore id.core fun k => { k with fibres := k.fibres.set n f }
  let s := match c.task with
    | none => s
    | some t =>
      match t.tt with
      | none => s
      | some tt =>
        if c.uvec = 0 then s
        else s.modCore id.core fun k => { k with waiting := k.waiting ++
          [({ kind := .upcall, cls := 0, s1 := fibreWord t.cls code n, s2 := va, s3 := 0, tt := tt, key := t.key, addr := some (c.uvec + 0x400), release := none } : Waiting)] }
  s.setCtx id Ctx.init

/-- Whether a task takes PAGE instead of suspending (14 Table 14.3). -/
def Ctx.takesPage (c : Ctx) : Bool :=
  c.level ≠ 0 || c.uih || (match c.task with
    | none => true
    | some t => decide (t.kind = .upcall) || decide (t.kind = .notice))

/-- A page fault of a flight's access (14 Table 14.3, R411 to R414, R417); none while it is held for a place in the queue or a fibre. -/
def State.pageFault (s : State) (f : Flight) (a : Access) (va : Word) : Option State :=
  match s.parts.get? f.tag with
  | none => none
  | some p =>
    if p.faultRoom = false then none
    else if a.by_.engine then
      some ((s.recordFault f.tag a none (some f.id) va).modFlight f.id fun f => { f with st := .fault p.fnext })
    else
      let id : CtxId := ⟨a.by_.core, a.by_.ctx⟩
      if (s.ctx id).takesPage then some (((s.recordFault f.tag a none none va).drop f.id).faultTo a.by_ (s.requestOf a) causePage va)
      else
        match (s.core a.by_.core).freeFibre with
        | none => none
        | some n => some (((s.recordFault f.tag a (some n) none va).drop f.id).suspend id n p.fnext a.code va)

/-- The pages before the first that an ldff cannot read, and why it stops there (07 R234, Table 7.7). -/
def readable : List Page → List Page × Nat
  | [] => ([], 0)
  | p :: ps =>
    if p.place.isNone then ([], 3)
    else if !p.r then ([], 2)
    else
      let x := readable ps
      (p :: x.1, x.2)

/-- The virtual address of the first byte in an absent page. -/
def firstAbsent (va : Word) (ps : List Page) : Option Word :=
  ((withOffsets 0 ps).find? fun x => x.2.place.isNone).map fun x => va + BitVec.ofNat 64 x.1

/-- A translated access that has all its pages: forwarded, denied, faulted, or held (14 R401, R406, R409, R410). -/
def State.translated (s : State) (f : Flight) (a : Access) (ps : List Page) : State :=
  let s' := s.drop f.id
  let id := s.requestOf a
  if (s.parts.get? f.tag).isNone then s'.denyAccess a id causeXpart (if a.by_.engine then a.va else f.tag.setWidth 64)
  else if a.isPrefix then
    match a.then_ with
    | .read rid pos mode =>
      let x := readable ps
      s'.forwardRead a rid pos mode x.1 x.2
    | _ => s
  else
    match firstAbsent a.va ps with
    | some va => (s.pageFault f a va).getD (s.modFlight f.id fun f => { f with st := .faulted })
    | none =>
      if ps.any fun p => !p.allows a.kind then s'.denyAccess a id causeProt a.va
      else if (ps.any Page.isHost) && (a.device || decide (a.kind = .atomic)) then s'.denyAccess a id causeProt a.va
      else s'.forward a ps

/-- Whether an access writes. -/
def Access.writes (a : Access) : Bool :=
  match a.then_ with
  | .effect _ => true
  | .atomic _ => true
  | _ => false

/-- Whether two accesses reach into one another. -/
def Access.meets (a b : Access) : Bool := decide (a.va.toNat < b.va.toNat + b.len) && decide (b.va.toNat < a.va.toNat + a.len)

/-- Whether an access whose translation was begun earlier by the same core goes first (10 R320, R324, R325; 11 R332): each while it is being translated, one held for a
page fault where it writes what the later one reaches. -/
def State.walkBlocked (s : State) (f : Flight) (a : Access) : Bool :=
  (s.net.takeWhile fun g => g.id ≠ f.id).any fun g => decide (g.src = f.src) && (match g.pkt, g.st with
    | .walk _ _ _, .transit => true
    | .walk b _ _, .faulted => b.writes && b.meets a
    | .walk b _ _, .fault _ => b.writes && b.meets a
    | _, _ => false)

/-- WALK_COMPLETE (14 R406, R409, R410). A flight held for a place or a fibre is tried again. -/
def execWalkComplete (id : Nat) (s : State) : Outcome :=
  match s.flight id with
  | none => .next s
  | some f =>
    match f.pkt with
    | .walk a [] found => event s ((decide (f.st = .transit) || decide (f.st = .faulted)) && !s.walkBlocked f a) (s.translated f a found)
    | _ => .next s

/-! ### Completions (14 R415, R417) -/

/-- A completion of a held engine part (14 R417): translated again, or read as zeros and its write skipped, each a denial (10 R323). -/
def State.completePart (s : State) (id : Nat) (fail : Bool) : State :=
  match s.flight id with
  | none => s
  | some f =>
    match f.pkt with
    | .walk a _ _ =>
      if fail then (s.drop id).denyAccess a 0 causePage a.va
      else s.modFlight id fun f => { f with st := .transit, pkt := .walk a (pagePieces a.va a.len (a.len / 4096 + 2)) [] }
    | _ => s

/-- FAULT_COMPLETION (14 R415, R417): ignored when it matches no outstanding record. -/
def execFaultCompletion (tag : BitVec 8) (number : BitVec 32) (fail : Bool) (s : State) : Outcome :=
  match (s.parts.get? tag).bind fun p => p.pendings.find? fun x => x.number = number with
  | none => .next s
  | some x =>
    let s := s.modPart tag fun p => { p with pendings := p.pendings.erase x }
    let s := match x.fibre with
      | some (c, n) => (s.completeFibre c n number fail).logHost c.tile (.resume c n number fail)
      | none => s
    .next (match x.flight with
      | some id => s.completePart id fail
      | none => s)

/-- FAULT_QUEUE_HEAD_WRITE (17 R479). -/
def execFaultQueueHeadWrite (tag : BitVec 8) (head : Word) (s : State) : Outcome := .next (s.modPart tag fun p => { p with fhead := head })

/-! ### Invalidations (14 R408) -/

/-- INVALIDATION (14 R408): every die's cache drops the matching entries, walks under way start again; accesses already translated are still out. -/
def execInvalidation (tag : BitVec 8) (va : Word) (size : BitVec 2) (s : State) : Outcome :=
  let gone (e : BitVec 8 × BitVec 2 × Word × Word) : Bool :=
    decide (e.1 = tag) && decide (e.2.1 = size) && decide (e.2.2.1 = va >>> pageShift size.toNat)
  let s := { s with tlbs := s.tlbs.map fun (x : Nat × List (BitVec 8 × BitVec 2 × Word × Word)) => (x.1, x.2.filter fun e => !gone e),
                    net := s.net.map fun (f : Flight) =>
                      match f.pkt, f.st with
                      | .walk a _ _, .transit => { f with pkt := .walk a (pagePieces a.va a.len (a.len / 4096 + 2)) [] }
                      | _, _ => f }
  .next ({ s with fresh := s.fresh + 1 }.modPart tag fun p => { p with invs := p.invs ++ [(s.fresh, va, size)] })

/-- Whether a flight is a translation that goes on with the pages that it has found (14 R406); one that meets an absent page finds them anew (14 R417). -/
def Flight.hasPage (f : Flight) : Bool :=
  match f.pkt, f.st with
  | .walk _ _ found, .transit => !found.isEmpty && found.all fun p => p.place.isSome
  | _, _ => false

/-- The writes of engines that travel without a translation. -/
def State.untranslated (s : State) : List Nat :=
  s.net.filterMap fun f => match f.pkt with
    | .walk a _ _ => if f.hasPage then none else match a.then_ with
      | .effect e => e.wid
      | _ => none
    | _ => none

/-- Whether an access that a partition's entries have translated is still out (14 R408): a forwarded access, one whose translation goes on with a page found, or
a write not acknowledged (11 R334). It goes by the tag of its issue, not by the one its core carries since. -/
def State.accessOut (s : State) (tag : BitVec 8) (since : Nat) : Bool :=
  (s.net.any fun f => decide (f.id < since) && decide ((f.pkt.issuer.map Issuer.tag) = some tag) && (f.hasPage || match f.pkt with
    | .read (.hbm _ _) _ _ _ _ _ _ => true
    | .read (.host _ _) _ _ _ _ _ _ => true
    | .effect (.agent _) _ => true
    | .effect (.host _) _ => true
    | .wait (.hbm _ _) _ _ _ _ => true
    | .wait (.host _ _) _ _ _ _ => true
    | _ => false)) ||
  (s.posted.any fun p => decide (p.wid < since) && decide (p.by_.tag = tag) && (match p.home with
    | .tile _ => false
    | _ => true)) ||
  (s.xfers.any fun x => decide (x.by_.tag = tag) && x.writes.any fun w => decide (w < since) && !s.untranslated.contains w)

/-- INVALIDATION_COMPLETE (14 R408). -/
def execInvalidationComplete (k : Nat) (s : State) : Outcome :=
  .next { s with parts := s.parts.map fun (x : BitVec 8 × Partition) =>
    (x.1, { x.2 with invs := x.2.invs.filter fun i => i.1 ≠ k || s.accessOut x.1 k }) }

end Sys2Proof.Machine
end

