-- ==== Sys2Proof/Machine/Pool.lean ====
section
/-! DEFINITION. The physical pool and folding: pool order and frames (15 R424, R425), free frames (R427), the boundary overrun of a fold or a close
(05 R153, 16 R446), folding, unfolding, summonses (R432 to R437), and the requests that change a partition's tiles (17 R467 to R469). -/

namespace Sys2Proof.Machine

/-! ### Pool order and frames (15 R424, R425) -/

/-- The Hilbert curve of order n (15 R424): t the rest of the index, s the side of the squares done. -/
def hilbert : Nat → Nat → Nat → Nat → Nat → Nat × Nat
  | 0, _, _, x, y => (x, y)
  | n + 1, t, s, x, y =>
    let rx := t / 2 % 2
    let ry := (t ^^^ rx) % 2
    let p := if ry = 0 then (if rx = 1 then (s - 1 - y, s - 1 - x) else (y, x)) else (x, y)
    hilbert n (t / 4) (2 * s) (p.1 + s * rx) (p.2 + s * ry)

/-- The zone-local column and row of a curve index (15 R424). -/
def hilbertXy (d : Nat) : Nat × Nat := hilbert 4 d 1 0 0

/-- The physical tile at a zone-local place (15 R424). -/
def zoneTile (z x y : Nat) : PTile := { die := z / 4, x := 16 * (z % 4 % 2) + x, y := 12 * (z % 4 / 2) + y }

/-- Whether a physical tile is live: sound, on a die that takes part (15 R424, 18 R501). -/
def State.live (s : State) (p : PTile) : Bool := decide (p.die < 52 ∧ p.x < 32 ∧ p.y < 24) && !s.dead.contains p && (s.die p.die).part

/-- A zone's live tiles in pool order (15 R424). -/
def State.poolOrder (s : State) (z : Nat) : List PTile :=
  ((((List.range 256).map hilbertXy).filter fun p => p.2 < 12).map fun p => zoneTile z p.1 p.2).filter s.live

/-- The j-th tile of the frame that a tile begins. -/
def frameTile (p : PTile) (j : Nat) : PTile := { p with x := p.x + j }

/-- The first column of the half row in which a tile lies: the first tile of its frame (15 R425). -/
def frameStart (p : PTile) : PTile := { p with x := p.x / 8 * 8 }

/-- The frames of a zone in frame order, each by its first tile (15 R425): a frame's number is its place. -/
def State.frames (s : State) (z : Nat) : List PTile := (s.poolOrder z).filter fun p => p.x % 8 = 0

/-- Whether a bundle occupies its frame: resident, folding or unfolding (15 R427). -/
def Bundle.placed (b : Bundle) : Bool := decide (b.st = .resident) || decide (b.st = .folding) || decide (b.st = .unfolding)

/-- The bundle on the frame that begins at a tile. -/
def State.occupant (s : State) (p : PTile) : Option (Nat × Nat) :=
  (s.bundles.find? fun e => e.2.placed && decide (e.2.home = p)).map fun e => e.1

/-- Whether a frame is free to a partition for a width (15 R427), and no remap wave has assigned it (15 R438). -/
def State.frameFree (s : State) (tag : BitVec 8) (w : Nat) (p : PTile) : Bool :=
  ((List.range w).all fun j => s.live (frameTile p j) && decide (s.tags.get? (frameTile p j) = some tag)) && (s.occupant p).isNone &&
  !(s.zones.any fun z => match z.2.wave with
    | none => false
    | some v => v.moves.any fun m => match m.2 with
      | none => false
      | some t => decide (t.2.2 = p))

/-- The first free frame of a zone that fits, with its number. -/
def State.frameIn (s : State) (tag : BitVec 8) (w z : Nat) : Option (Nat × Nat × PTile) :=
  let fs := s.frames z
  ((List.range fs.length).filterMap fun i => (fs[i]?).map fun p => (z, i, p)).find? fun x => s.frameFree tag w x.2.2

/-- The zones that hold tiles of a partition, in ascending number. -/
def State.zonesOf (s : State) (tag : BitVec 8) : List Nat :=
  (s.tags.filter fun e => e.2 = tag).foldl (fun l e => insertSorted e.1.zoneOf l) []

/-- The first free frame that fits, in frame order (15 R425, R427): its zone, number and first tile. -/
def State.findFrame (s : State) (tag : BitVec 8) (w : Nat) : Option (Nat × Nat × PTile) :=
  (s.zonesOf tag).findSome? fun z => s.frameIn tag w z

/-! ### Bundles -/

/-- Changes a bundle. -/
def State.modBundle (s : State) (b : Nat × Nat) (f : Bundle → Bundle) : State :=
  match s.bundles.get? b with
  | none => s
  | some x => { s with bundles := s.bundles.set b (f x) }

/-- Writes the entries of a bundle: a state and a new generation (15 R429). -/
def Bundle.enter (b : Bundle) (st : BundleSt) : Bundle := { b with st := st, gen := (b.gen + 1) % 65536 }

/-- The partition of a launch. -/
def State.tagOfLaunch (s : State) (l : Nat) : Option (BitVec 8) := (s.launches.get? l).map Launch.tag

/-- Whether a bundle holds a tile task that is the front of its scope (15 R432, R436); a free launch has no scope and no front (12 Table 12.3). -/
def State.holdsFront (s : State) (b : Nat × Nat) : Bool :=
  !s.isFree b.1 && (match (s.front b.1).bind s.tts.get? with
    | none => false
    | some x => (s.membersOf b.1 b.2).contains x.tile)

/-! ### Giving up a unit in progress (05 R153, 11 R337, 12 R353) -/

/-- Whether a packet carries the request whose answer a unit in progress awaits. -/
def Packet.asks (p : Packet) (id : CtxId) (req : Nat) : Bool :=
  match p with
  | .read _ _ b i _ _ _ => !b.engine && decide (i = req)
  | .effect _ e => decide (e.reply = some req)
  | .barArr _ _ _ _ _ i => decide (i = req)
  | .barReg _ _ _ _ i => decide (i = req)
  | .barBind _ _ _ unbind _ i => !unbind && decide (i = req)
  | .grpChange _ _ _ _ _ i => decide (i = req)
  | .walk a _ _ =>
    match a.then_ with
    | .read i _ _ => !a.by_.engine && decide (i = req)
    | .effect e => decide (e.reply = some req)
    | .atomic e => decide (e.reply = some req)
    | .check i _ _ _ => decide (i = req)
    | .wait _ _ => decide (a.by_.core = id.core ∧ a.by_.ctx = id.c)
  | _ => false

/-- The key of an effect that a packet carries. -/
def Packet.effectKey : Packet → Option Key
  | .effect _ e => e.key
  | .walk a _ _ =>
    match a.then_ with
    | .effect e => e.key
    | .atomic e => e.key
    | _ => none
  | _ => none

/-- Takes a flight back, out of a fold hamper too, whose units it frees (15 R435). -/
def State.takeBack (s : State) (f : Flight) : State :=
  match f.st, f.dst with
  | .parked, some t =>
    let s' := (s.drop f.id).modTile t fun x => { x with parked := x.parked.erase f.id }
    s'.modPart (s.partOf (t.core .mc)) fun p => { p with pool := p.pool + (unitsOf (s.parkedFlits t) - unitsOf (s'.parkedFlits t)) }
  | _, _ => s.drop f.id

/-- Gives up a unit in progress whose request has not been performed: the request is taken back wherever it stands, the unit's number too (12 R353: a
unit that traps takes none). None when its answer is on its way. -/
def State.giveUp (s : State) (id : CtxId) (req : Nat) : Option State :=
  let out := s.net.filter fun f => f.pkt.asks id req
  let held := (s.homes.flatMap fun h => h.2.held).filter fun e => e.reply = some req
  if (s.net.any fun f => f.pkt.answers req) || (out.isEmpty && held.isEmpty) then none
  else
    let key := ((out.filterMap fun f => f.pkt.effectKey) ++ held.filterMap Effect.key).head?
    let s := out.foldl State.takeBack s
    let s := { s with homes := s.homes.map fun (h : Home × HomeSt) => (h.1, { h.2 with held := h.2.held.filter fun e => e.reply ≠ some req }) }
    let s := match (s.ctx id).phase with
      | .busy _ _ _ _ _ (.barInit n _) => s.modBar id.core n fun x => { x with binding := none, mode := .off }
      | _ => s
    some (s.modCtx id fun c => { c with redo := key.map (fun k => k.seq.toNat % 1073741824), took := none })

/-- Brings a context to a boundary, when it can be: it could issue, its unit is held, or the unit in progress is given up. -/
def State.toBoundary (s : State) (id : CtxId) : Option State :=
  match (s.ctx id).phase with
  | .run => some s
  | .held _ => some s
  | .stall _ => some s
  | .busy _ _ _ _ true _ => some (s.abandon id)
  | .busy req _ _ _ false _ => s.giveUp id req
  | _ => none

/-! ### The boundary overrun (05 R153; 14 R422; 16 R446) -/

/-- Traps LONG kind 4, and keeps the context as it stood at the trap entry (14 R422), with the unit in progress that goes on beneath the handler; a task that goes
on afterwards has cw.wdog cycles again. -/
def State.overrun (s : State) (id : CtxId) (under : Option Beneath) : State :=
  let c := s.ctx id
  let s := (s.modCtx id fun c => { c with asked := some s.cycle, under := under, took := if under.isSome then none else c.took }).takeTrap id causeLong false c.pc 4
  let t := s.ctx id
  let snap : Ctx := { t with phase := .run, pc := c.pc, level := c.level, loop := c.loop, waited := 0, asked := none,
                             kbank := { t.kbank with tnest := c.kbank.tnest }, hbank := { t.hbank with tnest := c.hbank.tnest } }
  if t.phase = .dead then s else s.modCore id.core fun k => { k with overruns := k.overruns.set id.c snap }

/-- Whether a zone and round name a round that is still open: what carries them waits for its close. -/
def State.openRound (s : State) (r : Option (Nat × BitVec 32)) : Bool :=
  match r with
  | none => false
  | some r => decide (r.2 = (s.zone r.1).round)

/-- Whether the unit in progress of a context awaits the answer to a request that another zone holds for the open round (13 R384, 16 R450): the round must close
before the unit can end. -/
def State.crosses (s : State) (id : CtxId) : Bool :=
  match (s.ctx id).phase with
  | .busy req _ _ _ _ _ =>
    (s.net.any fun f => f.pkt.asks id req && s.openRound f.round) ||
    (s.homes.any fun h => h.2.held.any fun e => decide (e.reply = some req) && s.openRound e.round)
  | _ => false

/-- BOUNDARY_OVERRUN (05 R153, 16 R446): the task's cw.wdog cycles have run out. A unit in progress whose request waits for this very close keeps its request, and
goes on after the handler; any other is given up (DEDUCED, log entry 80). -/
def execBoundaryOverrun (id : CtxId) (s : State) : Outcome :=
  let c := s.ctx id
  if s.crosses id && s.resident id.core.tile then event s (s.overrunDue id) (s.overrun id (some { phase := c.phase, pc := c.pc, took := c.took }))
  else
    match s.toBoundary id with
    | none => .next s
    | some s' => event s (s.overrunDue id) (s'.overrun id none)

/-! ### Images (15 R433, 16 R447) -/

/-- Whether a kernel notice runs in a context, not double-trapped (14 R421). -/
def State.runsNotice (s : State) (id : CtxId) : Bool := (s.ctx id).isNotice && decide ((s.ctx id).phase ≠ .free) && decide ((s.ctx id).phase ≠ .dead)

/-- A context as an image records it (14 R422, 16 R446): one that has trapped LONG kind 4 for the close as it stood at trap entry, its unit in progress with it,
after the handler's eret too, else as it stands; a double-trapped context as it stands (04 R119). A kernel notice, which is no task, is recorded as not yet taken
(DEDUCED, log entry 39). -/
def State.imageCtx (s : State) (id : CtxId) : Ctx :=
  if s.runsNotice id then Ctx.init
  else
    match (s.core id.core).overruns.get? id.c with
    | none => s.ctx id
    | some o => if o.task.map Task.uid = (s.ctx id).task.map Task.uid ∧ (s.ctx id).phase ≠ .dead then o.resumed else s.ctx id

/-- A core as an image records it (16 R447), with the notices that run on it (DEDUCED, log entry 39); its contexts stand in the image as at their LONG kind 4. -/
def State.imageCore (s : State) (c : CoreId) : Core :=
  let taken := ((ctxsOf [c.tile]).filter fun i => decide (i.core = c) && s.runsNotice i).map fun i =>
    ({ code := (s.ctx i).kbank.code, tval := (s.ctx i).kbank.tval } : Async)
  { s.applyLater.core c with notices := taken ++ (s.core c).notices, overruns := [] }

/-- Entries of a map whose key meets a test. -/
def Map.only {κ ν : Type} (m : Map κ ν) (f : κ → Bool) : Map κ ν := m.filter fun e => f e.1

/-- The image of tiles as they stand (16 R447): what the tiles, their cores, their homes and their tile tasks hold, what their NIs have not injected, and the
transfers and posted writes of theirs that wait for other zones (DEDUCED, log entry 89). -/
def State.imageOf (s : State) (ts : List TileId) (round : BitVec 32) : Image :=
  { round := round, tiles := ts.map fun t => (t, s.tile t), cores := (coresOf ts).map fun c => (c, s.imageCore c),
    ctxs := (ctxsOf ts).map fun i => (i, s.imageCtx i), homes := ts.map fun t => (Home.tile t, s.home (.tile t)),
    tts := s.tts.filter fun e => ts.contains e.2.tile,
    queued := s.net.filter fun f =>
      match f.src with
      | none => false
      | some c => ts.contains c.tile && ((match f.st with
        | .queued _ => true
        | _ => false) || (match f.dst with
        | some d => ts.contains d
        | none => false)),
    xfers := s.xfers.filter fun x => ts.contains x.by_.core.tile,
    posted := (s.posted.filter fun p => ts.contains p.by_.core.tile).map Posted.wid }

/-- An image without some tiles. -/
def Image.without (i : Image) (ts : List TileId) : Image :=
  { i with tiles := i.tiles.only fun t => !ts.contains t, cores := i.cores.only fun c => !ts.contains c.tile,
           ctxs := i.ctxs.only fun x => !ts.contains x.core.tile,
           homes := i.homes.only fun h => match h with
             | .tile t => !ts.contains t
             | _ => true,
           tts := i.tts.filter fun e => !ts.contains e.2.tile,
           queued := i.queued.filter fun f => match f.src with
             | some c => !ts.contains c.tile
             | none => true,
           xfers := i.xfers.filter fun x => !ts.contains x.by_.core.tile }

/-- An image with the tiles of another. -/
def Image.with_ (i j : Image) : Image :=
  { i with tiles := i.tiles ++ j.tiles, cores := i.cores ++ j.cores, ctxs := i.ctxs ++ j.ctxs, homes := i.homes ++ j.homes, tts := i.tts ++ j.tts,
           queued := i.queued ++ j.queued, xfers := i.xfers ++ j.xfers, posted := i.posted ++ j.posted }

/-- The issuer of what a packet answers. -/
def Packet.answerTo : Packet → Option Issuer
  | .reply b _ _ _ => some b
  | .zeros b _ _ _ _ _ => some b
  | .prefixReply b _ _ _ _ => some b
  | .faultReply b _ _ _ => some b
  | .denial b _ _ _ => some b
  | .xpart b _ _ _ _ => some b
  | .flushRead _ b _ => some b
  | _ => none

/-- The destination tile of a logged arrival: for an answer, the tile of its issuer. -/
def Packet.dest : Packet → Option TileId
  | .message d _ => some d.tile
  | .spawn d _ _ => some d.tile
  | .credit d _ _ => some d.tile
  | .increment d _ => some d.tile
  | .effect (.tile t) _ => some t
  | .wait (.tile t _) _ _ _ _ => some t
  | .barArr d _ _ _ _ _ => some d.tile
  | .barReg d _ _ _ _ => some d.tile
  | .barBind t _ _ _ _ _ => some t
  | .grpChange t _ _ _ _ _ => some t
  | .grpUpdate d _ _ _ _ _ _ => some d.tile
  | .read (.tile t _) _ _ _ _ _ _ => some t
  | .protect t _ _ => some t
  | .profile t _ => some t
  | .bindEdge c _ _ => some c.tile
  | .resume c _ _ _ => some c.tile
  | p => p.answerTo.map fun b => b.core.tile

/-- An image that holds nothing. -/
def Image.blank : Image := { round := 0, tiles := [], cores := [], ctxs := [], homes := [], tts := [], queued := [], xfers := [], posted := [] }

/-- What a mending of a zone restores (16 R449): the restore point, and each tile placed since as it was when it came to stand there. -/
def Zone.mendImage (z : Zone) : Image :=
  z.placed.foldl (fun i p => (i.without p.2.tiles.keys).with_ p.2) (z.restore.getD Image.blank)

/-- Whether the latest image of a zone, or one of a tile placed since, holds a tile. -/
def Zone.holds (z : Zone) (t : TileId) : Bool :=
  ((z.streaming <|> z.restore).map fun i => (i.tiles.get? t).isSome).getD false ||
  z.placed.any fun p => decide (p.1 = z.round) && (p.2.tiles.get? t).isSome

/-- Takes tiles that come to stand in a zone as they stand: what they are restored to if the zone is lost before a round that holds them is mirrored; what the zone's
replay log holds of an earlier stay counts no more (DEDUCED, log entry 39). The images on their way stay as they are (16 R447). -/
def State.adopt (s : State) (z : Nat) (ts : List TileId) : State :=
  let x := s.zone z
  if ts.isEmpty || (x.restore.isNone && x.streaming.isNone) then s
  else
    s.modZone z fun x =>
      { x with placed := x.placed ++ [(x.round, s.imageOf ts x.round)],
               log := x.log.filter fun e => match e.2.dest with
                 | none => true
                 | some t => !ts.contains t }

/-! ### Requests that change a partition (17 R467 to R469) -/

/-- Assigns unassigned live tiles to a partition (17 R467); tiles of a zone without a buddy join none (16 R444). -/
def State.assign (s : State) (tag : BitVec 8) (ps : List PTile) : State :=
  ps.foldl (fun s p =>
    if s.live p && (s.tags.get? p).isNone && (s.zone p.zoneOf).buddy.isSome && (s.parts.get? tag).isSome then { s with tags := s.tags.set p tag } else s) s

/-- The placed bundles that a shrink folds: those on a frame that holds a named tile (17 R467). -/
def State.shrinkBundles (s : State) (ps : List PTile) : List (Nat × Nat) :=
  (s.bundles.filter fun e => e.2.placed && ps.any fun p => decide (frameStart p = e.2.home)).map fun e => e.1

/-- Whether a physical tile serves a bundle. -/
def State.serves (s : State) (p : PTile) : Bool :=
  s.bundles.any fun e => e.2.placed && decide (e.2.home = frameStart p) && decide (p.x - e.2.home.x < (s.membersOf e.1.1 e.1.2).length)

/-- The width of the widest bundle of a launch (15 R426). -/
def Launch.widest (l : Launch) : Nat := min 8 l.x

/-- Whether a partition would hold a frame of a capacity once some tiles have left it (17 R468, R474). -/
def State.hasFrame (s : State) (tag : BitVec 8) (w : Nat) (gone : List PTile) : Bool :=
  (s.zonesOf tag).any fun z => (s.frames z).any fun p => (List.range w).all fun j =>
    let q := frameTile p j
    s.live q && decide (s.tags.get? q = some tag) && !gone.contains q

/-- Whether a shrink is refused (17 R468). -/
def State.refusesShrink (s : State) (tag : BitVec 8) (ps : List PTile) : Bool :=
  s.launches.any fun l => decide (l.2.tag = tag) && !l.2.done && !s.hasFrame tag l.2.widest ps

/-- Begins a shrink of the named tiles that are the partition's. -/
def State.beginShrink (s : State) (tag : BitVec 8) (then_ : Option (BitVec 8)) (ps : List PTile) : State :=
  let mine := ps.filter fun p => s.tags.get? p = some tag
  if s.refusesShrink tag mine then s
  else { s with shrinking := s.shrinking ++ [{ tag := tag, then_ := then_, tiles := mine }] }

/-- The partitions that a request changes. -/
def Request.tags : Request → List (BitVec 8)
  | .grow t _ => [t]
  | .shrink t _ => [t]
  | .preEmpt p q _ => [p, q]

/-- Whether a change of a partition's tiles is in progress (17 R468). -/
def State.changing (s : State) (tag : BitVec 8) : Bool := s.shrinking.any fun x => decide (x.tag = tag) || decide (x.then_ = some tag)

/-- Performs a request. -/
def State.perform (s : State) (r : Request) : State :=
  match r with
  | .grow t ps => s.assign t ps
  | .shrink t ps => s.beginShrink t none ps
  | .preEmpt p q ps => s.beginShrink p (some q) ps

/-- Performs the waiting requests whose partitions nothing earlier changes, in order (17 R468). -/
def State.serveRequests (s : State) : State :=
  s.requests.foldl (fun s r =>
    let before := s.requests.takeWhile fun x => x ≠ r
    if r.tags.any fun t => s.changing t || before.any fun x => x.tags.contains t then s
    else { s with requests := s.requests.erase r }.perform r) s

/-- Releases the named tiles that serve no bundle, and ends the shrinks that have nothing left to fold; the tiles of a pre-emption then join the other
partition (17 R467, R469). -/
def State.settleShrinks (s : State) : State :=
  let s := s.shrinking.foldl (fun s x =>
    let s := { s with tags := s.tags.filter fun e => !(x.tiles.contains e.1 && decide (e.2 = x.tag) && !s.serves e.1) }
    if (s.shrinkBundles x.tiles).isEmpty then
      let s := { s with shrinking := s.shrinking.erase x }
      match x.then_ with
      | none => s
      | some q => s.assign q x.tiles
    else s) s
  s.serveRequests

/-- A request reaches HW-B: it waits behind what changes its partitions (17 R468). -/
def State.request (s : State) (r : Request) : State := { s with requests := s.requests ++ [r] }.serveRequests.settleShrinks

/-- Whether the boot status block reads full or minimal (18 R502): partitions are served. -/
def State.booted (s : State) : Bool :=
  let m := ((s.boot.getD 0 0).extractLsb' 32 2).toNat
  decide (m = 1 ∨ m = 2)

/-- GROW (17 R467). -/
def execGrow (tag : BitVec 8) (tiles : List PTile) (s : State) : Outcome :=
  event s ((s.parts.get? tag).isSome && s.booted) (s.request (.grow tag tiles))

/-- SHRINK (17 R467, R468). -/
def execShrink (tag : BitVec 8) (tiles : List PTile) (s : State) : Outcome :=
  event s ((s.parts.get? tag).isSome && s.booted) (s.request (.shrink tag tiles))

/-- PRE_EMPTION (17 R469). -/
def execPreEmption (p q : BitVec 8) (tiles : List PTile) (s : State) : Outcome :=
  event s ((s.parts.get? p).isSome && (s.parts.get? q).isSome && s.booted) (s.request (.preEmpt p q tiles))

/-! ### Folding (15 R432, R433) -/

/-- The summoned bundles of a partition that are folded, in the order in which they are served: those that hold a front first (15 R436). -/
def State.summonses (s : State) (tag : BitVec 8) : List (Nat × Nat) :=
  let l := s.bundles.filter fun e => decide (e.2.st = .folded) && e.2.summoned.isSome && decide (s.tagOfLaunch e.1.1 = some tag)
  (sortBy (fun (a b : (Nat × Nat) × Bundle) =>
    let fa := s.holdsFront a.1
    let fb := s.holdsFront b.1
    (fa && !fb) || (decide (fa = fb) && decide (a.2.summoned.getD 0 < b.2.summoned.getD 0))) l).map fun e => e.1

/-- Whether a bundle may be the victim of a summons that finds no free frame (15 R432). -/
def State.isVictim (s : State) (n : Nat × Nat) (b : Bundle) : Bool :=
  match s.tagOfLaunch n.1 with
  | none => false
  | some tag =>
    let unserved := (s.summonses tag).filter fun x => (s.findFrame tag (s.membersOf x.1 x.2).length).isNone
    let folding := s.bundles.filter fun e => decide (e.2.st = .folding) && decide (s.tagOfLaunch e.1.1 = some tag)
    decide (folding.length < unserved.length) && !b.pinned && decide (b.since + 75000 ≤ s.cycle) && !s.holdsFront n

/-- Whether a shrink folds a bundle (17 R467). -/
def State.isShrunk (s : State) (n : Nat × Nat) : Bool := s.shrinking.any fun x => (s.shrinkBundles x.tiles).contains n

/-- FOLD (15 R433 step 1): for a shrink, or as the victim of a summons. -/
def execFold (l b : Nat) (s : State) : Outcome :=
  match s.bundles.get? (l, b) with
  | none => .next s
  | some x =>
    event s (decide (x.st = .resident) && (s.isShrunk (l, b) || s.isVictim (l, b) x))
      ((s.membersOf l b).foldl (fun s t => s.askTile t) (s.modBundle (l, b) fun x => x.enter .folding))

/-- Whether the members of a bundle stand at their boundaries: tasks ended, suspended or saved, array operations retired, transfers complete (15 R433 step 2;
05 R153; 10 R327). A kernel notice, which is no task, is saved at its next boundary (14 R421; DEDUCED, log entry 39). -/
def State.foldReady (s : State) (ts : List TileId) : Bool :=
  ((ctxsOf ts).all fun i => match (s.ctx i).phase with
    | .free => true
    | .dead => true
    | .saved => true
    | _ => (s.ctx i).isNotice && (s.ctx i).atBoundary) &&
  (ts.all fun t => (s.tile t).ops.isEmpty) && !(s.xfers.any fun x => ts.contains x.by_.core.tile)

/-- FOLD_STREAMED (15 R433 steps 3 and 4): the state is in the images, the frame is free. -/
def execFoldStreamed (l b : Nat) (s : State) : Outcome :=
  match s.bundles.get? (l, b) with
  | none => .next s
  | some x =>
    let ts := s.membersOf l b
    event s (decide (x.st = .folding) && s.foldReady ts)
      (let s := s.modBundle (l, b) fun x => x.enter .folded
       let s := ((ctxsOf ts).filter s.runsNotice).foldl (fun s i => (s.abandon i).modCtx i fun c => { c with phase := .saved }) s
       ((coresOf ts).foldl (fun s c => s.modCore c fun k => { k with overruns := [] }) s).settleShrinks)

/-! ### Unfolding (15 R436) -/

/-- UNFOLD (15 R436 steps 1 and 2): the summons that is first in order takes the first free fitting frame. A zone that does not hold its tiles from their last stay
takes them as they stand. -/
def execUnfold (l b : Nat) (s : State) : Outcome :=
  match s.bundles.get? (l, b), s.tagOfLaunch l with
  | some x, some tag =>
    match s.findFrame tag (s.membersOf l b).length with
    | none => .next s
    | some (_, i, p) =>
      let ts := s.membersOf l b
      let new := ts.filter fun t => decide (x.home.zoneOf ≠ p.zoneOf) || !(s.zone p.zoneOf).holds t
      event s (decide (x.st = .folded) && decide ((s.summonses tag).head? = some (l, b)))
        ((s.adopt p.zoneOf new).modBundle (l, b) fun x => { x.enter .unfolding with frame := i, home := p, summoned := none })
  | _, _ => .next s

/-- The state that an outcome of a device step leaves. -/
def after (s : State) (o : Outcome) : State :=
  match o with
  | .next t => t
  | _ => s

/-- Applies an arrival, of whatever kind it is (15 R436 step 4). -/
def State.arrive (s : State) (id : Nat) : State :=
  ([execMessageArrival, execCreditReturn, execCounterIncrementArrival, execRemoteAccessArrival, execEffectArrival, execWaitRequestArrival, execLdsyncCancel,
    execReadReply, execWriteAcknowledgement, execWriteDenial, execXpartNotice, execFlushReadComplete, execBarrierArrival, execBarrierRegistration,
    execBarrierBind, execGroupChange, execMembershipUpdate] : List (Nat → State → Outcome)).foldl (fun s f => after s (f id s)) s

/-- Takes a tile's fold hamper back into the network, ahead of everything else, in order; its units return to the pool (15 R435). -/
def State.unpark (s : State) (t : TileId) (gen : Nat) : State :=
  let ids := (s.tile t).parked
  let n := unitsOf (s.parkedFlits t)
  let mine := ids.filterMap fun i => (s.flight i).map fun (f : Flight) => { f with st := .transit, gen := gen }
  let s := { s with net := mine ++ s.net.filter fun (f : Flight) => !ids.contains f.id }
  (s.modTile t fun x => { x with parked := [] }).modPart (s.partOf (t.core .mc)) fun p => { p with pool := p.pool + n }

/-- The cores of an unfolded tile go on: what was saved runs, starts are released, the watch of the fold ends (14 R422, 16 R458). -/
def State.wakeTile (s : State) (t : TileId) : State :=
  let s := (ctxsOf [t]).foldl (fun s i =>
    if (s.ctx i).phase = .free then s
    else s.modCtx i fun c => { (if c.phase = .saved then c.resumed else c) with asked := none }) s
  (coresOf [t]).foldl (fun s c => s.modCore c fun k =>
    { k with overruns := [], waiting := k.waiting.map fun (w : Waiting) => { w with release := none } }) s

/-- Tiles that come to stand in a zone whose close is asked: their tasks have cw.wdog cycles too (16 R446). -/
def State.joinClose (s : State) (z : Nat) (ts : List TileId) : State := if (s.zone z).asked then ts.foldl (fun s t => s.askTile t) s else s

/-- Tiles that stand in a frame again: a later fold of theirs raises TILEFAULT anew (14 R421, 15 R435). -/
def State.clearTileFaults (s : State) (ts : List TileId) : State :=
  { s with cores := s.cores.map fun (k : CoreId × Core) => (k.1, { k.2 with tileFaults := k.2.tileFaults.filter fun t => !ts.contains t }) }

/-- UNFOLD_COMPLETE (15 R436 steps 3 to 5): the fold hampers are applied, oldest first, and the entries are resident. -/
def execUnfoldComplete (l b : Nat) (s : State) : Outcome :=
  match s.bundles.get? (l, b) with
  | none => .next s
  | some x =>
    let ts := s.membersOf l b
    let ids := ts.flatMap fun t => (s.tile t).parked
    event s (decide (x.st = .unfolding))
      (let s := s.modBundle (l, b) fun x => { x.enter .resident with since := s.cycle }
       let s := ts.foldl (fun s t => (s.unpark t ((x.gen + 1) % 65536)).wakeTile t) s
       (ids.foldl State.arrive (s.clearTileFaults ts)).joinClose x.home.zoneOf ts)

end Sys2Proof.Machine
end

