-- ==== Sys2Proof/Machine/Zones.lean ====
section
/-! DEFINITION. Supply zones: rounds and their closes (16 R445 to R451), losses, remap waves and mending (15 R438, R439; 16 R452 to R456), power groups (16
R457, R459), and the deadlock scan (06 R195, R196). -/

namespace Sys2Proof.Machine

/-! ### Rounds (16 R445 to R451) -/

/-- Whether the replay log of a zone's open round fills its space at the buddy (16 R445). -/
def Zone.logIsFull (z : Zone) (zone : Nat) : Bool :=
  let n := (z.log.filter fun e => decide (e.1 = z.round)).length
  decide (0 < n) && Config.logFull zone n

/-- ROUND_TIMER (16 R445): a round open for 75,000 cycles, or whose replay log fills its space, makes its close fall due. -/
def execRoundTimer (zone : Nat) (s : State) : Outcome :=
  let z := s.zone zone
  event s ((s.zones.get? zone).isSome && z.due.isNone && !z.lost && (decide (z.opened + 75000 ≤ s.cycle) || z.logIsFull zone)) (s.askClose zone)

/-- CLOSE_DEFERRAL_END (16 R445): a deferred close is due once the round has been open for 1,024 cycles. -/
def execCloseDeferralEnd (zone : Nat) (s : State) : Outcome :=
  let z := s.zone zone
  match z.due with
  | none => .next s
  | some t => event s (!z.asked && decide (t ≤ s.cycle)) (s.closeNow zone)

/-- Whether a context stands at its boundary for a close (16 R446): its task ended, suspended, double-trapped, saved, or trapped LONG kind 4 for this close,
also once the handler has returned. A kernel notice is no task, and no close waits for it (14 R421). -/
def State.closeCtx (s : State) (id : CtxId) : Bool :=
  let c := s.ctx id
  match c.phase with
  | .free => true
  | .dead => true
  | .saved => true
  | _ => c.isNotice || (match (s.core id.core).overruns.get? id.c with
    | none => false
    | some o => decide (o.task.map Task.uid = c.task.map Task.uid))

/-- Every home applies what may now be applied, acknowledges what is mirrored now, and serves what waits (12 R364, R365; 16 R450). -/
def State.releaseHomes (s : State) : State :=
  s.homes.keys.foldl (fun s h => s.catchUp h) s

/-- Contexts of tiles that a wave has restored, or that a close leaves where they are: on a resident tile what was saved goes on, on a folded one it waits. -/
def State.settleCtxs (s : State) (ts : List TileId) : State :=
  (ctxsOf ts).foldl (fun s i =>
    match (s.ctx i).phase with
    | .saved => if s.resident i.core.tile then s.modCtx i Ctx.resumed else s
    | .run => if s.resident i.core.tile then s else s.modCtx i fun c => { c with phase := .saved }
    | .held _ => if s.resident i.core.tile then s else s.modCtx i fun c => { c with phase := .saved }
    | .stall _ => if s.resident i.core.tile then s else s.modCtx i fun c => { c with phase := .saved }
    | _ => s) s

/-- The watch of a close on tiles ends. -/
def State.unask (s : State) (ts : List TileId) : State :=
  let s := (ctxsOf ts).foldl (fun s i => if (s.ctx i).asked.isSome then s.modCtx i fun c => { c with asked := none } else s) s
  (coresOf ts).foldl (fun s c => if (s.core c).overruns.isEmpty then s else s.modCore c fun k => { k with overruns := [] }) s

/-- The writes whose effect stands in another zone until the round that it was sent in is mirrored (16 R450). -/
def State.crossingWrites (s : State) : List Nat :=
  (s.net.filterMap fun f => match f.pkt with
    | .effect _ e => if (f.round.map s.unmirrored).getD false then e.wid else none
    | _ => none) ++ (s.homes.flatMap fun h => (h.2.held.filter fun e => !s.mirrored e).filterMap Effect.wid)

/-- Whether a transfer waits only for writes of its own, or of one before it, that wait for the round's own close: it stands in the image, and goes on after the
close (10 R327, 16 R446, R450; DEDUCED, log entry 89). -/
def State.xferStands (s : State) (x : Xfer) : Bool :=
  decide (x.waits = 0) && x.ring.isNone && (x.todo.all fun e => e.val.isSome) && (x.todo.isEmpty || s.behind x) && !(x.todo.isEmpty && x.writes.isEmpty) &&
  x.writes.all s.crossingWrites.contains

/-- ROUND_CLOSE (16 R446, R447, R449): the image is captured, the next round opens. -/
def execRoundClose (zone : Nat) (s : State) : Outcome :=
  let z := s.zone zone
  let ts := s.tilesIn zone
  event s (z.asked && z.streaming.isNone && !z.lost && (ctxsOf ts).all s.closeCtx && (ts.all fun t => (s.tile t).ops.isEmpty) &&
      (s.xfers.filter fun x => ts.contains x.by_.core.tile).all s.xferStands)
    (let image := s.imageOf ts z.round
     let s := (s.unask ts).settleCtxs (ts.filter s.resident)
     let s := s.modZone zone fun z =>
       { z with round := z.round + 1, opened := s.cycle, due := none, asked := false,
                streaming := if z.buddy.isSome || z.next.isSome then some image else none,
                log := if z.buddy.isSome then z.log else [], placed := if z.buddy.isSome then z.placed else [] }
     if z.buddy.isSome then s else s.releaseHomes)

/-- ROUND_MIRRORED (16 R449 to R451): the buddy, which is not lost, has acknowledged the image: it is the restore point, its log is discarded, what its round
held back is released. A full image mirrored at a new partner makes the pair (16 R456). -/
def execRoundMirrored (zone : Nat) (s : State) : Outcome :=
  let z := s.zone zone
  match z.streaming, z.buddy <|> z.next with
  | some i, some b =>
    event s (!(s.zone b).lost)
      (s.modZone zone fun z =>
        { z with streaming := none, restore := some i, log := z.log.filter (fun e => e.1 ≠ i.round), placed := z.placed.filter fun p => p.1 ≠ i.round,
                 buddy := if z.buddy.isSome then z.buddy else z.next, next := none }).releaseHomes
  | _, _ => .next s

/-! ### Pairing (16 R444) -/

/-- The first die of each die row (16 Table 16.3). -/
def dieRows : List Nat := [0, 4, 10, 18, 26, 34, 42, 48]

/-- The die row of a die. -/
def dieRow (d : Nat) : Nat := (dieRows.filter fun x => x ≤ d).length

/-- Whether two dies lie in one die row. -/
def sameRow (a b : Nat) : Bool := decide (a < 52) && decide (b < 52) && decide (dieRow a = dieRow b)

/-- Whether a zone is live: its regulator is sound and it holds a live tile (16 R444). -/
def State.liveZone (s : State) (z : Nat) : Bool := (s.zone z).sound && !(s.poolOrder z).isEmpty

/-- The zones that a zone may pair with across a seam, in the order in which it tries them (16 R444). -/
def seamZones (z : Nat) : List Nat :=
  let d := z / 4
  let row := z % 4 / 2
  (if 1 ≤ d ∧ sameRow d (d - 1) then [4 * (d - 1) + 2 * row + 1] else []) ++ (if sameRow d (d + 1) then [4 * (d + 1) + 2 * row] else [])

/-- The unpaired live zone that a zone pairs with across a seam (16 R444 step 2). -/
def State.seamPartner (s : State) (z : Nat) : Option Nat :=
  (seamZones z).find? fun y => s.liveZone y && (s.zone y).buddy.isNone && (s.zone y).next.isNone && !(s.zone y).lost

/-- Appends a record to a die's retirement log (18 R494, R496). -/
def State.appendLog (s : State) (die kind index cause : Nat) : State := s.modDie die fun d => d.append die kind index cause

/-! ### Failed launches (16 R452, R456) -/

/-- The lowest logical tile of a launch outside the lost zones (14 R421). -/
def State.outside (s : State) (l : Nat) : Option TileId :=
  ((List.range (s.gridSize l)).map fun t => (⟨l, t⟩ : TileId)).find? fun t =>
    match s.bundle t with
    | none => false
    | some b => decide (b.st ≠ .remapping)

/-- Fails a launch with ZONELOST (14 R421, 16 R452, R456). -/
def State.failLaunch (s : State) (l : Nat) (tval : Word) : State :=
  match s.launches.get? l with
  | none => s
  | some x =>
    if x.failed || x.done then s
    else
      let s := s.modLaunch l fun x => { x with failed := true }
      match s.outside l with
      | none => s
      | some t => s.modCore (t.core .mc) fun k => { k with notices := k.notices ++ [{ code := causeZonelost, tval := tval }] }

/-! ### The loss of a zone (15 R438, R439; 16 R452, R453) -/

/-- Places the moved bundles of a zone in order (15 R438 step 3): in the zone, else elsewhere in the partition, else folded. -/
def State.placeMoves (s : State) (zone : Nat) (bs : List (Nat × Nat)) : State :=
  bs.foldl (fun s b =>
    let w := (s.membersOf b.1 b.2).length
    let to_ := match s.tagOfLaunch b.1 with
      | none => none
      | some tag =>
        match s.frameIn tag w zone with
        | some x => some x
        | none => s.findFrame tag w
    s.modZone zone fun z => { z with wave := z.wave.map fun v => { v with moves := v.moves ++ [(b, to_)] } }) s

/-- Whether a wave has assigned a bundle to the frame of a tile (15 R439). -/
def Wave.destines (v : Wave) (p : PTile) : Bool :=
  v.moves.any fun m => match m.2 with
    | none => false
    | some t => decide (frameStart p = frameStart t.2.2)

/-- Recomputes the waves that have assigned a bundle to the frame of one of the tiles that have died, under the same generations (15 R439). -/
def State.retarget (s : State) (gone : List PTile) : State :=
  s.zones.keys.foldl (fun s z =>
    match (s.zone z).wave with
    | none => s
    | some v =>
      if gone.any v.destines then (s.modZone z fun x => { x with wave := some { v with moves := [] } }).placeMoves z (v.moves.map fun m => m.1) else s) s

/-- Whether a tag names an unmirrored round of a zone. -/
def State.lostTag (s : State) (zone : Nat) (r : Option (Nat × BitVec 32)) : Bool :=
  match r with
  | none => false
  | some t => decide (t.1 = zone) && s.unmirrored t

/-- A die's route table as its dead tiles now are (15 R431, R438 step 4): routes go round them. The routes themselves change only timing (log entry 79). -/
def State.writeRoutes (s : State) (die : Nat) : State := { s with routes := s.routes.set die (s.dead.filter fun p => p.die = die) }

/-- Whether the loss of a zone discards a flight (16 R453 step 1): one of a lost round from its tiles, one that its tiles exchange or that their NIs hold, a
read or a translation of theirs, an answer to them but for one that the restore point awaits (log entry 80). What an earlier round sent out, a message of an
earlier round that waits for its remote edge too, and what goes to memory agents and hosts, is on its way. -/
def State.losesFlight (s : State) (zone : Nat) (ts : List TileId) (f : Flight) : Bool :=
  (match f.pkt.answerTo with
   | none => false
   | some b => ts.contains b.core.tile && !((s.zone zone).mendImage.awaits f.pkt)) ||
  (match f.src with
   | none => false
   | some c =>
     let r := (s.retag f).round
     ts.contains c.tile && (s.lostTag zone r || (match f.st with
      | .queued _ => f.dst.isSome
      | _ => false) || (match f.pkt with
      | .effect (.tile t) _ => ts.contains t
      | .effect _ _ => false
      | .credit d _ _ => ts.contains d.tile
      | _ => r.isNone)))

/-- The numbers of posted writes whose effect still travels or is held, or whose acknowledgement travels. -/
def State.liveWrites (s : State) : List Nat :=
  (s.net.filterMap fun f => match f.pkt with
    | .effect _ e => e.wid
    | .ack w => some w
    | _ => none) ++ (s.homes.flatMap fun h => h.2.held.filterMap Effect.wid)

/-- Stops the tiles of a lost zone and discards what was lost with it (10 R327; 16 R452, R453 step 1). -/
def State.stopTiles (s : State) (zone : Nat) (ts : List TileId) : State :=
  let mine (c : CoreId) : Bool := ts.contains c.tile
  let gone := s.net.filter fun f => s.losesFlight zone ts f
  let kids := gone.filterMap fun f => match f.pkt with
    | .spawn _ w _ => some w.tt
    | _ => none
  let homes := s.homes.map fun (h : Home × HomeSt) =>
    (h.1, { h.2 with held := h.2.held.filter fun e => !(mine e.by_.core && s.lostTag zone e.round), syncs := h.2.syncs.filter fun y => !mine y.by_.core })
  let s : State := { gone.foldl State.takeBack s with
                            homes := homes, ctxs := s.ctxs.filter (fun e => !mine e.1.core),
                            xfers := s.xfers.filter fun x => !mine x.by_.core, tts := s.tts.filter fun e => !(kids.contains e.1 && !e.2.retired) }
  let live := s.liveWrites
  { s with posted := s.posted.filter (fun p => !mine p.by_.core || live.contains p.wid), later := s.later.filter fun x => !mine x.1 }

/-- The launches whose bundles the waves of a zone move. -/
def State.movedLaunches (s : State) (zone : Nat) : List Nat :=
  match (s.zone zone).wave with
  | none => []
  | some v => (v.moves.map fun m => m.1.1).dedup

/-- Whether a lost zone can be mended (16 R456): it has a buddy, that is not lost, and a restore point there. -/
def State.mendable (s : State) (zone : Nat) : Bool :=
  let z := s.zone zone
  z.restore.isSome && (match z.buddy with
    | none => false
    | some b => !(s.zone b).lost)

/-- Whether a bundle is halted in a zone: stopped there while a wave of the zone ran that does not move it (15 R439). -/
def State.halted (s : State) (zone : Nat) (e : (Nat × Nat) × Bundle) : Bool :=
  decide (e.2.st = .remapping) && decide (e.2.home.zoneOf = zone) && !(s.zones.any fun z => (z.2.wave.map fun v => v.moves.any fun m => decide (m.1 = e.1)).getD false)

/-- Stops bundles that stand in a lost zone: their entries take state 4 (15 R438 step 2; 16 R452). One that was unfolding keeps its images in rim HBM, one that is
halted already has stopped (15 R439). -/
def State.haltBundles (s : State) (zone : Nat) (bs : List (Nat × Nat)) : State :=
  let is (b : Nat × Nat) (st : BundleSt) : Bool := decide ((s.bundles.get? b).map Bundle.st = some st)
  let standing := bs.filter fun b => !is b .unfolding && !is b .remapping
  (bs.filter fun b => !is b .remapping).foldl (fun s b => s.modBundle b fun x => x.enter .remapping)
    (s.stopTiles zone (standing.flatMap fun b => s.membersOf b.1 b.2))

/-- The bundles that stand on a zone's frames. -/
def State.standingIn (s : State) (zone : Nat) : List (Nat × Nat) :=
  (s.bundles.filter fun e => e.2.placed && decide (e.2.home.zoneOf = zone)).map fun e => e.1

/-- The loss of a zone: what it held is discarded, its bundles are remapped, its wave starts, and the launches that cannot be mended fail (15 R438; 16 R452,
R453, R456). The lost zones whose images it holds cannot be mended either. -/
def State.loseZone (s : State) (zone : Nat) : State :=
  let bs := s.standingIn zone ++ (s.bundles.filter (s.halted zone)).map fun e => e.1
  let bs := sortBy (fun (a b : Nat × Nat) => decide (a.1 < b.1) || (decide (a.1 = b.1) && decide (a.2 < b.2))) bs
  let ok := s.mendable zone
  let s := (s.haltBundles zone bs).writeRoutes (zone / 4)
  let s := s.modZone zone fun z => { z with lost := true, streaming := none, due := none, asked := false, wave := some { moves := [], again := [] } }
  let others := s.zones.keys.filter fun y => y ≠ zone && (s.zone y).lost && decide ((s.zone y).buddy = some zone)
  let bad := sortBy (fun a b => decide (a < b)) (others ++ (if ok then [] else [zone]))
  let s := bad.foldl (fun s y =>
    ((if y = zone then (bs.map fun b => b.1).dedup else s.movedLaunches y)).foldl (fun s l => s.failLaunch l (BitVec.ofNat 64 y)) s) s
  (s.placeMoves zone (bs.filter fun b => !(((s.launches.get? b.1).map Launch.failed).getD true))).settleShrinks

/-- The round of a lost buddy's partner counts as mirrored as far as it has closed; it pairs again across a seam (16 R449, R456). -/
def State.loseBuddy (s : State) (zone : Nat) : State :=
  let s := (s.modZone zone fun z => { z with buddy := none, next := none, streaming := none, restore := none, placed := [], log := [] }).releaseHomes
  match s.seamPartner zone with
  | none => s.askClose zone
  | some p => (((s.modZone zone fun z => { z with next := some p }).modZone p fun z => { z with next := some zone }).askClose zone).askClose p

/-- Bring-up takes a death between phase 5 and the writing of the boot mode: phase 5 runs again (18 R503). -/
def State.phase5Again (s : State) : State :=
  { s with dies := s.dies.map fun (d : Nat × Die) => (d.1, if d.2.phase = 5 then { d.2 with phase := 4 } else d.2) }

/-- Deaths in a zone whose wave runs (15 R439): the bundles that have come to stand there meanwhile stop with the zone (16 R452; DEDUCED, log 41), and the next wave
is recorded for them and for every tile that is no destination of the running one; a destination re-targets that. -/
def State.dieAgain (s : State) (zone : Nat) (gone : List PTile) : State :=
  let bs := s.standingIn zone
  let s := (s.haltBundles zone bs).writeRoutes (zone / 4)
  s.modZone zone fun x => { x with wave := x.wave.map fun v =>
    { v with again := v.again ++ gone.filter fun p => !bs.isEmpty || !v.destines p } }

/-- REGULATOR_FAILURE (16 R452, R456): every zone whose buddy it was pairs again; one with which it was still to pair stays alone. Before the boot mode is written
phase 5 runs again (18 R503). -/
def execRegulatorFailure (zone : Nat) (s : State) : Outcome :=
  let z := s.zone zone
  event s (decide (zone < 208) && z.sound)
    (let gone := s.poolOrder zone
     let s := { s with dead := s.dead ++ gone }
     let s := (s.modZone zone fun z => { z with sound := false, next := none }).appendLog (zone / 4) 2 (zone % 4) 3
     let s := { s with zones := s.zones.map fun (x : Nat × Zone) =>
       (x.1, if x.2.next = some zone then { x.2 with next := none, streaming := none, placed := [], log := [] } else x.2) }
     if s.booted = false then s.phase5Again
     else
       let s := (if z.lost then s.dieAgain zone gone else s.loseZone zone).retarget gone
       (s.zones.keys.filter fun y => y ≠ zone && decide ((s.zone y).buddy = some zone)).foldl State.loseBuddy s)

/-- UNCORRECTABLE_ERROR (15 R438, R439; 16 R452; 18 R494, R503): the tile is dead and its zone is lost. Before the boot mode is written phase 5 runs again. -/
def execUncorrectableError (tile : PTile) (s : State) : Outcome :=
  let z := tile.zoneOf
  event s (s.live tile)
    (let s := { s with dead := s.dead ++ [tile] }.appendLog tile.die 1 (tile.y * 32 + tile.x) 2
     if s.booted = false then s.phase5Again
     else
       match (s.zone z).wave with
       | none => (s.loseZone z).retarget [tile]
       | some _ => (s.dieAgain z [tile]).retarget [tile])

/-- CORRECTABLE_ERROR (16 R452): corrected and counted. -/
def execCorrectableError (tile : PTile) (s : State) : Outcome := event s (s.live tile) { s with corrected := s.corrected + 1 }

/-! ### Errors of HBM lines (16 R452) -/

/-- Whether a line lies in a bucket of a page table, or in a page of a valid entry of it. -/
def State.tableMaps (s : State) (tag : BitVec 8) (stack off : Nat) : Bool :=
  match ((s.parts.get? tag).map Partition.desc).bind tableOf with
  | none => false
  | some (ts, n, base) =>
    let size := 64 * 2 ^ n
    (decide (ts = stack) && decide (base ≤ off) && decide (off < base + size)) ||
    (((s.stack ts).filter fun c => decide (base ≤ c.1) && decide (c.1 < base + size)).map fun c => (c.1 - base) / 16).dedup.any fun i =>
      let e := entryAt (s.stack ts) (base + 16 * i)
      let at_ := (e.2.extractLsb' 0 51).toNat * 4096
      e.2.getLsbD 63 && !malformed e.1 e.2 && decide ((e.2.extractLsb' 57 2).toNat = 0) && decide ((e.2.extractLsb' 51 6).toNat = stack) &&
      decide (at_ ≤ off / 64 * 64) && decide (off / 64 * 64 < at_ + 2 ^ pageShift (e.2.extractLsb' 61 2).toNat)

/-- HBM_LINE_ERROR (16 R452): every launch that maps the line fails; areas lists those whose own areas, which the device places, hold it. -/
def execHbmLineError (stack off : Nat) (areas : List Nat) (s : State) : Outcome :=
  let hit := (s.launches.filter fun l => !l.2.done && (areas.contains l.1 || s.tableMaps l.2.tag stack off)).map fun l => l.1
  event s (decide (stack < 44))
    (if hit.isEmpty then { s with errors := s.errors ++ [.hbmLine stack off] } else hit.foldl (fun s l => s.failLaunch l (BitVec.ofNat 64 (256 + stack))) s)

/-! ### Mending (15 R438; 16 R448, R453, R454) -/

/-- The memory of a tile as at launch: the data image over zeros (01 R26, 02 R78). -/
def launchMem (o : Object) : Memory := Memory.write [] 0 o.data

/-- The lines of a tile that an expert object mirrors: those of its persistent regions, and those of published and partly filled ring slots (16 R448). -/
def keptLine (o : Object) (t : Tile) (line : Nat) : Bool :=
  (o.regions.any fun r => r.persist && decide (r.offset / 64 ≤ line) && decide (line < (r.offset + r.bytes + 63) / 64)) ||
  t.rings.any fun (r : Nat × Ring) => r.2.en &&
    (((List.range r.2.pub).any fun k => decide (r.2.line k ≤ line) && decide (line < r.2.line k + r.2.lines)) ||
     (decide (r.2.line r.2.pub ≤ line) && decide (line < r.2.line r.2.pub + r.2.fill)))

/-- The scratchpad that a mending restores (16 R448). -/
def mendedTile (o : Object) (t : Tile) : Tile :=
  if o.regions.any ObjRegion.persist then
    { t with mem := (t.mem.filter fun c => keptLine o t (c.1 / 64)).foldl (fun m c => m.set c.1 c.2)
               ((launchMem o).filter fun c => !keptLine o t (c.1 / 64)),
             full := t.full.filter fun w => keptLine o t (w / 64) }
  else t

/-- Restores the tiles of a bundle from an image, those that it holds (16 R453 step 3). A tile task that has retired stays retired. What is parked for a tile stays
parked, and a transfer waits for those of its writes that still go on. -/
def State.restoreTiles (s : State) (i : Image) (ts : List TileId) : State :=
  let ts := ts.filter fun t => (i.tiles.get? t).isSome
  let s := ts.foldl (fun s t =>
    let o := (s.launches.get? t.l).map Launch.obj
    let old := (i.tiles.get? t).getD Tile.init
    s.setTile t (match o with
      | none => old
      | some o => { mendedTile o old with parked := (s.tile t).parked })) s
  let s := (coresOf ts).foldl (fun s c => s.setCore c (i.cores.getD c Core.init)) s
  let s := (ctxsOf ts).foldl (fun s c => s.setCtx c { (i.ctxs.getD c Ctx.init) with asked := none, waited := 0 }) s
  let s := ts.foldl (fun s t => { s with homes := s.homes.set (.tile t) (i.homes.getD (.tile t) HomeSt.init) }) s
  let now := s.tts.filter fun e => !(ts.contains e.2.tile && !e.2.retired && (i.tts.get? e.1).isNone)
  let live := s.liveWrites
  let xfers := (i.xfers.filter fun x => ts.contains x.by_.core.tile).map fun (x : Xfer) => { x with writes := x.writes.filter live.contains }
  let s : State := { s with tts := now, xfers := xfers ++ s.xfers }
  (i.tts.filter fun e => ts.contains e.2.tile).foldl (fun s e => s.newTT e.1 e.2) s

/-- Whether a path begins with another. -/
def isPrefix : List (BitVec 16) → List (BitVec 16) → Bool
  | [], _ => true
  | _ :: _, [] => false
  | a :: p, b :: q => a = b && isPrefix p q

/-- The tile tasks that own an activation, an armed entry or a held message of a core (16 R454). -/
def State.ownersOn (s : State) (c : CoreId) : List TTId :=
  let k := s.core c
  (k.runq.filterMap Ready.tt) ++ (k.waiting.map Waiting.tt) ++ (k.wtt.filterMap fun e => if e.2.armed then e.2.owner else none) ++
  (k.fibres.filterMap fun f => f.2.ctx.task.bind Task.tt) ++ ((List.range 4).filterMap fun i => (s.ctx ⟨c, i⟩).task.bind Task.tt) ++
  (k.chans.flatMap fun x => x.2.msgs.filterMap fun m => s.messageTask c m)

/-- The tile task of an activation that a logged arrival brings. -/
def State.loggedTask (s : State) (p : Packet) : Option TTId :=
  match p with
  | .message d m => s.messageTask d { msg := m, bind := ((s.core d).chan m.ch).bind, holder := none, hampered := false }
  | .spawn _ w _ => some w.tt
  | _ => none

/-- Applies logged arrivals again, in log order, ahead of what is on its way (16 R453 step 4); one that finds no place goes on as an arrival does. -/
def State.replay (s : State) (log : List Packet) : State :=
  let r := log.foldl (fun (x : List Flight × State) p =>
    let f : Flight := { id := x.2.fresh, src := none, dst := p.dest, pkt := p, st := .transit, tries := 0, tag := 0,
                        gen := (p.dest.map x.2.genOf).getD 0, round := none, sent := none }
    (x.1 ++ [f], { x.2 with fresh := x.2.fresh + 1 })) (([] : List Flight), s)
  (r.1.map Flight.id).foldl State.arrive { r.2 with net := r.1 ++ r.2.net }

/-- Takes the new place of a moved bundle (15 R438 step 6). -/
def State.takePlace (s : State) (m : (Nat × Nat) × Option (Nat × Nat × PTile)) : State :=
  s.modBundle m.1 fun b =>
    match m.2 with
    | none => b.enter .folded
    | some (_, i, p) => { b.enter .resident with frame := i, home := p, since := s.cycle }

/-- Whether a mending of tiles sends a flight of their image again (16 R447, R453): what their NIs had not injected, and what they had sent to one another. A
message that waits for its remote edge has stayed (17 R487). -/
def Flight.goesAgain (f : Flight) (ts : List TileId) : Bool :=
  match f.src, f.dst with
  | some c, some t => ts.contains c.tile && ((match f.st with
    | .queued _ => true
    | _ => false) || ts.contains t)
  | _, _ => false

/-- A moved bundle that was unfolding when its zone was lost, with arrivals in its fold hampers: resident again, it takes them back and goes on; folded again, it is
summoned (15 R435, R436, R439). -/
def State.takeHampers (s : State) (m : (Nat × Nat) × Option (Nat × Nat × PTile)) : State :=
  match m.2 with
  | none => if s.parkedIn m.1.1 m.1.2 then s.summonParked m.1.1 m.1.2 false else s
  | some _ =>
    let ms := s.membersOf m.1.1 m.1.2
    let ts := ms.filter fun t => s.resident t && !(s.tile t).parked.isEmpty
    ts.foldl (fun s t => (s.unpark t (s.genOf t)).wakeTile t) (s.clearTileFaults ms)

/-- Gives a zone a new round number: what its tiles that have not been restored have sent in its open round carries it (16 R450). -/
def State.renumber (s : State) (zone : Nat) (round : BitVec 32) : State :=
  let again (r : Option (Nat × BitVec 32)) : Option (Nat × BitVec 32) := if r = some (zone, (s.zone zone).round) then some (zone, round) else r
  let mark (e : Effect) : Effect := { e with round := again e.round }
  { s.modZone zone fun z => { z with round := round, log := z.log.map fun e => (round, e.2), placed := z.placed.map fun p => (round, p.2) } with
    net := s.net.map fun (f : Flight) => { f with round := again f.round, sent := again f.sent, pkt := match f.pkt with
      | .effect h e => .effect h (mark e)
      | p => p },
    homes := s.homes.map fun (h : Home × HomeSt) => (h.1, { h.2 with held := h.2.held.map mark }) }

/-- The re-run tile tasks of a mending (16 R454): those that own an activation, an armed entry or a held message of the restored tiles or of the log applied
again, and their descendants, those that have retired elsewhere apart. -/
def State.rerunOf (s : State) (back : List TileId) (log : List Packet) : List TTId :=
  let owners := ((coresOf back).flatMap s.ownersOn) ++ log.filterMap s.loggedTask
  (s.tts.filter fun e => owners.any fun o => decide (o.l = e.1.l) && (decide (o.path = e.1.path) ||
    (isPrefix o.path e.1.path && (back.contains e.2.tile || !e.2.retired)))).map fun e => e.1

/-- A re-run tile task of restored tiles that the image does not hold has still to run again: it had been created, and had retired, since (16 R454). -/
def State.runsAgain (s : State) (image : Image) (back : List TileId) (rerun : List TTId) : State :=
  { s with tts := s.tts.map fun (e : TTId × TileTask) =>
      (e.1, if rerun.contains e.1 && back.contains e.2.tile && (image.tts.get? e.1).isNone then { e.2 with ran := false } else e.2) }

/-- The NIs of a partition's tiles drop their entries of moved tiles (15 R438 step 5). -/
def State.flushCaches (s : State) (ts : List TileId) : State :=
  { s with tiles := s.tiles.map fun (x : TileId × Tile) =>
      (x.1, { x.2 with cache := x.2.cache.filter fun e => !ts.contains ⟨x.1.l, e.1⟩ }) }

/-- REMAP_WAVE_COMMIT (15 R438, R439; 16 R453, R454): the moved bundles are restored and take their places, the log is applied again, and the re-run begins.
A wave recorded meanwhile starts. -/
def execRemapWaveCommit (zone : Nat) (s : State) : Outcome :=
  let z := s.zone zone
  match z.wave with
  | none => .next s
  | some v =>
    let image := z.mendImage
    let moves := v.moves.filter fun m => !(((s.launches.get? m.1.1).map Launch.failed).getD true)
    let ts := moves.flatMap fun m => s.membersOf m.1.1 m.1.2
    let mine (p : Packet) : Bool := (p.dest.map fun t => ts.contains t).getD false
    let log := (z.log.map fun e => e.2).filter mine
    let s := s.restoreTiles image ts
    let again := image.queued.filter fun f => f.goesAgain ts
    let s := { s with net := again ++ s.net.filter fun f => !(again.any fun g => decide (g.id = f.id)) }
    let s := ((moves.foldl State.takePlace s).flushCaches ts).settleCtxs ts
    let s := moves.foldl State.takeHampers s
    let s := { s with net := s.net.map fun (f : Flight) => match f.st with
      | .queued _ => { f with gen := (f.dst.map s.genOf).getD f.gen }
      | _ => f }
    let back := ts.filter fun t => (image.tiles.get? t).isSome
    let rerun := s.rerunOf back log
    let s := (s.runsAgain image back rerun).modZone zone fun z =>
      { z with lost := false, wave := none, log := z.log.filter (fun e => !mine e.2), opened := s.cycle, rerun := (z.rerun ++ rerun).dedup,
               restored := if (z.rerun ++ rerun).isEmpty then [] else (z.restored ++ back).dedup,
               buddy := if z.sound || !v.again.isEmpty then z.buddy else none }
    let s := s.renumber zone ((z.restore.map fun i => i.round + 1).getD (z.round + 1))
    let s := moves.foldl (fun s m => match m.2 with
      | some (y, _, _) =>
        let ms := s.membersOf m.1.1 m.1.2
        (if y = zone then s else s.adopt y ms).joinClose y ms
      | none => s) s
    let s := ((moves.map fun m => m.1.1).dedup).foldl (fun s l => s.modLaunch l fun x => { x with mended := x.mended + 1 }) s
    let s := s.replay log
    .next (if v.again.isEmpty then s else s.loseZone zone)

/-! ### Power groups (16 R457, R459) -/

/-- The limit that a stored value acts as (16 R457). -/
def limitOf (w : BitVec 16) : BitVec 16 := if w = 0 then 520 else if 4160 < w.toNat then 4160 else w

/-- CURRENT_STEP (16 R457): at a step boundary of 300 cycles the stored limit acts. -/
def execCurrentStep (pg : Nat) (s : State) : Outcome :=
  event s (decide (pg < 16) && decide (s.cycle % 300 = 0)) (s.modPower pg fun g => { g with acting := limitOf g.limit })

/-- DROOP_ALARM (16 R459): the samples of a zone have been low for 30 cycles. Every running launch counts the alarm that this raises; under an alarm that stands
already it is the last low sample so far, and no new alarm. -/
def execDroopAlarm (zone : Nat) (s : State) : Outcome :=
  let pg := powerOf zone
  let s' := s.modPower pg fun g => { g with alarm := true, low := s.cycle }
  event s (decide (zone < 208))
    (if (s.power pg).alarm then s'
     else
       { s' with
         launches := s'.launches.map fun (l : Nat × Launch) => (l.1, if l.2.done then l.2 else { l.2 with droops := l.2.droops.set pg (l.2.droops.getD pg 0 + 1) }) })

/-- DROOP_CLEAR (16 R459): 3,000 cycles after the last low sample. -/
def execDroopClear (pg : Nat) (s : State) : Outcome :=
  let g := s.power pg
  event s (g.alarm && decide (g.low + 3000 ≤ s.cycle)) (s.modPower pg fun g => { g with alarm := false })

/-! ### The deadlock scan (06 R195, R196) -/

/-- The waits of a context on a queue, as relations: one for each tile, the leader's or a follower's, whose queue lacks what its unit needs (08 R264). -/
def State.queueWaits (s : State) (id : CtxId) : List Relation :=
  let rel (kind q : Nat) (t : TileId) (r : Role) : Relation := { core := id.core, kind := kind, num := q, target := t.core r }
  let uid := s.uidOf id
  match (s.ctx id).phase with
  | .held (.emptyQueue q n) => ((s.tilesOf id).filter fun t => !((s.tile t).queue q).has uid n).map fun t => rel 2 q t (queueWriter q)
  | .held (.fullQueue q n) => ((s.tilesOf id).filter fun t => !s.hasRoom t q uid n).map fun t => rel 3 q t (queueReader q)
  | .held (.convert q n p _) =>
    if ((s.tile id.core.tile).queue q).has uid n then [rel 3 p id.core.tile (queueReader p)] else [rel 2 q id.core.tile (queueWriter q)]
  | _ => []

/-- The waits of an activation that is due but for messages of bound ends and credits (06 R195). -/
def State.chanWaits (s : State) (c : CoreId) (r : Ready) : List Relation :=
  (s.needs c r).filterMap fun d =>
    let x := (s.core c).chan d.num
    if d.isChan = false || x.edge.isSome || s.meets c d then none
    else
      match x.kind, x.peer with
      | .bound, some p => if (s.unheld c d.num).length < d.consume then some { core := c, kind := 0, num := d.num, target := p.1 } else none
      | .send, some p => some { core := c, kind := 1, num := d.num, target := p.1 }
      | _, _ => none

/-- The returns that a core's NI holds (06 R192, R195). -/
def State.returnWaits (s : State) (c : CoreId) : List Relation :=
  s.net.filterMap fun f =>
    match f.pkt, f.st with
    | .message d m, .waiting _ => if f.src = some c ∧ (m.refused ∨ m.reply) then some { core := c, kind := 4, num := m.ch, target := d } else none
    | .message d m, .bounced => if f.src = some c ∧ (m.refused ∨ m.reply) then some { core := c, kind := 4, num := m.ch, target := d } else none
    | _, _ => none

/-- Whether no ready or due activation of a core can start (06 R195): none is there that has its needs and a context, or the core holds a gang offer or follows a
gang (08 R264, R266). A close or a fold only delays the starts (DEDUCED, log 43). -/
def State.noneStarts (s : State) (c : CoreId) : Bool :=
  (s.core c).offer.isSome || (s.core c).follows.isSome || ((s.dueList c).isEmpty && ((s.nextReady c).isNone || (s.freeCtx c).isNone))

/-- Whether a core is stuck (06 R195): no context can issue or is in progress, no activation can start. -/
def State.stuck (s : State) (c : CoreId) : Bool :=
  ((List.range 4).all fun i => match (s.ctx ⟨c, i⟩).phase with
    | .free => true
    | .held _ => true
    | .dead => true
    | .saved => true
    | .busy _ _ _ _ true _ => true
    | _ => false) && s.noneStarts c

/-- The relations of the stuck cores (06 R195). -/
def State.relations (s : State) : List Relation :=
  ((s.cores.keys.filter s.stuck).flatMap fun c =>
    ((List.range 4).flatMap fun i => s.queueWaits ⟨c, i⟩) ++ (((s.sources c).filterMap fun x => s.offers c x).flatMap fun r => s.chanWaits c r) ++
    s.returnWaits c).dedup

/-- The order of members (06 R196): logical tile, then role. -/
def memberRank (c : CoreId) : Nat := c.l * 4294967296 + c.t * 4 + c.r.code

/-- The cycles through a core among relations whose other members come after it, at most n long. -/
def cyclesFrom (rels : List Relation) (start : CoreId) : Nat → CoreId → List Relation → List (List Relation)
  | 0, _, _ => []
  | n + 1, cur, path =>
    (rels.filter fun r => r.core = cur).flatMap fun r =>
      if r.target = start then [path ++ [r]]
      else if memberRank r.target < memberRank start ∨ path.any fun x => x.core = r.target then []
      else cyclesFrom rels start n r.target (path ++ [r])

/-- The cycles among relations, each from its member 0. -/
def cyclesOf (rels : List Relation) : List (List Relation) :=
  ((rels.map fun r => r.core).dedup).flatMap fun c => cyclesFrom rels c rels.length c []

/-- The words of a deadlock record (06 Table 6.2). -/
def deadlockRecord (c : List Relation) : List Word :=
  BitVec.ofNat 64 c.length :: c.map fun r => BitVec.ofNat 64 (r.kind * 17179869184 + r.num * 268435456 + r.core.r.code * 1048576 + r.core.t)

/-- The place of a virtual address of a partition; none when its page is absent. -/
def State.placeOf (s : State) (tag : BitVec 8) (va : Word) : Option Place := (s.walk tag va).bind fun w1 => (pageOf (s.pasidOf tag) w1 va 1).place

/-- Whether a page lies in HBM. -/
def Page.isHbm (p : Page) : Bool :=
  match p.place with
  | some (.hbm _ _) => true
  | _ => false

/-- Reports a cycle (06 R196): its record at an address of the launch's HBM, DEADLOCK to member 0's core; none where the address is no such place. -/
def State.reportCycle (s : State) (cyc : List Relation) (record : Nat) : Option State :=
  let bs := (deadlockRecord cyc).flatMap wordBytes
  match cyc.head? with
  | none => none
  | some r =>
    match s.spans (s.partOf r.core) (BitVec.ofNat 64 record) bs.length Page.isHbm with
    | none => none
    | some ps =>
      if record % 64 ≠ 0 then none
      else some ((s.writePages ps bs).modCore r.core fun k => { k with notices := k.notices ++ [{ code := causeDeadlock, tval := BitVec.ofNat 64 record }] })

/-- The relations that have held through two scans. -/
def State.lasting (s : State) : List Relation := s.relations.filter fun r => s.scan.contains r

/-- The cycles that this scan has to report (06 R195): those whose relations have held through two scans and that have not been reported while they last. -/
def State.newCycles (s : State) : List (List Relation) :=
  (cyclesOf s.lasting).filter fun c => !((s.told.filter fun x => x.all fun r => s.lasting.contains r).contains c)

/-- The HBM pages that a partition maps: virtual base and length, in the order of its table (14 R405). -/
def State.hbmPages (s : State) (tag : BitVec 8) : List (Nat × Nat) :=
  match ((s.parts.get? tag).map Partition.desc).bind tableOf with
  | none => []
  | some (ts, n, base) =>
    ((((s.stack ts).filter fun c => decide (base ≤ c.1) && decide (c.1 < base + 64 * 2 ^ n)).map fun c => (c.1 - base) / 16).dedup.filterMap fun i =>
      let e := entryAt (s.stack ts) (base + 16 * i)
      let va := e.1 &&& ~~~0xFFF
      if s.walk tag va = some e.2 ∧ (e.2.extractLsb' 57 2).toNat = 0 then some (va.toNat, 2 ^ pageShift (e.2.extractLsb' 61 2).toNat) else none)

/-- The lines of the record of a cycle. -/
def recordLines (cyc : List Relation) : Nat := (8 * (cyc.length + 1) + 63) / 64

/-- The k-th place for a record of some lines among pages: page by page, then line by line, with wrap. -/
def recordPlace (pages : List (Nat × Nat)) (need k : Nat) : Option Nat :=
  (pages[k % pages.length]?).map fun p => p.1 + 64 * (k / pages.length % (p.2 / 64 - need + 1))

/-- The address that the steward takes for the i-th record of a scan, besides those that it has taken, with their lines (06 R196): some 64-byte aligned place in
the launch's HBM with room for it; which, the manual leaves open (log entry 43). -/
def State.recordAddress (s : State) (taken : List (Nat × Nat)) (i : Nat) (cyc : List Relation) : Nat :=
  let need := recordLines cyc
  let pages := (s.hbmPages ((cyc.head?.map fun r => s.partOf r.core).getD 0)).filter fun p => decide (64 * need ≤ p.2)
  let tries := 1 + pages.length * sumOf (taken.map fun t => t.2 + need)
  let free (a : Nat) : Bool := taken.all fun t => decide (a + 64 * need ≤ t.1) || decide (t.1 + 64 * t.2 ≤ a)
  ((List.range tries).findSome? fun j => (recordPlace pages need (Config.recordChoice (s.cycle + i) + j)).filter free).getD 0

/-- The addresses of the records of the scan that is due, each apart from the others. -/
def State.recordsDue (s : State) : List Nat :=
  if s.cycle % 8192 = 0 ∧ s.scanned < s.cycle then
    (s.newCycles.foldl (fun (taken : List (Nat × Nat)) c => taken ++ [(s.recordAddress taken taken.length c, recordLines c)]) []).map fun t => t.1
  else []

/-- DEADLOCK_SCAN (06 R195, R196): every 8,192 cycles. A cycle whose relations stood at the last scan too is reported, once while it lasts, at the next of the
addresses in the launch's HBM that the steward takes; one whose record finds no place there is reported by a later scan. -/
def execDeadlockScan (records : List Nat) (s : State) : Outcome :=
  event s (decide (s.cycle % 8192 = 0) && decide (s.scanned < s.cycle))
    (let told := s.told.filter fun c => c.all fun r => s.lasting.contains r
     let x := (s.newCycles.zip records).foldl (fun (x : State × List (List Relation)) c =>
       match x.1.reportCycle c.1 c.2 with
       | none => x
       | some t => (t, x.2 ++ [c.1])) (s, told)
     { x.1 with scan := s.relations, told := x.2, scanned := s.cycle })

end Sys2Proof.Machine
end

