-- ==== Sys2Proof/Machine/Loader.lean ====
section
/-! DEFINITION. Loading: the graph section (18 R510; 01 R28; 02 R79), the loader's checks and its refusal record (18 R506 to R509), and the state of a
launch's tiles as swload leaves it (01 R26; 05 R143, R145; 06 R180, R184; 07 R211, R214; 10 R287, R310). -/

namespace Sys2Proof

open Machine

/-! ### The graph section (18 R510, Tables 18.8 and 18.9) -/

/-- A node: its rectangle, and its start classes on MC, FC and AC. -/
structure GraphNode where
  x : Nat
  y : Nat
  w : Nat
  h : Nat
  starts : List (Option Nat)
  deriving DecidableEq, Repr

/-- An edge: nodes, roles, channels, rates, offsets, binding, the depth and hamper of its receive ends, and whether these were given by hand. -/
structure GraphEdge where
  u : Nat
  v : Nat
  ru : Nat
  rv : Nat
  cs : Nat
  cr : Nat
  p : Nat
  c : Nat
  dx : Int
  dy : Int
  bind : Binding
  depth : Nat
  hamper : Nat
  hand : Bool
  deriving DecidableEq, Repr

/-- A graph of an object. -/
structure TaskGraph where
  num : Nat
  nodes : List GraphNode
  edges : List GraphEdge
  deriving DecidableEq, Repr

/-- An unsigned field of a word. -/
def ufield (w : Word) (lo n : Nat) : Nat := (w.extractLsb' lo n).toNat

/-- The start field of a node record at a bit. -/
def startField (w : Word) (lo : Nat) : Option Nat := if w.getLsbD (lo + 7) then some (ufield w lo 6) else none

/-- A node record (Table 18.8); none when it breaks the table. -/
def parseNode (w0 w1 : Word) : Option GraphNode :=
  if ufield w0 60 4 ≠ 0 ∨ ufield w1 44 20 ≠ 0 ∨ w1.getLsbD 26 ∨ w1.getLsbD 34 ∨ w1.getLsbD 42 then none
  else some { x := ufield w0 0 20, y := ufield w0 20 20, w := ufield w0 40 20 + 1, h := ufield w1 0 20 + 1,
              starts := [startField w1 20, startField w1 28, startField w1 36] }

/-- An edge record (Table 18.9); none when it breaks the table. -/
def parseEdge (w0 w1 w2 w3 : Word) : Option GraphEdge :=
  let dx := sfield w1 0 21
  let dy := sfield w1 21 21
  let b := ufield w0 53 8
  let depth := ufield w2 0 10
  if ufield w0 62 2 ≠ 0 ∨ ufield w1 42 22 ≠ 0 ∨ ufield w2 18 46 ≠ 0 ∨ w3 ≠ 0 ∨ ufield w0 24 2 = 3 ∨ ufield w0 26 2 = 3 ∨ ufield w0 40 6 = 0 ∨
      ufield w0 46 6 = 0 ∨ dx = -1048576 ∨ dy = -1048576 ∨ (w0.getLsbD 52 = false ∧ 64 ≤ b) ∨ depth < 17 then none
  else some { u := ufield w0 0 12, v := ufield w0 12 12, ru := ufield w0 24 2, rv := ufield w0 26 2, cs := ufield w0 28 6, cr := ufield w0 34 6,
              p := ufield w0 40 6, c := ufield w0 46 6, dx := dx, dy := dy, bind := if w0.getLsbD 52 then .count b else .cls b,
              depth := depth, hamper := ufield w2 10 8, hand := w0.getLsbD 61 }

/-- n records of k words from word i of a section, none when one lies outside it or does not parse. -/
def records {α : Type} (sec : List Word) (parse : List Word → Option α) (k : Nat) : Nat → Nat → Option (List α)
  | 0, _ => some []
  | n + 1, i =>
    if sec.length < i + k then none
    else
      match parse ((sec.drop i).take k), records sec parse k n (i + k) with
      | some a, some l => some (a :: l)
      | _, _ => none

/-- The graph whose header is two words (18 R510). -/
def parseGraph (sec : List Word) (h : List Word) : Option TaskGraph :=
  let w0 := h.getD 0 0
  let w1 := h.getD 1 0
  let nodes := ufield w0 8 13
  let edges := ufield w0 21 15
  let at0 := ufield w1 0 32
  let at1 := ufield w1 32 32
  if ufield w0 36 28 ≠ 0 ∨ nodes = 0 ∨ 4096 < nodes ∨ 16384 < edges ∨ at0 % 8 ≠ 0 ∨ at1 % 8 ≠ 0 then none
  else
    match records sec (fun l => parseNode (l.getD 0 0) (l.getD 1 0)) 2 nodes (at0 / 8),
          records sec (fun l => parseEdge (l.getD 0 0) (l.getD 1 0) (l.getD 2 0) (l.getD 3 0)) 4 edges (at1 / 8) with
    | some ns, some es => some { num := ufield w0 0 8, nodes := ns, edges := es }
    | _, _ => none

/-- Whether a list of numbers rises. -/
def rising : List Nat → Bool
  | a :: b :: r => decide (a < b) && rising (b :: r)
  | _ => true

/-- The graphs of a section (18 R510). -/
def parseGraphs (sec : List Word) : Option (List TaskGraph) :=
  let n := ufield (sec.getD 0 0) 0 9
  if sec.isEmpty || decide (n = 0) || decide (256 < n) || decide (ufield (sec.getD 0 0) 9 55 ≠ 0) then none
  else
    match records sec (parseGraph sec) 2 n 1 with
    | none => none
    | some gs => if rising (gs.map TaskGraph.num) then some gs else none

/-- The graph of a number of an object (17 R474). -/
def Object.taskGraph (o : Object) (g : Nat) : Option TaskGraph := ((parseGraphs o.graph).getD []).find? fun x => x.num = g

/-- Whether a node's rectangle keeps to a grid (01 R28). -/
def GraphNode.fits (n : GraphNode) (x y : Nat) : Bool := decide (n.x + n.w ≤ x) && decide (n.y + n.h ≤ y)

/-- Whether a node covers a tile by column and row. -/
def GraphNode.covers (n : GraphNode) (x y : Nat) : Bool := decide (n.x ≤ x) && decide (x < n.x + n.w) && decide (n.y ≤ y) && decide (y < n.y + n.h)

/-- Whether the rectangles of two nodes meet. -/
def GraphNode.meets (a b : GraphNode) : Bool :=
  decide (a.x < b.x + b.w) && decide (b.x < a.x + a.w) && decide (a.y < b.y + b.h) && decide (b.y < a.y + a.h)

/-- Whether a node's rectangle covers all of another's. -/
def GraphNode.contains (a b : GraphNode) : Bool :=
  decide (a.x ≤ b.x) && decide (b.x + b.w ≤ a.x + a.w) && decide (a.y ≤ b.y) && decide (b.y + b.h ≤ a.y + a.h)

/-! ### Sites and features (18 R506, R507; 02 R63, Table 2.12) -/

/-- The first profile that holds a feature (02 Table 2.12). -/
def firstProfile (f : Nat) : Nat := if f = 1 then 2 else if f = 2 then 3 else 1

/-- The form of a unit that can fall under a feature of profile 2 or 3 (02 Table 2.12); none when it is another form or ILLEGAL. -/
def siteForm (w : BitVec 32) (m : Option (BitVec 32)) : Option Form :=
  let a := w.extractLsb' 13 5
  let b := w.extractLsb' 18 5
  let d := w.extractLsb' 8 5
  let t := w.extractLsb' 25 4
  let x := w.extractLsb' 23 2
  let f := w.extractLsb' 23 1
  let ct := w.extractLsb' 28 4
  let cs := w.extractLsb' 24 4
  if encCvt ct cs a d m = w ∧ wfCvt ct cs a d m then some (formCvt ct cs a d m)
  else if m.isSome then none
  else if encUnpackCe8 t b a d = w ∧ wfUnpackCe8 t a d then some (formUnpackCe8 t b a d)
  else if encPackCe8 f b a d = w ∧ wfPackCe8 b a then some (formPackCe8 f b a d)
  else if encMxs t x a d = w ∧ wfMx t x a none then some (formMxs t x a d)
  else if encMxq t x b a d = w ∧ wfMx t x a (some b) then some (formMxq t x b a d)
  else if encMxd t x b a d = w ∧ wfMx t x a (some d) then some (formMxd t x b a d)
  else if encTktScope a d = w then some (formTktScope a d)
  else if encTktVoid a = w then some (formTktVoid a)
  else if encRndClose = w then some formRndClose
  else none

/-- A site (18 R506): role code 0 to 2, 3 for a region; offset; its features; the unit's first bits. -/
structure Site where
  role : Nat
  offset : Nat
  feats : List Nat
  unit : Nat
  deriving DecidableEq, Repr

/-- The 32 bits that four bytes hold. -/
def word32 (bs : List Byte) : BitVec 32 := BitVec.ofNat 32 (bytesToNat bs)

/-- The sites of a code image, unit by unit (18 R506; 02 R39); fuel bounds the units. -/
def codeSites (role : Nat) : Nat → Nat → List Byte → List Site
  | 0, _, _ => []
  | n + 1, off, bs =>
    match bs with
    | a :: _ :: r =>
      if a.getLsbD 0 = false then codeSites role n (off + 2) r
      else
        let len := if a.getLsbD 1 then 8 else 4
        if (bs.take len).length < len then []
        else
          let w := word32 (bs.take 4)
          let m := if a.getLsbD 1 then some (word32 ((bs.drop 4).take 4)) else none
          let rest := codeSites role n (off + len) (bs.drop len)
          match siteForm w m with
          | none => rest
          | some f => { role := role, offset := off, feats := f.feats, unit := w.toNat } :: rest
    | _ => []

/-- The sites of an object, by role and then by offset (18 R506, R507). -/
def Object.sites (o : Object) : List Site :=
  codeSites 0 o.codeMc.length 0 o.codeMc ++ codeSites 1 o.codeFc.length 0 o.codeFc ++ codeSites 2 o.codeAc.length 0 o.codeAc ++
  sortBy (fun (a b : Site) => decide (a.offset < b.offset))
    ((o.regions.filter fun r => r.persist).map fun (r : ObjRegion) => { role := 3, offset := r.offset, feats := [2], unit := 0 })

/-- The profile that the device offers (02 R64). -/
def offeredProfile : Nat := 3

/-- The first feature of a site that lies outside the declared profile or the offered one (18 R506). -/
def Object.refusedFeature (o : Object) (x : Site) : Option Nat := x.feats.find? fun f => decide (min o.profile offeredProfile < firstProfile f)

/-- The sites refused, with the feature that each entry names (18 R506). A declared profile that does not exist has no features to compare with. -/
def Object.refusedSites (o : Object) : List (Site × Nat) :=
  if o.profile = 0 ∨ 3 < o.profile then []
  else o.sites.filterMap fun x => (o.refusedFeature x).map fun f => (x, f)

/-- The refusal record of status 1 (18 R507, Table 18.7). -/
def siteRecord (l : List (Site × Nat)) : List Word :=
  let cover := (l.flatMap fun x => x.1.feats.map firstProfile).foldl max 1
  [BitVec.ofNat 64 (1 + min 255 l.length * 256 + (if cover ≤ offeredProfile then cover else 0) * 65536 + l.length * 4294967296), 0, 0, 0, 0, 0, 0, 0] ++
  (l.take 255).flatMap fun x =>
    let p := firstProfile x.2
    [BitVec.ofNat 64 (x.1.offset + x.1.role * 4294967296 + x.2 * 68719476736 + (if p ≤ offeredProfile then p else 0) * 1099511627776),
     BitVec.ofNat 64 x.1.unit]

/-! ### The limits of Table 2.15 and R79 (status 2) -/

/-- Whether a grid keeps to 01 R19. -/
def gridOk (x y : Nat) : Bool := decide (1 ≤ x ∧ x ≤ 1048576 ∧ 1 ≤ y ∧ y ≤ 1048576 ∧ x * y ≤ 1048576)

/-- The class entry of a graph, a role and a number. -/
def Object.classOf (o : Object) (g : Nat) (r : Role) (c : Nat) : Option ObjClass :=
  o.classes.find? fun x => decide (x.graph = g) && decide (x.role = r) && decide (x.cls = c)

/-- A .class entry keeps to its limits: its numbers, its node, once per role in its graph (02 Table 2.15). -/
def Object.classOk (o : Object) (gs : List TaskGraph) (x : ObjClass) : Bool :=
  decide (x.cls < 64) && decide (x.prio ≤ 7) && decide (x.role ≠ .steward) &&
  (gs.any fun g => decide (g.num = x.graph) && decide (x.node < g.nodes.length)) &&
  decide ((o.classes.filter fun y => decide (y.graph = x.graph) && decide (y.role = x.role) && decide (y.cls = x.cls)).length = 1)

/-- A .rate declaration keeps to its limits (02 Table 2.15). -/
def rateOk (r : ObjRate) : Bool :=
  if r.isChan then decide (r.num < 64) && decide (r.consume ≤ 63) && decide (r.produce ≤ 63)
  else decide (r.num < 6) && decide (r.consume ≤ 16) && decide (r.produce ≤ 16) &&
    (!(writers r.num).contains r.role || decide (r.consume = 0)) && (!(readers r.num).contains r.role || decide (r.produce = 0))

/-- A .seg directive keeps to its limits (02 Table 2.15). -/
def segOk (x : ObjSeg) : Bool := decide (x.n < 16) && decide (1 ≤ x.limit ∧ x.limit ≤ 281474976710656) && (x.r || x.w)

/-- A .ring directive keeps to its limits (02 Table 2.15). -/
def ringOk (x : ObjRing) : Bool :=
  decide (x.n < 8) && decide (x.slotBytes % 64 = 0) && decide (64 ≤ x.slotBytes ∧ x.slotBytes ≤ 32768) && decide (2 ≤ x.slots ∧ x.slots ≤ 256) &&
  decide (x.slotBytes * x.slots ≤ 524288)

/-- A .tsr directive keeps to its limits (02 Table 2.15, 10 R311). -/
def tsrOk (x : ObjTsr) : Bool :=
  decide (x.seg < 16) && decide (x.type < 15 ∧ x.type ≠ 8) && decide (1 ≤ x.extents.length ∧ x.extents.length ≤ 4) &&
  (x.extents.all fun e => decide (1 ≤ e ∧ e ≤ 65536)) && decide (x.strides.length + 1 = x.extents.length)

/-- The bytes of the declared rings (10 R287). -/
def Object.ringBytes (o : Object) : Nat := sumOf (o.rings.map fun r => r.slotBytes * r.slots)

/-- The handlers that may serve an end of an edge (02 R79): of the class bound, whichever node owns it; else, DESIGN CHOICE, log 70, of every class that the
node owns on the role. -/
def Object.endHandlers (o : Object) (g node role : Nat) (cls : Option Nat) : List Nat :=
  (o.classes.filter fun x => decide (x.graph = g) && decide (x.role = Role.ofCode role) &&
    cls.elim (decide (x.node = node)) fun c => decide (x.cls = c)).map ObjClass.handler

/-- The class that an edge binds. -/
def boundClass : Binding → Option Nat
  | .cls c => some c
  | .count _ => none

/-- Whether the .rate declarations of the handlers of an edge's ends agree with it (02 R79). -/
def Object.ratesAgree (o : Object) (g : Nat) (e : GraphEdge) : Bool :=
  (o.rates.all fun r => !r.isChan || !(decide (r.role = Role.ofCode e.ru) && decide (r.num = e.cs) &&
    (o.endHandlers g e.u e.ru none).contains r.handler) || decide (r.produce = e.p)) &&
  (o.rates.all fun r => !r.isChan || !(decide (r.role = Role.ofCode e.rv) && decide (r.num = e.cr) &&
    (o.endHandlers g e.v e.rv (boundClass e.bind)).contains r.handler) || decide (r.consume = e.c))

/-- An edge keeps to 02 R79. -/
def Object.edgeOk (o : Object) (g : TaskGraph) (e : GraphEdge) : Bool :=
  match g.nodes[e.u]?, g.nodes[e.v]? with
  | some u, some v =>
    decide (u.w = v.w) && decide (u.h = v.h) && o.ratesAgree g.num e &&
    (match e.bind with
     | .count _ => true
     | .cls c =>
       match o.classOf g.num (Role.ofCode e.rv) c with
       | none => false
       | some x => ((g.nodes[x.node]?).map fun n => n.contains v).getD false)
  | _, _ => false

/-- The ends of a graph's edges: role, channel, node. -/
def TaskGraph.ends (g : TaskGraph) : List (Nat × Nat × Nat) := g.edges.flatMap fun e => [(e.ru, e.cs, e.u), (e.rv, e.cr, e.v)]

/-- Whether two ends use one channel of one core on some tile. -/
def TaskGraph.clash (g : TaskGraph) (a b : Nat × Nat × Nat) : Bool :=
  decide (a.1 = b.1) && decide (a.2.1 = b.2.1) && (match g.nodes[a.2.2]?, g.nodes[b.2.2]? with
    | some m, some n => m.meets n
    | _, _ => false)

/-- No channel of a core serves two ends on one tile (02 R79). -/
def TaskGraph.noClash (g : TaskGraph) : List (Nat × Nat × Nat) → Bool
  | [] => true
  | a :: r => !(r.any fun b => g.clash a b) && g.noClash r

/-- A graph keeps to 01 R28 and 02 R79: its rectangles, its start classes (each owned by its node), its edges. -/
def Object.graphOk (o : Object) (g : TaskGraph) : Bool :=
  (g.nodes.all fun n => n.fits o.x o.y && n.starts.any Option.isSome) &&
  ((List.range g.nodes.length).all fun i => (List.range 3).all fun r =>
    match ((g.nodes[i]?).bind fun n => n.starts[r]?).join with
    | none => true
    | some c => ((o.classOf g.num (Role.ofCode r) c).map fun x => decide (x.node = i)).getD false) &&
  (g.edges.all fun e => o.edgeOk g e) && g.noClash g.ends

/-- Every limit of Table 2.15 and R79 holds, for the graphs parsed (18 R508 status 2; 10 R310), and the limit of 02 R78, which swasm checks: that the loader
checks it too is a DESIGN CHOICE, log 71. -/
def Object.limitsOk (o : Object) (gs : List TaskGraph) : Bool :=
  decide (1 ≤ o.profile ∧ o.profile ≤ 3) && gridOk o.x o.y && (o.classes.all fun x => o.classOk gs x) && o.rates.all rateOk && o.segs.all segOk &&
  o.rings.all ringOk && o.tsrs.all tsrOk && decide (o.tsrs.length ≤ 256) && (o.prots.all fun p => decide (p.1 < 8)) &&
  (o.regions.all fun r => decide (1 ≤ r.bytes ∧ r.offset + r.bytes ≤ 1048576)) && decide (o.data.length + o.ringBytes ≤ 1048576) &&
  gs.all fun g => o.graphOk g

/-! ### Handlers and rates (status 4 and 5) -/

/-- Whether every class names a handler, and every node a start class of each role that has code (18 R508 status 4). -/
def Object.handlersOk (o : Object) (gs : List TaskGraph) : Bool :=
  (o.classes.all fun x => decide (x.handler % 2 = 0) && decide (x.handler < (codeOf o x.role).length)) &&
  gs.all fun g => g.nodes.all fun n => (List.range 3).all fun r => (codeOf o (Role.ofCode r)).isEmpty || ((n.starts[r]?).join).isSome

/-- The firing count of a node, as a ratio to that of the node its component was begun from (18 R509). -/
abbrev Firing := Option (Rat × Nat)

/-- Carries firing counts once over the edges. -/
def spreadOnce (es : List GraphEdge) (q : List Firing) : List Firing :=
  es.foldl (fun q e =>
    match (q[e.u]?).join, (q[e.v]?).join with
    | some a, none => q.set e.v (some (a.1 * e.p / e.c, a.2))
    | none, some b => q.set e.u (some (b.1 * e.c / e.p, b.2))
    | _, _ => q) q

/-- Carries firing counts over the edges n times. -/
def spread (es : List GraphEdge) : Nat → List Firing → List Firing
  | 0, q => q
  | n + 1, q => spread es n (spreadOnce es q)

/-- Firing counts of every node, each component begun from 1 (18 R509). -/
def TaskGraph.firings (g : TaskGraph) : List Firing :=
  let n := g.nodes.length
  (List.range n).foldl (fun q i => if ((q[i]?).join).isSome then q else spread g.edges n (q.set i (some (1, i)))) (List.replicate n none)

/-- Whether the balance equations have a solution (18 R509). -/
def TaskGraph.balanced (g : TaskGraph) : Bool :=
  let q := g.firings
  g.edges.all fun e =>
    match (q[e.u]?).join, (q[e.v]?).join with
    | some a, some b => decide (a.1 * e.p = b.1 * e.c)
    | _, _ => false

/-- The least positive whole firing count of a node (18 R509). -/
def TaskGraph.firing (g : TaskGraph) (i : Nat) : Nat :=
  let q := g.firings
  match (q[i]?).join with
  | none => 1
  | some a =>
    let mine := q.filterMap fun x => x.bind fun y => if y.2 = a.2 then some y.1 else none
    let l := (mine.map Rat.den).foldl Nat.lcm 1
    let d := (mine.map fun (y : Rat) => (y * (l : Rat)).num.toNat).foldl Nat.gcd 0
    (a.1 * (l : Rat)).num.toNat / d

/-- The hamper that an edge sized by swsched needs beyond its depth, in units (18 R509). -/
def TaskGraph.neededHamper (g : TaskGraph) (e : GraphEdge) : Nat := (max 17 (17 * e.p * g.firing e.u) - e.depth + 1023) / 1024

/-- The receive ends of one role on a tile: the sum of their depths (06 R181). -/
def TaskGraph.depthsAt (g : TaskGraph) (role x y : Nat) : Nat :=
  sumOf ((g.edges.filter fun e => decide (e.rv = role) && ((g.nodes[e.v]?).map fun n => n.covers x y).getD false).map GraphEdge.depth)

/-- The depths of the receive ends of every core add up to at most 1,024 flits (06 R181): it suffices to look where a rectangle's first column meets a
rectangle's first row. -/
def TaskGraph.depthsOk (g : TaskGraph) : Bool :=
  (List.range 3).all fun r => g.nodes.all fun a => g.nodes.all fun b => decide (g.depthsAt r a.x b.y ≤ 1024)

/-- Rates and sizes of a graph are sound (18 R508 status 5). -/
def TaskGraph.sizesOk (g : TaskGraph) : Bool :=
  ((g.edges.all GraphEdge.hand) || (g.balanced && g.edges.all fun e => e.hand || decide (g.neededHamper e ≤ 255))) && g.depthsOk

/-- The loader's checks in order (18 R508): the refusal record, none when the object is accepted; programs is how many the partition holds. -/
def Object.refusal (o : Object) (programs : Nat) : Option (List Word) :=
  let head (n : Nat) : Option (List Word) := some (BitVec.ofNat 64 n :: List.replicate 7 0)
  if o.refusedSites ≠ [] then some (siteRecord o.refusedSites)
  else
    match parseGraphs o.graph with
    | none => head 2
    | some gs =>
      if o.limitsOk gs = false then head 2
      else if 131072 < o.codeMc.length ∨ 131072 < o.codeFc.length ∨ 131072 < o.codeAc.length then head 3
      else if o.handlersOk gs = false then head 4
      else if gs.all TaskGraph.sizesOk = false then head 5
      else if 64 ≤ programs then head 6
      else none

/-- Whether every section lies within the object (18 R508 status 2). -/
def Object.inBounds (o : Object) (len : Nat) : Bool := o.sections.all fun x => decide (x.1 + x.2 ≤ len)

/-- The loader's checks of an object of a length (18 R508): a section out of bounds is of status 2, behind the sites. -/
def Object.refusalIn (o : Object) (len programs : Nat) : Option (List Word) :=
  if o.refusedSites = [] ∧ o.inBounds len = false then some (2 :: List.replicate 7 0) else o.refusal programs

/-! ### What swload writes at launch -/

/-- The hamper pool of a launch that its packet does not give: each hamper of h ≥ 1 units counts h + 1, for each receive end (18 R509, 06 R189). -/
def TaskGraph.pool (g : TaskGraph) : Nat :=
  sumOf (g.edges.map fun e => if e.hamper = 0 then 0 else (e.hamper + 1) * ((g.nodes[e.v]?).map fun n => n.w * n.h).getD 0)

/-- The static tile tasks of a graph in index order (01 R29): node and logical tile. -/
def TaskGraph.statics (g : TaskGraph) (x : Nat) : List (Nat × Nat) :=
  (List.range g.nodes.length).flatMap fun i =>
    match g.nodes[i]? with
    | none => []
    | some n => (List.range n.h).flatMap fun j => (List.range n.w).map fun k => (i, (n.y + j) * x + n.x + k)

/-- The logical tile at an offset of a node's rectangle, wrapping inside it (02 R79). -/
def GraphNode.tileAt (n : GraphNode) (x : Nat) (i j : Int) : Nat := (n.y + (j.emod n.h).toNat) * x + n.x + (i.emod n.w).toNat

/-- The channel ends that an edge makes on a core (06 R180, R184; 02 R79). -/
def edgeEnds (g : TaskGraph) (l x : Nat) (c : CoreId) (e : GraphEdge) : List (Nat × Chan) :=
  match g.nodes[e.u]?, g.nodes[e.v]? with
  | some u, some v =>
    let tx := c.t % x
    let ty := c.t / x
    (if e.ru = c.r.code ∧ u.covers tx ty then
      [(e.cs, { Chan.closed with kind := .send, peer := some (⟨l, v.tileAt x ((tx - u.x : Nat) + e.dx) ((ty - u.y : Nat) + e.dy), Role.ofCode e.rv⟩, e.cr),
                                 credits := e.depth + 1024 * e.hamper })]
     else []) ++
    (if e.rv = c.r.code ∧ v.covers tx ty then
      [(e.cr, { Chan.closed with kind := .bound, depth := e.depth, hamper := e.hamper, bind := e.bind,
                                 peer := some (⟨l, u.tileAt x ((tx - v.x : Nat) - e.dx) ((ty - v.y : Nat) - e.dy), Role.ofCode e.ru⟩, e.cs) })]
     else [])
  | _, _ => []

/-- A segment word (07 Table 7.3). -/
def limitWord (r w : Bool) (global : Bool) (limit : Nat) : Word :=
  BitVec.ofNat 64 ((if w then 9223372036854775808 else 0) + (if r then 4611686018427387904 else 0) + (if global then 2305843009213693952 else 0) + limit)

/-- The default binding of a segment that the object declares (07 R214). -/
def ObjSeg.binding (x : ObjSeg) : Seg :=
  { base := BitVec.ofNat 64 x.base, limit := limitWord x.r x.w (decide (1048576 < x.base + x.limit)) x.limit }

/-- The protection regions at launch (07 R211): those of the object, else region 0 whole with every right; reserved bits read 0. -/
def Object.protection (o : Object) : List Word :=
  if o.prots.isEmpty then 0xFFFC00003F#64 :: 0 :: List.replicate 6 0
  else (List.range 8).map fun i => (((o.prots.find? fun p => p.1 = i).map fun p => p.2).getD 0) &&& 0xFFFFFFF03F

/-- The rings at launch (10 R287): from the top of the scratchpad downward, in ring-number order. -/
def Object.ringsAtLaunch (o : Object) : Map Nat Ring :=
  (sortBy (fun (a b : ObjRing) => decide (a.n < b.n)) o.rings).map fun (r : ObjRing) =>
    let above := sumOf ((o.rings.filter fun x => x.n ≤ r.n).map fun x => x.slotBytes * x.slots)
    (r.n, { Ring.init with en := true, base := (1048576 - above) / 64, lines := r.slotBytes / 64, slots := r.slots })

/-- Four 16-bit fields as a word. -/
def fields16 (l : List Nat) : Word := BitVec.ofNat 64 (l.getD 0 0 + l.getD 1 0 * 65536 + l.getD 2 0 * 4294967296 + l.getD 3 0 * 281474976710656)

/-- The record of a .tsr directive on a tile (10 R310, R311): the base from the launch binding of its segment. -/
def ObjTsr.record (x : ObjTsr) (t : Nat) (b : Seg) : List Word :=
  let base := if b.limit.getLsbD 61 then b.base + BitVec.ofNat 64 x.offset else windowAddr t (b.base.toNat + x.offset)
  let last := x.extents.map fun e => e - 1
  [base, fields16 last, BitVec.ofInt 64 (x.strides.getD 0 0), BitVec.ofInt 64 (x.strides.getD 1 0), BitVec.ofInt 64 (x.strides.getD 2 0), 0, fields16 last,
   BitVec.ofNat 64 ((x.extents.length - 1) * 64 + x.type)]

/-- The shape records at launch (10 R310). -/
def Object.tsrsAtLaunch (o : Object) (t : Nat) (binds : Map Nat Seg) : Map Nat Tsr :=
  (List.range o.tsrs.length).filterMap fun i => (o.tsrs[i]?).map fun (x : ObjTsr) =>
    (i, { valid := true, gen := 0, words := x.record t (binds.getD x.seg { base := 0, limit := 0 }) })

/-- A logical tile at launch (01 R26; 02 R78; 07 R211; 10 R287, R310). -/
def Object.tileAtLaunch (o : Object) (t : Nat) (binds : Map Nat Seg) : Tile :=
  { Tile.init with mem := launchMem o, prot := o.protection, rings := o.ringsAtLaunch, tsrs := o.tsrsAtLaunch t binds }

/-- The class table of a role for a graph (05 R145). -/
def Object.classTable (o : Object) (g : Nat) (r : Role) : Map Nat Class :=
  (o.classes.filter fun x => decide (x.graph = g) && decide (x.role = r)).map fun (x : ObjClass) =>
    (x.cls, { valid := true, handler := BitVec.ofNat 64 x.handler, prio := x.prio, node := x.node })

/-- The start activations of a core (05 R141, R143), each with the index and node of its static tile task. -/
def startsOf (g : TaskGraph) (l n : Nat) (r : Role) (release : Option Nat) (tasks : List (Nat × Nat)) : List Waiting :=
  tasks.filterMap fun x =>
    match ((g.nodes[x.2]?).bind fun m => m.starts[r.code]?).join with
    | none => none
    | some c =>
      let p := staticPath n x.1
      some { kind := .start, cls := c, s1 := BitVec.ofNat 64 x.1, s2 := BitVec.ofNat 64 x.2, s3 := 0, tt := ⟨l, p⟩, key := ⟨l, p, 0⟩, addr := none,
             release := release }

end Sys2Proof
end

