-- ==== Sys2Proof/Machine/Host.lean ====
section
/-! DEFINITION. Assignable interfaces and host windows (17 R470 to R478): submission, admission, completion records, apertures. -/

namespace Sys2Proof.Machine

/-! ### The interface page (17 R470, R471, R475) -/

/-- Whether an interface's page and aperture are open on a link (17 R470, R478). -/
def State.onLink (s : State) (link n : Nat) : Bool := decide (n < 4096) && decide ((s.iface n).assigned.map (fun x => x.1) = some link)

/-- LAUNCH_SUBMIT (17 R471): the host writes the tail. -/
def execLaunchSubmit (link n : Nat) (tail : Word) (s : State) : Outcome :=
  event s (s.onLink link n) (s.modIface n fun f => { f with tail := tail.extractLsb' 0 32 })

/-- Whether the ring's next place is free (17 R475): record j while j is below cons + 2^nsize, both counted mod 2^32. -/
def Iface.hasPlace (f : Iface) : Bool :=
  let d := (BitVec.ofNat 32 f.written - f.cons).toNat
  decide (d < 2 ^ min (max f.nsize.toNat 4) 16) || decide (2147483648 ≤ d)

/-- Writes the completion records held back, as far as the ring has places, at most so many: record, then MSI-X vector (17 R475, Table 17.1). -/
def State.pushRecords (s : State) (n : Nat) : Nat → State
  | 0 => s
  | k + 1 =>
    let f := s.iface n
    match f.backlog, f.assigned with
    | r :: rest, some (link, pasid, _) =>
      if f.hasPlace then
        let at_ := f.nbase + BitVec.ofNat 64 (64 * (f.written % 2 ^ min (max f.nsize.toNat 4) 16))
        let s := s.pokePlace (.host link (hostAt pasid.toNat at_.toNat)) (r.flatMap wordBytes)
        { s.modIface n (fun f => { f with backlog := rest, written := f.written + 1 }) with out := .msix link f.vector.toNat :: s.out }.pushRecords n k
      else s
    | _, _ => s

/-- Hands a completion record to an interface's ring (17 R475). -/
def State.giveRecord (s : State) (n : Nat) (r : List Word) : State :=
  (s.modIface n fun f => { f with backlog := f.backlog ++ [r] }).pushRecords n ((s.iface n).backlog.length + 1)

/-- CONSUMED_COUNT_WRITE (17 R475). -/
def execConsumedCountWrite (link n : Nat) (cons : Word) (s : State) : Outcome :=
  event s (s.onLink link n)
    ((s.modIface n fun f => { f with cons := cons.extractLsb' 0 32 }).pushRecords n (s.iface n).backlog.length)

/-! ### Apertures (17 R478) -/

/-- An aperture's address: abase plus the offset. -/
def Iface.va (f : Iface) (off : Word) : Word := f.abase + off

/-- Records an aperture access that could not be made. -/
def State.apertureError (s : State) (n : Nat) (tag : BitVec 8) (off : Word) : State := s.logError tag (.aperture n off)

/-- APERTURE_WRITE (17 R478): performed at once, outside every commit buffer; discarded whole where it cannot be. -/
def execApertureWrite (link n : Nat) (off : Word) (bytes : List Byte) (s : State) : Outcome :=
  let f := s.iface n
  match f.assigned with
  | none => .next s
  | some (_, _, tag) =>
    event s (s.onLink link n && decide (off.toNat + bytes.length ≤ 1048576))
      (match s.spans tag (f.va off) bytes.length fun p => p.w && !p.isHost with
       | some ps => s.writePages ps bytes
       | none => s.apertureError n tag off)

/-- APERTURE_READ (17 R478): the bytes at the home; all ones where it cannot be made; 0 on the other link. -/
def execApertureRead (link n : Nat) (off : Word) (len : Nat) (s : State) : Outcome :=
  let f := s.iface n
  let give (s : State) (bs : List Byte) : State := { s with out := .apertureRead link bs :: s.out }
  match s.onLink link n, f.assigned with
  | true, some (_, _, tag) =>
    event s (decide (off.toNat + len ≤ 1048576))
      (match s.spans tag (f.va off) len fun p => p.r && !p.isHost with
       | some ps => give s (s.readPages ps)
       | none => give (s.apertureError n tag off) (List.replicate len 0xFF))
  | _, _ => .next (give s (List.replicate len 0))

/-! ### Admission (17 R471 to R474; 12 R355, R356, R358) -/

/-- Word w of the packet that an interface's admission takes next (17 R471). -/
def Iface.word (f : Iface) (w : Nat) : Word := f.packets.getD (16 * (f.head.toNat % 16) + w) 0

/-- Whether packets wait on an interface (17 R471): a tail more than 16 above head still leaves one to take. -/
def Iface.isPending (f : Iface) : Bool := decide (f.tail ≠ f.head)

/-- What a packet that passes the checks asks for. -/
structure Admit where
  obj : Object
  graph : TaskGraph
  handle : BitVec 32
  x : Nat
  y : Nat
  free : Bool
  scope : Scope
  binds : Map Nat Seg
  units : Nat

/-- The segment table entry of a bound segment (17 R473; 07 Table 7.3): none when it cannot be read or breaks its rules. -/
def State.segEntry (s : State) (tag : BitVec 8) (segtab : Word) (n : Nat) : Option Seg :=
  match s.deviceRead tag (segtab + BitVec.ofNat 64 (16 * n)) 16 with
  | none => none
  | some bs =>
    let base := bytesToWord (bs.take 8)
    let w := bytesToWord (bs.drop 8)
    let limit := ufield w 0 49
    if ufield w 49 12 ≠ 0 ∨ 281474976710656 < limit ∨ (w.getLsbD 61 = false ∧ 1048576 < base.toNat + limit) then none else some { base := base, limit := w }

/-- The launch binding of a segment (07 R214, 17 R473). -/
def State.bindingOf (s : State) (o : Object) (tag : BitVec 8) (bound segtab : Word) (n : Nat) : Option (Nat × Seg) :=
  let d := o.segs.find? fun x => x.n = n
  if bound.getLsbD n then
    (s.segEntry tag segtab n).map fun e =>
      (n, match d with
        | none => e
        | some x => { e with limit := e.limit &&& limitWord x.r x.w true 0x1FFFFFFFFFFFFFFF })
  else some (n, (d.map ObjSeg.binding).getD { base := 0, limit := 0 })

/-- Whether rim HBM can hold the fold images of n more logical tiles beside those of the launches that run: 1,152 KiB for each (15 R434), in 44 stacks of 64 GiB. -/
def State.imagesFit (s : State) (n : Nat) : Bool :=
  decide ((sumOf ((s.launches.filter fun l => !l.2.done).map fun l => l.2.x * l.2.y) + n) * 1179648 ≤ 44 * 2 ^ 36)

/-- The checks of Table 17.3, in order: the status that refuses the packet, or what it asks for. allot tells whether, beside what else rim HBM holds, the fold
images and the fibre pool can be allotted (15 R434, 14 R413). -/
def State.admissionCheck (s : State) (f : Iface) (tag : BitVec 8) (p : Partition) (allot : Bool) : Except Nat Admit :=
  let w := f.word
  let scope := ufield (w 0) 59 2
  let free := (w 0).getLsbD 61
  let px := ufield (w 1) 0 21
  let py := ufield (w 1) 32 21
  if ufield (w 0) 62 2 ≠ 0 ∨ ufield (w 1) 53 11 ≠ 0 ∨ ufield (w 1) 21 11 ≠ 0 ∨ ufield (w 4) 16 48 ≠ 0 ∨ ufield (w 6) 32 32 ≠ 0 ∨
      ((List.range 8).any fun i => decide (w (8 + i) ≠ 0)) ∨ scope = 3 ∨ ((px = 0) ≠ (py = 0)) then .error 1
  else if (w 0).extractLsb' 48 8 ≠ tag then .error 2
  else
    match p.programs.get? (ufield (w 0) 0 32) with
    | none => .error 3
    | some o =>
      match o.taskGraph (ufield (w 0) 32 16) with
      | none => .error 3
      | some g =>
        let x := if px = 0 then o.x else px
        let y := if py = 0 then o.y else py
        let binds := (List.range 16).map fun n => s.bindingOf o tag (w 4) (w 3) n
        let units := if ufield (w 6) 0 32 = 0 then g.pool else ufield (w 6) 0 32
        if gridOk x y = false ∨ (g.nodes.all fun n => n.fits x y) = false then .error 4
        else if decide (scope = 0) ≠ free ∨ free ≠ o.free then .error 5
        else if (w 4 ≠ 0 ∧ ufield (w 3) 0 8 ≠ 0) ∨ (binds.all Option.isSome) = false then .error 6
        else if allot = false ∨ s.imagesFit (x * y) = false ∨ units < g.pool ∨ p.pool < units then .error 7
        else if s.hasFrame tag (min 8 x) [] = false then .error 8
        else .ok { obj := o, graph := g, handle := (w 0).extractLsb' 0 32, x := x, y := y, free := free,
                   scope := if scope = 0 then .none else if scope = 1 then .launch else .stream, binds := binds.filterMap id, units := units }

/-- Whether a launch has a tile task that has not retired. -/
def State.unretired (s : State) (l : Nat) : Bool := s.tts.any fun e => decide (e.1.l = l) && !e.2.retired

/-- The open stream of an interface: its slot and next launch number (12 R355, R358). -/
def State.openStream (s : State) (n : Nat) : Option (Nat × BitVec 16) := (s.iface n).stream

/-- The scope slots in use (12 R355, R356): of launches with an unretired tile task, and of open streams. -/
def State.usedSlots (s : State) : List Nat :=
  ((s.launches.filter fun l => decide (l.2.scope ≠ .none) && !l.2.done && s.unretired l.1).map fun l => l.2.slot) ++
  s.ifaces.keys.filterMap fun n => (s.openStream n).map fun x => x.1

/-- A free scope slot; which one, the manual leaves open (log entry 31). -/
def State.freeSlot (s : State) : Option Nat :=
  let free := (List.range 1024).filter fun n => !s.usedSlots.contains n
  if free.isEmpty then none else free[Config.slotChoice s.fresh % free.length]?

/-- Slot, launch number and the interface's stream after it, for a launch of a scope; none while it must wait (12 R356, R358). -/
def State.slotFor (s : State) (n : Nat) (scope : Scope) : Option (Nat × BitVec 16 × Option (Nat × BitVec 16)) :=
  match scope with
  | .none => some (0, 0, (s.iface n).stream)
  | .launch => s.freeSlot.map fun k => (k, 0, (s.iface n).stream)
  | .stream =>
    match s.openStream n with
    | some (k, number) =>
      let out := s.launches.filter fun l => decide (l.2.iface = n) && decide (l.2.scope = .stream) && decide (l.2.slot = k) && s.unretired l.1
      if 32768 ≤ out.length then none else some (k, number, some (k, number + 1))
    | none => s.freeSlot.map fun k => (k, 0, some (k, 1))

/-- Whether an interface's packet waits for a slot or for its stream (12 R356, R358). -/
def State.packetWaits (s : State) (n : Nat) : Bool :=
  let f := s.iface n
  match f.assigned with
  | none => false
  | some (_, _, tag) =>
    match s.parts.get? tag with
    | none => false
    | some p =>
      match s.admissionCheck f tag p true with
      | .error _ => false
      | .ok a => (s.slotFor n a.scope).isNone

/-- Whether another interface of the partition goes before: higher priority, or the same and a lower number (17 R471). -/
def State.goesBefore (s : State) (tag : BitVec 8) (n m : Nat) : Bool :=
  let prio (k : Nat) : Nat := ufield ((s.iface k).word 0) 56 3
  decide (m ≠ n) && decide ((s.iface m).assigned.map (fun x => x.2.2) = some tag) && (s.iface m).isPending && !s.packetWaits m &&
  (decide (prio n < prio m) || (decide (prio n = prio m) && decide (m < n)))

/-- Whether admission may take an interface's next packet now (17 R468, R471; 18 R502). -/
def State.mayAdmit (s : State) (n : Nat) (tag : BitVec 8) : Bool :=
  s.booted && (s.iface n).isPending && !s.changing tag && !(s.requests.any fun r => r.tags.contains tag) && !s.packetWaits n &&
  !(s.ifaces.keys.any fun m => s.goesBefore tag n m)

/-! ### What an admitted launch begins with (01 R26, R29; 05 R143; 15 R428; 16 R458) -/

/-- A core of a launch's tile as swload leaves it (04 Table 4.1; 05 R143, R145; 06 R180; 07 R214; 18 R512). -/
def State.coreAtLaunch (s : State) (l : Nat) (a : Admit) (p : Partition) (tag : BitVec 8) (n : Nat) (release : Option Nat) (tasks : List (Nat × Nat)) (c : CoreId) :
    Core :=
  { Core.init with
    classes := a.obj.classTable a.graph.num c.r, chans := a.graph.edges.flatMap fun e => edgeEnds a.graph l a.x c e,
    waiting := startsOf a.graph l n c.r release tasks,
    tvecK := (match c.r with
      | .mc => p.entMc
      | .fc => p.entFc
      | _ => p.entAc),
    tvecH := s.hyperEntry, free := a.free, ptag := tag, prof := p.mask &&& 0xFE, uvec := align64 (BitVec.ofNat 64 a.obj.uvec),
    binds := if c.r = .mc then a.binds else [] }

/-- Places a launch's bundles in number order (15 R428). -/
def State.placeBundles (s : State) (l x : Nat) (tag : BitVec 8) (n : Nat) : State :=
  (List.range n).foldl (fun s b =>
    let w := min 8 (x - 8 * (b % ((x + 7) / 8)))
    let blank : Bundle := { st := .folded, gen := 0, frame := 0, home := ⟨0, 0, 0⟩, pinned := false, summoned := none, since := s.cycle }
    { s with bundles := s.bundles.set (l, b) (match s.findFrame tag w with
      | none => blank
      | some (_, i, p) => { blank with st := .resident, frame := i, home := p }) }) s

/-- The cycle at which a tile's starts are released (16 R458): by the place of its power group among those that hold resident tiles of the launch. -/
def State.releaseAt (s : State) (l : Nat) (t : TileId) : Nat :=
  let groups := (s.bundles.filter fun e => decide (e.1.1 = l) && decide (e.2.st = .resident)).foldl
    (fun acc e => insertSorted (powerOf e.2.home.zoneOf) acc) ([] : List Nat)
  match s.zoneOf t with
  | none => s.cycle
  | some z => s.cycle + 300 * (groups.filter fun g => g < powerOf z).length

/-- Creates a launch's tiles with their cores and tile tasks. -/
def State.createTiles (s : State) (l : Nat) (a : Admit) (p : Partition) (tag : BitVec 8) : State :=
  let st := a.graph.statics a.x
  let n := st.length
  let tasks := (List.range n).map fun i => (i, st.getD i (0, 0))
  let tts := tasks.map fun (e : Nat × Nat × Nat) => ((⟨l, staticPath n e.1⟩ : TTId), TileTask.init e.1 e.2.1 ⟨l, e.2.2⟩)
  let ids := (List.range (a.x * a.y)).map fun t => (⟨l, t⟩ : TileId)
  let cores := ids.flatMap fun t =>
    let mine := (tasks.filter fun e => e.2.2 = t.t).map fun e => (e.1, e.2.1)
    let release := if s.resident t then some (s.releaseAt l t) else none
    [t.core .mc, t.core .fc, t.core .ac].map fun c => (c, s.coreAtLaunch l a p tag n release mine c)
  { s with tts := s.tts ++ tts, tiles := s.tiles ++ ids.map fun t => (t, a.obj.tileAtLaunch t.t a.binds), cores := s.cores ++ cores }

/-- The starts of the bundles of a launch that begin folded stand in their images' run queues (15 R428). -/
def State.queueStarts (s : State) (l : Nat) : State :=
  ((s.cores.keys.filter fun c => decide (c.l = l) && !s.resident c.tile)).foldl (fun s c =>
    (List.range (s.core c).waiting.length).foldl (fun s _ => s.enterWaiting c) s) s

/-- The stream of a launch being admitted: that of the launch before it in the interface's open stream, else one that it opens itself (12 R356, R358). -/
def State.streamFor (s : State) (n l : Nat) (after : Option (Nat × BitVec 16)) (number : BitVec 16) : Nat :=
  if after.isNone then l
  else
    (((s.launches.filter fun x => decide (x.2.iface = n) && decide (x.2.scope = .stream) && decide (some x.2.slot = after.map Prod.fst) &&
        decide (x.2.number + 1 = number)).foldl (fun (b : Nat × Nat) x => if b.1 ≤ x.1 then (x.1, x.2.stream) else b) (0, l)).2)

/-- Admits a launch: its pool, slot and number, its bundles, its tiles, its starts. -/
def State.startLaunch (s : State) (n : Nat) (tag : BitVec 8) (p : Partition) (a : Admit) (slot : Nat) (number : BitVec 16) (stream : Option (Nat × BitVec 16)) : State :=
  let f := s.iface n
  let l := s.fresh
  let launch : Launch :=
    { tag := tag, iface := n, packet := f.head.toNat, cookie := f.word 7, handle := a.handle, obj := a.obj, graph := a.graph.num, x := a.x, y := a.y,
      free := a.free, scope := a.scope, slot := slot, number := number, seed := f.word 2, flagarr := f.word 5, statics := (a.graph.statics a.x).length,
      units := a.units, pool := a.units - a.graph.pool, stream := s.streamFor n l stream number, overflow := none, overflowAt := 0, ending := false, done := false, failed := false, mended := 0,
      droops := [] }
  let s := { s with fresh := s.fresh + 1, launches := s.launches.set l launch }
  let s := s.modPart tag fun p => { p with pool := p.pool - a.units }
  let s := s.modIface n fun f => { f with head := f.head + 1, stream := stream }
  let s := (s.placeBundles l a.x tag (a.y * ((a.x + 7) / 8))).createTiles l a p tag
  let s := s.queueStarts l
  (List.range 208).foldl (fun s z =>
    let ts := (s.tilesIn z).filter fun t => t.l = l
    if ts.isEmpty then s else s.adopt z ts) s

/-- LAUNCH_ADMISSION (17 R471 to R474): the packet is admitted, refused with a record, or waits. -/
def execLaunchAdmission (n : Nat) (allot : Bool) (s : State) : Outcome :=
  let f := s.iface n
  match f.assigned with
  | none => .next s
  | some (_, _, tag) =>
    match s.parts.get? tag with
    | none => .next s
    | some p =>
      event s (s.mayAdmit n tag)
        (match s.admissionCheck f tag p allot with
         | .error st => (s.modIface n fun f => { f with head := f.head + 1 }).giveRecord n [BitVec.ofNat 64 st, 0, 0, 0, 0, 0, 0, f.word 7]
         | .ok a =>
           match s.slotFor n a.scope with
           | none => s
           | some (slot, number, stream) => s.startLaunch n tag p a slot number stream)

/-! ### Completion (12 R357; 17 R475, R476) -/

/-- The tile tasks of a launch in commit order (12 R352). -/
def State.tasksOf (s : State) (l : Nat) : List (TTId × TileTask) :=
  sortBy (fun (a b : TTId × TileTask) => s.ttBefore a.1 b.1) (s.tts.filter fun e => e.1.l = l)

/-- Whether a core has nothing of its launch ready, running or suspended (12 R357). -/
def State.coreIdle (s : State) (c : CoreId) : Bool :=
  let k := s.core c
  k.runq.isEmpty && k.waiting.isEmpty && k.fibres.isEmpty && (List.range 4).all fun i => decide ((s.ctx ⟨c, i⟩).phase = .free)

/-- Whether a launch has completed (12 R357; 17 R476): every tile task retired, nothing of it in flight, ready, running or suspended, every write applied. -/
def State.launchOver (s : State) (l : Nat) : Bool :=
  !s.unretired l && ((s.cores.keys.filter fun c => c.l = l).all s.coreIdle) &&
  !(s.net.any fun f => f.pkt.byUnit && (decide (f.src.map CoreId.l = some l) || decide (f.dst.map TileId.l = some l))) &&
  !(s.homes.any fun h => h.2.held.any fun e => e.by_.core.l = l) && !(s.posted.any fun p => p.by_.core.l = l) &&
  !(s.xfers.any fun x => x.by_.core.l = l) && !(s.edges.any fun e => decide (e.2.end_.core.l = l) && !e.2.unacked.isEmpty) &&
  !(s.zones.any fun z => z.2.rerun.any fun t => t.l = l)

/-- Whether a failed launch has had its ZONELOST notice handled (14 R421). -/
def State.noticesOver (s : State) (l : Nat) : Bool :=
  (s.cores.keys.filter fun c => c.l = l).all fun c =>
    (!s.resident c.tile || !((s.core c).notices.any fun a => decide (a.code = causeZonelost))) &&
    (List.range 4).all fun i => !(s.ctx ⟨c, i⟩).isNotice || decide ((s.ctx ⟨c, i⟩).phase = .dead)

/-- The completion record (17 Table 17.4). -/
def State.completionRecord (s : State) (l : Nat) (x : Launch) : List Word :=
  let ts := s.tasksOf l
  let flags := ts.foldl (fun (f : BitVec 5) t => f ||| t.2.flags) 0
  let denied := (ts.filterMap fun t => t.2.denied).head?
  [if x.failed then 9 else 0, if x.scope = .stream then x.number.setWidth 64 else 0, flags.setWidth 64,
   BitVec.ofNat 64 (ts.filter fun t => t.2.retired).length, BitVec.ofNat 64 (min (sumOf (ts.map fun t => t.2.denials)) 18446744073709551615),
   BitVec.ofNat 64 ((ts.filter fun t => t.2.voided).length % 4294967296 * 4294967296 + sumOf (ts.map fun t => t.2.lost) % 4294967296),
   denied.getD 0, x.cookie]

/-- Writes the flag array (17 R476): byte i holds the flag word of static index i, with those of its descendants, once it has retired. -/
def State.writeFlags (s : State) (l : Nat) (x : Launch) : State :=
  if x.flagarr = 0 then s
  else
    (List.range x.statics).foldl (fun s i =>
      let mine := s.tts.filter fun e => decide (e.1.l = l) && decide (e.2.index = i) && e.2.retired
      if mine.any fun e => decide (e.1.path = staticPath x.statics i) then
        s.deviceWrite x.tag (x.flagarr + BitVec.ofNat 64 i) [(mine.foldl (fun (f : BitVec 5) e => f ||| e.2.flags) 0).setWidth 8]
      else s) s

/-- Takes away everything of a launch but its own record: its tiles, cores, contexts, tile tasks, bundles, and what still travels (17 R475). -/
def State.clearLaunch (s : State) (l : Nat) : State :=
  let ts := (s.tiles.keys).filter fun t => t.l = l
  let mine (c : CoreId) : Bool := decide (c.l = l)
  let homes := (s.homes.filter fun h => match h.1 with
    | .tile t => decide (t.l ≠ l)
    | _ => true).map fun (h : Home × HomeSt) =>
      (h.1, { h.2 with held := h.2.held.filter (fun e => !mine e.by_.core), waiters := h.2.waiters.filter (fun w => !mine w.core),
                       syncs := h.2.syncs.filter fun y => !mine y.by_.core })
  let zones := s.zones.map fun (z : Nat × Zone) =>
    (z.1, { z.2 with restore := z.2.restore.map (fun i => i.without ts), streaming := z.2.streaming.map (fun i => i.without ts),
                     placed := z.2.placed.map fun p => (p.1, p.2.without ts),
                     rerun := z.2.rerun.filter (fun t => t.l ≠ l), log := z.2.log.filter (fun e => (e.2.dest.map TileId.l) ≠ some l),
                     wave := z.2.wave.map fun v => { v with moves := v.moves.filter fun m => m.1.1 ≠ l } })
  let parts := s.parts.map fun (p : BitVec 8 × Partition) =>
    (p.1, { p.2 with pendings := p.2.pendings.filter fun x => match x.fibre with
      | some c => decide (c.1.l ≠ l)
      | none => true })
  { s with
    tiles := s.tiles.filter (fun e => e.1.l ≠ l), cores := s.cores.filter (fun e => !mine e.1), ctxs := s.ctxs.filter (fun e => !mine e.1.core),
    tts := s.tts.filter (fun e => e.1.l ≠ l), bundles := s.bundles.filter (fun e => e.1.1 ≠ l), homes := homes, zones := zones, parts := parts,
    net := s.net.filter (fun f => !(decide (f.src.map CoreId.l = some l) || decide (f.dst.map TileId.l = some l) ||
      ((f.pkt.answerTo.map fun b => mine b.core).getD false))),
    later := s.later.filter (fun x => !mine x.1), posted := s.posted.filter (fun p => !mine p.by_.core), xfers := s.xfers.filter (fun x => !mine x.by_.core),
    edges := s.edges.filter fun e => !mine e.2.end_.core }

/-- Whether a flight waits at a home with a full commit buffer, or for its resend there. -/
def Flight.turnedAway (f : Flight) : Bool :=
  match f.st with
  | .bounced => true
  | .waiting _ => true
  | _ => false

/-- Whether a write of a launch to device or host memory is on its way, its translation too (17 R476); what a full commit buffer has turned away is applied with
what the buffers hold. -/
def State.writesOut (s : State) (l : Nat) : Bool :=
  s.net.any fun f => match f.pkt with
    | .effect (.agent _) e => decide (e.by_.core.l = l) && !f.turnedAway
    | .effect (.host _) e => decide (e.by_.core.l = l) && !f.turnedAway
    | .walk a _ _ => decide (a.by_.core.l = l) && a.writes
    | _ => false

/-- Applies at a memory agent or a host what a launch that has failed has written there and is still held or turned away, in commit order (17 R476). -/
def State.commitHeld (s : State) (l : Nat) (h : Home) : State :=
  let mine (e : Effect) : Bool := decide (e.by_.core.l = l)
  let late := s.net.filter fun f => f.turnedAway && (match f.pkt with
    | .effect g e => decide (g = h) && mine e
    | _ => false)
  let es := (s.home h).held.filter mine ++ late.filterMap fun f => match f.pkt with
    | .effect _ e => some e
    | _ => none
  let s := { s.modHome h fun x => { x with held := x.held.filter fun e => !mine e } with net := s.net.filter fun f => !late.contains f }
  (s.sortEffects es).foldl (fun s e => if (s.repeated h e).isSome then s else (s.applyRaw h e).1) s

/-- The last writes of a failed launch (17 R476): every memory agent and host applies those that it has. -/
def State.commitAll (s : State) (l : Nat) : State :=
  let homes := s.homes.keys ++ s.net.filterMap fun f => match f.pkt with
    | .effect h _ => some h
    | _ => none
  (homes.dedup.filter fun h => match h with
    | .tile _ => false
    | _ => true).foldl (fun s h => s.commitHeld l h) s

/-- Ends a launch: the flag array, the record, what it was allotted goes back (12 R356, R378; 17 R475, R476). -/
def State.endLaunch (s : State) (l : Nat) (x : Launch) : State :=
  let s := (if x.failed then s.commitAll l else s).writeFlags l x
  let record := s.completionRecord l x
  let parked := sumOf (((s.tiles.keys).filter fun t => t.l = l).map fun t => unitsOf (s.parkedFlits t))
  let s := (s.clearLaunch l).modLaunch l fun x => { x with done := true }
  let s := s.modPart x.tag fun p => { p with pool := p.pool + x.units + parked }
  (s.giveRecord x.iface record).settleShrinks

/-- LAUNCH_COMPLETION (12 R357; 17 R475, R476; 14 R421 for a launch that failed, whose writes to memory arrive and are applied before the record; log entry 52). -/
def execLaunchCompletion (l : Nat) (s : State) : Outcome :=
  match s.launches.get? l with
  | none => .next s
  | some x => event s (!x.done && (if x.failed then s.noticesOver l && !s.writesOut l else s.launchOver l)) (s.endLaunch l x)

end Sys2Proof.Machine
end

