-- ==== Sys2Proof/Machine/Manage.lean ====
section
/-! DEFINITION. Management through HW-B (17 R463, R464, R479 to R489; 18 R505 to R512): partitions, the command page, images, registers, time slots,
scale-out ports. -/

namespace Sys2Proof.Machine

/-! ### Partitions (17 R463) -/

/-- PARTITION_CREATE (17 R463, R464): with its tag, tiles and hamper pool. -/
def execPartitionCreate (tag : BitVec 8) (tiles : List PTile) (pool : Nat) (s : State) : Outcome :=
  event s (s.booted && (s.parts.get? tag).isNone) ({ s with parts := s.parts.set tag (Partition.init tag pool) }.assign tag tiles)

/-- PARTITION_DELETE (17 R463): of a partition with no running launch and no change in progress; its tiles and interfaces are free. -/
def execPartitionDelete (tag : BitVec 8) (s : State) : Outcome :=
  event s ((s.parts.get? tag).isSome && !(s.launches.any fun l => decide (l.2.tag = tag) && !l.2.done) && !s.changing tag &&
      !(s.requests.any fun r => r.tags.contains tag))
    { s with
      parts := s.parts.erase tag, tags := s.tags.filter (fun e => e.2 ≠ tag),
      ifaces := s.ifaces.map fun (f : Nat × Iface) => if f.2.assigned.map (fun x => x.2.2) = some tag then (f.1, { f.2 with assigned := none, stream := none }) else f,
      tlbs := s.tlbs.map fun (x : Nat × List (BitVec 8 × BitVec 2 × Word × Word)) => (x.1, x.2.filter fun e => e.1 ≠ tag) }

/-! ### The command page (17 R480, R481) -/

/-- COMMAND_SUBMIT (17 R481): the tail is written. -/
def execCommandSubmit (tag : BitVec 8) (tail : Word) (s : State) : Outcome :=
  event s (s.parts.get? tag).isSome (s.modPart tag fun p => { p with ctail := tail.extractLsb' 0 32 })

/-- Word w of the command that a partition takes next (17 R481). -/
def Partition.word (p : Partition) (w : Nat) : Word := p.cmds.getD (8 * (p.chead.toNat % 62) + w) 0

/-- The operation of a command (17 Table 17.7). -/
def Partition.op (p : Partition) : Nat := ufield (p.word 0) 0 8

/-- The partition whose next command is of an operation (17 R481): a tail more than 62 above head still leaves one to take. -/
def State.commandOf (s : State) (tag : BitVec 8) (ok : Nat → Bool) : Option Partition :=
  (s.parts.get? tag).filter fun p => s.booted && decide (p.ctail ≠ p.chead) && ok p.op

/-- Completes a command: its status, then head (17 R481). -/
def State.commandDone (s : State) (tag : BitVec 8) (status : Nat) : State :=
  s.modPart tag fun p =>
    { p with cmds := p.cmds.set (8 * (p.chead.toNat % 62)) ((p.word 0 &&& ~~~0xFF0000#64) ||| BitVec.ofNat 64 (status * 65536)), chead := p.chead + 1 }

/-- The fields that must be 0 in every command are (17 Table 17.7). -/
def Partition.zeroOk (p : Partition) : Bool :=
  decide (p.word 1 = 0) && decide (ufield (p.word 0) 24 40 = 0) && decide (ufield (p.word 2) 44 20 = 0) && decide (ufield (p.word 3) 20 44 = 0)

/-- The running launch and tile that a command of operation 1 or 2 names (17 R481). -/
def State.commandTile (s : State) (tag : BitVec 8) (p : Partition) : Option TileId :=
  match s.launches.find? fun l => decide (l.2.tag = tag) && !l.2.done && decide (l.2.iface = ufield (p.word 2) 32 12) &&
      decide (l.2.packet = ufield (p.word 2) 0 32) with
  | none => none
  | some (l, x) =>
    let t := ufield (p.word 3) 0 20
    if t < x.x * x.y then some ⟨l, t⟩ else none

/-- Writes a protection descriptor of a tile at its home (17 R480): a write of the outside, which the replay log lists (16 R451). -/
def State.setProt (s : State) (t : TileId) (n : Nat) (w : Word) : State := (s.putProt t n w).logHost t (.protect t n w)

/-- PROTECTION_DESCRIPTOR (17 R480, R481): operation 1. -/
def execProtectionDescriptor (tag : BitVec 8) (s : State) : Outcome :=
  match s.commandOf tag (· == 1) with
  | none => .next s
  | some p =>
    let index := ufield (p.word 0) 8 8
    let w := p.word 4
    .next (if p.zeroOk = false ∨ p.word 6 ≠ 0 ∨ p.word 5 ≠ 0 ∨ 7 < index then s.commandDone tag 2
      else
        match s.commandTile tag p with
        | none => s.commandDone tag 3
        | some t =>
          if ufield w 40 24 ≠ 0 ∨ ufield w 6 6 ≠ 0 then s.commandDone tag 4 else (s.setProt t index w).commandDone tag 1)

/-- Saves a context at its LONG kind 4 entry (14 R422): the kernel handler's progress is discarded. A unit that was in progress there goes on with the tile's unfold. -/
def State.saveCtx (s : State) (id : CtxId) : State :=
  match (s.core id.core).overruns.get? id.c with
  | none => s
  | some c => s.setCtx id { c with phase := .saved }

/-- CONTEXT_SAVE (14 R422; 17 R480, R481): operation 2, for the contexts of the number on the tile's cores that stand at a LONG kind 4 entry. DESIGN CHOICE,
log 85: one whose handler has double-trapped is saved as at the entry too (14 R422), and so is double-trapped no longer. -/
def execContextSave (tag : BitVec 8) (s : State) : Outcome :=
  match s.commandOf tag (· == 2) with
  | none => .next s
  | some p =>
    let index := ufield (p.word 0) 8 8
    .next (if p.zeroOk = false ∨ p.word 6 ≠ 0 ∨ p.word 5 ≠ 0 ∨ p.word 4 ≠ 0 ∨ 3 < index then s.commandDone tag 2
      else
        match s.commandTile tag p with
        | none => s.commandDone tag 3
        | some t =>
          let ids := ((coresOf [t]).map fun c => (⟨c, index⟩ : CtxId)).filter s.inOverrun
          if ids.isEmpty then s.commandDone tag 3 else (ids.foldl State.saveCtx s).commandDone tag 1)

/-- A program handle that the partition does not use; which one, the manual leaves open (log entry 34). -/
def State.freeHandle (s : State) (p : Partition) : Nat :=
  let at_ (k : Nat) : Nat := (Config.handleChoice s.fresh + BitVec.ofNat 32 k).toNat
  (((List.range 65).find? fun k => (p.programs.get? (at_ k)).isNone).map at_).getD 0

/-- The sections of an object whose bytes the manual fixes, in the order of its section table after the header: the code images, the data image, the words of the
graph section (18 Table 18.6, R510). -/
def objectBytes (o : Object) : List (List Byte) := [o.codeMc, o.codeFc, o.codeAc, o.data, o.graph.flatMap wordBytes]

/-- The bytes of pages. -/
def State.pageBytes (s : State) (ps : List Page) : List Byte :=
  ps.flatMap fun p => match p.place with
    | none => []
    | some x => (s.cells x.home).mem.read x.off p.len

/-- Whether the bytes at a partition's address, as far as they can be read, carry an object: each section within them stands at its offset (18 R505). -/
def State.carries (s : State) (tag : BitVec 8) (va : Word) (len : Nat) (o : Object) : Bool :=
  match s.spans tag va len Page.r with
  | none => true
  | some ps =>
    let bs := s.pageBytes ps
    ((objectBytes o).zipIdx 1).all fun x =>
      let at_ := o.sections.getD x.2 (0, 0)
      decide (len < at_.1 + at_.2) || decide ((bs.drop at_.1).take at_.2 = x.1)

/-- LOAD_OBJECT (17 R481; 18 R505 to R508): operation 3. obj is what the bytes at the object's address, of the command's length, hold: its code, data and graph are
those bytes, the rest of it is read from them (log entry 21). Where they cannot be read the address is refused (DESIGN CHOICE, log entry 49). -/
def execLoadObject (tag : BitVec 8) (obj : Object) (s : State) : Outcome :=
  match s.commandOf tag (· == 3) with
  | none => .next s
  | some p =>
    event s (s.carries tag (p.word 4) (p.word 5).toNat obj) (if p.zeroOk = false ∨ ufield (p.word 3) 0 20 ≠ 0 ∨ ufield (p.word 0) 8 8 ≠ 0 then s.commandDone tag 2
      else if ufield (p.word 4) 0 6 ≠ 0 ∨ ufield (p.word 6) 0 6 ≠ 0 then s.commandDone tag 4
      else
        if (s.spans tag (p.word 4) (p.word 5).toNat Page.r).isNone then s.commandDone tag 4 else
        match obj.refusalIn (p.word 5).toNat p.programs.length with
        | some r => (s.deviceWrite tag (p.word 6) (r.flatMap wordBytes)).commandDone tag 5
        | none =>
          let h := s.freeHandle p
          let s := { s with fresh := s.fresh + 1 }.modPart tag fun p => { p with programs := p.programs.set h obj }
          (s.deviceWrite tag (p.word 6) (natToBytes 4 h)).commandDone tag 1)

/-- Whether a launch of the partition, admitted or waiting on an interface, uses a program (17 R481). -/
def State.programUsed (s : State) (tag : BitVec 8) (h : Nat) : Bool :=
  (s.launches.any fun l => decide (l.2.tag = tag) && !l.2.done && decide (l.2.handle.toNat = h)) ||
  s.ifaces.any fun f => decide (f.2.assigned.map (fun x => x.2.2) = some tag) &&
    (List.range (min (f.2.tail - f.2.head).toNat 16)).any fun k =>
      decide (ufield (f.2.packets.getD (16 * ((f.2.head.toNat + k) % 16)) 0) 0 32 = h)

/-- UNLOAD_PROGRAM (17 R481): operation 4. -/
def execUnloadProgram (tag : BitVec 8) (s : State) : Outcome :=
  match s.commandOf tag (· == 4) with
  | none => .next s
  | some p =>
    let h := (p.word 4).toNat
    .next (if p.zeroOk = false ∨ p.word 6 ≠ 0 ∨ p.word 5 ≠ 0 ∨ 4294967296 ≤ h ∨ ufield (p.word 3) 0 20 ≠ 0 ∨ ufield (p.word 0) 8 8 ≠ 0 then s.commandDone tag 2
      else if (p.programs.get? h).isNone ∨ s.programUsed tag h then s.commandDone tag 4
      else (s.modPart tag fun p => { p with programs := p.programs.erase h }).commandDone tag 1)

/-- UNKNOWN_COMMAND (17 Table 17.7). -/
def execUnknownCommand (tag : BitVec 8) (s : State) : Outcome :=
  match s.commandOf tag fun op => decide (op = 0 ∨ 4 < op) with
  | none => .next s
  | some _ => .next (s.commandDone tag 2)

/-! ### Images and masks (17 R489; 18 R512) -/

/-- Writes bytes into an image of at most n bytes; what was not written before reads 0. -/
def writeImage (img : List Byte) (n off : Nat) (bs : List Byte) : List Byte :=
  let bs := bs.take (n - off)
  if bs.isEmpty then img else (img.take off ++ List.replicate (off - img.length) 0) ++ bs ++ img.drop (off + bs.length)

/-- KERNEL_IMAGE_WRITE (18 R512): only while no launch of the partition runs; another is recorded in the partition's error log. -/
def execKernelImageWrite (tag : BitVec 8) (role : Role) (off : Nat) (bytes : List Byte) (s : State) : Outcome :=
  event s ((s.parts.get? tag).isSome && decide (role ≠ .steward))
    (if s.launches.any fun l => decide (l.2.tag = tag) && !l.2.done then s.logError tag .kernelImage
     else s.modPart tag fun p =>
       match role with
       | .mc => { p with kernMc := writeImage p.kernMc 49152 off bytes }
       | .fc => { p with kernFc := writeImage p.kernFc 49152 off bytes }
       | _ => { p with kernAc := writeImage p.kernAc 49152 off bytes })

/-- HYPER_IMAGE_WRITE (18 R512): only while no launch runs; another is recorded in the module error log. -/
def execHyperImageWrite (off : Nat) (bytes : List Byte) (s : State) : Outcome :=
  .next (if s.launches.any fun l => !l.2.done then { s with errors := s.errors ++ [.hyperImage] } else { s with hyper := writeImage s.hyper 16384 off bytes })

/-- Writes a partition's profile mask (17 R489): for each of its tiles a host write, which the replay logs hold (16 R451). -/
def State.setProfile (s : State) (tag m : BitVec 8) : State :=
  (s.tiles.keys.filter fun t => s.tagOfLaunch t.l = some tag).foldl (fun s t => (s.putProfile t m).logHost t (.profile t m))
    (s.modPart tag fun p => { p with mask := m })

/-- PROFILE_MASK_WRITE (17 R489): copied into cw.prof of the partition's cores at their next activation. -/
def execProfileMaskWrite (tag : BitVec 8) (mask : BitVec 8) (s : State) : Outcome := event s (s.parts.get? tag).isSome (s.setProfile tag (mask &&& 0xFE))

/-! ### Registers (00 R9, R11; 17 Tables 17.1, 17.5, 17.6, R464, R479, R481) -/

/-- The words of a permit mask with word w replaced. -/
def setMask (m : BitVec 256) (w : Nat) (v : Word) : BitVec 256 :=
  if 4 ≤ w then m else (m &&& ~~~((0xFFFFFFFFFFFFFFFF#256) <<< (64 * w))) ||| (v.setWidth 256 <<< (64 * w))

/-- Assigns an interface (17 R470), or frees it; its stream, if it had one, is reclaimed (12 R356). -/
def State.assignIface (s : State) (n : Nat) (v : Word) : State :=
  let link := ufield v 62 2
  s.modIface n fun f => { f with assigned := if link < 2 then some (link, v.extractLsb' 0 20, v.extractLsb' 20 8) else none, stream := none }

/-- Stores the RW fields of a register (00 R9). -/
def State.writeReg (s : State) (link : Nat) (r : HostReg) (v : Word) : State :=
  let page (n : Nat) (f : Iface → Iface) : State := if s.onLink link n then s.modIface n f else s
  let part (t : Nat) (f : Partition → Partition) : State := if t < 256 then s.modPart (BitVec.ofNat 8 t) f else s
  match r with
  | .packetWord n k w => if k < 16 ∧ w < 16 then page n fun f => { f with packets := f.packets.set (16 * k + w) v } else s
  | .nbase n => page n fun f => { f with nbase := align64 v }
  | .nsize n => page n fun f => { f with nsize := v.extractLsb' 0 5 }
  | .vector n => page n fun f => { f with vector := v.extractLsb' 0 11 }
  | .abase n => page n fun f => { f with abase := v &&& ~~~0xFFFFF }
  | .assign n => if n < 4096 then s.assignIface n v else s
  | .ptDesc t => part t fun p => { p with desc := v &&& 0x8000FFEFFFFFF000 }
  | .faultBase t => part t fun p => { p with fbase := v }
  | .faultSize t => part t fun p => { p with fsize := ufield v 0 5 }
  | .permit t w => part t fun p => { p with permit := setMask p.permit w v }
  | .faultHead t => part t fun p => { p with fhead := v }
  | .faultTail _ => s
  | .profileMask t => if t < 256 ∧ (s.parts.get? (BitVec.ofNat 8 t)).isSome then s.setProfile (BitVec.ofNat 8 t) (v.setWidth 8 &&& 0xFE) else s
  | .commandWord t k w => if k < 62 ∧ w < 8 then part t fun p => { p with cmds := p.cmds.set (8 * k + w) v } else s
  | .commandTail t => part t fun p => { p with ctail := v.extractLsb' 0 32 }
  | .commandHead _ => s
  | .kernelEntry t role => part t fun p =>
      match role with
      | .mc => { p with entMc := align64 v }
      | .fc => { p with entFc := align64 v }
      | .ac => { p with entAc := align64 v }
      | .steward => p
  | .hyperEntry => { s with hyperEntry := align64 v }
  | .slotEntry l k => if k < 64 then { s with staged := s.staged.set (l, k) (v.setWidth 16 &&& 0x03FF) } else s
  | .clock => { s with clock := if v.toNat < 16 then some v.toNat else none }
  | .reserved => s

/-! ### Reading registers (00 R9, R11; 17 R470, R477) -/

/-- The fields of an interface page beyond its slots (17 Table 17.1): offset, bytes, value. -/
def Iface.fields (f : Iface) : List (Nat × Nat × Nat) :=
  [(0x800, 4, f.tail.toNat), (0x808, 4, f.head.toNat), (0x810, 8, f.nbase.toNat), (0x818, 4, f.nsize.toNat), (0x81C, 4, f.vector.toNat),
   (0x820, 4, f.cons.toNat), (0x828, 8, f.abase.toNat)]

/-- A byte of an interface page (17 Table 17.1); a reserved offset reads 0 (00 R11). -/
def Iface.pageByte (f : Iface) (off : Nat) : Byte :=
  if off < 0x800 then BitVec.ofNat 8 ((f.packets.getD (off / 8) 0).toNat / 256 ^ (off % 8))
  else (f.fields.findSome? fun x => if x.1 ≤ off ∧ off < x.1 + x.2.1 then some (BitVec.ofNat 8 (x.2.2 / 256 ^ (off - x.1))) else none).getD 0

/-- A byte of HW-A below its apertures, as a link reads it (17 R470): that of an interface page on its own link, 0 elsewhere. -/
def State.readHwA (s : State) (link off : Nat) : Byte := if s.onLink link (off / 4096) then (s.iface (off / 4096)).pageByte (off % 4096) else 0

/-- The register that a host write of a word at an offset of HW-A reaches (17 Table 17.1): one without behaviour of its own. -/
def hwaReg (off : Nat) : HostReg :=
  let n := off / 4096
  let o := off % 4096
  if o < 0x800 then .packetWord n (o / 128) (o % 128 / 8)
  else if o = 0x810 then .nbase n
  else if o = 0x818 then .nsize n
  else if o = 0x81C then .vector n
  else if o = 0x828 then .abase n
  else .reserved

/-- The value that a register of HW-A or HW-B reads as (00 R9; 17 Tables 17.1, 17.5, 17.6): RW and RO fields as stored, the rest 0. The other link's pages read 0.
DESIGN CHOICE, log 84: an interface that is not assigned reads as link 3, a clock that is not chosen as all ones, a slot entry as its staged value from the
staging on. -/
def State.readReg (s : State) (link : Nat) (r : HostReg) : Word :=
  let page (n : Nat) (f : Iface → Word) : Word := if s.onLink link n then f (s.iface n) else 0
  let part (t : Nat) (f : Partition → Word) : Word := if t < 256 then ((s.parts.get? (BitVec.ofNat 8 t)).map f).getD 0 else 0
  match r with
  | .packetWord n k w => if k < 16 ∧ w < 16 then page n fun f => f.packets.getD (16 * k + w) 0 else 0
  | .nbase n => page n Iface.nbase
  | .nsize n => page n fun f => f.nsize.setWidth 64
  | .vector n => page n fun f => f.vector.setWidth 64
  | .abase n => page n Iface.abase
  | .assign n =>
    match (s.iface n).assigned with
    | none => 0xC000000000000000
    | some (l, p, t) => BitVec.ofNat 64 (l * 2 ^ 62 + t.toNat * 2 ^ 20 + p.toNat)
  | .ptDesc t => part t Partition.desc
  | .faultBase t => part t Partition.fbase
  | .faultSize t => part t fun p => BitVec.ofNat 64 p.fsize
  | .permit t w => part t fun p => p.permit.extractLsb' (64 * w) 64
  | .faultHead t => part t Partition.fhead
  | .faultTail t => part t Partition.ftail
  | .profileMask t => part t fun p => p.mask.setWidth 64
  | .commandWord t k w => if k < 62 ∧ w < 8 then part t fun p => p.cmds.getD (8 * k + w) 0 else 0
  | .commandTail t => part t fun p => p.ctail.setWidth 64
  | .commandHead t => part t fun p => p.chead.setWidth 64
  | .kernelEntry t role => part t fun p =>
      match role with
      | .mc => p.entMc
      | .fc => p.entFc
      | .ac => p.entAc
      | .steward => 0
  | .hyperEntry => s.hyperEntry
  | .slotEntry l k => (s.staged.getD (l, k) (s.slots.getD (l, k) 0)).setWidth 64
  | .clock => (s.clock.map fun n => BitVec.ofNat 64 n).getD (BitVec.allOnes 64)
  | .reserved => 0

/-- A word of the boot status block, at an offset of the global block of HW-B, as either link reads it (18 R502; 17 R477). -/
def State.readBoot (s : State) (off : Nat) : Word := if off % 8 = 0 ∧ off < 64 then s.boot.getD (off / 8) 0 else 0

/-- The register at an offset of HW-B (17 Table 17.5): of the global block, of the block of a partition's tag, or none. The window of physical tile state is open
at steward level only, and so to no host. The offsets within a block are the device's (log entry 21). -/
def hwbReg (off : Nat) : HostReg :=
  let t := off / 0x10000 - 1
  if off < 0x10000 then ((Config.globalRegister off).filter HostReg.isGlobal).getD .reserved
  else if off < 0x1010000 then ((Config.partitionRegister t (off % 0x10000)).filter fun r => decide (r.partition = some t)).getD .reserved
  else .reserved

/-- A word of HW-B as either link reads it (17 R477). -/
def State.readHwB (s : State) (link off : Nat) : Word := if off < 64 then s.readBoot off else s.readReg link (hwbReg off)

/-- An error log as a host reads it: that of a partition's block, or with no tag the module's (17 R479, Table 17.5). The manual gives its records no bits (log
entry 21). -/
def State.readErrors (s : State) (tag : Option (BitVec 8)) : List ErrRecord :=
  match tag with
  | none => s.errors
  | some t => ((s.parts.get? t).map Partition.errors).getD []

/-- REGISTER_WRITE (00 R9, R11). -/
def execRegisterWrite (link : Nat) (reg : HostReg) (value : Word) (s : State) : Outcome := .next (s.writeReg link reg value)

/-- Whether this cycle has set the fails field: the boot status block was written in it (18 R500), in a halted start too. -/
def State.failsSetNow (s : State) : Bool := decide (s.boot.getD 0 0 ≠ 0) && s.dies.any fun d => decide (d.2.since = s.cycle)

/-- FAILS_CLEAR (18 Table 18.4): a write of 1 clears a bit of fails; the write that clears it resets every steward's count. A write of 0 does nothing (00 R9), and a set
of the same cycle wins over the clear (00 R10). -/
def execFailsClear (value : Word) (s : State) : Outcome :=
  let old := s.boot.getD 0 0
  let w := old &&& ~~~(value &&& 0xF0000000000)
  let t := { s with boot := s.boot.set 0 w }
  event s (!s.failsSetNow)
    (if ufield old 40 4 ≠ 0 ∧ ufield w 40 4 = 0 then { t with dies := t.dies.map fun (d : Nat × Die) => (d.1, { d.2 with fails := 0 }) } else t)

/-! ### Time slots and the slot counter (17 R482 to R486) -/

/-- Whether the slot counter stands at a frame boundary (17 R482). -/
def State.atFrame (s : State) : Bool := decide (s.slotTime % 512 = 0)

/-- SLOT_TABLE_COMMIT (17 R484): the staged tables take effect at a frame boundary, at least 2 frames on; slot tells how many frames beyond those. -/
def execSlotTableCommit (slot : Word) (s : State) : Outcome :=
  .next { s with commitAt := some ((s.slotTime / 512).toNat + 3 + slot.toNat) }

/-- SLOT_TABLE_TAKE_EFFECT (17 R484): every staged table, on every link. -/
def execSlotTableTakeEffect (s : State) : Outcome :=
  match s.commitAt with
  | none => .next s
  | some t =>
    event s (s.atFrame && decide ((t : Int) ≤ s.slotTime / 512))
      { s with slots := s.staged.foldl (fun m e => m.set e.1 e.2) s.slots, staged := [], commitAt := none }

/-- PTP_EVENT_MESSAGE (17 R486): timestamped; on the clock's port the slot counter follows the time in ns times 1.5, a step of more than 512 cycles at a frame
boundary. A time in ns is rounded up to whole cycles (00 R6). -/
def execPtpEventMessage (port time : Nat) (s : State) : Outcome :=
  let s' := { s with stamps := s.stamps.set port s.slotTime }
  let to_ : Int := (((3 * time + 1) / 2 : Nat) : Int)
  let d := to_ - s.slotTime
  event s (decide (port < 16))
    (if s.clock ≠ some port then s' else if 512 < d.natAbs then { s' with timeStep := some d } else { s' with slotTime := to_, timeStep := none })

/-- FRAME_BOUNDARY (17 R486): a time step still to be applied is applied. -/
def execFrameBoundary (s : State) : Outcome :=
  match s.timeStep with
  | none => .next s
  | some d => event s s.atFrame { s with slotTime := s.slotTime + d, timeStep := none }

/-! ### Scale-out ports (17 R485 to R488) -/

/-- Sends the frames of an edge that meet a test again, in order (17 R487, R488). -/
def State.resend (s : State) (n : Nat) (again : Nat → Bool) : State :=
  match s.edges.get? n with
  | none => s
  | some e =>
    if s.down.contains e.port then s
    else
      let fs := e.unacked.filter fun x => again x.1
      { s with edges := s.edges.set n { e with unacked := e.unacked.map fun (x : Nat × PortFrame) => if again x.1 then (s.cycle, x.2) else x },
               out := (fs.map fun x => Output.frame e.port x.2).reverse ++ s.out }

/-- The message that a frame carries, for the channel it is bound to (17 R487; 06 Tables 6.1, 5.1); its sender is no core of this module. -/
def frameMessage (e : Edge) (f : PortFrame) (id : Nat) : Message :=
  let h := f.payload.headD 0
  { id := id, src := ⟨0, f.tile, Role.ofCode (ufield h 16 2)⟩, sendCh := e.end_.peerCh, ch := e.end_.ch, words := f.payload.drop 1, refused := false, reply := false,
    direct := false, key := ⟨0, f.path, f.num⟩, tt := none, uid := 0 }

/-- Takes the next frame of an edge (17 R487): a message goes to its core, its tag passing the check of R465; a credit return to its send end. -/
def State.takeFrame (s : State) (n : Nat) (e : Edge) (f : PortFrame) : State :=
  let s := { s with edges := s.edges.set n { e with expect := e.expect + 1 } }
  match f.credit with
  | some k => s.send none (some e.end_.core.tile) (.credit e.end_.core e.end_.ch k)
  | none => { s with fresh := s.fresh + 1 }.send none (some e.end_.core.tile) (.message e.end_.core (frameMessage e f s.fresh))

/-- SCALE_OUT_FRAME_RECEIVE (17 R485, R487): taken in sequence and acknowledged, a duplicate acknowledged and discarded; any other frame is dropped and counted. -/
def execScaleOutFrameReceive (port : Nat) (input : PortInput) (s : State) : Outcome :=
  match input with
  | .other => .next { s with dropped := s.dropped + 1 }
  | .transport f =>
    match s.edges.get? f.edge with
    | none => .next s
    | some e =>
      let ack (s : State) : State := { s with out := .ackFrame port f.edge f.seq :: s.out }
      let behind := decide (1 ≤ (e.expect - f.seq).toNat ∧ (e.expect - f.seq).toNat < 2147483648)
      event s (!s.down.contains port && decide (e.port = port) && (decide (f.seq = e.expect) || behind))
        (if f.seq = e.expect then ack (s.takeFrame f.edge e f) else ack s)

/-- SCALE_OUT_ACK (17 R487). -/
def execScaleOutAck (edge : Nat) (seq : BitVec 32) (s : State) : Outcome :=
  match s.edges.get? edge with
  | none => .next s
  | some e => .next { s with edges := s.edges.set edge { e with unacked := e.unacked.filter fun x => x.2.seq ≠ seq } }

/-- SCALE_OUT_RETRANSMIT (17 R487): frames sent 10 microseconds ago, 15,000 cycles, and not acknowledged. -/
def execScaleOutRetransmit (edge : Nat) (s : State) : Outcome := .next (s.resend edge fun t => decide (t + 15000 ≤ s.cycle))

/-- PORT_DOWN (17 R488). -/
def execPortDown (port : Nat) (s : State) : Outcome :=
  event s (decide (port < 16) && !s.down.contains port) { s with down := s.down ++ [port] }

/-- PORT_UP (17 R488): what was held here is sent. -/
def execPortUp (port : Nat) (s : State) : Outcome :=
  let s' := { s with down := s.down.filter fun p => p ≠ port }
  event s (s.down.contains port) ((s.edges.filter fun e => e.2.port = port).foldl (fun s e => s.resend e.1 fun t => decide (t = 0)) s')

/-- EDGE_REBIND (17 R487, R488): an edge is bound to a port, a peer and a local end, or moved to another port and sent again from its oldest frame. -/
def execEdgeRebind (edge port : Nat) (bind : Option EdgeEnd) (s : State) : Outcome :=
  let move (e : Edge) : State := { s with edges := s.edges.set edge { e with port := port } }.resend edge fun _ => true
  let fresh (b : EdgeEnd) : State :=
    let k := ((s.core b.core).chan b.ch).kind
    if k = .send ∨ k = .bound then
      { (s.bindChan b.core b.ch edge).logHost b.core.tile (.bindEdge b.core b.ch edge) with
        edges := s.edges.set edge { port := port, end_ := b, next := 0, unacked := [], expect := 0 } }
    else s
  event s (decide (port < 16))
    (match s.edges.get? edge, bind with
     | some e, none => move e
     | some e, some b => if e.end_ = b then move e else fresh b
     | none, some b => fresh b
     | none, none => s)

end Sys2Proof.Machine
end

