-- ==== Sys2Proof/Machine/Bringup.lean ====
section
/-! DEFINITION. Bring-up (18 R490 to R503): reset, firmware, self-test, seams, islands, the start test, the boot status block; the loss of the supply
(18 R496); attestation (18 R504). -/

namespace Sys2Proof.Machine

/-! ### Reset and the loss of the supply (18 R490, R496) -/

/-- A die after a reset: what flash and fuses hold stays. -/
def Die.afterReset (d : Die) : Die :=
  { Die.init with slotA := d.slotA, slotB := d.slotB, minimum := d.minimum, ecHash := d.ecHash, lmsKey := d.lmsKey, fails := d.fails, bank0 := d.bank0, bank1 := d.bank1, seq := d.seq }

/-- The device after a reset (18 R490): flash stays, and so do the memories outside the wafer (log entry 24). -/
def State.afterReset (s : State) : State :=
  { State.reset with dies := s.dies.map fun (d : Nat × Die) => (d.1, d.2.afterReset), hbm := s.hbm, host := s.host, fresh := s.fresh, agenda := s.agenda, out := s.out }

/-- RESET (18 R490): every die brings itself up again. -/
def execReset (s : State) : Outcome := .next s.afterReset

/-- POWER_LOSS (18 R495, R496): torn names the dies whose append was under way, mid those whose compaction was, with the slots it had written.
At the return of the supply the module is as after a reset; HBM has lost its contents (log entry 24). -/
def execPowerLoss (torn : List Nat) (mid : List (Nat × Nat)) (s : State) : Outcome :=
  let s := torn.foldl (fun s d => s.modDie d fun x => x.tear d) s
  let s := mid.foldl (fun s (x : Nat × Nat) => s.modDie x.1 fun d => d.cutCompaction x.1 x.2) s
  .next { s.afterReset with hbm := [] }

/-! ### Phases 1 and 2 (18 R491 to R497) -/

/-- Whether both signatures verify over an image's digest (18 R491): ECDSA P-384 under the key whose SHA-384 is fused, LMS under the fused key. PRESUMED,
log entry 20: the key's hash is taken over x and y, 48 bytes each, big-endian, and the LMS signature is over the digest. -/
def Die.signed (d : Die) (i : FwImage) : Bool :=
  let h := sha384 i.code
  decide (sha384 (natToBig 48 i.ecKey.1 ++ natToBig 48 i.ecKey.2) = natToBig 48 d.ecHash.toNat) && ecdsaVerify i.ecKey (bigToNat h) i.ecSig &&
  lmsVerify d.lmsKey h i.lmsSig

/-- Whether a slot's image passes on a die (18 R491). -/
def Die.passes (d : Die) (i : FwImage) : Bool := decide (d.minimum.toNat ≤ i.version.toNat) && d.signed i

/-- The image that the boot ROM runs: slot A's, else slot B's (18 R491). -/
def Die.choose (d : Die) : Option FwImage :=
  match d.slotA.filter d.passes with
  | some i => some i
  | none => d.slotB.filter d.passes

/-- The context in which a die's steward begins to run its firmware: at steward level (04 R112), from an address that the manual does not give
(log entry 67). -/
def stewardCtx (die : Nat) (i : FwImage) : Ctx := { Ctx.init with phase := .run, level := 3, pc := Config.firmwareEntry die i.code }

/-- FIRMWARE_VERIFY (18 R491, R500): the image that passes runs. -/
def execFirmwareVerify (die : Nat) (s : State) : Outcome :=
  let d := s.die die
  event s (decide (die < 52) && d.part && decide (d.phase = 0))
    (match d.choose with
     | none => s.modDie die fun d => { d with part := false, why := 1 }
     | some i =>
       (s.modDie die fun d => { d with image := some i, read := d.fails, fails := min (d.fails + 1) 15, phase := 1, since := s.cycle }).setCtx
         ⟨⟨0, die, .steward⟩, 0⟩ (stewardCtx die i))

/-- Seals the torn slots of a die's active bank, as far as it has room (18 R495): one that the seals fill is compacted and erased, and what is torn in it with it
(18 R496). -/
def State.sealLog (s : State) (die : Nat) : State :=
  (List.range 2048).foldl (fun s i =>
    match (s.die die).activeBank with
    | none => s
    | some n => let b := (s.die die).bank n
                if unsealed b i && !bankFull b then s.appendLog die 4 i 0 else s) s

/-- What a die's log retires on it, of one kind (18 R497). -/
def State.retiredOf (s : State) (die kind : Nat) : List Nat :=
  match (s.die die).activeBank with
  | none => []
  | some n => (retired die ((s.die die).bank n)).filterMap fun x => if x.1 = kind then some x.2.1 else none

/-- Retires one new failure, if the log does not name it (18 R492). -/
def State.retire (s : State) (die kind index cause : Nat) : State :=
  if (s.retiredOf die kind).contains index then s else s.appendLog die kind index cause

/-- A die's dead tiles (18 R492): those retired or found dead, and those of a zone whose regulator failed. -/
def deadTiles (die : Nat) (tiles zones : List Nat) : List PTile :=
  ((List.range 768).map fun i => ({ die := die, x := i % 32, y := i / 32 } : PTile)).filter fun p =>
    tiles.contains (p.y * 32 + p.x) || zones.contains (p.zoneOf % 4)

/-- DIE_SELF_TEST (18 R492, R495 to R497): tiles, links and zones fail the test as named; ports tells which HBM stacks of a rim die trained. -/
def execDieSelfTest (die : Nat) (tiles links zones : List Nat) (ports : List (Nat × Bool)) (s : State) : Outcome :=
  let d := s.die die
  event s (decide (die < 52) && d.part && decide (d.phase = 1))
    (let s := (s.modDie die fun d =>
       let d := d.repair die
       { d with why := if d.activeBank.isNone then 4 else d.why, phase := 2, since := s.cycle,
                ports := (ports.filter fun p => decide (p.1 < 44)).take 2 }).sealLog die
     let tiles := tiles.filter (· < 768)
     let zones := zones.filter (· < 4)
     let allTiles := s.retiredOf die 1 ++ tiles
     let allZones := s.retiredOf die 2 ++ zones
     let s := tiles.foldl (fun s i => s.retire die 1 i 1) s
     let s := zones.foldl (fun s i => s.retire die 2 i 3) s
     let s := (links.filter (· < 3072)).foldl (fun s i => s.retire die 3 i 1) s
     let s := allZones.foldl (fun s q => s.modZone (4 * die + q) fun z => { z with sound := false }) s
     { s with dead := s.dead ++ deadTiles die allTiles allZones })

/-! ### Phases 3 and 4 (18 R498, R499) -/

/-- The wafer column of a die (16 Table 16.3). -/
def waferColumn (d : Nat) : Nat :=
  let row := dieRow d - 1
  [2, 1, 0, 0, 0, 0, 1, 2].getD row 0 + (d - dieRows.getD row 0)

/-- Whether two dies, the lower number first, stand side by side (16 R526). -/
def besides (a b : Nat) : Bool := decide (b = a + 1) && sameRow a b

/-- Whether a die stands above another: the next die row, at the same wafer column (16 R526). -/
def above (a b : Nat) : Bool := decide (b < 52) && decide (dieRow b = dieRow a + 1) && decide (waferColumn a = waferColumn b)

/-- The seams of the wafer, the lower die first (16 R526). -/
def allSeams : List (Nat × Nat) :=
  (List.range 52).flatMap fun a => ((List.range 52).filter fun b => besides a b || above a b).map fun b => (a, b)

/-- The links of a seam: at each, the log index of its end on either die, 4 x tile + direction (18 R498, Table 18.2). -/
def seamLinks (a b : Nat) : List (Nat × Nat) :=
  if besides a b then (List.range 24).map fun y => (4 * (y * 32 + 31) + 0, 4 * (y * 32) + 2)
  else if above a b then (List.range 32).map fun x => (4 * (23 * 32 + x) + 3, 4 * x + 1)
  else []

/-- SEAM_TRAINING (18 R498) of the links of the seam of dies a and b; fails lists the links, by their place along the seam, that do not pass. -/
def execSeamTraining (a b : Nat) (fails : List Nat) (s : State) : Outcome :=
  let ready (d : Nat) : Bool := (s.die d).part && decide ((s.die d).phase = 2)
  event s (allSeams.contains (a, b) && ready a && ready b && !s.trained.contains (a, b))
    (let ls := seamLinks a b
     let old (i : Nat) : Bool :=
       let l := ls.getD i (0, 0)
       (s.retiredOf a 3).contains l.1 || (s.retiredOf b 3).contains l.2
     let pass := (List.range ls.length).filter fun i => !old i && !fails.contains i
     let bad := (List.range ls.length).filter fun i => !old i && fails.contains i
     let s := bad.foldl (fun s i =>
       let l := ls.getD i (0, 0)
       (s.retire a 3 l.1 4).retire b 3 l.2 4) s
     { s with trained := s.trained ++ [(a, b)], trainedAt := s.cycle, seams := if pass.isEmpty then s.seams else s.seams ++ [(a, b)] })

/-- The dies that take part. -/
def State.partDies (s : State) : List Nat := (List.range 52).filter fun d => (s.die d).part

/-- The seams between dies that take part. -/
def State.liveSeams (s : State) : List (Nat × Nat) := allSeams.filter fun x => (s.die x.1).part && (s.die x.2).part

/-- One pass of merging: the dies of an up seam take the lower leader, with all of their islands (18 R499). -/
def mergeOnce (leaders : Map Nat Nat) (seams : List (Nat × Nat)) : Map Nat Nat :=
  seams.foldl (fun m x =>
    let a := m.getD x.1 x.1
    let b := m.getD x.2 x.2
    m.map fun (e : Nat × Nat) => (e.1, if e.2 = a ∨ e.2 = b then min a b else e.2)) leaders

/-- Whether every die taking part has finished phase 3, so that phase 4 runs (18 R490). -/
def State.inPhase4 (s : State) : Bool :=
  !s.partDies.isEmpty && (s.partDies.all fun d => decide ((s.die d).phase = 2)) && s.liveSeams.all fun x => s.trained.contains x

/-- The cycle at which the last die finished phase 3 (18 R490). -/
def State.phase4Since (s : State) : Nat := s.partDies.foldl (fun m d => max m (s.die d).since) s.trainedAt

/-- Whether phase 4 has missed its limit of 1 s (18 Table 18.1). -/
def State.late4 (s : State) : Bool := s.inPhase4 && decide (s.phase4Since + 1500000000 ≤ s.cycle)

/-- ISLAND_MERGING (18 R499): once every seam has trained, and within 1 s, the islands are the sets of dies connected by up seams. A die that takes no part stays
alone: its seams count as down (18 R490). -/
def execIslandMerging (s : State) : Outcome :=
  event s (s.inPhase4 && !s.late4)
    (let up := s.liveSeams.filter fun x => s.seams.contains x
     { s with islands := mergeOnce ((List.range 52).map fun d => (d, d)) up,
              dies := s.dies.map fun (d : Nat × Die) => (d.1, if d.2.part then { d.2 with phase := 4, since := s.cycle } else d.2) })

/-- PHASE_TIME_LIMIT (18 R490): phase 2 within 2 s of reset; each seam within 200 ms after both of its dies reach phase 3; phase 4 within 1 s. A die that misses a
limit takes no further part. -/
def execPhaseTimeLimit (die : Nat) (s : State) : Outcome :=
  let d := s.die die
  let late2 := decide (d.phase < 2) && decide (3000000000 ≤ s.cycle)
  let late3 := decide (d.phase = 2) && s.liveSeams.any fun x =>
    (decide (x.1 = die) || decide (x.2 = die)) && !s.trained.contains x &&
    ([x.1, x.2].all fun y => decide ((s.die y).phase = 2) && decide ((s.die y).since + 300000000 ≤ s.cycle))
  let late4 := decide (d.phase = 2) && s.late4
  event s (decide (die < 52) && d.part && (late2 || late3 || late4))
    { s.modDie die (fun d => { d with part := false, why := if late2 then 2 else d.why }) with trainedAt := if late4 then s.trainedAt else s.cycle }

/-! ### Phase 5 (18 R500, R501) -/

/-- The leader of a die's island. -/
def State.leader (s : State) (d : Nat) : Nat := s.islands.getD d d

/-- The dies that take part in the island of a leader. -/
def State.islandOf (s : State) (l : Nat) : List Nat := s.partDies.filter fun d => decide (s.leader d = l)

/-- Live tiles of a set of dies. -/
def State.liveTiles (s : State) (ds : List Nat) : Nat :=
  sumOf (ds.map fun d => ((List.range 4).map fun q => (s.poolOrder (4 * d + q)).length).foldl (· + ·) 0)

/-- The leader of the largest island: the most live tiles, a tie to the lower leader (18 R501). -/
def State.largest (s : State) : Option Nat :=
  minBy (fun l => 100000 - s.liveTiles (s.islandOf l)) ((s.partDies.filter fun d => decide (s.leader d = d)))

/-- The HBM stacks that trained. -/
def State.stacks (s : State) (ds : List Nat) : List Nat :=
  (List.range 44).filter fun n => ds.any fun d => (s.die d).ports.contains (n, true)

/-- The lowest die of a list, with a reason's code. -/
def reasonOn (code : Nat) (ds : List Nat) : List (Nat × Nat) := (ds.head?).toList.map fun d => (code, d)

/-- The reason for which a start fails, with the lowest die to which it applies (18 R500, Table 18.3); none for a full start. -/
def State.startReason (s : State) : Option (Nat × Nat) :=
  let ds := List.range 52
  let why (n : Nat) : List Nat := ds.filter fun d => decide ((s.die d).why = n)
  let main := s.largest
  let apart := ds.filter fun d => decide (some (s.leader d) ≠ main)
  let ports := ds.filter fun d => (s.die d).ports.any fun p => !p.2
  let ports := if ports.isEmpty ∧ (s.stacks ds).length < 44 then [0] else ports
  let faults := ((List.range 16).filter fun g => (s.power g).fault).map fun g => 13 * g / 4
  (reasonOn 1 (why 1) ++ reasonOn 2 (why 2) ++ reasonOn 3 apart ++ reasonOn 4 (why 4) ++ reasonOn 5 ports ++ reasonOn 6 faults).head?

/-- The largest count that the stewards of the largest island read in phase 1 (18 R501). -/
def State.countRead (s : State) : Nat :=
  match s.largest with
  | none => 0
  | some l => (s.islandOf l).foldl (fun m d => max m (s.die d).read) 0

/-- Whether the module starts in minimal mode (18 R501): whenever the count is 3 or more. -/
def State.minimalStart (s : State) : Bool := decide (3 ≤ s.countRead)

/-- The zone with which a zone shares a half of its die (16 R444 step 1). -/
def halfPartner (z : Nat) : Nat := if z % 2 = 0 then z + 1 else z - 1

/-- The image of a zone on which nothing has been placed: its restore point before the first close (16 R449). -/
def Image.empty : Image := { Image.blank with round := 0xFFFFFFFF }

/-- Pairs two zones as buddies (16 R444). -/
def State.pair (s : State) (a b : Nat) : State :=
  (s.modZone a fun z => { z with buddy := some b, restore := some Image.empty }).modZone b fun z => { z with buddy := some a, restore := some Image.empty }

/-- The zones of the dies that take part, at their state of bring-up, paired as buddies (16 R444, R445). -/
def State.pairZones (s : State) : State :=
  let s := { s with zones := (s.partDies.flatMap fun d => (List.range 4).map fun q => 4 * d + q).map fun z =>
    (z, { Zone.init with sound := (s.zone z).sound, opened := s.cycle }) }
  let s := s.zones.keys.foldl (fun s z =>
    if z % 2 = 0 ∧ s.liveZone z ∧ s.liveZone (z + 1) then s.pair z (z + 1) else s) s
  s.zones.keys.foldl (fun s z =>
    if s.liveZone z ∧ (s.zone z).buddy.isNone ∧ s.liveZone (halfPartner z) = false then
      match s.seamPartner z with
      | none => s
      | some p => s.pair z p
    else s) s

/-- START_TEST (18 R500, R501; 16 R444, R457; 17 R482): the start is full, minimal or failed; zones are paired and every slot entry is shared. faults lists the
power groups whose bus converters report a fault. The route tables go round the dead tiles (15 R431); pool order follows from them (15 R424). -/
def execStartTest (faults : List Nat) (s : State) : Outcome :=
  event s (s.partDies.all fun d => decide ((s.die d).phase = 4))
    (let s := { s with groups := (List.range 16).map fun g => (g, { PowerGroup.init with fault := faults.contains g }) }
     let s := if s.minimalStart then
         { s with dies := s.dies.map fun (d : Nat × Die) => (d.1, if some (s.leader d.1) = s.largest then d.2 else { d.2 with part := false }) }
       else s
     { s.pairZones with
       slots := [], staged := [], routes := s.partDies.map fun d => (d, s.dead.filter fun p => p.die = d),
       dies := s.dies.map fun (d : Nat × Die) => (d.1, if d.2.part then { d.2 with phase := 5, since := s.cycle } else d.2) })

/-! ### Phase 6 (18 R500 to R504) -/

/-- A word with one bit set for each number of a list. -/
def maskOf (l : List Nat) : Nat := l.dedup.foldl (fun m n => m + 2 ^ n) 0

/-- The valid records of kinds 1 to 3 of the dies that take part, by die, kind, index: the module's log (18 R493, R497). -/
def State.moduleLog (s : State) : List (Nat × Nat × Nat × Nat) :=
  s.partDies.flatMap fun d =>
    match (s.die d).activeBank with
    | none => []
    | some n => (retired d ((s.die d).bank n)).map fun x => (d, x.1, x.2.1, x.2.2)

/-- The lowest security version among the images that run (18 Table 18.4). -/
def State.lowestVersion (s : State) : Nat :=
  ((minBy id (s.partDies.filterMap fun d => ((s.die d).image).map fun i => i.version.toNat))).getD 0

/-- The boot status block's mode: 1 full, 2 minimal, 3 halted, 0 for a start that failed (18 R500, R501). -/
def State.bootMode (s : State) : Nat :=
  if s.partDies.isEmpty then 3 else if s.minimalStart then 2 else if s.startReason.isNone then 1 else 0

/-- The words of the boot status block (18 Table 18.4). -/
def State.bootWords (s : State) : List Word :=
  let r := s.startReason.getD (0, 0)
  let ds := s.partDies
  let fails := ((List.range 52).filter fun d => ((s.die d).image).isSome).foldl (fun m d => max m (s.die d).read) 0
  let alone := maskOf ((List.range 208).filter fun z => s.liveZone z && (s.zone z).buddy.isNone)
  [BitVec.ofNat 64 (r.1 * 2 ^ 56 + r.2 * 2 ^ 48 + fails * 2 ^ 40 + s.bootMode * 2 ^ 32 + s.liveTiles ds),
   BitVec.ofNat 64 (maskOf ds), BitVec.ofNat 64 (maskOf (s.stacks ds)),
   BitVec.ofNat 64 alone, BitVec.ofNat 64 (alone / 2 ^ 64), BitVec.ofNat 64 (alone / 2 ^ 128), BitVec.ofNat 64 (alone / 2 ^ 192),
   BitVec.ofNat 64 (s.moduleLog.length * 2 ^ 32 + s.lowestVersion)]

/-- A record as measurement block 5 takes it: seq, attempt and crc 0 (18 Table 18.5). -/
def recordBytes (r : Nat × Nat × Nat × Nat) : List Byte :=
  wordBytes (BitVec.ofNat 64 (r.1 * 2 ^ 40 + r.2.1 * 2 ^ 32)) ++ wordBytes (BitVec.ofNat 64 (r.2.2.2 * 2 ^ 16 + r.2.2.1)) ++ List.replicate 48 0

/-- The digest of a byte string: SHA-384 (18 R491, R504). -/
def digest (bs : List Byte) : List Byte := sha384 bs

/-- The measurement blocks, with the boot status block's first two words as given (18 Table 18.5). -/
def State.blocks (s : State) (w0 w1 : Word) : Map Nat (List Byte) :=
  [(1, Config.bootRomVersion),
   (2, digest ((List.range 52).flatMap fun d =>
      match (s.die d).image, (s.die d).part with
      | some i, true => digest i.code
      | _, _ => List.replicate 48 0)),
   (3, natToBytes 4 s.lowestVersion), (4, wordBytes w0 ++ wordBytes w1), (5, digest (s.moduleLog.flatMap recordBytes)), (6, [3])]

/-- A die's failed-start count after phase 6 (18 R500, R501). -/
def State.failsAfter (s : State) (d : Die) : Nat :=
  if d.part = false then d.fails else if s.bootMode = 1 then 0 else if s.bootMode = 2 then s.countRead else d.fails

/-- BOOT_STATUS_WRITE (18 R500 to R504): the block is written, the counts are cleared or written back, the measurements are fixed. -/
def execBootStatusWrite (s : State) : Outcome :=
  event s ((s.partDies.all fun d => decide ((s.die d).phase = 5)) && decide ((s.boot.getD 0 0) = 0))
    (let b := s.bootWords
     { s with
       boot := b, measures := s.blocks (b.getD 0 0) (b.getD 1 0),
       dies := s.dies.map fun (d : Nat × Die) =>
         (d.1, { d.2 with fails := s.failsAfter d.2, phase := if d.2.part then 6 else d.2.phase, since := s.cycle }) })

/-! ### Attestation (18 R504) -/

/-- The steward that answers SPDM: that of the lowest-numbered die taking part, once its firmware runs. -/
def State.answers (s : State) : Bool :=
  match s.partDies.head? with
  | none => false
  | some d => ((s.die d).image).isSome

/-- Answers a request on a link's mailbox. -/
def State.spdm (s : State) (link : Nat) (bytes : List Byte) : Outcome :=
  event s (s.answers && decide (link < 2)) { s with out := .spdm link bytes :: s.out }

/-- ERROR UnsupportedRequest for a request code, in SPDM's encoding (log entry 20). -/
def unsupported (code : BitVec 8) : List Byte := [0x13, 0x7F, 0x07, code]

/-- The die whose steward answers: the lowest-numbered one taking part (18 R504). -/
def State.answerer (s : State) : Nat := s.partDies.head?.getD 0

/-- An answer with its signature: ECDSA over P-384 of the SHA-384 of what the standard has signed (18 R504). -/
def State.signedAnswer (s : State) (request : Nat) (payload answer : List Byte) : List Byte :=
  let d := s.answerer
  let z := bigToNat (sha384 (Config.spdmSigned d request payload answer))
  let sig := ecdsaSign (Config.signingKey d) (Config.signingNonce d z) z
  answer ++ natToBig 48 sig.1 ++ natToBig 48 sig.2

/-- GET_VERSION (18 R504). -/
def execGetVersion (link : Nat) (s : State) : Outcome := s.spdm link (Config.spdmBody s.answerer 0x84 [])
/-- GET_CAPABILITIES (18 R504). -/
def execGetCapabilities (link : Nat) (s : State) : Outcome := s.spdm link (Config.spdmBody s.answerer 0xE1 [])
/-- NEGOTIATE_ALGORITHMS (18 R504): ECDSA P-384 and SHA-384. -/
def execNegotiateAlgorithms (link : Nat) (s : State) : Outcome := s.spdm link (Config.spdmBody s.answerer 0xE3 [])
/-- GET_DIGESTS (18 R504): the SHA-384 of the certificate chain of slot 0. -/
def execGetDigests (link : Nat) (s : State) : Outcome :=
  s.spdm link (Config.spdmBody s.answerer 0x81 [] ++ sha384 (Config.certificate s.answerer))
/-- GET_CERTIFICATE (18 R504): bytes of the chain, slot 0 only. -/
def execGetCertificate (link : Nat) (slot : BitVec 8) (off len : BitVec 16) (s : State) : Outcome :=
  s.spdm link (if slot = 0 then
      Config.spdmBody s.answerer 0x82 (natToBytes 2 off.toNat ++ natToBytes 2 len.toNat) ++ slice (Config.certificate s.answerer) off.toNat len.toNat
    else unsupported 0x82)
/-- CHALLENGE (18 R504), on slot 0, the only one the device has: the digest of the chain, signed. -/
def execChallenge (link : Nat) (slot : BitVec 8) (nonce : BitVec 256) (s : State) : Outcome :=
  let payload := natToBytes 32 nonce.toNat
  s.spdm link (if slot = 0 then
      s.signedAnswer 0x83 payload (Config.spdmBody s.answerer 0x83 payload ++ sha384 (Config.certificate s.answerer))
    else unsupported 0x83)
/-- The measurement blocks as they are answered now: those fixed in phase 6, before it with the boot status block as it stands, mode 0 (18 R502, R504). -/
def State.measured (s : State) : Map Nat (List Byte) :=
  if s.measures.isEmpty then s.blocks (s.boot.getD 0 0 &&& ~~~0x300000000) (s.boot.getD 1 0) else s.measures

/-- GET_MEASUREMENTS (18 R504): signed only; block 0xFF asks for every block, 0 for their number. -/
def execGetMeasurements (link : Nat) (block : BitVec 8) (signed : Bool) (nonce : BitVec 256) (s : State) : Outcome :=
  let m := s.measured
  let body := if block = 0 then [BitVec.ofNat 8 m.length]
    else if block = 0xFF then m.flatMap fun e => e.2
    else m.getD block.toNat []
  let payload := natToBytes 1 block.toNat ++ natToBytes 32 nonce.toNat
  s.spdm link (if signed then s.signedAnswer 0xE0 payload (Config.spdmBody s.answerer 0xE0 payload ++ body) else unsupported 0xE0)
/-- UNSUPPORTED_REQUEST (18 R504): every other request, session establishment included. -/
def execUnsupportedRequest (link : Nat) (code : BitVec 8) (s : State) : Outcome := s.spdm link (unsupported code)

end Sys2Proof.Machine
end

