-- ==== Sys2Proof/Machine/Dispatch.lean ====
section
/-! DEFINITION. From an instruction to its meaning: one arm for each constructor. -/

namespace Sys2Proof.Machine

def exec (i : Instr) (s : State) : Host.Outcome State Fault Refusal :=
  match i with
  | .add b a d => Sys2Proof.Machine.execAdd b a d s
  | .sub b a d => Sys2Proof.Machine.execSub b a d s
  | .mul b a d => Sys2Proof.Machine.execMul b a d s
  | .mulh b a d => Sys2Proof.Machine.execMulh b a d s
  | .mulhn b a d => Sys2Proof.Machine.execMulhn b a d s
  | .div b a d => Sys2Proof.Machine.execDiv b a d s
  | .divn b a d => Sys2Proof.Machine.execDivn b a d s
  | .rem b a d => Sys2Proof.Machine.execRem b a d s
  | .remn b a d => Sys2Proof.Machine.execRemn b a d s
  | .min b a d => Sys2Proof.Machine.execMin b a d s
  | .max b a d => Sys2Proof.Machine.execMax b a d s
  | .minn b a d => Sys2Proof.Machine.execMinn b a d s
  | .maxn b a d => Sys2Proof.Machine.execMaxn b a d s
  | .and b a d => Sys2Proof.Machine.execAnd b a d s
  | .or b a d => Sys2Proof.Machine.execOr b a d s
  | .xor b a d => Sys2Proof.Machine.execXor b a d s
  | .andn b a d => Sys2Proof.Machine.execAndn b a d s
  | .shl b a d => Sys2Proof.Machine.execShl b a d s
  | .shr b a d => Sys2Proof.Machine.execShr b a d s
  | .sha b a d => Sys2Proof.Machine.execSha b a d s
  | .rotl b a d => Sys2Proof.Machine.execRotl b a d s
  | .clz a d => Sys2Proof.Machine.execClz a d s
  | .ctz a d => Sys2Proof.Machine.execCtz a d s
  | .popc a d => Sys2Proof.Machine.execPopc a d s
  | .seq b a d => Sys2Proof.Machine.execSeq b a d s
  | .slt b a d => Sys2Proof.Machine.execSlt b a d s
  | .sltn b a d => Sys2Proof.Machine.execSltn b a d s
  | .padd w b a d => Sys2Proof.Machine.execPadd w b a d s
  | .psub w b a d => Sys2Proof.Machine.execPsub w b a d s
  | .pmin n w b a d => Sys2Proof.Machine.execPmin n w b a d s
  | .pmax n w b a d => Sys2Proof.Machine.execPmax n w b a d s
  | .pshl w b a d => Sys2Proof.Machine.execPshl w b a d s
  | .pshr w b a d => Sys2Proof.Machine.execPshr w b a d s
  | .psha w b a d => Sys2Proof.Machine.execPsha w b a d s
  | .addi imm a d => Sys2Proof.Machine.execAddi imm a d s
  | .andi imm a d => Sys2Proof.Machine.execAndi imm a d s
  | .ori imm a d => Sys2Proof.Machine.execOri imm a d s
  | .xori imm a d => Sys2Proof.Machine.execXori imm a d s
  | .shli n a d => Sys2Proof.Machine.execShli n a d s
  | .shri n a d => Sys2Proof.Machine.execShri n a d s
  | .shai n a d => Sys2Proof.Machine.execShai n a d s
  | .bfxS p l a d => Sys2Proof.Machine.execBfxS p l a d s
  | .bfxZ p l a d => Sys2Proof.Machine.execBfxZ p l a d s
  | .bfi p l a d => Sys2Proof.Machine.execBfi p l a d s
  | .sel c b a d => Sys2Proof.Machine.execSel c b a d s
  | .movi imm d => Sys2Proof.Machine.execMovi imm d s
  | .movh imm d => Sys2Proof.Machine.execMovh imm d s
  | .beq o b a => Sys2Proof.Machine.execBeq o b a s
  | .bne o b a => Sys2Proof.Machine.execBne o b a s
  | .blt o b a => Sys2Proof.Machine.execBlt o b a s
  | .bge o b a => Sys2Proof.Machine.execBge o b a s
  | .bltn o b a => Sys2Proof.Machine.execBltn o b a s
  | .bgen o b a => Sys2Proof.Machine.execBgen o b a s
  | .jmp o => Sys2Proof.Machine.execJmp o s
  | .jal o => Sys2Proof.Machine.execJal o s
  | .jr imm a d => Sys2Proof.Machine.execJr imm a d s
  | .rep l a => Sys2Proof.Machine.execRep l a s
  | .nop => Sys2Proof.Machine.execNop s
  | .brk => Sys2Proof.Machine.execBrk s
  | .trap a => Sys2Proof.Machine.execTrap a s
  | .sysc a => Sys2Proof.Machine.execSysc a s
  | .eret => Sys2Proof.Machine.execEret s
  | .cwr h n d => Sys2Proof.Machine.execCwr h n d s
  | .cww n a => Sys2Proof.Machine.execCww n a s
  | .endTask => Sys2Proof.Machine.execEndTask s
  | .arm b a => Sys2Proof.Machine.execArm b a s
  | .disarm a d => Sys2Proof.Machine.execDisarm a d s
  | .waita c b a => Sys2Proof.Machine.execWaita c b a s
  | .wake b a => Sys2Proof.Machine.execWake b a s
  | .tid d => Sys2Proof.Machine.execTid d s
  | .prio a d => Sys2Proof.Machine.execPrio a d s
  | .defer a => Sys2Proof.Machine.execDefer a s
  | .uiret => Sys2Proof.Machine.execUiret s
  | .uimask a d => Sys2Proof.Machine.execUimask a d s
  | .spawn c a d => Sys2Proof.Machine.execSpawn c a d s
  | .spawnr c a d => Sys2Proof.Machine.execSpawnr c a d s
  | .sendR n q d => Sys2Proof.Machine.execSendR n q d s
  | .sendM n q d => Sys2Proof.Machine.execSendM n q d s
  | .sendiR r n q d => Sys2Proof.Machine.execSendiR r n q d s
  | .sendiM r n q d => Sys2Proof.Machine.execSendiM r n q d s
  | .sendwR r n d => Sys2Proof.Machine.execSendwR r n d s
  | .sendwM r n d => Sys2Proof.Machine.execSendwM r n d s
  | .replyR n d => Sys2Proof.Machine.execReplyR n d s
  | .replyM n d => Sys2Proof.Machine.execReplyM n d s
  | .refuse => Sys2Proof.Machine.execRefuse s
  | .qpeekQ imm q d => Sys2Proof.Machine.execQpeekQ imm q d s
  | .qpeekC h imm q d => Sys2Proof.Machine.execQpeekC h imm q d s
  | .qcntQ q d => Sys2Proof.Machine.execQcntQ q d s
  | .qcntC q d => Sys2Proof.Machine.execQcntC q d s
  | .qflushQ q => Sys2Proof.Machine.execQflushQ q s
  | .qflushC q => Sys2Proof.Machine.execQflushC q s
  | .qbind q d => Sys2Proof.Machine.execQbind q d s
  | .chopen q d => Sys2Proof.Machine.execChopen q d s
  | .chclose q => Sys2Proof.Machine.execChclose q s
  | .chstat q d => Sys2Proof.Machine.execChstat q d s
  | .ldBZ g o a d => Sys2Proof.Machine.execLdBZ g o a d s
  | .ldBS g o a d => Sys2Proof.Machine.execLdBS g o a d s
  | .ldHZ g o a d => Sys2Proof.Machine.execLdHZ g o a d s
  | .ldHS g o a d => Sys2Proof.Machine.execLdHS g o a d s
  | .ldWZ g o a d => Sys2Proof.Machine.execLdWZ g o a d s
  | .ldWS g o a d => Sys2Proof.Machine.execLdWS g o a d s
  | .ldD g o a d => Sys2Proof.Machine.execLdD g o a d s
  | .stB g o a d => Sys2Proof.Machine.execStB g o a d s
  | .stH g o a d => Sys2Proof.Machine.execStH g o a d s
  | .stW g o a d => Sys2Proof.Machine.execStW g o a d s
  | .stD g o a d => Sys2Proof.Machine.execStD g o a d s
  | .ldq g n q d => Sys2Proof.Machine.execLdq g n q d s
  | .stq g n d => Sys2Proof.Machine.execStq g n d s
  | .ldff g n q d => Sys2Proof.Machine.execLdff g n q d s
  | .prf g n d => Sys2Proof.Machine.execPrf g n d s
  | .ldsync g o a d => Sys2Proof.Machine.execLdsync g o a d s
  | .stfull g o a d => Sys2Proof.Machine.execStfull g o a d s
  | .stempty g o a => Sys2Proof.Machine.execStempty g o a s
  | .gaddr g a d => Sys2Proof.Machine.execGaddr g a d s
  | .segw g b a => Sys2Proof.Machine.execSegw g b a s
  | .segr h g d => Sys2Proof.Machine.execSegr h g d s
  | .vaddF32 k b a d m => Sys2Proof.Machine.execVaddF32 k b a d m s
  | .vsubF32 k b a d m => Sys2Proof.Machine.execVsubF32 k b a d m s
  | .vmulF32 k b a d m => Sys2Proof.Machine.execVmulF32 k b a d m s
  | .vfmaF32 k b a d m => Sys2Proof.Machine.execVfmaF32 k b a d m s
  | .vfmsF32 k b a d m => Sys2Proof.Machine.execVfmsF32 k b a d m s
  | .vfnmaF32 k b a d m => Sys2Proof.Machine.execVfnmaF32 k b a d m s
  | .vminF32 k b a d m => Sys2Proof.Machine.execVminF32 k b a d m s
  | .vmaxF32 k b a d m => Sys2Proof.Machine.execVmaxF32 k b a d m s
  | .vrcp k a d m => Sys2Proof.Machine.execVrcp k a d m s
  | .vrsqrt k a d m => Sys2Proof.Machine.execVrsqrt k a d m s
  | .vsqrt k a d m => Sys2Proof.Machine.execVsqrt k a d m s
  | .vexp2 k a d m => Sys2Proof.Machine.execVexp2 k a d m s
  | .vlog2 k a d m => Sys2Proof.Machine.execVlog2 k a d m s
  | .vtanh k a d m => Sys2Proof.Machine.execVtanh k a d m s
  | .vcmpEqF32 k b a d m => Sys2Proof.Machine.execVcmpEqF32 k b a d m s
  | .vcmpNeF32 k b a d m => Sys2Proof.Machine.execVcmpNeF32 k b a d m s
  | .vcmpLtF32 k b a d m => Sys2Proof.Machine.execVcmpLtF32 k b a d m s
  | .vcmpLeF32 k b a d m => Sys2Proof.Machine.execVcmpLeF32 k b a d m s
  | .vselF32 k b a d m => Sys2Proof.Machine.execVselF32 k b a d m s
  | .vredaddF32 k a d m => Sys2Proof.Machine.execVredaddF32 k a d m s
  | .vredmaxF32 k a d m => Sys2Proof.Machine.execVredmaxF32 k a d m s
  | .vscanF32 k a d m => Sys2Proof.Machine.execVscanF32 k a d m s
  | .vaddF16 t k b a d m => Sys2Proof.Machine.execVaddF16 t k b a d m s
  | .vsubF16 t k b a d m => Sys2Proof.Machine.execVsubF16 t k b a d m s
  | .vmulF16 t k b a d m => Sys2Proof.Machine.execVmulF16 t k b a d m s
  | .vfmaF16 t k b a d m => Sys2Proof.Machine.execVfmaF16 t k b a d m s
  | .vfmsF16 t k b a d m => Sys2Proof.Machine.execVfmsF16 t k b a d m s
  | .vfnmaF16 t k b a d m => Sys2Proof.Machine.execVfnmaF16 t k b a d m s
  | .vminF16 t k b a d m => Sys2Proof.Machine.execVminF16 t k b a d m s
  | .vmaxF16 t k b a d m => Sys2Proof.Machine.execVmaxF16 t k b a d m s
  | .vdotF32 t k b a d m => Sys2Proof.Machine.execVdotF32 t k b a d m s
  | .vcmpEqF16 t k b a d m => Sys2Proof.Machine.execVcmpEqF16 t k b a d m s
  | .vcmpNeF16 t k b a d m => Sys2Proof.Machine.execVcmpNeF16 t k b a d m s
  | .vcmpLtF16 t k b a d m => Sys2Proof.Machine.execVcmpLtF16 t k b a d m s
  | .vcmpLeF16 t k b a d m => Sys2Proof.Machine.execVcmpLeF16 t k b a d m s
  | .vselF16 t k b a d m => Sys2Proof.Machine.execVselF16 t k b a d m s
  | .vredaddF16 t k a d m => Sys2Proof.Machine.execVredaddF16 t k a d m s
  | .vredmaxF16 t k a d m => Sys2Proof.Machine.execVredmaxF16 t k a d m s
  | .vscanF16 t k a d m => Sys2Proof.Machine.execVscanF16 t k a d m s
  | .vaddI32 n k b a d m => Sys2Proof.Machine.execVaddI32 n k b a d m s
  | .vsubI32 n k b a d m => Sys2Proof.Machine.execVsubI32 n k b a d m s
  | .vmulI32 n k b a d m => Sys2Proof.Machine.execVmulI32 n k b a d m s
  | .vminI32 n k b a d m => Sys2Proof.Machine.execVminI32 n k b a d m s
  | .vmaxI32 n k b a d m => Sys2Proof.Machine.execVmaxI32 n k b a d m s
  | .vandI32 n k b a d m => Sys2Proof.Machine.execVandI32 n k b a d m s
  | .vorI32 n k b a d m => Sys2Proof.Machine.execVorI32 n k b a d m s
  | .vxorI32 n k b a d m => Sys2Proof.Machine.execVxorI32 n k b a d m s
  | .vshlI32 n k b a d m => Sys2Proof.Machine.execVshlI32 n k b a d m s
  | .vshrI32 n k b a d m => Sys2Proof.Machine.execVshrI32 n k b a d m s
  | .vshaI32 n k b a d m => Sys2Proof.Machine.execVshaI32 n k b a d m s
  | .vcmpEqI32 n k b a d m => Sys2Proof.Machine.execVcmpEqI32 n k b a d m s
  | .vcmpNeI32 n k b a d m => Sys2Proof.Machine.execVcmpNeI32 n k b a d m s
  | .vcmpLtI32 n k b a d m => Sys2Proof.Machine.execVcmpLtI32 n k b a d m s
  | .vcmpLeI32 n k b a d m => Sys2Proof.Machine.execVcmpLeI32 n k b a d m s
  | .vselI32 n k b a d m => Sys2Proof.Machine.execVselI32 n k b a d m s
  | .vredaddI32 n k a d m => Sys2Proof.Machine.execVredaddI32 n k a d m s
  | .vredmaxI32 n k a d m => Sys2Proof.Machine.execVredmaxI32 n k a d m s
  | .vscanI32 n k a d m => Sys2Proof.Machine.execVscanI32 n k a d m s
  | .vaddI16 n k b a d m => Sys2Proof.Machine.execVaddI16 n k b a d m s
  | .vsubI16 n k b a d m => Sys2Proof.Machine.execVsubI16 n k b a d m s
  | .vmulI16 n k b a d m => Sys2Proof.Machine.execVmulI16 n k b a d m s
  | .vminI16 n k b a d m => Sys2Proof.Machine.execVminI16 n k b a d m s
  | .vmaxI16 n k b a d m => Sys2Proof.Machine.execVmaxI16 n k b a d m s
  | .vandI16 n k b a d m => Sys2Proof.Machine.execVandI16 n k b a d m s
  | .vorI16 n k b a d m => Sys2Proof.Machine.execVorI16 n k b a d m s
  | .vxorI16 n k b a d m => Sys2Proof.Machine.execVxorI16 n k b a d m s
  | .vshlI16 n k b a d m => Sys2Proof.Machine.execVshlI16 n k b a d m s
  | .vshrI16 n k b a d m => Sys2Proof.Machine.execVshrI16 n k b a d m s
  | .vshaI16 n k b a d m => Sys2Proof.Machine.execVshaI16 n k b a d m s
  | .vcmpEqI16 n k b a d m => Sys2Proof.Machine.execVcmpEqI16 n k b a d m s
  | .vcmpNeI16 n k b a d m => Sys2Proof.Machine.execVcmpNeI16 n k b a d m s
  | .vcmpLtI16 n k b a d m => Sys2Proof.Machine.execVcmpLtI16 n k b a d m s
  | .vcmpLeI16 n k b a d m => Sys2Proof.Machine.execVcmpLeI16 n k b a d m s
  | .vselI16 n k b a d m => Sys2Proof.Machine.execVselI16 n k b a d m s
  | .vredaddI16 n k a d m => Sys2Proof.Machine.execVredaddI16 n k a d m s
  | .vredmaxI16 n k a d m => Sys2Proof.Machine.execVredmaxI16 n k a d m s
  | .vscanI16 n k a d m => Sys2Proof.Machine.execVscanI16 n k a d m s
  | .vdotDI16 n k b a d m => Sys2Proof.Machine.execVdotDI16 n k b a d m s
  | .vaddI8 n k b a d m => Sys2Proof.Machine.execVaddI8 n k b a d m s
  | .vsubI8 n k b a d m => Sys2Proof.Machine.execVsubI8 n k b a d m s
  | .vmulI8 n k b a d m => Sys2Proof.Machine.execVmulI8 n k b a d m s
  | .vminI8 n k b a d m => Sys2Proof.Machine.execVminI8 n k b a d m s
  | .vmaxI8 n k b a d m => Sys2Proof.Machine.execVmaxI8 n k b a d m s
  | .vandI8 n k b a d m => Sys2Proof.Machine.execVandI8 n k b a d m s
  | .vorI8 n k b a d m => Sys2Proof.Machine.execVorI8 n k b a d m s
  | .vxorI8 n k b a d m => Sys2Proof.Machine.execVxorI8 n k b a d m s
  | .vshlI8 n k b a d m => Sys2Proof.Machine.execVshlI8 n k b a d m s
  | .vshrI8 n k b a d m => Sys2Proof.Machine.execVshrI8 n k b a d m s
  | .vshaI8 n k b a d m => Sys2Proof.Machine.execVshaI8 n k b a d m s
  | .vcmpEqI8 n k b a d m => Sys2Proof.Machine.execVcmpEqI8 n k b a d m s
  | .vcmpNeI8 n k b a d m => Sys2Proof.Machine.execVcmpNeI8 n k b a d m s
  | .vcmpLtI8 n k b a d m => Sys2Proof.Machine.execVcmpLtI8 n k b a d m s
  | .vcmpLeI8 n k b a d m => Sys2Proof.Machine.execVcmpLeI8 n k b a d m s
  | .vselI8 n k b a d m => Sys2Proof.Machine.execVselI8 n k b a d m s
  | .vredaddI8 n k a d m => Sys2Proof.Machine.execVredaddI8 n k a d m s
  | .vredmaxI8 n k a d m => Sys2Proof.Machine.execVredmaxI8 n k a d m s
  | .vscanI8 n k a d m => Sys2Proof.Machine.execVscanI8 n k a d m s
  | .vdotDI8 n k b a d m => Sys2Proof.Machine.execVdotDI8 n k b a d m s
  | .vperm w k b a d => Sys2Proof.Machine.execVperm w k b a d s
  | .vbcastS w k a d => Sys2Proof.Machine.execVbcastS w k a d s
  | .vcompress w k b a d => Sys2Proof.Machine.execVcompress w k b a d s
  | .vexpand w k b a d => Sys2Proof.Machine.execVexpand w k b a d s
  | .vmovsToScalar w b a d => Sys2Proof.Machine.execVmovsToScalar w b a d s
  | .vmovsToVector w b a d => Sys2Proof.Machine.execVmovsToVector w b a d s
  | .vext w k b a d => Sys2Proof.Machine.execVext w k b a d s
  | .vbcastV w k b a d => Sys2Proof.Machine.execVbcastV w k b a d s
  | .vmov w k a d => Sys2Proof.Machine.execVmov w k a d s
  | .vpop w k a d => Sys2Proof.Machine.execVpop w k a d s
  | .vpush w k a d => Sys2Proof.Machine.execVpush w k a d s
  | .kset a d => Sys2Proof.Machine.execKset a d s
  | .kfirst w k a d => Sys2Proof.Machine.execKfirst w k a d s
  | .kmin b a d => Sys2Proof.Machine.execKmin b a d s
  | .kpop w b a d => Sys2Proof.Machine.execKpop w b a d s
  | .gang a d => Sys2Proof.Machine.execGang a d s
  | .gjoin a => Sys2Proof.Machine.execGjoin a s
  | .gdisband => Sys2Proof.Machine.execGdisband s
  | .cvt t x a d m => Sys2Proof.Machine.execCvt t x a d m s
  | .fqmv n a d m => Sys2Proof.Machine.execFqmv n a d m s
  | .unpackCe8 t b a d => Sys2Proof.Machine.execUnpackCe8 t b a d s
  | .packCe8 f b a d => Sys2Proof.Machine.execPackCe8 f b a d s
  | .mxs t x a d => Sys2Proof.Machine.execMxs t x a d s
  | .mxq t x b a d => Sys2Proof.Machine.execMxq t x b a d s
  | .mxd t x b a d => Sys2Proof.Machine.execMxd t x b a d s
  | .mma m t x b a c => Sys2Proof.Machine.execMma m t x b a c s
  | .gissue m t x b a c => Sys2Proof.Machine.execGissue m t x b a c s
  | .mzero c => Sys2Proof.Machine.execMzero c s
  | .mrow v h r c => Sys2Proof.Machine.execMrow v h r c s
  | .mdrain m t a c => Sys2Proof.Machine.execMdrain m t a c s
  | .mdrainadd m t a c => Sys2Proof.Machine.execMdrainadd m t a c s
  | .ringcfg n a => Sys2Proof.Machine.execRingcfg n a s
  | .ringpushM n b a d => Sys2Proof.Machine.execRingpushM n b a d s
  | .ringpushQ n b a => Sys2Proof.Machine.execRingpushQ n b a s
  | .tsrw g b a d => Sys2Proof.Machine.execTsrw g b a d s
  | .tsrinv b => Sys2Proof.Machine.execTsrinv b s
  | .bcopy d => Sys2Proof.Machine.execBcopy d s
  | .bcopyRing q d => Sys2Proof.Machine.execBcopyRing q d s
  | .bgather d => Sys2Proof.Machine.execBgather d s
  | .bgatherRing q d => Sys2Proof.Machine.execBgatherRing q d s
  | .bscatter d => Sys2Proof.Machine.execBscatter d s
  | .bstat d => Sys2Proof.Machine.execBstat d s
  | .fence x e => Sys2Proof.Machine.execFence x e s
  | .ackw x a d => Sys2Proof.Machine.execAckw x a d s
  | .stRel g x o a d => Sys2Proof.Machine.execStRel g x o a d s
  | .ldAcq g x o a d => Sys2Proof.Machine.execLdAcq g x o a d s
  | .amoAdd g w b a d => Sys2Proof.Machine.execAmoAdd g w b a d s
  | .amoAnd g w b a d => Sys2Proof.Machine.execAmoAnd g w b a d s
  | .amoOr g w b a d => Sys2Proof.Machine.execAmoOr g w b a d s
  | .amoXor g w b a d => Sys2Proof.Machine.execAmoXor g w b a d s
  | .amoMin g w b a d => Sys2Proof.Machine.execAmoMin g w b a d s
  | .amoMax g w b a d => Sys2Proof.Machine.execAmoMax g w b a d s
  | .amoMinn g w b a d => Sys2Proof.Machine.execAmoMinn g w b a d s
  | .amoMaxn g w b a d => Sys2Proof.Machine.execAmoMaxn g w b a d s
  | .amoSwap g w b a d => Sys2Proof.Machine.execAmoSwap g w b a d s
  | .amoCas g w b a d => Sys2Proof.Machine.execAmoCas g w b a d s
  | .redInteger o g w b a => Sys2Proof.Machine.execRedInteger o g w b a s
  | .famoAdd g t b a d => Sys2Proof.Machine.execFamoAdd g t b a d s
  | .famoMin g t b a d => Sys2Proof.Machine.execFamoMin g t b a d s
  | .famoMax g t b a d => Sys2Proof.Machine.execFamoMax g t b a d s
  | .redFloat o g t b a => Sys2Proof.Machine.execRedFloat o g t b a s
  | .bfins g b a d => Sys2Proof.Machine.execBfins g b a d s
  | .bffcs g b a d => Sys2Proof.Machine.execBffcs g b a d s
  | .bfpls g b a d => Sys2Proof.Machine.execBfpls g b a d s
  | .tktGet d => Sys2Proof.Machine.execTktGet d s
  | .tktScope a d => Sys2Proof.Machine.execTktScope a d s
  | .tktVoid a => Sys2Proof.Machine.execTktVoid a s
  | .barInit n a => Sys2Proof.Machine.execBarInit n a s
  | .barArr r n a d => Sys2Proof.Machine.execBarArr r n a d s
  | .barWait r n a => Sys2Proof.Machine.execBarWait r n a s
  | .barExp n a => Sys2Proof.Machine.execBarExp n a s
  | .grpJoin a d => Sys2Proof.Machine.execGrpJoin a d s
  | .grpLeave a d => Sys2Proof.Machine.execGrpLeave a d s
  | .grpQ a d => Sys2Proof.Machine.execGrpQ a d s
  | .semInit n a => Sys2Proof.Machine.execSemInit n a s
  | .semPost n a => Sys2Proof.Machine.execSemPost n a s
  | .semArm n a => Sys2Proof.Machine.execSemArm n a s
  | .rndClose => Sys2Proof.Machine.execRndClose s
  | .rndQ d => Sys2Proof.Machine.execRndQ d s
  | .lmap a d => Sys2Proof.Machine.execLmap a d s
  | .foldQ b a d => Sys2Proof.Machine.execFoldQ b a d s
  | .compactAdd x d => Sys2Proof.Machine.execCompactAdd x d s
  | .compactSub x d => Sys2Proof.Machine.execCompactSub x d s
  | .compactAnd x d => Sys2Proof.Machine.execCompactAnd x d s
  | .compactOr x d => Sys2Proof.Machine.execCompactOr x d s
  | .compactMove x d => Sys2Proof.Machine.execCompactMove x d s
  | .compactXor x d => Sys2Proof.Machine.execCompactXor x d s
  | .compactAddi imm d => Sys2Proof.Machine.execCompactAddi imm d s
  | .compactMovi imm d => Sys2Proof.Machine.execCompactMovi imm d s
  | .compactShli u d => Sys2Proof.Machine.execCompactShli u d s
  | .compactShri u d => Sys2Proof.Machine.execCompactShri u d s
  | .compactShai u d => Sys2Proof.Machine.execCompactShai u d s
  | .compactAndi imm d => Sys2Proof.Machine.execCompactAndi imm d s
  | .compactSlt x d => Sys2Proof.Machine.execCompactSlt x d s
  | .compactSeq x d => Sys2Proof.Machine.execCompactSeq x d s
  | .compactMul x d => Sys2Proof.Machine.execCompactMul x d s
  | .compactLdD x d => Sys2Proof.Machine.execCompactLdD x d s
  | .compactStD x d => Sys2Proof.Machine.execCompactStD x d s
  | .compactBeq o d => Sys2Proof.Machine.execCompactBeq o d s
  | .compactBne o d => Sys2Proof.Machine.execCompactBne o d s
  | .compactNop => Sys2Proof.Machine.execCompactNop s
  | .compactBrk => Sys2Proof.Machine.execCompactBrk s
  | .compactEnd => Sys2Proof.Machine.execCompactEnd s
  | .launchSubmit link iface tail => Sys2Proof.Machine.execLaunchSubmit link iface tail s
  | .launchAdmission iface allot => Sys2Proof.Machine.execLaunchAdmission iface allot s
  | .startRelease l pg => Sys2Proof.Machine.execStartRelease l pg s
  | .launchCompletion l => Sys2Proof.Machine.execLaunchCompletion l s
  | .consumedCountWrite link iface cons => Sys2Proof.Machine.execConsumedCountWrite link iface cons s
  | .activationEnter core src => Sys2Proof.Machine.execActivationEnter core src s
  | .taskStart core => Sys2Proof.Machine.execTaskStart core s
  | .waitClear ctx => Sys2Proof.Machine.execWaitClear ctx s
  | .long ctx => Sys2Proof.Machine.execLong ctx s
  | .boundaryOverrun ctx => Sys2Proof.Machine.execBoundaryOverrun ctx s
  | .asyncTrapTake ctx => Sys2Proof.Machine.execAsyncTrapTake ctx s
  | .userInterruptEntry ctx => Sys2Proof.Machine.execUserInterruptEntry ctx s
  | .kernelNotice core => Sys2Proof.Machine.execKernelNotice core s
  | .tileTaskComplete tt => Sys2Proof.Machine.execTileTaskComplete tt s
  | .tileTaskRetire tt => Sys2Proof.Machine.execTileTaskRetire tt s
  | .frontAdvance home => Sys2Proof.Machine.execFrontAdvance home s
  | .messageInject core => Sys2Proof.Machine.execMessageInject core s
  | .messageArrival id => Sys2Proof.Machine.execMessageArrival id s
  | .creditReturn id => Sys2Proof.Machine.execCreditReturn id s
  | .retryReply id => Sys2Proof.Machine.execRetryReply id s
  | .retryResend id => Sys2Proof.Machine.execRetryResend id s
  | .counterIncrementArrival id => Sys2Proof.Machine.execCounterIncrementArrival id s
  | .remoteAccessArrival id => Sys2Proof.Machine.execRemoteAccessArrival id s
  | .effectArrival id => Sys2Proof.Machine.execEffectArrival id s
  | .waitRequestArrival id => Sys2Proof.Machine.execWaitRequestArrival id s
  | .ldsyncCancel id => Sys2Proof.Machine.execLdsyncCancel id s
  | .readReply id => Sys2Proof.Machine.execReadReply id s
  | .writeAcknowledgement id => Sys2Proof.Machine.execWriteAcknowledgement id s
  | .writeDenial id => Sys2Proof.Machine.execWriteDenial id s
  | .xpartNotice id => Sys2Proof.Machine.execXpartNotice id s
  | .flushReadComplete id => Sys2Proof.Machine.execFlushReadComplete id s
  | .transferComplete x => Sys2Proof.Machine.execTransferComplete x s
  | .ringDeliveryComplete x => Sys2Proof.Machine.execRingDeliveryComplete x s
  | .arrayOperationRetire tile => Sys2Proof.Machine.execArrayOperationRetire tile s
  | .gjoinOfferReady core => Sys2Proof.Machine.execGjoinOfferReady core s
  | .apertureWrite link iface off bytes => Sys2Proof.Machine.execApertureWrite link iface off bytes s
  | .apertureRead link iface off n => Sys2Proof.Machine.execApertureRead link iface off n s
  | .barrierArrival id => Sys2Proof.Machine.execBarrierArrival id s
  | .barrierRegistration id => Sys2Proof.Machine.execBarrierRegistration id s
  | .barrierBind id => Sys2Proof.Machine.execBarrierBind id s
  | .groupChange id => Sys2Proof.Machine.execGroupChange id s
  | .membershipUpdate id => Sys2Proof.Machine.execMembershipUpdate id s
  | .pageWalk id => Sys2Proof.Machine.execPageWalk id s
  | .walkComplete id => Sys2Proof.Machine.execWalkComplete id s
  | .faultCompletion tag number fail => Sys2Proof.Machine.execFaultCompletion tag number fail s
  | .faultQueueHeadWrite tag head => Sys2Proof.Machine.execFaultQueueHeadWrite tag head s
  | .invalidation tag va size => Sys2Proof.Machine.execInvalidation tag va size s
  | .invalidationComplete k => Sys2Proof.Machine.execInvalidationComplete k s
  | .fold l b => Sys2Proof.Machine.execFold l b s
  | .foldStreamed l b => Sys2Proof.Machine.execFoldStreamed l b s
  | .unfold l b => Sys2Proof.Machine.execUnfold l b s
  | .unfoldComplete l b => Sys2Proof.Machine.execUnfoldComplete l b s
  | .parkedArrival id => Sys2Proof.Machine.execParkedArrival id s
  | .regulatorFailure zone => Sys2Proof.Machine.execRegulatorFailure zone s
  | .uncorrectableError tile => Sys2Proof.Machine.execUncorrectableError tile s
  | .correctableError tile => Sys2Proof.Machine.execCorrectableError tile s
  | .hbmLineError stack off areas => Sys2Proof.Machine.execHbmLineError stack off areas s
  | .remapWaveCommit zone => Sys2Proof.Machine.execRemapWaveCommit zone s
  | .roundTimer zone => Sys2Proof.Machine.execRoundTimer zone s
  | .closeDeferralEnd zone => Sys2Proof.Machine.execCloseDeferralEnd zone s
  | .roundClose zone => Sys2Proof.Machine.execRoundClose zone s
  | .roundMirrored zone => Sys2Proof.Machine.execRoundMirrored zone s
  | .currentStep pg => Sys2Proof.Machine.execCurrentStep pg s
  | .droopAlarm zone => Sys2Proof.Machine.execDroopAlarm zone s
  | .droopClear pg => Sys2Proof.Machine.execDroopClear pg s
  | .deadlockScan records => Sys2Proof.Machine.execDeadlockScan records s
  | .partitionCreate tag tiles pool => Sys2Proof.Machine.execPartitionCreate tag tiles pool s
  | .partitionDelete tag => Sys2Proof.Machine.execPartitionDelete tag s
  | .grow tag tiles => Sys2Proof.Machine.execGrow tag tiles s
  | .shrink tag tiles => Sys2Proof.Machine.execShrink tag tiles s
  | .preEmption p q tiles => Sys2Proof.Machine.execPreEmption p q tiles s
  | .commandSubmit tag tail => Sys2Proof.Machine.execCommandSubmit tag tail s
  | .protectionDescriptor tag => Sys2Proof.Machine.execProtectionDescriptor tag s
  | .contextSave tag => Sys2Proof.Machine.execContextSave tag s
  | .loadObject tag obj => Sys2Proof.Machine.execLoadObject tag obj s
  | .unloadProgram tag => Sys2Proof.Machine.execUnloadProgram tag s
  | .unknownCommand tag => Sys2Proof.Machine.execUnknownCommand tag s
  | .slotTableCommit slot => Sys2Proof.Machine.execSlotTableCommit slot s
  | .slotTableTakeEffect => Sys2Proof.Machine.execSlotTableTakeEffect s
  | .scaleOutFrameReceive port input => Sys2Proof.Machine.execScaleOutFrameReceive port input s
  | .scaleOutAck edge seq => Sys2Proof.Machine.execScaleOutAck edge seq s
  | .scaleOutRetransmit edge => Sys2Proof.Machine.execScaleOutRetransmit edge s
  | .portDown port => Sys2Proof.Machine.execPortDown port s
  | .portUp port => Sys2Proof.Machine.execPortUp port s
  | .edgeRebind edge port bind => Sys2Proof.Machine.execEdgeRebind edge port bind s
  | .ptpEventMessage port time => Sys2Proof.Machine.execPtpEventMessage port time s
  | .profileMaskWrite tag mask => Sys2Proof.Machine.execProfileMaskWrite tag mask s
  | .kernelImageWrite tag role off bytes => Sys2Proof.Machine.execKernelImageWrite tag role off bytes s
  | .hyperImageWrite off bytes => Sys2Proof.Machine.execHyperImageWrite off bytes s
  | .failsClear value => Sys2Proof.Machine.execFailsClear value s
  | .registerWrite link reg value => Sys2Proof.Machine.execRegisterWrite link reg value s
  | .reset => Sys2Proof.Machine.execReset s
  | .firmwareVerify die => Sys2Proof.Machine.execFirmwareVerify die s
  | .dieSelfTest die tiles links zones ports => Sys2Proof.Machine.execDieSelfTest die tiles links zones ports s
  | .seamTraining a b fails => Sys2Proof.Machine.execSeamTraining a b fails s
  | .islandMerging => Sys2Proof.Machine.execIslandMerging s
  | .startTest faults => Sys2Proof.Machine.execStartTest faults s
  | .bootStatusWrite => Sys2Proof.Machine.execBootStatusWrite s
  | .phaseTimeLimit die => Sys2Proof.Machine.execPhaseTimeLimit die s
  | .getVersion link => Sys2Proof.Machine.execGetVersion link s
  | .getCapabilities link => Sys2Proof.Machine.execGetCapabilities link s
  | .negotiateAlgorithms link => Sys2Proof.Machine.execNegotiateAlgorithms link s
  | .getDigests link => Sys2Proof.Machine.execGetDigests link s
  | .getCertificate link slot off len => Sys2Proof.Machine.execGetCertificate link slot off len s
  | .challenge link slot nonce => Sys2Proof.Machine.execChallenge link slot nonce s
  | .getMeasurements link block signed nonce => Sys2Proof.Machine.execGetMeasurements link block signed nonce s
  | .unsupportedRequest link code => Sys2Proof.Machine.execUnsupportedRequest link code s
  | .illegal bits => Sys2Proof.Machine.execIllegal bits s
  | .fetchProt addr => Sys2Proof.Machine.execFetchProt addr s
  | .powerLoss torn mid => Sys2Proof.Machine.execPowerLoss torn mid s
  | .frameBoundary => Sys2Proof.Machine.execFrameBoundary s

end Sys2Proof.Machine
end

