-- ==== Sys2Proof/Machine/Due.lean ====
section
/-! DEFINITION. The device step that is due now, if any: the first of the steps that the device itself brings about that has an effect in this state.
What the outside chooses (a write, a failure, a request), and any other order of the device's own steps, stands on the agenda instead (log entry 2). -/

namespace Sys2Proof.Machine

/-- The step that takes a packet in the network at its destination. -/
noncomputable def Packet.step (id : Nat) : Packet → Instr
  | .message _ _ => .messageArrival id
  | .spawn _ _ _ => .messageArrival id
  | .credit _ _ _ => .creditReturn id
  | .increment _ _ => .counterIncrementArrival id
  | .read _ _ _ _ _ _ _ => .remoteAccessArrival id
  | .protect _ _ _ => .remoteAccessArrival id
  | .profile _ _ => .remoteAccessArrival id
  | .bindEdge _ _ _ => .remoteAccessArrival id
  | .resume _ _ _ _ => .remoteAccessArrival id
  | .effect _ _ => .effectArrival id
  | .wait _ _ _ _ _ => .waitRequestArrival id
  | .cancel _ _ _ => .ldsyncCancel id
  | .reply _ _ _ _ => .readReply id
  | .zeros _ _ _ _ _ _ => .readReply id
  | .prefixReply _ _ _ _ _ => .readReply id
  | .faultReply _ _ _ _ => .readReply id
  | .ack _ => .writeAcknowledgement id
  | .denial _ _ _ _ => .writeDenial id
  | .xpart _ _ _ _ _ => .xpartNotice id
  | .flushRead _ _ _ => .flushReadComplete id
  | .barArr _ _ _ _ _ _ => .barrierArrival id
  | .barReg _ _ _ _ _ => .barrierRegistration id
  | .barBind _ _ _ _ _ _ => .barrierBind id
  | .grpChange _ _ _ _ _ _ => .groupChange id
  | .grpUpdate _ _ _ _ _ _ _ => .membershipUpdate id
  | .walk _ [] _ => .walkComplete id
  | .walk _ (_ :: _) _ => .pageWalk id

/-- The steps that may take a flight on. -/
noncomputable def Flight.steps (f : Flight) : List Instr :=
  match f.st with
  | .transit => [f.pkt.step f.id, .parkedArrival f.id]
  | .bounced => [.retryReply f.id]
  | .waiting _ => [.retryResend f.id]
  | .faulted => [.walkComplete f.id]
  | _ => []

/-- The steps of a context. One that can issue takes an asynchronous trap or a user interrupt at the boundary of its next unit, behind that unit's own tests
(14 R420). -/
noncomputable def State.ctxSteps (s : State) (id : CtxId) : List Instr :=
  [.waitClear id, .boundaryOverrun id, .long id] ++ (if (s.ctx id).phase = .run then [] else [.asyncTrapTake id, .userInterruptEntry id])

/-- The steps of a core. -/
noncomputable def State.coreSteps (s : State) (c : CoreId) : List Instr :=
  [.messageInject c, .gjoinOfferReady c, .kernelNotice c] ++ ((s.sources c).map fun x => Instr.activationEnter c x) ++ [.taskStart c]

/-- The steps of the pool and the zones. -/
noncomputable def State.poolSteps (s : State) : List Instr :=
  (s.bundles.keys.flatMap fun b => [Instr.foldStreamed b.1 b.2, .unfoldComplete b.1 b.2, .unfold b.1 b.2, .fold b.1 b.2]) ++
  (s.zones.keys.flatMap fun z => [Instr.remapWaveCommit z, .roundMirrored z, .roundClose z, .closeDeferralEnd z, .roundTimer z]) ++
  ((List.range 16).flatMap fun g => [Instr.currentStep g, .droopClear g])

/-- The steps of the module's management, its links and its bring-up. -/
noncomputable def State.moduleSteps (s : State) : List Instr :=
  (s.parts.flatMap fun p => [Instr.protectionDescriptor p.1, .contextSave p.1, .unloadProgram p.1, .unknownCommand p.1] ++
    p.2.invs.map fun i => Instr.invalidationComplete i.1) ++
  (s.ifaces.keys.map fun n => Instr.launchAdmission n true) ++
  (s.launches.keys.flatMap fun l => ((List.range 16).map fun g => Instr.startRelease l g) ++ [.launchCompletion l]) ++
  (s.edges.keys.map fun n => Instr.scaleOutRetransmit n) ++ [.slotTableTakeEffect, .frameBoundary, .deadlockScan s.recordsDue] ++
  ((List.range 52).flatMap fun d => [Instr.firmwareVerify d, .phaseTimeLimit d]) ++ [.islandMerging, .bootStatusWrite]

/-- Whether a packet is a membership update. -/
def Packet.isUpdate : Packet → Bool
  | .grpUpdate _ _ _ _ _ _ _ => true
  | _ => false

/-- The device's own steps that may be due, in the order in which step looks for one: membership updates before arrivals (13 R382), the posts of the engines
before those of the arrays (13 R392). -/
noncomputable def State.ownSteps (s : State) : List Instr :=
  ((s.net.filter fun f => f.pkt.isUpdate) ++ (s.net.filter fun f => !f.pkt.isUpdate)).flatMap Flight.steps ++ (s.homes.keys.map fun h => Instr.frontAdvance h) ++
  (s.xfers.flatMap fun x => [Instr.ringDeliveryComplete x.id, .transferComplete x.id]) ++ (s.tiles.keys.map fun t => Instr.arrayOperationRetire t) ++
  (s.ctxs.keys.flatMap s.ctxSteps) ++ (s.cores.keys.flatMap s.coreSteps) ++
  (s.tts.keys.flatMap fun t => [Instr.tileTaskComplete t, .tileTaskRetire t]) ++ s.poolSteps ++ s.moduleSteps

/-- Whether a device step has an effect. -/
def hasEffect (i : Instr) (s : State) : Bool :=
  match exec i s with
  | .next t => decide (t ≠ s)
  | _ => false

/-- The first device step that is due. -/
noncomputable def due (s : State) : Option Instr := s.ownSteps.find? fun i => hasEffect i s

end Sys2Proof.Machine
end

