-- ==== Sys2Proof/Machine/Step.lean ====
section
/-! DEFINITION. One step of the device: the next device step that the outside or timing has put on the agenda; else a unit of the next core that can issue in
this cycle; else the first device step that is due; else the next cycle begins.
step is noncomputable only because it builds instructions (log entry 3). -/

namespace Sys2Proof.Machine

/-- A unit boundary of a context takes at most one entry (14 R420): the synchronous trap of the unit about to issue, else a pending asynchronous trap,
else a user interrupt, else the unit issues. -/
noncomputable def boundary (i : Instr) (s : State) : Outcome :=
  match exec i s with
  | .next t =>
    if t.trapped.isSome then .next t
    else if asyncDue s.here then exec (.asyncTrapTake s.cur) s
    else if interruptDue s.here then exec (.userInterruptEntry s.cur) s
    else .next t
  | o => o

/-- The next unit of a context: fetched, decoded, run (02 R60). -/
noncomputable def issue (id : CtxId) (s : State) : Outcome :=
  let s := s.select id
  match fetch s id with
  | .ok i => boundary i s
  | .error (.illegal bits) => boundary (.illegal bits) s
  | .error (.prot addr) => boundary (.fetchProt addr) s

/-- Whether a step is an entry that a context which can issue takes only at the boundary of its next unit, behind that unit's own tests (14 R420; 05 R163). -/
def State.awaitsBoundary (s : State) : Instr → Bool
  | .asyncTrapTake id => decide ((s.ctx id).phase = .run)
  | .userInterruptEntry id => decide ((s.ctx id).phase = .run)
  | _ => false

/-- A step of the agenda; an entry that must await its context's boundary is left to it. -/
noncomputable def fromAgenda (i : Instr) (s : State) : Outcome := if s.awaitsBoundary i then .next s else exec i s

/-- One step. -/
noncomputable def step (s : State) : Outcome :=
  match s.agenda with
  | i :: rest => fromAgenda i { s with agenda := rest }
  | [] =>
    match nextIssue s with
    | some id => issue id s
    | none =>
      match due s with
      | some i => exec i s
      | none => .next s.tick

/-! ### An instruction placed where step fetches next (log entry 35) -/

/-- An object whose three code images are the same bytes, on a grid of one tile. -/
def oneTileObject (code : List Byte) : Object :=
  { profile := 3, x := 1, y := 1, free := false, codeMc := code, codeFc := code, codeAc := code, uvec := 0, data := [], classes := [], rates := [],
    graph := [], prots := [], rings := [], tsrs := [], segs := [], regions := [], sections := [] }

/-- A launch of an object on one tile, in ordered mode. -/
def oneTileLaunch (o : Object) : Launch :=
  { tag := 0, iface := 0, packet := 0, cookie := 0, handle := 0, obj := o, graph := 0, x := 1, y := 1, free := false, scope := .launch, slot := 0, number := 0,
    seed := 0, flagarr := 0, statics := 1, units := 0, pool := 0, stream := 0, overflow := none, overflowAt := 0, ending := false, done := false, failed := false, mended := 0,
    droops := [] }

/-- The start task of launch 0's one tile task. -/
def oneTileTask : Task :=
  { uid := 0, kind := .start, cls := 0, entry := 0xFF, tt := some ⟨0, [0]⟩, key := ⟨0, [0], 0⟩, msg := none, hdr := 0, sender := ⟨0, 0⟩, prof := 0 }

/-- The context that runs on a role at a level: a task of launch 0 at code address 0, or for a steward the start of its firmware. -/
def placedCtx (r : Role) (level : BitVec 2) : Ctx :=
  { Ctx.init with phase := .run, level := level, task := if r = .steward then none else some oneTileTask }

/-- A program placed in launch 0 on tile 0 and in the firmware of die 0: context 0 of a role is the next to issue, and runs it from address 0. -/
def State.place (s : State) (code : List Byte) (r : Role) (level : BitVec 2) : State :=
  let id : CtxId := ⟨⟨0, 0, r⟩, 0⟩
  { s with
    agenda := [], later := [], issued := (s.ctxs.keys.map (·.core)).filter (fun c => c ≠ id.core), ctxs := (id, placedCtx r level) :: s.ctxs.filter (fun e => e.1 ≠ id), cores := s.cores.set id.core Core.init,
    tts := s.tts.set ⟨0, [0]⟩ (TileTask.init 0 0 ⟨0, 0⟩), launches := s.launches.set 0 (oneTileLaunch (oneTileObject code)),
    groups := s.groups.map fun (g : Nat × PowerGroup) => (g.1, { g.2 with alarm := false }),
    dies := if r = .steward then s.dies.set 0 { s.die 0 with part := true, image := some { code := code, ecKey := (0, 0), ecSig := (0, 0), lmsSig := [], version := 0 } } else s.dies }

/-- Whether the next step runs its unit past the role and level tests. -/
noncomputable def runsHere (s : State) : Bool :=
  match step s with
  | .next t => decide (t.trapped ≠ some causeRole) && decide (t.trapped ≠ some causePriv)
  | _ => false

/-- The roles and levels at which a unit may be allowed, user level first. -/
def placements : List (Role × BitVec 2) :=
  [(.mc, 0), (.fc, 0), (.ac, 0), (.mc, 1), (.fc, 1), (.ac, 1), (.mc, 2), (.steward, 3)]

/-- The state with an instruction stored where step fetches next: its bits, then zeros up to the longest unit, on the first role and level that may run it. -/
noncomputable def State.withFetchWord (s : State) (nbits w : Nat) : State :=
  let code := natToBytes ((nbits + 7) / 8 + 8) (w % 2 ^ nbits)
  let x := (placements.find? fun x => runsHere (s.place code x.1 x.2)).getD (.mc, 0)
  s.place code x.1 x.2

end Sys2Proof.Machine
end

