-- ==== Sys2Proof/Safety.lean ====
section
/-! DEFINITION. What counts as a safe run: a step that gives a next state. -/

namespace Sys2Proof

/-- A step from s gives a next state. -/
def Runs (s : Machine.State) : Prop := ∃ t, Machine.step s = .next t

end Sys2Proof
end

