-- ==== Sys2Proof/Certificates/Slice0/Obligations.lean ====
section
/-! DEFINITION. The statements for the provers: what each instruction of 02 Table 2.9 and each device step does where it takes place, what it leaves
unchanged, and rules of the whole machine. -/

namespace Sys2Proof.Claims

open Sys2Proof.Machine

/-! ### Words used by several statements -/

/-- The state in which a unit begins: no unit has trapped yet (a field of the model). -/
def start (s : State) : State := { s with trapped := none }

/-- The three tests that follow decoding (02 R60): no feature of the unit is masked, the role may run it, the level suffices. -/
def Passes (s : State) (roles : List Role) (level : Nat) (feats : List Nat) : Prop :=
  (2 ≤ s.here.level.toNat ∨ ∀ n ∈ feats, (s.here.task.elim 0 Task.prof).getLsbD n = false) ∧ s.cur.core.r ∈ roles ∧ level ≤ s.here.level.toNat

/-- The roles of a tile's cores (01 R24). -/
def onTile : List Role := [.mc, .fc, .ac]

/-- Only the running context and the core's share of nothing else moved: every other context, core, tile, home, memory and table is as before. -/
def OnlyHere (s t : State) : Prop := t = { s with ctxs := t.ctxs, trapped := none } ∧ ∀ id, id ≠ s.cur → t.ctx id = s.ctx id

/-- The running context completed a unit of len bytes: it goes on at the next address (04 R136 where a loop ends there), and of its parts only pc, loop,
unit count and wait moved, and what the statement says besides. -/
def goneOn (c : Ctx) (len : Nat) : Ctx := c.complete c.level (c.pc + BitVec.ofNat 64 len)

end Sys2Proof.Claims

open Sys2Proof Sys2Proof.Machine Sys2Proof.Claims

/-! ### One context, one unit -/

/-- Replacing the running context changes that context alone. -/
def Sys2Proof.Claims.OneContextChanges : Prop :=
  ∀ (s : State) (c : Ctx),
    let t := (start s).setCtx s.cur c
    OnlyHere s t ∧ t.here = c ∧ t.cur = s.cur

/-- A unit completes (04 R110, R136; 03 R92): it is counted at user level only, the wait count returns to 0, and the next address is the one it gives,
but where that is the end of an active loop with more than one pass left the loop goes round, at the end of the last pass it ends, and an address outside
the body ends it. Nothing else of the context changes. -/
def Sys2Proof.Claims.UnitCompletion : Prop :=
  ∀ (c : Ctx) (level : BitVec 2) (next : Word),
    let d := c.complete level next
    d = { c with pc := d.pc, loop := d.loop, count := d.count, phase := .run, waited := 0 } ∧
    d.count = (if level = 0 then c.count + 1 else c.count) ∧
    (c.loop.active = false → d.pc = next ∧ d.loop = c.loop) ∧
    (c.loop.active = true → next = c.loop.stop → 1 < c.loop.count.toNat → d.pc = c.loop.start ∧ d.loop = { c.loop with count := c.loop.count - 1 }) ∧
    (c.loop.active = true → next = c.loop.stop → c.loop.count.toNat ≤ 1 → d.pc = next ∧ d.loop = { c.loop with active := false }) ∧
    (c.loop.active = true → next ≠ c.loop.stop → next < c.loop.start ∨ c.loop.stop < next → d.pc = next ∧ d.loop = { c.loop with active := false }) ∧
    (c.loop.active = true → next ≠ c.loop.stop → c.loop.start ≤ next → next ≤ c.loop.stop → d.pc = next ∧ d.loop = c.loop)

/-! ### Registers -/

/-- A unit that writes scalar register d (04 R108, 02 R66, R67): s0 takes nothing; every other register keeps its value; nothing outside the running
context changes; the context goes on at the next unit. -/
def Sys2Proof.Claims.RegisterWriteFrame : Prop :=
  ∀ (s : State) (len : Nat) (d : BitVec 5) (v : Word),
    let t := (start s).finishReg len d v
    OnlyHere s t ∧ (∀ n, t.here.reg n = if n = d ∧ d ≠ 0 then v else s.here.reg n) ∧
    t.here = { goneOn s.here len with regs := t.here.regs, shadow := t.here.shadow } ∧
    (s.here.uih = false → t.here.shadow = s.here.shadow) ∧
    (∀ n : Nat, (s.here.uih = true ∧ 24 ≤ n) ∨ n ≠ d.toNat → t.here.regs[n]? = s.here.regs[n]?)

/-- Replacing the running context changes that context alone. A unit completes (04 R110, R136; 03 R92): it is counted at user level only, the wait count
returns to 0, and the next address is the one it gives, but where that is the end of an active loop with more than one pass left the loop goes round, at the
end of the last pass it ends, and an address outside the body ends it. Nothing else of the context changes. A unit that writes scalar register d (04 R108, 02
R66, R67): s0 takes nothing; every other register keeps its value; nothing outside the running context changes; the context goes on at the next unit. -/
def Obligations.UnitsCompleteHere : Prop :=
  Claims.OneContextChanges ∧ Claims.UnitCompletion ∧ Claims.RegisterWriteFrame

namespace Sys2Proof.Claims

open Sys2Proof.Machine

/-- Length, destination and value of the units that compute one register from registers and immediates (04 R123 to R131, Table 4.5; the compact forms by
02 Table 2.11). -/
def computed (c : Ctx) : Instr → Option (Nat × BitVec 5 × Word)
  | .add b a d => some (4, d, c.reg a + c.reg b)
  | .sub b a d => some (4, d, c.reg a - c.reg b)
  | .mul b a d => some (4, d, c.reg a * c.reg b)
  | .mulh b a d => some (4, d, BitVec.ofInt 64 ((c.reg a).toInt * (c.reg b).toInt / 2 ^ 64))
  | .mulhn b a d => some (4, d, BitVec.ofNat 64 ((c.reg a).toNat * (c.reg b).toNat / 2 ^ 64))
  | .div b a d => some (4, d, if c.reg b = 0 then BitVec.allOnes 64 else (c.reg a).sdiv (c.reg b))
  | .divn b a d => some (4, d, if c.reg b = 0 then BitVec.allOnes 64 else c.reg a / c.reg b)
  | .rem b a d => some (4, d, if c.reg b = 0 then c.reg a else (c.reg a).srem (c.reg b))
  | .remn b a d => some (4, d, if c.reg b = 0 then c.reg a else c.reg a % c.reg b)
  | .min b a d => some (4, d, if (c.reg a).toInt ≤ (c.reg b).toInt then c.reg a else c.reg b)
  | .max b a d => some (4, d, if (c.reg a).toInt ≤ (c.reg b).toInt then c.reg b else c.reg a)
  | .minn b a d => some (4, d, if c.reg a ≤ c.reg b then c.reg a else c.reg b)
  | .maxn b a d => some (4, d, if c.reg a ≤ c.reg b then c.reg b else c.reg a)
  | .and b a d => some (4, d, c.reg a &&& c.reg b)
  | .or b a d => some (4, d, c.reg a ||| c.reg b)
  | .xor b a d => some (4, d, c.reg a ^^^ c.reg b)
  | .andn b a d => some (4, d, c.reg a &&& ~~~c.reg b)
  | .shl b a d => some (4, d, c.reg a <<< (c.reg b).toNat)
  | .shr b a d => some (4, d, c.reg a >>> (c.reg b).toNat)
  | .sha b a d => some (4, d, (c.reg a).sshiftRight (c.reg b).toNat)
  | .rotl b a d => some (4, d, (c.reg a).rotateLeft ((c.reg b).toNat % 64))
  | .seq b a d => some (4, d, if c.reg a = c.reg b then 1 else 0)
  | .slt b a d => some (4, d, if (c.reg a).toInt < (c.reg b).toInt then 1 else 0)
  | .sltn b a d => some (4, d, if c.reg a < c.reg b then 1 else 0)
  | .addi i a d => some (4, d, c.reg a + i.signExtend 64)
  | .andi i a d => some (4, d, c.reg a &&& i.signExtend 64)
  | .ori i a d => some (4, d, c.reg a ||| i.signExtend 64)
  | .xori i a d => some (4, d, c.reg a ^^^ i.signExtend 64)
  | .shli n a d => some (4, d, c.reg a <<< n.toNat)
  | .shri n a d => some (4, d, c.reg a >>> n.toNat)
  | .shai n a d => some (4, d, (c.reg a).sshiftRight n.toNat)
  | .sel k b a d => some (4, d, if c.reg k ≠ 0 then c.reg a else c.reg b)
  | .movi i d => some (4, d, i.signExtend 64)
  | .movh i d => some (4, d, c.reg d <<< 19 + i.setWidth 64)
  | .compactAdd x d => some (2, d, c.reg d + c.reg x)
  | .compactSub x d => some (2, d, c.reg d - c.reg x)
  | .compactAnd x d => some (2, d, c.reg d &&& c.reg x)
  | .compactOr x d => some (2, d, c.reg d ||| c.reg x)
  | .compactMove x d => some (2, d, c.reg x)
  | .compactXor x d => some (2, d, c.reg d ^^^ c.reg x)
  | .compactAddi i d => some (2, d, c.reg d + i.signExtend 64)
  | .compactMovi i d => some (2, d, i.signExtend 64)
  | .compactShli u d => some (2, d, c.reg d <<< u.toNat)
  | .compactShri u d => some (2, d, c.reg d >>> u.toNat)
  | .compactShai u d => some (2, d, (c.reg d).sshiftRight u.toNat)
  | .compactAndi i d => some (2, d, c.reg d &&& i.signExtend 64)
  | .compactSlt x d => some (2, d, if (c.reg d).toInt < (c.reg x).toInt then 1 else 0)
  | .compactSeq x d => some (2, d, if c.reg d = c.reg x then 1 else 0)
  | .compactMul x d => some (2, d, c.reg d * c.reg x)
  | _ => none

/-- Destination, source, and the value's bits for the counts and bit fields (04 R123, R129): bit i of the result for bit fields. -/
def fieldBit (c : Ctx) (i : Nat) : Instr → Option (BitVec 5 × Bool)
  | .bfxZ p l a d => some (d, decide (i < min (l.toNat + 1) (64 - p.toNat)) && (c.reg a).getLsbD (p.toNat + i))
  | .bfxS p l a d => some (d, (c.reg a).getLsbD (p.toNat + min i (min (l.toNat + 1) (64 - p.toNat) - 1)))
  | .bfi p l a d => some (d, if p.toNat ≤ i ∧ i < p.toNat + min (l.toNat + 1) (64 - p.toNat) then (c.reg a).getLsbD (i - p.toNat) else (c.reg d).getLsbD i)
  | _ => none

/-- Destination and sub-elements of the packed forms (04 R126): width, and the operation on two sub-elements. -/
def packedForm : Instr → Option (BitVec 1 × BitVec 5 × BitVec 5 × BitVec 5 × ((n : Nat) → BitVec n → BitVec n → BitVec n))
  | .padd w b a d => some (w, b, a, d, fun _ x y => x + y)
  | .psub w b a d => some (w, b, a, d, fun _ x y => x - y)
  | .pmin n w b a d => some (w, b, a, d, fun _ x y => if n = 0 then (if x.toInt ≤ y.toInt then x else y) else (if x ≤ y then x else y))
  | .pmax n w b a d => some (w, b, a, d, fun _ x y => if n = 0 then (if x.toInt ≤ y.toInt then y else x) else (if x ≤ y then y else x))
  | .pshl w b a d => some (w, b, a, d, fun _ x y => x <<< (y.toNat % 256))
  | .pshr w b a d => some (w, b, a, d, fun _ x y => x >>> (y.toNat % 256))
  | .psha w b a d => some (w, b, a, d, fun _ x y => x.sshiftRight (y.toNat % 256))
  | _ => none

end Sys2Proof.Claims

/-- The units that compute one register (04 R123 to R131; 02 Table 2.11): the register is written, and the unit completes, in every state. -/
def Obligations.ComputedRegisters : Prop :=
  ∀ (i : Instr) (s : State) (len : Nat) (d : BitVec 5) (v : Word), computed s.here i = some (len, d, v) →
    exec i s = .next ((start s).finishReg len d v)

/-- clz, ctz and popc (04 Table 4.5): the first one bit from the top or the bottom, 64 without one; the number of one bits. -/
def Sys2Proof.Claims.BitCounts : Prop :=
  ∀ (a d : BitVec 5) (s : State),
    let x := s.here.reg a
    exec (.clz a d) s = .next ((start s).finishReg 4 d (BitVec.ofNat 64 (((List.range 64).find? fun i => x.getLsbD (63 - i)).getD 64))) ∧
    exec (.ctz a d) s = .next ((start s).finishReg 4 d (BitVec.ofNat 64 (((List.range 64).find? fun i => x.getLsbD i).getD 64))) ∧
    exec (.popc a d) s = .next ((start s).finishReg 4 d (BitVec.ofNat 64 ((List.range 64).filter fun i => x.getLsbD i).length))

/-- bfx.z, bfx.s and bfi (04 R129): every bit of the result, a field that would run past bit 63 cut short there. -/
def Sys2Proof.Claims.BitFields : Prop :=
  ∀ (i : Instr) (s : State), (fieldBit s.here 0 i).isSome →
    ∃ d v, exec i s = .next ((start s).finishReg 4 d v) ∧ ∀ n, n < 64 → fieldBit s.here n i = some (d, v.getLsbD n)

/-- The packed forms (04 R126): each of the eight 8-bit or four 16-bit sub-elements on its own. -/
def Sys2Proof.Claims.PackedForms : Prop :=
  ∀ (i : Instr) (s : State) (w : BitVec 1) (b a d : BitVec 5) (g : (n : Nat) → BitVec n → BitVec n → BitVec n), packedForm i = some (w, b, a, d, g) →
    ∃ v, exec i s = .next ((start s).finishReg 4 d v) ∧
      ∀ j, j < (if w = 0 then 8 else 4) →
        let n := if w = 0 then 8 else 16
        v.extractLsb' (n * j) n = g n ((s.here.reg a).extractLsb' (n * j) n) ((s.here.reg b).extractLsb' (n * j) n)

/-- clz, ctz and popc (04 Table 4.5): the first one bit from the top or the bottom, 64 without one; the number of one bits. bfx.z, bfx.s and bfi (04 R129):
every bit of the result, a field that would run past bit 63 cut short there. The packed forms (04 R126): each of the eight 8-bit or four 16-bit sub-elements
on its own. -/
def Obligations.BitAndPackedForms : Prop :=
  Claims.BitCounts ∧ Claims.BitFields ∧ Claims.PackedForms

/-! ### Control transfer -/

namespace Sys2Proof.Claims

open Sys2Proof.Machine

/-- Length, offset in halfwords and condition of the branches (04 R132; 02 Table 2.11). -/
def branchOf (c : Ctx) : Instr → Option (Nat × Int × Bool)
  | .beq o b a => some (4, o.toInt, decide (c.reg a = c.reg b))
  | .bne o b a => some (4, o.toInt, decide (c.reg a ≠ c.reg b))
  | .blt o b a => some (4, o.toInt, decide ((c.reg a).toInt < (c.reg b).toInt))
  | .bge o b a => some (4, o.toInt, decide ((c.reg b).toInt ≤ (c.reg a).toInt))
  | .bltn o b a => some (4, o.toInt, decide (c.reg a < c.reg b))
  | .bgen o b a => some (4, o.toInt, decide (c.reg b ≤ c.reg a))
  | .jmp o => some (4, o.toInt, true)
  | .compactBeq o d => some (2, o.toInt, decide (c.reg d = 0))
  | .compactBne o d => some (2, o.toInt, decide (c.reg d ≠ 0))
  | _ => none

end Sys2Proof.Claims

/-- Branches and jmp (04 R132, R133): to the unit's own address plus the offset when the condition holds, else to the next unit; nothing else changes. -/
def Sys2Proof.Claims.Branches : Prop :=
  ∀ (i : Instr) (s : State) (len : Nat) (o : Int) (taken : Bool), branchOf s.here i = some (len, o, taken) →
    exec i s = .next ((start s).setCtx s.cur
      (s.here.complete s.here.level (s.here.pc + if taken then BitVec.ofInt 64 (2 * o) else BitVec.ofNat 64 len)))

/-- jal, jr and rep (04 R133 to R135): the link register takes the next address (inside a user-interrupt handler jal's goes to h7 as every write of s31 does,
DESIGN CHOICE, log 68); an odd target of jr traps ALIGN with no register written; rep with a count starts its loop, and with 0 skips the body. -/
def Sys2Proof.Claims.JumpsWithLink : Prop :=
  ∀ (s : State) (o : BitVec 24) (i : BitVec 14) (a d : BitVec 5),
    let c := s.here
    let next := c.pc + 4
    let target := c.reg a + i.signExtend 64
    let stop := next + i.setWidth 64 * 2
    exec (.jal o) s = .next ((start s).setCtx s.cur ((c.setReg 31 next).complete c.level (c.pc + BitVec.ofInt 64 (2 * o.toInt)))) ∧
    (target.getLsbD 0 = false → exec (.jr i a d) s = .next ((start s).setCtx s.cur ((c.setReg d next).complete c.level target))) ∧
    (target.getLsbD 0 = true → exec (.jr i a d) s = .next ((start s).trap causeAlign target)) ∧
    exec (.rep i a) s = .next ((start s).setCtx s.cur
      (if c.reg a = 0 then c.complete c.level stop
       else ({ c with loop := { active := true, start := next, stop := stop, count := c.reg a } } : Ctx).complete c.level next))

/-! ### Traps -/

namespace Sys2Proof.Claims

open Sys2Proof.Machine

/-- Whether a trap of a cause raised at a level goes to the hyper level (14 R418, Table 14.6). -/
def hyperTrap (level : BitVec 2) (code : BitVec 8) : Bool :=
  level = 2 || (level = 1 && (code = causePage || code = causePriv || code = causeSysc))

/-- The bank that a trap enters, and the entry address of its level. -/
def enteredBank (s : State) (id : CtxId) (code : BitVec 8) : Bank :=
  if hyperTrap (s.ctx id).level code then (s.ctx id).hbank else (s.ctx id).kbank
def trapEntry (s : State) (id : CtxId) (code : BitVec 8) : Word :=
  if hyperTrap (s.ctx id).level code then (s.core id.core).tvecH else (s.core id.core).tvecK

end Sys2Proof.Claims

/-- Taking a trap (04 R118; 14 R418): cause, address and value are saved in the bank of the level it goes to, with the old level and tnest set; the loop is
saved and made inactive; the level becomes that of the bank (a steward's stays 3); the context fetches at that level's entry address. A gang that the context
leads is disbanded first (08 R268): the context leads none, and no core of a member follows any more. No scalar register, flag or anything else changes. -/
def Sys2Proof.Claims.TrapTaken : Prop :=
  ∀ (s : State) (id : CtxId) (code : BitVec 8) (a : Bool) (epc tval : Word),
    let c := s.ctx id
    let b : Bank := { code := code, async := a, epc := epc, tval := tval, plevel := c.level, tnest := true }
    let hy := hyperTrap c.level code
    let d : Ctx := { c with
      kbank := if hy then c.kbank else b, hbank := if hy then b else c.hbank, savedLoop := c.loop, loop := { c.loop with active := false },
      level := if c.level = 3 then 3 else if hy then 2 else 1, pc := trapEntry s id code, phase := .run, waited := 0 }
    (enteredBank s id code).tnest = false → trapEntry s id code ≠ 0 →
      (c.gang = none → s.takeTrap id code a epc tval = s.setCtx id d) ∧
      (∀ g, c.gang = some g →
        let t := s.takeTrap id code a epc tval
        t = { s with ctxs := t.ctxs, cores := t.cores } ∧ t.ctx id = { d with gang := none } ∧ (∀ x, x ≠ id → t.ctx x = s.ctx x) ∧
        ∀ k, t.core k = if k ∈ g.members.map (fun m => m.core .ac) then { s.core k with follows := none } else s.core k)

/-- A trap whose bank has tnest set, or whose level has no entry address, is a double trap (04 R119; 14 R419; 18 R512): the context stops with its state as
it was, and the partition's error log takes a record of it. -/
def Sys2Proof.Claims.DoubleTrap : Prop :=
  ∀ (s : State) (id : CtxId) (code : BitVec 8) (a : Bool) (epc tval : Word), (enteredBank s id code).tnest = true ∨ trapEntry s id code = 0 →
    let t := s.takeTrap id code a epc tval
    t.ctx id = { s.ctx id with phase := .dead } ∧ (∀ x, x ≠ id → t.ctx x = s.ctx x) ∧ t = { s with ctxs := t.ctxs, parts := t.parts } ∧
    ∀ p, s.parts.get? (s.partOf id.core) = some p →
      t.parts.get? (s.partOf id.core) = some { p with errors := p.errors ++ [.doubleTrap id (enteredBank s id code).epc code] }

/-- Taking a trap (04 R118; 14 R418): cause, address and value are saved in the bank of the level it goes to, with the old level and tnest set; the loop is
saved and made inactive; the level becomes that of the bank (a steward's stays 3); the context fetches at that level's entry address. A gang that the context
leads is disbanded first (08 R268): the context leads none, and no core of a member follows any more. No scalar register, flag or anything else changes. A
trap whose bank has tnest set, or whose level has no entry address, is a double trap (04 R119; 14 R419; 18 R512): the context stops with its state as it was,
and the partition's error log takes a record of it. -/
def Obligations.TrapsTaken : Prop :=
  Claims.TrapTaken ∧ Claims.DoubleTrap

/-- The tests that follow decoding (02 R60 to R64), in their order: a masked feature traps MASKED with the feature's number below the unit's first 32
bits, a role that may not run the unit traps ROLE, a level too low traps PRIV; in each the unit has no other effect. -/
def Sys2Proof.Claims.DecodeTests : Prop :=
  ∀ (f : Form) (s : State) (k : State → State),
    let masked := f.feats.find? fun n => decide (s.here.level.toNat < 2) && (s.here.task.elim 0 Task.prof).getLsbD n
    (∀ n, masked = some n → unit f s k = .next ((start s).trap causeMasked ((f.bits <<< 32) ||| BitVec.ofNat 64 n))) ∧
    (masked = none → s.cur.core.r ∉ f.roles → unit f s k = .next ((start s).trap causeRole f.bits)) ∧
    (masked = none → s.cur.core.r ∈ f.roles → s.here.level.toNat < f.level → unit f s k = .next ((start s).trap causePriv f.bits)) ∧
    (Passes s f.roles f.level f.feats → unit f s k = .next (k (start s)))

/-- The units whose effect is a trap (04 R137; 02 R40, R56 to R61; 07 R232): brk, trap and sysc from every role and level, a word that is no unit, a fetch
where nothing is held. The trap's address is the unit's own (02 R42). -/
def Sys2Proof.Claims.TrappingUnits : Prop :=
  ∀ (a : BitVec 5) (bits addr : Word) (s : State),
    let at_ (code : BitVec 8) (tval : Word) : State := { (start s).takeTrap s.cur code false s.here.pc tval with trapped := some code }
    exec .brk s = .next (at_ causeBrk 0) ∧ exec .compactBrk s = .next (at_ causeBrk 0) ∧
    exec (.trap a) s = .next (at_ causeTrap (s.here.reg a)) ∧ exec (.sysc a) s = .next (at_ causeSysc (s.here.reg a)) ∧
    (stqElsewhere bits = false → exec (.illegal bits) s = .next (at_ causeIllegal bits)) ∧
    (stqElsewhere bits = true → exec (.illegal bits) s = .next (at_ causeRole bits)) ∧
    exec (.fetchProt addr) s = .next (at_ causeProt addr)

/-- The tests that follow decoding (02 R60 to R64), in their order: a masked feature traps MASKED with the feature's number below the unit's first 32 bits, a
role that may not run the unit traps ROLE, a level too low traps PRIV; in each the unit has no other effect. The units whose effect is a trap (04 R137; 02
R40, R56 to R61; 07 R232): brk, trap and sysc from every role and level, a word that is no unit, a fetch where nothing is held. The trap's address is the
unit's own (02 R42). -/
def Obligations.DecodeTestsAndTraps : Prop :=
  Claims.DecodeTests ∧ Claims.TrappingUnits

/-- eret (04 R121; 14 R418, R421): below kernel level it traps PRIV; in a kernel notice it ends the task; a plevel above the level traps PRIV; else the level
becomes plevel (a steward's stays 3), tnest clears, the loop that the trap saved comes back, and the context goes on at cw.epc. Where the trap, a LONG kind 4,
found a unit in progress (16 R446), the eret to its address goes on with that unit and the number it took, and one to elsewhere from the last handler leaves it
behind (DEDUCED, log 80). -/
def Obligations.EretReturns : Prop :=
  ∀ s : State,
    let c := s.here
    let b := if c.level = 2 then c.hbank else c.kbank
    let d : Ctx := { c with
      kbank := if c.level = 2 then c.kbank else { b with tnest := false }, hbank := if c.level = 2 then { b with tnest := false } else c.hbank,
      loop := if b.tnest then c.savedLoop else { c.loop with active := false }, level := if c.level = 3 then 3 else b.plevel }
    (c.level = 0 → exec .eret s = .next ((start s).trap causePriv formEret.bits)) ∧
    (c.level ≠ 0 → c.isNotice = true → exec .eret s = .next ((start s).endIn s.cur true)) ∧
    (c.level ≠ 0 → c.isNotice = false → c.level < b.plevel → exec .eret s = .next ((start s).trap causePriv 0)) ∧
    (c.level ≠ 0 → c.isNotice = false → b.plevel ≤ c.level →
      let e := d.jump b.epc
      (c.under = none → exec .eret s = .next ((start s).setCtx s.cur e)) ∧
      (∀ u, c.under = some u →
        (e.pc = u.pc → exec .eret s = .next ((start s).setCtx s.cur { e with phase := u.phase, took := u.took, under := none })) ∧
        (e.pc ≠ u.pc → e.kbank.tnest = false → e.hbank.tnest = false → exec .eret s = .next ((start s).setCtx s.cur { e with under := none })) ∧
        (e.pc ≠ u.pc → e.kbank.tnest = true ∨ e.hbank.tnest = true → exec .eret s = .next ((start s).setCtx s.cur e))))

/-! ### Control words -/

namespace Sys2Proof.Claims

open Sys2Proof.Machine

/-- The roles that have a control word, and the levels that read and write it (02 Table 2.14). -/
def wordRoles (n : BitVec 12) : List Role := if n = 0x010 ∨ n = 0x011 ∨ n = 0x012 ∨ n = 0x013 then [.ac] else [.mc, .fc, .ac, .steward]
def readLevel (n : BitVec 12) : Nat :=
  if n = 0x001 ∨ n = 0x002 ∨ n = 0x003 ∨ n = 0x004 ∨ n = 0x030 ∨ n = 0x032 then 1 else 0
def writeLevel (n : BitVec 12) : Nat :=
  if n = 0x031 then 2
  else if n = 0x005 ∨ n = 0x010 ∨ n = 0x011 ∨ n = 0x012 ∨ n = 0x013 ∨ n = 0x014 ∨ n = 0x015 then 0 else 1

/-- What a core reads as a control word other than cw.status and cw.ticket (04 Tables 4.1, 4.3, 4.4; R113, R114). A die steward reads cw.mode, cw.lt and cw.ptag
as 0 (02 R521). -/
def wordRead (s : State) (n : BitVec 12) : Option Word :=
  let c := s.here
  let k := s.core s.cur.core
  let b := if c.level = 2 then c.hbank else c.kbank
  let ste := s.cur.core.r = .steward
  match n.toNat with
  | 0x001 => some (b.code.setWidth 64 + if b.async then 256 else 0)
  | 0x002 => some b.epc
  | 0x003 => some b.tval
  | 0x004 => some (if c.level = 2 then k.tvecH else k.tvecK)
  | 0x005 => some c.uvec
  | 0x010 => some (c.fmta.setWidth 64)
  | 0x011 => some (c.fmtb.setWidth 64)
  | 0x012 => some (c.scla.setWidth 64)
  | 0x013 => some (c.sclb.setWidth 64)
  | 0x014 => some (c.round.setWidth 64)
  | 0x015 => some c.seed
  | 0x016 => some (if ¬ste ∧ k.free then 1 else 0)
  | 0x020 => some (if ste then 0 else BitVec.ofNat 64 s.cur.core.t)
  | 0x021 => some (match s.cur.core.r with | .mc => 0 | .fc => 1 | .ac => 2 | .steward => 3)
  | 0x030 => some (if ste then 0 else k.ptag.setWidth 64)
  | 0x031 => some (k.prof.setWidth 64)
  | 0x032 => some ((s.power (s.groupOf s.cur.core)).limit.setWidth 64)
  | 0x033 => some (k.wdog.setWidth 64)
  | _ => none

/-- The bits of a written word that a control word keeps (04 Table 4.4). -/
def kept (n : BitVec 12) (a : Word) : Option Word :=
  match n.toNat with
  | 0x002 => some (a &&& ~~~1)
  | 0x003 => some a
  | 0x004 => some (a &&& ~~~0x3F)
  | 0x005 => some (a &&& ~~~0x3F)
  | 0x010 => some (a &&& 0x1F)
  | 0x011 => some (a &&& 0x1F)
  | 0x012 => some (a &&& 0xFFFFF)
  | 0x013 => some (a &&& 0xFFFFF)
  | 0x014 => some (a &&& 3)
  | 0x015 => some a
  | 0x016 => some (a &&& 1)
  | 0x030 => some (a &&& 0xFF)
  | 0x031 => some (a &&& 0xFE)
  | 0x032 => some (a &&& 0xFFFF)
  | 0x033 => some (if (a &&& 0xFFFFFFFF).toNat < 1024 then 1024 else a &&& 0xFFFFFFFF)
  | _ => none

end Sys2Proof.Claims

/-- cwr (04 R113 to R117, R138; 02 Table 2.14, R521): D takes the control word, cw.ticket as 0 on a die steward; below its read level, or on a role that lacks it,
the unit traps. -/
def Sys2Proof.Claims.ControlWordReads : Prop :=
  ∀ (h : BitVec 1) (n : BitVec 12) (d : BitVec 5) (s : State),
    (s.cur.core.r ∉ wordRoles n → exec (.cwr h n d) s = .next ((start s).trap causeRole (formCwr h n d).bits)) ∧
    (s.cur.core.r ∈ wordRoles n → s.here.level.toNat < readLevel n → exec (.cwr h n d) s = .next ((start s).trap causePriv (formCwr h n d).bits)) ∧
    (s.cur.core.r ∈ wordRoles n → readLevel n ≤ s.here.level.toNat →
      ∃ v, exec (.cwr h n d) s = .next ((start s).finishReg 4 d v) ∧
        (∀ w, wordRead s n = some w → v = w) ∧
        (n = 0x022 → v = if s.cur.core.r = .steward then 0 else s.here.ticket.extractLsb' (64 * h.toNat) 64) ∧
        (n = 0x000 →
          let b := if s.here.level = 2 then s.here.hbank else s.here.kbank
          v.extractLsb' 0 5 = s.here.flags ∧ v.extractLsb' 5 3 = 0 ∧ v.extractLsb' 8 2 = s.here.level ∧ v.extractLsb' 10 2 = b.plevel ∧
          v.getLsbD 12 = false ∧ v.getLsbD 13 = b.tnest ∧ v.getLsbD 14 = s.here.uim ∧ v.getLsbD 15 = s.here.uih ∧
          v.getLsbD 16 = s.here.loop.active ∧ v.getLsbD 17 = s.inGang s.cur.core ∧ v.extractLsb' 18 46 = 0))

/-- cww (04 R114 to R117, R138; 02 Table 2.14, R521): below the write level, or on a role that lacks the word, it traps; else it completes. A word that is
written and then read gives back the bits that Table 4.4 keeps, on a die steward 0 for cw.mode and cw.ptag, which keep nothing there; cw.status takes plevel
alone, cw.cause its code and async; a register, a flag, a memory and every other context stay as they were. -/
def Sys2Proof.Claims.ControlWordWrites : Prop :=
  ∀ (n : BitVec 12) (a : BitVec 5) (s : State),
    (s.cur.core.r ∉ wordRoles n → exec (.cww n a) s = .next ((start s).trap causeRole (formCww n a).bits)) ∧
    (s.cur.core.r ∈ wordRoles n → s.here.level.toNat < writeLevel n → exec (.cww n a) s = .next ((start s).trap causePriv (formCww n a).bits)) ∧
    (s.cur.core.r ∈ wordRoles n → writeLevel n ≤ s.here.level.toNat →
      ∃ t, exec (.cww n a) s = .next t ∧
        (∀ w, kept n (s.here.reg a) = some w → wordRead t n = some (if s.cur.core.r = .steward ∧ (n = 0x016 ∨ n = 0x030) then 0 else w)) ∧
        (s.cur.core.r = .steward → n = 0x016 ∨ n = 0x030 → t.core s.cur.core = s.core s.cur.core) ∧
        t = { s with ctxs := t.ctxs, cores := t.cores, groups := t.groups, trapped := none } ∧ (∀ id, id ≠ s.cur → t.ctx id = s.ctx id) ∧
        (∀ c, c ≠ s.cur.core → t.core c = s.core c) ∧ (∀ r, t.here.reg r = s.here.reg r) ∧ t.here.flags = s.here.flags ∧ t.here.level = s.here.level ∧
        (n = 0x000 → t.here.bank = { s.here.bank with plevel := (s.here.reg a).extractLsb' 10 2 }) ∧
        (n = 0x001 → t.here.bank = { s.here.bank with code := (s.here.reg a).extractLsb' 0 8, async := (s.here.reg a).getLsbD 8 }))

/-- cwr (04 R113 to R117, R138; 02 Table 2.14, R521): D takes the control word, cw.ticket as 0 on a die steward; below its read level, or on a role that lacks
it, the unit traps. cww (04 R114 to R117, R138; 02 Table 2.14, R521): below the write level, or on a role that lacks the word, it traps; else it completes. A
word that is written and then read gives back the bits that Table 4.4 keeps, on a die steward 0 for cw.mode and cw.ptag, which keep nothing there; cw.status
takes plevel alone, cw.cause its code and async; a register, a flag, a memory and every other context stay as they were. -/
def Obligations.ControlWords : Prop :=
  Claims.ControlWordReads ∧ Claims.ControlWordWrites

/-- nop does nothing but complete (04 R137; 02 R58). -/
def Sys2Proof.Claims.NopCompletes : Prop :=
  ∀ s : State, exec .nop s = .next ((start s).setCtx s.cur (goneOn s.here 4)) ∧ exec .compactNop s = .next ((start s).setCtx s.cur (goneOn s.here 2))

/-- Branches and jmp (04 R132, R133): to the unit's own address plus the offset when the condition holds, else to the next unit; nothing else changes. jal, jr
and rep (04 R133 to R135): the link register takes the next address (inside a user-interrupt handler jal's goes to h7 as every write of s31 does, DESIGN
CHOICE, log 68); an odd target of jr traps ALIGN with no register written; rep with a count starts its loop, and with 0 skips the body. nop does nothing but
complete (04 R137; 02 R58). -/
def Obligations.ControlTransfer : Prop :=
  Claims.Branches ∧ Claims.JumpsWithLink ∧ Claims.NopCompletes

/-! ### Locating and memory -/

/-- locate (07 R216): the tests in their order, with what each gives; align is the access's alignment, its size for loads, stores and atomics. -/
def Sys2Proof.Claims.Locating : Prop :=
  ∀ (s : State) (g : Nat) (off : Word) (size align : Nat) (rd wr : Bool),
    let sg := s.here.seg g
    let n := (sg.limit.extractLsb' 0 49).toNat
    let glob := sg.limit.getLsbD 61
    let place : Word := if glob then sg.base + off else BitVec.ofNat 64 (sg.base.toNat + off.toNat)
    let last := place + BitVec.ofNat 64 (size - 1)
    let beyond (x : Word) : Prop := (0x110000000000 ≤ x.toNat ∧ x.toNat < 0x200000000000) ∨ (x.toNat / 2 ^ 40 = 0x10 ∧ s.gridSize s.cur.core.l ≤ x.toNat / 2 ^ 20 % 2 ^ 20)
    let inside := size ≤ n ∧ off.toNat ≤ n - size
    let rights := (rd = true → sg.limit.getLsbD 62 = true) ∧ (wr = true → sg.limit.getLsbD 63 = true)
    (¬inside → s.locate g off size align rd wr = .error (causeSeglim, off)) ∧
    (inside → ¬rights → s.locate g off size align rd wr = .error (causeRights, off)) ∧
    (inside → rights → place.toNat % align ≠ 0 → s.locate g off size align rd wr = .error (causeAlign, place)) ∧
    (inside → rights → place.toNat % align = 0 → glob = true → beyond place ∨ beyond last → s.locate g off size align rd wr = .error (causeProt, place)) ∧
    (inside → rights → place.toNat % align = 0 → glob = true → ¬(beyond place ∨ beyond last) → s.locate g off size align rd wr = .ok (.global place)) ∧
    (inside → rights → place.toNat % align = 0 → glob = false → s.locate g off size align rd wr = .ok (.pad (sg.base.toNat + off.toNat)))

/-- Where an access is performed (07 R217; 01 R32, R34): a local place and the window of the own tile at the own home, the window of another tile there, any
other address through translation. -/
def Sys2Proof.Claims.WherePerformed : Prop :=
  ∀ (s : State) (a : Word) (off n : Nat), 0 < n → n ≤ 8 → a.toNat % n = 0 → 2 ^ 20 % n = 0 →
    let tile := a.toNat / 2 ^ 20 % 2 ^ 20
    let inWin := a.toNat / 2 ^ 40 = 0x10
    s.pieces s.cur.core (.pad off) n = [.own off n 0] ∧
    (inWin → tile = s.cur.core.t → s.pieces s.cur.core (.global a) n = [.own (a.toNat % 2 ^ 20) n 0]) ∧
    (inWin → tile ≠ s.cur.core.t → s.pieces s.cur.core (.global a) n = [.tile ⟨s.cur.core.l, tile⟩ (a.toNat % 2 ^ 20) n 0]) ∧
    (¬inWin → s.pieces s.cur.core (.global a) n = [.xlat a n 0])

/-- locate (07 R216): the tests in their order, with what each gives; align is the access's alignment, its size for loads, stores and atomics. Where an access
is performed (07 R217; 01 R32, R34): a local place and the window of the own tile at the own home, the window of another tile there, any other address through
translation. -/
def Obligations.WhereAccessesGo : Prop :=
  Claims.Locating ∧ Claims.WherePerformed

namespace Sys2Proof.Claims

open Sys2Proof.Machine

/-- A load (07 R231; 02 Table 2.11; 11 R348): its form, the segment, its offset, its bytes, whether it extends the sign, D, and the scope of an ld.acq. -/
def loadOf (c : Ctx) : Instr → Option (Form × Nat × Word × Nat × Bool × BitVec 5 × Option (BitVec 2))
  | .ldBZ g o a d => some (formLdBZ g o a d, g.toNat, c.reg a + o.signExtend 64, 1, false, d, none)
  | .ldBS g o a d => some (formLdBS g o a d, g.toNat, c.reg a + o.signExtend 64, 1, true, d, none)
  | .ldHZ g o a d => some (formLdHZ g o a d, g.toNat, c.reg a + o.signExtend 64 * 2, 2, false, d, none)
  | .ldHS g o a d => some (formLdHS g o a d, g.toNat, c.reg a + o.signExtend 64 * 2, 2, true, d, none)
  | .ldWZ g o a d => some (formLdWZ g o a d, g.toNat, c.reg a + o.signExtend 64 * 4, 4, false, d, none)
  | .ldWS g o a d => some (formLdWS g o a d, g.toNat, c.reg a + o.signExtend 64 * 4, 4, true, d, none)
  | .ldD g o a d => some (formLdD g o a d, g.toNat, c.reg a + o.signExtend 64 * 8, 8, false, d, none)
  | .compactLdD x d => some (formCompactLdD x d, 0, c.reg x, 8, false, d, none)
  | .ldAcq g x o a d => some (formLdAcq g x o a d, g.toNat, c.reg a + o.signExtend 64 * 8, 8, false, d, some x)
  | _ => none

/-- A store (07 R231, R237; 02 Table 2.11; 11 R347): its form, the segment, its offset, its bytes, the value, what it does to the word's full/empty bit, and the
scope of a st.rel. -/
def storeOf (c : Ctx) : Instr → Option (Form × Nat × Word × Nat × Word × FE × Option (BitVec 2))
  | .stB g o a d => some (formStB g o a d, g.toNat, c.reg a + o.signExtend 64, 1, c.reg d, .keep, none)
  | .stH g o a d => some (formStH g o a d, g.toNat, c.reg a + o.signExtend 64 * 2, 2, c.reg d, .keep, none)
  | .stW g o a d => some (formStW g o a d, g.toNat, c.reg a + o.signExtend 64 * 4, 4, c.reg d, .keep, none)
  | .stD g o a d => some (formStD g o a d, g.toNat, c.reg a + o.signExtend 64 * 8, 8, c.reg d, .keep, none)
  | .compactStD x d => some (formCompactStD x d, 0, c.reg x, 8, c.reg d, .keep, none)
  | .stfull g o a d => some (formStfull g o a d, g.toNat, c.reg a + o.signExtend 64 * 8, 8, c.reg d, .full, none)
  | .stRel g x o a d => some (formStRel g x o a d, g.toNat, c.reg a + o.signExtend 64 * 8, 8, c.reg d, .keep, some x)
  | _ => none

/-- The own tile grants a right on every line of a range, and for a write none of them is in a slot of an enabled ring (07 R212, 10 R288). -/
def Granted (s : State) (rights : List Right) (write : Bool) (off n : Nat) : Prop := (s.tile s.cur.core.tile).deniedLine rights write off n = none

/-- The unit's own tile is the home of its n bytes, at offset o, and nothing that came before it is still on its way there. -/
def AtOwnHome (s : State) (w : Where) (o n : Nat) : Prop := s.pieces s.cur.core w n = [.own o n 0] ∧ s.ownPending s.cur.core = false

/-- An effect of the unit is applied at its own home at once (12 R363): the home holds nothing before it, and where the unit takes a sequence number, its
tile task is not voided, its key is new to the home, and in ordered mode the front has reached the tile task. The tile's memory is in its canonical form,
which every step keeps. -/
def AtOnce (s : State) : Prop :=
  (s.tile s.cur.core.tile).mem.wf = true ∧ (s.home (.tile s.cur.core.tile)).held = [] ∧
  ∃ key s', s.takeSeq = some (key, s') ∧ ∀ k, key = some k →
    s'.isVoided k.tt = false ∧ (∀ x ∈ (s.home (.tile s.cur.core.tile)).applied, x.1 ≠ k) ∧ (s.hereCore.free = true ∨ s'.reached (.tile s.cur.core.tile) k.tt = true)

/-- Acts took place at the own home and the unit went on with context c: the tile's bytes and full/empty bits are those the acts leave; of every other
context, core and tile nothing moved; beside them a sequence number was taken, the key recorded as applied, and loads of words now full answered. -/
def Performed (s t : State) (acts : List Act) (c : Ctx) : Prop :=
  let me := s.cur.core.tile
  let m := acts.foldl (fun m a => (a.run m).1) (s.cells (.tile me))
  t = { s with ctxs := t.ctxs, tiles := t.tiles, tts := t.tts, homes := t.homes, net := t.net, fresh := t.fresh, trapped := none } ∧
  t.here = { c with redo := t.here.redo } ∧ (∀ id, id ≠ s.cur → t.ctx id = s.ctx id) ∧
  t.tile me = { s.tile me with mem := m.mem, full := m.full } ∧ (∀ x, x ≠ me → t.tile x = s.tile x) ∧
  (∀ h, h ≠ .tile me → t.home h = s.home h)

end Sys2Proof.Claims

/-- A load whose bytes are at its own tile (07 R217, R221, R231; 11 R348): D takes the bytes as the task sees them, little-endian, extended; nothing else
changes, and no byte of memory does. -/
def Obligations.LoadsAtHome : Prop :=
  ∀ (i : Instr) (s : State) (f : Form) (g : Nat) (off : Word) (n : Nat) (sx : Bool) (d : BitVec 5) (x : Option (BitVec 2)) (w : Where) (o : Nat),
    loadOf s.here i = some (f, g, off, n, sx, d, x) → Passes s [.mc] 0 [] →
    s.locate g off n n true false = .ok w → AtOwnHome s w o n → Granted s [.lr] false o n →
      let v := bytesToNat ((start s).readHome (.tile s.cur.core.tile) (start s).me o n)
      exec i s = .next ((start s).finishReg f.len d (if sx then (BitVec.ofNat (8 * n) v).signExtend 64 else BitVec.ofNat 64 v))

/-- A denied or misplaced load or store traps with nothing read or written (07 R212, R216, R218; 00 R14): what locate gives, else PROT with the address of the
first denied line. -/
def Sys2Proof.Claims.PlainAccessesDenied : Prop :=
  ∀ (i : Instr) (s : State) (g : Nat) (off : Word) (n : Nat) (w : Where) (o : Nat), Passes s [.mc] 0 [] →
    (∀ f sx d x, loadOf s.here i = some (f, g, off, n, sx, d, x) →
      (∀ e, s.locate g off n n true false = .error e → exec i s = .next ((start s).trap e.1 e.2)) ∧
      (s.locate g off n n true false = .ok w → AtOwnHome s w o n → ¬Granted s [.lr] false o n → exec i s = .next ((start s).trap causeProt w.addr))) ∧
    (∀ f v fe x, storeOf s.here i = some (f, g, off, n, v, fe, x) →
      (∀ e, s.locate g off n n false true = .error e → exec i s = .next ((start s).trap e.1 e.2)) ∧
      (s.locate g off n n false true = .ok w → AtOwnHome s w o n → ¬Granted s [.lw] true o n → exec i s = .next ((start s).trap causeProt w.addr)))

/-- stempty and ldsync likewise (07 R212, R237), and stq, which names the first denied line of its access (07 R523) once its entries are there. -/
def Sys2Proof.Claims.WordAndQueueAccessesDenied : Prop :=
  ∀ (s : State) (g : BitVec 4) (e : BitVec 7) (a d : BitVec 5) (w : Where) (o : Nat), Passes s [.mc] 0 [] →
    let off := s.here.reg a + e.signExtend 64 * 8
    (∀ x, s.locate g.toNat off 8 8 false true = .error x → exec (.stempty g e a) s = .next ((start s).trap x.1 x.2)) ∧
    (s.locate g.toNat off 8 8 false true = .ok w → AtOwnHome s w o 8 → ¬Granted s [.lw] true o 8 →
      exec (.stempty g e a) s = .next ((start s).trap causeProt w.addr)) ∧
    (∀ x, s.locate g.toNat off 8 8 true false = .error x → exec (.ldsync g e a d) s = .next ((start s).trap x.1 x.2)) ∧
    (s.locate g.toNat off 8 8 true false = .ok w → AtOwnHome s w o 8 → ¬Granted s [.lr] false o 8 →
      exec (.ldsync g e a d) s = .next ((start s).trap causeProt w.addr)) ∧
    (∀ n : BitVec 6, 1 ≤ n.toNat → n.toNat ≤ 16 → s.popping s.cur 5 = false → ((s.tile s.cur.core.tile).queue 5).has s.uid n.toNat = true →
      (∀ x, s.locate g.toNat (s.here.reg d) (64 * n.toNat) 64 false true = .error x → exec (.stq g n d) s = .next ((start s).trap x.1 x.2)) ∧
      (∀ l, s.locate g.toNat (s.here.reg d) (64 * n.toNat) 64 false true = .ok w → AtOwnHome s w o (64 * n.toNat) →
        (s.tile s.cur.core.tile).deniedLine [.lw] true o (64 * n.toNat) = some l →
        exec (.stq g n d) s = .next ((start s).trap causeProt (w.addr + BitVec.ofNat 64 (64 * l - o)))))

/-- A store whose bytes are at its own tile and which is applied at once (07 R219, R224, R231, R237; 11 R347; 12 R363): the low n bytes of the value stand at
the address, little-endian; every other byte of the device, every register and every flag is as before; stfull sets the word full, stempty empty with
its data unchanged. A st.rel is one whose scope holds no unacknowledged write. -/
def Obligations.StoresAtHome : Prop :=
  ∀ (s : State) (w : Where) (o : Nat), Passes s [.mc] 0 [] → AtOnce s →
    (∀ i f g off n v fe x, storeOf s.here i = some (f, g, off, n, v, fe, x) → s.locate g off n n false true = .ok w → AtOwnHome s w o n →
      Granted s [.lw] true o n → (∀ c, x = some c → s.unacked (s.scopeSet c) = 0 ∧ (c = 3 → s.hostLinks = [])) →
        ∃ t, exec i s = .next t ∧ Performed s t [.write o (natToBytes n v.toNat) fe] (goneOn s.here f.len) ∧
          (∀ a, (t.tile s.cur.core.tile).mem.get a =
            if o ≤ a ∧ a < o + n then (v >>> (8 * (a - o))).setWidth 8 else (s.tile s.cur.core.tile).mem.get a) ∧
          t.hbm = s.hbm ∧ t.host = s.host) ∧
    (∀ g e a, s.locate g.toNat (s.here.reg a + e.signExtend 64 * 8) 8 8 false true = .ok w → AtOwnHome s w o 8 → Granted s [.lw] true o 8 →
        ∃ t, exec (.stempty g e a) s = .next t ∧ Performed s t [.setEmpty o] (goneOn s.here 4) ∧
          (t.tile s.cur.core.tile).mem = (s.tile s.cur.core.tile).mem ∧ (t.tile s.cur.core.tile).full = (s.tile s.cur.core.tile).full.filter fun x => x ≠ o)

namespace Sys2Proof.Claims

open Sys2Proof.Machine

/-- An atomic (12 Tables 12.4, 12.5, R371 to R375): its form, segment, register of the offset, bytes, D if it answers, and from the old element (as a number)
the new one and the answer. -/
def atomicOf (c : Ctx) : Instr → Option (Form × BitVec 4 × BitVec 5 × Nat × Option (BitVec 5) × (Nat → Nat × Word))
  | .amoAdd g w b a d => some (formAmoAdd g w b a d, g, a, size w, some d, fun x => ((x + low w b) % 2 ^ (8 * size w), BitVec.ofNat 64 x))
  | .amoAnd g w b a d => some (formAmoAnd g w b a d, g, a, size w, some d, fun x => (x &&& low w b, BitVec.ofNat 64 x))
  | .amoOr g w b a d => some (formAmoOr g w b a d, g, a, size w, some d, fun x => (x ||| low w b, BitVec.ofNat 64 x))
  | .amoXor g w b a d => some (formAmoXor g w b a d, g, a, size w, some d, fun x => (x ^^^ low w b, BitVec.ofNat 64 x))
  | .amoMin g w b a d => some (formAmoMin g w b a d, g, a, size w, some d, fun x => (if sg w x ≤ sg w (low w b) then x else low w b, BitVec.ofNat 64 x))
  | .amoMax g w b a d => some (formAmoMax g w b a d, g, a, size w, some d, fun x => (if sg w x ≤ sg w (low w b) then low w b else x, BitVec.ofNat 64 x))
  | .amoMinn g w b a d => some (formAmoMinn g w b a d, g, a, size w, some d, fun x => (min x (low w b), BitVec.ofNat 64 x))
  | .amoMaxn g w b a d => some (formAmoMaxn g w b a d, g, a, size w, some d, fun x => (max x (low w b), BitVec.ofNat 64 x))
  | .amoSwap g w b a d => some (formAmoSwap g w b a d, g, a, size w, some d, fun x => (low w b, BitVec.ofNat 64 x))
  | .amoCas g w b a d => some (formAmoCas g w b a d, g, a, size w, some d, fun x => (if x = low w d then low w b else x, BitVec.ofNat 64 x))
  | .redInteger o g w b a => some (formRedInteger o g w b a, g, a, size w, none, fun x =>
      (match o.toNat with
       | 0 => (x + low w b) % 2 ^ (8 * size w)
       | 1 => x &&& low w b
       | 2 => x ||| low w b
       | 3 => x ^^^ low w b
       | 4 => if sg w x ≤ sg w (low w b) then x else low w b
       | 5 => if sg w x ≤ sg w (low w b) then low w b else x
       | 6 => min x (low w b)
       | _ => max x (low w b), 0))
  | .bfins g b a d => some (formBfins g b a d, g, a, 8, if d = 0 then none else some d, fun x =>
      (((BitVec.ofNat 64 x &&& ~~~mask b) ||| (c.reg b &&& mask b)).toNat, BitVec.ofNat 64 x))
  | .bffcs g b a d => some (formBffcs g b a d, g, a, 8, some d, fun x =>
      match (List.range 64).find? fun i => (c.reg b).getLsbD i && !(BitVec.ofNat 64 x).getLsbD i with
      | some i => ((BitVec.ofNat 64 x ||| (1 : Word) <<< i).toNat, BitVec.ofNat 64 i)
      | none => (x, 64))
  | .bfpls g b a d => if 64 < (mask b).toNat then none else some (formBfpls g b a d, g, a, 8, some d, fun x =>
      if ones (BitVec.ofNat 64 x ||| c.reg b) ≤ (mask b).toNat then ((BitVec.ofNat 64 x ||| c.reg b).toNat, BitVec.ofNat 64 (256 + ones (BitVec.ofNat 64 x ||| c.reg b)))
      else (x, BitVec.ofNat 64 (ones (BitVec.ofNat 64 x))))
  | _ => none
where
  size (w : BitVec 1) : Nat := if w = 1 then 8 else 4
  low (w : BitVec 1) (b : BitVec 5) : Nat := (c.reg b).toNat % 2 ^ (8 * size w)
  sg (w : BitVec 1) (x : Nat) : Int := (BitVec.ofNat (8 * size w) x).toInt
  mask (b : BitVec 5) : Word := c.reg (BitVec.ofNat 5 (b.toNat + 1))
  ones (x : Word) : Nat := ((List.range 64).filter fun i => x.getLsbD i).length

/-- A float atomic (12 R374): its form, segment, register of the offset, format, D if it answers, operation (0 add, 1 min, 2 max) and operand. -/
def floatAtomicOf (c : Ctx) : Instr → Option (Form × BitVec 4 × BitVec 5 × BitVec 1 × Option (BitVec 5) × Nat × Word)
  | .famoAdd g t b a d => some (formFamoAdd g t b a d, g, a, t, some d, 0, c.reg b)
  | .famoMin g t b a d => some (formFamoMin g t b a d, g, a, t, some d, 1, c.reg b)
  | .famoMax g t b a d => some (formFamoMax g t b a d, g, a, t, some d, 2, c.reg b)
  | .redFloat o g t b a => some (formRedFloat o g t b a, g, a, t, none, o.toNat, c.reg b)
  | _ => none

/-- An act on n bytes at an offset makes of the element what a function says, in any memory. -/
def Makes (act : Act) (o n : Nat) (r : Nat → Nat × Word) : Prop :=
  ∀ c : Cells, c.mem.wf = true → bytesToNat ((act.run c).1.mem.read o n) = (r (bytesToNat (c.mem.read o n))).1

/-- The running context became c, with one access on its way to be translated; no number is taken, no write is out, and no byte of memory and no home moved. -/
def WalkSent (s t : State) (c : Ctx) (acc : Access) : Prop :=
  t.here = c ∧ (∀ id, id ≠ s.cur → t.ctx id = s.ctx id) ∧
  (∃ y, t.net = s.net ++ [y] ∧ y.pkt = .walk acc (pagePieces acc.va acc.len (acc.len / 4096 + 2)) [] ∧ y.st = .transit) ∧
  t.tiles = s.tiles ∧ t.homes = s.homes ∧ t.tts = s.tts ∧ t.posted = s.posted ∧ t.hbm = s.hbm ∧ t.host = s.host

end Sys2Proof.Claims

/-- An atomic at the own home, applied at once (12 R370 to R375): D takes the old element, or the answer of its bit-field form; the element alone changes,
to what its table row gives; no other byte of the device, register or flag does. -/
def Sys2Proof.Claims.AtomicsAtHome : Prop :=
  ∀ (i : Instr) (s : State) (f : Form) (g : BitVec 4) (a : BitVec 5) (n : Nat) (d : Option (BitVec 5)) (r : Nat → Nat × Word) (w : Where) (o : Nat),
    atomicOf s.here i = some (f, g, a, n, d, r) → Passes s [.mc] 0 [] → AtOnce s →
    s.locate g.toNat (s.here.reg a) n n true true = .ok w → AtOwnHome s w o n → Granted s [.lr, .lw] true o n →
      let m := (s.tile s.cur.core.tile).mem
      let old := bytesToNat (m.read o n)
      ∃ t acts, exec i s = .next t ∧
        Performed s t acts (match d with | some d => (s.here.setReg d (r old).2).complete s.here.level (s.here.pc + BitVec.ofNat 64 f.len) | none => goneOn s.here f.len) ∧
        bytesToNat ((t.tile s.cur.core.tile).mem.read o n) = (r old).1 ∧
        (∀ x, x < o ∨ o + n ≤ x → (t.tile s.cur.core.tile).mem.get x = m.get x) ∧
        (t.tile s.cur.core.tile).full = (s.tile s.cur.core.tile).full ∧ t.hbm = s.hbm ∧ t.host = s.host

/-- A float atomic at the own home, applied at once (12 R374; 03 R85 to R88): D takes the old element; the element becomes the sum rounded to nearest even,
or the lesser or greater; at user level the flags of the sum are or-ed into the task's (04 R120); no other byte, register or flag
changes. -/
def Sys2Proof.Claims.FloatAtomicsAtHome : Prop :=
  ∀ (i : Instr) (s : State) (f : Form) (g : BitVec 4) (a : BitVec 5) (ty : BitVec 1) (d : Option (BitVec 5)) (op : Nat) (b : Word) (w : Where) (o : Nat),
    floatAtomicOf s.here i = some (f, g, a, ty, d, op, b) → Passes s [.mc] 0 [] → AtOnce s →
    let n := if ty = 1 then 2 else 4
    let ft := if ty = 1 then fmtBf16 else fmtF32
    s.locate g.toNat (s.here.reg a) n n true true = .ok w → AtOwnHome s w o n → Granted s [.lr, .lw] true o n →
    s.cur.c < 4 → s.here.task ≠ none → (∀ j, j < 4 → j ≠ s.cur.c → ((s.ctx ⟨s.cur.core, j⟩).task.map Task.uid) ≠ some s.uid) →
      let m := (s.tile s.cur.core.tile).mem
      let old := bytesToNat (m.read o n)
      let x := ft.decode old
      let y := ft.decode (b.toNat % 2 ^ (8 * n))
      let r : Nat × Flags := if op = 0 then roundTo ft (exactOf (addVal x y)) 1 0
        else if op = 1 then ((roundTo ft (minVal x y).exact 1 0).1, 0) else ((roundTo ft (maxVal x y).exact 1 0).1, 0)
      ∃ t acts, exec i s = .next t ∧
        (let c := { s.here with flags := if s.here.level = 0 then s.here.flags ||| r.2 else s.here.flags }
         Performed s t acts (match d with | some d => (c.setReg d (BitVec.ofNat 64 old)).complete c.level (c.pc + BitVec.ofNat 64 f.len) | none => goneOn c f.len)) ∧
        bytesToNat ((t.tile s.cur.core.tile).mem.read o n) = r.1 % 2 ^ (8 * n) ∧
        (∀ z, z < o ∨ o + n ≤ z → (t.tile s.cur.core.tile).mem.get z = m.get z) ∧ t.hbm = s.hbm ∧ t.host = s.host

/-- An atomic at the own home, applied at once (12 R370 to R375): D takes the old element, or the answer of its bit-field form; the element alone changes, to
what its table row gives; no other byte of the device, register or flag does. A float atomic at the own home, applied at once (12 R374; 03 R85 to R88): D
takes the old element; the element becomes the sum rounded to nearest even, or the lesser or greater; at user level the flags of the sum are or-ed into the
task's (04 R120); no other byte, register or flag changes. -/
def Obligations.Atomics : Prop :=
  Claims.AtomicsAtHome ∧ Claims.FloatAtomicsAtHome

/-- Atomics likewise (07 R212, 12 R370, R372 to R374): both rights are needed, and the element is neither read nor written. -/
def Sys2Proof.Claims.AtomicsDenied : Prop :=
  ∀ (i : Instr) (s : State) (f : Form) (g : BitVec 4) (a : BitVec 5) (n : Nat) (w : Where) (o : Nat), Passes s [.mc] 0 [] →
    ((∃ d r, atomicOf s.here i = some (f, g, a, n, d, r)) ∨
     (∃ ty d op b, floatAtomicOf s.here i = some (f, g, a, ty, d, op, b) ∧ n = if ty = 1 then 2 else 4)) →
    (∀ x, s.locate g.toNat (s.here.reg a) n n true true = .error x → exec i s = .next ((start s).trap x.1 x.2)) ∧
    (s.locate g.toNat (s.here.reg a) n n true true = .ok w → AtOwnHome s w o n → ¬Granted s [.lr, .lw] true o n →
      exec i s = .next ((start s).trap causeProt w.addr))

/-- A denied or misplaced load or store traps with nothing read or written (07 R212, R216, R218; 00 R14): what locate gives, else PROT with the address of the
first denied line. stempty and ldsync likewise (07 R212, R237), and stq, which names the first denied line of its access (07 R523) once its entries are there.
Atomics likewise (07 R212, 12 R370, R372 to R374): both rights are needed, and the element is neither read nor written. -/
def Obligations.LoadsAndStoresDenied : Prop :=
  Claims.PlainAccessesDenied ∧ Claims.WordAndQueueAccessesDenied ∧ Claims.AtomicsDenied

/-- Loads and stores at another tile (07 R217 to R219; 11 R335): the load is in progress with its read on the way; the store completes at issue, its write
on the way and among the unacknowledged. No byte of memory changes. -/
def Sys2Proof.Claims.LoadsAndStoresElsewhere : Prop :=
  ∀ (i : Instr) (s : State) (g : Nat) (off : Word) (n : Nat) (w : Where) (o : Nat) (tile : TileId),
    Passes s [.mc] 0 [] → s.pieces s.cur.core w n = [.tile tile o n 0] → s.permitted s.cur.core = true →
    (∀ f sx d, loadOf s.here i = some (f, g, off, n, sx, d, none) → s.locate g off n n true false = .ok w →
      ∃ t, exec i s = .next t ∧ t.here = { s.here with phase := .busy s.fresh 1 (List.replicate n 0) f.len false (.scalar d n sx) } ∧
        (∃ y, t.net = s.net ++ [y] ∧ y.pkt = .read (.tile tile o) n (start s).me s.fresh 0 .plain w.addr ∧ y.dst = some tile ∧ y.st = .transit) ∧
        t.homes = s.homes ∧ t.hbm = s.hbm ∧ t.host = s.host ∧ ∀ x, (t.tile x).mem = (s.tile x).mem) ∧
    (∀ f v fe, storeOf s.here i = some (f, g, off, n, v, fe, none) → s.locate g off n n false true = .ok w → (s.outstanding s.uid).length < 256 →
      s.takeSeq ≠ none →
      ∃ t, exec i s = .next t ∧ t.here = { goneOn s.here f.len with redo := t.here.redo } ∧
        (∃ y e, t.net = s.net ++ [y] ∧ y.pkt = .effect (.tile tile) e ∧ e.acts = [.write o (natToBytes n v.toNat) fe] ∧ y.dst = some tile ∧ y.st = .transit ∧
          t.posted = s.posted ++ [{ wid := s.fresh, by_ := (start s).me, home := .tile tile, addr := w.addr }] ∧ e.wid = some s.fresh) ∧
        t.homes = s.homes ∧ t.hbm = s.hbm ∧ t.host = s.host ∧ ∀ x, (t.tile x).mem = (s.tile x).mem)

/-- An atomic at another tile (12 R353, R371): a no-return form completes at issue, its effect on the way and among the unacknowledged; a returning one is in
progress for its answer, with the number that it took. The effect carries one act, which makes of the element what the row of its form says. No byte of memory
changes. -/
def Sys2Proof.Claims.AtomicsElsewhere : Prop :=
  ∀ (i : Instr) (s : State) (f : Form) (g : BitVec 4) (a : BitVec 5) (n : Nat) (d : Option (BitVec 5)) (r : Nat → Nat × Word) (w : Where) (o : Nat) (tile : TileId),
    atomicOf s.here i = some (f, g, a, n, d, r) → Passes s [.mc] 0 [] → s.takeSeq ≠ none →
    s.locate g.toNat (s.here.reg a) n n true true = .ok w → s.pieces s.cur.core w n = [.tile tile o n 0] → s.permitted s.cur.core = true →
    (d = none → (s.outstanding s.uid).length < 256) →
      ∃ t y e act, exec i s = .next t ∧ t.net = s.net ++ [y] ∧ y.pkt = .effect (.tile tile) e ∧ y.dst = some tile ∧ y.st = .transit ∧ e.acts = [act] ∧
        Makes act o n r ∧ t.homes = s.homes ∧ t.hbm = s.hbm ∧ t.host = s.host ∧ (∀ x, (t.tile x).mem = (s.tile x).mem) ∧
        (d = none → t.here = { goneOn s.here f.len with redo := t.here.redo } ∧ e.wid = some s.fresh ∧
          t.posted = s.posted ++ [{ wid := s.fresh, by_ := (start s).me, home := .tile tile, addr := w.addr }]) ∧
        (∀ x, d = some x → ∃ cont, (cont = .scalar x n false ∨ cont = .word x) ∧ e.reply = some s.fresh ∧ t.posted = s.posted ∧
          t.here = { s.here with phase := .busy s.fresh 1 (List.replicate 8 0) f.len false cont, redo := t.here.redo, took := t.here.took })

/-- Loads at a translated place (07 R217, R218; 14 R401, R402): in progress, with the access on its way to be translated. -/
def Sys2Proof.Claims.LoadsTranslated : Prop :=
  ∀ (i : Instr) (s : State) (f : Form) (g : Nat) (off : Word) (n : Nat) (sx : Bool) (d : BitVec 5) (w : Where) (a : Word),
    loadOf s.here i = some (f, g, off, n, sx, d, none) → Passes s [.mc] 0 [] →
    s.locate g off n n true false = .ok w → s.pieces s.cur.core w n = [.xlat a n 0] →
    (s.parts.get? s.hereCore.ptag = none → exec i s = .next ((start s).trap causeXpart (s.hereCore.ptag.setWidth 64))) ∧
    (s.parts.get? s.hereCore.ptag ≠ none →
      ∃ t, exec i s = .next t ∧ WalkSent s t { s.here with phase := .busy s.fresh 1 (List.replicate n 0) f.len false (.scalar d n sx) }
        { by_ := s.me, kind := .read, va := a, len := n, addr := a, device := false, then_ := .read s.fresh 0 .plain })

/-- Stores at a translated place (07 R219, R237; 14 R401, R402, R416): in progress until they are accepted, with the access and its write on the way to be
translated; the number is taken when they are accepted and not at issue (DEDUCED, log 5). With 256 writes unacknowledged they are held; stfull and stempty trap
PROT; so does a tag that names no partition, with XPART. -/
def Sys2Proof.Claims.StoresTranslated : Prop :=
  ∀ (i : Instr) (s : State) (f : Form) (g : Nat) (off : Word) (n : Nat) (v : Word) (fe : FE) (w : Where) (a : Word),
    Passes s [.mc] 0 [] → s.locate g off n n false true = .ok w → s.pieces s.cur.core w n = [.xlat a n 0] → s.takeSeq ≠ none →
    (storeOf s.here i = some (f, g, off, n, v, .keep, none) →
      (s.parts.get? s.hereCore.ptag = none → exec i s = .next ((start s).trap causeXpart (s.hereCore.ptag.setWidth 64))) ∧
      (s.parts.get? s.hereCore.ptag ≠ none → 256 ≤ (s.outstanding s.uid).length → exec i s = .next ((start s).setCtx s.cur { s.here with phase := .stall .retry })) ∧
      (s.parts.get? s.hereCore.ptag ≠ none → (s.outstanding s.uid).length < 256 →
        ∃ t, exec i s = .next t ∧ WalkSent s t { s.here with phase := .busy s.fresh 1 [] f.len false .none }
          { by_ := s.me, kind := .write, va := a, len := n, addr := a, device := false,
            then_ := .effect ((s.effectOf none 0 [.write 0 (natToBytes n v.toNat) .keep] a).answering s.fresh) })) ∧
    (storeOf s.here i = some (f, g, off, n, v, .full, none) → exec i s = .next ((start s).trap causeProt w.addr)) ∧
    (∀ x e y, i = .stempty x e y → g = x.toNat → off = s.here.reg y + e.signExtend 64 * 8 → n = 8 → exec i s = .next ((start s).trap causeProt w.addr))

/-- Atomics at a translated place (12 R353, R371; 14 R402, R416): in progress, a no-return form until it is accepted, a returning one for its answer, with the
access and its act on the way to be translated; the number is taken when they are accepted and not at issue (DEDUCED, log 5). -/
def Sys2Proof.Claims.AtomicsTranslated : Prop :=
  ∀ (i : Instr) (s : State) (f : Form) (g : BitVec 4) (x : BitVec 5) (n : Nat) (d : Option (BitVec 5)) (r : Nat → Nat × Word) (w : Where) (a : Word),
    atomicOf s.here i = some (f, g, x, n, d, r) → Passes s [.mc] 0 [] → s.takeSeq ≠ none →
    s.locate g.toNat (s.here.reg x) n n true true = .ok w → s.pieces s.cur.core w n = [.xlat a n 0] → s.parts.get? s.hereCore.ptag ≠ none →
    (d = none → (s.outstanding s.uid).length < 256) →
      ∃ t act, exec i s = .next t ∧ Makes act 0 n r ∧
        (d = none → WalkSent s t { s.here with phase := .busy s.fresh 1 [] f.len false .none }
          { by_ := s.me, kind := .atomic, va := a, len := n, addr := a, device := false, then_ := .effect ((s.effectOf none 0 [act] a).answering s.fresh) }) ∧
        (∀ y, d = some y → ∃ cont, (cont = .scalar y n false ∨ cont = .word y) ∧
          WalkSent s t { s.here with phase := .busy s.fresh 1 (List.replicate 8 0) f.len false cont, took := none }
            { by_ := s.me, kind := .atomic, va := a, len := n, addr := a, device := false, then_ := .atomic ((s.effectOf none 0 [act] a).answering s.fresh) })

/-- ld.acq and st.rel at a place elsewhere (11 R347, R348): outside their scope they trap PROT with the global address; else ld.acq reads as a load does, and a
st.rel whose scope holds no unacknowledged write sends its write to another tile, or at a translated place the access that tests its home. -/
def Sys2Proof.Claims.OrderedElsewhere : Prop :=
  ∀ (s : State) (g : BitVec 4) (x : BitVec 2) (o : BitVec 7) (y d : BitVec 5) (w : Where), Passes s [.mc] 0 [] → s.takeSeq ≠ none →
    let off := s.here.reg y + o.signExtend 64 * 8
    let v := s.here.reg d
    (s.locate g.toNat off 8 8 true false = .ok w →
      (∀ tile p, s.pieces s.cur.core w 8 = [.tile tile p 8 0] →
        ((s.scopeSet x).has (.tile tile) = false → exec (.ldAcq g x o y d) s = .next ((start s).trap causeProt w.addr)) ∧
        ((s.scopeSet x).has (.tile tile) = true → s.permitted s.cur.core = true →
          ∃ t z, exec (.ldAcq g x o y d) s = .next t ∧ t.here = { s.here with phase := .busy s.fresh 1 (List.replicate 8 0) 4 false (.scalar d 8 false) } ∧
            t.net = s.net ++ [z] ∧ z.pkt = .read (.tile tile p) 8 s.me s.fresh 0 .plain w.addr ∧ z.dst = some tile ∧
            t.homes = s.homes ∧ t.hbm = s.hbm ∧ t.host = s.host ∧ ∀ k, (t.tile k).mem = (s.tile k).mem)) ∧
      (∀ a, s.pieces s.cur.core w 8 = [.xlat a 8 0] →
        (x.toNat < 2 → exec (.ldAcq g x o y d) s = .next ((start s).trap causeProt w.addr)) ∧
        (2 ≤ x.toNat → s.parts.get? s.hereCore.ptag ≠ none →
          ∃ t, exec (.ldAcq g x o y d) s = .next t ∧ WalkSent s t { s.here with phase := .busy s.fresh 1 (List.replicate 8 0) 4 false (.scalar d 8 false) }
            { by_ := s.me, kind := .read, va := a, len := 8, addr := a, device := decide (x = 2), then_ := .read s.fresh 0 .plain }))) ∧
    (s.locate g.toNat off 8 8 false true = .ok w →
      (∀ tile p, s.pieces s.cur.core w 8 = [.tile tile p 8 0] →
        ((s.scopeSet x).has (.tile tile) = false → exec (.stRel g x o y d) s = .next ((start s).trap causeProt w.addr)) ∧
        ((s.scopeSet x).has (.tile tile) = true → s.permitted s.cur.core = true → s.unacked (s.scopeSet x) = 0 → (x = 3 → s.hostLinks = []) →
          (s.outstanding s.uid).length < 256 →
          ∃ t z e, exec (.stRel g x o y d) s = .next t ∧ t.here = { goneOn s.here 4 with redo := t.here.redo } ∧ t.net = s.net ++ [z] ∧
            z.pkt = .effect (.tile tile) e ∧ z.dst = some tile ∧ e.acts = [.write p (wordBytes v) .keep] ∧ e.wid = some s.fresh ∧
            t.homes = s.homes ∧ t.hbm = s.hbm ∧ t.host = s.host ∧ ∀ k, (t.tile k).mem = (s.tile k).mem)) ∧
      (∀ a, s.pieces s.cur.core w 8 = [.xlat a 8 0] →
        (x.toNat < 2 → exec (.stRel g x o y d) s = .next ((start s).trap causeProt w.addr)) ∧
        (2 ≤ x.toNat → s.parts.get? s.hereCore.ptag ≠ none →
          ∃ t, exec (.stRel g x o y d) s = .next t ∧ WalkSent s t { s.here with phase := .busy s.fresh 1 [] 4 false .none }
            { by_ := s.me, kind := .write, va := a, len := 8, addr := a, device := decide (x = 2),
              then_ := .check s.fresh (s.scopeSet x) 4 (.store (if x = 3 then s.hostLinks else []) (decide (x = 2)) g.toNat off v) })))

/-- Loads and stores at another tile (07 R217 to R219; 11 R335): the load is in progress with its read on the way; the store completes at issue, its write on
the way and among the unacknowledged. No byte of memory changes. An atomic at another tile (12 R353, R371): a no-return form completes at issue, its effect on
the way and among the unacknowledged; a returning one is in progress for its answer, with the number that it took. The effect carries one act, which makes of
the element what the row of its form says. No byte of memory changes. Loads at a translated place (07 R217, R218; 14 R401, R402): in progress, with the access
on its way to be translated. Stores at a translated place (07 R219, R237; 14 R401, R402, R416): in progress until they are accepted, with the access and its
write on the way to be translated; the number is taken when they are accepted and not at issue (DEDUCED, log 5). With 256 writes unacknowledged they are held;
stfull and stempty trap PROT; so does a tag that names no partition, with XPART. Atomics at a translated place (12 R353, R371; 14 R402, R416): in progress, a
no-return form until it is accepted, a returning one for its answer, with the access and its act on the way to be translated; the number is taken when they
are accepted and not at issue (DEDUCED, log 5). ld.acq and st.rel at a place elsewhere (11 R347, R348): outside their scope they trap PROT with the global
address; else ld.acq reads as a load does, and a st.rel whose scope holds no unacknowledged write sends its write to another tile, or at a translated place
the access that tests its home. -/
def Obligations.AccessesElsewhere : Prop :=
  Claims.LoadsAndStoresElsewhere ∧ Claims.AtomicsElsewhere ∧ Claims.LoadsTranslated ∧ Claims.StoresTranslated ∧ Claims.AtomicsTranslated ∧ Claims.OrderedElsewhere

/-- The answer of a unit in progress (07 R218): the last part completes it as its form says; an answer to no unit in progress changes nothing (07 R227);
a fault reply makes it trap, with nothing written. A completed unit keeps the sequence number that it took at issue; one that traps gives it back, to be taken
by the next numbered unit (12 R353). -/
def Obligations.AnswersComplete : Prop :=
  ∀ (s : State) (b : Issuer) (id need step pos : Nat) (buf bs : List Byte) (wait : Bool) (d : BitVec 5) (n : Nat) (sx : Bool),
    let c : CtxId := ⟨b.core, b.ctx⟩
    (s.ctx c).phase = .busy id need buf step wait (.scalar d n sx) →
    (need ≤ 1 → let v := bytesToNat ((putBytes buf pos bs).take n)
      s.replyTo b id pos bs = ({ s.modCtx c fun x => { x with took := none } with cur := c }).finishReg step d (if sx then BitVec.ofInt 64 (sextNat v (8 * n)) else BitVec.ofNat 64 v)) ∧
    (1 < need → s.replyTo b id pos bs = s.modCtx c fun x => { x with phase := .busy id (need - 1) (putBytes buf pos bs) step wait (.scalar d n sx) }) ∧
    (∀ other, other ≠ id → s.replyTo b other pos bs = s ∧ ∀ code tval, s.faultTo b other code tval = s) ∧
    (∀ code tval, (s.ctx c).took = none → s.faultTo b id code tval = ({ s with cur := c }).trap code tval) ∧
    (∀ code tval n, (s.ctx c).took = some n →
      s.faultTo b id code tval = ({ s.modCtx c fun x => { x with redo := some n, took := none } with cur := c }).trap code tval)

namespace Sys2Proof.Claims

open Sys2Proof.Machine

/-- Queue q of the own tile after the unit pushed entries: those of other queues, rings, semaphores, memory and every other tile are as before; of the
writing core only the task's reserved room moved. -/
def Pushed (s t : State) (q : Nat) (es : List (Line × Bool)) (c : Ctx) : Prop :=
  let me := s.cur.core.tile
  t = { s with ctxs := t.ctxs, tiles := t.tiles, cores := t.cores, trapped := none } ∧ t.here = c ∧ (∀ id, id ≠ s.cur → t.ctx id = s.ctx id) ∧
  ((t.tile me).queue q).entries = ((s.tile me).queue q).entries ++ (es.map fun e => ({ data := e.1, tag := e.2, owner := none } : QEntry)) ∧
  (∀ p, p ≠ q → (t.tile me).queue p = (s.tile me).queue p) ∧ (∃ m, t.tile me = { s.tile me with queues := m }) ∧
  (∀ x, x ≠ me → t.tile x = s.tile x) ∧ (∀ k, ∃ r, t.core k = { s.core k with resv := r })

/-- n lines from an offset of the own tile as the task sees them. -/
def linesAt (s : State) (o n : Nat) : List (Line × Bool) :=
  (List.range n).map fun i => (bytesToLine ((s.readHome (.tile s.cur.core.tile) s.me (o + 64 * i) 64)), false)

/-- The entries of an ldff whose first k bytes are valid (07 R234, Table 7.7): n data entries with zeros from byte k on, then the count entry, which names the
address after them where there is a cause. -/
def firstFaulted (s : State) (o n k cause : Nat) (addr : Word) : List (Line × Bool) :=
  (List.range n).map (fun i => (bytesToLine ((s.readHome (.tile s.cur.core.tile) s.me (o + 64 * i) (min 64 (k - 64 * i)))), false)) ++
    [(bytesToLine (wordBytes (BitVec.ofNat 64 k) ++ wordBytes (BitVec.ofNat 64 n) ++ wordBytes (BitVec.ofNat 64 cause) ++
      wordBytes (if cause = 0 then 0 else addr + BitVec.ofNat 64 k)), true)]

/-- A queue load or an ldff that finds its queue not free for it waits, nothing done: behind another context's load in progress, or for room (05 R151; 06 R194). -/
def WaitsForRoom (i : Instr) (s : State) (q n : Nat) : Prop :=
  (s.queuePushing s.cur q = true → exec i s = .next ((start s).setCtx s.cur { s.here with phase := .stall .retry })) ∧
  (s.queuePushing s.cur q = false → s.hasRoom s.cur.core.tile q s.uid n = false →
    exec i s = .next ((start s).setCtx s.cur { s.here with phase := .held (.fullQueue q n) }))

/-- The queue takes n entries of the current task now. -/
def RoomNow (s : State) (q n : Nat) : Prop := s.queuePushing s.cur q = false ∧ s.hasRoom s.cur.core.tile q s.uid n = true

end Sys2Proof.Claims

/-- ldq and prf at the own tile (07 R233, R235): with room for its entries, ldq pushes its lines in order; without, or behind another context's load in progress,
it waits, nothing done; a denied line traps PROT with the address of the first one (07 R523); prf only completes. -/
def Sys2Proof.Claims.QueueLoads : Prop :=
  ∀ (g : BitVec 4) (n q : BitVec 6) (d : BitVec 5) (s : State) (w : Where) (o : Nat),
    (Passes s [.mc] 0 [] → exec (.prf g n d) s = .next ((start s).setCtx s.cur (goneOn s.here 4))) ∧
    (Passes s (formLdq g n q d).roles 0 [] → 1 ≤ n.toNat → n.toNat ≤ 16 → s.locate g.toNat (s.here.reg d) (64 * n.toNat) 64 true false = .ok w →
      WaitsForRoom (.ldq g n q d) s q.toNat n.toNat ∧
      (RoomNow s q.toNat n.toNat → AtOwnHome s w o (64 * n.toNat) → Granted s [.lr] false o (64 * n.toNat) →
        ∃ t, exec (.ldq g n q d) s = .next t ∧ Pushed s t q.toNat (linesAt s o n.toNat) (goneOn s.here 4)) ∧
      (RoomNow s q.toNat n.toNat → AtOwnHome s w o (64 * n.toNat) →
        ∀ l, (s.tile s.cur.core.tile).deniedLine [.lr] false o (64 * n.toNat) = some l →
          exec (.ldq g n q d) s = .next ((start s).trap causeProt (w.addr + BitVec.ofNat 64 (64 * l - o)))))

/-- ldff (07 R234, Table 7.7): its tests in their order; without room, or behind another context's load in progress, it waits, nothing done; with room it pushes
what it may read of its lines and then its count entry, all of it (cause 0), up to the segment's limit (1), up to the first denied line of the own tile (2), or
up to the end of the grid's windows (4). -/
def Sys2Proof.Claims.FirstFaultLoads : Prop :=
  ∀ (g : BitVec 4) (n q : BitVec 6) (d : BitVec 5) (s : State) (o : Nat), Passes s (formLdff g n q d).roles 0 [] → 1 ≤ n.toNat → n.toNat ≤ 15 →
    let i := Instr.ldff g n q d
    let sg := s.here.seg g.toNat
    let off := s.here.reg d
    let v := sg.size - off.toNat
    let m := min (64 * n.toNat) v
    let w : Where := if sg.isGlobal then .global (sg.base + off) else .pad (sg.base.toNat + off.toNat)
    let limit := if v < 64 * n.toNat then 1 else 0
    (off.toNat % 64 ≠ 0 → exec i s = .next ((start s).trap causeAlign off)) ∧
    (off.toNat % 64 = 0 → sg.size ≤ off.toNat → exec i s = .next ((start s).trap causeSeglim off)) ∧
    (off.toNat % 64 = 0 → off.toNat < sg.size → sg.canRead = false → exec i s = .next ((start s).trap causeRights off)) ∧
    (off.toNat % 64 = 0 → off.toNat < sg.size → sg.canRead = true →
      WaitsForRoom i s q.toNat (n.toNat + 1) ∧
      (RoomNow s q.toNat (n.toNat + 1) → AtOwnHome s w o m → (sg.isGlobal = true → s.cur.core.t < s.gridSize s.cur.core.l) →
        (Granted s [.lr] false o m →
          ∃ t, exec i s = .next t ∧ Pushed s t q.toNat (firstFaulted s o n.toNat m limit w.addr) (goneOn s.here 4)) ∧
        (∀ l, (s.tile s.cur.core.tile).deniedLine [.lr] false o m = some l →
          ∃ t, exec i s = .next t ∧ Pushed s t q.toNat (firstFaulted s o n.toNat (64 * l - o) 2 w.addr) (goneOn s.here 4))) ∧
      (∀ k p, RoomNow s q.toNat (n.toNat + 1) → s.pieces s.cur.core w m = [.own o k 0, p] → s.ownPending s.cur.core = false →
        s.cur.core.t + 1 = s.gridSize s.cur.core.l → Granted s [.lr] false o k →
          ∃ t, exec i s = .next t ∧ Pushed s t q.toNat (firstFaulted s o n.toNat k 4 w.addr) (goneOn s.here 4)))

/-- Queue loads and stores at a place elsewhere (07 R217, R219, R233, R234): the load is in progress with its read on the way, an ldff's for its leading bytes; a
stq at another tile pops its entries with its write on the way, and at a translated place is in progress until the write is accepted. -/
def Sys2Proof.Claims.QueueAccessesElsewhere : Prop :=
  ∀ (g : BitVec 4) (n q : BitVec 6) (d : BitVec 5) (s : State),
    (∀ w, Passes s (formLdq g n q d).roles 0 [] → 1 ≤ n.toNat → n.toNat ≤ 16 → RoomNow s q.toNat n.toNat →
      s.locate g.toNat (s.here.reg d) (64 * n.toNat) 64 true false = .ok w →
      let c : Ctx := { s.here with phase := .busy s.fresh 1 (List.replicate (64 * n.toNat) 0) 4 false (.queue q.toNat n.toNat) }
      (∀ tile o, s.pieces s.cur.core w (64 * n.toNat) = [.tile tile o (64 * n.toNat) 0] → s.permitted s.cur.core = true →
        ∃ t y, exec (.ldq g n q d) s = .next t ∧ t.here = c ∧ t.net = s.net ++ [y] ∧
          y.pkt = .read (.tile tile o) (64 * n.toNat) s.me s.fresh 0 .plain w.addr ∧ y.dst = some tile) ∧
      (∀ a, s.pieces s.cur.core w (64 * n.toNat) = [.xlat a (64 * n.toNat) 0] → s.parts.get? s.hereCore.ptag ≠ none →
        ∃ t, exec (.ldq g n q d) s = .next t ∧ WalkSent s t c
          { by_ := s.me, kind := .read, va := a, len := 64 * n.toNat, addr := a, device := false, then_ := .read s.fresh 0 .plain })) ∧
    (Passes s (formLdff g n q d).roles 0 [] → 1 ≤ n.toNat → n.toNat ≤ 15 → RoomNow s q.toNat (n.toNat + 1) →
      let sg := s.here.seg g.toNat
      let off := s.here.reg d
      let m := min (64 * n.toNat) (sg.size - off.toNat)
      let w := Where.global (sg.base + off)
      let ends : Cont := .firstFault q.toNat n.toNat m (if m < 64 * n.toNat then 1 else 0) w.addr
      let c : Ctx := { s.here with phase := .busy s.fresh 1 (List.replicate (64 * n.toNat) 0) 4 false ends }
      off.toNat % 64 = 0 → off.toNat < sg.size → sg.canRead = true → sg.isGlobal = true →
      (∀ tile o, s.pieces s.cur.core w m = [.tile tile o m 0] → tile.t < s.gridSize s.cur.core.l → s.permitted s.cur.core = true →
        ∃ t y, exec (.ldff g n q d) s = .next t ∧ t.here = c ∧ t.net = s.net ++ [y] ∧
          y.pkt = .read (.tile tile o) m s.me s.fresh 0 .leading w.addr ∧ y.dst = some tile) ∧
      (s.pieces s.cur.core w m = [.xlat w.addr m 0] → ¬(0x110000000000 ≤ w.addr.toNat ∧ w.addr.toNat < 0x200000000000) →
        s.parts.get? s.hereCore.ptag ≠ none →
        ∃ t, exec (.ldff g n q d) s = .next t ∧ WalkSent s t c
          { by_ := s.me, kind := .read, va := w.addr, len := m, addr := w.addr, device := false, then_ := .read s.fresh 0 .leading })) ∧
    (∀ w, Passes s (formStq g n d).roles 0 [] → 1 ≤ n.toNat → n.toNat ≤ 16 → s.popping s.cur 5 = false →
      let f := (s.tile s.cur.core.tile).queue 5
      let bs := (f.front s.uid n.toNat).flatMap fun e => lineBytes e.data
      f.has s.uid n.toNat = true → s.locate g.toNat (s.here.reg d) (64 * n.toNat) 64 false true = .ok w → s.takeSeq ≠ none →
      (∀ tile o, s.pieces s.cur.core w (64 * n.toNat) = [.tile tile o (64 * n.toNat) 0] → s.permitted s.cur.core = true → (s.outstanding s.uid).length < 256 →
        ∃ t y e, exec (.stq g n d) s = .next t ∧ t.here = { goneOn s.here 4 with redo := t.here.redo } ∧ t.net = s.net ++ [y] ∧
          y.pkt = .effect (.tile tile) e ∧ y.dst = some tile ∧ e.acts = [.write o bs .keep] ∧
          (t.tile s.cur.core.tile).queue 5 = f.pop s.uid n.toNat ∧ ∀ x, (t.tile x).mem = (s.tile x).mem) ∧
      (∀ a, s.pieces s.cur.core w (64 * n.toNat) = [.xlat a (64 * n.toNat) 0] → s.parts.get? s.hereCore.ptag ≠ none → (s.outstanding s.uid).length + 1 < 256 →
        ∃ t, exec (.stq g n d) s = .next t ∧ WalkSent s t { s.here with phase := .busy s.fresh 1 [] 4 false (.popped 5 n.toNat) }
          { by_ := s.me, kind := .write, va := a, len := 64 * n.toNat, addr := a, device := false,
            then_ := .effect ((s.effectOf none 0 [.write 0 bs .keep] a).answering s.fresh) }))

/-- The leading bytes of an ldff's last part have come (07 R234): with a stop cause (2 where a line or page is denied, 3 where a page is absent, 4 at the end of
the windows) they are the last valid ones; the entries are pushed and the unit completes. -/
def Sys2Proof.Claims.FirstFaultAnswers : Prop :=
  ∀ (s : State) (b : Issuer) (id step pos q n valid old cause : Nat) (buf bs : List Byte) (wait : Bool) (addr : Word),
    let c : CtxId := ⟨b.core, b.ctx⟩
    let t : State := { s.modCtx c fun x => { x with took := none } with cur := c }
    let bytes := putBytes buf pos bs
    let done (k cause : Nat) : State := (t.pushQueue b.core.tile q t.uid
      (((cut 64 n (bytes.take k ++ List.replicate (64 * n - k) 0)).map fun l => (bytesToLine l, false)) ++
        [(bytesToLine (wordBytes (BitVec.ofNat 64 k) ++ wordBytes (BitVec.ofNat 64 n) ++ wordBytes (BitVec.ofNat 64 cause) ++
          wordBytes (if cause = 0 then 0 else addr + BitVec.ofNat 64 k)), true)])).finish step
    (s.ctx c).phase = .busy id 1 buf step wait (.firstFault q n valid old addr) →
      (cause ≠ 0 → pos + bs.length < valid → s.prefixTo b id pos bs cause = done (pos + bs.length) cause) ∧
      (cause = 0 ∨ valid ≤ pos + bs.length → s.prefixTo b id pos bs cause = done valid old)

/-- stq at the own tile (07 R233): with n entries of FM0 available to the task and its write applied at once, entry i stands at line i, the entries are gone
from the queue, and no other byte of memory changes; with too few, or behind another context's stq in progress, it waits, nothing done. -/
def Sys2Proof.Claims.QueueStores : Prop :=
  ∀ (g : BitVec 4) (n : BitVec 6) (d : BitVec 5) (s : State) (w : Where) (o : Nat),
    let me := s.cur.core.tile
    let q := (s.tile me).queue 5
    Passes s (formStq g n d).roles 0 [] → 1 ≤ n.toNat → n.toNat ≤ 16 →
    (s.popping s.cur 5 = true → exec (.stq g n d) s = .next ((start s).setCtx s.cur { s.here with phase := .stall .retry })) ∧
    (s.popping s.cur 5 = false →
    (q.has s.uid n.toNat = false → exec (.stq g n d) s = .next ((start s).setCtx s.cur { s.here with phase := .held (.emptyQueue 5 n.toNat) })) ∧
    (q.has s.uid n.toNat = true → s.locate g.toNat (s.here.reg d) (64 * n.toNat) 64 false true = .ok w → AtOwnHome s w o (64 * n.toNat) →
      Granted s [.lw] true o (64 * n.toNat) → AtOnce s →
        ∃ t, exec (.stq g n d) s = .next t ∧ t.here = { goneOn s.here 4 with redo := t.here.redo } ∧ (∀ id, id ≠ s.cur → t.ctx id = s.ctx id) ∧
          t = { s with ctxs := t.ctxs, tiles := t.tiles, tts := t.tts, homes := t.homes, net := t.net, fresh := t.fresh, trapped := none } ∧
          (t.tile me).queue 5 = q.pop s.uid n.toNat ∧ (∀ p, p ≠ 5 → (t.tile me).queue p = (s.tile me).queue p) ∧ (∀ x, x ≠ me → t.tile x = s.tile x) ∧
          (t.tile me).full = (s.tile me).full ∧
          ∀ a, (t.tile me).mem.get a =
            if o ≤ a ∧ a < o + 64 * n.toNat then
              (((q.front s.uid n.toNat).map QEntry.data)[(a - o) / 64]?.getD 0 >>> (8 * ((a - o) % 64))).setWidth 8
            else (s.tile me).mem.get a))

/-- ldq and prf at the own tile (07 R233, R235): with room for its entries, ldq pushes its lines in order; without, or behind another context's load in
progress, it waits, nothing done; a denied line traps PROT with the address of the first one (07 R523); prf only completes. ldff (07 R234, Table 7.7): its
tests in their order; without room, or behind another context's load in progress, it waits, nothing done; with room it pushes what it may read of its lines
and then its count entry, all of it (cause 0), up to the segment's limit (1), up to the first denied line of the own tile (2), or up to the end of the grid's
windows (4). stq at the own tile (07 R233): with n entries of FM0 available to the task and its write applied at once, entry i stands at line i, the entries
are gone from the queue, and no other byte of memory changes; with too few, or behind another context's stq in progress, it waits, nothing done. Queue loads
and stores at a place elsewhere (07 R217, R219, R233, R234): the load is in progress with its read on the way, an ldff's for its leading bytes; a stq at
another tile pops its entries with its write on the way, and at a translated place is in progress until the write is accepted. The leading bytes of an ldff's
last part have come (07 R234): with a stop cause (2 where a line or page is denied, 3 where a page is absent, 4 at the end of the windows) they are the last
valid ones; the entries are pushed and the unit completes. -/
def Obligations.QueueAccesses : Prop :=
  Claims.QueueLoads ∧ Claims.FirstFaultLoads ∧ Claims.QueueStores ∧ Claims.QueueAccessesElsewhere ∧ Claims.FirstFaultAnswers

/-- ldsync (07 R226, R227, R237): at the own tile a full word as the task sees it goes to D; for an empty one the unit is in progress, in the empty-word wait,
and its home holds the request. At another tile it is in progress, in the empty-word wait, with its request on the way, or traps XPART where the tag is not
permitted (17 R464). No byte of memory and no full/empty bit changes. A translated place traps PROT. -/
def Sys2Proof.Claims.SyncLoads : Prop :=
  ∀ (g : BitVec 4) (e : BitVec 7) (a d : BitVec 5) (s : State) (w : Where) (o : Nat),
    Passes s [.mc] 0 [] → s.locate g.toNat (s.here.reg a + e.signExtend 64 * 8) 8 8 true false = .ok w →
    (∀ x, s.pieces s.cur.core w 8 = [.xlat x 8 0] → exec (.ldsync g e a d) s = .next ((start s).trap causeProt w.addr)) ∧
    (∀ tile p, s.pieces s.cur.core w 8 = [.tile tile p 8 0] →
      (s.permitted s.cur.core = false → exec (.ldsync g e a d) s = .next ((start s).trap causeXpart (s.hereCore.ptag.setWidth 64))) ∧
      (s.permitted s.cur.core = true →
        ∃ t z, exec (.ldsync g e a d) s = .next t ∧ t.here = { s.here with phase := .busy s.fresh 1 (List.replicate 8 0) 4 true (.scalar d 8 false) } ∧
          t.net = s.net ++ [z] ∧ z.pkt = .read (.tile tile p) 8 s.me s.fresh 0 .sync w.addr ∧ z.dst = some tile ∧ z.st = .transit ∧
          t.tiles = s.tiles ∧ t.homes = s.homes ∧ t.hbm = s.hbm ∧ t.host = s.host)) ∧
    (AtOwnHome s w o 8 → Granted s [.lr] false o 8 →
      ((s.view (.tile s.cur.core.tile) s.me).full.contains o = true → exec (.ldsync g e a d) s =
        .next ((start s).finishReg 4 d (bytesToWord ((start s).readHome (.tile s.cur.core.tile) s.me o 8)))) ∧
      ((s.view (.tile s.cur.core.tile) s.me).full.contains o = false →
        ∃ t, exec (.ldsync g e a d) s = .next t ∧ t.here = { s.here with phase := .busy s.fresh 1 (List.replicate 8 0) 4 true (.scalar d 8 false) } ∧
          (t.home (.tile s.cur.core.tile)).syncs = (s.home (.tile s.cur.core.tile)).syncs ++ [{ off := o, by_ := s.me, id := s.fresh, remote := false }] ∧
          t.tiles = s.tiles ∧ t.hbm = s.hbm ∧ t.host = s.host))

/-- gaddr, segr and segw (07 R239, R240): the global address of a byte of a segment; a word of a segment register; a segment register replaced where the
tests of R240 allow it, else PROT with the limit word. -/
def Sys2Proof.Claims.SegmentUnits : Prop :=
  ∀ (h : BitVec 1) (g : BitVec 4) (b a d : BitVec 5) (s : State), Passes s [.mc] 0 [] →
    let sg := s.here.seg g.toNat
    let x := s.here.reg a
    let y := s.here.reg b
    let len (l : Word) : Nat := (l.extractLsb' 0 49).toNat
    let bound := (s.core s.cur.core).bindOf g.toNat
    let ok : Prop := y.extractLsb' 49 12 = 0 ∧ len y ≤ 2 ^ 48 ∧ (y.getLsbD 61 = false → x.toNat + len y ≤ 2 ^ 20) ∧
      (s.here.level = 0 → y.getLsbD 61 = bound.limit.getLsbD 61 ∧ bound.base.toNat ≤ x.toNat ∧ x.toNat + len y ≤ bound.base.toNat + len bound.limit ∧
        (y.getLsbD 62 = true → bound.limit.getLsbD 62 = true) ∧ (y.getLsbD 63 = true → bound.limit.getLsbD 63 = true))
    exec (.segr h g d) s = .next ((start s).finishReg 4 d (if h = 0 then sg.base else sg.limit)) ∧
    (x.toNat < len sg.limit → exec (.gaddr g a d) s = .next ((start s).finishReg 4 d
      (sg.base + x + if sg.limit.getLsbD 61 then 0 else BitVec.ofNat 64 (0x100000000000 + s.cur.core.t * 2 ^ 20)))) ∧
    (len sg.limit ≤ x.toNat → exec (.gaddr g a d) s = .next ((start s).trap causeSeglim x)) ∧
    (ok → ∃ t, exec (.segw g b a) s = .next t ∧ OnlyHere s t ∧ t.here = { goneOn s.here 4 with segs := t.here.segs } ∧
      t.here.seg g.toNat = { base := x, limit := y } ∧ ∀ n, n ≠ g.toNat → t.here.seg n = s.here.seg n) ∧
    (¬ok → exec (.segw g b a) s = .next ((start s).trap causeProt y))

/-- ldsync (07 R226, R227, R237): at the own tile a full word as the task sees it goes to D; for an empty one the unit is in progress, in the empty-word wait,
and its home holds the request. At another tile it is in progress, in the empty-word wait, with its request on the way, or traps XPART where the tag is not
permitted (17 R464). No byte of memory and no full/empty bit changes. A translated place traps PROT. gaddr, segr and segw (07 R239, R240): the global address
of a byte of a segment; a word of a segment register; a segment register replaced where the tests of R240 allow it, else PROT with the limit word. -/
def Obligations.SegmentsAndSyncLoads : Prop :=
  Claims.SyncLoads ∧ Claims.SegmentUnits

/-- fence and ackw (11 R337, R343 to R345): each completes when its set holds no more unacknowledged writes of the task than it asks, a fence with .eng when
the task's transfers are done, a fence at .system with nothing left to flush; ackw gives D the number left. Until then the unit is held. Memory is as before. -/
def Sys2Proof.Claims.FencesAndAcks : Prop :=
  ∀ (x : BitVec 2) (e : BitVec 1) (a d : BitVec 5) (s : State), Passes s [.mc, .fc, .ac, .steward] 0 [] →
    let n := s.unacked (s.scopeSet x)
    (n = 0 → (x = 3 → s.hostLinks = []) → (e = 1 → s.engineBusy s.uid = false) →
      exec (.fence x e) s = .next ((start s).setCtx s.cur (goneOn s.here 4))) ∧
    (n = 0 → (x = 3 → s.hostLinks = []) → e = 1 → s.engineBusy s.uid = true →
      exec (.fence x e) s = .next ((start s).setCtx s.cur { s.here with phase := .stall (.engines 4) })) ∧
    (0 < n → exec (.fence x e) s =
      .next ((start s).setCtx s.cur { s.here with phase := .stall (.acks (s.scopeSet x) 0 4 (.fence (if x = 3 then s.hostLinks else []) (e = 1))) })) ∧
    (n ≤ (s.here.reg a).toNat → exec (.ackw x a d) s = .next ((start s).finishReg 4 d (BitVec.ofNat 64 n))) ∧
    ((s.here.reg a).toNat < n → exec (.ackw x a d) s =
      .next ((start s).setCtx s.cur { s.here with phase := .stall (.acks (s.scopeSet x) (s.here.reg a).toNat 4 (.ackw d)) }))

/-- Who is in the set of a scope (11 R336, Table 11.1): at .tile the own tile, at .group the own tile's groups, at .device every tile and memory agent, at
.system the host as well. -/
def Sys2Proof.Claims.ScopeSets : Prop :=
  ∀ (s : State) (h : Home),
    ((s.scopeSet 0).has h = true ↔ h = .tile s.cur.core.tile) ∧
    ((s.scopeSet 1).has h = true ↔ ∃ t ∈ s.groupTiles s.cur.core, h = .tile t) ∧
    ((s.scopeSet 2).has h = true ↔ ∀ n, h ≠ .host n) ∧ (s.scopeSet 3).has h = true

/-- fence and ackw (11 R337, R343 to R345): each completes when its set holds no more unacknowledged writes of the task than it asks, a fence with .eng when
the task's transfers are done, a fence at .system with nothing left to flush; ackw gives D the number left. Until then the unit is held. Memory is as before.
Who is in the set of a scope (11 R336, Table 11.1): at .tile the own tile, at .group the own tile's groups, at .device every tile and memory agent, at .system
the host as well. -/
def Obligations.OrderingUnits : Prop :=
  Claims.FencesAndAcks ∧ Claims.ScopeSets

/-! ### Vector lanes -/

namespace Sys2Proof.Claims

open Sys2Proof.Machine

/-- A unit that works lane by lane (08 R243 to R259): its form, lane width, predicate, vb, va, vd, and what an active lane i, of number n in the concatenated
register, becomes from the whole va, vb and vd, with the flags it sets. -/
structure VecUnit where
  form : Form
  w : Nat
  k : BitVec 3
  b : BitVec 5
  a : BitVec 5
  d : BitVec 5
  lane : Nat → Line → Line → Line → Nat → Nat × Flags

/-- Rounding by cw.round in mode 3 needs feature 7 (03 R89). -/
def rounding (c : Ctx) (f : Form) (m : Option (BitVec 32)) : Form :=
  if (modsOf m).rmode = 0 ∧ c.round = 3 then { f with feats := f.feats ++ [7] } else f

/-- The effective rounding mode: that of the modifier word, else cw.round, else nearest even (03 R89, Table 3.5). -/
def modeOf (c : Ctx) (m : Option (BitVec 32)) : Mode := if (modsOf m).rmode ≠ 0 then (modsOf m).rmode else if c.round = 0 then 1 else c.round.toNat

/-- A lane rounded once from the exact result of modified operands (08 R246, R249; 02 R53). -/
def rounded (c : Ctx) (t : Fmt) (m : Option (BitVec 32)) (g : Val → Val → Val → Exact) (n : Nat) (va vb vd : Line) (i : Nat) : Nat × Flags :=
  finishFloat t (modsOf m) (g ((modsOf m).opA (t.decode (lane va t.width i))) ((modsOf m).opB (t.decode (lane vb t.width i))) (t.decode (lane vd t.width i)))
    (modeOf c m) (c.draw.word n)

/-- A lane of a function of modified float operands that is exact and sets no flag (08 R247, R250). -/
def plain (t : Fmt) (m : Option (BitVec 32)) (g : Val → Val → Nat) (_n : Nat) (va vb _vd : Line) (i : Nat) : Nat × Flags :=
  (g ((modsOf m).opA (t.decode (lane va t.width i))) ((modsOf m).opB (t.decode (lane vb t.width i))), 0)

/-- A lane of bit patterns (08 R250 to R252). -/
def bits (w : Nat) (g : Nat → Nat → Nat → Nat) (_n : Nat) (va vb vd : Line) (i : Nat) : Nat × Flags := (g (lane va w i) (lane vb w i) (lane vd w i), 0)

/-- An integer lane, truncated, or clamped under sat or clamp (08 R251). -/
def narrowed (n : BitVec 1) (w : Nat) (m : Option (BitVec 32)) (x : Int) : Nat :=
  if (modsOf m).sat || (modsOf m).clamp then
    (if n = 0 then (max (-(2 ^ (w - 1))) (min x (2 ^ (w - 1) - 1)) % 2 ^ w).toNat else (max 0 (min x (2 ^ w - 1))).toNat)
  else (x % 2 ^ w).toNat
def ints (n : BitVec 1) (w : Nat) (m : Option (BitVec 32)) (g : Int → Int → Int) (_n : Nat) (va vb _vd : Line) (i : Nat) : Nat × Flags :=
  (narrowed n w m (g (intValue (n = 0) w (lane va w i)) (intValue (n = 0) w (lane vb w i))), 0)

/-- An integer compare (08 R251). -/
def compared (n : BitVec 1) (w : Nat) (g : Int → Int → Bool) (_n : Nat) (va vb _vd : Line) (i : Nat) : Nat × Flags :=
  (if g (intValue (n = 0) w (lane va w i)) (intValue (n = 0) w (lane vb w i)) then 2 ^ w - 1 else 0, 0)

/-- vdot.f32 (08 R248): an invalid product or opposite infinities give the canonical NaN with nv, else the exact sum is rounded once. -/
def dotRounded (c : Ctx) (t : Fmt) (m : Option (BitVec 32)) (n : Nat) (va vb vd : Line) (i : Nat) : Nat × Flags :=
  let p (x : Nat) : Val × Bool := mulVal ((modsOf m).opA (t.decode (lane va 16 x))) ((modsOf m).opB (t.decode (lane vb 16 x)))
  finishFloat fmtF32 (modsOf m) (dotSum [(fmtF32.decode (lane vd 32 i), false), p (2 * i), p (2 * i + 1)]) (modeOf c m) (c.draw.word n)

/-- vdot.d (08 R253). -/
def dotted (n : BitVec 1) (w : Nat) (m : Option (BitVec 32)) (_n : Nat) (va vb vd : Line) (i : Nat) : Nat × Flags :=
  let v (l : Line) (j : Nat) : Int := intValue (n = 0) w (lane l w j)
  let q := 32 / w
  let sum := intValue (n = 0) 32 (lane vd 32 i) + (if w = 16 then v va (q * i) * v vb (q * i) + v va (q * i + 1) * v vb (q * i + 1)
    else v va (q * i) * v vb (q * i) + v va (q * i + 1) * v vb (q * i + 1) + v va (q * i + 2) * v vb (q * i + 2) + v va (q * i + 3) * v vb (q * i + 3))
  (narrowed n 32 m sum, 0)

/-- A lane of a movement form (08 R257, R258). -/
def moved (g : Line → Line → Nat → Nat) (_n : Nat) (va vb _vd : Line) (i : Nat) : Nat × Flags := (g va vb i, 0)
def wd (w : BitVec 2) : Nat := if w = 0 then 32 else if w = 1 then 16 else 8
def at0 (x : Line) (w j : Nat) : Nat := if j < 512 / w then lane x w j else 0
def chosen (x : Line) (w : Nat) : List Nat := (List.range (512 / w)).filter fun j => lane x w j ≠ 0

/-- The lanewise units (08 Tables 8.2, 8.4, 8.5). -/
def vectorOf (c : Ctx) : Instr → Option VecUnit
  | .vaddF32 k b a d m => some ⟨rounding c (formVaddF32 k b a d m) m, fmtF32.width, k, b, a, d, rounded c fmtF32 m fun x y _ => exactOf (addVal x y)⟩
  | .vsubF32 k b a d m => some ⟨rounding c (formVsubF32 k b a d m) m, fmtF32.width, k, b, a, d, rounded c fmtF32 m fun x y _ => exactOf (addVal x y.negate)⟩
  | .vmulF32 k b a d m => some ⟨rounding c (formVmulF32 k b a d m) m, fmtF32.width, k, b, a, d, rounded c fmtF32 m fun x y _ => exactOf (mulVal x y)⟩
  | .vfmaF32 k b a d m => some ⟨rounding c (formVfmaF32 k b a d m) m, fmtF32.width, k, b, a, d, rounded c fmtF32 m fun x y z => exactOf (fmaVal x y z)⟩
  | .vfmsF32 k b a d m => some ⟨rounding c (formVfmsF32 k b a d m) m, fmtF32.width, k, b, a, d, rounded c fmtF32 m fun x y z => exactOf (fmaVal x y z.negate)⟩
  | .vfnmaF32 k b a d m => some ⟨rounding c (formVfnmaF32 k b a d m) m, fmtF32.width, k, b, a, d, rounded c fmtF32 m fun x y z => exactOf (fmaVal x.negate y z)⟩
  | .vminF32 k b a d m => some ⟨formVminF32 k b a d m, fmtF32.width, k, b, a, d, plain fmtF32 m fun x y => (roundTo fmtF32 (minVal x y).exact 1 0).1⟩
  | .vmaxF32 k b a d m => some ⟨formVmaxF32 k b a d m, fmtF32.width, k, b, a, d, plain fmtF32 m fun x y => (roundTo fmtF32 (maxVal x y).exact 1 0).1⟩
  | .vcmpEqF32 k b a d m => some ⟨formVcmpEqF32 k b a d m, fmtF32.width, k, b, a, d, plain fmtF32 m fun x y => if x.eq y then 2 ^ fmtF32.width - 1 else 0⟩
  | .vcmpNeF32 k b a d m => some ⟨formVcmpNeF32 k b a d m, fmtF32.width, k, b, a, d, plain fmtF32 m fun x y => if !x.eq y then 2 ^ fmtF32.width - 1 else 0⟩
  | .vcmpLtF32 k b a d m => some ⟨formVcmpLtF32 k b a d m, fmtF32.width, k, b, a, d, plain fmtF32 m fun x y => if x.lt y then 2 ^ fmtF32.width - 1 else 0⟩
  | .vcmpLeF32 k b a d m => some ⟨formVcmpLeF32 k b a d m, fmtF32.width, k, b, a, d, plain fmtF32 m fun x y => if x.lt y || x.eq y then 2 ^ fmtF32.width - 1 else 0⟩
  | .vselF32 k b a d m => some ⟨formVselF32 k b a d m, fmtF32.width, k, b, a, d, bits fmtF32.width fun x y z => if z ≠ 0 then x else y⟩
  | .vaddF16 t k b a d m => some ⟨rounding c (formVaddF16 t k b a d m) m, (halfFmt t).width, k, b, a, d, rounded c (halfFmt t) m fun x y _ => exactOf (addVal x y)⟩
  | .vsubF16 t k b a d m => some ⟨rounding c (formVsubF16 t k b a d m) m, (halfFmt t).width, k, b, a, d, rounded c (halfFmt t) m fun x y _ => exactOf (addVal x y.negate)⟩
  | .vmulF16 t k b a d m => some ⟨rounding c (formVmulF16 t k b a d m) m, (halfFmt t).width, k, b, a, d, rounded c (halfFmt t) m fun x y _ => exactOf (mulVal x y)⟩
  | .vfmaF16 t k b a d m => some ⟨rounding c (formVfmaF16 t k b a d m) m, (halfFmt t).width, k, b, a, d, rounded c (halfFmt t) m fun x y z => exactOf (fmaVal x y z)⟩
  | .vfmsF16 t k b a d m => some ⟨rounding c (formVfmsF16 t k b a d m) m, (halfFmt t).width, k, b, a, d, rounded c (halfFmt t) m fun x y z => exactOf (fmaVal x y z.negate)⟩
  | .vfnmaF16 t k b a d m => some ⟨rounding c (formVfnmaF16 t k b a d m) m, (halfFmt t).width, k, b, a, d, rounded c (halfFmt t) m fun x y z => exactOf (fmaVal x.negate y z)⟩
  | .vminF16 t k b a d m => some ⟨formVminF16 t k b a d m, (halfFmt t).width, k, b, a, d, plain (halfFmt t) m fun x y => (roundTo (halfFmt t) (minVal x y).exact 1 0).1⟩
  | .vmaxF16 t k b a d m => some ⟨formVmaxF16 t k b a d m, (halfFmt t).width, k, b, a, d, plain (halfFmt t) m fun x y => (roundTo (halfFmt t) (maxVal x y).exact 1 0).1⟩
  | .vcmpEqF16 t k b a d m => some ⟨formVcmpEqF16 t k b a d m, (halfFmt t).width, k, b, a, d, plain (halfFmt t) m fun x y => if x.eq y then 2 ^ (halfFmt t).width - 1 else 0⟩
  | .vcmpNeF16 t k b a d m => some ⟨formVcmpNeF16 t k b a d m, (halfFmt t).width, k, b, a, d, plain (halfFmt t) m fun x y => if !x.eq y then 2 ^ (halfFmt t).width - 1 else 0⟩
  | .vcmpLtF16 t k b a d m => some ⟨formVcmpLtF16 t k b a d m, (halfFmt t).width, k, b, a, d, plain (halfFmt t) m fun x y => if x.lt y then 2 ^ (halfFmt t).width - 1 else 0⟩
  | .vcmpLeF16 t k b a d m => some ⟨formVcmpLeF16 t k b a d m, (halfFmt t).width, k, b, a, d, plain (halfFmt t) m fun x y => if x.lt y || x.eq y then 2 ^ (halfFmt t).width - 1 else 0⟩
  | .vselF16 t k b a d m => some ⟨formVselF16 t k b a d m, (halfFmt t).width, k, b, a, d, bits (halfFmt t).width fun x y z => if z ≠ 0 then x else y⟩
  | .vrcp k a d m => some ⟨rounding c (formVrcp k a d m) m, 32, k, 0, a, d, rounded c fmtF32 m fun x _ _ => rcpExact x⟩
  | .vrsqrt k a d m => some ⟨rounding c (formVrsqrt k a d m) m, 32, k, 0, a, d, rounded c fmtF32 m fun x _ _ => rsqrtExact x⟩
  | .vsqrt k a d m => some ⟨rounding c (formVsqrt k a d m) m, 32, k, 0, a, d, rounded c fmtF32 m fun x _ _ => sqrtExact x⟩
  | .vexp2 k a d m => some ⟨rounding c (formVexp2 k a d m) m, 32, k, 0, a, d, rounded c fmtF32 m fun x _ _ => exp2Of x⟩
  | .vlog2 k a d m => some ⟨rounding c (formVlog2 k a d m) m, 32, k, 0, a, d, rounded c fmtF32 m fun x _ _ => log2Of x⟩
  | .vtanh k a d m => some ⟨rounding c (formVtanh k a d m) m, 32, k, 0, a, d, rounded c fmtF32 m fun x _ _ => tanhOf x⟩
  | .vdotF32 t k b a d m => some ⟨rounding c (formVdotF32 t k b a d m) m, 32, k, b, a, d, dotRounded c (halfFmt t) m⟩
  | .vaddI32 n k b a d m => some ⟨formVaddI32 n k b a d m, 32, k, b, a, d, ints n 32 m fun x y => x + y⟩
  | .vsubI32 n k b a d m => some ⟨formVsubI32 n k b a d m, 32, k, b, a, d, ints n 32 m fun x y => x - y⟩
  | .vmulI32 n k b a d m => some ⟨formVmulI32 n k b a d m, 32, k, b, a, d, ints n 32 m fun x y => x * y⟩
  | .vminI32 n k b a d m => some ⟨formVminI32 n k b a d m, 32, k, b, a, d, ints n 32 none fun x y => if x ≤ y then x else y⟩
  | .vmaxI32 n k b a d m => some ⟨formVmaxI32 n k b a d m, 32, k, b, a, d, ints n 32 none fun x y => if x ≤ y then y else x⟩
  | .vandI32 n k b a d m => some ⟨formVandI32 n k b a d m, 32, k, b, a, d, bits 32 fun x y _ => x &&& y⟩
  | .vorI32 n k b a d m => some ⟨formVorI32 n k b a d m, 32, k, b, a, d, bits 32 fun x y _ => x ||| y⟩
  | .vxorI32 n k b a d m => some ⟨formVxorI32 n k b a d m, 32, k, b, a, d, bits 32 fun x y _ => x ^^^ y⟩
  | .vshlI32 n k b a d m => some ⟨formVshlI32 n k b a d m, 32, k, b, a, d, bits 32 fun x y _ => (BitVec.ofNat 32 x <<< (y % 256)).toNat⟩
  | .vshrI32 n k b a d m => some ⟨formVshrI32 n k b a d m, 32, k, b, a, d, bits 32 fun x y _ => (BitVec.ofNat 32 x >>> (y % 256)).toNat⟩
  | .vshaI32 n k b a d m => some ⟨formVshaI32 n k b a d m, 32, k, b, a, d, bits 32 fun x y _ => ((BitVec.ofNat 32 x).sshiftRight (y % 256)).toNat⟩
  | .vcmpEqI32 n k b a d m => some ⟨formVcmpEqI32 n k b a d m, 32, k, b, a, d, compared n 32 fun x y => decide (x = y)⟩
  | .vcmpNeI32 n k b a d m => some ⟨formVcmpNeI32 n k b a d m, 32, k, b, a, d, compared n 32 fun x y => decide (x ≠ y)⟩
  | .vcmpLtI32 n k b a d m => some ⟨formVcmpLtI32 n k b a d m, 32, k, b, a, d, compared n 32 fun x y => decide (x < y)⟩
  | .vcmpLeI32 n k b a d m => some ⟨formVcmpLeI32 n k b a d m, 32, k, b, a, d, compared n 32 fun x y => decide (x ≤ y)⟩
  | .vselI32 n k b a d m => some ⟨formVselI32 n k b a d m, 32, k, b, a, d, bits 32 fun x y z => if z ≠ 0 then x else y⟩
  | .vaddI16 n k b a d m => some ⟨formVaddI16 n k b a d m, 16, k, b, a, d, ints n 16 m fun x y => x + y⟩
  | .vsubI16 n k b a d m => some ⟨formVsubI16 n k b a d m, 16, k, b, a, d, ints n 16 m fun x y => x - y⟩
  | .vmulI16 n k b a d m => some ⟨formVmulI16 n k b a d m, 16, k, b, a, d, ints n 16 m fun x y => x * y⟩
  | .vminI16 n k b a d m => some ⟨formVminI16 n k b a d m, 16, k, b, a, d, ints n 16 none fun x y => if x ≤ y then x else y⟩
  | .vmaxI16 n k b a d m => some ⟨formVmaxI16 n k b a d m, 16, k, b, a, d, ints n 16 none fun x y => if x ≤ y then y else x⟩
  | .vandI16 n k b a d m => some ⟨formVandI16 n k b a d m, 16, k, b, a, d, bits 16 fun x y _ => x &&& y⟩
  | .vorI16 n k b a d m => some ⟨formVorI16 n k b a d m, 16, k, b, a, d, bits 16 fun x y _ => x ||| y⟩
  | .vxorI16 n k b a d m => some ⟨formVxorI16 n k b a d m, 16, k, b, a, d, bits 16 fun x y _ => x ^^^ y⟩
  | .vshlI16 n k b a d m => some ⟨formVshlI16 n k b a d m, 16, k, b, a, d, bits 16 fun x y _ => (BitVec.ofNat 16 x <<< (y % 256)).toNat⟩
  | .vshrI16 n k b a d m => some ⟨formVshrI16 n k b a d m, 16, k, b, a, d, bits 16 fun x y _ => (BitVec.ofNat 16 x >>> (y % 256)).toNat⟩
  | .vshaI16 n k b a d m => some ⟨formVshaI16 n k b a d m, 16, k, b, a, d, bits 16 fun x y _ => ((BitVec.ofNat 16 x).sshiftRight (y % 256)).toNat⟩
  | .vcmpEqI16 n k b a d m => some ⟨formVcmpEqI16 n k b a d m, 16, k, b, a, d, compared n 16 fun x y => decide (x = y)⟩
  | .vcmpNeI16 n k b a d m => some ⟨formVcmpNeI16 n k b a d m, 16, k, b, a, d, compared n 16 fun x y => decide (x ≠ y)⟩
  | .vcmpLtI16 n k b a d m => some ⟨formVcmpLtI16 n k b a d m, 16, k, b, a, d, compared n 16 fun x y => decide (x < y)⟩
  | .vcmpLeI16 n k b a d m => some ⟨formVcmpLeI16 n k b a d m, 16, k, b, a, d, compared n 16 fun x y => decide (x ≤ y)⟩
  | .vselI16 n k b a d m => some ⟨formVselI16 n k b a d m, 16, k, b, a, d, bits 16 fun x y z => if z ≠ 0 then x else y⟩
  | .vdotDI16 n k b a d m => some ⟨formVdotDI16 n k b a d m, 32, k, b, a, d, dotted n 16 m⟩
  | .vaddI8 n k b a d m => some ⟨formVaddI8 n k b a d m, 8, k, b, a, d, ints n 8 m fun x y => x + y⟩
  | .vsubI8 n k b a d m => some ⟨formVsubI8 n k b a d m, 8, k, b, a, d, ints n 8 m fun x y => x - y⟩
  | .vmulI8 n k b a d m => some ⟨formVmulI8 n k b a d m, 8, k, b, a, d, ints n 8 m fun x y => x * y⟩
  | .vminI8 n k b a d m => some ⟨formVminI8 n k b a d m, 8, k, b, a, d, ints n 8 none fun x y => if x ≤ y then x else y⟩
  | .vmaxI8 n k b a d m => some ⟨formVmaxI8 n k b a d m, 8, k, b, a, d, ints n 8 none fun x y => if x ≤ y then y else x⟩
  | .vandI8 n k b a d m => some ⟨formVandI8 n k b a d m, 8, k, b, a, d, bits 8 fun x y _ => x &&& y⟩
  | .vorI8 n k b a d m => some ⟨formVorI8 n k b a d m, 8, k, b, a, d, bits 8 fun x y _ => x ||| y⟩
  | .vxorI8 n k b a d m => some ⟨formVxorI8 n k b a d m, 8, k, b, a, d, bits 8 fun x y _ => x ^^^ y⟩
  | .vshlI8 n k b a d m => some ⟨formVshlI8 n k b a d m, 8, k, b, a, d, bits 8 fun x y _ => (BitVec.ofNat 8 x <<< (y % 256)).toNat⟩
  | .vshrI8 n k b a d m => some ⟨formVshrI8 n k b a d m, 8, k, b, a, d, bits 8 fun x y _ => (BitVec.ofNat 8 x >>> (y % 256)).toNat⟩
  | .vshaI8 n k b a d m => some ⟨formVshaI8 n k b a d m, 8, k, b, a, d, bits 8 fun x y _ => ((BitVec.ofNat 8 x).sshiftRight (y % 256)).toNat⟩
  | .vcmpEqI8 n k b a d m => some ⟨formVcmpEqI8 n k b a d m, 8, k, b, a, d, compared n 8 fun x y => decide (x = y)⟩
  | .vcmpNeI8 n k b a d m => some ⟨formVcmpNeI8 n k b a d m, 8, k, b, a, d, compared n 8 fun x y => decide (x ≠ y)⟩
  | .vcmpLtI8 n k b a d m => some ⟨formVcmpLtI8 n k b a d m, 8, k, b, a, d, compared n 8 fun x y => decide (x < y)⟩
  | .vcmpLeI8 n k b a d m => some ⟨formVcmpLeI8 n k b a d m, 8, k, b, a, d, compared n 8 fun x y => decide (x ≤ y)⟩
  | .vselI8 n k b a d m => some ⟨formVselI8 n k b a d m, 8, k, b, a, d, bits 8 fun x y z => if z ≠ 0 then x else y⟩
  | .vdotDI8 n k b a d m => some ⟨formVdotDI8 n k b a d m, 32, k, b, a, d, dotted n 8 m⟩
  | .vperm w k b a d => some ⟨formVperm w k b a d, wd w, k, b, a, d, moved fun va vb i => at0 va (wd w) (lane vb (wd w) i)⟩
  | .vbcastS w k a d => some ⟨formVbcastS w k a d, wd w, k, 0, a, d, moved fun _ _ _ => (c.reg a).toNat⟩
  | .vcompress w k b a d => some ⟨formVcompress w k b a d, wd w, k, b, a, d, moved fun va vb i => ((chosen vb (wd w))[i]?.map fun j => lane va (wd w) j).getD 0⟩
  | .vexpand w k b a d => some ⟨formVexpand w k b a d, wd w, k, b, a, d, moved fun va vb i => if lane vb (wd w) i ≠ 0 then lane va (wd w) ((chosen vb (wd w)).filter (· < i)).length else 0⟩
  | .vext w k b a d => some ⟨formVext w k b a d, wd w, k, b, a, d, moved fun va _ i => at0 va (wd w) (i + (c.reg b).toNat)⟩
  | .vbcastV w k b a d => some ⟨formVbcastV w k b a d, wd w, k, b, a, d, moved fun va _ _ => at0 va (wd w) (c.reg b).toNat⟩
  | .vmov w k a d => some ⟨formVmov w k a d, wd w, k, 0, a, d, moved fun va _ i => lane va (wd w) i⟩
  | _ => none

/-- The gang of the running context, if it leads one, is as R264 of 08 makes it: its tiles differ, and every follower's core holds a gang context. -/
def GangSound (s : State) : Prop :=
  s.gangTiles.Nodup ∧ s.cur.core.r = .ac ∧ ∀ j, 0 < j → j < s.gangSize → (s.core ((s.gangTiles.getD j s.cur.core.tile).core .ac)).follows ≠ none

/-- Only vector registers, flags and the next unit of the running context moved, and vector registers of the gang contexts that follow it. -/
def VectorsOnly (s t : State) (len : Nat) : Prop :=
  t = { s with ctxs := t.ctxs, cores := t.cores, trapped := none } ∧ (∀ id, id ≠ s.cur → t.ctx id = s.ctx id) ∧
  (∃ v fl, t.here = { goneOn s.here len with v := v, flags := fl }) ∧
  ∀ x, ∃ y, t.core x = { s.core x with follows := y } ∧ (y.map Follow.leader = (s.core x).follows.map Follow.leader) ∧
    (y.map Follow.k = (s.core x).follows.map Follow.k)

end Sys2Proof.Claims

/-- A lanewise unit (08 R243, R244, R246 to R253, R257, R258, R264, R265), in a gang on every member: each active destination lane becomes what its table row
gives from the registers as they were; an inactive lane keeps its value, as does every other vector register; at user level the flags that active lanes set are
or-ed into the task's (04 R120); no other register, memory or context changes. (vlog2 of 1 is +0, DESIGN CHOICE, log 78; the transcendental functions are rounded
from enclosures, DEDUCED, log 27.) -/
def Obligations.LanewiseUnits : Prop :=
  ∀ (i : Instr) (s : State) (u : VecUnit), vectorOf s.here i = some u → Passes s u.form.roles 0 u.form.feats → GangSound s →
    ∃ t, exec i s = .next t ∧ VectorsOnly s t u.form.len ∧
      (∀ j, j < s.gangSize → ∀ x, x < 512 / u.w →
        lane (t.vreg j u.d) u.w x =
          if x < s.kreg j u.k.toNat then (u.lane (j * (512 / u.w) + x) (s.vreg j u.a) (s.vreg j u.b) (s.vreg j u.d) x).1 % 2 ^ u.w
          else lane (s.vreg j u.d) u.w x) ∧
      (∀ j, j < s.gangSize → ∀ r, r ≠ u.d → t.vreg j r = s.vreg j r) ∧
      (∀ b, b < 5 → t.here.flags.getLsbD b = (s.here.flags.getLsbD b || decide (s.here.level = 0) && (List.range s.gangSize).any fun j =>
        (List.range (512 / u.w)).any fun x => decide (x < s.kreg j u.k.toNat) &&
          (u.lane (j * (512 / u.w) + x) (s.vreg j u.a) (s.vreg j u.b) (s.vreg j u.d) x).2.getLsbD b))

namespace Sys2Proof.Claims

open Sys2Proof.Machine

/-- The pairwise tree over 2^n lanes (08 R254), with the flags of its nodes. -/
def pairwise (node : Nat → Nat → Nat × Flags) : Nat → (Nat → Nat) → Nat × Flags
  | 0, x => (x 0, 0)
  | n + 1, x =>
    let l := pairwise node n x
    let r := pairwise node n fun i => x (2 ^ n + i)
    ((node l.1 r.1).1, l.2 ||| r.2 ||| (node l.1 r.1).2)

/-- The values of the doubling scan after n steps (08 R255). -/
def doubling (node : Nat → Nat → Nat → Nat × Flags) (x : Nat → Nat) : Nat → Nat → Nat
  | 0, i => x i
  | n + 1, i => if i < 2 ^ n then doubling node x n i else (node i (doubling node x n (i - 2 ^ n)) (doubling node x n i)).1

/-- Lane number i of the concatenated source, the identity where it is inactive (08 R254, R265). -/
def source (s : State) (w : Nat) (k : BitVec 3) (a : BitVec 5) (ident i : Nat) : Nat :=
  if i % (512 / w) < s.kreg (i / (512 / w)) k.toNat then lane (s.vreg (i / (512 / w)) a) w (i % (512 / w)) else ident

/-- A float add node, an integer add node and the max nodes (08 R254). -/
def addFloat (c : Ctx) (t : Fmt) (m : Option (BitVec 32)) (n x y : Nat) : Nat × Flags :=
  finishFloat t (modsOf m) (exactOf (addVal (t.decode x) (t.decode y))) (modeOf c m) (c.draw.word n)
def addInt (n : BitVec 1) (w : Nat) (m : Option (BitVec 32)) (x y : Nat) : Nat × Flags := (narrowed n w m (intValue (n = 0) w x + intValue (n = 0) w y), 0)
def maxFloat (t : Fmt) (x y : Nat) : Nat × Flags := ((roundTo t (maxVal (t.decode x) (t.decode y)).exact 1 0).1, 0)
def maxInt (n : BitVec 1) (w : Nat) (x y : Nat) : Nat × Flags := (if intValue (n = 0) w x ≤ intValue (n = 0) w y then y else x, 0)

/-- Reductions: form, lane width, predicate, va, vd, identity, node (08 R254, Tables 8.2, 8.4). -/
def reductionOf (c : Ctx) : Instr → Option (Form × Nat × BitVec 3 × BitVec 5 × BitVec 5 × Nat × (Nat → Nat → Nat × Flags))
  | .vredaddF32 k a d m => some (rounding c (formVredaddF32 k a d m) m, 32, k, a, d, 2 ^ 31, addFloat c fmtF32 m 0)
  | .vredaddF16 t k a d m => some (rounding c (formVredaddF16 t k a d m) m, 16, k, a, d, 2 ^ 15, addFloat c (halfFmt t) m 0)
  | .vredmaxF32 k a d m => some (formVredmaxF32 k a d m, 32, k, a, d, 0xFF800000, maxFloat fmtF32)
  | .vredmaxF16 t k a d m => some (formVredmaxF16 t k a d m, 16, k, a, d, if t = 1 then 0xFF80 else 0xFC00, maxFloat (halfFmt t))
  | .vredaddI32 n k a d m => some (formVredaddI32 n k a d m, 32, k, a, d, 0, addInt n 32 m)
  | .vredmaxI32 n k a d m => some (formVredmaxI32 n k a d m, 32, k, a, d, if n = 0 then 2 ^ 31 else 0, maxInt n 32)
  | .vredaddI16 n k a d m => some (formVredaddI16 n k a d m, 16, k, a, d, 0, addInt n 16 m)
  | .vredmaxI16 n k a d m => some (formVredmaxI16 n k a d m, 16, k, a, d, if n = 0 then 2 ^ 15 else 0, maxInt n 16)
  | .vredaddI8 n k a d m => some (formVredaddI8 n k a d m, 8, k, a, d, 0, addInt n 8 m)
  | .vredmaxI8 n k a d m => some (formVredmaxI8 n k a d m, 8, k, a, d, if n = 0 then 2 ^ 7 else 0, maxInt n 8)
  | _ => none

/-- Scans: form, lane width, predicate, va, vd, identity, node by the number of the lane it makes, and what lane 0 passes on (08 R255). -/
def scanOf (c : Ctx) : Instr → Option (Form × Nat × BitVec 3 × BitVec 5 × BitVec 5 × Nat × (Nat → Nat → Nat → Nat × Flags) × (Nat → Nat))
  | .vscanF32 k a d m => some (rounding c (formVscanF32 k a d m) m, 32, k, a, d, 2 ^ 31, addFloat c fmtF32 m, fun x => if (fmtF32.decode x).isNan then 0x7FC00000 else x)
  | .vscanF16 t k a d m => some (rounding c (formVscanF16 t k a d m) m, 16, k, a, d, 2 ^ 15, addFloat c (halfFmt t) m,
      fun x => if ((halfFmt t).decode x).isNan then (if t = 1 then 0x7FC0 else 0x7E00) else x)
  | .vscanI32 n k a d m => some (formVscanI32 n k a d m, 32, k, a, d, 0, fun _ => addInt n 32 m, id)
  | .vscanI16 n k a d m => some (formVscanI16 n k a d m, 16, k, a, d, 0, fun _ => addInt n 16 m, id)
  | .vscanI8 n k a d m => some (formVscanI8 n k a d m, 8, k, a, d, 0, fun _ => addInt n 8 m, id)
  | _ => none

end Sys2Proof.Claims

/-- Reductions (08 R254, R265): lane 0 of the leader's destination takes the result of the pairwise tree over all lanes, the identity standing for inactive
ones, whatever the predicate; every other lane and register keeps its value; at user level the flags of all nodes are or-ed into the task's (04 R120). -/
def Sys2Proof.Claims.Reductions : Prop :=
  ∀ (i : Instr) (s : State) (f : Form) (w : Nat) (k : BitVec 3) (a d : BitVec 5) (ident : Nat) (node : Nat → Nat → Nat × Flags) (e : Nat),
    reductionOf s.here i = some (f, w, k, a, d, ident, node) → Passes s f.roles 0 f.feats → s.gangSize * (512 / w) = 2 ^ e →
      let r := pairwise node e (source s w k a ident)
      ∃ t, exec i s = .next t ∧ OnlyHere s t ∧ t.here = { goneOn s.here f.len with v := t.here.v, flags := if s.here.level = 0 then s.here.flags ||| r.2 else s.here.flags } ∧
        (∀ x, x < 512 / w → lane (t.vreg 0 d) w x = if x = 0 then r.1 % 2 ^ w else lane (s.vreg 0 d) w x) ∧
        ∀ q, q ≠ d → t.vreg 0 q = s.vreg 0 q

/-- Scans (08 R255, R265): each active lane takes the value of the doubling order over all lanes, in a gang those of every member; inactive lanes and every
other register keep their values. (A NaN that lane 0 passes on as it is becomes the canonical NaN: a reading of 03 R94, marked DEDUCED in the log.) -/
def Sys2Proof.Claims.Scans : Prop :=
  ∀ (i : Instr) (s : State) (f : Form) (w : Nat) (k : BitVec 3) (a d : BitVec 5) (ident : Nat) (node : Nat → Nat → Nat → Nat × Flags) (first : Nat → Nat) (e : Nat),
    scanOf s.here i = some (f, w, k, a, d, ident, node, first) → Passes s f.roles 0 f.feats → GangSound s → s.gangSize * (512 / w) = 2 ^ e →
      ∃ t, exec i s = .next t ∧ VectorsOnly s t f.len ∧
        (∀ j, j < s.gangSize → ∀ x, x < 512 / w →
          lane (t.vreg j d) w x =
            if x < s.kreg j k.toNat then doubling node (fun n => first (source s w k a ident n)) e (j * (512 / w) + x) % 2 ^ w else lane (s.vreg j d) w x) ∧
        ∀ j, j < s.gangSize → ∀ q, q ≠ d → t.vreg j q = s.vreg j q

/-- Reductions (08 R254, R265): lane 0 of the leader's destination takes the result of the pairwise tree over all lanes, the identity standing for inactive
ones, whatever the predicate; every other lane and register keeps its value; at user level the flags of all nodes are or-ed into the task's (04 R120). Scans
(08 R255, R265): each active lane takes the value of the doubling order over all lanes, in a gang those of every member; inactive lanes and every other
register keep their values. (A NaN that lane 0 passes on as it is becomes the canonical NaN: a reading of 03 R94, marked DEDUCED in the log.) -/
def Obligations.ReductionsAndScans : Prop :=
  Claims.Reductions ∧ Claims.Scans

namespace Sys2Proof.Claims

open Sys2Proof.Machine

/-- The tile of a member of the running context's gang; member 0 is the leader. -/
def memberTile (s : State) (j : Nat) : TileId := s.gangTiles.getD j s.cur.core.tile

/-- Only the running context and the contexts that follow it moved: of it the vector and predicate registers and the next unit, of them the same registers. -/
def GangOnly (s t : State) (len : Nat) : Prop :=
  (∀ id, id ≠ s.cur → t.ctx id = s.ctx id) ∧ (∃ v k, t.here = { goneOn s.here len with v := v, k := k }) ∧
  ∀ x, ∃ y r, t.core x = { s.core x with follows := y, resv := r } ∧ y.map Follow.leader = (s.core x).follows.map Follow.leader

/-- Every vector register of every member is as before. -/
def SameVectors (s t : State) : Prop := ∀ j, j < s.gangSize → ∀ r, t.vreg j r = s.vreg j r

/-- Every predicate register of every member but one is as before. -/
def SamePredicates (s t : State) (but : Nat) : Prop := ∀ j, j < s.gangSize → ∀ n, n ≠ but → t.kreg j n = s.kreg j n

end Sys2Proof.Claims

/-- vmovs (08 R259, R265): a lane of the concatenated register to a scalar register, 0 beyond its end; a scalar register to a lane, nothing beyond its end. -/
def Sys2Proof.Claims.LaneMoves : Prop :=
  ∀ (w : BitVec 2) (b a d : BitVec 5) (s : State), Passes s [.ac] 0 [] →
    let n := 512 / wd w
    let l := (s.here.reg b).toNat
    exec (.vmovsToScalar w b a d) s = .next ((start s).finishReg 4 d (if l < s.gangSize * n then BitVec.ofNat 64 (lane (s.vreg (l / n) a) (wd w) (l % n)) else 0)) ∧
    (s.gangSize * n ≤ l → exec (.vmovsToVector w b a d) s = .next ((start s).setCtx s.cur (goneOn s.here 4))) ∧
    (l < s.gangSize * n → GangSound s →
      ∃ t, exec (.vmovsToVector w b a d) s = .next t ∧ VectorsOnly s t 4 ∧ t.here.flags = s.here.flags ∧
        (∀ j, j < s.gangSize → ∀ x, x < n → lane (t.vreg j d) (wd w) x = if j * n + x = l then (s.here.reg a).toNat % 2 ^ wd w else lane (s.vreg j d) (wd w) x) ∧
        ∀ j, j < s.gangSize → ∀ r, r ≠ d → t.vreg j r = s.vreg j r)

/-- vpop (08 R260, R265, R269): with an entry for the task in every member's queue, each active lane takes the lane of its member's entry, the others keep
their values, and the entries are gone; with a queue empty it waits; a count entry at the leader traps PROT with the queue's number, else one at a follower traps
GANG kind 5 with that cause and the number of the lowest such member. -/
def Sys2Proof.Claims.VectorPops : Prop :=
  ∀ (w : BitVec 2) (k : BitVec 3) (q d : BitVec 5) (s : State), Passes s (formVpop w k q d).roles 0 [] → GangSound s →
    let has (j : Nat) : Bool := ((s.tile (memberTile s j)).queue q.toNat).has s.uid 1
    ((∃ j, j < s.gangSize ∧ has j = false) → exec (.vpop w k q d) s = .next ((start s).setCtx s.cur { s.here with phase := .held (.emptyQueue q.toNat 1) })) ∧
    ((∀ j, j < s.gangSize → has j = true) → (s.head 0 q.toNat).tag = true → exec (.vpop w k q d) s = .next ((start s).trap causeProt (q.setWidth 64))) ∧
    (∀ m, (∀ j, j < s.gangSize → has j = true) → m < s.gangSize → 0 < m → (s.head m q.toNat).tag = true → (∀ j, j < m → (s.head j q.toNat).tag = false) →
      exec (.vpop w k q d) s = .next ((start s).trap causeGang (BitVec.ofNat 64 (65536 * m + 256 * 6 + 5)))) ∧
    ((∀ j, j < s.gangSize → has j = true ∧ (s.head j q.toNat).tag = false) →
      ∃ t, exec (.vpop w k q d) s = .next t ∧ GangOnly s t 4 ∧ SamePredicates s t 8 ∧ (∀ j, j < s.gangSize → ∀ r, r ≠ d → t.vreg j r = s.vreg j r) ∧
        (∀ j, j < s.gangSize → (∀ x, x < 512 / wd w →
          lane (t.vreg j d) (wd w) x = if x < s.kreg j k.toNat then lane (s.head j q.toNat).data (wd w) x else lane (s.vreg j d) (wd w) x) ∧
          (t.tile (memberTile s j)).queue q.toNat = ((s.tile (memberTile s j)).queue q.toNat).pop s.uid 1 ∧
          ∃ m, t.tile (memberTile s j) = { s.tile (memberTile s j) with queues := m }) ∧
        (∀ x, x ∉ s.gangTiles → t.tile x = s.tile x) ∧ t = { s with ctxs := t.ctxs, cores := t.cores, tiles := t.tiles, trapped := none })

/-- vpush (08 R260, R265): with room in every member's queue an entry of its va, inactive lanes zero, stands last in it; without, it waits. -/
def Sys2Proof.Claims.VectorPushes : Prop :=
  ∀ (w : BitVec 2) (k : BitVec 3) (a q : BitVec 5) (s : State), Passes s (formVpush w k a q).roles 0 [] → GangSound s →
    let room (j : Nat) : Bool := s.hasRoom (memberTile s j) q.toNat s.uid 1
    ((∃ j, j < s.gangSize ∧ room j = false) → exec (.vpush w k a q) s = .next ((start s).setCtx s.cur { s.here with phase := .held (.fullQueue q.toNat 1) })) ∧
    ((∀ j, j < s.gangSize → room j = true) →
      ∃ t, exec (.vpush w k a q) s = .next t ∧ GangOnly s t 4 ∧ SameVectors s t ∧ SamePredicates s t 8 ∧
        (∀ j, j < s.gangSize → ∃ e, ((t.tile (memberTile s j)).queue q.toNat).entries = ((s.tile (memberTile s j)).queue q.toNat).entries ++ [e] ∧
          e.tag = false ∧ e.owner = none ∧
          (∀ x, x < 512 / wd w → lane e.data (wd w) x = if x < s.kreg j k.toNat then lane (s.vreg j a) (wd w) x else 0) ∧
          ∃ m, t.tile (memberTile s j) = { s.tile (memberTile s j) with queues := m }) ∧
        (∀ x, x ∉ s.gangTiles → t.tile x = s.tile x) ∧ t = { s with ctxs := t.ctxs, cores := t.cores, tiles := t.tiles, trapped := none })

/-- vpop (08 R260, R265, R269): with an entry for the task in every member's queue, each active lane takes the lane of its member's entry, the others keep
their values, and the entries are gone; with a queue empty it waits; a count entry at the leader traps PROT with the queue's number, else one at a follower
traps GANG kind 5 with that cause and the number of the lowest such member. vpush (08 R260, R265): with room in every member's queue an entry of its va,
inactive lanes zero, stands last in it; without, it waits. -/
def Obligations.VectorQueues : Prop :=
  Claims.VectorPops ∧ Claims.VectorPushes

/-- The predicate units (08 R261 to R263, R265): kset, kmin and kfirst, and kpop, which turns a count entry of each member's queue into a count of leading
lanes for its part j, popping it unless bit 8 is set; with a queue empty it waits; an entry that is no count entry traps PROT at the leader, GANG kind 5 at a
follower. k0 takes nothing. -/
def Sys2Proof.Claims.PredicateUnits : Prop :=
  ∀ (w : BitVec 2) (k : BitVec 3) (b a d : BitVec 5) (s : State), GangSound s → d.toNat < 8 →
    let sets (t : State) (f : Nat → Nat) : Prop :=
      GangOnly s t 4 ∧ SameVectors s t ∧ SamePredicates s t d.toNat ∧ ∀ j, j < s.gangSize → t.kreg j d.toNat = if d = 0 then 64 else f j
    let c := s.here.reg b
    let q := a.toNat
    (Passes s [.ac] 0 [] →
      (∃ t, exec (.kset a d) s = .next t ∧ sets t (fun _ => min (s.here.reg a).toNat 64) ∧ t.tiles = s.tiles) ∧
      (∃ t, exec (.kmin b a d) s = .next t ∧ sets t (fun j => min (s.kreg j a.toNat) (s.kreg j b.toNat)) ∧ t.tiles = s.tiles) ∧
      (∃ t, exec (.kfirst w k a d) s = .next t ∧ t.tiles = s.tiles ∧
        sets t (fun j =>
          let n := min (s.kreg j k.toNat) (512 / wd w)
          ((List.range n).find? fun i => lane (s.vreg j a) (wd w) i = 0).getD n))) ∧
    (Passes s (formKpop w b a d).roles 0 [] →
      (c &&& ~~~0x13F ≠ 0 ∨ 14 < c.toNat % 64 → exec (.kpop w b a d) s = .next ((start s).trap causeProt c)) ∧
      (c &&& ~~~0x13F = 0 → c.toNat % 64 ≤ 14 → (∃ j, j < s.gangSize ∧ ((s.tile (memberTile s j)).queue q).has s.uid 1 = false) →
        exec (.kpop w b a d) s = .next ((start s).setCtx s.cur { s.here with phase := .held (.emptyQueue q 1) })) ∧
      (∀ m, c &&& ~~~0x13F = 0 → c.toNat % 64 ≤ 14 → (∀ j, j < s.gangSize → ((s.tile (memberTile s j)).queue q).has s.uid 1 = true) →
        m < s.gangSize → (s.head m q).tag = false → (∀ j, j < m → (s.head j q).tag = true) →
        exec (.kpop w b a d) s = .next (if m = 0 then (start s).trap causeProt (BitVec.ofNat 64 q)
          else (start s).trap causeGang (BitVec.ofNat 64 (65536 * m + 256 * 6 + 5)))) ∧
      (c &&& ~~~0x13F = 0 → c.toNat % 64 ≤ 14 →
        (∀ j, j < s.gangSize → ((s.tile (memberTile s j)).queue q).has s.uid 1 = true ∧ (s.head j q).tag = true) →
        ∃ t, exec (.kpop w b a d) s = .next t ∧
          sets t (fun j => min (((s.head j q).data.setWidth 64).toNat - 64 * (c.toNat % 64)) (64 * (wd w / 8)) / (wd w / 8)) ∧
          (∀ j, j < s.gangSize → (t.tile (memberTile s j)).queue q =
            if c.getLsbD 8 then (s.tile (memberTile s j)).queue q else ((s.tile (memberTile s j)).queue q).pop s.uid 1) ∧
          t = { s with ctxs := t.ctxs, cores := t.cores, tiles := t.tiles, trapped := none }))

/-- vmovs (08 R259, R265): a lane of the concatenated register to a scalar register, 0 beyond its end; a scalar register to a lane, nothing beyond its end.
The predicate units (08 R261 to R263, R265): kset, kmin and kfirst, and kpop, which turns a count entry of each member's queue into a count of leading lanes
for its part j, popping it unless bit 8 is set; with a queue empty it waits; an entry that is no count entry traps PROT at the leader, GANG kind 5 at a
follower. k0 takes nothing. -/
def Obligations.LaneMovesAndPredicates : Prop :=
  Claims.LaneMoves ∧ Claims.PredicateUnits

/-- gang, gjoin and gdisband (08 R264 to R270). gang with every follower's offer ready forms the gang and gives 1, else 0; gjoin leaves the offer and ends the
task; gdisband frees the followers. gang and gjoin trap GANG with their kind: 3 for a size other than 2, 4 or 8 or a reserved bit, 4 for gjoin on a home column,
1 for a gang that does not fit its columns, 2 for a core in a gang or with an offer. -/
def Obligations.GangUnits : Prop :=
  ∀ (a d : BitVec 5) (s : State), Passes s [.ac] 0 [3] →
    let x := s.here.reg a
    let g := x.toNat % 16
    let width := s.gridX s.cur.core.l
    let col := s.cur.core.t % width
    let ts := (List.range (g - 1)).map fun i => (⟨s.cur.core.l, s.cur.core.t + 1 + i⟩ : TileId)
    let legal : Prop := g = 2 ∨ g = 4 ∨ g = 8
    let ready : Prop := ∀ t ∈ ts, s.resident t = true ∧ ∃ o, (s.core (t.core .ac)).offer = some o ∧ o.ready = true ∧ o.size = g
    (s.inGang s.cur.core = true → exec (.gang a d) s = .next ((start s).trap causeGang 2)) ∧
    (s.inGang s.cur.core = false → x.toNat / 16 ≠ 0 ∨ ¬legal → exec (.gang a d) s = .next ((start s).trap causeGang 3)) ∧
    (s.inGang s.cur.core = false → x.toNat / 16 = 0 → legal → col % g ≠ 0 ∨ width < col + g → exec (.gang a d) s = .next ((start s).trap causeGang 1)) ∧
    (s.inGang s.cur.core = false → x.toNat / 16 = 0 → legal → col % g = 0 → col + g ≤ width →
      (¬ready → exec (.gang a d) s = .next ((start s).finishReg 4 d 0)) ∧
      (ready →
        ∃ t, exec (.gang a d) s = .next t ∧
          t.here = { (s.here.setReg d 1).complete s.here.level (s.here.pc + 4) with gang := some { size := g, members := ts } } ∧
          (∀ id, id ≠ s.cur → t.ctx id = s.ctx id) ∧ t = { s with ctxs := t.ctxs, cores := t.cores, trapped := none } ∧
          (∀ y ∈ ts, t.core (y.core .ac) =
            { s.core (y.core .ac) with offer := none, follows := some { leader := s.cur, v := Vector.replicate 32 0, k := Vector.replicate 8 64 } }) ∧
          ∀ y, (∀ z ∈ ts, y ≠ z.core .ac) → t.core y = s.core y)) ∧
    (let home := col - col % g
     (x &&& ~~~0x1FF0F ≠ 0 ∨ ¬legal → exec (.gjoin a) s = .next ((start s).trap causeGang 3)) ∧
     (x &&& ~~~0x1FF0F = 0 → legal → col % g = 0 → exec (.gjoin a) s = .next ((start s).trap causeGang 4)) ∧
     (x &&& ~~~0x1FF0F = 0 → legal → col % g ≠ 0 → width < home + g → exec (.gjoin a) s = .next ((start s).trap causeGang 1)) ∧
     (x &&& ~~~0x1FF0F = 0 → legal → col % g ≠ 0 → home + g ≤ width → s.hereCore.offer ≠ none → exec (.gjoin a) s = .next ((start s).trap causeGang 2)) ∧
     (x &&& ~~~0x1FF0F = 0 → legal → col % g ≠ 0 → home + g ≤ width → s.hereCore.offer = none →
      exec (.gjoin a) s = .next (((start s).setCore s.cur.core
        { s.core s.cur.core with offer := some { size := g, entry := x.toNat / 256 % 256, notify := x.getLsbD 16, ready := false } }).endIn s.cur true))) ∧
    (s.here.gang = none → exec .gdisband s = .next ((start s).setCtx s.cur (goneOn s.here 4))) ∧
    (∀ y, s.here.gang = some y →
      ∃ t, exec .gdisband s = .next t ∧ t.here = { goneOn s.here 4 with gang := none } ∧ (∀ id, id ≠ s.cur → t.ctx id = s.ctx id) ∧
        (∀ z ∈ y.members, t.core (z.core .ac) = { s.core (z.core .ac) with follows := none }) ∧ ∀ z, (∀ m ∈ y.members, z ≠ m.core .ac) → t.core z = s.core z)

/-! ### The format core -/

namespace Sys2Proof.Claims

open Sys2Proof.Machine

/-- The task's flags after a unit that sets some: at user level they are or-ed in, above it none is set (03 R99, 04 R120). -/
def gained (c : Ctx) (f : Flags) : Flags := if c.level = 0 then c.flags ||| f else c.flags

/-- A conversion unit took n entries of q and put entries on p in one step (09 R273): every other queue, memory, core and context is as before but for the
task's reserved room, and the running context is c; q and p keep cursor and pack buffer unless the statement says otherwise. -/
def Converted (s t : State) (q n p : Nat) (es : List (Line × Bool)) (cursor : Nat) (pack : List Byte) (c : Ctx) : Prop :=
  let me := s.cur.core.tile
  t = { s with ctxs := t.ctxs, tiles := t.tiles, cores := t.cores, trapped := none } ∧ t.here = c ∧ (∀ id, id ≠ s.cur → t.ctx id = s.ctx id) ∧
  (t.tile me).queue q = { ((s.tile me).queue q).pop s.uid n with cursor := cursor } ∧
  (t.tile me).queue p = { ((s.tile me).queue p).push es with pack := pack } ∧
  (∀ r, r ≠ q → r ≠ p → (t.tile me).queue r = (s.tile me).queue r) ∧ (∃ m, t.tile me = { s.tile me with queues := m }) ∧
  (∀ x, x ≠ me → t.tile x = s.tile x) ∧ ∀ k, ∃ r, t.core k = { s.core k with resv := r }

/-- The tests of 09 R273, R274 and R276 let a unit take n entries of q and put m on p. -/
def Streams (s : State) (q n p m : Nat) : Prop :=
  let x := (s.tile s.cur.core.tile).queue q
  x.cursor = 0 ∧ ((s.tile s.cur.core.tile).queue p).pack = [] ∧ x.has s.uid n = true ∧ s.hasRoom s.cur.core.tile p s.uid m = true ∧
  ∀ e ∈ x.front s.uid n, e.tag = false

/-- Elements of width w of entries (09 R271; 03 R84). -/
def elems (w m : Nat) (es : List Line) : List Nat := streamElems w m (es.flatMap lineBytes)

/-- The entries that the unit takes. -/
def taken (s : State) (q n : Nat) : List Line := (((s.tile s.cur.core.tile).queue q).front s.uid n).map QEntry.data

/-- Elements and entries of a unit between two widths (09 R272). -/
def unitOf (ws wd : Nat) : Nat := Nat.lcm (512 / Nat.gcd 512 ws) (512 / Nat.gcd 512 wd)

/-- One element of cvt (09 R279): to a float type the value is finished as 02 R53 says; to an integer type a float is rounded to nearest even and saturated,
an integer truncated or clamped. -/
def cvtOf (dt st : ElemType) (m : Mods) (mode : Mode) (u p : Nat) : Nat × Flags :=
  let v := m.opA (st.decode p)
  match dt, st with
  | .float f, .float _ => finishFloat f m v.exact mode u
  | .float f, .int _ _ => finishFloat f m (match v with | .fin _ 0 e => Val.fin false 0 e | v => v).exact mode u
  | .int sg w, .float _ => toIntType v sg w
  | .int sg w, .int _ _ =>
    match v with
    | .fin neg k _ =>
      let x : Int := if neg then -(k : Int) else k
      (truncInt (if m.sat || m.clamp then clampInt x sg w else x) w, 0)
    | _ => (0, 0)

end Sys2Proof.Claims

/-- cvt and fqmv (09 R273 to R279): with entries and room the unit takes its entries and puts the converted elements, in order, in whole entries of tag 0;
fqmv passes its entries unchanged, tags included. At user level the flags of the elements are or-ed into the task's (04 R120). -/
def Sys2Proof.Claims.Conversions : Prop :=
  ∀ (t x : BitVec 4) (n a d : BitVec 5) (m : Option (BitVec 32)) (s : State), a ≠ d →
    (let dt := elemType t.toNat
     let st := elemType x.toNat
     let k := unitOf st.width dt.width
     let f := formCvt t x a d m
     Passes s f.roles 0 (f.feats ++ if dt.isFloat ∧ (modsOf m).rmode = 0 ∧ s.here.round = 3 then [7] else []) →
     Streams s a.toNat (k * st.width / 512) d.toNat (k * dt.width / 512) →
       let r := (elems st.width k (taken s a.toNat (k * st.width / 512))).mapIdx fun i p => cvtOf dt st (modsOf m) (modeOf s.here m) (s.here.draw.word i) p
       ∃ u es, exec (.cvt t x a d m) s = .next u ∧
         Converted s u a.toNat (k * st.width / 512) d.toNat (es.map fun l => (l, false)) 0 []
           { goneOn s.here f.len with flags := gained s.here (r.foldl (fun y z => y ||| z.2) 0) } ∧
         es.length = k * dt.width / 512 ∧ elems dt.width k es = r.map fun y => y.1 % 2 ^ dt.width) ∧
    (let f := formFqmv n a d m
     let y := (s.tile s.cur.core.tile).queue a.toNat
     Passes s f.roles 0 f.feats → y.cursor = 0 → ((s.tile s.cur.core.tile).queue d.toNat).pack = [] → y.has s.uid n.toNat = true →
     s.hasRoom s.cur.core.tile d.toNat s.uid n.toNat = true →
       ∃ u, exec (.fqmv n a d m) s = .next u ∧
         Converted s u a.toNat n.toNat d.toNat ((y.front s.uid n.toNat).map fun e => (e.data, e.tag)) 0 [] (goneOn s.here f.len))

/-- cvt and fqmv wait, nothing done, while their entries or their room are not there (09 R273), and trap PROT with the queue for a cursor or pack buffer that is
not empty (R276), cvt for a count entry too (R274). -/
def Sys2Proof.Claims.ConversionTests : Prop :=
  ∀ (t x : BitVec 4) (a d : BitVec 5) (m : Option (BitVec 32)) (s : State), a ≠ d →
    let dt := elemType t.toNat
    let st := elemType x.toNat
    let k := unitOf st.width dt.width
    let f := formCvt t x a d m
    let q := (s.tile s.cur.core.tile).queue a.toNat
    let p := (s.tile s.cur.core.tile).queue d.toNat
    let ok : Prop := q.has s.uid (k * st.width / 512) = true ∧ (k * dt.width / 512 = 0 ∨ s.hasRoom s.cur.core.tile d.toNat s.uid (k * dt.width / 512) = true)
    let n := x.toNat
    let g := formFqmv (x.setWidth 5) a d m
    let room : Prop := q.has s.uid n = true ∧ (n = 0 ∨ s.hasRoom s.cur.core.tile d.toNat s.uid n = true)
    (Passes s g.roles 0 g.feats →
      (q.cursor ≠ 0 → exec (.fqmv (x.setWidth 5) a d m) s = .next ((start s).trap causeProt (BitVec.ofNat 64 (0x100 + a.toNat)))) ∧
      (q.cursor = 0 → p.pack ≠ [] → exec (.fqmv (x.setWidth 5) a d m) s = .next ((start s).trap causeProt (BitVec.ofNat 64 (0x100 + d.toNat)))) ∧
      (q.cursor = 0 → p.pack = [] → ¬room → exec (.fqmv (x.setWidth 5) a d m) s =
        .next ((start s).setCtx s.cur { s.here with phase := .held (.convert a.toNat n d.toNat n) }))) ∧
    (Passes s f.roles 0 (f.feats ++ if dt.isFloat ∧ (modsOf m).rmode = 0 ∧ s.here.round = 3 then [7] else []) →
    (q.cursor ≠ 0 → exec (.cvt t x a d m) s = .next ((start s).trap causeProt (BitVec.ofNat 64 (0x100 + a.toNat)))) ∧
    (q.cursor = 0 → p.pack ≠ [] → exec (.cvt t x a d m) s = .next ((start s).trap causeProt (BitVec.ofNat 64 (0x100 + d.toNat)))) ∧
    (q.cursor = 0 → p.pack = [] → ¬ok → exec (.cvt t x a d m) s = .next ((start s).setCtx s.cur
      { s.here with phase := .held (.convert a.toNat (k * st.width / 512) d.toNat (k * dt.width / 512)) })) ∧
    (q.cursor = 0 → p.pack = [] → ok → (∃ e ∈ q.front s.uid (k * st.width / 512), e.tag = true) →
      exec (.cvt t x a d m) s = .next ((start s).trap causeProt (a.setWidth 64))))

/-- cvt and fqmv (09 R273 to R279): with entries and room the unit takes its entries and puts the converted elements, in order, in whole entries of tag 0;
fqmv passes its entries unchanged, tags included. At user level the flags of the elements are or-ed into the task's (04 R120). cvt and fqmv wait, nothing
done, while their entries or their room are not there (09 R273), and trap PROT with the queue for a cursor or pack buffer that is not empty (R276), cvt for a
count entry too (R274). -/
def Obligations.ConversionUnits : Prop :=
  Claims.Conversions ∧ Claims.ConversionTests

/-- A block of 64 .e4m3 values is read back as it was packed (03 R103 to R107). -/
def Obligations.BlocksUnpackAsPacked : Prop :=
  ∀ vs : List Nat, vs.length = 64 → (∀ v ∈ vs, v < 256) →
    ce8Decode (ce8Block vs) = some vs ∧ (ce8Block vs).length % 8 = 0 ∧ 56 ≤ (ce8Block vs).length ∧ (ce8Block vs).length ≤ 72

/-- pack.ce8 and unpack.ce8 (09 R280 to R283). pack takes one entry, adds its block to the pack buffer of its destination, puts what fills whole entries, at a
flush the rest too, and gives the block's length in units of 8 bytes. unpack reads the block at the cursor, or at the offset its control word gives, puts 64
values of the destination type, the canonical NaN with nv for a malformed block, and leaves the cursor behind the block. -/
def Sys2Proof.Claims.BlockUnits : Prop :=
  ∀ (e : BitVec 1) (t : BitVec 4) (b a d : BitVec 5) (s : State),
    (let q := (s.tile s.cur.core.tile).queue a.toNat
     let blk := ce8Block (((taken s a.toNat 1).flatMap lineBytes).map fun v => if v.toNat % 128 = 127 then 127 else v.toNat)
     let buf := ((s.tile s.cur.core.tile).queue b.toNat).pack ++ blk
     let n := buf.length / 64
     let rest := buf.drop (n * 64)
     let last : Prop := e = 1 ∧ rest ≠ []
     Passes s (formPackCe8 e b a d).roles 0 (formPackCe8 e b a d).feats → a ≠ b → q.cursor = 0 → q.has s.uid 1 = true →
     s.hasRoom s.cur.core.tile b.toNat s.uid 2 = true → (∀ x ∈ q.front s.uid 1, x.tag = false) →
       (last → ∃ u, exec (.packCe8 e b a d) s = .next u ∧
         Converted s u a.toNat 1 b.toNat (((cut 64 n buf).map fun l => (bytesToLine l, false)) ++ [(bytesToLine rest, false)]) 0 []
           ((s.here.setReg d (BitVec.ofNat 64 (blk.length / 8))).complete s.here.level (s.here.pc + 4))) ∧
       (¬last → ∃ u, exec (.packCe8 e b a d) s = .next u ∧
         Converted s u a.toNat 1 b.toNat ((cut 64 n buf).map fun l => (bytesToLine l, false)) 0 rest
           ((s.here.setReg d (BitVec.ofNat 64 (blk.length / 8))).complete s.here.level (s.here.pc + 4)))) ∧
    (∀ dt, elemType t.toNat = .float dt →
     let q := (s.tile s.cur.core.tile).queue a.toNat
     let c := s.here.reg b
     let at_ := if c.getLsbD 6 then c.toNat % 64 else q.cursor
     let len := (((taken s a.toNat 1).flatMap lineBytes).getD at_ 0).toNat / 8 % 16 * 8 + 8
     let n := (at_ + len + 63) / 64
     let blk := (((taken s a.toNat n).flatMap lineBytes).drop at_).take len
     let vs := ((ce8Decode blk).map fun vs => vs.map fun v => (roundTo dt (fmtE4m3.decode v).exact 1 0).1).getD (List.replicate 64 dt.nanBits)
     Passes s (formUnpackCe8 t b a d).roles 0 (formUnpackCe8 t b a d).feats → a ≠ d → c.toNat / 128 = 0 → c.toNat % 8 = 0 →
     ((s.tile s.cur.core.tile).queue d.toNat).pack = [] → q.has s.uid n = true → s.popping s.cur a.toNat = false → dt.width % 8 = 0 → s.hasRoom s.cur.core.tile d.toNat s.uid (dt.width / 8) = true →
     (∀ x ∈ q.front s.uid n, x.tag = false) →
       ∃ u es, exec (.unpackCe8 t b a d) s = .next u ∧
         Converted s u a.toNat ((at_ + len) / 64) d.toNat (es.map fun l => (l, false)) ((at_ + len) % 64) []
           { goneOn s.here 4 with flags := gained s.here (if (ce8Decode blk).isNone then flagNv else 0) } ∧
         es.length = dt.width * 64 / 512 ∧ elems dt.width 64 es = vs.map fun v => v % 2 ^ dt.width)

/-- The MX units (03 R100 to R102; 09 R284, R285). mxs gives the scale bytes of its blocks and moves nothing; mxq puts the elements of the blocks, each value
divided by its block's scale and rounded, and gives the scale bytes; mxd puts the elements times their scales. (A rounded value beyond the element type: DEDUCED,
log 30.) -/
def Sys2Proof.Claims.MxUnits : Prop :=
  ∀ (t : BitVec 4) (x : BitVec 2) (b a d : BitVec 5) (s : State),
    let et := elemType t.toNat
    let ft := if x = 0 then fmtF32 else if x = 1 then fmtBf16 else fmtF16
    let k := unitOf ft.width et.width
    let n := k * ft.width / 512
    let p := k * et.width / 512
    let q := (s.tile s.cur.core.tile).queue a.toNat
    let xs := (elems ft.width k (taken s a.toNat n)).map ft.decode
    let block (j : Nat) : List Val := (xs.drop (32 * j)).take 32
    let scales : Word := BitVec.ofNat 64 (bytesToNat ((List.range (k / 32)).map fun j => BitVec.ofNat 8 (mxScale et (block j))))
    let seven : List Nat := if s.here.round = 3 then [7] else []
    k % 32 = 0 →
    (Passes s (formMxs t x a d).roles 0 (formMxs t x a d).feats → q.cursor = 0 → q.has s.uid n = true → (∀ e ∈ q.front s.uid n, e.tag = false) →
      exec (.mxs t x a d) s = .next ((start s).finishReg 4 d scales)) ∧
    (Passes s (formMxq t x b a d).roles 0 ((formMxq t x b a d).feats ++ seven) → a ≠ b → Streams s a.toNat n b.toNat p →
      let r (i : Nat) : Nat × Flags :=
        if mxScale et (block (i / 32)) = 0xFF then (0, flagNv)
        else mxRound et (xs.getD i .nan) ((mxScale et (block (i / 32)) : Int) - 127) (modeOf s.here none) (s.here.draw.word i)
      ∃ u es, exec (.mxq t x b a d) s = .next u ∧
        Converted s u a.toNat n b.toNat (es.map fun l => (l, false)) 0 []
          { (s.here.setReg d scales).complete s.here.level (s.here.pc + 4) with
            flags := gained s.here ((List.range k).foldl (fun y i => y ||| (r i).2) 0) } ∧
        es.length = p ∧ elems et.width k es = (List.range k).map fun i => (r i).1 % 2 ^ et.width) ∧
    (Passes s (formMxd t x b a d).roles 0 ((formMxd t x b a d).feats ++ seven) → a ≠ d → Streams s a.toNat p d.toNat n →
      let ps := elems et.width k (taken s a.toNat p)
      let r (i : Nat) : Nat × Flags :=
        let sc := ((s.here.reg b).extractLsb' (8 * (i / 32)) 8).toNat
        if sc = 0xFF then (ft.nanBits, 0)
        else roundTo ft ((mxValue et (ps.getD i 0)).exact.scale ((sc : Int) - 127)) (modeOf s.here none) (s.here.draw.word i)
      ∃ u es, exec (.mxd t x b a d) s = .next u ∧
        Converted s u a.toNat p d.toNat (es.map fun l => (l, false)) 0 []
          { goneOn s.here 4 with flags := gained s.here ((List.range k).foldl (fun y i => y ||| (r i).2) 0) } ∧
        es.length = n ∧ elems ft.width k es = (List.range k).map fun i => (r i).1 % 2 ^ ft.width)

/-- pack.ce8 and unpack.ce8 (09 R280 to R283). pack takes one entry, adds its block to the pack buffer of its destination, puts what fills whole entries, at a
flush the rest too, and gives the block's length in units of 8 bytes. unpack reads the block at the cursor, or at the offset its control word gives, puts 64
values of the destination type, the canonical NaN with nv for a malformed block, and leaves the cursor behind the block. The MX units (03 R100 to R102; 09
R284, R285). mxs gives the scale bytes of its blocks and moves nothing; mxq puts the elements of the blocks, each value divided by its block's scale and
rounded, and gives the scale bytes; mxd puts the elements times their scales. (A rounded value beyond the element type: DEDUCED, log 30.) -/
def Obligations.CodedBlocks : Prop :=
  Claims.BlockUnits ∧ Claims.MxUnits

/-! ### The array core, rings, shape records and the engine -/

namespace Sys2Proof.Claims

open Sys2Proof.Machine

/-- Ready slot k of a ring's unclaimed ones, as bytes (10 R286, R289). -/
def slotBytes (s : State) (r k : Nat) : List Byte :=
  let y := (s.tile s.cur.core.tile).ring r
  (s.tile s.cur.core.tile).mem.read ((y.base + (y.head + y.claimed + k) % y.slots * y.lines) * 64) (y.lines * 64)

/-- Nothing of any tile moved but what f gives for it; the running context is c; cores, homes and memories are as before. -/
def TilesOnly (s t : State) (f : TileId → Tile) (c : Ctx) : Prop :=
  t = { s with ctxs := t.ctxs, tiles := t.tiles, fresh := t.fresh, trapped := none } ∧ t.here = c ∧ (∀ id, id ≠ s.cur → t.ctx id = s.ctx id) ∧
  ∀ x, t.tile x = f x

/-- The next unit of an mma or gissue on tiles, its rings rb and ra, is accepted with these operations (10 R295 to R298, R302, R303). -/
def matrixAccepted (s : State) (tiles : List TileId) (mode shape rb ra acc : Nat) (t : State) : Prop :=
  let c := s.here
  let me := s.cur.core.tile
  let n := (shapeOf shape).2.1
  let k := (shapeOf shape).2.2 * ((opClass c.fmta).map OpClass.depth).getD 0
  let wide := n * k * formatWidth c.fmtb / 8
  let mx := c.fmta.getLsbD 4
  let scales (off n : Nat) : List Byte := if mx then s.readHome (.tile me) s.engine off n else []
  let sb := scales c.sclb.toNat (n * tiles.length * k / 32)
  let op (j : Nat) : ArrayOp :=
    { kind := .matrix mode shape c.fmta c.fmtb (slotBytes s ra 0) (((slotBytes s rb (if ra = rb then 1 else 0)).drop (j * wide)).take wide)
        (scales c.scla.toNat ((shapeOf shape).1 * k / 32)) ((sb.drop (j * (n * k / 32))).take (n * k / 32)) (if j = 0 then [ra, rb] else []),
      acc := acc, by_ := s.me }
  t = { s with ctxs := t.ctxs, tiles := t.tiles, trapped := none } ∧ t.here = goneOn c 4 ∧ (∀ id, id ≠ s.cur → t.ctx id = s.ctx id) ∧
  (∀ j, j < tiles.length → (t.tile (tiles.getD j me)).ops = (s.tile (tiles.getD j me)).ops ++ [op j]) ∧
  (∀ r, (t.tile me).ring r = { (s.tile me).ring r with
    claimed := ((s.tile me).ring r).claimed + (if r = ra then 1 else 0) + if r = rb then 1 else 0 }) ∧
  (∀ x, (t.tile x).mem = (s.tile x).mem ∧ (t.tile x).accs = (s.tile x).accs ∧ (t.tile x).full = (s.tile x).full) ∧ ∀ x, x ∉ tiles → t.tile x = s.tile x

end Sys2Proof.Claims

/-- mma and gissue (10 R294 to R303; 08 R265): with fewer than four operations in each array and none of the tests of R295 and R298 failing, the unit claims a
slot of each of its rings, enters its operation, with the operands as they stand, in the order of its array, with gissue of every member's, and completes; with
four it waits; a test that fails traps. -/
def Sys2Proof.Claims.MatrixIssue : Prop :=
  ∀ (m : BitVec 3) (ty : BitVec 4) (x : BitVec 5) (b a : BitVec 3) (c : BitVec 2) (joint : Bool) (s : State),
    let i : Instr := if joint then .gissue m ty x b a c else .mma m ty x b a c
    let tiles := if joint then s.gangTiles else [s.cur.core.tile]
    let n := (shapeOf x.toNat).2.1 * tiles.length
    let fault := s.matrixFault s.here.fmta s.here.fmtb (ty.toNat = 0) x.toNat n a.toNat b.toNat
    Passes s [.ac] 0 (if joint then [3] else []) → tiles.Nodup →
    ((∃ y ∈ tiles, 4 ≤ (s.tile y).ops.length) → exec i s = .next ((start s).setCtx s.cur { s.here with phase := .stall .retry })) ∧
    ((∀ y ∈ tiles, (s.tile y).ops.length < 4) → s.here.maskedFormats s.here.fmta s.here.fmtb = none →
      (∀ r, fault = some r → exec i s = .next ((start s).trap causeProt (BitVec.ofNat 64 r))) ∧
      (fault = none → ∃ t, exec i s = .next t ∧ matrixAccepted s tiles m.toNat x.toNat b.toNat a.toNat c.toNat t))

/-- What an integer matrix operation leaves (10 R299, R300): each element within the shape is the old one, or 0 in mode 1, plus the sum of products modulo
2^32; an element outside the shape is as before, in floating operations too. -/
def Sys2Proof.Claims.MatrixElements : Prop :=
  ∀ (mode shape : Nat) (fa fb : BitVec 5) (a b sa sb : List Byte) (acc : BitVec 32768) (i j : Nat), i < 32 → j < 32 →
    let e := accElem (matrixResult mode shape fa fb a b sa sb acc).1 i j
    let k := (shapeOf shape).2.2 * ((opClass fa).map OpClass.depth).getD 32
    let v (f : BitVec 5) (bs : List Byte) (n : Nat) : Int := intValue (f.toNat % 16 = 9) 8 ((bytesToNat bs) / 2 ^ (8 * n) % 256)
    ((shapeOf shape).1 ≤ i ∨ (shapeOf shape).2.1 ≤ j → e = accElem acc i j) ∧
    (i < (shapeOf shape).1 → j < (shapeOf shape).2.1 → fa = 9 ∨ fa = 10 → fb = 9 ∨ fb = 10 →
      e = BitVec.ofInt 32 ((if mode = 1 then 0 else (accElem acc i j).toInt) +
        ((List.range k).map fun x => v fa a (i * k + x) * v fb b (j * k + x)).sum))

/-- mma and gissue (10 R294 to R303; 08 R265): with fewer than four operations in each array and none of the tests of R295 and R298 failing, the unit claims a
slot of each of its rings, enters its operation, with the operands as they stand, in the order of its array, with gissue of every member's, and completes;
with four it waits; a test that fails traps. What an integer matrix operation leaves (10 R299, R300): each element within the shape is the old one, or 0 in
mode 1, plus the sum of products modulo 2^32; an element outside the shape is as before, in floating operations too. -/
def Obligations.MatrixOperations : Prop :=
  Claims.MatrixIssue ∧ Claims.MatrixElements

/-- mzero, mrow and the drains (10 R294, R305 to R309): with fewer than four operations in each array, each enters its operation on every member's array;
mrow is then in progress until its row comes; a drain takes a sequence number and queues its transfer, behind its operations. -/
def Obligations.AccumulatorUnits : Prop :=
  ∀ (v : BitVec 5) (h : BitVec 1) (r : BitVec 5) (c : BitVec 2) (m : BitVec 3) (ty : BitVec 4) (a : BitVec 5) (s : State),
    Passes s [.ac] 0 [] → s.gangTiles.Nodup → (∀ y ∈ s.gangTiles, (s.tile y).ops.length < 4) →
    let me := s.cur.core.tile
    let add (k : Nat → ArrayKind) (x : TileId) : Tile :=
      match s.gangTiles.idxOf? x with
      | some j => { s.tile x with ops := (s.tile x).ops ++ [{ kind := k j, acc := c.toNat, by_ := s.me }] }
      | none => s.tile x
    let w := s.here.reg a
    let notice := noticeOf (w.extractLsb' 24 16)
    (∃ t, exec (.mzero c) s = .next t ∧ TilesOnly s t (add fun _ => .zero) (goneOn s.here 4)) ∧
    (∃ t, exec (.mrow v h r c) s = .next t ∧ TilesOnly s t (add fun j => .row v r.toNat h.toNat s.fresh j)
      { s.here with phase := .busy s.fresh s.gangTiles.length [] 4 false .none }) ∧
    (∀ n rec plus, notice = some n → w.toNat / 2 ^ 40 = 0 → (s.tile me).handle (w &&& 0xFFFFFF) = some rec → s.permitted s.cur.core = true →
      (s.bceQueue me).length < 64 → s.takeSeq ≠ none →
      ∃ t, exec (if plus then .mdrainadd m ty a c else .mdrain m ty a c) s = .next t ∧ t.here = { goneOn s.here 4 with redo := t.here.redo } ∧
        (∀ id, id ≠ s.cur → t.ctx id = s.ctx id) ∧ (∀ x, t.tile x = add (fun j => .drain s.fresh (m.toNat = 1) j) x) ∧
        t.homes = s.homes ∧ t.hbm = s.hbm ∧ t.host = s.host ∧
        ∃ x, t.xfers = s.xfers ++ [x] ∧ x.id = s.fresh ∧ x.notice = n ∧ x.type = Record.type rec ∧ x.waits = s.gangTiles.length ∧
          x.todo = drainElems rec (coordOf (s.here.regAt a 1)) s.gangTiles.length ∧
          ∃ y, x.drain = some { fl := ty.toNat = 0, add := plus, seed := s.here.seed, ticket := s.here.ticket, seqno := y } ∧ y = s.here.count)

/-- ringcfg and the ring pushes (10 R291 to R293; 07 R233): a configuration word that breaks no rule makes the ring anew; a push that the ring accepts writes
its lines behind those filled, publishing the slot they fill. -/
def Sys2Proof.Claims.RingUnits : Prop :=
  ∀ (n : BitVec 3) (b a d : BitVec 5) (s : State) (wh : Where) (o : Nat), (s.tile s.cur.core.tile).mem.wf = true →
    let me := s.cur.core.tile
    let w := s.here.reg a
    let old := (s.tile me).ring n.toNat
    let rings (t : State) : Prop := ∀ r, r ≠ n.toNat → (t.tile me).ring r = (s.tile me).ring r
    let filled (t : State) (bs : List Byte) : Prop :=
      ((t.tile me).ring n.toNat =
        if old.fill + b.toNat = old.lines then { old with fill := 0, pub := old.pub + 1 } else { old with fill := old.fill + b.toNat }) ∧ rings t ∧
      ∀ x, (t.tile me).mem.get x =
        if old.fillAt ≤ x ∧ x < old.fillAt + 64 * b.toNat then bs.getD (x - old.fillAt) 0 else (s.tile me).mem.get x
    (Passes s [.mc] 0 [] →
      (badRingWord w = true → exec (.ringcfg n a) s = .next ((start s).trap causeProt w)) ∧
      (badRingWord w = false → old.claimed ≠ 0 ∨ old.deliv ≠ 0 → exec (.ringcfg n a) s = .next ((start s).trap causeProt (BitVec.ofNat 64 (0x200 + n.toNat)))) ∧
      (badRingWord w = false → old.claimed = 0 → old.deliv = 0 → (w.getLsbD 63 = true → (s.tile me).ringClash n.toNat (ringOf w) = false) →
        ∃ t, exec (.ringcfg n a) s = .next t ∧ OnlyHere s { t with tiles := s.tiles } ∧ t.here = goneOn s.here 4 ∧ rings t ∧
          (t.tile me).ring n.toNat = (if w.getLsbD 63 then ringOf w else Ring.init) ∧ (t.tile me).mem = (s.tile me).mem ∧ ∀ x, x ≠ me → t.tile x = s.tile x)) ∧
    (Passes s [.mc] 0 [] → 1 ≤ b.toNat → s.pushing n.toNat = false → old.accepts 0 b.toNat = true →
      (s.tile me).deniedLine [.lw] false old.fillAt (64 * b.toNat) = none →
      s.locate d.toNat w (64 * b.toNat) 64 true false = .ok wh → AtOwnHome s wh o (64 * b.toNat) → Granted s [.lr] false o (64 * b.toNat) →
        ∃ t, exec (.ringpushM n b a d) s = .next t ∧ t.here = goneOn s.here 4 ∧ filled t (s.readHome (.tile me) s.me o (64 * b.toNat)) ∧
          t.hbm = s.hbm ∧ t.host = s.host ∧ ∀ x, x ≠ me → (t.tile x).mem = (s.tile x).mem) ∧
    (let q := (s.tile me).queue a.toNat
     Passes s (formRingpushQ n b a).roles 0 [] → 1 ≤ b.toNat → old.accepts 1 b.toNat = true →
     (s.tile me).deniedLine [.lw] false old.fillAt (64 * b.toNat) = none → q.cursor = 0 → s.popping s.cur a.toNat = false → q.has s.uid b.toNat = true →
     (∀ e ∈ q.front s.uid b.toNat, e.tag = false) →
        ∃ t, exec (.ringpushQ n b a) s = .next t ∧ t.here = goneOn s.here 4 ∧ filled t ((taken s a.toNat b.toNat).flatMap lineBytes) ∧
          (t.tile me).queue a.toNat = q.pop s.uid b.toNat ∧ (∀ p, p ≠ a.toNat → (t.tile me).queue p = (s.tile me).queue p) ∧
          t.hbm = s.hbm ∧ t.host = s.host ∧ ∀ x, x ≠ me → (t.tile x).mem = (s.tile x).mem)

/-- tsrw and tsrinv (10 R310, R311, R314, R315): a record that breaks no condition fills its slot and its handle goes to D, else the lowest broken word traps;
tsrinv empties a slot, so that its handles are stale. A slot above 255 traps PROT. -/
def Sys2Proof.Claims.ShapeRecords : Prop :=
  ∀ (g : BitVec 4) (b a d : BitVec 5) (s : State) (w : Where) (o : Nat), Passes s [.mc] 0 [] →
    let me := s.cur.core.tile
    let n := s.here.reg b
    let old := (s.tile me).tsr n.toNat
    let ws := bytesToWords 8 ((start s).readHome (.tile me) (start s).me o 64)
    let same (t : State) (r : Tsr) : Prop :=
      (t.tile me).tsr n.toNat = r ∧ (∀ k, k ≠ n.toNat → (t.tile me).tsr k = (s.tile me).tsr k) ∧ (∃ m, t.tile me = { s.tile me with tsrs := m }) ∧
      (∀ x, x ≠ me → t.tile x = s.tile x) ∧ OnlyHere s { t with tiles := s.tiles }
    (256 ≤ n.toNat → exec (.tsrw g b a d) s = .next ((start s).trap causeProt n) ∧ exec (.tsrinv b) s = .next ((start s).trap causeProt n)) ∧
    (n.toNat < 256 →
      (∃ t, exec (.tsrinv b) s = .next t ∧ same t { valid := false, gen := old.gen + 1, words := old.words } ∧ t.here = goneOn s.here 4) ∧
      (s.locate g.toNat (s.here.reg a) 64 64 true false = .ok w → AtOwnHome s w o 64 → Granted s [.lr] false o 64 →
        (∀ k, tsrFault ws = some k → exec (.tsrw g b a d) s = .next ((start s).trap causeProt (BitVec.ofNat 64 (0x400 + k)))) ∧
        (tsrFault ws = none → ∃ t, exec (.tsrw g b a d) s = .next t ∧ same t { valid := true, gen := old.gen + 1, words := ws } ∧
          t.here = (s.here.setReg d (BitVec.ofNat 64 ((old.gen + 1).toNat * 65536 + n.toNat))).complete s.here.level (s.here.pc + 4) ∧
          (t.tile me).handle (BitVec.ofNat 64 ((old.gen + 1).toNat * 65536 + n.toNat)) = some ws)))

/-- ringcfg and the ring pushes (10 R291 to R293; 07 R233): a configuration word that breaks no rule makes the ring anew; a push that the ring accepts writes
its lines behind those filled, publishing the slot they fill. tsrw and tsrinv (10 R310, R311, R314, R315): a record that breaks no condition fills its slot
and its handle goes to D, else the lowest broken word traps; tsrinv empties a slot, so that its handles are stale. A slot above 255 traps PROT. -/
def Obligations.RingsAndShapes : Prop :=
  Claims.RingUnits ∧ Claims.ShapeRecords

namespace Sys2Proof.Claims

open Sys2Proof.Machine

/-- The copy-engine units that start a transfer (10 R316 to R320): ring, and whether it gathers (false) or scatters (true) rows. -/
def engineUnit : Instr → Option (BitVec 5 × Option Nat × Option Bool)
  | .bcopy d => some (d, none, none)
  | .bcopyRing q d => some (d, some q.toNat, none)
  | .bgather d => some (d, none, some false)
  | .bgatherRing q d => some (d, some q.toNat, some false)
  | .bscatter d => some (d, none, some true)
  | _ => none

end Sys2Proof.Claims

/-- bcopy, bgather, bscatter, their ring forms, and bstat (10 R315 to R321; 07 R228): with a notice word and handles that are good, no breach of R318, fewer than
64 transfers queued and a permitted tag, the unit queues its transfer and completes, no byte of memory changed at issue. A stale handle traps STALE. bstat
gives the task's denials, the tile's queued transfers and the context's. -/
def Obligations.EngineUnits : Prop :=
  ∀ (i : Instr) (d : BitVec 5) (ring : Option Nat) (rows : Option Bool) (s : State), Passes s [.mc] 0 [] →
    let me := s.cur.core.tile
    let w := s.here.reg d
    let h (k : Nat) : Word := (w.extractLsb' (24 * k) 24).setWidth 64
    let box := coordOf (s.here.regAt d 3)
    let count := (box.1 + 1) * (box.2.1 + 1) * (box.2.2.1 + 1) * (box.2.2.2 + 1)
    (engineUnit i = some (d, ring, rows) → ∀ n, noticeOf (w.extractLsb' 48 16) = some n → (ring ≠ none → h 1 = 0 ∧ s.here.regAt d 2 = 0) →
      ((s.tile me).handle (h 0) = none → exec i s = .next ((start s).trap causeStale (h 0))) ∧
      (∀ src, (s.tile me).handle (h 0) = some src →
        (ring = none → (∃ r, (s.tile me).handle (h 1) = some r ∧ Record.type r = Record.type src)) →
        (∀ r, ring = some r →
          let y := (s.tile me).ring r
          (count * (elemType (Record.type src)).width + 7) / 8 ≤ y.lines * 64 ∧ y.en = true ∧ y.filler = 2 ∧ y.pub + y.deliv ≠ y.slots) →
        (rows ≠ none → s.ownPending s.cur.core = false ∧ s.indexArray (s.here.regAt d 4) (box.2.1 + 1) ≠ none) →
        s.permitted s.cur.core = true → (s.bceQueue me).length < 64 → s.takeSeq ≠ none →
          ∃ t, exec i s = .next t ∧ t.here.regs = s.here.regs ∧ t.here.flags = s.here.flags ∧ t.here.pc = (goneOn s.here 4).pc ∧
            (∃ x ∈ t.xfers, x.id = s.fresh ∧ x.notice = n ∧ x.type = Record.type src ∧ x.ring.isSome = ring.isSome ∧ x.drain = none) ∧
            t.homes = s.homes ∧ t.hbm = s.hbm ∧ t.host = s.host ∧ ∀ x, (t.tile x).mem = (s.tile x).mem)) ∧
    exec (.bstat d) s = .next ((start s).finishReg 4 d (BitVec.ofNat 64 (min s.here.edenials 65535 * 65536 + (s.bceQueue me).length * 256 +
      (s.xfers.filter fun x => decide (x.by_.core = s.cur.core) && decide (x.by_.ctx = s.cur.c)).length)))

/-! ### Tasks, waits, spawns, tickets -/

namespace Sys2Proof.Claims

open Sys2Proof.Machine

/-- A unit that sends or counts something went on: the running context takes at most the next sequence number beside what c says; no memory changes. -/
def WentOn (s t : State) (c : Ctx) : Prop :=
  t.here = { c with redo := t.here.redo } ∧ (∀ id, id ≠ s.cur → t.ctx id = s.ctx id) ∧ t.homes = s.homes ∧ t.hbm = s.hbm ∧ t.host = s.host ∧
  ∀ x, (t.tile x).mem = (s.tile x).mem ∧ (t.tile x).full = (s.tile x).full

/-- A packet went into the sender's part of the network, for a tile or out of the module. -/
def Sent (s t : State) (dst : Option TileId) (st : FlightSt) (p : Packet → Prop) : Prop :=
  ∃ y, t.net = s.net ++ [y] ∧ y.src = some s.cur.core ∧ y.dst = dst ∧ y.st = st ∧ y.tag = (s.core s.cur.core).ptag ∧ p y.pkt

end Sys2Proof.Claims

/-- A task ends (05 R165; 04 R118; 12 R369): its context is free, as at its next activation's start; its reservations are gone; no other context changes, but
for the gang contexts that followed it, and no memory. Its flags go to its tile task unless they are discarded, and a number that a unit which trapped took, and
that no later one followed, is the tile task's to take again (12 R353). -/
def Sys2Proof.Claims.TaskEnds : Prop :=
  ∀ (s : State) (id : CtxId) (keep : Bool),
    let t := s.endIn id keep
    t.ctx id = { Ctx.init with level := if id.core.r = .steward then 3 else 0 } ∧ (∀ x, x ≠ id → t.ctx x = s.ctx x) ∧
    t.homes = s.homes ∧ t.hbm = s.hbm ∧ t.host = s.host ∧ (∀ x, (t.tile x).mem = (s.tile x).mem) ∧
    ∀ k, (s.ctx id).task = some k → ((t.core id.core).resv = (s.core id.core).resv.filter fun r => r.uid ≠ k.uid) ∧
      ∀ tt x, k.tt = some tt → s.tts.get? tt = some x →
        let y : TileTask := { x with flags := if keep then x.flags ||| (s.ctx id).flags else x.flags }
        ((s.ctx id).redo = none → t.tts.get? tt = some y) ∧
        (∀ n, (s.ctx id).redo = some n →
          t.tts.get? tt = some (if x.seqOf id.core.r = n then { y with seqs := setAt x.seqs id.core.r.code (n - 1) } else y))

/-- The task units (05 R164 to R167, R170 to R174): end, tid, prio, defer, uimask, uiret, arm and disarm; each word that breaks its table traps PROT with it. (prio
keeps the priority written to an invalid class too, DESIGN CHOICE, log 69.) -/
def Sys2Proof.Claims.TaskUnits : Prop :=
  ∀ (a b d : BitVec 5) (s : State), Passes s onTile 0 [] →
    let c := s.here
    let w := c.reg a
    let e := w.toNat % 256
    let old := (s.core s.cur.core).entry e
    let mine : Prop := old.armed = false ∨ old.owner = s.ownTT
    let armed (t : State) (x : WEntry) : Prop :=
      (t.core s.cur.core).entry e = x ∧ (∀ n, n ≠ e → (t.core s.cur.core).entry n = (s.core s.cur.core).entry n) ∧ ∀ k, k ≠ s.cur.core → t.core k = s.core k
    exec .endTask s = .next ((start s).endIn s.cur true) ∧ exec .compactEnd s = .next ((start s).endIn s.cur true) ∧
    (∀ k, c.task = some k → exec (.tid d) s =
      .next ((start s).finishReg 4 d (BitVec.ofNat 64 (k.kind.code * 2 ^ 24 + k.entry.toNat * 2 ^ 8 + s.cur.c * 2 ^ 6 + k.cls)))) ∧
    (w &&& ~~~0x873F ≠ 0 → exec (.prio a d) s = .next ((start s).trap causeProt w)) ∧
    (w &&& ~~~0x873F = 0 →
      let n := w.toNat % 64
      let old := (s.core s.cur.core).classes.getD n Class.invalid
      ∃ t, exec (.prio a d) s = .next t ∧ t.here = (c.setReg d (BitVec.ofNat 64 old.prio)).complete c.level (c.pc + 4) ∧
        OnlyHere s { t with cores := s.cores } ∧ (∀ k, k ≠ s.cur.core → t.core k = s.core k) ∧
        (t.core s.cur.core).classes.getD n Class.invalid = (if w.getLsbD 15 then { old with prio := w.toNat / 256 % 8 } else old) ∧
        ∀ m, m ≠ n → (t.core s.cur.core).classes.getD m Class.invalid = (s.core s.cur.core).classes.getD m Class.invalid) ∧
    (w.toNat < 2 → exec (.defer a) s = .next ((start s).setCtx s.cur { goneOn c 4 with background := w.getLsbD 0 })) ∧
    (2 ≤ w.toNat → exec (.defer a) s = .next ((start s).trap causeProt w)) ∧
    (Passes s onTile 0 [5] →
      (w.toNat < 2 → exec (.uimask a d) s =
        .next ((start s).setCtx s.cur { (c.setReg d (if c.uim then 1 else 0)).complete c.level (c.pc + 4) with uim := w.getLsbD 0 })) ∧
      (2 ≤ w.toNat → exec (.uimask a d) s = .next ((start s).trap causeProt w)) ∧
      (c.uih = true → exec .uiret s = .next ((start s).setCtx s.cur (({ c with loop := c.uloop, uih := false } : Ctx).complete c.level c.upc)))) ∧
    (c.uih = false → exec .uiret s = .next ((start s).trap causeIllegal formUiret.bits)) ∧
    (w.toNat < 256 → mine → ∃ t, exec (.disarm a d) s = .next t ∧ armed t { old with counter := 0, armed := false } ∧
      WentOn s t ((c.setReg d (old.counter.setWidth 64)).complete c.level (c.pc + 4))) ∧
    (256 ≤ w.toNat ∨ ¬mine → exec (.disarm a d) s = .next ((start s).trap causeProt w)) ∧
    (let thr := w.extractLsb' 16 32
     let ok : Prop := c.isNotice = false ∧ w.extractLsb' 48 16 = 0 ∧ w.getLsbD 15 = false ∧ thr ≠ 0 ∧ mine
     (¬ok → exec (.arm b a) s = .next ((start s).trap causeProt w)) ∧
     (ok → w.getLsbD 14 = false → ∀ key s', s.takeSeq = some (key, s') →
       ∃ t, exec (.arm b a) s = .next t ∧ WentOn s t (goneOn c 4) ∧
         armed t { old with armed := true, thr := thr, cls := (w.extractLsb' 8 6).toNat, join := false, arg := c.reg b, owner := s.ownTT,
                            seq := (key.map Key.seq).getD 0, index := 0 }) ∧
     (ok → w.getLsbD 14 = true → ∀ tt k s' key s'', s.ownTT = some tt → s.takeSpawn tt s.cur.core.r = some (k, s') → s'.takeSeq = some (key, s'') →
       ∃ t, exec (.arm b a) s = .next t ∧ WentOn s t (goneOn c 4) ∧
         armed t { old with armed := true, thr := thr, cls := (w.extractLsb' 8 6).toNat, join := true, arg := c.reg b, owner := s.ownTT,
                            seq := (key.map Key.seq).getD 0, index := k }))

/-- uiret on a die steward, which has no user-interrupt handlers (02 R521): it traps ROLE, as every form of majors 0x13 to 0x16, once no feature of it is masked. -/
def Sys2Proof.Claims.UiretOnStewards : Prop :=
  ∀ s : State, s.cur.core.r = .steward → (2 ≤ s.here.level.toNat ∨ ∀ n ∈ formUiret.feats, (s.here.task.elim 0 Task.prof).getLsbD n = false) →
    exec .uiret s = .next ((start s).trap causeRole formUiret.bits)

/-- A task ends (05 R165; 04 R118; 12 R369): its context is free, as at its next activation's start; its reservations are gone; no other context changes, but
for the gang contexts that followed it, and no memory. Its flags go to its tile task unless they are discarded, and a number that a unit which trapped took,
and that no later one followed, is the tile task's to take again (12 R353). The task units (05 R164 to R167, R170 to R174): end, tid, prio, defer, uimask,
uiret, arm and disarm; each word that breaks its table traps PROT with it. (prio keeps the priority written to an invalid class too, DESIGN CHOICE, log 69.)
uiret on a die steward, which has no user-interrupt handlers (02 R521): it traps ROLE, as every form of majors 0x13 to 0x16, once no feature of it is masked.
-/
def Obligations.TaskEndsAndUnits : Prop :=
  Claims.TaskEnds ∧ Claims.TaskUnits ∧ Claims.UiretOnStewards

/-- waita and wake (05 R161, R162, R168, R169; 07 R220) on an aligned word of the own tile: waita arms its entry with threshold 1, and registers when the word
has the expected value, else counts at once; wake takes the oldest waiters of the word away, an increment on its way to each. -/
def Obligations.WaitsAndWakes : Prop :=
  ∀ (x b a : BitVec 5) (s : State) (o : Nat), Passes s onTile 0 [] →
    let c := s.here
    let at_ := c.reg a
    let w := c.reg x
    let e := w.toNat % 256
    let me := Home.tile s.cur.core.tile
    let old := (s.core s.cur.core).entry e
    let value := bytesToWord (s.readHome me s.me o 8)
    at_.toNat % 8 = 0 → s.badWindow s.cur.core.l at_ 8 = false → s.pieces s.cur.core (.global at_) 8 = [.own o 8 0] → s.ownPending s.cur.core = false →
    (∀ key s', s.takeSeq = some (key, s') → c.isNotice = false → w.extractLsb' 48 16 = 0 → w.getLsbD 15 = false → w.extractLsb' 14 1 = 0 →
      w.extractLsb' 16 32 = 0 → (old.armed = false ∨ old.owner = s.ownTT) → Granted s [.lr] false o 8 →
      let armed : WEntry := { counter := 0, armed := true, thr := 1, cls := (w.extractLsb' 8 6).toNat, join := false, arg := c.reg b, owner := s.ownTT,
                              seq := (key.map Key.seq).getD 0, index := 0 }
      ∃ t, exec (.waita x b a) s = .next t ∧ t.here = { goneOn c 4 with redo := t.here.redo } ∧ (∀ id, id ≠ s.cur → t.ctx id = s.ctx id) ∧
        t.tiles = s.tiles ∧ t.hbm = s.hbm ∧ t.host = s.host ∧ (t.core s.cur.core).entry e = armed ∧
        (value = c.reg b → (s.home me).waiters.length < 32 →
          (t.home me).waiters = (s.home me).waiters ++ [{ off := o, core := s.cur.core, entry := e, tag := (s.core s.cur.core).ptag }] ∧ t.net = s.net) ∧
        (value ≠ c.reg b → t.homes = s.homes ∧ ∃ y, t.net = s.net ++ [y] ∧ y.pkt = .increment s.cur.core e ∧ y.dst = some s.cur.core.tile)) ∧
    (AtOnce s → Granted s [.lw] false o 8 → (s.home me).syncs = [] →
      let there := (s.home me).waiters.filter fun y => y.off = o
      let chosen := there.take (c.reg b).toNat
      ∃ t, exec (.wake b a) s = .next t ∧ t.here = { goneOn c 4 with redo := t.here.redo } ∧ (∀ id, id ≠ s.cur → t.ctx id = s.ctx id) ∧
        ((t.home me).waiters.filter fun y => y.off = o) = there.drop (c.reg b).toNat ∧
        ((t.home me).waiters.filter fun y => y.off ≠ o) = ((s.home me).waiters.filter fun y => y.off ≠ o) ∧
        (∃ ys, t.net = s.net ++ ys ∧ ys.map Flight.pkt = chosen.map fun y => Packet.increment y.core y.entry) ∧
        (∀ y, (t.tile y).mem = (s.tile y).mem) ∧ t.hbm = s.hbm ∧ t.host = s.host)

/-- spawn and spawnr (05 R157 to R160, R175; 12 R351): a word that breaks Table 5.5 traps PROT; else the child tile task exists, with the next spawn index at
the end of its path, and its activation waits for the earlier device writes and travels to its tile: the one named, or, roaming, one of the candidates. -/
def Sys2Proof.Claims.Spawns : Prop :=
  ∀ (x : BitVec 6) (a d : BitVec 5) (s : State) (roaming : Bool),
    let i : Instr := if roaming then .spawnr x a d else .spawn x a d
    let w := s.here.reg a
    let tile := w.toNat % 2 ^ 20
    let role : Role := if w.extractLsb' 33 2 = 0 then .mc else if w.extractLsb' 33 2 = 1 then .fc else .ac
    Passes s onTile 0 (if roaming then [4] else []) →
    (s.here.isNotice = true ∨ w.toNat / 2 ^ 35 ≠ 0 ∨ w.extractLsb' 33 2 = 3 ∨ s.gridSize s.cur.core.l ≤ tile ∨ (roaming = false ∧ w.extractLsb' 20 4 ≠ 0) →
      exec i s = .next ((start s).trap causeProt w)) ∧
    (∀ tt p k s' key s'', s.here.isNotice = false → w.toNat / 2 ^ 35 = 0 → w.extractLsb' 33 2 ≠ 3 → tile < s.gridSize s.cur.core.l →
      (roaming = false → w.extractLsb' 20 4 = 0) → s.ownTT = some tt → s.tts.get? tt = some p → s.takeSpawn tt s.cur.core.r = some (k, s') →
      s'.takeSeq = some (key, s'') → s.permitted s.cur.core = true →
        let child : TTId := ⟨tt.l, tt.path ++ [k]⟩
        ∃ t y, exec i s = .next t ∧ WentOn s t (goneOn s.here 4) ∧
          Sent s t (some ⟨tt.l, y⟩) (.queued s.deviceWrites) (fun q => ∃ v, q = .spawn ⟨tt.l, y, role⟩ v s.uid ∧ v.tt = child ∧ v.cls = x.toNat ∧
            v.kind = (if roaming then .roaming else .spawn) ∧ v.s1 = s.here.reg d ∧ v.s2 = k.setWidth 64 ∧ v.s3 = BitVec.ofNat 64 s.cur.core.t) ∧
          (roaming = false → y = tile) ∧
          (roaming = true → y = tile ∨ y ∈ s.candidates s.cur.core.l tile (w.extractLsb' 20 4).toNat) ∧
          ∃ z, t.tts.get? child = some z ∧ z.index = p.index ∧ z.node = p.node ∧ z.tile = ⟨tt.l, y⟩ ∧ z.done = false ∧ z.voided = ((s.tts.get? child).map TileTask.voided).getD false ∧
            z.report = if w.getLsbD 32 then some (s.cur.core, (w.extractLsb' 24 8).toNat) else none)

/-- The ticket units (12 R376 to R379, Tables 12.8, 12.9; 12 R369): tkt.get gives the scope, depth and next sequence number; tkt.scope queries or changes the
scope, of whose hamper the latest op 1 among its running launches tells (DESIGN CHOICE, log 91) and of whose end every launch of it, and once it ends a stream its
interface has none open; tkt.void, from kernel level, ends the task and voids its tile task, whose other tasks are to end at their next unit boundary; a word that
breaks its table traps PROT. -/
def Sys2Proof.Claims.TicketUnits : Prop :=
  ∀ (a d : BitVec 5) (s : State) (l : Launch), s.launches.get? s.cur.core.l = some l →
    let w := s.here.reg a
    let op := w.toNat % 16
    let u := w.toNat / 256 % 256
    let bits : Nat := (match l.scope with | .none => 0 | .launch => 1 | .stream => 2) * 2 ^ 62 + if l.scope = .stream then l.number.toNat * 2 ^ 32 else 0
    let word (o : Nat) (ends : Bool) : Word :=
      BitVec.ofNat 64 (bits + (if l.scope = .none then 0 else l.slot) * 2 ^ 48 + o * 256 + if ends then 1 else 0)
    let ended := s.launches.any fun x => x.2.ending && s.sameScope x.1 s.cur.core.l
    let first : Prop := s.ownTT.map TTId.path = some (List.replicate (s.staticDepth s.cur.core.l) 0)
    let legal : Prop := op ≤ 2 ∧ w.toNat / 2 ^ 16 = 0 ∧ w.toNat / 16 % 16 = 0 ∧ (op ≠ 1 → u = 0) ∧ (op ≠ 0 → first)
    let gives (m : Launch) (o : Nat) (ends : Bool) : Prop := ∃ t, exec (.tktScope a d) s = .next t ∧ OnlyHere s { t with launches := s.launches, ifaces := s.ifaces } ∧
      (op < 2 → t.ifaces = s.ifaces) ∧ (op = 2 → l.ending = false → (t.iface l.iface).stream.map Prod.fst ≠ some l.slot) ∧
      t.launches.get? s.cur.core.l = some m ∧ (∀ n, n ≠ s.cur.core.l → t.launches.get? n = s.launches.get? n) ∧
      t.here = (s.here.setReg d (word o ends)).complete s.here.level (s.here.pc + 4)
    (Passes s onTile 0 [] → ∀ tt x, s.ownTT = some tt → s.tts.get? tt = some x → exec (.tktGet d) s =
      .next ((start s).finishReg 4 d (BitVec.ofNat 64 (bits + (tt.path.length - 1) * 2 ^ 59 + (seqWord s.cur.core.r (s.here.nextSeq x s.cur.core.r)).toNat)))) ∧
    (Passes s onTile 0 [2] →
      (¬legal → exec (.tktScope a d) s = .next ((start s).trap causeProt w)) ∧ (legal → op = 0 → gives l (s.scopeOverflow s.cur.core.l) ended) ∧
      (legal → op = 1 → l.free = false → l.overflow = none → u ≤ l.pool → l.done = false →
        gives { l with overflow := some u, overflowAt := s.launches.foldl (fun m x => max m x.2.overflowAt) 0 + 1, pool := l.pool - u } u ended) ∧
      (legal → op = 2 → l.free = false → l.scope = .stream → gives { l with ending := true } (s.scopeOverflow s.cur.core.l) true) ∧
      (legal → op ≠ 0 → l.free = true → exec (.tktScope a d) s = .next ((start s).trap causeProt w))) ∧
    (Passes s onTile 1 [2] →
      (w ≠ 0 → exec (.tktVoid a) s = .next ((start s).trap causeProt w)) ∧
      (w = 0 → ∃ t, exec (.tktVoid a) s = .next t ∧ t.here = Ctx.init ∧
        ∀ tt x, s.ownTT = some tt → s.tts.get? tt = some x → (∃ y, t.tts.get? tt = some y ∧ y.voided = true ∧ y.retired = true) ∧
          ∀ id, id ≠ s.cur → id.core ∈ s.cores.keys → id.c < 4 → (s.ctx id).task.bind Task.tt = some tt → (t.ctx id).ends = true))

/-- spawn and spawnr (05 R157 to R160, R175; 12 R351): a word that breaks Table 5.5 traps PROT; else the child tile task exists, with the next spawn index at
the end of its path, and its activation waits for the earlier device writes and travels to its tile: the one named, or, roaming, one of the candidates. The
ticket units (12 R376 to R379, Tables 12.8, 12.9; 12 R369): tkt.get gives the scope, depth and next sequence number; tkt.scope queries or changes the scope,
of whose hamper the latest op 1 among its running launches tells (DESIGN CHOICE, log 91) and of whose end every launch of it, and once it ends a stream its
interface has none open; tkt.void, from kernel level, ends the task and voids its tile task, whose other tasks are to end at their next unit boundary; a word
that breaks its table traps PROT. -/
def Obligations.SpawnsAndTickets : Prop :=
  Claims.Spawns ∧ Claims.TicketUnits

/-! ### Messages, queues and channels -/

namespace Sys2Proof.Claims

open Sys2Proof.Machine

/-- n registers from the k-th behind d (06 Table 6.3). -/
def regsFrom (s : State) (d : BitVec 5) (k n : Nat) : List Word := (List.range n).map fun i => s.here.reg (BitVec.ofNat 5 (d.toNat + (k + i)))

/-- n flits at an offset of the own scratchpad that the task may read (06 R197); none where the unit traps or waits. -/
def padWords (s : State) (off : Word) (n : Nat) : Option (List Word) :=
  if n = 0 then some []
  else if off.toNat % 64 = 0 ∧ off.toNat + 64 * n ≤ 2 ^ 20 ∧ (s.tile s.cur.core.tile).deniedLine [.lr] false off.toNat (64 * n) = none ∧
      s.ownPending s.cur.core = false then
    some (bytesToWords (8 * n) (s.readHome (.tile s.cur.core.tile) s.me off.toNat (64 * n)))
  else none

/-- The payload of the sending units: the roles that run the form, and the words (06 R196 to R201). -/
def payload (s : State) : Instr → Option (List Role × Option (List Word))
  | .sendR n _ d => some (onTile, some (regsFrom s d 0 n.toNat))
  | .sendM n _ d => some ([.mc], padWords s (s.here.reg d) n.toNat)
  | .sendiR _ n _ d => some (onTile, some (regsFrom s d 1 n.toNat))
  | .sendiM _ n _ d => some ([.mc], padWords s (s.here.reg (BitVec.ofNat 5 (d.toNat + 1))) n.toNat)
  | .sendwR _ n d => some (onTile, some (regsFrom s d 2 n.toNat))
  | .sendwM _ n d => some ([.mc], padWords s (s.here.reg (BitVec.ofNat 5 (d.toNat + 2))) n.toNat)
  | .replyR n d => some (onTile, some (regsFrom s d 0 n.toNat))
  | .replyM n d => some ([.mc], padWords s (s.here.reg d) n.toNat)
  | _ => none

/-- A message of the current task with these words (06 R176, R177, R179). -/
def Carries (s : State) (m : Message) (key : Option Key) (ws : List Word) (sendCh ch : Nat) (reply direct : Bool) : Prop :=
  m.words = ws ∧ m.src = s.cur.core ∧ m.sendCh = sendCh ∧ m.ch = ch ∧ m.refused = false ∧ m.reply = reply ∧ m.direct = direct ∧ m.tt = s.ownTT ∧
  m.uid = s.uid ∧ ∀ k, key = some k → m.key = k

/-- Bytes of a sendw: of its words' registers, or of its flits (06 R200). -/
def sendwOf : Instr → Option (BitVec 2 × BitVec 5 × Nat)
  | .sendwR r n d => some (r, d, 8 * n.toNat)
  | .sendwM r n d => some (r, d, 64 * n.toNat)
  | _ => none

end Sys2Proof.Claims

/-- The sending units (06 R176, R196 to R201; 11 R340): with their tests passed, each completes with its message, or its write, on the way behind the task's
earlier device writes. send takes credits from its channel; sendi goes to the tile and role named, reply to the sender of the activating message; sendw's write
sets its words full and may count at an entry of its tile. No memory changes at issue. -/
def Sys2Proof.Claims.Sends : Prop :=
  ∀ (i : Instr) (s : State) (roles : List Role) (ws : List Word) (key : Option Key) (s' : State),
    payload s i = some (roles, some ws) → Passes s roles 0 [] → s.permitted s.cur.core = true → s.takeSeq = some (key, s') →
    (∀ n q d, i = .sendR n q d ∨ i = .sendM n q d →
      let k := (s.core s.cur.core).chan q.toNat
      let cost := 1 + (ws.length + 7) / 8
      let peer := k.peer.getD (s.cur.core, 0)
      (k.kind ≠ .send → exec i s = .next ((start s).trap causeProt (q.setWidth 64))) ∧
      (k.kind = .send → k.credits < cost → exec i s = .next ((start s).trap causeProt (BitVec.ofNat 64 (0x100 + q.toNat)))) ∧
      (k.kind = .send → cost ≤ k.credits → k.edge = none →
        ∃ t, exec i s = .next t ∧ WentOn s t (goneOn s.here 4) ∧ (t.core s.cur.core).chan q.toNat = { k with credits := k.credits - cost } ∧
          Sent s t (some peer.1.tile) (.queued s.deviceWrites) fun p => ∃ m, p = .message peer.1 m ∧ Carries s m key ws q.toNat peer.2 false false)) ∧
    (∀ r n q d t, i = .sendiR r n q d ∨ i = .sendiM r n q d → s.resolve s.cur.core (s.here.reg d) = some t →
      let dst : CoreId := ⟨s.cur.core.l, t, Role.ofCode r.toNat⟩
      ∃ t, exec i s = .next t ∧ WentOn s t (goneOn s.here 4) ∧ t.cores = s.cores ∧
        Sent s t (some dst.tile) (.queued s.deviceWrites) fun p => ∃ m, p = .message dst m ∧ Carries s m key ws q.toNat q.toNat false true) ∧
    (∀ n d k, i = .replyR n d ∨ i = .replyM n d → s.here.task = some k → k.kind = .message → k.hdr.extractLsb' 0 3 = 1 →
      let dst : CoreId := ⟨k.sender.l, k.sender.t, Role.ofCode (k.hdr.extractLsb' 16 2).toNat⟩
      let ch := (k.hdr.extractLsb' 18 6).toNat
      ∃ t, exec i s = .next t ∧ WentOn s t (goneOn s.here 4) ∧ t.cores = s.cores ∧
        Sent s t (some dst.tile) (.queued s.deviceWrites) fun p => ∃ m, p = .message dst m ∧ Carries s m key ws ch ch true true) ∧
    (∀ r d len, sendwOf i = some (r, d, len) →
      let x := s.here.reg d
      let n := s.here.reg (BitVec.ofNat 5 (d.toNat + 1))
      let dst : TileId := ⟨s.cur.core.l, x.toNat / 2 ^ 20 % 2 ^ 20⟩
      let off := x.toNat % 2 ^ 20
      x.toNat % 8 = 0 → x.toNat / 2 ^ 40 = 0x10 → dst.t < s.gridSize s.cur.core.l → off + len ≤ 2 ^ 20 → n.toNat < 512 →
      (s.outstanding s.uid).length < 256 →
        ∃ t, exec i s = .next t ∧ WentOn s t (goneOn s.here 4) ∧ t.cores = s.cores ∧
          t.posted = s.posted ++ [{ wid := s.fresh, by_ := s.me, home := .tile dst, addr := x }] ∧
          Sent s t (some dst) (.queued []) fun p => ∃ e, p = .effect (.tile dst) e ∧ e.sendw = true ∧ e.key = key ∧ e.wid = some s.fresh ∧
            e.acts = .write off ((ws.flatMap wordBytes).take len) .full ::
              (if n.getLsbD 8 then [.incr ⟨dst.l, dst.t, Role.ofCode r.toNat⟩ (n.toNat % 256)] else []))

/-- refuse (06 R191, R201): in a task that a direct message activated and that still holds it, the message is released and returned to its sender. -/
def Sys2Proof.Claims.Refusals : Prop :=
  ∀ (s : State) (k : Task) (r : MsgRef) (m : EndMsg), Passes s onTile 0 [] → s.here.task = some k →
    (k.kind ≠ .message ∨ k.hdr.extractLsb' 0 3 ≠ 1 → exec .refuse s = .next ((start s).trap causeProt 0)) ∧
    (k.kind = .message → k.hdr.extractLsb' 0 3 = 1 → k.msg = some r →
      (((s.core s.cur.core).chan r.ch).held k.uid).find? (fun m => m.msg.id = r.id) = some m → s.permitted s.cur.core = true →
        ∃ t, exec .refuse s = .next t ∧ WentOn s t (goneOn s.here 4) ∧
          (∀ x ∈ ((t.core s.cur.core).chan r.ch).msgs, x.msg.id ≠ r.id) ∧
          ∃ f, f ∈ t.net ∧ f.dst = some m.msg.src.tile ∧ f.st = .queued [] ∧ ∃ n, f.pkt = .message m.msg.src n ∧ n.refused = true ∧ n.words = m.msg.words ∧
            n.src = s.cur.core ∧ n.ch = m.msg.ch)

/-- The sending units (06 R176, R196 to R201; 11 R340): with their tests passed, each completes with its message, or its write, on the way behind the task's
earlier device writes. send takes credits from its channel; sendi goes to the tile and role named, reply to the sender of the activating message; sendw's
write sets its words full and may count at an entry of its tile. No memory changes at issue. refuse (06 R191, R201): in a task that a direct message activated
and that still holds it, the message is released and returned to its sender. -/
def Obligations.SendsAndRefusals : Prop :=
  Claims.Sends ∧ Claims.Refusals

/-- The queue and channel units (06 R202 to R208): peeks, counts and flushes of a queue and of the messages that the task holds, binding a receive end, opening
and closing a direct one, and the channel status word. -/
def Obligations.QueueAndChannelUnits : Prop :=
  ∀ (i : BitVec 6) (h : BitVec 1) (q : BitVec 6) (d : BitVec 5) (s : State),
    let me := s.cur.core.tile
    let x := (s.tile me).queue q.toNat
    let k := (s.core s.cur.core).chan q.toNat
    let held := s.heldOn s.cur.core q.toNat s.uid
    let w := s.here.reg d
    let chan (t : State) (y : Chan) : Prop :=
      WentOn s t (goneOn s.here 4) ∧ t.net = s.net ∧ (t.core s.cur.core).chan q.toNat = y ∧
      (∀ n, n ≠ q.toNat → (t.core s.cur.core).chan n = (s.core s.cur.core).chan n) ∧ ∀ c, c ≠ s.cur.core → t.core c = s.core c
    (Passes s (readers q.toNat) 0 [] → s.popping s.cur q.toNat = false →
      (x.has s.uid 1 = false → exec (.qpeekQ i q d) s = .next ((start s).setCtx s.cur { s.here with phase := .held (.emptyQueue q.toNat 1) })) ∧
      (∀ e, (x.front s.uid 1) = [e] → exec (.qpeekQ i q d) s =
        .next ((start s).finishReg 4 d (if i = 8 then (if e.tag then 1 else 0) else (e.data >>> (64 * i.toNat)).setWidth 64))) ∧
      (x.has s.uid 1 = true → ∃ t, exec (.qflushQ q) s = .next t ∧ WentOn s t (goneOn s.here 4) ∧ t.cores = s.cores ∧ t.net = s.net ∧
        (t.tile me).queue q.toNat = { x.pop s.uid 1 with cursor := 0 } ∧ ∀ p, p ≠ q.toNat → (t.tile me).queue p = (s.tile me).queue p)) ∧
    (Passes s (readers q.toNat ++ writers q.toNat) 0 [] → exec (.qcntQ q d) s = .next ((start s).finishReg 4 d (BitVec.ofNat 64
      (if s.cur.core.r = queueWriter q.toNat then (s.core s.cur.core).ownRoom q.toNat s.uid else (x.entries.filter fun e => e.owner = some s.uid).length)))) ∧
    (Passes s onTile 0 [] →
      exec (.qcntC q d) s = .next ((start s).finishReg 4 d (BitVec.ofNat 64 held.length)) ∧
      (held = [] → exec (.qpeekC h i q d) s = .next ((start s).trap causeProt (q.setWidth 64)) ∧
        exec (.qflushC q) s = .next ((start s).trap causeProt (q.setWidth 64))) ∧
      (∀ m ms, held = m :: ms → exec (.qpeekC h i q d) s = .next ((start s).finishReg 4 d (m.msg.words.getD (64 * h.toNat + i.toNat) 0)) ∧
        ∃ t, exec (.qflushC q) s = .next t ∧ WentOn s t (goneOn s.here 4) ∧ ∀ y ∈ ((t.core s.cur.core).chan q.toNat).msgs, y.msg.id ≠ m.msg.id) ∧
      (let n := w.toNat % 64
       let ok : Prop := w.toNat / 2 ^ 17 = 0 ∧ w.toNat / 64 % 4 = 0 ∧ (k.kind = .bound ∨ k.kind = .direct) ∧
         if w.getLsbD 16 then n = 0 else s.classOk n = true
       (¬ok → exec (.qbind q d) s = .next ((start s).trap causeProt w)) ∧
       (ok → ∃ t, exec (.qbind q d) s = .next t ∧ t.launches = s.launches ∧
         chan t { k with bind := if w.getLsbD 16 then .count (w.toNat / 256 % 256) else .cls n })) ∧
      (∀ l, s.launches.get? s.cur.core.l = some l →
        let depth := w.toNat / 2 ^ 16 % 2 ^ 10
        let hamper := w.toNat / 256 % 256
        let ok : Prop := k.kind = .closed ∧ w.toNat / 2 ^ 26 = 0 ∧ w.toNat / 64 % 4 = 0 ∧ 17 ≤ depth ∧ (s.core s.cur.core).depths + depth ≤ 1024 ∧
          hamper ≤ l.pool ∧ s.classOk (w.toNat % 64) = true
        (¬ok → exec (.chopen q d) s = .next ((start s).trap causeProt w)) ∧
        (ok → ∃ t, exec (.chopen q d) s = .next t ∧ t.launches.get? s.cur.core.l = some { l with pool := l.pool - hamper } ∧
          chan t { Chan.closed with kind := .direct, depth := depth, hamper := hamper, bind := .cls (w.toNat % 64) }) ∧
        (k.kind ≠ .direct ∨ k.msgs ≠ [] → exec (.chclose q) s = .next ((start s).trap causeProt (q.setWidth 64))) ∧
        (k.kind = .direct → k.msgs = [] → ∃ t, exec (.chclose q) s = .next t ∧ t.launches.get? s.cur.core.l = some { l with pool := l.pool + k.hamper } ∧
          chan t { Chan.closed with refusals := k.refusals, retries := k.retries })) ∧
      exec (.chstat q d) s = .next ((start s).finishReg 4 d (BitVec.ofNat 64
        ((match k.kind with | .closed => 0 | .send => 1 | .bound => 2 | .direct => 3) * 2 ^ 62 +
         (if k.kind = .send ∨ k.kind = .direct then min k.refusals 0x3FFF else 0) * 2 ^ 48 + min k.retries 0xFFFF * 2 ^ 32 +
         (if k.kind = .bound ∨ k.kind = .direct then min (k.msgs.filter fun m => m.hampered).length 0xFFFF else 0) * 2 ^ 16 +
         (if k.kind = .bound ∨ k.kind = .direct then sumOf ((k.msgs.filter fun m => !m.hampered).map fun m => 1 + (m.msg.words.length + 7) / 8)
          else if k.kind = .send then min k.credits 0xFFFF else 0)))))

/-! ### Barriers, groups, semaphores, rounds and the tile table -/

/-- The barrier and group units (13 R380, R393 to R399; 17 R464): words that break their tables trap PROT; a counted bar.init makes its barrier anew, telling
the group's owner where it was bound, if its tag is permitted (tested for an owner at the own tile too, DEDUCED, log 10); bar.exp sets the next phase's count; a
bound bar.init, bar.arr, bar.wait, grp.join, grp.leave and grp.q send their request to the owner, and are in progress until its answer. -/
def Sys2Proof.Claims.BarrierAndGroupUnits : Prop :=
  ∀ (r : BitVec 2) (n : BitVec 7) (a d : BitVec 5) (s : State), Passes s onTile 0 [] →
    let me := s.cur.core
    let b := (s.core me).bar n.toNat
    let w := s.here.reg a
    let v := s.here.reg (BitVec.ofNat 5 (a.toNat + 1))
    let g := w.toNat % 256
    let ask (i : Instr) (c : Cont) (dst : TileId) (st : FlightSt) (p : Packet) : Prop :=
      ∃ t, exec i s = .next t ∧ WentOn s t { s.here with phase := .busy s.fresh 1 [] 4 false c } ∧ Sent s t (some dst) st fun q => q = p
    let group (x : Nat) : TileId := ⟨me.l, x % s.gridSize me.l⟩
    let bar (t : State) (x : Barrier) : Prop := (t.core me).bar n.toNat = x ∧ ∀ k, k ≠ n.toNat → (t.core me).bar k = (s.core me).bar k
    (badInit w = true → exec (.barInit n a) s = .next ((start s).trap causeProt w)) ∧
    (badInit w = false → b.binding = none → (s.core me).barInUse n.toNat = true →
      exec (.barInit n a) s = .next ((start s).trap causeProt (BitVec.ofNat 64 (0x700 + n.toNat)))) ∧
    (badInit w = false → b.binding = none → (s.core me).barInUse n.toNat = false → w.getLsbD 63 = false → (∀ x, b.mode ≠ .bound x) →
      ∃ t, exec (.barInit n a) s = .next t ∧ WentOn s t (goneOn s.here 4) ∧ t.net = s.net ∧
        bar t { b with mode := if w = 0 then .off else .counted, ecur := w.toNat % 2 ^ 20, enext := w.toNat % 2 ^ 20, ncur := 0, nnext := 0,
                       pcur := [], pnext := [], acur := [], anext := [] }) ∧
    (∀ x, badInit w = false → b.binding = none → (s.core me).barInUse n.toNat = false → w.getLsbD 63 = false → b.mode = .bound x →
      (s.permitted me = false → exec (.barInit n a) s = .next ((start s).trap causeXpart (s.hereCore.ptag.setWidth 64))) ∧
      (s.permitted me = true → ∃ t, exec (.barInit n a) s = .next t ∧ WentOn s t (goneOn s.here 4) ∧
        Sent s t (some (group x)) .transit (fun q => q = .barBind (group x) x n.toNat true s.me 0) ∧
        bar t { b with mode := if w = 0 then .off else .counted, ecur := w.toNat % 2 ^ 20, enext := w.toNat % 2 ^ 20, ncur := 0, nnext := 0,
                       pcur := [], pnext := [], acur := [], anext := [] })) ∧
    (badInit w = false → b.binding = none → (s.core me).barInUse n.toNat = false → w.getLsbD 63 = true → (∀ x, b.mode ≠ .bound x) →
      (s.core me).boundBars < 8 → s.permitted me = true →
      let x := w.toNat / 2 ^ 32 % 256
      ask (.barInit n a) (.barInit n.toNat x) (group x) .transit (.barBind (group x) x n.toNat false s.me s.fresh)) ∧
    (w = 0 ∨ 0xFFFFF < w.toNat → exec (.barExp n a) s = .next ((start s).trap causeProt w)) ∧
    (0 < w.toNat → w.toNat ≤ 0xFFFFF → b.binding = none → b.mode = .counted → b.nnext ≤ w.toNat → b.ncur ≠ b.ecur →
      ∃ t, exec (.barExp n a) s = .next t ∧ WentOn s t (goneOn s.here 4) ∧ t.net = s.net ∧ bar t { b with enext := w.toNat }) ∧
    (∀ t, s.resolve me w = some t → s.permitted me = true →
      let o : CoreId := ⟨me.l, t, Role.ofCode r.toNat⟩
      (v.toNat < 256 → ask (.barWait r n a) .none o.tile .transit (.barReg o n.toNat v.toNat s.me s.fresh)) ∧
      (badArrival v = false → v.getLsbD 41 = false →
        ask (.barArr r n a d) (.barArr d none) o.tile (.queued s.deviceWrites) (.barArr o n.toNat v 0 s.me s.fresh)) ∧
      (∀ m, badArrival v = false → v.getLsbD 41 = true → (s.core me).member (v.toNat / 2 ^ 32 % 256) = some m → m.gen = v.setWidth 32 →
        ask (.barArr r n a d) (.barArr d (some (v.toNat / 2 ^ 32 % 256))) o.tile (.queued s.deviceWrites) (.barArr o n.toNat v m.index s.me s.fresh)) ∧
      (badArrival v = false → v.getLsbD 41 = true → (∀ m, (s.core me).member (v.toNat / 2 ^ 32 % 256) = some m → m.gen ≠ v.setWidth 32) →
        exec (.barArr r n a d) s = .next ((start s).trap causeGroupgen v))) ∧
    (256 ≤ w.toNat → exec (.grpJoin a d) s = .next ((start s).trap causeProt w) ∧ exec (.grpLeave a d) s = .next ((start s).trap causeProt w) ∧
      exec (.grpQ a d) s = .next ((start s).trap causeProt w)) ∧
    (w.toNat < 256 → s.permitted me = true →
      ask (.grpQ a d) (.word d) (group g) .transit (.grpChange (group g) g 2 0 s.me s.fresh) ∧
      ((s.core me).member g = none → (s.core me).members.length + s.joining < 8 → s.grpBusy g = false →
        ask (.grpJoin a d) (.grpJoin d g) (group g) .transit (.grpChange (group g) g 0 0 s.me s.fresh)) ∧
      ((s.core me).member g = none → exec (.grpLeave a d) s = .next ((start s).trap causeProt (BitVec.ofNat 64 (0x800 + g)))) ∧
      (8 ≤ (s.core me).members.length → exec (.grpJoin a d) s = .next ((start s).trap causeProt (BitVec.ofNat 64 (0x800 + g)))) ∧
      (∀ m, (s.core me).member g = some m →
        exec (.grpJoin a d) s = .next ((start s).trap causeProt (BitVec.ofNat 64 (0x800 + g))) ∧
        (s.grpBusy g = false → s.arrBusy g = false →
          ask (.grpLeave a d) (.grpLeave d g) (group g) .transit (.grpChange (group g) g 1 m.index s.me s.fresh))))

/-- Semaphores, rounds and the tile table (13 R390 to R392, R400; 15 R440 to R442; 16 R460 to R462). sem.init and sem.post set and add, and serve the claims that
the value covers in order, sem.arm adds a claim; rnd.close asks for a close, at once when the round has been open 1,024 cycles; rnd.q, lmap and fold.q give
their words, fold.q also summoning, pinning or unpinning a bundle. -/
def Sys2Proof.Claims.SemaphoresRoundsAndTiles : Prop :=
  ∀ (n : BitVec 4) (a b d : BitVec 5) (s : State),
    let me := s.cur.core.tile
    let x := (s.tile me).sem n.toNat
    let w := s.here.reg a
    let served (t : State) (v : Nat) (cs : List Claim) : Prop :=
      ∃ k, k ≤ cs.length ∧ (t.tile me).sem n.toNat = { value := BitVec.ofNat 32 (v - ((cs.take k).map Claim.need).sum), claims := cs.drop k } ∧
        ((cs.take k).map Claim.need).sum ≤ v ∧ (∀ c, (cs.drop k).head? = some c → v < ((cs.take k).map Claim.need).sum + c.need) ∧
        (∀ j, j ≠ n.toNat → (t.tile me).sem j = (s.tile me).sem j) ∧ WentOn s t (goneOn s.here 4) ∧ t.net = s.net
    (Passes s onTile 0 [] →
      (2 ^ 32 ≤ w.toNat → exec (.semInit n a) s = .next ((start s).trap causeProt w) ∧ exec (.semPost n a) s = .next ((start s).trap causeProt w)) ∧
      (w.toNat < 2 ^ 32 → (∃ t, exec (.semInit n a) s = .next t ∧ served t w.toNat x.claims) ∧
        ∃ t, exec (.semPost n a) s = .next t ∧ served t (min (x.value.toNat + w.toNat) (2 ^ 32 - 1)) x.claims) ∧
      (2 ^ 16 ≤ w.toNat ∨ w.toNat % 256 = 0 → exec (.semArm n a) s = .next ((start s).trap causeProt w)) ∧
      (w.toNat < 2 ^ 16 → w.toNat % 256 ≠ 0 →
        (8 ≤ x.claims.length → exec (.semArm n a) s = .next ((start s).trap causeProt (BitVec.ofNat 64 (0x900 + n.toNat)))) ∧
        (x.claims.length < 8 → ∃ t, exec (.semArm n a) s = .next t ∧
          served t x.value.toNat (x.claims ++ [{ core := s.cur.core, entry := w.toNat / 256, need := w.toNat % 256 }]))) ∧
      exec (.rndQ d) s = .next ((start s).finishReg 4 d s.roundWord)) ∧
    (Passes s onTile 0 [2] →
      (s.zoneOf me = none → exec .rndClose s = .next ((start s).setCtx s.cur (goneOn s.here 4))) ∧
      (∀ z, s.zoneOf me = some z → ∃ t, exec .rndClose s = .next t ∧ t.here.pc = (goneOn s.here 4).pc ∧ t.here.regs = s.here.regs ∧
        t.homes = s.homes ∧ t.hbm = s.hbm ∧ t.host = s.host ∧ t.tiles = s.tiles ∧ t.net = s.net ∧
        (t.zone z).due = ((s.zone z).due.getD (if (s.zone z).opened + 1024 ≤ s.cycle then s.cycle else (s.zone z).opened + 1024) : Nat) ∧
        ∀ y, y ≠ z → t.zone y = s.zone y)) ∧
    (Passes s onTile 1 [] →
      (s.gridSize s.cur.core.l ≤ w.toNat → exec (.lmap a d) s = .next ((start s).trap causeProt w) ∧ exec (.foldQ b a d) s = .next ((start s).trap causeProt w)) ∧
      (∀ y, w.toNat < s.gridSize s.cur.core.l → s.bundles.get? (s.cur.core.l, bundleOf (s.gridX s.cur.core.l) w.toNat) = some y →
        let at_ := (s.cur.core.l, bundleOf (s.gridX s.cur.core.l) w.toNat)
        let op := s.here.reg b
        let becomes (z : Bundle) : Prop := ∃ t, exec (.foldQ b a d) s = .next t ∧ t.bundles.get? at_ = some z ∧ (∀ k, k ≠ at_ → t.bundles.get? k = s.bundles.get? k) ∧
          t.tiles = s.tiles ∧ t.here = (s.here.setReg d (s.bundleWord at_.1 at_.2 z)).complete s.here.level (s.here.pc + 4)
        exec (.lmap a d) s = .next ((start s).finishReg 4 d (tableEntry y (w.toNat % s.gridX s.cur.core.l % 8))) ∧
        (4 ≤ op.toNat → exec (.foldQ b a d) s = .next ((start s).trap causeProt op)) ∧ (op = 0 → becomes y) ∧
        (op = 1 → y.summoned ≠ none ∨ y.st = .resident ∨ y.st = .folding ∨ y.st = .unfolding → becomes y) ∧
        (op = 1 → y.summoned = none → y.st = .folded ∨ y.st = .remapping → becomes { y with summoned := some s.fresh }) ∧
        (op = 2 → y.pinned = false → 64 ≤ s.pins s.cur.core.l → exec (.foldQ b a d) s = .next ((start s).trap causeProt 0xB00)) ∧
        (op = 2 → y.pinned = true ∨ s.pins s.cur.core.l < 64 → becomes { y with pinned := true }) ∧ (op = 3 → becomes { y with pinned := false })))

/-- The barrier and group units (13 R380, R393 to R399; 17 R464): words that break their tables trap PROT; a counted bar.init makes its barrier anew, telling
the group's owner where it was bound, if its tag is permitted (tested for an owner at the own tile too, DEDUCED, log 10); bar.exp sets the next phase's count;
a bound bar.init, bar.arr, bar.wait, grp.join, grp.leave and grp.q send their request to the owner, and are in progress until its answer. Semaphores, rounds
and the tile table (13 R390 to R392, R400; 15 R440 to R442; 16 R460 to R462). sem.init and sem.post set and add, and serve the claims that the value covers in
order, sem.arm adds a claim; rnd.close asks for a close, at once when the round has been open 1,024 cycles; rnd.q, lmap and fold.q give their words, fold.q
also summoning, pinning or unpinning a bundle. -/
def Obligations.BarriersGroupsAndCounts : Prop :=
  Claims.BarrierAndGroupUnits ∧ Claims.SemaphoresRoundsAndTiles

/-! ### Device steps of the cores -/

namespace Sys2Proof.Claims

open Sys2Proof.Machine

/-- No byte of the device and no full/empty bit changed. -/
def SameMemory (s t : State) : Prop :=
  t.hbm = s.hbm ∧ t.host = s.host ∧ ∀ x, (t.tile x).mem = (s.tile x).mem ∧ (t.tile x).full = (s.tile x).full

/-- A context's words at an activation: user level, no flag, no count, no loop, the given registers, the others 0 (04 R109, Table 4.1). -/
def Fresh (d : Ctx) (s1 s2 s3 pc : Word) : Prop :=
  d.level = 0 ∧ d.phase = .run ∧ d.pc = pc ∧ d.flags = 0 ∧ d.count = 0 ∧ d.loop.active = false ∧ d.uih = false ∧ d.pending = 0 ∧ d.asyncs = [] ∧
  ∀ n, d.reg n = if n = 1 then s1 else if n = 2 then s2 else if n = 3 then s3 else 0

end Sys2Proof.Claims

/-- Activations (05 R141, R147 to R150, R154 to R156, R525; 06 R186; 14 R415; 16 R458). ACTIVATION_ENTER moves the due activation of the highest priority to the
end of the run queue: an entry's counter gives up its threshold and disarms, a message is held, a waiting activation is gone, a fibre is ready. TASK_START
starts the ready entry that comes first in the lowest free context, the others age; START_RELEASE lets start activations go whose cycle has come. That of the
free contexts it is the lowest is the model's choice (log 62; R154 names none). -/
def Obligations.Activations : Prop :=
  ∀ (s : State) (c : CoreId),
    let k := s.core c
    (∀ src r, s.entering c src = some r →
      ∃ t, exec (.activationEnter c src) s = .next t ∧ (t.core c).runq = k.runq ++ [r] ∧ (∀ x ∈ s.dueList c, x.2.prio ≤ r.prio) ∧
        (∀ x, x ≠ c → t.core x = s.core x) ∧ t.ctxs = s.ctxs ∧ t.net = s.net ∧ t.homes = s.homes ∧ SameMemory s t ∧
        (∀ n, src = .entry n →
          let e := k.entry n
          e.armed = true ∧ e.thr ≤ e.counter ∧ r.kind = (if e.join then .join else .counter) ∧ r.cls = e.cls ∧ r.s1 = BitVec.ofNat 64 n ∧ r.s2 = e.arg ∧
          r.s3 = e.counter.setWidth 64 ∧ (t.core c).entry n = { e with counter := e.counter - e.thr, armed := false }) ∧
        (∀ i, src = .waiting i → ∃ w, k.waiting[i]? = some w ∧ w.release = none ∧ r.kind = w.kind ∧ r.cls = w.cls ∧ r.s1 = w.s1 ∧ r.s2 = w.s2 ∧ r.s3 = w.s3 ∧
          r.tt = some w.tt ∧ (t.core c).waiting = k.waiting.eraseIdx i) ∧
        (∀ ch i, src = .message ch i → ∃ m, (k.chan ch).msgs[i]? = some m ∧ r.kind = .message ∧ r.s1 = m.msg.header ch ∧
          r.s2 = BitVec.ofNat 64 (8 * m.msg.words.length) ∧ r.s3 = BitVec.ofNat 64 m.msg.src.t ∧
          ((t.core c).chan ch).msgs[i]? = some { m with holder := some r.uid }) ∧
        (∀ n, src = .fibre n → ∃ f, k.fibres.get? n = some f ∧ f.resumed = true ∧ f.ready = false ∧ (t.core c).fibres.get? n = some { f with ready := true })) ∧
    (∀ r id, s.activates c = true → k.notices = [] → s.nextReady c = some r → s.freeCtx c = some id →
      (∀ n f, r.fibre = some n → k.fibres.get? n = some f → f.failed = false) →
      ∃ t, exec (.taskStart c) s = .next t ∧ (t.core c).runq = (k.runq.erase r).map (fun x => x.aged r.eff) ∧ (∀ x, x ≠ c → t.core x = s.core x) ∧
        (∀ x, x ≠ id → t.ctx x = s.ctx x) ∧ t.net = s.net ∧ t.homes = s.homes ∧ SameMemory s t ∧
        (r.fibre = none → r.addr ≠ none ∨ (k.cls r.cls).valid = true →
          Fresh (t.ctx id) r.s1 r.s2 r.s3 (r.addr.getD (k.cls r.cls).handler) ∧ (t.ctx id).uvec = k.uvec ∧
          ∃ x, (t.ctx id).task = some x ∧ x.uid = r.uid ∧ x.kind = r.kind ∧ x.cls = r.cls ∧ x.tt = r.tt ∧ x.key = r.key ∧ x.prof = k.profNew.getD k.prof) ∧
        (r.fibre = none → r.addr = none → (k.cls r.cls).valid = false → k.tvecK ≠ 0 →
          (t.ctx id).level = 1 ∧ (t.ctx id).pc = k.tvecK ∧ (t.ctx id).kbank.code = causeProt ∧ (t.ctx id).kbank.epc = 0 ∧
          (t.ctx id).kbank.tval = BitVec.ofNat 64 (0xC00 + r.cls)) ∧
        (∀ n f, r.fibre = some n → k.fibres.get? n = some f →
          t.ctx id = { f.ctx with phase := .run, waited := 0, asked := none } ∧ (t.core c).fibres.get? n = none)) ∧
    (∀ l pg, ∃ t, exec (.startRelease l pg) s = .next t ∧ t = { s with cores := t.cores } ∧
      t.core c = if c.l = l ∧ (s.zoneOf c.tile).map powerOf = some pg then
          { k with waiting := k.waiting.map fun w => match w.release with
              | some x => if x ≤ s.cycle then { w with release := none } else w
              | none => w }
        else k)

/-- What happens to a context at its boundaries (05 R151 to R153, R163; 14 R420 to R422; 16 R446): a wait that is over lets the unit issue again; after
cw.wdog + 1 cycles of waiting it traps LONG with the queue and its kind; asked to stop, it traps LONG kind 4 after cw.wdog cycles; the pending asynchronous trap
with the lowest code is taken; the lowest pending source enters the user-interrupt handler; a notice is taken in the lowest free context. The model's choices:
that this context is the lowest (log 62; R421 says a free one), that LONG is taken whether or not what the wait lacks has come in that cycle (log 37), and the
copy that the overrun keeps (log 6). -/
def Obligations.Boundaries : Prop :=
  ∀ (s : State) (id : CtxId),
    let c := s.ctx id
    let k := s.core id.core
    let q (n : Nat) : Queue := (s.tile id.core.tile).queue n
    (∀ n m, c.phase = .held (.emptyQueue n m) → c.gang = none →
      (m ≤ ((q n).order (s.uidOf id)).length → exec (.waitClear id) s = .next (s.setCtx id { c with phase := .run })) ∧
      (((q n).order (s.uidOf id)).length < m → exec (.waitClear id) s = .next s) ∧
      (k.wdog.toNat < c.waited → exec (.long id) s = .next (s.takeTrap id causeLong false c.pc (BitVec.ofNat 64 (n * 256 + 1)))) ∧
      (c.waited ≤ k.wdog.toNat → exec (.long id) s = .next s)) ∧
    (∀ n m, c.phase = .held (.fullQueue n m) → c.gang = none →
      (s.hasRoom id.core.tile n (s.uidOf id) m = true → exec (.waitClear id) s = .next (s.setCtx id { c with phase := .run })) ∧
      (s.hasRoom id.core.tile n (s.uidOf id) m = false → exec (.waitClear id) s = .next s) ∧
      (k.wdog.toNat < c.waited → exec (.long id) s = .next (s.takeTrap id causeLong false c.pc (BitVec.ofNat 64 (n * 256 + 2))))) ∧
    (∀ r need buf n d, c.phase = .busy r need buf n true d → k.wdog.toNat < c.waited →
      ∃ t, exec (.long id) s = .next t ∧ t.ctx id = (s.takeTrap id causeLong false c.pc 3).ctx id ∧
        (∀ x ∈ (t.home (.tile id.core.tile)).syncs, x.id ≠ r) ∧ SameMemory s t) ∧
    (∀ x, c.phase = .run → c.asked = some x → x + k.wdog.toNat ≤ s.cycle → c.isNotice = false → s.inOverrun id = false → c.level = 0 →
      c.kbank.tnest = false → k.tvecK ≠ 0 → c.gang = none →
      ∃ t o, exec (.boundaryOverrun id) s = .next t ∧ t = { s with ctxs := t.ctxs, cores := t.cores } ∧ (∀ y, y ≠ id → t.ctx y = s.ctx y) ∧
        (t.ctx id).level = 1 ∧ (t.ctx id).pc = k.tvecK ∧ (t.ctx id).kbank.code = causeLong ∧ (t.ctx id).kbank.tval = 4 ∧ (t.ctx id).kbank.epc = c.pc ∧
        (t.ctx id).regs = c.regs ∧ t.core id.core = { k with overruns := k.overruns.set id.c o } ∧
        o.pc = c.pc ∧ o.level = 0 ∧ o.loop = c.loop ∧ o.regs = c.regs ∧ o.task = c.task ∧ o.phase = .run) ∧
    (∀ a, c.phase = .run → c.nextAsync = some a → c.kbank.tnest = false → c.hbank.tnest = false →
      a ∈ c.asyncs ∧ (∀ b ∈ c.asyncs, a.code ≤ b.code) ∧
      exec (.asyncTrapTake id) s = .next ((s.setCtx id { c with asyncs := c.asyncs.erase a }).takeTrap id a.code true c.pc a.tval)) ∧
    (∀ n, c.phase = .run → c.uim = false → c.uih = false → c.asyncs = [] → n < 16 → c.pending.getLsbD n = true → (∀ m, m < n → c.pending.getLsbD m = false) →
      s.overrunDue id = false →
      exec (.userInterruptEntry id) s = .next (s.setCtx id
        { c with waited := 0, pending := c.pending &&& ~~~((1 : BitVec 16) <<< n), upc := c.pc, uloop := c.loop, loop := { c.loop with active := false },
                 uih := true, pc := c.uvec + BitVec.ofNat 64 (64 * n) })) ∧
    (∀ a rest, k.notices = a :: rest → (∀ b ∈ rest, a.code ≤ b.code) → s.resident id.core.tile = true → k.follows = none → s.freeCtx id.core = some id →
      k.tvecK ≠ 0 →
      ∃ t x, exec (.kernelNotice id.core) s = .next t ∧ t = { s with ctxs := t.ctxs, cores := t.cores, fresh := t.fresh } ∧
        t.core id.core = { k with notices := rest } ∧ (∀ y, y ≠ id.core → t.core y = s.core y) ∧ (∀ y, y ≠ id → t.ctx y = s.ctx y) ∧
        (t.ctx id).level = 1 ∧ (t.ctx id).pc = k.tvecK ∧ (t.ctx id).phase = .run ∧
        (t.ctx id).kbank = { Bank.init with code := a.code, async := true, epc := 0, tval := a.tval, plevel := 0, tnest := true } ∧
        (t.ctx id).task = some x ∧ x.kind = .notice ∧ x.tt = none)

/-- Tile tasks and the front (05 R144, R157; 08 R266; 11 R340; 12 R359 to R364). TILE_TASK_COMPLETE marks a tile task that has nothing left, and sends its report
behind its device writes; TILE_TASK_RETIRE retires it once its effects are acknowledged, a re-run one from the mending fronts too (16 R454); FRONT_ADVANCE, at
a home that serves, applies a held write that the front has reached, discards one whose key has been applied meanwhile, acknowledges it, and leaves one that the
front has not reached; GJOIN_OFFER_READY makes an offer ready when no task runs on the core. -/
def Obligations.TileTaskSteps : Prop :=
  ∀ (s : State) (tt : TTId) (x : TileTask) (c : CoreId) (o : Offer) (h : TileId) (e : Effect) (off : Nat) (bs : List Byte) (fe : FE) (key : Key),
    (s.tts.get? tt = some x → x.done = false → s.finished tt x = true →
      ∃ t, exec (.tileTaskComplete tt) s = .next t ∧ t.tts.get? tt = some { x with done := true, report := none } ∧
        (∀ y, y ≠ tt → t.tts.get? y = s.tts.get? y) ∧ t.ctxs = s.ctxs ∧ t.cores = s.cores ∧ t.homes = s.homes ∧ SameMemory s t ∧
        (x.report = none → t.net = s.net) ∧
        (∀ d n, x.report = some (d, n) → ∃ y, t.net = s.net ++ [y] ∧ y.pkt = .increment d n ∧ y.dst = some d.tile ∧ y.st = .queued (s.writesOf tt))) ∧
    (s.tts.get? tt = some x → x.retired = false ∨ s.rerunning tt = true → x.done = true → x.ran = true ∨ x.voided = true → s.settled tt = true →
      ∃ t, exec (.tileTaskRetire tt) s = .next t ∧ t = { s with tts := t.tts, zones := t.zones } ∧ t.tts.get? tt = some { x with retired := true } ∧
        t.rerunning tt = false ∧ ∀ y, y ≠ tt → t.tts.get? y = s.tts.get? y ∧ t.rerunning y = s.rerunning y) ∧
    (s.tts.get? tt = some x → x.done = false ∨ s.settled tt = false → exec (.tileTaskRetire tt) s = .next s) ∧
    (s.homeServes (.tile h) = true → (s.home (.tile h)).held = [e] → e.key = some key → e.gated = true → s.mirrored e = true → e.acts = [.write off bs fe] →
      ∃ t, exec (.frontAdvance (.tile h)) s = .next t ∧ t.hbm = s.hbm ∧ t.host = s.host ∧ t.ctxs = s.ctxs ∧ (∀ y, y ≠ h → t.tile y = s.tile y) ∧
        (s.reached (.tile h) key.tt = true →
          (t.home (.tile h)).held = [] ∧
          (t.tile h).mem = (if s.repeated (.tile h) e = none then (s.tile h).mem.write off bs else (s.tile h).mem) ∧
          ∀ w, e.wid = some w → ∃ y ∈ t.net, y.pkt = .ack w) ∧
        (s.reached (.tile h) key.tt = false → (∃ w, (t.home (.tile h)).held = [{ e with wid := w }]) ∧ (t.tile h).mem = (s.tile h).mem)) ∧
    ((s.core c).offer = some o → o.ready = false → s.resident c.tile = true → (∀ i, i < 4 → (s.ctx ⟨c, i⟩).phase = .free) →
      ∃ t, exec (.gjoinOfferReady c) s = .next t ∧ (t.core c) = { s.core c with offer := some { o with ready := true } } ∧
        (∀ y, y ≠ c → t.core y = s.core y) ∧ t.ctxs = s.ctxs ∧ SameMemory s t ∧ (o.notify = false → t.net = s.net) ∧
        (o.notify = true → ∃ y, t.net = s.net ++ [y] ∧ y.pkt = .increment ⟨c.l, c.t - (c.t % s.gridX c.l) % o.size, .ac⟩ o.entry))

/-! ### Device steps of the network -/

namespace Sys2Proof.Claims

open Sys2Proof.Machine

/-- The network without a packet. -/
def netWithout (s : State) (f : Flight) : List Flight := s.net.filter fun g => g.id ≠ f.id

/-- A packet that its destination takes now: on its way, nothing that it must follow before it, its tile resident, routed by the entry that stands, of the
tile's tag, its round mirrored, no answer to a unit in progress beneath a handler (06 R178; 15 R430, R435; 16 R450; 17 R465; log 80). -/
def Lands (s : State) (f : Flight) : Prop :=
  s.flight f.id = some f ∧ f.st = .transit ∧ s.blocked f = false ∧ s.heldForRound f = false ∧
  ∀ t b, f.dst = some t → s.bundle t = some b → b.st = .resident ∧ f.gen = b.gen ∧ s.isForeign f t = false ∧ s.awaitsBeneath t f.pkt = false

/-- An arrival changed nothing but cores: the packet is gone, and beside cores only a zone's replay log and the tile tasks that became due again moved; the
counts that it makes follow the units of the cycle (05 R147). -/
def CoresOnly (s t : State) (f : Flight) (dst : CoreId) (more : List (CoreId × Nat)) : Prop :=
  t = { s with net := netWithout s f, cores := t.cores, tts := t.tts, zones := t.zones, later := s.later ++ more } ∧ ∀ c, c ≠ dst → t.core c = s.core c

/-- Room for a message in the buffer of a receive end, none of whose messages is in the hamper (06 R181, R188). -/
def Fits (x : Chan) (m : Message) : Prop :=
  (∀ y ∈ x.msgs, y.hampered = false) ∧ (x.msgs.map fun y => 1 + (y.msg.words.length + 7) / 8).sum + (1 + (m.words.length + 7) / 8) ≤ x.depth

end Sys2Proof.Claims

/-- Messages, credits and increments (05 R147, R158; 06 R178, R182 to R193, Table 6.6; 07 R227; 15 R430; 17 R465): a message enters its receive end with the
binding in force, or goes back to its sender; a spawned activation waits at its core (the model's choice that it takes no channel, log 72); credits are added,
and increments once the units of the cycle have issued; a cancelled ldsync is forgotten; a packet routed by an old entry, or one for a tile that folds, unfolds
or is being remapped, is bounced, and sent again after its time, by the tile table as it stands then. The designator that a refusal at ejection names is
absolute, the model's reading (log 15); what a folding tile still takes is the model's reading (log 81). -/
def Sys2Proof.Claims.MessageSteps : Prop :=
  ∀ (s : State) (f : Flight),
    (∀ dst m, Lands s f → f.pkt = .message dst m →
      let x := (s.core dst).chan m.ch
      ((m.direct = false ∧ x.kind = .bound) ∨ (m.direct = true ∧ m.refused = false ∧ x.kind = .direct) → Fits x m →
        ∃ t, exec (.messageArrival f.id) s = .next t ∧ CoresOnly s t f dst (match x.bind with | .count n => [(dst, n)] | _ => []) ∧
          (t.core dst).chan m.ch = { x with msgs := x.msgs ++ [{ msg := m, bind := x.bind, holder := none, hampered := false }] } ∧
          (∀ c, c ≠ m.ch → (t.core dst).chan c = (s.core dst).chan c) ∧ ∀ n, (t.core dst).entry n = (s.core dst).entry n) ∧
      (m.direct = true → m.refused = false → m.reply = false → x.kind ≠ .direct ∨ x.takes m.flits = none →
        ∃ t y n, exec (.messageArrival f.id) s = .next t ∧ t.cores = s.cores ∧ t.ctxs = s.ctxs ∧ SameMemory s t ∧ t.net = netWithout s f ++ [y] ∧
          y.dst = some m.src.tile ∧ y.pkt = .message m.src n ∧ n.refused = true ∧ n.words = m.words ∧ n.src = dst ∧ n.ch = m.ch)) ∧
    (∀ dst w u, Lands s f → f.pkt = .spawn dst w u →
      ∃ t, exec (.messageArrival f.id) s = .next t ∧ CoresOnly s t f dst [] ∧ t.core dst = { s.core dst with waiting := (s.core dst).waiting ++ [w] }) ∧
    (∀ dst ch n, Lands s f → f.pkt = .credit dst ch n →
      ∃ t, exec (.creditReturn f.id) s = .next t ∧ CoresOnly s t f dst [] ∧
        (t.core dst).chan ch = { (s.core dst).chan ch with credits := ((s.core dst).chan ch).credits + n } ∧
        ∀ c, c ≠ ch → (t.core dst).chan c = (s.core dst).chan c) ∧
    (∀ dst e, Lands s f → f.pkt = .increment dst e →
      ∃ t, exec (.counterIncrementArrival f.id) s = .next t ∧ CoresOnly s t f dst [(dst, e)] ∧ t.cores = s.cores) ∧
    (∀ dst e, s.later = [(dst, e)] →
      let x := (s.core dst).entry e
      let t := s.applyLater
      t = { s with later := [], cores := t.cores } ∧ (∀ c, c ≠ dst → t.core c = s.core c) ∧ (∀ n, n ≠ e → (t.core dst).entry n = (s.core dst).entry n) ∧
      (t.core dst).entry e = { x with counter := if x.counter = BitVec.allOnes 32 then BitVec.allOnes 32 else x.counter + 1 }) ∧
    (∀ h b r, Lands s f → f.pkt = .cancel h b r →
      ∃ t, exec (.ldsyncCancel f.id) s = .next t ∧ t = { s with net := netWithout s f, homes := t.homes, zones := t.zones } ∧
        t.home (.tile h) = { s.home (.tile h) with syncs := (s.home (.tile h)).syncs.filter fun y => y.id ≠ r }) ∧
    (∀ dst m t b, f.pkt = .message dst m → s.flight f.id = some f → f.st = .transit → s.blocked f = false → f.dst = some t → s.bundle t = some b →
      ((b.st = .folding ∧ s.foldTakes f t = false) ∨ b.st = .unfolding ∨ b.st = .remapping ∨ ((b.st = .resident ∨ b.st = .folded) ∧ f.gen ≠ b.gen) →
        exec (.messageArrival f.id) s = .next { s with net := s.net.map fun g => if g.id = f.id then { g with st := .bounced } else g }) ∧
      ((b.st = .resident ∨ b.st = .folded) ∧ f.gen = b.gen ∨ b.st = .folding ∧ s.foldTakes f t = true → s.isForeign f t = true → m.direct = true → m.refused = false →
        ∃ v y, exec (.messageArrival f.id) s = .next v ∧ v = { s with net := netWithout s f ++ [y], fresh := v.fresh } ∧
          y.pkt = .xpart { core := f.src.getD dst, ctx := 0, uid := m.uid, tt := m.tt, engine := false, sys := false, tag := f.tag } none none
            (BitVec.ofNat 64 t.t) none)) ∧
    (s.flight f.id = some f → f.st = .bounced →
      ∃ t, exec (.retryReply f.id) s = .next t ∧ t = { s with net := t.net, cores := t.cores, tiles := t.tiles } ∧ SameMemory s t ∧
        t.net = (s.net.map fun g => if g.id = f.id then { g with st := .waiting (s.cycle + 64 * 2 ^ min g.tries 8), tries := g.tries + 1 } else g) ∧
        ∀ c dst m, f.src = some c → f.pkt = .message dst m →
          (t.core c).chan m.sendCh = { (s.core c).chan m.sendCh with retries := ((s.core c).chan m.sendCh).retries + 1 }) ∧
    (∀ w c, s.flight f.id = some f → f.st = .waiting w → f.src = some c → s.resends c = true →
      (s.cycle < w → exec (.retryResend f.id) s = .next s) ∧
      (w ≤ s.cycle → ∃ t g, exec (.retryResend f.id) s = .next t ∧ t = { s with net := t.net, tiles := t.tiles } ∧ SameMemory s t ∧
        (t.net = s.net.map fun x => if x.id = f.id then { s.retag x with st := .transit, gen := g } else x) ∧
        ∀ d, f.dst = some d → g = s.genOf d))

/-- The NI injects, and arrivals for a folded tile are parked (06 R187; 11 R340; 14 R421; 15 R435; 17 R487): of a core's items whose earlier device writes are
acknowledged it sends one of the highest level, unless lower levels have been passed 64 times, of which the lowest then goes; a message for another module goes
out as the edge's next frame (its layout is the model's choice, log 33). What comes for a folded tile is kept in its fold hamper, its bundle is summoned at the
first such arrival, its sender told once. What is no message injects at level 0 (log 11), and what it takes of the hamper is a header flit and its payload
(log 32): the model's readings. -/
def Sys2Proof.Claims.InjectionAndParking : Prop :=
  ∀ (s : State) (c : CoreId) (f : Flight),
    (s.nextInject c = some f →
      f ∈ s.net ∧ f.src = some c ∧ (∃ ws, f.st = .queued ws ∧ ∀ w ∈ ws, ∀ p ∈ s.posted, p.wid ≠ w) ∧
      ((∀ l, (s.core c).since.getD l 0 < 64) → (∀ g ∈ s.pendingOf c, g.pkt.sendCh < 64) → ∀ g ∈ s.pendingOf c, g.pkt.sendCh / 8 ≤ f.pkt.sendCh / 8) ∧
      (∀ g ∈ s.pendingOf c, 64 ≤ (s.core c).since.getD (g.pkt.sendCh / 8) 0 → f.pkt.sendCh / 8 ≤ g.pkt.sendCh / 8) ∧
      (∀ d, f.dst = some d → ∃ t, exec (.messageInject c) s = .next t ∧ t = { s with net := t.net, cores := t.cores } ∧
        (t.net = s.net.map fun g => if g.id = f.id then s.leaves g else g) ∧ (∀ k, k ≠ c → t.core k = s.core k) ∧
        t.core c = { s.core c with since := (t.core c).since, lastCh := (t.core c).lastCh } ∧ (t.core c).since.getD (f.pkt.sendCh / 8) 0 = 0) ∧
      (∀ to_ m n e, f.dst = none → f.pkt = .message to_ m → ((s.core c).chan m.sendCh).edge = some n → s.edges.get? n = some e → e.port ∉ s.down →
        ∃ t fr, exec (.messageInject c) s = .next t ∧ t = { s with net := netWithout s f, cores := t.cores, edges := t.edges, out := .frame e.port fr :: s.out } ∧
          t.edges.get? n = some { e with next := e.next + 1, unacked := e.unacked ++ [(s.cycle, fr)] } ∧
          fr = { edge := n, seq := e.next, credit := none, payload := m.header m.ch :: m.words, tile := c.t, path := m.key.path, num := m.key.seq })) ∧
    (s.nextInject c = none → exec (.messageInject c) s = .next s) ∧
    (∀ t b p, s.flight f.id = some f → f.st = .transit → s.blocked f = false → f.dst = some t → s.bundle t = some b → b.st = .folded →
      f.gen = b.gen → s.isForeign f t = false → s.parts.get? (s.partOf (t.core .mc)) = some p →
      let more := (s.parkedFlits t + f.pkt.flits + 1023) / 1024 - (s.parkedFlits t + 1023) / 1024
      (p.pool < more → exec (.parkedArrival f.id) s = .next { s with net := s.net.map fun g => if g.id = f.id then { g with st := .bounced } else g }) ∧
      (more ≤ p.pool → ∃ v, exec (.parkedArrival f.id) s = .next v ∧ SameMemory s v ∧ v.ctxs = s.ctxs ∧
        (v.net = s.net.map fun g => if g.id = f.id then { s.retag g with st := .parked } else g) ∧ (v.tile t).parked = (s.tile t).parked ++ [f.id] ∧
        v.parts.get? (s.partOf (t.core .mc)) = some { p with pool := p.pool - more } ∧
        (v.bundles.get? (t.l, bundleOf (s.gridX t.l) t.t) =
          some (if s.parkedIn t.l (bundleOf (s.gridX t.l) t.t) = false ∨ b.summoned = none then { b with summoned := some s.fresh } else b)) ∧
        ∀ k, f.src = some k → f.pkt.byUnit = true → t ∉ (s.core k).tileFaults →
          (v.core k).tileFaults = (s.core k).tileFaults ++ [t] ∧
          (v.core k).notices = (s.core k).notices ++ [{ code := causeTilefault, tval := BitVec.ofNat 64 t.t }]))

/-- Messages, credits and increments (05 R147, R158; 06 R178, R182 to R193, Table 6.6; 07 R227; 15 R430; 17 R465): a message enters its receive end with the
binding in force, or goes back to its sender; a spawned activation waits at its core (the model's choice that it takes no channel, log 72); credits are added,
and increments once the units of the cycle have issued; a cancelled ldsync is forgotten; a packet routed by an old entry, or one for a tile that folds,
unfolds or is being remapped, is bounced, and sent again after its time, by the tile table as it stands then. The designator that a refusal at ejection names
is absolute, the model's reading (log 15); what a folding tile still takes is the model's reading (log 81). The NI injects, and arrivals for a folded tile are
parked (06 R187; 11 R340; 14 R421; 15 R435; 17 R487): of a core's items whose earlier device writes are acknowledged it sends one of the highest level, unless
lower levels have been passed 64 times, of which the lowest then goes; a message for another module goes out as the edge's next frame (its layout is the
model's choice, log 33). What comes for a folded tile is kept in its fold hamper, its bundle is summoned at the first such arrival, its sender told once. What
is no message injects at level 0 (log 11), and what it takes of the hamper is a header flit and its payload (log 32): the model's readings. -/
def Obligations.MessagesAndInjection : Prop :=
  Claims.MessageSteps ∧ Claims.InjectionAndParking

/-- Accesses at their homes (05 R162; 07 R212, R217, R218, R220, R226; 12 R363, R365): a read is answered with the bytes, or with a fault reply; an effect is
denied, applied and acknowledged, held until the front reaches it, or acknowledged again when its key has been applied; a wait counts or registers. A zone with
a buddy logs the ldsync from outside it that a home of it holds (16 R451). An effect that a tile does not deny, and one at a memory agent or a host interface,
does to the home's memory what its act says, and answers its value. A read at the place of a partition's command page (17 R480; which place, log 47) gives its
words. -/
def Sys2Proof.Claims.AccessSteps : Prop :=
  ∀ (s : State) (f : Flight), Lands s f →
    (∀ h off len b r pos mode addr, f.pkt = .read (.tile h off) len b r pos mode addr → (s.home (.tile h)).held = [] →
      let right : Right := if b.core.tile = h then .lr else .rr
      let answers (p : Packet) : Prop := ∃ t y, exec (.remoteAccessArrival f.id) s = .next t ∧ y.pkt = p ∧
        t = { s with net := netWithout s f ++ [y], fresh := t.fresh, zones := t.zones } ∧ (mode ≠ .sync ∨ (∀ y ∈ (s.home (.tile h)).syncs, y.id ≠ r) → t.zones = s.zones)
      (mode = .plain → (s.tile h).deniedLine [right] false off len = none → answers (.reply b r pos ((s.tile h).mem.read off len))) ∧
      (∀ l, mode = .plain ∨ mode = .sync → b.engine = false → (s.tile h).deniedLine [right] false off len = some l →
        answers (.faultReply b r causeProt (deniedAddr addr off len l))) ∧
      (∀ l, mode = .plain → b.engine = true → (s.tile h).deniedLine [right] false off len = some l →
        answers (.zeros b r pos len (s.xferOf r) (deniedAddr addr off len l))) ∧
      (mode = .leading → (s.tile h).deniedLine [right] false off len = none → answers (.prefixReply b r pos ((s.tile h).mem.read off len) 0)) ∧
      (∀ l, mode = .leading → (s.tile h).deniedLine [right] false off len = some l →
        answers (.prefixReply b r pos ((s.tile h).mem.read off (l * 64 - off)) 2)) ∧
      (mode = .sync → len = 8 → (s.tile h).deniedLine [right] false off len = none →
        (off ∈ (s.tile h).full → answers (.reply b r pos ((s.tile h).mem.read off 8))) ∧
        (off ∉ (s.tile h).full → ((s.home (.tile h)).syncs.filter Sync.remote).length < 64 →
          ∃ t, exec (.remoteAccessArrival f.id) s = .next t ∧ t = { s with net := netWithout s f, homes := t.homes, zones := t.zones } ∧
            (t.home (.tile h)).syncs = (s.home (.tile h)).syncs ++ [{ off := off, by_ := b, id := r, remote := !decide (b.core.tile = h) }] ∧
            ∀ z, f.dst = some h → s.zoneOf h = some z → (∀ k, k ≠ z → t.zone k = s.zone k) ∧
              t.zone z = if (∀ c, f.src = some c → s.zoneOf c.tile ≠ some z) ∧ ((s.zone z).buddy ≠ none ∨ (s.zone z).streaming ≠ none) then
                  { s.zone z with log := (s.zone z).log ++ [((s.zone z).round, f.pkt)] }
                else s.zone z))) ∧
    (∀ n off len b r pos addr, f.pkt = .read (.hbm n off) len b r pos .plain addr → (s.home (.agent n)).held = [] →
      ∃ t y, exec (.remoteAccessArrival f.id) s = .next t ∧ t = { s with net := netWithout s f ++ [y], fresh := t.fresh } ∧
        y.pkt = .reply b r pos ((s.stack n).read off len)) ∧
    (∀ n off len b r pos addr, f.pkt = .read (.host n off) len b r pos .plain addr → (s.home (.host n)).held = [] →
      ∃ t y, exec (.remoteAccessArrival f.id) s = .next t ∧ t = { s with net := netWithout s f ++ [y], fresh := t.fresh } ∧
        y.pkt = .reply b r pos (match commandPageAt (.host n) off with
          | none => (s.hostMem n).read off len
          | some x => s.readCommands x.1 x.2 len)) ∧
    (∀ h e off bs fe k, f.pkt = .effect (.tile h) e → e.acts = [.write off bs fe] → e.key = some k → e.reply = none → (s.home (.tile h)).held = [] →
      e.gated = false ∨ s.isVoided k.tt = false →
      (∀ a, s.deniesEffect h e = some a → e.xfer = none ∨ e.elems ≠ 0 →
        ∃ t ys, exec (.effectArrival f.id) s = .next t ∧ t = { s with net := netWithout s f ++ ys, fresh := t.fresh, zones := t.zones } ∧
          ys.map Flight.pkt = .denial e.by_ e.wid e.xfer a :: List.replicate (e.elems - 1) (.denial e.by_ none e.xfer a)) ∧
      (s.deniesEffect h e = none → ∃ t, exec (.effectArrival f.id) s = .next t ∧ t.ctxs = s.ctxs ∧ t.cores = s.cores ∧ t.hbm = s.hbm ∧ t.host = s.host ∧
        (∀ x, x ≠ h → t.tile x = s.tile x) ∧
        ((∀ x ∈ (s.home (.tile h)).applied, ¬(x.1 = k ∧ x.2.1 = e.part)) →
          (e.gated = false ∨ s.reached (.tile h) k.tt = true → s.mirrored e = true →
            (t.tile h).mem = (s.tile h).mem.write off bs ∧ (t.home (.tile h)).held = [] ∧ ∀ w, e.wid = some w → ∃ y ∈ t.net, y.pkt = .ack w) ∧
          (e.gated = true → s.reached (.tile h) k.tt = false → s.hasEntry (.tile h) e = true →
            t.tile h = s.tile h ∧ ∃ w, (t.home (.tile h)).held = [{ e with spilled := false, wid := w }])) ∧
        ((∃ x ∈ (s.home (.tile h)).applied, x.1 = k ∧ x.2.1 = e.part) →
          t.tile h = s.tile h ∧ t.homes = s.homes ∧ ∀ w, e.wid = some w → ∃ y ∈ t.net, y.pkt = .ack w))) ∧
    (∀ h e a, f.pkt = .effect h e → e.acts = [a] → (s.home h).held = [] → commandPageAt h a.range.1 = none → (∀ o n, a ≠ .wake o n) → (∀ c n, a ≠ .incr c n) →
      (∀ x, h = .tile x → s.deniesEffect x e = none) →
      (∀ k, e.key = some k → s.repeated h e = none ∧ (e.gated = true → s.isVoided k.tt = false)) →
      let r := a.run (s.cells h)
      (s.mirrored e = true → (∀ k, e.key = some k → e.gated = true → s.reached h k.tt = true) →
        ∃ t, exec (.effectArrival f.id) s = .next t ∧ (t.cells h).mem = r.1.mem ∧ (∀ x, h = .tile x → (t.tile x).full = r.1.full) ∧
          (∀ g, g ≠ h → t.cells g = s.cells g) ∧ (t.home h).held = [] ∧ (∀ w, e.wid = some w → ∃ y ∈ t.net, y.pkt = .ack w) ∧
          ∀ q w, e.reply = some q → r.2.1 = some w → ∃ y ∈ t.net, y.pkt = .reply e.by_ q 0 (wordBytes w)) ∧
      (∀ k, e.key = some k → e.gated = true → s.reached h k.tt = false → s.hasEntry h e = true →
        ∃ t, exec (.effectArrival f.id) s = .next t ∧ (∀ g, t.cells g = s.cells g) ∧ ∃ w, (t.home h).held = [{ e with spilled := false, wid := w }])) ∧
    (∀ h off expected b entry addr, f.pkt = .wait (.tile h off) expected b entry addr → (s.home (.tile h)).held = [] →
      s.deniesRead h b off 8 addr = none →
      ∃ t, exec (.waitRequestArrival f.id) s = .next t ∧ SameMemory s t ∧ t.ctxs = s.ctxs ∧ t.cores = s.cores ∧
        (bytesToWord ((s.tile h).mem.read off 8) = expected → (s.home (.tile h)).waiters.length < 32 → t.net = netWithout s f ∧
          (t.home (.tile h)).waiters = (s.home (.tile h)).waiters ++ [{ off := off, core := b.core, entry := entry, tag := (s.core b.core).ptag }]) ∧
        (bytesToWord ((s.tile h).mem.read off 8) ≠ expected → t.homes = s.homes ∧ ∃ y, t.net = netWithout s f ++ [y] ∧ y.pkt = .increment b.core entry))

/-- Answers at their issuers (07 R218, R220; 11 R334, R337, R338; 17 R465): a reply goes to its unit, an acknowledgement takes the write off the unacknowledged, a
denial is counted and makes PROT pending, a refusal at ejection gives credits back and makes XPART pending or traps the unit that waits, which takes no number
(12 R353), the last flush read lets its fence go on. A copy of the task's context that is kept for a save takes the pending trap too (14 R420, R422). An
acknowledgement of a transfer's write lets the transfers behind it go on (10 R324). A zone logs what answers a unit that its restore point records (the model's
reading, log 80). -/
def Sys2Proof.Claims.AnswerSteps : Prop :=
  ∀ (s : State) (f : Flight), Lands s f →
    let d : State := { s with net := netWithout s f }
    (∀ b r pos bs, f.pkt = .reply b r pos bs → b.engine = false → exec (.readReply f.id) s = .next ((d.replyTo b r pos bs).logTaken f)) ∧
    (∀ b r pos bs k, f.pkt = .prefixReply b r pos bs k → exec (.readReply f.id) s = .next ((d.prefixTo b r pos bs k).logTaken f)) ∧
    (∀ b r code v, f.pkt = .faultReply b r code v → exec (.readReply f.id) s = .next ((d.faultTo b r code v).logTaken f)) ∧
    (∀ w, f.pkt = .ack w → (∀ id set n step r, (s.ctx id).phase ≠ .stall (.acks set n step r)) →
      let u : State := { d with posted := s.posted.filter (fun p => p.wid ≠ w),
                                xfers := s.xfers.map fun x => { x with writes := x.writes.filter fun y => y ≠ w } }
      ((∀ x ∈ s.xfers, w ∉ x.writes) → exec (.writeAcknowledgement f.id) s = .next u) ∧
      ((∀ p ∈ s.posted, p.wid ≠ w) → (∃ x ∈ s.xfers, w ∈ x.writes) → exec (.writeAcknowledgement f.id) s = .next u.advanceAll)) ∧
    (∀ b addr tt x i, b.tt = some tt → s.tts.get? tt = some x → i < 4 → (s.ctx ⟨b.core, i⟩).task.map Task.uid = some b.uid →
      (∀ j, j < i → (s.ctx ⟨b.core, j⟩).task.map Task.uid ≠ some b.uid) →
      let c := s.ctx ⟨b.core, i⟩
      let told (t : State) (code : BitVec 8) : Prop :=
        t.ctx ⟨b.core, i⟩ = { c with asyncs := c.asyncs ++ [{ code := code, tval := addr }] } ∧ (∀ y, y ≠ ⟨b.core, i⟩ → t.ctx y = s.ctx y) ∧
        t.tts.get? tt = some { x with denials := x.denials + 1, denied := some (x.denied.getD addr) } ∧ SameMemory s t ∧ t.net = netWithout s f
      (f.pkt = .denial b none none addr → ∃ t, exec (.writeDenial f.id) s = .next t ∧ told t causeProt ∧ (∀ k, k ≠ b.core → t.core k = s.core k) ∧
        t.core b.core = (match (s.core b.core).overruns.get? i with
          | none => s.core b.core
          | some o => if o.task.map Task.uid = some b.uid then { s.core b.core with
              overruns := (s.core b.core).overruns.set i { o with asyncs := o.asyncs ++ [{ code := causeProt, tval := addr }] } } else s.core b.core)) ∧
      (∀ ch n, f.pkt = .xpart b none none addr (some (ch, n)) → b.engine = false → ∃ t, exec (.xpartNotice f.id) s = .next t ∧ told t causeXpart ∧
        (t.core b.core).chan ch = { (s.core b.core).chan ch with credits := ((s.core b.core).chan ch).credits + n })) ∧
    (∀ b r addr need buf step wait g n, f.pkt = .xpart b none (some r) addr none → b.engine = false → b.tt = none →
      (s.ctx ⟨b.core, b.ctx⟩).phase = .busy r need buf step wait (.scalar g n false) →
      let u := d.untake ⟨b.core, b.ctx⟩
      exec (.xpartNotice f.id) s = .next ((({ u with cur := ⟨b.core, b.ctx⟩ } : State).trap causeXpart addr).logTaken f) ∧
      (u.ctx ⟨b.core, b.ctx⟩).took = none ∧
      ∀ n, (s.ctx ⟨b.core, b.ctx⟩).took = some n → (u.ctx ⟨b.core, b.ctx⟩).redo = some n) ∧
    (∀ l b r step lk, f.pkt = .flushRead l b r → (s.ctx ⟨b.core, b.ctx⟩).phase = .stall (.flush [r] step (.fence lk false)) →
      exec (.flushReadComplete f.id) s = .next (({ d with cur := ⟨b.core, b.ctx⟩ } : State).finish step)) ∧
    (∀ l b r q rest step x, f.pkt = .flushRead l b r → q ≠ r → (s.ctx ⟨b.core, b.ctx⟩).phase = .stall (.flush (r :: q :: rest) step x) →
      ∃ t, exec (.flushReadComplete f.id) s = .next t ∧ t = { d with ctxs := t.ctxs } ∧
        (t.ctx ⟨b.core, b.ctx⟩).phase = .stall (.flush ((q :: rest).filter fun y => y ≠ r) step x))

/-- The answer to a unit in progress beneath the handler of its LONG kind 4 stays on its way until the unit goes on (16 R446, R450; DEDUCED, log 80). -/
def Sys2Proof.Claims.AnswersBeneath : Prop :=
  ∀ (s : State) (f : Flight) (t : TileId) (x : Bundle) (id : CtxId) (u : Beneath) (b : Issuer) (r need pos step : Nat) (buf bs : List Byte) (wait : Bool) (cont : Cont),
    s.flight f.id = some f → f.pkt = .reply b r pos bs → f.dst = some t → s.bundle t = some x → x.st = .resident → f.gen = x.gen → s.isForeign f t = false →
    id.core.tile = t → id.core.r ≠ .steward → id.c < 4 → (s.ctx id).under = some u → u.phase = .busy r need buf step wait cont →
      exec (.readReply f.id) s = .next s

/-- Accesses at their homes (05 R162; 07 R212, R217, R218, R220, R226; 12 R363, R365): a read is answered with the bytes, or with a fault reply; an effect is
denied, applied and acknowledged, held until the front reaches it, or acknowledged again when its key has been applied; a wait counts or registers. A zone
with a buddy logs the ldsync from outside it that a home of it holds (16 R451). An effect that a tile does not deny, and one at a memory agent or a host
interface, does to the home's memory what its act says, and answers its value. A read at the place of a partition's command page (17 R480; which place, log
47) gives its words. Answers at their issuers (07 R218, R220; 11 R334, R337, R338; 17 R465): a reply goes to its unit, an acknowledgement takes the write off
the unacknowledged, a denial is counted and makes PROT pending, a refusal at ejection gives credits back and makes XPART pending or traps the unit that waits,
which takes no number (12 R353), the last flush read lets its fence go on. A copy of the task's context that is kept for a save takes the pending trap too (14
R420, R422). An acknowledgement of a transfer's write lets the transfers behind it go on (10 R324). A zone logs what answers a unit that its restore point
records (the model's reading, log 80). The answer to a unit in progress beneath the handler of its LONG kind 4 stays on its way until the unit goes on (16
R446, R450; DEDUCED, log 80). -/
def Obligations.AccessesAndAnswers : Prop :=
  Claims.AccessSteps ∧ Claims.AnswerSteps ∧ Claims.AnswersBeneath

/-! ### Device steps at owners, engines and translation -/

/-- Barriers and groups at their owners (13 R380 to R389, R394 to R399, Table 13.3). An arrival of the current phase is counted and answered; the last one
completes the phase, the next begins, and those registered are told; one too many is refused and counted, one that does not agree with the barrier's mode is
refused before the waiter store is looked at, one that notifies is sent back when the store is full; registrations, bindings and changes of membership are
recorded and answered, the answer of a change behind its updates. -/
def Obligations.OwnerSteps : Prop :=
  ∀ (s : State) (f : Flight), Lands s f →
    let answers (t : State) (p : Packet) : Prop := ∃ y ∈ t.net, y.pkt = p
    let fault (b : Issuer) (r : Nat) (i : Instr) (code : BitVec 8) (v : Word) : Prop :=
      ∃ t y, exec i s = .next t ∧ t = { s with net := netWithout s f ++ [y], fresh := t.fresh, zones := t.zones } ∧ y.pkt = .faultReply b r code v
    (∀ dst n w x b r, f.pkt = .barArr dst n w x b r →
      let m := (s.core dst).bar n
      let p := if m.parity then 2 ^ 32 else 0
      let reg : Registration := { core := b.core, entry := (w.extractLsb' 48 8).toNat, bar := n, next := false }
      let others (t : State) : Prop := (∀ k, k ≠ n → (t.core dst).bar k = (s.core dst).bar k) ∧ (∀ k, k ≠ dst → t.core k = s.core k) ∧ SameMemory s t
      m.binding = none →
      (m.mode = .off → fault b r (.barrierArrival f.id) causeProt 0xA01) ∧
      (m.mode = .counted → w.getLsbD 41 = true → fault b r (.barrierArrival f.id) causeProt 0xA02) ∧
      (∀ g, m.mode = .bound g → w.getLsbD 41 = false → fault b r (.barrierArrival f.id) causeProt 0xA02) ∧
      (∀ g, m.mode = .bound g → w.getLsbD 41 = true → g ≠ (w.extractLsb' 32 8).toNat → fault b r (.barrierArrival f.id) causeProt 0xA03) ∧
      (m.accepts w = true → w.getLsbD 56 = true → 256 ≤ (s.core dst).regs.length →
        exec (.barrierArrival f.id) s = .next { s with net := s.net.map fun g => if g.id = f.id then { g with st := .bounced } else g }) ∧
      (m.mode = .counted → w.getLsbD 41 = false → w.getLsbD 40 = m.parity → m.ncur + 1 ≠ m.ecur → (s.core dst).regs.length < 256 →
        ∃ t, exec (.barrierArrival f.id) s = .next t ∧ others t ∧ (t.core dst).bar n = { m with ncur := m.ncur + 1 } ∧
          (t.core dst).regs = (s.core dst).regs ++ (if w.getLsbD 56 then [reg] else []) ∧
          answers t (.reply b r 0 (wordBytes (BitVec.ofNat 64 (m.overflow * 2 ^ 48 + p + (m.ecur - (m.ncur + 1))))))) ∧
      (m.mode = .counted → w.getLsbD 41 = false → w.getLsbD 40 = m.parity → m.ncur + 1 = m.ecur → m.nnext ≠ m.enext → w.getLsbD 56 = false →
        ∃ t, exec (.barrierArrival f.id) s = .next t ∧ others t ∧
          (t.core dst).bar n = { m with parity := !m.parity, ecur := m.enext, ncur := m.nnext, nnext := 0 } ∧
          (∀ y ∈ (s.core dst).regs, y.bar = n → y.next = false → answers t (.increment y.core y.entry)) ∧
          ((t.core dst).regs = ((s.core dst).regs.filter fun y => !decide (y.bar = n ∧ y.next = false)).map fun y => if y.bar = n then { y with next := false } else y) ∧
          answers t (.reply b r 0 (wordBytes (BitVec.ofNat 64 (m.overflow * 2 ^ 48 + 2 ^ 33 + p))))) ∧
      (m.mode = .counted → w.getLsbD 41 = false → w.getLsbD 40 ≠ m.parity → m.enext ≤ m.nnext → w.getLsbD 56 = false →
        ∃ t, exec (.barrierArrival f.id) s = .next t ∧ others t ∧ (t.core dst).bar n = { m with overflow := min (m.overflow + 1) 65535 } ∧
          answers t (.faultReply b r causeBarover (BitVec.ofNat 64 (n * 65536 + min (m.overflow + 1) 65535))))) ∧
    (∀ dst n e b r, f.pkt = .barReg dst n e b r → ((s.core dst).bar n).binding = none →
      (((s.core dst).bar n).mode = .off → fault b r (.barrierRegistration f.id) causeProt 0xA01) ∧
      (((s.core dst).bar n).mode ≠ .off → (s.core dst).regs.length < 256 →
        ∃ t, exec (.barrierRegistration f.id) s = .next t ∧ SameMemory s t ∧
          t.core dst = { s.core dst with regs := (s.core dst).regs ++ [{ core := b.core, entry := e, bar := n, next := false }] } ∧
          (∀ k, k ≠ dst → t.core k = s.core k) ∧ answers t (.reply b r 0 (wordBytes 0)))) ∧
    (∀ h g n un b r, f.pkt = .barBind h g n un b r →
      let x := (s.tile h).group g
      let others := x.bars.filter fun y => y ≠ (b.core, n)
      (un = false → 16 ≤ others.length → fault b r (.barrierBind f.id) causeProt (BitVec.ofNat 64 (0x800 + g))) ∧
      (un = true ∨ others.length < 16 →
        ∃ t, exec (.barrierBind f.id) s = .next t ∧ t.cores = s.cores ∧ SameMemory s t ∧
          (t.tile h).group g = { x with bars := if un then others else others ++ [(b.core, n)] } ∧ (∀ k, k ≠ g → (t.tile h).group k = (s.tile h).group k) ∧
          (un = false → answers t (.reply b r 0 (x.members.flatMap fun m => natToBytes 2 m.1))))) ∧
    (∀ h g op i b r, f.pkt = .grpChange h g op i b r →
      let x := (s.tile h).group g
      let cores := (x.members.filter fun m => m.2 ≠ b.core).map fun m => m.2
      let changed (t : State) (join : Bool) (k : Nat) (bytes : List Byte) : Prop :=
        t.cores = s.cores ∧ SameMemory s t ∧ ((t.tile h).group g).gen = x.gen + 1 ∧ ((t.tile h).group g).bars = x.bars ∧
        (∀ c ∈ cores, answers t (.grpUpdate c h g none join k b.core.tile)) ∧
        (∀ y ∈ x.bars, answers t (.grpUpdate y.1 h g (some y.2) join k b.core.tile)) ∧
        (cores.length + x.bars.length = 0 → ((t.tile h).group g).change = none ∧ answers t (.reply b r 0 bytes)) ∧
        (cores.length + x.bars.length ≠ 0 → ((t.tile h).group g).change = some (b, r, cores.length + x.bars.length, bytes))
      (op = 2 → ∃ t, exec (.groupChange f.id) s = .next t ∧ t.cores = s.cores ∧ t.tiles = s.tiles ∧
        answers t (.reply b r 0 (wordBytes (groupWord x (x.indexOf b.core))))) ∧
      (op = 0 → x.change = none → 4096 ≤ x.members.length → fault b r (.groupChange f.id) causeProt (BitVec.ofNat 64 (0x800 + g))) ∧
      (op = 0 → x.change = none → x.members.length < 4096 →
        ∃ t k, exec (.groupChange f.id) s = .next t ∧ (∀ m ∈ x.members, m.1 ≠ k) ∧ (∀ j, j < k → ∃ m ∈ x.members, m.1 = j) ∧
          ((t.tile h).group g).members = x.members ++ [(k, b.core)] ∧
          changed t true k (wordBytes (BitVec.ofNat 64 (k * 2 ^ 32 + (x.gen + 1).toNat)) ++
            (x.members ++ [(k, b.core)]).flatMap fun m => natToBytes 2 m.1 ++ natToBytes 4 m.2.t)) ∧
      (op = 1 → x.change = none →
        ∃ t, exec (.groupChange f.id) s = .next t ∧ (((t.tile h).group g).members = x.members.filter fun m => m ≠ (i, b.core)) ∧
          changed t false i (wordBytes ((x.gen + 1).setWidth 64)))) ∧
    (∀ dst h g join i who b r n bytes, f.pkt = .grpUpdate dst h g none join i who → s.isJoining dst g = false →
      ((s.tile h).group g).change = some (b, r, n, bytes) →
      ∃ t, exec (.membershipUpdate f.id) s = .next t ∧ SameMemory s t ∧
        t.core dst = { s.core dst with members := (s.core dst).members.map fun m =>
          if m.g = g then { m with peers := if join then m.peers ++ [(i, who)] else m.peers.filter fun p => p.1 ≠ i } else m } ∧
        (∀ k, k ≠ dst → t.core k = s.core k) ∧
        (1 < n → (t.tile h).group g = { (s.tile h).group g with change := some (b, r, n - 1, bytes) }) ∧
        (n ≤ 1 → (t.tile h).group g = { (s.tile h).group g with change := none } ∧ answers t (.reply b r 0 bytes)))

/-- Transfers, ring deliveries and the matrix array (07 R228; 10 R286 to R290, R294, R299, R301, R305 to R309, R319, R324): a transfer with nothing left gives
its notice, which a kept copy of its task's context takes too, and is gone, and those behind it go on; a delivery fills its slot and publishes it; the oldest
operation of an array retires, leaving what the operation gives in its accumulator, its slots popped; no other accumulator changes. -/
def Obligations.EngineSteps : Prop :=
  ∀ (s : State) (h : TileId), (∀ id step, (s.ctx id).phase ≠ .stall (.engines step)) →
    (∀ x y, (s.xfers.find? fun z => z.id = x) = some y →
      let rest := s.xfers.filter fun z => z.id ≠ y.id
      (y.ring = none → y.todo = [] → y.writes = [] → y.waits = 0 →
        (y.notice.kind = 0 → exec (.transferComplete x) s = .next ({ s with xfers := rest } : State).advanceAll) ∧
        (y.notice.kind = 1 → exec (.transferComplete x) s =
          .next ({ s with xfers := rest, later := s.later ++ [(y.by_.core, y.notice.target)] } : State).advanceAll) ∧
        (∀ i, y.notice.kind = 2 → i < 4 → (s.ctx ⟨y.by_.core, i⟩).task.map Task.uid = some y.by_.uid →
          (∀ j, j < i → (s.ctx ⟨y.by_.core, j⟩).task.map Task.uid ≠ some y.by_.uid) →
          let told (c : Ctx) : Ctx := { c with pending := c.pending ||| ((1 : BitVec 16) <<< y.notice.target) }
          let u := ({ s with xfers := rest } : State).setCtx ⟨y.by_.core, i⟩ (told (s.ctx ⟨y.by_.core, i⟩))
          let k := s.core y.by_.core
          ((∀ o, k.overruns.get? i = some o → o.task.map Task.uid ≠ some y.by_.uid) → exec (.transferComplete x) s = .next u.advanceAll) ∧
          (∀ o, k.overruns.get? i = some o → o.task.map Task.uid = some y.by_.uid →
            exec (.transferComplete x) s = .next (u.setCore y.by_.core { k with overruns := k.overruns.set i (told o) }).advanceAll))) ∧
      (y.todo ≠ [] ∨ y.writes ≠ [] → exec (.transferComplete x) s = .next s) ∧
      (∀ n slot, y.ring = some (n, slot) → y.by_.core.tile = h → s.claimBefore y n = false → (∀ z ∈ y.todo, z.val ≠ none) → y.notice.kind = 0 →
        let r := (s.tile h).ring n
        let from_ := (r.base + slot * r.lines) * 64
        r.semp = none → (s.tile h).mem.wf = true → (∀ l, r.base + slot * r.lines ≤ l → l < r.base + (slot + 1) * r.lines → lineRight (s.tile h).prot l .eng = true) →
        ∃ t : State, exec (.ringDeliveryComplete x) s = .next t.advanceAll ∧ t.xfers = rest ∧ t.ctxs = s.ctxs ∧ t.cores = s.cores ∧ t.hbm = s.hbm ∧ t.host = s.host ∧
          (∀ z, z ≠ h → t.tile z = s.tile z) ∧ (t.tile h).ring n = { r with deliv := r.deliv - 1, pub := r.pub + 1 } ∧
          (∀ k, k ≠ n → (t.tile h).ring k = (s.tile h).ring k) ∧
          ∀ a, (t.tile h).mem.get a =
            if from_ ≤ a ∧ a < from_ + 64 * r.lines then (y.slotBytes (r.lines * 64)).getD (a - from_) 0 else (s.tile h).mem.get a)) ∧
    ((s.tile h).ops = [] → exec (.arrayOperationRetire h) s = .next s) ∧
    (∀ op rest, (s.tile h).ops = op :: rest →
      ∃ t, exec (.arrayOperationRetire h) s = .next t ∧ (t.tile h).ops = rest ∧
        ((∀ d r half id k, op.kind ≠ .row d r half id k) → SameMemory s t ∧ t.homes = s.homes) ∧
        (∀ n, n ≠ op.acc → (t.tile h).acc n = (s.tile h).acc n) ∧
        (op.kind = .zero → (t.tile h).acc op.acc = 0 ∧ t = { s with tiles := t.tiles }) ∧
        (∀ mode shape fa fb x y sx sy pops, op.kind = .matrix mode shape fa fb x y sx sy pops →
          let r := matrixResult mode shape fa fb x y sx sy ((s.tile h).acc op.acc)
          (t.tile h).acc op.acc = r.1 ∧ (∀ n, n ∉ pops → (t.tile h).ring n = (s.tile h).ring n) ∧
          (∀ n, n ∈ pops → pops.Nodup → (t.tile h).ring n =
            { (s.tile h).ring n with head := (((s.tile h).ring n).head + 1) % ((s.tile h).ring n).slots, pub := ((s.tile h).ring n).pub - 1,
                                     claimed := ((s.tile h).ring n).claimed - 1 }) ∧
          ∀ i, i < 4 → (s.ctx ⟨op.by_.core, i⟩).task.map Task.uid = some op.by_.uid →
            (∀ j, j < i → (s.ctx ⟨op.by_.core, j⟩).task.map Task.uid ≠ some op.by_.uid) →
            t.ctx ⟨op.by_.core, i⟩ = { s.ctx ⟨op.by_.core, i⟩ with
              flags := if op.by_.sys then (s.ctx ⟨op.by_.core, i⟩).flags else (s.ctx ⟨op.by_.core, i⟩).flags ||| r.2 }) ∧
        (∀ d r half id buf step, op.kind = .row d r half id 0 → (s.ctx ⟨op.by_.core, op.by_.ctx⟩).phase = .busy id 1 buf step false .none →
          let c := s.ctx ⟨op.by_.core, op.by_.ctx⟩
          (t.tile h).acc op.acc = (s.tile h).acc op.acc ∧ SameMemory s t ∧ t.homes = s.homes ∧
          t.ctx ⟨op.by_.core, op.by_.ctx⟩ =
            ({ c with took := none, v := c.v.setIfInBounds d.toNat (((s.tile h).acc op.acc).extractLsb' (1024 * r + 512 * half) 512) } : Ctx).complete c.level
              (c.pc + BitVec.ofNat 64 step)) ∧
        (∀ x z member, op.kind = .drain x z member → (t.tile h).acc op.acc = if z then 0 else (s.tile h).acc op.acc))

namespace Sys2Proof.Claims

open Sys2Proof.Machine

/-- The place that an entry's word 1 gives for an address (14 R402, R405, R406): its frame, behind the target, plus the offset in the page of its size; in host
memory under the PASID bound to the partition on the link (of several interfaces the first one's, DESIGN CHOICE, log 82). -/
def placeOf (pasid : Nat → Nat) (w1 va : Word) : Place :=
  let bits := if w1.extractLsb' 61 2 = 2 then 30 else if w1.extractLsb' 61 2 = 1 then 21 else 12
  let at_ := (w1.extractLsb' 0 51).toNat * 4096 + va.toNat % 2 ^ bits
  if w1.extractLsb' 57 2 = 0 then .hbm (w1.extractLsb' 51 6).toNat at_ else
    .host ((w1.extractLsb' 57 2).toNat - 1) (pasid ((w1.extractLsb' 57 2).toNat - 1) * 2 ^ 64 + at_)

/-- The page of an access that is all in one page, found, and its walk the first of its core's that is under way. -/
def OnePage (s : State) (f : Flight) (a : Access) (p : Page) : Prop :=
  s.flight f.id = some f ∧ f.pkt = .walk a [] [p] ∧ f.st = .transit ∧ s.walkBlocked f a = false ∧ s.parts.get? f.tag ≠ none ∧ a.by_.engine = false

end Sys2Proof.Claims

/-- A unit's write or atomic whose page has been found (07 R219; 11 R347; 12 R353, R371, R372; 14 R406, R409, R416): without the right, an atomic in host
memory, or a device-scope release in host memory, it traps PROT; else its effect goes to its home with the number that it takes now and not at issue (DEDUCED,
log 5). A write is then among the unacknowledged and its unit completes, a stq's with its entries popped; a returning atomic waits for its answer. The test of a
st.rel's home lets its release begin. -/
def Sys2Proof.Claims.TranslatedWrites : Prop :=
  ∀ (s : State) (f : Flight) (a : Access) (p : Page) (pl : Place) (r : Nat), OnePage s f a p → p.place = some pl → p.len = a.len →
    let id : CtxId := ⟨a.by_.core, a.by_.ctx⟩
    let d : State := { s with net := netWithout s f }
    let here : State := { d with cur := id }
    let allowed : Prop := p.allows a.kind = true ∧ ((∃ n x, pl = .host n x) → a.device = false ∧ a.kind ≠ .atomic)
    (∀ e, a.then_ = .effect e ∨ a.then_ = .atomic e → e.reply = some r → e.by_ = a.by_ →
      (¬allowed → exec (.walkComplete f.id) s = .next (d.faultTo a.by_ r causeProt a.va)) ∧
      (∀ k u, allowed → (if e.key = none then here.takeSeq = some (k, u) else k = e.key) →
        let goes (t : State) (e' : Effect) : Prop := exec (.walkComplete f.id) s = .next t ∧ SameMemory s t ∧ (∀ y, y ≠ id → t.ctx y = s.ctx y) ∧
          (∃ y, t.net = netWithout s f ++ [y] ∧ y.pkt = .effect pl.home e' ∧ y.dst = none) ∧ e'.key = k ∧
          e'.acts = e.acts.filterMap (Act.slice 0 a.len pl.off) ∧ (e.key = none → e'.gated = (k.isSome && !(s.core a.by_.core).free))
        (∀ buf step cont, a.then_ = .effect e → (s.ctx id).phase = .busy r 1 buf step false cont → (cont = .none ∨ ∃ q n, cont = .popped q n) →
          ∃ t e', goes t e' ∧ e'.wid = some s.fresh ∧ t.posted = s.posted ++ [{ wid := s.fresh, by_ := a.by_, home := pl.home, addr := e.addr }] ∧
            t.ctx id = { goneOn (s.ctx id) step with redo := (t.ctx id).redo, took := none } ∧
            ∀ q n, cont = .popped q n → (t.tile id.core.tile).queue q = ((s.tile id.core.tile).queue q).pop here.uid n) ∧
        (a.then_ = .atomic e → ∃ t e', goes t e' ∧ e'.reply = some r ∧ t.posted = s.posted ∧ (t.ctx id).phase = (s.ctx id).phase))) ∧
    (∀ set step x, a.then_ = .check r set step x →
      (¬allowed → exec (.walkComplete f.id) s = .next (d.faultTo a.by_ r causeProt a.va)) ∧
      (∀ need buf st w cont, allowed → (s.ctx id).phase = .busy r need buf st w cont → exec (.walkComplete f.id) s = .next (here.release set 0 step x)))

/-- The read of an ldff whose page has been found (07 R234, Table 7.7): forwarded, or stopped at an absent page (cause 3) or one without the right (cause 2). -/
def Sys2Proof.Claims.TranslatedPrefixes : Prop :=
  ∀ (s : State) (f : Flight) (a : Access) (p : Page) (r pos : Nat), OnePage s f a p → a.then_ = .read r pos .leading →
    let sends (k : Packet) : Prop := ∃ t y, exec (.walkComplete f.id) s = .next t ∧
      t = { s with net := netWithout s f ++ [y], ctxs := t.ctxs, fresh := t.fresh } ∧ y.pkt = k ∧ ∀ c, t.ctx c = s.ctx c
    (p.place = none → sends (.prefixReply a.by_ r pos [] 3)) ∧
    (∀ pl, p.place = some pl → p.r = false → sends (.prefixReply a.by_ r pos [] 2)) ∧
    (∀ pl, p.place = some pl → p.r = true → sends (.read pl p.len a.by_ r pos .leading a.addr))

/-- Translation (14 R402 to R417; 17 R479): a walk takes the next page from the die's cache or its table, the largest page first, within the hashed bucket or
the next; a translated read goes to its place, is denied without the right, or faults on an absent page: recorded at its place of the fault queue in the
partition's memory (its base as a device address is the model's choice, log 22; the PASID of a page in host memory is that of the partition's first interface on
the link, DESIGN CHOICE, log 82), and the task suspended in a fibre with its upcall, or PAGE above user level. A completion resumes the fibre of its number; an
invalidation empties the caches of what it names, and does not wait for what has found no page. -/
def Sys2Proof.Claims.WalksAndFaults : Prop :=
  ∀ (s : State) (f : Flight), s.flight f.id = some f →
    (∀ a va len left found, f.pkt = .walk a ((va, len) :: left) found → f.st = .transit →
      let die := s.dieOf a.by_.core
      let goes (t : State) (p : Page) : Prop :=
        t = { s with net := t.net, tlbs := t.tlbs } ∧ t.net = s.net.map fun g => if g.id = f.id then { g with pkt := .walk a left (found ++ [p]) } else g
      let page (w1 : Word) : Page := { len := len, place := some (placeOf (s.pasidOf f.tag) w1 va), r := w1.getLsbD 60, w := w1.getLsbD 59 }
      (∀ w1, s.cached die f.tag va = some w1 → ∃ t, exec (.pageWalk f.id) s = .next t ∧ goes t (page w1) ∧ t.tlbs = s.tlbs) ∧
      (∀ w1, s.cached die f.tag va = none → s.walk f.tag va = some w1 → ∃ t, exec (.pageWalk f.id) s = .next t ∧ goes t (page w1) ∧
        ((s.tlbs.getD die []).length < 8192 →
          t.tlbs.getD die [] = s.tlbs.getD die [] ++ [(f.tag, w1.extractLsb' 61 2, va >>> pageShift (w1.extractLsb' 61 2).toNat, w1)])) ∧
      (s.cached die f.tag va = none → s.walk f.tag va = none →
        ∃ t, exec (.pageWalk f.id) s = .next t ∧ goes t { len := len, place := none, r := false, w := false } ∧ t.tlbs = s.tlbs)) ∧
    (∀ tag va w1, s.walk tag va = some w1 →
      ∃ p stack n base size i w0, s.parts.get? tag = some p ∧ p.desc.getLsbD 63 = true ∧ stack = (p.desc.extractLsb' 42 6).toNat ∧
        n = (p.desc.extractLsb' 37 5).toNat ∧ base = (p.desc.extractLsb' 12 24).toNat * 4096 ∧ size ≤ 2 ∧ i < 8 ∧
        entryAt (s.stack stack) (base + 64 * ((bucketOf va tag size n + i / 4) % 2 ^ n) + 16 * (i % 4)) = (w0, w1) ∧ w1.getLsbD 63 = true ∧
        malformed w0 w1 = false ∧ (w1.extractLsb' 61 2).toNat = size ∧ w0.extractLsb' 0 8 = tag ∧ w0.toNat / 2 ^ pageShift size = va.toNat / 2 ^ pageShift size) ∧
    (∀ a p pl r pos part, f.pkt = .walk a [] [p] → f.st = .transit → s.walkBlocked f a = false → s.parts.get? f.tag = some part → a.by_.engine = false →
      a.kind = .read → a.then_ = .read r pos .plain →
      (p.place = some pl → p.r = true → a.device = false →
        ∃ t y, exec (.walkComplete f.id) s = .next t ∧ t = { s with net := netWithout s f ++ [y], ctxs := t.ctxs, fresh := t.fresh } ∧
          (∀ c, c ≠ ⟨a.by_.core, a.by_.ctx⟩ → t.ctx c = s.ctx c) ∧ y.pkt = .read pl p.len a.by_ r pos .plain a.addr) ∧
      (p.place = some pl → p.r = false →
        exec (.walkComplete f.id) s = .next (({ s with net := netWithout s f } : State).faultTo a.by_ r causeProt a.va)) ∧
      (let id : CtxId := ⟨a.by_.core, a.by_.ctx⟩
       let c := s.ctx id
       let k := s.core a.by_.core
       let at_ := part.ftail.toNat % 2 ^ (min (max part.fsize 4) 16)
       let logged (t : State) (fibre : Nat) (traps : Bool) (q : Partition) : Prop :=
         let record := faultRecord f.tag a a.by_.core.r.code fibre traps part.fnext a.va
         q.ftail = part.ftail + 1 ∧ q.fnext = part.fnext + 1 ∧ q.frecs = part.frecs.set at_ record ∧
         SameMemory (s.deviceWrite f.tag (part.fbase + BitVec.ofNat 64 (32 * at_)) (record.flatMap wordBytes)) t
       p.place = none → (part.ftail - part.fhead).toNat < 2 ^ (min (max part.fsize 4) 16) → ∀ x, c.task = some x → x.kind ≠ .upcall → x.kind ≠ .notice →
         (c.level ≠ 0 → ∃ t, exec (.walkComplete f.id) s = .next t ∧
           t.ctx id = (({ s with net := netWithout s f } : State).faultTo a.by_ r causePage a.va).ctx id ∧
           ∃ q, t.parts.get? f.tag = some q ∧ logged t 0 true q) ∧
         (∀ n tt, c.level = 0 → c.uih = false → c.gang = none → c.uvec ≠ 0 → x.tt = some tt → k.freeFibre = some n →
           ∃ t q, exec (.walkComplete f.id) s = .next t ∧
             t = { s with net := netWithout s f, ctxs := t.ctxs, cores := t.cores, parts := t.parts, hbm := t.hbm, host := t.host, tiles := t.tiles } ∧
             t.ctx id = Ctx.init ∧ (∀ y, y ≠ id → t.ctx y = s.ctx y) ∧ t.parts.get? f.tag = some q ∧ logged t n false q ∧
             q.pendings = part.pendings ++ [{ number := part.fnext, fibre := some (a.by_.core, n), flight := none }] ∧
             (t.core a.by_.core).fibres.get? n = some
               { ctx := { c with phase := .run, waited := 0, asked := none }, number := part.fnext, va := a.va, resumed := false, failed := false, ready := false } ∧
             ∃ w, (t.core a.by_.core).waiting = k.waiting ++ [w] ∧ w.kind = .upcall ∧ w.addr = some (c.uvec + 0x400) ∧ w.s2 = a.va ∧ w.tt = tt))) ∧
    (∀ tag number fail p x c n z, s.parts.get? tag = some p → (p.pendings.find? fun y => y.number = number) = some x → x.fibre = some (c, n) → x.flight = none →
      (s.core c).fibres.get? n = some z → z.number = number → z.resumed = false →
      ∃ t, exec (.faultCompletion tag number fail) s = .next t ∧ t = { s with cores := t.cores, parts := t.parts, zones := t.zones } ∧
        (t.core c).fibres.get? n = some { z with resumed := true, failed := fail } ∧ t.parts.get? tag = some { p with pendings := p.pendings.erase x }) ∧
    (∀ tag number fail, (∀ p, s.parts.get? tag = some p → ∀ y ∈ p.pendings, y.number ≠ number) → exec (.faultCompletion tag number fail) s = .next s) ∧
    (∀ tag head p, s.parts.get? tag = some p →
      ∃ t, exec (.faultQueueHeadWrite tag head) s = .next t ∧ t = { s with parts := t.parts } ∧ t.parts.get? tag = some { p with fhead := head }) ∧
    (∀ tag va size p, s.parts.get? tag = some p →
      ∃ t, exec (.invalidation tag va size) s = .next t ∧ t = { s with net := t.net, tlbs := t.tlbs, parts := t.parts, fresh := t.fresh } ∧
        (∀ die l, t.tlbs.get? die = some l → ∀ e ∈ l, ¬(e.1 = tag ∧ e.2.1 = size ∧ e.2.2.1 = va >>> pageShift size.toNat)) ∧
        t.parts.get? tag = some { p with invs := p.invs ++ [(s.fresh, va, size)] }) ∧
    (∀ k tag p, s.parts.get? tag = some p →
      ∃ t, exec (.invalidationComplete k) s = .next t ∧ t = { s with parts := t.parts } ∧
        t.parts.get? tag = some { p with invs := if s.accessOut tag k then p.invs else p.invs.filter fun i => i.1 ≠ k }) ∧
    (∀ tag k, (∀ g ∈ s.net, g.pkt.issuer.map Issuer.tag = some tag → ∃ a ps, g.pkt = .walk a ps []) →
      (∀ p ∈ s.posted, p.by_.tag = tag → ∃ h, p.home = .tile h) →
      (∀ x ∈ s.xfers, x.by_.tag = tag → ∀ w ∈ x.writes, ∃ g ∈ s.net, ∃ a ps e, g.pkt = .walk a ps [] ∧ a.then_ = .effect e ∧ e.wid = some w) →
      s.accessOut tag k = false)

/-- Translation (14 R402 to R417; 17 R479): a walk takes the next page from the die's cache or its table, the largest page first, within the hashed bucket or
the next; a translated read goes to its place, is denied without the right, or faults on an absent page: recorded at its place of the fault queue in the
partition's memory (its base as a device address is the model's choice, log 22; the PASID of a page in host memory is that of the partition's first interface
on the link, DESIGN CHOICE, log 82), and the task suspended in a fibre with its upcall, or PAGE above user level. A completion resumes the fibre of its
number; an invalidation empties the caches of what it names, and does not wait for what has found no page. A unit's write or atomic whose page has been found
(07 R219; 11 R347; 12 R353, R371, R372; 14 R406, R409, R416): without the right, an atomic in host memory, or a device-scope release in host memory, it traps
PROT; else its effect goes to its home with the number that it takes now and not at issue (DEDUCED, log 5). A write is then among the unacknowledged and its
unit completes, a stq's with its entries popped; a returning atomic waits for its answer. The test of a st.rel's home lets its release begin. The read of an
ldff whose page has been found (07 R234, Table 7.7): forwarded, or stopped at an absent page (cause 3) or one without the right (cause 2). -/
def Obligations.TranslationSteps : Prop :=
  Claims.WalksAndFaults ∧ Claims.TranslatedWrites ∧ Claims.TranslatedPrefixes

/-! ### Device steps of the pool and the zones -/

/-- Folding and unfolding (15 R427, R432 to R436): a bundle folds for a shrink, or as the victim of a summons, resident 75,000 cycles at least, neither pinned
nor holding the front; its tasks are watched; at its boundaries it is folded, a kernel notice saved; the first summons takes the first free frame, and once
loaded the bundle is resident and its saved contexts go on, under the watch of a close that its zone is asked for. Each write of its entries is a new
generation. Which of equals comes first (log 62), that saved contexts stay in their tile's image until it unfolds (log 40), and that a zone which does not hold
the tiles takes them as they stand, and that notices are saved (log 39), are the model's readings. -/
def Sys2Proof.Claims.FoldingSteps : Prop :=
  ∀ (s : State) (l b : Nat) (x : Bundle), s.bundles.get? (l, b) = some x →
    let ts := s.membersOf l b
    let becomes (t : State) (y : Bundle) : Prop := t.bundles.get? (l, b) = some y ∧ ∀ k, k ≠ (l, b) → t.bundles.get? k = s.bundles.get? k
    let gen := (x.gen + 1) % 65536
    (s.isVictim (l, b) x = true → x.pinned = false ∧ x.since + 75000 ≤ s.cycle ∧ s.holdsFront (l, b) = false) ∧
    (x.st = .resident → s.isShrunk (l, b) = true ∨ s.isVictim (l, b) x = true →
      ∃ t, exec (.fold l b) s = .next t ∧ t = { s with bundles := t.bundles, ctxs := t.ctxs } ∧ becomes t { x with st := .folding, gen := gen } ∧
        ∀ id, t.ctx id = if id.core.tile ∈ ts ∧ id.core.r ≠ .steward ∧ id.c < 4 ∧ (s.ctx id).phase ≠ .free ∧ (s.ctx id).phase ≠ .saved then
          { s.ctx id with asked := some ((s.ctx id).asked.getD s.cycle) } else s.ctx id) ∧
    (x.st ≠ .resident ∨ (s.isShrunk (l, b) = false ∧ s.isVictim (l, b) x = false) → exec (.fold l b) s = .next s) ∧
    (x.st = .folding → s.foldReady ts = true →
      ∃ t, exec (.foldStreamed l b) s = .next t ∧ becomes t { x with st := .folded, gen := gen } ∧ t.zones = s.zones ∧ t.hbm = s.hbm ∧ t.host = s.host ∧
        (∀ id ∈ ctxsOf ts, s.runsNotice id = true → (t.ctx id).phase = .saved) ∧
        ((∀ id ∈ ctxsOf ts, s.runsNotice id = false) → t.ctxs = s.ctxs ∧ t.tiles = s.tiles ∧ t.homes = s.homes ∧ t.net = s.net)) ∧
    (x.st = .folding → s.foldReady ts = false → exec (.foldStreamed l b) s = .next s) ∧
    (∀ tag z i p, x.st = .folded → s.tagOfLaunch l = some tag → s.findFrame tag ts.length = some (z, i, p) → (s.summonses tag).head? = some (l, b) →
      let y := s.zone p.zoneOf
      let stood (h : TileId) : Prop := x.home.zoneOf = p.zoneOf ∧ y.holds h = true
      ∃ t, exec (.unfold l b) s = .next t ∧ t = { s with bundles := t.bundles, zones := t.zones } ∧
        becomes t { x with st := .unfolding, gen := gen, frame := i, home := p, summoned := none } ∧ (∀ k, k ≠ p.zoneOf → t.zone k = s.zone k) ∧
        ((y.restore = none ∧ y.streaming = none) ∨ (∀ h ∈ ts, stood h) → t.zones = s.zones) ∧
        (y.restore ≠ none ∨ y.streaming ≠ none → ∀ h ∈ ts, ¬stood h →
          ∃ j, (y.round, j) ∈ (t.zone p.zoneOf).placed ∧ j.tiles.get? h = some (s.tile h) ∧ ∀ e ∈ (t.zone p.zoneOf).log, e.2.dest ≠ some h)) ∧
    (x.st = .unfolding → (∀ h ∈ ts, (s.tile h).parked = []) →
      ∃ t, exec (.unfoldComplete l b) s = .next t ∧ becomes t { x with st := .resident, gen := gen, since := s.cycle } ∧ t.net = s.net ∧ t.homes = s.homes ∧
        SameMemory s t ∧
        (∀ c, (t.core c).tileFaults = (s.core c).tileFaults.filter fun h => !ts.contains h) ∧
        ∀ id, id.core.tile ∈ ts → id.core.r ≠ .steward → id.c < 4 → (s.ctx id).phase = .saved →
          let asked := if (s.zone x.home.zoneOf).asked then some s.cycle else none
          ((s.ctx id).under = none → t.ctx id = { s.ctx id with asked := asked, phase := .run }) ∧
          ∀ u r need buf step wait cont, (s.ctx id).under = some u → u.phase = .busy r need buf step wait cont →
            t.ctx id = { s.ctx id with asked := asked, phase := u.phase, took := u.took, under := none })

/-- Changing a partition's tiles (16 R444; 17 R467 to R469), with no other change waiting: a grow takes the live tiles that are unassigned, in zones with a buddy; a
shrink that would leave a running launch no frame for its widest bundles is refused; else the named tiles leave at once where no bundle stands on them, and
otherwise once their bundles have folded; a pre-emption's tiles then join the other partition. -/
def Sys2Proof.Claims.PartitionTileSteps : Prop :=
  ∀ (s : State) (tag q : BitVec 8) (tiles : List PTile), s.booted = true → (s.parts.get? tag).isSome = true → (s.parts.get? q).isSome = true →
    s.requests = [] → s.shrinking = [] → (s.tags.map Prod.fst).Nodup →
    let mine := tiles.filter fun p => s.tags.get? p = some tag
    let blocked : Prop := ∃ x ∈ s.launches, x.2.tag = tag ∧ x.2.done = false ∧ s.hasFrame tag (min 8 x.2.x) mine = false
    (∃ t, exec (.grow tag tiles) s = .next t ∧ t = { s with tags := t.tags } ∧
      ∀ p, t.tags.get? p = if p ∈ tiles ∧ s.live p = true ∧ s.tags.get? p = none ∧ (s.zone p.zoneOf).buddy ≠ none then some tag else s.tags.get? p) ∧
    (blocked → exec (.shrink tag tiles) s = .next s ∧ exec (.preEmption tag q tiles) s = .next s) ∧
    (¬blocked → s.shrinkBundles mine = [] →
      (∃ t, exec (.shrink tag tiles) s = .next t ∧ t = { s with tags := t.tags } ∧ ∀ p, t.tags.get? p = if p ∈ mine then none else s.tags.get? p) ∧
      (∃ t, exec (.preEmption tag q tiles) s = .next t ∧ t = { s with tags := t.tags } ∧
        ∀ p, t.tags.get? p = if p ∈ mine then (if s.live p = true ∧ (s.zone p.zoneOf).buddy ≠ none then some q else none) else s.tags.get? p)) ∧
    (¬blocked → s.shrinkBundles mine ≠ [] →
      (∃ t, exec (.shrink tag tiles) s = .next t ∧ t = { s with tags := t.tags, shrinking := [{ tag := tag, then_ := none, tiles := mine }] }) ∧
      ∃ t, exec (.preEmption tag q tiles) s = .next t ∧ t = { s with tags := t.tags, shrinking := [{ tag := tag, then_ := some q, tiles := mine }] })

/-- Folding and unfolding (15 R427, R432 to R436): a bundle folds for a shrink, or as the victim of a summons, resident 75,000 cycles at least, neither pinned
nor holding the front; its tasks are watched; at its boundaries it is folded, a kernel notice saved; the first summons takes the first free frame, and once
loaded the bundle is resident and its saved contexts go on, under the watch of a close that its zone is asked for. Each write of its entries is a new
generation. Which of equals comes first (log 62), that saved contexts stay in their tile's image until it unfolds (log 40), and that a zone which does not
hold the tiles takes them as they stand, and that notices are saved (log 39), are the model's readings. Changing a partition's tiles (16 R444; 17 R467 to
R469), with no other change waiting: a grow takes the live tiles that are unassigned, in zones with a buddy; a shrink that would leave a running launch no
frame for its widest bundles is refused; else the named tiles leave at once where no bundle stands on them, and otherwise once their bundles have folded; a
pre-emption's tiles then join the other partition. -/
def Obligations.FoldsAndTileChanges : Prop :=
  Claims.FoldingSteps ∧ Claims.PartitionTileSteps

/-- Rounds, power groups and the deadlock scan (06 R195, R196; 16 R445 to R451, R457, R459). A round open for 75,000 cycles falls due, or one whose log is full,
a deferred close at its end; once the zone's contexts, arrays and transfers stand still, but for what only waits for this very close (log 89), its image is
taken and the next round opens; the image that a buddy which is not lost has mirrored is the restore point. The current limit acts at step boundaries, a droop
alarm stands until 3,000 cycles after the last low sample, and every running launch counts it once. A cycle that lasts is reported once, its record at an
address of the launch's HBM; that a record which finds no place there is left to a later scan, and which address the steward takes, is the model's choice (log
43). -/
def Obligations.RoundAndPowerSteps : Prop :=
  ∀ (s : State) (n : Nat),
    let z := s.zone n
    let asks (i : Instr) : Prop := ∃ t, exec i s = .next t ∧ t = { s with zones := t.zones, ctxs := t.ctxs } ∧
      t.zone n = { z with due := some s.cycle, asked := true } ∧ ∀ k, k ≠ n → t.zone k = s.zone k
    ((s.zones.get? n).isSome = true → z.due = none → z.lost = false →
      (z.opened + 75000 ≤ s.cycle → asks (.roundTimer n)) ∧
      (s.cycle < z.opened + 75000 → z.logIsFull n = false → exec (.roundTimer n) s = .next s) ∧
      (z.logIsFull n = true → z.opened + 1024 ≤ s.cycle → asks (.roundTimer n)) ∧
      (z.logIsFull n = true → s.cycle < z.opened + 1024 → ∃ t, exec (.roundTimer n) s = .next t ∧ t = { s with zones := t.zones } ∧
        t.zone n = { z with due := some (z.opened + 1024), asked := false } ∧ ∀ k, k ≠ n → t.zone k = s.zone k)) ∧
    (∀ x, z.due = some x → z.asked = false → (x ≤ s.cycle → asks (.closeDeferralEnd n)) ∧ (s.cycle < x → exec (.closeDeferralEnd n) s = .next s)) ∧
    (z.asked = true → z.streaming = none → z.lost = false → (∀ id ∈ ctxsOf (s.tilesIn n), s.closeCtx id = true) →
      (∀ h ∈ s.tilesIn n, (s.tile h).ops = []) → (∀ x ∈ s.xfers, x.by_.core.tile ∈ s.tilesIn n → s.xferStands x = true) → z.buddy ≠ none →
      ∃ t i, exec (.roundClose n) s = .next t ∧ t = { s with zones := t.zones, ctxs := t.ctxs, cores := t.cores } ∧ (∀ k, k ≠ n → t.zone k = s.zone k) ∧
        t.zone n = { z with round := z.round + 1, opened := s.cycle, due := none, asked := false, streaming := some i } ∧ i.round = z.round ∧
        (∀ x ∈ s.xfers, x.by_.core.tile ∈ s.tilesIn n → x ∈ i.xfers) ∧ ∀ h ∈ s.tilesIn n, i.tiles.get? h = some (s.tile h)) ∧
    (z.asked = false ∨ z.streaming ≠ none ∨ (∃ x ∈ s.xfers, x.by_.core.tile ∈ s.tilesIn n ∧ s.xferStands x = false) → exec (.roundClose n) s = .next s) ∧
    (∀ x, s.xferStands x = true → x.waits = 0 ∧ x.ring = none ∧ ∀ w ∈ x.writes, w ∈ s.crossingWrites) ∧
    (∀ i b, z.streaming = some i → (if z.buddy = none then z.next else z.buddy) = some b →
      ((s.zone b).lost = false → ∃ t, exec (.roundMirrored n) s = .next t ∧ (∀ k, k ≠ n → t.zone k = s.zone k) ∧
        t.zone n = { z with streaming := none, restore := some i, log := z.log.filter (fun e => e.1 ≠ i.round), placed := z.placed.filter (fun e => e.1 ≠ i.round),
                               buddy := some b, next := none }) ∧
      ((s.zone b).lost = true → exec (.roundMirrored n) s = .next s)) ∧
    (let g := s.power n
     (n < 16 → s.cycle % 300 = 0 → ∃ t, exec (.currentStep n) s = .next t ∧ t = { s with groups := t.groups } ∧
       t.power n = { g with acting := if g.limit = 0 then 520 else if 4160 < g.limit.toNat then 4160 else g.limit } ∧ ∀ k, k ≠ n → t.power k = s.power k) ∧
     (s.cycle % 300 ≠ 0 → exec (.currentStep n) s = .next s) ∧
     (g.alarm = true → (g.low + 3000 ≤ s.cycle → ∃ t, exec (.droopClear n) s = .next t ∧ t = { s with groups := t.groups } ∧
         t.power n = { g with alarm := false } ∧ ∀ k, k ≠ n → t.power k = s.power k) ∧
       (s.cycle < g.low + 3000 → exec (.droopClear n) s = .next s))) ∧
    (n < 208 → ∃ t, exec (.droopAlarm n) s = .next t ∧ t = { s with groups := t.groups, launches := t.launches } ∧
      t.power (n / 13) = { s.power (n / 13) with alarm := true, low := s.cycle } ∧
      ∀ l x, s.launches.get? l = some x →
        t.launches.get? l = some (if x.done ∨ (s.power (n / 13)).alarm = true then x else { x with droops := x.droops.set (n / 13) (x.droops.getD (n / 13) 0 + 1) })) ∧
    (∀ records, s.cycle % 8192 ≠ 0 ∨ s.cycle ≤ s.scanned → exec (.deadlockScan records) s = .next s) ∧
    (s.cycle % 8192 = 0 → s.scanned < s.cycle →
      let held := s.relations.filter fun r => s.scan.contains r
      let told := s.told.filter fun c => c.all fun r => held.contains r
      let new := (cyclesOf held).filter fun c => !told.contains c
      exec (.deadlockScan []) s = .next { s with scan := s.relations, told := told, scanned := s.cycle } ∧
      ∀ cyc rest rel more r, new = cyc :: rest → cyc = rel :: more →
        let record := (deadlockRecord cyc).flatMap wordBytes
        let place := s.spans (s.partOf rel.core) (BitVec.ofNat 64 r) record.length Page.isHbm
        (r % 64 ≠ 0 ∨ place = none → exec (.deadlockScan [r]) s = .next { s with scan := s.relations, told := told, scanned := s.cycle }) ∧
        ∀ p k off, r % 64 = 0 → place = some [p] → p.place = some (.hbm k off) →
          ∃ t, exec (.deadlockScan [r]) s = .next t ∧
            t = { s with hbm := t.hbm, cores := t.cores, scan := s.relations, told := told ++ [cyc], scanned := s.cycle } ∧
            t.stack k = (s.stack k).write off (record.take p.len) ∧ (∀ y, y ≠ k → t.stack y = s.stack y) ∧
            (t.core rel.core).notices = (s.core rel.core).notices ++ [{ code := causeDeadlock, tval := BitVec.ofNat 64 r }])

/-- Losses and mending (15 R438, R439; 16 R452 to R456; 18 R494, R496): a failed regulator takes its zone's tiles, an uncorrectable error its tile, each with a
record in its die's log, whose bank a full one leaves to the cycle's end to compact (DEDUCED, log 57); on a started module the zone is lost, and where its wave
runs already the bundles that stand there stop and the next wave is recorded; an HBM line error fails the launches that map the line, or is logged; a wave's
commit puts each moved bundle in its new frame, its tiles as they were at the restore point, and opens the zone again. The details of a mending are the model's
reading (log 41). -/
def Obligations.LossSteps : Prop :=
  ∀ (s : State) (n : Nat),
    let z := s.zone n
    let logged (t : State) (d kind index cause : Nat) : Prop := ∀ k, (s.die d).activeBank = some k → (trimBank ((s.die d).bank k)).length < 2048 →
      (t.die d).bank k = trimBank ((s.die d).bank k) ++
        [LogRecord.slot { kind := kind, index := index, cause := cause, attempt := (s.die d).fails, seq := (s.die d).seq, die := d }] ∧
      (t.die d).seq = (s.die d).seq + 1
    (n < 208 → z.sound = true → ∃ t, exec (.regulatorFailure n) s = .next t ∧ (t.zone n).sound = false ∧ (∀ p ∈ s.poolOrder n, p ∈ t.dead) ∧
      logged t (n / 4) 2 (n % 4) 3 ∧ (s.booted = false ∨ (∀ y, (s.zone y).buddy ≠ some n) → SameMemory s t) ∧ (s.booted = true → z.lost = false → (t.zone n).lost = true)) ∧
    (n < 208 → z.sound = true → s.booted = true → z.lost = true → ∃ t, exec (.regulatorFailure n) s = .next t ∧
      ∀ b x, s.bundles.get? b = some x → x.placed = true → x.home.zoneOf = n → (∃ y, t.bundles.get? b = some y ∧ y.st = .remapping) ∧
        ∀ v, z.wave = some v → ∃ w, (t.zone n).wave = some w ∧ ∀ p ∈ s.poolOrder n, p ∈ w.again) ∧
    (z.sound = false → exec (.regulatorFailure n) s = .next s) ∧
    (∀ p, s.live p = true →
      (∃ t, exec (.uncorrectableError p) s = .next t ∧ t.dead = s.dead ++ [p] ∧ logged t p.die 1 (p.y * 32 + p.x) 2 ∧ SameMemory s t ∧
        (s.booted = true → (s.zone p.zoneOf).wave = none → (t.zone p.zoneOf).lost = true) ∧
        ∀ v b x, s.booted = true → (s.zone p.zoneOf).wave = some v → s.bundles.get? b = some x → x.placed = true → x.home.zoneOf = p.zoneOf →
          (∃ y, t.bundles.get? b = some y ∧ y.st = .remapping) ∧ ∃ w, (t.zone p.zoneOf).wave = some w ∧ p ∈ w.again) ∧
      exec (.correctableError p) s = .next { s with corrected := s.corrected + 1 }) ∧
    (∀ p, s.live p = false → exec (.uncorrectableError p) s = .next s ∧ exec (.correctableError p) s = .next s) ∧
    (∀ off areas, n < 44 →
      let maps (l : Nat) (x : Launch) : Prop := x.done = false ∧ (l ∈ areas ∨ s.tableMaps x.tag n off = true)
      ((∀ e ∈ s.launches, ¬maps e.1 e.2) → exec (.hbmLineError n off areas) s = .next { s with errors := s.errors ++ [.hbmLine n off] }) ∧
      (∀ l x, s.launches.get? l = some x → maps l x → ∃ t y, exec (.hbmLineError n off areas) s = .next t ∧ t = { s with launches := t.launches, cores := t.cores } ∧
        t.launches.get? l = some y ∧ y.failed = true)) ∧
    (z.wave = none → exec (.remapWaveCommit n) s = .next s) ∧
    (∀ v r, z.wave = some v → v.again = [] → z.restore = some r → z.log = [] → (v.moves.map Prod.fst).Nodup →
      let i := z.mendImage
      ∃ t, exec (.remapWaveCommit n) s = .next t ∧ (t.zone n).lost = false ∧ (t.zone n).wave = none ∧ (t.zone n).log = [] ∧ (t.zone n).round = r.round + 1 ∧
        (t.zone n).opened = s.cycle ∧ t.hbm = s.hbm ∧ t.host = s.host ∧
        ∀ m g x, m ∈ v.moves → s.launches.get? m.1.1 = some g → g.failed = false → s.bundles.get? m.1 = some x →
          (∀ h ∈ s.membersOf m.1.1 m.1.2, (s.tile h).parked = []) →
          t.bundles.get? m.1 = some (match m.2 with
            | some (_, k, p) => { x with st := .resident, gen := (x.gen + 1) % 65536, frame := k, home := p, since := s.cycle }
            | none => { x with st := .folded, gen := (x.gen + 1) % 65536 }) ∧
          ∀ h old, h ∈ s.membersOf m.1.1 m.1.2 → i.tiles.get? h = some old → (g.obj.regions.any ObjRegion.persist) = false →
            (t.tile h).mem = old.mem ∧ (t.tile h).full = old.full ∧ (t.tile h).accs = old.accs)

/-! ### Device steps of the host, the management and the bring-up -/

namespace Sys2Proof.Claims

open Sys2Proof.Machine

/-- A record stands in its interface's ring: 64 bytes at nbase + 64 * (written mod the ring's places), under the interface's PASID, and its vector has gone out
(17 R470, R475, Table 17.1). -/
def RecordGiven (s t : State) (link pasid : Nat) (f : Iface) (r : List Word) : Prop :=
  t.hostMem link = (s.hostMem link).write
    (pasid * 2 ^ 64 + (f.nbase + BitVec.ofNat 64 (64 * (f.written % 2 ^ min (max f.nsize.toNat 4) 16))).toNat) (r.flatMap wordBytes) ∧
  (∀ k, k ≠ link → t.hostMem k = s.hostMem k) ∧ t.out = .msix link f.vector.toNat :: s.out

end Sys2Proof.Claims

/-- The interface pages (17 R470, R471, R475, R478): a page written on its own link takes the tail or the consumed count, and a record held back is written once
it has a place; an aperture access is performed at once through the partition's page table, or recorded; a read on the other link gives 0. -/
def Obligations.InterfaceSteps : Prop :=
  ∀ (s : State) (link n : Nat),
    let f := s.iface n
    (s.onLink link n = false → ∀ v off len, exec (.launchSubmit link n v) s = .next s ∧ exec (.consumedCountWrite link n v) s = .next s ∧
      exec (.apertureRead link n off len) s = .next { s with out := .apertureRead link (List.replicate len 0) :: s.out }) ∧
    (s.onLink link n = true → ∀ v : Word,
      let page (g : Iface) (k : Nat) : Iface := if k = n then g else s.iface k
      let g := { f with cons := v.extractLsb' 0 32 }
      (∃ t, exec (.launchSubmit link n v) s = .next t ∧ t = { s with ifaces := t.ifaces } ∧ ∀ k, t.iface k = page { f with tail := v.extractLsb' 0 32 } k) ∧
      (f.backlog = [] ∨ g.hasPlace = false → ∃ t, exec (.consumedCountWrite link n v) s = .next t ∧ t = { s with ifaces := t.ifaces } ∧ ∀ k, t.iface k = page g k) ∧
      (∀ r u tag, f.backlog = [r] → g.hasPlace = true → f.assigned = some (link, u, tag) → ∃ t, exec (.consumedCountWrite link n v) s = .next t ∧
        t = { s with ifaces := t.ifaces, host := t.host, out := t.out } ∧ RecordGiven s t link u.toNat f r ∧
        ∀ k, t.iface k = page { g with backlog := [], written := f.written + 1 } k)) ∧
    (∀ u tag off, n < 4096 → f.assigned = some (link, u, tag) →
      (∀ bytes : List Byte, off.toNat + bytes.length ≤ 1048576 →
        (∀ p k o, s.spans tag (f.abase + off) bytes.length (fun p => p.w && !p.isHost) = some [p] → p.place = some (.hbm k o) →
          ∃ t, exec (.apertureWrite link n off bytes) s = .next t ∧ t = { s with hbm := t.hbm } ∧ t.stack k = (s.stack k).write o (bytes.take p.len) ∧
            ∀ y, y ≠ k → t.stack y = s.stack y) ∧
        (s.spans tag (f.abase + off) bytes.length (fun p => p.w && !p.isHost) = none →
          exec (.apertureWrite link n off bytes) s = .next (s.logError tag (.aperture n off)))) ∧
      (∀ len, off.toNat + len ≤ 1048576 →
        (∀ p k o, s.spans tag (f.abase + off) len (fun p => p.r && !p.isHost) = some [p] → p.place = some (.hbm k o) →
          exec (.apertureRead link n off len) s = .next { s with out := .apertureRead link ((s.stack k).read o p.len) :: s.out }) ∧
        (s.spans tag (f.abase + off) len (fun p => p.r && !p.isHost) = none →
          ∃ t, exec (.apertureRead link n off len) s = .next t ∧ t = { s with parts := t.parts, out := t.out } ∧
            t.out = .apertureRead link (List.replicate len 0xFF) :: s.out)))

/-- Admission and completion (12 R355 to R357; 17 R471 to R476; 04 Table 4.1; 05 R145; 14 R421): the packet whose turn it is is refused with a record of its
status, waits for its slot, or begins a launch with its pool, slot and number, its cores blank and tagged; a launch whose tile tasks have retired, with nothing
of it left, ends with its record, and everything of it is gone; what a failed one has written that a memory agent or a host still holds is applied first. That a
core begins with its partition's mask (log 45), and when a launch, a failed one too, completes (log 52), are the model's readings. -/
def Obligations.LaunchSteps : Prop :=
  ∀ (s : State) (n : Nat),
    let f := s.iface n
    (∀ link u tag p allot, f.assigned = some (link, u, tag) → s.parts.get? tag = some p →
      (s.mayAdmit n tag = false → exec (.launchAdmission n allot) s = .next s) ∧
      (∀ a, s.admissionCheck f tag p true = .ok a → s.slotFor n a.scope = none → exec (.launchAdmission n allot) s = .next s) ∧
      (s.mayAdmit n tag = true →
        (∀ st, s.admissionCheck f tag p allot = .error st → f.backlog = [] → f.hasPlace = true → ∃ t, exec (.launchAdmission n allot) s = .next t ∧
          t = { s with ifaces := t.ifaces, host := t.host, out := t.out } ∧ RecordGiven s t link u.toNat f [BitVec.ofNat 64 st, 0, 0, 0, 0, 0, 0, f.word 7] ∧
          t.iface n = { f with head := f.head + 1, written := f.written + 1 } ∧ ∀ k, k ≠ n → t.iface k = s.iface k) ∧
        (∀ a slot number stream, s.admissionCheck f tag p allot = .ok a → s.slotFor n a.scope = some (slot, number, stream) →
          ∃ t x, exec (.launchAdmission n allot) s = .next t ∧ t.hbm = s.hbm ∧ t.host = s.host ∧ t.net = s.net ∧ t.ctxs = s.ctxs ∧
            t.launches.get? s.fresh = some x ∧ (∀ l, l ≠ s.fresh → t.launches.get? l = s.launches.get? l) ∧
            x.tag = tag ∧ x.iface = n ∧ x.packet = f.head.toNat ∧ x.cookie = f.word 7 ∧ x.handle = a.handle ∧ x.obj = a.obj ∧ x.x = a.x ∧ x.y = a.y ∧ x.free = a.free ∧
            x.scope = a.scope ∧ x.slot = slot ∧ x.number = number ∧ x.seed = f.word 2 ∧ x.flagarr = f.word 5 ∧ x.units = a.units ∧ x.failed = false ∧
            x.done = false ∧ t.iface n = { f with head := f.head + 1, stream := stream } ∧ t.parts.get? tag = some { p with pool := p.pool - a.units } ∧
            ∀ c, c.l = s.fresh → c.t < a.x * a.y → c.r ≠ .steward → s.cores.get? c = none →
              let k := t.core c
              (t.resident c.tile = true → k.runq = []) ∧ k.ptag = tag ∧ k.free = a.free ∧ k.tvecH = s.hyperEntry ∧ k.wdog = 65536 ∧ k.prof = p.mask &&& 0xFE ∧ k.wtt = [] ∧ k.bars = []))) ∧
    (∀ l x, s.launches.get? l = some x →
      let finished := if x.failed then s.noticesOver l && !s.writesOut l else s.launchOver l
      let g := s.iface x.iface
      let u := if x.failed then s.commitAll l else s
      (x.done = true ∨ finished = false → exec (.launchCompletion l) s = .next s) ∧
      (x.done = false → finished = true → ∀ p, s.parts.get? x.tag = some p → ∃ t, exec (.launchCompletion l) s = .next t ∧
        t.launches.get? l = some { x with done := true } ∧ (∀ k, k ≠ l → t.launches.get? k = s.launches.get? k) ∧
        (∀ e ∈ t.tiles, e.1.l ≠ l) ∧ (∀ e ∈ t.cores, e.1.l ≠ l) ∧ (∀ e ∈ t.ctxs, e.1.core.l ≠ l) ∧ (∀ e ∈ t.tts, e.1.l ≠ l) ∧ (∀ e ∈ t.bundles, e.1.1 ≠ l) ∧
        (∀ e ∈ t.xfers, e.by_.core.l ≠ l) ∧
        ((∀ h ∈ s.tiles.keys, h.l = l → (s.tile h).parked = []) → ∃ q, t.parts.get? x.tag = some q ∧ q.pool = p.pool + x.units) ∧
        (∀ link pasid tag, g.assigned = some (link, pasid, tag) → g.backlog = [] → g.hasPlace = true → x.flagarr = 0 →
          t.hbm = u.hbm ∧ RecordGiven u t link pasid.toNat g (u.completionRecord l x) ∧ t.iface x.iface = { g with written := g.written + 1 })) ∧
      (∀ k e off bs fe, (s.home (.agent k)).held = [e] → e.acts = [.write off bs fe] → e.by_.core.l = l → s.repeated (.agent k) e = none →
        commandPageAt (.agent k) off = none → (∀ f ∈ s.net, f.turnedAway = false) → (∀ h, h ≠ .agent k → (s.home h).held = []) →
        (s.commitAll l).stack k = (s.stack k).write off bs ∧ (s.commitAll l).host = s.host ∧ ∀ y, y ≠ k → (s.commitAll l).stack y = s.stack y))

/-- Partitions and commands (17 R463, R464, R480, R481; 18 R505 to R508). A command is answered with its status in bits 23:16 of its first word, and head goes on; a
reserved operation has status 2; a protection descriptor is stored, a context saved as at its LONG entry, an object installed under an unused handle, which is
written at the result address, or refused with status 5 and its refusal record there, a program removed that nothing uses. When a partition can be created and
deleted (log 46), status 4 of LOAD_OBJECT for an address that is misaligned or cannot be read (log 49), status 3 of a context save that finds no context at a LONG
kind 4 entry (log 50), the registers of a partition as it begins (log 22), and the limits that the loader holds an object against (logs 48, 70, 71) are the model's
readings; the object is what the bytes at its address hold (log 21). -/
def Sys2Proof.Claims.PartitionsAndCommands : Prop :=
  ∀ (s : State) (tag : BitVec 8),
    (∀ tiles pool, s.booted = true → s.parts.get? tag = none →
      ∃ t, exec (.partitionCreate tag tiles pool) s = .next t ∧ t = { s with parts := t.parts, tags := t.tags } ∧
        t.parts.get? tag = some (Partition.init tag pool) ∧ (∀ k, k ≠ tag → t.parts.get? k = s.parts.get? k) ∧
        ∀ p, t.tags.get? p = if p ∈ tiles ∧ s.live p = true ∧ s.tags.get? p = none ∧ (s.zone p.zoneOf).buddy ≠ none then some tag else s.tags.get? p) ∧
    (∀ tiles pool, s.booted = false ∨ (s.parts.get? tag).isSome = true → exec (.partitionCreate tag tiles pool) s = .next s) ∧
    ((∃ e ∈ s.launches, e.2.tag = tag ∧ e.2.done = false) → exec (.partitionDelete tag) s = .next s) ∧
    ((s.parts.get? tag).isSome = true → (∀ e ∈ s.launches, e.2.tag = tag → e.2.done = true) → s.changing tag = false → (∀ r ∈ s.requests, tag ∉ r.tags) →
      ∃ t, exec (.partitionDelete tag) s = .next t ∧ t = { s with parts := t.parts, tags := t.tags, ifaces := t.ifaces, tlbs := t.tlbs } ∧ t.parts.get? tag = none ∧
        (∀ k, k ≠ tag → t.parts.get? k = s.parts.get? k) ∧ (∀ e ∈ t.tags, e.2 ≠ tag) ∧ ∀ n, ((t.iface n).assigned.map fun x => x.2.2) ≠ some tag) ∧
    (∀ p, s.parts.get? tag = some p →
      let part (t : State) (q : Partition) : Prop := t.parts.get? tag = some q ∧ ∀ k, k ≠ tag → t.parts.get? k = s.parts.get? k
      let answered (q : Partition) (st : Nat) : Partition :=
        { q with cmds := q.cmds.set (8 * (q.chead.toNat % 62)) ((q.word 0 &&& ~~~0xFF0000#64) ||| BitVec.ofNat 64 (st * 65536)), chead := q.chead + 1 }
      let ends (i : Instr) (st : Nat) : Prop := ∃ t, exec i s = .next t ∧ t = { s with parts := t.parts } ∧ part t (answered p st)
      let here (obj : Object) : Prop := s.carries tag (p.word 4) (p.word 5).toNat obj = true
      (∀ v, ∃ t, exec (.commandSubmit tag v) s = .next t ∧ t = { s with parts := t.parts } ∧ part t { p with ctail := v.extractLsb' 0 32 }) ∧
      (p.ctail = p.chead ∨ s.booted = false → ∀ obj, exec (.protectionDescriptor tag) s = .next s ∧ exec (.contextSave tag) s = .next s ∧
        exec (.loadObject tag obj) s = .next s ∧ exec (.unloadProgram tag) s = .next s ∧ exec (.unknownCommand tag) s = .next s) ∧
      (p.ctail ≠ p.chead → s.booted = true →
        (p.op = 0 ∨ 4 < p.op → ends (.unknownCommand tag) 2) ∧
        (p.zeroOk = false → (p.op = 1 → ends (.protectionDescriptor tag) 2) ∧ (p.op = 2 → ends (.contextSave tag) 2) ∧
          (∀ obj, p.op = 3 → here obj → ends (.loadObject tag obj) 2) ∧ (p.op = 4 → ends (.unloadProgram tag) 2)) ∧
        (p.zeroOk = true →
          (∀ tl, p.op = 1 → p.word 6 = 0 → p.word 5 = 0 → ufield (p.word 0) 8 8 ≤ 7 → s.commandTile tag p = some tl →
            (ufield (p.word 4) 40 24 ≠ 0 ∨ ufield (p.word 4) 6 6 ≠ 0 → ends (.protectionDescriptor tag) 4) ∧
            (ufield (p.word 4) 40 24 = 0 → ufield (p.word 4) 6 6 = 0 → ∃ t, exec (.protectionDescriptor tag) s = .next t ∧
              t = { s with parts := t.parts, tiles := t.tiles, zones := t.zones } ∧ part t (answered p 1) ∧
              t.tile tl = { s.tile tl with prot := (s.tile tl).prot.set (ufield (p.word 0) 8 8) (p.word 4) } ∧ ∀ y, y ≠ tl → t.tile y = s.tile y)) ∧
          (p.word 6 = 0 → p.word 5 = 0 → s.commandTile tag p = none →
            (p.op = 1 → ufield (p.word 0) 8 8 ≤ 7 → ends (.protectionDescriptor tag) 3) ∧
            (p.op = 2 → p.word 4 = 0 → ufield (p.word 0) 8 8 ≤ 3 → ends (.contextSave tag) 3)) ∧
          (∀ tl, p.op = 2 → p.word 6 = 0 → p.word 5 = 0 → p.word 4 = 0 → ufield (p.word 0) 8 8 ≤ 3 → s.commandTile tag p = some tl →
            let c := ufield (p.word 0) 8 8
            let held (id : CtxId) : Prop := id.core ∈ coresOf [tl] ∧ id.c = c ∧ s.inOverrun id = true
            ((∀ id, ¬held id) → ends (.contextSave tag) 3) ∧
            ((∃ id, held id) → ∃ t, exec (.contextSave tag) s = .next t ∧ t = { s with parts := t.parts, ctxs := t.ctxs } ∧ part t (answered p 1) ∧
              (∀ id o, held id → (s.core id.core).overruns.get? c = some o → t.ctx id = { o with phase := .saved }) ∧ ∀ id, ¬held id → t.ctx id = s.ctx id)) ∧
          (∀ obj, p.op = 3 → s.carries tag (p.word 4) (p.word 5).toNat obj = false → exec (.loadObject tag obj) s = .next s) ∧
          (∀ obj ps k x at_, here obj → s.spans tag (p.word 4) (p.word 5).toNat Page.r = some ps → (objectBytes obj)[k]? = some x →
            obj.sections.getD (k + 1) (0, 0) = at_ → at_.1 + at_.2 ≤ (p.word 5).toNat → ((s.pageBytes ps).drop at_.1).take at_.2 = x) ∧
          (∀ obj, p.op = 3 → here obj → ufield (p.word 3) 0 20 = 0 → ufield (p.word 0) 8 8 = 0 →
            (ufield (p.word 4) 0 6 ≠ 0 ∨ ufield (p.word 6) 0 6 ≠ 0 → ends (.loadObject tag obj) 4) ∧
            (ufield (p.word 4) 0 6 = 0 → ufield (p.word 6) 0 6 = 0 →
              (s.spans tag (p.word 4) (p.word 5).toNat Page.r = none → ends (.loadObject tag obj) 4) ∧
              (s.spans tag (p.word 4) (p.word 5).toNat Page.r ≠ none →
                (∀ r, obj.refusalIn (p.word 5).toNat p.programs.length = some r → ∃ t, exec (.loadObject tag obj) s = .next t ∧ part t (answered p 5) ∧
                  SameMemory (s.deviceWrite tag (p.word 6) (r.flatMap wordBytes)) t) ∧
                (obj.refusalIn (p.word 5).toNat p.programs.length = none → ∃ t h, exec (.loadObject tag obj) s = .next t ∧ h < 2 ^ 32 ∧
                  p.programs.get? h = none ∧ part t (answered { p with programs := p.programs.set h obj } 1) ∧
                  SameMemory (s.deviceWrite tag (p.word 6) (natToBytes 4 h)) t)))) ∧
          (p.op = 4 → p.word 6 = 0 → p.word 5 = 0 → (p.word 4).toNat < 4294967296 → ufield (p.word 3) 0 20 = 0 → ufield (p.word 0) 8 8 = 0 →
            let h := (p.word 4).toNat
            (p.programs.get? h = none ∨ s.programUsed tag h = true → ends (.unloadProgram tag) 4) ∧
            ((p.programs.get? h).isSome = true → s.programUsed tag h = false → ∃ t, exec (.unloadProgram tag) s = .next t ∧ t = { s with parts := t.parts } ∧
              part t (answered { p with programs := p.programs.erase h } 1))))))

/-- What the loader refuses, by the order of its tests (18 R508): a unit that the tests of 02 refuse is status 1, a section that lies beyond the object status 2,
as is a graph that cannot be parsed or a limit broken; code of more than 131,072 bytes is status 3. -/
def Sys2Proof.Claims.LoaderRefusals : Prop :=
  ∀ (o : Object) (len n : Nat),
    (o.refusedSites ≠ [] → o.refusalIn len n = some (siteRecord o.refusedSites)) ∧
    (o.refusedSites = [] →
      ((∃ x ∈ o.sections, len < x.1 + x.2) ∨ parseGraphs o.graph = none → o.refusalIn len n = some (2 :: List.replicate 7 0)) ∧
      ((∀ x ∈ o.sections, x.1 + x.2 ≤ len) → ∀ gs, parseGraphs o.graph = some gs →
        (o.limitsOk gs = false → o.refusalIn len n = some (2 :: List.replicate 7 0)) ∧
        (o.limitsOk gs = true → 131072 < o.codeMc.length ∨ 131072 < o.codeFc.length ∨ 131072 < o.codeAc.length →
          o.refusalIn len n = some (3 :: List.replicate 7 0)) ∧
        (o.limitsOk gs = true → o.codeMc.length ≤ 131072 → o.codeFc.length ≤ 131072 → o.codeAc.length ≤ 131072 →
          (o.handlersOk gs = false → o.refusalIn len n = some (4 :: List.replicate 7 0)) ∧
          (o.handlersOk gs = true → (∃ g ∈ gs, g.sizesOk = false) → o.refusalIn len n = some (5 :: List.replicate 7 0)) ∧
          (o.handlersOk gs = true → (∀ g ∈ gs, g.sizesOk = true) →
            (64 ≤ n → o.refusalIn len n = some (6 :: List.replicate 7 0)) ∧ (n < 64 → o.refusalIn len n = none)))))

/-- A host write of a register (00 R9, R11; 17 R464, R470, R477, R479, R481, R482, R486, Tables 17.1, 17.5, 17.6; 18 R512): an interface page takes it on its
own link only, a partition's block where the partition is; RW fields are stored, the others keep their value; a write of a reserved place changes nothing. The
bits of the interface assignment (log 21) and the low six bits of an entry address (log 55) are the model's. -/
def Sys2Proof.Claims.RegisterWrites : Prop :=
  ∀ (s : State) (link : Nat) (v : Word),
    let line : Word := v &&& ~~~0x3F
    (∀ n,
      let f := s.iface n
      let page (r : HostReg) (g : Iface) : Prop := ∃ t, exec (.registerWrite link r v) s = .next t ∧ t = { s with ifaces := t.ifaces } ∧
        ∀ k, t.iface k = if k = n ∧ s.onLink link n = true then g else s.iface k
      (∀ k w, k < 16 → w < 16 → page (.packetWord n k w) { f with packets := f.packets.set (16 * k + w) v }) ∧
      page (.nbase n) { f with nbase := line } ∧ page (.nsize n) { f with nsize := v.extractLsb' 0 5 } ∧ page (.vector n) { f with vector := v.extractLsb' 0 11 } ∧
      page (.abase n) { f with abase := v &&& ~~~0xFFFFF } ∧
      (n < 4096 → ∃ t, exec (.registerWrite link (.assign n) v) s = .next t ∧ t = { s with ifaces := t.ifaces } ∧
        t.iface n = { f with stream := none, assigned := if ufield v 62 2 < 2 then some (ufield v 62 2, v.extractLsb' 0 20, v.extractLsb' 20 8) else none } ∧
        ∀ k, k ≠ n → t.iface k = s.iface k)) ∧
    (∀ tag : BitVec 8,
      let regs : List HostReg := [.ptDesc tag.toNat, .faultBase tag.toNat, .faultSize tag.toNat, .faultHead tag.toNat, .profileMask tag.toNat, .commandTail tag.toNat]
      exec (.registerWrite link (.faultTail tag.toNat) v) s = .next s ∧ exec (.registerWrite link (.commandHead tag.toNat) v) s = .next s ∧
      (s.parts.get? tag = none → ∀ r ∈ regs, exec (.registerWrite link r v) s = .next s) ∧
      ∀ p, s.parts.get? tag = some p →
        let stores (r : HostReg) (q : Partition) : Prop := ∃ t, exec (.registerWrite link r v) s = .next t ∧ t = { s with parts := t.parts } ∧
          t.parts.get? tag = some q ∧ ∀ k, k ≠ tag → t.parts.get? k = s.parts.get? k
        stores (.ptDesc tag.toNat) { p with desc := v &&& 0x8000FFEFFFFFF000 } ∧ stores (.faultBase tag.toNat) { p with fbase := v } ∧
        stores (.faultSize tag.toNat) { p with fsize := ufield v 0 5 } ∧ stores (.faultHead tag.toNat) { p with fhead := v } ∧
        stores (.commandTail tag.toNat) { p with ctail := v.extractLsb' 0 32 } ∧
        exec (.registerWrite link (.profileMask tag.toNat) v) s = exec (.profileMaskWrite tag (v.setWidth 8)) s ∧
        (∀ w, w < 4 → ∃ q, stores (.permit tag.toNat w) { p with permit := q } ∧
          ∀ i, i < 256 → q.getLsbD i = if 64 * w ≤ i ∧ i < 64 * w + 64 then v.getLsbD (i - 64 * w) else p.permit.getLsbD i) ∧
        (∀ k w, k < 62 → w < 8 → stores (.commandWord tag.toNat k w) { p with cmds := p.cmds.set (8 * k + w) v }) ∧
        stores (.kernelEntry tag.toNat .mc) { p with entMc := line } ∧ stores (.kernelEntry tag.toNat .fc) { p with entFc := line } ∧
        stores (.kernelEntry tag.toNat .ac) { p with entAc := line }) ∧
    exec (.registerWrite link .hyperEntry v) s = .next { s with hyperEntry := line } ∧
    (∀ l k, k < 64 → exec (.registerWrite link (.slotEntry l k) v) s = .next { s with staged := s.staged.set (l, k) (v.setWidth 16 &&& 0x03FF) }) ∧
    exec (.registerWrite link .clock v) s = .next { s with clock := if v.toNat < 16 then some v.toNat else none } ∧
    exec (.registerWrite link .reserved v) s = .next s

/-- What a host reads back (00 R9, R11; 17 R470, R477, R479, R481, Tables 17.1, 17.5; 18 R502): an interface page on its own link holds its fields at their
offsets and 0 elsewhere; on the other link every byte of it is 0; the boot status block reads as it was written; a register of a partition's block reads as it
stands, 0 where the partition is not, and either link reads at its offset in HW-B what the register holds (the offsets are the device's, log 21), the error logs
as they are kept. -/
def Sys2Proof.Claims.HostReads : Prop :=
  ∀ (s : State) (link n : Nat),
    let f := s.iface n
    (s.onLink link n = false → ∀ o, o < 4096 → s.readHwA link (4096 * n + o) = 0) ∧
    (s.onLink link n = true →
      let at_ (o k : Nat) : Nat := bytesToNat ((List.range k).map fun i => s.readHwA link (4096 * n + o + i))
      (∀ i, i < 256 → at_ (8 * i) 8 = (f.packets.getD i 0).toNat) ∧ at_ 0x800 4 = f.tail.toNat ∧ at_ 0x808 4 = f.head.toNat ∧ at_ 0x810 8 = f.nbase.toNat ∧
      at_ 0x818 4 = f.nsize.toNat ∧ at_ 0x81C 4 = f.vector.toNat ∧ at_ 0x820 4 = f.cons.toNat ∧ at_ 0x828 8 = f.abase.toNat ∧
      ∀ o, 0x830 ≤ o → o < 4096 → s.readHwA link (4096 * n + o) = 0) ∧
    (∀ i, i < 8 → s.readBoot (8 * i) = s.boot.getD i 0) ∧
    (∀ tag : BitVec 8,
      let reads (f : Partition → Word) (r : HostReg) : Prop := s.readReg link r = ((s.parts.get? tag).map f).getD 0
      let k := tag.toNat
      reads Partition.desc (.ptDesc k) ∧ reads Partition.fbase (.faultBase k) ∧ reads (fun p => BitVec.ofNat 64 p.fsize) (.faultSize k) ∧
      reads Partition.fhead (.faultHead k) ∧ reads Partition.ftail (.faultTail k) ∧ reads (fun p => p.mask.setWidth 64) (.profileMask k) ∧
      (∀ w, w < 4 → reads (fun p => p.permit.extractLsb' (64 * w) 64) (.permit k w)) ∧
      (∀ c w, c < 62 → w < 8 → reads (fun p => p.cmds.getD (8 * c + w) 0) (.commandWord k c w)) ∧
      reads (fun p => p.ctail.setWidth 64) (.commandTail k) ∧ reads (fun p => p.chead.setWidth 64) (.commandHead k) ∧
      reads Partition.entMc (.kernelEntry k .mc) ∧ reads Partition.entFc (.kernelEntry k .fc) ∧ reads Partition.entAc (.kernelEntry k .ac) ∧
      (∀ o r, o < 0x10000 → Config.partitionRegister k o = some r → r.partition = some k → s.readHwB link (0x10000 * (k + 1) + o) = s.readReg link r) ∧
      s.readErrors (some tag) = ((s.parts.get? tag).map Partition.errors).getD []) ∧
    s.readReg link .hyperEntry = s.hyperEntry ∧ s.readReg link .reserved = 0 ∧ s.readErrors none = s.errors ∧
    (∀ o, o < 64 → s.readHwB link o = s.readBoot o) ∧
    (∀ o r, 64 ≤ o → o < 0x10000 → Config.globalRegister o = some r → r.isGlobal = true → s.readHwB link o = s.readReg link r) ∧
    ∀ o, 0x1010000 ≤ o → s.readHwB link o = 0

/-- Masks and images (17 R489; 18 R512): a profile mask reaches the partition's cores at their next activation, and the replay logs of their zones; a kernel
image takes a write only while no launch of the partition runs, the hypervisor's while none runs at all; another write is recorded. -/
def Sys2Proof.Claims.MasksAndImages : Prop :=
  ∀ (s : State) (tag : BitVec 8),
    (∀ p, s.parts.get? tag = some p →
      let part (t : State) (q : Partition) : Prop := t.parts.get? tag = some q ∧ ∀ k, k ≠ tag → t.parts.get? k = s.parts.get? k
      let running := ∃ e ∈ s.launches, e.2.tag = tag ∧ e.2.done = false
      let image (q : Partition) (r : Role) : List Byte := match r with
        | .mc => q.kernMc
        | .fc => q.kernFc
        | _ => q.kernAc
      (∀ m, ∃ t, exec (.profileMaskWrite tag m) s = .next t ∧ t = { s with parts := t.parts, cores := t.cores, zones := t.zones } ∧
        part t { p with mask := m &&& 0xFE } ∧
        (∀ c, t.core c = if s.tagOfLaunch c.l = some tag ∧ c.tile ∈ s.tiles.keys ∧ c.r ≠ .steward then { s.core c with profNew := some (m &&& 0xFE) } else s.core c) ∧
        ∀ h x, h ∈ s.tiles.keys → s.tagOfLaunch h.l = some tag → s.bundle h = some x → x.st = .resident → (s.zone x.home.zoneOf).buddy ≠ none →
          ((s.zone x.home.zoneOf).round, .profile h (m &&& 0xFE)) ∈ (t.zone x.home.zoneOf).log) ∧
      (∀ r off bytes, r ∈ onTile → (running → exec (.kernelImageWrite tag r off bytes) s = .next (s.logError tag .kernelImage)) ∧
        (¬running → off + bytes.length ≤ 49152 → ∃ t q, exec (.kernelImageWrite tag r off bytes) s = .next t ∧ t = { s with parts := t.parts } ∧ part t q ∧
          q = { p with kernMc := q.kernMc, kernFc := q.kernFc, kernAc := q.kernAc } ∧ (∀ k, k ∈ onTile → k ≠ r → image q k = image p k) ∧
          ∀ a, (image q r).getD a 0 = if off ≤ a ∧ a < off + bytes.length then bytes.getD (a - off) 0 else (image p r).getD a 0))) ∧
    (∀ off bytes, ((∃ e ∈ s.launches, e.2.done = false) → exec (.hyperImageWrite off bytes) s = .next { s with errors := s.errors ++ [.hyperImage] }) ∧
      ((∀ e ∈ s.launches, e.2.done = true) → off + bytes.length ≤ 16384 → ∃ t, exec (.hyperImageWrite off bytes) s = .next t ∧ t = { s with hyper := t.hyper } ∧
        ∀ a, t.hyper.getD a 0 = if off ≤ a ∧ a < off + bytes.length then bytes.getD (a - off) 0 else s.hyper.getD a 0))

/-- Partitions and commands (17 R463, R464, R480, R481; 18 R505 to R508). A command is answered with its status in bits 23:16 of its first word, and head goes
on; a reserved operation has status 2; a protection descriptor is stored, a context saved as at its LONG entry, an object installed under an unused handle,
which is written at the result address, or refused with status 5 and its refusal record there, a program removed that nothing uses. When a partition can be
created and deleted (log 46), status 4 of LOAD_OBJECT for an address that is misaligned or cannot be read (log 49), status 3 of a context save that finds no
context at a LONG kind 4 entry (log 50), the registers of a partition as it begins (log 22), and the limits that the loader holds an object against (logs 48,
70, 71) are the model's readings; the object is what the bytes at its address hold (log 21). What the loader refuses, by the order of its tests (18 R508): a
unit that the tests of 02 refuse is status 1, a section that lies beyond the object status 2, as is a graph that cannot be parsed or a limit broken; code of
more than 131,072 bytes is status 3. -/
def Obligations.ManagementSteps : Prop :=
  Claims.PartitionsAndCommands ∧ Claims.LoaderRefusals

/-- Time slots, the slot counter and the ports (17 R482 to R488): a commit acts at a frame boundary at least two frames on, with every staged table; the slot
counter follows 1588 time, a step above 512 cycles at a frame boundary; a frame in sequence is taken and acknowledged, a duplicate acknowledged, another
dropped; what is not acknowledged for 15,000 cycles is sent again; a port that is down sends nothing. A time in ns is rounded up to whole cycles (00 R6). How
many frames on a commit acts, and the arithmetic of the slot counter (log 53), and how edges are bound and moved (log 54), are the model's choices. -/
def Obligations.LinkSteps : Prop :=
  ∀ (s : State),
    (∀ v : Word, ∃ f, exec (.slotTableCommit v) s = .next { s with commitAt := some f } ∧ (s.slotTime / 512).toNat + 2 < f) ∧
    (s.commitAt = none → exec .slotTableTakeEffect s = .next s) ∧
    (∀ f, s.commitAt = some f → (s.slotTime % 512 = 0 → (f : Int) ≤ s.slotTime / 512 → (s.staged.map Prod.fst).Nodup →
        ∃ t, exec .slotTableTakeEffect s = .next t ∧ t = { s with slots := t.slots, staged := [], commitAt := none } ∧
          ∀ k, t.slots.get? k = match s.staged.get? k with
            | some v => some v
            | none => s.slots.get? k) ∧
      (s.slotTime % 512 ≠ 0 ∨ s.slotTime / 512 < (f : Int) → exec .slotTableTakeEffect s = .next s)) ∧
    (∀ port time : Nat, (16 ≤ port → exec (.ptpEventMessage port time) s = .next s) ∧
      (port < 16 → ∃ t, exec (.ptpEventMessage port time) s = .next t ∧ t = { s with stamps := s.stamps.set port s.slotTime, timeStep := t.timeStep, slotTime := t.slotTime } ∧
        let d : Int := (((3 * time + 1) / 2 : Nat) : Int) - s.slotTime
        (s.clock ≠ some port → t.timeStep = s.timeStep ∧ t.slotTime = s.slotTime) ∧
        (s.clock = some port → (512 < d.natAbs → t.timeStep = some d ∧ t.slotTime = s.slotTime) ∧ (d.natAbs ≤ 512 → t.timeStep = none ∧ t.slotTime = s.slotTime + d)))) ∧
    (∀ d, s.timeStep = some d → (s.slotTime % 512 = 0 → exec .frameBoundary s = .next { s with slotTime := s.slotTime + d, timeStep := none }) ∧
      (s.slotTime % 512 ≠ 0 → exec .frameBoundary s = .next s)) ∧
    (s.timeStep = none → exec .frameBoundary s = .next s) ∧
    (∀ port, exec (.scaleOutFrameReceive port .other) s = .next { s with dropped := s.dropped + 1 }) ∧
    (∀ n e, s.edges.get? n = some e →
      (∀ f, f.edge = n → e.port ∉ s.down →
        (f.seq = e.expect → ∃ t y, exec (.scaleOutFrameReceive e.port (.transport f)) s = .next t ∧ t.out = .ackFrame e.port n f.seq :: s.out ∧
          t.edges.get? n = some { e with expect := e.expect + 1 } ∧ t.net = s.net ++ [y] ∧ y.dst = some e.end_.core.tile ∧
          match f.credit with
          | some k => y.pkt = .credit e.end_.core e.end_.ch k
          | none => ∃ m, y.pkt = .message e.end_.core m ∧ m.ch = e.end_.ch ∧ m.words = f.payload.drop 1) ∧
        (1 ≤ (e.expect - f.seq).toNat → (e.expect - f.seq).toNat < 2147483648 →
          exec (.scaleOutFrameReceive e.port (.transport f)) s = .next { s with out := .ackFrame e.port n f.seq :: s.out }) ∧
        (2147483648 ≤ (e.expect - f.seq).toNat → exec (.scaleOutFrameReceive e.port (.transport f)) s = .next s)) ∧
      (∀ q, ∃ t, exec (.scaleOutAck n q) s = .next t ∧ t = { s with edges := t.edges } ∧ (∀ k, k ≠ n → t.edges.get? k = s.edges.get? k) ∧
        t.edges.get? n = some { e with unacked := e.unacked.filter fun x => x.2.seq ≠ q }) ∧
      (e.port ∈ s.down → exec (.scaleOutRetransmit n) s = .next s) ∧
      (e.port ∉ s.down → ∃ t, exec (.scaleOutRetransmit n) s = .next t ∧ t = { s with edges := t.edges, out := t.out } ∧
        t.edges.get? n = some { e with unacked := e.unacked.map fun x => if x.1 + 15000 ≤ s.cycle then (s.cycle, x.2) else x } ∧
        t.out = ((e.unacked.filter fun x => decide (x.1 + 15000 ≤ s.cycle)).map fun x => Output.frame e.port x.2).reverse ++ s.out) ∧
      (∀ port, port < 16 → port ∉ s.down → ∃ t, exec (.edgeRebind n port none) s = .next t ∧
        t.edges.get? n = some { e with port := port, unacked := e.unacked.map fun x => (s.cycle, x.2) } ∧
        t.out = (e.unacked.map fun x => Output.frame port x.2).reverse ++ s.out)) ∧
    (∀ n b port, s.edges.get? n = none → port < 16 → ((s.core b.core).chan b.ch).kind = .send ∨ ((s.core b.core).chan b.ch).kind = .bound →
      ∃ t, exec (.edgeRebind n port (some b)) s = .next t ∧ t = { s with edges := t.edges, cores := t.cores, zones := t.zones } ∧
        (∀ x, s.bundle b.core.tile = some x → x.st = .resident → (s.zone x.home.zoneOf).buddy ≠ none →
          (t.zone x.home.zoneOf).log = (s.zone x.home.zoneOf).log ++ [((s.zone x.home.zoneOf).round, .bindEdge b.core b.ch n)]) ∧
        t.edges.get? n = some { port := port, end_ := b, next := 0, unacked := [], expect := 0 } ∧
        (t.core b.core).chan b.ch = { (s.core b.core).chan b.ch with edge := some n }) ∧
    (∀ port, (port < 16 → port ∉ s.down → exec (.portDown port) s = .next { s with down := s.down ++ [port] }) ∧
      (port ∈ s.down → exec (.portDown port) s = .next s) ∧ (port ∉ s.down → exec (.portUp port) s = .next s) ∧
      (port ∈ s.down → (∀ e ∈ s.edges, e.2.port ≠ port) → exec (.portUp port) s = .next { s with down := s.down.filter fun p => p ≠ port }))

/-- Bring-up and attestation (16 R444; 18 R490 to R504): a reset keeps flash; a die whose slots hold no sound image takes no part, and a sound one runs on its
steward, from an address that the manual leaves open (log entry 67); the tiles and zones that fail the test are out; a seam trains once; with every seam trained
the islands merge; the start test and the boot status follow, in minimal mode whenever the count is 3 or more; a die that misses its time limit takes no part. A
request of SPDM on either link is answered, with the digest or the bytes of the certificate chain and signed where the answer is, unsupported ones by ERROR.
Which memories keep their contents (log 24), what the standards leave to the signer (log 20), how the start test orders its findings (log 56) and which dies its
outcome reports (log 59) are the model's choices. -/
def Obligations.BringupSteps : Prop :=
  ∀ (s : State) (die : Nat),
    let d := s.die die
    let blank (t : State) : Prop := t.cycle = 0 ∧ t.ctxs = [] ∧ t.cores = [] ∧ t.tiles = [] ∧ t.launches = [] ∧ t.parts = [] ∧ t.ifaces = [] ∧ t.zones = [] ∧ t.net = [] ∧
      t.homes = [] ∧ t.dead = [] ∧ t.hyper = [] ∧ t.host = s.host ∧ t.boot = List.replicate 8 0 ∧
      ∀ n x, s.dies.get? n = some x → (t.die n).slotA = x.slotA ∧ (t.die n).slotB = x.slotB ∧ (t.die n).minimum = x.minimum ∧ (t.die n).fails = x.fails ∧
        (t.die n).phase = 0 ∧ (t.die n).part = true ∧ (t.die n).ecHash = x.ecHash ∧ (t.die n).lmsKey = x.lmsKey ∧ (t.die n).bank0 = x.bank0 ∧
        (t.die n).bank1 = x.bank1 ∧ (t.die n).seq = x.seq
    (∃ t, exec .reset s = .next t ∧ blank t ∧ t.hbm = s.hbm ∧ t.dies.map Prod.fst = s.dies.map Prod.fst) ∧
    (∃ t, exec (.powerLoss [] []) s = .next t ∧ blank t ∧ t.hbm = []) ∧
    (die < 52 → d.part = true → d.phase = 0 →
      let key (i : FwImage) : List Byte := natToBig 48 i.ecKey.1 ++ natToBig 48 i.ecKey.2
      let good (i : FwImage) : Prop := d.minimum.toNat ≤ i.version.toNat ∧ sha384 (key i) = natToBig 48 d.ecHash.toNat ∧
        ecdsaVerify i.ecKey (bigToNat (sha384 i.code)) i.ecSig = true ∧ lmsVerify d.lmsKey (sha384 i.code) i.lmsSig = true
      let others (t : State) : Prop := t = { s with dies := t.dies } ∧ ∀ k, k ≠ die → t.die k = s.die k
      (∀ i, (d.slotA = some i ∧ good i) ∨ ((∀ j, d.slotA = some j → ¬good j) ∧ d.slotB = some i ∧ good i) → ∃ t, exec (.firmwareVerify die) s = .next t ∧
        t = { s with dies := t.dies, ctxs := t.ctxs } ∧ (∀ k, k ≠ die → t.die k = s.die k) ∧
        t.die die = { d with image := some i, read := d.fails, fails := min (d.fails + 1) 15, phase := 1, since := s.cycle } ∧
        t.ctx ⟨⟨0, die, .steward⟩, 0⟩ = { Ctx.init with phase := .run, level := 3, pc := Config.firmwareEntry die i.code } ∧
        ∀ id, id ≠ ⟨⟨0, die, .steward⟩, 0⟩ → t.ctx id = s.ctx id) ∧
      ((∀ j, d.slotA = some j → ¬good j) → (∀ j, d.slotB = some j → ¬good j) → ∃ t, exec (.firmwareVerify die) s = .next t ∧ others t ∧
        t.die die = { d with part := false, why := 1 })) ∧
    (d.phase ≠ 0 → exec (.firmwareVerify die) s = .next s) ∧
    (die < 52 → d.part = true → d.phase = 1 → ∀ tiles zones links ports, ∃ t, exec (.dieSelfTest die tiles links zones ports) s = .next t ∧ (t.die die).phase = 2 ∧
      (t.die die).since = s.cycle ∧ (∀ q ∈ zones, q < 4 → (t.zone (4 * die + q)).sound = false) ∧
      ∀ i ∈ tiles, i < 768 → ({ die := die, x := i % 32, y := i / 32 } : PTile) ∈ t.dead) ∧
    (∀ b fails, allSeams.contains (die, b) = true → d.part = true → d.phase = 2 → (s.die b).part = true → (s.die b).phase = 2 → (die, b) ∉ s.trained →
      ∃ t, exec (.seamTraining die b fails) s = .next t ∧ t = { s with trained := s.trained ++ [(die, b)], trainedAt := s.cycle, seams := t.seams, dies := t.dies } ∧
        (s.retiredOf die 3 = [] → s.retiredOf b 3 = [] → ((∃ i, i < (seamLinks die b).length ∧ i ∉ fails) → t.seams = s.seams ++ [(die, b)]) ∧
          ((∀ i, i < (seamLinks die b).length → i ∈ fails) → t.seams = s.seams))) ∧
    (∀ b fails, (die, b) ∈ s.trained → exec (.seamTraining die b fails) s = .next s) ∧
    (s.partDies ≠ [] → (∀ x ∈ s.partDies, (s.die x).phase = 2) → (∀ x ∈ s.liveSeams, x ∈ s.trained) → s.late4 = false → ∃ t, exec .islandMerging s = .next t ∧
      t = { s with islands := t.islands, dies := t.dies } ∧ (∀ x ∈ s.partDies, s.dies.get? x = some (s.die x) → (t.die x).phase = 4) ∧
      ∀ x ∈ s.liveSeams, x ∈ s.seams → t.leader x.1 = t.leader x.2) ∧
    ((∀ x ∈ s.partDies, (s.die x).phase = 4) → ∀ faults, ∃ t, exec (.startTest faults) s = .next t ∧ t.slots = [] ∧ t.staged = [] ∧
      ∀ g, g < 16 → t.power g = { PowerGroup.init with fault := faults.contains g }) ∧
    (s.partDies ≠ [] → 3 ≤ s.countRead → (((s.bootWords).getD 0 0).extractLsb' 32 2) = 2) ∧
    ((∀ x ∈ s.partDies, (s.die x).phase = 5) → s.boot.getD 0 0 = 0 → ∃ t, exec .bootStatusWrite s = .next t ∧ t = { s with boot := t.boot, measures := t.measures, dies := t.dies } ∧
      t.boot.length = 8 ∧ t.boot.getD 1 0 = BitVec.ofNat 64 (maskOf s.partDies) ∧ t.measures.get? 6 = some [3]) ∧
    (s.boot.getD 0 0 ≠ 0 → exec .bootStatusWrite s = .next s) ∧
    (die < 52 → d.part = true → d.phase < 2 → (3000000000 ≤ s.cycle → ∃ t, exec (.phaseTimeLimit die) s = .next t ∧
        t = { s with dies := t.dies, trainedAt := s.cycle } ∧ t.die die = { d with part := false, why := 2 } ∧ ∀ k, k ≠ die → t.die k = s.die k) ∧
      (s.cycle < 3000000000 → exec (.phaseTimeLimit die) s = .next s)) ∧
    (die < 52 → d.part = true → d.phase = 2 → s.inPhase4 = true → s.phase4Since + 1500000000 ≤ s.cycle →
      ∃ t, exec (.phaseTimeLimit die) s = .next t ∧ (t.die die).part = false ∧ ∀ k, k ≠ die → t.die k = s.die k) ∧
    (∀ v, (s.failsSetNow = true → exec (.failsClear v) s = .next s) ∧
      (s.failsSetNow = false → ∃ t, exec (.failsClear v) s = .next t ∧ t = { s with boot := t.boot, dies := t.dies } ∧
        t.boot = s.boot.set 0 (s.boot.getD 0 0 &&& ~~~(v &&& 0xF0000000000)) ∧
        (v &&& 0xF0000000000 = 0 → t.dies = s.dies) ∧
        (ufield (s.boot.getD 0 0) 40 4 ≠ 0 → v &&& 0xF0000000000 = 0xF0000000000 → ∀ n x, t.dies.get? n = some x → x.fails = 0))) ∧
    (∀ link, link < 2 → s.answers = true →
      let gives (i : Instr) (bs : List Byte) : Prop := exec i s = .next { s with out := .spdm link bs :: s.out }
      let a := s.partDies.head?.getD 0
      let chain := Config.certificate a
      let signed (request : Nat) (payload answer bs : List Byte) : Prop :=
        let z := bigToNat (sha384 (Config.spdmSigned a request payload answer))
        bs = answer ++ natToBig 48 (ecdsaSign (Config.signingKey a) (Config.signingNonce a z) z).1 ++
          natToBig 48 (ecdsaSign (Config.signingKey a) (Config.signingNonce a z) z).2
      gives (.getVersion link) (Config.spdmBody a 0x84 []) ∧ gives (.getCapabilities link) (Config.spdmBody a 0xE1 []) ∧
      gives (.negotiateAlgorithms link) (Config.spdmBody a 0xE3 []) ∧ gives (.getDigests link) (Config.spdmBody a 0x81 [] ++ sha384 chain) ∧
      (∀ off len, gives (.getCertificate link 0 off len)
        (Config.spdmBody a 0x82 (natToBytes 2 off.toNat ++ natToBytes 2 len.toNat) ++ (chain.drop off.toNat).take len.toNat)) ∧
      (∀ nonce, let payload := natToBytes 32 nonce.toNat
        ∃ bs, gives (.challenge link 0 nonce) bs ∧ signed 0x83 payload (Config.spdmBody a 0x83 payload ++ sha384 chain) bs) ∧
      (∀ block nonce, gives (.getMeasurements link block false nonce) [0x13, 0x7F, 0x07, 0xE0] ∧
        let payload := natToBytes 1 block.toNat ++ natToBytes 32 nonce.toNat
        ∃ body bs, gives (.getMeasurements link block true nonce) bs ∧ signed 0xE0 payload (Config.spdmBody a 0xE0 payload ++ body) bs ∧
          (s.measures ≠ [] → block ≠ 0 → block ≠ 0xFF → body = s.measures.getD block.toNat [])) ∧
      ∀ code, gives (.unsupportedRequest link code) [0x13, 0x7F, 0x07, code]) ∧
    (s.answers = false → ∀ link, exec (.getVersion link) s = .next s)

/-! ### Rules of the whole machine -/

namespace Sys2Proof.Claims

open Sys2Proof.Machine

/-- Every byte memory that the state holds is in its canonical form: HBM, host memory, the scratchpads, and the scratchpads that the zones' images keep. -/
def MemoryCanonical (s : State) : Prop :=
  (∀ e ∈ s.hbm, e.2.wf = true) ∧ (∀ e ∈ s.host, e.2.wf = true) ∧ (∀ e ∈ s.tiles, e.2.mem.wf = true) ∧
  ∀ z ∈ s.zones, ∀ i, z.2.restore = some i ∨ z.2.streaming = some i ∨ (∃ r, (r, i) ∈ z.2.placed) → ∀ e ∈ i.tiles, e.2.mem.wf = true

end Sys2Proof.Claims

/-- One step (02 R40, R60; 05 R140; 14 R420): what stands on the agenda goes first, but for an entry that a context which can issue takes at its next boundary
only; else the next context that can issue runs the instruction that the bytes at its program counter decode to, as exec gives it. At that unit's boundary the
unit's own trap comes first; else a pending asynchronous trap, else a user interrupt, takes the place of the unit. Bytes that are no unit trap ILLEGAL with
their bits, a fetch where no unit is held traps PROT. With nothing to issue the first device step that is due runs; else the cycle passes. The order between
units, due steps and the cycle's passing is the model's (log entry 60). -/
def Obligations.StepRunsDecoded : Prop :=
  ∀ (s : State),
    (∀ i rest, s.agenda = i :: rest →
      let waits : Prop := ∃ id, (i = .asyncTrapTake id ∨ i = .userInterruptEntry id) ∧ (s.ctx id).phase = .run
      (waits → step s = .next { s with agenda := rest }) ∧ (¬waits → step s = exec i { s with agenda := rest })) ∧
    (s.agenda = [] → nextIssue s = none → (∀ i, due s = some i → step s = exec i s) ∧ (due s = none → step s = .next s.tick)) ∧
    (∀ id, s.agenda = [] → nextIssue s = some id →
      let u := s.select id
      let runs (i : Instr) : Prop := ∀ t, exec i u = .next t →
        (t.trapped ≠ none → step s = .next t) ∧
        (t.trapped = none → asyncDue u.here = true → step s = exec (.asyncTrapTake id) u) ∧
        (t.trapped = none → asyncDue u.here = false → interruptDue u.here = true → step s = exec (.userInterruptEntry id) u) ∧
        (t.trapped = none → asyncDue u.here = false → interruptDue u.here = false → step s = exec i u)
      (∀ i, decode (u.fetchHalves id) = .ok i → runs i) ∧
      (decode (u.fetchHalves id) = .error .truncated → runs (.fetchProt (u.ctx id).pc)) ∧
      (∀ b, decode (u.fetchHalves id) = .error (.unassigned b) ∨ decode (u.fetchHalves id) = .error (.reserved b) ∨
        decode (u.fetchHalves id) = .error (.operand b) → runs (.illegal b)))

/-- Words of the spec's encodings, field by field from bit 31 down, decode to the instructions they stand for (02 R39 to R58): integer ALU, add immediate, branch,
load, a vector form with and without its modifier word, matrix issue, release store, compact forms; an unassigned operation, a modifier word where none is allowed,
an unassigned major and a unit cut short are refused by name. -/
def Obligations.DecodeWords : Prop :=
  let word (w : BitVec 32) : List Half := [w.extractLsb' 0 16, w.extractLsb' 16 16]
  decode (word 0b000000000_00010_00001_00011_000001_0_1) = .ok (.add 2 1 3) ∧
  decode (word 0b11111111111110_00001_00011_000011_0_1) = .ok (.addi 0x3FFE 1 3) ∧
  decode (word 0b11111111110_001_00010_00001_001100_0_1) = .ok (.bne 0x7FE 2 1) ∧
  decode (word 0b0101_110_0000011_00001_00010_010111_0_1) = .ok (.ldD 5 3 1 2) ∧
  decode (word 0b000000_011_00010_00001_00100_011100_0_1) = .ok (.vaddF32 3 2 1 4 none) ∧
  decode (word 0b000000_011_00010_00001_00100_011100_1_1 ++ word 1) = .ok (.vaddF32 3 2 1 4 (some 1)) ∧
  decode (word 0b0000_001_1101_00010_011_100_01_100110_0_1) = .ok (.mma 1 13 2 3 4 1) ∧
  decode (word 0b0010_01_0_0000011_00001_00010_101100_0_1) = .ok (.stRel 2 1 3 1 2) ∧
  decode [0b00010_00011_00001_0] = .ok (.compactAdd 2 3) ∧ decode [0b00000_00000_10100_0] = .ok .compactNop ∧
  decode (word 0b000011011_00010_00001_00011_000001_0_1) = .error (.unassigned 0x0D882305) ∧
  decode (word 0b000000000_00010_00001_00011_000001_1_1 ++ word 0) = .error (.reserved 0x00082307) ∧
  decode (word 0b000000000_00000_00000_00000_000000_0_1) = .error (.unassigned 1) ∧
  decode [0b00000_00000_00000_0] = .error (.unassigned 0) ∧ decode (word 0b000000_011_00010_00001_00100_011100_1_1) = .error .truncated

/-- Decoding gives back what was encoded (02 R39 to R62): every well-formed instruction that has an encoding, with every operand at every value that the
encoding admits, and whatever follows it. -/
def Obligations.DecodeOfEncode : Prop :=
  ∀ (i : Instr) (rest : List Half), wf i = true → i.isEvent = false → decode (encode i ++ rest) = .ok i

/-- A decoded instruction accounts for every bit it was read from (02 R47, R52, R56, R60): the bytes begin with its encoding, and its operands are ones that its
form admits. -/
def Obligations.DecodeSound : Prop :=
  ∀ (hs : List Half) (i : Instr), decode hs = .ok i → wf i = true ∧ i.isEvent = false ∧ ∃ rest, hs = encode i ++ rest

/-- Every step keeps every byte memory in its canonical form, so that equal memories are equal data (01 R26; 07 R212; a form of the model, log entry 24). -/
def Obligations.MemoryStaysCanonical : Prop :=
  ∀ (s : State), MemoryCanonical s → (∀ i t, exec i s = .next t → MemoryCanonical t) ∧ ∀ t, step s = .next t → MemoryCanonical t

/-- The device at reset (04 Table 4.1; 16 R457; 17 R463, Tables 17.1, 17.6; 18 R490, R502): no launch, partition, task or packet; the registers of the interface
and command pages, the boot status block and the hyper entry are 0, cw.curstep is 520, and every memory is in its canonical form. A partition's registers begin
at 0 when it is created (log 22), and memories that the manual gives no contents read 0 (log 24): the model's choices. -/
def Obligations.ResetState : Prop :=
  let s := State.reset
  MemoryCanonical s ∧ s.launches = [] ∧ s.parts = [] ∧ s.cores = [] ∧ s.ctxs = [] ∧ s.tiles = [] ∧ s.net = [] ∧ s.tags = [] ∧ s.boot = List.replicate 8 0 ∧ s.hyperEntry = 0 ∧
  (∀ n, let f := s.iface n
    f.tail = 0 ∧ f.head = 0 ∧ f.nbase = 0 ∧ f.nsize = 0 ∧ f.vector = 0 ∧ f.cons = 0 ∧ f.abase = 0 ∧ f.assigned = none ∧ ∀ w, f.word w = 0) ∧
  (∀ tag n, (Partition.init tag n).ctail = 0 ∧ (Partition.init tag n).chead = 0 ∧ (Partition.init tag n).desc = 0) ∧
  (∀ g, (s.power g).limit = 520) ∧ ∀ c, (s.core c).tvecK = 0 ∧ (s.core c).tvecH = 0 ∧ (s.core c).prof = 0 ∧ (s.core c).wdog = 65536

/-- No step stops the machine: every instruction and every device step answers a next state, in every state; errors of a program are traps, denials and retries
(00 R13; 04 R118; 14 R415). That the manual gives every unit and every device step an effect, so that none is refused, is the model's reading (log 1). -/
def Sys2Proof.Claims.NothingStops : Prop :=
  (∀ (i : Instr) (s : State), ∃ t, exec i s = .next t) ∧ ∀ s : State, Runs s

/-- A host write of a register (00 R9, R11; 17 R464, R470, R477, R479, R481, R482, R486, Tables 17.1, 17.5, 17.6; 18 R512): an interface page takes it on its
own link only, a partition's block where the partition is; RW fields are stored, the others keep their value; a write of a reserved place changes nothing. The
bits of the interface assignment (log 21) and the low six bits of an entry address (log 55) are the model's. Masks and images (17 R489; 18 R512): a profile
mask reaches the partition's cores at their next activation, and the replay logs of their zones; a kernel image takes a write only while no launch of the
partition runs, the hypervisor's while none runs at all; another write is recorded. What a host reads back (00 R9, R11; 17 R470, R477, R479, R481, Tables
17.1, 17.5; 18 R502): an interface page on its own link holds its fields at their offsets and 0 elsewhere; on the other link every byte of it is 0; the boot
status block reads as it was written; a register of a partition's block reads as it stands, 0 where the partition is not, and either link reads at its offset
in HW-B what the register holds (the offsets are the device's, log 21), the error logs as they are kept. No step stops the machine: every instruction and
every device step answers a next state, in every state; errors of a program are traps, denials and retries (00 R13; 04 R118; 14 R415). That the manual gives
every unit and every device step an effect, so that none is refused, is the model's reading (log 1). -/
def Obligations.RegistersMasksAndImages : Prop :=
  Claims.RegisterWrites ∧ Claims.MasksAndImages ∧ Claims.HostReads ∧ Claims.NothingStops

/-- A unit at user level that does not trap leaves its level and everything that only higher levels write (02 R55, R60, Table 2.14; 04 Table 4.4): every core's
entry addresses, tag, profile, watchdog and ordering mode, the current limits, the hyper image, and in every context that still holds a task the words of the
kernel's and the hypervisor's bank. -/
def Obligations.UserLevelKeepsControl : Prop :=
  ∀ (i : Instr) (s t : State), i.isEvent = false → s.cur.core.r ≠ .steward → s.here.level = 0 → exec i s = .next t → t.trapped = none →
    t.here.level = 0 ∧ t.groups = s.groups ∧ t.hyper = s.hyper ∧ t.hyperEntry = s.hyperEntry ∧
    (∀ c, (t.core c).tvecK = (s.core c).tvecK ∧ (t.core c).tvecH = (s.core c).tvecH ∧ (t.core c).ptag = (s.core c).ptag ∧ (t.core c).prof = (s.core c).prof ∧
      (t.core c).wdog = (s.core c).wdog ∧ (t.core c).free = (s.core c).free) ∧
    ∀ id, (t.ctx id).phase ≠ .free →
      let same (a b : Bank) : Prop := a.plevel = b.plevel ∧ a.code = b.code ∧ a.async = b.async ∧ a.epc = b.epc ∧ a.tval = b.tval
      same (t.ctx id).kbank (s.ctx id).kbank ∧ same (t.ctx id).hbank (s.ctx id).hbank
end

