-- ==== Sys2Proof/Laws/Maps.lean ====
section
/-! SUPPORT. Laws of association lists and of byte memories: reading after writing, and that every memory operation keeps the canonical form. -/

namespace Sys2Proof.Machine

/-! ### Association lists -/

@[simp] theorem Map.get?_set_self {κ ν : Type} [DecidableEq κ] (m : Map κ ν) (a : κ) (b : ν) : Map.get? (Map.set m a b) a = some b := by
  induction m with
  | nil => simp [Map.set, Map.get?]
  | cons e r ih =>
    obtain ⟨k, v⟩ := e
    by_cases h : k = a <;> simp [Map.set, Map.get?, h, ih]

theorem Map.get?_set_ne {κ ν : Type} [DecidableEq κ] (m : Map κ ν) {a c : κ} (b : ν) (h : c ≠ a) : Map.get? (Map.set m a b) c = Map.get? m c := by
  induction m with
  | nil => simp [Map.set, Map.get?, Ne.symm h]
  | cons e r ih =>
    obtain ⟨k, v⟩ := e
    by_cases hk : k = a
    · subst hk; simp [Map.set, Map.get?, Ne.symm h]
    · by_cases hc : k = c
      · subst hc; simp [Map.set, Map.get?, hk]
      · simp [Map.set, Map.get?, hk, hc, ih]

theorem Map.get?_set {κ ν : Type} [DecidableEq κ] (m : Map κ ν) (a c : κ) (b : ν) :
    Map.get? (Map.set m a b) c = if c = a then some b else Map.get? m c := by
  by_cases h : c = a
  · subst h; simp
  · simp [h, Map.get?_set_ne m b h]

@[simp] theorem Map.getD_set_self {κ ν : Type} [DecidableEq κ] (m : Map κ ν) (a : κ) (b d : ν) : Map.getD (Map.set m a b) a d = b := by
  simp [Map.getD]

theorem Map.getD_set_ne {κ ν : Type} [DecidableEq κ] (m : Map κ ν) {a c : κ} (b d : ν) (h : c ≠ a) : Map.getD (Map.set m a b) c d = Map.getD m c d := by
  simp [Map.getD, Map.get?_set_ne m b h]

@[simp] theorem Map.set_set {κ ν : Type} [DecidableEq κ] (m : Map κ ν) (a : κ) (b c : ν) : Map.set (Map.set m a b) a c = Map.set m a c := by
  induction m with
  | nil => simp [Map.set]
  | cons e r ih =>
    obtain ⟨k, v⟩ := e
    by_cases h : k = a <;> simp [Map.set, h, ih]

/-! ### Bytes of a memory -/

/-- A memory in canonical form whose addresses all lie above a bound. -/
theorem Memory.get_eq_zero_of_lt (m : Memory) (a : Nat) (h : ∀ e ∈ m, a < e.1) : m.get a = 0#8 := by
  induction m with
  | nil => rfl
  | cons e r ih =>
    obtain ⟨k, v⟩ := e
    have hk : a < k := h (k, v) (by simp)
    have : ¬ k = a := by omega
    simp [Memory.get, this, ih fun e he => h e (by simp [he])]

theorem Memory.wf_tail {k : Nat} {v : Byte} {r : Memory} (h : Memory.wf ((k, v) :: r) = true) : Memory.wf r = true := by
  cases r with
  | nil => rfl
  | cons e r =>
    obtain ⟨b, w⟩ := e
    simp [Memory.wf] at h
    exact h.2

theorem Memory.wf_head {k : Nat} {v : Byte} {r : Memory} (h : Memory.wf ((k, v) :: r) = true) : v ≠ 0#8 := by
  cases r with
  | nil => simpa [Memory.wf] using h
  | cons e r =>
    obtain ⟨b, w⟩ := e
    simp [Memory.wf] at h
    exact h.1.1

theorem Memory.wf_above {k : Nat} {v : Byte} {r : Memory} (h : Memory.wf ((k, v) :: r) = true) : ∀ e ∈ r, k < e.1 := by
  induction r generalizing k v with
  | nil => simp
  | cons e r ih =>
    obtain ⟨b, w⟩ := e
    simp [Memory.wf] at h
    intro x hx
    rcases List.mem_cons.mp hx with rfl | hx
    · exact h.1.2
    · exact Nat.lt_trans h.1.2 (ih h.2 x hx)

theorem Memory.wf_cons {k : Nat} {v : Byte} {r : Memory} (hv : v ≠ 0#8) (ha : ∀ e ∈ r, k < e.1) (hr : Memory.wf r = true) : Memory.wf ((k, v) :: r) = true := by
  cases r with
  | nil => simpa [Memory.wf] using hv
  | cons e r =>
    obtain ⟨b, w⟩ := e
    have := ha (b, w) (by simp)
    simp [Memory.wf, hv, this, hr]

/-- Every address of a memory after a write was there before, or is the one written. -/
theorem Memory.mem_set (m : Memory) (a : Nat) (b : Byte) : ∀ e ∈ m.set a b, e.1 = a ∨ e ∈ m := by
  induction m with
  | nil =>
    intro e he
    by_cases hb : b = 0#8 <;> simp [Memory.set, hb] at he
    exact .inl (by simp [he])
  | cons x r ih =>
    obtain ⟨k, v⟩ := x
    intro e he
    simp only [Memory.set] at he
    split at he
    · split at he
      · exact .inr he
      · rcases List.mem_cons.mp he with rfl | he
        · exact .inl rfl
        · exact .inr he
    · split at he
      · split at he
        · exact .inr (List.mem_cons_of_mem _ he)
        · rcases List.mem_cons.mp he with rfl | he
          · exact .inl rfl
          · exact .inr (List.mem_cons_of_mem _ he)
      · rcases List.mem_cons.mp he with rfl | he
        · exact .inr (by simp)
        · rcases ih e he with h | h
          · exact .inl h
          · exact .inr (List.mem_cons_of_mem _ h)

/-- Writing a byte keeps the canonical form. -/
theorem Memory.wf_set (m : Memory) (a : Nat) (b : Byte) (h : m.wf = true) : (m.set a b).wf = true := by
  induction m with
  | nil => by_cases hb : b = 0#8 <;> simp [Memory.set, Memory.wf, hb]
  | cons e r ih =>
    obtain ⟨k, v⟩ := e
    have hr := Memory.wf_tail h
    have hv := Memory.wf_head h
    have hk := Memory.wf_above h
    simp only [Memory.set]
    split
    · rename_i hlt
      split
      · exact h
      · rename_i hb
        refine Memory.wf_cons hb (fun e he => ?_) h
        rcases List.mem_cons.mp he with rfl | he
        · exact hlt
        · exact Nat.lt_trans hlt (hk e he)
    · rename_i hlt
      split
      · rename_i heq
        split
        · exact hr
        · rename_i hb
          exact Memory.wf_cons hb (fun e he => heq ▸ hk e he) hr
      · rename_i hne
        refine Memory.wf_cons hv (fun e he => ?_) (ih hr)
        rcases Memory.mem_set r a b e he with h' | h'
        · omega
        · exact hk e h'

/-- Writing bytes keeps the canonical form. -/
theorem Memory.wf_write (m : Memory) (a : Nat) (bs : List Byte) (h : m.wf = true) : (m.write a bs).wf = true := by
  induction bs generalizing m a with
  | nil => exact h
  | cons b bs ih => exact ih _ _ (Memory.wf_set m a b h)

/-- A byte after a byte is written, in a memory in canonical form. -/
theorem Memory.get_set (m : Memory) (a c : Nat) (b : Byte) (h : m.wf = true) : (m.set a b).get c = if c = a then b else m.get c := by
  induction m with
  | nil =>
    by_cases hb : b = 0#8
    · simp [Memory.set, Memory.get, hb]
    · by_cases hc : c = a
      · subst hc; simp [Memory.set, Memory.get, hb]
      · simp [Memory.set, Memory.get, hb, hc, Ne.symm hc]
  | cons e r ih =>
    obtain ⟨k, v⟩ := e
    have hr := Memory.wf_tail h
    have hk := Memory.wf_above h
    have below : ∀ x, x ≤ k → Memory.get r x = 0#8 := fun x hx =>
      Memory.get_eq_zero_of_lt r x fun e he => Nat.lt_of_le_of_lt hx (hk e he)
    simp only [Memory.set]
    split
    · rename_i hlt
      split
      · rename_i hb
        by_cases hc : c = a
        · subst hc
          have h1 : ¬ k = c := by omega
          simpa [Memory.get, h1, below c (by omega)] using hb.symm
        · simp [hc]
      · by_cases hc : c = a
        · simp [Memory.get, hc]
        · simp [Memory.get, hc, Ne.symm hc]
    · rename_i hlt
      split
      · rename_i heq
        subst heq
        split
        · rename_i hb
          by_cases hc : c = a
          · subst hc; simpa [below c (by omega)] using hb.symm
          · simp [Memory.get, hc, Ne.symm hc]
        · by_cases hc : c = a
          · subst hc; simp [Memory.get]
          · simp [Memory.get, hc, Ne.symm hc]
      · rename_i hne
        by_cases hc : k = c
        · subst hc
          simp [Memory.get, Ne.symm hne]
        · simp [Memory.get, hc, ih hr]

/-- A byte after a byte string is written, in a memory in canonical form. -/
theorem Memory.get_write (m : Memory) (a c : Nat) (bs : List Byte) (h : m.wf = true) :
    (m.write a bs).get c = if a ≤ c ∧ c < a + bs.length then bs.getD (c - a) 0 else m.get c := by
  induction bs generalizing m a with
  | nil =>
    simp [Memory.write]
  | cons b bs ih =>
    simp only [Memory.write]
    rw [ih _ _ (Memory.wf_set m a b h), Memory.get_set m a c b h]
    by_cases h1 : c = a
    · subst h1
      simp
    · by_cases h2 : a + 1 ≤ c ∧ c < a + 1 + bs.length
      · have h3 : a ≤ c ∧ c < a + (b :: bs).length := by simp; omega
        have h4 : c - a = (c - (a + 1)) + 1 := by omega
        rw [if_pos h2, if_pos h3, h4]
        rfl
      · have h3 : ¬ (a ≤ c ∧ c < a + (b :: bs).length) := by simp; omega
        rw [if_neg h2, if_neg h3, if_neg h1]

/-- Two memories in canonical form that read alike are the same. -/
theorem Memory.ext (m n : Memory) (hm : m.wf = true) (hn : n.wf = true) (h : ∀ a, m.get a = n.get a) : m = n := by
  induction m generalizing n with
  | nil =>
    cases n with
    | nil => rfl
    | cons e r =>
      obtain ⟨k, v⟩ := e
      have := h k
      simp [Memory.get] at this
      exact absurd this.symm (Memory.wf_head hn)
  | cons e r ih =>
    obtain ⟨k, v⟩ := e
    cases n with
    | nil =>
      have := h k
      simp [Memory.get] at this
      exact absurd this (Memory.wf_head hm)
    | cons f q =>
      obtain ⟨j, w⟩ := f
      have hkj : k = j := by
        rcases Nat.lt_trichotomy k j with hlt | heq | hgt
        · have h1 := h k
          have h2 : Memory.get ((j, w) :: q) k = 0#8 := by
            refine Memory.get_eq_zero_of_lt _ _ fun e he => ?_
            rcases List.mem_cons.mp he with rfl | he
            · exact hlt
            · exact Nat.lt_trans hlt (Memory.wf_above hn e he)
          rw [h2] at h1
          simp [Memory.get] at h1
          exact absurd h1 (Memory.wf_head hm)
        · exact heq
        · have h1 := h j
          have h2 : Memory.get ((k, v) :: r) j = 0#8 := by
            refine Memory.get_eq_zero_of_lt _ _ fun e he => ?_
            rcases List.mem_cons.mp he with rfl | he
            · exact hgt
            · exact Nat.lt_trans hgt (Memory.wf_above hm e he)
          rw [h2] at h1
          simp [Memory.get] at h1
          exact absurd h1.symm (Memory.wf_head hn)
      subst hkj
      have hv : v = w := by have := h k; simpa [Memory.get] using this
      subst hv
      have : r = q := by
        refine ih q (Memory.wf_tail hm) (Memory.wf_tail hn) fun a => ?_
        by_cases ha : k = a
        · subst ha
          rw [Memory.get_eq_zero_of_lt r k (Memory.wf_above hm), Memory.get_eq_zero_of_lt q k (Memory.wf_above hn)]
        · have := h a
          simpa [Memory.get, ha] using this
      rw [this]

/-! ### Bytes and numbers -/

@[simp] theorem natToBytes_length (n v : Nat) : (natToBytes n v).length = n := by
  induction n generalizing v with
  | zero => rfl
  | succ n ih => simp [natToBytes, ih]

theorem bytesToNat_natToBytes (n v : Nat) : bytesToNat (natToBytes n v) = v % 256 ^ n := by
  induction n generalizing v with
  | zero => simp [natToBytes, bytesToNat, Nat.mod_one]
  | succ n ih =>
    have h : (BitVec.ofNat 8 v).toNat = v % 256 := BitVec.toNat_ofNat ..
    rw [natToBytes, bytesToNat, ih, h, Nat.pow_succ', Nat.mod_mul]

@[simp] theorem Memory.read_length (m : Memory) (a n : Nat) : (m.read a n).length = n := by simp [Memory.read]

end Sys2Proof.Machine
end

