-- ==== Sys2Proof/Laws/Crypto.lean ====
section
/-! SUPPORT. Lengths of what the functions of Crypto.lean give, so that no proof runs a hash. -/

namespace Sys2Proof.Machine

theorem shaRound_length {w} (e0 e1 : BitVec w → BitVec w) (v : List (BitVec w)) (x : BitVec w) : (shaRound e0 e1 v x).length = v.length := by
  unfold shaRound; split <;> rfl

theorem shaRounds_length {w} (e0 e1 : BitVec w → BitVec w) (l v : List (BitVec w)) : (l.foldl (shaRound e0 e1) v).length = v.length := by
  induction l generalizing v with
  | nil => rfl
  | cons x r ih => rw [List.foldl_cons, ih, shaRound_length]

theorem sha2_length {w} (b n : Nat) (k h0 : List (BitVec w)) (s0 s1 e0 e1 : BitVec w → BitVec w) (m : List Byte) :
    (sha2 b n k h0 s0 s1 e0 e1 m).length = n * h0.length := by
  have flat (h : List (BitVec w)) : (h.flatMap fun x => natToBig n x.toNat).length = n * h.length := by
    induction h with
    | nil => rfl
    | cons x r ih => rw [List.flatMap_cons, List.length_append, ih]; simp [natToBig, Nat.mul_succ, Nat.add_comm]
  have fold (l : List (List Byte)) (h : List (BitVec w)) : (l.foldl (fun h blk =>
      let ws := schedule s0 s1 (k.length - 16) ((cut n 16 blk).map fun x => BitVec.ofNat w (bigToNat x))
      let v := (List.zipWith (· + ·) k ws).foldl (shaRound e0 e1) h
      List.zipWith (· + ·) h v) h).length = h.length := by
    induction l generalizing h with
    | nil => rfl
    | cons x r ih => rw [List.foldl_cons, ih]; simp [shaRounds_length]
  unfold sha2; rw [flat, fold]

theorem sha256_length (m : List Byte) : (sha256 m).length = 32 := sha2_length ..

theorem lmsRoot_length (id : List Byte) (l : List (List Byte)) (n : Nat) (t : List Byte) (h : t.length = 32) : (lmsRoot id l n t).length = 32 := by
  induction l generalizing n t with
  | nil => exact h
  | cons y r ih => exact ih _ _ (sha256_length _)

end Sys2Proof.Machine
end

