-- ==== Sys2Proof/Laws/State.lean ====
section
/-! SUPPORT. What each update of the state leaves as it was, field by field, so that no proof unfolds a record update. -/

namespace Sys2Proof.Machine

@[simp] theorem State.setCtx_cycle (s : State) (id : CtxId) (c : Ctx) : (s.setCtx id c).cycle = s.cycle := rfl
@[simp] theorem State.setCtx_agenda (s : State) (id : CtxId) (c : Ctx) : (s.setCtx id c).agenda = s.agenda := rfl
@[simp] theorem State.setCtx_cur (s : State) (id : CtxId) (c : Ctx) : (s.setCtx id c).cur = s.cur := rfl
@[simp] theorem State.setCtx_issued (s : State) (id : CtxId) (c : Ctx) : (s.setCtx id c).issued = s.issued := rfl
@[simp] theorem State.setCtx_trapped (s : State) (id : CtxId) (c : Ctx) : (s.setCtx id c).trapped = s.trapped := rfl
@[simp] theorem State.setCtx_later (s : State) (id : CtxId) (c : Ctx) : (s.setCtx id c).later = s.later := rfl
@[simp] theorem State.setCtx_fresh (s : State) (id : CtxId) (c : Ctx) : (s.setCtx id c).fresh = s.fresh := rfl
@[simp] theorem State.setCtx_cores (s : State) (id : CtxId) (c : Ctx) : (s.setCtx id c).cores = s.cores := rfl
@[simp] theorem State.setCtx_tiles (s : State) (id : CtxId) (c : Ctx) : (s.setCtx id c).tiles = s.tiles := rfl
@[simp] theorem State.setCtx_tts (s : State) (id : CtxId) (c : Ctx) : (s.setCtx id c).tts = s.tts := rfl
@[simp] theorem State.setCtx_launches (s : State) (id : CtxId) (c : Ctx) : (s.setCtx id c).launches = s.launches := rfl
@[simp] theorem State.setCtx_homes (s : State) (id : CtxId) (c : Ctx) : (s.setCtx id c).homes = s.homes := rfl
@[simp] theorem State.setCtx_net (s : State) (id : CtxId) (c : Ctx) : (s.setCtx id c).net = s.net := rfl
@[simp] theorem State.setCtx_posted (s : State) (id : CtxId) (c : Ctx) : (s.setCtx id c).posted = s.posted := rfl
@[simp] theorem State.setCtx_xfers (s : State) (id : CtxId) (c : Ctx) : (s.setCtx id c).xfers = s.xfers := rfl
@[simp] theorem State.setCtx_hbm (s : State) (id : CtxId) (c : Ctx) : (s.setCtx id c).hbm = s.hbm := rfl
@[simp] theorem State.setCtx_host (s : State) (id : CtxId) (c : Ctx) : (s.setCtx id c).host = s.host := rfl
@[simp] theorem State.setCtx_tlbs (s : State) (id : CtxId) (c : Ctx) : (s.setCtx id c).tlbs = s.tlbs := rfl
@[simp] theorem State.setCtx_parts (s : State) (id : CtxId) (c : Ctx) : (s.setCtx id c).parts = s.parts := rfl
@[simp] theorem State.setCtx_ifaces (s : State) (id : CtxId) (c : Ctx) : (s.setCtx id c).ifaces = s.ifaces := rfl
@[simp] theorem State.setCtx_bundles (s : State) (id : CtxId) (c : Ctx) : (s.setCtx id c).bundles = s.bundles := rfl
@[simp] theorem State.setCtx_dead (s : State) (id : CtxId) (c : Ctx) : (s.setCtx id c).dead = s.dead := rfl
@[simp] theorem State.setCtx_routes (s : State) (id : CtxId) (c : Ctx) : (s.setCtx id c).routes = s.routes := rfl
@[simp] theorem State.setCtx_tags (s : State) (id : CtxId) (c : Ctx) : (s.setCtx id c).tags = s.tags := rfl
@[simp] theorem State.setCtx_requests (s : State) (id : CtxId) (c : Ctx) : (s.setCtx id c).requests = s.requests := rfl
@[simp] theorem State.setCtx_shrinking (s : State) (id : CtxId) (c : Ctx) : (s.setCtx id c).shrinking = s.shrinking := rfl
@[simp] theorem State.setCtx_zones (s : State) (id : CtxId) (c : Ctx) : (s.setCtx id c).zones = s.zones := rfl
@[simp] theorem State.setCtx_groups (s : State) (id : CtxId) (c : Ctx) : (s.setCtx id c).groups = s.groups := rfl
@[simp] theorem State.setCtx_dies (s : State) (id : CtxId) (c : Ctx) : (s.setCtx id c).dies = s.dies := rfl
@[simp] theorem State.setCtx_trained (s : State) (id : CtxId) (c : Ctx) : (s.setCtx id c).trained = s.trained := rfl
@[simp] theorem State.setCtx_seams (s : State) (id : CtxId) (c : Ctx) : (s.setCtx id c).seams = s.seams := rfl
@[simp] theorem State.setCtx_trainedAt (s : State) (id : CtxId) (c : Ctx) : (s.setCtx id c).trainedAt = s.trainedAt := rfl
@[simp] theorem State.setCtx_islands (s : State) (id : CtxId) (c : Ctx) : (s.setCtx id c).islands = s.islands := rfl
@[simp] theorem State.setCtx_boot (s : State) (id : CtxId) (c : Ctx) : (s.setCtx id c).boot = s.boot := rfl
@[simp] theorem State.setCtx_measures (s : State) (id : CtxId) (c : Ctx) : (s.setCtx id c).measures = s.measures := rfl
@[simp] theorem State.setCtx_hyper (s : State) (id : CtxId) (c : Ctx) : (s.setCtx id c).hyper = s.hyper := rfl
@[simp] theorem State.setCtx_hyperEntry (s : State) (id : CtxId) (c : Ctx) : (s.setCtx id c).hyperEntry = s.hyperEntry := rfl
@[simp] theorem State.setCtx_errors (s : State) (id : CtxId) (c : Ctx) : (s.setCtx id c).errors = s.errors := rfl
@[simp] theorem State.setCtx_slots (s : State) (id : CtxId) (c : Ctx) : (s.setCtx id c).slots = s.slots := rfl
@[simp] theorem State.setCtx_staged (s : State) (id : CtxId) (c : Ctx) : (s.setCtx id c).staged = s.staged := rfl
@[simp] theorem State.setCtx_commitAt (s : State) (id : CtxId) (c : Ctx) : (s.setCtx id c).commitAt = s.commitAt := rfl
@[simp] theorem State.setCtx_slotTime (s : State) (id : CtxId) (c : Ctx) : (s.setCtx id c).slotTime = s.slotTime := rfl
@[simp] theorem State.setCtx_timeStep (s : State) (id : CtxId) (c : Ctx) : (s.setCtx id c).timeStep = s.timeStep := rfl
@[simp] theorem State.setCtx_clock (s : State) (id : CtxId) (c : Ctx) : (s.setCtx id c).clock = s.clock := rfl
@[simp] theorem State.setCtx_stamps (s : State) (id : CtxId) (c : Ctx) : (s.setCtx id c).stamps = s.stamps := rfl
@[simp] theorem State.setCtx_down (s : State) (id : CtxId) (c : Ctx) : (s.setCtx id c).down = s.down := rfl
@[simp] theorem State.setCtx_dropped (s : State) (id : CtxId) (c : Ctx) : (s.setCtx id c).dropped = s.dropped := rfl
@[simp] theorem State.setCtx_edges (s : State) (id : CtxId) (c : Ctx) : (s.setCtx id c).edges = s.edges := rfl
@[simp] theorem State.setCtx_scan (s : State) (id : CtxId) (c : Ctx) : (s.setCtx id c).scan = s.scan := rfl
@[simp] theorem State.setCtx_told (s : State) (id : CtxId) (c : Ctx) : (s.setCtx id c).told = s.told := rfl
@[simp] theorem State.setCtx_scanned (s : State) (id : CtxId) (c : Ctx) : (s.setCtx id c).scanned = s.scanned := rfl
@[simp] theorem State.setCtx_corrected (s : State) (id : CtxId) (c : Ctx) : (s.setCtx id c).corrected = s.corrected := rfl
@[simp] theorem State.setCtx_out (s : State) (id : CtxId) (c : Ctx) : (s.setCtx id c).out = s.out := rfl

@[simp] theorem State.modCtx_cycle (s : State) (id : CtxId) (f : Ctx → Ctx) : (s.modCtx id f).cycle = s.cycle := rfl
@[simp] theorem State.modCtx_agenda (s : State) (id : CtxId) (f : Ctx → Ctx) : (s.modCtx id f).agenda = s.agenda := rfl
@[simp] theorem State.modCtx_cur (s : State) (id : CtxId) (f : Ctx → Ctx) : (s.modCtx id f).cur = s.cur := rfl
@[simp] theorem State.modCtx_issued (s : State) (id : CtxId) (f : Ctx → Ctx) : (s.modCtx id f).issued = s.issued := rfl
@[simp] theorem State.modCtx_trapped (s : State) (id : CtxId) (f : Ctx → Ctx) : (s.modCtx id f).trapped = s.trapped := rfl
@[simp] theorem State.modCtx_later (s : State) (id : CtxId) (f : Ctx → Ctx) : (s.modCtx id f).later = s.later := rfl
@[simp] theorem State.modCtx_fresh (s : State) (id : CtxId) (f : Ctx → Ctx) : (s.modCtx id f).fresh = s.fresh := rfl
@[simp] theorem State.modCtx_cores (s : State) (id : CtxId) (f : Ctx → Ctx) : (s.modCtx id f).cores = s.cores := rfl
@[simp] theorem State.modCtx_tiles (s : State) (id : CtxId) (f : Ctx → Ctx) : (s.modCtx id f).tiles = s.tiles := rfl
@[simp] theorem State.modCtx_tts (s : State) (id : CtxId) (f : Ctx → Ctx) : (s.modCtx id f).tts = s.tts := rfl
@[simp] theorem State.modCtx_launches (s : State) (id : CtxId) (f : Ctx → Ctx) : (s.modCtx id f).launches = s.launches := rfl
@[simp] theorem State.modCtx_homes (s : State) (id : CtxId) (f : Ctx → Ctx) : (s.modCtx id f).homes = s.homes := rfl
@[simp] theorem State.modCtx_net (s : State) (id : CtxId) (f : Ctx → Ctx) : (s.modCtx id f).net = s.net := rfl
@[simp] theorem State.modCtx_posted (s : State) (id : CtxId) (f : Ctx → Ctx) : (s.modCtx id f).posted = s.posted := rfl
@[simp] theorem State.modCtx_xfers (s : State) (id : CtxId) (f : Ctx → Ctx) : (s.modCtx id f).xfers = s.xfers := rfl
@[simp] theorem State.modCtx_hbm (s : State) (id : CtxId) (f : Ctx → Ctx) : (s.modCtx id f).hbm = s.hbm := rfl
@[simp] theorem State.modCtx_host (s : State) (id : CtxId) (f : Ctx → Ctx) : (s.modCtx id f).host = s.host := rfl
@[simp] theorem State.modCtx_tlbs (s : State) (id : CtxId) (f : Ctx → Ctx) : (s.modCtx id f).tlbs = s.tlbs := rfl
@[simp] theorem State.modCtx_parts (s : State) (id : CtxId) (f : Ctx → Ctx) : (s.modCtx id f).parts = s.parts := rfl
@[simp] theorem State.modCtx_ifaces (s : State) (id : CtxId) (f : Ctx → Ctx) : (s.modCtx id f).ifaces = s.ifaces := rfl
@[simp] theorem State.modCtx_bundles (s : State) (id : CtxId) (f : Ctx → Ctx) : (s.modCtx id f).bundles = s.bundles := rfl
@[simp] theorem State.modCtx_dead (s : State) (id : CtxId) (f : Ctx → Ctx) : (s.modCtx id f).dead = s.dead := rfl
@[simp] theorem State.modCtx_routes (s : State) (id : CtxId) (f : Ctx → Ctx) : (s.modCtx id f).routes = s.routes := rfl
@[simp] theorem State.modCtx_tags (s : State) (id : CtxId) (f : Ctx → Ctx) : (s.modCtx id f).tags = s.tags := rfl
@[simp] theorem State.modCtx_requests (s : State) (id : CtxId) (f : Ctx → Ctx) : (s.modCtx id f).requests = s.requests := rfl
@[simp] theorem State.modCtx_shrinking (s : State) (id : CtxId) (f : Ctx → Ctx) : (s.modCtx id f).shrinking = s.shrinking := rfl
@[simp] theorem State.modCtx_zones (s : State) (id : CtxId) (f : Ctx → Ctx) : (s.modCtx id f).zones = s.zones := rfl
@[simp] theorem State.modCtx_groups (s : State) (id : CtxId) (f : Ctx → Ctx) : (s.modCtx id f).groups = s.groups := rfl
@[simp] theorem State.modCtx_dies (s : State) (id : CtxId) (f : Ctx → Ctx) : (s.modCtx id f).dies = s.dies := rfl
@[simp] theorem State.modCtx_trained (s : State) (id : CtxId) (f : Ctx → Ctx) : (s.modCtx id f).trained = s.trained := rfl
@[simp] theorem State.modCtx_seams (s : State) (id : CtxId) (f : Ctx → Ctx) : (s.modCtx id f).seams = s.seams := rfl
@[simp] theorem State.modCtx_trainedAt (s : State) (id : CtxId) (f : Ctx → Ctx) : (s.modCtx id f).trainedAt = s.trainedAt := rfl
@[simp] theorem State.modCtx_islands (s : State) (id : CtxId) (f : Ctx → Ctx) : (s.modCtx id f).islands = s.islands := rfl
@[simp] theorem State.modCtx_boot (s : State) (id : CtxId) (f : Ctx → Ctx) : (s.modCtx id f).boot = s.boot := rfl
@[simp] theorem State.modCtx_measures (s : State) (id : CtxId) (f : Ctx → Ctx) : (s.modCtx id f).measures = s.measures := rfl
@[simp] theorem State.modCtx_hyper (s : State) (id : CtxId) (f : Ctx → Ctx) : (s.modCtx id f).hyper = s.hyper := rfl
@[simp] theorem State.modCtx_hyperEntry (s : State) (id : CtxId) (f : Ctx → Ctx) : (s.modCtx id f).hyperEntry = s.hyperEntry := rfl
@[simp] theorem State.modCtx_errors (s : State) (id : CtxId) (f : Ctx → Ctx) : (s.modCtx id f).errors = s.errors := rfl
@[simp] theorem State.modCtx_slots (s : State) (id : CtxId) (f : Ctx → Ctx) : (s.modCtx id f).slots = s.slots := rfl
@[simp] theorem State.modCtx_staged (s : State) (id : CtxId) (f : Ctx → Ctx) : (s.modCtx id f).staged = s.staged := rfl
@[simp] theorem State.modCtx_commitAt (s : State) (id : CtxId) (f : Ctx → Ctx) : (s.modCtx id f).commitAt = s.commitAt := rfl
@[simp] theorem State.modCtx_slotTime (s : State) (id : CtxId) (f : Ctx → Ctx) : (s.modCtx id f).slotTime = s.slotTime := rfl
@[simp] theorem State.modCtx_timeStep (s : State) (id : CtxId) (f : Ctx → Ctx) : (s.modCtx id f).timeStep = s.timeStep := rfl
@[simp] theorem State.modCtx_clock (s : State) (id : CtxId) (f : Ctx → Ctx) : (s.modCtx id f).clock = s.clock := rfl
@[simp] theorem State.modCtx_stamps (s : State) (id : CtxId) (f : Ctx → Ctx) : (s.modCtx id f).stamps = s.stamps := rfl
@[simp] theorem State.modCtx_down (s : State) (id : CtxId) (f : Ctx → Ctx) : (s.modCtx id f).down = s.down := rfl
@[simp] theorem State.modCtx_dropped (s : State) (id : CtxId) (f : Ctx → Ctx) : (s.modCtx id f).dropped = s.dropped := rfl
@[simp] theorem State.modCtx_edges (s : State) (id : CtxId) (f : Ctx → Ctx) : (s.modCtx id f).edges = s.edges := rfl
@[simp] theorem State.modCtx_scan (s : State) (id : CtxId) (f : Ctx → Ctx) : (s.modCtx id f).scan = s.scan := rfl
@[simp] theorem State.modCtx_told (s : State) (id : CtxId) (f : Ctx → Ctx) : (s.modCtx id f).told = s.told := rfl
@[simp] theorem State.modCtx_scanned (s : State) (id : CtxId) (f : Ctx → Ctx) : (s.modCtx id f).scanned = s.scanned := rfl
@[simp] theorem State.modCtx_corrected (s : State) (id : CtxId) (f : Ctx → Ctx) : (s.modCtx id f).corrected = s.corrected := rfl
@[simp] theorem State.modCtx_out (s : State) (id : CtxId) (f : Ctx → Ctx) : (s.modCtx id f).out = s.out := rfl

@[simp] theorem State.setCore_cycle (s : State) (id : CoreId) (k : Core) : (s.setCore id k).cycle = s.cycle := rfl
@[simp] theorem State.setCore_agenda (s : State) (id : CoreId) (k : Core) : (s.setCore id k).agenda = s.agenda := rfl
@[simp] theorem State.setCore_cur (s : State) (id : CoreId) (k : Core) : (s.setCore id k).cur = s.cur := rfl
@[simp] theorem State.setCore_issued (s : State) (id : CoreId) (k : Core) : (s.setCore id k).issued = s.issued := rfl
@[simp] theorem State.setCore_trapped (s : State) (id : CoreId) (k : Core) : (s.setCore id k).trapped = s.trapped := rfl
@[simp] theorem State.setCore_later (s : State) (id : CoreId) (k : Core) : (s.setCore id k).later = s.later := rfl
@[simp] theorem State.setCore_fresh (s : State) (id : CoreId) (k : Core) : (s.setCore id k).fresh = s.fresh := rfl
@[simp] theorem State.setCore_ctxs (s : State) (id : CoreId) (k : Core) : (s.setCore id k).ctxs = s.ctxs := rfl
@[simp] theorem State.setCore_tiles (s : State) (id : CoreId) (k : Core) : (s.setCore id k).tiles = s.tiles := rfl
@[simp] theorem State.setCore_tts (s : State) (id : CoreId) (k : Core) : (s.setCore id k).tts = s.tts := rfl
@[simp] theorem State.setCore_launches (s : State) (id : CoreId) (k : Core) : (s.setCore id k).launches = s.launches := rfl
@[simp] theorem State.setCore_homes (s : State) (id : CoreId) (k : Core) : (s.setCore id k).homes = s.homes := rfl
@[simp] theorem State.setCore_net (s : State) (id : CoreId) (k : Core) : (s.setCore id k).net = s.net := rfl
@[simp] theorem State.setCore_posted (s : State) (id : CoreId) (k : Core) : (s.setCore id k).posted = s.posted := rfl
@[simp] theorem State.setCore_xfers (s : State) (id : CoreId) (k : Core) : (s.setCore id k).xfers = s.xfers := rfl
@[simp] theorem State.setCore_hbm (s : State) (id : CoreId) (k : Core) : (s.setCore id k).hbm = s.hbm := rfl
@[simp] theorem State.setCore_host (s : State) (id : CoreId) (k : Core) : (s.setCore id k).host = s.host := rfl
@[simp] theorem State.setCore_tlbs (s : State) (id : CoreId) (k : Core) : (s.setCore id k).tlbs = s.tlbs := rfl
@[simp] theorem State.setCore_parts (s : State) (id : CoreId) (k : Core) : (s.setCore id k).parts = s.parts := rfl
@[simp] theorem State.setCore_ifaces (s : State) (id : CoreId) (k : Core) : (s.setCore id k).ifaces = s.ifaces := rfl
@[simp] theorem State.setCore_bundles (s : State) (id : CoreId) (k : Core) : (s.setCore id k).bundles = s.bundles := rfl
@[simp] theorem State.setCore_dead (s : State) (id : CoreId) (k : Core) : (s.setCore id k).dead = s.dead := rfl
@[simp] theorem State.setCore_routes (s : State) (id : CoreId) (k : Core) : (s.setCore id k).routes = s.routes := rfl
@[simp] theorem State.setCore_tags (s : State) (id : CoreId) (k : Core) : (s.setCore id k).tags = s.tags := rfl
@[simp] theorem State.setCore_requests (s : State) (id : CoreId) (k : Core) : (s.setCore id k).requests = s.requests := rfl
@[simp] theorem State.setCore_shrinking (s : State) (id : CoreId) (k : Core) : (s.setCore id k).shrinking = s.shrinking := rfl
@[simp] theorem State.setCore_zones (s : State) (id : CoreId) (k : Core) : (s.setCore id k).zones = s.zones := rfl
@[simp] theorem State.setCore_groups (s : State) (id : CoreId) (k : Core) : (s.setCore id k).groups = s.groups := rfl
@[simp] theorem State.setCore_dies (s : State) (id : CoreId) (k : Core) : (s.setCore id k).dies = s.dies := rfl
@[simp] theorem State.setCore_trained (s : State) (id : CoreId) (k : Core) : (s.setCore id k).trained = s.trained := rfl
@[simp] theorem State.setCore_seams (s : State) (id : CoreId) (k : Core) : (s.setCore id k).seams = s.seams := rfl
@[simp] theorem State.setCore_trainedAt (s : State) (id : CoreId) (k : Core) : (s.setCore id k).trainedAt = s.trainedAt := rfl
@[simp] theorem State.setCore_islands (s : State) (id : CoreId) (k : Core) : (s.setCore id k).islands = s.islands := rfl
@[simp] theorem State.setCore_boot (s : State) (id : CoreId) (k : Core) : (s.setCore id k).boot = s.boot := rfl
@[simp] theorem State.setCore_measures (s : State) (id : CoreId) (k : Core) : (s.setCore id k).measures = s.measures := rfl
@[simp] theorem State.setCore_hyper (s : State) (id : CoreId) (k : Core) : (s.setCore id k).hyper = s.hyper := rfl
@[simp] theorem State.setCore_hyperEntry (s : State) (id : CoreId) (k : Core) : (s.setCore id k).hyperEntry = s.hyperEntry := rfl
@[simp] theorem State.setCore_errors (s : State) (id : CoreId) (k : Core) : (s.setCore id k).errors = s.errors := rfl
@[simp] theorem State.setCore_slots (s : State) (id : CoreId) (k : Core) : (s.setCore id k).slots = s.slots := rfl
@[simp] theorem State.setCore_staged (s : State) (id : CoreId) (k : Core) : (s.setCore id k).staged = s.staged := rfl
@[simp] theorem State.setCore_commitAt (s : State) (id : CoreId) (k : Core) : (s.setCore id k).commitAt = s.commitAt := rfl
@[simp] theorem State.setCore_slotTime (s : State) (id : CoreId) (k : Core) : (s.setCore id k).slotTime = s.slotTime := rfl
@[simp] theorem State.setCore_timeStep (s : State) (id : CoreId) (k : Core) : (s.setCore id k).timeStep = s.timeStep := rfl
@[simp] theorem State.setCore_clock (s : State) (id : CoreId) (k : Core) : (s.setCore id k).clock = s.clock := rfl
@[simp] theorem State.setCore_stamps (s : State) (id : CoreId) (k : Core) : (s.setCore id k).stamps = s.stamps := rfl
@[simp] theorem State.setCore_down (s : State) (id : CoreId) (k : Core) : (s.setCore id k).down = s.down := rfl
@[simp] theorem State.setCore_dropped (s : State) (id : CoreId) (k : Core) : (s.setCore id k).dropped = s.dropped := rfl
@[simp] theorem State.setCore_edges (s : State) (id : CoreId) (k : Core) : (s.setCore id k).edges = s.edges := rfl
@[simp] theorem State.setCore_scan (s : State) (id : CoreId) (k : Core) : (s.setCore id k).scan = s.scan := rfl
@[simp] theorem State.setCore_told (s : State) (id : CoreId) (k : Core) : (s.setCore id k).told = s.told := rfl
@[simp] theorem State.setCore_scanned (s : State) (id : CoreId) (k : Core) : (s.setCore id k).scanned = s.scanned := rfl
@[simp] theorem State.setCore_corrected (s : State) (id : CoreId) (k : Core) : (s.setCore id k).corrected = s.corrected := rfl
@[simp] theorem State.setCore_out (s : State) (id : CoreId) (k : Core) : (s.setCore id k).out = s.out := rfl

@[simp] theorem State.modCore_cycle (s : State) (id : CoreId) (f : Core → Core) : (s.modCore id f).cycle = s.cycle := rfl
@[simp] theorem State.modCore_agenda (s : State) (id : CoreId) (f : Core → Core) : (s.modCore id f).agenda = s.agenda := rfl
@[simp] theorem State.modCore_cur (s : State) (id : CoreId) (f : Core → Core) : (s.modCore id f).cur = s.cur := rfl
@[simp] theorem State.modCore_issued (s : State) (id : CoreId) (f : Core → Core) : (s.modCore id f).issued = s.issued := rfl
@[simp] theorem State.modCore_trapped (s : State) (id : CoreId) (f : Core → Core) : (s.modCore id f).trapped = s.trapped := rfl
@[simp] theorem State.modCore_later (s : State) (id : CoreId) (f : Core → Core) : (s.modCore id f).later = s.later := rfl
@[simp] theorem State.modCore_fresh (s : State) (id : CoreId) (f : Core → Core) : (s.modCore id f).fresh = s.fresh := rfl
@[simp] theorem State.modCore_ctxs (s : State) (id : CoreId) (f : Core → Core) : (s.modCore id f).ctxs = s.ctxs := rfl
@[simp] theorem State.modCore_tiles (s : State) (id : CoreId) (f : Core → Core) : (s.modCore id f).tiles = s.tiles := rfl
@[simp] theorem State.modCore_tts (s : State) (id : CoreId) (f : Core → Core) : (s.modCore id f).tts = s.tts := rfl
@[simp] theorem State.modCore_launches (s : State) (id : CoreId) (f : Core → Core) : (s.modCore id f).launches = s.launches := rfl
@[simp] theorem State.modCore_homes (s : State) (id : CoreId) (f : Core → Core) : (s.modCore id f).homes = s.homes := rfl
@[simp] theorem State.modCore_net (s : State) (id : CoreId) (f : Core → Core) : (s.modCore id f).net = s.net := rfl
@[simp] theorem State.modCore_posted (s : State) (id : CoreId) (f : Core → Core) : (s.modCore id f).posted = s.posted := rfl
@[simp] theorem State.modCore_xfers (s : State) (id : CoreId) (f : Core → Core) : (s.modCore id f).xfers = s.xfers := rfl
@[simp] theorem State.modCore_hbm (s : State) (id : CoreId) (f : Core → Core) : (s.modCore id f).hbm = s.hbm := rfl
@[simp] theorem State.modCore_host (s : State) (id : CoreId) (f : Core → Core) : (s.modCore id f).host = s.host := rfl
@[simp] theorem State.modCore_tlbs (s : State) (id : CoreId) (f : Core → Core) : (s.modCore id f).tlbs = s.tlbs := rfl
@[simp] theorem State.modCore_parts (s : State) (id : CoreId) (f : Core → Core) : (s.modCore id f).parts = s.parts := rfl
@[simp] theorem State.modCore_ifaces (s : State) (id : CoreId) (f : Core → Core) : (s.modCore id f).ifaces = s.ifaces := rfl
@[simp] theorem State.modCore_bundles (s : State) (id : CoreId) (f : Core → Core) : (s.modCore id f).bundles = s.bundles := rfl
@[simp] theorem State.modCore_dead (s : State) (id : CoreId) (f : Core → Core) : (s.modCore id f).dead = s.dead := rfl
@[simp] theorem State.modCore_routes (s : State) (id : CoreId) (f : Core → Core) : (s.modCore id f).routes = s.routes := rfl
@[simp] theorem State.modCore_tags (s : State) (id : CoreId) (f : Core → Core) : (s.modCore id f).tags = s.tags := rfl
@[simp] theorem State.modCore_requests (s : State) (id : CoreId) (f : Core → Core) : (s.modCore id f).requests = s.requests := rfl
@[simp] theorem State.modCore_shrinking (s : State) (id : CoreId) (f : Core → Core) : (s.modCore id f).shrinking = s.shrinking := rfl
@[simp] theorem State.modCore_zones (s : State) (id : CoreId) (f : Core → Core) : (s.modCore id f).zones = s.zones := rfl
@[simp] theorem State.modCore_groups (s : State) (id : CoreId) (f : Core → Core) : (s.modCore id f).groups = s.groups := rfl
@[simp] theorem State.modCore_dies (s : State) (id : CoreId) (f : Core → Core) : (s.modCore id f).dies = s.dies := rfl
@[simp] theorem State.modCore_trained (s : State) (id : CoreId) (f : Core → Core) : (s.modCore id f).trained = s.trained := rfl
@[simp] theorem State.modCore_seams (s : State) (id : CoreId) (f : Core → Core) : (s.modCore id f).seams = s.seams := rfl
@[simp] theorem State.modCore_trainedAt (s : State) (id : CoreId) (f : Core → Core) : (s.modCore id f).trainedAt = s.trainedAt := rfl
@[simp] theorem State.modCore_islands (s : State) (id : CoreId) (f : Core → Core) : (s.modCore id f).islands = s.islands := rfl
@[simp] theorem State.modCore_boot (s : State) (id : CoreId) (f : Core → Core) : (s.modCore id f).boot = s.boot := rfl
@[simp] theorem State.modCore_measures (s : State) (id : CoreId) (f : Core → Core) : (s.modCore id f).measures = s.measures := rfl
@[simp] theorem State.modCore_hyper (s : State) (id : CoreId) (f : Core → Core) : (s.modCore id f).hyper = s.hyper := rfl
@[simp] theorem State.modCore_hyperEntry (s : State) (id : CoreId) (f : Core → Core) : (s.modCore id f).hyperEntry = s.hyperEntry := rfl
@[simp] theorem State.modCore_errors (s : State) (id : CoreId) (f : Core → Core) : (s.modCore id f).errors = s.errors := rfl
@[simp] theorem State.modCore_slots (s : State) (id : CoreId) (f : Core → Core) : (s.modCore id f).slots = s.slots := rfl
@[simp] theorem State.modCore_staged (s : State) (id : CoreId) (f : Core → Core) : (s.modCore id f).staged = s.staged := rfl
@[simp] theorem State.modCore_commitAt (s : State) (id : CoreId) (f : Core → Core) : (s.modCore id f).commitAt = s.commitAt := rfl
@[simp] theorem State.modCore_slotTime (s : State) (id : CoreId) (f : Core → Core) : (s.modCore id f).slotTime = s.slotTime := rfl
@[simp] theorem State.modCore_timeStep (s : State) (id : CoreId) (f : Core → Core) : (s.modCore id f).timeStep = s.timeStep := rfl
@[simp] theorem State.modCore_clock (s : State) (id : CoreId) (f : Core → Core) : (s.modCore id f).clock = s.clock := rfl
@[simp] theorem State.modCore_stamps (s : State) (id : CoreId) (f : Core → Core) : (s.modCore id f).stamps = s.stamps := rfl
@[simp] theorem State.modCore_down (s : State) (id : CoreId) (f : Core → Core) : (s.modCore id f).down = s.down := rfl
@[simp] theorem State.modCore_dropped (s : State) (id : CoreId) (f : Core → Core) : (s.modCore id f).dropped = s.dropped := rfl
@[simp] theorem State.modCore_edges (s : State) (id : CoreId) (f : Core → Core) : (s.modCore id f).edges = s.edges := rfl
@[simp] theorem State.modCore_scan (s : State) (id : CoreId) (f : Core → Core) : (s.modCore id f).scan = s.scan := rfl
@[simp] theorem State.modCore_told (s : State) (id : CoreId) (f : Core → Core) : (s.modCore id f).told = s.told := rfl
@[simp] theorem State.modCore_scanned (s : State) (id : CoreId) (f : Core → Core) : (s.modCore id f).scanned = s.scanned := rfl
@[simp] theorem State.modCore_corrected (s : State) (id : CoreId) (f : Core → Core) : (s.modCore id f).corrected = s.corrected := rfl
@[simp] theorem State.modCore_out (s : State) (id : CoreId) (f : Core → Core) : (s.modCore id f).out = s.out := rfl

@[simp] theorem State.setTile_cycle (s : State) (id : TileId) (t : Tile) : (s.setTile id t).cycle = s.cycle := rfl
@[simp] theorem State.setTile_agenda (s : State) (id : TileId) (t : Tile) : (s.setTile id t).agenda = s.agenda := rfl
@[simp] theorem State.setTile_cur (s : State) (id : TileId) (t : Tile) : (s.setTile id t).cur = s.cur := rfl
@[simp] theorem State.setTile_issued (s : State) (id : TileId) (t : Tile) : (s.setTile id t).issued = s.issued := rfl
@[simp] theorem State.setTile_trapped (s : State) (id : TileId) (t : Tile) : (s.setTile id t).trapped = s.trapped := rfl
@[simp] theorem State.setTile_later (s : State) (id : TileId) (t : Tile) : (s.setTile id t).later = s.later := rfl
@[simp] theorem State.setTile_fresh (s : State) (id : TileId) (t : Tile) : (s.setTile id t).fresh = s.fresh := rfl
@[simp] theorem State.setTile_ctxs (s : State) (id : TileId) (t : Tile) : (s.setTile id t).ctxs = s.ctxs := rfl
@[simp] theorem State.setTile_cores (s : State) (id : TileId) (t : Tile) : (s.setTile id t).cores = s.cores := rfl
@[simp] theorem State.setTile_tts (s : State) (id : TileId) (t : Tile) : (s.setTile id t).tts = s.tts := rfl
@[simp] theorem State.setTile_launches (s : State) (id : TileId) (t : Tile) : (s.setTile id t).launches = s.launches := rfl
@[simp] theorem State.setTile_homes (s : State) (id : TileId) (t : Tile) : (s.setTile id t).homes = s.homes := rfl
@[simp] theorem State.setTile_net (s : State) (id : TileId) (t : Tile) : (s.setTile id t).net = s.net := rfl
@[simp] theorem State.setTile_posted (s : State) (id : TileId) (t : Tile) : (s.setTile id t).posted = s.posted := rfl
@[simp] theorem State.setTile_xfers (s : State) (id : TileId) (t : Tile) : (s.setTile id t).xfers = s.xfers := rfl
@[simp] theorem State.setTile_hbm (s : State) (id : TileId) (t : Tile) : (s.setTile id t).hbm = s.hbm := rfl
@[simp] theorem State.setTile_host (s : State) (id : TileId) (t : Tile) : (s.setTile id t).host = s.host := rfl
@[simp] theorem State.setTile_tlbs (s : State) (id : TileId) (t : Tile) : (s.setTile id t).tlbs = s.tlbs := rfl
@[simp] theorem State.setTile_parts (s : State) (id : TileId) (t : Tile) : (s.setTile id t).parts = s.parts := rfl
@[simp] theorem State.setTile_ifaces (s : State) (id : TileId) (t : Tile) : (s.setTile id t).ifaces = s.ifaces := rfl
@[simp] theorem State.setTile_bundles (s : State) (id : TileId) (t : Tile) : (s.setTile id t).bundles = s.bundles := rfl
@[simp] theorem State.setTile_dead (s : State) (id : TileId) (t : Tile) : (s.setTile id t).dead = s.dead := rfl
@[simp] theorem State.setTile_routes (s : State) (id : TileId) (t : Tile) : (s.setTile id t).routes = s.routes := rfl
@[simp] theorem State.setTile_tags (s : State) (id : TileId) (t : Tile) : (s.setTile id t).tags = s.tags := rfl
@[simp] theorem State.setTile_requests (s : State) (id : TileId) (t : Tile) : (s.setTile id t).requests = s.requests := rfl
@[simp] theorem State.setTile_shrinking (s : State) (id : TileId) (t : Tile) : (s.setTile id t).shrinking = s.shrinking := rfl
@[simp] theorem State.setTile_zones (s : State) (id : TileId) (t : Tile) : (s.setTile id t).zones = s.zones := rfl
@[simp] theorem State.setTile_groups (s : State) (id : TileId) (t : Tile) : (s.setTile id t).groups = s.groups := rfl
@[simp] theorem State.setTile_dies (s : State) (id : TileId) (t : Tile) : (s.setTile id t).dies = s.dies := rfl
@[simp] theorem State.setTile_trained (s : State) (id : TileId) (t : Tile) : (s.setTile id t).trained = s.trained := rfl
@[simp] theorem State.setTile_seams (s : State) (id : TileId) (t : Tile) : (s.setTile id t).seams = s.seams := rfl
@[simp] theorem State.setTile_trainedAt (s : State) (id : TileId) (t : Tile) : (s.setTile id t).trainedAt = s.trainedAt := rfl
@[simp] theorem State.setTile_islands (s : State) (id : TileId) (t : Tile) : (s.setTile id t).islands = s.islands := rfl
@[simp] theorem State.setTile_boot (s : State) (id : TileId) (t : Tile) : (s.setTile id t).boot = s.boot := rfl
@[simp] theorem State.setTile_measures (s : State) (id : TileId) (t : Tile) : (s.setTile id t).measures = s.measures := rfl
@[simp] theorem State.setTile_hyper (s : State) (id : TileId) (t : Tile) : (s.setTile id t).hyper = s.hyper := rfl
@[simp] theorem State.setTile_hyperEntry (s : State) (id : TileId) (t : Tile) : (s.setTile id t).hyperEntry = s.hyperEntry := rfl
@[simp] theorem State.setTile_errors (s : State) (id : TileId) (t : Tile) : (s.setTile id t).errors = s.errors := rfl
@[simp] theorem State.setTile_slots (s : State) (id : TileId) (t : Tile) : (s.setTile id t).slots = s.slots := rfl
@[simp] theorem State.setTile_staged (s : State) (id : TileId) (t : Tile) : (s.setTile id t).staged = s.staged := rfl
@[simp] theorem State.setTile_commitAt (s : State) (id : TileId) (t : Tile) : (s.setTile id t).commitAt = s.commitAt := rfl
@[simp] theorem State.setTile_slotTime (s : State) (id : TileId) (t : Tile) : (s.setTile id t).slotTime = s.slotTime := rfl
@[simp] theorem State.setTile_timeStep (s : State) (id : TileId) (t : Tile) : (s.setTile id t).timeStep = s.timeStep := rfl
@[simp] theorem State.setTile_clock (s : State) (id : TileId) (t : Tile) : (s.setTile id t).clock = s.clock := rfl
@[simp] theorem State.setTile_stamps (s : State) (id : TileId) (t : Tile) : (s.setTile id t).stamps = s.stamps := rfl
@[simp] theorem State.setTile_down (s : State) (id : TileId) (t : Tile) : (s.setTile id t).down = s.down := rfl
@[simp] theorem State.setTile_dropped (s : State) (id : TileId) (t : Tile) : (s.setTile id t).dropped = s.dropped := rfl
@[simp] theorem State.setTile_edges (s : State) (id : TileId) (t : Tile) : (s.setTile id t).edges = s.edges := rfl
@[simp] theorem State.setTile_scan (s : State) (id : TileId) (t : Tile) : (s.setTile id t).scan = s.scan := rfl
@[simp] theorem State.setTile_told (s : State) (id : TileId) (t : Tile) : (s.setTile id t).told = s.told := rfl
@[simp] theorem State.setTile_scanned (s : State) (id : TileId) (t : Tile) : (s.setTile id t).scanned = s.scanned := rfl
@[simp] theorem State.setTile_corrected (s : State) (id : TileId) (t : Tile) : (s.setTile id t).corrected = s.corrected := rfl
@[simp] theorem State.setTile_out (s : State) (id : TileId) (t : Tile) : (s.setTile id t).out = s.out := rfl

@[simp] theorem State.modTile_cycle (s : State) (id : TileId) (f : Tile → Tile) : (s.modTile id f).cycle = s.cycle := rfl
@[simp] theorem State.modTile_agenda (s : State) (id : TileId) (f : Tile → Tile) : (s.modTile id f).agenda = s.agenda := rfl
@[simp] theorem State.modTile_cur (s : State) (id : TileId) (f : Tile → Tile) : (s.modTile id f).cur = s.cur := rfl
@[simp] theorem State.modTile_issued (s : State) (id : TileId) (f : Tile → Tile) : (s.modTile id f).issued = s.issued := rfl
@[simp] theorem State.modTile_trapped (s : State) (id : TileId) (f : Tile → Tile) : (s.modTile id f).trapped = s.trapped := rfl
@[simp] theorem State.modTile_later (s : State) (id : TileId) (f : Tile → Tile) : (s.modTile id f).later = s.later := rfl
@[simp] theorem State.modTile_fresh (s : State) (id : TileId) (f : Tile → Tile) : (s.modTile id f).fresh = s.fresh := rfl
@[simp] theorem State.modTile_ctxs (s : State) (id : TileId) (f : Tile → Tile) : (s.modTile id f).ctxs = s.ctxs := rfl
@[simp] theorem State.modTile_cores (s : State) (id : TileId) (f : Tile → Tile) : (s.modTile id f).cores = s.cores := rfl
@[simp] theorem State.modTile_tts (s : State) (id : TileId) (f : Tile → Tile) : (s.modTile id f).tts = s.tts := rfl
@[simp] theorem State.modTile_launches (s : State) (id : TileId) (f : Tile → Tile) : (s.modTile id f).launches = s.launches := rfl
@[simp] theorem State.modTile_homes (s : State) (id : TileId) (f : Tile → Tile) : (s.modTile id f).homes = s.homes := rfl
@[simp] theorem State.modTile_net (s : State) (id : TileId) (f : Tile → Tile) : (s.modTile id f).net = s.net := rfl
@[simp] theorem State.modTile_posted (s : State) (id : TileId) (f : Tile → Tile) : (s.modTile id f).posted = s.posted := rfl
@[simp] theorem State.modTile_xfers (s : State) (id : TileId) (f : Tile → Tile) : (s.modTile id f).xfers = s.xfers := rfl
@[simp] theorem State.modTile_hbm (s : State) (id : TileId) (f : Tile → Tile) : (s.modTile id f).hbm = s.hbm := rfl
@[simp] theorem State.modTile_host (s : State) (id : TileId) (f : Tile → Tile) : (s.modTile id f).host = s.host := rfl
@[simp] theorem State.modTile_tlbs (s : State) (id : TileId) (f : Tile → Tile) : (s.modTile id f).tlbs = s.tlbs := rfl
@[simp] theorem State.modTile_parts (s : State) (id : TileId) (f : Tile → Tile) : (s.modTile id f).parts = s.parts := rfl
@[simp] theorem State.modTile_ifaces (s : State) (id : TileId) (f : Tile → Tile) : (s.modTile id f).ifaces = s.ifaces := rfl
@[simp] theorem State.modTile_bundles (s : State) (id : TileId) (f : Tile → Tile) : (s.modTile id f).bundles = s.bundles := rfl
@[simp] theorem State.modTile_dead (s : State) (id : TileId) (f : Tile → Tile) : (s.modTile id f).dead = s.dead := rfl
@[simp] theorem State.modTile_routes (s : State) (id : TileId) (f : Tile → Tile) : (s.modTile id f).routes = s.routes := rfl
@[simp] theorem State.modTile_tags (s : State) (id : TileId) (f : Tile → Tile) : (s.modTile id f).tags = s.tags := rfl
@[simp] theorem State.modTile_requests (s : State) (id : TileId) (f : Tile → Tile) : (s.modTile id f).requests = s.requests := rfl
@[simp] theorem State.modTile_shrinking (s : State) (id : TileId) (f : Tile → Tile) : (s.modTile id f).shrinking = s.shrinking := rfl
@[simp] theorem State.modTile_zones (s : State) (id : TileId) (f : Tile → Tile) : (s.modTile id f).zones = s.zones := rfl
@[simp] theorem State.modTile_groups (s : State) (id : TileId) (f : Tile → Tile) : (s.modTile id f).groups = s.groups := rfl
@[simp] theorem State.modTile_dies (s : State) (id : TileId) (f : Tile → Tile) : (s.modTile id f).dies = s.dies := rfl
@[simp] theorem State.modTile_trained (s : State) (id : TileId) (f : Tile → Tile) : (s.modTile id f).trained = s.trained := rfl
@[simp] theorem State.modTile_seams (s : State) (id : TileId) (f : Tile → Tile) : (s.modTile id f).seams = s.seams := rfl
@[simp] theorem State.modTile_trainedAt (s : State) (id : TileId) (f : Tile → Tile) : (s.modTile id f).trainedAt = s.trainedAt := rfl
@[simp] theorem State.modTile_islands (s : State) (id : TileId) (f : Tile → Tile) : (s.modTile id f).islands = s.islands := rfl
@[simp] theorem State.modTile_boot (s : State) (id : TileId) (f : Tile → Tile) : (s.modTile id f).boot = s.boot := rfl
@[simp] theorem State.modTile_measures (s : State) (id : TileId) (f : Tile → Tile) : (s.modTile id f).measures = s.measures := rfl
@[simp] theorem State.modTile_hyper (s : State) (id : TileId) (f : Tile → Tile) : (s.modTile id f).hyper = s.hyper := rfl
@[simp] theorem State.modTile_hyperEntry (s : State) (id : TileId) (f : Tile → Tile) : (s.modTile id f).hyperEntry = s.hyperEntry := rfl
@[simp] theorem State.modTile_errors (s : State) (id : TileId) (f : Tile → Tile) : (s.modTile id f).errors = s.errors := rfl
@[simp] theorem State.modTile_slots (s : State) (id : TileId) (f : Tile → Tile) : (s.modTile id f).slots = s.slots := rfl
@[simp] theorem State.modTile_staged (s : State) (id : TileId) (f : Tile → Tile) : (s.modTile id f).staged = s.staged := rfl
@[simp] theorem State.modTile_commitAt (s : State) (id : TileId) (f : Tile → Tile) : (s.modTile id f).commitAt = s.commitAt := rfl
@[simp] theorem State.modTile_slotTime (s : State) (id : TileId) (f : Tile → Tile) : (s.modTile id f).slotTime = s.slotTime := rfl
@[simp] theorem State.modTile_timeStep (s : State) (id : TileId) (f : Tile → Tile) : (s.modTile id f).timeStep = s.timeStep := rfl
@[simp] theorem State.modTile_clock (s : State) (id : TileId) (f : Tile → Tile) : (s.modTile id f).clock = s.clock := rfl
@[simp] theorem State.modTile_stamps (s : State) (id : TileId) (f : Tile → Tile) : (s.modTile id f).stamps = s.stamps := rfl
@[simp] theorem State.modTile_down (s : State) (id : TileId) (f : Tile → Tile) : (s.modTile id f).down = s.down := rfl
@[simp] theorem State.modTile_dropped (s : State) (id : TileId) (f : Tile → Tile) : (s.modTile id f).dropped = s.dropped := rfl
@[simp] theorem State.modTile_edges (s : State) (id : TileId) (f : Tile → Tile) : (s.modTile id f).edges = s.edges := rfl
@[simp] theorem State.modTile_scan (s : State) (id : TileId) (f : Tile → Tile) : (s.modTile id f).scan = s.scan := rfl
@[simp] theorem State.modTile_told (s : State) (id : TileId) (f : Tile → Tile) : (s.modTile id f).told = s.told := rfl
@[simp] theorem State.modTile_scanned (s : State) (id : TileId) (f : Tile → Tile) : (s.modTile id f).scanned = s.scanned := rfl
@[simp] theorem State.modTile_corrected (s : State) (id : TileId) (f : Tile → Tile) : (s.modTile id f).corrected = s.corrected := rfl
@[simp] theorem State.modTile_out (s : State) (id : TileId) (f : Tile → Tile) : (s.modTile id f).out = s.out := rfl

@[simp] theorem State.modHome_cycle (s : State) (h : Home) (f : HomeSt → HomeSt) : (s.modHome h f).cycle = s.cycle := rfl
@[simp] theorem State.modHome_agenda (s : State) (h : Home) (f : HomeSt → HomeSt) : (s.modHome h f).agenda = s.agenda := rfl
@[simp] theorem State.modHome_cur (s : State) (h : Home) (f : HomeSt → HomeSt) : (s.modHome h f).cur = s.cur := rfl
@[simp] theorem State.modHome_issued (s : State) (h : Home) (f : HomeSt → HomeSt) : (s.modHome h f).issued = s.issued := rfl
@[simp] theorem State.modHome_trapped (s : State) (h : Home) (f : HomeSt → HomeSt) : (s.modHome h f).trapped = s.trapped := rfl
@[simp] theorem State.modHome_later (s : State) (h : Home) (f : HomeSt → HomeSt) : (s.modHome h f).later = s.later := rfl
@[simp] theorem State.modHome_fresh (s : State) (h : Home) (f : HomeSt → HomeSt) : (s.modHome h f).fresh = s.fresh := rfl
@[simp] theorem State.modHome_ctxs (s : State) (h : Home) (f : HomeSt → HomeSt) : (s.modHome h f).ctxs = s.ctxs := rfl
@[simp] theorem State.modHome_cores (s : State) (h : Home) (f : HomeSt → HomeSt) : (s.modHome h f).cores = s.cores := rfl
@[simp] theorem State.modHome_tiles (s : State) (h : Home) (f : HomeSt → HomeSt) : (s.modHome h f).tiles = s.tiles := rfl
@[simp] theorem State.modHome_tts (s : State) (h : Home) (f : HomeSt → HomeSt) : (s.modHome h f).tts = s.tts := rfl
@[simp] theorem State.modHome_launches (s : State) (h : Home) (f : HomeSt → HomeSt) : (s.modHome h f).launches = s.launches := rfl
@[simp] theorem State.modHome_net (s : State) (h : Home) (f : HomeSt → HomeSt) : (s.modHome h f).net = s.net := rfl
@[simp] theorem State.modHome_posted (s : State) (h : Home) (f : HomeSt → HomeSt) : (s.modHome h f).posted = s.posted := rfl
@[simp] theorem State.modHome_xfers (s : State) (h : Home) (f : HomeSt → HomeSt) : (s.modHome h f).xfers = s.xfers := rfl
@[simp] theorem State.modHome_hbm (s : State) (h : Home) (f : HomeSt → HomeSt) : (s.modHome h f).hbm = s.hbm := rfl
@[simp] theorem State.modHome_host (s : State) (h : Home) (f : HomeSt → HomeSt) : (s.modHome h f).host = s.host := rfl
@[simp] theorem State.modHome_tlbs (s : State) (h : Home) (f : HomeSt → HomeSt) : (s.modHome h f).tlbs = s.tlbs := rfl
@[simp] theorem State.modHome_parts (s : State) (h : Home) (f : HomeSt → HomeSt) : (s.modHome h f).parts = s.parts := rfl
@[simp] theorem State.modHome_ifaces (s : State) (h : Home) (f : HomeSt → HomeSt) : (s.modHome h f).ifaces = s.ifaces := rfl
@[simp] theorem State.modHome_bundles (s : State) (h : Home) (f : HomeSt → HomeSt) : (s.modHome h f).bundles = s.bundles := rfl
@[simp] theorem State.modHome_dead (s : State) (h : Home) (f : HomeSt → HomeSt) : (s.modHome h f).dead = s.dead := rfl
@[simp] theorem State.modHome_routes (s : State) (h : Home) (f : HomeSt → HomeSt) : (s.modHome h f).routes = s.routes := rfl
@[simp] theorem State.modHome_tags (s : State) (h : Home) (f : HomeSt → HomeSt) : (s.modHome h f).tags = s.tags := rfl
@[simp] theorem State.modHome_requests (s : State) (h : Home) (f : HomeSt → HomeSt) : (s.modHome h f).requests = s.requests := rfl
@[simp] theorem State.modHome_shrinking (s : State) (h : Home) (f : HomeSt → HomeSt) : (s.modHome h f).shrinking = s.shrinking := rfl
@[simp] theorem State.modHome_zones (s : State) (h : Home) (f : HomeSt → HomeSt) : (s.modHome h f).zones = s.zones := rfl
@[simp] theorem State.modHome_groups (s : State) (h : Home) (f : HomeSt → HomeSt) : (s.modHome h f).groups = s.groups := rfl
@[simp] theorem State.modHome_dies (s : State) (h : Home) (f : HomeSt → HomeSt) : (s.modHome h f).dies = s.dies := rfl
@[simp] theorem State.modHome_trained (s : State) (h : Home) (f : HomeSt → HomeSt) : (s.modHome h f).trained = s.trained := rfl
@[simp] theorem State.modHome_seams (s : State) (h : Home) (f : HomeSt → HomeSt) : (s.modHome h f).seams = s.seams := rfl
@[simp] theorem State.modHome_trainedAt (s : State) (h : Home) (f : HomeSt → HomeSt) : (s.modHome h f).trainedAt = s.trainedAt := rfl
@[simp] theorem State.modHome_islands (s : State) (h : Home) (f : HomeSt → HomeSt) : (s.modHome h f).islands = s.islands := rfl
@[simp] theorem State.modHome_boot (s : State) (h : Home) (f : HomeSt → HomeSt) : (s.modHome h f).boot = s.boot := rfl
@[simp] theorem State.modHome_measures (s : State) (h : Home) (f : HomeSt → HomeSt) : (s.modHome h f).measures = s.measures := rfl
@[simp] theorem State.modHome_hyper (s : State) (h : Home) (f : HomeSt → HomeSt) : (s.modHome h f).hyper = s.hyper := rfl
@[simp] theorem State.modHome_hyperEntry (s : State) (h : Home) (f : HomeSt → HomeSt) : (s.modHome h f).hyperEntry = s.hyperEntry := rfl
@[simp] theorem State.modHome_errors (s : State) (h : Home) (f : HomeSt → HomeSt) : (s.modHome h f).errors = s.errors := rfl
@[simp] theorem State.modHome_slots (s : State) (h : Home) (f : HomeSt → HomeSt) : (s.modHome h f).slots = s.slots := rfl
@[simp] theorem State.modHome_staged (s : State) (h : Home) (f : HomeSt → HomeSt) : (s.modHome h f).staged = s.staged := rfl
@[simp] theorem State.modHome_commitAt (s : State) (h : Home) (f : HomeSt → HomeSt) : (s.modHome h f).commitAt = s.commitAt := rfl
@[simp] theorem State.modHome_slotTime (s : State) (h : Home) (f : HomeSt → HomeSt) : (s.modHome h f).slotTime = s.slotTime := rfl
@[simp] theorem State.modHome_timeStep (s : State) (h : Home) (f : HomeSt → HomeSt) : (s.modHome h f).timeStep = s.timeStep := rfl
@[simp] theorem State.modHome_clock (s : State) (h : Home) (f : HomeSt → HomeSt) : (s.modHome h f).clock = s.clock := rfl
@[simp] theorem State.modHome_stamps (s : State) (h : Home) (f : HomeSt → HomeSt) : (s.modHome h f).stamps = s.stamps := rfl
@[simp] theorem State.modHome_down (s : State) (h : Home) (f : HomeSt → HomeSt) : (s.modHome h f).down = s.down := rfl
@[simp] theorem State.modHome_dropped (s : State) (h : Home) (f : HomeSt → HomeSt) : (s.modHome h f).dropped = s.dropped := rfl
@[simp] theorem State.modHome_edges (s : State) (h : Home) (f : HomeSt → HomeSt) : (s.modHome h f).edges = s.edges := rfl
@[simp] theorem State.modHome_scan (s : State) (h : Home) (f : HomeSt → HomeSt) : (s.modHome h f).scan = s.scan := rfl
@[simp] theorem State.modHome_told (s : State) (h : Home) (f : HomeSt → HomeSt) : (s.modHome h f).told = s.told := rfl
@[simp] theorem State.modHome_scanned (s : State) (h : Home) (f : HomeSt → HomeSt) : (s.modHome h f).scanned = s.scanned := rfl
@[simp] theorem State.modHome_corrected (s : State) (h : Home) (f : HomeSt → HomeSt) : (s.modHome h f).corrected = s.corrected := rfl
@[simp] theorem State.modHome_out (s : State) (h : Home) (f : HomeSt → HomeSt) : (s.modHome h f).out = s.out := rfl

@[simp] theorem State.modIface_cycle (s : State) (n : Nat) (f : Iface → Iface) : (s.modIface n f).cycle = s.cycle := rfl
@[simp] theorem State.modIface_agenda (s : State) (n : Nat) (f : Iface → Iface) : (s.modIface n f).agenda = s.agenda := rfl
@[simp] theorem State.modIface_cur (s : State) (n : Nat) (f : Iface → Iface) : (s.modIface n f).cur = s.cur := rfl
@[simp] theorem State.modIface_issued (s : State) (n : Nat) (f : Iface → Iface) : (s.modIface n f).issued = s.issued := rfl
@[simp] theorem State.modIface_trapped (s : State) (n : Nat) (f : Iface → Iface) : (s.modIface n f).trapped = s.trapped := rfl
@[simp] theorem State.modIface_later (s : State) (n : Nat) (f : Iface → Iface) : (s.modIface n f).later = s.later := rfl
@[simp] theorem State.modIface_fresh (s : State) (n : Nat) (f : Iface → Iface) : (s.modIface n f).fresh = s.fresh := rfl
@[simp] theorem State.modIface_ctxs (s : State) (n : Nat) (f : Iface → Iface) : (s.modIface n f).ctxs = s.ctxs := rfl
@[simp] theorem State.modIface_cores (s : State) (n : Nat) (f : Iface → Iface) : (s.modIface n f).cores = s.cores := rfl
@[simp] theorem State.modIface_tiles (s : State) (n : Nat) (f : Iface → Iface) : (s.modIface n f).tiles = s.tiles := rfl
@[simp] theorem State.modIface_tts (s : State) (n : Nat) (f : Iface → Iface) : (s.modIface n f).tts = s.tts := rfl
@[simp] theorem State.modIface_launches (s : State) (n : Nat) (f : Iface → Iface) : (s.modIface n f).launches = s.launches := rfl
@[simp] theorem State.modIface_homes (s : State) (n : Nat) (f : Iface → Iface) : (s.modIface n f).homes = s.homes := rfl
@[simp] theorem State.modIface_net (s : State) (n : Nat) (f : Iface → Iface) : (s.modIface n f).net = s.net := rfl
@[simp] theorem State.modIface_posted (s : State) (n : Nat) (f : Iface → Iface) : (s.modIface n f).posted = s.posted := rfl
@[simp] theorem State.modIface_xfers (s : State) (n : Nat) (f : Iface → Iface) : (s.modIface n f).xfers = s.xfers := rfl
@[simp] theorem State.modIface_hbm (s : State) (n : Nat) (f : Iface → Iface) : (s.modIface n f).hbm = s.hbm := rfl
@[simp] theorem State.modIface_host (s : State) (n : Nat) (f : Iface → Iface) : (s.modIface n f).host = s.host := rfl
@[simp] theorem State.modIface_tlbs (s : State) (n : Nat) (f : Iface → Iface) : (s.modIface n f).tlbs = s.tlbs := rfl
@[simp] theorem State.modIface_parts (s : State) (n : Nat) (f : Iface → Iface) : (s.modIface n f).parts = s.parts := rfl
@[simp] theorem State.modIface_bundles (s : State) (n : Nat) (f : Iface → Iface) : (s.modIface n f).bundles = s.bundles := rfl
@[simp] theorem State.modIface_dead (s : State) (n : Nat) (f : Iface → Iface) : (s.modIface n f).dead = s.dead := rfl
@[simp] theorem State.modIface_routes (s : State) (n : Nat) (f : Iface → Iface) : (s.modIface n f).routes = s.routes := rfl
@[simp] theorem State.modIface_tags (s : State) (n : Nat) (f : Iface → Iface) : (s.modIface n f).tags = s.tags := rfl
@[simp] theorem State.modIface_requests (s : State) (n : Nat) (f : Iface → Iface) : (s.modIface n f).requests = s.requests := rfl
@[simp] theorem State.modIface_shrinking (s : State) (n : Nat) (f : Iface → Iface) : (s.modIface n f).shrinking = s.shrinking := rfl
@[simp] theorem State.modIface_zones (s : State) (n : Nat) (f : Iface → Iface) : (s.modIface n f).zones = s.zones := rfl
@[simp] theorem State.modIface_groups (s : State) (n : Nat) (f : Iface → Iface) : (s.modIface n f).groups = s.groups := rfl
@[simp] theorem State.modIface_dies (s : State) (n : Nat) (f : Iface → Iface) : (s.modIface n f).dies = s.dies := rfl
@[simp] theorem State.modIface_trained (s : State) (n : Nat) (f : Iface → Iface) : (s.modIface n f).trained = s.trained := rfl
@[simp] theorem State.modIface_seams (s : State) (n : Nat) (f : Iface → Iface) : (s.modIface n f).seams = s.seams := rfl
@[simp] theorem State.modIface_trainedAt (s : State) (n : Nat) (f : Iface → Iface) : (s.modIface n f).trainedAt = s.trainedAt := rfl
@[simp] theorem State.modIface_islands (s : State) (n : Nat) (f : Iface → Iface) : (s.modIface n f).islands = s.islands := rfl
@[simp] theorem State.modIface_boot (s : State) (n : Nat) (f : Iface → Iface) : (s.modIface n f).boot = s.boot := rfl
@[simp] theorem State.modIface_measures (s : State) (n : Nat) (f : Iface → Iface) : (s.modIface n f).measures = s.measures := rfl
@[simp] theorem State.modIface_hyper (s : State) (n : Nat) (f : Iface → Iface) : (s.modIface n f).hyper = s.hyper := rfl
@[simp] theorem State.modIface_hyperEntry (s : State) (n : Nat) (f : Iface → Iface) : (s.modIface n f).hyperEntry = s.hyperEntry := rfl
@[simp] theorem State.modIface_errors (s : State) (n : Nat) (f : Iface → Iface) : (s.modIface n f).errors = s.errors := rfl
@[simp] theorem State.modIface_slots (s : State) (n : Nat) (f : Iface → Iface) : (s.modIface n f).slots = s.slots := rfl
@[simp] theorem State.modIface_staged (s : State) (n : Nat) (f : Iface → Iface) : (s.modIface n f).staged = s.staged := rfl
@[simp] theorem State.modIface_commitAt (s : State) (n : Nat) (f : Iface → Iface) : (s.modIface n f).commitAt = s.commitAt := rfl
@[simp] theorem State.modIface_slotTime (s : State) (n : Nat) (f : Iface → Iface) : (s.modIface n f).slotTime = s.slotTime := rfl
@[simp] theorem State.modIface_timeStep (s : State) (n : Nat) (f : Iface → Iface) : (s.modIface n f).timeStep = s.timeStep := rfl
@[simp] theorem State.modIface_clock (s : State) (n : Nat) (f : Iface → Iface) : (s.modIface n f).clock = s.clock := rfl
@[simp] theorem State.modIface_stamps (s : State) (n : Nat) (f : Iface → Iface) : (s.modIface n f).stamps = s.stamps := rfl
@[simp] theorem State.modIface_down (s : State) (n : Nat) (f : Iface → Iface) : (s.modIface n f).down = s.down := rfl
@[simp] theorem State.modIface_dropped (s : State) (n : Nat) (f : Iface → Iface) : (s.modIface n f).dropped = s.dropped := rfl
@[simp] theorem State.modIface_edges (s : State) (n : Nat) (f : Iface → Iface) : (s.modIface n f).edges = s.edges := rfl
@[simp] theorem State.modIface_scan (s : State) (n : Nat) (f : Iface → Iface) : (s.modIface n f).scan = s.scan := rfl
@[simp] theorem State.modIface_told (s : State) (n : Nat) (f : Iface → Iface) : (s.modIface n f).told = s.told := rfl
@[simp] theorem State.modIface_scanned (s : State) (n : Nat) (f : Iface → Iface) : (s.modIface n f).scanned = s.scanned := rfl
@[simp] theorem State.modIface_corrected (s : State) (n : Nat) (f : Iface → Iface) : (s.modIface n f).corrected = s.corrected := rfl
@[simp] theorem State.modIface_out (s : State) (n : Nat) (f : Iface → Iface) : (s.modIface n f).out = s.out := rfl

@[simp] theorem State.modZone_cycle (s : State) (n : Nat) (f : Zone → Zone) : (s.modZone n f).cycle = s.cycle := rfl
@[simp] theorem State.modZone_agenda (s : State) (n : Nat) (f : Zone → Zone) : (s.modZone n f).agenda = s.agenda := rfl
@[simp] theorem State.modZone_cur (s : State) (n : Nat) (f : Zone → Zone) : (s.modZone n f).cur = s.cur := rfl
@[simp] theorem State.modZone_issued (s : State) (n : Nat) (f : Zone → Zone) : (s.modZone n f).issued = s.issued := rfl
@[simp] theorem State.modZone_trapped (s : State) (n : Nat) (f : Zone → Zone) : (s.modZone n f).trapped = s.trapped := rfl
@[simp] theorem State.modZone_later (s : State) (n : Nat) (f : Zone → Zone) : (s.modZone n f).later = s.later := rfl
@[simp] theorem State.modZone_fresh (s : State) (n : Nat) (f : Zone → Zone) : (s.modZone n f).fresh = s.fresh := rfl
@[simp] theorem State.modZone_ctxs (s : State) (n : Nat) (f : Zone → Zone) : (s.modZone n f).ctxs = s.ctxs := rfl
@[simp] theorem State.modZone_cores (s : State) (n : Nat) (f : Zone → Zone) : (s.modZone n f).cores = s.cores := rfl
@[simp] theorem State.modZone_tiles (s : State) (n : Nat) (f : Zone → Zone) : (s.modZone n f).tiles = s.tiles := rfl
@[simp] theorem State.modZone_tts (s : State) (n : Nat) (f : Zone → Zone) : (s.modZone n f).tts = s.tts := rfl
@[simp] theorem State.modZone_launches (s : State) (n : Nat) (f : Zone → Zone) : (s.modZone n f).launches = s.launches := rfl
@[simp] theorem State.modZone_homes (s : State) (n : Nat) (f : Zone → Zone) : (s.modZone n f).homes = s.homes := rfl
@[simp] theorem State.modZone_net (s : State) (n : Nat) (f : Zone → Zone) : (s.modZone n f).net = s.net := rfl
@[simp] theorem State.modZone_posted (s : State) (n : Nat) (f : Zone → Zone) : (s.modZone n f).posted = s.posted := rfl
@[simp] theorem State.modZone_xfers (s : State) (n : Nat) (f : Zone → Zone) : (s.modZone n f).xfers = s.xfers := rfl
@[simp] theorem State.modZone_hbm (s : State) (n : Nat) (f : Zone → Zone) : (s.modZone n f).hbm = s.hbm := rfl
@[simp] theorem State.modZone_host (s : State) (n : Nat) (f : Zone → Zone) : (s.modZone n f).host = s.host := rfl
@[simp] theorem State.modZone_tlbs (s : State) (n : Nat) (f : Zone → Zone) : (s.modZone n f).tlbs = s.tlbs := rfl
@[simp] theorem State.modZone_parts (s : State) (n : Nat) (f : Zone → Zone) : (s.modZone n f).parts = s.parts := rfl
@[simp] theorem State.modZone_ifaces (s : State) (n : Nat) (f : Zone → Zone) : (s.modZone n f).ifaces = s.ifaces := rfl
@[simp] theorem State.modZone_bundles (s : State) (n : Nat) (f : Zone → Zone) : (s.modZone n f).bundles = s.bundles := rfl
@[simp] theorem State.modZone_dead (s : State) (n : Nat) (f : Zone → Zone) : (s.modZone n f).dead = s.dead := rfl
@[simp] theorem State.modZone_routes (s : State) (n : Nat) (f : Zone → Zone) : (s.modZone n f).routes = s.routes := rfl
@[simp] theorem State.modZone_tags (s : State) (n : Nat) (f : Zone → Zone) : (s.modZone n f).tags = s.tags := rfl
@[simp] theorem State.modZone_requests (s : State) (n : Nat) (f : Zone → Zone) : (s.modZone n f).requests = s.requests := rfl
@[simp] theorem State.modZone_shrinking (s : State) (n : Nat) (f : Zone → Zone) : (s.modZone n f).shrinking = s.shrinking := rfl
@[simp] theorem State.modZone_groups (s : State) (n : Nat) (f : Zone → Zone) : (s.modZone n f).groups = s.groups := rfl
@[simp] theorem State.modZone_dies (s : State) (n : Nat) (f : Zone → Zone) : (s.modZone n f).dies = s.dies := rfl
@[simp] theorem State.modZone_trained (s : State) (n : Nat) (f : Zone → Zone) : (s.modZone n f).trained = s.trained := rfl
@[simp] theorem State.modZone_seams (s : State) (n : Nat) (f : Zone → Zone) : (s.modZone n f).seams = s.seams := rfl
@[simp] theorem State.modZone_trainedAt (s : State) (n : Nat) (f : Zone → Zone) : (s.modZone n f).trainedAt = s.trainedAt := rfl
@[simp] theorem State.modZone_islands (s : State) (n : Nat) (f : Zone → Zone) : (s.modZone n f).islands = s.islands := rfl
@[simp] theorem State.modZone_boot (s : State) (n : Nat) (f : Zone → Zone) : (s.modZone n f).boot = s.boot := rfl
@[simp] theorem State.modZone_measures (s : State) (n : Nat) (f : Zone → Zone) : (s.modZone n f).measures = s.measures := rfl
@[simp] theorem State.modZone_hyper (s : State) (n : Nat) (f : Zone → Zone) : (s.modZone n f).hyper = s.hyper := rfl
@[simp] theorem State.modZone_hyperEntry (s : State) (n : Nat) (f : Zone → Zone) : (s.modZone n f).hyperEntry = s.hyperEntry := rfl
@[simp] theorem State.modZone_errors (s : State) (n : Nat) (f : Zone → Zone) : (s.modZone n f).errors = s.errors := rfl
@[simp] theorem State.modZone_slots (s : State) (n : Nat) (f : Zone → Zone) : (s.modZone n f).slots = s.slots := rfl
@[simp] theorem State.modZone_staged (s : State) (n : Nat) (f : Zone → Zone) : (s.modZone n f).staged = s.staged := rfl
@[simp] theorem State.modZone_commitAt (s : State) (n : Nat) (f : Zone → Zone) : (s.modZone n f).commitAt = s.commitAt := rfl
@[simp] theorem State.modZone_slotTime (s : State) (n : Nat) (f : Zone → Zone) : (s.modZone n f).slotTime = s.slotTime := rfl
@[simp] theorem State.modZone_timeStep (s : State) (n : Nat) (f : Zone → Zone) : (s.modZone n f).timeStep = s.timeStep := rfl
@[simp] theorem State.modZone_clock (s : State) (n : Nat) (f : Zone → Zone) : (s.modZone n f).clock = s.clock := rfl
@[simp] theorem State.modZone_stamps (s : State) (n : Nat) (f : Zone → Zone) : (s.modZone n f).stamps = s.stamps := rfl
@[simp] theorem State.modZone_down (s : State) (n : Nat) (f : Zone → Zone) : (s.modZone n f).down = s.down := rfl
@[simp] theorem State.modZone_dropped (s : State) (n : Nat) (f : Zone → Zone) : (s.modZone n f).dropped = s.dropped := rfl
@[simp] theorem State.modZone_edges (s : State) (n : Nat) (f : Zone → Zone) : (s.modZone n f).edges = s.edges := rfl
@[simp] theorem State.modZone_scan (s : State) (n : Nat) (f : Zone → Zone) : (s.modZone n f).scan = s.scan := rfl
@[simp] theorem State.modZone_told (s : State) (n : Nat) (f : Zone → Zone) : (s.modZone n f).told = s.told := rfl
@[simp] theorem State.modZone_scanned (s : State) (n : Nat) (f : Zone → Zone) : (s.modZone n f).scanned = s.scanned := rfl
@[simp] theorem State.modZone_corrected (s : State) (n : Nat) (f : Zone → Zone) : (s.modZone n f).corrected = s.corrected := rfl
@[simp] theorem State.modZone_out (s : State) (n : Nat) (f : Zone → Zone) : (s.modZone n f).out = s.out := rfl

@[simp] theorem State.modPower_cycle (s : State) (n : Nat) (f : PowerGroup → PowerGroup) : (s.modPower n f).cycle = s.cycle := rfl
@[simp] theorem State.modPower_agenda (s : State) (n : Nat) (f : PowerGroup → PowerGroup) : (s.modPower n f).agenda = s.agenda := rfl
@[simp] theorem State.modPower_cur (s : State) (n : Nat) (f : PowerGroup → PowerGroup) : (s.modPower n f).cur = s.cur := rfl
@[simp] theorem State.modPower_issued (s : State) (n : Nat) (f : PowerGroup → PowerGroup) : (s.modPower n f).issued = s.issued := rfl
@[simp] theorem State.modPower_trapped (s : State) (n : Nat) (f : PowerGroup → PowerGroup) : (s.modPower n f).trapped = s.trapped := rfl
@[simp] theorem State.modPower_later (s : State) (n : Nat) (f : PowerGroup → PowerGroup) : (s.modPower n f).later = s.later := rfl
@[simp] theorem State.modPower_fresh (s : State) (n : Nat) (f : PowerGroup → PowerGroup) : (s.modPower n f).fresh = s.fresh := rfl
@[simp] theorem State.modPower_ctxs (s : State) (n : Nat) (f : PowerGroup → PowerGroup) : (s.modPower n f).ctxs = s.ctxs := rfl
@[simp] theorem State.modPower_cores (s : State) (n : Nat) (f : PowerGroup → PowerGroup) : (s.modPower n f).cores = s.cores := rfl
@[simp] theorem State.modPower_tiles (s : State) (n : Nat) (f : PowerGroup → PowerGroup) : (s.modPower n f).tiles = s.tiles := rfl
@[simp] theorem State.modPower_tts (s : State) (n : Nat) (f : PowerGroup → PowerGroup) : (s.modPower n f).tts = s.tts := rfl
@[simp] theorem State.modPower_launches (s : State) (n : Nat) (f : PowerGroup → PowerGroup) : (s.modPower n f).launches = s.launches := rfl
@[simp] theorem State.modPower_homes (s : State) (n : Nat) (f : PowerGroup → PowerGroup) : (s.modPower n f).homes = s.homes := rfl
@[simp] theorem State.modPower_net (s : State) (n : Nat) (f : PowerGroup → PowerGroup) : (s.modPower n f).net = s.net := rfl
@[simp] theorem State.modPower_posted (s : State) (n : Nat) (f : PowerGroup → PowerGroup) : (s.modPower n f).posted = s.posted := rfl
@[simp] theorem State.modPower_xfers (s : State) (n : Nat) (f : PowerGroup → PowerGroup) : (s.modPower n f).xfers = s.xfers := rfl
@[simp] theorem State.modPower_hbm (s : State) (n : Nat) (f : PowerGroup → PowerGroup) : (s.modPower n f).hbm = s.hbm := rfl
@[simp] theorem State.modPower_host (s : State) (n : Nat) (f : PowerGroup → PowerGroup) : (s.modPower n f).host = s.host := rfl
@[simp] theorem State.modPower_tlbs (s : State) (n : Nat) (f : PowerGroup → PowerGroup) : (s.modPower n f).tlbs = s.tlbs := rfl
@[simp] theorem State.modPower_parts (s : State) (n : Nat) (f : PowerGroup → PowerGroup) : (s.modPower n f).parts = s.parts := rfl
@[simp] theorem State.modPower_ifaces (s : State) (n : Nat) (f : PowerGroup → PowerGroup) : (s.modPower n f).ifaces = s.ifaces := rfl
@[simp] theorem State.modPower_bundles (s : State) (n : Nat) (f : PowerGroup → PowerGroup) : (s.modPower n f).bundles = s.bundles := rfl
@[simp] theorem State.modPower_dead (s : State) (n : Nat) (f : PowerGroup → PowerGroup) : (s.modPower n f).dead = s.dead := rfl
@[simp] theorem State.modPower_routes (s : State) (n : Nat) (f : PowerGroup → PowerGroup) : (s.modPower n f).routes = s.routes := rfl
@[simp] theorem State.modPower_tags (s : State) (n : Nat) (f : PowerGroup → PowerGroup) : (s.modPower n f).tags = s.tags := rfl
@[simp] theorem State.modPower_requests (s : State) (n : Nat) (f : PowerGroup → PowerGroup) : (s.modPower n f).requests = s.requests := rfl
@[simp] theorem State.modPower_shrinking (s : State) (n : Nat) (f : PowerGroup → PowerGroup) : (s.modPower n f).shrinking = s.shrinking := rfl
@[simp] theorem State.modPower_zones (s : State) (n : Nat) (f : PowerGroup → PowerGroup) : (s.modPower n f).zones = s.zones := rfl
@[simp] theorem State.modPower_dies (s : State) (n : Nat) (f : PowerGroup → PowerGroup) : (s.modPower n f).dies = s.dies := rfl
@[simp] theorem State.modPower_trained (s : State) (n : Nat) (f : PowerGroup → PowerGroup) : (s.modPower n f).trained = s.trained := rfl
@[simp] theorem State.modPower_seams (s : State) (n : Nat) (f : PowerGroup → PowerGroup) : (s.modPower n f).seams = s.seams := rfl
@[simp] theorem State.modPower_trainedAt (s : State) (n : Nat) (f : PowerGroup → PowerGroup) : (s.modPower n f).trainedAt = s.trainedAt := rfl
@[simp] theorem State.modPower_islands (s : State) (n : Nat) (f : PowerGroup → PowerGroup) : (s.modPower n f).islands = s.islands := rfl
@[simp] theorem State.modPower_boot (s : State) (n : Nat) (f : PowerGroup → PowerGroup) : (s.modPower n f).boot = s.boot := rfl
@[simp] theorem State.modPower_measures (s : State) (n : Nat) (f : PowerGroup → PowerGroup) : (s.modPower n f).measures = s.measures := rfl
@[simp] theorem State.modPower_hyper (s : State) (n : Nat) (f : PowerGroup → PowerGroup) : (s.modPower n f).hyper = s.hyper := rfl
@[simp] theorem State.modPower_hyperEntry (s : State) (n : Nat) (f : PowerGroup → PowerGroup) : (s.modPower n f).hyperEntry = s.hyperEntry := rfl
@[simp] theorem State.modPower_errors (s : State) (n : Nat) (f : PowerGroup → PowerGroup) : (s.modPower n f).errors = s.errors := rfl
@[simp] theorem State.modPower_slots (s : State) (n : Nat) (f : PowerGroup → PowerGroup) : (s.modPower n f).slots = s.slots := rfl
@[simp] theorem State.modPower_staged (s : State) (n : Nat) (f : PowerGroup → PowerGroup) : (s.modPower n f).staged = s.staged := rfl
@[simp] theorem State.modPower_commitAt (s : State) (n : Nat) (f : PowerGroup → PowerGroup) : (s.modPower n f).commitAt = s.commitAt := rfl
@[simp] theorem State.modPower_slotTime (s : State) (n : Nat) (f : PowerGroup → PowerGroup) : (s.modPower n f).slotTime = s.slotTime := rfl
@[simp] theorem State.modPower_timeStep (s : State) (n : Nat) (f : PowerGroup → PowerGroup) : (s.modPower n f).timeStep = s.timeStep := rfl
@[simp] theorem State.modPower_clock (s : State) (n : Nat) (f : PowerGroup → PowerGroup) : (s.modPower n f).clock = s.clock := rfl
@[simp] theorem State.modPower_stamps (s : State) (n : Nat) (f : PowerGroup → PowerGroup) : (s.modPower n f).stamps = s.stamps := rfl
@[simp] theorem State.modPower_down (s : State) (n : Nat) (f : PowerGroup → PowerGroup) : (s.modPower n f).down = s.down := rfl
@[simp] theorem State.modPower_dropped (s : State) (n : Nat) (f : PowerGroup → PowerGroup) : (s.modPower n f).dropped = s.dropped := rfl
@[simp] theorem State.modPower_edges (s : State) (n : Nat) (f : PowerGroup → PowerGroup) : (s.modPower n f).edges = s.edges := rfl
@[simp] theorem State.modPower_scan (s : State) (n : Nat) (f : PowerGroup → PowerGroup) : (s.modPower n f).scan = s.scan := rfl
@[simp] theorem State.modPower_told (s : State) (n : Nat) (f : PowerGroup → PowerGroup) : (s.modPower n f).told = s.told := rfl
@[simp] theorem State.modPower_scanned (s : State) (n : Nat) (f : PowerGroup → PowerGroup) : (s.modPower n f).scanned = s.scanned := rfl
@[simp] theorem State.modPower_corrected (s : State) (n : Nat) (f : PowerGroup → PowerGroup) : (s.modPower n f).corrected = s.corrected := rfl
@[simp] theorem State.modPower_out (s : State) (n : Nat) (f : PowerGroup → PowerGroup) : (s.modPower n f).out = s.out := rfl

@[simp] theorem State.modDie_cycle (s : State) (n : Nat) (f : Die → Die) : (s.modDie n f).cycle = s.cycle := rfl
@[simp] theorem State.modDie_agenda (s : State) (n : Nat) (f : Die → Die) : (s.modDie n f).agenda = s.agenda := rfl
@[simp] theorem State.modDie_cur (s : State) (n : Nat) (f : Die → Die) : (s.modDie n f).cur = s.cur := rfl
@[simp] theorem State.modDie_issued (s : State) (n : Nat) (f : Die → Die) : (s.modDie n f).issued = s.issued := rfl
@[simp] theorem State.modDie_trapped (s : State) (n : Nat) (f : Die → Die) : (s.modDie n f).trapped = s.trapped := rfl
@[simp] theorem State.modDie_later (s : State) (n : Nat) (f : Die → Die) : (s.modDie n f).later = s.later := rfl
@[simp] theorem State.modDie_fresh (s : State) (n : Nat) (f : Die → Die) : (s.modDie n f).fresh = s.fresh := rfl
@[simp] theorem State.modDie_ctxs (s : State) (n : Nat) (f : Die → Die) : (s.modDie n f).ctxs = s.ctxs := rfl
@[simp] theorem State.modDie_cores (s : State) (n : Nat) (f : Die → Die) : (s.modDie n f).cores = s.cores := rfl
@[simp] theorem State.modDie_tiles (s : State) (n : Nat) (f : Die → Die) : (s.modDie n f).tiles = s.tiles := rfl
@[simp] theorem State.modDie_tts (s : State) (n : Nat) (f : Die → Die) : (s.modDie n f).tts = s.tts := rfl
@[simp] theorem State.modDie_launches (s : State) (n : Nat) (f : Die → Die) : (s.modDie n f).launches = s.launches := rfl
@[simp] theorem State.modDie_homes (s : State) (n : Nat) (f : Die → Die) : (s.modDie n f).homes = s.homes := rfl
@[simp] theorem State.modDie_net (s : State) (n : Nat) (f : Die → Die) : (s.modDie n f).net = s.net := rfl
@[simp] theorem State.modDie_posted (s : State) (n : Nat) (f : Die → Die) : (s.modDie n f).posted = s.posted := rfl
@[simp] theorem State.modDie_xfers (s : State) (n : Nat) (f : Die → Die) : (s.modDie n f).xfers = s.xfers := rfl
@[simp] theorem State.modDie_hbm (s : State) (n : Nat) (f : Die → Die) : (s.modDie n f).hbm = s.hbm := rfl
@[simp] theorem State.modDie_host (s : State) (n : Nat) (f : Die → Die) : (s.modDie n f).host = s.host := rfl
@[simp] theorem State.modDie_tlbs (s : State) (n : Nat) (f : Die → Die) : (s.modDie n f).tlbs = s.tlbs := rfl
@[simp] theorem State.modDie_parts (s : State) (n : Nat) (f : Die → Die) : (s.modDie n f).parts = s.parts := rfl
@[simp] theorem State.modDie_ifaces (s : State) (n : Nat) (f : Die → Die) : (s.modDie n f).ifaces = s.ifaces := rfl
@[simp] theorem State.modDie_bundles (s : State) (n : Nat) (f : Die → Die) : (s.modDie n f).bundles = s.bundles := rfl
@[simp] theorem State.modDie_dead (s : State) (n : Nat) (f : Die → Die) : (s.modDie n f).dead = s.dead := rfl
@[simp] theorem State.modDie_routes (s : State) (n : Nat) (f : Die → Die) : (s.modDie n f).routes = s.routes := rfl
@[simp] theorem State.modDie_tags (s : State) (n : Nat) (f : Die → Die) : (s.modDie n f).tags = s.tags := rfl
@[simp] theorem State.modDie_requests (s : State) (n : Nat) (f : Die → Die) : (s.modDie n f).requests = s.requests := rfl
@[simp] theorem State.modDie_shrinking (s : State) (n : Nat) (f : Die → Die) : (s.modDie n f).shrinking = s.shrinking := rfl
@[simp] theorem State.modDie_zones (s : State) (n : Nat) (f : Die → Die) : (s.modDie n f).zones = s.zones := rfl
@[simp] theorem State.modDie_groups (s : State) (n : Nat) (f : Die → Die) : (s.modDie n f).groups = s.groups := rfl
@[simp] theorem State.modDie_trained (s : State) (n : Nat) (f : Die → Die) : (s.modDie n f).trained = s.trained := rfl
@[simp] theorem State.modDie_seams (s : State) (n : Nat) (f : Die → Die) : (s.modDie n f).seams = s.seams := rfl
@[simp] theorem State.modDie_trainedAt (s : State) (n : Nat) (f : Die → Die) : (s.modDie n f).trainedAt = s.trainedAt := rfl
@[simp] theorem State.modDie_islands (s : State) (n : Nat) (f : Die → Die) : (s.modDie n f).islands = s.islands := rfl
@[simp] theorem State.modDie_boot (s : State) (n : Nat) (f : Die → Die) : (s.modDie n f).boot = s.boot := rfl
@[simp] theorem State.modDie_measures (s : State) (n : Nat) (f : Die → Die) : (s.modDie n f).measures = s.measures := rfl
@[simp] theorem State.modDie_hyper (s : State) (n : Nat) (f : Die → Die) : (s.modDie n f).hyper = s.hyper := rfl
@[simp] theorem State.modDie_hyperEntry (s : State) (n : Nat) (f : Die → Die) : (s.modDie n f).hyperEntry = s.hyperEntry := rfl
@[simp] theorem State.modDie_errors (s : State) (n : Nat) (f : Die → Die) : (s.modDie n f).errors = s.errors := rfl
@[simp] theorem State.modDie_slots (s : State) (n : Nat) (f : Die → Die) : (s.modDie n f).slots = s.slots := rfl
@[simp] theorem State.modDie_staged (s : State) (n : Nat) (f : Die → Die) : (s.modDie n f).staged = s.staged := rfl
@[simp] theorem State.modDie_commitAt (s : State) (n : Nat) (f : Die → Die) : (s.modDie n f).commitAt = s.commitAt := rfl
@[simp] theorem State.modDie_slotTime (s : State) (n : Nat) (f : Die → Die) : (s.modDie n f).slotTime = s.slotTime := rfl
@[simp] theorem State.modDie_timeStep (s : State) (n : Nat) (f : Die → Die) : (s.modDie n f).timeStep = s.timeStep := rfl
@[simp] theorem State.modDie_clock (s : State) (n : Nat) (f : Die → Die) : (s.modDie n f).clock = s.clock := rfl
@[simp] theorem State.modDie_stamps (s : State) (n : Nat) (f : Die → Die) : (s.modDie n f).stamps = s.stamps := rfl
@[simp] theorem State.modDie_down (s : State) (n : Nat) (f : Die → Die) : (s.modDie n f).down = s.down := rfl
@[simp] theorem State.modDie_dropped (s : State) (n : Nat) (f : Die → Die) : (s.modDie n f).dropped = s.dropped := rfl
@[simp] theorem State.modDie_edges (s : State) (n : Nat) (f : Die → Die) : (s.modDie n f).edges = s.edges := rfl
@[simp] theorem State.modDie_scan (s : State) (n : Nat) (f : Die → Die) : (s.modDie n f).scan = s.scan := rfl
@[simp] theorem State.modDie_told (s : State) (n : Nat) (f : Die → Die) : (s.modDie n f).told = s.told := rfl
@[simp] theorem State.modDie_scanned (s : State) (n : Nat) (f : Die → Die) : (s.modDie n f).scanned = s.scanned := rfl
@[simp] theorem State.modDie_corrected (s : State) (n : Nat) (f : Die → Die) : (s.modDie n f).corrected = s.corrected := rfl
@[simp] theorem State.modDie_out (s : State) (n : Nat) (f : Die → Die) : (s.modDie n f).out = s.out := rfl

@[simp] theorem State.finish_cycle (s : State) (len : Nat) : (s.finish len).cycle = s.cycle := rfl
@[simp] theorem State.finish_agenda (s : State) (len : Nat) : (s.finish len).agenda = s.agenda := rfl
@[simp] theorem State.finish_cur (s : State) (len : Nat) : (s.finish len).cur = s.cur := rfl
@[simp] theorem State.finish_issued (s : State) (len : Nat) : (s.finish len).issued = s.issued := rfl
@[simp] theorem State.finish_trapped (s : State) (len : Nat) : (s.finish len).trapped = s.trapped := rfl
@[simp] theorem State.finish_later (s : State) (len : Nat) : (s.finish len).later = s.later := rfl
@[simp] theorem State.finish_fresh (s : State) (len : Nat) : (s.finish len).fresh = s.fresh := rfl
@[simp] theorem State.finish_cores (s : State) (len : Nat) : (s.finish len).cores = s.cores := rfl
@[simp] theorem State.finish_tiles (s : State) (len : Nat) : (s.finish len).tiles = s.tiles := rfl
@[simp] theorem State.finish_tts (s : State) (len : Nat) : (s.finish len).tts = s.tts := rfl
@[simp] theorem State.finish_launches (s : State) (len : Nat) : (s.finish len).launches = s.launches := rfl
@[simp] theorem State.finish_homes (s : State) (len : Nat) : (s.finish len).homes = s.homes := rfl
@[simp] theorem State.finish_net (s : State) (len : Nat) : (s.finish len).net = s.net := rfl
@[simp] theorem State.finish_posted (s : State) (len : Nat) : (s.finish len).posted = s.posted := rfl
@[simp] theorem State.finish_xfers (s : State) (len : Nat) : (s.finish len).xfers = s.xfers := rfl
@[simp] theorem State.finish_hbm (s : State) (len : Nat) : (s.finish len).hbm = s.hbm := rfl
@[simp] theorem State.finish_host (s : State) (len : Nat) : (s.finish len).host = s.host := rfl
@[simp] theorem State.finish_tlbs (s : State) (len : Nat) : (s.finish len).tlbs = s.tlbs := rfl
@[simp] theorem State.finish_parts (s : State) (len : Nat) : (s.finish len).parts = s.parts := rfl
@[simp] theorem State.finish_ifaces (s : State) (len : Nat) : (s.finish len).ifaces = s.ifaces := rfl
@[simp] theorem State.finish_bundles (s : State) (len : Nat) : (s.finish len).bundles = s.bundles := rfl
@[simp] theorem State.finish_dead (s : State) (len : Nat) : (s.finish len).dead = s.dead := rfl
@[simp] theorem State.finish_routes (s : State) (len : Nat) : (s.finish len).routes = s.routes := rfl
@[simp] theorem State.finish_tags (s : State) (len : Nat) : (s.finish len).tags = s.tags := rfl
@[simp] theorem State.finish_requests (s : State) (len : Nat) : (s.finish len).requests = s.requests := rfl
@[simp] theorem State.finish_shrinking (s : State) (len : Nat) : (s.finish len).shrinking = s.shrinking := rfl
@[simp] theorem State.finish_zones (s : State) (len : Nat) : (s.finish len).zones = s.zones := rfl
@[simp] theorem State.finish_groups (s : State) (len : Nat) : (s.finish len).groups = s.groups := rfl
@[simp] theorem State.finish_dies (s : State) (len : Nat) : (s.finish len).dies = s.dies := rfl
@[simp] theorem State.finish_trained (s : State) (len : Nat) : (s.finish len).trained = s.trained := rfl
@[simp] theorem State.finish_seams (s : State) (len : Nat) : (s.finish len).seams = s.seams := rfl
@[simp] theorem State.finish_trainedAt (s : State) (len : Nat) : (s.finish len).trainedAt = s.trainedAt := rfl
@[simp] theorem State.finish_islands (s : State) (len : Nat) : (s.finish len).islands = s.islands := rfl
@[simp] theorem State.finish_boot (s : State) (len : Nat) : (s.finish len).boot = s.boot := rfl
@[simp] theorem State.finish_measures (s : State) (len : Nat) : (s.finish len).measures = s.measures := rfl
@[simp] theorem State.finish_hyper (s : State) (len : Nat) : (s.finish len).hyper = s.hyper := rfl
@[simp] theorem State.finish_hyperEntry (s : State) (len : Nat) : (s.finish len).hyperEntry = s.hyperEntry := rfl
@[simp] theorem State.finish_errors (s : State) (len : Nat) : (s.finish len).errors = s.errors := rfl
@[simp] theorem State.finish_slots (s : State) (len : Nat) : (s.finish len).slots = s.slots := rfl
@[simp] theorem State.finish_staged (s : State) (len : Nat) : (s.finish len).staged = s.staged := rfl
@[simp] theorem State.finish_commitAt (s : State) (len : Nat) : (s.finish len).commitAt = s.commitAt := rfl
@[simp] theorem State.finish_slotTime (s : State) (len : Nat) : (s.finish len).slotTime = s.slotTime := rfl
@[simp] theorem State.finish_timeStep (s : State) (len : Nat) : (s.finish len).timeStep = s.timeStep := rfl
@[simp] theorem State.finish_clock (s : State) (len : Nat) : (s.finish len).clock = s.clock := rfl
@[simp] theorem State.finish_stamps (s : State) (len : Nat) : (s.finish len).stamps = s.stamps := rfl
@[simp] theorem State.finish_down (s : State) (len : Nat) : (s.finish len).down = s.down := rfl
@[simp] theorem State.finish_dropped (s : State) (len : Nat) : (s.finish len).dropped = s.dropped := rfl
@[simp] theorem State.finish_edges (s : State) (len : Nat) : (s.finish len).edges = s.edges := rfl
@[simp] theorem State.finish_scan (s : State) (len : Nat) : (s.finish len).scan = s.scan := rfl
@[simp] theorem State.finish_told (s : State) (len : Nat) : (s.finish len).told = s.told := rfl
@[simp] theorem State.finish_scanned (s : State) (len : Nat) : (s.finish len).scanned = s.scanned := rfl
@[simp] theorem State.finish_corrected (s : State) (len : Nat) : (s.finish len).corrected = s.corrected := rfl
@[simp] theorem State.finish_out (s : State) (len : Nat) : (s.finish len).out = s.out := rfl

@[simp] theorem State.finishReg_cycle (s : State) (len : Nat) (d : BitVec 5) (v : Word) : (s.finishReg len d v).cycle = s.cycle := rfl
@[simp] theorem State.finishReg_agenda (s : State) (len : Nat) (d : BitVec 5) (v : Word) : (s.finishReg len d v).agenda = s.agenda := rfl
@[simp] theorem State.finishReg_cur (s : State) (len : Nat) (d : BitVec 5) (v : Word) : (s.finishReg len d v).cur = s.cur := rfl
@[simp] theorem State.finishReg_issued (s : State) (len : Nat) (d : BitVec 5) (v : Word) : (s.finishReg len d v).issued = s.issued := rfl
@[simp] theorem State.finishReg_trapped (s : State) (len : Nat) (d : BitVec 5) (v : Word) : (s.finishReg len d v).trapped = s.trapped := rfl
@[simp] theorem State.finishReg_later (s : State) (len : Nat) (d : BitVec 5) (v : Word) : (s.finishReg len d v).later = s.later := rfl
@[simp] theorem State.finishReg_fresh (s : State) (len : Nat) (d : BitVec 5) (v : Word) : (s.finishReg len d v).fresh = s.fresh := rfl
@[simp] theorem State.finishReg_cores (s : State) (len : Nat) (d : BitVec 5) (v : Word) : (s.finishReg len d v).cores = s.cores := rfl
@[simp] theorem State.finishReg_tiles (s : State) (len : Nat) (d : BitVec 5) (v : Word) : (s.finishReg len d v).tiles = s.tiles := rfl
@[simp] theorem State.finishReg_tts (s : State) (len : Nat) (d : BitVec 5) (v : Word) : (s.finishReg len d v).tts = s.tts := rfl
@[simp] theorem State.finishReg_launches (s : State) (len : Nat) (d : BitVec 5) (v : Word) : (s.finishReg len d v).launches = s.launches := rfl
@[simp] theorem State.finishReg_homes (s : State) (len : Nat) (d : BitVec 5) (v : Word) : (s.finishReg len d v).homes = s.homes := rfl
@[simp] theorem State.finishReg_net (s : State) (len : Nat) (d : BitVec 5) (v : Word) : (s.finishReg len d v).net = s.net := rfl
@[simp] theorem State.finishReg_posted (s : State) (len : Nat) (d : BitVec 5) (v : Word) : (s.finishReg len d v).posted = s.posted := rfl
@[simp] theorem State.finishReg_xfers (s : State) (len : Nat) (d : BitVec 5) (v : Word) : (s.finishReg len d v).xfers = s.xfers := rfl
@[simp] theorem State.finishReg_hbm (s : State) (len : Nat) (d : BitVec 5) (v : Word) : (s.finishReg len d v).hbm = s.hbm := rfl
@[simp] theorem State.finishReg_host (s : State) (len : Nat) (d : BitVec 5) (v : Word) : (s.finishReg len d v).host = s.host := rfl
@[simp] theorem State.finishReg_tlbs (s : State) (len : Nat) (d : BitVec 5) (v : Word) : (s.finishReg len d v).tlbs = s.tlbs := rfl
@[simp] theorem State.finishReg_parts (s : State) (len : Nat) (d : BitVec 5) (v : Word) : (s.finishReg len d v).parts = s.parts := rfl
@[simp] theorem State.finishReg_ifaces (s : State) (len : Nat) (d : BitVec 5) (v : Word) : (s.finishReg len d v).ifaces = s.ifaces := rfl
@[simp] theorem State.finishReg_bundles (s : State) (len : Nat) (d : BitVec 5) (v : Word) : (s.finishReg len d v).bundles = s.bundles := rfl
@[simp] theorem State.finishReg_dead (s : State) (len : Nat) (d : BitVec 5) (v : Word) : (s.finishReg len d v).dead = s.dead := rfl
@[simp] theorem State.finishReg_routes (s : State) (len : Nat) (d : BitVec 5) (v : Word) : (s.finishReg len d v).routes = s.routes := rfl
@[simp] theorem State.finishReg_tags (s : State) (len : Nat) (d : BitVec 5) (v : Word) : (s.finishReg len d v).tags = s.tags := rfl
@[simp] theorem State.finishReg_requests (s : State) (len : Nat) (d : BitVec 5) (v : Word) : (s.finishReg len d v).requests = s.requests := rfl
@[simp] theorem State.finishReg_shrinking (s : State) (len : Nat) (d : BitVec 5) (v : Word) : (s.finishReg len d v).shrinking = s.shrinking := rfl
@[simp] theorem State.finishReg_zones (s : State) (len : Nat) (d : BitVec 5) (v : Word) : (s.finishReg len d v).zones = s.zones := rfl
@[simp] theorem State.finishReg_groups (s : State) (len : Nat) (d : BitVec 5) (v : Word) : (s.finishReg len d v).groups = s.groups := rfl
@[simp] theorem State.finishReg_dies (s : State) (len : Nat) (d : BitVec 5) (v : Word) : (s.finishReg len d v).dies = s.dies := rfl
@[simp] theorem State.finishReg_trained (s : State) (len : Nat) (d : BitVec 5) (v : Word) : (s.finishReg len d v).trained = s.trained := rfl
@[simp] theorem State.finishReg_seams (s : State) (len : Nat) (d : BitVec 5) (v : Word) : (s.finishReg len d v).seams = s.seams := rfl
@[simp] theorem State.finishReg_trainedAt (s : State) (len : Nat) (d : BitVec 5) (v : Word) : (s.finishReg len d v).trainedAt = s.trainedAt := rfl
@[simp] theorem State.finishReg_islands (s : State) (len : Nat) (d : BitVec 5) (v : Word) : (s.finishReg len d v).islands = s.islands := rfl
@[simp] theorem State.finishReg_boot (s : State) (len : Nat) (d : BitVec 5) (v : Word) : (s.finishReg len d v).boot = s.boot := rfl
@[simp] theorem State.finishReg_measures (s : State) (len : Nat) (d : BitVec 5) (v : Word) : (s.finishReg len d v).measures = s.measures := rfl
@[simp] theorem State.finishReg_hyper (s : State) (len : Nat) (d : BitVec 5) (v : Word) : (s.finishReg len d v).hyper = s.hyper := rfl
@[simp] theorem State.finishReg_hyperEntry (s : State) (len : Nat) (d : BitVec 5) (v : Word) : (s.finishReg len d v).hyperEntry = s.hyperEntry := rfl
@[simp] theorem State.finishReg_errors (s : State) (len : Nat) (d : BitVec 5) (v : Word) : (s.finishReg len d v).errors = s.errors := rfl
@[simp] theorem State.finishReg_slots (s : State) (len : Nat) (d : BitVec 5) (v : Word) : (s.finishReg len d v).slots = s.slots := rfl
@[simp] theorem State.finishReg_staged (s : State) (len : Nat) (d : BitVec 5) (v : Word) : (s.finishReg len d v).staged = s.staged := rfl
@[simp] theorem State.finishReg_commitAt (s : State) (len : Nat) (d : BitVec 5) (v : Word) : (s.finishReg len d v).commitAt = s.commitAt := rfl
@[simp] theorem State.finishReg_slotTime (s : State) (len : Nat) (d : BitVec 5) (v : Word) : (s.finishReg len d v).slotTime = s.slotTime := rfl
@[simp] theorem State.finishReg_timeStep (s : State) (len : Nat) (d : BitVec 5) (v : Word) : (s.finishReg len d v).timeStep = s.timeStep := rfl
@[simp] theorem State.finishReg_clock (s : State) (len : Nat) (d : BitVec 5) (v : Word) : (s.finishReg len d v).clock = s.clock := rfl
@[simp] theorem State.finishReg_stamps (s : State) (len : Nat) (d : BitVec 5) (v : Word) : (s.finishReg len d v).stamps = s.stamps := rfl
@[simp] theorem State.finishReg_down (s : State) (len : Nat) (d : BitVec 5) (v : Word) : (s.finishReg len d v).down = s.down := rfl
@[simp] theorem State.finishReg_dropped (s : State) (len : Nat) (d : BitVec 5) (v : Word) : (s.finishReg len d v).dropped = s.dropped := rfl
@[simp] theorem State.finishReg_edges (s : State) (len : Nat) (d : BitVec 5) (v : Word) : (s.finishReg len d v).edges = s.edges := rfl
@[simp] theorem State.finishReg_scan (s : State) (len : Nat) (d : BitVec 5) (v : Word) : (s.finishReg len d v).scan = s.scan := rfl
@[simp] theorem State.finishReg_told (s : State) (len : Nat) (d : BitVec 5) (v : Word) : (s.finishReg len d v).told = s.told := rfl
@[simp] theorem State.finishReg_scanned (s : State) (len : Nat) (d : BitVec 5) (v : Word) : (s.finishReg len d v).scanned = s.scanned := rfl
@[simp] theorem State.finishReg_corrected (s : State) (len : Nat) (d : BitVec 5) (v : Word) : (s.finishReg len d v).corrected = s.corrected := rfl
@[simp] theorem State.finishReg_out (s : State) (len : Nat) (d : BitVec 5) (v : Word) : (s.finishReg len d v).out = s.out := rfl

@[simp] theorem State.setFlags_cycle (s : State) (f : Flags) : (s.setFlags f).cycle = s.cycle := rfl
@[simp] theorem State.setFlags_agenda (s : State) (f : Flags) : (s.setFlags f).agenda = s.agenda := rfl
@[simp] theorem State.setFlags_cur (s : State) (f : Flags) : (s.setFlags f).cur = s.cur := rfl
@[simp] theorem State.setFlags_issued (s : State) (f : Flags) : (s.setFlags f).issued = s.issued := rfl
@[simp] theorem State.setFlags_trapped (s : State) (f : Flags) : (s.setFlags f).trapped = s.trapped := rfl
@[simp] theorem State.setFlags_later (s : State) (f : Flags) : (s.setFlags f).later = s.later := rfl
@[simp] theorem State.setFlags_fresh (s : State) (f : Flags) : (s.setFlags f).fresh = s.fresh := rfl
@[simp] theorem State.setFlags_cores (s : State) (f : Flags) : (s.setFlags f).cores = s.cores := rfl
@[simp] theorem State.setFlags_tiles (s : State) (f : Flags) : (s.setFlags f).tiles = s.tiles := rfl
@[simp] theorem State.setFlags_tts (s : State) (f : Flags) : (s.setFlags f).tts = s.tts := rfl
@[simp] theorem State.setFlags_launches (s : State) (f : Flags) : (s.setFlags f).launches = s.launches := rfl
@[simp] theorem State.setFlags_homes (s : State) (f : Flags) : (s.setFlags f).homes = s.homes := rfl
@[simp] theorem State.setFlags_net (s : State) (f : Flags) : (s.setFlags f).net = s.net := rfl
@[simp] theorem State.setFlags_posted (s : State) (f : Flags) : (s.setFlags f).posted = s.posted := rfl
@[simp] theorem State.setFlags_xfers (s : State) (f : Flags) : (s.setFlags f).xfers = s.xfers := rfl
@[simp] theorem State.setFlags_hbm (s : State) (f : Flags) : (s.setFlags f).hbm = s.hbm := rfl
@[simp] theorem State.setFlags_host (s : State) (f : Flags) : (s.setFlags f).host = s.host := rfl
@[simp] theorem State.setFlags_tlbs (s : State) (f : Flags) : (s.setFlags f).tlbs = s.tlbs := rfl
@[simp] theorem State.setFlags_parts (s : State) (f : Flags) : (s.setFlags f).parts = s.parts := rfl
@[simp] theorem State.setFlags_ifaces (s : State) (f : Flags) : (s.setFlags f).ifaces = s.ifaces := rfl
@[simp] theorem State.setFlags_bundles (s : State) (f : Flags) : (s.setFlags f).bundles = s.bundles := rfl
@[simp] theorem State.setFlags_dead (s : State) (f : Flags) : (s.setFlags f).dead = s.dead := rfl
@[simp] theorem State.setFlags_routes (s : State) (f : Flags) : (s.setFlags f).routes = s.routes := rfl
@[simp] theorem State.setFlags_tags (s : State) (f : Flags) : (s.setFlags f).tags = s.tags := rfl
@[simp] theorem State.setFlags_requests (s : State) (f : Flags) : (s.setFlags f).requests = s.requests := rfl
@[simp] theorem State.setFlags_shrinking (s : State) (f : Flags) : (s.setFlags f).shrinking = s.shrinking := rfl
@[simp] theorem State.setFlags_zones (s : State) (f : Flags) : (s.setFlags f).zones = s.zones := rfl
@[simp] theorem State.setFlags_groups (s : State) (f : Flags) : (s.setFlags f).groups = s.groups := rfl
@[simp] theorem State.setFlags_dies (s : State) (f : Flags) : (s.setFlags f).dies = s.dies := rfl
@[simp] theorem State.setFlags_trained (s : State) (f : Flags) : (s.setFlags f).trained = s.trained := rfl
@[simp] theorem State.setFlags_seams (s : State) (f : Flags) : (s.setFlags f).seams = s.seams := rfl
@[simp] theorem State.setFlags_trainedAt (s : State) (f : Flags) : (s.setFlags f).trainedAt = s.trainedAt := rfl
@[simp] theorem State.setFlags_islands (s : State) (f : Flags) : (s.setFlags f).islands = s.islands := rfl
@[simp] theorem State.setFlags_boot (s : State) (f : Flags) : (s.setFlags f).boot = s.boot := rfl
@[simp] theorem State.setFlags_measures (s : State) (f : Flags) : (s.setFlags f).measures = s.measures := rfl
@[simp] theorem State.setFlags_hyper (s : State) (f : Flags) : (s.setFlags f).hyper = s.hyper := rfl
@[simp] theorem State.setFlags_hyperEntry (s : State) (f : Flags) : (s.setFlags f).hyperEntry = s.hyperEntry := rfl
@[simp] theorem State.setFlags_errors (s : State) (f : Flags) : (s.setFlags f).errors = s.errors := rfl
@[simp] theorem State.setFlags_slots (s : State) (f : Flags) : (s.setFlags f).slots = s.slots := rfl
@[simp] theorem State.setFlags_staged (s : State) (f : Flags) : (s.setFlags f).staged = s.staged := rfl
@[simp] theorem State.setFlags_commitAt (s : State) (f : Flags) : (s.setFlags f).commitAt = s.commitAt := rfl
@[simp] theorem State.setFlags_slotTime (s : State) (f : Flags) : (s.setFlags f).slotTime = s.slotTime := rfl
@[simp] theorem State.setFlags_timeStep (s : State) (f : Flags) : (s.setFlags f).timeStep = s.timeStep := rfl
@[simp] theorem State.setFlags_clock (s : State) (f : Flags) : (s.setFlags f).clock = s.clock := rfl
@[simp] theorem State.setFlags_stamps (s : State) (f : Flags) : (s.setFlags f).stamps = s.stamps := rfl
@[simp] theorem State.setFlags_down (s : State) (f : Flags) : (s.setFlags f).down = s.down := rfl
@[simp] theorem State.setFlags_dropped (s : State) (f : Flags) : (s.setFlags f).dropped = s.dropped := rfl
@[simp] theorem State.setFlags_edges (s : State) (f : Flags) : (s.setFlags f).edges = s.edges := rfl
@[simp] theorem State.setFlags_scan (s : State) (f : Flags) : (s.setFlags f).scan = s.scan := rfl
@[simp] theorem State.setFlags_told (s : State) (f : Flags) : (s.setFlags f).told = s.told := rfl
@[simp] theorem State.setFlags_scanned (s : State) (f : Flags) : (s.setFlags f).scanned = s.scanned := rfl
@[simp] theorem State.setFlags_corrected (s : State) (f : Flags) : (s.setFlags f).corrected = s.corrected := rfl
@[simp] theorem State.setFlags_out (s : State) (f : Flags) : (s.setFlags f).out = s.out := rfl

@[simp] theorem State.modTT_cycle (s : State) (t : TTId) (f : TileTask → TileTask) : (s.modTT t f).cycle = s.cycle := by unfold State.modTT; split <;> rfl
@[simp] theorem State.modTT_agenda (s : State) (t : TTId) (f : TileTask → TileTask) : (s.modTT t f).agenda = s.agenda := by unfold State.modTT; split <;> rfl
@[simp] theorem State.modTT_cur (s : State) (t : TTId) (f : TileTask → TileTask) : (s.modTT t f).cur = s.cur := by unfold State.modTT; split <;> rfl
@[simp] theorem State.modTT_issued (s : State) (t : TTId) (f : TileTask → TileTask) : (s.modTT t f).issued = s.issued := by unfold State.modTT; split <;> rfl
@[simp] theorem State.modTT_trapped (s : State) (t : TTId) (f : TileTask → TileTask) : (s.modTT t f).trapped = s.trapped := by unfold State.modTT; split <;> rfl
@[simp] theorem State.modTT_later (s : State) (t : TTId) (f : TileTask → TileTask) : (s.modTT t f).later = s.later := by unfold State.modTT; split <;> rfl
@[simp] theorem State.modTT_fresh (s : State) (t : TTId) (f : TileTask → TileTask) : (s.modTT t f).fresh = s.fresh := by unfold State.modTT; split <;> rfl
@[simp] theorem State.modTT_ctxs (s : State) (t : TTId) (f : TileTask → TileTask) : (s.modTT t f).ctxs = s.ctxs := by unfold State.modTT; split <;> rfl
@[simp] theorem State.modTT_cores (s : State) (t : TTId) (f : TileTask → TileTask) : (s.modTT t f).cores = s.cores := by unfold State.modTT; split <;> rfl
@[simp] theorem State.modTT_tiles (s : State) (t : TTId) (f : TileTask → TileTask) : (s.modTT t f).tiles = s.tiles := by unfold State.modTT; split <;> rfl
@[simp] theorem State.modTT_launches (s : State) (t : TTId) (f : TileTask → TileTask) : (s.modTT t f).launches = s.launches := by unfold State.modTT; split <;> rfl
@[simp] theorem State.modTT_homes (s : State) (t : TTId) (f : TileTask → TileTask) : (s.modTT t f).homes = s.homes := by unfold State.modTT; split <;> rfl
@[simp] theorem State.modTT_net (s : State) (t : TTId) (f : TileTask → TileTask) : (s.modTT t f).net = s.net := by unfold State.modTT; split <;> rfl
@[simp] theorem State.modTT_posted (s : State) (t : TTId) (f : TileTask → TileTask) : (s.modTT t f).posted = s.posted := by unfold State.modTT; split <;> rfl
@[simp] theorem State.modTT_xfers (s : State) (t : TTId) (f : TileTask → TileTask) : (s.modTT t f).xfers = s.xfers := by unfold State.modTT; split <;> rfl
@[simp] theorem State.modTT_hbm (s : State) (t : TTId) (f : TileTask → TileTask) : (s.modTT t f).hbm = s.hbm := by unfold State.modTT; split <;> rfl
@[simp] theorem State.modTT_host (s : State) (t : TTId) (f : TileTask → TileTask) : (s.modTT t f).host = s.host := by unfold State.modTT; split <;> rfl
@[simp] theorem State.modTT_tlbs (s : State) (t : TTId) (f : TileTask → TileTask) : (s.modTT t f).tlbs = s.tlbs := by unfold State.modTT; split <;> rfl
@[simp] theorem State.modTT_parts (s : State) (t : TTId) (f : TileTask → TileTask) : (s.modTT t f).parts = s.parts := by unfold State.modTT; split <;> rfl
@[simp] theorem State.modTT_ifaces (s : State) (t : TTId) (f : TileTask → TileTask) : (s.modTT t f).ifaces = s.ifaces := by unfold State.modTT; split <;> rfl
@[simp] theorem State.modTT_bundles (s : State) (t : TTId) (f : TileTask → TileTask) : (s.modTT t f).bundles = s.bundles := by unfold State.modTT; split <;> rfl
@[simp] theorem State.modTT_dead (s : State) (t : TTId) (f : TileTask → TileTask) : (s.modTT t f).dead = s.dead := by unfold State.modTT; split <;> rfl
@[simp] theorem State.modTT_routes (s : State) (t : TTId) (f : TileTask → TileTask) : (s.modTT t f).routes = s.routes := by unfold State.modTT; split <;> rfl
@[simp] theorem State.modTT_tags (s : State) (t : TTId) (f : TileTask → TileTask) : (s.modTT t f).tags = s.tags := by unfold State.modTT; split <;> rfl
@[simp] theorem State.modTT_requests (s : State) (t : TTId) (f : TileTask → TileTask) : (s.modTT t f).requests = s.requests := by unfold State.modTT; split <;> rfl
@[simp] theorem State.modTT_shrinking (s : State) (t : TTId) (f : TileTask → TileTask) : (s.modTT t f).shrinking = s.shrinking := by unfold State.modTT; split <;> rfl
@[simp] theorem State.modTT_zones (s : State) (t : TTId) (f : TileTask → TileTask) : (s.modTT t f).zones = s.zones := by unfold State.modTT; split <;> rfl
@[simp] theorem State.modTT_groups (s : State) (t : TTId) (f : TileTask → TileTask) : (s.modTT t f).groups = s.groups := by unfold State.modTT; split <;> rfl
@[simp] theorem State.modTT_dies (s : State) (t : TTId) (f : TileTask → TileTask) : (s.modTT t f).dies = s.dies := by unfold State.modTT; split <;> rfl
@[simp] theorem State.modTT_trained (s : State) (t : TTId) (f : TileTask → TileTask) : (s.modTT t f).trained = s.trained := by unfold State.modTT; split <;> rfl
@[simp] theorem State.modTT_seams (s : State) (t : TTId) (f : TileTask → TileTask) : (s.modTT t f).seams = s.seams := by unfold State.modTT; split <;> rfl
@[simp] theorem State.modTT_trainedAt (s : State) (t : TTId) (f : TileTask → TileTask) : (s.modTT t f).trainedAt = s.trainedAt := by unfold State.modTT; split <;> rfl
@[simp] theorem State.modTT_islands (s : State) (t : TTId) (f : TileTask → TileTask) : (s.modTT t f).islands = s.islands := by unfold State.modTT; split <;> rfl
@[simp] theorem State.modTT_boot (s : State) (t : TTId) (f : TileTask → TileTask) : (s.modTT t f).boot = s.boot := by unfold State.modTT; split <;> rfl
@[simp] theorem State.modTT_measures (s : State) (t : TTId) (f : TileTask → TileTask) : (s.modTT t f).measures = s.measures := by unfold State.modTT; split <;> rfl
@[simp] theorem State.modTT_hyper (s : State) (t : TTId) (f : TileTask → TileTask) : (s.modTT t f).hyper = s.hyper := by unfold State.modTT; split <;> rfl
@[simp] theorem State.modTT_hyperEntry (s : State) (t : TTId) (f : TileTask → TileTask) : (s.modTT t f).hyperEntry = s.hyperEntry := by unfold State.modTT; split <;> rfl
@[simp] theorem State.modTT_errors (s : State) (t : TTId) (f : TileTask → TileTask) : (s.modTT t f).errors = s.errors := by unfold State.modTT; split <;> rfl
@[simp] theorem State.modTT_slots (s : State) (t : TTId) (f : TileTask → TileTask) : (s.modTT t f).slots = s.slots := by unfold State.modTT; split <;> rfl
@[simp] theorem State.modTT_staged (s : State) (t : TTId) (f : TileTask → TileTask) : (s.modTT t f).staged = s.staged := by unfold State.modTT; split <;> rfl
@[simp] theorem State.modTT_commitAt (s : State) (t : TTId) (f : TileTask → TileTask) : (s.modTT t f).commitAt = s.commitAt := by unfold State.modTT; split <;> rfl
@[simp] theorem State.modTT_slotTime (s : State) (t : TTId) (f : TileTask → TileTask) : (s.modTT t f).slotTime = s.slotTime := by unfold State.modTT; split <;> rfl
@[simp] theorem State.modTT_timeStep (s : State) (t : TTId) (f : TileTask → TileTask) : (s.modTT t f).timeStep = s.timeStep := by unfold State.modTT; split <;> rfl
@[simp] theorem State.modTT_clock (s : State) (t : TTId) (f : TileTask → TileTask) : (s.modTT t f).clock = s.clock := by unfold State.modTT; split <;> rfl
@[simp] theorem State.modTT_stamps (s : State) (t : TTId) (f : TileTask → TileTask) : (s.modTT t f).stamps = s.stamps := by unfold State.modTT; split <;> rfl
@[simp] theorem State.modTT_down (s : State) (t : TTId) (f : TileTask → TileTask) : (s.modTT t f).down = s.down := by unfold State.modTT; split <;> rfl
@[simp] theorem State.modTT_dropped (s : State) (t : TTId) (f : TileTask → TileTask) : (s.modTT t f).dropped = s.dropped := by unfold State.modTT; split <;> rfl
@[simp] theorem State.modTT_edges (s : State) (t : TTId) (f : TileTask → TileTask) : (s.modTT t f).edges = s.edges := by unfold State.modTT; split <;> rfl
@[simp] theorem State.modTT_scan (s : State) (t : TTId) (f : TileTask → TileTask) : (s.modTT t f).scan = s.scan := by unfold State.modTT; split <;> rfl
@[simp] theorem State.modTT_told (s : State) (t : TTId) (f : TileTask → TileTask) : (s.modTT t f).told = s.told := by unfold State.modTT; split <;> rfl
@[simp] theorem State.modTT_scanned (s : State) (t : TTId) (f : TileTask → TileTask) : (s.modTT t f).scanned = s.scanned := by unfold State.modTT; split <;> rfl
@[simp] theorem State.modTT_corrected (s : State) (t : TTId) (f : TileTask → TileTask) : (s.modTT t f).corrected = s.corrected := by unfold State.modTT; split <;> rfl
@[simp] theorem State.modTT_out (s : State) (t : TTId) (f : TileTask → TileTask) : (s.modTT t f).out = s.out := by unfold State.modTT; split <;> rfl

@[simp] theorem State.modLaunch_cycle (s : State) (l : Nat) (f : Launch → Launch) : (s.modLaunch l f).cycle = s.cycle := by unfold State.modLaunch; split <;> rfl
@[simp] theorem State.modLaunch_agenda (s : State) (l : Nat) (f : Launch → Launch) : (s.modLaunch l f).agenda = s.agenda := by unfold State.modLaunch; split <;> rfl
@[simp] theorem State.modLaunch_cur (s : State) (l : Nat) (f : Launch → Launch) : (s.modLaunch l f).cur = s.cur := by unfold State.modLaunch; split <;> rfl
@[simp] theorem State.modLaunch_issued (s : State) (l : Nat) (f : Launch → Launch) : (s.modLaunch l f).issued = s.issued := by unfold State.modLaunch; split <;> rfl
@[simp] theorem State.modLaunch_trapped (s : State) (l : Nat) (f : Launch → Launch) : (s.modLaunch l f).trapped = s.trapped := by unfold State.modLaunch; split <;> rfl
@[simp] theorem State.modLaunch_later (s : State) (l : Nat) (f : Launch → Launch) : (s.modLaunch l f).later = s.later := by unfold State.modLaunch; split <;> rfl
@[simp] theorem State.modLaunch_fresh (s : State) (l : Nat) (f : Launch → Launch) : (s.modLaunch l f).fresh = s.fresh := by unfold State.modLaunch; split <;> rfl
@[simp] theorem State.modLaunch_ctxs (s : State) (l : Nat) (f : Launch → Launch) : (s.modLaunch l f).ctxs = s.ctxs := by unfold State.modLaunch; split <;> rfl
@[simp] theorem State.modLaunch_cores (s : State) (l : Nat) (f : Launch → Launch) : (s.modLaunch l f).cores = s.cores := by unfold State.modLaunch; split <;> rfl
@[simp] theorem State.modLaunch_tiles (s : State) (l : Nat) (f : Launch → Launch) : (s.modLaunch l f).tiles = s.tiles := by unfold State.modLaunch; split <;> rfl
@[simp] theorem State.modLaunch_tts (s : State) (l : Nat) (f : Launch → Launch) : (s.modLaunch l f).tts = s.tts := by unfold State.modLaunch; split <;> rfl
@[simp] theorem State.modLaunch_homes (s : State) (l : Nat) (f : Launch → Launch) : (s.modLaunch l f).homes = s.homes := by unfold State.modLaunch; split <;> rfl
@[simp] theorem State.modLaunch_net (s : State) (l : Nat) (f : Launch → Launch) : (s.modLaunch l f).net = s.net := by unfold State.modLaunch; split <;> rfl
@[simp] theorem State.modLaunch_posted (s : State) (l : Nat) (f : Launch → Launch) : (s.modLaunch l f).posted = s.posted := by unfold State.modLaunch; split <;> rfl
@[simp] theorem State.modLaunch_xfers (s : State) (l : Nat) (f : Launch → Launch) : (s.modLaunch l f).xfers = s.xfers := by unfold State.modLaunch; split <;> rfl
@[simp] theorem State.modLaunch_hbm (s : State) (l : Nat) (f : Launch → Launch) : (s.modLaunch l f).hbm = s.hbm := by unfold State.modLaunch; split <;> rfl
@[simp] theorem State.modLaunch_host (s : State) (l : Nat) (f : Launch → Launch) : (s.modLaunch l f).host = s.host := by unfold State.modLaunch; split <;> rfl
@[simp] theorem State.modLaunch_tlbs (s : State) (l : Nat) (f : Launch → Launch) : (s.modLaunch l f).tlbs = s.tlbs := by unfold State.modLaunch; split <;> rfl
@[simp] theorem State.modLaunch_parts (s : State) (l : Nat) (f : Launch → Launch) : (s.modLaunch l f).parts = s.parts := by unfold State.modLaunch; split <;> rfl
@[simp] theorem State.modLaunch_ifaces (s : State) (l : Nat) (f : Launch → Launch) : (s.modLaunch l f).ifaces = s.ifaces := by unfold State.modLaunch; split <;> rfl
@[simp] theorem State.modLaunch_bundles (s : State) (l : Nat) (f : Launch → Launch) : (s.modLaunch l f).bundles = s.bundles := by unfold State.modLaunch; split <;> rfl
@[simp] theorem State.modLaunch_dead (s : State) (l : Nat) (f : Launch → Launch) : (s.modLaunch l f).dead = s.dead := by unfold State.modLaunch; split <;> rfl
@[simp] theorem State.modLaunch_routes (s : State) (l : Nat) (f : Launch → Launch) : (s.modLaunch l f).routes = s.routes := by unfold State.modLaunch; split <;> rfl
@[simp] theorem State.modLaunch_tags (s : State) (l : Nat) (f : Launch → Launch) : (s.modLaunch l f).tags = s.tags := by unfold State.modLaunch; split <;> rfl
@[simp] theorem State.modLaunch_requests (s : State) (l : Nat) (f : Launch → Launch) : (s.modLaunch l f).requests = s.requests := by unfold State.modLaunch; split <;> rfl
@[simp] theorem State.modLaunch_shrinking (s : State) (l : Nat) (f : Launch → Launch) : (s.modLaunch l f).shrinking = s.shrinking := by unfold State.modLaunch; split <;> rfl
@[simp] theorem State.modLaunch_zones (s : State) (l : Nat) (f : Launch → Launch) : (s.modLaunch l f).zones = s.zones := by unfold State.modLaunch; split <;> rfl
@[simp] theorem State.modLaunch_groups (s : State) (l : Nat) (f : Launch → Launch) : (s.modLaunch l f).groups = s.groups := by unfold State.modLaunch; split <;> rfl
@[simp] theorem State.modLaunch_dies (s : State) (l : Nat) (f : Launch → Launch) : (s.modLaunch l f).dies = s.dies := by unfold State.modLaunch; split <;> rfl
@[simp] theorem State.modLaunch_trained (s : State) (l : Nat) (f : Launch → Launch) : (s.modLaunch l f).trained = s.trained := by unfold State.modLaunch; split <;> rfl
@[simp] theorem State.modLaunch_seams (s : State) (l : Nat) (f : Launch → Launch) : (s.modLaunch l f).seams = s.seams := by unfold State.modLaunch; split <;> rfl
@[simp] theorem State.modLaunch_trainedAt (s : State) (l : Nat) (f : Launch → Launch) : (s.modLaunch l f).trainedAt = s.trainedAt := by unfold State.modLaunch; split <;> rfl
@[simp] theorem State.modLaunch_islands (s : State) (l : Nat) (f : Launch → Launch) : (s.modLaunch l f).islands = s.islands := by unfold State.modLaunch; split <;> rfl
@[simp] theorem State.modLaunch_boot (s : State) (l : Nat) (f : Launch → Launch) : (s.modLaunch l f).boot = s.boot := by unfold State.modLaunch; split <;> rfl
@[simp] theorem State.modLaunch_measures (s : State) (l : Nat) (f : Launch → Launch) : (s.modLaunch l f).measures = s.measures := by unfold State.modLaunch; split <;> rfl
@[simp] theorem State.modLaunch_hyper (s : State) (l : Nat) (f : Launch → Launch) : (s.modLaunch l f).hyper = s.hyper := by unfold State.modLaunch; split <;> rfl
@[simp] theorem State.modLaunch_hyperEntry (s : State) (l : Nat) (f : Launch → Launch) : (s.modLaunch l f).hyperEntry = s.hyperEntry := by unfold State.modLaunch; split <;> rfl
@[simp] theorem State.modLaunch_errors (s : State) (l : Nat) (f : Launch → Launch) : (s.modLaunch l f).errors = s.errors := by unfold State.modLaunch; split <;> rfl
@[simp] theorem State.modLaunch_slots (s : State) (l : Nat) (f : Launch → Launch) : (s.modLaunch l f).slots = s.slots := by unfold State.modLaunch; split <;> rfl
@[simp] theorem State.modLaunch_staged (s : State) (l : Nat) (f : Launch → Launch) : (s.modLaunch l f).staged = s.staged := by unfold State.modLaunch; split <;> rfl
@[simp] theorem State.modLaunch_commitAt (s : State) (l : Nat) (f : Launch → Launch) : (s.modLaunch l f).commitAt = s.commitAt := by unfold State.modLaunch; split <;> rfl
@[simp] theorem State.modLaunch_slotTime (s : State) (l : Nat) (f : Launch → Launch) : (s.modLaunch l f).slotTime = s.slotTime := by unfold State.modLaunch; split <;> rfl
@[simp] theorem State.modLaunch_timeStep (s : State) (l : Nat) (f : Launch → Launch) : (s.modLaunch l f).timeStep = s.timeStep := by unfold State.modLaunch; split <;> rfl
@[simp] theorem State.modLaunch_clock (s : State) (l : Nat) (f : Launch → Launch) : (s.modLaunch l f).clock = s.clock := by unfold State.modLaunch; split <;> rfl
@[simp] theorem State.modLaunch_stamps (s : State) (l : Nat) (f : Launch → Launch) : (s.modLaunch l f).stamps = s.stamps := by unfold State.modLaunch; split <;> rfl
@[simp] theorem State.modLaunch_down (s : State) (l : Nat) (f : Launch → Launch) : (s.modLaunch l f).down = s.down := by unfold State.modLaunch; split <;> rfl
@[simp] theorem State.modLaunch_dropped (s : State) (l : Nat) (f : Launch → Launch) : (s.modLaunch l f).dropped = s.dropped := by unfold State.modLaunch; split <;> rfl
@[simp] theorem State.modLaunch_edges (s : State) (l : Nat) (f : Launch → Launch) : (s.modLaunch l f).edges = s.edges := by unfold State.modLaunch; split <;> rfl
@[simp] theorem State.modLaunch_scan (s : State) (l : Nat) (f : Launch → Launch) : (s.modLaunch l f).scan = s.scan := by unfold State.modLaunch; split <;> rfl
@[simp] theorem State.modLaunch_told (s : State) (l : Nat) (f : Launch → Launch) : (s.modLaunch l f).told = s.told := by unfold State.modLaunch; split <;> rfl
@[simp] theorem State.modLaunch_scanned (s : State) (l : Nat) (f : Launch → Launch) : (s.modLaunch l f).scanned = s.scanned := by unfold State.modLaunch; split <;> rfl
@[simp] theorem State.modLaunch_corrected (s : State) (l : Nat) (f : Launch → Launch) : (s.modLaunch l f).corrected = s.corrected := by unfold State.modLaunch; split <;> rfl
@[simp] theorem State.modLaunch_out (s : State) (l : Nat) (f : Launch → Launch) : (s.modLaunch l f).out = s.out := by unfold State.modLaunch; split <;> rfl

@[simp] theorem State.modPart_cycle (s : State) (t : BitVec 8) (f : Partition → Partition) : (s.modPart t f).cycle = s.cycle := by unfold State.modPart; split <;> rfl
@[simp] theorem State.modPart_agenda (s : State) (t : BitVec 8) (f : Partition → Partition) : (s.modPart t f).agenda = s.agenda := by unfold State.modPart; split <;> rfl
@[simp] theorem State.modPart_cur (s : State) (t : BitVec 8) (f : Partition → Partition) : (s.modPart t f).cur = s.cur := by unfold State.modPart; split <;> rfl
@[simp] theorem State.modPart_issued (s : State) (t : BitVec 8) (f : Partition → Partition) : (s.modPart t f).issued = s.issued := by unfold State.modPart; split <;> rfl
@[simp] theorem State.modPart_trapped (s : State) (t : BitVec 8) (f : Partition → Partition) : (s.modPart t f).trapped = s.trapped := by unfold State.modPart; split <;> rfl
@[simp] theorem State.modPart_later (s : State) (t : BitVec 8) (f : Partition → Partition) : (s.modPart t f).later = s.later := by unfold State.modPart; split <;> rfl
@[simp] theorem State.modPart_fresh (s : State) (t : BitVec 8) (f : Partition → Partition) : (s.modPart t f).fresh = s.fresh := by unfold State.modPart; split <;> rfl
@[simp] theorem State.modPart_ctxs (s : State) (t : BitVec 8) (f : Partition → Partition) : (s.modPart t f).ctxs = s.ctxs := by unfold State.modPart; split <;> rfl
@[simp] theorem State.modPart_cores (s : State) (t : BitVec 8) (f : Partition → Partition) : (s.modPart t f).cores = s.cores := by unfold State.modPart; split <;> rfl
@[simp] theorem State.modPart_tiles (s : State) (t : BitVec 8) (f : Partition → Partition) : (s.modPart t f).tiles = s.tiles := by unfold State.modPart; split <;> rfl
@[simp] theorem State.modPart_tts (s : State) (t : BitVec 8) (f : Partition → Partition) : (s.modPart t f).tts = s.tts := by unfold State.modPart; split <;> rfl
@[simp] theorem State.modPart_launches (s : State) (t : BitVec 8) (f : Partition → Partition) : (s.modPart t f).launches = s.launches := by unfold State.modPart; split <;> rfl
@[simp] theorem State.modPart_homes (s : State) (t : BitVec 8) (f : Partition → Partition) : (s.modPart t f).homes = s.homes := by unfold State.modPart; split <;> rfl
@[simp] theorem State.modPart_net (s : State) (t : BitVec 8) (f : Partition → Partition) : (s.modPart t f).net = s.net := by unfold State.modPart; split <;> rfl
@[simp] theorem State.modPart_posted (s : State) (t : BitVec 8) (f : Partition → Partition) : (s.modPart t f).posted = s.posted := by unfold State.modPart; split <;> rfl
@[simp] theorem State.modPart_xfers (s : State) (t : BitVec 8) (f : Partition → Partition) : (s.modPart t f).xfers = s.xfers := by unfold State.modPart; split <;> rfl
@[simp] theorem State.modPart_hbm (s : State) (t : BitVec 8) (f : Partition → Partition) : (s.modPart t f).hbm = s.hbm := by unfold State.modPart; split <;> rfl
@[simp] theorem State.modPart_host (s : State) (t : BitVec 8) (f : Partition → Partition) : (s.modPart t f).host = s.host := by unfold State.modPart; split <;> rfl
@[simp] theorem State.modPart_tlbs (s : State) (t : BitVec 8) (f : Partition → Partition) : (s.modPart t f).tlbs = s.tlbs := by unfold State.modPart; split <;> rfl
@[simp] theorem State.modPart_ifaces (s : State) (t : BitVec 8) (f : Partition → Partition) : (s.modPart t f).ifaces = s.ifaces := by unfold State.modPart; split <;> rfl
@[simp] theorem State.modPart_bundles (s : State) (t : BitVec 8) (f : Partition → Partition) : (s.modPart t f).bundles = s.bundles := by unfold State.modPart; split <;> rfl
@[simp] theorem State.modPart_dead (s : State) (t : BitVec 8) (f : Partition → Partition) : (s.modPart t f).dead = s.dead := by unfold State.modPart; split <;> rfl
@[simp] theorem State.modPart_routes (s : State) (t : BitVec 8) (f : Partition → Partition) : (s.modPart t f).routes = s.routes := by unfold State.modPart; split <;> rfl
@[simp] theorem State.modPart_tags (s : State) (t : BitVec 8) (f : Partition → Partition) : (s.modPart t f).tags = s.tags := by unfold State.modPart; split <;> rfl
@[simp] theorem State.modPart_requests (s : State) (t : BitVec 8) (f : Partition → Partition) : (s.modPart t f).requests = s.requests := by unfold State.modPart; split <;> rfl
@[simp] theorem State.modPart_shrinking (s : State) (t : BitVec 8) (f : Partition → Partition) : (s.modPart t f).shrinking = s.shrinking := by unfold State.modPart; split <;> rfl
@[simp] theorem State.modPart_zones (s : State) (t : BitVec 8) (f : Partition → Partition) : (s.modPart t f).zones = s.zones := by unfold State.modPart; split <;> rfl
@[simp] theorem State.modPart_groups (s : State) (t : BitVec 8) (f : Partition → Partition) : (s.modPart t f).groups = s.groups := by unfold State.modPart; split <;> rfl
@[simp] theorem State.modPart_dies (s : State) (t : BitVec 8) (f : Partition → Partition) : (s.modPart t f).dies = s.dies := by unfold State.modPart; split <;> rfl
@[simp] theorem State.modPart_trained (s : State) (t : BitVec 8) (f : Partition → Partition) : (s.modPart t f).trained = s.trained := by unfold State.modPart; split <;> rfl
@[simp] theorem State.modPart_seams (s : State) (t : BitVec 8) (f : Partition → Partition) : (s.modPart t f).seams = s.seams := by unfold State.modPart; split <;> rfl
@[simp] theorem State.modPart_trainedAt (s : State) (t : BitVec 8) (f : Partition → Partition) : (s.modPart t f).trainedAt = s.trainedAt := by unfold State.modPart; split <;> rfl
@[simp] theorem State.modPart_islands (s : State) (t : BitVec 8) (f : Partition → Partition) : (s.modPart t f).islands = s.islands := by unfold State.modPart; split <;> rfl
@[simp] theorem State.modPart_boot (s : State) (t : BitVec 8) (f : Partition → Partition) : (s.modPart t f).boot = s.boot := by unfold State.modPart; split <;> rfl
@[simp] theorem State.modPart_measures (s : State) (t : BitVec 8) (f : Partition → Partition) : (s.modPart t f).measures = s.measures := by unfold State.modPart; split <;> rfl
@[simp] theorem State.modPart_hyper (s : State) (t : BitVec 8) (f : Partition → Partition) : (s.modPart t f).hyper = s.hyper := by unfold State.modPart; split <;> rfl
@[simp] theorem State.modPart_hyperEntry (s : State) (t : BitVec 8) (f : Partition → Partition) : (s.modPart t f).hyperEntry = s.hyperEntry := by unfold State.modPart; split <;> rfl
@[simp] theorem State.modPart_errors (s : State) (t : BitVec 8) (f : Partition → Partition) : (s.modPart t f).errors = s.errors := by unfold State.modPart; split <;> rfl
@[simp] theorem State.modPart_slots (s : State) (t : BitVec 8) (f : Partition → Partition) : (s.modPart t f).slots = s.slots := by unfold State.modPart; split <;> rfl
@[simp] theorem State.modPart_staged (s : State) (t : BitVec 8) (f : Partition → Partition) : (s.modPart t f).staged = s.staged := by unfold State.modPart; split <;> rfl
@[simp] theorem State.modPart_commitAt (s : State) (t : BitVec 8) (f : Partition → Partition) : (s.modPart t f).commitAt = s.commitAt := by unfold State.modPart; split <;> rfl
@[simp] theorem State.modPart_slotTime (s : State) (t : BitVec 8) (f : Partition → Partition) : (s.modPart t f).slotTime = s.slotTime := by unfold State.modPart; split <;> rfl
@[simp] theorem State.modPart_timeStep (s : State) (t : BitVec 8) (f : Partition → Partition) : (s.modPart t f).timeStep = s.timeStep := by unfold State.modPart; split <;> rfl
@[simp] theorem State.modPart_clock (s : State) (t : BitVec 8) (f : Partition → Partition) : (s.modPart t f).clock = s.clock := by unfold State.modPart; split <;> rfl
@[simp] theorem State.modPart_stamps (s : State) (t : BitVec 8) (f : Partition → Partition) : (s.modPart t f).stamps = s.stamps := by unfold State.modPart; split <;> rfl
@[simp] theorem State.modPart_down (s : State) (t : BitVec 8) (f : Partition → Partition) : (s.modPart t f).down = s.down := by unfold State.modPart; split <;> rfl
@[simp] theorem State.modPart_dropped (s : State) (t : BitVec 8) (f : Partition → Partition) : (s.modPart t f).dropped = s.dropped := by unfold State.modPart; split <;> rfl
@[simp] theorem State.modPart_edges (s : State) (t : BitVec 8) (f : Partition → Partition) : (s.modPart t f).edges = s.edges := by unfold State.modPart; split <;> rfl
@[simp] theorem State.modPart_scan (s : State) (t : BitVec 8) (f : Partition → Partition) : (s.modPart t f).scan = s.scan := by unfold State.modPart; split <;> rfl
@[simp] theorem State.modPart_told (s : State) (t : BitVec 8) (f : Partition → Partition) : (s.modPart t f).told = s.told := by unfold State.modPart; split <;> rfl
@[simp] theorem State.modPart_scanned (s : State) (t : BitVec 8) (f : Partition → Partition) : (s.modPart t f).scanned = s.scanned := by unfold State.modPart; split <;> rfl
@[simp] theorem State.modPart_corrected (s : State) (t : BitVec 8) (f : Partition → Partition) : (s.modPart t f).corrected = s.corrected := by unfold State.modPart; split <;> rfl
@[simp] theorem State.modPart_out (s : State) (t : BitVec 8) (f : Partition → Partition) : (s.modPart t f).out = s.out := by unfold State.modPart; split <;> rfl

end Sys2Proof.Machine
end

