-- ==== Sys2Proof/Laws/Ops.lean ====
section
/-! SUPPORT. One lemma for each of the named operations: reading a part of the state after it is replaced, registers, the completion of a unit, the decode
tests, and where a trap leaves the other contexts. -/

namespace Sys2Proof.Machine

/-! ### Parts of the state -/

@[simp] theorem State.ctx_setCtx_self (s : State) (id : CtxId) (c : Ctx) : (s.setCtx id c).ctx id = c := by simp [State.ctx, State.setCtx]

theorem State.ctx_setCtx_ne (s : State) {id x : CtxId} (c : Ctx) (h : x ≠ id) : (s.setCtx id c).ctx x = s.ctx x := by
  simp [State.ctx, State.setCtx, Map.get?_set_ne _ _ h]

@[simp] theorem State.setCtx_setCtx (s : State) (id : CtxId) (c d : Ctx) : (s.setCtx id c).setCtx id d = s.setCtx id d := by simp [State.setCtx]

theorem State.modCtx_eq (s : State) (id : CtxId) (f : Ctx → Ctx) : s.modCtx id f = s.setCtx id (f (s.ctx id)) := rfl

@[simp] theorem State.ctx_modCtx_self (s : State) (id : CtxId) (f : Ctx → Ctx) : (s.modCtx id f).ctx id = f (s.ctx id) := by simp [State.modCtx]

theorem State.ctx_modCtx_ne (s : State) {id x : CtxId} (f : Ctx → Ctx) (h : x ≠ id) : (s.modCtx id f).ctx x = s.ctx x := State.ctx_setCtx_ne _ _ h

@[simp] theorem State.core_setCore_self (s : State) (id : CoreId) (k : Core) : (s.setCore id k).core id = k := by simp [State.core, State.setCore]

theorem State.core_setCore_ne (s : State) {id x : CoreId} (k : Core) (h : x ≠ id) : (s.setCore id k).core x = s.core x := by
  simp [State.core, State.setCore, Map.getD_set_ne _ _ _ h]

@[simp] theorem State.core_modCore_self (s : State) (id : CoreId) (f : Core → Core) : (s.modCore id f).core id = f (s.core id) := by simp [State.modCore]

theorem State.core_modCore_ne (s : State) {id x : CoreId} (f : Core → Core) (h : x ≠ id) : (s.modCore id f).core x = s.core x :=
  State.core_setCore_ne _ _ h

@[simp] theorem State.core_setCtx (s : State) (id : CtxId) (c : Ctx) (x : CoreId) : (s.setCtx id c).core x = s.core x := rfl

@[simp] theorem State.core_modCtx (s : State) (id : CtxId) (f : Ctx → Ctx) (x : CoreId) : (s.modCtx id f).core x = s.core x := rfl

@[simp] theorem State.ctx_modCore (s : State) (id : CoreId) (f : Core → Core) (x : CtxId) : (s.modCore id f).ctx x = s.ctx x := rfl

@[simp] theorem State.ctx_modTile (s : State) (id : TileId) (f : Tile → Tile) (x : CtxId) : (s.modTile id f).ctx x = s.ctx x := rfl

@[simp] theorem State.core_modTile (s : State) (id : TileId) (f : Tile → Tile) (x : CoreId) : (s.modTile id f).core x = s.core x := rfl

@[simp] theorem State.tile_modTile_self (s : State) (id : TileId) (f : Tile → Tile) : (s.modTile id f).tile id = f (s.tile id) := by
  simp [State.tile, State.modTile, State.setTile]

theorem State.tile_modTile_ne (s : State) {id x : TileId} (f : Tile → Tile) (h : x ≠ id) : (s.modTile id f).tile x = s.tile x := by
  simp [State.tile, State.modTile, State.setTile, Map.getD_set_ne _ _ _ h]

@[simp] theorem State.tile_modCtx (s : State) (id : CtxId) (f : Ctx → Ctx) (x : TileId) : (s.modCtx id f).tile x = s.tile x := rfl

@[simp] theorem State.tile_modCore (s : State) (id : CoreId) (f : Core → Core) (x : TileId) : (s.modCore id f).tile x = s.tile x := rfl

@[simp] theorem State.home_modHome_self (s : State) (h : Home) (f : HomeSt → HomeSt) : (s.modHome h f).home h = f (s.home h) := by
  simp [State.home, State.modHome]

theorem State.home_modHome_ne (s : State) {h x : Home} (f : HomeSt → HomeSt) (hx : x ≠ h) : (s.modHome h f).home x = s.home x := by
  simp [State.home, State.modHome, Map.getD_set_ne _ _ _ hx]

@[simp] theorem State.here_modCtx (s : State) (f : Ctx → Ctx) : (s.modCtx s.cur f).here = f s.here := by
  simp [State.here]

@[simp] theorem State.here_setCtx (s : State) (c : Ctx) : (s.setCtx s.cur c).here = c := by simp [State.here]

/-! ### Registers -/

theorem Ctx.reg_zero (c : Ctx) : c.reg 0 = 0 := by simp [Ctx.reg]

theorem Ctx.setReg_zero (c : Ctx) (v : Word) : c.setReg 0 v = c := by simp [Ctx.setReg]

theorem Vector.getD_setIfInBounds {α : Type} {n : Nat} (v : Vector α n) (i j : Nat) (x y : α) :
    (v.setIfInBounds i x).getD j y = if i = j ∧ j < n then x else v.getD j y := by
  have hg : ∀ w : Vector α n, w.getD j y = w[j]?.getD y := fun w => by simp [Vector.getD]
  rw [hg, hg, Vector.getElem?_setIfInBounds]
  by_cases hij : i = j
  · subst hij
    by_cases hn : i < n
    · simp [hn]
    · simp [hn]
  · simp [hij]

/-- A register after a register is written (02 R66, R67). -/
theorem Ctx.reg_setReg (c : Ctx) (d n : BitVec 5) (v : Word) : (c.setReg d v).reg n = if n = d ∧ d ≠ 0 then v else c.reg n := by
  by_cases hd : d = 0
  · rw [hd, Ctx.setReg_zero, if_neg (fun h => h.2 rfl)]
  · by_cases hn : n = 0
    · have h : ¬ (n = d ∧ d ≠ 0) := fun h => hd (h.1 ▸ hn)
      rw [if_neg h, hn, Ctx.reg_zero, Ctx.reg_zero]
    · have hlt : n.toNat < 32 := n.isLt
      have hdt : d.toNat < 32 := d.isLt
      have hiff : d.toNat = n.toNat ↔ n = d := ⟨fun h => (BitVec.eq_of_toNat_eq h).symm, fun h => by rw [h]⟩
      unfold Ctx.setReg
      rw [if_neg hd]
      by_cases hu : c.uih = true
      · by_cases h1 : 24 ≤ d.toNat <;> by_cases h2 : 24 ≤ n.toNat
        · have hs : d.toNat - 24 = n.toNat - 24 ↔ n = d := ⟨fun h => hiff.mp (by omega), fun h => by rw [h]⟩
          simp only [Ctx.reg, if_neg hn, hu, h1, h2, decide_true, Bool.and_true, if_true, Vector.getD_setIfInBounds, hs]
          by_cases hnd : n = d
          · have : d.toNat - 24 < 8 := by omega
            subst hnd; rw [if_pos ⟨rfl, this⟩, if_pos ⟨rfl, hd⟩]
          · simp [hnd]
        · have hne : ¬ n = d := fun h => h2 (h ▸ h1)
          simp only [Ctx.reg, if_neg hn, hu, h1, h2, hne, decide_true, decide_false, Bool.and_true, Bool.and_false, if_true, false_and, if_false, Bool.false_eq_true]
        · have hne : ¬ n = d := fun h => h1 (h ▸ h2)
          simp only [Ctx.reg, if_neg hn, hu, h1, h2, hne, decide_true, decide_false, Bool.and_true, Bool.and_false, if_true, false_and, if_false, Bool.false_eq_true]
        · simp only [Ctx.reg, if_neg hn, hu, h1, h2, decide_false, Bool.and_false, if_false, Bool.false_eq_true, Vector.getD_setIfInBounds, hiff, hlt, and_true]
          by_cases hnd : n = d
          · rw [if_pos hnd, if_pos ⟨hnd, hd⟩]
          · simp [hnd]
      · simp only [Bool.not_eq_true] at hu
        simp only [Ctx.reg, if_neg hn, hu, Bool.false_and, if_false, Bool.false_eq_true, Vector.getD_setIfInBounds, hiff, hlt, and_true]
        by_cases hnd : n = d
        · rw [if_pos hnd, if_pos ⟨hnd, hd⟩]
        · simp [hnd]

/-! ### Units -/

/-- What the decode tests let through (02 R60). -/
theorem unit_eq (f : Form) (s : State) (k : State → State) (hm : s.here.maskedFeature f.feats = none) (hr : f.roles.contains s.cur.core.r = true)
    (hl : f.level ≤ s.here.level.toNat) : unit f s k = .next (k { s with trapped := none }) := by
  have h1 : ¬ f.roles.contains s.cur.core.r = false := by rw [hr]; exact Bool.noConfusion
  show Host.Outcome.next (State.unitOn s f k) = _
  have h2 : State.unitOn s f k = match s.here.maskedFeature f.feats with
      | some n => State.trap { s with trapped := none } causeMasked ((f.bits <<< 32) ||| BitVec.ofNat 64 n)
      | none =>
        if f.roles.contains s.cur.core.r = false then State.trap { s with trapped := none } causeRole f.bits
        else if s.here.level.toNat < f.level then State.trap { s with trapped := none } causePriv f.bits
        else k { s with trapped := none } := rfl
  rw [h2, hm]
  simp only [if_neg h1, if_neg (Nat.not_lt.mpr hl)]

/-- A unit of every role and level, without features, always runs. -/
theorem unit_free (f : Form) (s : State) (k : State → State) (hf : f.feats = []) (hr : f.roles = everyRole) (hl : f.level = 0) :
    unit f s k = .next (k { s with trapped := none }) := by
  refine unit_eq f s k ?_ ?_ ?_
  · rw [hf]; unfold Ctx.maskedFeature; split <;> rfl
  · rw [hr]; cases s.cur.core.r <;> rfl
  · rw [hl]; exact Nat.zero_le _

/-- What completing a unit changes in its context (04 R110, R136). -/
theorem Ctx.complete_frame (c : Ctx) (level : BitVec 2) (next : Word) :
    c.complete level next =
      { c with pc := (c.complete level next).pc, loop := (c.complete level next).loop, count := (c.complete level next).count, phase := .run, waited := 0 } := by
  unfold Ctx.complete Ctx.jump Ctx.counted
  repeat' split
  all_goals rfl

/-- Completing a unit writes no register. -/
@[simp] theorem Ctx.reg_complete (c : Ctx) (level : BitVec 2) (next : Word) (n : BitVec 5) : (c.complete level next).reg n = c.reg n := by
  rw [Ctx.complete_frame]; rfl

end Sys2Proof.Machine
end

