-- ==== Sys2Proof/Laws/PerInstr.lean ====
section
/-! SUPPORT. For every constructor: what the encoder writes is what the decoder's candidate reads back, with every operand (02 R39, R47 to R59). -/

set_option Elab.async false
set_option linter.unusedSimpArgs false

namespace Sys2Proof.Laws

open Sys2Proof

/-- A field that lies in the upper part of an append. -/
theorem extract_hi {n m : Nat} (x : BitVec n) (y : BitVec m) (s l : Nat) (h : m ≤ s) : (x ++ y).extractLsb' s l = x.extractLsb' (s - m) l := by
  ext i hi
  simp only [BitVec.getElem_extractLsb', BitVec.getLsbD_append]
  rw [if_neg (by omega)]
  congr 1
  omega

/-- A field that lies in the lower part of an append. -/
theorem extract_lo {n m : Nat} (x : BitVec n) (y : BitVec m) (s l : Nat) (h : s + l ≤ m) : (x ++ y).extractLsb' s l = y.extractLsb' s l := by
  ext i hi
  simp only [BitVec.getElem_extractLsb', BitVec.getLsbD_append]
  rw [if_pos (by omega)]

/-- A field that is the whole. -/
theorem extract_all {n : Nat} (x : BitVec n) : x.extractLsb' 0 n = x := by
  ext i hi
  simp [BitVec.getElem_extractLsb', BitVec.getLsbD_eq_getElem hi]

/-- A bit of the lower part of an append. -/
theorem bit_lo {n m : Nat} (x : BitVec n) (y : BitVec m) (i : Nat) (h : i < m) : (x ++ y).getLsbD i = y.getLsbD i := by
  rw [BitVec.getLsbD_append, if_pos h]

/-- Bit W of a form with an optional modifier word. -/
theorem modBits_zero (m : Option (BitVec 32)) : (modBits m).getLsbD 0 = true := by cases m <;> simp [modBits]

/-- Bit M of a form with an optional modifier word: whether it has one. -/
theorem modBits_one (m : Option (BitVec 32)) : (modBits m).getLsbD 1 = m.isSome := by cases m <;> simp [modBits]

/-- A coded, well-formed instruction is its own candidate, and its bits W and M say how long it is. -/
def Encoding.Statement (i : Instr) : Prop :=
  wf i = true → i.isEvent = false →
    if i.isCompact then candidateCompact (encodeCompact i) = some i ∧ (encodeCompact i).getLsbD 0 = false
    else candidate (encodeWord i) i.modifier = some i ∧ (encodeWord i).getLsbD 0 = true ∧ (encodeWord i).getLsbD 1 = i.modifier.isSome

theorem Encoding.add (b a d : BitVec 5) : Encoding.Statement (.add b a d) := by
  have hm : ((encAdd b a d).extractLsb' 2 6).toNat = 1 := congrArg BitVec.toNat (extract_lo _ 5#8 2 6 (by decide))
  refine fun _ _ => ⟨?_, ?_⟩
  · show candidate (encAdd b a d) none = _
    unfold candidate; rw [hm]
    show candidate01 (encAdd b a d) = _
    have ho : ((encAdd b a d).extractLsb' 23 9).toNat = 0 := by simp (disch := decide) only [encAdd, extract_lo, extract_hi, extract_all]; decide
    unfold candidate01; rw [ho]
    show some (Instr.add ((encAdd b a d).extractLsb' 18 5) ((encAdd b a d).extractLsb' 13 5) ((encAdd b a d).extractLsb' 8 5)) = _
    simp (disch := decide) only [encAdd, extract_lo, extract_hi, extract_all, Nat.reduceSub]
  · show (encAdd b a d).getLsbD 0 = true ∧ (encAdd b a d).getLsbD 1 = false
    exact ⟨bit_lo _ 5#8 0 (by decide), bit_lo _ 5#8 1 (by decide)⟩
theorem Encoding.sub (b a d : BitVec 5) : Encoding.Statement (.sub b a d) := by
  have hm : ((encSub b a d).extractLsb' 2 6).toNat = 1 := congrArg BitVec.toNat (extract_lo _ 5#8 2 6 (by decide))
  refine fun _ _ => ⟨?_, ?_⟩
  · show candidate (encSub b a d) none = _
    unfold candidate; rw [hm]
    show candidate01 (encSub b a d) = _
    have ho : ((encSub b a d).extractLsb' 23 9).toNat = 1 := by simp (disch := decide) only [encSub, extract_lo, extract_hi, extract_all]; decide
    unfold candidate01; rw [ho]
    show some (Instr.sub ((encSub b a d).extractLsb' 18 5) ((encSub b a d).extractLsb' 13 5) ((encSub b a d).extractLsb' 8 5)) = _
    simp (disch := decide) only [encSub, extract_lo, extract_hi, extract_all, Nat.reduceSub]
  · show (encSub b a d).getLsbD 0 = true ∧ (encSub b a d).getLsbD 1 = false
    exact ⟨bit_lo _ 5#8 0 (by decide), bit_lo _ 5#8 1 (by decide)⟩
theorem Encoding.mul (b a d : BitVec 5) : Encoding.Statement (.mul b a d) := by
  have hm : ((encMul b a d).extractLsb' 2 6).toNat = 1 := congrArg BitVec.toNat (extract_lo _ 5#8 2 6 (by decide))
  refine fun _ _ => ⟨?_, ?_⟩
  · show candidate (encMul b a d) none = _
    unfold candidate; rw [hm]
    show candidate01 (encMul b a d) = _
    have ho : ((encMul b a d).extractLsb' 23 9).toNat = 2 := by simp (disch := decide) only [encMul, extract_lo, extract_hi, extract_all]; decide
    unfold candidate01; rw [ho]
    show some (Instr.mul ((encMul b a d).extractLsb' 18 5) ((encMul b a d).extractLsb' 13 5) ((encMul b a d).extractLsb' 8 5)) = _
    simp (disch := decide) only [encMul, extract_lo, extract_hi, extract_all, Nat.reduceSub]
  · show (encMul b a d).getLsbD 0 = true ∧ (encMul b a d).getLsbD 1 = false
    exact ⟨bit_lo _ 5#8 0 (by decide), bit_lo _ 5#8 1 (by decide)⟩
theorem Encoding.mulh (b a d : BitVec 5) : Encoding.Statement (.mulh b a d) := by
  have hm : ((encMulh b a d).extractLsb' 2 6).toNat = 1 := congrArg BitVec.toNat (extract_lo _ 5#8 2 6 (by decide))
  refine fun _ _ => ⟨?_, ?_⟩
  · show candidate (encMulh b a d) none = _
    unfold candidate; rw [hm]
    show candidate01 (encMulh b a d) = _
    have ho : ((encMulh b a d).extractLsb' 23 9).toNat = 3 := by simp (disch := decide) only [encMulh, extract_lo, extract_hi, extract_all]; decide
    unfold candidate01; rw [ho]
    show some (Instr.mulh ((encMulh b a d).extractLsb' 18 5) ((encMulh b a d).extractLsb' 13 5) ((encMulh b a d).extractLsb' 8 5)) = _
    simp (disch := decide) only [encMulh, extract_lo, extract_hi, extract_all, Nat.reduceSub]
  · show (encMulh b a d).getLsbD 0 = true ∧ (encMulh b a d).getLsbD 1 = false
    exact ⟨bit_lo _ 5#8 0 (by decide), bit_lo _ 5#8 1 (by decide)⟩
theorem Encoding.mulhn (b a d : BitVec 5) : Encoding.Statement (.mulhn b a d) := by
  have hm : ((encMulhn b a d).extractLsb' 2 6).toNat = 1 := congrArg BitVec.toNat (extract_lo _ 5#8 2 6 (by decide))
  refine fun _ _ => ⟨?_, ?_⟩
  · show candidate (encMulhn b a d) none = _
    unfold candidate; rw [hm]
    show candidate01 (encMulhn b a d) = _
    have ho : ((encMulhn b a d).extractLsb' 23 9).toNat = 4 := by simp (disch := decide) only [encMulhn, extract_lo, extract_hi, extract_all]; decide
    unfold candidate01; rw [ho]
    show some (Instr.mulhn ((encMulhn b a d).extractLsb' 18 5) ((encMulhn b a d).extractLsb' 13 5) ((encMulhn b a d).extractLsb' 8 5)) = _
    simp (disch := decide) only [encMulhn, extract_lo, extract_hi, extract_all, Nat.reduceSub]
  · show (encMulhn b a d).getLsbD 0 = true ∧ (encMulhn b a d).getLsbD 1 = false
    exact ⟨bit_lo _ 5#8 0 (by decide), bit_lo _ 5#8 1 (by decide)⟩
theorem Encoding.div (b a d : BitVec 5) : Encoding.Statement (.div b a d) := by
  have hm : ((encDiv b a d).extractLsb' 2 6).toNat = 1 := congrArg BitVec.toNat (extract_lo _ 5#8 2 6 (by decide))
  refine fun _ _ => ⟨?_, ?_⟩
  · show candidate (encDiv b a d) none = _
    unfold candidate; rw [hm]
    show candidate01 (encDiv b a d) = _
    have ho : ((encDiv b a d).extractLsb' 23 9).toNat = 5 := by simp (disch := decide) only [encDiv, extract_lo, extract_hi, extract_all]; decide
    unfold candidate01; rw [ho]
    show some (Instr.div ((encDiv b a d).extractLsb' 18 5) ((encDiv b a d).extractLsb' 13 5) ((encDiv b a d).extractLsb' 8 5)) = _
    simp (disch := decide) only [encDiv, extract_lo, extract_hi, extract_all, Nat.reduceSub]
  · show (encDiv b a d).getLsbD 0 = true ∧ (encDiv b a d).getLsbD 1 = false
    exact ⟨bit_lo _ 5#8 0 (by decide), bit_lo _ 5#8 1 (by decide)⟩
theorem Encoding.divn (b a d : BitVec 5) : Encoding.Statement (.divn b a d) := by
  have hm : ((encDivn b a d).extractLsb' 2 6).toNat = 1 := congrArg BitVec.toNat (extract_lo _ 5#8 2 6 (by decide))
  refine fun _ _ => ⟨?_, ?_⟩
  · show candidate (encDivn b a d) none = _
    unfold candidate; rw [hm]
    show candidate01 (encDivn b a d) = _
    have ho : ((encDivn b a d).extractLsb' 23 9).toNat = 6 := by simp (disch := decide) only [encDivn, extract_lo, extract_hi, extract_all]; decide
    unfold candidate01; rw [ho]
    show some (Instr.divn ((encDivn b a d).extractLsb' 18 5) ((encDivn b a d).extractLsb' 13 5) ((encDivn b a d).extractLsb' 8 5)) = _
    simp (disch := decide) only [encDivn, extract_lo, extract_hi, extract_all, Nat.reduceSub]
  · show (encDivn b a d).getLsbD 0 = true ∧ (encDivn b a d).getLsbD 1 = false
    exact ⟨bit_lo _ 5#8 0 (by decide), bit_lo _ 5#8 1 (by decide)⟩
theorem Encoding.rem (b a d : BitVec 5) : Encoding.Statement (.rem b a d) := by
  have hm : ((encRem b a d).extractLsb' 2 6).toNat = 1 := congrArg BitVec.toNat (extract_lo _ 5#8 2 6 (by decide))
  refine fun _ _ => ⟨?_, ?_⟩
  · show candidate (encRem b a d) none = _
    unfold candidate; rw [hm]
    show candidate01 (encRem b a d) = _
    have ho : ((encRem b a d).extractLsb' 23 9).toNat = 7 := by simp (disch := decide) only [encRem, extract_lo, extract_hi, extract_all]; decide
    unfold candidate01; rw [ho]
    show some (Instr.rem ((encRem b a d).extractLsb' 18 5) ((encRem b a d).extractLsb' 13 5) ((encRem b a d).extractLsb' 8 5)) = _
    simp (disch := decide) only [encRem, extract_lo, extract_hi, extract_all, Nat.reduceSub]
  · show (encRem b a d).getLsbD 0 = true ∧ (encRem b a d).getLsbD 1 = false
    exact ⟨bit_lo _ 5#8 0 (by decide), bit_lo _ 5#8 1 (by decide)⟩
theorem Encoding.remn (b a d : BitVec 5) : Encoding.Statement (.remn b a d) := by
  have hm : ((encRemn b a d).extractLsb' 2 6).toNat = 1 := congrArg BitVec.toNat (extract_lo _ 5#8 2 6 (by decide))
  refine fun _ _ => ⟨?_, ?_⟩
  · show candidate (encRemn b a d) none = _
    unfold candidate; rw [hm]
    show candidate01 (encRemn b a d) = _
    have ho : ((encRemn b a d).extractLsb' 23 9).toNat = 8 := by simp (disch := decide) only [encRemn, extract_lo, extract_hi, extract_all]; decide
    unfold candidate01; rw [ho]
    show some (Instr.remn ((encRemn b a d).extractLsb' 18 5) ((encRemn b a d).extractLsb' 13 5) ((encRemn b a d).extractLsb' 8 5)) = _
    simp (disch := decide) only [encRemn, extract_lo, extract_hi, extract_all, Nat.reduceSub]
  · show (encRemn b a d).getLsbD 0 = true ∧ (encRemn b a d).getLsbD 1 = false
    exact ⟨bit_lo _ 5#8 0 (by decide), bit_lo _ 5#8 1 (by decide)⟩
theorem Encoding.min (b a d : BitVec 5) : Encoding.Statement (.min b a d) := by
  have hm : ((encMin b a d).extractLsb' 2 6).toNat = 1 := congrArg BitVec.toNat (extract_lo _ 5#8 2 6 (by decide))
  refine fun _ _ => ⟨?_, ?_⟩
  · show candidate (encMin b a d) none = _
    unfold candidate; rw [hm]
    show candidate01 (encMin b a d) = _
    have ho : ((encMin b a d).extractLsb' 23 9).toNat = 9 := by simp (disch := decide) only [encMin, extract_lo, extract_hi, extract_all]; decide
    unfold candidate01; rw [ho]
    show some (Instr.min ((encMin b a d).extractLsb' 18 5) ((encMin b a d).extractLsb' 13 5) ((encMin b a d).extractLsb' 8 5)) = _
    simp (disch := decide) only [encMin, extract_lo, extract_hi, extract_all, Nat.reduceSub]
  · show (encMin b a d).getLsbD 0 = true ∧ (encMin b a d).getLsbD 1 = false
    exact ⟨bit_lo _ 5#8 0 (by decide), bit_lo _ 5#8 1 (by decide)⟩
theorem Encoding.max (b a d : BitVec 5) : Encoding.Statement (.max b a d) := by
  have hm : ((encMax b a d).extractLsb' 2 6).toNat = 1 := congrArg BitVec.toNat (extract_lo _ 5#8 2 6 (by decide))
  refine fun _ _ => ⟨?_, ?_⟩
  · show candidate (encMax b a d) none = _
    unfold candidate; rw [hm]
    show candidate01 (encMax b a d) = _
    have ho : ((encMax b a d).extractLsb' 23 9).toNat = 10 := by simp (disch := decide) only [encMax, extract_lo, extract_hi, extract_all]; decide
    unfold candidate01; rw [ho]
    show some (Instr.max ((encMax b a d).extractLsb' 18 5) ((encMax b a d).extractLsb' 13 5) ((encMax b a d).extractLsb' 8 5)) = _
    simp (disch := decide) only [encMax, extract_lo, extract_hi, extract_all, Nat.reduceSub]
  · show (encMax b a d).getLsbD 0 = true ∧ (encMax b a d).getLsbD 1 = false
    exact ⟨bit_lo _ 5#8 0 (by decide), bit_lo _ 5#8 1 (by decide)⟩
theorem Encoding.minn (b a d : BitVec 5) : Encoding.Statement (.minn b a d) := by
  have hm : ((encMinn b a d).extractLsb' 2 6).toNat = 1 := congrArg BitVec.toNat (extract_lo _ 5#8 2 6 (by decide))
  refine fun _ _ => ⟨?_, ?_⟩
  · show candidate (encMinn b a d) none = _
    unfold candidate; rw [hm]
    show candidate01 (encMinn b a d) = _
    have ho : ((encMinn b a d).extractLsb' 23 9).toNat = 11 := by simp (disch := decide) only [encMinn, extract_lo, extract_hi, extract_all]; decide
    unfold candidate01; rw [ho]
    show some (Instr.minn ((encMinn b a d).extractLsb' 18 5) ((encMinn b a d).extractLsb' 13 5) ((encMinn b a d).extractLsb' 8 5)) = _
    simp (disch := decide) only [encMinn, extract_lo, extract_hi, extract_all, Nat.reduceSub]
  · show (encMinn b a d).getLsbD 0 = true ∧ (encMinn b a d).getLsbD 1 = false
    exact ⟨bit_lo _ 5#8 0 (by decide), bit_lo _ 5#8 1 (by decide)⟩
theorem Encoding.maxn (b a d : BitVec 5) : Encoding.Statement (.maxn b a d) := by
  have hm : ((encMaxn b a d).extractLsb' 2 6).toNat = 1 := congrArg BitVec.toNat (extract_lo _ 5#8 2 6 (by decide))
  refine fun _ _ => ⟨?_, ?_⟩
  · show candidate (encMaxn b a d) none = _
    unfold candidate; rw [hm]
    show candidate01 (encMaxn b a d) = _
    have ho : ((encMaxn b a d).extractLsb' 23 9).toNat = 12 := by simp (disch := decide) only [encMaxn, extract_lo, extract_hi, extract_all]; decide
    unfold candidate01; rw [ho]
    show some (Instr.maxn ((encMaxn b a d).extractLsb' 18 5) ((encMaxn b a d).extractLsb' 13 5) ((encMaxn b a d).extractLsb' 8 5)) = _
    simp (disch := decide) only [encMaxn, extract_lo, extract_hi, extract_all, Nat.reduceSub]
  · show (encMaxn b a d).getLsbD 0 = true ∧ (encMaxn b a d).getLsbD 1 = false
    exact ⟨bit_lo _ 5#8 0 (by decide), bit_lo _ 5#8 1 (by decide)⟩
theorem Encoding.and (b a d : BitVec 5) : Encoding.Statement (.and b a d) := by
  have hm : ((encAnd b a d).extractLsb' 2 6).toNat = 1 := congrArg BitVec.toNat (extract_lo _ 5#8 2 6 (by decide))
  refine fun _ _ => ⟨?_, ?_⟩
  · show candidate (encAnd b a d) none = _
    unfold candidate; rw [hm]
    show candidate01 (encAnd b a d) = _
    have ho : ((encAnd b a d).extractLsb' 23 9).toNat = 13 := by simp (disch := decide) only [encAnd, extract_lo, extract_hi, extract_all]; decide
    unfold candidate01; rw [ho]
    show some (Instr.and ((encAnd b a d).extractLsb' 18 5) ((encAnd b a d).extractLsb' 13 5) ((encAnd b a d).extractLsb' 8 5)) = _
    simp (disch := decide) only [encAnd, extract_lo, extract_hi, extract_all, Nat.reduceSub]
  · show (encAnd b a d).getLsbD 0 = true ∧ (encAnd b a d).getLsbD 1 = false
    exact ⟨bit_lo _ 5#8 0 (by decide), bit_lo _ 5#8 1 (by decide)⟩
theorem Encoding.or (b a d : BitVec 5) : Encoding.Statement (.or b a d) := by
  have hm : ((encOr b a d).extractLsb' 2 6).toNat = 1 := congrArg BitVec.toNat (extract_lo _ 5#8 2 6 (by decide))
  refine fun _ _ => ⟨?_, ?_⟩
  · show candidate (encOr b a d) none = _
    unfold candidate; rw [hm]
    show candidate01 (encOr b a d) = _
    have ho : ((encOr b a d).extractLsb' 23 9).toNat = 14 := by simp (disch := decide) only [encOr, extract_lo, extract_hi, extract_all]; decide
    unfold candidate01; rw [ho]
    show some (Instr.or ((encOr b a d).extractLsb' 18 5) ((encOr b a d).extractLsb' 13 5) ((encOr b a d).extractLsb' 8 5)) = _
    simp (disch := decide) only [encOr, extract_lo, extract_hi, extract_all, Nat.reduceSub]
  · show (encOr b a d).getLsbD 0 = true ∧ (encOr b a d).getLsbD 1 = false
    exact ⟨bit_lo _ 5#8 0 (by decide), bit_lo _ 5#8 1 (by decide)⟩
theorem Encoding.xor (b a d : BitVec 5) : Encoding.Statement (.xor b a d) := by
  have hm : ((encXor b a d).extractLsb' 2 6).toNat = 1 := congrArg BitVec.toNat (extract_lo _ 5#8 2 6 (by decide))
  refine fun _ _ => ⟨?_, ?_⟩
  · show candidate (encXor b a d) none = _
    unfold candidate; rw [hm]
    show candidate01 (encXor b a d) = _
    have ho : ((encXor b a d).extractLsb' 23 9).toNat = 15 := by simp (disch := decide) only [encXor, extract_lo, extract_hi, extract_all]; decide
    unfold candidate01; rw [ho]
    show some (Instr.xor ((encXor b a d).extractLsb' 18 5) ((encXor b a d).extractLsb' 13 5) ((encXor b a d).extractLsb' 8 5)) = _
    simp (disch := decide) only [encXor, extract_lo, extract_hi, extract_all, Nat.reduceSub]
  · show (encXor b a d).getLsbD 0 = true ∧ (encXor b a d).getLsbD 1 = false
    exact ⟨bit_lo _ 5#8 0 (by decide), bit_lo _ 5#8 1 (by decide)⟩
theorem Encoding.andn (b a d : BitVec 5) : Encoding.Statement (.andn b a d) := by
  have hm : ((encAndn b a d).extractLsb' 2 6).toNat = 1 := congrArg BitVec.toNat (extract_lo _ 5#8 2 6 (by decide))
  refine fun _ _ => ⟨?_, ?_⟩
  · show candidate (encAndn b a d) none = _
    unfold candidate; rw [hm]
    show candidate01 (encAndn b a d) = _
    have ho : ((encAndn b a d).extractLsb' 23 9).toNat = 16 := by simp (disch := decide) only [encAndn, extract_lo, extract_hi, extract_all]; decide
    unfold candidate01; rw [ho]
    show some (Instr.andn ((encAndn b a d).extractLsb' 18 5) ((encAndn b a d).extractLsb' 13 5) ((encAndn b a d).extractLsb' 8 5)) = _
    simp (disch := decide) only [encAndn, extract_lo, extract_hi, extract_all, Nat.reduceSub]
  · show (encAndn b a d).getLsbD 0 = true ∧ (encAndn b a d).getLsbD 1 = false
    exact ⟨bit_lo _ 5#8 0 (by decide), bit_lo _ 5#8 1 (by decide)⟩
theorem Encoding.shl (b a d : BitVec 5) : Encoding.Statement (.shl b a d) := by
  have hm : ((encShl b a d).extractLsb' 2 6).toNat = 1 := congrArg BitVec.toNat (extract_lo _ 5#8 2 6 (by decide))
  refine fun _ _ => ⟨?_, ?_⟩
  · show candidate (encShl b a d) none = _
    unfold candidate; rw [hm]
    show candidate01 (encShl b a d) = _
    have ho : ((encShl b a d).extractLsb' 23 9).toNat = 17 := by simp (disch := decide) only [encShl, extract_lo, extract_hi, extract_all]; decide
    unfold candidate01; rw [ho]
    show some (Instr.shl ((encShl b a d).extractLsb' 18 5) ((encShl b a d).extractLsb' 13 5) ((encShl b a d).extractLsb' 8 5)) = _
    simp (disch := decide) only [encShl, extract_lo, extract_hi, extract_all, Nat.reduceSub]
  · show (encShl b a d).getLsbD 0 = true ∧ (encShl b a d).getLsbD 1 = false
    exact ⟨bit_lo _ 5#8 0 (by decide), bit_lo _ 5#8 1 (by decide)⟩
theorem Encoding.shr (b a d : BitVec 5) : Encoding.Statement (.shr b a d) := by
  have hm : ((encShr b a d).extractLsb' 2 6).toNat = 1 := congrArg BitVec.toNat (extract_lo _ 5#8 2 6 (by decide))
  refine fun _ _ => ⟨?_, ?_⟩
  · show candidate (encShr b a d) none = _
    unfold candidate; rw [hm]
    show candidate01 (encShr b a d) = _
    have ho : ((encShr b a d).extractLsb' 23 9).toNat = 18 := by simp (disch := decide) only [encShr, extract_lo, extract_hi, extract_all]; decide
    unfold candidate01; rw [ho]
    show some (Instr.shr ((encShr b a d).extractLsb' 18 5) ((encShr b a d).extractLsb' 13 5) ((encShr b a d).extractLsb' 8 5)) = _
    simp (disch := decide) only [encShr, extract_lo, extract_hi, extract_all, Nat.reduceSub]
  · show (encShr b a d).getLsbD 0 = true ∧ (encShr b a d).getLsbD 1 = false
    exact ⟨bit_lo _ 5#8 0 (by decide), bit_lo _ 5#8 1 (by decide)⟩
theorem Encoding.sha (b a d : BitVec 5) : Encoding.Statement (.sha b a d) := by
  have hm : ((encSha b a d).extractLsb' 2 6).toNat = 1 := congrArg BitVec.toNat (extract_lo _ 5#8 2 6 (by decide))
  refine fun _ _ => ⟨?_, ?_⟩
  · show candidate (encSha b a d) none = _
    unfold candidate; rw [hm]
    show candidate01 (encSha b a d) = _
    have ho : ((encSha b a d).extractLsb' 23 9).toNat = 19 := by simp (disch := decide) only [encSha, extract_lo, extract_hi, extract_all]; decide
    unfold candidate01; rw [ho]
    show some (Instr.sha ((encSha b a d).extractLsb' 18 5) ((encSha b a d).extractLsb' 13 5) ((encSha b a d).extractLsb' 8 5)) = _
    simp (disch := decide) only [encSha, extract_lo, extract_hi, extract_all, Nat.reduceSub]
  · show (encSha b a d).getLsbD 0 = true ∧ (encSha b a d).getLsbD 1 = false
    exact ⟨bit_lo _ 5#8 0 (by decide), bit_lo _ 5#8 1 (by decide)⟩
theorem Encoding.rotl (b a d : BitVec 5) : Encoding.Statement (.rotl b a d) := by
  have hm : ((encRotl b a d).extractLsb' 2 6).toNat = 1 := congrArg BitVec.toNat (extract_lo _ 5#8 2 6 (by decide))
  refine fun _ _ => ⟨?_, ?_⟩
  · show candidate (encRotl b a d) none = _
    unfold candidate; rw [hm]
    show candidate01 (encRotl b a d) = _
    have ho : ((encRotl b a d).extractLsb' 23 9).toNat = 20 := by simp (disch := decide) only [encRotl, extract_lo, extract_hi, extract_all]; decide
    unfold candidate01; rw [ho]
    show some (Instr.rotl ((encRotl b a d).extractLsb' 18 5) ((encRotl b a d).extractLsb' 13 5) ((encRotl b a d).extractLsb' 8 5)) = _
    simp (disch := decide) only [encRotl, extract_lo, extract_hi, extract_all, Nat.reduceSub]
  · show (encRotl b a d).getLsbD 0 = true ∧ (encRotl b a d).getLsbD 1 = false
    exact ⟨bit_lo _ 5#8 0 (by decide), bit_lo _ 5#8 1 (by decide)⟩
theorem Encoding.clz (a d : BitVec 5) : Encoding.Statement (.clz a d) := by
  have hm : ((encClz a d).extractLsb' 2 6).toNat = 1 := congrArg BitVec.toNat (extract_lo _ 5#8 2 6 (by decide))
  refine fun _ _ => ⟨?_, ?_⟩
  · show candidate (encClz a d) none = _
    unfold candidate; rw [hm]
    show candidate01 (encClz a d) = _
    have ho : ((encClz a d).extractLsb' 23 9).toNat = 21 := by simp (disch := decide) only [encClz, extract_lo, extract_hi, extract_all]; decide
    unfold candidate01; rw [ho]
    show some (Instr.clz ((encClz a d).extractLsb' 13 5) ((encClz a d).extractLsb' 8 5)) = _
    simp (disch := decide) only [encClz, extract_lo, extract_hi, extract_all, Nat.reduceSub]
  · show (encClz a d).getLsbD 0 = true ∧ (encClz a d).getLsbD 1 = false
    exact ⟨bit_lo _ 5#8 0 (by decide), bit_lo _ 5#8 1 (by decide)⟩
theorem Encoding.ctz (a d : BitVec 5) : Encoding.Statement (.ctz a d) := by
  have hm : ((encCtz a d).extractLsb' 2 6).toNat = 1 := congrArg BitVec.toNat (extract_lo _ 5#8 2 6 (by decide))
  refine fun _ _ => ⟨?_, ?_⟩
  · show candidate (encCtz a d) none = _
    unfold candidate; rw [hm]
    show candidate01 (encCtz a d) = _
    have ho : ((encCtz a d).extractLsb' 23 9).toNat = 22 := by simp (disch := decide) only [encCtz, extract_lo, extract_hi, extract_all]; decide
    unfold candidate01; rw [ho]
    show some (Instr.ctz ((encCtz a d).extractLsb' 13 5) ((encCtz a d).extractLsb' 8 5)) = _
    simp (disch := decide) only [encCtz, extract_lo, extract_hi, extract_all, Nat.reduceSub]
  · show (encCtz a d).getLsbD 0 = true ∧ (encCtz a d).getLsbD 1 = false
    exact ⟨bit_lo _ 5#8 0 (by decide), bit_lo _ 5#8 1 (by decide)⟩
theorem Encoding.popc (a d : BitVec 5) : Encoding.Statement (.popc a d) := by
  have hm : ((encPopc a d).extractLsb' 2 6).toNat = 1 := congrArg BitVec.toNat (extract_lo _ 5#8 2 6 (by decide))
  refine fun _ _ => ⟨?_, ?_⟩
  · show candidate (encPopc a d) none = _
    unfold candidate; rw [hm]
    show candidate01 (encPopc a d) = _
    have ho : ((encPopc a d).extractLsb' 23 9).toNat = 23 := by simp (disch := decide) only [encPopc, extract_lo, extract_hi, extract_all]; decide
    unfold candidate01; rw [ho]
    show some (Instr.popc ((encPopc a d).extractLsb' 13 5) ((encPopc a d).extractLsb' 8 5)) = _
    simp (disch := decide) only [encPopc, extract_lo, extract_hi, extract_all, Nat.reduceSub]
  · show (encPopc a d).getLsbD 0 = true ∧ (encPopc a d).getLsbD 1 = false
    exact ⟨bit_lo _ 5#8 0 (by decide), bit_lo _ 5#8 1 (by decide)⟩
theorem Encoding.seq (b a d : BitVec 5) : Encoding.Statement (.seq b a d) := by
  have hm : ((encSeq b a d).extractLsb' 2 6).toNat = 1 := congrArg BitVec.toNat (extract_lo _ 5#8 2 6 (by decide))
  refine fun _ _ => ⟨?_, ?_⟩
  · show candidate (encSeq b a d) none = _
    unfold candidate; rw [hm]
    show candidate01 (encSeq b a d) = _
    have ho : ((encSeq b a d).extractLsb' 23 9).toNat = 24 := by simp (disch := decide) only [encSeq, extract_lo, extract_hi, extract_all]; decide
    unfold candidate01; rw [ho]
    show some (Instr.seq ((encSeq b a d).extractLsb' 18 5) ((encSeq b a d).extractLsb' 13 5) ((encSeq b a d).extractLsb' 8 5)) = _
    simp (disch := decide) only [encSeq, extract_lo, extract_hi, extract_all, Nat.reduceSub]
  · show (encSeq b a d).getLsbD 0 = true ∧ (encSeq b a d).getLsbD 1 = false
    exact ⟨bit_lo _ 5#8 0 (by decide), bit_lo _ 5#8 1 (by decide)⟩
theorem Encoding.slt (b a d : BitVec 5) : Encoding.Statement (.slt b a d) := by
  have hm : ((encSlt b a d).extractLsb' 2 6).toNat = 1 := congrArg BitVec.toNat (extract_lo _ 5#8 2 6 (by decide))
  refine fun _ _ => ⟨?_, ?_⟩
  · show candidate (encSlt b a d) none = _
    unfold candidate; rw [hm]
    show candidate01 (encSlt b a d) = _
    have ho : ((encSlt b a d).extractLsb' 23 9).toNat = 25 := by simp (disch := decide) only [encSlt, extract_lo, extract_hi, extract_all]; decide
    unfold candidate01; rw [ho]
    show some (Instr.slt ((encSlt b a d).extractLsb' 18 5) ((encSlt b a d).extractLsb' 13 5) ((encSlt b a d).extractLsb' 8 5)) = _
    simp (disch := decide) only [encSlt, extract_lo, extract_hi, extract_all, Nat.reduceSub]
  · show (encSlt b a d).getLsbD 0 = true ∧ (encSlt b a d).getLsbD 1 = false
    exact ⟨bit_lo _ 5#8 0 (by decide), bit_lo _ 5#8 1 (by decide)⟩
theorem Encoding.sltn (b a d : BitVec 5) : Encoding.Statement (.sltn b a d) := by
  have hm : ((encSltn b a d).extractLsb' 2 6).toNat = 1 := congrArg BitVec.toNat (extract_lo _ 5#8 2 6 (by decide))
  refine fun _ _ => ⟨?_, ?_⟩
  · show candidate (encSltn b a d) none = _
    unfold candidate; rw [hm]
    show candidate01 (encSltn b a d) = _
    have ho : ((encSltn b a d).extractLsb' 23 9).toNat = 26 := by simp (disch := decide) only [encSltn, extract_lo, extract_hi, extract_all]; decide
    unfold candidate01; rw [ho]
    show some (Instr.sltn ((encSltn b a d).extractLsb' 18 5) ((encSltn b a d).extractLsb' 13 5) ((encSltn b a d).extractLsb' 8 5)) = _
    simp (disch := decide) only [encSltn, extract_lo, extract_hi, extract_all, Nat.reduceSub]
  · show (encSltn b a d).getLsbD 0 = true ∧ (encSltn b a d).getLsbD 1 = false
    exact ⟨bit_lo _ 5#8 0 (by decide), bit_lo _ 5#8 1 (by decide)⟩
theorem Encoding.padd (w : BitVec 1) (b a d : BitVec 5) : Encoding.Statement (.padd w b a d) := by
  have hm : ((encPadd w b a d).extractLsb' 2 6).toNat = 2 := congrArg BitVec.toNat (extract_lo _ 9#8 2 6 (by decide))
  refine fun _ _ => ⟨?_, ?_⟩
  · show candidate (encPadd w b a d) none = _
    unfold candidate; rw [hm]
    show candidate02 (encPadd w b a d) = _
    have ho : ((encPadd w b a d).extractLsb' 25 7).toNat = 0 := by simp (disch := decide) only [encPadd, extract_lo, extract_hi, extract_all]; decide
    unfold candidate02; rw [ho]
    show some (Instr.padd ((encPadd w b a d).extractLsb' 23 1) ((encPadd w b a d).extractLsb' 18 5) ((encPadd w b a d).extractLsb' 13 5) ((encPadd w b a d).extractLsb' 8 5)) = _
    simp (disch := decide) only [encPadd, extract_lo, extract_hi, extract_all, Nat.reduceSub]
  · show (encPadd w b a d).getLsbD 0 = true ∧ (encPadd w b a d).getLsbD 1 = false
    exact ⟨bit_lo _ 9#8 0 (by decide), bit_lo _ 9#8 1 (by decide)⟩
theorem Encoding.psub (w : BitVec 1) (b a d : BitVec 5) : Encoding.Statement (.psub w b a d) := by
  have hm : ((encPsub w b a d).extractLsb' 2 6).toNat = 2 := congrArg BitVec.toNat (extract_lo _ 9#8 2 6 (by decide))
  refine fun _ _ => ⟨?_, ?_⟩
  · show candidate (encPsub w b a d) none = _
    unfold candidate; rw [hm]
    show candidate02 (encPsub w b a d) = _
    have ho : ((encPsub w b a d).extractLsb' 25 7).toNat = 1 := by simp (disch := decide) only [encPsub, extract_lo, extract_hi, extract_all]; decide
    unfold candidate02; rw [ho]
    show some (Instr.psub ((encPsub w b a d).extractLsb' 23 1) ((encPsub w b a d).extractLsb' 18 5) ((encPsub w b a d).extractLsb' 13 5) ((encPsub w b a d).extractLsb' 8 5)) = _
    simp (disch := decide) only [encPsub, extract_lo, extract_hi, extract_all, Nat.reduceSub]
  · show (encPsub w b a d).getLsbD 0 = true ∧ (encPsub w b a d).getLsbD 1 = false
    exact ⟨bit_lo _ 9#8 0 (by decide), bit_lo _ 9#8 1 (by decide)⟩
theorem Encoding.pmin (n w : BitVec 1) (b a d : BitVec 5) : Encoding.Statement (.pmin n w b a d) := by
  have hm : ((encPmin n w b a d).extractLsb' 2 6).toNat = 2 := congrArg BitVec.toNat (extract_lo _ 9#8 2 6 (by decide))
  refine fun _ _ => ⟨?_, ?_⟩
  · show candidate (encPmin n w b a d) none = _
    unfold candidate; rw [hm]
    show candidate02 (encPmin n w b a d) = _
    have ho : ((encPmin n w b a d).extractLsb' 25 7).toNat = 2 := by simp (disch := decide) only [encPmin, extract_lo, extract_hi, extract_all]; decide
    unfold candidate02; rw [ho]
    show some (Instr.pmin ((encPmin n w b a d).extractLsb' 24 1) ((encPmin n w b a d).extractLsb' 23 1) ((encPmin n w b a d).extractLsb' 18 5) ((encPmin n w b a d).extractLsb' 13 5) ((encPmin n w b a d).extractLsb' 8 5)) = _
    simp (disch := decide) only [encPmin, extract_lo, extract_hi, extract_all, Nat.reduceSub]
  · show (encPmin n w b a d).getLsbD 0 = true ∧ (encPmin n w b a d).getLsbD 1 = false
    exact ⟨bit_lo _ 9#8 0 (by decide), bit_lo _ 9#8 1 (by decide)⟩
theorem Encoding.pmax (n w : BitVec 1) (b a d : BitVec 5) : Encoding.Statement (.pmax n w b a d) := by
  have hm : ((encPmax n w b a d).extractLsb' 2 6).toNat = 2 := congrArg BitVec.toNat (extract_lo _ 9#8 2 6 (by decide))
  refine fun _ _ => ⟨?_, ?_⟩
  · show candidate (encPmax n w b a d) none = _
    unfold candidate; rw [hm]
    show candidate02 (encPmax n w b a d) = _
    have ho : ((encPmax n w b a d).extractLsb' 25 7).toNat = 3 := by simp (disch := decide) only [encPmax, extract_lo, extract_hi, extract_all]; decide
    unfold candidate02; rw [ho]
    show some (Instr.pmax ((encPmax n w b a d).extractLsb' 24 1) ((encPmax n w b a d).extractLsb' 23 1) ((encPmax n w b a d).extractLsb' 18 5) ((encPmax n w b a d).extractLsb' 13 5) ((encPmax n w b a d).extractLsb' 8 5)) = _
    simp (disch := decide) only [encPmax, extract_lo, extract_hi, extract_all, Nat.reduceSub]
  · show (encPmax n w b a d).getLsbD 0 = true ∧ (encPmax n w b a d).getLsbD 1 = false
    exact ⟨bit_lo _ 9#8 0 (by decide), bit_lo _ 9#8 1 (by decide)⟩
theorem Encoding.pshl (w : BitVec 1) (b a d : BitVec 5) : Encoding.Statement (.pshl w b a d) := by
  have hm : ((encPshl w b a d).extractLsb' 2 6).toNat = 2 := congrArg BitVec.toNat (extract_lo _ 9#8 2 6 (by decide))
  refine fun _ _ => ⟨?_, ?_⟩
  · show candidate (encPshl w b a d) none = _
    unfold candidate; rw [hm]
    show candidate02 (encPshl w b a d) = _
    have ho : ((encPshl w b a d).extractLsb' 25 7).toNat = 4 := by simp (disch := decide) only [encPshl, extract_lo, extract_hi, extract_all]; decide
    unfold candidate02; rw [ho]
    show some (Instr.pshl ((encPshl w b a d).extractLsb' 23 1) ((encPshl w b a d).extractLsb' 18 5) ((encPshl w b a d).extractLsb' 13 5) ((encPshl w b a d).extractLsb' 8 5)) = _
    simp (disch := decide) only [encPshl, extract_lo, extract_hi, extract_all, Nat.reduceSub]
  · show (encPshl w b a d).getLsbD 0 = true ∧ (encPshl w b a d).getLsbD 1 = false
    exact ⟨bit_lo _ 9#8 0 (by decide), bit_lo _ 9#8 1 (by decide)⟩
theorem Encoding.pshr (w : BitVec 1) (b a d : BitVec 5) : Encoding.Statement (.pshr w b a d) := by
  have hm : ((encPshr w b a d).extractLsb' 2 6).toNat = 2 := congrArg BitVec.toNat (extract_lo _ 9#8 2 6 (by decide))
  refine fun _ _ => ⟨?_, ?_⟩
  · show candidate (encPshr w b a d) none = _
    unfold candidate; rw [hm]
    show candidate02 (encPshr w b a d) = _
    have ho : ((encPshr w b a d).extractLsb' 25 7).toNat = 5 := by simp (disch := decide) only [encPshr, extract_lo, extract_hi, extract_all]; decide
    unfold candidate02; rw [ho]
    show some (Instr.pshr ((encPshr w b a d).extractLsb' 23 1) ((encPshr w b a d).extractLsb' 18 5) ((encPshr w b a d).extractLsb' 13 5) ((encPshr w b a d).extractLsb' 8 5)) = _
    simp (disch := decide) only [encPshr, extract_lo, extract_hi, extract_all, Nat.reduceSub]
  · show (encPshr w b a d).getLsbD 0 = true ∧ (encPshr w b a d).getLsbD 1 = false
    exact ⟨bit_lo _ 9#8 0 (by decide), bit_lo _ 9#8 1 (by decide)⟩
theorem Encoding.psha (w : BitVec 1) (b a d : BitVec 5) : Encoding.Statement (.psha w b a d) := by
  have hm : ((encPsha w b a d).extractLsb' 2 6).toNat = 2 := congrArg BitVec.toNat (extract_lo _ 9#8 2 6 (by decide))
  refine fun _ _ => ⟨?_, ?_⟩
  · show candidate (encPsha w b a d) none = _
    unfold candidate; rw [hm]
    show candidate02 (encPsha w b a d) = _
    have ho : ((encPsha w b a d).extractLsb' 25 7).toNat = 6 := by simp (disch := decide) only [encPsha, extract_lo, extract_hi, extract_all]; decide
    unfold candidate02; rw [ho]
    show some (Instr.psha ((encPsha w b a d).extractLsb' 23 1) ((encPsha w b a d).extractLsb' 18 5) ((encPsha w b a d).extractLsb' 13 5) ((encPsha w b a d).extractLsb' 8 5)) = _
    simp (disch := decide) only [encPsha, extract_lo, extract_hi, extract_all, Nat.reduceSub]
  · show (encPsha w b a d).getLsbD 0 = true ∧ (encPsha w b a d).getLsbD 1 = false
    exact ⟨bit_lo _ 9#8 0 (by decide), bit_lo _ 9#8 1 (by decide)⟩
theorem Encoding.addi (i : BitVec 14) (a d : BitVec 5) : Encoding.Statement (.addi i a d) := by
  have hm : ((encAddi i a d).extractLsb' 2 6).toNat = 3 := congrArg BitVec.toNat (extract_lo _ 13#8 2 6 (by decide))
  refine fun _ _ => ⟨?_, ?_⟩
  · show candidate (encAddi i a d) none = _
    unfold candidate; rw [hm]
    show some (Instr.addi ((encAddi i a d).extractLsb' 18 14) ((encAddi i a d).extractLsb' 13 5) ((encAddi i a d).extractLsb' 8 5)) = _
    simp (disch := decide) only [encAddi, extract_lo, extract_hi, extract_all, Nat.reduceSub]
  · show (encAddi i a d).getLsbD 0 = true ∧ (encAddi i a d).getLsbD 1 = false
    exact ⟨bit_lo _ 13#8 0 (by decide), bit_lo _ 13#8 1 (by decide)⟩
theorem Encoding.andi (i : BitVec 14) (a d : BitVec 5) : Encoding.Statement (.andi i a d) := by
  have hm : ((encAndi i a d).extractLsb' 2 6).toNat = 4 := congrArg BitVec.toNat (extract_lo _ 17#8 2 6 (by decide))
  refine fun _ _ => ⟨?_, ?_⟩
  · show candidate (encAndi i a d) none = _
    unfold candidate; rw [hm]
    show some (Instr.andi ((encAndi i a d).extractLsb' 18 14) ((encAndi i a d).extractLsb' 13 5) ((encAndi i a d).extractLsb' 8 5)) = _
    simp (disch := decide) only [encAndi, extract_lo, extract_hi, extract_all, Nat.reduceSub]
  · show (encAndi i a d).getLsbD 0 = true ∧ (encAndi i a d).getLsbD 1 = false
    exact ⟨bit_lo _ 17#8 0 (by decide), bit_lo _ 17#8 1 (by decide)⟩
theorem Encoding.ori (i : BitVec 14) (a d : BitVec 5) : Encoding.Statement (.ori i a d) := by
  have hm : ((encOri i a d).extractLsb' 2 6).toNat = 5 := congrArg BitVec.toNat (extract_lo _ 21#8 2 6 (by decide))
  refine fun _ _ => ⟨?_, ?_⟩
  · show candidate (encOri i a d) none = _
    unfold candidate; rw [hm]
    show some (Instr.ori ((encOri i a d).extractLsb' 18 14) ((encOri i a d).extractLsb' 13 5) ((encOri i a d).extractLsb' 8 5)) = _
    simp (disch := decide) only [encOri, extract_lo, extract_hi, extract_all, Nat.reduceSub]
  · show (encOri i a d).getLsbD 0 = true ∧ (encOri i a d).getLsbD 1 = false
    exact ⟨bit_lo _ 21#8 0 (by decide), bit_lo _ 21#8 1 (by decide)⟩
theorem Encoding.xori (i : BitVec 14) (a d : BitVec 5) : Encoding.Statement (.xori i a d) := by
  have hm : ((encXori i a d).extractLsb' 2 6).toNat = 6 := congrArg BitVec.toNat (extract_lo _ 25#8 2 6 (by decide))
  refine fun _ _ => ⟨?_, ?_⟩
  · show candidate (encXori i a d) none = _
    unfold candidate; rw [hm]
    show some (Instr.xori ((encXori i a d).extractLsb' 18 14) ((encXori i a d).extractLsb' 13 5) ((encXori i a d).extractLsb' 8 5)) = _
    simp (disch := decide) only [encXori, extract_lo, extract_hi, extract_all, Nat.reduceSub]
  · show (encXori i a d).getLsbD 0 = true ∧ (encXori i a d).getLsbD 1 = false
    exact ⟨bit_lo _ 25#8 0 (by decide), bit_lo _ 25#8 1 (by decide)⟩
theorem Encoding.shli (n : BitVec 6) (a d : BitVec 5) : Encoding.Statement (.shli n a d) := by
  have hm : ((encShli n a d).extractLsb' 2 6).toNat = 7 := congrArg BitVec.toNat (extract_lo _ 29#8 2 6 (by decide))
  refine fun _ _ => ⟨?_, ?_⟩
  · show candidate (encShli n a d) none = _
    unfold candidate; rw [hm]
    show candidate07 (encShli n a d) = _
    have ho : ((encShli n a d).extractLsb' 30 2).toNat = 0 := by simp (disch := decide) only [encShli, extract_lo, extract_hi, extract_all]; decide
    unfold candidate07; rw [ho]
    show some (Instr.shli ((encShli n a d).extractLsb' 18 6) ((encShli n a d).extractLsb' 13 5) ((encShli n a d).extractLsb' 8 5)) = _
    simp (disch := decide) only [encShli, extract_lo, extract_hi, extract_all, Nat.reduceSub]
  · show (encShli n a d).getLsbD 0 = true ∧ (encShli n a d).getLsbD 1 = false
    exact ⟨bit_lo _ 29#8 0 (by decide), bit_lo _ 29#8 1 (by decide)⟩
theorem Encoding.shri (n : BitVec 6) (a d : BitVec 5) : Encoding.Statement (.shri n a d) := by
  have hm : ((encShri n a d).extractLsb' 2 6).toNat = 7 := congrArg BitVec.toNat (extract_lo _ 29#8 2 6 (by decide))
  refine fun _ _ => ⟨?_, ?_⟩
  · show candidate (encShri n a d) none = _
    unfold candidate; rw [hm]
    show candidate07 (encShri n a d) = _
    have ho : ((encShri n a d).extractLsb' 30 2).toNat = 1 := by simp (disch := decide) only [encShri, extract_lo, extract_hi, extract_all]; decide
    unfold candidate07; rw [ho]
    show some (Instr.shri ((encShri n a d).extractLsb' 18 6) ((encShri n a d).extractLsb' 13 5) ((encShri n a d).extractLsb' 8 5)) = _
    simp (disch := decide) only [encShri, extract_lo, extract_hi, extract_all, Nat.reduceSub]
  · show (encShri n a d).getLsbD 0 = true ∧ (encShri n a d).getLsbD 1 = false
    exact ⟨bit_lo _ 29#8 0 (by decide), bit_lo _ 29#8 1 (by decide)⟩
theorem Encoding.shai (n : BitVec 6) (a d : BitVec 5) : Encoding.Statement (.shai n a d) := by
  have hm : ((encShai n a d).extractLsb' 2 6).toNat = 7 := congrArg BitVec.toNat (extract_lo _ 29#8 2 6 (by decide))
  refine fun _ _ => ⟨?_, ?_⟩
  · show candidate (encShai n a d) none = _
    unfold candidate; rw [hm]
    show candidate07 (encShai n a d) = _
    have ho : ((encShai n a d).extractLsb' 30 2).toNat = 2 := by simp (disch := decide) only [encShai, extract_lo, extract_hi, extract_all]; decide
    unfold candidate07; rw [ho]
    show some (Instr.shai ((encShai n a d).extractLsb' 18 6) ((encShai n a d).extractLsb' 13 5) ((encShai n a d).extractLsb' 8 5)) = _
    simp (disch := decide) only [encShai, extract_lo, extract_hi, extract_all, Nat.reduceSub]
  · show (encShai n a d).getLsbD 0 = true ∧ (encShai n a d).getLsbD 1 = false
    exact ⟨bit_lo _ 29#8 0 (by decide), bit_lo _ 29#8 1 (by decide)⟩
theorem Encoding.bfxS (p l : BitVec 6) (a d : BitVec 5) : Encoding.Statement (.bfxS p l a d) := by
  have hm : ((encBfxS p l a d).extractLsb' 2 6).toNat = 8 := congrArg BitVec.toNat (extract_lo _ 33#8 2 6 (by decide))
  refine fun _ _ => ⟨?_, ?_⟩
  · show candidate (encBfxS p l a d) none = _
    unfold candidate; rw [hm]
    show candidate08 (encBfxS p l a d) = _
    have ho : ((encBfxS p l a d).extractLsb' 30 2).toNat = 0 := by simp (disch := decide) only [encBfxS, extract_lo, extract_hi, extract_all]; decide
    unfold candidate08; rw [ho]
    show some (Instr.bfxS ((encBfxS p l a d).extractLsb' 24 6) ((encBfxS p l a d).extractLsb' 18 6) ((encBfxS p l a d).extractLsb' 13 5) ((encBfxS p l a d).extractLsb' 8 5)) = _
    simp (disch := decide) only [encBfxS, extract_lo, extract_hi, extract_all, Nat.reduceSub]
  · show (encBfxS p l a d).getLsbD 0 = true ∧ (encBfxS p l a d).getLsbD 1 = false
    exact ⟨bit_lo _ 33#8 0 (by decide), bit_lo _ 33#8 1 (by decide)⟩
theorem Encoding.bfxZ (p l : BitVec 6) (a d : BitVec 5) : Encoding.Statement (.bfxZ p l a d) := by
  have hm : ((encBfxZ p l a d).extractLsb' 2 6).toNat = 8 := congrArg BitVec.toNat (extract_lo _ 33#8 2 6 (by decide))
  refine fun _ _ => ⟨?_, ?_⟩
  · show candidate (encBfxZ p l a d) none = _
    unfold candidate; rw [hm]
    show candidate08 (encBfxZ p l a d) = _
    have ho : ((encBfxZ p l a d).extractLsb' 30 2).toNat = 1 := by simp (disch := decide) only [encBfxZ, extract_lo, extract_hi, extract_all]; decide
    unfold candidate08; rw [ho]
    show some (Instr.bfxZ ((encBfxZ p l a d).extractLsb' 24 6) ((encBfxZ p l a d).extractLsb' 18 6) ((encBfxZ p l a d).extractLsb' 13 5) ((encBfxZ p l a d).extractLsb' 8 5)) = _
    simp (disch := decide) only [encBfxZ, extract_lo, extract_hi, extract_all, Nat.reduceSub]
  · show (encBfxZ p l a d).getLsbD 0 = true ∧ (encBfxZ p l a d).getLsbD 1 = false
    exact ⟨bit_lo _ 33#8 0 (by decide), bit_lo _ 33#8 1 (by decide)⟩
theorem Encoding.bfi (p l : BitVec 6) (a d : BitVec 5) : Encoding.Statement (.bfi p l a d) := by
  have hm : ((encBfi p l a d).extractLsb' 2 6).toNat = 8 := congrArg BitVec.toNat (extract_lo _ 33#8 2 6 (by decide))
  refine fun _ _ => ⟨?_, ?_⟩
  · show candidate (encBfi p l a d) none = _
    unfold candidate; rw [hm]
    show candidate08 (encBfi p l a d) = _
    have ho : ((encBfi p l a d).extractLsb' 30 2).toNat = 2 := by simp (disch := decide) only [encBfi, extract_lo, extract_hi, extract_all]; decide
    unfold candidate08; rw [ho]
    show some (Instr.bfi ((encBfi p l a d).extractLsb' 24 6) ((encBfi p l a d).extractLsb' 18 6) ((encBfi p l a d).extractLsb' 13 5) ((encBfi p l a d).extractLsb' 8 5)) = _
    simp (disch := decide) only [encBfi, extract_lo, extract_hi, extract_all, Nat.reduceSub]
  · show (encBfi p l a d).getLsbD 0 = true ∧ (encBfi p l a d).getLsbD 1 = false
    exact ⟨bit_lo _ 33#8 0 (by decide), bit_lo _ 33#8 1 (by decide)⟩
theorem Encoding.sel (c b a d : BitVec 5) : Encoding.Statement (.sel c b a d) := by
  have hm : ((encSel c b a d).extractLsb' 2 6).toNat = 9 := congrArg BitVec.toNat (extract_lo _ 37#8 2 6 (by decide))
  refine fun _ _ => ⟨?_, ?_⟩
  · show candidate (encSel c b a d) none = _
    unfold candidate; rw [hm]
    show some (Instr.sel ((encSel c b a d).extractLsb' 23 5) ((encSel c b a d).extractLsb' 18 5) ((encSel c b a d).extractLsb' 13 5) ((encSel c b a d).extractLsb' 8 5)) = _
    simp (disch := decide) only [encSel, extract_lo, extract_hi, extract_all, Nat.reduceSub]
  · show (encSel c b a d).getLsbD 0 = true ∧ (encSel c b a d).getLsbD 1 = false
    exact ⟨bit_lo _ 37#8 0 (by decide), bit_lo _ 37#8 1 (by decide)⟩
theorem Encoding.movi (i : BitVec 19) (d : BitVec 5) : Encoding.Statement (.movi i d) := by
  have hm : ((encMovi i d).extractLsb' 2 6).toNat = 10 := congrArg BitVec.toNat (extract_lo _ 41#8 2 6 (by decide))
  refine fun _ _ => ⟨?_, ?_⟩
  · show candidate (encMovi i d) none = _
    unfold candidate; rw [hm]
    show some (Instr.movi ((encMovi i d).extractLsb' 13 19) ((encMovi i d).extractLsb' 8 5)) = _
    simp (disch := decide) only [encMovi, extract_lo, extract_hi, extract_all, Nat.reduceSub]
  · show (encMovi i d).getLsbD 0 = true ∧ (encMovi i d).getLsbD 1 = false
    exact ⟨bit_lo _ 41#8 0 (by decide), bit_lo _ 41#8 1 (by decide)⟩
theorem Encoding.movh (i : BitVec 19) (d : BitVec 5) : Encoding.Statement (.movh i d) := by
  have hm : ((encMovh i d).extractLsb' 2 6).toNat = 11 := congrArg BitVec.toNat (extract_lo _ 45#8 2 6 (by decide))
  refine fun _ _ => ⟨?_, ?_⟩
  · show candidate (encMovh i d) none = _
    unfold candidate; rw [hm]
    show some (Instr.movh ((encMovh i d).extractLsb' 13 19) ((encMovh i d).extractLsb' 8 5)) = _
    simp (disch := decide) only [encMovh, extract_lo, extract_hi, extract_all, Nat.reduceSub]
  · show (encMovh i d).getLsbD 0 = true ∧ (encMovh i d).getLsbD 1 = false
    exact ⟨bit_lo _ 45#8 0 (by decide), bit_lo _ 45#8 1 (by decide)⟩
theorem Encoding.beq (o : BitVec 11) (b a : BitVec 5) : Encoding.Statement (.beq o b a) := by
  have hm : ((encBeq o b a).extractLsb' 2 6).toNat = 12 := congrArg BitVec.toNat (extract_lo _ 49#8 2 6 (by decide))
  refine fun _ _ => ⟨?_, ?_⟩
  · show candidate (encBeq o b a) none = _
    unfold candidate; rw [hm]
    show candidate0C (encBeq o b a) = _
    have ho : ((encBeq o b a).extractLsb' 18 3).toNat = 0 := by simp (disch := decide) only [encBeq, extract_lo, extract_hi, extract_all]; decide
    unfold candidate0C; rw [ho]
    show some (Instr.beq ((encBeq o b a).extractLsb' 21 11) ((encBeq o b a).extractLsb' 13 5) ((encBeq o b a).extractLsb' 8 5)) = _
    simp (disch := decide) only [encBeq, extract_lo, extract_hi, extract_all, Nat.reduceSub]
  · show (encBeq o b a).getLsbD 0 = true ∧ (encBeq o b a).getLsbD 1 = false
    exact ⟨bit_lo _ 49#8 0 (by decide), bit_lo _ 49#8 1 (by decide)⟩
theorem Encoding.bne (o : BitVec 11) (b a : BitVec 5) : Encoding.Statement (.bne o b a) := by
  have hm : ((encBne o b a).extractLsb' 2 6).toNat = 12 := congrArg BitVec.toNat (extract_lo _ 49#8 2 6 (by decide))
  refine fun _ _ => ⟨?_, ?_⟩
  · show candidate (encBne o b a) none = _
    unfold candidate; rw [hm]
    show candidate0C (encBne o b a) = _
    have ho : ((encBne o b a).extractLsb' 18 3).toNat = 1 := by simp (disch := decide) only [encBne, extract_lo, extract_hi, extract_all]; decide
    unfold candidate0C; rw [ho]
    show some (Instr.bne ((encBne o b a).extractLsb' 21 11) ((encBne o b a).extractLsb' 13 5) ((encBne o b a).extractLsb' 8 5)) = _
    simp (disch := decide) only [encBne, extract_lo, extract_hi, extract_all, Nat.reduceSub]
  · show (encBne o b a).getLsbD 0 = true ∧ (encBne o b a).getLsbD 1 = false
    exact ⟨bit_lo _ 49#8 0 (by decide), bit_lo _ 49#8 1 (by decide)⟩
theorem Encoding.blt (o : BitVec 11) (b a : BitVec 5) : Encoding.Statement (.blt o b a) := by
  have hm : ((encBlt o b a).extractLsb' 2 6).toNat = 12 := congrArg BitVec.toNat (extract_lo _ 49#8 2 6 (by decide))
  refine fun _ _ => ⟨?_, ?_⟩
  · show candidate (encBlt o b a) none = _
    unfold candidate; rw [hm]
    show candidate0C (encBlt o b a) = _
    have ho : ((encBlt o b a).extractLsb' 18 3).toNat = 2 := by simp (disch := decide) only [encBlt, extract_lo, extract_hi, extract_all]; decide
    unfold candidate0C; rw [ho]
    show some (Instr.blt ((encBlt o b a).extractLsb' 21 11) ((encBlt o b a).extractLsb' 13 5) ((encBlt o b a).extractLsb' 8 5)) = _
    simp (disch := decide) only [encBlt, extract_lo, extract_hi, extract_all, Nat.reduceSub]
  · show (encBlt o b a).getLsbD 0 = true ∧ (encBlt o b a).getLsbD 1 = false
    exact ⟨bit_lo _ 49#8 0 (by decide), bit_lo _ 49#8 1 (by decide)⟩
theorem Encoding.bge (o : BitVec 11) (b a : BitVec 5) : Encoding.Statement (.bge o b a) := by
  have hm : ((encBge o b a).extractLsb' 2 6).toNat = 12 := congrArg BitVec.toNat (extract_lo _ 49#8 2 6 (by decide))
  refine fun _ _ => ⟨?_, ?_⟩
  · show candidate (encBge o b a) none = _
    unfold candidate; rw [hm]
    show candidate0C (encBge o b a) = _
    have ho : ((encBge o b a).extractLsb' 18 3).toNat = 3 := by simp (disch := decide) only [encBge, extract_lo, extract_hi, extract_all]; decide
    unfold candidate0C; rw [ho]
    show some (Instr.bge ((encBge o b a).extractLsb' 21 11) ((encBge o b a).extractLsb' 13 5) ((encBge o b a).extractLsb' 8 5)) = _
    simp (disch := decide) only [encBge, extract_lo, extract_hi, extract_all, Nat.reduceSub]
  · show (encBge o b a).getLsbD 0 = true ∧ (encBge o b a).getLsbD 1 = false
    exact ⟨bit_lo _ 49#8 0 (by decide), bit_lo _ 49#8 1 (by decide)⟩
theorem Encoding.bltn (o : BitVec 11) (b a : BitVec 5) : Encoding.Statement (.bltn o b a) := by
  have hm : ((encBltn o b a).extractLsb' 2 6).toNat = 12 := congrArg BitVec.toNat (extract_lo _ 49#8 2 6 (by decide))
  refine fun _ _ => ⟨?_, ?_⟩
  · show candidate (encBltn o b a) none = _
    unfold candidate; rw [hm]
    show candidate0C (encBltn o b a) = _
    have ho : ((encBltn o b a).extractLsb' 18 3).toNat = 4 := by simp (disch := decide) only [encBltn, extract_lo, extract_hi, extract_all]; decide
    unfold candidate0C; rw [ho]
    show some (Instr.bltn ((encBltn o b a).extractLsb' 21 11) ((encBltn o b a).extractLsb' 13 5) ((encBltn o b a).extractLsb' 8 5)) = _
    simp (disch := decide) only [encBltn, extract_lo, extract_hi, extract_all, Nat.reduceSub]
  · show (encBltn o b a).getLsbD 0 = true ∧ (encBltn o b a).getLsbD 1 = false
    exact ⟨bit_lo _ 49#8 0 (by decide), bit_lo _ 49#8 1 (by decide)⟩
theorem Encoding.bgen (o : BitVec 11) (b a : BitVec 5) : Encoding.Statement (.bgen o b a) := by
  have hm : ((encBgen o b a).extractLsb' 2 6).toNat = 12 := congrArg BitVec.toNat (extract_lo _ 49#8 2 6 (by decide))
  refine fun _ _ => ⟨?_, ?_⟩
  · show candidate (encBgen o b a) none = _
    unfold candidate; rw [hm]
    show candidate0C (encBgen o b a) = _
    have ho : ((encBgen o b a).extractLsb' 18 3).toNat = 5 := by simp (disch := decide) only [encBgen, extract_lo, extract_hi, extract_all]; decide
    unfold candidate0C; rw [ho]
    show some (Instr.bgen ((encBgen o b a).extractLsb' 21 11) ((encBgen o b a).extractLsb' 13 5) ((encBgen o b a).extractLsb' 8 5)) = _
    simp (disch := decide) only [encBgen, extract_lo, extract_hi, extract_all, Nat.reduceSub]
  · show (encBgen o b a).getLsbD 0 = true ∧ (encBgen o b a).getLsbD 1 = false
    exact ⟨bit_lo _ 49#8 0 (by decide), bit_lo _ 49#8 1 (by decide)⟩
theorem Encoding.jmp (o : BitVec 24) : Encoding.Statement (.jmp o) := by
  have hm : ((encJmp o).extractLsb' 2 6).toNat = 13 := congrArg BitVec.toNat (extract_lo _ 53#8 2 6 (by decide))
  refine fun _ _ => ⟨?_, ?_⟩
  · show candidate (encJmp o) none = _
    unfold candidate; rw [hm]
    show some (Instr.jmp ((encJmp o).extractLsb' 8 24)) = _
    simp (disch := decide) only [encJmp, extract_lo, extract_hi, extract_all, Nat.reduceSub]
  · show (encJmp o).getLsbD 0 = true ∧ (encJmp o).getLsbD 1 = false
    exact ⟨bit_lo _ 53#8 0 (by decide), bit_lo _ 53#8 1 (by decide)⟩
theorem Encoding.jal (o : BitVec 24) : Encoding.Statement (.jal o) := by
  have hm : ((encJal o).extractLsb' 2 6).toNat = 14 := congrArg BitVec.toNat (extract_lo _ 57#8 2 6 (by decide))
  refine fun _ _ => ⟨?_, ?_⟩
  · show candidate (encJal o) none = _
    unfold candidate; rw [hm]
    show some (Instr.jal ((encJal o).extractLsb' 8 24)) = _
    simp (disch := decide) only [encJal, extract_lo, extract_hi, extract_all, Nat.reduceSub]
  · show (encJal o).getLsbD 0 = true ∧ (encJal o).getLsbD 1 = false
    exact ⟨bit_lo _ 57#8 0 (by decide), bit_lo _ 57#8 1 (by decide)⟩
theorem Encoding.jr (i : BitVec 14) (a d : BitVec 5) : Encoding.Statement (.jr i a d) := by
  have hm : ((encJr i a d).extractLsb' 2 6).toNat = 15 := congrArg BitVec.toNat (extract_lo _ 61#8 2 6 (by decide))
  refine fun _ _ => ⟨?_, ?_⟩
  · show candidate (encJr i a d) none = _
    unfold candidate; rw [hm]
    show some (Instr.jr ((encJr i a d).extractLsb' 18 14) ((encJr i a d).extractLsb' 13 5) ((encJr i a d).extractLsb' 8 5)) = _
    simp (disch := decide) only [encJr, extract_lo, extract_hi, extract_all, Nat.reduceSub]
  · show (encJr i a d).getLsbD 0 = true ∧ (encJr i a d).getLsbD 1 = false
    exact ⟨bit_lo _ 61#8 0 (by decide), bit_lo _ 61#8 1 (by decide)⟩
theorem Encoding.rep (l : BitVec 14) (a : BitVec 5) : Encoding.Statement (.rep l a) := by
  have hm : ((encRep l a).extractLsb' 2 6).toNat = 16 := congrArg BitVec.toNat (extract_lo _ 65#8 2 6 (by decide))
  refine fun _ _ => ⟨?_, ?_⟩
  · show candidate (encRep l a) none = _
    unfold candidate; rw [hm]
    show some (Instr.rep ((encRep l a).extractLsb' 18 14) ((encRep l a).extractLsb' 13 5)) = _
    simp (disch := decide) only [encRep, extract_lo, extract_hi, extract_all, Nat.reduceSub]
  · show (encRep l a).getLsbD 0 = true ∧ (encRep l a).getLsbD 1 = false
    exact ⟨bit_lo _ 65#8 0 (by decide), bit_lo _ 65#8 1 (by decide)⟩
theorem Encoding.nop : Encoding.Statement .nop := by
  have hm : (encNop.extractLsb' 2 6).toNat = 17 := congrArg BitVec.toNat (extract_lo _ 69#8 2 6 (by decide))
  refine fun _ _ => ⟨?_, ?_⟩
  · show candidate encNop none = _
    unfold candidate; rw [hm]
    show candidate11 encNop = _
    have ho : (encNop.extractLsb' 23 9).toNat = 0 := by simp (disch := decide) only [encNop, extract_lo, extract_hi, extract_all]; decide
    unfold candidate11; rw [ho]
    show some (Instr.nop) = _
    simp (disch := decide) only [encNop, extract_lo, extract_hi, extract_all, Nat.reduceSub]
  · show encNop.getLsbD 0 = true ∧ encNop.getLsbD 1 = false
    exact ⟨bit_lo _ 69#8 0 (by decide), bit_lo _ 69#8 1 (by decide)⟩
theorem Encoding.brk : Encoding.Statement .brk := by
  have hm : (encBrk.extractLsb' 2 6).toNat = 17 := congrArg BitVec.toNat (extract_lo _ 69#8 2 6 (by decide))
  refine fun _ _ => ⟨?_, ?_⟩
  · show candidate encBrk none = _
    unfold candidate; rw [hm]
    show candidate11 encBrk = _
    have ho : (encBrk.extractLsb' 23 9).toNat = 1 := by simp (disch := decide) only [encBrk, extract_lo, extract_hi, extract_all]; decide
    unfold candidate11; rw [ho]
    show some (Instr.brk) = _
    simp (disch := decide) only [encBrk, extract_lo, extract_hi, extract_all, Nat.reduceSub]
  · show encBrk.getLsbD 0 = true ∧ encBrk.getLsbD 1 = false
    exact ⟨bit_lo _ 69#8 0 (by decide), bit_lo _ 69#8 1 (by decide)⟩
theorem Encoding.trap (a : BitVec 5) : Encoding.Statement (.trap a) := by
  have hm : ((encTrap a).extractLsb' 2 6).toNat = 17 := congrArg BitVec.toNat (extract_lo _ 69#8 2 6 (by decide))
  refine fun _ _ => ⟨?_, ?_⟩
  · show candidate (encTrap a) none = _
    unfold candidate; rw [hm]
    show candidate11 (encTrap a) = _
    have ho : ((encTrap a).extractLsb' 23 9).toNat = 2 := by simp (disch := decide) only [encTrap, extract_lo, extract_hi, extract_all]; decide
    unfold candidate11; rw [ho]
    show some (Instr.trap ((encTrap a).extractLsb' 13 5)) = _
    simp (disch := decide) only [encTrap, extract_lo, extract_hi, extract_all, Nat.reduceSub]
  · show (encTrap a).getLsbD 0 = true ∧ (encTrap a).getLsbD 1 = false
    exact ⟨bit_lo _ 69#8 0 (by decide), bit_lo _ 69#8 1 (by decide)⟩
theorem Encoding.sysc (a : BitVec 5) : Encoding.Statement (.sysc a) := by
  have hm : ((encSysc a).extractLsb' 2 6).toNat = 17 := congrArg BitVec.toNat (extract_lo _ 69#8 2 6 (by decide))
  refine fun _ _ => ⟨?_, ?_⟩
  · show candidate (encSysc a) none = _
    unfold candidate; rw [hm]
    show candidate11 (encSysc a) = _
    have ho : ((encSysc a).extractLsb' 23 9).toNat = 3 := by simp (disch := decide) only [encSysc, extract_lo, extract_hi, extract_all]; decide
    unfold candidate11; rw [ho]
    show some (Instr.sysc ((encSysc a).extractLsb' 13 5)) = _
    simp (disch := decide) only [encSysc, extract_lo, extract_hi, extract_all, Nat.reduceSub]
  · show (encSysc a).getLsbD 0 = true ∧ (encSysc a).getLsbD 1 = false
    exact ⟨bit_lo _ 69#8 0 (by decide), bit_lo _ 69#8 1 (by decide)⟩
theorem Encoding.eret : Encoding.Statement .eret := by
  have hm : (encEret.extractLsb' 2 6).toNat = 17 := congrArg BitVec.toNat (extract_lo _ 69#8 2 6 (by decide))
  refine fun _ _ => ⟨?_, ?_⟩
  · show candidate encEret none = _
    unfold candidate; rw [hm]
    show candidate11 encEret = _
    have ho : (encEret.extractLsb' 23 9).toNat = 4 := by simp (disch := decide) only [encEret, extract_lo, extract_hi, extract_all]; decide
    unfold candidate11; rw [ho]
    show some (Instr.eret) = _
    simp (disch := decide) only [encEret, extract_lo, extract_hi, extract_all, Nat.reduceSub]
  · show encEret.getLsbD 0 = true ∧ encEret.getLsbD 1 = false
    exact ⟨bit_lo _ 69#8 0 (by decide), bit_lo _ 69#8 1 (by decide)⟩
theorem Encoding.cwr (h : BitVec 1) (n : BitVec 12) (d : BitVec 5) : Encoding.Statement (.cwr h n d) := by
  have hm : ((encCwr h n d).extractLsb' 2 6).toNat = 18 := congrArg BitVec.toNat (extract_lo _ 73#8 2 6 (by decide))
  refine fun _ _ => ⟨?_, ?_⟩
  · show candidate (encCwr h n d) none = _
    unfold candidate; rw [hm]
    show candidate12 (encCwr h n d) = _
    have ho : ((encCwr h n d).extractLsb' 31 1).toNat = 0 := by simp (disch := decide) only [encCwr, extract_lo, extract_hi, extract_all]; decide
    unfold candidate12; rw [ho]
    show some (Instr.cwr ((encCwr h n d).extractLsb' 30 1) ((encCwr h n d).extractLsb' 18 12) ((encCwr h n d).extractLsb' 8 5)) = _
    simp (disch := decide) only [encCwr, extract_lo, extract_hi, extract_all, Nat.reduceSub]
  · show (encCwr h n d).getLsbD 0 = true ∧ (encCwr h n d).getLsbD 1 = false
    exact ⟨bit_lo _ 73#8 0 (by decide), bit_lo _ 73#8 1 (by decide)⟩
theorem Encoding.cww (n : BitVec 12) (a : BitVec 5) : Encoding.Statement (.cww n a) := by
  have hm : ((encCww n a).extractLsb' 2 6).toNat = 18 := congrArg BitVec.toNat (extract_lo _ 73#8 2 6 (by decide))
  refine fun _ _ => ⟨?_, ?_⟩
  · show candidate (encCww n a) none = _
    unfold candidate; rw [hm]
    show candidate12 (encCww n a) = _
    have ho : ((encCww n a).extractLsb' 31 1).toNat = 1 := by simp (disch := decide) only [encCww, extract_lo, extract_hi, extract_all]; decide
    unfold candidate12; rw [ho]
    show some (Instr.cww ((encCww n a).extractLsb' 18 12) ((encCww n a).extractLsb' 13 5)) = _
    simp (disch := decide) only [encCww, extract_lo, extract_hi, extract_all, Nat.reduceSub]
  · show (encCww n a).getLsbD 0 = true ∧ (encCww n a).getLsbD 1 = false
    exact ⟨bit_lo _ 73#8 0 (by decide), bit_lo _ 73#8 1 (by decide)⟩
theorem Encoding.endTask : Encoding.Statement .endTask := by
  have hm : (encEndTask.extractLsb' 2 6).toNat = 19 := congrArg BitVec.toNat (extract_lo _ 77#8 2 6 (by decide))
  refine fun _ _ => ⟨?_, ?_⟩
  · show candidate encEndTask none = _
    unfold candidate; rw [hm]
    show candidate13 encEndTask = _
    have ho : (encEndTask.extractLsb' 28 4).toNat = 0 := by simp (disch := decide) only [encEndTask, extract_lo, extract_hi, extract_all]; decide
    unfold candidate13; rw [ho]
    show some (Instr.endTask) = _
    simp (disch := decide) only [encEndTask, extract_lo, extract_hi, extract_all, Nat.reduceSub]
  · show encEndTask.getLsbD 0 = true ∧ encEndTask.getLsbD 1 = false
    exact ⟨bit_lo _ 77#8 0 (by decide), bit_lo _ 77#8 1 (by decide)⟩
theorem Encoding.arm (b a : BitVec 5) : Encoding.Statement (.arm b a) := by
  have hm : ((encArm b a).extractLsb' 2 6).toNat = 19 := congrArg BitVec.toNat (extract_lo _ 77#8 2 6 (by decide))
  refine fun _ _ => ⟨?_, ?_⟩
  · show candidate (encArm b a) none = _
    unfold candidate; rw [hm]
    show candidate13 (encArm b a) = _
    have ho : ((encArm b a).extractLsb' 28 4).toNat = 1 := by simp (disch := decide) only [encArm, extract_lo, extract_hi, extract_all]; decide
    unfold candidate13; rw [ho]
    show some (Instr.arm ((encArm b a).extractLsb' 18 5) ((encArm b a).extractLsb' 13 5)) = _
    simp (disch := decide) only [encArm, extract_lo, extract_hi, extract_all, Nat.reduceSub]
  · show (encArm b a).getLsbD 0 = true ∧ (encArm b a).getLsbD 1 = false
    exact ⟨bit_lo _ 77#8 0 (by decide), bit_lo _ 77#8 1 (by decide)⟩
theorem Encoding.disarm (a d : BitVec 5) : Encoding.Statement (.disarm a d) := by
  have hm : ((encDisarm a d).extractLsb' 2 6).toNat = 19 := congrArg BitVec.toNat (extract_lo _ 77#8 2 6 (by decide))
  refine fun _ _ => ⟨?_, ?_⟩
  · show candidate (encDisarm a d) none = _
    unfold candidate; rw [hm]
    show candidate13 (encDisarm a d) = _
    have ho : ((encDisarm a d).extractLsb' 28 4).toNat = 2 := by simp (disch := decide) only [encDisarm, extract_lo, extract_hi, extract_all]; decide
    unfold candidate13; rw [ho]
    show some (Instr.disarm ((encDisarm a d).extractLsb' 13 5) ((encDisarm a d).extractLsb' 8 5)) = _
    simp (disch := decide) only [encDisarm, extract_lo, extract_hi, extract_all, Nat.reduceSub]
  · show (encDisarm a d).getLsbD 0 = true ∧ (encDisarm a d).getLsbD 1 = false
    exact ⟨bit_lo _ 77#8 0 (by decide), bit_lo _ 77#8 1 (by decide)⟩
theorem Encoding.waita (c b a : BitVec 5) : Encoding.Statement (.waita c b a) := by
  have hm : ((encWaita c b a).extractLsb' 2 6).toNat = 19 := congrArg BitVec.toNat (extract_lo _ 77#8 2 6 (by decide))
  refine fun _ _ => ⟨?_, ?_⟩
  · show candidate (encWaita c b a) none = _
    unfold candidate; rw [hm]
    show candidate13 (encWaita c b a) = _
    have ho : ((encWaita c b a).extractLsb' 28 4).toNat = 3 := by simp (disch := decide) only [encWaita, extract_lo, extract_hi, extract_all]; decide
    unfold candidate13; rw [ho]
    show some (Instr.waita ((encWaita c b a).extractLsb' 23 5) ((encWaita c b a).extractLsb' 18 5) ((encWaita c b a).extractLsb' 13 5)) = _
    simp (disch := decide) only [encWaita, extract_lo, extract_hi, extract_all, Nat.reduceSub]
  · show (encWaita c b a).getLsbD 0 = true ∧ (encWaita c b a).getLsbD 1 = false
    exact ⟨bit_lo _ 77#8 0 (by decide), bit_lo _ 77#8 1 (by decide)⟩
theorem Encoding.wake (b a : BitVec 5) : Encoding.Statement (.wake b a) := by
  have hm : ((encWake b a).extractLsb' 2 6).toNat = 19 := congrArg BitVec.toNat (extract_lo _ 77#8 2 6 (by decide))
  refine fun _ _ => ⟨?_, ?_⟩
  · show candidate (encWake b a) none = _
    unfold candidate; rw [hm]
    show candidate13 (encWake b a) = _
    have ho : ((encWake b a).extractLsb' 28 4).toNat = 4 := by simp (disch := decide) only [encWake, extract_lo, extract_hi, extract_all]; decide
    unfold candidate13; rw [ho]
    show some (Instr.wake ((encWake b a).extractLsb' 18 5) ((encWake b a).extractLsb' 13 5)) = _
    simp (disch := decide) only [encWake, extract_lo, extract_hi, extract_all, Nat.reduceSub]
  · show (encWake b a).getLsbD 0 = true ∧ (encWake b a).getLsbD 1 = false
    exact ⟨bit_lo _ 77#8 0 (by decide), bit_lo _ 77#8 1 (by decide)⟩
theorem Encoding.tid (d : BitVec 5) : Encoding.Statement (.tid d) := by
  have hm : ((encTid d).extractLsb' 2 6).toNat = 19 := congrArg BitVec.toNat (extract_lo _ 77#8 2 6 (by decide))
  refine fun _ _ => ⟨?_, ?_⟩
  · show candidate (encTid d) none = _
    unfold candidate; rw [hm]
    show candidate13 (encTid d) = _
    have ho : ((encTid d).extractLsb' 28 4).toNat = 5 := by simp (disch := decide) only [encTid, extract_lo, extract_hi, extract_all]; decide
    unfold candidate13; rw [ho]
    show some (Instr.tid ((encTid d).extractLsb' 8 5)) = _
    simp (disch := decide) only [encTid, extract_lo, extract_hi, extract_all, Nat.reduceSub]
  · show (encTid d).getLsbD 0 = true ∧ (encTid d).getLsbD 1 = false
    exact ⟨bit_lo _ 77#8 0 (by decide), bit_lo _ 77#8 1 (by decide)⟩
theorem Encoding.prio (a d : BitVec 5) : Encoding.Statement (.prio a d) := by
  have hm : ((encPrio a d).extractLsb' 2 6).toNat = 19 := congrArg BitVec.toNat (extract_lo _ 77#8 2 6 (by decide))
  refine fun _ _ => ⟨?_, ?_⟩
  · show candidate (encPrio a d) none = _
    unfold candidate; rw [hm]
    show candidate13 (encPrio a d) = _
    have ho : ((encPrio a d).extractLsb' 28 4).toNat = 6 := by simp (disch := decide) only [encPrio, extract_lo, extract_hi, extract_all]; decide
    unfold candidate13; rw [ho]
    show some (Instr.prio ((encPrio a d).extractLsb' 13 5) ((encPrio a d).extractLsb' 8 5)) = _
    simp (disch := decide) only [encPrio, extract_lo, extract_hi, extract_all, Nat.reduceSub]
  · show (encPrio a d).getLsbD 0 = true ∧ (encPrio a d).getLsbD 1 = false
    exact ⟨bit_lo _ 77#8 0 (by decide), bit_lo _ 77#8 1 (by decide)⟩
theorem Encoding.defer (a : BitVec 5) : Encoding.Statement (.defer a) := by
  have hm : ((encDefer a).extractLsb' 2 6).toNat = 19 := congrArg BitVec.toNat (extract_lo _ 77#8 2 6 (by decide))
  refine fun _ _ => ⟨?_, ?_⟩
  · show candidate (encDefer a) none = _
    unfold candidate; rw [hm]
    show candidate13 (encDefer a) = _
    have ho : ((encDefer a).extractLsb' 28 4).toNat = 7 := by simp (disch := decide) only [encDefer, extract_lo, extract_hi, extract_all]; decide
    unfold candidate13; rw [ho]
    show some (Instr.defer ((encDefer a).extractLsb' 13 5)) = _
    simp (disch := decide) only [encDefer, extract_lo, extract_hi, extract_all, Nat.reduceSub]
  · show (encDefer a).getLsbD 0 = true ∧ (encDefer a).getLsbD 1 = false
    exact ⟨bit_lo _ 77#8 0 (by decide), bit_lo _ 77#8 1 (by decide)⟩
theorem Encoding.uiret : Encoding.Statement .uiret := by
  have hm : (encUiret.extractLsb' 2 6).toNat = 19 := congrArg BitVec.toNat (extract_lo _ 77#8 2 6 (by decide))
  refine fun _ _ => ⟨?_, ?_⟩
  · show candidate encUiret none = _
    unfold candidate; rw [hm]
    show candidate13 encUiret = _
    have ho : (encUiret.extractLsb' 28 4).toNat = 8 := by simp (disch := decide) only [encUiret, extract_lo, extract_hi, extract_all]; decide
    unfold candidate13; rw [ho]
    show some (Instr.uiret) = _
    simp (disch := decide) only [encUiret, extract_lo, extract_hi, extract_all, Nat.reduceSub]
  · show encUiret.getLsbD 0 = true ∧ encUiret.getLsbD 1 = false
    exact ⟨bit_lo _ 77#8 0 (by decide), bit_lo _ 77#8 1 (by decide)⟩
theorem Encoding.uimask (a d : BitVec 5) : Encoding.Statement (.uimask a d) := by
  have hm : ((encUimask a d).extractLsb' 2 6).toNat = 19 := congrArg BitVec.toNat (extract_lo _ 77#8 2 6 (by decide))
  refine fun _ _ => ⟨?_, ?_⟩
  · show candidate (encUimask a d) none = _
    unfold candidate; rw [hm]
    show candidate13 (encUimask a d) = _
    have ho : ((encUimask a d).extractLsb' 28 4).toNat = 9 := by simp (disch := decide) only [encUimask, extract_lo, extract_hi, extract_all]; decide
    unfold candidate13; rw [ho]
    show some (Instr.uimask ((encUimask a d).extractLsb' 13 5) ((encUimask a d).extractLsb' 8 5)) = _
    simp (disch := decide) only [encUimask, extract_lo, extract_hi, extract_all, Nat.reduceSub]
  · show (encUimask a d).getLsbD 0 = true ∧ (encUimask a d).getLsbD 1 = false
    exact ⟨bit_lo _ 77#8 0 (by decide), bit_lo _ 77#8 1 (by decide)⟩
theorem Encoding.spawn (c : BitVec 6) (a d : BitVec 5) : Encoding.Statement (.spawn c a d) := by
  have hm : ((encSpawn c a d).extractLsb' 2 6).toNat = 20 := congrArg BitVec.toNat (extract_lo _ 81#8 2 6 (by decide))
  refine fun _ _ => ⟨?_, ?_⟩
  · show candidate (encSpawn c a d) none = _
    unfold candidate; rw [hm]
    show candidate14 (encSpawn c a d) = _
    have ho : ((encSpawn c a d).extractLsb' 31 1).toNat = 0 := by simp (disch := decide) only [encSpawn, extract_lo, extract_hi, extract_all]; decide
    unfold candidate14; rw [ho]
    show some (Instr.spawn ((encSpawn c a d).extractLsb' 18 6) ((encSpawn c a d).extractLsb' 13 5) ((encSpawn c a d).extractLsb' 8 5)) = _
    simp (disch := decide) only [encSpawn, extract_lo, extract_hi, extract_all, Nat.reduceSub]
  · show (encSpawn c a d).getLsbD 0 = true ∧ (encSpawn c a d).getLsbD 1 = false
    exact ⟨bit_lo _ 81#8 0 (by decide), bit_lo _ 81#8 1 (by decide)⟩
theorem Encoding.spawnr (c : BitVec 6) (a d : BitVec 5) : Encoding.Statement (.spawnr c a d) := by
  have hm : ((encSpawnr c a d).extractLsb' 2 6).toNat = 20 := congrArg BitVec.toNat (extract_lo _ 81#8 2 6 (by decide))
  refine fun _ _ => ⟨?_, ?_⟩
  · show candidate (encSpawnr c a d) none = _
    unfold candidate; rw [hm]
    show candidate14 (encSpawnr c a d) = _
    have ho : ((encSpawnr c a d).extractLsb' 31 1).toNat = 1 := by simp (disch := decide) only [encSpawnr, extract_lo, extract_hi, extract_all]; decide
    unfold candidate14; rw [ho]
    show some (Instr.spawnr ((encSpawnr c a d).extractLsb' 18 6) ((encSpawnr c a d).extractLsb' 13 5) ((encSpawnr c a d).extractLsb' 8 5)) = _
    simp (disch := decide) only [encSpawnr, extract_lo, extract_hi, extract_all, Nat.reduceSub]
  · show (encSpawnr c a d).getLsbD 0 = true ∧ (encSpawnr c a d).getLsbD 1 = false
    exact ⟨bit_lo _ 81#8 0 (by decide), bit_lo _ 81#8 1 (by decide)⟩
theorem Encoding.sendR (n : BitVec 5) (q : BitVec 6) (d : BitVec 5) : Encoding.Statement (.sendR n q d) := by
  have hm : ((encSendR n q d).extractLsb' 2 6).toNat = 21 := congrArg BitVec.toNat (extract_lo _ 85#8 2 6 (by decide))
  refine fun _ _ => ⟨?_, ?_⟩
  · show candidate (encSendR n q d) none = _
    unfold candidate; rw [hm]
    show candidate15 (encSendR n q d) = _
    have ho : ((encSendR n q d).extractLsb' 28 4).toNat = 0 := by simp (disch := decide) only [encSendR, extract_lo, extract_hi, extract_all]; decide
    unfold candidate15; rw [ho]
    show some (Instr.sendR ((encSendR n q d).extractLsb' 19 5) ((encSendR n q d).extractLsb' 13 6) ((encSendR n q d).extractLsb' 8 5)) = _
    simp (disch := decide) only [encSendR, extract_lo, extract_hi, extract_all, Nat.reduceSub]
  · show (encSendR n q d).getLsbD 0 = true ∧ (encSendR n q d).getLsbD 1 = false
    exact ⟨bit_lo _ 85#8 0 (by decide), bit_lo _ 85#8 1 (by decide)⟩
theorem Encoding.sendM (n : BitVec 5) (q : BitVec 6) (d : BitVec 5) : Encoding.Statement (.sendM n q d) := by
  have hm : ((encSendM n q d).extractLsb' 2 6).toNat = 21 := congrArg BitVec.toNat (extract_lo _ 85#8 2 6 (by decide))
  refine fun _ _ => ⟨?_, ?_⟩
  · show candidate (encSendM n q d) none = _
    unfold candidate; rw [hm]
    show candidate15 (encSendM n q d) = _
    have ho : ((encSendM n q d).extractLsb' 28 4).toNat = 1 := by simp (disch := decide) only [encSendM, extract_lo, extract_hi, extract_all]; decide
    unfold candidate15; rw [ho]
    show some (Instr.sendM ((encSendM n q d).extractLsb' 19 5) ((encSendM n q d).extractLsb' 13 6) ((encSendM n q d).extractLsb' 8 5)) = _
    simp (disch := decide) only [encSendM, extract_lo, extract_hi, extract_all, Nat.reduceSub]
  · show (encSendM n q d).getLsbD 0 = true ∧ (encSendM n q d).getLsbD 1 = false
    exact ⟨bit_lo _ 85#8 0 (by decide), bit_lo _ 85#8 1 (by decide)⟩
theorem Encoding.sendiR (r : BitVec 2) (n : BitVec 5) (q : BitVec 6) (d : BitVec 5) : Encoding.Statement (.sendiR r n q d) := by
  have hm : ((encSendiR r n q d).extractLsb' 2 6).toNat = 21 := congrArg BitVec.toNat (extract_lo _ 85#8 2 6 (by decide))
  refine fun _ _ => ⟨?_, ?_⟩
  · show candidate (encSendiR r n q d) none = _
    unfold candidate; rw [hm]
    show candidate15 (encSendiR r n q d) = _
    have ho : ((encSendiR r n q d).extractLsb' 28 4).toNat = 2 := by simp (disch := decide) only [encSendiR, extract_lo, extract_hi, extract_all]; decide
    unfold candidate15; rw [ho]
    show some (Instr.sendiR ((encSendiR r n q d).extractLsb' 25 2) ((encSendiR r n q d).extractLsb' 19 5) ((encSendiR r n q d).extractLsb' 13 6) ((encSendiR r n q d).extractLsb' 8 5)) = _
    simp (disch := decide) only [encSendiR, extract_lo, extract_hi, extract_all, Nat.reduceSub]
  · show (encSendiR r n q d).getLsbD 0 = true ∧ (encSendiR r n q d).getLsbD 1 = false
    exact ⟨bit_lo _ 85#8 0 (by decide), bit_lo _ 85#8 1 (by decide)⟩
theorem Encoding.sendiM (r : BitVec 2) (n : BitVec 5) (q : BitVec 6) (d : BitVec 5) : Encoding.Statement (.sendiM r n q d) := by
  have hm : ((encSendiM r n q d).extractLsb' 2 6).toNat = 21 := congrArg BitVec.toNat (extract_lo _ 85#8 2 6 (by decide))
  refine fun _ _ => ⟨?_, ?_⟩
  · show candidate (encSendiM r n q d) none = _
    unfold candidate; rw [hm]
    show candidate15 (encSendiM r n q d) = _
    have ho : ((encSendiM r n q d).extractLsb' 28 4).toNat = 3 := by simp (disch := decide) only [encSendiM, extract_lo, extract_hi, extract_all]; decide
    unfold candidate15; rw [ho]
    show some (Instr.sendiM ((encSendiM r n q d).extractLsb' 25 2) ((encSendiM r n q d).extractLsb' 19 5) ((encSendiM r n q d).extractLsb' 13 6) ((encSendiM r n q d).extractLsb' 8 5)) = _
    simp (disch := decide) only [encSendiM, extract_lo, extract_hi, extract_all, Nat.reduceSub]
  · show (encSendiM r n q d).getLsbD 0 = true ∧ (encSendiM r n q d).getLsbD 1 = false
    exact ⟨bit_lo _ 85#8 0 (by decide), bit_lo _ 85#8 1 (by decide)⟩
theorem Encoding.sendwR (r : BitVec 2) (n d : BitVec 5) : Encoding.Statement (.sendwR r n d) := by
  have hm : ((encSendwR r n d).extractLsb' 2 6).toNat = 21 := congrArg BitVec.toNat (extract_lo _ 85#8 2 6 (by decide))
  refine fun _ _ => ⟨?_, ?_⟩
  · show candidate (encSendwR r n d) none = _
    unfold candidate; rw [hm]
    show candidate15 (encSendwR r n d) = _
    have ho : ((encSendwR r n d).extractLsb' 28 4).toNat = 4 := by simp (disch := decide) only [encSendwR, extract_lo, extract_hi, extract_all]; decide
    unfold candidate15; rw [ho]
    show some (Instr.sendwR ((encSendwR r n d).extractLsb' 25 2) ((encSendwR r n d).extractLsb' 19 5) ((encSendwR r n d).extractLsb' 8 5)) = _
    simp (disch := decide) only [encSendwR, extract_lo, extract_hi, extract_all, Nat.reduceSub]
  · show (encSendwR r n d).getLsbD 0 = true ∧ (encSendwR r n d).getLsbD 1 = false
    exact ⟨bit_lo _ 85#8 0 (by decide), bit_lo _ 85#8 1 (by decide)⟩
theorem Encoding.sendwM (r : BitVec 2) (n d : BitVec 5) : Encoding.Statement (.sendwM r n d) := by
  have hm : ((encSendwM r n d).extractLsb' 2 6).toNat = 21 := congrArg BitVec.toNat (extract_lo _ 85#8 2 6 (by decide))
  refine fun _ _ => ⟨?_, ?_⟩
  · show candidate (encSendwM r n d) none = _
    unfold candidate; rw [hm]
    show candidate15 (encSendwM r n d) = _
    have ho : ((encSendwM r n d).extractLsb' 28 4).toNat = 5 := by simp (disch := decide) only [encSendwM, extract_lo, extract_hi, extract_all]; decide
    unfold candidate15; rw [ho]
    show some (Instr.sendwM ((encSendwM r n d).extractLsb' 25 2) ((encSendwM r n d).extractLsb' 19 5) ((encSendwM r n d).extractLsb' 8 5)) = _
    simp (disch := decide) only [encSendwM, extract_lo, extract_hi, extract_all, Nat.reduceSub]
  · show (encSendwM r n d).getLsbD 0 = true ∧ (encSendwM r n d).getLsbD 1 = false
    exact ⟨bit_lo _ 85#8 0 (by decide), bit_lo _ 85#8 1 (by decide)⟩
theorem Encoding.replyR (n d : BitVec 5) : Encoding.Statement (.replyR n d) := by
  have hm : ((encReplyR n d).extractLsb' 2 6).toNat = 21 := congrArg BitVec.toNat (extract_lo _ 85#8 2 6 (by decide))
  refine fun _ _ => ⟨?_, ?_⟩
  · show candidate (encReplyR n d) none = _
    unfold candidate; rw [hm]
    show candidate15 (encReplyR n d) = _
    have ho : ((encReplyR n d).extractLsb' 28 4).toNat = 6 := by simp (disch := decide) only [encReplyR, extract_lo, extract_hi, extract_all]; decide
    unfold candidate15; rw [ho]
    show some (Instr.replyR ((encReplyR n d).extractLsb' 19 5) ((encReplyR n d).extractLsb' 8 5)) = _
    simp (disch := decide) only [encReplyR, extract_lo, extract_hi, extract_all, Nat.reduceSub]
  · show (encReplyR n d).getLsbD 0 = true ∧ (encReplyR n d).getLsbD 1 = false
    exact ⟨bit_lo _ 85#8 0 (by decide), bit_lo _ 85#8 1 (by decide)⟩
theorem Encoding.replyM (n d : BitVec 5) : Encoding.Statement (.replyM n d) := by
  have hm : ((encReplyM n d).extractLsb' 2 6).toNat = 21 := congrArg BitVec.toNat (extract_lo _ 85#8 2 6 (by decide))
  refine fun _ _ => ⟨?_, ?_⟩
  · show candidate (encReplyM n d) none = _
    unfold candidate; rw [hm]
    show candidate15 (encReplyM n d) = _
    have ho : ((encReplyM n d).extractLsb' 28 4).toNat = 7 := by simp (disch := decide) only [encReplyM, extract_lo, extract_hi, extract_all]; decide
    unfold candidate15; rw [ho]
    show some (Instr.replyM ((encReplyM n d).extractLsb' 19 5) ((encReplyM n d).extractLsb' 8 5)) = _
    simp (disch := decide) only [encReplyM, extract_lo, extract_hi, extract_all, Nat.reduceSub]
  · show (encReplyM n d).getLsbD 0 = true ∧ (encReplyM n d).getLsbD 1 = false
    exact ⟨bit_lo _ 85#8 0 (by decide), bit_lo _ 85#8 1 (by decide)⟩
theorem Encoding.refuse : Encoding.Statement .refuse := by
  have hm : (encRefuse.extractLsb' 2 6).toNat = 21 := congrArg BitVec.toNat (extract_lo _ 85#8 2 6 (by decide))
  refine fun _ _ => ⟨?_, ?_⟩
  · show candidate encRefuse none = _
    unfold candidate; rw [hm]
    show candidate15 encRefuse = _
    have ho : (encRefuse.extractLsb' 28 4).toNat = 8 := by simp (disch := decide) only [encRefuse, extract_lo, extract_hi, extract_all]; decide
    unfold candidate15; rw [ho]
    show some (Instr.refuse) = _
    simp (disch := decide) only [encRefuse, extract_lo, extract_hi, extract_all, Nat.reduceSub]
  · show encRefuse.getLsbD 0 = true ∧ encRefuse.getLsbD 1 = false
    exact ⟨bit_lo _ 85#8 0 (by decide), bit_lo _ 85#8 1 (by decide)⟩
theorem Encoding.qpeekQ (i q : BitVec 6) (d : BitVec 5) : Encoding.Statement (.qpeekQ i q d) := by
  have hm : ((encQpeekQ i q d).extractLsb' 2 6).toNat = 22 := congrArg BitVec.toNat (extract_lo _ 89#8 2 6 (by decide))
  refine fun _ _ => ⟨?_, ?_⟩
  · show candidate (encQpeekQ i q d) none = _
    unfold candidate; rw [hm]
    show candidate16 (encQpeekQ i q d) = _
    have ho : ((encQpeekQ i q d).extractLsb' 28 4).toNat = 0 := by simp (disch := decide) only [encQpeekQ, extract_lo, extract_hi, extract_all]; decide
    unfold candidate16; rw [ho]
    show some (Instr.qpeekQ ((encQpeekQ i q d).extractLsb' 19 6) ((encQpeekQ i q d).extractLsb' 13 6) ((encQpeekQ i q d).extractLsb' 8 5)) = _
    simp (disch := decide) only [encQpeekQ, extract_lo, extract_hi, extract_all, Nat.reduceSub]
  · show (encQpeekQ i q d).getLsbD 0 = true ∧ (encQpeekQ i q d).getLsbD 1 = false
    exact ⟨bit_lo _ 89#8 0 (by decide), bit_lo _ 89#8 1 (by decide)⟩
theorem Encoding.qpeekC (h : BitVec 1) (i q : BitVec 6) (d : BitVec 5) : Encoding.Statement (.qpeekC h i q d) := by
  have hm : ((encQpeekC h i q d).extractLsb' 2 6).toNat = 22 := congrArg BitVec.toNat (extract_lo _ 89#8 2 6 (by decide))
  refine fun _ _ => ⟨?_, ?_⟩
  · show candidate (encQpeekC h i q d) none = _
    unfold candidate; rw [hm]
    show candidate16 (encQpeekC h i q d) = _
    have ho : ((encQpeekC h i q d).extractLsb' 28 4).toNat = 1 := by simp (disch := decide) only [encQpeekC, extract_lo, extract_hi, extract_all]; decide
    unfold candidate16; rw [ho]
    show some (Instr.qpeekC ((encQpeekC h i q d).extractLsb' 25 1) ((encQpeekC h i q d).extractLsb' 19 6) ((encQpeekC h i q d).extractLsb' 13 6) ((encQpeekC h i q d).extractLsb' 8 5)) = _
    simp (disch := decide) only [encQpeekC, extract_lo, extract_hi, extract_all, Nat.reduceSub]
  · show (encQpeekC h i q d).getLsbD 0 = true ∧ (encQpeekC h i q d).getLsbD 1 = false
    exact ⟨bit_lo _ 89#8 0 (by decide), bit_lo _ 89#8 1 (by decide)⟩
theorem Encoding.qcntQ (q : BitVec 6) (d : BitVec 5) : Encoding.Statement (.qcntQ q d) := by
  have hm : ((encQcntQ q d).extractLsb' 2 6).toNat = 22 := congrArg BitVec.toNat (extract_lo _ 89#8 2 6 (by decide))
  refine fun _ _ => ⟨?_, ?_⟩
  · show candidate (encQcntQ q d) none = _
    unfold candidate; rw [hm]
    show candidate16 (encQcntQ q d) = _
    have ho : ((encQcntQ q d).extractLsb' 28 4).toNat = 2 := by simp (disch := decide) only [encQcntQ, extract_lo, extract_hi, extract_all]; decide
    unfold candidate16; rw [ho]
    show some (Instr.qcntQ ((encQcntQ q d).extractLsb' 13 6) ((encQcntQ q d).extractLsb' 8 5)) = _
    simp (disch := decide) only [encQcntQ, extract_lo, extract_hi, extract_all, Nat.reduceSub]
  · show (encQcntQ q d).getLsbD 0 = true ∧ (encQcntQ q d).getLsbD 1 = false
    exact ⟨bit_lo _ 89#8 0 (by decide), bit_lo _ 89#8 1 (by decide)⟩
theorem Encoding.qcntC (q : BitVec 6) (d : BitVec 5) : Encoding.Statement (.qcntC q d) := by
  have hm : ((encQcntC q d).extractLsb' 2 6).toNat = 22 := congrArg BitVec.toNat (extract_lo _ 89#8 2 6 (by decide))
  refine fun _ _ => ⟨?_, ?_⟩
  · show candidate (encQcntC q d) none = _
    unfold candidate; rw [hm]
    show candidate16 (encQcntC q d) = _
    have ho : ((encQcntC q d).extractLsb' 28 4).toNat = 3 := by simp (disch := decide) only [encQcntC, extract_lo, extract_hi, extract_all]; decide
    unfold candidate16; rw [ho]
    show some (Instr.qcntC ((encQcntC q d).extractLsb' 13 6) ((encQcntC q d).extractLsb' 8 5)) = _
    simp (disch := decide) only [encQcntC, extract_lo, extract_hi, extract_all, Nat.reduceSub]
  · show (encQcntC q d).getLsbD 0 = true ∧ (encQcntC q d).getLsbD 1 = false
    exact ⟨bit_lo _ 89#8 0 (by decide), bit_lo _ 89#8 1 (by decide)⟩
theorem Encoding.qflushQ (q : BitVec 6) : Encoding.Statement (.qflushQ q) := by
  have hm : ((encQflushQ q).extractLsb' 2 6).toNat = 22 := congrArg BitVec.toNat (extract_lo _ 89#8 2 6 (by decide))
  refine fun _ _ => ⟨?_, ?_⟩
  · show candidate (encQflushQ q) none = _
    unfold candidate; rw [hm]
    show candidate16 (encQflushQ q) = _
    have ho : ((encQflushQ q).extractLsb' 28 4).toNat = 4 := by simp (disch := decide) only [encQflushQ, extract_lo, extract_hi, extract_all]; decide
    unfold candidate16; rw [ho]
    show some (Instr.qflushQ ((encQflushQ q).extractLsb' 13 6)) = _
    simp (disch := decide) only [encQflushQ, extract_lo, extract_hi, extract_all, Nat.reduceSub]
  · show (encQflushQ q).getLsbD 0 = true ∧ (encQflushQ q).getLsbD 1 = false
    exact ⟨bit_lo _ 89#8 0 (by decide), bit_lo _ 89#8 1 (by decide)⟩
theorem Encoding.qflushC (q : BitVec 6) : Encoding.Statement (.qflushC q) := by
  have hm : ((encQflushC q).extractLsb' 2 6).toNat = 22 := congrArg BitVec.toNat (extract_lo _ 89#8 2 6 (by decide))
  refine fun _ _ => ⟨?_, ?_⟩
  · show candidate (encQflushC q) none = _
    unfold candidate; rw [hm]
    show candidate16 (encQflushC q) = _
    have ho : ((encQflushC q).extractLsb' 28 4).toNat = 5 := by simp (disch := decide) only [encQflushC, extract_lo, extract_hi, extract_all]; decide
    unfold candidate16; rw [ho]
    show some (Instr.qflushC ((encQflushC q).extractLsb' 13 6)) = _
    simp (disch := decide) only [encQflushC, extract_lo, extract_hi, extract_all, Nat.reduceSub]
  · show (encQflushC q).getLsbD 0 = true ∧ (encQflushC q).getLsbD 1 = false
    exact ⟨bit_lo _ 89#8 0 (by decide), bit_lo _ 89#8 1 (by decide)⟩
theorem Encoding.qbind (q : BitVec 6) (d : BitVec 5) : Encoding.Statement (.qbind q d) := by
  have hm : ((encQbind q d).extractLsb' 2 6).toNat = 22 := congrArg BitVec.toNat (extract_lo _ 89#8 2 6 (by decide))
  refine fun _ _ => ⟨?_, ?_⟩
  · show candidate (encQbind q d) none = _
    unfold candidate; rw [hm]
    show candidate16 (encQbind q d) = _
    have ho : ((encQbind q d).extractLsb' 28 4).toNat = 6 := by simp (disch := decide) only [encQbind, extract_lo, extract_hi, extract_all]; decide
    unfold candidate16; rw [ho]
    show some (Instr.qbind ((encQbind q d).extractLsb' 13 6) ((encQbind q d).extractLsb' 8 5)) = _
    simp (disch := decide) only [encQbind, extract_lo, extract_hi, extract_all, Nat.reduceSub]
  · show (encQbind q d).getLsbD 0 = true ∧ (encQbind q d).getLsbD 1 = false
    exact ⟨bit_lo _ 89#8 0 (by decide), bit_lo _ 89#8 1 (by decide)⟩
theorem Encoding.chopen (q : BitVec 6) (d : BitVec 5) : Encoding.Statement (.chopen q d) := by
  have hm : ((encChopen q d).extractLsb' 2 6).toNat = 22 := congrArg BitVec.toNat (extract_lo _ 89#8 2 6 (by decide))
  refine fun _ _ => ⟨?_, ?_⟩
  · show candidate (encChopen q d) none = _
    unfold candidate; rw [hm]
    show candidate16 (encChopen q d) = _
    have ho : ((encChopen q d).extractLsb' 28 4).toNat = 7 := by simp (disch := decide) only [encChopen, extract_lo, extract_hi, extract_all]; decide
    unfold candidate16; rw [ho]
    show some (Instr.chopen ((encChopen q d).extractLsb' 13 6) ((encChopen q d).extractLsb' 8 5)) = _
    simp (disch := decide) only [encChopen, extract_lo, extract_hi, extract_all, Nat.reduceSub]
  · show (encChopen q d).getLsbD 0 = true ∧ (encChopen q d).getLsbD 1 = false
    exact ⟨bit_lo _ 89#8 0 (by decide), bit_lo _ 89#8 1 (by decide)⟩
theorem Encoding.chclose (q : BitVec 6) : Encoding.Statement (.chclose q) := by
  have hm : ((encChclose q).extractLsb' 2 6).toNat = 22 := congrArg BitVec.toNat (extract_lo _ 89#8 2 6 (by decide))
  refine fun _ _ => ⟨?_, ?_⟩
  · show candidate (encChclose q) none = _
    unfold candidate; rw [hm]
    show candidate16 (encChclose q) = _
    have ho : ((encChclose q).extractLsb' 28 4).toNat = 8 := by simp (disch := decide) only [encChclose, extract_lo, extract_hi, extract_all]; decide
    unfold candidate16; rw [ho]
    show some (Instr.chclose ((encChclose q).extractLsb' 13 6)) = _
    simp (disch := decide) only [encChclose, extract_lo, extract_hi, extract_all, Nat.reduceSub]
  · show (encChclose q).getLsbD 0 = true ∧ (encChclose q).getLsbD 1 = false
    exact ⟨bit_lo _ 89#8 0 (by decide), bit_lo _ 89#8 1 (by decide)⟩
theorem Encoding.chstat (q : BitVec 6) (d : BitVec 5) : Encoding.Statement (.chstat q d) := by
  have hm : ((encChstat q d).extractLsb' 2 6).toNat = 22 := congrArg BitVec.toNat (extract_lo _ 89#8 2 6 (by decide))
  refine fun _ _ => ⟨?_, ?_⟩
  · show candidate (encChstat q d) none = _
    unfold candidate; rw [hm]
    show candidate16 (encChstat q d) = _
    have ho : ((encChstat q d).extractLsb' 28 4).toNat = 9 := by simp (disch := decide) only [encChstat, extract_lo, extract_hi, extract_all]; decide
    unfold candidate16; rw [ho]
    show some (Instr.chstat ((encChstat q d).extractLsb' 13 6) ((encChstat q d).extractLsb' 8 5)) = _
    simp (disch := decide) only [encChstat, extract_lo, extract_hi, extract_all, Nat.reduceSub]
  · show (encChstat q d).getLsbD 0 = true ∧ (encChstat q d).getLsbD 1 = false
    exact ⟨bit_lo _ 89#8 0 (by decide), bit_lo _ 89#8 1 (by decide)⟩
theorem Encoding.ldBZ (g : BitVec 4) (o : BitVec 7) (a d : BitVec 5) : Encoding.Statement (.ldBZ g o a d) := by
  have hm : ((encLdBZ g o a d).extractLsb' 2 6).toNat = 23 := congrArg BitVec.toNat (extract_lo _ 93#8 2 6 (by decide))
  refine fun _ _ => ⟨?_, ?_⟩
  · show candidate (encLdBZ g o a d) none = _
    unfold candidate; rw [hm]
    show candidate17 (encLdBZ g o a d) = _
    have ho : ((encLdBZ g o a d).extractLsb' 25 3).toNat = 0 := by simp (disch := decide) only [encLdBZ, extract_lo, extract_hi, extract_all]; decide
    unfold candidate17; rw [ho]
    show some (Instr.ldBZ ((encLdBZ g o a d).extractLsb' 28 4) ((encLdBZ g o a d).extractLsb' 18 7) ((encLdBZ g o a d).extractLsb' 13 5) ((encLdBZ g o a d).extractLsb' 8 5)) = _
    simp (disch := decide) only [encLdBZ, extract_lo, extract_hi, extract_all, Nat.reduceSub]
  · show (encLdBZ g o a d).getLsbD 0 = true ∧ (encLdBZ g o a d).getLsbD 1 = false
    exact ⟨bit_lo _ 93#8 0 (by decide), bit_lo _ 93#8 1 (by decide)⟩
theorem Encoding.ldBS (g : BitVec 4) (o : BitVec 7) (a d : BitVec 5) : Encoding.Statement (.ldBS g o a d) := by
  have hm : ((encLdBS g o a d).extractLsb' 2 6).toNat = 23 := congrArg BitVec.toNat (extract_lo _ 93#8 2 6 (by decide))
  refine fun _ _ => ⟨?_, ?_⟩
  · show candidate (encLdBS g o a d) none = _
    unfold candidate; rw [hm]
    show candidate17 (encLdBS g o a d) = _
    have ho : ((encLdBS g o a d).extractLsb' 25 3).toNat = 1 := by simp (disch := decide) only [encLdBS, extract_lo, extract_hi, extract_all]; decide
    unfold candidate17; rw [ho]
    show some (Instr.ldBS ((encLdBS g o a d).extractLsb' 28 4) ((encLdBS g o a d).extractLsb' 18 7) ((encLdBS g o a d).extractLsb' 13 5) ((encLdBS g o a d).extractLsb' 8 5)) = _
    simp (disch := decide) only [encLdBS, extract_lo, extract_hi, extract_all, Nat.reduceSub]
  · show (encLdBS g o a d).getLsbD 0 = true ∧ (encLdBS g o a d).getLsbD 1 = false
    exact ⟨bit_lo _ 93#8 0 (by decide), bit_lo _ 93#8 1 (by decide)⟩
theorem Encoding.ldHZ (g : BitVec 4) (o : BitVec 7) (a d : BitVec 5) : Encoding.Statement (.ldHZ g o a d) := by
  have hm : ((encLdHZ g o a d).extractLsb' 2 6).toNat = 23 := congrArg BitVec.toNat (extract_lo _ 93#8 2 6 (by decide))
  refine fun _ _ => ⟨?_, ?_⟩
  · show candidate (encLdHZ g o a d) none = _
    unfold candidate; rw [hm]
    show candidate17 (encLdHZ g o a d) = _
    have ho : ((encLdHZ g o a d).extractLsb' 25 3).toNat = 2 := by simp (disch := decide) only [encLdHZ, extract_lo, extract_hi, extract_all]; decide
    unfold candidate17; rw [ho]
    show some (Instr.ldHZ ((encLdHZ g o a d).extractLsb' 28 4) ((encLdHZ g o a d).extractLsb' 18 7) ((encLdHZ g o a d).extractLsb' 13 5) ((encLdHZ g o a d).extractLsb' 8 5)) = _
    simp (disch := decide) only [encLdHZ, extract_lo, extract_hi, extract_all, Nat.reduceSub]
  · show (encLdHZ g o a d).getLsbD 0 = true ∧ (encLdHZ g o a d).getLsbD 1 = false
    exact ⟨bit_lo _ 93#8 0 (by decide), bit_lo _ 93#8 1 (by decide)⟩
theorem Encoding.ldHS (g : BitVec 4) (o : BitVec 7) (a d : BitVec 5) : Encoding.Statement (.ldHS g o a d) := by
  have hm : ((encLdHS g o a d).extractLsb' 2 6).toNat = 23 := congrArg BitVec.toNat (extract_lo _ 93#8 2 6 (by decide))
  refine fun _ _ => ⟨?_, ?_⟩
  · show candidate (encLdHS g o a d) none = _
    unfold candidate; rw [hm]
    show candidate17 (encLdHS g o a d) = _
    have ho : ((encLdHS g o a d).extractLsb' 25 3).toNat = 3 := by simp (disch := decide) only [encLdHS, extract_lo, extract_hi, extract_all]; decide
    unfold candidate17; rw [ho]
    show some (Instr.ldHS ((encLdHS g o a d).extractLsb' 28 4) ((encLdHS g o a d).extractLsb' 18 7) ((encLdHS g o a d).extractLsb' 13 5) ((encLdHS g o a d).extractLsb' 8 5)) = _
    simp (disch := decide) only [encLdHS, extract_lo, extract_hi, extract_all, Nat.reduceSub]
  · show (encLdHS g o a d).getLsbD 0 = true ∧ (encLdHS g o a d).getLsbD 1 = false
    exact ⟨bit_lo _ 93#8 0 (by decide), bit_lo _ 93#8 1 (by decide)⟩
theorem Encoding.ldWZ (g : BitVec 4) (o : BitVec 7) (a d : BitVec 5) : Encoding.Statement (.ldWZ g o a d) := by
  have hm : ((encLdWZ g o a d).extractLsb' 2 6).toNat = 23 := congrArg BitVec.toNat (extract_lo _ 93#8 2 6 (by decide))
  refine fun _ _ => ⟨?_, ?_⟩
  · show candidate (encLdWZ g o a d) none = _
    unfold candidate; rw [hm]
    show candidate17 (encLdWZ g o a d) = _
    have ho : ((encLdWZ g o a d).extractLsb' 25 3).toNat = 4 := by simp (disch := decide) only [encLdWZ, extract_lo, extract_hi, extract_all]; decide
    unfold candidate17; rw [ho]
    show some (Instr.ldWZ ((encLdWZ g o a d).extractLsb' 28 4) ((encLdWZ g o a d).extractLsb' 18 7) ((encLdWZ g o a d).extractLsb' 13 5) ((encLdWZ g o a d).extractLsb' 8 5)) = _
    simp (disch := decide) only [encLdWZ, extract_lo, extract_hi, extract_all, Nat.reduceSub]
  · show (encLdWZ g o a d).getLsbD 0 = true ∧ (encLdWZ g o a d).getLsbD 1 = false
    exact ⟨bit_lo _ 93#8 0 (by decide), bit_lo _ 93#8 1 (by decide)⟩
theorem Encoding.ldWS (g : BitVec 4) (o : BitVec 7) (a d : BitVec 5) : Encoding.Statement (.ldWS g o a d) := by
  have hm : ((encLdWS g o a d).extractLsb' 2 6).toNat = 23 := congrArg BitVec.toNat (extract_lo _ 93#8 2 6 (by decide))
  refine fun _ _ => ⟨?_, ?_⟩
  · show candidate (encLdWS g o a d) none = _
    unfold candidate; rw [hm]
    show candidate17 (encLdWS g o a d) = _
    have ho : ((encLdWS g o a d).extractLsb' 25 3).toNat = 5 := by simp (disch := decide) only [encLdWS, extract_lo, extract_hi, extract_all]; decide
    unfold candidate17; rw [ho]
    show some (Instr.ldWS ((encLdWS g o a d).extractLsb' 28 4) ((encLdWS g o a d).extractLsb' 18 7) ((encLdWS g o a d).extractLsb' 13 5) ((encLdWS g o a d).extractLsb' 8 5)) = _
    simp (disch := decide) only [encLdWS, extract_lo, extract_hi, extract_all, Nat.reduceSub]
  · show (encLdWS g o a d).getLsbD 0 = true ∧ (encLdWS g o a d).getLsbD 1 = false
    exact ⟨bit_lo _ 93#8 0 (by decide), bit_lo _ 93#8 1 (by decide)⟩
theorem Encoding.ldD (g : BitVec 4) (o : BitVec 7) (a d : BitVec 5) : Encoding.Statement (.ldD g o a d) := by
  have hm : ((encLdD g o a d).extractLsb' 2 6).toNat = 23 := congrArg BitVec.toNat (extract_lo _ 93#8 2 6 (by decide))
  refine fun _ _ => ⟨?_, ?_⟩
  · show candidate (encLdD g o a d) none = _
    unfold candidate; rw [hm]
    show candidate17 (encLdD g o a d) = _
    have ho : ((encLdD g o a d).extractLsb' 25 3).toNat = 6 := by simp (disch := decide) only [encLdD, extract_lo, extract_hi, extract_all]; decide
    unfold candidate17; rw [ho]
    show some (Instr.ldD ((encLdD g o a d).extractLsb' 28 4) ((encLdD g o a d).extractLsb' 18 7) ((encLdD g o a d).extractLsb' 13 5) ((encLdD g o a d).extractLsb' 8 5)) = _
    simp (disch := decide) only [encLdD, extract_lo, extract_hi, extract_all, Nat.reduceSub]
  · show (encLdD g o a d).getLsbD 0 = true ∧ (encLdD g o a d).getLsbD 1 = false
    exact ⟨bit_lo _ 93#8 0 (by decide), bit_lo _ 93#8 1 (by decide)⟩
theorem Encoding.stB (g : BitVec 4) (o : BitVec 7) (a d : BitVec 5) : Encoding.Statement (.stB g o a d) := by
  have hm : ((encStB g o a d).extractLsb' 2 6).toNat = 24 := congrArg BitVec.toNat (extract_lo _ 97#8 2 6 (by decide))
  refine fun _ _ => ⟨?_, ?_⟩
  · show candidate (encStB g o a d) none = _
    unfold candidate; rw [hm]
    show candidate18 (encStB g o a d) = _
    have ho : ((encStB g o a d).extractLsb' 26 2).toNat = 0 := by simp (disch := decide) only [encStB, extract_lo, extract_hi, extract_all]; decide
    unfold candidate18; rw [ho]
    show some (Instr.stB ((encStB g o a d).extractLsb' 28 4) ((encStB g o a d).extractLsb' 18 7) ((encStB g o a d).extractLsb' 13 5) ((encStB g o a d).extractLsb' 8 5)) = _
    simp (disch := decide) only [encStB, extract_lo, extract_hi, extract_all, Nat.reduceSub]
  · show (encStB g o a d).getLsbD 0 = true ∧ (encStB g o a d).getLsbD 1 = false
    exact ⟨bit_lo _ 97#8 0 (by decide), bit_lo _ 97#8 1 (by decide)⟩
theorem Encoding.stH (g : BitVec 4) (o : BitVec 7) (a d : BitVec 5) : Encoding.Statement (.stH g o a d) := by
  have hm : ((encStH g o a d).extractLsb' 2 6).toNat = 24 := congrArg BitVec.toNat (extract_lo _ 97#8 2 6 (by decide))
  refine fun _ _ => ⟨?_, ?_⟩
  · show candidate (encStH g o a d) none = _
    unfold candidate; rw [hm]
    show candidate18 (encStH g o a d) = _
    have ho : ((encStH g o a d).extractLsb' 26 2).toNat = 1 := by simp (disch := decide) only [encStH, extract_lo, extract_hi, extract_all]; decide
    unfold candidate18; rw [ho]
    show some (Instr.stH ((encStH g o a d).extractLsb' 28 4) ((encStH g o a d).extractLsb' 18 7) ((encStH g o a d).extractLsb' 13 5) ((encStH g o a d).extractLsb' 8 5)) = _
    simp (disch := decide) only [encStH, extract_lo, extract_hi, extract_all, Nat.reduceSub]
  · show (encStH g o a d).getLsbD 0 = true ∧ (encStH g o a d).getLsbD 1 = false
    exact ⟨bit_lo _ 97#8 0 (by decide), bit_lo _ 97#8 1 (by decide)⟩
theorem Encoding.stW (g : BitVec 4) (o : BitVec 7) (a d : BitVec 5) : Encoding.Statement (.stW g o a d) := by
  have hm : ((encStW g o a d).extractLsb' 2 6).toNat = 24 := congrArg BitVec.toNat (extract_lo _ 97#8 2 6 (by decide))
  refine fun _ _ => ⟨?_, ?_⟩
  · show candidate (encStW g o a d) none = _
    unfold candidate; rw [hm]
    show candidate18 (encStW g o a d) = _
    have ho : ((encStW g o a d).extractLsb' 26 2).toNat = 2 := by simp (disch := decide) only [encStW, extract_lo, extract_hi, extract_all]; decide
    unfold candidate18; rw [ho]
    show some (Instr.stW ((encStW g o a d).extractLsb' 28 4) ((encStW g o a d).extractLsb' 18 7) ((encStW g o a d).extractLsb' 13 5) ((encStW g o a d).extractLsb' 8 5)) = _
    simp (disch := decide) only [encStW, extract_lo, extract_hi, extract_all, Nat.reduceSub]
  · show (encStW g o a d).getLsbD 0 = true ∧ (encStW g o a d).getLsbD 1 = false
    exact ⟨bit_lo _ 97#8 0 (by decide), bit_lo _ 97#8 1 (by decide)⟩
theorem Encoding.stD (g : BitVec 4) (o : BitVec 7) (a d : BitVec 5) : Encoding.Statement (.stD g o a d) := by
  have hm : ((encStD g o a d).extractLsb' 2 6).toNat = 24 := congrArg BitVec.toNat (extract_lo _ 97#8 2 6 (by decide))
  refine fun _ _ => ⟨?_, ?_⟩
  · show candidate (encStD g o a d) none = _
    unfold candidate; rw [hm]
    show candidate18 (encStD g o a d) = _
    have ho : ((encStD g o a d).extractLsb' 26 2).toNat = 3 := by simp (disch := decide) only [encStD, extract_lo, extract_hi, extract_all]; decide
    unfold candidate18; rw [ho]
    show some (Instr.stD ((encStD g o a d).extractLsb' 28 4) ((encStD g o a d).extractLsb' 18 7) ((encStD g o a d).extractLsb' 13 5) ((encStD g o a d).extractLsb' 8 5)) = _
    simp (disch := decide) only [encStD, extract_lo, extract_hi, extract_all, Nat.reduceSub]
  · show (encStD g o a d).getLsbD 0 = true ∧ (encStD g o a d).getLsbD 1 = false
    exact ⟨bit_lo _ 97#8 0 (by decide), bit_lo _ 97#8 1 (by decide)⟩
theorem Encoding.ldq (g : BitVec 4) (n q : BitVec 6) (d : BitVec 5) : Encoding.Statement (.ldq g n q d) := by
  have hm : ((encLdq g n q d).extractLsb' 2 6).toNat = 25 := congrArg BitVec.toNat (extract_lo _ 101#8 2 6 (by decide))
  refine fun _ _ => ⟨?_, ?_⟩
  · show candidate (encLdq g n q d) none = _
    unfold candidate; rw [hm]
    show candidate19 (encLdq g n q d) = _
    have ho : ((encLdq g n q d).extractLsb' 30 2).toNat = 0 := by simp (disch := decide) only [encLdq, extract_lo, extract_hi, extract_all]; decide
    unfold candidate19; rw [ho]
    show some (Instr.ldq ((encLdq g n q d).extractLsb' 26 4) ((encLdq g n q d).extractLsb' 19 6) ((encLdq g n q d).extractLsb' 13 6) ((encLdq g n q d).extractLsb' 8 5)) = _
    simp (disch := decide) only [encLdq, extract_lo, extract_hi, extract_all, Nat.reduceSub]
  · show (encLdq g n q d).getLsbD 0 = true ∧ (encLdq g n q d).getLsbD 1 = false
    exact ⟨bit_lo _ 101#8 0 (by decide), bit_lo _ 101#8 1 (by decide)⟩
theorem Encoding.stq (g : BitVec 4) (n : BitVec 6) (d : BitVec 5) : Encoding.Statement (.stq g n d) := by
  have hm : ((encStq g n d).extractLsb' 2 6).toNat = 25 := congrArg BitVec.toNat (extract_lo _ 101#8 2 6 (by decide))
  refine fun _ _ => ⟨?_, ?_⟩
  · show candidate (encStq g n d) none = _
    unfold candidate; rw [hm]
    show candidate19 (encStq g n d) = _
    have ho : ((encStq g n d).extractLsb' 30 2).toNat = 1 := by simp (disch := decide) only [encStq, extract_lo, extract_hi, extract_all]; decide
    unfold candidate19; rw [ho]
    show some (Instr.stq ((encStq g n d).extractLsb' 26 4) ((encStq g n d).extractLsb' 19 6) ((encStq g n d).extractLsb' 8 5)) = _
    simp (disch := decide) only [encStq, extract_lo, extract_hi, extract_all, Nat.reduceSub]
  · show (encStq g n d).getLsbD 0 = true ∧ (encStq g n d).getLsbD 1 = false
    exact ⟨bit_lo _ 101#8 0 (by decide), bit_lo _ 101#8 1 (by decide)⟩
theorem Encoding.ldff (g : BitVec 4) (n q : BitVec 6) (d : BitVec 5) : Encoding.Statement (.ldff g n q d) := by
  have hm : ((encLdff g n q d).extractLsb' 2 6).toNat = 25 := congrArg BitVec.toNat (extract_lo _ 101#8 2 6 (by decide))
  refine fun _ _ => ⟨?_, ?_⟩
  · show candidate (encLdff g n q d) none = _
    unfold candidate; rw [hm]
    show candidate19 (encLdff g n q d) = _
    have ho : ((encLdff g n q d).extractLsb' 30 2).toNat = 2 := by simp (disch := decide) only [encLdff, extract_lo, extract_hi, extract_all]; decide
    unfold candidate19; rw [ho]
    show some (Instr.ldff ((encLdff g n q d).extractLsb' 26 4) ((encLdff g n q d).extractLsb' 19 6) ((encLdff g n q d).extractLsb' 13 6) ((encLdff g n q d).extractLsb' 8 5)) = _
    simp (disch := decide) only [encLdff, extract_lo, extract_hi, extract_all, Nat.reduceSub]
  · show (encLdff g n q d).getLsbD 0 = true ∧ (encLdff g n q d).getLsbD 1 = false
    exact ⟨bit_lo _ 101#8 0 (by decide), bit_lo _ 101#8 1 (by decide)⟩
theorem Encoding.prf (g : BitVec 4) (n : BitVec 6) (d : BitVec 5) : Encoding.Statement (.prf g n d) := by
  have hm : ((encPrf g n d).extractLsb' 2 6).toNat = 25 := congrArg BitVec.toNat (extract_lo _ 101#8 2 6 (by decide))
  refine fun _ _ => ⟨?_, ?_⟩
  · show candidate (encPrf g n d) none = _
    unfold candidate; rw [hm]
    show candidate19 (encPrf g n d) = _
    have ho : ((encPrf g n d).extractLsb' 30 2).toNat = 3 := by simp (disch := decide) only [encPrf, extract_lo, extract_hi, extract_all]; decide
    unfold candidate19; rw [ho]
    show some (Instr.prf ((encPrf g n d).extractLsb' 26 4) ((encPrf g n d).extractLsb' 19 6) ((encPrf g n d).extractLsb' 8 5)) = _
    simp (disch := decide) only [encPrf, extract_lo, extract_hi, extract_all, Nat.reduceSub]
  · show (encPrf g n d).getLsbD 0 = true ∧ (encPrf g n d).getLsbD 1 = false
    exact ⟨bit_lo _ 101#8 0 (by decide), bit_lo _ 101#8 1 (by decide)⟩
theorem Encoding.ldsync (g : BitVec 4) (o : BitVec 7) (a d : BitVec 5) : Encoding.Statement (.ldsync g o a d) := by
  have hm : ((encLdsync g o a d).extractLsb' 2 6).toNat = 26 := congrArg BitVec.toNat (extract_lo _ 105#8 2 6 (by decide))
  refine fun _ _ => ⟨?_, ?_⟩
  · show candidate (encLdsync g o a d) none = _
    unfold candidate; rw [hm]
    show candidate1A (encLdsync g o a d) = _
    have ho : ((encLdsync g o a d).extractLsb' 30 2).toNat = 0 := by simp (disch := decide) only [encLdsync, extract_lo, extract_hi, extract_all]; decide
    unfold candidate1A; rw [ho]
    show some (Instr.ldsync ((encLdsync g o a d).extractLsb' 26 4) ((encLdsync g o a d).extractLsb' 18 7) ((encLdsync g o a d).extractLsb' 13 5) ((encLdsync g o a d).extractLsb' 8 5)) = _
    simp (disch := decide) only [encLdsync, extract_lo, extract_hi, extract_all, Nat.reduceSub]
  · show (encLdsync g o a d).getLsbD 0 = true ∧ (encLdsync g o a d).getLsbD 1 = false
    exact ⟨bit_lo _ 105#8 0 (by decide), bit_lo _ 105#8 1 (by decide)⟩
theorem Encoding.stfull (g : BitVec 4) (o : BitVec 7) (a d : BitVec 5) : Encoding.Statement (.stfull g o a d) := by
  have hm : ((encStfull g o a d).extractLsb' 2 6).toNat = 26 := congrArg BitVec.toNat (extract_lo _ 105#8 2 6 (by decide))
  refine fun _ _ => ⟨?_, ?_⟩
  · show candidate (encStfull g o a d) none = _
    unfold candidate; rw [hm]
    show candidate1A (encStfull g o a d) = _
    have ho : ((encStfull g o a d).extractLsb' 30 2).toNat = 1 := by simp (disch := decide) only [encStfull, extract_lo, extract_hi, extract_all]; decide
    unfold candidate1A; rw [ho]
    show some (Instr.stfull ((encStfull g o a d).extractLsb' 26 4) ((encStfull g o a d).extractLsb' 18 7) ((encStfull g o a d).extractLsb' 13 5) ((encStfull g o a d).extractLsb' 8 5)) = _
    simp (disch := decide) only [encStfull, extract_lo, extract_hi, extract_all, Nat.reduceSub]
  · show (encStfull g o a d).getLsbD 0 = true ∧ (encStfull g o a d).getLsbD 1 = false
    exact ⟨bit_lo _ 105#8 0 (by decide), bit_lo _ 105#8 1 (by decide)⟩
theorem Encoding.stempty (g : BitVec 4) (o : BitVec 7) (a : BitVec 5) : Encoding.Statement (.stempty g o a) := by
  have hm : ((encStempty g o a).extractLsb' 2 6).toNat = 26 := congrArg BitVec.toNat (extract_lo _ 105#8 2 6 (by decide))
  refine fun _ _ => ⟨?_, ?_⟩
  · show candidate (encStempty g o a) none = _
    unfold candidate; rw [hm]
    show candidate1A (encStempty g o a) = _
    have ho : ((encStempty g o a).extractLsb' 30 2).toNat = 2 := by simp (disch := decide) only [encStempty, extract_lo, extract_hi, extract_all]; decide
    unfold candidate1A; rw [ho]
    show some (Instr.stempty ((encStempty g o a).extractLsb' 26 4) ((encStempty g o a).extractLsb' 18 7) ((encStempty g o a).extractLsb' 13 5)) = _
    simp (disch := decide) only [encStempty, extract_lo, extract_hi, extract_all, Nat.reduceSub]
  · show (encStempty g o a).getLsbD 0 = true ∧ (encStempty g o a).getLsbD 1 = false
    exact ⟨bit_lo _ 105#8 0 (by decide), bit_lo _ 105#8 1 (by decide)⟩
theorem Encoding.gaddr (g : BitVec 4) (a d : BitVec 5) : Encoding.Statement (.gaddr g a d) := by
  have hm : ((encGaddr g a d).extractLsb' 2 6).toNat = 27 := congrArg BitVec.toNat (extract_lo _ 109#8 2 6 (by decide))
  refine fun _ _ => ⟨?_, ?_⟩
  · show candidate (encGaddr g a d) none = _
    unfold candidate; rw [hm]
    show candidate1B (encGaddr g a d) = _
    have ho : ((encGaddr g a d).extractLsb' 29 3).toNat = 0 := by simp (disch := decide) only [encGaddr, extract_lo, extract_hi, extract_all]; decide
    unfold candidate1B; rw [ho]
    show some (Instr.gaddr ((encGaddr g a d).extractLsb' 24 4) ((encGaddr g a d).extractLsb' 13 5) ((encGaddr g a d).extractLsb' 8 5)) = _
    simp (disch := decide) only [encGaddr, extract_lo, extract_hi, extract_all, Nat.reduceSub]
  · show (encGaddr g a d).getLsbD 0 = true ∧ (encGaddr g a d).getLsbD 1 = false
    exact ⟨bit_lo _ 109#8 0 (by decide), bit_lo _ 109#8 1 (by decide)⟩
theorem Encoding.segw (g : BitVec 4) (b a : BitVec 5) : Encoding.Statement (.segw g b a) := by
  have hm : ((encSegw g b a).extractLsb' 2 6).toNat = 27 := congrArg BitVec.toNat (extract_lo _ 109#8 2 6 (by decide))
  refine fun _ _ => ⟨?_, ?_⟩
  · show candidate (encSegw g b a) none = _
    unfold candidate; rw [hm]
    show candidate1B (encSegw g b a) = _
    have ho : ((encSegw g b a).extractLsb' 29 3).toNat = 1 := by simp (disch := decide) only [encSegw, extract_lo, extract_hi, extract_all]; decide
    unfold candidate1B; rw [ho]
    show some (Instr.segw ((encSegw g b a).extractLsb' 24 4) ((encSegw g b a).extractLsb' 18 5) ((encSegw g b a).extractLsb' 13 5)) = _
    simp (disch := decide) only [encSegw, extract_lo, extract_hi, extract_all, Nat.reduceSub]
  · show (encSegw g b a).getLsbD 0 = true ∧ (encSegw g b a).getLsbD 1 = false
    exact ⟨bit_lo _ 109#8 0 (by decide), bit_lo _ 109#8 1 (by decide)⟩
theorem Encoding.segr (h : BitVec 1) (g : BitVec 4) (d : BitVec 5) : Encoding.Statement (.segr h g d) := by
  have hm : ((encSegr h g d).extractLsb' 2 6).toNat = 27 := congrArg BitVec.toNat (extract_lo _ 109#8 2 6 (by decide))
  refine fun _ _ => ⟨?_, ?_⟩
  · show candidate (encSegr h g d) none = _
    unfold candidate; rw [hm]
    show candidate1B (encSegr h g d) = _
    have ho : ((encSegr h g d).extractLsb' 29 3).toNat = 2 := by simp (disch := decide) only [encSegr, extract_lo, extract_hi, extract_all]; decide
    unfold candidate1B; rw [ho]
    show some (Instr.segr ((encSegr h g d).extractLsb' 28 1) ((encSegr h g d).extractLsb' 24 4) ((encSegr h g d).extractLsb' 8 5)) = _
    simp (disch := decide) only [encSegr, extract_lo, extract_hi, extract_all, Nat.reduceSub]
  · show (encSegr h g d).getLsbD 0 = true ∧ (encSegr h g d).getLsbD 1 = false
    exact ⟨bit_lo _ 109#8 0 (by decide), bit_lo _ 109#8 1 (by decide)⟩
theorem Encoding.vaddF32 (k : BitVec 3) (b a d : BitVec 5) (m : Option (BitVec 32)) : Encoding.Statement (.vaddF32 k b a d m) := by
  have hm : ((encVaddF32 k b a d m).extractLsb' 2 6).toNat = 28 := by simp (disch := decide) only [encVaddF32, extract_lo, extract_hi]; decide
  refine fun _ _ => ⟨?_, ?_⟩
  · show candidate (encVaddF32 k b a d m) m = _
    unfold candidate; rw [hm]
    show candidate1C (encVaddF32 k b a d m) m = _
    have ho : ((encVaddF32 k b a d m).extractLsb' 27 5).toNat = 0 := by simp (disch := decide) only [encVaddF32, extract_lo, extract_hi, extract_all]; decide
    unfold candidate1C; rw [ho]
    show some (Instr.vaddF32 ((encVaddF32 k b a d m).extractLsb' 23 3) ((encVaddF32 k b a d m).extractLsb' 18 5) ((encVaddF32 k b a d m).extractLsb' 13 5) ((encVaddF32 k b a d m).extractLsb' 8 5) m) = _
    simp (disch := decide) only [encVaddF32, extract_lo, extract_hi, extract_all, Nat.reduceSub]
  · show (encVaddF32 k b a d m).getLsbD 0 = true ∧ (encVaddF32 k b a d m).getLsbD 1 = m.isSome
    simp (disch := decide) only [encVaddF32, bit_lo, modBits_zero, modBits_one]; simp
theorem Encoding.vsubF32 (k : BitVec 3) (b a d : BitVec 5) (m : Option (BitVec 32)) : Encoding.Statement (.vsubF32 k b a d m) := by
  have hm : ((encVsubF32 k b a d m).extractLsb' 2 6).toNat = 28 := by simp (disch := decide) only [encVsubF32, extract_lo, extract_hi]; decide
  refine fun _ _ => ⟨?_, ?_⟩
  · show candidate (encVsubF32 k b a d m) m = _
    unfold candidate; rw [hm]
    show candidate1C (encVsubF32 k b a d m) m = _
    have ho : ((encVsubF32 k b a d m).extractLsb' 27 5).toNat = 1 := by simp (disch := decide) only [encVsubF32, extract_lo, extract_hi, extract_all]; decide
    unfold candidate1C; rw [ho]
    show some (Instr.vsubF32 ((encVsubF32 k b a d m).extractLsb' 23 3) ((encVsubF32 k b a d m).extractLsb' 18 5) ((encVsubF32 k b a d m).extractLsb' 13 5) ((encVsubF32 k b a d m).extractLsb' 8 5) m) = _
    simp (disch := decide) only [encVsubF32, extract_lo, extract_hi, extract_all, Nat.reduceSub]
  · show (encVsubF32 k b a d m).getLsbD 0 = true ∧ (encVsubF32 k b a d m).getLsbD 1 = m.isSome
    simp (disch := decide) only [encVsubF32, bit_lo, modBits_zero, modBits_one]; simp
theorem Encoding.vmulF32 (k : BitVec 3) (b a d : BitVec 5) (m : Option (BitVec 32)) : Encoding.Statement (.vmulF32 k b a d m) := by
  have hm : ((encVmulF32 k b a d m).extractLsb' 2 6).toNat = 28 := by simp (disch := decide) only [encVmulF32, extract_lo, extract_hi]; decide
  refine fun _ _ => ⟨?_, ?_⟩
  · show candidate (encVmulF32 k b a d m) m = _
    unfold candidate; rw [hm]
    show candidate1C (encVmulF32 k b a d m) m = _
    have ho : ((encVmulF32 k b a d m).extractLsb' 27 5).toNat = 2 := by simp (disch := decide) only [encVmulF32, extract_lo, extract_hi, extract_all]; decide
    unfold candidate1C; rw [ho]
    show some (Instr.vmulF32 ((encVmulF32 k b a d m).extractLsb' 23 3) ((encVmulF32 k b a d m).extractLsb' 18 5) ((encVmulF32 k b a d m).extractLsb' 13 5) ((encVmulF32 k b a d m).extractLsb' 8 5) m) = _
    simp (disch := decide) only [encVmulF32, extract_lo, extract_hi, extract_all, Nat.reduceSub]
  · show (encVmulF32 k b a d m).getLsbD 0 = true ∧ (encVmulF32 k b a d m).getLsbD 1 = m.isSome
    simp (disch := decide) only [encVmulF32, bit_lo, modBits_zero, modBits_one]; simp
theorem Encoding.vfmaF32 (k : BitVec 3) (b a d : BitVec 5) (m : Option (BitVec 32)) : Encoding.Statement (.vfmaF32 k b a d m) := by
  have hm : ((encVfmaF32 k b a d m).extractLsb' 2 6).toNat = 28 := by simp (disch := decide) only [encVfmaF32, extract_lo, extract_hi]; decide
  refine fun _ _ => ⟨?_, ?_⟩
  · show candidate (encVfmaF32 k b a d m) m = _
    unfold candidate; rw [hm]
    show candidate1C (encVfmaF32 k b a d m) m = _
    have ho : ((encVfmaF32 k b a d m).extractLsb' 27 5).toNat = 3 := by simp (disch := decide) only [encVfmaF32, extract_lo, extract_hi, extract_all]; decide
    unfold candidate1C; rw [ho]
    show some (Instr.vfmaF32 ((encVfmaF32 k b a d m).extractLsb' 23 3) ((encVfmaF32 k b a d m).extractLsb' 18 5) ((encVfmaF32 k b a d m).extractLsb' 13 5) ((encVfmaF32 k b a d m).extractLsb' 8 5) m) = _
    simp (disch := decide) only [encVfmaF32, extract_lo, extract_hi, extract_all, Nat.reduceSub]
  · show (encVfmaF32 k b a d m).getLsbD 0 = true ∧ (encVfmaF32 k b a d m).getLsbD 1 = m.isSome
    simp (disch := decide) only [encVfmaF32, bit_lo, modBits_zero, modBits_one]; simp
theorem Encoding.vfmsF32 (k : BitVec 3) (b a d : BitVec 5) (m : Option (BitVec 32)) : Encoding.Statement (.vfmsF32 k b a d m) := by
  have hm : ((encVfmsF32 k b a d m).extractLsb' 2 6).toNat = 28 := by simp (disch := decide) only [encVfmsF32, extract_lo, extract_hi]; decide
  refine fun _ _ => ⟨?_, ?_⟩
  · show candidate (encVfmsF32 k b a d m) m = _
    unfold candidate; rw [hm]
    show candidate1C (encVfmsF32 k b a d m) m = _
    have ho : ((encVfmsF32 k b a d m).extractLsb' 27 5).toNat = 4 := by simp (disch := decide) only [encVfmsF32, extract_lo, extract_hi, extract_all]; decide
    unfold candidate1C; rw [ho]
    show some (Instr.vfmsF32 ((encVfmsF32 k b a d m).extractLsb' 23 3) ((encVfmsF32 k b a d m).extractLsb' 18 5) ((encVfmsF32 k b a d m).extractLsb' 13 5) ((encVfmsF32 k b a d m).extractLsb' 8 5) m) = _
    simp (disch := decide) only [encVfmsF32, extract_lo, extract_hi, extract_all, Nat.reduceSub]
  · show (encVfmsF32 k b a d m).getLsbD 0 = true ∧ (encVfmsF32 k b a d m).getLsbD 1 = m.isSome
    simp (disch := decide) only [encVfmsF32, bit_lo, modBits_zero, modBits_one]; simp
theorem Encoding.vfnmaF32 (k : BitVec 3) (b a d : BitVec 5) (m : Option (BitVec 32)) : Encoding.Statement (.vfnmaF32 k b a d m) := by
  have hm : ((encVfnmaF32 k b a d m).extractLsb' 2 6).toNat = 28 := by simp (disch := decide) only [encVfnmaF32, extract_lo, extract_hi]; decide
  refine fun _ _ => ⟨?_, ?_⟩
  · show candidate (encVfnmaF32 k b a d m) m = _
    unfold candidate; rw [hm]
    show candidate1C (encVfnmaF32 k b a d m) m = _
    have ho : ((encVfnmaF32 k b a d m).extractLsb' 27 5).toNat = 5 := by simp (disch := decide) only [encVfnmaF32, extract_lo, extract_hi, extract_all]; decide
    unfold candidate1C; rw [ho]
    show some (Instr.vfnmaF32 ((encVfnmaF32 k b a d m).extractLsb' 23 3) ((encVfnmaF32 k b a d m).extractLsb' 18 5) ((encVfnmaF32 k b a d m).extractLsb' 13 5) ((encVfnmaF32 k b a d m).extractLsb' 8 5) m) = _
    simp (disch := decide) only [encVfnmaF32, extract_lo, extract_hi, extract_all, Nat.reduceSub]
  · show (encVfnmaF32 k b a d m).getLsbD 0 = true ∧ (encVfnmaF32 k b a d m).getLsbD 1 = m.isSome
    simp (disch := decide) only [encVfnmaF32, bit_lo, modBits_zero, modBits_one]; simp
theorem Encoding.vminF32 (k : BitVec 3) (b a d : BitVec 5) (m : Option (BitVec 32)) : Encoding.Statement (.vminF32 k b a d m) := by
  have hm : ((encVminF32 k b a d m).extractLsb' 2 6).toNat = 28 := by simp (disch := decide) only [encVminF32, extract_lo, extract_hi]; decide
  refine fun _ _ => ⟨?_, ?_⟩
  · show candidate (encVminF32 k b a d m) m = _
    unfold candidate; rw [hm]
    show candidate1C (encVminF32 k b a d m) m = _
    have ho : ((encVminF32 k b a d m).extractLsb' 27 5).toNat = 6 := by simp (disch := decide) only [encVminF32, extract_lo, extract_hi, extract_all]; decide
    unfold candidate1C; rw [ho]
    show some (Instr.vminF32 ((encVminF32 k b a d m).extractLsb' 23 3) ((encVminF32 k b a d m).extractLsb' 18 5) ((encVminF32 k b a d m).extractLsb' 13 5) ((encVminF32 k b a d m).extractLsb' 8 5) m) = _
    simp (disch := decide) only [encVminF32, extract_lo, extract_hi, extract_all, Nat.reduceSub]
  · show (encVminF32 k b a d m).getLsbD 0 = true ∧ (encVminF32 k b a d m).getLsbD 1 = m.isSome
    simp (disch := decide) only [encVminF32, bit_lo, modBits_zero, modBits_one]; simp
theorem Encoding.vmaxF32 (k : BitVec 3) (b a d : BitVec 5) (m : Option (BitVec 32)) : Encoding.Statement (.vmaxF32 k b a d m) := by
  have hm : ((encVmaxF32 k b a d m).extractLsb' 2 6).toNat = 28 := by simp (disch := decide) only [encVmaxF32, extract_lo, extract_hi]; decide
  refine fun _ _ => ⟨?_, ?_⟩
  · show candidate (encVmaxF32 k b a d m) m = _
    unfold candidate; rw [hm]
    show candidate1C (encVmaxF32 k b a d m) m = _
    have ho : ((encVmaxF32 k b a d m).extractLsb' 27 5).toNat = 7 := by simp (disch := decide) only [encVmaxF32, extract_lo, extract_hi, extract_all]; decide
    unfold candidate1C; rw [ho]
    show some (Instr.vmaxF32 ((encVmaxF32 k b a d m).extractLsb' 23 3) ((encVmaxF32 k b a d m).extractLsb' 18 5) ((encVmaxF32 k b a d m).extractLsb' 13 5) ((encVmaxF32 k b a d m).extractLsb' 8 5) m) = _
    simp (disch := decide) only [encVmaxF32, extract_lo, extract_hi, extract_all, Nat.reduceSub]
  · show (encVmaxF32 k b a d m).getLsbD 0 = true ∧ (encVmaxF32 k b a d m).getLsbD 1 = m.isSome
    simp (disch := decide) only [encVmaxF32, bit_lo, modBits_zero, modBits_one]; simp
theorem Encoding.vrcp (k : BitVec 3) (a d : BitVec 5) (m : Option (BitVec 32)) : Encoding.Statement (.vrcp k a d m) := by
  have hm : ((encVrcp k a d m).extractLsb' 2 6).toNat = 28 := by simp (disch := decide) only [encVrcp, extract_lo, extract_hi]; decide
  refine fun _ _ => ⟨?_, ?_⟩
  · show candidate (encVrcp k a d m) m = _
    unfold candidate; rw [hm]
    show candidate1C (encVrcp k a d m) m = _
    have ho : ((encVrcp k a d m).extractLsb' 27 5).toNat = 9 := by simp (disch := decide) only [encVrcp, extract_lo, extract_hi, extract_all]; decide
    unfold candidate1C; rw [ho]
    show some (Instr.vrcp ((encVrcp k a d m).extractLsb' 23 3) ((encVrcp k a d m).extractLsb' 13 5) ((encVrcp k a d m).extractLsb' 8 5) m) = _
    simp (disch := decide) only [encVrcp, extract_lo, extract_hi, extract_all, Nat.reduceSub]
  · show (encVrcp k a d m).getLsbD 0 = true ∧ (encVrcp k a d m).getLsbD 1 = m.isSome
    simp (disch := decide) only [encVrcp, bit_lo, modBits_zero, modBits_one]; simp
theorem Encoding.vrsqrt (k : BitVec 3) (a d : BitVec 5) (m : Option (BitVec 32)) : Encoding.Statement (.vrsqrt k a d m) := by
  have hm : ((encVrsqrt k a d m).extractLsb' 2 6).toNat = 28 := by simp (disch := decide) only [encVrsqrt, extract_lo, extract_hi]; decide
  refine fun _ _ => ⟨?_, ?_⟩
  · show candidate (encVrsqrt k a d m) m = _
    unfold candidate; rw [hm]
    show candidate1C (encVrsqrt k a d m) m = _
    have ho : ((encVrsqrt k a d m).extractLsb' 27 5).toNat = 10 := by simp (disch := decide) only [encVrsqrt, extract_lo, extract_hi, extract_all]; decide
    unfold candidate1C; rw [ho]
    show some (Instr.vrsqrt ((encVrsqrt k a d m).extractLsb' 23 3) ((encVrsqrt k a d m).extractLsb' 13 5) ((encVrsqrt k a d m).extractLsb' 8 5) m) = _
    simp (disch := decide) only [encVrsqrt, extract_lo, extract_hi, extract_all, Nat.reduceSub]
  · show (encVrsqrt k a d m).getLsbD 0 = true ∧ (encVrsqrt k a d m).getLsbD 1 = m.isSome
    simp (disch := decide) only [encVrsqrt, bit_lo, modBits_zero, modBits_one]; simp
theorem Encoding.vsqrt (k : BitVec 3) (a d : BitVec 5) (m : Option (BitVec 32)) : Encoding.Statement (.vsqrt k a d m) := by
  have hm : ((encVsqrt k a d m).extractLsb' 2 6).toNat = 28 := by simp (disch := decide) only [encVsqrt, extract_lo, extract_hi]; decide
  refine fun _ _ => ⟨?_, ?_⟩
  · show candidate (encVsqrt k a d m) m = _
    unfold candidate; rw [hm]
    show candidate1C (encVsqrt k a d m) m = _
    have ho : ((encVsqrt k a d m).extractLsb' 27 5).toNat = 11 := by simp (disch := decide) only [encVsqrt, extract_lo, extract_hi, extract_all]; decide
    unfold candidate1C; rw [ho]
    show some (Instr.vsqrt ((encVsqrt k a d m).extractLsb' 23 3) ((encVsqrt k a d m).extractLsb' 13 5) ((encVsqrt k a d m).extractLsb' 8 5) m) = _
    simp (disch := decide) only [encVsqrt, extract_lo, extract_hi, extract_all, Nat.reduceSub]
  · show (encVsqrt k a d m).getLsbD 0 = true ∧ (encVsqrt k a d m).getLsbD 1 = m.isSome
    simp (disch := decide) only [encVsqrt, bit_lo, modBits_zero, modBits_one]; simp
theorem Encoding.vexp2 (k : BitVec 3) (a d : BitVec 5) (m : Option (BitVec 32)) : Encoding.Statement (.vexp2 k a d m) := by
  have hm : ((encVexp2 k a d m).extractLsb' 2 6).toNat = 28 := by simp (disch := decide) only [encVexp2, extract_lo, extract_hi]; decide
  refine fun _ _ => ⟨?_, ?_⟩
  · show candidate (encVexp2 k a d m) m = _
    unfold candidate; rw [hm]
    show candidate1C (encVexp2 k a d m) m = _
    have ho : ((encVexp2 k a d m).extractLsb' 27 5).toNat = 12 := by simp (disch := decide) only [encVexp2, extract_lo, extract_hi, extract_all]; decide
    unfold candidate1C; rw [ho]
    show some (Instr.vexp2 ((encVexp2 k a d m).extractLsb' 23 3) ((encVexp2 k a d m).extractLsb' 13 5) ((encVexp2 k a d m).extractLsb' 8 5) m) = _
    simp (disch := decide) only [encVexp2, extract_lo, extract_hi, extract_all, Nat.reduceSub]
  · show (encVexp2 k a d m).getLsbD 0 = true ∧ (encVexp2 k a d m).getLsbD 1 = m.isSome
    simp (disch := decide) only [encVexp2, bit_lo, modBits_zero, modBits_one]; simp
theorem Encoding.vlog2 (k : BitVec 3) (a d : BitVec 5) (m : Option (BitVec 32)) : Encoding.Statement (.vlog2 k a d m) := by
  have hm : ((encVlog2 k a d m).extractLsb' 2 6).toNat = 28 := by simp (disch := decide) only [encVlog2, extract_lo, extract_hi]; decide
  refine fun _ _ => ⟨?_, ?_⟩
  · show candidate (encVlog2 k a d m) m = _
    unfold candidate; rw [hm]
    show candidate1C (encVlog2 k a d m) m = _
    have ho : ((encVlog2 k a d m).extractLsb' 27 5).toNat = 13 := by simp (disch := decide) only [encVlog2, extract_lo, extract_hi, extract_all]; decide
    unfold candidate1C; rw [ho]
    show some (Instr.vlog2 ((encVlog2 k a d m).extractLsb' 23 3) ((encVlog2 k a d m).extractLsb' 13 5) ((encVlog2 k a d m).extractLsb' 8 5) m) = _
    simp (disch := decide) only [encVlog2, extract_lo, extract_hi, extract_all, Nat.reduceSub]
  · show (encVlog2 k a d m).getLsbD 0 = true ∧ (encVlog2 k a d m).getLsbD 1 = m.isSome
    simp (disch := decide) only [encVlog2, bit_lo, modBits_zero, modBits_one]; simp
theorem Encoding.vtanh (k : BitVec 3) (a d : BitVec 5) (m : Option (BitVec 32)) : Encoding.Statement (.vtanh k a d m) := by
  have hm : ((encVtanh k a d m).extractLsb' 2 6).toNat = 28 := by simp (disch := decide) only [encVtanh, extract_lo, extract_hi]; decide
  refine fun _ _ => ⟨?_, ?_⟩
  · show candidate (encVtanh k a d m) m = _
    unfold candidate; rw [hm]
    show candidate1C (encVtanh k a d m) m = _
    have ho : ((encVtanh k a d m).extractLsb' 27 5).toNat = 14 := by simp (disch := decide) only [encVtanh, extract_lo, extract_hi, extract_all]; decide
    unfold candidate1C; rw [ho]
    show some (Instr.vtanh ((encVtanh k a d m).extractLsb' 23 3) ((encVtanh k a d m).extractLsb' 13 5) ((encVtanh k a d m).extractLsb' 8 5) m) = _
    simp (disch := decide) only [encVtanh, extract_lo, extract_hi, extract_all, Nat.reduceSub]
  · show (encVtanh k a d m).getLsbD 0 = true ∧ (encVtanh k a d m).getLsbD 1 = m.isSome
    simp (disch := decide) only [encVtanh, bit_lo, modBits_zero, modBits_one]; simp
theorem Encoding.vcmpEqF32 (k : BitVec 3) (b a d : BitVec 5) (m : Option (BitVec 32)) : Encoding.Statement (.vcmpEqF32 k b a d m) := by
  have hm : ((encVcmpEqF32 k b a d m).extractLsb' 2 6).toNat = 28 := by simp (disch := decide) only [encVcmpEqF32, extract_lo, extract_hi]; decide
  refine fun _ _ => ⟨?_, ?_⟩
  · show candidate (encVcmpEqF32 k b a d m) m = _
    unfold candidate; rw [hm]
    show candidate1C (encVcmpEqF32 k b a d m) m = _
    have ho : ((encVcmpEqF32 k b a d m).extractLsb' 27 5).toNat = 15 := by simp (disch := decide) only [encVcmpEqF32, extract_lo, extract_hi, extract_all]; decide
    unfold candidate1C; rw [ho]
    show some (Instr.vcmpEqF32 ((encVcmpEqF32 k b a d m).extractLsb' 23 3) ((encVcmpEqF32 k b a d m).extractLsb' 18 5) ((encVcmpEqF32 k b a d m).extractLsb' 13 5) ((encVcmpEqF32 k b a d m).extractLsb' 8 5) m) = _
    simp (disch := decide) only [encVcmpEqF32, extract_lo, extract_hi, extract_all, Nat.reduceSub]
  · show (encVcmpEqF32 k b a d m).getLsbD 0 = true ∧ (encVcmpEqF32 k b a d m).getLsbD 1 = m.isSome
    simp (disch := decide) only [encVcmpEqF32, bit_lo, modBits_zero, modBits_one]; simp
theorem Encoding.vcmpNeF32 (k : BitVec 3) (b a d : BitVec 5) (m : Option (BitVec 32)) : Encoding.Statement (.vcmpNeF32 k b a d m) := by
  have hm : ((encVcmpNeF32 k b a d m).extractLsb' 2 6).toNat = 28 := by simp (disch := decide) only [encVcmpNeF32, extract_lo, extract_hi]; decide
  refine fun _ _ => ⟨?_, ?_⟩
  · show candidate (encVcmpNeF32 k b a d m) m = _
    unfold candidate; rw [hm]
    show candidate1C (encVcmpNeF32 k b a d m) m = _
    have ho : ((encVcmpNeF32 k b a d m).extractLsb' 27 5).toNat = 16 := by simp (disch := decide) only [encVcmpNeF32, extract_lo, extract_hi, extract_all]; decide
    unfold candidate1C; rw [ho]
    show some (Instr.vcmpNeF32 ((encVcmpNeF32 k b a d m).extractLsb' 23 3) ((encVcmpNeF32 k b a d m).extractLsb' 18 5) ((encVcmpNeF32 k b a d m).extractLsb' 13 5) ((encVcmpNeF32 k b a d m).extractLsb' 8 5) m) = _
    simp (disch := decide) only [encVcmpNeF32, extract_lo, extract_hi, extract_all, Nat.reduceSub]
  · show (encVcmpNeF32 k b a d m).getLsbD 0 = true ∧ (encVcmpNeF32 k b a d m).getLsbD 1 = m.isSome
    simp (disch := decide) only [encVcmpNeF32, bit_lo, modBits_zero, modBits_one]; simp
theorem Encoding.vcmpLtF32 (k : BitVec 3) (b a d : BitVec 5) (m : Option (BitVec 32)) : Encoding.Statement (.vcmpLtF32 k b a d m) := by
  have hm : ((encVcmpLtF32 k b a d m).extractLsb' 2 6).toNat = 28 := by simp (disch := decide) only [encVcmpLtF32, extract_lo, extract_hi]; decide
  refine fun _ _ => ⟨?_, ?_⟩
  · show candidate (encVcmpLtF32 k b a d m) m = _
    unfold candidate; rw [hm]
    show candidate1C (encVcmpLtF32 k b a d m) m = _
    have ho : ((encVcmpLtF32 k b a d m).extractLsb' 27 5).toNat = 17 := by simp (disch := decide) only [encVcmpLtF32, extract_lo, extract_hi, extract_all]; decide
    unfold candidate1C; rw [ho]
    show some (Instr.vcmpLtF32 ((encVcmpLtF32 k b a d m).extractLsb' 23 3) ((encVcmpLtF32 k b a d m).extractLsb' 18 5) ((encVcmpLtF32 k b a d m).extractLsb' 13 5) ((encVcmpLtF32 k b a d m).extractLsb' 8 5) m) = _
    simp (disch := decide) only [encVcmpLtF32, extract_lo, extract_hi, extract_all, Nat.reduceSub]
  · show (encVcmpLtF32 k b a d m).getLsbD 0 = true ∧ (encVcmpLtF32 k b a d m).getLsbD 1 = m.isSome
    simp (disch := decide) only [encVcmpLtF32, bit_lo, modBits_zero, modBits_one]; simp
theorem Encoding.vcmpLeF32 (k : BitVec 3) (b a d : BitVec 5) (m : Option (BitVec 32)) : Encoding.Statement (.vcmpLeF32 k b a d m) := by
  have hm : ((encVcmpLeF32 k b a d m).extractLsb' 2 6).toNat = 28 := by simp (disch := decide) only [encVcmpLeF32, extract_lo, extract_hi]; decide
  refine fun _ _ => ⟨?_, ?_⟩
  · show candidate (encVcmpLeF32 k b a d m) m = _
    unfold candidate; rw [hm]
    show candidate1C (encVcmpLeF32 k b a d m) m = _
    have ho : ((encVcmpLeF32 k b a d m).extractLsb' 27 5).toNat = 18 := by simp (disch := decide) only [encVcmpLeF32, extract_lo, extract_hi, extract_all]; decide
    unfold candidate1C; rw [ho]
    show some (Instr.vcmpLeF32 ((encVcmpLeF32 k b a d m).extractLsb' 23 3) ((encVcmpLeF32 k b a d m).extractLsb' 18 5) ((encVcmpLeF32 k b a d m).extractLsb' 13 5) ((encVcmpLeF32 k b a d m).extractLsb' 8 5) m) = _
    simp (disch := decide) only [encVcmpLeF32, extract_lo, extract_hi, extract_all, Nat.reduceSub]
  · show (encVcmpLeF32 k b a d m).getLsbD 0 = true ∧ (encVcmpLeF32 k b a d m).getLsbD 1 = m.isSome
    simp (disch := decide) only [encVcmpLeF32, bit_lo, modBits_zero, modBits_one]; simp
theorem Encoding.vselF32 (k : BitVec 3) (b a d : BitVec 5) (m : Option (BitVec 32)) : Encoding.Statement (.vselF32 k b a d m) := by
  have hm : ((encVselF32 k b a d m).extractLsb' 2 6).toNat = 28 := by simp (disch := decide) only [encVselF32, extract_lo, extract_hi]; decide
  refine fun _ _ => ⟨?_, ?_⟩
  · show candidate (encVselF32 k b a d m) m = _
    unfold candidate; rw [hm]
    show candidate1C (encVselF32 k b a d m) m = _
    have ho : ((encVselF32 k b a d m).extractLsb' 27 5).toNat = 19 := by simp (disch := decide) only [encVselF32, extract_lo, extract_hi, extract_all]; decide
    unfold candidate1C; rw [ho]
    show some (Instr.vselF32 ((encVselF32 k b a d m).extractLsb' 23 3) ((encVselF32 k b a d m).extractLsb' 18 5) ((encVselF32 k b a d m).extractLsb' 13 5) ((encVselF32 k b a d m).extractLsb' 8 5) m) = _
    simp (disch := decide) only [encVselF32, extract_lo, extract_hi, extract_all, Nat.reduceSub]
  · show (encVselF32 k b a d m).getLsbD 0 = true ∧ (encVselF32 k b a d m).getLsbD 1 = m.isSome
    simp (disch := decide) only [encVselF32, bit_lo, modBits_zero, modBits_one]; simp
theorem Encoding.vredaddF32 (k : BitVec 3) (a d : BitVec 5) (m : Option (BitVec 32)) : Encoding.Statement (.vredaddF32 k a d m) := by
  have hm : ((encVredaddF32 k a d m).extractLsb' 2 6).toNat = 28 := by simp (disch := decide) only [encVredaddF32, extract_lo, extract_hi]; decide
  refine fun _ _ => ⟨?_, ?_⟩
  · show candidate (encVredaddF32 k a d m) m = _
    unfold candidate; rw [hm]
    show candidate1C (encVredaddF32 k a d m) m = _
    have ho : ((encVredaddF32 k a d m).extractLsb' 27 5).toNat = 20 := by simp (disch := decide) only [encVredaddF32, extract_lo, extract_hi, extract_all]; decide
    unfold candidate1C; rw [ho]
    show some (Instr.vredaddF32 ((encVredaddF32 k a d m).extractLsb' 23 3) ((encVredaddF32 k a d m).extractLsb' 13 5) ((encVredaddF32 k a d m).extractLsb' 8 5) m) = _
    simp (disch := decide) only [encVredaddF32, extract_lo, extract_hi, extract_all, Nat.reduceSub]
  · show (encVredaddF32 k a d m).getLsbD 0 = true ∧ (encVredaddF32 k a d m).getLsbD 1 = m.isSome
    simp (disch := decide) only [encVredaddF32, bit_lo, modBits_zero, modBits_one]; simp
theorem Encoding.vredmaxF32 (k : BitVec 3) (a d : BitVec 5) (m : Option (BitVec 32)) : Encoding.Statement (.vredmaxF32 k a d m) := by
  have hm : ((encVredmaxF32 k a d m).extractLsb' 2 6).toNat = 28 := by simp (disch := decide) only [encVredmaxF32, extract_lo, extract_hi]; decide
  refine fun _ _ => ⟨?_, ?_⟩
  · show candidate (encVredmaxF32 k a d m) m = _
    unfold candidate; rw [hm]
    show candidate1C (encVredmaxF32 k a d m) m = _
    have ho : ((encVredmaxF32 k a d m).extractLsb' 27 5).toNat = 21 := by simp (disch := decide) only [encVredmaxF32, extract_lo, extract_hi, extract_all]; decide
    unfold candidate1C; rw [ho]
    show some (Instr.vredmaxF32 ((encVredmaxF32 k a d m).extractLsb' 23 3) ((encVredmaxF32 k a d m).extractLsb' 13 5) ((encVredmaxF32 k a d m).extractLsb' 8 5) m) = _
    simp (disch := decide) only [encVredmaxF32, extract_lo, extract_hi, extract_all, Nat.reduceSub]
  · show (encVredmaxF32 k a d m).getLsbD 0 = true ∧ (encVredmaxF32 k a d m).getLsbD 1 = m.isSome
    simp (disch := decide) only [encVredmaxF32, bit_lo, modBits_zero, modBits_one]; simp
theorem Encoding.vscanF32 (k : BitVec 3) (a d : BitVec 5) (m : Option (BitVec 32)) : Encoding.Statement (.vscanF32 k a d m) := by
  have hm : ((encVscanF32 k a d m).extractLsb' 2 6).toNat = 28 := by simp (disch := decide) only [encVscanF32, extract_lo, extract_hi]; decide
  refine fun _ _ => ⟨?_, ?_⟩
  · show candidate (encVscanF32 k a d m) m = _
    unfold candidate; rw [hm]
    show candidate1C (encVscanF32 k a d m) m = _
    have ho : ((encVscanF32 k a d m).extractLsb' 27 5).toNat = 22 := by simp (disch := decide) only [encVscanF32, extract_lo, extract_hi, extract_all]; decide
    unfold candidate1C; rw [ho]
    show some (Instr.vscanF32 ((encVscanF32 k a d m).extractLsb' 23 3) ((encVscanF32 k a d m).extractLsb' 13 5) ((encVscanF32 k a d m).extractLsb' 8 5) m) = _
    simp (disch := decide) only [encVscanF32, extract_lo, extract_hi, extract_all, Nat.reduceSub]
  · show (encVscanF32 k a d m).getLsbD 0 = true ∧ (encVscanF32 k a d m).getLsbD 1 = m.isSome
    simp (disch := decide) only [encVscanF32, bit_lo, modBits_zero, modBits_one]; simp
theorem Encoding.vaddF16 (t : BitVec 1) (k : BitVec 3) (b a d : BitVec 5) (m : Option (BitVec 32)) : Encoding.Statement (.vaddF16 t k b a d m) := by
  have hm : ((encVaddF16 t k b a d m).extractLsb' 2 6).toNat = 29 := by simp (disch := decide) only [encVaddF16, extract_lo, extract_hi]; decide
  refine fun _ _ => ⟨?_, ?_⟩
  · show candidate (encVaddF16 t k b a d m) m = _
    unfold candidate; rw [hm]
    show candidate1D (encVaddF16 t k b a d m) m = _
    have ho : ((encVaddF16 t k b a d m).extractLsb' 27 5).toNat = 0 := by simp (disch := decide) only [encVaddF16, extract_lo, extract_hi, extract_all]; decide
    unfold candidate1D; rw [ho]
    show some (Instr.vaddF16 ((encVaddF16 t k b a d m).extractLsb' 26 1) ((encVaddF16 t k b a d m).extractLsb' 23 3) ((encVaddF16 t k b a d m).extractLsb' 18 5) ((encVaddF16 t k b a d m).extractLsb' 13 5) ((encVaddF16 t k b a d m).extractLsb' 8 5) m) = _
    simp (disch := decide) only [encVaddF16, extract_lo, extract_hi, extract_all, Nat.reduceSub]
  · show (encVaddF16 t k b a d m).getLsbD 0 = true ∧ (encVaddF16 t k b a d m).getLsbD 1 = m.isSome
    simp (disch := decide) only [encVaddF16, bit_lo, modBits_zero, modBits_one]; simp
theorem Encoding.vsubF16 (t : BitVec 1) (k : BitVec 3) (b a d : BitVec 5) (m : Option (BitVec 32)) : Encoding.Statement (.vsubF16 t k b a d m) := by
  have hm : ((encVsubF16 t k b a d m).extractLsb' 2 6).toNat = 29 := by simp (disch := decide) only [encVsubF16, extract_lo, extract_hi]; decide
  refine fun _ _ => ⟨?_, ?_⟩
  · show candidate (encVsubF16 t k b a d m) m = _
    unfold candidate; rw [hm]
    show candidate1D (encVsubF16 t k b a d m) m = _
    have ho : ((encVsubF16 t k b a d m).extractLsb' 27 5).toNat = 1 := by simp (disch := decide) only [encVsubF16, extract_lo, extract_hi, extract_all]; decide
    unfold candidate1D; rw [ho]
    show some (Instr.vsubF16 ((encVsubF16 t k b a d m).extractLsb' 26 1) ((encVsubF16 t k b a d m).extractLsb' 23 3) ((encVsubF16 t k b a d m).extractLsb' 18 5) ((encVsubF16 t k b a d m).extractLsb' 13 5) ((encVsubF16 t k b a d m).extractLsb' 8 5) m) = _
    simp (disch := decide) only [encVsubF16, extract_lo, extract_hi, extract_all, Nat.reduceSub]
  · show (encVsubF16 t k b a d m).getLsbD 0 = true ∧ (encVsubF16 t k b a d m).getLsbD 1 = m.isSome
    simp (disch := decide) only [encVsubF16, bit_lo, modBits_zero, modBits_one]; simp
theorem Encoding.vmulF16 (t : BitVec 1) (k : BitVec 3) (b a d : BitVec 5) (m : Option (BitVec 32)) : Encoding.Statement (.vmulF16 t k b a d m) := by
  have hm : ((encVmulF16 t k b a d m).extractLsb' 2 6).toNat = 29 := by simp (disch := decide) only [encVmulF16, extract_lo, extract_hi]; decide
  refine fun _ _ => ⟨?_, ?_⟩
  · show candidate (encVmulF16 t k b a d m) m = _
    unfold candidate; rw [hm]
    show candidate1D (encVmulF16 t k b a d m) m = _
    have ho : ((encVmulF16 t k b a d m).extractLsb' 27 5).toNat = 2 := by simp (disch := decide) only [encVmulF16, extract_lo, extract_hi, extract_all]; decide
    unfold candidate1D; rw [ho]
    show some (Instr.vmulF16 ((encVmulF16 t k b a d m).extractLsb' 26 1) ((encVmulF16 t k b a d m).extractLsb' 23 3) ((encVmulF16 t k b a d m).extractLsb' 18 5) ((encVmulF16 t k b a d m).extractLsb' 13 5) ((encVmulF16 t k b a d m).extractLsb' 8 5) m) = _
    simp (disch := decide) only [encVmulF16, extract_lo, extract_hi, extract_all, Nat.reduceSub]
  · show (encVmulF16 t k b a d m).getLsbD 0 = true ∧ (encVmulF16 t k b a d m).getLsbD 1 = m.isSome
    simp (disch := decide) only [encVmulF16, bit_lo, modBits_zero, modBits_one]; simp
theorem Encoding.vfmaF16 (t : BitVec 1) (k : BitVec 3) (b a d : BitVec 5) (m : Option (BitVec 32)) : Encoding.Statement (.vfmaF16 t k b a d m) := by
  have hm : ((encVfmaF16 t k b a d m).extractLsb' 2 6).toNat = 29 := by simp (disch := decide) only [encVfmaF16, extract_lo, extract_hi]; decide
  refine fun _ _ => ⟨?_, ?_⟩
  · show candidate (encVfmaF16 t k b a d m) m = _
    unfold candidate; rw [hm]
    show candidate1D (encVfmaF16 t k b a d m) m = _
    have ho : ((encVfmaF16 t k b a d m).extractLsb' 27 5).toNat = 3 := by simp (disch := decide) only [encVfmaF16, extract_lo, extract_hi, extract_all]; decide
    unfold candidate1D; rw [ho]
    show some (Instr.vfmaF16 ((encVfmaF16 t k b a d m).extractLsb' 26 1) ((encVfmaF16 t k b a d m).extractLsb' 23 3) ((encVfmaF16 t k b a d m).extractLsb' 18 5) ((encVfmaF16 t k b a d m).extractLsb' 13 5) ((encVfmaF16 t k b a d m).extractLsb' 8 5) m) = _
    simp (disch := decide) only [encVfmaF16, extract_lo, extract_hi, extract_all, Nat.reduceSub]
  · show (encVfmaF16 t k b a d m).getLsbD 0 = true ∧ (encVfmaF16 t k b a d m).getLsbD 1 = m.isSome
    simp (disch := decide) only [encVfmaF16, bit_lo, modBits_zero, modBits_one]; simp
theorem Encoding.vfmsF16 (t : BitVec 1) (k : BitVec 3) (b a d : BitVec 5) (m : Option (BitVec 32)) : Encoding.Statement (.vfmsF16 t k b a d m) := by
  have hm : ((encVfmsF16 t k b a d m).extractLsb' 2 6).toNat = 29 := by simp (disch := decide) only [encVfmsF16, extract_lo, extract_hi]; decide
  refine fun _ _ => ⟨?_, ?_⟩
  · show candidate (encVfmsF16 t k b a d m) m = _
    unfold candidate; rw [hm]
    show candidate1D (encVfmsF16 t k b a d m) m = _
    have ho : ((encVfmsF16 t k b a d m).extractLsb' 27 5).toNat = 4 := by simp (disch := decide) only [encVfmsF16, extract_lo, extract_hi, extract_all]; decide
    unfold candidate1D; rw [ho]
    show some (Instr.vfmsF16 ((encVfmsF16 t k b a d m).extractLsb' 26 1) ((encVfmsF16 t k b a d m).extractLsb' 23 3) ((encVfmsF16 t k b a d m).extractLsb' 18 5) ((encVfmsF16 t k b a d m).extractLsb' 13 5) ((encVfmsF16 t k b a d m).extractLsb' 8 5) m) = _
    simp (disch := decide) only [encVfmsF16, extract_lo, extract_hi, extract_all, Nat.reduceSub]
  · show (encVfmsF16 t k b a d m).getLsbD 0 = true ∧ (encVfmsF16 t k b a d m).getLsbD 1 = m.isSome
    simp (disch := decide) only [encVfmsF16, bit_lo, modBits_zero, modBits_one]; simp
theorem Encoding.vfnmaF16 (t : BitVec 1) (k : BitVec 3) (b a d : BitVec 5) (m : Option (BitVec 32)) : Encoding.Statement (.vfnmaF16 t k b a d m) := by
  have hm : ((encVfnmaF16 t k b a d m).extractLsb' 2 6).toNat = 29 := by simp (disch := decide) only [encVfnmaF16, extract_lo, extract_hi]; decide
  refine fun _ _ => ⟨?_, ?_⟩
  · show candidate (encVfnmaF16 t k b a d m) m = _
    unfold candidate; rw [hm]
    show candidate1D (encVfnmaF16 t k b a d m) m = _
    have ho : ((encVfnmaF16 t k b a d m).extractLsb' 27 5).toNat = 5 := by simp (disch := decide) only [encVfnmaF16, extract_lo, extract_hi, extract_all]; decide
    unfold candidate1D; rw [ho]
    show some (Instr.vfnmaF16 ((encVfnmaF16 t k b a d m).extractLsb' 26 1) ((encVfnmaF16 t k b a d m).extractLsb' 23 3) ((encVfnmaF16 t k b a d m).extractLsb' 18 5) ((encVfnmaF16 t k b a d m).extractLsb' 13 5) ((encVfnmaF16 t k b a d m).extractLsb' 8 5) m) = _
    simp (disch := decide) only [encVfnmaF16, extract_lo, extract_hi, extract_all, Nat.reduceSub]
  · show (encVfnmaF16 t k b a d m).getLsbD 0 = true ∧ (encVfnmaF16 t k b a d m).getLsbD 1 = m.isSome
    simp (disch := decide) only [encVfnmaF16, bit_lo, modBits_zero, modBits_one]; simp
theorem Encoding.vminF16 (t : BitVec 1) (k : BitVec 3) (b a d : BitVec 5) (m : Option (BitVec 32)) : Encoding.Statement (.vminF16 t k b a d m) := by
  have hm : ((encVminF16 t k b a d m).extractLsb' 2 6).toNat = 29 := by simp (disch := decide) only [encVminF16, extract_lo, extract_hi]; decide
  refine fun _ _ => ⟨?_, ?_⟩
  · show candidate (encVminF16 t k b a d m) m = _
    unfold candidate; rw [hm]
    show candidate1D (encVminF16 t k b a d m) m = _
    have ho : ((encVminF16 t k b a d m).extractLsb' 27 5).toNat = 6 := by simp (disch := decide) only [encVminF16, extract_lo, extract_hi, extract_all]; decide
    unfold candidate1D; rw [ho]
    show some (Instr.vminF16 ((encVminF16 t k b a d m).extractLsb' 26 1) ((encVminF16 t k b a d m).extractLsb' 23 3) ((encVminF16 t k b a d m).extractLsb' 18 5) ((encVminF16 t k b a d m).extractLsb' 13 5) ((encVminF16 t k b a d m).extractLsb' 8 5) m) = _
    simp (disch := decide) only [encVminF16, extract_lo, extract_hi, extract_all, Nat.reduceSub]
  · show (encVminF16 t k b a d m).getLsbD 0 = true ∧ (encVminF16 t k b a d m).getLsbD 1 = m.isSome
    simp (disch := decide) only [encVminF16, bit_lo, modBits_zero, modBits_one]; simp
theorem Encoding.vmaxF16 (t : BitVec 1) (k : BitVec 3) (b a d : BitVec 5) (m : Option (BitVec 32)) : Encoding.Statement (.vmaxF16 t k b a d m) := by
  have hm : ((encVmaxF16 t k b a d m).extractLsb' 2 6).toNat = 29 := by simp (disch := decide) only [encVmaxF16, extract_lo, extract_hi]; decide
  refine fun _ _ => ⟨?_, ?_⟩
  · show candidate (encVmaxF16 t k b a d m) m = _
    unfold candidate; rw [hm]
    show candidate1D (encVmaxF16 t k b a d m) m = _
    have ho : ((encVmaxF16 t k b a d m).extractLsb' 27 5).toNat = 7 := by simp (disch := decide) only [encVmaxF16, extract_lo, extract_hi, extract_all]; decide
    unfold candidate1D; rw [ho]
    show some (Instr.vmaxF16 ((encVmaxF16 t k b a d m).extractLsb' 26 1) ((encVmaxF16 t k b a d m).extractLsb' 23 3) ((encVmaxF16 t k b a d m).extractLsb' 18 5) ((encVmaxF16 t k b a d m).extractLsb' 13 5) ((encVmaxF16 t k b a d m).extractLsb' 8 5) m) = _
    simp (disch := decide) only [encVmaxF16, extract_lo, extract_hi, extract_all, Nat.reduceSub]
  · show (encVmaxF16 t k b a d m).getLsbD 0 = true ∧ (encVmaxF16 t k b a d m).getLsbD 1 = m.isSome
    simp (disch := decide) only [encVmaxF16, bit_lo, modBits_zero, modBits_one]; simp
theorem Encoding.vdotF32 (t : BitVec 1) (k : BitVec 3) (b a d : BitVec 5) (m : Option (BitVec 32)) : Encoding.Statement (.vdotF32 t k b a d m) := by
  have hm : ((encVdotF32 t k b a d m).extractLsb' 2 6).toNat = 29 := by simp (disch := decide) only [encVdotF32, extract_lo, extract_hi]; decide
  refine fun _ _ => ⟨?_, ?_⟩
  · show candidate (encVdotF32 t k b a d m) m = _
    unfold candidate; rw [hm]
    show candidate1D (encVdotF32 t k b a d m) m = _
    have ho : ((encVdotF32 t k b a d m).extractLsb' 27 5).toNat = 8 := by simp (disch := decide) only [encVdotF32, extract_lo, extract_hi, extract_all]; decide
    unfold candidate1D; rw [ho]
    show some (Instr.vdotF32 ((encVdotF32 t k b a d m).extractLsb' 26 1) ((encVdotF32 t k b a d m).extractLsb' 23 3) ((encVdotF32 t k b a d m).extractLsb' 18 5) ((encVdotF32 t k b a d m).extractLsb' 13 5) ((encVdotF32 t k b a d m).extractLsb' 8 5) m) = _
    simp (disch := decide) only [encVdotF32, extract_lo, extract_hi, extract_all, Nat.reduceSub]
  · show (encVdotF32 t k b a d m).getLsbD 0 = true ∧ (encVdotF32 t k b a d m).getLsbD 1 = m.isSome
    simp (disch := decide) only [encVdotF32, bit_lo, modBits_zero, modBits_one]; simp
theorem Encoding.vcmpEqF16 (t : BitVec 1) (k : BitVec 3) (b a d : BitVec 5) (m : Option (BitVec 32)) : Encoding.Statement (.vcmpEqF16 t k b a d m) := by
  have hm : ((encVcmpEqF16 t k b a d m).extractLsb' 2 6).toNat = 29 := by simp (disch := decide) only [encVcmpEqF16, extract_lo, extract_hi]; decide
  refine fun _ _ => ⟨?_, ?_⟩
  · show candidate (encVcmpEqF16 t k b a d m) m = _
    unfold candidate; rw [hm]
    show candidate1D (encVcmpEqF16 t k b a d m) m = _
    have ho : ((encVcmpEqF16 t k b a d m).extractLsb' 27 5).toNat = 15 := by simp (disch := decide) only [encVcmpEqF16, extract_lo, extract_hi, extract_all]; decide
    unfold candidate1D; rw [ho]
    show some (Instr.vcmpEqF16 ((encVcmpEqF16 t k b a d m).extractLsb' 26 1) ((encVcmpEqF16 t k b a d m).extractLsb' 23 3) ((encVcmpEqF16 t k b a d m).extractLsb' 18 5) ((encVcmpEqF16 t k b a d m).extractLsb' 13 5) ((encVcmpEqF16 t k b a d m).extractLsb' 8 5) m) = _
    simp (disch := decide) only [encVcmpEqF16, extract_lo, extract_hi, extract_all, Nat.reduceSub]
  · show (encVcmpEqF16 t k b a d m).getLsbD 0 = true ∧ (encVcmpEqF16 t k b a d m).getLsbD 1 = m.isSome
    simp (disch := decide) only [encVcmpEqF16, bit_lo, modBits_zero, modBits_one]; simp
theorem Encoding.vcmpNeF16 (t : BitVec 1) (k : BitVec 3) (b a d : BitVec 5) (m : Option (BitVec 32)) : Encoding.Statement (.vcmpNeF16 t k b a d m) := by
  have hm : ((encVcmpNeF16 t k b a d m).extractLsb' 2 6).toNat = 29 := by simp (disch := decide) only [encVcmpNeF16, extract_lo, extract_hi]; decide
  refine fun _ _ => ⟨?_, ?_⟩
  · show candidate (encVcmpNeF16 t k b a d m) m = _
    unfold candidate; rw [hm]
    show candidate1D (encVcmpNeF16 t k b a d m) m = _
    have ho : ((encVcmpNeF16 t k b a d m).extractLsb' 27 5).toNat = 16 := by simp (disch := decide) only [encVcmpNeF16, extract_lo, extract_hi, extract_all]; decide
    unfold candidate1D; rw [ho]
    show some (Instr.vcmpNeF16 ((encVcmpNeF16 t k b a d m).extractLsb' 26 1) ((encVcmpNeF16 t k b a d m).extractLsb' 23 3) ((encVcmpNeF16 t k b a d m).extractLsb' 18 5) ((encVcmpNeF16 t k b a d m).extractLsb' 13 5) ((encVcmpNeF16 t k b a d m).extractLsb' 8 5) m) = _
    simp (disch := decide) only [encVcmpNeF16, extract_lo, extract_hi, extract_all, Nat.reduceSub]
  · show (encVcmpNeF16 t k b a d m).getLsbD 0 = true ∧ (encVcmpNeF16 t k b a d m).getLsbD 1 = m.isSome
    simp (disch := decide) only [encVcmpNeF16, bit_lo, modBits_zero, modBits_one]; simp
theorem Encoding.vcmpLtF16 (t : BitVec 1) (k : BitVec 3) (b a d : BitVec 5) (m : Option (BitVec 32)) : Encoding.Statement (.vcmpLtF16 t k b a d m) := by
  have hm : ((encVcmpLtF16 t k b a d m).extractLsb' 2 6).toNat = 29 := by simp (disch := decide) only [encVcmpLtF16, extract_lo, extract_hi]; decide
  refine fun _ _ => ⟨?_, ?_⟩
  · show candidate (encVcmpLtF16 t k b a d m) m = _
    unfold candidate; rw [hm]
    show candidate1D (encVcmpLtF16 t k b a d m) m = _
    have ho : ((encVcmpLtF16 t k b a d m).extractLsb' 27 5).toNat = 17 := by simp (disch := decide) only [encVcmpLtF16, extract_lo, extract_hi, extract_all]; decide
    unfold candidate1D; rw [ho]
    show some (Instr.vcmpLtF16 ((encVcmpLtF16 t k b a d m).extractLsb' 26 1) ((encVcmpLtF16 t k b a d m).extractLsb' 23 3) ((encVcmpLtF16 t k b a d m).extractLsb' 18 5) ((encVcmpLtF16 t k b a d m).extractLsb' 13 5) ((encVcmpLtF16 t k b a d m).extractLsb' 8 5) m) = _
    simp (disch := decide) only [encVcmpLtF16, extract_lo, extract_hi, extract_all, Nat.reduceSub]
  · show (encVcmpLtF16 t k b a d m).getLsbD 0 = true ∧ (encVcmpLtF16 t k b a d m).getLsbD 1 = m.isSome
    simp (disch := decide) only [encVcmpLtF16, bit_lo, modBits_zero, modBits_one]; simp
theorem Encoding.vcmpLeF16 (t : BitVec 1) (k : BitVec 3) (b a d : BitVec 5) (m : Option (BitVec 32)) : Encoding.Statement (.vcmpLeF16 t k b a d m) := by
  have hm : ((encVcmpLeF16 t k b a d m).extractLsb' 2 6).toNat = 29 := by simp (disch := decide) only [encVcmpLeF16, extract_lo, extract_hi]; decide
  refine fun _ _ => ⟨?_, ?_⟩
  · show candidate (encVcmpLeF16 t k b a d m) m = _
    unfold candidate; rw [hm]
    show candidate1D (encVcmpLeF16 t k b a d m) m = _
    have ho : ((encVcmpLeF16 t k b a d m).extractLsb' 27 5).toNat = 18 := by simp (disch := decide) only [encVcmpLeF16, extract_lo, extract_hi, extract_all]; decide
    unfold candidate1D; rw [ho]
    show some (Instr.vcmpLeF16 ((encVcmpLeF16 t k b a d m).extractLsb' 26 1) ((encVcmpLeF16 t k b a d m).extractLsb' 23 3) ((encVcmpLeF16 t k b a d m).extractLsb' 18 5) ((encVcmpLeF16 t k b a d m).extractLsb' 13 5) ((encVcmpLeF16 t k b a d m).extractLsb' 8 5) m) = _
    simp (disch := decide) only [encVcmpLeF16, extract_lo, extract_hi, extract_all, Nat.reduceSub]
  · show (encVcmpLeF16 t k b a d m).getLsbD 0 = true ∧ (encVcmpLeF16 t k b a d m).getLsbD 1 = m.isSome
    simp (disch := decide) only [encVcmpLeF16, bit_lo, modBits_zero, modBits_one]; simp
theorem Encoding.vselF16 (t : BitVec 1) (k : BitVec 3) (b a d : BitVec 5) (m : Option (BitVec 32)) : Encoding.Statement (.vselF16 t k b a d m) := by
  have hm : ((encVselF16 t k b a d m).extractLsb' 2 6).toNat = 29 := by simp (disch := decide) only [encVselF16, extract_lo, extract_hi]; decide
  refine fun _ _ => ⟨?_, ?_⟩
  · show candidate (encVselF16 t k b a d m) m = _
    unfold candidate; rw [hm]
    show candidate1D (encVselF16 t k b a d m) m = _
    have ho : ((encVselF16 t k b a d m).extractLsb' 27 5).toNat = 19 := by simp (disch := decide) only [encVselF16, extract_lo, extract_hi, extract_all]; decide
    unfold candidate1D; rw [ho]
    show some (Instr.vselF16 ((encVselF16 t k b a d m).extractLsb' 26 1) ((encVselF16 t k b a d m).extractLsb' 23 3) ((encVselF16 t k b a d m).extractLsb' 18 5) ((encVselF16 t k b a d m).extractLsb' 13 5) ((encVselF16 t k b a d m).extractLsb' 8 5) m) = _
    simp (disch := decide) only [encVselF16, extract_lo, extract_hi, extract_all, Nat.reduceSub]
  · show (encVselF16 t k b a d m).getLsbD 0 = true ∧ (encVselF16 t k b a d m).getLsbD 1 = m.isSome
    simp (disch := decide) only [encVselF16, bit_lo, modBits_zero, modBits_one]; simp
theorem Encoding.vredaddF16 (t : BitVec 1) (k : BitVec 3) (a d : BitVec 5) (m : Option (BitVec 32)) : Encoding.Statement (.vredaddF16 t k a d m) := by
  have hm : ((encVredaddF16 t k a d m).extractLsb' 2 6).toNat = 29 := by simp (disch := decide) only [encVredaddF16, extract_lo, extract_hi]; decide
  refine fun _ _ => ⟨?_, ?_⟩
  · show candidate (encVredaddF16 t k a d m) m = _
    unfold candidate; rw [hm]
    show candidate1D (encVredaddF16 t k a d m) m = _
    have ho : ((encVredaddF16 t k a d m).extractLsb' 27 5).toNat = 20 := by simp (disch := decide) only [encVredaddF16, extract_lo, extract_hi, extract_all]; decide
    unfold candidate1D; rw [ho]
    show some (Instr.vredaddF16 ((encVredaddF16 t k a d m).extractLsb' 26 1) ((encVredaddF16 t k a d m).extractLsb' 23 3) ((encVredaddF16 t k a d m).extractLsb' 13 5) ((encVredaddF16 t k a d m).extractLsb' 8 5) m) = _
    simp (disch := decide) only [encVredaddF16, extract_lo, extract_hi, extract_all, Nat.reduceSub]
  · show (encVredaddF16 t k a d m).getLsbD 0 = true ∧ (encVredaddF16 t k a d m).getLsbD 1 = m.isSome
    simp (disch := decide) only [encVredaddF16, bit_lo, modBits_zero, modBits_one]; simp
theorem Encoding.vredmaxF16 (t : BitVec 1) (k : BitVec 3) (a d : BitVec 5) (m : Option (BitVec 32)) : Encoding.Statement (.vredmaxF16 t k a d m) := by
  have hm : ((encVredmaxF16 t k a d m).extractLsb' 2 6).toNat = 29 := by simp (disch := decide) only [encVredmaxF16, extract_lo, extract_hi]; decide
  refine fun _ _ => ⟨?_, ?_⟩
  · show candidate (encVredmaxF16 t k a d m) m = _
    unfold candidate; rw [hm]
    show candidate1D (encVredmaxF16 t k a d m) m = _
    have ho : ((encVredmaxF16 t k a d m).extractLsb' 27 5).toNat = 21 := by simp (disch := decide) only [encVredmaxF16, extract_lo, extract_hi, extract_all]; decide
    unfold candidate1D; rw [ho]
    show some (Instr.vredmaxF16 ((encVredmaxF16 t k a d m).extractLsb' 26 1) ((encVredmaxF16 t k a d m).extractLsb' 23 3) ((encVredmaxF16 t k a d m).extractLsb' 13 5) ((encVredmaxF16 t k a d m).extractLsb' 8 5) m) = _
    simp (disch := decide) only [encVredmaxF16, extract_lo, extract_hi, extract_all, Nat.reduceSub]
  · show (encVredmaxF16 t k a d m).getLsbD 0 = true ∧ (encVredmaxF16 t k a d m).getLsbD 1 = m.isSome
    simp (disch := decide) only [encVredmaxF16, bit_lo, modBits_zero, modBits_one]; simp
theorem Encoding.vscanF16 (t : BitVec 1) (k : BitVec 3) (a d : BitVec 5) (m : Option (BitVec 32)) : Encoding.Statement (.vscanF16 t k a d m) := by
  have hm : ((encVscanF16 t k a d m).extractLsb' 2 6).toNat = 29 := by simp (disch := decide) only [encVscanF16, extract_lo, extract_hi]; decide
  refine fun _ _ => ⟨?_, ?_⟩
  · show candidate (encVscanF16 t k a d m) m = _
    unfold candidate; rw [hm]
    show candidate1D (encVscanF16 t k a d m) m = _
    have ho : ((encVscanF16 t k a d m).extractLsb' 27 5).toNat = 22 := by simp (disch := decide) only [encVscanF16, extract_lo, extract_hi, extract_all]; decide
    unfold candidate1D; rw [ho]
    show some (Instr.vscanF16 ((encVscanF16 t k a d m).extractLsb' 26 1) ((encVscanF16 t k a d m).extractLsb' 23 3) ((encVscanF16 t k a d m).extractLsb' 13 5) ((encVscanF16 t k a d m).extractLsb' 8 5) m) = _
    simp (disch := decide) only [encVscanF16, extract_lo, extract_hi, extract_all, Nat.reduceSub]
  · show (encVscanF16 t k a d m).getLsbD 0 = true ∧ (encVscanF16 t k a d m).getLsbD 1 = m.isSome
    simp (disch := decide) only [encVscanF16, bit_lo, modBits_zero, modBits_one]; simp
theorem Encoding.vaddI32 (n : BitVec 1) (k : BitVec 3) (b a d : BitVec 5) (m : Option (BitVec 32)) : Encoding.Statement (.vaddI32 n k b a d m) := by
  have hm : ((encVaddI32 n k b a d m).extractLsb' 2 6).toNat = 30 := by simp (disch := decide) only [encVaddI32, extract_lo, extract_hi]; decide
  refine fun _ _ => ⟨?_, ?_⟩
  · show candidate (encVaddI32 n k b a d m) m = _
    unfold candidate; rw [hm]
    show candidate1E (encVaddI32 n k b a d m) m = _
    have ho : ((encVaddI32 n k b a d m).extractLsb' 27 5).toNat = 0 := by simp (disch := decide) only [encVaddI32, extract_lo, extract_hi, extract_all]; decide
    unfold candidate1E; rw [ho]
    show some (Instr.vaddI32 ((encVaddI32 n k b a d m).extractLsb' 26 1) ((encVaddI32 n k b a d m).extractLsb' 23 3) ((encVaddI32 n k b a d m).extractLsb' 18 5) ((encVaddI32 n k b a d m).extractLsb' 13 5) ((encVaddI32 n k b a d m).extractLsb' 8 5) m) = _
    simp (disch := decide) only [encVaddI32, extract_lo, extract_hi, extract_all, Nat.reduceSub]
  · show (encVaddI32 n k b a d m).getLsbD 0 = true ∧ (encVaddI32 n k b a d m).getLsbD 1 = m.isSome
    simp (disch := decide) only [encVaddI32, bit_lo, modBits_zero, modBits_one]; simp
theorem Encoding.vsubI32 (n : BitVec 1) (k : BitVec 3) (b a d : BitVec 5) (m : Option (BitVec 32)) : Encoding.Statement (.vsubI32 n k b a d m) := by
  have hm : ((encVsubI32 n k b a d m).extractLsb' 2 6).toNat = 30 := by simp (disch := decide) only [encVsubI32, extract_lo, extract_hi]; decide
  refine fun _ _ => ⟨?_, ?_⟩
  · show candidate (encVsubI32 n k b a d m) m = _
    unfold candidate; rw [hm]
    show candidate1E (encVsubI32 n k b a d m) m = _
    have ho : ((encVsubI32 n k b a d m).extractLsb' 27 5).toNat = 1 := by simp (disch := decide) only [encVsubI32, extract_lo, extract_hi, extract_all]; decide
    unfold candidate1E; rw [ho]
    show some (Instr.vsubI32 ((encVsubI32 n k b a d m).extractLsb' 26 1) ((encVsubI32 n k b a d m).extractLsb' 23 3) ((encVsubI32 n k b a d m).extractLsb' 18 5) ((encVsubI32 n k b a d m).extractLsb' 13 5) ((encVsubI32 n k b a d m).extractLsb' 8 5) m) = _
    simp (disch := decide) only [encVsubI32, extract_lo, extract_hi, extract_all, Nat.reduceSub]
  · show (encVsubI32 n k b a d m).getLsbD 0 = true ∧ (encVsubI32 n k b a d m).getLsbD 1 = m.isSome
    simp (disch := decide) only [encVsubI32, bit_lo, modBits_zero, modBits_one]; simp
theorem Encoding.vmulI32 (n : BitVec 1) (k : BitVec 3) (b a d : BitVec 5) (m : Option (BitVec 32)) : Encoding.Statement (.vmulI32 n k b a d m) := by
  have hm : ((encVmulI32 n k b a d m).extractLsb' 2 6).toNat = 30 := by simp (disch := decide) only [encVmulI32, extract_lo, extract_hi]; decide
  refine fun _ _ => ⟨?_, ?_⟩
  · show candidate (encVmulI32 n k b a d m) m = _
    unfold candidate; rw [hm]
    show candidate1E (encVmulI32 n k b a d m) m = _
    have ho : ((encVmulI32 n k b a d m).extractLsb' 27 5).toNat = 2 := by simp (disch := decide) only [encVmulI32, extract_lo, extract_hi, extract_all]; decide
    unfold candidate1E; rw [ho]
    show some (Instr.vmulI32 ((encVmulI32 n k b a d m).extractLsb' 26 1) ((encVmulI32 n k b a d m).extractLsb' 23 3) ((encVmulI32 n k b a d m).extractLsb' 18 5) ((encVmulI32 n k b a d m).extractLsb' 13 5) ((encVmulI32 n k b a d m).extractLsb' 8 5) m) = _
    simp (disch := decide) only [encVmulI32, extract_lo, extract_hi, extract_all, Nat.reduceSub]
  · show (encVmulI32 n k b a d m).getLsbD 0 = true ∧ (encVmulI32 n k b a d m).getLsbD 1 = m.isSome
    simp (disch := decide) only [encVmulI32, bit_lo, modBits_zero, modBits_one]; simp
theorem Encoding.vminI32 (n : BitVec 1) (k : BitVec 3) (b a d : BitVec 5) (m : Option (BitVec 32)) : Encoding.Statement (.vminI32 n k b a d m) := by
  have hm : ((encVminI32 n k b a d m).extractLsb' 2 6).toNat = 30 := by simp (disch := decide) only [encVminI32, extract_lo, extract_hi]; decide
  refine fun _ _ => ⟨?_, ?_⟩
  · show candidate (encVminI32 n k b a d m) m = _
    unfold candidate; rw [hm]
    show candidate1E (encVminI32 n k b a d m) m = _
    have ho : ((encVminI32 n k b a d m).extractLsb' 27 5).toNat = 3 := by simp (disch := decide) only [encVminI32, extract_lo, extract_hi, extract_all]; decide
    unfold candidate1E; rw [ho]
    show some (Instr.vminI32 ((encVminI32 n k b a d m).extractLsb' 26 1) ((encVminI32 n k b a d m).extractLsb' 23 3) ((encVminI32 n k b a d m).extractLsb' 18 5) ((encVminI32 n k b a d m).extractLsb' 13 5) ((encVminI32 n k b a d m).extractLsb' 8 5) m) = _
    simp (disch := decide) only [encVminI32, extract_lo, extract_hi, extract_all, Nat.reduceSub]
  · show (encVminI32 n k b a d m).getLsbD 0 = true ∧ (encVminI32 n k b a d m).getLsbD 1 = m.isSome
    simp (disch := decide) only [encVminI32, bit_lo, modBits_zero, modBits_one]; simp
theorem Encoding.vmaxI32 (n : BitVec 1) (k : BitVec 3) (b a d : BitVec 5) (m : Option (BitVec 32)) : Encoding.Statement (.vmaxI32 n k b a d m) := by
  have hm : ((encVmaxI32 n k b a d m).extractLsb' 2 6).toNat = 30 := by simp (disch := decide) only [encVmaxI32, extract_lo, extract_hi]; decide
  refine fun _ _ => ⟨?_, ?_⟩
  · show candidate (encVmaxI32 n k b a d m) m = _
    unfold candidate; rw [hm]
    show candidate1E (encVmaxI32 n k b a d m) m = _
    have ho : ((encVmaxI32 n k b a d m).extractLsb' 27 5).toNat = 4 := by simp (disch := decide) only [encVmaxI32, extract_lo, extract_hi, extract_all]; decide
    unfold candidate1E; rw [ho]
    show some (Instr.vmaxI32 ((encVmaxI32 n k b a d m).extractLsb' 26 1) ((encVmaxI32 n k b a d m).extractLsb' 23 3) ((encVmaxI32 n k b a d m).extractLsb' 18 5) ((encVmaxI32 n k b a d m).extractLsb' 13 5) ((encVmaxI32 n k b a d m).extractLsb' 8 5) m) = _
    simp (disch := decide) only [encVmaxI32, extract_lo, extract_hi, extract_all, Nat.reduceSub]
  · show (encVmaxI32 n k b a d m).getLsbD 0 = true ∧ (encVmaxI32 n k b a d m).getLsbD 1 = m.isSome
    simp (disch := decide) only [encVmaxI32, bit_lo, modBits_zero, modBits_one]; simp
theorem Encoding.vandI32 (n : BitVec 1) (k : BitVec 3) (b a d : BitVec 5) (m : Option (BitVec 32)) : Encoding.Statement (.vandI32 n k b a d m) := by
  have hm : ((encVandI32 n k b a d m).extractLsb' 2 6).toNat = 30 := by simp (disch := decide) only [encVandI32, extract_lo, extract_hi]; decide
  refine fun _ _ => ⟨?_, ?_⟩
  · show candidate (encVandI32 n k b a d m) m = _
    unfold candidate; rw [hm]
    show candidate1E (encVandI32 n k b a d m) m = _
    have ho : ((encVandI32 n k b a d m).extractLsb' 27 5).toNat = 5 := by simp (disch := decide) only [encVandI32, extract_lo, extract_hi, extract_all]; decide
    unfold candidate1E; rw [ho]
    show some (Instr.vandI32 ((encVandI32 n k b a d m).extractLsb' 26 1) ((encVandI32 n k b a d m).extractLsb' 23 3) ((encVandI32 n k b a d m).extractLsb' 18 5) ((encVandI32 n k b a d m).extractLsb' 13 5) ((encVandI32 n k b a d m).extractLsb' 8 5) m) = _
    simp (disch := decide) only [encVandI32, extract_lo, extract_hi, extract_all, Nat.reduceSub]
  · show (encVandI32 n k b a d m).getLsbD 0 = true ∧ (encVandI32 n k b a d m).getLsbD 1 = m.isSome
    simp (disch := decide) only [encVandI32, bit_lo, modBits_zero, modBits_one]; simp
theorem Encoding.vorI32 (n : BitVec 1) (k : BitVec 3) (b a d : BitVec 5) (m : Option (BitVec 32)) : Encoding.Statement (.vorI32 n k b a d m) := by
  have hm : ((encVorI32 n k b a d m).extractLsb' 2 6).toNat = 30 := by simp (disch := decide) only [encVorI32, extract_lo, extract_hi]; decide
  refine fun _ _ => ⟨?_, ?_⟩
  · show candidate (encVorI32 n k b a d m) m = _
    unfold candidate; rw [hm]
    show candidate1E (encVorI32 n k b a d m) m = _
    have ho : ((encVorI32 n k b a d m).extractLsb' 27 5).toNat = 6 := by simp (disch := decide) only [encVorI32, extract_lo, extract_hi, extract_all]; decide
    unfold candidate1E; rw [ho]
    show some (Instr.vorI32 ((encVorI32 n k b a d m).extractLsb' 26 1) ((encVorI32 n k b a d m).extractLsb' 23 3) ((encVorI32 n k b a d m).extractLsb' 18 5) ((encVorI32 n k b a d m).extractLsb' 13 5) ((encVorI32 n k b a d m).extractLsb' 8 5) m) = _
    simp (disch := decide) only [encVorI32, extract_lo, extract_hi, extract_all, Nat.reduceSub]
  · show (encVorI32 n k b a d m).getLsbD 0 = true ∧ (encVorI32 n k b a d m).getLsbD 1 = m.isSome
    simp (disch := decide) only [encVorI32, bit_lo, modBits_zero, modBits_one]; simp
theorem Encoding.vxorI32 (n : BitVec 1) (k : BitVec 3) (b a d : BitVec 5) (m : Option (BitVec 32)) : Encoding.Statement (.vxorI32 n k b a d m) := by
  have hm : ((encVxorI32 n k b a d m).extractLsb' 2 6).toNat = 30 := by simp (disch := decide) only [encVxorI32, extract_lo, extract_hi]; decide
  refine fun _ _ => ⟨?_, ?_⟩
  · show candidate (encVxorI32 n k b a d m) m = _
    unfold candidate; rw [hm]
    show candidate1E (encVxorI32 n k b a d m) m = _
    have ho : ((encVxorI32 n k b a d m).extractLsb' 27 5).toNat = 7 := by simp (disch := decide) only [encVxorI32, extract_lo, extract_hi, extract_all]; decide
    unfold candidate1E; rw [ho]
    show some (Instr.vxorI32 ((encVxorI32 n k b a d m).extractLsb' 26 1) ((encVxorI32 n k b a d m).extractLsb' 23 3) ((encVxorI32 n k b a d m).extractLsb' 18 5) ((encVxorI32 n k b a d m).extractLsb' 13 5) ((encVxorI32 n k b a d m).extractLsb' 8 5) m) = _
    simp (disch := decide) only [encVxorI32, extract_lo, extract_hi, extract_all, Nat.reduceSub]
  · show (encVxorI32 n k b a d m).getLsbD 0 = true ∧ (encVxorI32 n k b a d m).getLsbD 1 = m.isSome
    simp (disch := decide) only [encVxorI32, bit_lo, modBits_zero, modBits_one]; simp
theorem Encoding.vshlI32 (n : BitVec 1) (k : BitVec 3) (b a d : BitVec 5) (m : Option (BitVec 32)) : Encoding.Statement (.vshlI32 n k b a d m) := by
  have hm : ((encVshlI32 n k b a d m).extractLsb' 2 6).toNat = 30 := by simp (disch := decide) only [encVshlI32, extract_lo, extract_hi]; decide
  refine fun _ _ => ⟨?_, ?_⟩
  · show candidate (encVshlI32 n k b a d m) m = _
    unfold candidate; rw [hm]
    show candidate1E (encVshlI32 n k b a d m) m = _
    have ho : ((encVshlI32 n k b a d m).extractLsb' 27 5).toNat = 8 := by simp (disch := decide) only [encVshlI32, extract_lo, extract_hi, extract_all]; decide
    unfold candidate1E; rw [ho]
    show some (Instr.vshlI32 ((encVshlI32 n k b a d m).extractLsb' 26 1) ((encVshlI32 n k b a d m).extractLsb' 23 3) ((encVshlI32 n k b a d m).extractLsb' 18 5) ((encVshlI32 n k b a d m).extractLsb' 13 5) ((encVshlI32 n k b a d m).extractLsb' 8 5) m) = _
    simp (disch := decide) only [encVshlI32, extract_lo, extract_hi, extract_all, Nat.reduceSub]
  · show (encVshlI32 n k b a d m).getLsbD 0 = true ∧ (encVshlI32 n k b a d m).getLsbD 1 = m.isSome
    simp (disch := decide) only [encVshlI32, bit_lo, modBits_zero, modBits_one]; simp
theorem Encoding.vshrI32 (n : BitVec 1) (k : BitVec 3) (b a d : BitVec 5) (m : Option (BitVec 32)) : Encoding.Statement (.vshrI32 n k b a d m) := by
  have hm : ((encVshrI32 n k b a d m).extractLsb' 2 6).toNat = 30 := by simp (disch := decide) only [encVshrI32, extract_lo, extract_hi]; decide
  refine fun _ _ => ⟨?_, ?_⟩
  · show candidate (encVshrI32 n k b a d m) m = _
    unfold candidate; rw [hm]
    show candidate1E (encVshrI32 n k b a d m) m = _
    have ho : ((encVshrI32 n k b a d m).extractLsb' 27 5).toNat = 9 := by simp (disch := decide) only [encVshrI32, extract_lo, extract_hi, extract_all]; decide
    unfold candidate1E; rw [ho]
    show some (Instr.vshrI32 ((encVshrI32 n k b a d m).extractLsb' 26 1) ((encVshrI32 n k b a d m).extractLsb' 23 3) ((encVshrI32 n k b a d m).extractLsb' 18 5) ((encVshrI32 n k b a d m).extractLsb' 13 5) ((encVshrI32 n k b a d m).extractLsb' 8 5) m) = _
    simp (disch := decide) only [encVshrI32, extract_lo, extract_hi, extract_all, Nat.reduceSub]
  · show (encVshrI32 n k b a d m).getLsbD 0 = true ∧ (encVshrI32 n k b a d m).getLsbD 1 = m.isSome
    simp (disch := decide) only [encVshrI32, bit_lo, modBits_zero, modBits_one]; simp
theorem Encoding.vshaI32 (n : BitVec 1) (k : BitVec 3) (b a d : BitVec 5) (m : Option (BitVec 32)) : Encoding.Statement (.vshaI32 n k b a d m) := by
  have hm : ((encVshaI32 n k b a d m).extractLsb' 2 6).toNat = 30 := by simp (disch := decide) only [encVshaI32, extract_lo, extract_hi]; decide
  refine fun _ _ => ⟨?_, ?_⟩
  · show candidate (encVshaI32 n k b a d m) m = _
    unfold candidate; rw [hm]
    show candidate1E (encVshaI32 n k b a d m) m = _
    have ho : ((encVshaI32 n k b a d m).extractLsb' 27 5).toNat = 10 := by simp (disch := decide) only [encVshaI32, extract_lo, extract_hi, extract_all]; decide
    unfold candidate1E; rw [ho]
    show some (Instr.vshaI32 ((encVshaI32 n k b a d m).extractLsb' 26 1) ((encVshaI32 n k b a d m).extractLsb' 23 3) ((encVshaI32 n k b a d m).extractLsb' 18 5) ((encVshaI32 n k b a d m).extractLsb' 13 5) ((encVshaI32 n k b a d m).extractLsb' 8 5) m) = _
    simp (disch := decide) only [encVshaI32, extract_lo, extract_hi, extract_all, Nat.reduceSub]
  · show (encVshaI32 n k b a d m).getLsbD 0 = true ∧ (encVshaI32 n k b a d m).getLsbD 1 = m.isSome
    simp (disch := decide) only [encVshaI32, bit_lo, modBits_zero, modBits_one]; simp
theorem Encoding.vcmpEqI32 (n : BitVec 1) (k : BitVec 3) (b a d : BitVec 5) (m : Option (BitVec 32)) : Encoding.Statement (.vcmpEqI32 n k b a d m) := by
  have hm : ((encVcmpEqI32 n k b a d m).extractLsb' 2 6).toNat = 30 := by simp (disch := decide) only [encVcmpEqI32, extract_lo, extract_hi]; decide
  refine fun _ _ => ⟨?_, ?_⟩
  · show candidate (encVcmpEqI32 n k b a d m) m = _
    unfold candidate; rw [hm]
    show candidate1E (encVcmpEqI32 n k b a d m) m = _
    have ho : ((encVcmpEqI32 n k b a d m).extractLsb' 27 5).toNat = 11 := by simp (disch := decide) only [encVcmpEqI32, extract_lo, extract_hi, extract_all]; decide
    unfold candidate1E; rw [ho]
    show some (Instr.vcmpEqI32 ((encVcmpEqI32 n k b a d m).extractLsb' 26 1) ((encVcmpEqI32 n k b a d m).extractLsb' 23 3) ((encVcmpEqI32 n k b a d m).extractLsb' 18 5) ((encVcmpEqI32 n k b a d m).extractLsb' 13 5) ((encVcmpEqI32 n k b a d m).extractLsb' 8 5) m) = _
    simp (disch := decide) only [encVcmpEqI32, extract_lo, extract_hi, extract_all, Nat.reduceSub]
  · show (encVcmpEqI32 n k b a d m).getLsbD 0 = true ∧ (encVcmpEqI32 n k b a d m).getLsbD 1 = m.isSome
    simp (disch := decide) only [encVcmpEqI32, bit_lo, modBits_zero, modBits_one]; simp
theorem Encoding.vcmpNeI32 (n : BitVec 1) (k : BitVec 3) (b a d : BitVec 5) (m : Option (BitVec 32)) : Encoding.Statement (.vcmpNeI32 n k b a d m) := by
  have hm : ((encVcmpNeI32 n k b a d m).extractLsb' 2 6).toNat = 30 := by simp (disch := decide) only [encVcmpNeI32, extract_lo, extract_hi]; decide
  refine fun _ _ => ⟨?_, ?_⟩
  · show candidate (encVcmpNeI32 n k b a d m) m = _
    unfold candidate; rw [hm]
    show candidate1E (encVcmpNeI32 n k b a d m) m = _
    have ho : ((encVcmpNeI32 n k b a d m).extractLsb' 27 5).toNat = 12 := by simp (disch := decide) only [encVcmpNeI32, extract_lo, extract_hi, extract_all]; decide
    unfold candidate1E; rw [ho]
    show some (Instr.vcmpNeI32 ((encVcmpNeI32 n k b a d m).extractLsb' 26 1) ((encVcmpNeI32 n k b a d m).extractLsb' 23 3) ((encVcmpNeI32 n k b a d m).extractLsb' 18 5) ((encVcmpNeI32 n k b a d m).extractLsb' 13 5) ((encVcmpNeI32 n k b a d m).extractLsb' 8 5) m) = _
    simp (disch := decide) only [encVcmpNeI32, extract_lo, extract_hi, extract_all, Nat.reduceSub]
  · show (encVcmpNeI32 n k b a d m).getLsbD 0 = true ∧ (encVcmpNeI32 n k b a d m).getLsbD 1 = m.isSome
    simp (disch := decide) only [encVcmpNeI32, bit_lo, modBits_zero, modBits_one]; simp
theorem Encoding.vcmpLtI32 (n : BitVec 1) (k : BitVec 3) (b a d : BitVec 5) (m : Option (BitVec 32)) : Encoding.Statement (.vcmpLtI32 n k b a d m) := by
  have hm : ((encVcmpLtI32 n k b a d m).extractLsb' 2 6).toNat = 30 := by simp (disch := decide) only [encVcmpLtI32, extract_lo, extract_hi]; decide
  refine fun _ _ => ⟨?_, ?_⟩
  · show candidate (encVcmpLtI32 n k b a d m) m = _
    unfold candidate; rw [hm]
    show candidate1E (encVcmpLtI32 n k b a d m) m = _
    have ho : ((encVcmpLtI32 n k b a d m).extractLsb' 27 5).toNat = 13 := by simp (disch := decide) only [encVcmpLtI32, extract_lo, extract_hi, extract_all]; decide
    unfold candidate1E; rw [ho]
    show some (Instr.vcmpLtI32 ((encVcmpLtI32 n k b a d m).extractLsb' 26 1) ((encVcmpLtI32 n k b a d m).extractLsb' 23 3) ((encVcmpLtI32 n k b a d m).extractLsb' 18 5) ((encVcmpLtI32 n k b a d m).extractLsb' 13 5) ((encVcmpLtI32 n k b a d m).extractLsb' 8 5) m) = _
    simp (disch := decide) only [encVcmpLtI32, extract_lo, extract_hi, extract_all, Nat.reduceSub]
  · show (encVcmpLtI32 n k b a d m).getLsbD 0 = true ∧ (encVcmpLtI32 n k b a d m).getLsbD 1 = m.isSome
    simp (disch := decide) only [encVcmpLtI32, bit_lo, modBits_zero, modBits_one]; simp
theorem Encoding.vcmpLeI32 (n : BitVec 1) (k : BitVec 3) (b a d : BitVec 5) (m : Option (BitVec 32)) : Encoding.Statement (.vcmpLeI32 n k b a d m) := by
  have hm : ((encVcmpLeI32 n k b a d m).extractLsb' 2 6).toNat = 30 := by simp (disch := decide) only [encVcmpLeI32, extract_lo, extract_hi]; decide
  refine fun _ _ => ⟨?_, ?_⟩
  · show candidate (encVcmpLeI32 n k b a d m) m = _
    unfold candidate; rw [hm]
    show candidate1E (encVcmpLeI32 n k b a d m) m = _
    have ho : ((encVcmpLeI32 n k b a d m).extractLsb' 27 5).toNat = 14 := by simp (disch := decide) only [encVcmpLeI32, extract_lo, extract_hi, extract_all]; decide
    unfold candidate1E; rw [ho]
    show some (Instr.vcmpLeI32 ((encVcmpLeI32 n k b a d m).extractLsb' 26 1) ((encVcmpLeI32 n k b a d m).extractLsb' 23 3) ((encVcmpLeI32 n k b a d m).extractLsb' 18 5) ((encVcmpLeI32 n k b a d m).extractLsb' 13 5) ((encVcmpLeI32 n k b a d m).extractLsb' 8 5) m) = _
    simp (disch := decide) only [encVcmpLeI32, extract_lo, extract_hi, extract_all, Nat.reduceSub]
  · show (encVcmpLeI32 n k b a d m).getLsbD 0 = true ∧ (encVcmpLeI32 n k b a d m).getLsbD 1 = m.isSome
    simp (disch := decide) only [encVcmpLeI32, bit_lo, modBits_zero, modBits_one]; simp
theorem Encoding.vselI32 (n : BitVec 1) (k : BitVec 3) (b a d : BitVec 5) (m : Option (BitVec 32)) : Encoding.Statement (.vselI32 n k b a d m) := by
  have hm : ((encVselI32 n k b a d m).extractLsb' 2 6).toNat = 30 := by simp (disch := decide) only [encVselI32, extract_lo, extract_hi]; decide
  refine fun _ _ => ⟨?_, ?_⟩
  · show candidate (encVselI32 n k b a d m) m = _
    unfold candidate; rw [hm]
    show candidate1E (encVselI32 n k b a d m) m = _
    have ho : ((encVselI32 n k b a d m).extractLsb' 27 5).toNat = 15 := by simp (disch := decide) only [encVselI32, extract_lo, extract_hi, extract_all]; decide
    unfold candidate1E; rw [ho]
    show some (Instr.vselI32 ((encVselI32 n k b a d m).extractLsb' 26 1) ((encVselI32 n k b a d m).extractLsb' 23 3) ((encVselI32 n k b a d m).extractLsb' 18 5) ((encVselI32 n k b a d m).extractLsb' 13 5) ((encVselI32 n k b a d m).extractLsb' 8 5) m) = _
    simp (disch := decide) only [encVselI32, extract_lo, extract_hi, extract_all, Nat.reduceSub]
  · show (encVselI32 n k b a d m).getLsbD 0 = true ∧ (encVselI32 n k b a d m).getLsbD 1 = m.isSome
    simp (disch := decide) only [encVselI32, bit_lo, modBits_zero, modBits_one]; simp
theorem Encoding.vredaddI32 (n : BitVec 1) (k : BitVec 3) (a d : BitVec 5) (m : Option (BitVec 32)) : Encoding.Statement (.vredaddI32 n k a d m) := by
  have hm : ((encVredaddI32 n k a d m).extractLsb' 2 6).toNat = 30 := by simp (disch := decide) only [encVredaddI32, extract_lo, extract_hi]; decide
  refine fun _ _ => ⟨?_, ?_⟩
  · show candidate (encVredaddI32 n k a d m) m = _
    unfold candidate; rw [hm]
    show candidate1E (encVredaddI32 n k a d m) m = _
    have ho : ((encVredaddI32 n k a d m).extractLsb' 27 5).toNat = 16 := by simp (disch := decide) only [encVredaddI32, extract_lo, extract_hi, extract_all]; decide
    unfold candidate1E; rw [ho]
    show some (Instr.vredaddI32 ((encVredaddI32 n k a d m).extractLsb' 26 1) ((encVredaddI32 n k a d m).extractLsb' 23 3) ((encVredaddI32 n k a d m).extractLsb' 13 5) ((encVredaddI32 n k a d m).extractLsb' 8 5) m) = _
    simp (disch := decide) only [encVredaddI32, extract_lo, extract_hi, extract_all, Nat.reduceSub]
  · show (encVredaddI32 n k a d m).getLsbD 0 = true ∧ (encVredaddI32 n k a d m).getLsbD 1 = m.isSome
    simp (disch := decide) only [encVredaddI32, bit_lo, modBits_zero, modBits_one]; simp
theorem Encoding.vredmaxI32 (n : BitVec 1) (k : BitVec 3) (a d : BitVec 5) (m : Option (BitVec 32)) : Encoding.Statement (.vredmaxI32 n k a d m) := by
  have hm : ((encVredmaxI32 n k a d m).extractLsb' 2 6).toNat = 30 := by simp (disch := decide) only [encVredmaxI32, extract_lo, extract_hi]; decide
  refine fun _ _ => ⟨?_, ?_⟩
  · show candidate (encVredmaxI32 n k a d m) m = _
    unfold candidate; rw [hm]
    show candidate1E (encVredmaxI32 n k a d m) m = _
    have ho : ((encVredmaxI32 n k a d m).extractLsb' 27 5).toNat = 17 := by simp (disch := decide) only [encVredmaxI32, extract_lo, extract_hi, extract_all]; decide
    unfold candidate1E; rw [ho]
    show some (Instr.vredmaxI32 ((encVredmaxI32 n k a d m).extractLsb' 26 1) ((encVredmaxI32 n k a d m).extractLsb' 23 3) ((encVredmaxI32 n k a d m).extractLsb' 13 5) ((encVredmaxI32 n k a d m).extractLsb' 8 5) m) = _
    simp (disch := decide) only [encVredmaxI32, extract_lo, extract_hi, extract_all, Nat.reduceSub]
  · show (encVredmaxI32 n k a d m).getLsbD 0 = true ∧ (encVredmaxI32 n k a d m).getLsbD 1 = m.isSome
    simp (disch := decide) only [encVredmaxI32, bit_lo, modBits_zero, modBits_one]; simp
theorem Encoding.vscanI32 (n : BitVec 1) (k : BitVec 3) (a d : BitVec 5) (m : Option (BitVec 32)) : Encoding.Statement (.vscanI32 n k a d m) := by
  have hm : ((encVscanI32 n k a d m).extractLsb' 2 6).toNat = 30 := by simp (disch := decide) only [encVscanI32, extract_lo, extract_hi]; decide
  refine fun _ _ => ⟨?_, ?_⟩
  · show candidate (encVscanI32 n k a d m) m = _
    unfold candidate; rw [hm]
    show candidate1E (encVscanI32 n k a d m) m = _
    have ho : ((encVscanI32 n k a d m).extractLsb' 27 5).toNat = 18 := by simp (disch := decide) only [encVscanI32, extract_lo, extract_hi, extract_all]; decide
    unfold candidate1E; rw [ho]
    show some (Instr.vscanI32 ((encVscanI32 n k a d m).extractLsb' 26 1) ((encVscanI32 n k a d m).extractLsb' 23 3) ((encVscanI32 n k a d m).extractLsb' 13 5) ((encVscanI32 n k a d m).extractLsb' 8 5) m) = _
    simp (disch := decide) only [encVscanI32, extract_lo, extract_hi, extract_all, Nat.reduceSub]
  · show (encVscanI32 n k a d m).getLsbD 0 = true ∧ (encVscanI32 n k a d m).getLsbD 1 = m.isSome
    simp (disch := decide) only [encVscanI32, bit_lo, modBits_zero, modBits_one]; simp
theorem Encoding.vaddI16 (n : BitVec 1) (k : BitVec 3) (b a d : BitVec 5) (m : Option (BitVec 32)) : Encoding.Statement (.vaddI16 n k b a d m) := by
  have hm : ((encVaddI16 n k b a d m).extractLsb' 2 6).toNat = 31 := by simp (disch := decide) only [encVaddI16, extract_lo, extract_hi]; decide
  refine fun _ _ => ⟨?_, ?_⟩
  · show candidate (encVaddI16 n k b a d m) m = _
    unfold candidate; rw [hm]
    show candidate1F (encVaddI16 n k b a d m) m = _
    have ho : ((encVaddI16 n k b a d m).extractLsb' 27 5).toNat = 0 := by simp (disch := decide) only [encVaddI16, extract_lo, extract_hi, extract_all]; decide
    unfold candidate1F; rw [ho]
    show some (Instr.vaddI16 ((encVaddI16 n k b a d m).extractLsb' 26 1) ((encVaddI16 n k b a d m).extractLsb' 23 3) ((encVaddI16 n k b a d m).extractLsb' 18 5) ((encVaddI16 n k b a d m).extractLsb' 13 5) ((encVaddI16 n k b a d m).extractLsb' 8 5) m) = _
    simp (disch := decide) only [encVaddI16, extract_lo, extract_hi, extract_all, Nat.reduceSub]
  · show (encVaddI16 n k b a d m).getLsbD 0 = true ∧ (encVaddI16 n k b a d m).getLsbD 1 = m.isSome
    simp (disch := decide) only [encVaddI16, bit_lo, modBits_zero, modBits_one]; simp
theorem Encoding.vsubI16 (n : BitVec 1) (k : BitVec 3) (b a d : BitVec 5) (m : Option (BitVec 32)) : Encoding.Statement (.vsubI16 n k b a d m) := by
  have hm : ((encVsubI16 n k b a d m).extractLsb' 2 6).toNat = 31 := by simp (disch := decide) only [encVsubI16, extract_lo, extract_hi]; decide
  refine fun _ _ => ⟨?_, ?_⟩
  · show candidate (encVsubI16 n k b a d m) m = _
    unfold candidate; rw [hm]
    show candidate1F (encVsubI16 n k b a d m) m = _
    have ho : ((encVsubI16 n k b a d m).extractLsb' 27 5).toNat = 1 := by simp (disch := decide) only [encVsubI16, extract_lo, extract_hi, extract_all]; decide
    unfold candidate1F; rw [ho]
    show some (Instr.vsubI16 ((encVsubI16 n k b a d m).extractLsb' 26 1) ((encVsubI16 n k b a d m).extractLsb' 23 3) ((encVsubI16 n k b a d m).extractLsb' 18 5) ((encVsubI16 n k b a d m).extractLsb' 13 5) ((encVsubI16 n k b a d m).extractLsb' 8 5) m) = _
    simp (disch := decide) only [encVsubI16, extract_lo, extract_hi, extract_all, Nat.reduceSub]
  · show (encVsubI16 n k b a d m).getLsbD 0 = true ∧ (encVsubI16 n k b a d m).getLsbD 1 = m.isSome
    simp (disch := decide) only [encVsubI16, bit_lo, modBits_zero, modBits_one]; simp
theorem Encoding.vmulI16 (n : BitVec 1) (k : BitVec 3) (b a d : BitVec 5) (m : Option (BitVec 32)) : Encoding.Statement (.vmulI16 n k b a d m) := by
  have hm : ((encVmulI16 n k b a d m).extractLsb' 2 6).toNat = 31 := by simp (disch := decide) only [encVmulI16, extract_lo, extract_hi]; decide
  refine fun _ _ => ⟨?_, ?_⟩
  · show candidate (encVmulI16 n k b a d m) m = _
    unfold candidate; rw [hm]
    show candidate1F (encVmulI16 n k b a d m) m = _
    have ho : ((encVmulI16 n k b a d m).extractLsb' 27 5).toNat = 2 := by simp (disch := decide) only [encVmulI16, extract_lo, extract_hi, extract_all]; decide
    unfold candidate1F; rw [ho]
    show some (Instr.vmulI16 ((encVmulI16 n k b a d m).extractLsb' 26 1) ((encVmulI16 n k b a d m).extractLsb' 23 3) ((encVmulI16 n k b a d m).extractLsb' 18 5) ((encVmulI16 n k b a d m).extractLsb' 13 5) ((encVmulI16 n k b a d m).extractLsb' 8 5) m) = _
    simp (disch := decide) only [encVmulI16, extract_lo, extract_hi, extract_all, Nat.reduceSub]
  · show (encVmulI16 n k b a d m).getLsbD 0 = true ∧ (encVmulI16 n k b a d m).getLsbD 1 = m.isSome
    simp (disch := decide) only [encVmulI16, bit_lo, modBits_zero, modBits_one]; simp
theorem Encoding.vminI16 (n : BitVec 1) (k : BitVec 3) (b a d : BitVec 5) (m : Option (BitVec 32)) : Encoding.Statement (.vminI16 n k b a d m) := by
  have hm : ((encVminI16 n k b a d m).extractLsb' 2 6).toNat = 31 := by simp (disch := decide) only [encVminI16, extract_lo, extract_hi]; decide
  refine fun _ _ => ⟨?_, ?_⟩
  · show candidate (encVminI16 n k b a d m) m = _
    unfold candidate; rw [hm]
    show candidate1F (encVminI16 n k b a d m) m = _
    have ho : ((encVminI16 n k b a d m).extractLsb' 27 5).toNat = 3 := by simp (disch := decide) only [encVminI16, extract_lo, extract_hi, extract_all]; decide
    unfold candidate1F; rw [ho]
    show some (Instr.vminI16 ((encVminI16 n k b a d m).extractLsb' 26 1) ((encVminI16 n k b a d m).extractLsb' 23 3) ((encVminI16 n k b a d m).extractLsb' 18 5) ((encVminI16 n k b a d m).extractLsb' 13 5) ((encVminI16 n k b a d m).extractLsb' 8 5) m) = _
    simp (disch := decide) only [encVminI16, extract_lo, extract_hi, extract_all, Nat.reduceSub]
  · show (encVminI16 n k b a d m).getLsbD 0 = true ∧ (encVminI16 n k b a d m).getLsbD 1 = m.isSome
    simp (disch := decide) only [encVminI16, bit_lo, modBits_zero, modBits_one]; simp
theorem Encoding.vmaxI16 (n : BitVec 1) (k : BitVec 3) (b a d : BitVec 5) (m : Option (BitVec 32)) : Encoding.Statement (.vmaxI16 n k b a d m) := by
  have hm : ((encVmaxI16 n k b a d m).extractLsb' 2 6).toNat = 31 := by simp (disch := decide) only [encVmaxI16, extract_lo, extract_hi]; decide
  refine fun _ _ => ⟨?_, ?_⟩
  · show candidate (encVmaxI16 n k b a d m) m = _
    unfold candidate; rw [hm]
    show candidate1F (encVmaxI16 n k b a d m) m = _
    have ho : ((encVmaxI16 n k b a d m).extractLsb' 27 5).toNat = 4 := by simp (disch := decide) only [encVmaxI16, extract_lo, extract_hi, extract_all]; decide
    unfold candidate1F; rw [ho]
    show some (Instr.vmaxI16 ((encVmaxI16 n k b a d m).extractLsb' 26 1) ((encVmaxI16 n k b a d m).extractLsb' 23 3) ((encVmaxI16 n k b a d m).extractLsb' 18 5) ((encVmaxI16 n k b a d m).extractLsb' 13 5) ((encVmaxI16 n k b a d m).extractLsb' 8 5) m) = _
    simp (disch := decide) only [encVmaxI16, extract_lo, extract_hi, extract_all, Nat.reduceSub]
  · show (encVmaxI16 n k b a d m).getLsbD 0 = true ∧ (encVmaxI16 n k b a d m).getLsbD 1 = m.isSome
    simp (disch := decide) only [encVmaxI16, bit_lo, modBits_zero, modBits_one]; simp
theorem Encoding.vandI16 (n : BitVec 1) (k : BitVec 3) (b a d : BitVec 5) (m : Option (BitVec 32)) : Encoding.Statement (.vandI16 n k b a d m) := by
  have hm : ((encVandI16 n k b a d m).extractLsb' 2 6).toNat = 31 := by simp (disch := decide) only [encVandI16, extract_lo, extract_hi]; decide
  refine fun _ _ => ⟨?_, ?_⟩
  · show candidate (encVandI16 n k b a d m) m = _
    unfold candidate; rw [hm]
    show candidate1F (encVandI16 n k b a d m) m = _
    have ho : ((encVandI16 n k b a d m).extractLsb' 27 5).toNat = 5 := by simp (disch := decide) only [encVandI16, extract_lo, extract_hi, extract_all]; decide
    unfold candidate1F; rw [ho]
    show some (Instr.vandI16 ((encVandI16 n k b a d m).extractLsb' 26 1) ((encVandI16 n k b a d m).extractLsb' 23 3) ((encVandI16 n k b a d m).extractLsb' 18 5) ((encVandI16 n k b a d m).extractLsb' 13 5) ((encVandI16 n k b a d m).extractLsb' 8 5) m) = _
    simp (disch := decide) only [encVandI16, extract_lo, extract_hi, extract_all, Nat.reduceSub]
  · show (encVandI16 n k b a d m).getLsbD 0 = true ∧ (encVandI16 n k b a d m).getLsbD 1 = m.isSome
    simp (disch := decide) only [encVandI16, bit_lo, modBits_zero, modBits_one]; simp
theorem Encoding.vorI16 (n : BitVec 1) (k : BitVec 3) (b a d : BitVec 5) (m : Option (BitVec 32)) : Encoding.Statement (.vorI16 n k b a d m) := by
  have hm : ((encVorI16 n k b a d m).extractLsb' 2 6).toNat = 31 := by simp (disch := decide) only [encVorI16, extract_lo, extract_hi]; decide
  refine fun _ _ => ⟨?_, ?_⟩
  · show candidate (encVorI16 n k b a d m) m = _
    unfold candidate; rw [hm]
    show candidate1F (encVorI16 n k b a d m) m = _
    have ho : ((encVorI16 n k b a d m).extractLsb' 27 5).toNat = 6 := by simp (disch := decide) only [encVorI16, extract_lo, extract_hi, extract_all]; decide
    unfold candidate1F; rw [ho]
    show some (Instr.vorI16 ((encVorI16 n k b a d m).extractLsb' 26 1) ((encVorI16 n k b a d m).extractLsb' 23 3) ((encVorI16 n k b a d m).extractLsb' 18 5) ((encVorI16 n k b a d m).extractLsb' 13 5) ((encVorI16 n k b a d m).extractLsb' 8 5) m) = _
    simp (disch := decide) only [encVorI16, extract_lo, extract_hi, extract_all, Nat.reduceSub]
  · show (encVorI16 n k b a d m).getLsbD 0 = true ∧ (encVorI16 n k b a d m).getLsbD 1 = m.isSome
    simp (disch := decide) only [encVorI16, bit_lo, modBits_zero, modBits_one]; simp
theorem Encoding.vxorI16 (n : BitVec 1) (k : BitVec 3) (b a d : BitVec 5) (m : Option (BitVec 32)) : Encoding.Statement (.vxorI16 n k b a d m) := by
  have hm : ((encVxorI16 n k b a d m).extractLsb' 2 6).toNat = 31 := by simp (disch := decide) only [encVxorI16, extract_lo, extract_hi]; decide
  refine fun _ _ => ⟨?_, ?_⟩
  · show candidate (encVxorI16 n k b a d m) m = _
    unfold candidate; rw [hm]
    show candidate1F (encVxorI16 n k b a d m) m = _
    have ho : ((encVxorI16 n k b a d m).extractLsb' 27 5).toNat = 7 := by simp (disch := decide) only [encVxorI16, extract_lo, extract_hi, extract_all]; decide
    unfold candidate1F; rw [ho]
    show some (Instr.vxorI16 ((encVxorI16 n k b a d m).extractLsb' 26 1) ((encVxorI16 n k b a d m).extractLsb' 23 3) ((encVxorI16 n k b a d m).extractLsb' 18 5) ((encVxorI16 n k b a d m).extractLsb' 13 5) ((encVxorI16 n k b a d m).extractLsb' 8 5) m) = _
    simp (disch := decide) only [encVxorI16, extract_lo, extract_hi, extract_all, Nat.reduceSub]
  · show (encVxorI16 n k b a d m).getLsbD 0 = true ∧ (encVxorI16 n k b a d m).getLsbD 1 = m.isSome
    simp (disch := decide) only [encVxorI16, bit_lo, modBits_zero, modBits_one]; simp
theorem Encoding.vshlI16 (n : BitVec 1) (k : BitVec 3) (b a d : BitVec 5) (m : Option (BitVec 32)) : Encoding.Statement (.vshlI16 n k b a d m) := by
  have hm : ((encVshlI16 n k b a d m).extractLsb' 2 6).toNat = 31 := by simp (disch := decide) only [encVshlI16, extract_lo, extract_hi]; decide
  refine fun _ _ => ⟨?_, ?_⟩
  · show candidate (encVshlI16 n k b a d m) m = _
    unfold candidate; rw [hm]
    show candidate1F (encVshlI16 n k b a d m) m = _
    have ho : ((encVshlI16 n k b a d m).extractLsb' 27 5).toNat = 8 := by simp (disch := decide) only [encVshlI16, extract_lo, extract_hi, extract_all]; decide
    unfold candidate1F; rw [ho]
    show some (Instr.vshlI16 ((encVshlI16 n k b a d m).extractLsb' 26 1) ((encVshlI16 n k b a d m).extractLsb' 23 3) ((encVshlI16 n k b a d m).extractLsb' 18 5) ((encVshlI16 n k b a d m).extractLsb' 13 5) ((encVshlI16 n k b a d m).extractLsb' 8 5) m) = _
    simp (disch := decide) only [encVshlI16, extract_lo, extract_hi, extract_all, Nat.reduceSub]
  · show (encVshlI16 n k b a d m).getLsbD 0 = true ∧ (encVshlI16 n k b a d m).getLsbD 1 = m.isSome
    simp (disch := decide) only [encVshlI16, bit_lo, modBits_zero, modBits_one]; simp
theorem Encoding.vshrI16 (n : BitVec 1) (k : BitVec 3) (b a d : BitVec 5) (m : Option (BitVec 32)) : Encoding.Statement (.vshrI16 n k b a d m) := by
  have hm : ((encVshrI16 n k b a d m).extractLsb' 2 6).toNat = 31 := by simp (disch := decide) only [encVshrI16, extract_lo, extract_hi]; decide
  refine fun _ _ => ⟨?_, ?_⟩
  · show candidate (encVshrI16 n k b a d m) m = _
    unfold candidate; rw [hm]
    show candidate1F (encVshrI16 n k b a d m) m = _
    have ho : ((encVshrI16 n k b a d m).extractLsb' 27 5).toNat = 9 := by simp (disch := decide) only [encVshrI16, extract_lo, extract_hi, extract_all]; decide
    unfold candidate1F; rw [ho]
    show some (Instr.vshrI16 ((encVshrI16 n k b a d m).extractLsb' 26 1) ((encVshrI16 n k b a d m).extractLsb' 23 3) ((encVshrI16 n k b a d m).extractLsb' 18 5) ((encVshrI16 n k b a d m).extractLsb' 13 5) ((encVshrI16 n k b a d m).extractLsb' 8 5) m) = _
    simp (disch := decide) only [encVshrI16, extract_lo, extract_hi, extract_all, Nat.reduceSub]
  · show (encVshrI16 n k b a d m).getLsbD 0 = true ∧ (encVshrI16 n k b a d m).getLsbD 1 = m.isSome
    simp (disch := decide) only [encVshrI16, bit_lo, modBits_zero, modBits_one]; simp
theorem Encoding.vshaI16 (n : BitVec 1) (k : BitVec 3) (b a d : BitVec 5) (m : Option (BitVec 32)) : Encoding.Statement (.vshaI16 n k b a d m) := by
  have hm : ((encVshaI16 n k b a d m).extractLsb' 2 6).toNat = 31 := by simp (disch := decide) only [encVshaI16, extract_lo, extract_hi]; decide
  refine fun _ _ => ⟨?_, ?_⟩
  · show candidate (encVshaI16 n k b a d m) m = _
    unfold candidate; rw [hm]
    show candidate1F (encVshaI16 n k b a d m) m = _
    have ho : ((encVshaI16 n k b a d m).extractLsb' 27 5).toNat = 10 := by simp (disch := decide) only [encVshaI16, extract_lo, extract_hi, extract_all]; decide
    unfold candidate1F; rw [ho]
    show some (Instr.vshaI16 ((encVshaI16 n k b a d m).extractLsb' 26 1) ((encVshaI16 n k b a d m).extractLsb' 23 3) ((encVshaI16 n k b a d m).extractLsb' 18 5) ((encVshaI16 n k b a d m).extractLsb' 13 5) ((encVshaI16 n k b a d m).extractLsb' 8 5) m) = _
    simp (disch := decide) only [encVshaI16, extract_lo, extract_hi, extract_all, Nat.reduceSub]
  · show (encVshaI16 n k b a d m).getLsbD 0 = true ∧ (encVshaI16 n k b a d m).getLsbD 1 = m.isSome
    simp (disch := decide) only [encVshaI16, bit_lo, modBits_zero, modBits_one]; simp
theorem Encoding.vcmpEqI16 (n : BitVec 1) (k : BitVec 3) (b a d : BitVec 5) (m : Option (BitVec 32)) : Encoding.Statement (.vcmpEqI16 n k b a d m) := by
  have hm : ((encVcmpEqI16 n k b a d m).extractLsb' 2 6).toNat = 31 := by simp (disch := decide) only [encVcmpEqI16, extract_lo, extract_hi]; decide
  refine fun _ _ => ⟨?_, ?_⟩
  · show candidate (encVcmpEqI16 n k b a d m) m = _
    unfold candidate; rw [hm]
    show candidate1F (encVcmpEqI16 n k b a d m) m = _
    have ho : ((encVcmpEqI16 n k b a d m).extractLsb' 27 5).toNat = 11 := by simp (disch := decide) only [encVcmpEqI16, extract_lo, extract_hi, extract_all]; decide
    unfold candidate1F; rw [ho]
    show some (Instr.vcmpEqI16 ((encVcmpEqI16 n k b a d m).extractLsb' 26 1) ((encVcmpEqI16 n k b a d m).extractLsb' 23 3) ((encVcmpEqI16 n k b a d m).extractLsb' 18 5) ((encVcmpEqI16 n k b a d m).extractLsb' 13 5) ((encVcmpEqI16 n k b a d m).extractLsb' 8 5) m) = _
    simp (disch := decide) only [encVcmpEqI16, extract_lo, extract_hi, extract_all, Nat.reduceSub]
  · show (encVcmpEqI16 n k b a d m).getLsbD 0 = true ∧ (encVcmpEqI16 n k b a d m).getLsbD 1 = m.isSome
    simp (disch := decide) only [encVcmpEqI16, bit_lo, modBits_zero, modBits_one]; simp
theorem Encoding.vcmpNeI16 (n : BitVec 1) (k : BitVec 3) (b a d : BitVec 5) (m : Option (BitVec 32)) : Encoding.Statement (.vcmpNeI16 n k b a d m) := by
  have hm : ((encVcmpNeI16 n k b a d m).extractLsb' 2 6).toNat = 31 := by simp (disch := decide) only [encVcmpNeI16, extract_lo, extract_hi]; decide
  refine fun _ _ => ⟨?_, ?_⟩
  · show candidate (encVcmpNeI16 n k b a d m) m = _
    unfold candidate; rw [hm]
    show candidate1F (encVcmpNeI16 n k b a d m) m = _
    have ho : ((encVcmpNeI16 n k b a d m).extractLsb' 27 5).toNat = 12 := by simp (disch := decide) only [encVcmpNeI16, extract_lo, extract_hi, extract_all]; decide
    unfold candidate1F; rw [ho]
    show some (Instr.vcmpNeI16 ((encVcmpNeI16 n k b a d m).extractLsb' 26 1) ((encVcmpNeI16 n k b a d m).extractLsb' 23 3) ((encVcmpNeI16 n k b a d m).extractLsb' 18 5) ((encVcmpNeI16 n k b a d m).extractLsb' 13 5) ((encVcmpNeI16 n k b a d m).extractLsb' 8 5) m) = _
    simp (disch := decide) only [encVcmpNeI16, extract_lo, extract_hi, extract_all, Nat.reduceSub]
  · show (encVcmpNeI16 n k b a d m).getLsbD 0 = true ∧ (encVcmpNeI16 n k b a d m).getLsbD 1 = m.isSome
    simp (disch := decide) only [encVcmpNeI16, bit_lo, modBits_zero, modBits_one]; simp
theorem Encoding.vcmpLtI16 (n : BitVec 1) (k : BitVec 3) (b a d : BitVec 5) (m : Option (BitVec 32)) : Encoding.Statement (.vcmpLtI16 n k b a d m) := by
  have hm : ((encVcmpLtI16 n k b a d m).extractLsb' 2 6).toNat = 31 := by simp (disch := decide) only [encVcmpLtI16, extract_lo, extract_hi]; decide
  refine fun _ _ => ⟨?_, ?_⟩
  · show candidate (encVcmpLtI16 n k b a d m) m = _
    unfold candidate; rw [hm]
    show candidate1F (encVcmpLtI16 n k b a d m) m = _
    have ho : ((encVcmpLtI16 n k b a d m).extractLsb' 27 5).toNat = 13 := by simp (disch := decide) only [encVcmpLtI16, extract_lo, extract_hi, extract_all]; decide
    unfold candidate1F; rw [ho]
    show some (Instr.vcmpLtI16 ((encVcmpLtI16 n k b a d m).extractLsb' 26 1) ((encVcmpLtI16 n k b a d m).extractLsb' 23 3) ((encVcmpLtI16 n k b a d m).extractLsb' 18 5) ((encVcmpLtI16 n k b a d m).extractLsb' 13 5) ((encVcmpLtI16 n k b a d m).extractLsb' 8 5) m) = _
    simp (disch := decide) only [encVcmpLtI16, extract_lo, extract_hi, extract_all, Nat.reduceSub]
  · show (encVcmpLtI16 n k b a d m).getLsbD 0 = true ∧ (encVcmpLtI16 n k b a d m).getLsbD 1 = m.isSome
    simp (disch := decide) only [encVcmpLtI16, bit_lo, modBits_zero, modBits_one]; simp
theorem Encoding.vcmpLeI16 (n : BitVec 1) (k : BitVec 3) (b a d : BitVec 5) (m : Option (BitVec 32)) : Encoding.Statement (.vcmpLeI16 n k b a d m) := by
  have hm : ((encVcmpLeI16 n k b a d m).extractLsb' 2 6).toNat = 31 := by simp (disch := decide) only [encVcmpLeI16, extract_lo, extract_hi]; decide
  refine fun _ _ => ⟨?_, ?_⟩
  · show candidate (encVcmpLeI16 n k b a d m) m = _
    unfold candidate; rw [hm]
    show candidate1F (encVcmpLeI16 n k b a d m) m = _
    have ho : ((encVcmpLeI16 n k b a d m).extractLsb' 27 5).toNat = 14 := by simp (disch := decide) only [encVcmpLeI16, extract_lo, extract_hi, extract_all]; decide
    unfold candidate1F; rw [ho]
    show some (Instr.vcmpLeI16 ((encVcmpLeI16 n k b a d m).extractLsb' 26 1) ((encVcmpLeI16 n k b a d m).extractLsb' 23 3) ((encVcmpLeI16 n k b a d m).extractLsb' 18 5) ((encVcmpLeI16 n k b a d m).extractLsb' 13 5) ((encVcmpLeI16 n k b a d m).extractLsb' 8 5) m) = _
    simp (disch := decide) only [encVcmpLeI16, extract_lo, extract_hi, extract_all, Nat.reduceSub]
  · show (encVcmpLeI16 n k b a d m).getLsbD 0 = true ∧ (encVcmpLeI16 n k b a d m).getLsbD 1 = m.isSome
    simp (disch := decide) only [encVcmpLeI16, bit_lo, modBits_zero, modBits_one]; simp
theorem Encoding.vselI16 (n : BitVec 1) (k : BitVec 3) (b a d : BitVec 5) (m : Option (BitVec 32)) : Encoding.Statement (.vselI16 n k b a d m) := by
  have hm : ((encVselI16 n k b a d m).extractLsb' 2 6).toNat = 31 := by simp (disch := decide) only [encVselI16, extract_lo, extract_hi]; decide
  refine fun _ _ => ⟨?_, ?_⟩
  · show candidate (encVselI16 n k b a d m) m = _
    unfold candidate; rw [hm]
    show candidate1F (encVselI16 n k b a d m) m = _
    have ho : ((encVselI16 n k b a d m).extractLsb' 27 5).toNat = 15 := by simp (disch := decide) only [encVselI16, extract_lo, extract_hi, extract_all]; decide
    unfold candidate1F; rw [ho]
    show some (Instr.vselI16 ((encVselI16 n k b a d m).extractLsb' 26 1) ((encVselI16 n k b a d m).extractLsb' 23 3) ((encVselI16 n k b a d m).extractLsb' 18 5) ((encVselI16 n k b a d m).extractLsb' 13 5) ((encVselI16 n k b a d m).extractLsb' 8 5) m) = _
    simp (disch := decide) only [encVselI16, extract_lo, extract_hi, extract_all, Nat.reduceSub]
  · show (encVselI16 n k b a d m).getLsbD 0 = true ∧ (encVselI16 n k b a d m).getLsbD 1 = m.isSome
    simp (disch := decide) only [encVselI16, bit_lo, modBits_zero, modBits_one]; simp
theorem Encoding.vredaddI16 (n : BitVec 1) (k : BitVec 3) (a d : BitVec 5) (m : Option (BitVec 32)) : Encoding.Statement (.vredaddI16 n k a d m) := by
  have hm : ((encVredaddI16 n k a d m).extractLsb' 2 6).toNat = 31 := by simp (disch := decide) only [encVredaddI16, extract_lo, extract_hi]; decide
  refine fun _ _ => ⟨?_, ?_⟩
  · show candidate (encVredaddI16 n k a d m) m = _
    unfold candidate; rw [hm]
    show candidate1F (encVredaddI16 n k a d m) m = _
    have ho : ((encVredaddI16 n k a d m).extractLsb' 27 5).toNat = 16 := by simp (disch := decide) only [encVredaddI16, extract_lo, extract_hi, extract_all]; decide
    unfold candidate1F; rw [ho]
    show some (Instr.vredaddI16 ((encVredaddI16 n k a d m).extractLsb' 26 1) ((encVredaddI16 n k a d m).extractLsb' 23 3) ((encVredaddI16 n k a d m).extractLsb' 13 5) ((encVredaddI16 n k a d m).extractLsb' 8 5) m) = _
    simp (disch := decide) only [encVredaddI16, extract_lo, extract_hi, extract_all, Nat.reduceSub]
  · show (encVredaddI16 n k a d m).getLsbD 0 = true ∧ (encVredaddI16 n k a d m).getLsbD 1 = m.isSome
    simp (disch := decide) only [encVredaddI16, bit_lo, modBits_zero, modBits_one]; simp
theorem Encoding.vredmaxI16 (n : BitVec 1) (k : BitVec 3) (a d : BitVec 5) (m : Option (BitVec 32)) : Encoding.Statement (.vredmaxI16 n k a d m) := by
  have hm : ((encVredmaxI16 n k a d m).extractLsb' 2 6).toNat = 31 := by simp (disch := decide) only [encVredmaxI16, extract_lo, extract_hi]; decide
  refine fun _ _ => ⟨?_, ?_⟩
  · show candidate (encVredmaxI16 n k a d m) m = _
    unfold candidate; rw [hm]
    show candidate1F (encVredmaxI16 n k a d m) m = _
    have ho : ((encVredmaxI16 n k a d m).extractLsb' 27 5).toNat = 17 := by simp (disch := decide) only [encVredmaxI16, extract_lo, extract_hi, extract_all]; decide
    unfold candidate1F; rw [ho]
    show some (Instr.vredmaxI16 ((encVredmaxI16 n k a d m).extractLsb' 26 1) ((encVredmaxI16 n k a d m).extractLsb' 23 3) ((encVredmaxI16 n k a d m).extractLsb' 13 5) ((encVredmaxI16 n k a d m).extractLsb' 8 5) m) = _
    simp (disch := decide) only [encVredmaxI16, extract_lo, extract_hi, extract_all, Nat.reduceSub]
  · show (encVredmaxI16 n k a d m).getLsbD 0 = true ∧ (encVredmaxI16 n k a d m).getLsbD 1 = m.isSome
    simp (disch := decide) only [encVredmaxI16, bit_lo, modBits_zero, modBits_one]; simp
theorem Encoding.vscanI16 (n : BitVec 1) (k : BitVec 3) (a d : BitVec 5) (m : Option (BitVec 32)) : Encoding.Statement (.vscanI16 n k a d m) := by
  have hm : ((encVscanI16 n k a d m).extractLsb' 2 6).toNat = 31 := by simp (disch := decide) only [encVscanI16, extract_lo, extract_hi]; decide
  refine fun _ _ => ⟨?_, ?_⟩
  · show candidate (encVscanI16 n k a d m) m = _
    unfold candidate; rw [hm]
    show candidate1F (encVscanI16 n k a d m) m = _
    have ho : ((encVscanI16 n k a d m).extractLsb' 27 5).toNat = 18 := by simp (disch := decide) only [encVscanI16, extract_lo, extract_hi, extract_all]; decide
    unfold candidate1F; rw [ho]
    show some (Instr.vscanI16 ((encVscanI16 n k a d m).extractLsb' 26 1) ((encVscanI16 n k a d m).extractLsb' 23 3) ((encVscanI16 n k a d m).extractLsb' 13 5) ((encVscanI16 n k a d m).extractLsb' 8 5) m) = _
    simp (disch := decide) only [encVscanI16, extract_lo, extract_hi, extract_all, Nat.reduceSub]
  · show (encVscanI16 n k a d m).getLsbD 0 = true ∧ (encVscanI16 n k a d m).getLsbD 1 = m.isSome
    simp (disch := decide) only [encVscanI16, bit_lo, modBits_zero, modBits_one]; simp
theorem Encoding.vdotDI16 (n : BitVec 1) (k : BitVec 3) (b a d : BitVec 5) (m : Option (BitVec 32)) : Encoding.Statement (.vdotDI16 n k b a d m) := by
  have hm : ((encVdotDI16 n k b a d m).extractLsb' 2 6).toNat = 31 := by simp (disch := decide) only [encVdotDI16, extract_lo, extract_hi]; decide
  refine fun _ _ => ⟨?_, ?_⟩
  · show candidate (encVdotDI16 n k b a d m) m = _
    unfold candidate; rw [hm]
    show candidate1F (encVdotDI16 n k b a d m) m = _
    have ho : ((encVdotDI16 n k b a d m).extractLsb' 27 5).toNat = 19 := by simp (disch := decide) only [encVdotDI16, extract_lo, extract_hi, extract_all]; decide
    unfold candidate1F; rw [ho]
    show some (Instr.vdotDI16 ((encVdotDI16 n k b a d m).extractLsb' 26 1) ((encVdotDI16 n k b a d m).extractLsb' 23 3) ((encVdotDI16 n k b a d m).extractLsb' 18 5) ((encVdotDI16 n k b a d m).extractLsb' 13 5) ((encVdotDI16 n k b a d m).extractLsb' 8 5) m) = _
    simp (disch := decide) only [encVdotDI16, extract_lo, extract_hi, extract_all, Nat.reduceSub]
  · show (encVdotDI16 n k b a d m).getLsbD 0 = true ∧ (encVdotDI16 n k b a d m).getLsbD 1 = m.isSome
    simp (disch := decide) only [encVdotDI16, bit_lo, modBits_zero, modBits_one]; simp
theorem Encoding.vaddI8 (n : BitVec 1) (k : BitVec 3) (b a d : BitVec 5) (m : Option (BitVec 32)) : Encoding.Statement (.vaddI8 n k b a d m) := by
  have hm : ((encVaddI8 n k b a d m).extractLsb' 2 6).toNat = 32 := by simp (disch := decide) only [encVaddI8, extract_lo, extract_hi]; decide
  refine fun _ _ => ⟨?_, ?_⟩
  · show candidate (encVaddI8 n k b a d m) m = _
    unfold candidate; rw [hm]
    show candidate20 (encVaddI8 n k b a d m) m = _
    have ho : ((encVaddI8 n k b a d m).extractLsb' 27 5).toNat = 0 := by simp (disch := decide) only [encVaddI8, extract_lo, extract_hi, extract_all]; decide
    unfold candidate20; rw [ho]
    show some (Instr.vaddI8 ((encVaddI8 n k b a d m).extractLsb' 26 1) ((encVaddI8 n k b a d m).extractLsb' 23 3) ((encVaddI8 n k b a d m).extractLsb' 18 5) ((encVaddI8 n k b a d m).extractLsb' 13 5) ((encVaddI8 n k b a d m).extractLsb' 8 5) m) = _
    simp (disch := decide) only [encVaddI8, extract_lo, extract_hi, extract_all, Nat.reduceSub]
  · show (encVaddI8 n k b a d m).getLsbD 0 = true ∧ (encVaddI8 n k b a d m).getLsbD 1 = m.isSome
    simp (disch := decide) only [encVaddI8, bit_lo, modBits_zero, modBits_one]; simp
theorem Encoding.vsubI8 (n : BitVec 1) (k : BitVec 3) (b a d : BitVec 5) (m : Option (BitVec 32)) : Encoding.Statement (.vsubI8 n k b a d m) := by
  have hm : ((encVsubI8 n k b a d m).extractLsb' 2 6).toNat = 32 := by simp (disch := decide) only [encVsubI8, extract_lo, extract_hi]; decide
  refine fun _ _ => ⟨?_, ?_⟩
  · show candidate (encVsubI8 n k b a d m) m = _
    unfold candidate; rw [hm]
    show candidate20 (encVsubI8 n k b a d m) m = _
    have ho : ((encVsubI8 n k b a d m).extractLsb' 27 5).toNat = 1 := by simp (disch := decide) only [encVsubI8, extract_lo, extract_hi, extract_all]; decide
    unfold candidate20; rw [ho]
    show some (Instr.vsubI8 ((encVsubI8 n k b a d m).extractLsb' 26 1) ((encVsubI8 n k b a d m).extractLsb' 23 3) ((encVsubI8 n k b a d m).extractLsb' 18 5) ((encVsubI8 n k b a d m).extractLsb' 13 5) ((encVsubI8 n k b a d m).extractLsb' 8 5) m) = _
    simp (disch := decide) only [encVsubI8, extract_lo, extract_hi, extract_all, Nat.reduceSub]
  · show (encVsubI8 n k b a d m).getLsbD 0 = true ∧ (encVsubI8 n k b a d m).getLsbD 1 = m.isSome
    simp (disch := decide) only [encVsubI8, bit_lo, modBits_zero, modBits_one]; simp
theorem Encoding.vmulI8 (n : BitVec 1) (k : BitVec 3) (b a d : BitVec 5) (m : Option (BitVec 32)) : Encoding.Statement (.vmulI8 n k b a d m) := by
  have hm : ((encVmulI8 n k b a d m).extractLsb' 2 6).toNat = 32 := by simp (disch := decide) only [encVmulI8, extract_lo, extract_hi]; decide
  refine fun _ _ => ⟨?_, ?_⟩
  · show candidate (encVmulI8 n k b a d m) m = _
    unfold candidate; rw [hm]
    show candidate20 (encVmulI8 n k b a d m) m = _
    have ho : ((encVmulI8 n k b a d m).extractLsb' 27 5).toNat = 2 := by simp (disch := decide) only [encVmulI8, extract_lo, extract_hi, extract_all]; decide
    unfold candidate20; rw [ho]
    show some (Instr.vmulI8 ((encVmulI8 n k b a d m).extractLsb' 26 1) ((encVmulI8 n k b a d m).extractLsb' 23 3) ((encVmulI8 n k b a d m).extractLsb' 18 5) ((encVmulI8 n k b a d m).extractLsb' 13 5) ((encVmulI8 n k b a d m).extractLsb' 8 5) m) = _
    simp (disch := decide) only [encVmulI8, extract_lo, extract_hi, extract_all, Nat.reduceSub]
  · show (encVmulI8 n k b a d m).getLsbD 0 = true ∧ (encVmulI8 n k b a d m).getLsbD 1 = m.isSome
    simp (disch := decide) only [encVmulI8, bit_lo, modBits_zero, modBits_one]; simp
theorem Encoding.vminI8 (n : BitVec 1) (k : BitVec 3) (b a d : BitVec 5) (m : Option (BitVec 32)) : Encoding.Statement (.vminI8 n k b a d m) := by
  have hm : ((encVminI8 n k b a d m).extractLsb' 2 6).toNat = 32 := by simp (disch := decide) only [encVminI8, extract_lo, extract_hi]; decide
  refine fun _ _ => ⟨?_, ?_⟩
  · show candidate (encVminI8 n k b a d m) m = _
    unfold candidate; rw [hm]
    show candidate20 (encVminI8 n k b a d m) m = _
    have ho : ((encVminI8 n k b a d m).extractLsb' 27 5).toNat = 3 := by simp (disch := decide) only [encVminI8, extract_lo, extract_hi, extract_all]; decide
    unfold candidate20; rw [ho]
    show some (Instr.vminI8 ((encVminI8 n k b a d m).extractLsb' 26 1) ((encVminI8 n k b a d m).extractLsb' 23 3) ((encVminI8 n k b a d m).extractLsb' 18 5) ((encVminI8 n k b a d m).extractLsb' 13 5) ((encVminI8 n k b a d m).extractLsb' 8 5) m) = _
    simp (disch := decide) only [encVminI8, extract_lo, extract_hi, extract_all, Nat.reduceSub]
  · show (encVminI8 n k b a d m).getLsbD 0 = true ∧ (encVminI8 n k b a d m).getLsbD 1 = m.isSome
    simp (disch := decide) only [encVminI8, bit_lo, modBits_zero, modBits_one]; simp
theorem Encoding.vmaxI8 (n : BitVec 1) (k : BitVec 3) (b a d : BitVec 5) (m : Option (BitVec 32)) : Encoding.Statement (.vmaxI8 n k b a d m) := by
  have hm : ((encVmaxI8 n k b a d m).extractLsb' 2 6).toNat = 32 := by simp (disch := decide) only [encVmaxI8, extract_lo, extract_hi]; decide
  refine fun _ _ => ⟨?_, ?_⟩
  · show candidate (encVmaxI8 n k b a d m) m = _
    unfold candidate; rw [hm]
    show candidate20 (encVmaxI8 n k b a d m) m = _
    have ho : ((encVmaxI8 n k b a d m).extractLsb' 27 5).toNat = 4 := by simp (disch := decide) only [encVmaxI8, extract_lo, extract_hi, extract_all]; decide
    unfold candidate20; rw [ho]
    show some (Instr.vmaxI8 ((encVmaxI8 n k b a d m).extractLsb' 26 1) ((encVmaxI8 n k b a d m).extractLsb' 23 3) ((encVmaxI8 n k b a d m).extractLsb' 18 5) ((encVmaxI8 n k b a d m).extractLsb' 13 5) ((encVmaxI8 n k b a d m).extractLsb' 8 5) m) = _
    simp (disch := decide) only [encVmaxI8, extract_lo, extract_hi, extract_all, Nat.reduceSub]
  · show (encVmaxI8 n k b a d m).getLsbD 0 = true ∧ (encVmaxI8 n k b a d m).getLsbD 1 = m.isSome
    simp (disch := decide) only [encVmaxI8, bit_lo, modBits_zero, modBits_one]; simp
theorem Encoding.vandI8 (n : BitVec 1) (k : BitVec 3) (b a d : BitVec 5) (m : Option (BitVec 32)) : Encoding.Statement (.vandI8 n k b a d m) := by
  have hm : ((encVandI8 n k b a d m).extractLsb' 2 6).toNat = 32 := by simp (disch := decide) only [encVandI8, extract_lo, extract_hi]; decide
  refine fun _ _ => ⟨?_, ?_⟩
  · show candidate (encVandI8 n k b a d m) m = _
    unfold candidate; rw [hm]
    show candidate20 (encVandI8 n k b a d m) m = _
    have ho : ((encVandI8 n k b a d m).extractLsb' 27 5).toNat = 5 := by simp (disch := decide) only [encVandI8, extract_lo, extract_hi, extract_all]; decide
    unfold candidate20; rw [ho]
    show some (Instr.vandI8 ((encVandI8 n k b a d m).extractLsb' 26 1) ((encVandI8 n k b a d m).extractLsb' 23 3) ((encVandI8 n k b a d m).extractLsb' 18 5) ((encVandI8 n k b a d m).extractLsb' 13 5) ((encVandI8 n k b a d m).extractLsb' 8 5) m) = _
    simp (disch := decide) only [encVandI8, extract_lo, extract_hi, extract_all, Nat.reduceSub]
  · show (encVandI8 n k b a d m).getLsbD 0 = true ∧ (encVandI8 n k b a d m).getLsbD 1 = m.isSome
    simp (disch := decide) only [encVandI8, bit_lo, modBits_zero, modBits_one]; simp
theorem Encoding.vorI8 (n : BitVec 1) (k : BitVec 3) (b a d : BitVec 5) (m : Option (BitVec 32)) : Encoding.Statement (.vorI8 n k b a d m) := by
  have hm : ((encVorI8 n k b a d m).extractLsb' 2 6).toNat = 32 := by simp (disch := decide) only [encVorI8, extract_lo, extract_hi]; decide
  refine fun _ _ => ⟨?_, ?_⟩
  · show candidate (encVorI8 n k b a d m) m = _
    unfold candidate; rw [hm]
    show candidate20 (encVorI8 n k b a d m) m = _
    have ho : ((encVorI8 n k b a d m).extractLsb' 27 5).toNat = 6 := by simp (disch := decide) only [encVorI8, extract_lo, extract_hi, extract_all]; decide
    unfold candidate20; rw [ho]
    show some (Instr.vorI8 ((encVorI8 n k b a d m).extractLsb' 26 1) ((encVorI8 n k b a d m).extractLsb' 23 3) ((encVorI8 n k b a d m).extractLsb' 18 5) ((encVorI8 n k b a d m).extractLsb' 13 5) ((encVorI8 n k b a d m).extractLsb' 8 5) m) = _
    simp (disch := decide) only [encVorI8, extract_lo, extract_hi, extract_all, Nat.reduceSub]
  · show (encVorI8 n k b a d m).getLsbD 0 = true ∧ (encVorI8 n k b a d m).getLsbD 1 = m.isSome
    simp (disch := decide) only [encVorI8, bit_lo, modBits_zero, modBits_one]; simp
theorem Encoding.vxorI8 (n : BitVec 1) (k : BitVec 3) (b a d : BitVec 5) (m : Option (BitVec 32)) : Encoding.Statement (.vxorI8 n k b a d m) := by
  have hm : ((encVxorI8 n k b a d m).extractLsb' 2 6).toNat = 32 := by simp (disch := decide) only [encVxorI8, extract_lo, extract_hi]; decide
  refine fun _ _ => ⟨?_, ?_⟩
  · show candidate (encVxorI8 n k b a d m) m = _
    unfold candidate; rw [hm]
    show candidate20 (encVxorI8 n k b a d m) m = _
    have ho : ((encVxorI8 n k b a d m).extractLsb' 27 5).toNat = 7 := by simp (disch := decide) only [encVxorI8, extract_lo, extract_hi, extract_all]; decide
    unfold candidate20; rw [ho]
    show some (Instr.vxorI8 ((encVxorI8 n k b a d m).extractLsb' 26 1) ((encVxorI8 n k b a d m).extractLsb' 23 3) ((encVxorI8 n k b a d m).extractLsb' 18 5) ((encVxorI8 n k b a d m).extractLsb' 13 5) ((encVxorI8 n k b a d m).extractLsb' 8 5) m) = _
    simp (disch := decide) only [encVxorI8, extract_lo, extract_hi, extract_all, Nat.reduceSub]
  · show (encVxorI8 n k b a d m).getLsbD 0 = true ∧ (encVxorI8 n k b a d m).getLsbD 1 = m.isSome
    simp (disch := decide) only [encVxorI8, bit_lo, modBits_zero, modBits_one]; simp
theorem Encoding.vshlI8 (n : BitVec 1) (k : BitVec 3) (b a d : BitVec 5) (m : Option (BitVec 32)) : Encoding.Statement (.vshlI8 n k b a d m) := by
  have hm : ((encVshlI8 n k b a d m).extractLsb' 2 6).toNat = 32 := by simp (disch := decide) only [encVshlI8, extract_lo, extract_hi]; decide
  refine fun _ _ => ⟨?_, ?_⟩
  · show candidate (encVshlI8 n k b a d m) m = _
    unfold candidate; rw [hm]
    show candidate20 (encVshlI8 n k b a d m) m = _
    have ho : ((encVshlI8 n k b a d m).extractLsb' 27 5).toNat = 8 := by simp (disch := decide) only [encVshlI8, extract_lo, extract_hi, extract_all]; decide
    unfold candidate20; rw [ho]
    show some (Instr.vshlI8 ((encVshlI8 n k b a d m).extractLsb' 26 1) ((encVshlI8 n k b a d m).extractLsb' 23 3) ((encVshlI8 n k b a d m).extractLsb' 18 5) ((encVshlI8 n k b a d m).extractLsb' 13 5) ((encVshlI8 n k b a d m).extractLsb' 8 5) m) = _
    simp (disch := decide) only [encVshlI8, extract_lo, extract_hi, extract_all, Nat.reduceSub]
  · show (encVshlI8 n k b a d m).getLsbD 0 = true ∧ (encVshlI8 n k b a d m).getLsbD 1 = m.isSome
    simp (disch := decide) only [encVshlI8, bit_lo, modBits_zero, modBits_one]; simp
theorem Encoding.vshrI8 (n : BitVec 1) (k : BitVec 3) (b a d : BitVec 5) (m : Option (BitVec 32)) : Encoding.Statement (.vshrI8 n k b a d m) := by
  have hm : ((encVshrI8 n k b a d m).extractLsb' 2 6).toNat = 32 := by simp (disch := decide) only [encVshrI8, extract_lo, extract_hi]; decide
  refine fun _ _ => ⟨?_, ?_⟩
  · show candidate (encVshrI8 n k b a d m) m = _
    unfold candidate; rw [hm]
    show candidate20 (encVshrI8 n k b a d m) m = _
    have ho : ((encVshrI8 n k b a d m).extractLsb' 27 5).toNat = 9 := by simp (disch := decide) only [encVshrI8, extract_lo, extract_hi, extract_all]; decide
    unfold candidate20; rw [ho]
    show some (Instr.vshrI8 ((encVshrI8 n k b a d m).extractLsb' 26 1) ((encVshrI8 n k b a d m).extractLsb' 23 3) ((encVshrI8 n k b a d m).extractLsb' 18 5) ((encVshrI8 n k b a d m).extractLsb' 13 5) ((encVshrI8 n k b a d m).extractLsb' 8 5) m) = _
    simp (disch := decide) only [encVshrI8, extract_lo, extract_hi, extract_all, Nat.reduceSub]
  · show (encVshrI8 n k b a d m).getLsbD 0 = true ∧ (encVshrI8 n k b a d m).getLsbD 1 = m.isSome
    simp (disch := decide) only [encVshrI8, bit_lo, modBits_zero, modBits_one]; simp
theorem Encoding.vshaI8 (n : BitVec 1) (k : BitVec 3) (b a d : BitVec 5) (m : Option (BitVec 32)) : Encoding.Statement (.vshaI8 n k b a d m) := by
  have hm : ((encVshaI8 n k b a d m).extractLsb' 2 6).toNat = 32 := by simp (disch := decide) only [encVshaI8, extract_lo, extract_hi]; decide
  refine fun _ _ => ⟨?_, ?_⟩
  · show candidate (encVshaI8 n k b a d m) m = _
    unfold candidate; rw [hm]
    show candidate20 (encVshaI8 n k b a d m) m = _
    have ho : ((encVshaI8 n k b a d m).extractLsb' 27 5).toNat = 10 := by simp (disch := decide) only [encVshaI8, extract_lo, extract_hi, extract_all]; decide
    unfold candidate20; rw [ho]
    show some (Instr.vshaI8 ((encVshaI8 n k b a d m).extractLsb' 26 1) ((encVshaI8 n k b a d m).extractLsb' 23 3) ((encVshaI8 n k b a d m).extractLsb' 18 5) ((encVshaI8 n k b a d m).extractLsb' 13 5) ((encVshaI8 n k b a d m).extractLsb' 8 5) m) = _
    simp (disch := decide) only [encVshaI8, extract_lo, extract_hi, extract_all, Nat.reduceSub]
  · show (encVshaI8 n k b a d m).getLsbD 0 = true ∧ (encVshaI8 n k b a d m).getLsbD 1 = m.isSome
    simp (disch := decide) only [encVshaI8, bit_lo, modBits_zero, modBits_one]; simp
theorem Encoding.vcmpEqI8 (n : BitVec 1) (k : BitVec 3) (b a d : BitVec 5) (m : Option (BitVec 32)) : Encoding.Statement (.vcmpEqI8 n k b a d m) := by
  have hm : ((encVcmpEqI8 n k b a d m).extractLsb' 2 6).toNat = 32 := by simp (disch := decide) only [encVcmpEqI8, extract_lo, extract_hi]; decide
  refine fun _ _ => ⟨?_, ?_⟩
  · show candidate (encVcmpEqI8 n k b a d m) m = _
    unfold candidate; rw [hm]
    show candidate20 (encVcmpEqI8 n k b a d m) m = _
    have ho : ((encVcmpEqI8 n k b a d m).extractLsb' 27 5).toNat = 11 := by simp (disch := decide) only [encVcmpEqI8, extract_lo, extract_hi, extract_all]; decide
    unfold candidate20; rw [ho]
    show some (Instr.vcmpEqI8 ((encVcmpEqI8 n k b a d m).extractLsb' 26 1) ((encVcmpEqI8 n k b a d m).extractLsb' 23 3) ((encVcmpEqI8 n k b a d m).extractLsb' 18 5) ((encVcmpEqI8 n k b a d m).extractLsb' 13 5) ((encVcmpEqI8 n k b a d m).extractLsb' 8 5) m) = _
    simp (disch := decide) only [encVcmpEqI8, extract_lo, extract_hi, extract_all, Nat.reduceSub]
  · show (encVcmpEqI8 n k b a d m).getLsbD 0 = true ∧ (encVcmpEqI8 n k b a d m).getLsbD 1 = m.isSome
    simp (disch := decide) only [encVcmpEqI8, bit_lo, modBits_zero, modBits_one]; simp
theorem Encoding.vcmpNeI8 (n : BitVec 1) (k : BitVec 3) (b a d : BitVec 5) (m : Option (BitVec 32)) : Encoding.Statement (.vcmpNeI8 n k b a d m) := by
  have hm : ((encVcmpNeI8 n k b a d m).extractLsb' 2 6).toNat = 32 := by simp (disch := decide) only [encVcmpNeI8, extract_lo, extract_hi]; decide
  refine fun _ _ => ⟨?_, ?_⟩
  · show candidate (encVcmpNeI8 n k b a d m) m = _
    unfold candidate; rw [hm]
    show candidate20 (encVcmpNeI8 n k b a d m) m = _
    have ho : ((encVcmpNeI8 n k b a d m).extractLsb' 27 5).toNat = 12 := by simp (disch := decide) only [encVcmpNeI8, extract_lo, extract_hi, extract_all]; decide
    unfold candidate20; rw [ho]
    show some (Instr.vcmpNeI8 ((encVcmpNeI8 n k b a d m).extractLsb' 26 1) ((encVcmpNeI8 n k b a d m).extractLsb' 23 3) ((encVcmpNeI8 n k b a d m).extractLsb' 18 5) ((encVcmpNeI8 n k b a d m).extractLsb' 13 5) ((encVcmpNeI8 n k b a d m).extractLsb' 8 5) m) = _
    simp (disch := decide) only [encVcmpNeI8, extract_lo, extract_hi, extract_all, Nat.reduceSub]
  · show (encVcmpNeI8 n k b a d m).getLsbD 0 = true ∧ (encVcmpNeI8 n k b a d m).getLsbD 1 = m.isSome
    simp (disch := decide) only [encVcmpNeI8, bit_lo, modBits_zero, modBits_one]; simp
theorem Encoding.vcmpLtI8 (n : BitVec 1) (k : BitVec 3) (b a d : BitVec 5) (m : Option (BitVec 32)) : Encoding.Statement (.vcmpLtI8 n k b a d m) := by
  have hm : ((encVcmpLtI8 n k b a d m).extractLsb' 2 6).toNat = 32 := by simp (disch := decide) only [encVcmpLtI8, extract_lo, extract_hi]; decide
  refine fun _ _ => ⟨?_, ?_⟩
  · show candidate (encVcmpLtI8 n k b a d m) m = _
    unfold candidate; rw [hm]
    show candidate20 (encVcmpLtI8 n k b a d m) m = _
    have ho : ((encVcmpLtI8 n k b a d m).extractLsb' 27 5).toNat = 13 := by simp (disch := decide) only [encVcmpLtI8, extract_lo, extract_hi, extract_all]; decide
    unfold candidate20; rw [ho]
    show some (Instr.vcmpLtI8 ((encVcmpLtI8 n k b a d m).extractLsb' 26 1) ((encVcmpLtI8 n k b a d m).extractLsb' 23 3) ((encVcmpLtI8 n k b a d m).extractLsb' 18 5) ((encVcmpLtI8 n k b a d m).extractLsb' 13 5) ((encVcmpLtI8 n k b a d m).extractLsb' 8 5) m) = _
    simp (disch := decide) only [encVcmpLtI8, extract_lo, extract_hi, extract_all, Nat.reduceSub]
  · show (encVcmpLtI8 n k b a d m).getLsbD 0 = true ∧ (encVcmpLtI8 n k b a d m).getLsbD 1 = m.isSome
    simp (disch := decide) only [encVcmpLtI8, bit_lo, modBits_zero, modBits_one]; simp
theorem Encoding.vcmpLeI8 (n : BitVec 1) (k : BitVec 3) (b a d : BitVec 5) (m : Option (BitVec 32)) : Encoding.Statement (.vcmpLeI8 n k b a d m) := by
  have hm : ((encVcmpLeI8 n k b a d m).extractLsb' 2 6).toNat = 32 := by simp (disch := decide) only [encVcmpLeI8, extract_lo, extract_hi]; decide
  refine fun _ _ => ⟨?_, ?_⟩
  · show candidate (encVcmpLeI8 n k b a d m) m = _
    unfold candidate; rw [hm]
    show candidate20 (encVcmpLeI8 n k b a d m) m = _
    have ho : ((encVcmpLeI8 n k b a d m).extractLsb' 27 5).toNat = 14 := by simp (disch := decide) only [encVcmpLeI8, extract_lo, extract_hi, extract_all]; decide
    unfold candidate20; rw [ho]
    show some (Instr.vcmpLeI8 ((encVcmpLeI8 n k b a d m).extractLsb' 26 1) ((encVcmpLeI8 n k b a d m).extractLsb' 23 3) ((encVcmpLeI8 n k b a d m).extractLsb' 18 5) ((encVcmpLeI8 n k b a d m).extractLsb' 13 5) ((encVcmpLeI8 n k b a d m).extractLsb' 8 5) m) = _
    simp (disch := decide) only [encVcmpLeI8, extract_lo, extract_hi, extract_all, Nat.reduceSub]
  · show (encVcmpLeI8 n k b a d m).getLsbD 0 = true ∧ (encVcmpLeI8 n k b a d m).getLsbD 1 = m.isSome
    simp (disch := decide) only [encVcmpLeI8, bit_lo, modBits_zero, modBits_one]; simp
theorem Encoding.vselI8 (n : BitVec 1) (k : BitVec 3) (b a d : BitVec 5) (m : Option (BitVec 32)) : Encoding.Statement (.vselI8 n k b a d m) := by
  have hm : ((encVselI8 n k b a d m).extractLsb' 2 6).toNat = 32 := by simp (disch := decide) only [encVselI8, extract_lo, extract_hi]; decide
  refine fun _ _ => ⟨?_, ?_⟩
  · show candidate (encVselI8 n k b a d m) m = _
    unfold candidate; rw [hm]
    show candidate20 (encVselI8 n k b a d m) m = _
    have ho : ((encVselI8 n k b a d m).extractLsb' 27 5).toNat = 15 := by simp (disch := decide) only [encVselI8, extract_lo, extract_hi, extract_all]; decide
    unfold candidate20; rw [ho]
    show some (Instr.vselI8 ((encVselI8 n k b a d m).extractLsb' 26 1) ((encVselI8 n k b a d m).extractLsb' 23 3) ((encVselI8 n k b a d m).extractLsb' 18 5) ((encVselI8 n k b a d m).extractLsb' 13 5) ((encVselI8 n k b a d m).extractLsb' 8 5) m) = _
    simp (disch := decide) only [encVselI8, extract_lo, extract_hi, extract_all, Nat.reduceSub]
  · show (encVselI8 n k b a d m).getLsbD 0 = true ∧ (encVselI8 n k b a d m).getLsbD 1 = m.isSome
    simp (disch := decide) only [encVselI8, bit_lo, modBits_zero, modBits_one]; simp
theorem Encoding.vredaddI8 (n : BitVec 1) (k : BitVec 3) (a d : BitVec 5) (m : Option (BitVec 32)) : Encoding.Statement (.vredaddI8 n k a d m) := by
  have hm : ((encVredaddI8 n k a d m).extractLsb' 2 6).toNat = 32 := by simp (disch := decide) only [encVredaddI8, extract_lo, extract_hi]; decide
  refine fun _ _ => ⟨?_, ?_⟩
  · show candidate (encVredaddI8 n k a d m) m = _
    unfold candidate; rw [hm]
    show candidate20 (encVredaddI8 n k a d m) m = _
    have ho : ((encVredaddI8 n k a d m).extractLsb' 27 5).toNat = 16 := by simp (disch := decide) only [encVredaddI8, extract_lo, extract_hi, extract_all]; decide
    unfold candidate20; rw [ho]
    show some (Instr.vredaddI8 ((encVredaddI8 n k a d m).extractLsb' 26 1) ((encVredaddI8 n k a d m).extractLsb' 23 3) ((encVredaddI8 n k a d m).extractLsb' 13 5) ((encVredaddI8 n k a d m).extractLsb' 8 5) m) = _
    simp (disch := decide) only [encVredaddI8, extract_lo, extract_hi, extract_all, Nat.reduceSub]
  · show (encVredaddI8 n k a d m).getLsbD 0 = true ∧ (encVredaddI8 n k a d m).getLsbD 1 = m.isSome
    simp (disch := decide) only [encVredaddI8, bit_lo, modBits_zero, modBits_one]; simp
theorem Encoding.vredmaxI8 (n : BitVec 1) (k : BitVec 3) (a d : BitVec 5) (m : Option (BitVec 32)) : Encoding.Statement (.vredmaxI8 n k a d m) := by
  have hm : ((encVredmaxI8 n k a d m).extractLsb' 2 6).toNat = 32 := by simp (disch := decide) only [encVredmaxI8, extract_lo, extract_hi]; decide
  refine fun _ _ => ⟨?_, ?_⟩
  · show candidate (encVredmaxI8 n k a d m) m = _
    unfold candidate; rw [hm]
    show candidate20 (encVredmaxI8 n k a d m) m = _
    have ho : ((encVredmaxI8 n k a d m).extractLsb' 27 5).toNat = 17 := by simp (disch := decide) only [encVredmaxI8, extract_lo, extract_hi, extract_all]; decide
    unfold candidate20; rw [ho]
    show some (Instr.vredmaxI8 ((encVredmaxI8 n k a d m).extractLsb' 26 1) ((encVredmaxI8 n k a d m).extractLsb' 23 3) ((encVredmaxI8 n k a d m).extractLsb' 13 5) ((encVredmaxI8 n k a d m).extractLsb' 8 5) m) = _
    simp (disch := decide) only [encVredmaxI8, extract_lo, extract_hi, extract_all, Nat.reduceSub]
  · show (encVredmaxI8 n k a d m).getLsbD 0 = true ∧ (encVredmaxI8 n k a d m).getLsbD 1 = m.isSome
    simp (disch := decide) only [encVredmaxI8, bit_lo, modBits_zero, modBits_one]; simp
theorem Encoding.vscanI8 (n : BitVec 1) (k : BitVec 3) (a d : BitVec 5) (m : Option (BitVec 32)) : Encoding.Statement (.vscanI8 n k a d m) := by
  have hm : ((encVscanI8 n k a d m).extractLsb' 2 6).toNat = 32 := by simp (disch := decide) only [encVscanI8, extract_lo, extract_hi]; decide
  refine fun _ _ => ⟨?_, ?_⟩
  · show candidate (encVscanI8 n k a d m) m = _
    unfold candidate; rw [hm]
    show candidate20 (encVscanI8 n k a d m) m = _
    have ho : ((encVscanI8 n k a d m).extractLsb' 27 5).toNat = 18 := by simp (disch := decide) only [encVscanI8, extract_lo, extract_hi, extract_all]; decide
    unfold candidate20; rw [ho]
    show some (Instr.vscanI8 ((encVscanI8 n k a d m).extractLsb' 26 1) ((encVscanI8 n k a d m).extractLsb' 23 3) ((encVscanI8 n k a d m).extractLsb' 13 5) ((encVscanI8 n k a d m).extractLsb' 8 5) m) = _
    simp (disch := decide) only [encVscanI8, extract_lo, extract_hi, extract_all, Nat.reduceSub]
  · show (encVscanI8 n k a d m).getLsbD 0 = true ∧ (encVscanI8 n k a d m).getLsbD 1 = m.isSome
    simp (disch := decide) only [encVscanI8, bit_lo, modBits_zero, modBits_one]; simp
theorem Encoding.vdotDI8 (n : BitVec 1) (k : BitVec 3) (b a d : BitVec 5) (m : Option (BitVec 32)) : Encoding.Statement (.vdotDI8 n k b a d m) := by
  have hm : ((encVdotDI8 n k b a d m).extractLsb' 2 6).toNat = 32 := by simp (disch := decide) only [encVdotDI8, extract_lo, extract_hi]; decide
  refine fun _ _ => ⟨?_, ?_⟩
  · show candidate (encVdotDI8 n k b a d m) m = _
    unfold candidate; rw [hm]
    show candidate20 (encVdotDI8 n k b a d m) m = _
    have ho : ((encVdotDI8 n k b a d m).extractLsb' 27 5).toNat = 19 := by simp (disch := decide) only [encVdotDI8, extract_lo, extract_hi, extract_all]; decide
    unfold candidate20; rw [ho]
    show some (Instr.vdotDI8 ((encVdotDI8 n k b a d m).extractLsb' 26 1) ((encVdotDI8 n k b a d m).extractLsb' 23 3) ((encVdotDI8 n k b a d m).extractLsb' 18 5) ((encVdotDI8 n k b a d m).extractLsb' 13 5) ((encVdotDI8 n k b a d m).extractLsb' 8 5) m) = _
    simp (disch := decide) only [encVdotDI8, extract_lo, extract_hi, extract_all, Nat.reduceSub]
  · show (encVdotDI8 n k b a d m).getLsbD 0 = true ∧ (encVdotDI8 n k b a d m).getLsbD 1 = m.isSome
    simp (disch := decide) only [encVdotDI8, bit_lo, modBits_zero, modBits_one]; simp
theorem Encoding.vperm (w : BitVec 2) (k : BitVec 3) (b a d : BitVec 5) : Encoding.Statement (.vperm w k b a d) := by
  have hm : ((encVperm w k b a d).extractLsb' 2 6).toNat = 33 := congrArg BitVec.toNat (extract_lo _ 133#8 2 6 (by decide))
  refine fun _ _ => ⟨?_, ?_⟩
  · show candidate (encVperm w k b a d) none = _
    unfold candidate; rw [hm]
    show candidate21 (encVperm w k b a d) = _
    have ho : ((encVperm w k b a d).extractLsb' 28 4).toNat = 0 := by simp (disch := decide) only [encVperm, extract_lo, extract_hi, extract_all]; decide
    unfold candidate21; rw [ho]
    show some (Instr.vperm ((encVperm w k b a d).extractLsb' 26 2) ((encVperm w k b a d).extractLsb' 23 3) ((encVperm w k b a d).extractLsb' 18 5) ((encVperm w k b a d).extractLsb' 13 5) ((encVperm w k b a d).extractLsb' 8 5)) = _
    simp (disch := decide) only [encVperm, extract_lo, extract_hi, extract_all, Nat.reduceSub]
  · show (encVperm w k b a d).getLsbD 0 = true ∧ (encVperm w k b a d).getLsbD 1 = false
    exact ⟨bit_lo _ 133#8 0 (by decide), bit_lo _ 133#8 1 (by decide)⟩
theorem Encoding.vbcastS (w : BitVec 2) (k : BitVec 3) (a d : BitVec 5) : Encoding.Statement (.vbcastS w k a d) := by
  have hm : ((encVbcastS w k a d).extractLsb' 2 6).toNat = 33 := congrArg BitVec.toNat (extract_lo _ 133#8 2 6 (by decide))
  refine fun _ _ => ⟨?_, ?_⟩
  · show candidate (encVbcastS w k a d) none = _
    unfold candidate; rw [hm]
    show candidate21 (encVbcastS w k a d) = _
    have ho : ((encVbcastS w k a d).extractLsb' 28 4).toNat = 1 := by simp (disch := decide) only [encVbcastS, extract_lo, extract_hi, extract_all]; decide
    unfold candidate21; rw [ho]
    show some (Instr.vbcastS ((encVbcastS w k a d).extractLsb' 26 2) ((encVbcastS w k a d).extractLsb' 23 3) ((encVbcastS w k a d).extractLsb' 13 5) ((encVbcastS w k a d).extractLsb' 8 5)) = _
    simp (disch := decide) only [encVbcastS, extract_lo, extract_hi, extract_all, Nat.reduceSub]
  · show (encVbcastS w k a d).getLsbD 0 = true ∧ (encVbcastS w k a d).getLsbD 1 = false
    exact ⟨bit_lo _ 133#8 0 (by decide), bit_lo _ 133#8 1 (by decide)⟩
theorem Encoding.vcompress (w : BitVec 2) (k : BitVec 3) (b a d : BitVec 5) : Encoding.Statement (.vcompress w k b a d) := by
  have hm : ((encVcompress w k b a d).extractLsb' 2 6).toNat = 33 := congrArg BitVec.toNat (extract_lo _ 133#8 2 6 (by decide))
  refine fun _ _ => ⟨?_, ?_⟩
  · show candidate (encVcompress w k b a d) none = _
    unfold candidate; rw [hm]
    show candidate21 (encVcompress w k b a d) = _
    have ho : ((encVcompress w k b a d).extractLsb' 28 4).toNat = 2 := by simp (disch := decide) only [encVcompress, extract_lo, extract_hi, extract_all]; decide
    unfold candidate21; rw [ho]
    show some (Instr.vcompress ((encVcompress w k b a d).extractLsb' 26 2) ((encVcompress w k b a d).extractLsb' 23 3) ((encVcompress w k b a d).extractLsb' 18 5) ((encVcompress w k b a d).extractLsb' 13 5) ((encVcompress w k b a d).extractLsb' 8 5)) = _
    simp (disch := decide) only [encVcompress, extract_lo, extract_hi, extract_all, Nat.reduceSub]
  · show (encVcompress w k b a d).getLsbD 0 = true ∧ (encVcompress w k b a d).getLsbD 1 = false
    exact ⟨bit_lo _ 133#8 0 (by decide), bit_lo _ 133#8 1 (by decide)⟩
theorem Encoding.vexpand (w : BitVec 2) (k : BitVec 3) (b a d : BitVec 5) : Encoding.Statement (.vexpand w k b a d) := by
  have hm : ((encVexpand w k b a d).extractLsb' 2 6).toNat = 33 := congrArg BitVec.toNat (extract_lo _ 133#8 2 6 (by decide))
  refine fun _ _ => ⟨?_, ?_⟩
  · show candidate (encVexpand w k b a d) none = _
    unfold candidate; rw [hm]
    show candidate21 (encVexpand w k b a d) = _
    have ho : ((encVexpand w k b a d).extractLsb' 28 4).toNat = 3 := by simp (disch := decide) only [encVexpand, extract_lo, extract_hi, extract_all]; decide
    unfold candidate21; rw [ho]
    show some (Instr.vexpand ((encVexpand w k b a d).extractLsb' 26 2) ((encVexpand w k b a d).extractLsb' 23 3) ((encVexpand w k b a d).extractLsb' 18 5) ((encVexpand w k b a d).extractLsb' 13 5) ((encVexpand w k b a d).extractLsb' 8 5)) = _
    simp (disch := decide) only [encVexpand, extract_lo, extract_hi, extract_all, Nat.reduceSub]
  · show (encVexpand w k b a d).getLsbD 0 = true ∧ (encVexpand w k b a d).getLsbD 1 = false
    exact ⟨bit_lo _ 133#8 0 (by decide), bit_lo _ 133#8 1 (by decide)⟩
theorem Encoding.vmovsToScalar (w : BitVec 2) (b a d : BitVec 5) : Encoding.Statement (.vmovsToScalar w b a d) := by
  have hm : ((encVmovsToScalar w b a d).extractLsb' 2 6).toNat = 33 := congrArg BitVec.toNat (extract_lo _ 133#8 2 6 (by decide))
  refine fun _ _ => ⟨?_, ?_⟩
  · show candidate (encVmovsToScalar w b a d) none = _
    unfold candidate; rw [hm]
    show candidate21 (encVmovsToScalar w b a d) = _
    have ho : ((encVmovsToScalar w b a d).extractLsb' 28 4).toNat = 4 := by simp (disch := decide) only [encVmovsToScalar, extract_lo, extract_hi, extract_all]; decide
    unfold candidate21; rw [ho]
    show some (Instr.vmovsToScalar ((encVmovsToScalar w b a d).extractLsb' 26 2) ((encVmovsToScalar w b a d).extractLsb' 18 5) ((encVmovsToScalar w b a d).extractLsb' 13 5) ((encVmovsToScalar w b a d).extractLsb' 8 5)) = _
    simp (disch := decide) only [encVmovsToScalar, extract_lo, extract_hi, extract_all, Nat.reduceSub]
  · show (encVmovsToScalar w b a d).getLsbD 0 = true ∧ (encVmovsToScalar w b a d).getLsbD 1 = false
    exact ⟨bit_lo _ 133#8 0 (by decide), bit_lo _ 133#8 1 (by decide)⟩
theorem Encoding.vmovsToVector (w : BitVec 2) (b a d : BitVec 5) : Encoding.Statement (.vmovsToVector w b a d) := by
  have hm : ((encVmovsToVector w b a d).extractLsb' 2 6).toNat = 33 := congrArg BitVec.toNat (extract_lo _ 133#8 2 6 (by decide))
  refine fun _ _ => ⟨?_, ?_⟩
  · show candidate (encVmovsToVector w b a d) none = _
    unfold candidate; rw [hm]
    show candidate21 (encVmovsToVector w b a d) = _
    have ho : ((encVmovsToVector w b a d).extractLsb' 28 4).toNat = 5 := by simp (disch := decide) only [encVmovsToVector, extract_lo, extract_hi, extract_all]; decide
    unfold candidate21; rw [ho]
    show some (Instr.vmovsToVector ((encVmovsToVector w b a d).extractLsb' 26 2) ((encVmovsToVector w b a d).extractLsb' 18 5) ((encVmovsToVector w b a d).extractLsb' 13 5) ((encVmovsToVector w b a d).extractLsb' 8 5)) = _
    simp (disch := decide) only [encVmovsToVector, extract_lo, extract_hi, extract_all, Nat.reduceSub]
  · show (encVmovsToVector w b a d).getLsbD 0 = true ∧ (encVmovsToVector w b a d).getLsbD 1 = false
    exact ⟨bit_lo _ 133#8 0 (by decide), bit_lo _ 133#8 1 (by decide)⟩
theorem Encoding.vext (w : BitVec 2) (k : BitVec 3) (b a d : BitVec 5) : Encoding.Statement (.vext w k b a d) := by
  have hm : ((encVext w k b a d).extractLsb' 2 6).toNat = 33 := congrArg BitVec.toNat (extract_lo _ 133#8 2 6 (by decide))
  refine fun _ _ => ⟨?_, ?_⟩
  · show candidate (encVext w k b a d) none = _
    unfold candidate; rw [hm]
    show candidate21 (encVext w k b a d) = _
    have ho : ((encVext w k b a d).extractLsb' 28 4).toNat = 6 := by simp (disch := decide) only [encVext, extract_lo, extract_hi, extract_all]; decide
    unfold candidate21; rw [ho]
    show some (Instr.vext ((encVext w k b a d).extractLsb' 26 2) ((encVext w k b a d).extractLsb' 23 3) ((encVext w k b a d).extractLsb' 18 5) ((encVext w k b a d).extractLsb' 13 5) ((encVext w k b a d).extractLsb' 8 5)) = _
    simp (disch := decide) only [encVext, extract_lo, extract_hi, extract_all, Nat.reduceSub]
  · show (encVext w k b a d).getLsbD 0 = true ∧ (encVext w k b a d).getLsbD 1 = false
    exact ⟨bit_lo _ 133#8 0 (by decide), bit_lo _ 133#8 1 (by decide)⟩
theorem Encoding.vbcastV (w : BitVec 2) (k : BitVec 3) (b a d : BitVec 5) : Encoding.Statement (.vbcastV w k b a d) := by
  have hm : ((encVbcastV w k b a d).extractLsb' 2 6).toNat = 33 := congrArg BitVec.toNat (extract_lo _ 133#8 2 6 (by decide))
  refine fun _ _ => ⟨?_, ?_⟩
  · show candidate (encVbcastV w k b a d) none = _
    unfold candidate; rw [hm]
    show candidate21 (encVbcastV w k b a d) = _
    have ho : ((encVbcastV w k b a d).extractLsb' 28 4).toNat = 7 := by simp (disch := decide) only [encVbcastV, extract_lo, extract_hi, extract_all]; decide
    unfold candidate21; rw [ho]
    show some (Instr.vbcastV ((encVbcastV w k b a d).extractLsb' 26 2) ((encVbcastV w k b a d).extractLsb' 23 3) ((encVbcastV w k b a d).extractLsb' 18 5) ((encVbcastV w k b a d).extractLsb' 13 5) ((encVbcastV w k b a d).extractLsb' 8 5)) = _
    simp (disch := decide) only [encVbcastV, extract_lo, extract_hi, extract_all, Nat.reduceSub]
  · show (encVbcastV w k b a d).getLsbD 0 = true ∧ (encVbcastV w k b a d).getLsbD 1 = false
    exact ⟨bit_lo _ 133#8 0 (by decide), bit_lo _ 133#8 1 (by decide)⟩
theorem Encoding.vmov (w : BitVec 2) (k : BitVec 3) (a d : BitVec 5) : Encoding.Statement (.vmov w k a d) := by
  have hm : ((encVmov w k a d).extractLsb' 2 6).toNat = 33 := congrArg BitVec.toNat (extract_lo _ 133#8 2 6 (by decide))
  refine fun _ _ => ⟨?_, ?_⟩
  · show candidate (encVmov w k a d) none = _
    unfold candidate; rw [hm]
    show candidate21 (encVmov w k a d) = _
    have ho : ((encVmov w k a d).extractLsb' 28 4).toNat = 8 := by simp (disch := decide) only [encVmov, extract_lo, extract_hi, extract_all]; decide
    unfold candidate21; rw [ho]
    show some (Instr.vmov ((encVmov w k a d).extractLsb' 26 2) ((encVmov w k a d).extractLsb' 23 3) ((encVmov w k a d).extractLsb' 13 5) ((encVmov w k a d).extractLsb' 8 5)) = _
    simp (disch := decide) only [encVmov, extract_lo, extract_hi, extract_all, Nat.reduceSub]
  · show (encVmov w k a d).getLsbD 0 = true ∧ (encVmov w k a d).getLsbD 1 = false
    exact ⟨bit_lo _ 133#8 0 (by decide), bit_lo _ 133#8 1 (by decide)⟩
theorem Encoding.vpop (w : BitVec 2) (k : BitVec 3) (a d : BitVec 5) : Encoding.Statement (.vpop w k a d) := by
  have hm : ((encVpop w k a d).extractLsb' 2 6).toNat = 33 := congrArg BitVec.toNat (extract_lo _ 133#8 2 6 (by decide))
  refine fun _ _ => ⟨?_, ?_⟩
  · show candidate (encVpop w k a d) none = _
    unfold candidate; rw [hm]
    show candidate21 (encVpop w k a d) = _
    have ho : ((encVpop w k a d).extractLsb' 28 4).toNat = 9 := by simp (disch := decide) only [encVpop, extract_lo, extract_hi, extract_all]; decide
    unfold candidate21; rw [ho]
    show some (Instr.vpop ((encVpop w k a d).extractLsb' 26 2) ((encVpop w k a d).extractLsb' 23 3) ((encVpop w k a d).extractLsb' 13 5) ((encVpop w k a d).extractLsb' 8 5)) = _
    simp (disch := decide) only [encVpop, extract_lo, extract_hi, extract_all, Nat.reduceSub]
  · show (encVpop w k a d).getLsbD 0 = true ∧ (encVpop w k a d).getLsbD 1 = false
    exact ⟨bit_lo _ 133#8 0 (by decide), bit_lo _ 133#8 1 (by decide)⟩
theorem Encoding.vpush (w : BitVec 2) (k : BitVec 3) (a d : BitVec 5) : Encoding.Statement (.vpush w k a d) := by
  have hm : ((encVpush w k a d).extractLsb' 2 6).toNat = 33 := congrArg BitVec.toNat (extract_lo _ 133#8 2 6 (by decide))
  refine fun _ _ => ⟨?_, ?_⟩
  · show candidate (encVpush w k a d) none = _
    unfold candidate; rw [hm]
    show candidate21 (encVpush w k a d) = _
    have ho : ((encVpush w k a d).extractLsb' 28 4).toNat = 10 := by simp (disch := decide) only [encVpush, extract_lo, extract_hi, extract_all]; decide
    unfold candidate21; rw [ho]
    show some (Instr.vpush ((encVpush w k a d).extractLsb' 26 2) ((encVpush w k a d).extractLsb' 23 3) ((encVpush w k a d).extractLsb' 13 5) ((encVpush w k a d).extractLsb' 8 5)) = _
    simp (disch := decide) only [encVpush, extract_lo, extract_hi, extract_all, Nat.reduceSub]
  · show (encVpush w k a d).getLsbD 0 = true ∧ (encVpush w k a d).getLsbD 1 = false
    exact ⟨bit_lo _ 133#8 0 (by decide), bit_lo _ 133#8 1 (by decide)⟩
theorem Encoding.kset (a d : BitVec 5) : Encoding.Statement (.kset a d) := by
  have hm : ((encKset a d).extractLsb' 2 6).toNat = 34 := congrArg BitVec.toNat (extract_lo _ 137#8 2 6 (by decide))
  refine fun _ _ => ⟨?_, ?_⟩
  · show candidate (encKset a d) none = _
    unfold candidate; rw [hm]
    show candidate22 (encKset a d) = _
    have ho : ((encKset a d).extractLsb' 28 4).toNat = 0 := by simp (disch := decide) only [encKset, extract_lo, extract_hi, extract_all]; decide
    unfold candidate22; rw [ho]
    show some (Instr.kset ((encKset a d).extractLsb' 13 5) ((encKset a d).extractLsb' 8 5)) = _
    simp (disch := decide) only [encKset, extract_lo, extract_hi, extract_all, Nat.reduceSub]
  · show (encKset a d).getLsbD 0 = true ∧ (encKset a d).getLsbD 1 = false
    exact ⟨bit_lo _ 137#8 0 (by decide), bit_lo _ 137#8 1 (by decide)⟩
theorem Encoding.kfirst (w : BitVec 2) (k : BitVec 3) (a d : BitVec 5) : Encoding.Statement (.kfirst w k a d) := by
  have hm : ((encKfirst w k a d).extractLsb' 2 6).toNat = 34 := congrArg BitVec.toNat (extract_lo _ 137#8 2 6 (by decide))
  refine fun _ _ => ⟨?_, ?_⟩
  · show candidate (encKfirst w k a d) none = _
    unfold candidate; rw [hm]
    show candidate22 (encKfirst w k a d) = _
    have ho : ((encKfirst w k a d).extractLsb' 28 4).toNat = 1 := by simp (disch := decide) only [encKfirst, extract_lo, extract_hi, extract_all]; decide
    unfold candidate22; rw [ho]
    show some (Instr.kfirst ((encKfirst w k a d).extractLsb' 26 2) ((encKfirst w k a d).extractLsb' 23 3) ((encKfirst w k a d).extractLsb' 13 5) ((encKfirst w k a d).extractLsb' 8 5)) = _
    simp (disch := decide) only [encKfirst, extract_lo, extract_hi, extract_all, Nat.reduceSub]
  · show (encKfirst w k a d).getLsbD 0 = true ∧ (encKfirst w k a d).getLsbD 1 = false
    exact ⟨bit_lo _ 137#8 0 (by decide), bit_lo _ 137#8 1 (by decide)⟩
theorem Encoding.kmin (b a d : BitVec 5) : Encoding.Statement (.kmin b a d) := by
  have hm : ((encKmin b a d).extractLsb' 2 6).toNat = 34 := congrArg BitVec.toNat (extract_lo _ 137#8 2 6 (by decide))
  refine fun _ _ => ⟨?_, ?_⟩
  · show candidate (encKmin b a d) none = _
    unfold candidate; rw [hm]
    show candidate22 (encKmin b a d) = _
    have ho : ((encKmin b a d).extractLsb' 28 4).toNat = 2 := by simp (disch := decide) only [encKmin, extract_lo, extract_hi, extract_all]; decide
    unfold candidate22; rw [ho]
    show some (Instr.kmin ((encKmin b a d).extractLsb' 18 5) ((encKmin b a d).extractLsb' 13 5) ((encKmin b a d).extractLsb' 8 5)) = _
    simp (disch := decide) only [encKmin, extract_lo, extract_hi, extract_all, Nat.reduceSub]
  · show (encKmin b a d).getLsbD 0 = true ∧ (encKmin b a d).getLsbD 1 = false
    exact ⟨bit_lo _ 137#8 0 (by decide), bit_lo _ 137#8 1 (by decide)⟩
theorem Encoding.kpop (w : BitVec 2) (b a d : BitVec 5) : Encoding.Statement (.kpop w b a d) := by
  have hm : ((encKpop w b a d).extractLsb' 2 6).toNat = 34 := congrArg BitVec.toNat (extract_lo _ 137#8 2 6 (by decide))
  refine fun _ _ => ⟨?_, ?_⟩
  · show candidate (encKpop w b a d) none = _
    unfold candidate; rw [hm]
    show candidate22 (encKpop w b a d) = _
    have ho : ((encKpop w b a d).extractLsb' 28 4).toNat = 3 := by simp (disch := decide) only [encKpop, extract_lo, extract_hi, extract_all]; decide
    unfold candidate22; rw [ho]
    show some (Instr.kpop ((encKpop w b a d).extractLsb' 26 2) ((encKpop w b a d).extractLsb' 18 5) ((encKpop w b a d).extractLsb' 13 5) ((encKpop w b a d).extractLsb' 8 5)) = _
    simp (disch := decide) only [encKpop, extract_lo, extract_hi, extract_all, Nat.reduceSub]
  · show (encKpop w b a d).getLsbD 0 = true ∧ (encKpop w b a d).getLsbD 1 = false
    exact ⟨bit_lo _ 137#8 0 (by decide), bit_lo _ 137#8 1 (by decide)⟩
theorem Encoding.gang (a d : BitVec 5) : Encoding.Statement (.gang a d) := by
  have hm : ((encGang a d).extractLsb' 2 6).toNat = 35 := congrArg BitVec.toNat (extract_lo _ 141#8 2 6 (by decide))
  refine fun _ _ => ⟨?_, ?_⟩
  · show candidate (encGang a d) none = _
    unfold candidate; rw [hm]
    show candidate23 (encGang a d) = _
    have ho : ((encGang a d).extractLsb' 28 4).toNat = 0 := by simp (disch := decide) only [encGang, extract_lo, extract_hi, extract_all]; decide
    unfold candidate23; rw [ho]
    show some (Instr.gang ((encGang a d).extractLsb' 13 5) ((encGang a d).extractLsb' 8 5)) = _
    simp (disch := decide) only [encGang, extract_lo, extract_hi, extract_all, Nat.reduceSub]
  · show (encGang a d).getLsbD 0 = true ∧ (encGang a d).getLsbD 1 = false
    exact ⟨bit_lo _ 141#8 0 (by decide), bit_lo _ 141#8 1 (by decide)⟩
theorem Encoding.gjoin (a : BitVec 5) : Encoding.Statement (.gjoin a) := by
  have hm : ((encGjoin a).extractLsb' 2 6).toNat = 35 := congrArg BitVec.toNat (extract_lo _ 141#8 2 6 (by decide))
  refine fun _ _ => ⟨?_, ?_⟩
  · show candidate (encGjoin a) none = _
    unfold candidate; rw [hm]
    show candidate23 (encGjoin a) = _
    have ho : ((encGjoin a).extractLsb' 28 4).toNat = 1 := by simp (disch := decide) only [encGjoin, extract_lo, extract_hi, extract_all]; decide
    unfold candidate23; rw [ho]
    show some (Instr.gjoin ((encGjoin a).extractLsb' 13 5)) = _
    simp (disch := decide) only [encGjoin, extract_lo, extract_hi, extract_all, Nat.reduceSub]
  · show (encGjoin a).getLsbD 0 = true ∧ (encGjoin a).getLsbD 1 = false
    exact ⟨bit_lo _ 141#8 0 (by decide), bit_lo _ 141#8 1 (by decide)⟩
theorem Encoding.gdisband : Encoding.Statement .gdisband := by
  have hm : (encGdisband.extractLsb' 2 6).toNat = 35 := congrArg BitVec.toNat (extract_lo _ 141#8 2 6 (by decide))
  refine fun _ _ => ⟨?_, ?_⟩
  · show candidate encGdisband none = _
    unfold candidate; rw [hm]
    show candidate23 encGdisband = _
    have ho : (encGdisband.extractLsb' 28 4).toNat = 2 := by simp (disch := decide) only [encGdisband, extract_lo, extract_hi, extract_all]; decide
    unfold candidate23; rw [ho]
    show some (Instr.gdisband) = _
    simp (disch := decide) only [encGdisband, extract_lo, extract_hi, extract_all, Nat.reduceSub]
  · show encGdisband.getLsbD 0 = true ∧ encGdisband.getLsbD 1 = false
    exact ⟨bit_lo _ 141#8 0 (by decide), bit_lo _ 141#8 1 (by decide)⟩
theorem Encoding.cvt (t s : BitVec 4) (a d : BitVec 5) (m : Option (BitVec 32)) : Encoding.Statement (.cvt t s a d m) := by
  have hm : ((encCvt t s a d m).extractLsb' 2 6).toNat = 36 := by simp (disch := decide) only [encCvt, extract_lo, extract_hi]; decide
  refine fun _ _ => ⟨?_, ?_⟩
  · show candidate (encCvt t s a d m) m = _
    unfold candidate; rw [hm]
    show candidate24 (encCvt t s a d m) m = _
    have ho : ((encCvt t s a d m).extractLsb' 23 1).toNat = 0 := by simp (disch := decide) only [encCvt, extract_lo, extract_hi, extract_all]; decide
    unfold candidate24; rw [ho]
    show some (Instr.cvt ((encCvt t s a d m).extractLsb' 28 4) ((encCvt t s a d m).extractLsb' 24 4) ((encCvt t s a d m).extractLsb' 13 5) ((encCvt t s a d m).extractLsb' 8 5) m) = _
    simp (disch := decide) only [encCvt, extract_lo, extract_hi, extract_all, Nat.reduceSub]
  · show (encCvt t s a d m).getLsbD 0 = true ∧ (encCvt t s a d m).getLsbD 1 = m.isSome
    simp (disch := decide) only [encCvt, bit_lo, modBits_zero, modBits_one]; simp
theorem Encoding.fqmv (n a d : BitVec 5) (m : Option (BitVec 32)) : Encoding.Statement (.fqmv n a d m) := by
  have hm : ((encFqmv n a d m).extractLsb' 2 6).toNat = 36 := by simp (disch := decide) only [encFqmv, extract_lo, extract_hi]; decide
  refine fun _ _ => ⟨?_, ?_⟩
  · show candidate (encFqmv n a d m) m = _
    unfold candidate; rw [hm]
    show candidate24 (encFqmv n a d m) m = _
    have ho : ((encFqmv n a d m).extractLsb' 23 1).toNat = 1 := by simp (disch := decide) only [encFqmv, extract_lo, extract_hi, extract_all]; decide
    unfold candidate24; rw [ho]
    show some (Instr.fqmv ((encFqmv n a d m).extractLsb' 18 5) ((encFqmv n a d m).extractLsb' 13 5) ((encFqmv n a d m).extractLsb' 8 5) m) = _
    simp (disch := decide) only [encFqmv, extract_lo, extract_hi, extract_all, Nat.reduceSub]
  · show (encFqmv n a d m).getLsbD 0 = true ∧ (encFqmv n a d m).getLsbD 1 = m.isSome
    simp (disch := decide) only [encFqmv, bit_lo, modBits_zero, modBits_one]; simp
theorem Encoding.unpackCe8 (t : BitVec 4) (b a d : BitVec 5) : Encoding.Statement (.unpackCe8 t b a d) := by
  have hm : ((encUnpackCe8 t b a d).extractLsb' 2 6).toNat = 37 := congrArg BitVec.toNat (extract_lo _ 149#8 2 6 (by decide))
  refine fun _ _ => ⟨?_, ?_⟩
  · show candidate (encUnpackCe8 t b a d) none = _
    unfold candidate; rw [hm]
    show candidate25 (encUnpackCe8 t b a d) = _
    have ho : ((encUnpackCe8 t b a d).extractLsb' 29 3).toNat = 0 := by simp (disch := decide) only [encUnpackCe8, extract_lo, extract_hi, extract_all]; decide
    unfold candidate25; rw [ho]
    show some (Instr.unpackCe8 ((encUnpackCe8 t b a d).extractLsb' 25 4) ((encUnpackCe8 t b a d).extractLsb' 18 5) ((encUnpackCe8 t b a d).extractLsb' 13 5) ((encUnpackCe8 t b a d).extractLsb' 8 5)) = _
    simp (disch := decide) only [encUnpackCe8, extract_lo, extract_hi, extract_all, Nat.reduceSub]
  · show (encUnpackCe8 t b a d).getLsbD 0 = true ∧ (encUnpackCe8 t b a d).getLsbD 1 = false
    exact ⟨bit_lo _ 149#8 0 (by decide), bit_lo _ 149#8 1 (by decide)⟩
theorem Encoding.packCe8 (f : BitVec 1) (b a d : BitVec 5) : Encoding.Statement (.packCe8 f b a d) := by
  have hm : ((encPackCe8 f b a d).extractLsb' 2 6).toNat = 37 := congrArg BitVec.toNat (extract_lo _ 149#8 2 6 (by decide))
  refine fun _ _ => ⟨?_, ?_⟩
  · show candidate (encPackCe8 f b a d) none = _
    unfold candidate; rw [hm]
    show candidate25 (encPackCe8 f b a d) = _
    have ho : ((encPackCe8 f b a d).extractLsb' 29 3).toNat = 1 := by simp (disch := decide) only [encPackCe8, extract_lo, extract_hi, extract_all]; decide
    unfold candidate25; rw [ho]
    show some (Instr.packCe8 ((encPackCe8 f b a d).extractLsb' 23 1) ((encPackCe8 f b a d).extractLsb' 18 5) ((encPackCe8 f b a d).extractLsb' 13 5) ((encPackCe8 f b a d).extractLsb' 8 5)) = _
    simp (disch := decide) only [encPackCe8, extract_lo, extract_hi, extract_all, Nat.reduceSub]
  · show (encPackCe8 f b a d).getLsbD 0 = true ∧ (encPackCe8 f b a d).getLsbD 1 = false
    exact ⟨bit_lo _ 149#8 0 (by decide), bit_lo _ 149#8 1 (by decide)⟩
theorem Encoding.mxs (t : BitVec 4) (x : BitVec 2) (a d : BitVec 5) : Encoding.Statement (.mxs t x a d) := by
  have hm : ((encMxs t x a d).extractLsb' 2 6).toNat = 37 := congrArg BitVec.toNat (extract_lo _ 149#8 2 6 (by decide))
  refine fun _ _ => ⟨?_, ?_⟩
  · show candidate (encMxs t x a d) none = _
    unfold candidate; rw [hm]
    show candidate25 (encMxs t x a d) = _
    have ho : ((encMxs t x a d).extractLsb' 29 3).toNat = 2 := by simp (disch := decide) only [encMxs, extract_lo, extract_hi, extract_all]; decide
    unfold candidate25; rw [ho]
    show some (Instr.mxs ((encMxs t x a d).extractLsb' 25 4) ((encMxs t x a d).extractLsb' 23 2) ((encMxs t x a d).extractLsb' 13 5) ((encMxs t x a d).extractLsb' 8 5)) = _
    simp (disch := decide) only [encMxs, extract_lo, extract_hi, extract_all, Nat.reduceSub]
  · show (encMxs t x a d).getLsbD 0 = true ∧ (encMxs t x a d).getLsbD 1 = false
    exact ⟨bit_lo _ 149#8 0 (by decide), bit_lo _ 149#8 1 (by decide)⟩
theorem Encoding.mxq (t : BitVec 4) (x : BitVec 2) (b a d : BitVec 5) : Encoding.Statement (.mxq t x b a d) := by
  have hm : ((encMxq t x b a d).extractLsb' 2 6).toNat = 37 := congrArg BitVec.toNat (extract_lo _ 149#8 2 6 (by decide))
  refine fun _ _ => ⟨?_, ?_⟩
  · show candidate (encMxq t x b a d) none = _
    unfold candidate; rw [hm]
    show candidate25 (encMxq t x b a d) = _
    have ho : ((encMxq t x b a d).extractLsb' 29 3).toNat = 3 := by simp (disch := decide) only [encMxq, extract_lo, extract_hi, extract_all]; decide
    unfold candidate25; rw [ho]
    show some (Instr.mxq ((encMxq t x b a d).extractLsb' 25 4) ((encMxq t x b a d).extractLsb' 23 2) ((encMxq t x b a d).extractLsb' 18 5) ((encMxq t x b a d).extractLsb' 13 5) ((encMxq t x b a d).extractLsb' 8 5)) = _
    simp (disch := decide) only [encMxq, extract_lo, extract_hi, extract_all, Nat.reduceSub]
  · show (encMxq t x b a d).getLsbD 0 = true ∧ (encMxq t x b a d).getLsbD 1 = false
    exact ⟨bit_lo _ 149#8 0 (by decide), bit_lo _ 149#8 1 (by decide)⟩
theorem Encoding.mxd (t : BitVec 4) (x : BitVec 2) (b a d : BitVec 5) : Encoding.Statement (.mxd t x b a d) := by
  have hm : ((encMxd t x b a d).extractLsb' 2 6).toNat = 37 := congrArg BitVec.toNat (extract_lo _ 149#8 2 6 (by decide))
  refine fun _ _ => ⟨?_, ?_⟩
  · show candidate (encMxd t x b a d) none = _
    unfold candidate; rw [hm]
    show candidate25 (encMxd t x b a d) = _
    have ho : ((encMxd t x b a d).extractLsb' 29 3).toNat = 4 := by simp (disch := decide) only [encMxd, extract_lo, extract_hi, extract_all]; decide
    unfold candidate25; rw [ho]
    show some (Instr.mxd ((encMxd t x b a d).extractLsb' 25 4) ((encMxd t x b a d).extractLsb' 23 2) ((encMxd t x b a d).extractLsb' 18 5) ((encMxd t x b a d).extractLsb' 13 5) ((encMxd t x b a d).extractLsb' 8 5)) = _
    simp (disch := decide) only [encMxd, extract_lo, extract_hi, extract_all, Nat.reduceSub]
  · show (encMxd t x b a d).getLsbD 0 = true ∧ (encMxd t x b a d).getLsbD 1 = false
    exact ⟨bit_lo _ 149#8 0 (by decide), bit_lo _ 149#8 1 (by decide)⟩
theorem Encoding.mma (m : BitVec 3) (t : BitVec 4) (s : BitVec 5) (b a : BitVec 3) (c : BitVec 2) : Encoding.Statement (.mma m t s b a c) := by
  have hm : ((encMma m t s b a c).extractLsb' 2 6).toNat = 38 := congrArg BitVec.toNat (extract_lo _ 153#8 2 6 (by decide))
  refine fun _ _ => ⟨?_, ?_⟩
  · show candidate (encMma m t s b a c) none = _
    unfold candidate; rw [hm]
    show candidate26 (encMma m t s b a c) = _
    have ho : ((encMma m t s b a c).extractLsb' 28 4).toNat = 0 := by simp (disch := decide) only [encMma, extract_lo, extract_hi, extract_all]; decide
    unfold candidate26; rw [ho]
    show some (Instr.mma ((encMma m t s b a c).extractLsb' 25 3) ((encMma m t s b a c).extractLsb' 21 4) ((encMma m t s b a c).extractLsb' 16 5) ((encMma m t s b a c).extractLsb' 13 3) ((encMma m t s b a c).extractLsb' 10 3) ((encMma m t s b a c).extractLsb' 8 2)) = _
    simp (disch := decide) only [encMma, extract_lo, extract_hi, extract_all, Nat.reduceSub]
  · show (encMma m t s b a c).getLsbD 0 = true ∧ (encMma m t s b a c).getLsbD 1 = false
    exact ⟨bit_lo _ 153#8 0 (by decide), bit_lo _ 153#8 1 (by decide)⟩
theorem Encoding.gissue (m : BitVec 3) (t : BitVec 4) (s : BitVec 5) (b a : BitVec 3) (c : BitVec 2) : Encoding.Statement (.gissue m t s b a c) := by
  have hm : ((encGissue m t s b a c).extractLsb' 2 6).toNat = 38 := congrArg BitVec.toNat (extract_lo _ 153#8 2 6 (by decide))
  refine fun _ _ => ⟨?_, ?_⟩
  · show candidate (encGissue m t s b a c) none = _
    unfold candidate; rw [hm]
    show candidate26 (encGissue m t s b a c) = _
    have ho : ((encGissue m t s b a c).extractLsb' 28 4).toNat = 1 := by simp (disch := decide) only [encGissue, extract_lo, extract_hi, extract_all]; decide
    unfold candidate26; rw [ho]
    show some (Instr.gissue ((encGissue m t s b a c).extractLsb' 25 3) ((encGissue m t s b a c).extractLsb' 21 4) ((encGissue m t s b a c).extractLsb' 16 5) ((encGissue m t s b a c).extractLsb' 13 3) ((encGissue m t s b a c).extractLsb' 10 3) ((encGissue m t s b a c).extractLsb' 8 2)) = _
    simp (disch := decide) only [encGissue, extract_lo, extract_hi, extract_all, Nat.reduceSub]
  · show (encGissue m t s b a c).getLsbD 0 = true ∧ (encGissue m t s b a c).getLsbD 1 = false
    exact ⟨bit_lo _ 153#8 0 (by decide), bit_lo _ 153#8 1 (by decide)⟩
theorem Encoding.mzero (c : BitVec 2) : Encoding.Statement (.mzero c) := by
  have hm : ((encMzero c).extractLsb' 2 6).toNat = 39 := congrArg BitVec.toNat (extract_lo _ 157#8 2 6 (by decide))
  refine fun _ _ => ⟨?_, ?_⟩
  · show candidate (encMzero c) none = _
    unfold candidate; rw [hm]
    show candidate27 (encMzero c) = _
    have ho : ((encMzero c).extractLsb' 28 4).toNat = 0 := by simp (disch := decide) only [encMzero, extract_lo, extract_hi, extract_all]; decide
    unfold candidate27; rw [ho]
    show some (Instr.mzero ((encMzero c).extractLsb' 8 2)) = _
    simp (disch := decide) only [encMzero, extract_lo, extract_hi, extract_all, Nat.reduceSub]
  · show (encMzero c).getLsbD 0 = true ∧ (encMzero c).getLsbD 1 = false
    exact ⟨bit_lo _ 157#8 0 (by decide), bit_lo _ 157#8 1 (by decide)⟩
theorem Encoding.mrow (v : BitVec 5) (h : BitVec 1) (r : BitVec 5) (c : BitVec 2) : Encoding.Statement (.mrow v h r c) := by
  have hm : ((encMrow v h r c).extractLsb' 2 6).toNat = 39 := congrArg BitVec.toNat (extract_lo _ 157#8 2 6 (by decide))
  refine fun _ _ => ⟨?_, ?_⟩
  · show candidate (encMrow v h r c) none = _
    unfold candidate; rw [hm]
    show candidate27 (encMrow v h r c) = _
    have ho : ((encMrow v h r c).extractLsb' 28 4).toNat = 1 := by simp (disch := decide) only [encMrow, extract_lo, extract_hi, extract_all]; decide
    unfold candidate27; rw [ho]
    show some (Instr.mrow ((encMrow v h r c).extractLsb' 16 5) ((encMrow v h r c).extractLsb' 15 1) ((encMrow v h r c).extractLsb' 10 5) ((encMrow v h r c).extractLsb' 8 2)) = _
    simp (disch := decide) only [encMrow, extract_lo, extract_hi, extract_all, Nat.reduceSub]
  · show (encMrow v h r c).getLsbD 0 = true ∧ (encMrow v h r c).getLsbD 1 = false
    exact ⟨bit_lo _ 157#8 0 (by decide), bit_lo _ 157#8 1 (by decide)⟩
theorem Encoding.mdrain (m : BitVec 3) (t : BitVec 4) (a : BitVec 5) (c : BitVec 2) : Encoding.Statement (.mdrain m t a c) := by
  have hm : ((encMdrain m t a c).extractLsb' 2 6).toNat = 39 := congrArg BitVec.toNat (extract_lo _ 157#8 2 6 (by decide))
  refine fun _ _ => ⟨?_, ?_⟩
  · show candidate (encMdrain m t a c) none = _
    unfold candidate; rw [hm]
    show candidate27 (encMdrain m t a c) = _
    have ho : ((encMdrain m t a c).extractLsb' 28 4).toNat = 2 := by simp (disch := decide) only [encMdrain, extract_lo, extract_hi, extract_all]; decide
    unfold candidate27; rw [ho]
    show some (Instr.mdrain ((encMdrain m t a c).extractLsb' 25 3) ((encMdrain m t a c).extractLsb' 21 4) ((encMdrain m t a c).extractLsb' 16 5) ((encMdrain m t a c).extractLsb' 8 2)) = _
    simp (disch := decide) only [encMdrain, extract_lo, extract_hi, extract_all, Nat.reduceSub]
  · show (encMdrain m t a c).getLsbD 0 = true ∧ (encMdrain m t a c).getLsbD 1 = false
    exact ⟨bit_lo _ 157#8 0 (by decide), bit_lo _ 157#8 1 (by decide)⟩
theorem Encoding.mdrainadd (m : BitVec 3) (t : BitVec 4) (a : BitVec 5) (c : BitVec 2) : Encoding.Statement (.mdrainadd m t a c) := by
  have hm : ((encMdrainadd m t a c).extractLsb' 2 6).toNat = 39 := congrArg BitVec.toNat (extract_lo _ 157#8 2 6 (by decide))
  refine fun _ _ => ⟨?_, ?_⟩
  · show candidate (encMdrainadd m t a c) none = _
    unfold candidate; rw [hm]
    show candidate27 (encMdrainadd m t a c) = _
    have ho : ((encMdrainadd m t a c).extractLsb' 28 4).toNat = 3 := by simp (disch := decide) only [encMdrainadd, extract_lo, extract_hi, extract_all]; decide
    unfold candidate27; rw [ho]
    show some (Instr.mdrainadd ((encMdrainadd m t a c).extractLsb' 25 3) ((encMdrainadd m t a c).extractLsb' 21 4) ((encMdrainadd m t a c).extractLsb' 16 5) ((encMdrainadd m t a c).extractLsb' 8 2)) = _
    simp (disch := decide) only [encMdrainadd, extract_lo, extract_hi, extract_all, Nat.reduceSub]
  · show (encMdrainadd m t a c).getLsbD 0 = true ∧ (encMdrainadd m t a c).getLsbD 1 = false
    exact ⟨bit_lo _ 157#8 0 (by decide), bit_lo _ 157#8 1 (by decide)⟩
theorem Encoding.ringcfg (n : BitVec 3) (a : BitVec 5) : Encoding.Statement (.ringcfg n a) := by
  have hm : ((encRingcfg n a).extractLsb' 2 6).toNat = 40 := congrArg BitVec.toNat (extract_lo _ 161#8 2 6 (by decide))
  refine fun _ _ => ⟨?_, ?_⟩
  · show candidate (encRingcfg n a) none = _
    unfold candidate; rw [hm]
    show candidate28 (encRingcfg n a) = _
    have ho : ((encRingcfg n a).extractLsb' 29 3).toNat = 0 := by simp (disch := decide) only [encRingcfg, extract_lo, extract_hi, extract_all]; decide
    unfold candidate28; rw [ho]
    show some (Instr.ringcfg ((encRingcfg n a).extractLsb' 26 3) ((encRingcfg n a).extractLsb' 13 5)) = _
    simp (disch := decide) only [encRingcfg, extract_lo, extract_hi, extract_all, Nat.reduceSub]
  · show (encRingcfg n a).getLsbD 0 = true ∧ (encRingcfg n a).getLsbD 1 = false
    exact ⟨bit_lo _ 161#8 0 (by decide), bit_lo _ 161#8 1 (by decide)⟩
theorem Encoding.ringpushM (n : BitVec 3) (b a d : BitVec 5) : Encoding.Statement (.ringpushM n b a d) := by
  have hm : ((encRingpushM n b a d).extractLsb' 2 6).toNat = 40 := congrArg BitVec.toNat (extract_lo _ 161#8 2 6 (by decide))
  refine fun _ _ => ⟨?_, ?_⟩
  · show candidate (encRingpushM n b a d) none = _
    unfold candidate; rw [hm]
    show candidate28 (encRingpushM n b a d) = _
    have ho : ((encRingpushM n b a d).extractLsb' 29 3).toNat = 1 := by simp (disch := decide) only [encRingpushM, extract_lo, extract_hi, extract_all]; decide
    unfold candidate28; rw [ho]
    show some (Instr.ringpushM ((encRingpushM n b a d).extractLsb' 26 3) ((encRingpushM n b a d).extractLsb' 18 5) ((encRingpushM n b a d).extractLsb' 13 5) ((encRingpushM n b a d).extractLsb' 8 5)) = _
    simp (disch := decide) only [encRingpushM, extract_lo, extract_hi, extract_all, Nat.reduceSub]
  · show (encRingpushM n b a d).getLsbD 0 = true ∧ (encRingpushM n b a d).getLsbD 1 = false
    exact ⟨bit_lo _ 161#8 0 (by decide), bit_lo _ 161#8 1 (by decide)⟩
theorem Encoding.ringpushQ (n : BitVec 3) (b a : BitVec 5) : Encoding.Statement (.ringpushQ n b a) := by
  have hm : ((encRingpushQ n b a).extractLsb' 2 6).toNat = 40 := congrArg BitVec.toNat (extract_lo _ 161#8 2 6 (by decide))
  refine fun _ _ => ⟨?_, ?_⟩
  · show candidate (encRingpushQ n b a) none = _
    unfold candidate; rw [hm]
    show candidate28 (encRingpushQ n b a) = _
    have ho : ((encRingpushQ n b a).extractLsb' 29 3).toNat = 2 := by simp (disch := decide) only [encRingpushQ, extract_lo, extract_hi, extract_all]; decide
    unfold candidate28; rw [ho]
    show some (Instr.ringpushQ ((encRingpushQ n b a).extractLsb' 26 3) ((encRingpushQ n b a).extractLsb' 18 5) ((encRingpushQ n b a).extractLsb' 13 5)) = _
    simp (disch := decide) only [encRingpushQ, extract_lo, extract_hi, extract_all, Nat.reduceSub]
  · show (encRingpushQ n b a).getLsbD 0 = true ∧ (encRingpushQ n b a).getLsbD 1 = false
    exact ⟨bit_lo _ 161#8 0 (by decide), bit_lo _ 161#8 1 (by decide)⟩
theorem Encoding.tsrw (g : BitVec 4) (b a d : BitVec 5) : Encoding.Statement (.tsrw g b a d) := by
  have hm : ((encTsrw g b a d).extractLsb' 2 6).toNat = 41 := congrArg BitVec.toNat (extract_lo _ 165#8 2 6 (by decide))
  refine fun _ _ => ⟨?_, ?_⟩
  · show candidate (encTsrw g b a d) none = _
    unfold candidate; rw [hm]
    show candidate29 (encTsrw g b a d) = _
    have ho : ((encTsrw g b a d).extractLsb' 28 4).toNat = 0 := by simp (disch := decide) only [encTsrw, extract_lo, extract_hi, extract_all]; decide
    unfold candidate29; rw [ho]
    show some (Instr.tsrw ((encTsrw g b a d).extractLsb' 24 4) ((encTsrw g b a d).extractLsb' 18 5) ((encTsrw g b a d).extractLsb' 13 5) ((encTsrw g b a d).extractLsb' 8 5)) = _
    simp (disch := decide) only [encTsrw, extract_lo, extract_hi, extract_all, Nat.reduceSub]
  · show (encTsrw g b a d).getLsbD 0 = true ∧ (encTsrw g b a d).getLsbD 1 = false
    exact ⟨bit_lo _ 165#8 0 (by decide), bit_lo _ 165#8 1 (by decide)⟩
theorem Encoding.tsrinv (b : BitVec 5) : Encoding.Statement (.tsrinv b) := by
  have hm : ((encTsrinv b).extractLsb' 2 6).toNat = 41 := congrArg BitVec.toNat (extract_lo _ 165#8 2 6 (by decide))
  refine fun _ _ => ⟨?_, ?_⟩
  · show candidate (encTsrinv b) none = _
    unfold candidate; rw [hm]
    show candidate29 (encTsrinv b) = _
    have ho : ((encTsrinv b).extractLsb' 28 4).toNat = 1 := by simp (disch := decide) only [encTsrinv, extract_lo, extract_hi, extract_all]; decide
    unfold candidate29; rw [ho]
    show some (Instr.tsrinv ((encTsrinv b).extractLsb' 18 5)) = _
    simp (disch := decide) only [encTsrinv, extract_lo, extract_hi, extract_all, Nat.reduceSub]
  · show (encTsrinv b).getLsbD 0 = true ∧ (encTsrinv b).getLsbD 1 = false
    exact ⟨bit_lo _ 165#8 0 (by decide), bit_lo _ 165#8 1 (by decide)⟩
theorem Encoding.bcopy (d : BitVec 5) : Encoding.Statement (.bcopy d) := by
  have hm : ((encBcopy d).extractLsb' 2 6).toNat = 42 := congrArg BitVec.toNat (extract_lo _ 169#8 2 6 (by decide))
  refine fun _ _ => ⟨?_, ?_⟩
  · show candidate (encBcopy d) none = _
    unfold candidate; rw [hm]
    show candidate2A (encBcopy d) = _
    have ho : ((encBcopy d).extractLsb' 27 5).toNat = 0 := by simp (disch := decide) only [encBcopy, extract_lo, extract_hi, extract_all]; decide
    unfold candidate2A; rw [ho]
    show some (Instr.bcopy ((encBcopy d).extractLsb' 8 5)) = _
    simp (disch := decide) only [encBcopy, extract_lo, extract_hi, extract_all, Nat.reduceSub]
  · show (encBcopy d).getLsbD 0 = true ∧ (encBcopy d).getLsbD 1 = false
    exact ⟨bit_lo _ 169#8 0 (by decide), bit_lo _ 169#8 1 (by decide)⟩
theorem Encoding.bcopyRing (q : BitVec 6) (d : BitVec 5) : Encoding.Statement (.bcopyRing q d) := by
  have hm : ((encBcopyRing q d).extractLsb' 2 6).toNat = 42 := congrArg BitVec.toNat (extract_lo _ 169#8 2 6 (by decide))
  refine fun _ _ => ⟨?_, ?_⟩
  · show candidate (encBcopyRing q d) none = _
    unfold candidate; rw [hm]
    show candidate2A (encBcopyRing q d) = _
    have ho : ((encBcopyRing q d).extractLsb' 27 5).toNat = 1 := by simp (disch := decide) only [encBcopyRing, extract_lo, extract_hi, extract_all]; decide
    unfold candidate2A; rw [ho]
    show some (Instr.bcopyRing ((encBcopyRing q d).extractLsb' 13 6) ((encBcopyRing q d).extractLsb' 8 5)) = _
    simp (disch := decide) only [encBcopyRing, extract_lo, extract_hi, extract_all, Nat.reduceSub]
  · show (encBcopyRing q d).getLsbD 0 = true ∧ (encBcopyRing q d).getLsbD 1 = false
    exact ⟨bit_lo _ 169#8 0 (by decide), bit_lo _ 169#8 1 (by decide)⟩
theorem Encoding.bgather (d : BitVec 5) : Encoding.Statement (.bgather d) := by
  have hm : ((encBgather d).extractLsb' 2 6).toNat = 42 := congrArg BitVec.toNat (extract_lo _ 169#8 2 6 (by decide))
  refine fun _ _ => ⟨?_, ?_⟩
  · show candidate (encBgather d) none = _
    unfold candidate; rw [hm]
    show candidate2A (encBgather d) = _
    have ho : ((encBgather d).extractLsb' 27 5).toNat = 2 := by simp (disch := decide) only [encBgather, extract_lo, extract_hi, extract_all]; decide
    unfold candidate2A; rw [ho]
    show some (Instr.bgather ((encBgather d).extractLsb' 8 5)) = _
    simp (disch := decide) only [encBgather, extract_lo, extract_hi, extract_all, Nat.reduceSub]
  · show (encBgather d).getLsbD 0 = true ∧ (encBgather d).getLsbD 1 = false
    exact ⟨bit_lo _ 169#8 0 (by decide), bit_lo _ 169#8 1 (by decide)⟩
theorem Encoding.bgatherRing (q : BitVec 6) (d : BitVec 5) : Encoding.Statement (.bgatherRing q d) := by
  have hm : ((encBgatherRing q d).extractLsb' 2 6).toNat = 42 := congrArg BitVec.toNat (extract_lo _ 169#8 2 6 (by decide))
  refine fun _ _ => ⟨?_, ?_⟩
  · show candidate (encBgatherRing q d) none = _
    unfold candidate; rw [hm]
    show candidate2A (encBgatherRing q d) = _
    have ho : ((encBgatherRing q d).extractLsb' 27 5).toNat = 3 := by simp (disch := decide) only [encBgatherRing, extract_lo, extract_hi, extract_all]; decide
    unfold candidate2A; rw [ho]
    show some (Instr.bgatherRing ((encBgatherRing q d).extractLsb' 13 6) ((encBgatherRing q d).extractLsb' 8 5)) = _
    simp (disch := decide) only [encBgatherRing, extract_lo, extract_hi, extract_all, Nat.reduceSub]
  · show (encBgatherRing q d).getLsbD 0 = true ∧ (encBgatherRing q d).getLsbD 1 = false
    exact ⟨bit_lo _ 169#8 0 (by decide), bit_lo _ 169#8 1 (by decide)⟩
theorem Encoding.bscatter (d : BitVec 5) : Encoding.Statement (.bscatter d) := by
  have hm : ((encBscatter d).extractLsb' 2 6).toNat = 42 := congrArg BitVec.toNat (extract_lo _ 169#8 2 6 (by decide))
  refine fun _ _ => ⟨?_, ?_⟩
  · show candidate (encBscatter d) none = _
    unfold candidate; rw [hm]
    show candidate2A (encBscatter d) = _
    have ho : ((encBscatter d).extractLsb' 27 5).toNat = 4 := by simp (disch := decide) only [encBscatter, extract_lo, extract_hi, extract_all]; decide
    unfold candidate2A; rw [ho]
    show some (Instr.bscatter ((encBscatter d).extractLsb' 8 5)) = _
    simp (disch := decide) only [encBscatter, extract_lo, extract_hi, extract_all, Nat.reduceSub]
  · show (encBscatter d).getLsbD 0 = true ∧ (encBscatter d).getLsbD 1 = false
    exact ⟨bit_lo _ 169#8 0 (by decide), bit_lo _ 169#8 1 (by decide)⟩
theorem Encoding.bstat (d : BitVec 5) : Encoding.Statement (.bstat d) := by
  have hm : ((encBstat d).extractLsb' 2 6).toNat = 42 := congrArg BitVec.toNat (extract_lo _ 169#8 2 6 (by decide))
  refine fun _ _ => ⟨?_, ?_⟩
  · show candidate (encBstat d) none = _
    unfold candidate; rw [hm]
    show candidate2A (encBstat d) = _
    have ho : ((encBstat d).extractLsb' 27 5).toNat = 6 := by simp (disch := decide) only [encBstat, extract_lo, extract_hi, extract_all]; decide
    unfold candidate2A; rw [ho]
    show some (Instr.bstat ((encBstat d).extractLsb' 8 5)) = _
    simp (disch := decide) only [encBstat, extract_lo, extract_hi, extract_all, Nat.reduceSub]
  · show (encBstat d).getLsbD 0 = true ∧ (encBstat d).getLsbD 1 = false
    exact ⟨bit_lo _ 169#8 0 (by decide), bit_lo _ 169#8 1 (by decide)⟩
theorem Encoding.fence (s : BitVec 2) (e : BitVec 1) : Encoding.Statement (.fence s e) := by
  have hm : ((encFence s e).extractLsb' 2 6).toNat = 43 := congrArg BitVec.toNat (extract_lo _ 173#8 2 6 (by decide))
  refine fun _ _ => ⟨?_, ?_⟩
  · show candidate (encFence s e) none = _
    unfold candidate; rw [hm]
    show candidate2B (encFence s e) = _
    have ho : ((encFence s e).extractLsb' 28 4).toNat = 0 := by simp (disch := decide) only [encFence, extract_lo, extract_hi, extract_all]; decide
    unfold candidate2B; rw [ho]
    show some (Instr.fence ((encFence s e).extractLsb' 26 2) ((encFence s e).extractLsb' 25 1)) = _
    simp (disch := decide) only [encFence, extract_lo, extract_hi, extract_all, Nat.reduceSub]
  · show (encFence s e).getLsbD 0 = true ∧ (encFence s e).getLsbD 1 = false
    exact ⟨bit_lo _ 173#8 0 (by decide), bit_lo _ 173#8 1 (by decide)⟩
theorem Encoding.ackw (s : BitVec 2) (a d : BitVec 5) : Encoding.Statement (.ackw s a d) := by
  have hm : ((encAckw s a d).extractLsb' 2 6).toNat = 43 := congrArg BitVec.toNat (extract_lo _ 173#8 2 6 (by decide))
  refine fun _ _ => ⟨?_, ?_⟩
  · show candidate (encAckw s a d) none = _
    unfold candidate; rw [hm]
    show candidate2B (encAckw s a d) = _
    have ho : ((encAckw s a d).extractLsb' 28 4).toNat = 1 := by simp (disch := decide) only [encAckw, extract_lo, extract_hi, extract_all]; decide
    unfold candidate2B; rw [ho]
    show some (Instr.ackw ((encAckw s a d).extractLsb' 26 2) ((encAckw s a d).extractLsb' 13 5) ((encAckw s a d).extractLsb' 8 5)) = _
    simp (disch := decide) only [encAckw, extract_lo, extract_hi, extract_all, Nat.reduceSub]
  · show (encAckw s a d).getLsbD 0 = true ∧ (encAckw s a d).getLsbD 1 = false
    exact ⟨bit_lo _ 173#8 0 (by decide), bit_lo _ 173#8 1 (by decide)⟩
theorem Encoding.stRel (g : BitVec 4) (s : BitVec 2) (o : BitVec 7) (a d : BitVec 5) : Encoding.Statement (.stRel g s o a d) := by
  have hm : ((encStRel g s o a d).extractLsb' 2 6).toNat = 44 := congrArg BitVec.toNat (extract_lo _ 177#8 2 6 (by decide))
  refine fun _ _ => ⟨?_, ?_⟩
  · show candidate (encStRel g s o a d) none = _
    unfold candidate; rw [hm]
    show some (Instr.stRel ((encStRel g s o a d).extractLsb' 28 4) ((encStRel g s o a d).extractLsb' 26 2) ((encStRel g s o a d).extractLsb' 18 7) ((encStRel g s o a d).extractLsb' 13 5) ((encStRel g s o a d).extractLsb' 8 5)) = _
    simp (disch := decide) only [encStRel, extract_lo, extract_hi, extract_all, Nat.reduceSub]
  · show (encStRel g s o a d).getLsbD 0 = true ∧ (encStRel g s o a d).getLsbD 1 = false
    exact ⟨bit_lo _ 177#8 0 (by decide), bit_lo _ 177#8 1 (by decide)⟩
theorem Encoding.ldAcq (g : BitVec 4) (s : BitVec 2) (o : BitVec 7) (a d : BitVec 5) : Encoding.Statement (.ldAcq g s o a d) := by
  have hm : ((encLdAcq g s o a d).extractLsb' 2 6).toNat = 45 := congrArg BitVec.toNat (extract_lo _ 181#8 2 6 (by decide))
  refine fun _ _ => ⟨?_, ?_⟩
  · show candidate (encLdAcq g s o a d) none = _
    unfold candidate; rw [hm]
    show some (Instr.ldAcq ((encLdAcq g s o a d).extractLsb' 28 4) ((encLdAcq g s o a d).extractLsb' 26 2) ((encLdAcq g s o a d).extractLsb' 18 7) ((encLdAcq g s o a d).extractLsb' 13 5) ((encLdAcq g s o a d).extractLsb' 8 5)) = _
    simp (disch := decide) only [encLdAcq, extract_lo, extract_hi, extract_all, Nat.reduceSub]
  · show (encLdAcq g s o a d).getLsbD 0 = true ∧ (encLdAcq g s o a d).getLsbD 1 = false
    exact ⟨bit_lo _ 181#8 0 (by decide), bit_lo _ 181#8 1 (by decide)⟩
theorem Encoding.amoAdd (g : BitVec 4) (w : BitVec 1) (b a d : BitVec 5) : Encoding.Statement (.amoAdd g w b a d) := by
  have hm : ((encAmoAdd g w b a d).extractLsb' 2 6).toNat = 46 := congrArg BitVec.toNat (extract_lo _ 185#8 2 6 (by decide))
  refine fun hw _ => ⟨?_, ?_⟩
  · show candidate (encAmoAdd g w b a d) none = _
    unfold candidate; rw [hm]
    show candidate2E (encAmoAdd g w b a d) = _
    simp (disch := decide) only [candidate2E, encAmoAdd, extract_lo, extract_hi, extract_all]; simp [show ¬d = 0#5 from fun h => by subst h; exact Bool.noConfusion hw]
  · show (encAmoAdd g w b a d).getLsbD 0 = true ∧ (encAmoAdd g w b a d).getLsbD 1 = false
    exact ⟨bit_lo _ 185#8 0 (by decide), bit_lo _ 185#8 1 (by decide)⟩
theorem Encoding.amoAnd (g : BitVec 4) (w : BitVec 1) (b a d : BitVec 5) : Encoding.Statement (.amoAnd g w b a d) := by
  have hm : ((encAmoAnd g w b a d).extractLsb' 2 6).toNat = 46 := congrArg BitVec.toNat (extract_lo _ 185#8 2 6 (by decide))
  refine fun hw _ => ⟨?_, ?_⟩
  · show candidate (encAmoAnd g w b a d) none = _
    unfold candidate; rw [hm]
    show candidate2E (encAmoAnd g w b a d) = _
    simp (disch := decide) only [candidate2E, encAmoAnd, extract_lo, extract_hi, extract_all]; simp [show ¬d = 0#5 from fun h => by subst h; exact Bool.noConfusion hw]
  · show (encAmoAnd g w b a d).getLsbD 0 = true ∧ (encAmoAnd g w b a d).getLsbD 1 = false
    exact ⟨bit_lo _ 185#8 0 (by decide), bit_lo _ 185#8 1 (by decide)⟩
theorem Encoding.amoOr (g : BitVec 4) (w : BitVec 1) (b a d : BitVec 5) : Encoding.Statement (.amoOr g w b a d) := by
  have hm : ((encAmoOr g w b a d).extractLsb' 2 6).toNat = 46 := congrArg BitVec.toNat (extract_lo _ 185#8 2 6 (by decide))
  refine fun hw _ => ⟨?_, ?_⟩
  · show candidate (encAmoOr g w b a d) none = _
    unfold candidate; rw [hm]
    show candidate2E (encAmoOr g w b a d) = _
    simp (disch := decide) only [candidate2E, encAmoOr, extract_lo, extract_hi, extract_all]; simp [show ¬d = 0#5 from fun h => by subst h; exact Bool.noConfusion hw]
  · show (encAmoOr g w b a d).getLsbD 0 = true ∧ (encAmoOr g w b a d).getLsbD 1 = false
    exact ⟨bit_lo _ 185#8 0 (by decide), bit_lo _ 185#8 1 (by decide)⟩
theorem Encoding.amoXor (g : BitVec 4) (w : BitVec 1) (b a d : BitVec 5) : Encoding.Statement (.amoXor g w b a d) := by
  have hm : ((encAmoXor g w b a d).extractLsb' 2 6).toNat = 46 := congrArg BitVec.toNat (extract_lo _ 185#8 2 6 (by decide))
  refine fun hw _ => ⟨?_, ?_⟩
  · show candidate (encAmoXor g w b a d) none = _
    unfold candidate; rw [hm]
    show candidate2E (encAmoXor g w b a d) = _
    simp (disch := decide) only [candidate2E, encAmoXor, extract_lo, extract_hi, extract_all]; simp [show ¬d = 0#5 from fun h => by subst h; exact Bool.noConfusion hw]
  · show (encAmoXor g w b a d).getLsbD 0 = true ∧ (encAmoXor g w b a d).getLsbD 1 = false
    exact ⟨bit_lo _ 185#8 0 (by decide), bit_lo _ 185#8 1 (by decide)⟩
theorem Encoding.amoMin (g : BitVec 4) (w : BitVec 1) (b a d : BitVec 5) : Encoding.Statement (.amoMin g w b a d) := by
  have hm : ((encAmoMin g w b a d).extractLsb' 2 6).toNat = 46 := congrArg BitVec.toNat (extract_lo _ 185#8 2 6 (by decide))
  refine fun hw _ => ⟨?_, ?_⟩
  · show candidate (encAmoMin g w b a d) none = _
    unfold candidate; rw [hm]
    show candidate2E (encAmoMin g w b a d) = _
    simp (disch := decide) only [candidate2E, encAmoMin, extract_lo, extract_hi, extract_all]; simp [show ¬d = 0#5 from fun h => by subst h; exact Bool.noConfusion hw]
  · show (encAmoMin g w b a d).getLsbD 0 = true ∧ (encAmoMin g w b a d).getLsbD 1 = false
    exact ⟨bit_lo _ 185#8 0 (by decide), bit_lo _ 185#8 1 (by decide)⟩
theorem Encoding.amoMax (g : BitVec 4) (w : BitVec 1) (b a d : BitVec 5) : Encoding.Statement (.amoMax g w b a d) := by
  have hm : ((encAmoMax g w b a d).extractLsb' 2 6).toNat = 46 := congrArg BitVec.toNat (extract_lo _ 185#8 2 6 (by decide))
  refine fun hw _ => ⟨?_, ?_⟩
  · show candidate (encAmoMax g w b a d) none = _
    unfold candidate; rw [hm]
    show candidate2E (encAmoMax g w b a d) = _
    simp (disch := decide) only [candidate2E, encAmoMax, extract_lo, extract_hi, extract_all]; simp [show ¬d = 0#5 from fun h => by subst h; exact Bool.noConfusion hw]
  · show (encAmoMax g w b a d).getLsbD 0 = true ∧ (encAmoMax g w b a d).getLsbD 1 = false
    exact ⟨bit_lo _ 185#8 0 (by decide), bit_lo _ 185#8 1 (by decide)⟩
theorem Encoding.amoMinn (g : BitVec 4) (w : BitVec 1) (b a d : BitVec 5) : Encoding.Statement (.amoMinn g w b a d) := by
  have hm : ((encAmoMinn g w b a d).extractLsb' 2 6).toNat = 46 := congrArg BitVec.toNat (extract_lo _ 185#8 2 6 (by decide))
  refine fun hw _ => ⟨?_, ?_⟩
  · show candidate (encAmoMinn g w b a d) none = _
    unfold candidate; rw [hm]
    show candidate2E (encAmoMinn g w b a d) = _
    simp (disch := decide) only [candidate2E, encAmoMinn, extract_lo, extract_hi, extract_all]; simp [show ¬d = 0#5 from fun h => by subst h; exact Bool.noConfusion hw]
  · show (encAmoMinn g w b a d).getLsbD 0 = true ∧ (encAmoMinn g w b a d).getLsbD 1 = false
    exact ⟨bit_lo _ 185#8 0 (by decide), bit_lo _ 185#8 1 (by decide)⟩
theorem Encoding.amoMaxn (g : BitVec 4) (w : BitVec 1) (b a d : BitVec 5) : Encoding.Statement (.amoMaxn g w b a d) := by
  have hm : ((encAmoMaxn g w b a d).extractLsb' 2 6).toNat = 46 := congrArg BitVec.toNat (extract_lo _ 185#8 2 6 (by decide))
  refine fun hw _ => ⟨?_, ?_⟩
  · show candidate (encAmoMaxn g w b a d) none = _
    unfold candidate; rw [hm]
    show candidate2E (encAmoMaxn g w b a d) = _
    simp (disch := decide) only [candidate2E, encAmoMaxn, extract_lo, extract_hi, extract_all]; simp [show ¬d = 0#5 from fun h => by subst h; exact Bool.noConfusion hw]
  · show (encAmoMaxn g w b a d).getLsbD 0 = true ∧ (encAmoMaxn g w b a d).getLsbD 1 = false
    exact ⟨bit_lo _ 185#8 0 (by decide), bit_lo _ 185#8 1 (by decide)⟩
theorem Encoding.amoSwap (g : BitVec 4) (w : BitVec 1) (b a d : BitVec 5) : Encoding.Statement (.amoSwap g w b a d) := by
  have hm : ((encAmoSwap g w b a d).extractLsb' 2 6).toNat = 46 := congrArg BitVec.toNat (extract_lo _ 185#8 2 6 (by decide))
  refine fun hw _ => ⟨?_, ?_⟩
  · show candidate (encAmoSwap g w b a d) none = _
    unfold candidate; rw [hm]
    show candidate2E (encAmoSwap g w b a d) = _
    simp (disch := decide) only [candidate2E, encAmoSwap, extract_lo, extract_hi, extract_all]; simp [show ¬d = 0#5 from fun h => by subst h; exact Bool.noConfusion hw]
  · show (encAmoSwap g w b a d).getLsbD 0 = true ∧ (encAmoSwap g w b a d).getLsbD 1 = false
    exact ⟨bit_lo _ 185#8 0 (by decide), bit_lo _ 185#8 1 (by decide)⟩
theorem Encoding.amoCas (g : BitVec 4) (w : BitVec 1) (b a d : BitVec 5) : Encoding.Statement (.amoCas g w b a d) := by
  have hm : ((encAmoCas g w b a d).extractLsb' 2 6).toNat = 46 := congrArg BitVec.toNat (extract_lo _ 185#8 2 6 (by decide))
  refine fun hw _ => ⟨?_, ?_⟩
  · show candidate (encAmoCas g w b a d) none = _
    unfold candidate; rw [hm]
    show candidate2E (encAmoCas g w b a d) = _
    simp (disch := decide) only [candidate2E, encAmoCas, extract_lo, extract_hi, extract_all]; simp [show ¬d = 0#5 from fun h => by subst h; exact Bool.noConfusion hw]
  · show (encAmoCas g w b a d).getLsbD 0 = true ∧ (encAmoCas g w b a d).getLsbD 1 = false
    exact ⟨bit_lo _ 185#8 0 (by decide), bit_lo _ 185#8 1 (by decide)⟩
theorem Encoding.redInteger (o : BitVec 3) (g : BitVec 4) (w : BitVec 1) (b a : BitVec 5) : Encoding.Statement (.redInteger o g w b a) := by
  have hm : ((encRedInteger o g w b a).extractLsb' 2 6).toNat = 46 := congrArg BitVec.toNat (extract_lo _ 185#8 2 6 (by decide))
  refine fun _ _ => ⟨?_, ?_⟩
  · show candidate (encRedInteger o g w b a) none = _
    unfold candidate; rw [hm]
    show candidate2E (encRedInteger o g w b a) = _
    simp (disch := decide) only [candidate2E, encRedInteger, extract_lo, extract_hi, extract_all]; simp
  · show (encRedInteger o g w b a).getLsbD 0 = true ∧ (encRedInteger o g w b a).getLsbD 1 = false
    exact ⟨bit_lo _ 185#8 0 (by decide), bit_lo _ 185#8 1 (by decide)⟩
theorem Encoding.famoAdd (g : BitVec 4) (t : BitVec 1) (b a d : BitVec 5) : Encoding.Statement (.famoAdd g t b a d) := by
  have hm : ((encFamoAdd g t b a d).extractLsb' 2 6).toNat = 47 := congrArg BitVec.toNat (extract_lo _ 189#8 2 6 (by decide))
  refine fun hw _ => ⟨?_, ?_⟩
  · show candidate (encFamoAdd g t b a d) none = _
    unfold candidate; rw [hm]
    show candidate2F (encFamoAdd g t b a d) = _
    simp (disch := decide) only [candidate2F, encFamoAdd, extract_lo, extract_hi, extract_all]; simp [show ¬d = 0#5 from fun h => by subst h; exact Bool.noConfusion hw]
  · show (encFamoAdd g t b a d).getLsbD 0 = true ∧ (encFamoAdd g t b a d).getLsbD 1 = false
    exact ⟨bit_lo _ 189#8 0 (by decide), bit_lo _ 189#8 1 (by decide)⟩
theorem Encoding.famoMin (g : BitVec 4) (t : BitVec 1) (b a d : BitVec 5) : Encoding.Statement (.famoMin g t b a d) := by
  have hm : ((encFamoMin g t b a d).extractLsb' 2 6).toNat = 47 := congrArg BitVec.toNat (extract_lo _ 189#8 2 6 (by decide))
  refine fun hw _ => ⟨?_, ?_⟩
  · show candidate (encFamoMin g t b a d) none = _
    unfold candidate; rw [hm]
    show candidate2F (encFamoMin g t b a d) = _
    simp (disch := decide) only [candidate2F, encFamoMin, extract_lo, extract_hi, extract_all]; simp [show ¬d = 0#5 from fun h => by subst h; exact Bool.noConfusion hw]
  · show (encFamoMin g t b a d).getLsbD 0 = true ∧ (encFamoMin g t b a d).getLsbD 1 = false
    exact ⟨bit_lo _ 189#8 0 (by decide), bit_lo _ 189#8 1 (by decide)⟩
theorem Encoding.famoMax (g : BitVec 4) (t : BitVec 1) (b a d : BitVec 5) : Encoding.Statement (.famoMax g t b a d) := by
  have hm : ((encFamoMax g t b a d).extractLsb' 2 6).toNat = 47 := congrArg BitVec.toNat (extract_lo _ 189#8 2 6 (by decide))
  refine fun hw _ => ⟨?_, ?_⟩
  · show candidate (encFamoMax g t b a d) none = _
    unfold candidate; rw [hm]
    show candidate2F (encFamoMax g t b a d) = _
    simp (disch := decide) only [candidate2F, encFamoMax, extract_lo, extract_hi, extract_all]; simp [show ¬d = 0#5 from fun h => by subst h; exact Bool.noConfusion hw]
  · show (encFamoMax g t b a d).getLsbD 0 = true ∧ (encFamoMax g t b a d).getLsbD 1 = false
    exact ⟨bit_lo _ 189#8 0 (by decide), bit_lo _ 189#8 1 (by decide)⟩
theorem Encoding.redFloat (o : BitVec 2) (g : BitVec 4) (t : BitVec 1) (b a : BitVec 5) : Encoding.Statement (.redFloat o g t b a) := by
  have hm : ((encRedFloat o g t b a).extractLsb' 2 6).toNat = 47 := congrArg BitVec.toNat (extract_lo _ 189#8 2 6 (by decide))
  refine fun _ _ => ⟨?_, ?_⟩
  · show candidate (encRedFloat o g t b a) none = _
    unfold candidate; rw [hm]
    show candidate2F (encRedFloat o g t b a) = _
    simp (disch := decide) only [candidate2F, encRedFloat, extract_lo, extract_hi, extract_all]; simp
  · show (encRedFloat o g t b a).getLsbD 0 = true ∧ (encRedFloat o g t b a).getLsbD 1 = false
    exact ⟨bit_lo _ 189#8 0 (by decide), bit_lo _ 189#8 1 (by decide)⟩
theorem Encoding.bfins (g : BitVec 4) (b a d : BitVec 5) : Encoding.Statement (.bfins g b a d) := by
  have hm : ((encBfins g b a d).extractLsb' 2 6).toNat = 48 := congrArg BitVec.toNat (extract_lo _ 193#8 2 6 (by decide))
  refine fun _ _ => ⟨?_, ?_⟩
  · show candidate (encBfins g b a d) none = _
    unfold candidate; rw [hm]
    show candidate30 (encBfins g b a d) = _
    have ho : ((encBfins g b a d).extractLsb' 30 2).toNat = 0 := by simp (disch := decide) only [encBfins, extract_lo, extract_hi, extract_all]; decide
    unfold candidate30; rw [ho]
    show some (Instr.bfins ((encBfins g b a d).extractLsb' 26 4) ((encBfins g b a d).extractLsb' 18 5) ((encBfins g b a d).extractLsb' 13 5) ((encBfins g b a d).extractLsb' 8 5)) = _
    simp (disch := decide) only [encBfins, extract_lo, extract_hi, extract_all, Nat.reduceSub]
  · show (encBfins g b a d).getLsbD 0 = true ∧ (encBfins g b a d).getLsbD 1 = false
    exact ⟨bit_lo _ 193#8 0 (by decide), bit_lo _ 193#8 1 (by decide)⟩
theorem Encoding.bffcs (g : BitVec 4) (b a d : BitVec 5) : Encoding.Statement (.bffcs g b a d) := by
  have hm : ((encBffcs g b a d).extractLsb' 2 6).toNat = 48 := congrArg BitVec.toNat (extract_lo _ 193#8 2 6 (by decide))
  refine fun _ _ => ⟨?_, ?_⟩
  · show candidate (encBffcs g b a d) none = _
    unfold candidate; rw [hm]
    show candidate30 (encBffcs g b a d) = _
    have ho : ((encBffcs g b a d).extractLsb' 30 2).toNat = 1 := by simp (disch := decide) only [encBffcs, extract_lo, extract_hi, extract_all]; decide
    unfold candidate30; rw [ho]
    show some (Instr.bffcs ((encBffcs g b a d).extractLsb' 26 4) ((encBffcs g b a d).extractLsb' 18 5) ((encBffcs g b a d).extractLsb' 13 5) ((encBffcs g b a d).extractLsb' 8 5)) = _
    simp (disch := decide) only [encBffcs, extract_lo, extract_hi, extract_all, Nat.reduceSub]
  · show (encBffcs g b a d).getLsbD 0 = true ∧ (encBffcs g b a d).getLsbD 1 = false
    exact ⟨bit_lo _ 193#8 0 (by decide), bit_lo _ 193#8 1 (by decide)⟩
theorem Encoding.bfpls (g : BitVec 4) (b a d : BitVec 5) : Encoding.Statement (.bfpls g b a d) := by
  have hm : ((encBfpls g b a d).extractLsb' 2 6).toNat = 48 := congrArg BitVec.toNat (extract_lo _ 193#8 2 6 (by decide))
  refine fun _ _ => ⟨?_, ?_⟩
  · show candidate (encBfpls g b a d) none = _
    unfold candidate; rw [hm]
    show candidate30 (encBfpls g b a d) = _
    have ho : ((encBfpls g b a d).extractLsb' 30 2).toNat = 2 := by simp (disch := decide) only [encBfpls, extract_lo, extract_hi, extract_all]; decide
    unfold candidate30; rw [ho]
    show some (Instr.bfpls ((encBfpls g b a d).extractLsb' 26 4) ((encBfpls g b a d).extractLsb' 18 5) ((encBfpls g b a d).extractLsb' 13 5) ((encBfpls g b a d).extractLsb' 8 5)) = _
    simp (disch := decide) only [encBfpls, extract_lo, extract_hi, extract_all, Nat.reduceSub]
  · show (encBfpls g b a d).getLsbD 0 = true ∧ (encBfpls g b a d).getLsbD 1 = false
    exact ⟨bit_lo _ 193#8 0 (by decide), bit_lo _ 193#8 1 (by decide)⟩
theorem Encoding.tktGet (d : BitVec 5) : Encoding.Statement (.tktGet d) := by
  have hm : ((encTktGet d).extractLsb' 2 6).toNat = 49 := congrArg BitVec.toNat (extract_lo _ 197#8 2 6 (by decide))
  refine fun _ _ => ⟨?_, ?_⟩
  · show candidate (encTktGet d) none = _
    unfold candidate; rw [hm]
    show candidate31 (encTktGet d) = _
    have ho : ((encTktGet d).extractLsb' 28 4).toNat = 0 := by simp (disch := decide) only [encTktGet, extract_lo, extract_hi, extract_all]; decide
    unfold candidate31; rw [ho]
    show some (Instr.tktGet ((encTktGet d).extractLsb' 8 5)) = _
    simp (disch := decide) only [encTktGet, extract_lo, extract_hi, extract_all, Nat.reduceSub]
  · show (encTktGet d).getLsbD 0 = true ∧ (encTktGet d).getLsbD 1 = false
    exact ⟨bit_lo _ 197#8 0 (by decide), bit_lo _ 197#8 1 (by decide)⟩
theorem Encoding.tktScope (a d : BitVec 5) : Encoding.Statement (.tktScope a d) := by
  have hm : ((encTktScope a d).extractLsb' 2 6).toNat = 49 := congrArg BitVec.toNat (extract_lo _ 197#8 2 6 (by decide))
  refine fun _ _ => ⟨?_, ?_⟩
  · show candidate (encTktScope a d) none = _
    unfold candidate; rw [hm]
    show candidate31 (encTktScope a d) = _
    have ho : ((encTktScope a d).extractLsb' 28 4).toNat = 1 := by simp (disch := decide) only [encTktScope, extract_lo, extract_hi, extract_all]; decide
    unfold candidate31; rw [ho]
    show some (Instr.tktScope ((encTktScope a d).extractLsb' 13 5) ((encTktScope a d).extractLsb' 8 5)) = _
    simp (disch := decide) only [encTktScope, extract_lo, extract_hi, extract_all, Nat.reduceSub]
  · show (encTktScope a d).getLsbD 0 = true ∧ (encTktScope a d).getLsbD 1 = false
    exact ⟨bit_lo _ 197#8 0 (by decide), bit_lo _ 197#8 1 (by decide)⟩
theorem Encoding.tktVoid (a : BitVec 5) : Encoding.Statement (.tktVoid a) := by
  have hm : ((encTktVoid a).extractLsb' 2 6).toNat = 49 := congrArg BitVec.toNat (extract_lo _ 197#8 2 6 (by decide))
  refine fun _ _ => ⟨?_, ?_⟩
  · show candidate (encTktVoid a) none = _
    unfold candidate; rw [hm]
    show candidate31 (encTktVoid a) = _
    have ho : ((encTktVoid a).extractLsb' 28 4).toNat = 2 := by simp (disch := decide) only [encTktVoid, extract_lo, extract_hi, extract_all]; decide
    unfold candidate31; rw [ho]
    show some (Instr.tktVoid ((encTktVoid a).extractLsb' 13 5)) = _
    simp (disch := decide) only [encTktVoid, extract_lo, extract_hi, extract_all, Nat.reduceSub]
  · show (encTktVoid a).getLsbD 0 = true ∧ (encTktVoid a).getLsbD 1 = false
    exact ⟨bit_lo _ 197#8 0 (by decide), bit_lo _ 197#8 1 (by decide)⟩
theorem Encoding.barInit (n : BitVec 7) (a : BitVec 5) : Encoding.Statement (.barInit n a) := by
  have hm : ((encBarInit n a).extractLsb' 2 6).toNat = 50 := congrArg BitVec.toNat (extract_lo _ 201#8 2 6 (by decide))
  refine fun _ _ => ⟨?_, ?_⟩
  · show candidate (encBarInit n a) none = _
    unfold candidate; rw [hm]
    show candidate32 (encBarInit n a) = _
    have ho : ((encBarInit n a).extractLsb' 30 2).toNat = 0 := by simp (disch := decide) only [encBarInit, extract_lo, extract_hi, extract_all]; decide
    unfold candidate32; rw [ho]
    show some (Instr.barInit ((encBarInit n a).extractLsb' 18 7) ((encBarInit n a).extractLsb' 13 5)) = _
    simp (disch := decide) only [encBarInit, extract_lo, extract_hi, extract_all, Nat.reduceSub]
  · show (encBarInit n a).getLsbD 0 = true ∧ (encBarInit n a).getLsbD 1 = false
    exact ⟨bit_lo _ 201#8 0 (by decide), bit_lo _ 201#8 1 (by decide)⟩
theorem Encoding.barArr (r : BitVec 2) (n : BitVec 7) (a d : BitVec 5) : Encoding.Statement (.barArr r n a d) := by
  have hm : ((encBarArr r n a d).extractLsb' 2 6).toNat = 50 := congrArg BitVec.toNat (extract_lo _ 201#8 2 6 (by decide))
  refine fun _ _ => ⟨?_, ?_⟩
  · show candidate (encBarArr r n a d) none = _
    unfold candidate; rw [hm]
    show candidate32 (encBarArr r n a d) = _
    have ho : ((encBarArr r n a d).extractLsb' 30 2).toNat = 1 := by simp (disch := decide) only [encBarArr, extract_lo, extract_hi, extract_all]; decide
    unfold candidate32; rw [ho]
    show some (Instr.barArr ((encBarArr r n a d).extractLsb' 28 2) ((encBarArr r n a d).extractLsb' 18 7) ((encBarArr r n a d).extractLsb' 13 5) ((encBarArr r n a d).extractLsb' 8 5)) = _
    simp (disch := decide) only [encBarArr, extract_lo, extract_hi, extract_all, Nat.reduceSub]
  · show (encBarArr r n a d).getLsbD 0 = true ∧ (encBarArr r n a d).getLsbD 1 = false
    exact ⟨bit_lo _ 201#8 0 (by decide), bit_lo _ 201#8 1 (by decide)⟩
theorem Encoding.barWait (r : BitVec 2) (n : BitVec 7) (a : BitVec 5) : Encoding.Statement (.barWait r n a) := by
  have hm : ((encBarWait r n a).extractLsb' 2 6).toNat = 50 := congrArg BitVec.toNat (extract_lo _ 201#8 2 6 (by decide))
  refine fun _ _ => ⟨?_, ?_⟩
  · show candidate (encBarWait r n a) none = _
    unfold candidate; rw [hm]
    show candidate32 (encBarWait r n a) = _
    have ho : ((encBarWait r n a).extractLsb' 30 2).toNat = 2 := by simp (disch := decide) only [encBarWait, extract_lo, extract_hi, extract_all]; decide
    unfold candidate32; rw [ho]
    show some (Instr.barWait ((encBarWait r n a).extractLsb' 28 2) ((encBarWait r n a).extractLsb' 18 7) ((encBarWait r n a).extractLsb' 13 5)) = _
    simp (disch := decide) only [encBarWait, extract_lo, extract_hi, extract_all, Nat.reduceSub]
  · show (encBarWait r n a).getLsbD 0 = true ∧ (encBarWait r n a).getLsbD 1 = false
    exact ⟨bit_lo _ 201#8 0 (by decide), bit_lo _ 201#8 1 (by decide)⟩
theorem Encoding.barExp (n : BitVec 7) (a : BitVec 5) : Encoding.Statement (.barExp n a) := by
  have hm : ((encBarExp n a).extractLsb' 2 6).toNat = 50 := congrArg BitVec.toNat (extract_lo _ 201#8 2 6 (by decide))
  refine fun _ _ => ⟨?_, ?_⟩
  · show candidate (encBarExp n a) none = _
    unfold candidate; rw [hm]
    show candidate32 (encBarExp n a) = _
    have ho : ((encBarExp n a).extractLsb' 30 2).toNat = 3 := by simp (disch := decide) only [encBarExp, extract_lo, extract_hi, extract_all]; decide
    unfold candidate32; rw [ho]
    show some (Instr.barExp ((encBarExp n a).extractLsb' 18 7) ((encBarExp n a).extractLsb' 13 5)) = _
    simp (disch := decide) only [encBarExp, extract_lo, extract_hi, extract_all, Nat.reduceSub]
  · show (encBarExp n a).getLsbD 0 = true ∧ (encBarExp n a).getLsbD 1 = false
    exact ⟨bit_lo _ 201#8 0 (by decide), bit_lo _ 201#8 1 (by decide)⟩
theorem Encoding.grpJoin (a d : BitVec 5) : Encoding.Statement (.grpJoin a d) := by
  have hm : ((encGrpJoin a d).extractLsb' 2 6).toNat = 51 := congrArg BitVec.toNat (extract_lo _ 205#8 2 6 (by decide))
  refine fun _ _ => ⟨?_, ?_⟩
  · show candidate (encGrpJoin a d) none = _
    unfold candidate; rw [hm]
    show candidate33 (encGrpJoin a d) = _
    have ho : ((encGrpJoin a d).extractLsb' 28 4).toNat = 0 := by simp (disch := decide) only [encGrpJoin, extract_lo, extract_hi, extract_all]; decide
    unfold candidate33; rw [ho]
    show some (Instr.grpJoin ((encGrpJoin a d).extractLsb' 13 5) ((encGrpJoin a d).extractLsb' 8 5)) = _
    simp (disch := decide) only [encGrpJoin, extract_lo, extract_hi, extract_all, Nat.reduceSub]
  · show (encGrpJoin a d).getLsbD 0 = true ∧ (encGrpJoin a d).getLsbD 1 = false
    exact ⟨bit_lo _ 205#8 0 (by decide), bit_lo _ 205#8 1 (by decide)⟩
theorem Encoding.grpLeave (a d : BitVec 5) : Encoding.Statement (.grpLeave a d) := by
  have hm : ((encGrpLeave a d).extractLsb' 2 6).toNat = 51 := congrArg BitVec.toNat (extract_lo _ 205#8 2 6 (by decide))
  refine fun _ _ => ⟨?_, ?_⟩
  · show candidate (encGrpLeave a d) none = _
    unfold candidate; rw [hm]
    show candidate33 (encGrpLeave a d) = _
    have ho : ((encGrpLeave a d).extractLsb' 28 4).toNat = 1 := by simp (disch := decide) only [encGrpLeave, extract_lo, extract_hi, extract_all]; decide
    unfold candidate33; rw [ho]
    show some (Instr.grpLeave ((encGrpLeave a d).extractLsb' 13 5) ((encGrpLeave a d).extractLsb' 8 5)) = _
    simp (disch := decide) only [encGrpLeave, extract_lo, extract_hi, extract_all, Nat.reduceSub]
  · show (encGrpLeave a d).getLsbD 0 = true ∧ (encGrpLeave a d).getLsbD 1 = false
    exact ⟨bit_lo _ 205#8 0 (by decide), bit_lo _ 205#8 1 (by decide)⟩
theorem Encoding.grpQ (a d : BitVec 5) : Encoding.Statement (.grpQ a d) := by
  have hm : ((encGrpQ a d).extractLsb' 2 6).toNat = 51 := congrArg BitVec.toNat (extract_lo _ 205#8 2 6 (by decide))
  refine fun _ _ => ⟨?_, ?_⟩
  · show candidate (encGrpQ a d) none = _
    unfold candidate; rw [hm]
    show candidate33 (encGrpQ a d) = _
    have ho : ((encGrpQ a d).extractLsb' 28 4).toNat = 2 := by simp (disch := decide) only [encGrpQ, extract_lo, extract_hi, extract_all]; decide
    unfold candidate33; rw [ho]
    show some (Instr.grpQ ((encGrpQ a d).extractLsb' 13 5) ((encGrpQ a d).extractLsb' 8 5)) = _
    simp (disch := decide) only [encGrpQ, extract_lo, extract_hi, extract_all, Nat.reduceSub]
  · show (encGrpQ a d).getLsbD 0 = true ∧ (encGrpQ a d).getLsbD 1 = false
    exact ⟨bit_lo _ 205#8 0 (by decide), bit_lo _ 205#8 1 (by decide)⟩
theorem Encoding.semInit (n : BitVec 4) (a : BitVec 5) : Encoding.Statement (.semInit n a) := by
  have hm : ((encSemInit n a).extractLsb' 2 6).toNat = 52 := congrArg BitVec.toNat (extract_lo _ 209#8 2 6 (by decide))
  refine fun _ _ => ⟨?_, ?_⟩
  · show candidate (encSemInit n a) none = _
    unfold candidate; rw [hm]
    show candidate34 (encSemInit n a) = _
    have ho : ((encSemInit n a).extractLsb' 30 2).toNat = 0 := by simp (disch := decide) only [encSemInit, extract_lo, extract_hi, extract_all]; decide
    unfold candidate34; rw [ho]
    show some (Instr.semInit ((encSemInit n a).extractLsb' 18 4) ((encSemInit n a).extractLsb' 13 5)) = _
    simp (disch := decide) only [encSemInit, extract_lo, extract_hi, extract_all, Nat.reduceSub]
  · show (encSemInit n a).getLsbD 0 = true ∧ (encSemInit n a).getLsbD 1 = false
    exact ⟨bit_lo _ 209#8 0 (by decide), bit_lo _ 209#8 1 (by decide)⟩
theorem Encoding.semPost (n : BitVec 4) (a : BitVec 5) : Encoding.Statement (.semPost n a) := by
  have hm : ((encSemPost n a).extractLsb' 2 6).toNat = 52 := congrArg BitVec.toNat (extract_lo _ 209#8 2 6 (by decide))
  refine fun _ _ => ⟨?_, ?_⟩
  · show candidate (encSemPost n a) none = _
    unfold candidate; rw [hm]
    show candidate34 (encSemPost n a) = _
    have ho : ((encSemPost n a).extractLsb' 30 2).toNat = 1 := by simp (disch := decide) only [encSemPost, extract_lo, extract_hi, extract_all]; decide
    unfold candidate34; rw [ho]
    show some (Instr.semPost ((encSemPost n a).extractLsb' 18 4) ((encSemPost n a).extractLsb' 13 5)) = _
    simp (disch := decide) only [encSemPost, extract_lo, extract_hi, extract_all, Nat.reduceSub]
  · show (encSemPost n a).getLsbD 0 = true ∧ (encSemPost n a).getLsbD 1 = false
    exact ⟨bit_lo _ 209#8 0 (by decide), bit_lo _ 209#8 1 (by decide)⟩
theorem Encoding.semArm (n : BitVec 4) (a : BitVec 5) : Encoding.Statement (.semArm n a) := by
  have hm : ((encSemArm n a).extractLsb' 2 6).toNat = 52 := congrArg BitVec.toNat (extract_lo _ 209#8 2 6 (by decide))
  refine fun _ _ => ⟨?_, ?_⟩
  · show candidate (encSemArm n a) none = _
    unfold candidate; rw [hm]
    show candidate34 (encSemArm n a) = _
    have ho : ((encSemArm n a).extractLsb' 30 2).toNat = 2 := by simp (disch := decide) only [encSemArm, extract_lo, extract_hi, extract_all]; decide
    unfold candidate34; rw [ho]
    show some (Instr.semArm ((encSemArm n a).extractLsb' 18 4) ((encSemArm n a).extractLsb' 13 5)) = _
    simp (disch := decide) only [encSemArm, extract_lo, extract_hi, extract_all, Nat.reduceSub]
  · show (encSemArm n a).getLsbD 0 = true ∧ (encSemArm n a).getLsbD 1 = false
    exact ⟨bit_lo _ 209#8 0 (by decide), bit_lo _ 209#8 1 (by decide)⟩
theorem Encoding.rndClose : Encoding.Statement .rndClose := by
  have hm : (encRndClose.extractLsb' 2 6).toNat = 53 := congrArg BitVec.toNat (extract_lo _ 213#8 2 6 (by decide))
  refine fun _ _ => ⟨?_, ?_⟩
  · show candidate encRndClose none = _
    unfold candidate; rw [hm]
    show candidate35 encRndClose = _
    have ho : (encRndClose.extractLsb' 28 4).toNat = 0 := by simp (disch := decide) only [encRndClose, extract_lo, extract_hi, extract_all]; decide
    unfold candidate35; rw [ho]
    show some (Instr.rndClose) = _
    simp (disch := decide) only [encRndClose, extract_lo, extract_hi, extract_all, Nat.reduceSub]
  · show encRndClose.getLsbD 0 = true ∧ encRndClose.getLsbD 1 = false
    exact ⟨bit_lo _ 213#8 0 (by decide), bit_lo _ 213#8 1 (by decide)⟩
theorem Encoding.rndQ (d : BitVec 5) : Encoding.Statement (.rndQ d) := by
  have hm : ((encRndQ d).extractLsb' 2 6).toNat = 53 := congrArg BitVec.toNat (extract_lo _ 213#8 2 6 (by decide))
  refine fun _ _ => ⟨?_, ?_⟩
  · show candidate (encRndQ d) none = _
    unfold candidate; rw [hm]
    show candidate35 (encRndQ d) = _
    have ho : ((encRndQ d).extractLsb' 28 4).toNat = 1 := by simp (disch := decide) only [encRndQ, extract_lo, extract_hi, extract_all]; decide
    unfold candidate35; rw [ho]
    show some (Instr.rndQ ((encRndQ d).extractLsb' 8 5)) = _
    simp (disch := decide) only [encRndQ, extract_lo, extract_hi, extract_all, Nat.reduceSub]
  · show (encRndQ d).getLsbD 0 = true ∧ (encRndQ d).getLsbD 1 = false
    exact ⟨bit_lo _ 213#8 0 (by decide), bit_lo _ 213#8 1 (by decide)⟩
theorem Encoding.lmap (a d : BitVec 5) : Encoding.Statement (.lmap a d) := by
  have hm : ((encLmap a d).extractLsb' 2 6).toNat = 54 := congrArg BitVec.toNat (extract_lo _ 217#8 2 6 (by decide))
  refine fun _ _ => ⟨?_, ?_⟩
  · show candidate (encLmap a d) none = _
    unfold candidate; rw [hm]
    show candidate36 (encLmap a d) = _
    have ho : ((encLmap a d).extractLsb' 28 4).toNat = 0 := by simp (disch := decide) only [encLmap, extract_lo, extract_hi, extract_all]; decide
    unfold candidate36; rw [ho]
    show some (Instr.lmap ((encLmap a d).extractLsb' 13 5) ((encLmap a d).extractLsb' 8 5)) = _
    simp (disch := decide) only [encLmap, extract_lo, extract_hi, extract_all, Nat.reduceSub]
  · show (encLmap a d).getLsbD 0 = true ∧ (encLmap a d).getLsbD 1 = false
    exact ⟨bit_lo _ 217#8 0 (by decide), bit_lo _ 217#8 1 (by decide)⟩
theorem Encoding.foldQ (b a d : BitVec 5) : Encoding.Statement (.foldQ b a d) := by
  have hm : ((encFoldQ b a d).extractLsb' 2 6).toNat = 54 := congrArg BitVec.toNat (extract_lo _ 217#8 2 6 (by decide))
  refine fun _ _ => ⟨?_, ?_⟩
  · show candidate (encFoldQ b a d) none = _
    unfold candidate; rw [hm]
    show candidate36 (encFoldQ b a d) = _
    have ho : ((encFoldQ b a d).extractLsb' 28 4).toNat = 1 := by simp (disch := decide) only [encFoldQ, extract_lo, extract_hi, extract_all]; decide
    unfold candidate36; rw [ho]
    show some (Instr.foldQ ((encFoldQ b a d).extractLsb' 18 5) ((encFoldQ b a d).extractLsb' 13 5) ((encFoldQ b a d).extractLsb' 8 5)) = _
    simp (disch := decide) only [encFoldQ, extract_lo, extract_hi, extract_all, Nat.reduceSub]
  · show (encFoldQ b a d).getLsbD 0 = true ∧ (encFoldQ b a d).getLsbD 1 = false
    exact ⟨bit_lo _ 217#8 0 (by decide), bit_lo _ 217#8 1 (by decide)⟩
theorem Encoding.compactAdd (s d : BitVec 5) : Encoding.Statement (.compactAdd s d) := by
  have hm : ((encCompactAdd s d).extractLsb' 1 5).toNat = 1 := by simp (disch := decide) only [encCompactAdd, extract_lo, extract_hi]; decide
  refine fun _ _ => ⟨?_, ?_⟩
  · show candidateCompact (encCompactAdd s d) = _
    unfold candidateCompact; rw [hm]
    simp (disch := decide) only [encCompactAdd, extract_lo, extract_hi, extract_all]; simp
  · show (encCompactAdd s d).getLsbD 0 = false
    simp (disch := decide) only [encCompactAdd, bit_lo]; decide
theorem Encoding.compactSub (s d : BitVec 5) : Encoding.Statement (.compactSub s d) := by
  have hm : ((encCompactSub s d).extractLsb' 1 5).toNat = 2 := by simp (disch := decide) only [encCompactSub, extract_lo, extract_hi]; decide
  refine fun _ _ => ⟨?_, ?_⟩
  · show candidateCompact (encCompactSub s d) = _
    unfold candidateCompact; rw [hm]
    simp (disch := decide) only [encCompactSub, extract_lo, extract_hi, extract_all]; simp
  · show (encCompactSub s d).getLsbD 0 = false
    simp (disch := decide) only [encCompactSub, bit_lo]; decide
theorem Encoding.compactAnd (s d : BitVec 5) : Encoding.Statement (.compactAnd s d) := by
  have hm : ((encCompactAnd s d).extractLsb' 1 5).toNat = 3 := by simp (disch := decide) only [encCompactAnd, extract_lo, extract_hi]; decide
  refine fun _ _ => ⟨?_, ?_⟩
  · show candidateCompact (encCompactAnd s d) = _
    unfold candidateCompact; rw [hm]
    simp (disch := decide) only [encCompactAnd, extract_lo, extract_hi, extract_all]; simp
  · show (encCompactAnd s d).getLsbD 0 = false
    simp (disch := decide) only [encCompactAnd, bit_lo]; decide
theorem Encoding.compactOr (s d : BitVec 5) : Encoding.Statement (.compactOr s d) := by
  have hm : ((encCompactOr s d).extractLsb' 1 5).toNat = 4 := by simp (disch := decide) only [encCompactOr, extract_lo, extract_hi]; decide
  refine fun _ _ => ⟨?_, ?_⟩
  · show candidateCompact (encCompactOr s d) = _
    unfold candidateCompact; rw [hm]
    simp (disch := decide) only [encCompactOr, extract_lo, extract_hi, extract_all]; simp
  · show (encCompactOr s d).getLsbD 0 = false
    simp (disch := decide) only [encCompactOr, bit_lo]; decide
theorem Encoding.compactMove (s d : BitVec 5) : Encoding.Statement (.compactMove s d) := by
  have hm : ((encCompactMove s d).extractLsb' 1 5).toNat = 5 := by simp (disch := decide) only [encCompactMove, extract_lo, extract_hi]; decide
  refine fun _ _ => ⟨?_, ?_⟩
  · show candidateCompact (encCompactMove s d) = _
    unfold candidateCompact; rw [hm]
    simp (disch := decide) only [encCompactMove, extract_lo, extract_hi, extract_all]; simp
  · show (encCompactMove s d).getLsbD 0 = false
    simp (disch := decide) only [encCompactMove, bit_lo]; decide
theorem Encoding.compactXor (s d : BitVec 5) : Encoding.Statement (.compactXor s d) := by
  have hm : ((encCompactXor s d).extractLsb' 1 5).toNat = 6 := by simp (disch := decide) only [encCompactXor, extract_lo, extract_hi]; decide
  refine fun _ _ => ⟨?_, ?_⟩
  · show candidateCompact (encCompactXor s d) = _
    unfold candidateCompact; rw [hm]
    simp (disch := decide) only [encCompactXor, extract_lo, extract_hi, extract_all]; simp
  · show (encCompactXor s d).getLsbD 0 = false
    simp (disch := decide) only [encCompactXor, bit_lo]; decide
theorem Encoding.compactAddi (i d : BitVec 5) : Encoding.Statement (.compactAddi i d) := by
  have hm : ((encCompactAddi i d).extractLsb' 1 5).toNat = 7 := by simp (disch := decide) only [encCompactAddi, extract_lo, extract_hi]; decide
  refine fun _ _ => ⟨?_, ?_⟩
  · show candidateCompact (encCompactAddi i d) = _
    unfold candidateCompact; rw [hm]
    simp (disch := decide) only [encCompactAddi, extract_lo, extract_hi, extract_all]; simp
  · show (encCompactAddi i d).getLsbD 0 = false
    simp (disch := decide) only [encCompactAddi, bit_lo]; decide
theorem Encoding.compactMovi (i d : BitVec 5) : Encoding.Statement (.compactMovi i d) := by
  have hm : ((encCompactMovi i d).extractLsb' 1 5).toNat = 8 := by simp (disch := decide) only [encCompactMovi, extract_lo, extract_hi]; decide
  refine fun _ _ => ⟨?_, ?_⟩
  · show candidateCompact (encCompactMovi i d) = _
    unfold candidateCompact; rw [hm]
    simp (disch := decide) only [encCompactMovi, extract_lo, extract_hi, extract_all]; simp
  · show (encCompactMovi i d).getLsbD 0 = false
    simp (disch := decide) only [encCompactMovi, bit_lo]; decide
theorem Encoding.compactShli (u d : BitVec 5) : Encoding.Statement (.compactShli u d) := by
  have hm : ((encCompactShli u d).extractLsb' 1 5).toNat = 9 := by simp (disch := decide) only [encCompactShli, extract_lo, extract_hi]; decide
  refine fun _ _ => ⟨?_, ?_⟩
  · show candidateCompact (encCompactShli u d) = _
    unfold candidateCompact; rw [hm]
    simp (disch := decide) only [encCompactShli, extract_lo, extract_hi, extract_all]; simp
  · show (encCompactShli u d).getLsbD 0 = false
    simp (disch := decide) only [encCompactShli, bit_lo]; decide
theorem Encoding.compactShri (u d : BitVec 5) : Encoding.Statement (.compactShri u d) := by
  have hm : ((encCompactShri u d).extractLsb' 1 5).toNat = 10 := by simp (disch := decide) only [encCompactShri, extract_lo, extract_hi]; decide
  refine fun _ _ => ⟨?_, ?_⟩
  · show candidateCompact (encCompactShri u d) = _
    unfold candidateCompact; rw [hm]
    simp (disch := decide) only [encCompactShri, extract_lo, extract_hi, extract_all]; simp
  · show (encCompactShri u d).getLsbD 0 = false
    simp (disch := decide) only [encCompactShri, bit_lo]; decide
theorem Encoding.compactShai (u d : BitVec 5) : Encoding.Statement (.compactShai u d) := by
  have hm : ((encCompactShai u d).extractLsb' 1 5).toNat = 11 := by simp (disch := decide) only [encCompactShai, extract_lo, extract_hi]; decide
  refine fun _ _ => ⟨?_, ?_⟩
  · show candidateCompact (encCompactShai u d) = _
    unfold candidateCompact; rw [hm]
    simp (disch := decide) only [encCompactShai, extract_lo, extract_hi, extract_all]; simp
  · show (encCompactShai u d).getLsbD 0 = false
    simp (disch := decide) only [encCompactShai, bit_lo]; decide
theorem Encoding.compactAndi (i d : BitVec 5) : Encoding.Statement (.compactAndi i d) := by
  have hm : ((encCompactAndi i d).extractLsb' 1 5).toNat = 12 := by simp (disch := decide) only [encCompactAndi, extract_lo, extract_hi]; decide
  refine fun _ _ => ⟨?_, ?_⟩
  · show candidateCompact (encCompactAndi i d) = _
    unfold candidateCompact; rw [hm]
    simp (disch := decide) only [encCompactAndi, extract_lo, extract_hi, extract_all]; simp
  · show (encCompactAndi i d).getLsbD 0 = false
    simp (disch := decide) only [encCompactAndi, bit_lo]; decide
theorem Encoding.compactSlt (s d : BitVec 5) : Encoding.Statement (.compactSlt s d) := by
  have hm : ((encCompactSlt s d).extractLsb' 1 5).toNat = 13 := by simp (disch := decide) only [encCompactSlt, extract_lo, extract_hi]; decide
  refine fun _ _ => ⟨?_, ?_⟩
  · show candidateCompact (encCompactSlt s d) = _
    unfold candidateCompact; rw [hm]
    simp (disch := decide) only [encCompactSlt, extract_lo, extract_hi, extract_all]; simp
  · show (encCompactSlt s d).getLsbD 0 = false
    simp (disch := decide) only [encCompactSlt, bit_lo]; decide
theorem Encoding.compactSeq (s d : BitVec 5) : Encoding.Statement (.compactSeq s d) := by
  have hm : ((encCompactSeq s d).extractLsb' 1 5).toNat = 14 := by simp (disch := decide) only [encCompactSeq, extract_lo, extract_hi]; decide
  refine fun _ _ => ⟨?_, ?_⟩
  · show candidateCompact (encCompactSeq s d) = _
    unfold candidateCompact; rw [hm]
    simp (disch := decide) only [encCompactSeq, extract_lo, extract_hi, extract_all]; simp
  · show (encCompactSeq s d).getLsbD 0 = false
    simp (disch := decide) only [encCompactSeq, bit_lo]; decide
theorem Encoding.compactMul (s d : BitVec 5) : Encoding.Statement (.compactMul s d) := by
  have hm : ((encCompactMul s d).extractLsb' 1 5).toNat = 15 := by simp (disch := decide) only [encCompactMul, extract_lo, extract_hi]; decide
  refine fun _ _ => ⟨?_, ?_⟩
  · show candidateCompact (encCompactMul s d) = _
    unfold candidateCompact; rw [hm]
    simp (disch := decide) only [encCompactMul, extract_lo, extract_hi, extract_all]; simp
  · show (encCompactMul s d).getLsbD 0 = false
    simp (disch := decide) only [encCompactMul, bit_lo]; decide
theorem Encoding.compactLdD (s d : BitVec 5) : Encoding.Statement (.compactLdD s d) := by
  have hm : ((encCompactLdD s d).extractLsb' 1 5).toNat = 16 := by simp (disch := decide) only [encCompactLdD, extract_lo, extract_hi]; decide
  refine fun _ _ => ⟨?_, ?_⟩
  · show candidateCompact (encCompactLdD s d) = _
    unfold candidateCompact; rw [hm]
    simp (disch := decide) only [encCompactLdD, extract_lo, extract_hi, extract_all]; simp
  · show (encCompactLdD s d).getLsbD 0 = false
    simp (disch := decide) only [encCompactLdD, bit_lo]; decide
theorem Encoding.compactStD (s d : BitVec 5) : Encoding.Statement (.compactStD s d) := by
  have hm : ((encCompactStD s d).extractLsb' 1 5).toNat = 17 := by simp (disch := decide) only [encCompactStD, extract_lo, extract_hi]; decide
  refine fun _ _ => ⟨?_, ?_⟩
  · show candidateCompact (encCompactStD s d) = _
    unfold candidateCompact; rw [hm]
    simp (disch := decide) only [encCompactStD, extract_lo, extract_hi, extract_all]; simp
  · show (encCompactStD s d).getLsbD 0 = false
    simp (disch := decide) only [encCompactStD, bit_lo]; decide
theorem Encoding.compactBeq (o d : BitVec 5) : Encoding.Statement (.compactBeq o d) := by
  have hm : ((encCompactBeq o d).extractLsb' 1 5).toNat = 18 := by simp (disch := decide) only [encCompactBeq, extract_lo, extract_hi]; decide
  refine fun _ _ => ⟨?_, ?_⟩
  · show candidateCompact (encCompactBeq o d) = _
    unfold candidateCompact; rw [hm]
    simp (disch := decide) only [encCompactBeq, extract_lo, extract_hi, extract_all]; simp
  · show (encCompactBeq o d).getLsbD 0 = false
    simp (disch := decide) only [encCompactBeq, bit_lo]; decide
theorem Encoding.compactBne (o d : BitVec 5) : Encoding.Statement (.compactBne o d) := by
  have hm : ((encCompactBne o d).extractLsb' 1 5).toNat = 19 := by simp (disch := decide) only [encCompactBne, extract_lo, extract_hi]; decide
  refine fun _ _ => ⟨?_, ?_⟩
  · show candidateCompact (encCompactBne o d) = _
    unfold candidateCompact; rw [hm]
    simp (disch := decide) only [encCompactBne, extract_lo, extract_hi, extract_all]; simp
  · show (encCompactBne o d).getLsbD 0 = false
    simp (disch := decide) only [encCompactBne, bit_lo]; decide
theorem Encoding.compactNop : Encoding.Statement .compactNop := by
  have hm : (encCompactNop.extractLsb' 1 5).toNat = 20 := by simp (disch := decide) only [encCompactNop, extract_lo, extract_hi]; decide
  refine fun _ _ => ⟨?_, ?_⟩
  · show candidateCompact encCompactNop = _
    unfold candidateCompact; rw [hm]
    simp (disch := decide) only [encCompactNop, extract_lo, extract_hi, extract_all]; simp
  · show encCompactNop.getLsbD 0 = false
    simp (disch := decide) only [encCompactNop, bit_lo]; decide
theorem Encoding.compactBrk : Encoding.Statement .compactBrk := by
  have hm : (encCompactBrk.extractLsb' 1 5).toNat = 20 := by simp (disch := decide) only [encCompactBrk, extract_lo, extract_hi]; decide
  refine fun _ _ => ⟨?_, ?_⟩
  · show candidateCompact encCompactBrk = _
    unfold candidateCompact; rw [hm]
    simp (disch := decide) only [encCompactBrk, extract_lo, extract_hi, extract_all]; simp
  · show encCompactBrk.getLsbD 0 = false
    simp (disch := decide) only [encCompactBrk, bit_lo]; decide
theorem Encoding.compactEnd : Encoding.Statement .compactEnd := by
  have hm : (encCompactEnd.extractLsb' 1 5).toNat = 20 := by simp (disch := decide) only [encCompactEnd, extract_lo, extract_hi]; decide
  refine fun _ _ => ⟨?_, ?_⟩
  · show candidateCompact encCompactEnd = _
    unfold candidateCompact; rw [hm]
    simp (disch := decide) only [encCompactEnd, extract_lo, extract_hi, extract_all]; simp
  · show encCompactEnd.getLsbD 0 = false
    simp (disch := decide) only [encCompactEnd, bit_lo]; decide
theorem Encoding.launchSubmit (x0 : Nat) (x1 : Nat) (x2 : Word) : Encoding.Statement (.launchSubmit x0 x1 x2) := fun _ h => nomatch h
theorem Encoding.launchAdmission (x0 : Nat) (x1 : Bool) : Encoding.Statement (.launchAdmission x0 x1) := fun _ h => nomatch h
theorem Encoding.startRelease (x0 : Nat) (x1 : Nat) : Encoding.Statement (.startRelease x0 x1) := fun _ h => nomatch h
theorem Encoding.launchCompletion (x0 : Nat) : Encoding.Statement (.launchCompletion x0) := fun _ h => nomatch h
theorem Encoding.consumedCountWrite (x0 : Nat) (x1 : Nat) (x2 : Word) : Encoding.Statement (.consumedCountWrite x0 x1 x2) := fun _ h => nomatch h
theorem Encoding.activationEnter (x0 : CoreId) (x1 : ActSource) : Encoding.Statement (.activationEnter x0 x1) := fun _ h => nomatch h
theorem Encoding.taskStart (x0 : CoreId) : Encoding.Statement (.taskStart x0) := fun _ h => nomatch h
theorem Encoding.waitClear (x0 : CtxId) : Encoding.Statement (.waitClear x0) := fun _ h => nomatch h
theorem Encoding.long (x0 : CtxId) : Encoding.Statement (.long x0) := fun _ h => nomatch h
theorem Encoding.boundaryOverrun (x0 : CtxId) : Encoding.Statement (.boundaryOverrun x0) := fun _ h => nomatch h
theorem Encoding.asyncTrapTake (x0 : CtxId) : Encoding.Statement (.asyncTrapTake x0) := fun _ h => nomatch h
theorem Encoding.userInterruptEntry (x0 : CtxId) : Encoding.Statement (.userInterruptEntry x0) := fun _ h => nomatch h
theorem Encoding.kernelNotice (x0 : CoreId) : Encoding.Statement (.kernelNotice x0) := fun _ h => nomatch h
theorem Encoding.tileTaskComplete (x0 : TTId) : Encoding.Statement (.tileTaskComplete x0) := fun _ h => nomatch h
theorem Encoding.tileTaskRetire (x0 : TTId) : Encoding.Statement (.tileTaskRetire x0) := fun _ h => nomatch h
theorem Encoding.frontAdvance (x0 : Home) : Encoding.Statement (.frontAdvance x0) := fun _ h => nomatch h
theorem Encoding.messageInject (x0 : CoreId) : Encoding.Statement (.messageInject x0) := fun _ h => nomatch h
theorem Encoding.messageArrival (x0 : Nat) : Encoding.Statement (.messageArrival x0) := fun _ h => nomatch h
theorem Encoding.creditReturn (x0 : Nat) : Encoding.Statement (.creditReturn x0) := fun _ h => nomatch h
theorem Encoding.retryReply (x0 : Nat) : Encoding.Statement (.retryReply x0) := fun _ h => nomatch h
theorem Encoding.retryResend (x0 : Nat) : Encoding.Statement (.retryResend x0) := fun _ h => nomatch h
theorem Encoding.counterIncrementArrival (x0 : Nat) : Encoding.Statement (.counterIncrementArrival x0) := fun _ h => nomatch h
theorem Encoding.remoteAccessArrival (x0 : Nat) : Encoding.Statement (.remoteAccessArrival x0) := fun _ h => nomatch h
theorem Encoding.effectArrival (x0 : Nat) : Encoding.Statement (.effectArrival x0) := fun _ h => nomatch h
theorem Encoding.waitRequestArrival (x0 : Nat) : Encoding.Statement (.waitRequestArrival x0) := fun _ h => nomatch h
theorem Encoding.ldsyncCancel (x0 : Nat) : Encoding.Statement (.ldsyncCancel x0) := fun _ h => nomatch h
theorem Encoding.readReply (x0 : Nat) : Encoding.Statement (.readReply x0) := fun _ h => nomatch h
theorem Encoding.writeAcknowledgement (x0 : Nat) : Encoding.Statement (.writeAcknowledgement x0) := fun _ h => nomatch h
theorem Encoding.writeDenial (x0 : Nat) : Encoding.Statement (.writeDenial x0) := fun _ h => nomatch h
theorem Encoding.xpartNotice (x0 : Nat) : Encoding.Statement (.xpartNotice x0) := fun _ h => nomatch h
theorem Encoding.flushReadComplete (x0 : Nat) : Encoding.Statement (.flushReadComplete x0) := fun _ h => nomatch h
theorem Encoding.transferComplete (x0 : Nat) : Encoding.Statement (.transferComplete x0) := fun _ h => nomatch h
theorem Encoding.ringDeliveryComplete (x0 : Nat) : Encoding.Statement (.ringDeliveryComplete x0) := fun _ h => nomatch h
theorem Encoding.arrayOperationRetire (x0 : TileId) : Encoding.Statement (.arrayOperationRetire x0) := fun _ h => nomatch h
theorem Encoding.gjoinOfferReady (x0 : CoreId) : Encoding.Statement (.gjoinOfferReady x0) := fun _ h => nomatch h
theorem Encoding.apertureWrite (x0 : Nat) (x1 : Nat) (x2 : Word) (x3 : List Byte) : Encoding.Statement (.apertureWrite x0 x1 x2 x3) := fun _ h => nomatch h
theorem Encoding.apertureRead (x0 : Nat) (x1 : Nat) (x2 : Word) (x3 : Nat) : Encoding.Statement (.apertureRead x0 x1 x2 x3) := fun _ h => nomatch h
theorem Encoding.barrierArrival (x0 : Nat) : Encoding.Statement (.barrierArrival x0) := fun _ h => nomatch h
theorem Encoding.barrierRegistration (x0 : Nat) : Encoding.Statement (.barrierRegistration x0) := fun _ h => nomatch h
theorem Encoding.barrierBind (x0 : Nat) : Encoding.Statement (.barrierBind x0) := fun _ h => nomatch h
theorem Encoding.groupChange (x0 : Nat) : Encoding.Statement (.groupChange x0) := fun _ h => nomatch h
theorem Encoding.membershipUpdate (x0 : Nat) : Encoding.Statement (.membershipUpdate x0) := fun _ h => nomatch h
theorem Encoding.pageWalk (x0 : Nat) : Encoding.Statement (.pageWalk x0) := fun _ h => nomatch h
theorem Encoding.walkComplete (x0 : Nat) : Encoding.Statement (.walkComplete x0) := fun _ h => nomatch h
theorem Encoding.faultCompletion (x0 : BitVec 8) (x1 : BitVec 32) (x2 : Bool) : Encoding.Statement (.faultCompletion x0 x1 x2) := fun _ h => nomatch h
theorem Encoding.faultQueueHeadWrite (x0 : BitVec 8) (x1 : Word) : Encoding.Statement (.faultQueueHeadWrite x0 x1) := fun _ h => nomatch h
theorem Encoding.invalidation (x0 : BitVec 8) (x1 : Word) (x2 : BitVec 2) : Encoding.Statement (.invalidation x0 x1 x2) := fun _ h => nomatch h
theorem Encoding.invalidationComplete (x0 : Nat) : Encoding.Statement (.invalidationComplete x0) := fun _ h => nomatch h
theorem Encoding.fold (x0 : Nat) (x1 : Nat) : Encoding.Statement (.fold x0 x1) := fun _ h => nomatch h
theorem Encoding.foldStreamed (x0 : Nat) (x1 : Nat) : Encoding.Statement (.foldStreamed x0 x1) := fun _ h => nomatch h
theorem Encoding.unfold (x0 : Nat) (x1 : Nat) : Encoding.Statement (.unfold x0 x1) := fun _ h => nomatch h
theorem Encoding.unfoldComplete (x0 : Nat) (x1 : Nat) : Encoding.Statement (.unfoldComplete x0 x1) := fun _ h => nomatch h
theorem Encoding.parkedArrival (x0 : Nat) : Encoding.Statement (.parkedArrival x0) := fun _ h => nomatch h
theorem Encoding.regulatorFailure (x0 : Nat) : Encoding.Statement (.regulatorFailure x0) := fun _ h => nomatch h
theorem Encoding.uncorrectableError (x0 : PTile) : Encoding.Statement (.uncorrectableError x0) := fun _ h => nomatch h
theorem Encoding.correctableError (x0 : PTile) : Encoding.Statement (.correctableError x0) := fun _ h => nomatch h
theorem Encoding.hbmLineError (x0 : Nat) (x1 : Nat) (x2 : List Nat) : Encoding.Statement (.hbmLineError x0 x1 x2) := fun _ h => nomatch h
theorem Encoding.remapWaveCommit (x0 : Nat) : Encoding.Statement (.remapWaveCommit x0) := fun _ h => nomatch h
theorem Encoding.roundTimer (x0 : Nat) : Encoding.Statement (.roundTimer x0) := fun _ h => nomatch h
theorem Encoding.closeDeferralEnd (x0 : Nat) : Encoding.Statement (.closeDeferralEnd x0) := fun _ h => nomatch h
theorem Encoding.roundClose (x0 : Nat) : Encoding.Statement (.roundClose x0) := fun _ h => nomatch h
theorem Encoding.roundMirrored (x0 : Nat) : Encoding.Statement (.roundMirrored x0) := fun _ h => nomatch h
theorem Encoding.currentStep (x0 : Nat) : Encoding.Statement (.currentStep x0) := fun _ h => nomatch h
theorem Encoding.droopAlarm (x0 : Nat) : Encoding.Statement (.droopAlarm x0) := fun _ h => nomatch h
theorem Encoding.droopClear (x0 : Nat) : Encoding.Statement (.droopClear x0) := fun _ h => nomatch h
theorem Encoding.deadlockScan (x0 : List Nat) : Encoding.Statement (.deadlockScan x0) := fun _ h => nomatch h
theorem Encoding.partitionCreate (x0 : BitVec 8) (x1 : List PTile) (x2 : Nat) : Encoding.Statement (.partitionCreate x0 x1 x2) := fun _ h => nomatch h
theorem Encoding.partitionDelete (x0 : BitVec 8) : Encoding.Statement (.partitionDelete x0) := fun _ h => nomatch h
theorem Encoding.grow (x0 : BitVec 8) (x1 : List PTile) : Encoding.Statement (.grow x0 x1) := fun _ h => nomatch h
theorem Encoding.shrink (x0 : BitVec 8) (x1 : List PTile) : Encoding.Statement (.shrink x0 x1) := fun _ h => nomatch h
theorem Encoding.preEmption (x0 : BitVec 8) (x1 : BitVec 8) (x2 : List PTile) : Encoding.Statement (.preEmption x0 x1 x2) := fun _ h => nomatch h
theorem Encoding.commandSubmit (x0 : BitVec 8) (x1 : Word) : Encoding.Statement (.commandSubmit x0 x1) := fun _ h => nomatch h
theorem Encoding.protectionDescriptor (x0 : BitVec 8) : Encoding.Statement (.protectionDescriptor x0) := fun _ h => nomatch h
theorem Encoding.contextSave (x0 : BitVec 8) : Encoding.Statement (.contextSave x0) := fun _ h => nomatch h
theorem Encoding.loadObject (x0 : BitVec 8) (x1 : Object) : Encoding.Statement (.loadObject x0 x1) := fun _ h => nomatch h
theorem Encoding.unloadProgram (x0 : BitVec 8) : Encoding.Statement (.unloadProgram x0) := fun _ h => nomatch h
theorem Encoding.unknownCommand (x0 : BitVec 8) : Encoding.Statement (.unknownCommand x0) := fun _ h => nomatch h
theorem Encoding.slotTableCommit (x0 : Word) : Encoding.Statement (.slotTableCommit x0) := fun _ h => nomatch h
theorem Encoding.slotTableTakeEffect : Encoding.Statement .slotTableTakeEffect := fun _ h => nomatch h
theorem Encoding.scaleOutFrameReceive (x0 : Nat) (x1 : PortInput) : Encoding.Statement (.scaleOutFrameReceive x0 x1) := fun _ h => nomatch h
theorem Encoding.scaleOutAck (x0 : Nat) (x1 : BitVec 32) : Encoding.Statement (.scaleOutAck x0 x1) := fun _ h => nomatch h
theorem Encoding.scaleOutRetransmit (x0 : Nat) : Encoding.Statement (.scaleOutRetransmit x0) := fun _ h => nomatch h
theorem Encoding.portDown (x0 : Nat) : Encoding.Statement (.portDown x0) := fun _ h => nomatch h
theorem Encoding.portUp (x0 : Nat) : Encoding.Statement (.portUp x0) := fun _ h => nomatch h
theorem Encoding.edgeRebind (x0 : Nat) (x1 : Nat) (x2 : Option EdgeEnd) : Encoding.Statement (.edgeRebind x0 x1 x2) := fun _ h => nomatch h
theorem Encoding.ptpEventMessage (x0 : Nat) (x1 : Nat) : Encoding.Statement (.ptpEventMessage x0 x1) := fun _ h => nomatch h
theorem Encoding.profileMaskWrite (x0 : BitVec 8) (x1 : BitVec 8) : Encoding.Statement (.profileMaskWrite x0 x1) := fun _ h => nomatch h
theorem Encoding.kernelImageWrite (x0 : BitVec 8) (x1 : Role) (x2 : Nat) (x3 : List Byte) : Encoding.Statement (.kernelImageWrite x0 x1 x2 x3) := fun _ h => nomatch h
theorem Encoding.hyperImageWrite (x0 : Nat) (x1 : List Byte) : Encoding.Statement (.hyperImageWrite x0 x1) := fun _ h => nomatch h
theorem Encoding.failsClear (x0 : Word) : Encoding.Statement (.failsClear x0) := fun _ h => nomatch h
theorem Encoding.registerWrite (x0 : Nat) (x1 : HostReg) (x2 : Word) : Encoding.Statement (.registerWrite x0 x1 x2) := fun _ h => nomatch h
theorem Encoding.reset : Encoding.Statement .reset := fun _ h => nomatch h
theorem Encoding.firmwareVerify (x0 : Nat) : Encoding.Statement (.firmwareVerify x0) := fun _ h => nomatch h
theorem Encoding.dieSelfTest (x0 : Nat) (x1 : List Nat) (x2 : List Nat) (x3 : List Nat) (x4 : List (Nat × Bool)) : Encoding.Statement (.dieSelfTest x0 x1 x2 x3 x4) := fun _ h => nomatch h
theorem Encoding.seamTraining (x0 : Nat) (x1 : Nat) (x2 : List Nat) : Encoding.Statement (.seamTraining x0 x1 x2) := fun _ h => nomatch h
theorem Encoding.islandMerging : Encoding.Statement .islandMerging := fun _ h => nomatch h
theorem Encoding.startTest (x0 : List Nat) : Encoding.Statement (.startTest x0) := fun _ h => nomatch h
theorem Encoding.bootStatusWrite : Encoding.Statement .bootStatusWrite := fun _ h => nomatch h
theorem Encoding.phaseTimeLimit (x0 : Nat) : Encoding.Statement (.phaseTimeLimit x0) := fun _ h => nomatch h
theorem Encoding.getVersion (x0 : Nat) : Encoding.Statement (.getVersion x0) := fun _ h => nomatch h
theorem Encoding.getCapabilities (x0 : Nat) : Encoding.Statement (.getCapabilities x0) := fun _ h => nomatch h
theorem Encoding.negotiateAlgorithms (x0 : Nat) : Encoding.Statement (.negotiateAlgorithms x0) := fun _ h => nomatch h
theorem Encoding.getDigests (x0 : Nat) : Encoding.Statement (.getDigests x0) := fun _ h => nomatch h
theorem Encoding.getCertificate (x0 : Nat) (x1 : BitVec 8) (x2 : BitVec 16) (x3 : BitVec 16) : Encoding.Statement (.getCertificate x0 x1 x2 x3) := fun _ h => nomatch h
theorem Encoding.challenge (x0 : Nat) (x1 : BitVec 8) (x2 : BitVec 256) : Encoding.Statement (.challenge x0 x1 x2) := fun _ h => nomatch h
theorem Encoding.getMeasurements (x0 : Nat) (x1 : BitVec 8) (x2 : Bool) (x3 : BitVec 256) : Encoding.Statement (.getMeasurements x0 x1 x2 x3) := fun _ h => nomatch h
theorem Encoding.unsupportedRequest (x0 : Nat) (x1 : BitVec 8) : Encoding.Statement (.unsupportedRequest x0 x1) := fun _ h => nomatch h
theorem Encoding.illegal (x0 : Word) : Encoding.Statement (.illegal x0) := fun _ h => nomatch h
theorem Encoding.fetchProt (x0 : Word) : Encoding.Statement (.fetchProt x0) := fun _ h => nomatch h
theorem Encoding.powerLoss (x0 : List Nat) (x1 : List (Nat × Nat)) : Encoding.Statement (.powerLoss x0 x1) := fun _ h => nomatch h
theorem Encoding.frameBoundary : Encoding.Statement .frameBoundary := fun _ h => nomatch h

end Sys2Proof.Laws
end

