-- ==== Sys2Proof/Laws/Steps.lean ====
section
/-! SUPPORT. One lemma for each case of the shared operations of device steps: the agenda, increments, a unit in progress beneath a handler, kept contexts, tiles
placed in a zone. -/

namespace Sys2Proof.Machine

/-- An agenda entry runs, unless a context that can issue takes it at its boundary (14 R420). -/
theorem step_agenda {s : State} {i : Instr} {rest : List Instr} (h : s.agenda = i :: rest) (hw : ({ s with agenda := rest } : State).awaitsBoundary i = false) :
    step s = exec i { s with agenda := rest } := by
  simp [step, h, fromAgenda, hw]

theorem step_agenda_waits {s : State} {i : Instr} {rest : List Instr} (h : s.agenda = i :: rest)
    (hw : ({ s with agenda := rest } : State).awaitsBoundary i = true) : step s = .next { s with agenda := rest } := by
  simp [step, h, fromAgenda, hw]

/-- What waits for its boundary: an asynchronous trap or a user interrupt of a context that can issue. -/
theorem State.awaitsBoundary_iff (s : State) (i : Instr) :
    s.awaitsBoundary i = true ↔ ∃ id, (i = .asyncTrapTake id ∨ i = .userInterruptEntry id) ∧ (s.ctx id).phase = .run := by
  constructor
  · intro h
    cases i <;> simp [State.awaitsBoundary] at h <;> exact ⟨_, by simp, h⟩
  · rintro ⟨id, rfl | rfl, h⟩ <;> simpa [State.awaitsBoundary] using h

theorem step_due {s : State} {i : Instr} (ha : s.agenda = []) (hn : nextIssue s = none) (hd : due s = some i) : step s = exec i s := by simp [step, ha, hn, hd]

theorem step_tick {s : State} (ha : s.agenda = []) (hn : nextIssue s = none) (hd : due s = none) : step s = .next s.tick := by simp [step, ha, hn, hd]

@[simp] theorem State.applyLater_nil (s : State) (h : s.later = []) : s.applyLater = s := by
  cases s; simp_all [State.applyLater]

theorem Ctx.resumed_of_none {c : Ctx} (h : c.under = none) : c.resumed = { c with phase := .run } := by simp [Ctx.resumed, h]

theorem Ctx.resumed_of_some {c : Ctx} {u : Beneath} (h : c.under = some u) : c.resumed = { c with phase := u.phase, took := u.took, under := none } := by
  simp [Ctx.resumed, h]

theorem Ctx.goesOn_of_none {c : Ctx} (h : c.under = none) : c.goesOn = c := by simp [Ctx.goesOn, h]

theorem State.modKept_of_none (s : State) {id : CtxId} (uid : Nat) (f : Ctx → Ctx) (h : (s.core id.core).overruns.get? id.c = none) : s.modKept id uid f = s := by
  simp [State.modKept, h]

@[simp] theorem State.adopt_nil (s : State) (z : Nat) : s.adopt z [] = s := by simp [State.adopt]

/-- A zone without an image keeps none of the tiles placed in it (16 R449). -/
theorem State.adopt_blank (s : State) (z : Nat) (ts : List TileId) (h1 : (s.zone z).restore = none) (h2 : (s.zone z).streaming = none) : s.adopt z ts = s := by
  simp [State.adopt, h1, h2]

end Sys2Proof.Machine
end

