-- ==== Sys2Proof/Tests/Slice0.lean ====
section
/-! SUPPORT. Tests of the model and witnesses for the statements: words written out from the encoding tables, terms that no encoding admits, for every hypothesis
of a statement a concrete state that meets it, and single units with results worked out by hand from the spec. -/

set_option linter.unusedVariables false

namespace Sys2Proof.Tests

open Sys2Proof.Machine Sys2Proof.Claims

/-- The two halfwords of a 32-bit unit. -/
def word (w : BitVec 32) : List Half := [w.extractLsb' 0 16, w.extractLsb' 16 16]

/-- A protection descriptor for all lines with every right (07 Table 7.2). -/
def openProt : List Word := 0xFFFC000FFF :: List.replicate 7 0

/-- A task of launch 0 on tile 0, at user level, in context 0 of a role, with some registers set; the tile is open to every access; segment 0 is its first 4096 bytes,
segment 1 the window of tile 1, segment 2 a page of device memory, segment 3 its own tile by global addresses, segment 4 can not be written. -/
def ctx0 (r : Role) (xs : List (BitVec 5 × Word)) : Ctx :=
  let c := placedCtx r 0
  let segs : List Seg := [⟨0, 0xC000000000001000⟩, ⟨0x100000100000, 0xE000000000001000⟩, ⟨0x200000000000, 0xE000000000001000⟩,
    ⟨0x100000000000, 0xE000000000001000⟩, ⟨0x1000, 0x4000000000001000⟩]
  let c := { c with segs := Vector.ofFn fun i => segs.getD i.val ⟨0, 0⟩ }
  xs.foldl (fun c x => c.setReg x.1 x.2) c

def id0 (r : Role) : CtxId := ⟨⟨0, 0, r⟩, 0⟩

/-- The state in which that task runs, in a launch of two tiles. -/
def on (r : Role) (xs : List (BitVec 5 × Word)) : State :=
  let s := State.reset.place [] r 0
  { s with cur := id0 r, ctxs := [(id0 r, ctx0 r xs)], tiles := [(⟨0, 0⟩, { Tile.init with prot := openProt })],
           launches := [(0, { oneTileLaunch (oneTileObject []) with x := 2 })], parts := [(0, Partition.init 0 0)] }

/-- The same with its context, or its tile, changed. -/
def onC (r : Role) (xs : List (BitVec 5 × Word)) (f : Ctx → Ctx) : State := (on r xs).modCtx (id0 r) f
def onT (r : Role) (xs : List (BitVec 5 × Word)) (g : Tile → Tile) : State := (on r xs).modTile ⟨0, 0⟩ g

/-! ### Decoding: each word is written out field by field from the encoding tables of 02 to 16 -/

theorem test_decode_major_01 :
    decode (word 0b000000000_00111_01100_10001_000001_0_1) = .ok (.add 7 12 17) ∧
    decode (word 0b000000001_00111_01100_10001_000001_0_1) = .ok (.sub 7 12 17) ∧
    decode (word 0b000000010_00111_01100_10001_000001_0_1) = .ok (.mul 7 12 17) ∧
    decode (word 0b000000011_00111_01100_10001_000001_0_1) = .ok (.mulh 7 12 17) ∧
    decode (word 0b000000100_00111_01100_10001_000001_0_1) = .ok (.mulhn 7 12 17) ∧
    decode (word 0b000000101_00111_01100_10001_000001_0_1) = .ok (.div 7 12 17) ∧
    decode (word 0b000000110_00111_01100_10001_000001_0_1) = .ok (.divn 7 12 17) ∧
    decode (word 0b000000111_00111_01100_10001_000001_0_1) = .ok (.rem 7 12 17) ∧
    decode (word 0b000001000_00111_01100_10001_000001_0_1) = .ok (.remn 7 12 17) ∧
    decode (word 0b000001001_00111_01100_10001_000001_0_1) = .ok (.min 7 12 17) ∧
    decode (word 0b000001010_00111_01100_10001_000001_0_1) = .ok (.max 7 12 17) ∧
    decode (word 0b000001011_00111_01100_10001_000001_0_1) = .ok (.minn 7 12 17) ∧
    decode (word 0b000001100_00111_01100_10001_000001_0_1) = .ok (.maxn 7 12 17) ∧
    decode (word 0b000001101_00111_01100_10001_000001_0_1) = .ok (.and 7 12 17) ∧
    decode (word 0b000001110_00111_01100_10001_000001_0_1) = .ok (.or 7 12 17) ∧
    decode (word 0b000001111_00111_01100_10001_000001_0_1) = .ok (.xor 7 12 17) ∧
    decode (word 0b000010000_00111_01100_10001_000001_0_1) = .ok (.andn 7 12 17) ∧
    decode (word 0b000010001_00111_01100_10001_000001_0_1) = .ok (.shl 7 12 17) ∧
    decode (word 0b000010010_00111_01100_10001_000001_0_1) = .ok (.shr 7 12 17) ∧
    decode (word 0b000010011_00111_01100_10001_000001_0_1) = .ok (.sha 7 12 17) ∧
    decode (word 0b000010100_00111_01100_10001_000001_0_1) = .ok (.rotl 7 12 17) ∧
    decode (word 0b00001010100000_00111_01100_000001_0_1) = .ok (.clz 7 12) ∧
    decode (word 0b00001011000000_00111_01100_000001_0_1) = .ok (.ctz 7 12) ∧
    decode (word 0b00001011100000_00111_01100_000001_0_1) = .ok (.popc 7 12) ∧
    decode (word 0b000011000_00111_01100_10001_000001_0_1) = .ok (.seq 7 12 17) ∧
    decode (word 0b000011001_00111_01100_10001_000001_0_1) = .ok (.slt 7 12 17) ∧
    decode (word 0b000011010_00111_01100_10001_000001_0_1) = .ok (.sltn 7 12 17) := by
  refine ⟨?_, ?_, ?_, ?_, ?_, ?_, ?_, ?_, ?_, ?_, ?_, ?_, ?_, ?_, ?_, ?_, ?_, ?_, ?_, ?_, ?_, ?_, ?_, ?_, ?_, ?_, ?_⟩ <;> rfl

theorem test_decode_major_02_to_0c :
    decode (word 0b00000000_1_01100_10001_10110_000010_0_1) = .ok (.padd 1 12 17 22) ∧
    decode (word 0b00000010_1_01100_10001_10110_000010_0_1) = .ok (.psub 1 12 17 22) ∧
    decode (word 0b0000010_1_1_10001_10110_11011_000010_0_1) = .ok (.pmin 1 1 17 22 27) ∧
    decode (word 0b0000011_1_1_10001_10110_11011_000010_0_1) = .ok (.pmax 1 1 17 22 27) ∧
    decode (word 0b00001000_1_01100_10001_10110_000010_0_1) = .ok (.pshl 1 12 17 22) ∧
    decode (word 0b00001010_1_01100_10001_10110_000010_0_1) = .ok (.pshr 1 12 17 22) ∧
    decode (word 0b00001100_1_01100_10001_10110_000010_0_1) = .ok (.psha 1 12 17 22) ∧
    decode (word 0b10000000000011_01100_10001_000011_0_1) = .ok (.addi 8195 12 17) ∧
    decode (word 0b10000000000011_01100_10001_000100_0_1) = .ok (.andi 8195 12 17) ∧
    decode (word 0b10000000000011_01100_10001_000101_0_1) = .ok (.ori 8195 12 17) ∧
    decode (word 0b10000000000011_01100_10001_000110_0_1) = .ok (.xori 8195 12 17) ∧
    decode (word 0b00000000_100011_01100_10001_000111_0_1) = .ok (.shli 35 12 17) ∧
    decode (word 0b01000000_100011_01100_10001_000111_0_1) = .ok (.shri 35 12 17) ∧
    decode (word 0b10000000_100011_01100_10001_000111_0_1) = .ok (.shai 35 12 17) ∧
    decode (word 0b00_100011_100110_10001_10110_001000_0_1) = .ok (.bfxS 35 38 17 22) ∧
    decode (word 0b01_100011_100110_10001_10110_001000_0_1) = .ok (.bfxZ 35 38 17 22) ∧
    decode (word 0b10_100011_100110_10001_10110_001000_0_1) = .ok (.bfi 35 38 17 22) ∧
    decode (word 0b0000_00111_01100_10001_10110_001001_0_1) = .ok (.sel 7 12 17 22) ∧
    decode (word 0b1000000000000000011_01100_001010_0_1) = .ok (.movi 262147 12) ∧
    decode (word 0b1000000000000000011_01100_001011_0_1) = .ok (.movh 262147 12) ∧
    decode (word 0b10000000011_000_01100_10001_001100_0_1) = .ok (.beq 1027 12 17) ∧
    decode (word 0b10000000011_001_01100_10001_001100_0_1) = .ok (.bne 1027 12 17) ∧
    decode (word 0b10000000011_010_01100_10001_001100_0_1) = .ok (.blt 1027 12 17) ∧
    decode (word 0b10000000011_011_01100_10001_001100_0_1) = .ok (.bge 1027 12 17) ∧
    decode (word 0b10000000011_100_01100_10001_001100_0_1) = .ok (.bltn 1027 12 17) ∧
    decode (word 0b10000000011_101_01100_10001_001100_0_1) = .ok (.bgen 1027 12 17) := by
  refine ⟨?_, ?_, ?_, ?_, ?_, ?_, ?_, ?_, ?_, ?_, ?_, ?_, ?_, ?_, ?_, ?_, ?_, ?_, ?_, ?_, ?_, ?_, ?_, ?_, ?_, ?_⟩ <;> rfl

theorem test_decode_major_0d_to_14 :
    decode (word 0b100000000000000000000011_001101_0_1) = .ok (.jmp 8388611) ∧
    decode (word 0b100000000000000000000011_001110_0_1) = .ok (.jal 8388611) ∧
    decode (word 0b10000000000011_01100_10001_001111_0_1) = .ok (.jr 8195 12 17) ∧
    decode (word 0b10000000000011_01100_00000_010000_0_1) = .ok (.rep 8195 12) ∧
    decode (word 0b000000000000000000000000_010001_0_1) = .ok .nop ∧
    decode (word 0b000000001000000000000000_010001_0_1) = .ok .brk ∧
    decode (word 0b00000001000000_00111_00000_010001_0_1) = .ok (.trap 7) ∧
    decode (word 0b00000001100000_00111_00000_010001_0_1) = .ok (.sysc 7) ∧
    decode (word 0b000000100000000000000000_010001_0_1) = .ok .eret ∧
    decode (word 0b0_1_000000100010_00000_10001_010010_0_1) = .ok (.cwr 1 34 17) ∧
    decode (word 0b10_000000010101_01100_00000_010010_0_1) = .ok (.cww 21 12) ∧
    decode (word 0b000000000000000000000000_010011_0_1) = .ok .endTask ∧
    decode (word 0b000100000_00111_01100_00000_010011_0_1) = .ok (.arm 7 12) ∧
    decode (word 0b00100000000000_00111_01100_010011_0_1) = .ok (.disarm 7 12) ∧
    decode (word 0b0011_00111_01100_10001_00000_010011_0_1) = .ok (.waita 7 12 17) ∧
    decode (word 0b010000000_00111_01100_00000_010011_0_1) = .ok (.wake 7 12) ∧
    decode (word 0b0101000000000000000_00111_010011_0_1) = .ok (.tid 7) ∧
    decode (word 0b01100000000000_00111_01100_010011_0_1) = .ok (.prio 7 12) ∧
    decode (word 0b01110000000000_00111_00000_010011_0_1) = .ok (.defer 7) ∧
    decode (word 0b100000000000000000000000_010011_0_1) = .ok .uiret ∧
    decode (word 0b10010000000000_00111_01100_010011_0_1) = .ok (.uimask 7 12) ∧
    decode (word 0b00000000_100011_01100_10001_010100_0_1) = .ok (.spawn 35 12 17) ∧
    decode (word 0b10000000_100011_01100_10001_010100_0_1) = .ok (.spawnr 35 12 17) := by
  refine ⟨?_, ?_, ?_, ?_, ?_, ?_, ?_, ?_, ?_, ?_, ?_, ?_, ?_, ?_, ?_, ?_, ?_, ?_, ?_, ?_, ?_, ?_, ?_⟩ <;> rfl

theorem test_decode_major_15_to_17 :
    decode (word 0b00000000_00111_100110_10001_010101_0_1) = .ok (.sendR 7 38 17) ∧
    decode (word 0b00010000_00111_100110_10001_010101_0_1) = .ok (.sendM 7 38 17) ∧
    decode (word 0b00100_01_0_01100_101001_10011_010101_0_1) = .ok (.sendiR 1 12 41 19) ∧
    decode (word 0b00110_01_0_01100_101001_10110_010101_0_1) = .ok (.sendiM 1 12 41 22) ∧
    decode (word 0b01000_01_0_01100_000000_10001_010101_0_1) = .ok (.sendwR 1 12 17) ∧
    decode (word 0b01010_01_0_01100_000000_10001_010101_0_1) = .ok (.sendwM 1 12 17) ∧
    decode (word 0b01100000_00111_000000_01100_010101_0_1) = .ok (.replyR 7 12) ∧
    decode (word 0b01110000_00111_000000_01100_010101_0_1) = .ok (.replyM 7 12) ∧
    decode (word 0b100000000000000000000000_010101_0_1) = .ok .refuse ∧
    decode (word 0b0000000_001000_000011_10001_010110_0_1) = .ok (.qpeekQ 8 3 17) ∧
    decode (word 0b000100_1_100110_101001_10110_010110_0_1) = .ok (.qpeekC 1 38 41 22) ∧
    decode (word 0b0010000000000_000011_01100_010110_0_1) = .ok (.qcntQ 3 12) ∧
    decode (word 0b0011000000000_100011_01100_010110_0_1) = .ok (.qcntC 35 12) ∧
    decode (word 0b0100000000000_000101_00000_010110_0_1) = .ok (.qflushQ 5) ∧
    decode (word 0b0101000000000_100011_00000_010110_0_1) = .ok (.qflushC 35) ∧
    decode (word 0b0110000000000_100011_01100_010110_0_1) = .ok (.qbind 35 12) ∧
    decode (word 0b0111000000000_100011_01100_010110_0_1) = .ok (.chopen 35 12) ∧
    decode (word 0b1000000000000_100011_00000_010110_0_1) = .ok (.chclose 35) ∧
    decode (word 0b1001000000000_100011_01100_010110_0_1) = .ok (.chstat 35 12) ∧
    decode (word 0b0001_000_1000110_10001_10110_010111_0_1) = .ok (.ldBZ 1 70 17 22) ∧
    decode (word 0b0001_001_1000110_10001_10110_010111_0_1) = .ok (.ldBS 1 70 17 22) ∧
    decode (word 0b0001_010_1000110_10001_10110_010111_0_1) = .ok (.ldHZ 1 70 17 22) ∧
    decode (word 0b0001_011_1000110_10001_10110_010111_0_1) = .ok (.ldHS 1 70 17 22) ∧
    decode (word 0b0001_100_1000110_10001_10110_010111_0_1) = .ok (.ldWZ 1 70 17 22) ∧
    decode (word 0b0001_101_1000110_10001_10110_010111_0_1) = .ok (.ldWS 1 70 17 22) ∧
    decode (word 0b0001_110_1000110_10001_10110_010111_0_1) = .ok (.ldD 1 70 17 22) := by
  refine ⟨?_, ?_, ?_, ?_, ?_, ?_, ?_, ?_, ?_, ?_, ?_, ?_, ?_, ?_, ?_, ?_, ?_, ?_, ?_, ?_, ?_, ?_, ?_, ?_, ?_, ?_⟩ <;> rfl

theorem test_decode_major_18_to_1b :
    decode (word 0b0001_000_1000110_10001_10110_011000_0_1) = .ok (.stB 1 70 17 22) ∧
    decode (word 0b0001_010_1000110_10001_10110_011000_0_1) = .ok (.stH 1 70 17 22) ∧
    decode (word 0b0001_100_1000110_10001_10110_011000_0_1) = .ok (.stW 1 70 17 22) ∧
    decode (word 0b0001_110_1000110_10001_10110_011000_0_1) = .ok (.stD 1 70 17 22) ∧
    decode (word 0b00_0001_0_001101_000100_10110_011001_0_1) = .ok (.ldq 1 13 4 22) ∧
    decode (word 0b01_0001_0_001101_000101_10001_011001_0_1) = .ok (.stq 1 13 17) ∧
    decode (word 0b10_0001_0_001111_000011_10110_011001_0_1) = .ok (.ldff 1 15 3 22) ∧
    decode (word 0b11_0001_0_010000_000000_10001_011001_0_1) = .ok (.prf 1 16 17) ∧
    decode (word 0b00_0001_0_1000110_10001_10110_011010_0_1) = .ok (.ldsync 1 70 17 22) ∧
    decode (word 0b01_0001_0_1000110_10001_10110_011010_0_1) = .ok (.stfull 1 70 17 22) ∧
    decode (word 0b10_0001_0_1000110_10001_00000_011010_0_1) = .ok (.stempty 1 70 17) ∧
    decode (word 0b0000_0001_000000_01100_10001_011011_0_1) = .ok (.gaddr 1 12 17) ∧
    decode (word 0b0010_0001_0_01100_10001_00000_011011_0_1) = .ok (.segw 1 12 17) ∧
    decode (word 0b010_1_0010_00000000000_10001_011011_0_1) = .ok (.segr 1 2 17) := by
  refine ⟨?_, ?_, ?_, ?_, ?_, ?_, ?_, ?_, ?_, ?_, ?_, ?_, ?_, ?_⟩ <;> rfl

theorem test_decode_major_1c :
    decode (word 0b000000_001_01100_10001_10110_011100_0_1) = .ok (.vaddF32 1 12 17 22 none) ∧
    decode (word 0b000010_001_01100_10001_10110_011100_0_1) = .ok (.vsubF32 1 12 17 22 none) ∧
    decode (word 0b000100_001_01100_10001_10110_011100_0_1) = .ok (.vmulF32 1 12 17 22 none) ∧
    decode (word 0b000110_001_01100_10001_10110_011100_0_1) = .ok (.vfmaF32 1 12 17 22 none) ∧
    decode (word 0b001000_001_01100_10001_10110_011100_0_1) = .ok (.vfmsF32 1 12 17 22 none) ∧
    decode (word 0b001010_001_01100_10001_10110_011100_0_1) = .ok (.vfnmaF32 1 12 17 22 none) ∧
    decode (word 0b001100_001_01100_10001_10110_011100_0_1) = .ok (.vminF32 1 12 17 22 none) ∧
    decode (word 0b001110_001_01100_10001_10110_011100_0_1) = .ok (.vmaxF32 1 12 17 22 none) ∧
    decode (word 0b010010_001_00000_01100_10001_011100_0_1) = .ok (.vrcp 1 12 17 none) ∧
    decode (word 0b010100_001_00000_01100_10001_011100_0_1) = .ok (.vrsqrt 1 12 17 none) ∧
    decode (word 0b010110_001_00000_01100_10001_011100_0_1) = .ok (.vsqrt 1 12 17 none) ∧
    decode (word 0b011000_001_00000_01100_10001_011100_0_1) = .ok (.vexp2 1 12 17 none) ∧
    decode (word 0b011010_001_00000_01100_10001_011100_0_1) = .ok (.vlog2 1 12 17 none) ∧
    decode (word 0b011100_001_00000_01100_10001_011100_0_1) = .ok (.vtanh 1 12 17 none) ∧
    decode (word 0b011110_001_01100_10001_10110_011100_0_1) = .ok (.vcmpEqF32 1 12 17 22 none) ∧
    decode (word 0b100000_001_01100_10001_10110_011100_0_1) = .ok (.vcmpNeF32 1 12 17 22 none) ∧
    decode (word 0b100010_001_01100_10001_10110_011100_0_1) = .ok (.vcmpLtF32 1 12 17 22 none) ∧
    decode (word 0b100100_001_01100_10001_10110_011100_0_1) = .ok (.vcmpLeF32 1 12 17 22 none) ∧
    decode (word 0b100110_001_01100_10001_10110_011100_0_1) = .ok (.vselF32 1 12 17 22 none) ∧
    decode (word 0b101000_001_00000_01100_10001_011100_0_1) = .ok (.vredaddF32 1 12 17 none) ∧
    decode (word 0b101010_001_00000_01100_10001_011100_0_1) = .ok (.vredmaxF32 1 12 17 none) ∧
    decode (word 0b101100_001_00000_01100_10001_011100_0_1) = .ok (.vscanF32 1 12 17 none) := by
  refine ⟨?_, ?_, ?_, ?_, ?_, ?_, ?_, ?_, ?_, ?_, ?_, ?_, ?_, ?_, ?_, ?_, ?_, ?_, ?_, ?_, ?_, ?_⟩ <;> rfl

theorem test_decode_major_1d :
    decode (word 0b00000_1_010_10001_10110_11011_011101_0_1) = .ok (.vaddF16 1 2 17 22 27 none) ∧
    decode (word 0b00001_1_010_10001_10110_11011_011101_0_1) = .ok (.vsubF16 1 2 17 22 27 none) ∧
    decode (word 0b00010_1_010_10001_10110_11011_011101_0_1) = .ok (.vmulF16 1 2 17 22 27 none) ∧
    decode (word 0b00011_1_010_10001_10110_11011_011101_0_1) = .ok (.vfmaF16 1 2 17 22 27 none) ∧
    decode (word 0b00100_1_010_10001_10110_11011_011101_0_1) = .ok (.vfmsF16 1 2 17 22 27 none) ∧
    decode (word 0b00101_1_010_10001_10110_11011_011101_0_1) = .ok (.vfnmaF16 1 2 17 22 27 none) ∧
    decode (word 0b00110_1_010_10001_10110_11011_011101_0_1) = .ok (.vminF16 1 2 17 22 27 none) ∧
    decode (word 0b00111_1_010_10001_10110_11011_011101_0_1) = .ok (.vmaxF16 1 2 17 22 27 none) ∧
    decode (word 0b01000_1_010_10001_10110_11011_011101_0_1) = .ok (.vdotF32 1 2 17 22 27 none) ∧
    decode (word 0b01111_1_010_10001_10110_11011_011101_0_1) = .ok (.vcmpEqF16 1 2 17 22 27 none) ∧
    decode (word 0b10000_1_010_10001_10110_11011_011101_0_1) = .ok (.vcmpNeF16 1 2 17 22 27 none) ∧
    decode (word 0b10001_1_010_10001_10110_11011_011101_0_1) = .ok (.vcmpLtF16 1 2 17 22 27 none) ∧
    decode (word 0b10010_1_010_10001_10110_11011_011101_0_1) = .ok (.vcmpLeF16 1 2 17 22 27 none) ∧
    decode (word 0b10011_1_010_10001_10110_11011_011101_0_1) = .ok (.vselF16 1 2 17 22 27 none) ∧
    decode (word 0b10100_1_010_00000_10001_10110_011101_0_1) = .ok (.vredaddF16 1 2 17 22 none) ∧
    decode (word 0b10101_1_010_00000_10001_10110_011101_0_1) = .ok (.vredmaxF16 1 2 17 22 none) ∧
    decode (word 0b10110_1_010_00000_10001_10110_011101_0_1) = .ok (.vscanF16 1 2 17 22 none) := by
  refine ⟨?_, ?_, ?_, ?_, ?_, ?_, ?_, ?_, ?_, ?_, ?_, ?_, ?_, ?_, ?_, ?_, ?_⟩ <;> rfl

theorem test_decode_major_1e :
    decode (word 0b00000_1_010_10001_10110_11011_011110_0_1) = .ok (.vaddI32 1 2 17 22 27 none) ∧
    decode (word 0b00001_1_010_10001_10110_11011_011110_0_1) = .ok (.vsubI32 1 2 17 22 27 none) ∧
    decode (word 0b00010_1_010_10001_10110_11011_011110_0_1) = .ok (.vmulI32 1 2 17 22 27 none) ∧
    decode (word 0b00011_1_010_10001_10110_11011_011110_0_1) = .ok (.vminI32 1 2 17 22 27 none) ∧
    decode (word 0b00100_1_010_10001_10110_11011_011110_0_1) = .ok (.vmaxI32 1 2 17 22 27 none) ∧
    decode (word 0b00101_1_010_10001_10110_11011_011110_0_1) = .ok (.vandI32 1 2 17 22 27 none) ∧
    decode (word 0b00110_1_010_10001_10110_11011_011110_0_1) = .ok (.vorI32 1 2 17 22 27 none) ∧
    decode (word 0b00111_1_010_10001_10110_11011_011110_0_1) = .ok (.vxorI32 1 2 17 22 27 none) ∧
    decode (word 0b01000_1_010_10001_10110_11011_011110_0_1) = .ok (.vshlI32 1 2 17 22 27 none) ∧
    decode (word 0b01001_1_010_10001_10110_11011_011110_0_1) = .ok (.vshrI32 1 2 17 22 27 none) ∧
    decode (word 0b01010_1_010_10001_10110_11011_011110_0_1) = .ok (.vshaI32 1 2 17 22 27 none) ∧
    decode (word 0b01011_1_010_10001_10110_11011_011110_0_1) = .ok (.vcmpEqI32 1 2 17 22 27 none) ∧
    decode (word 0b01100_1_010_10001_10110_11011_011110_0_1) = .ok (.vcmpNeI32 1 2 17 22 27 none) ∧
    decode (word 0b01101_1_010_10001_10110_11011_011110_0_1) = .ok (.vcmpLtI32 1 2 17 22 27 none) ∧
    decode (word 0b01110_1_010_10001_10110_11011_011110_0_1) = .ok (.vcmpLeI32 1 2 17 22 27 none) ∧
    decode (word 0b01111_1_010_10001_10110_11011_011110_0_1) = .ok (.vselI32 1 2 17 22 27 none) ∧
    decode (word 0b10000_1_010_00000_10001_10110_011110_0_1) = .ok (.vredaddI32 1 2 17 22 none) ∧
    decode (word 0b10001_1_010_00000_10001_10110_011110_0_1) = .ok (.vredmaxI32 1 2 17 22 none) ∧
    decode (word 0b10010_1_010_00000_10001_10110_011110_0_1) = .ok (.vscanI32 1 2 17 22 none) := by
  refine ⟨?_, ?_, ?_, ?_, ?_, ?_, ?_, ?_, ?_, ?_, ?_, ?_, ?_, ?_, ?_, ?_, ?_, ?_, ?_⟩ <;> rfl

theorem test_decode_major_1f :
    decode (word 0b00000_1_010_10001_10110_11011_011111_0_1) = .ok (.vaddI16 1 2 17 22 27 none) ∧
    decode (word 0b00001_1_010_10001_10110_11011_011111_0_1) = .ok (.vsubI16 1 2 17 22 27 none) ∧
    decode (word 0b00010_1_010_10001_10110_11011_011111_0_1) = .ok (.vmulI16 1 2 17 22 27 none) ∧
    decode (word 0b00011_1_010_10001_10110_11011_011111_0_1) = .ok (.vminI16 1 2 17 22 27 none) ∧
    decode (word 0b00100_1_010_10001_10110_11011_011111_0_1) = .ok (.vmaxI16 1 2 17 22 27 none) ∧
    decode (word 0b00101_1_010_10001_10110_11011_011111_0_1) = .ok (.vandI16 1 2 17 22 27 none) ∧
    decode (word 0b00110_1_010_10001_10110_11011_011111_0_1) = .ok (.vorI16 1 2 17 22 27 none) ∧
    decode (word 0b00111_1_010_10001_10110_11011_011111_0_1) = .ok (.vxorI16 1 2 17 22 27 none) ∧
    decode (word 0b01000_1_010_10001_10110_11011_011111_0_1) = .ok (.vshlI16 1 2 17 22 27 none) ∧
    decode (word 0b01001_1_010_10001_10110_11011_011111_0_1) = .ok (.vshrI16 1 2 17 22 27 none) ∧
    decode (word 0b01010_1_010_10001_10110_11011_011111_0_1) = .ok (.vshaI16 1 2 17 22 27 none) ∧
    decode (word 0b01011_1_010_10001_10110_11011_011111_0_1) = .ok (.vcmpEqI16 1 2 17 22 27 none) ∧
    decode (word 0b01100_1_010_10001_10110_11011_011111_0_1) = .ok (.vcmpNeI16 1 2 17 22 27 none) ∧
    decode (word 0b01101_1_010_10001_10110_11011_011111_0_1) = .ok (.vcmpLtI16 1 2 17 22 27 none) ∧
    decode (word 0b01110_1_010_10001_10110_11011_011111_0_1) = .ok (.vcmpLeI16 1 2 17 22 27 none) ∧
    decode (word 0b01111_1_010_10001_10110_11011_011111_0_1) = .ok (.vselI16 1 2 17 22 27 none) ∧
    decode (word 0b10000_1_010_00000_10001_10110_011111_0_1) = .ok (.vredaddI16 1 2 17 22 none) ∧
    decode (word 0b10001_1_010_00000_10001_10110_011111_0_1) = .ok (.vredmaxI16 1 2 17 22 none) ∧
    decode (word 0b10010_1_010_00000_10001_10110_011111_0_1) = .ok (.vscanI16 1 2 17 22 none) ∧
    decode (word 0b10011_1_010_10001_10110_11011_011111_0_1) = .ok (.vdotDI16 1 2 17 22 27 none) := by
  refine ⟨?_, ?_, ?_, ?_, ?_, ?_, ?_, ?_, ?_, ?_, ?_, ?_, ?_, ?_, ?_, ?_, ?_, ?_, ?_, ?_⟩ <;> rfl

theorem test_decode_major_20 :
    decode (word 0b00000_1_010_10001_10110_11011_100000_0_1) = .ok (.vaddI8 1 2 17 22 27 none) ∧
    decode (word 0b00001_1_010_10001_10110_11011_100000_0_1) = .ok (.vsubI8 1 2 17 22 27 none) ∧
    decode (word 0b00010_1_010_10001_10110_11011_100000_0_1) = .ok (.vmulI8 1 2 17 22 27 none) ∧
    decode (word 0b00011_1_010_10001_10110_11011_100000_0_1) = .ok (.vminI8 1 2 17 22 27 none) ∧
    decode (word 0b00100_1_010_10001_10110_11011_100000_0_1) = .ok (.vmaxI8 1 2 17 22 27 none) ∧
    decode (word 0b00101_1_010_10001_10110_11011_100000_0_1) = .ok (.vandI8 1 2 17 22 27 none) ∧
    decode (word 0b00110_1_010_10001_10110_11011_100000_0_1) = .ok (.vorI8 1 2 17 22 27 none) ∧
    decode (word 0b00111_1_010_10001_10110_11011_100000_0_1) = .ok (.vxorI8 1 2 17 22 27 none) ∧
    decode (word 0b01000_1_010_10001_10110_11011_100000_0_1) = .ok (.vshlI8 1 2 17 22 27 none) ∧
    decode (word 0b01001_1_010_10001_10110_11011_100000_0_1) = .ok (.vshrI8 1 2 17 22 27 none) ∧
    decode (word 0b01010_1_010_10001_10110_11011_100000_0_1) = .ok (.vshaI8 1 2 17 22 27 none) ∧
    decode (word 0b01011_1_010_10001_10110_11011_100000_0_1) = .ok (.vcmpEqI8 1 2 17 22 27 none) ∧
    decode (word 0b01100_1_010_10001_10110_11011_100000_0_1) = .ok (.vcmpNeI8 1 2 17 22 27 none) ∧
    decode (word 0b01101_1_010_10001_10110_11011_100000_0_1) = .ok (.vcmpLtI8 1 2 17 22 27 none) ∧
    decode (word 0b01110_1_010_10001_10110_11011_100000_0_1) = .ok (.vcmpLeI8 1 2 17 22 27 none) ∧
    decode (word 0b01111_1_010_10001_10110_11011_100000_0_1) = .ok (.vselI8 1 2 17 22 27 none) ∧
    decode (word 0b10000_1_010_00000_10001_10110_100000_0_1) = .ok (.vredaddI8 1 2 17 22 none) ∧
    decode (word 0b10001_1_010_00000_10001_10110_100000_0_1) = .ok (.vredmaxI8 1 2 17 22 none) ∧
    decode (word 0b10010_1_010_00000_10001_10110_100000_0_1) = .ok (.vscanI8 1 2 17 22 none) ∧
    decode (word 0b10011_1_010_10001_10110_11011_100000_0_1) = .ok (.vdotDI8 1 2 17 22 27 none) := by
  refine ⟨?_, ?_, ?_, ?_, ?_, ?_, ?_, ?_, ?_, ?_, ?_, ?_, ?_, ?_, ?_, ?_, ?_, ?_, ?_, ?_⟩ <;> rfl

theorem test_decode_major_21_to_25 :
    decode (word 0b0000_01_010_10001_10110_11011_100001_0_1) = .ok (.vperm 1 2 17 22 27) ∧
    decode (word 0b0001_01_010_00000_10001_10110_100001_0_1) = .ok (.vbcastS 1 2 17 22) ∧
    decode (word 0b0010_01_010_10001_10110_11011_100001_0_1) = .ok (.vcompress 1 2 17 22 27) ∧
    decode (word 0b0011_01_010_10001_10110_11011_100001_0_1) = .ok (.vexpand 1 2 17 22 27) ∧
    decode (word 0b0100_01_000_01100_10001_10110_100001_0_1) = .ok (.vmovsToScalar 1 12 17 22) ∧
    decode (word 0b0101_01_000_01100_10001_10110_100001_0_1) = .ok (.vmovsToVector 1 12 17 22) ∧
    decode (word 0b0110_01_010_10001_10110_11011_100001_0_1) = .ok (.vext 1 2 17 22 27) ∧
    decode (word 0b0111_01_010_10001_10110_11011_100001_0_1) = .ok (.vbcastV 1 2 17 22 27) ∧
    decode (word 0b1000_01_010_00000_10001_10110_100001_0_1) = .ok (.vmov 1 2 17 22) ∧
    decode (word 0b1001_01_010_00000_00011_10110_100001_0_1) = .ok (.vpop 1 2 3 22) ∧
    decode (word 0b1010_01_010_00000_10001_00100_100001_0_1) = .ok (.vpush 1 2 17 4) ∧
    decode (word 0b00000000000000_00111_00110_100010_0_1) = .ok (.kset 7 6) ∧
    decode (word 0b0001_01_010_00000_10001_00101_100010_0_1) = .ok (.kfirst 1 2 17 5) ∧
    decode (word 0b001000000_00011_00110_00101_100010_0_1) = .ok (.kmin 3 6 5) ∧
    decode (word 0b0011_01_000_01100_00100_00110_100010_0_1) = .ok (.kpop 1 12 4 6) ∧
    decode (word 0b00000000000000_00111_01100_100011_0_1) = .ok (.gang 7 12) ∧
    decode (word 0b00010000000000_00111_00000_100011_0_1) = .ok (.gjoin 7) ∧
    decode (word 0b001000000000000000000000_100011_0_1) = .ok .gdisband ∧
    decode (word 0b0001_0010_000000_00100_00010_100100_0_1) = .ok (.cvt 1 2 4 2 none) ∧
    decode (word 0b000000001_01001_00100_00011_100100_0_1) = .ok (.fqmv 9 4 3 none) ∧
    decode (word 0b000_0001_00_01100_00100_00010_100101_0_1) = .ok (.unpackCe8 1 12 4 2) ∧
    decode (word 0b00100000_1_00011_00010_10110_100101_0_1) = .ok (.packCe8 1 3 2 22) ∧
    decode (word 0b010_0011_10_00000_00010_10110_100101_0_1) = .ok (.mxs 3 2 2 22) ∧
    decode (word 0b011_0100_10_00011_00101_11011_100101_0_1) = .ok (.mxq 4 2 3 5 27) ∧
    decode (word 0b100_1001_10_10001_00001_00011_100101_0_1) = .ok (.mxd 9 2 17 1 3) := by
  refine ⟨?_, ?_, ?_, ?_, ?_, ?_, ?_, ?_, ?_, ?_, ?_, ?_, ?_, ?_, ?_, ?_, ?_, ?_, ?_, ?_, ?_, ?_, ?_, ?_, ?_⟩ <;> rfl

theorem test_decode_major_26_to_2d :
    decode (word 0b0000_001_1101_00111_100_101_10_100110_0_1) = .ok (.mma 1 13 7 4 5 2) ∧
    decode (word 0b0001_001_1101_01011_100_101_10_100110_0_1) = .ok (.gissue 1 13 11 4 5 2) ∧
    decode (word 0b0000000000000000000000_01_100111_0_1) = .ok (.mzero 1) ∧
    decode (word 0b00010000000_00111_1_10001_01_100111_0_1) = .ok (.mrow 7 1 17 1) ∧
    decode (word 0b0010_001_1101_10001_000000_01_100111_0_1) = .ok (.mdrain 1 13 17 1) ∧
    decode (word 0b0011_001_1101_10001_000000_01_100111_0_1) = .ok (.mdrainadd 1 13 17 1) ∧
    decode (word 0b000_001_00000000_01100_00000_101000_0_1) = .ok (.ringcfg 1 12) ∧
    decode (word 0b001_001_000_01100_10001_00111_101000_0_1) = .ok (.ringpushM 1 12 17 7) ∧
    decode (word 0b010_001_000_01100_00011_00000_101000_0_1) = .ok (.ringpushQ 1 12 3) ∧
    decode (word 0b0000_0001_0_01100_10001_10110_101001_0_1) = .ok (.tsrw 1 12 17 22) ∧
    decode (word 0b000100000_00111_0000000000_101001_0_1) = .ok (.tsrinv 7) ∧
    decode (word 0b0000000000000000000_00111_101010_0_1) = .ok (.bcopy 7) ∧
    decode (word 0b0000100000000_000101_01100_101010_0_1) = .ok (.bcopyRing 5 12) ∧
    decode (word 0b0001000000000000000_00111_101010_0_1) = .ok (.bgather 7) ∧
    decode (word 0b0001100000000_000110_11011_101010_0_1) = .ok (.bgatherRing 6 27) ∧
    decode (word 0b0010000000000000000_00111_101010_0_1) = .ok (.bscatter 7) ∧
    decode (word 0b0011000000000000000_00111_101010_0_1) = .ok (.bstat 7) ∧
    decode (word 0b0000_01_1_00000000000000000_101011_0_1) = .ok (.fence 1 1) ∧
    decode (word 0b0001_01_00000000_01100_10001_101011_0_1) = .ok (.ackw 1 12 17) ∧
    decode (word 0b0001_10_0_1001001_10110_11011_101100_0_1) = .ok (.stRel 1 2 73 22 27) ∧
    decode (word 0b0001_10_0_1001001_10110_11011_101101_0_1) = .ok (.ldAcq 1 2 73 22 27) := by
  refine ⟨?_, ?_, ?_, ?_, ?_, ?_, ?_, ?_, ?_, ?_, ?_, ?_, ?_, ?_, ?_, ?_, ?_, ?_, ?_, ?_, ?_⟩ <;> rfl

theorem test_decode_major_2e_to_32 :
    decode (word 0b0000_0001_1_10001_10110_11011_101110_0_1) = .ok (.amoAdd 1 1 17 22 27) ∧
    decode (word 0b0001_0001_1_10001_10110_11011_101110_0_1) = .ok (.amoAnd 1 1 17 22 27) ∧
    decode (word 0b0010_0001_1_10001_10110_11011_101110_0_1) = .ok (.amoOr 1 1 17 22 27) ∧
    decode (word 0b0011_0001_1_10001_10110_11011_101110_0_1) = .ok (.amoXor 1 1 17 22 27) ∧
    decode (word 0b0100_0001_1_10001_10110_11011_101110_0_1) = .ok (.amoMin 1 1 17 22 27) ∧
    decode (word 0b0101_0001_1_10001_10110_11011_101110_0_1) = .ok (.amoMax 1 1 17 22 27) ∧
    decode (word 0b0110_0001_1_10001_10110_11011_101110_0_1) = .ok (.amoMinn 1 1 17 22 27) ∧
    decode (word 0b0111_0001_1_10001_10110_11011_101110_0_1) = .ok (.amoMaxn 1 1 17 22 27) ∧
    decode (word 0b1000_0001_1_10001_10110_11011_101110_0_1) = .ok (.amoSwap 1 1 17 22 27) ∧
    decode (word 0b1001_0001_1_10001_10110_11011_101110_0_1) = .ok (.amoCas 1 1 17 22 27) ∧
    decode (word 0b0_001_0010_1_10110_11011_00000_101110_0_1) = .ok (.redInteger 1 2 1 22 27) ∧
    decode (word 0b0000_0001_1_10001_10110_11011_101111_0_1) = .ok (.famoAdd 1 1 17 22 27) ∧
    decode (word 0b0001_0001_1_10001_10110_11011_101111_0_1) = .ok (.famoMin 1 1 17 22 27) ∧
    decode (word 0b0010_0001_1_10001_10110_11011_101111_0_1) = .ok (.famoMax 1 1 17 22 27) ∧
    decode (word 0b00_01_0010_1_10110_11011_00000_101111_0_1) = .ok (.redFloat 1 2 1 22 27) ∧
    decode (word 0b00_0001_000_01100_10001_10110_110000_0_1) = .ok (.bfins 1 12 17 22) ∧
    decode (word 0b01_0001_000_01100_10001_10110_110000_0_1) = .ok (.bffcs 1 12 17 22) ∧
    decode (word 0b10_0001_000_01100_10001_10110_110000_0_1) = .ok (.bfpls 1 12 17 22) ∧
    decode (word 0b0000000000000000000_00111_110001_0_1) = .ok (.tktGet 7) ∧
    decode (word 0b00010000000000_00111_01100_110001_0_1) = .ok (.tktScope 7 12) ∧
    decode (word 0b00100000000000_00111_00000_110001_0_1) = .ok (.tktVoid 7) ∧
    decode (word 0b0000000_1000011_01100_00000_110010_0_1) = .ok (.barInit 67 12) ∧
    decode (word 0b01_01_000_1000110_10001_10110_110010_0_1) = .ok (.barArr 1 70 17 22) ∧
    decode (word 0b10_01_000_1000110_10001_00000_110010_0_1) = .ok (.barWait 1 70 17) ∧
    decode (word 0b1100000_1000011_01100_00000_110010_0_1) = .ok (.barExp 67 12) := by
  refine ⟨?_, ?_, ?_, ?_, ?_, ?_, ?_, ?_, ?_, ?_, ?_, ?_, ?_, ?_, ?_, ?_, ?_, ?_, ?_, ?_, ?_, ?_, ?_, ?_, ?_⟩ <;> rfl

theorem test_decode_major_33_to_36 :
    decode (word 0b00000000000000_00111_01100_110011_0_1) = .ok (.grpJoin 7 12) ∧
    decode (word 0b00010000000000_00111_01100_110011_0_1) = .ok (.grpLeave 7 12) ∧
    decode (word 0b00100000000000_00111_01100_110011_0_1) = .ok (.grpQ 7 12) ∧
    decode (word 0b0000000000_0001_01100_00000_110100_0_1) = .ok (.semInit 1 12) ∧
    decode (word 0b0100000000_0001_01100_00000_110100_0_1) = .ok (.semPost 1 12) ∧
    decode (word 0b1000000000_0001_01100_00000_110100_0_1) = .ok (.semArm 1 12) ∧
    decode (word 0b000000000000000000000000_110101_0_1) = .ok .rndClose ∧
    decode (word 0b0001000000000000000_00111_110101_0_1) = .ok (.rndQ 7) ∧
    decode (word 0b00000000000000_00111_01100_110110_0_1) = .ok (.lmap 7 12) ∧
    decode (word 0b000100000_00111_01100_10001_110110_0_1) = .ok (.foldQ 7 12 17) := by
  refine ⟨?_, ?_, ?_, ?_, ?_, ?_, ?_, ?_, ?_, ?_⟩ <;> rfl

theorem test_decode_compact :
    decode [0b00111_01100_000010] = .ok (.compactAdd 7 12) ∧
    decode [0b00111_01100_000100] = .ok (.compactSub 7 12) ∧
    decode [0b00111_01100_000110] = .ok (.compactAnd 7 12) ∧
    decode [0b00111_01100_001000] = .ok (.compactOr 7 12) ∧
    decode [0b00111_01100_001010] = .ok (.compactMove 7 12) ∧
    decode [0b00111_01100_001100] = .ok (.compactXor 7 12) ∧
    decode [0b00111_01100_001110] = .ok (.compactAddi 7 12) ∧
    decode [0b00111_01100_010000] = .ok (.compactMovi 7 12) ∧
    decode [0b00111_01100_010010] = .ok (.compactShli 7 12) ∧
    decode [0b00111_01100_010100] = .ok (.compactShri 7 12) ∧
    decode [0b00111_01100_010110] = .ok (.compactShai 7 12) ∧
    decode [0b00111_01100_011000] = .ok (.compactAndi 7 12) ∧
    decode [0b00111_01100_011010] = .ok (.compactSlt 7 12) ∧
    decode [0b00111_01100_011100] = .ok (.compactSeq 7 12) ∧
    decode [0b00111_01100_011110] = .ok (.compactMul 7 12) ∧
    decode [0b00111_01100_100000] = .ok (.compactLdD 7 12) ∧
    decode [0b00111_01100_100010] = .ok (.compactStD 7 12) ∧
    decode [0b00111_01100_100100] = .ok (.compactBeq 7 12) ∧
    decode [0b00111_01100_100110] = .ok (.compactBne 7 12) ∧
    decode [0b0000000000101000] = .ok .compactNop ∧
    decode [0b0000000001101000] = .ok .compactBrk ∧
    decode [0b0000000010101000] = .ok .compactEnd := by
  refine ⟨?_, ?_, ?_, ?_, ?_, ?_, ?_, ?_, ?_, ?_, ?_, ?_, ?_, ?_, ?_, ?_, ?_, ?_, ?_, ?_, ?_, ?_⟩ <;> rfl

/-! ### Terms that no encoding admits: one for each test of WellFormed, and its instruction's encoding refused -/

theorem test_wf_scalar :
    wf (.cwr 0 0x006 1) = false ∧ wf (.cwr 1 0x000 1) = false ∧ wf (.cwr 1 0x022 1) = true ∧ wf (.cww 0x020 1) = false ∧ wf (.rep 0 1) = false := by
  refine ⟨?_, ?_, ?_, ?_, ?_⟩ <;> rfl

theorem test_wf_sends :
    wf (.sendR 17 1 2) = false ∧ wf (.sendR 2 1 31) = false ∧ wf (.sendR 0 1 1) = false ∧ wf (.sendR 16 1 16) = true ∧ wf (.sendM 17 1 2) = false ∧
    wf (.sendiR 3 1 1 2) = false ∧ wf (.sendiR 0 2 1 30) = false ∧ wf (.sendiM 0 17 1 2) = false ∧ wf (.sendiM 0 1 1 31) = false ∧
    wf (.sendwR 3 1 2) = false ∧ wf (.sendwR 0 2 29) = false ∧ wf (.sendwM 0 1 30) = false ∧ wf (.replyR 2 31) = false ∧ wf (.replyR 0 1) = false ∧
    wf (.replyM 17 1) = false := by
  refine ⟨?_, ?_, ?_, ?_, ?_, ?_, ?_, ?_, ?_, ?_, ?_, ?_, ?_, ?_, ?_⟩ <;> rfl

theorem test_wf_queues :
    wf (.qpeekQ 0 6 1) = false ∧ wf (.qpeekQ 9 0 1) = false ∧ wf (.qcntQ 6 1) = false ∧ wf (.qflushQ 6) = false ∧ wf (.ldq 0 0 1 2) = false ∧
    wf (.ldq 0 17 1 2) = false ∧ wf (.ldq 0 1 6 2) = false ∧ wf (.stq 0 0 1) = false ∧ wf (.stq 0 17 1) = false ∧ wf (.ldff 0 16 1 2) = false ∧
    wf (.prf 0 0 1) = false ∧ wf (.fqmv 0 1 2 none) = false ∧ wf (.fqmv 17 1 2 none) = false ∧ wf (.fqmv 1 6 2 none) = false := by
  refine ⟨?_, ?_, ?_, ?_, ?_, ?_, ?_, ?_, ?_, ?_, ?_, ?_, ?_, ?_⟩ <;> rfl

theorem test_wf_modifiers :
    wf (.vaddF32 0 1 2 3 (some 0x10000)) = false ∧ wf (.vaddF32 0 1 2 3 (some 0xFFFF)) = true ∧ wf (.vminF32 0 1 2 3 (some 1)) = false ∧
    wf (.vrcp 0 1 2 (some 0x8)) = false ∧ wf (.vrcp 0 1 2 (some 0x20)) = false ∧ wf (.vselF32 0 1 2 3 (some 1)) = false ∧ wf (.vredaddF32 0 1 2 (some 2)) = false ∧
    wf (.vaddI32 0 0 1 2 3 (some 4)) = false ∧ wf (.cvt 0 1 0 1 (some 0x20)) = false ∧ wf (.fqmv 1 0 1 (some 1)) = false := by
  refine ⟨?_, ?_, ?_, ?_, ?_, ?_, ?_, ?_, ?_, ?_⟩ <;> rfl

theorem test_wf_lanes :
    wf (.vperm 3 0 1 2 3) = false ∧ wf (.vmov 3 0 1 2) = false ∧ wf (.vpop 0 0 6 1) = false ∧ wf (.vpush 0 0 1 6) = false ∧ wf (.kset 1 8) = false ∧
    wf (.kfirst 0 0 1 8) = false ∧ wf (.kmin 8 1 1) = false ∧ wf (.kpop 0 1 6 1) = false ∧ wf (.kpop 0 1 5 8) = false := by
  refine ⟨?_, ?_, ?_, ?_, ?_, ?_, ?_, ?_, ?_⟩ <;> rfl

theorem test_wf_formats :
    wf (.cvt 0 1 0 6 none) = false ∧ wf (.cvt 8 1 0 1 none) = false ∧ wf (.cvt 0 15 0 1 none) = false ∧ wf (.cvt 1 1 0 1 none) = false ∧
    wf (.unpackCe8 4 0 1 2) = false ∧ wf (.packCe8 0 6 1 2) = false ∧ wf (.mxs 2 0 1 2) = false ∧ wf (.mxs 3 3 1 2) = false ∧ wf (.mxq 3 0 6 1 2) = false ∧
    wf (.mxd 3 0 1 2 6) = false := by
  refine ⟨?_, ?_, ?_, ?_, ?_, ?_, ?_, ?_, ?_, ?_⟩ <;> rfl

theorem test_wf_matrix_and_memory :
    wf (.mma 0 1 0 0 0 0) = false ∧ wf (.mma 2 0 0 0 0 0) = false ∧ wf (.gissue 0 0 12 0 0 0) = false ∧ wf (.mdrain 0 1 2 0) = false ∧ wf (.mdrain 0 0 31 0) = false ∧
    wf (.ringpushM 0 0 1 2) = false ∧ wf (.ringpushM 0 17 1 2) = false ∧ wf (.ringpushM 0 1 1 16) = false ∧ wf (.ringpushQ 0 1 6) = false ∧ wf (.bcopy 29) = false ∧
    wf (.bcopyRing 8 1) = false ∧ wf (.bgather 28) = false ∧ wf (.amoAdd 0 0 1 2 0) = false ∧ wf (.redFloat 3 0 0 1 2) = false ∧ wf (.bfins 0 31 1 2) = false ∧
    wf (.bffcs 0 1 2 0) = false ∧ wf (.barArr 3 0 1 2) = false ∧ wf (.barArr 0 0 31 2) = false ∧ wf (.barWait 3 0 1) = false := by
  refine ⟨?_, ?_, ?_, ?_, ?_, ?_, ?_, ?_, ?_, ?_, ?_, ?_, ?_, ?_, ?_, ?_, ?_, ?_, ?_⟩ <;> rfl

/-- The word of rep with a length of 0 is refused (02 R60 step 2, R47). -/
theorem test_decode_operand_refused : decode (word 0b00_00_000000000_00001_00000_010000_0_1) = .error (.unassigned 0x00020041) ∨
    ∃ b, decode (word 0b00_00_000000000_00001_00000_010000_0_1) = .error b := Or.inr ⟨_, rfl⟩

/-! ### States that meet the hypotheses of the statements -/

theorem witness_UnitCompletion :
    let c (n : Word) : Ctx := { Ctx.init with loop := { active := true, start := 8, stop := 16, count := n } }
    Ctx.init.loop.active = false ∧ (c 2).loop.active = true ∧ (16 : Word) = (c 2).loop.stop ∧ 1 < (c 2).loop.count.toNat ∧ (c 1).loop.count.toNat ≤ 1 ∧
    (20 : Word) ≠ (c 2).loop.stop ∧ (c 2).loop.stop < 20 ∧ (4 : Word) < (c 2).loop.start ∧ (8 : Word) ≠ (c 2).loop.stop ∧ (c 2).loop.start ≤ 8 ∧
    (8 : Word) ≤ (c 2).loop.stop := by decide

theorem witness_RegisterWriteFrame :
    (on .mc []).here.uih = false ∧ (onC .mc [] fun c => { c with uih := true }).here.uih = true ∧ 24 ≤ 31 ∧ (0 : Nat) ≠ (5 : BitVec 5).toNat := by decide

theorem witness_ComputedRegisters :
    computed (on .mc [(1, 7), (2, 0x100)]).here (.shl 2 1 3) = some (4, (3 : BitVec 5), (7 : Word) <<< 0x100) ∧
    computed (on .mc [(1, 7)]).here (.div 0 1 0) = some (4, 0, BitVec.allOnes 64) ∧ computed (on .mc [(5, 7)]).here (.compactAdd 5 5) = some (2, 5, 14) := by
  refine ⟨?_, ?_, ?_⟩ <;> rfl

theorem witness_BitFields : (fieldBit (on .mc []).here 0 (.bfxZ 63 63 1 2)).isSome = true ∧ (fieldBit (on .mc []).here 0 (.bfxS 0 0 1 2)).isSome = true ∧
    (fieldBit (on .mc []).here 0 (.bfi 63 1 1 2)).isSome = true := by refine ⟨?_, ?_, ?_⟩ <;> rfl

theorem witness_PackedForms : ∃ g, packedForm (.padd 0 1 2 3) = some (0, 1, 2, 3, g) ∧ ∃ g, packedForm (.psha 1 1 2 3) = some (1, 1, 2, 3, g) :=
  ⟨_, rfl, _, rfl⟩

theorem witness_Branches : branchOf (on .mc []).here (.beq 0x7FF 0 1) = some (4, -1, true) ∧ branchOf (on .mc [(1, 1)]).here (.beq 0x400 0 1) = some (4, -1024, false) ∧
    branchOf (on .mc []).here (.compactBeq 1 1) = some (2, 1, true) := by refine ⟨?_, ?_, ?_⟩ <;> rfl

theorem witness_JumpsWithLink : ((on .mc [(1, 8)]).here.reg 1 + (0 : BitVec 14).signExtend 64).getLsbD 0 = false ∧
    ((on .mc [(1, 8)]).here.reg 1 + (0x3FFF : BitVec 14).signExtend 64).getLsbD 0 = true := by decide

/-- The core of a context has both entry addresses. -/
def entries (s : State) : State := s.modCore s.cur.core fun k => { k with tvecK := 0x40, tvecH := 0x80 }

theorem witness_TrapTaken :
    let s := entries (on .mc [])
    (enteredBank s s.cur causeProt).tnest = false ∧ trapEntry s s.cur causeProt = 0x40 ∧ trapEntry s s.cur causeProt ≠ 0 ∧ (s.ctx s.cur).gang = none ∧
    (let s := entries (onC .mc [] fun c => { c with level := 1 })
     (enteredBank s s.cur causePage).tnest = false ∧ trapEntry s s.cur causePage = 0x80 ∧ (s.ctx s.cur).gang = none) := by decide

theorem witness_DoubleTrap : trapEntry (on .mc []) (id0 .mc) causeProt = 0 ∧
    (enteredBank (entries (onC .mc [] fun c => { c with kbank := { c.kbank with tnest := true } })) (id0 .mc) causeBrk).tnest = true ∧
    (on .mc []).parts.get? ((on .mc []).partOf (id0 .mc).core) = some (Partition.init 0 0) := by decide

theorem witness_DecodeTests :
    let f := formGdisband
    let masked (s : State) := f.feats.find? fun n => decide (s.here.level.toNat < 2) && (s.here.task.elim 0 Task.prof).getLsbD n
    masked (onC .ac [] fun c => { c with task := some { oneTileTask with prof := 0xFE } }) = some 3 ∧ masked (on .mc []) = none ∧ masked (on .ac []) = none ∧
    (on .mc []).cur.core.r ∉ f.roles ∧ (on .ac []).cur.core.r ∈ f.roles ∧ Passes (on .ac []) f.roles f.level f.feats ∧
    (on .mc []).here.level.toNat < (formCwr 0 1 1).level ∧ (on .mc []).cur.core.r ∈ (formCwr 0 1 1).roles ∧ (formCwr 0 1 1).feats = [] := by
  refine ⟨rfl, rfl, rfl, ?_, ?_, ?_, ?_, ?_, ?_⟩ <;> first | decide | (simp [Passes]; decide)

theorem witness_TrappingUnits : stqElsewhere 0 = false ∧ stqElsewhere 0x40080065 = true := by decide

theorem witness_EretReturns :
    (on .mc []).here.level = 0 ∧
    (let s := onC .mc [] fun c => { c with level := 1, kbank := { c.kbank with plevel := 0, tnest := true } }
     s.here.level ≠ 0 ∧ s.here.isNotice = false ∧ s.here.kbank.plevel ≤ s.here.level) ∧
    (let s := onC .mc [] fun c => { c with level := 1, kbank := { c.kbank with plevel := 2 } }
     s.here.level ≠ 0 ∧ s.here.isNotice = false ∧ s.here.level < s.here.kbank.plevel) ∧
    (onC .mc [] fun c => { c with level := 1, task := some { oneTileTask with kind := .notice } }).here.isNotice = true := by decide

theorem witness_ControlWords :
    Role.mc ∉ wordRoles 0x010 ∧ Role.ac ∈ wordRoles 0x010 ∧ Role.mc ∈ wordRoles 0x000 ∧ (on .mc []).here.level.toNat < readLevel 0x001 ∧
    readLevel 0x000 ≤ (on .mc []).here.level.toNat ∧ (on .mc []).here.level.toNat < writeLevel 0x000 ∧ writeLevel 0x005 ≤ (on .mc []).here.level.toNat ∧
    writeLevel 0x031 ≤ (onC .mc [] fun c => { c with level := 2 }).here.level.toNat ∧ (on .mc []).cur.core.r ≠ .steward ∧
    kept 0x033 0 = some 1024 ∧ wordRead (on .mc []) 0x016 = some 0 := by decide

theorem witness_Locating :
    let s := on .mc []
    let inside (g : Nat) (off : Word) (size : Nat) : Prop := size ≤ ((s.here.seg g).limit.extractLsb' 0 49).toNat ∧ off.toNat ≤ ((s.here.seg g).limit.extractLsb' 0 49).toNat - size
    ¬inside 0 0xFF9 8 ∧ inside 0 0xFF8 8 ∧ (s.here.seg 0).limit.getLsbD 62 = true ∧ (s.here.seg 0).limit.getLsbD 63 = true ∧ (s.here.seg 4).limit.getLsbD 63 = false ∧
    (s.here.seg 0).limit.getLsbD 61 = false ∧ (s.here.seg 1).limit.getLsbD 61 = true ∧ 0xFF9 % 8 ≠ 0 ∧ s.gridSize s.cur.core.l = 2 ∧
    ¬(2 ≤ ((s.here.seg 1).base).toNat / 2 ^ 20 % 2 ^ 20) := by decide

theorem witness_WherePerformed : (0 : Nat) < 8 ∧ 8 ≤ 8 ∧ (0x20000FFFF8 : Word).toNat % 8 = 0 ∧ 2 ^ 20 % 8 = 0 ∧ (0x20000FFFF8 : Word).toNat / 2 ^ 40 ≠ 0x10 ∧ (0x100000000008 : Word).toNat / 2 ^ 40 = 0x10 ∧ (0x100000000008 : Word).toNat / 2 ^ 20 % 2 ^ 20 = (on .mc []).cur.core.t ∧
    (0x100000100000 : Word).toNat / 2 ^ 20 % 2 ^ 20 ≠ (on .mc []).cur.core.t := by decide

/-- An access of the first task at its own home. -/
theorem witness_AtOnce : Passes (on .mc []) [.mc] 0 [] ∧ AtOnce (on .mc []) := by
  refine ⟨?_, rfl, rfl, _, _, rfl, ?_⟩
  · simp [Passes]; decide
  · intro k h; obtain rfl := Option.some.inj h; refine ⟨rfl, ?_, Or.inr rfl⟩; intro x hx; exact absurd hx List.not_mem_nil

theorem witness_LoadsAtHome :
    let s := on .mc [(1, 0xFF8)]
    loadOf s.here (.ldD 0 0 1 2) = some (formLdD 0 0 1 2, 0, 0xFF8, 8, false, 2, none) ∧ s.locate 0 0xFF8 8 8 true false = .ok (.pad 0xFF8) ∧
    AtOwnHome s (.pad 0xFF8) 0xFF8 8 ∧ Granted s [.lr] false 0xFF8 8 ∧
    loadOf s.here (.ldAcq 3 2 0 0 2) = some (formLdAcq 3 2 0 0 2, 3, 0, 8, false, 2, some 2) ∧ s.locate 3 0 8 8 true false = .ok (.global 0x100000000000) ∧
    AtOwnHome s (.global 0x100000000000) 0 8 := by
  refine ⟨rfl, rfl, ⟨rfl, rfl⟩, rfl, rfl, rfl, rfl, rfl⟩

theorem witness_LoadsAndStoresDenied :
    let s := onT .mc [(1, 0x1000)] fun t => { t with prot := List.replicate 8 0 }
    loadOf s.here (.ldBZ 0 0 1 2) = some (formLdBZ 0 0 1 2, 0, 0x1000, 1, false, 2, none) ∧ s.locate 0 0x1000 1 1 true false = .error (causeSeglim, 0x1000) ∧
    storeOf s.here (.stD 4 0 0 2) = some (formStD 4 0 0 2, 4, 0, 8, 0, .keep, none) ∧ s.locate 4 0 8 8 false true = .error (causeRights, 0) ∧
    s.locate 0 0xFFF 1 1 true false = .ok (.pad 0xFFF) ∧ AtOwnHome s (.pad 0xFFF) 0xFFF 1 ∧ ¬Granted s [.lr] false 0xFFF 1 ∧ ¬Granted s [.lw] true 0xFFF 1 ∧
    s.locate 0 0xFFF 1 1 false true = .ok (.pad 0xFFF) := by
  refine ⟨rfl, rfl, rfl, rfl, rfl, ⟨rfl, rfl⟩, ?_, ?_, rfl⟩ <;> exact fun h => nomatch h

theorem witness_StoresAtHome :
    let s := on .mc [(1, 0xFFF)]
    storeOf s.here (.stB 0 0 1 2) = some (formStB 0 0 1 2, 0, 0xFFF, 1, 0, .keep, none) ∧ s.locate 0 0xFFF 1 1 false true = .ok (.pad 0xFFF) ∧
    AtOwnHome s (.pad 0xFFF) 0xFFF 1 ∧ Granted s [.lw] true 0xFFF 1 ∧ storeOf s.here (.stRel 0 3 0 0 2) = some (formStRel 0 3 0 0 2, 0, 0, 8, 0, .keep, some 3) ∧
    s.unacked (s.scopeSet 3) = 0 ∧ s.hostLinks = [] ∧ s.locate 0 ((0 : Word) + (0 : BitVec 7).signExtend 64 * 8) 8 8 false true = .ok (.pad 0) ∧
    AtOwnHome s (.pad 0) 0 8 ∧ Granted s [.lw] true 0 8 := by
  refine ⟨rfl, rfl, ⟨rfl, rfl⟩, rfl, rfl, rfl, rfl, rfl, ⟨rfl, rfl⟩, rfl⟩

theorem witness_LoadsAndStoresElsewhere :
    let s := on .mc []
    s.locate 1 0 8 8 true false = .ok (.global 0x100000100000) ∧ s.locate 1 0 8 8 false true = .ok (.global 0x100000100000) ∧
    s.pieces s.cur.core (.global 0x100000100000) 8 = [.tile ⟨0, 1⟩ 0 8 0] ∧ s.permitted s.cur.core = true ∧
    loadOf s.here (.ldD 1 0 0 2) = some (formLdD 1 0 0 2, 1, 0, 8, false, 2, none) ∧ storeOf s.here (.stD 1 0 0 2) = some (formStD 1 0 0 2, 1, 0, 8, 0, .keep, none) ∧
    (s.outstanding s.uid).length < 256 ∧ s.takeSeq ≠ none := by
  refine ⟨rfl, rfl, rfl, rfl, rfl, rfl, by decide, fun h => nomatch h⟩

theorem witness_AtomicsAtHome :
    let s := on .mc []
    (∃ r, atomicOf s.here (.amoAdd 0 1 1 2 3) = some (formAmoAdd 0 1 1 2 3, 0, 2, 8, some 3, r)) ∧ (∃ r, atomicOf s.here (.bfins 0 1 2 0) = some (formBfins 0 1 2 0, 0, 2, 8, none, r)) ∧
    (∃ r, atomicOf s.here (.redInteger 7 0 0 1 2) = some (formRedInteger 7 0 0 1 2, 0, 2, 4, none, r)) ∧
    s.locate 0 0 8 8 true true = .ok (.pad 0) ∧ s.locate 0 0 4 4 true true = .ok (.pad 0) ∧ AtOwnHome s (.pad 0) 0 8 ∧ Granted s [.lr, .lw] true 0 8 := by
  refine ⟨⟨_, rfl⟩, ⟨_, rfl⟩, ⟨_, rfl⟩, rfl, rfl, ⟨rfl, rfl⟩, rfl⟩

theorem witness_FloatAtomicsAtHome :
    let s := on .mc []
    floatAtomicOf s.here (.famoAdd 0 1 1 2 3) = some (formFamoAdd 0 1 1 2 3, 0, 2, 1, some 3, 0, 0) ∧ s.locate 0 0 2 2 true true = .ok (.pad 0) ∧
    AtOwnHome s (.pad 0) 0 2 ∧ Granted s [.lr, .lw] true 0 2 ∧ s.cur.c < 4 ∧ s.here.task ≠ none ∧
    (∀ j, j < 4 → j ≠ s.cur.c → ((s.ctx ⟨s.cur.core, j⟩).task.map Task.uid) ≠ some s.uid) := by
  refine ⟨rfl, rfl, ⟨rfl, rfl⟩, rfl, by decide, fun h => (nomatch h), by decide⟩

theorem witness_LoadsTranslated :
    let s := on .mc []
    loadOf s.here (.ldBS 2 0x7F 1 2) = some (formLdBS 2 0x7F 1 2, 2, BitVec.allOnes 64, 1, true, 2, none) ∧ s.locate 2 0 8 8 true false = .ok (.global 0x200000000000) ∧
    s.pieces s.cur.core (.global 0x200000000000) 8 = [.xlat 0x200000000000 8 0] ∧ s.parts.get? s.hereCore.ptag ≠ none ∧
    ({ s with parts := [] } : State).parts.get? s.hereCore.ptag = none ∧ loadOf s.here (.ldD 2 0 0 2) = some (formLdD 2 0 0 2, 2, 0, 8, false, 2, none) := by
  refine ⟨rfl, rfl, rfl, Option.isSome_iff_ne_none.mp rfl, rfl, rfl⟩

theorem witness_AnswersComplete :
    let s (need : Nat) := onC .mc [] fun c => { c with phase := .busy 7 need (List.replicate 8 0) 4 false (.scalar 2 8 false) }
    ((s 1).ctx ⟨(s 1).me.core, (s 1).me.ctx⟩).phase = .busy 7 1 (List.replicate 8 0) 4 false (.scalar 2 8 false) ∧
    ((s 2).ctx ⟨(s 2).me.core, (s 2).me.ctx⟩).phase = .busy 7 2 (List.replicate 8 0) 4 false (.scalar 2 8 false) ∧ (8 : Nat) ≠ 7 := by
  refine ⟨rfl, rfl, by decide⟩

/-- A tile whose queue q holds n entries open to every task. -/
def withEntries (q n : Nat) (t : Tile) : Tile :=
  { t with queues := t.queues.set q { Queue.init with entries := List.replicate n { data := 0x11, tag := false, owner := none } } }

theorem witness_QueueLoads :
    let s := on .mc [(1, 0x40)]
    Passes s (formLdq 0 16 1 1).roles 0 [] ∧ s.locate 0 (s.here.reg 1) (64 * 16) 64 true false = .ok (.pad 0x40) ∧ s.hasRoom s.cur.core.tile 1 s.uid 16 = true ∧
    AtOwnHome s (.pad 0x40) 0x40 (64 * 16) ∧ Granted s [.lr] false 0x40 (64 * 16) ∧
    (onT .mc [] (withEntries 1 16)).hasRoom ⟨0, 0⟩ 1 0 1 = false ∧ Passes s (formLdff 0 15 1 1).roles 0 [] ∧ s.hasRoom s.cur.core.tile 1 s.uid (15 + 1) = true ∧
    64 * 15 ≤ (s.here.seg 0).size - 0x40 ∧ (s.here.seg 0).canRead = true ∧ (s.here.seg 0).isGlobal = false ∧ s.ownPending s.cur.core = false ∧
    (s.here.seg 0).size - 0xFC0 < 64 * 2 ∧ Granted s [.lr] false 0xFC0 64 := by
  refine ⟨?_, rfl, rfl, ⟨rfl, rfl⟩, rfl, rfl, ?_, rfl, by decide, rfl, rfl, rfl, by decide, rfl⟩ <;> simp [Passes] <;> decide

theorem witness_QueueStores :
    let s := onT .mc [(1, 0x40)] (withEntries 5 16)
    Passes s (formStq 0 16 1).roles 0 [] ∧ s.popping s.cur 5 = false ∧ ((s.tile s.cur.core.tile).queue 5).has s.uid 16 = true ∧
    (((on .mc []).tile ⟨0, 0⟩).queue 5).has 0 1 = false ∧ s.locate 0 (s.here.reg 1) (64 * 16) 64 false true = .ok (.pad 0x40) ∧
    AtOwnHome s (.pad 0x40) 0x40 (64 * 16) ∧ Granted s [.lw] true 0x40 (64 * 16) ∧ AtOnce s := by
  refine ⟨?_, rfl, rfl, rfl, rfl, ⟨rfl, rfl⟩, rfl, rfl, rfl, _, _, rfl, ?_⟩
  · simp [Passes]; decide
  · intro k h; obtain rfl := Option.some.inj h; refine ⟨rfl, ?_, Or.inr rfl⟩; intro x hx; exact absurd hx List.not_mem_nil

theorem witness_SyncLoads :
    let s := onT .mc [] fun t => { t with full := [0] }
    s.locate 0 (s.here.reg 0 + (0 : BitVec 7).signExtend 64 * 8) 8 8 true false = .ok (.pad 0) ∧ AtOwnHome s (.pad 0) 0 8 ∧ Granted s [.lr] false 0 8 ∧
    (s.view (.tile s.cur.core.tile) s.me).full.contains 0 = true ∧ ((on .mc []).view (.tile ⟨0, 0⟩) (on .mc []).me).full.contains 0 = false ∧
    s.pieces s.cur.core (.global 0x200000000000) 8 = [.xlat 0x200000000000 8 0] := by
  refine ⟨rfl, ⟨rfl, rfl⟩, rfl, rfl, rfl, rfl⟩

theorem witness_SegmentUnits :
    let s := on .mc [(1, 0xFFF), (2, 0x1000), (3, 0)]
    let k := s.modCore s.cur.core fun c => { c with binds := [(0, { base := 0, limit := 0xC000000000001000 })] }
    (s.here.reg 1).toNat < ((s.here.seg 0).limit.extractLsb' 0 49).toNat ∧ ((s.here.seg 0).limit.extractLsb' 0 49).toNat ≤ (s.here.reg 2).toNat ∧
    ((k.core k.cur.core).bindOf 0).limit = 0xC000000000001000 ∧ (s.here.reg 3).extractLsb' 49 12 = 0 := by
  refine ⟨by decide, by decide, rfl, rfl⟩

theorem witness_FencesAndAcks :
    let s := on .mc []
    let p : Posted := { wid := 1, by_ := s.me, home := .tile ⟨0, 0⟩, addr := 0 }
    let x : Xfer := { id := 1, by_ := s.me, key := none, type := 0, drain := none, todo := [], writes := [], waits := 1, ring := none, notice := ⟨0, 0⟩, told := false }
    Passes s [.mc, .fc, .ac, .steward] 0 [] ∧ s.unacked (s.scopeSet 0) = 0 ∧ s.hostLinks = [] ∧ s.engineBusy s.uid = false ∧
    ({ s with xfers := [x] } : State).engineBusy s.uid = true ∧ ({ s with posted := [p] } : State).unacked (s.scopeSet 0) = 1 ∧ (0 : Word).toNat < 1 := by
  refine ⟨?_, rfl, rfl, rfl, rfl, rfl, by decide⟩; simp [Passes]; decide


/-! Vector lanes, gangs and the format core. -/

/-- A task on the array core that leads a gang of two. -/
def gang2 (xs : List (BitVec 5 × Word)) : State :=
  ((on .ac xs).modCtx (id0 .ac) fun c => { c with gang := some { size := 2, members := [⟨0, 1⟩] } }).modCore ⟨0, 1, .ac⟩ fun k =>
    { k with follows := some { leader := id0 .ac, v := Vector.replicate 32 0, k := Vector.replicate 8 64 } }

theorem witness_GangSound : GangSound (on .ac []) ∧ GangSound (gang2 []) ∧ (gang2 []).gangSize = 2 := by
  refine ⟨⟨by decide, rfl, fun j h1 h2 => absurd (show j < 1 from h2) (by omega)⟩, ⟨by decide, rfl, fun j h1 h2 => ?_⟩, rfl⟩
  obtain rfl : j = 1 := by have : j < 2 := h2; omega
  exact Option.isSome_iff_ne_none.mp rfl

theorem witness_LanewiseUnits :
    (∃ u, vectorOf (gang2 []).here (.vaddF32 0 1 2 3 none) = some u ∧ Passes (gang2 []) u.form.roles 0 u.form.feats) ∧
    (∃ u, vectorOf (on .ac []).here (.vcmpLtI8 1 7 1 2 3 none) = some u ∧ Passes (on .ac []) u.form.roles 0 u.form.feats) := by
  refine ⟨⟨_, rfl, ?_⟩, ⟨_, rfl, ?_⟩⟩ <;> simp [Passes] <;> decide

theorem witness_Reductions :
    (∃ f n, reductionOf (gang2 []).here (.vredaddF32 0 2 3 none) = some (f, 32, 0, 2, 3, 2 ^ 31, n) ∧ Passes (gang2 []) f.roles 0 f.feats) ∧
    (gang2 []).gangSize * (512 / 32) = 2 ^ 5 ∧ (on .ac []).gangSize * (512 / 8) = 2 ^ 6 ∧
    (∃ f n, reductionOf (on .ac []).here (.vredmaxI8 0 0 2 3 none) = some (f, 8, 0, 2, 3, 2 ^ 7, n)) := by
  refine ⟨⟨_, _, rfl, ?_⟩, rfl, rfl, ⟨_, _, rfl⟩⟩; simp [Passes]; decide

theorem witness_Scans :
    ∃ f n x, scanOf (on .ac []).here (.vscanI8 1 0 2 3 none) = some (f, 8, 0, 2, 3, 0, n, x) ∧ Passes (on .ac []) f.roles 0 f.feats ∧
      (on .ac []).gangSize * (512 / 8) = 2 ^ 6 := by refine ⟨_, _, _, rfl, ?_, rfl⟩; simp [Passes]; decide

theorem witness_LaneMoves : Passes (on .ac []) [.ac] 0 [] ∧ (on .ac []).gangSize * (512 / wd 0) ≤ ((on .ac [(1, 16)]).here.reg 1).toNat ∧
    ((on .ac [(1, 15)]).here.reg 1).toNat < (on .ac []).gangSize * (512 / wd 0) := by
  refine ⟨?_, by decide, by decide⟩; simp [Passes]; decide

theorem witness_VectorPops :
    let s := onT .ac [] (withEntries 2 1)
    Passes s (formVpop 0 0 2 1).roles 0 [] ∧ s.gangSize = 1 ∧ ((s.tile (memberTile s 0)).queue 2).has s.uid 1 = true ∧ (s.head 0 2).tag = false ∧
    (((on .ac []).tile (memberTile (on .ac []) 0)).queue 2).has 0 1 = false ∧
    ((onT .ac [] fun t => { t with queues := [(2, { Queue.init with entries := [{ data := 0, tag := true, owner := none }] })] }).head 0 2).tag = true := by
  refine ⟨?_, rfl, rfl, rfl, rfl, rfl⟩; simp [Passes]; decide

theorem witness_VectorPushes :
    let s := on .ac []
    Passes s (formVpush 0 0 1 4).roles 0 [] ∧ s.hasRoom (memberTile s 0) 4 s.uid 1 = true ∧
    (onT .ac [] (withEntries 4 16)).hasRoom ⟨0, 0⟩ 4 0 1 = false := by
  refine ⟨?_, rfl, rfl⟩; simp [Passes]; decide

theorem witness_PredicateUnits :
    let s := on .ac [(1, 0x13E), (2, 0x20), (3, 0x10E)]
    let c : QEntry := { data := 64, tag := true, owner := none }
    let t := onT .ac [] fun t => { t with queues := [(2, { Queue.init with entries := [c] })] }
    Passes s [.ac] 0 [] ∧ Passes s (formKpop 0 1 2 1).roles 0 [] ∧ (7 : BitVec 5).toNat < 8 ∧ 14 < (s.here.reg 1).toNat % 64 ∧ s.here.reg 1 &&& ~~~0x13F = 0 ∧
    s.here.reg 3 &&& ~~~0x13F = 0 ∧ (s.here.reg 3).toNat % 64 ≤ 14 ∧ ((t.tile (memberTile t 0)).queue 2).has t.uid 1 = true ∧ (t.head 0 2).tag = true := by
  refine ⟨?_, ?_, by decide, by decide, rfl, rfl, by decide, rfl, rfl⟩ <;> simp [Passes] <;> decide

theorem witness_GangUnits :
    let s := (on .ac [(1, 2), (2, 5), (3, 4), (4, 0x1FF02)]).modCore ⟨0, 1, .ac⟩ fun k => { k with offer := some { size := 2, entry := 0, notify := false, ready := true } }
    Passes s [.ac] 0 [3] ∧ s.inGang s.cur.core = false ∧ (gang2 []).inGang (id0 .ac).core = true ∧ (s.here.reg 1).toNat / 16 = 0 ∧ (s.here.reg 1).toNat % 16 = 2 ∧
    (s.here.reg 2).toNat % 16 ≠ 2 ∧ s.gridX s.cur.core.l = 2 ∧ s.resident ⟨0, 1⟩ = true ∧
    (s.core ((⟨0, 1⟩ : TileId).core .ac)).offer = some { size := 2, entry := 0, notify := false, ready := true } ∧ (on .ac []).hereCore.offer = none ∧
    ((on .ac []).core ⟨0, 1, .ac⟩).offer = none ∧
    (let t := { s with cur := ⟨⟨0, 1, .ac⟩, 0⟩ }
     t.cur.core.t % 2 % 2 ≠ 0 ∧ (s.here.reg 4) &&& ~~~0x1FF0F = 0 ∧ (s.here.reg 4).toNat % 16 = 2) ∧ s.here.gang = none ∧
    (gang2 []).here.gang = some { size := 2, members := [⟨0, 1⟩] } := by
  refine ⟨?_, rfl, rfl, rfl, rfl, by decide, rfl, rfl, rfl, rfl, rfl, ⟨by decide, rfl, rfl⟩, rfl, rfl⟩; simp [Passes]; decide

theorem witness_Conversions :
    let s := onT .fc [] (withEntries 0 3)
    let f := formCvt 2 0 0 2 none
    Passes s f.roles 0 (f.feats ++ []) ∧ unitOf 32 16 = 32 ∧ Streams s 0 2 2 1 ∧ Streams (onT .fc [] (withEntries 0 3)) 0 3 2 4 ∧ unitOf 6 8 = 256 ∧
    Passes s (formFqmv 3 0 2 none).roles 0 (formFqmv 3 0 2 none).feats ∧ ((s.tile s.cur.core.tile).queue 0).has s.uid 3 = true ∧
    s.hasRoom s.cur.core.tile 2 s.uid 3 = true := by
  refine ⟨?_, rfl, ⟨rfl, rfl, rfl, rfl, by decide⟩, ⟨rfl, rfl, rfl, rfl, by decide⟩, rfl, ?_, rfl, rfl⟩ <;> simp [Passes] <;> decide

theorem witness_ConversionTests :
    let s := onT .fc [] (withEntries 0 2)
    let q (f : Queue → Queue) (n : Nat) := onT .fc [] fun t => let t := withEntries 0 2 t; { t with queues := t.queues.set n (f (t.queue n)) }
    ((((q (fun x => { x with cursor := 8 }) 0).tile ⟨0, 0⟩).queue 0).cursor ≠ 0) ∧ ((((q (fun x => { x with pack := [1] }) 2).tile ⟨0, 0⟩).queue 2).pack ≠ []) ∧
    ((s.tile ⟨0, 0⟩).queue 0).has s.uid 2 = true ∧ s.hasRoom ⟨0, 0⟩ 2 s.uid 1 = true ∧ (((on .fc []).tile ⟨0, 0⟩).queue 0).has 0 2 = false ∧
    (∃ e ∈ (((q (fun x => { x with entries := x.entries.map fun e => { e with tag := true } }) 0).tile ⟨0, 0⟩).queue 0).front 0 2, e.tag = true) := by
  refine ⟨by decide, by decide, rfl, rfl, rfl, ⟨_, List.mem_cons_self, rfl⟩⟩

theorem witness_BlocksUnpackAsPacked : (List.replicate 64 255).length = 64 ∧ ∀ v ∈ List.replicate 64 255, v < 256 := by decide

theorem witness_BlockUnits :
    let s := onT .fc [(1, 0x78), (2, 0x00)] (withEntries 0 2)
    Passes s (formPackCe8 1 2 0 3).roles 0 (formPackCe8 1 2 0 3).feats ∧ ((s.tile s.cur.core.tile).queue 0).cursor = 0 ∧
    ((s.tile s.cur.core.tile).queue 0).has s.uid 1 = true ∧ s.hasRoom s.cur.core.tile 2 s.uid 2 = true ∧
    (∀ x ∈ ((s.tile s.cur.core.tile).queue 0).front s.uid 1, x.tag = false) ∧
    Passes s (formUnpackCe8 0 1 0 2).roles 0 (formUnpackCe8 0 1 0 2).feats ∧ elemType 0 = .float fmtF32 ∧ (s.here.reg 1).toNat / 128 = 0 ∧
    (s.here.reg 1).toNat % 8 = 0 ∧ (s.here.reg 1).getLsbD 6 = true ∧ (s.here.reg 2).getLsbD 6 = false ∧ ((s.tile s.cur.core.tile).queue 2).pack = [] ∧
    s.popping s.cur 0 = false ∧ s.hasRoom s.cur.core.tile 2 s.uid (32 / 8) = true ∧ ((s.tile s.cur.core.tile).queue 0).has s.uid 2 = true ∧ fmtF32.width % 8 = 0 := by
  refine ⟨?_, rfl, rfl, rfl, by decide, ?_, rfl, rfl, rfl, rfl, rfl, rfl, rfl, rfl, rfl, rfl⟩ <;> simp [Passes] <;> decide

theorem witness_MxUnits :
    let s := onT .fc [] (withEntries 0 16)
    unitOf fmtF32.width (elemType 3).width = 64 ∧ 64 % 32 = 0 ∧ Passes s (formMxs 3 0 0 1).roles 0 (formMxs 3 0 0 1).feats ∧
    Passes s (formMxq 3 0 2 0 1).roles 0 ((formMxq 3 0 2 0 1).feats ++ []) ∧ Streams s 0 4 2 1 ∧ Streams s 0 1 2 4 ∧
    Passes s (formMxd 3 0 1 0 2).roles 0 ((formMxd 3 0 1 0 2).feats ++ []) ∧ unitOf fmtF32.width (elemType 5).width % 32 = 0 ∧
    unitOf fmtF16.width (elemType 7).width % 32 = 0 := by
  refine ⟨rfl, rfl, ?_, ?_, ⟨rfl, rfl, rfl, rfl, by decide⟩, ⟨rfl, rfl, rfl, rfl, by decide⟩, ?_, rfl, rfl⟩ <;> simp [Passes] <;> decide

/-! The array core, rings, shape records and the engine. -/

/-- Ring 0 of two one-line slots from line 0, ring 1 from line 16, both with published slots. -/
def withRings (filler pub : Nat) (t : Tile) : Tile :=
  { t with rings := [(0, { Ring.init with en := true, lines := 8, slots := 2, filler := filler, pub := pub }),
                     (1, { Ring.init with en := true, base := 16, lines := 8, slots := 2, filler := filler, pub := pub })] }

theorem witness_MatrixIssue :
    let s := (onT .ac [] (withRings 0 1)).modCtx (id0 .ac) fun c => { c with fmta := 9, fmtb := 9 }
    Passes s [.ac] 0 [] ∧ Passes s [.ac] 0 [3] ∧ s.gangTiles.Nodup ∧ [s.cur.core.tile].Nodup ∧ (∀ y ∈ s.gangTiles, (s.tile y).ops.length < 4) ∧
    s.here.maskedFormats s.here.fmta s.here.fmtb = none ∧ s.matrixFault s.here.fmta s.here.fmtb false 10 8 0 1 = none ∧
    s.matrixFault s.here.fmta s.here.fmtb true 10 8 0 1 = some 3 ∧
    4 ≤ ((onT .ac [] fun t => { t with ops := List.replicate 4 { kind := .zero, acc := 0, by_ := s.me } }).tile ⟨0, 0⟩).ops.length := by
  refine ⟨?_, ?_, by decide, by decide, by decide, rfl, rfl, rfl, by decide⟩ <;> simp [Passes] <;> decide

theorem witness_MatrixElements : (31 : Nat) < 32 ∧ (shapeOf 10).1 ≤ 31 ∧ 7 < (shapeOf 10).1 ∧ 7 < (shapeOf 10).2.1 ∧ (9 : BitVec 5) = 9 := by decide

/-- A shape record of sixteen .f32 elements (10 R311), in slot 0 with generation 1. -/
def rec16 : List Word := [0, 15, 0, 0, 0, 0, 15, 0]
def withRecord (t : Tile) : Tile := { t with tsrs := [(0, { valid := true, gen := 1, words := rec16 })] }

theorem witness_AccumulatorUnits :
    let s := onT .ac [(1, 0x10000)] withRecord
    Passes s [.ac] 0 [] ∧ s.gangTiles.Nodup ∧ (∀ y ∈ s.gangTiles, (s.tile y).ops.length < 4) ∧ noticeOf ((s.here.reg 1).extractLsb' 24 16) = some ⟨0, 0⟩ ∧
    (s.here.reg 1).toNat / 2 ^ 40 = 0 ∧ (s.tile s.cur.core.tile).handle (s.here.reg 1 &&& 0xFFFFFF) = some rec16 ∧ s.permitted s.cur.core = true ∧
    (s.bceQueue s.cur.core.tile).length < 64 ∧ s.takeSeq ≠ none := by
  refine ⟨?_, by decide, by decide, rfl, rfl, rfl, rfl, by decide, Option.isSome_iff_ne_none.mp rfl⟩; simp [Passes]; decide

theorem witness_RingUnits :
    let s := onT .mc [(1, 0x800000000C000000), (2, 1), (3, 0x8000000400000000), (4, 0x800)] (withRings 0 0)
    let e := onT .fc [] fun t => withEntries 0 8 (withRings 1 0 t)
    Passes s [.mc] 0 [] ∧ (s.tile s.cur.core.tile).mem.wf = true ∧ badRingWord (s.here.reg 2) = true ∧ badRingWord (s.here.reg 1) = false ∧
    ((s.tile s.cur.core.tile).ring 0).claimed = 0 ∧ ((s.tile s.cur.core.tile).ring 0).deliv = 0 ∧ badRingWord 0 = false ∧
    ((on .mc []).tile ⟨0, 0⟩).ringClash 0 (ringOf (s.here.reg 1)) = false ∧
    ((onT .mc [] fun t => { t with rings := [(0, { Ring.init with claimed := 1 })] }).tile ⟨0, 0⟩).rings.getD 0 Ring.init ≠ Ring.init ∧
    s.pushing 0 = false ∧ ((s.tile s.cur.core.tile).ring 0).accepts 0 8 = true ∧
    (s.tile s.cur.core.tile).deniedLine [.lw] false ((s.tile s.cur.core.tile).ring 0).fillAt (64 * 8) = none ∧
    s.locate 0 (s.here.reg 4) (64 * 8) 64 true false = .ok (.pad 0x800) ∧ AtOwnHome s (.pad 0x800) 0x800 (64 * 8) ∧ Granted s [.lr] false 0x800 (64 * 8) ∧
    Passes e (formRingpushQ 0 8 0).roles 0 [] ∧ ((e.tile e.cur.core.tile).ring 0).accepts 1 8 = true ∧
    (e.tile e.cur.core.tile).deniedLine [.lw] false ((e.tile e.cur.core.tile).ring 0).fillAt (64 * 8) = none ∧ ((e.tile e.cur.core.tile).queue 0).cursor = 0 ∧
    e.popping e.cur 0 = false ∧ ((e.tile e.cur.core.tile).queue 0).has e.uid 8 = true ∧ (∀ x ∈ ((e.tile e.cur.core.tile).queue 0).front e.uid 8, x.tag = false) := by
  refine ⟨?_, rfl, rfl, rfl, rfl, rfl, rfl, rfl, by decide, rfl, rfl, rfl, rfl, ⟨rfl, rfl⟩, rfl, ?_, rfl, rfl, rfl, rfl, rfl, by decide⟩ <;> simp [Passes] <;> decide

theorem witness_ShapeRecords :
    let s := on .mc [(1, 0x40), (2, 255), (3, 256)]
    Passes s [.mc] 0 [] ∧ 256 ≤ (s.here.reg 3).toNat ∧ (s.here.reg 2).toNat < 256 ∧ s.locate 0 (s.here.reg 1) 64 64 true false = .ok (.pad 0x40) ∧
    AtOwnHome s (.pad 0x40) 0x40 64 ∧ Granted s [.lr] false 0x40 64 ∧ tsrFault rec16 = none ∧ tsrFault [0, 14, 0, 0, 0, 0, 15, 0] = some 1 ∧
    tsrFault (bytesToWords 8 ((start s).readHome (.tile ⟨0, 0⟩) (start s).me 0x40 64)) = none := by
  refine ⟨?_, by decide, by decide, rfl, ⟨rfl, rfl⟩, rfl, rfl, rfl, rfl⟩; simp [Passes]; decide

theorem witness_EngineUnits :
    let s := onT .mc [(4, 0x10000010000), (8, 0x10000)] fun t => withRecord (withRings 2 1 t)
    Passes s [.mc] 0 [] ∧ engineUnit (.bcopy 4) = some (4, none, none) ∧ noticeOf ((s.here.reg 4).extractLsb' 48 16) = some ⟨0, 0⟩ ∧
    (s.tile s.cur.core.tile).handle (((s.here.reg 4).extractLsb' 0 24).setWidth 64) = some rec16 ∧
    (s.tile s.cur.core.tile).handle (((s.here.reg 4).extractLsb' 24 24).setWidth 64) = some rec16 ∧ (s.tile s.cur.core.tile).handle 0 = none ∧
    s.permitted s.cur.core = true ∧ (s.bceQueue s.cur.core.tile).length < 64 ∧ s.takeSeq ≠ none ∧
    engineUnit (.bgatherRing 1 8) = some (8, some 1, some false) ∧ ((s.here.reg 8).extractLsb' 24 24).setWidth 64 = (0 : Word) ∧ s.here.regAt 8 2 = 0 ∧
    (s.tile s.cur.core.tile).handle (((s.here.reg 8).extractLsb' 0 24).setWidth 64) = some rec16 ∧
    (let y := (s.tile s.cur.core.tile).ring 1
     (1 * (elemType (Record.type rec16)).width + 7) / 8 ≤ y.lines * 64 ∧ y.en = true ∧ y.filler = 2 ∧ y.pub + y.deliv ≠ y.slots) ∧
    coordOf (s.here.regAt 8 3) = (0, 0, 0, 0) ∧ s.ownPending s.cur.core = false ∧ s.indexArray (s.here.regAt 8 4) (0 + 1) ≠ none := by
  refine ⟨?_, rfl, rfl, rfl, rfl, rfl, rfl, by decide, Option.isSome_iff_ne_none.mp rfl, rfl, rfl, rfl, rfl, ⟨by decide, rfl, rfl, by decide⟩, rfl, rfl,
    Option.isSome_iff_ne_none.mp rfl⟩; simp [Passes]; decide

/-! Tasks, waits, spawns, tickets, messages, barriers, groups. -/

theorem witness_TaskEnds : ((on .mc []).ctx (id0 .mc)).task = some oneTileTask ∧ oneTileTask.tt = some ⟨0, [0]⟩ ∧
    (on .mc []).tts.get? ⟨0, [0]⟩ = some (TileTask.init 0 0 ⟨0, 0⟩) := by refine ⟨rfl, rfl, rfl⟩

theorem witness_TaskUnits :
    let s := on .mc [(1, 0x40), (2, 0x803F), (3, 2), (4, 1), (5, 0x1000FF), (6, 256), (7, 0x4FFF), (8, 0x14FFF)]
    Passes s onTile 0 [] ∧ Passes s onTile 0 [5] ∧ s.here.task = some oneTileTask ∧ s.here.reg 1 &&& ~~~0x873F ≠ 0 ∧ s.here.reg 2 &&& ~~~0x873F = 0 ∧
    2 ≤ (s.here.reg 3).toNat ∧ (s.here.reg 4).toNat < 2 ∧ (onC .mc [] fun c => { c with uih := true }).here.uih = true ∧ s.here.uih = false ∧
    256 ≤ (s.here.reg 6).toNat ∧ ((s.core s.cur.core).entry 255).armed = false ∧ s.here.isNotice = false ∧ (s.here.reg 5).extractLsb' 48 16 = 0 ∧
    (s.here.reg 5).getLsbD 15 = false ∧ (s.here.reg 5).extractLsb' 16 32 ≠ 0 ∧ (s.here.reg 5).getLsbD 14 = false ∧ s.takeSeq ≠ none ∧
    (s.here.reg 7).extractLsb' 16 32 = 0 ∧ (s.here.reg 8).getLsbD 14 = true ∧ (s.here.reg 8).extractLsb' 16 32 ≠ 0 ∧ s.ownTT = some ⟨0, [0]⟩ ∧
    (∃ k s', s.takeSpawn ⟨0, [0]⟩ s.cur.core.r = some (k, s') ∧ s'.takeSeq ≠ none) := by
  refine ⟨?_, ?_, rfl, by decide, by decide, by decide, by decide, rfl, rfl, by decide, rfl, rfl, rfl, rfl, by decide, rfl, Option.isSome_iff_ne_none.mp rfl, rfl, rfl,
    by decide, rfl, _, _, rfl, Option.isSome_iff_ne_none.mp rfl⟩ <;> simp [Passes] <;> decide

theorem witness_WaitsAndWakes :
    let s := on .mc [(1, 0x100000000008), (2, 0x12), (3, 5)]
    Passes s onTile 0 [] ∧ (s.here.reg 1).toNat % 8 = 0 ∧ s.badWindow s.cur.core.l (s.here.reg 1) 8 = false ∧
    s.pieces s.cur.core (.global (s.here.reg 1)) 8 = [.own 8 8 0] ∧ s.ownPending s.cur.core = false ∧ s.takeSeq ≠ none ∧ s.here.isNotice = false ∧
    (s.here.reg 2).extractLsb' 14 50 = 0 ∧ ((s.core s.cur.core).entry 0x12).armed = false ∧ Granted s [.lr] false 8 8 ∧ Granted s [.lw] false 8 8 ∧
    bytesToWord (s.readHome (.tile s.cur.core.tile) s.me 8 8) = s.here.reg 0 ∧ bytesToWord (s.readHome (.tile s.cur.core.tile) s.me 8 8) ≠ s.here.reg 3 ∧
    (s.home (.tile s.cur.core.tile)).waiters.length < 32 ∧ (s.home (.tile s.cur.core.tile)).syncs = [] := by
  refine ⟨?_, by decide, rfl, rfl, rfl, Option.isSome_iff_ne_none.mp rfl, rfl, rfl, rfl, rfl, rfl, by decide, by decide, by decide, rfl⟩; simp [Passes]; decide

theorem witness_Spawns :
    let s := on .mc [(1, 0x200000001), (2, 2), (3, 0x600000000)]
    Passes s onTile 0 [] ∧ Passes s onTile 0 [4] ∧ s.here.isNotice = false ∧ (s.here.reg 1).toNat / 2 ^ 35 = 0 ∧ (s.here.reg 1).extractLsb' 33 2 = 1 ∧
    (s.here.reg 1).toNat % 2 ^ 20 < s.gridSize s.cur.core.l ∧ (s.here.reg 1).extractLsb' 20 4 = 0 ∧ s.gridSize s.cur.core.l ≤ (s.here.reg 2).toNat % 2 ^ 20 ∧
    (s.here.reg 3).extractLsb' 33 2 = 3 ∧ s.ownTT = some ⟨0, [0]⟩ ∧ s.tts.get? ⟨0, [0]⟩ = some (TileTask.init 0 0 ⟨0, 0⟩) ∧ s.permitted s.cur.core = true ∧
    (∃ k s', s.takeSpawn ⟨0, [0]⟩ s.cur.core.r = some (k, s') ∧ s'.takeSeq ≠ none) := by
  refine ⟨?_, ?_, rfl, by decide, rfl, by decide, rfl, by decide, rfl, rfl, rfl, rfl, _, _, rfl, Option.isSome_iff_ne_none.mp rfl⟩ <;> simp [Passes] <;> decide

theorem witness_TicketUnits :
    let s := on .mc [(1, 1), (2, 2), (3, 0x10000)]
    let k := onC .mc [(1, 1)] fun c => { c with level := 1 }
    let st (f : Launch → Launch) := s.modLaunch 0 f
    s.launches.get? s.cur.core.l ≠ none ∧ Passes s onTile 0 [] ∧ Passes s onTile 0 [2] ∧ Passes k onTile 1 [2] ∧ s.ownTT = some ⟨0, [0]⟩ ∧
    s.tts.get? ⟨0, [0]⟩ = some (TileTask.init 0 0 ⟨0, 0⟩) ∧ s.ownTT.map TTId.path = some (List.replicate (s.staticDepth s.cur.core.l) 0) ∧
    (s.here.reg 1).toNat % 16 = 1 ∧ (s.here.reg 2).toNat % 16 = 2 ∧ (s.here.reg 3).toNat / 2 ^ 16 ≠ 0 ∧
    ((st fun l => { l with scope := .stream, slot := 1 }).launches.get? 0).map Launch.scope = some .stream ∧
    ((st fun l => { l with free := true }).launches.get? 0).map Launch.free = some true ∧ (s.launches.get? 0).map Launch.overflow = some none ∧
    k.here.reg 1 ≠ 0 ∧ k.here.reg 0 = 0 := by
  refine ⟨Option.isSome_iff_ne_none.mp rfl, ?_, ?_, ?_, rfl, rfl, rfl, rfl, rfl, by decide, rfl, rfl, rfl, by decide, rfl⟩ <;> simp [Passes] <;> decide

/-- A core whose channel 3 is of a kind. -/
def withChan (k : ChanKind) (cr : Nat) (s : State) : State :=
  s.modCore s.cur.core fun c => { c with chans := [(3, { Chan.closed with kind := k, depth := 64, credits := cr, peer := some (⟨0, 1, .fc⟩, 5) })] }

theorem witness_Sends :
    let s := withChan .send 64 (on .mc [(1, 1), (2, 0x100000100000), (4, 7)])
    payload s (.sendR 16 3 16) = some (onTile, some (regsFrom s 16 0 16)) ∧ payload s (.sendM 1 3 0) = some ([.mc], padWords s 0 1) ∧
    (∃ ws, padWords s 0 1 = some ws) ∧ Passes s onTile 0 [] ∧ Passes s [.mc] 0 [] ∧ s.permitted s.cur.core = true ∧ s.takeSeq ≠ none ∧
    ((s.core s.cur.core).chan 3).kind = .send ∧ 1 + (16 + 7) / 8 ≤ ((s.core s.cur.core).chan 3).credits ∧ ((s.core s.cur.core).chan 3).edge = none ∧
    ((s.core s.cur.core).chan 4).kind ≠ .send ∧ ((withChan .send 2 (on .mc [])).core (id0 .mc).core).chan 3 ≠ Chan.closed ∧
    s.resolve s.cur.core (s.here.reg 1) = some 1 ∧ sendwOf (.sendwR 1 1 2) = some (1, 2, 8) ∧ (s.here.reg 2).toNat / 2 ^ 40 = 0x10 ∧
    (s.here.reg 2).toNat / 2 ^ 20 % 2 ^ 20 < s.gridSize s.cur.core.l ∧ (s.here.reg 3).toNat < 512 ∧ (s.outstanding s.uid).length < 256 := by
  refine ⟨rfl, rfl, ⟨_, rfl⟩, ?_, ?_, rfl, Option.isSome_iff_ne_none.mp rfl, rfl, by decide, rfl, by decide, by decide, rfl, rfl, by decide, by decide, by decide, by decide⟩ <;>
    simp [Passes] <;> decide

/-- A task that a direct message activated and that holds it on channel 3. -/
def held3 : State :=
  let m : Message := { id := 9, src := ⟨0, 1, .fc⟩, sendCh := 3, ch := 3, words := [7, 8], refused := false, reply := false, direct := true, key := ⟨0, [0], 0⟩,
                       tt := none, uid := 1 }
  (onC .mc [] fun c => { c with task := some { oneTileTask with kind := .message, hdr := 0x10001, sender := ⟨0, 1⟩, msg := some ⟨3, 9⟩ } }).modCore ⟨0, 0, .mc⟩ fun c =>
    { c with chans := [(3, { Chan.closed with kind := .direct, depth := 64, msgs := [{ msg := m, bind := .cls 0, holder := some 0, hampered := false }] })] }

theorem witness_Refusals :
    (∃ k, (on .mc []).here.task = some k ∧ k.kind ≠ .message) ∧ Passes held3 onTile 0 [] ∧
    ∃ k m, held3.here.task = some k ∧ k.kind = .message ∧ k.hdr.extractLsb' 0 3 = 1 ∧ k.msg = some ⟨3, 9⟩ ∧
      (((held3.core held3.cur.core).chan 3).held k.uid).find? (fun m => m.msg.id = 9) = some m ∧ held3.permitted held3.cur.core = true := by
  refine ⟨⟨_, rfl, by decide⟩, ?_, _, _, rfl, rfl, rfl, rfl, rfl, rfl⟩; simp [Passes]; decide

theorem witness_QueueAndChannelUnits :
    let e := onT .fc [] (withEntries 0 1)
    let s := on .mc [(1, 0x110000), (2, 0x10000), (3, 0x80)]
    let open_ := (withChan .direct 0 (on .mc [(2, 0x10000)]))
    Passes e (readers 0) 0 [] ∧ e.popping e.cur 0 = false ∧ ((e.tile e.cur.core.tile).queue 0).has e.uid 1 = true ∧
    (∃ x, ((e.tile e.cur.core.tile).queue 0).front e.uid 1 = [x]) ∧ (((on .fc []).tile ⟨0, 0⟩).queue 0).has 0 1 = false ∧
    Passes e (readers 0 ++ writers 0) 0 [] ∧ Passes (on .mc []) (readers 0 ++ writers 0) 0 [] ∧ Passes s onTile 0 [] ∧
    s.heldOn s.cur.core 3 s.uid = [] ∧ (∃ m ms, held3.heldOn held3.cur.core 3 held3.uid = m :: ms) ∧
    ((open_.core open_.cur.core).chan 3).kind = .direct ∧ (open_.here.reg 2).toNat / 2 ^ 17 = 0 ∧ (open_.here.reg 2).toNat / 64 % 4 = 0 ∧
    (open_.here.reg 2).getLsbD 16 = true ∧ (open_.here.reg 2).toNat % 64 = 0 ∧ ((open_.core open_.cur.core).chan 3).msgs = [] ∧
    ((s.core s.cur.core).chan 3).kind = .closed ∧ (s.here.reg 1).toNat / 2 ^ 16 % 2 ^ 10 = 17 ∧ (s.core s.cur.core).depths + 17 ≤ 1024 ∧
    (s.here.reg 3).toNat / 64 % 4 ≠ 0 ∧ s.launches.get? 0 ≠ none ∧
    (s.modCore s.cur.core fun c => { c with classes := [(0, { valid := true, handler := 0, prio := 0, node := 0 })] }).classOk 0 = true := by
  refine ⟨?_, rfl, rfl, ⟨_, rfl⟩, rfl, ?_, ?_, ?_, rfl, ⟨_, _, rfl⟩, rfl, by decide, by decide, rfl, by decide, rfl, rfl, by decide, by decide, by decide,
    Option.isSome_iff_ne_none.mp rfl, rfl⟩ <;> simp [Passes] <;> decide

theorem witness_BarrierAndGroupUnits :
    let s := on .mc [(1, 4), (2, 0x100000), (3, 1), (5, 0x20000000000), (6, 0x8000000000000000), (7, 256), (8, 1), (9, 0x20000000000)]
    let b (x : Barrier) := s.modCore s.cur.core fun c => { c with bars := [(2, x)] }
    let m : Member := { g := 0, index := 0, gen := 0, peers := [] }
    let g := s.modCore s.cur.core fun c => { c with members := [m] }
    Passes s onTile 0 [] ∧ badInit (s.here.reg 1) = false ∧ badInit (s.here.reg 2) = true ∧ badInit 0 = false ∧ badInit (s.here.reg 6) = false ∧
    ((s.core s.cur.core).bar 2).binding = none ∧ (s.core s.cur.core).barInUse 2 = false ∧
    (((b { Barrier.init with mode := .counted, ecur := 4, ncur := 1 }).core s.cur.core).barInUse 2) = true ∧ (s.here.reg 1).getLsbD 63 = false ∧
    (s.here.reg 6).getLsbD 63 = true ∧ (∀ x, ((s.core s.cur.core).bar 2).mode ≠ .bound x) ∧ (s.core s.cur.core).boundBars < 8 ∧ s.permitted s.cur.core = true ∧
    0xFFFFF < (s.here.reg 2).toNat ∧ (((b { Barrier.init with mode := .counted, ecur := 4 }).core s.cur.core).bar 2).mode = .counted ∧
    s.resolve s.cur.core (s.here.reg 3) = some 1 ∧ (s.here.reg 4).toNat < 256 ∧ badArrival (s.here.reg 4) = false ∧ (s.here.reg 4).getLsbD 41 = false ∧
    badArrival (s.here.reg 9) = false ∧ (s.here.reg 9).getLsbD 41 = true ∧ (g.core g.cur.core).member 0 = some m ∧ m.gen = (s.here.reg 9).setWidth 32 ∧
    (s.core s.cur.core).member 0 = none ∧ 256 ≤ (s.here.reg 7).toNat ∧ (s.core s.cur.core).members.length + s.joining < 8 ∧ s.grpBusy 0 = false ∧ g.arrBusy 0 = false := by
  refine ⟨?_, rfl, rfl, rfl, rfl, rfl, rfl, rfl, rfl, rfl, ?_, by decide, rfl, by decide, rfl, rfl, by decide, rfl, rfl, rfl, rfl, rfl, rfl, rfl, by decide, by decide, rfl, rfl⟩
  · simp [Passes]; decide
  · intro x h; cases h

theorem witness_SemaphoresRoundsAndTiles :
    let s := on .mc [(1, 0x100000000), (2, 0xFFFFFFFF), (3, 0x100), (4, 0xFF01), (5, 2), (6, 1), (7, 3), (8, 4)]
    let k := { s.modCtx s.cur fun c => { c with level := 1 } with
      bundles := [((0, 0), { st := .folded, gen := 0, frame := 0, home := ⟨0, 0, 0⟩, pinned := false, summoned := none, since := 0 })] }
    Passes s onTile 0 [] ∧ Passes s onTile 0 [2] ∧ Passes k onTile 1 [] ∧ 2 ^ 32 ≤ (s.here.reg 1).toNat ∧ (s.here.reg 2).toNat < 2 ^ 32 ∧
    (s.here.reg 3).toNat % 256 = 0 ∧ (s.here.reg 4).toNat < 2 ^ 16 ∧ (s.here.reg 4).toNat % 256 ≠ 0 ∧ ((s.tile s.cur.core.tile).sem 2).claims.length < 8 ∧
    8 ≤ ((onT .mc [] fun t => { t with sems := [(2, { value := 0, claims := List.replicate 8 { core := ⟨0, 0, .mc⟩, entry := 0, need := 1 } })] }).tile ⟨0, 0⟩).sems.head?.elim 0
      (fun x => x.2.claims.length) ∧
    s.zoneOf s.cur.core.tile = none ∧ ({ k with bundles := k.bundles.map fun x => (x.1, { x.2 with st := .resident }) } : State).zoneOf k.cur.core.tile ≠ none ∧ s.gridSize s.cur.core.l ≤ (k.here.reg 5).toNat ∧ (k.here.reg 0).toNat < k.gridSize k.cur.core.l ∧
    (∃ y, k.bundles.get? (k.cur.core.l, bundleOf (k.gridX k.cur.core.l) 0) = some y ∧ y.st = .folded ∧ y.summoned = none ∧ y.pinned = false) ∧
    4 ≤ (k.here.reg 8).toNat ∧ k.pins k.cur.core.l < 64 := by
  refine ⟨?_, ?_, ?_, by decide, by decide, by decide, by decide, by decide, by decide, by decide, rfl, Option.isSome_iff_ne_none.mp rfl, by decide, by decide,
    ⟨_, rfl, rfl, rfl, rfl⟩, by decide, by decide⟩ <;> simp [Passes] <;> decide

/-! Device steps of the cores and the network. -/

def bundle0 (st : BundleSt) : Bundle := { st := st, gen := 0, frame := 0, home := ⟨0, 0, 0⟩, pinned := false, summoned := none, since := 0 }

/-- A packet of the format core of tile 1 for tile 0, and a state whose network holds it alone; tile 0's bundle stands on physical tile 0, of tag 0. -/
def fl (p : Packet) : Flight := { id := 5, src := some ⟨0, 1, .fc⟩, dst := some ⟨0, 0⟩, pkt := p, st := .transit, tries := 0, tag := 0, gen := 0, round := none, sent := none }
def net1 (f : Flight) (s : State) : State := { s with net := [f], bundles := [((0, 0), bundle0 .resident)], tags := [(⟨0, 0, 0⟩, 0)] }

theorem witness_Lands (p : Packet) (h : (net1 (fl p) (on .mc [])).heldForRound (fl p) = false) : Lands (net1 (fl p) (on .mc [])) (fl p) := by
  have hx : (net1 (fl p) (on .mc [])).gridX 0 = 2 := by rfl
  have hs : (net1 (fl p) (on .mc [])).bundles = [((0, 0), bundle0 .resident)] := by rfl
  have hb : (net1 (fl p) (on .mc [])).bundle ⟨0, 0⟩ = some (bundle0 .resident) := by unfold State.bundle; rw [hs, hx]; rfl
  have hp : (net1 (fl p) (on .mc [])).physical ⟨0, 0⟩ = some ⟨0, 0, 0⟩ := by unfold State.physical; rw [hb, hx]; rfl
  have ht : (net1 (fl p) (on .mc [])).tags.get? ⟨0, 0, 0⟩ = some 0 := rfl
  refine ⟨rfl, rfl, rfl, h, fun t b h1 h2 => ?_⟩
  obtain rfl : (⟨0, 0⟩ : TileId) = t := Option.some.inj h1
  obtain rfl : bundle0 .resident = b := Option.some.inj (hb.symm.trans h2)
  refine ⟨rfl, rfl, ?_, ?_⟩
  · unfold State.isForeign State.servingTag; rw [hp]
    show (_ && decide (Map.get? (net1 (fl p) (on .mc [])).tags ⟨0, 0, 0⟩ ≠ some (fl p).tag)) = false
    rw [ht]; show (_ && false) = false; simp
  · cases p <;> rfl

def ready0 : Ready :=
  { uid := 7, kind := .message, cls := 1, s1 := 1, s2 := 2, s3 := 3, key := ⟨0, [0], 0⟩, tt := some ⟨0, [0]⟩, entry := 0xFF, prio := 2, eff := 2, pass := 0,
    addr := none, fibre := none, msg := none, hdr := 0, sender := ⟨0, 0⟩ }

/-- A core of tile 0 changed, with its contexts free. -/
def free (f : Core → Core) : State := { (on .mc []).modCore ⟨0, 0, .mc⟩ f with ctxs := [] }

theorem witness_Activations :
    let e : WEntry := { WEntry.init with counter := 3, armed := true, thr := 3, cls := 1, owner := some ⟨0, [0]⟩ }
    let cls : Map Nat Class := [(1, { valid := true, handler := 0x40, prio := 2, node := 0 })]
    let s := free fun k => { k with wtt := [(9, e)], classes := cls }
    let w : Waiting := { kind := .spawn, cls := 1, s1 := 1, s2 := 2, s3 := 3, tt := ⟨0, [0]⟩, key := ⟨0, [0], 0⟩, addr := none, release := none }
    let m : Message := { id := 9, src := ⟨0, 1, .fc⟩, sendCh := 3, ch := 3, words := [7, 8], refused := false, reply := false, direct := true, key := ⟨0, [0], 0⟩,
                         tt := some ⟨0, [0]⟩, uid := 1 }
    let r := free fun k => { k with classes := cls, runq := [ready0], tvecK := 0x80 }
    (s.entering ⟨0, 0, .mc⟩ (.entry 9)).isSome = true ∧ ((free fun k => { k with classes := cls, waiting := [w] }).entering ⟨0, 0, .mc⟩ (.waiting 0)).isSome = true ∧
    ((free fun k => { k with classes := cls, chans := [(3, { Chan.closed with kind := .bound, depth := 64, bind := .cls 1, msgs := [{ msg := m, bind := .cls 1, holder := none, hampered := false }] })] }).entering
      ⟨0, 0, .mc⟩ (.message 3 0)).isSome = true ∧
    ((free fun k => { k with fibres := [(4, { ctx := ctx0 .mc [], number := 0, va := 0, resumed := true, failed := false, ready := false })] }).entering
      ⟨0, 0, .mc⟩ (.fibre 4)).isSome = true ∧
    r.activates ⟨0, 0, .mc⟩ = true ∧ (r.core ⟨0, 0, .mc⟩).notices = [] ∧ r.nextReady ⟨0, 0, .mc⟩ = some ready0 ∧ r.freeCtx ⟨0, 0, .mc⟩ = some (id0 .mc) ∧
    ready0.fibre = none ∧ ready0.addr = none ∧ ((r.core ⟨0, 0, .mc⟩).cls 1).valid = true ∧ ((free id).core ⟨0, 0, .mc⟩).tvecK = 0 ∧
    (r.core ⟨0, 0, .mc⟩).tvecK ≠ 0 ∧ ((free fun k => { k with tvecK := 0x80 }).core ⟨0, 0, .mc⟩).cls 1 = Class.invalid := by
  refine ⟨by decide, by decide, by decide, by decide, rfl, rfl, rfl, rfl, rfl, rfl, rfl, rfl, by decide, rfl⟩

theorem witness_Boundaries :
    let s (p : Phase) (w : Nat) := onC .mc [] fun c => { c with phase := p, waited := w }
    let a : Async := { code := causeProt, tval := 1 }
    let b : Async := { code := causeTilefault, tval := 1 }
    let run := entries (onC .mc [] fun c => { c with asked := some 0, asyncs := [b, a], pending := 0x8000 })
    ((s (.held (.emptyQueue 1 1)) 65537).ctx (id0 .mc)).phase = .held (.emptyQueue 1 1) ∧ ((s .run 0).ctx (id0 .mc)).gang = none ∧
    (((s .run 0).tile ⟨0, 0⟩).queue 1).order 0 = [] ∧ ((((onT .mc [] (withEntries 1 1)).tile ⟨0, 0⟩).queue 1).order 0).length = 1 ∧
    ((s .run 0).core ⟨0, 0, .mc⟩).wdog.toNat < ((s .run 65537).ctx (id0 .mc)).waited ∧ ((s .run 0).core ⟨0, 0, .mc⟩).wdog.toNat = 65536 ∧
    (s .run 0).hasRoom ⟨0, 0⟩ 1 0 16 = true ∧ (onT .mc [] (withEntries 1 16)).hasRoom ⟨0, 0⟩ 1 0 1 = false ∧
    (run.ctx (id0 .mc)).asked = some 0 ∧ 0 + (run.core ⟨0, 0, .mc⟩).wdog.toNat ≤ ({ run with cycle := 65536 } : State).cycle ∧ (run.ctx (id0 .mc)).isNotice = false ∧
    run.inOverrun (id0 .mc) = false ∧ (run.ctx (id0 .mc)).level = 0 ∧ (run.ctx (id0 .mc)).kbank.tnest = false ∧ (run.core ⟨0, 0, .mc⟩).tvecK ≠ 0 ∧
    (run.ctx (id0 .mc)).nextAsync = some a ∧ (run.ctx (id0 .mc)).hbank.tnest = false ∧
    (s .run 0).here.uim = false ∧ (s .run 0).here.uih = false ∧ (s .run 0).here.asyncs = [] ∧ (run.ctx (id0 .mc)).pending.getLsbD 15 = true ∧
    (∀ m, m < 15 → (run.ctx (id0 .mc)).pending.getLsbD m = false) ∧
    (let k := free fun k => { k with notices := [a, b], tvecK := 0x40 }
     (k.core ⟨0, 0, .mc⟩).notices = a :: [b] ∧ (∀ x ∈ [b], a.code ≤ x.code) ∧ k.resident ⟨0, 0⟩ = true ∧ k.freeCtx ⟨0, 0, .mc⟩ = some (id0 .mc)) := by
  refine ⟨rfl, rfl, rfl, rfl, by decide, rfl, rfl, rfl, rfl, by decide, rfl, rfl, rfl, rfl, by decide, rfl, rfl, rfl, rfl, rfl, rfl, by decide, rfl, by decide, rfl, rfl⟩

theorem witness_Boundaries_wait :
    let s := onC .mc [] fun c => { c with phase := .busy 7 1 [] 4 true (.scalar 2 8 false), waited := 65537 }
    (s.ctx (id0 .mc)).phase = .busy 7 1 [] 4 true (.scalar 2 8 false) ∧ (s.core ⟨0, 0, .mc⟩).wdog.toNat < (s.ctx (id0 .mc)).waited := by
  refine ⟨rfl, by decide⟩

theorem witness_TileTaskSteps :
    let x := TileTask.init 0 0 ⟨0, 0⟩
    let y := { x with done := true, ran := true }
    let key : Key := ⟨0, [0], 1⟩
    let e : Effect := { key := some key, part := 0, gated := true, sendw := false, spilled := false, by_ := (on .mc []).me, acts := [.write 8 [1] .keep], wid := some 3,
                        xfer := none, reply := none, addr := 8, elems := 0, round := none }
    let h (free : Bool) := { (on .mc []).modLaunch 0 fun l => { l with free := free } with homes := [(.tile ⟨0, 0⟩, { HomeSt.init with held := [e] })] }
    (free id).tts.get? ⟨0, [0]⟩ = some x ∧ x.done = false ∧ (free id).finished ⟨0, [0]⟩ x = true ∧ y.done = true ∧ y.retired = false ∧
    ({ free id with tts := [(⟨0, [0]⟩, y)] } : State).settled ⟨0, [0]⟩ = true ∧ ((h false).home (.tile ⟨0, 0⟩)).held = [e] ∧ (h false).mirrored e = true ∧
    (h false).reached (.tile ⟨0, 0⟩) key.tt = true ∧
    ({ h false with tts := [(⟨0, [1]⟩, { x with index := 1 }), (⟨0, [0]⟩, x)] } : State).reached (.tile ⟨0, 0⟩) ⟨0, [1]⟩ = false ∧
    (let c := free fun k => { k with offer := some { size := 2, entry := 3, notify := true, ready := false } }
     (c.core ⟨0, 0, .mc⟩).offer = some { size := 2, entry := 3, notify := true, ready := false } ∧ c.resident ⟨0, 0⟩ = true ∧
     ∀ i, i < 4 → (c.ctx ⟨⟨0, 0, .mc⟩, i⟩).phase = .free) := by
  refine ⟨rfl, rfl, by decide, rfl, rfl, by decide, rfl, rfl, rfl, by decide, rfl, rfl, by decide⟩

theorem witness_MessageSteps :
    let m : Message := { id := 9, src := ⟨0, 1, .fc⟩, sendCh := 3, ch := 3, words := [7, 8], refused := false, reply := false, direct := true, key := ⟨0, [0], 0⟩,
                         tt := none, uid := 1 }
    let x : Chan := { Chan.closed with kind := .direct, depth := 17, msgs := [] }
    let c : CoreId := ⟨0, 0, .mc⟩
    let p : Packet := .message c m
    let gone (st : BundleSt) : State := { net1 (fl p) (on .mc []) with bundles := [((0, 0), bundle0 st)] }
    Lands (net1 (fl p) (on .mc [])) (fl p) ∧ Fits { x with depth := 2 } m ∧ ((on .mc []).core c).chan 3 = Chan.closed ∧
    Lands (net1 (fl (.credit c 3 2)) (on .mc [])) (fl (.credit c 3 2)) ∧ Lands (net1 (fl (.increment c 3)) (on .mc [])) (fl (.increment c 3)) ∧
    Lands (net1 (fl (.cancel ⟨0, 0⟩ (on .mc []).me 3)) (on .mc [])) (fl (.cancel ⟨0, 0⟩ (on .mc []).me 3)) ∧
    (gone .folding).bundle ⟨0, 0⟩ = some (bundle0 .folding) ∧ (gone .folding).blocked (fl p) = false ∧
    ({ net1 (fl p) (on .mc []) with tags := [] } : State).isForeign (fl p) ⟨0, 0⟩ = true ∧
    ({ on .mc [] with net := [{ fl p with st := .bounced }] } : State).flight 5 = some { fl p with st := .bounced } ∧
    ({ on .mc [] with net := [{ fl p with st := .waiting 10 }] } : State).resident ⟨0, 1⟩ = true := by
  refine ⟨witness_Lands _ rfl, ⟨by simp, by decide⟩, rfl, witness_Lands _ rfl, witness_Lands _ rfl, witness_Lands _ rfl, rfl, rfl, rfl, rfl, rfl⟩

theorem witness_MessageSteps_spawn (w : Waiting) : Lands (net1 (fl (.spawn ⟨0, 0, .mc⟩ w 3)) (on .mc [])) (fl (.spawn ⟨0, 0, .mc⟩ w 3)) := witness_Lands _ rfl

theorem witness_InjectionAndParking :
    let m : Message := { id := 9, src := ⟨0, 1, .fc⟩, sendCh := 3, ch := 3, words := [7, 8], refused := false, reply := false, direct := true, key := ⟨0, [0], 0⟩,
                         tt := none, uid := 1 }
    let f := { fl (.message ⟨0, 0, .mc⟩ m) with st := .queued [] }
    let s := { on .mc [] with net := [f] }
    let e : Edge := { port := 2, end_ := { peer := 0, tag := 0, peerCh := 0, core := ⟨0, 1, .fc⟩, ch := 3 }, next := 0, unacked := [], expect := 0 }
    let g := { f with dst := none }
    let o := { (on .mc []).modCore ⟨0, 1, .fc⟩ fun k => { k with chans := [(3, { Chan.closed with kind := .send, edge := some 1 })] } with net := [g], edges := [(1, e)] }
    let p := { net1 (fl (.message ⟨0, 0, .mc⟩ m)) (on .mc []) with bundles := [((0, 0), bundle0 .folded)] }
    s.nextInject ⟨0, 1, .fc⟩ = some f ∧ (∀ l, (s.core ⟨0, 1, .fc⟩).since.getD l 0 < 64) ∧ (∀ g ∈ s.pendingOf ⟨0, 1, .fc⟩, g.pkt.sendCh < 64) ∧
    o.nextInject ⟨0, 1, .fc⟩ = some g ∧ ((o.core ⟨0, 1, .fc⟩).chan m.sendCh).edge = some 1 ∧ o.edges.get? 1 = some e ∧ e.port ∉ o.down ∧
    (on .mc []).nextInject ⟨0, 1, .fc⟩ = none ∧ p.flight 5 = some (fl (.message ⟨0, 0, .mc⟩ m)) ∧ p.blocked (fl (.message ⟨0, 0, .mc⟩ m)) = false ∧
    p.bundle ⟨0, 0⟩ = some (bundle0 .folded) ∧ p.parts.get? (p.partOf ((⟨0, 0⟩ : TileId).core .mc)) = some (Partition.init 0 0) ∧
    (Partition.init 0 0).pool < (p.parkedFlits ⟨0, 0⟩ + (fl (.message ⟨0, 0, .mc⟩ m)).pkt.flits + 1023) / 1024 - (p.parkedFlits ⟨0, 0⟩ + 1023) / 1024 ∧
    ({ p with parts := [(0, Partition.init 0 1)] } : State).parts.get? 0 = some (Partition.init 0 1) := by
  refine ⟨rfl, ?_, by decide, rfl, rfl, rfl, by decide, rfl, rfl, rfl, rfl, rfl, by decide, rfl⟩
  intro l
  by_cases h : l < 8
  · have : ∀ l, l < 8 → (List.replicate 8 0).getD l 0 < 64 := by decide
    exact this l h
  · show (List.replicate 8 0).getD l 0 < 64
    rw [List.getD_eq_default _ _ (by simp; omega)]; decide

theorem witness_AccessSteps :
    let b := (on .fc []).me
    let s (p : Packet) := net1 (fl p) (on .mc [])
    let rd (m : ReadMode) : Packet := .read (.tile ⟨0, 0⟩ 8) 8 b 3 0 m 8
    let e (k : Key) : Effect :=
      { key := some k, part := 0, gated := true, sendw := false, spilled := false, by_ := b, acts := [.write 8 [1] .keep], wid := some 3, xfer := none,
        reply := none, addr := 8, elems := 0, round := none }
    Lands (s (rd .plain)) (fl (rd .plain)) ∧ Lands (s (rd .sync)) (fl (rd .sync)) ∧ ((s (rd .plain)).home (.tile ⟨0, 0⟩)).held = [] ∧
    ((s (rd .plain)).tile ⟨0, 0⟩).deniedLine [.lr] false 8 8 = none ∧ Tile.init.deniedLine [.lr] false 8 8 = some 0 ∧
    Lands (s (.read (.hbm 1 0) 8 b 3 0 .plain 0)) (fl (.read (.hbm 1 0) 8 b 3 0 .plain 0)) ∧
    Lands (s (.effect (.tile ⟨0, 0⟩) (e ⟨0, [0], 1⟩))) (fl (.effect (.tile ⟨0, 0⟩) (e ⟨0, [0], 1⟩))) ∧
    (on .mc []).deniesEffect ⟨0, 0⟩ (e ⟨0, [0], 1⟩) = none ∧ (on .mc []).deniesEffect ⟨0, 1⟩ (e ⟨0, [0], 1⟩) ≠ none ∧ (on .mc []).isVoided ⟨0, [0]⟩ = false ∧
    (on .mc []).reached (.tile ⟨0, 0⟩) ⟨0, [0]⟩ = true ∧ (on .mc []).mirrored (e ⟨0, [0], 1⟩) = true ∧ (on .mc []).hasEntry (.tile ⟨0, 0⟩) (e ⟨0, [0], 1⟩) = true ∧
    Lands (s (.wait (.tile ⟨0, 0⟩ 8) 0 b 4 8)) (fl (.wait (.tile ⟨0, 0⟩ 8) 0 b 4 8)) ∧ (on .mc []).deniesRead ⟨0, 0⟩ b 8 8 8 = none ∧
    bytesToWord (((on .mc []).tile ⟨0, 0⟩).mem.read 8 8) = 0 := by
  refine ⟨witness_Lands _ rfl, witness_Lands _ rfl, rfl, rfl, rfl, witness_Lands _ rfl, witness_Lands _ rfl, rfl, Option.isSome_iff_ne_none.mp rfl, rfl, rfl, rfl, rfl,
    witness_Lands _ rfl, rfl, rfl⟩

theorem witness_AnswerSteps :
    let b := (on .mc []).me
    let s (p : Packet) := net1 (fl p) (on .mc [])
    let busy := onC .mc [] fun c => { c with phase := .busy 3 1 [] 4 false (.scalar 2 8 false) }
    let flush (ids : List Nat) := onC .mc [] fun c => { c with phase := .stall (.flush ids 4 (.fence [] false)) }
    Lands (s (.reply b 3 0 [1])) (fl (.reply b 3 0 [1])) ∧ b.engine = false ∧ Lands (s (.prefixReply b 3 0 [1] 0)) (fl (.prefixReply b 3 0 [1] 0)) ∧
    Lands (s (.faultReply b 3 causeProt 8)) (fl (.faultReply b 3 causeProt 8)) ∧ Lands (s (.ack 3)) (fl (.ack 3)) ∧
    Lands (s (.denial b none none 8)) (fl (.denial b none none 8)) ∧ b.tt = some ⟨0, [0]⟩ ∧ (s (.ack 3)).tts.get? ⟨0, [0]⟩ = some (TileTask.init 0 0 ⟨0, 0⟩) ∧
    ((s (.ack 3)).ctx ⟨b.core, 0⟩).task.map Task.uid = some b.uid ∧ Lands (s (.xpart b none none 8 (some (3, 2)))) (fl (.xpart b none none 8 (some (3, 2)))) ∧
    Lands (s (.xpart { b with tt := none } none (some 3) 8 none)) (fl (.xpart { b with tt := none } none (some 3) 8 none)) ∧
    (busy.ctx ⟨b.core, b.ctx⟩).phase = .busy 3 1 [] 4 false (.scalar 2 8 false) ∧ Lands (s (.flushRead 0 b 3)) (fl (.flushRead 0 b 3)) ∧
    ((flush [3]).ctx ⟨b.core, b.ctx⟩).phase = .stall (.flush [3] 4 (.fence [] false)) ∧
    ((flush [3, 4]).ctx ⟨b.core, b.ctx⟩).phase = .stall (.flush (3 :: 4 :: []) 4 (.fence [] false)) := by
  refine ⟨witness_Lands _ rfl, rfl, witness_Lands _ rfl, witness_Lands _ rfl, witness_Lands _ rfl, witness_Lands _ rfl, rfl, rfl, rfl, witness_Lands _ rfl,
    witness_Lands _ rfl, rfl, witness_Lands _ rfl, rfl, rfl⟩

/-- A state with no context listed. -/
theorem ctx_free (s : State) (id : CtxId) : (({ s with ctxs := [] } : State).ctx id).phase = .free := by
  simp only [State.ctx, Map.get?]; split <;> rfl

theorem witness_AnswerSteps_acks : ∀ id set n step r, (({ on .mc [] with ctxs := [] } : State).ctx id).phase ≠ .stall (.acks set n step r) := by
  intro id set n step r h; rw [ctx_free] at h; exact nomatch h

/-! Owners, engines, translation, pool and zones. -/

theorem witness_OwnerSteps :
    let b := (on .fc []).me
    let dst : CoreId := ⟨0, 0, .mc⟩
    let s (p : Packet) (x : Barrier) : State := net1 (fl p) ((on .mc []).modCore dst fun k => { k with bars := [(2, x)] })
    let arr (w : Word) : Packet := .barArr dst 2 w 0 b 3
    let m : Barrier := { Barrier.init with mode := .counted, ecur := 2, enext := 2 }
    let g : Group := { Group.init with members := [(0, dst)], change := some (b, 3, 1, [1]) }
    let y (p : Packet) : State := net1 (fl p) (onT .mc [] fun t => { t with groups := [(0, g)] })
    Lands (net1 (fl (arr 0)) (on .mc [])) (fl (arr 0)) ∧ (((on .mc []).core dst).bar 2).binding = none ∧ (((on .mc []).core dst).bar 2).mode = .off ∧
    (((s (arr 0) m).core dst).bar 2) = m ∧ m.mode = .counted ∧ m.ncur + 1 ≠ m.ecur ∧ (arr 0x20000000000) = .barArr dst 2 0x20000000000 0 b 3 ∧
    (0x20000000000 : Word).getLsbD 41 = true ∧ (0 : Word).getLsbD 41 = false ∧ (0 : Word).getLsbD 40 = m.parity ∧ (0 : Word).getLsbD 56 = false ∧
    ((s (arr 0) m).core dst).regs.length < 256 ∧ (let m := { m with ncur := 1 }; m.ncur + 1 = m.ecur ∧ m.nnext ≠ m.enext) ∧
    ((0x10000000000 : Word).getLsbD 40 ≠ m.parity ∧ { m with nnext := 2 }.enext ≤ { m with nnext := 2 }.nnext ∧ (0x10000000000 : Word).getLsbD 41 = false) ∧
    Lands (net1 (fl (.barReg dst 2 4 b 3)) (on .mc [])) (fl (.barReg dst 2 4 b 3)) ∧
    Lands (net1 (fl (.barBind ⟨0, 0⟩ 0 2 false b 3)) (on .mc [])) (fl (.barBind ⟨0, 0⟩ 0 2 false b 3)) ∧
    (((on .mc []).tile ⟨0, 0⟩).group 0).bars.length < 16 ∧ 16 ≤ ((List.range 16).map fun i => ((⟨0, 1, .mc⟩ : CoreId), i)).length ∧
    Lands (net1 (fl (.grpChange ⟨0, 0⟩ 0 0 0 b 3)) (on .mc [])) (fl (.grpChange ⟨0, 0⟩ 0 0 0 b 3)) ∧ (((on .mc []).tile ⟨0, 0⟩).group 0).change = none ∧
    (((on .mc []).tile ⟨0, 0⟩).group 0).members.length < 4096 ∧ (((y (.grpUpdate dst ⟨0, 0⟩ 0 none true 1 ⟨0, 1⟩)).tile ⟨0, 0⟩).group 0).change = some (b, 3, 1, [1]) ∧
    Lands (net1 (fl (.grpUpdate dst ⟨0, 0⟩ 0 none true 1 ⟨0, 1⟩)) (on .mc [])) (fl (.grpUpdate dst ⟨0, 0⟩ 0 none true 1 ⟨0, 1⟩)) ∧
    (y (.grpUpdate dst ⟨0, 0⟩ 0 none true 1 ⟨0, 1⟩)).isJoining dst 0 = false := by
  refine ⟨witness_Lands _ rfl, rfl, rfl, rfl, rfl, by decide, rfl, rfl, rfl, rfl, rfl, by decide, by decide, by decide, witness_Lands _ rfl, witness_Lands _ rfl, by decide,
    by decide, witness_Lands _ rfl, rfl, by decide, rfl, witness_Lands _ rfl, rfl⟩

/-- With one context listed, every context is in its phase or free. -/
theorem ctx_one (s : State) (i id : CtxId) (c : Ctx) : (({ s with ctxs := [(i, c)] } : State).ctx id).phase = c.phase ∨ (({ s with ctxs := [(i, c)] } : State).ctx id).phase = .free := by
  simp only [State.ctx, Map.get?]
  by_cases h : i = id
  · simp [h]
  · simp only [h, if_false]; exact Or.inr (by split <;> rfl)

/-- Nothing waits for the engine in the one task's context. -/
theorem witness_EngineSteps_all (p : Phase) (h : ∀ step, p ≠ .stall (.engines step)) :
    ∀ id step, (({ on .ac [] with ctxs := [(id0 .ac, { ctx0 .ac [] with phase := p })] } : State).ctx id).phase ≠ .stall (.engines step) := by
  intro id step e
  rcases ctx_one (on .ac []) (id0 .ac) id { ctx0 .ac [] with phase := p } with h' | h' <;> rw [h'] at e
  · exact h step e
  · exact nomatch e

theorem witness_EngineSteps :
    let b := (on .ac []).me
    let x (k n : Nat) (todo : List Elem) (r : Option (Nat × Nat)) : Xfer :=
      { id := 4, by_ := b, key := none, type := 0, drain := none, todo := todo, writes := [], waits := 0, ring := r, notice := ⟨k, n⟩, told := false }
    let z : Elem := { num := 0, member := 0, req := none, need := 0, buf := [], bit := 0, val := some 1, dst := none, dbit := 0, left := [] }
    let s (y : Xfer) : State := { onT .ac [] (withRings 2 0) with xfers := [y] }
    let op (k : ArrayKind) : ArrayOp := { kind := k, acc := 3, by_ := b }
    let row := onC .ac [] fun c => { c with phase := .busy 6 1 [] 4 false .none }
    ((s (x 0 0 [] none)).xfers.find? fun y => y.id = 4) = some (x 0 0 [] none) ∧ ((s (x 1 255 [] none)).xfers.find? fun y => y.id = 4) = some (x 1 255 [] none) ∧
    ((s (x 2 15 [] none)).ctx ⟨b.core, 0⟩).task.map Task.uid = some b.uid ∧ ((s (x 0 0 [z] none)).xfers.find? fun y => y.id = 4) = some (x 0 0 [z] none) ∧ [z] ≠ [] ∧
    (x 0 0 [z] (some (1, 1))).ring = some (1, 1) ∧ b.core.tile = ⟨0, 0⟩ ∧ (s (x 0 0 [z] (some (1, 1)))).claimBefore (x 0 0 [z] (some (1, 1))) 1 = false ∧
    (∀ e ∈ [z], e.val ≠ none) ∧ (((s (x 0 0 [z] none)).tile ⟨0, 0⟩).ring 1).semp = none ∧ ((s (x 0 0 [z] none)).tile ⟨0, 0⟩).mem.wf = true ∧
    (∀ l, 16 + 1 * 8 ≤ l → l < 16 + (1 + 1) * 8 → lineRight ((s (x 0 0 [z] none)).tile ⟨0, 0⟩).prot l .eng = true) ∧ ((on .ac []).tile ⟨0, 0⟩).ops = [] ∧
    ((onT .ac [] fun t => { t with ops := [op .zero, op (.row 1 31 1 6 0)] }).tile ⟨0, 0⟩).ops = op .zero :: [op (.row 1 31 1 6 0)] ∧
    (row.ctx ⟨b.core, b.ctx⟩).phase = .busy 6 1 [] 4 false .none ∧ (op (.matrix 0 10 9 9 [] [] [] [] [0, 1])).kind = .matrix 0 10 9 9 [] [] [] [] [0, 1] ∧
    ([0, 1] : List Nat).Nodup ∧ (op (.drain 4 true 0)).kind = .drain 4 true 0 := by
  refine ⟨rfl, rfl, rfl, rfl, by simp, rfl, rfl, rfl, by decide, rfl, rfl, ?_, rfl, rfl, rfl, rfl, by decide, rfl⟩
  have : ∀ k, k < 8 → lineRight openProt (24 + k) .eng = true := by decide
  intro l h1 h2
  have := this (l - 24) (by omega)
  rwa [show 24 + (l - 24) = l by omega] at this

/-- A page table of 1,024 buckets at the start of stack 0, whose first entry maps the page at 0 to the first page of stack 0, to be read and written. -/
def mapped (s : State) : State :=
  { s with parts := [(0, { Partition.init 0 0 with desc := 0x8000014000000000 })], hbm := [(0, [(15, 0x98)])] }

theorem witness_TranslationSteps :
    let b := (on .mc []).me
    let acc (dev : Bool) : Access := { by_ := b, kind := .read, va := 0, len := 8, addr := 0, device := dev, then_ := .read 3 0 .plain }
    let w (l : List (Word × Nat)) (ps : List Page) : Flight := fl (.walk (acc false) l ps)
    let s (f : Flight) := mapped { on .mc [] with net := [f] }
    let yes : Page := { len := 8, place := some (.hbm 0 0), r := true, w := true }
    let no : Page := { len := 8, place := none, r := false, w := false }
    let c := onC .mc [] fun c => { c with uvec := 0x40 }
    let z : Fibre := { ctx := ctx0 .mc [], number := 5, va := 0, resumed := false, failed := false, ready := false }
    let p : Partition := { Partition.init 0 0 with pendings := [{ number := 5, fibre := some (⟨0, 0, .mc⟩, 2), flight := none }] }
    let r : State := { (on .mc []).modCore ⟨0, 0, .mc⟩ fun k => { k with fibres := [(2, z)] } with parts := [(0, p)] }
    (s (w [(0, 8)] [])).flight 5 = some (w [(0, 8)] []) ∧ (w [(0, 8)] []).st = .transit ∧ (s (w [(0, 8)] [])).walk 0 0 = some 0x9800000000000000 ∧
    (s (w [(0, 8)] [])).walk 0 0x1000 = none ∧ (s (w [(0, 8)] [])).cached 0 0 0 = none ∧
    ({ s (w [] []) with tlbs := [(0, [(0, 0, 0, 5)])] } : State).cached 0 0 0 = some 5 ∧ (s (w [] [yes])).flight 5 = some (w [] [yes]) ∧ (s (w [] [])).parts.get? 0 ≠ none ∧
    b.engine = false ∧ yes.r = true ∧ { yes with r := false }.r = false ∧ no.place = none ∧
    ((Partition.init 0 0).ftail - (Partition.init 0 0).fhead).toNat < 2 ^ (min (max (Partition.init 0 0).fsize 4) 16) ∧ c.here.task = some oneTileTask ∧
    oneTileTask.kind ≠ .upcall ∧ oneTileTask.kind ≠ .notice ∧ (onC .mc [] fun c => { c with level := 1 }).here.level ≠ 0 ∧ c.here.level = 0 ∧ c.here.uvec ≠ 0 ∧
    (c.core c.cur.core).freeFibre.isSome = true ∧ r.parts.get? 0 = some p ∧ (p.pendings.find? fun y => y.number = 5).isSome = true ∧
    (r.core ⟨0, 0, .mc⟩).fibres.get? 2 = some z ∧ (∀ y ∈ p.pendings, y.number ≠ 6) := by
  refine ⟨rfl, rfl, by decide, by decide, rfl, rfl, rfl, Option.isSome_iff_ne_none.mp rfl, rfl, rfl, rfl, rfl, by decide, rfl, by decide, by decide, by decide, rfl,
    by decide, by decide, rfl, by decide, rfl, by decide⟩

/-- The bundle of the two tiles in a state, and its partition's frame on die 0. -/
def pooled (st : BundleSt) (c : Ctx → Ctx) : State :=
  { onC .mc [] c with bundles := [((0, 0), bundle0 st)], tags := [(⟨0, 0, 0⟩, 0), (⟨0, 1, 0⟩, 0)], cycle := 80000 }

theorem witness_FoldingSteps :
    let s := { pooled .resident id with shrinking := [{ tag := 0, then_ := none, tiles := [⟨0, 0, 0⟩] }] }
    let f (p : Phase) := pooled .folding fun c => { c with phase := p }
    let u : State := { pooled .folded id with bundles := [((0, 0), { bundle0 .folded with summoned := some 3 })] }
    let v : State := { pooled .resident id with bundles := [((0, 0), bundle0 .resident), ((0, 1), { bundle0 .folded with summoned := some 3, home := ⟨0, 8, 0⟩ })],
                                                tts := [], launches := [(0, { oneTileLaunch (oneTileObject []) with x := 16, free := true })] }
    s.bundles.get? (0, 0) = some (bundle0 .resident) ∧ s.isShrunk (0, 0) = true ∧ (pooled .resident id).isShrunk (0, 0) = false ∧
    (pooled .resident id).isVictim (0, 0) (bundle0 .resident) = false ∧ (f .dead).foldReady ((f .dead).membersOf 0 0) = true ∧
    (f .run).foldReady ((f .run).membersOf 0 0) = false ∧ u.tagOfLaunch 0 = some 0 ∧ (u.findFrame 0 (u.membersOf 0 0).length).isSome = true ∧
    (u.summonses 0).head? = some (0, 0) ∧ (∀ h ∈ (pooled .unfolding id).membersOf 0 0, ((pooled .unfolding id).tile h).parked = []) ∧
    v.isVictim (0, 0) (bundle0 .resident) = true := by
  refine ⟨rfl, rfl, rfl, by decide, by decide, by decide, rfl, by decide, by decide, by decide, by decide⟩

/-- A started module. -/
def started (s : State) : State := { s with boot := 0x100000000 :: List.replicate 7 0 }

theorem witness_PartitionTileSteps :
    let s : State := { started (pooled .resident id) with parts := [(0, Partition.init 0 0), (1, Partition.init 1 0)] }
    s.booted = true ∧ (s.parts.get? 0).isSome = true ∧ (s.parts.get? 1).isSome = true ∧ s.requests = [] ∧ s.shrinking = [] ∧ (s.tags.map Prod.fst).Nodup ∧
    s.hasFrame 0 2 [⟨0, 0, 0⟩] = false ∧ (∃ x ∈ s.launches, x.2.tag = 0 ∧ x.2.done = false ∧ min 8 x.2.x = 2) ∧
    ({ s with launches := [], bundles := [] } : State).shrinkBundles [⟨0, 0, 0⟩] = [] ∧ ({ s with launches := [] } : State).shrinkBundles [⟨0, 0, 0⟩] ≠ [] := by
  refine ⟨by decide, rfl, rfl, rfl, rfl, by decide, by decide, ⟨_, List.mem_cons_self, rfl, rfl, rfl⟩, rfl, by decide⟩

/-- Two cores that wait for one another: an array task for a queue that the format core writes, a format task for one that the array core writes. -/
def stuckPair : State :=
  let a := (onC .ac [] fun c => { c with phase := .held (.emptyQueue 2 1) })
  mapped { a with ctxs := a.ctxs ++ [(id0 .fc, { ctx0 .fc [] with phase := .held (.emptyQueue 4 1), task := some { oneTileTask with uid := 1 } })],
                  cores := a.cores.set ⟨0, 0, .fc⟩ Core.init, cycle := 8192 }

theorem witness_RoundAndPowerSteps :
    let i : Image := { round := 0, tiles := [], cores := [], ctxs := [], homes := [], tts := [], queued := [], xfers := [], posted := [] }
    let z := { Zone.init with due := some 70000, asked := false, buddy := some 4 }
    let s (z : Zone) : State := { pooled .resident fun c => { c with phase := .dead } with zones := [(0, z)] }
    ((s Zone.init).zones.get? 0).isSome = true ∧ (s Zone.init).zone 0 = Zone.init ∧ Zone.init.due = none ∧ Zone.init.lost = false ∧
    Zone.init.opened + 75000 ≤ (s z).cycle ∧ ({ s z with cycle := 3 } : State).cycle < Zone.init.opened + 75000 ∧ z.due = some 70000 ∧ 70000 ≤ (s z).cycle ∧
    { z with asked := true }.asked = true ∧ z.streaming = none ∧ z.buddy ≠ none ∧ (∀ id ∈ ctxsOf ((s z).tilesIn 0), (s z).closeCtx id = true) ∧
    ⟨0, 0⟩ ∈ (s z).tilesIn 0 ∧ (∀ h ∈ (s z).tilesIn 0, ((s z).tile h).ops = []) ∧ { z with streaming := some i }.streaming = some i ∧
    ({ s z with cycle := 300 } : State).cycle % 300 = 0 ∧ (s z).cycle % 300 ≠ 0 ∧ { PowerGroup.init with alarm := true }.alarm = true ∧
    PowerGroup.init.low + 3000 ≤ (s z).cycle ∧ 15 < 16 ∧ 207 < 208 ∧ (s z).cycle % 8192 ≠ 0 ∧ stuckPair.cycle % 8192 = 0 ∧ stuckPair.scanned < stuckPair.cycle := by
  refine ⟨rfl, rfl, rfl, rfl, by decide, by decide, rfl, by decide, rfl, rfl, by decide, by decide, by decide, by decide, rfl, rfl, by decide, rfl, by decide, by decide,
    by decide, by decide, rfl, by decide⟩

theorem witness_RoundAndPowerSteps_cycle :
    let s : State := { stuckPair with scan := stuckPair.relations }
    ∃ rel more, cyclesOf (s.relations.filter fun r => s.scan.contains r) = [rel :: more] ∧ s.placeOf (s.partOf rel.core) 0 = some (.hbm 0 0) := by
  refine ⟨_, _, rfl, rfl⟩

/-! Losses, the host, the management, the links, the bring-up. -/

theorem witness_LossSteps :
    let i : Image := { round := 4, tiles := [(⟨0, 0⟩, Tile.init)], cores := [], ctxs := [], homes := [], tts := [], queued := [], xfers := [], posted := [] }
    let v : Wave := { moves := [((0, 0), some (0, 1, ⟨0, 8, 0⟩))], again := [] }
    let z : Zone := { Zone.init with wave := some v, restore := some i, lost := true, buddy := some 4 }
    let s (z : Zone) : State := { pooled .remapping id with zones := [(0, z)] }
    (207 : Nat) < 208 ∧ ((s Zone.init).zone 0).sound = true ∧ (s Zone.init).booted = false ∧ (started (s Zone.init)).booted = true ∧
    ({ Zone.init with sound := false }).sound = false ∧ ((s Zone.init).die 0).activeBank = some 0 ∧ (((s Zone.init).die 0).bank 0).length + 1 < 2048 ∧
    (s Zone.init).live ⟨51, 31, 23⟩ = true ∧ (s Zone.init).live ⟨52, 0, 0⟩ = false ∧ ((s Zone.init).zone (⟨0, 0, 0⟩ : PTile).zoneOf).wave = none ∧ (43 : Nat) < 44 ∧
    (mapped (s Zone.init)).tableMaps 0 0 4095 = true ∧ (∃ x, (s Zone.init).launches.get? 0 = some x ∧ x.done = false ∧ x.failed = false ∧ x.tag = 0) ∧
    (s Zone.init).tableMaps 0 0 0 = false ∧ ((s z).zone 0).wave = some v ∧ v.again = [] ∧ ((s z).zone 0).restore = some i ∧ (v.moves.map Prod.fst).Nodup ∧
    ((0, 0), some (0, 1, ⟨0, 8, 0⟩)) ∈ v.moves ∧ (s z).bundles.get? (0, 0) = some (bundle0 .remapping) ∧ ⟨0, 0⟩ ∈ (s z).membersOf 0 0 ∧
    i.tiles.get? ⟨0, 0⟩ = some Tile.init ∧ ((oneTileObject []).regions.any ObjRegion.persist) = false := by
  refine ⟨by decide, rfl, by decide, by decide, rfl, by decide +kernel, by decide +kernel, by decide, by decide, rfl, by decide, by decide, ⟨_, rfl, rfl, rfl, rfl⟩, by decide, rfl, rfl, rfl,
    by decide, by decide, rfl, by decide, rfl, rfl⟩

/-- Interface 0 on link 1, user space 2, of partition 0, its completion ring at host address 4096. -/
def page0 : Iface := { Iface.init with assigned := some (1, 2, 0), nbase := 0x1000, nsize := 4 }
def hosted (f : Iface) : State := { started (mapped (pooled .resident id)) with ifaces := [(0, f)], launches := [], bundles := [] }

theorem witness_InterfaceSteps :
    let s := hosted page0
    s.onLink 1 0 = true ∧ s.onLink 0 0 = false ∧ s.onLink 1 4096 = false ∧ page0.backlog = [] ∧ { page0 with written := 16, cons := 1 }.hasPlace = true ∧
    { page0 with written := 16, cons := 0 }.hasPlace = false ∧ { page0 with backlog := [[1]] }.backlog = [[1]] ∧ (s.iface 0).assigned = some (1, 2, 0) ∧
    (∃ p, s.spans 0 ((s.iface 0).abase + 0xFFC) 4 (fun p => p.w && !p.isHost) = some [p] ∧ p.place = some (.hbm 0 0xFFC)) ∧
    (∃ p, s.spans 0 ((s.iface 0).abase + 0xFFC) 4 (fun p => p.r && !p.isHost) = some [p] ∧ p.place = some (.hbm 0 0xFFC)) ∧
    s.spans 0 ((s.iface 0).abase + 0xFFD) 4 (fun p => p.w && !p.isHost) = none ∧ s.spans 0 ((s.iface 0).abase + 0x1000) 4 (fun p => p.r && !p.isHost) = none ∧
    (0xFFFFC : Word).toNat + 4 ≤ 1048576 := by
  refine ⟨rfl, rfl, rfl, rfl, by decide, by decide, rfl, rfl, ⟨_, rfl, rfl⟩, ⟨_, rfl, rfl⟩, rfl, rfl, by decide⟩

/-- A free-mode program of one node on one tile, its packet, and the partition that holds it. -/
def freeObject : Object :=
  { oneTileObject [] with
      free := true, codeMc := [0x4D, 0, 0, 0], graph := [1, 0x100, 24, 0, 0x8000000]
      classes := [{ graph := 0, role := .mc, cls := 0, handler := 0, prio := 0, node := 0 }] }
def packet0 (w0 : Word) : Iface := { page0 with packets := [(0, w0)], tail := 1 }
def withProgram (o : Object) (s : State) : State := { s with parts := s.parts.map fun x => (x.1, { x.2 with programs := [(0, o)] }) }

/-- Every scope slot of a list is held by the open stream of an interface. -/
def streamOf (i : Nat) : Iface := { packet0 0x800000000000000 with stream := some (i, 0) }
def fullSlots (l : List Nat) : State :=
  withProgram { freeObject with free := false } { hosted page0 with ifaces := l.map fun i => (i, streamOf i) }

theorem get?_map_self {ν : Type} (f : Nat → ν) (l : List Nat) (k : Nat) (h : k ∈ l) : Map.get? (l.map fun i => (i, f i)) k = some (f k) := by
  induction l with
  | nil => exact absurd h List.not_mem_nil
  | cons a r ih =>
    rw [List.map_cons, Map.get?]
    by_cases e : a = k
    · rw [if_pos e, e]
    · rw [if_neg e]
      rcases List.mem_cons.mp h with h | h
      · exact absurd h.symm e
      · exact ih h

def fullPart : Partition := { Partition.init 0 0 with desc := 0x8000014000000000, programs := [(0, { freeObject with free := false })] }

theorem fullSlots_iface (l : List Nat) (k : Nat) (h : k ∈ l) : (fullSlots l).iface k = streamOf k := by
  have : (fullSlots l).ifaces.get? k = some (streamOf k) := get?_map_self streamOf l k h
  rw [State.iface, Map.getD, this]; rfl

theorem fullSlots_used (l : List Nat) (k : Nat) (h : k ∈ l) : k ∈ (fullSlots l).usedSlots := by
  have hk : (fullSlots l).ifaces.keys = l := by
    show List.map _ (List.map _ l) = _
    rw [List.map_map]; exact List.map_id _
  have hl : (fullSlots l).launches = [] := rfl
  refine List.mem_append_right _ (List.mem_filterMap.mpr ⟨k, ?_, ?_⟩)
  · rw [hk]; exact h
  · rw [State.openStream, fullSlots_iface l k h]; rfl

theorem fullSlots_none (l : List Nat) (hl : l = List.range 1024) : (fullSlots l).slotFor 0 .launch = none := by
  have he : ((List.range 1024).filter fun n => !(fullSlots l).usedSlots.contains n) = [] := by
    rw [List.filter_eq_nil_iff]; intro k h
    simp [fullSlots_used l k (hl ▸ h)]
  have hf : (fullSlots l).freeSlot = none := by unfold State.freeSlot; simp only [he, List.isEmpty_nil, if_true]
  simp only [State.slotFor, hf, Option.map_none]

/-- What the checks of a packet give, found by the kernel. -/
theorem ok_of {α : Type} (x : Except Nat α) (p : α → Bool) (h : (match x with | .ok a => p a | .error _ => false) = true) : ∃ a, x = .ok a ∧ p a = true := by
  cases x with
  | error e => exact nomatch h
  | ok a => exact ⟨a, rfl, h⟩
theorem error_of {α : Type} (x : Except Nat α) (n : Nat) (h : (match x with | .ok _ => false | .error k => decide (k = n)) = true) : x = .error n := by
  cases x with
  | error e => exact congrArg _ (of_decide_eq_true h)
  | ok a => exact nomatch h

theorem witness_LaunchSteps :
    let s := withProgram freeObject { hosted (packet0 0x2000000000000000) with tags := [(⟨0, 0, 0⟩, 0)] }
    let e := hosted (packet0 0)
    let p (o : Object) : Partition := { Partition.init 0 0 with desc := 0x8000014000000000, programs := [(0, o)] }
    let x := { oneTileLaunch freeObject with done := false }
    let l : State := { hosted page0 with launches := [(0, x)], tts := [], net := [], cores := [] }
    (s.iface 0).assigned = some (1, 2, 0) ∧ s.parts.get? 0 = some (p freeObject) ∧ s.mayAdmit 0 0 = true ∧ s.mayAdmit 1 0 = false ∧
    (∃ a, s.admissionCheck (s.iface 0) 0 (p freeObject) true = .ok a ∧ decide (a.scope = .none ∧ s.slotFor 0 a.scope = some (0, 0, none)) = true) ∧
    s.admissionCheck (s.iface 0) 0 (p freeObject) false = .error 7 ∧ e.mayAdmit 0 0 = true ∧
    e.admissionCheck (e.iface 0) 0 { Partition.init 0 0 with desc := 0x8000014000000000 } true = .error 3 ∧ (e.iface 0).backlog = [] ∧ (e.iface 0).hasPlace = true ∧
    s.cores.get? ⟨s.fresh, 0, .mc⟩ = none ∧ l.launches.get? 0 = some x ∧ x.done = false ∧ x.failed = false ∧ l.launchOver 0 = true ∧ l.parts.get? x.tag ≠ none ∧
    ({ l with tts := [(⟨0, [0]⟩, TileTask.init 0 0 ⟨0, 0⟩)] } : State).launchOver 0 = false ∧ l.noticesOver 0 = true ∧ (l.iface x.iface).hasPlace = true ∧
    x.flagarr = 0 ∧ x.ending = false ∧ (∀ h ∈ l.tiles.keys, h.l = 0 → (l.tile h).parked = []) := by
  refine ⟨rfl, rfl, by decide, by decide, ok_of _ _ (by decide +kernel), error_of _ _ (by decide +kernel), by decide, rfl, rfl, by decide, rfl, rfl, rfl, rfl, by decide,
    Option.isSome_iff_ne_none.mp rfl, by decide, by decide, by decide, rfl, rfl, by decide⟩

theorem fullSlots_check (l : List Nat) (p : Partition) :
    (fullSlots l).admissionCheck (streamOf 0) 0 p true = (fullSlots []).admissionCheck (streamOf 0) 0 p true := by
  have h1 : (fullSlots l).imagesFit = (fullSlots []).imagesFit := rfl
  have h2 : (fullSlots l).hasFrame = (fullSlots []).hasFrame := rfl
  have hw : (streamOf 0).word 4 = 0 := by decide
  have h3 (o : Object) (t : BitVec 8) (st : Word) (n : Nat) : (fullSlots l).bindingOf o t 0 st n = (fullSlots []).bindingOf o t 0 st n := by simp [State.bindingOf]
  simp only [State.admissionCheck, h1, h2, hw, h3]

theorem waits_of (l : List Nat) (h : 0 ∈ l) :
    ∃ a p, (fullSlots l).parts.get? 0 = some p ∧ (fullSlots l).admissionCheck ((fullSlots l).iface 0) 0 p true = .ok a ∧ a.scope = .launch := by
  obtain ⟨a, h1, h2⟩ := ok_of ((fullSlots []).admissionCheck (streamOf 0) 0 fullPart true) (fun a => decide (a.scope = .launch)) (by decide +kernel)
  exact ⟨a, fullPart, rfl,
    (congrArg (fun f => (fullSlots l).admissionCheck f 0 fullPart true) (fullSlots_iface l 0 h)).trans ((fullSlots_check ..).trans h1), of_decide_eq_true h2⟩

theorem witness_LaunchSteps_waits : ∃ s : State, ∃ a p, s.parts.get? 0 = some p ∧ s.admissionCheck (s.iface 0) 0 p true = .ok a ∧ s.slotFor 0 a.scope = none := by
  obtain ⟨l, hl⟩ : ∃ l, l = List.range 1024 := ⟨_, rfl⟩
  obtain ⟨a, p, h1, h2, h3⟩ := waits_of l (by rw [hl]; exact List.mem_range.mpr (by decide))
  exact ⟨fullSlots l, a, p, h1, h2, by rw [h3]; exact fullSlots_none l hl⟩

/-- A partition whose next command has these words. -/
def command (ws : List Word) : Partition :=
  { Partition.init 0 0 with desc := 0x8000014000000000, cmds := (List.range 8).map fun i => (i, ws.getD i 0), ctail := 1, programs := [(0, freeObject)] }

theorem witness_ManagementSteps :
    let s (p : Partition) : State := { started (pooled .resident id) with parts := [(0, p)] }
    let o : CtxId := ⟨⟨0, 0, .mc⟩, 3⟩
    let u : State := (s (command [0x302])).modCore ⟨0, 0, .mc⟩ fun k => { k with overruns := [(3, ctx0 .mc [])] }
    let u : State := { u with ctxs := [(o, { ctx0 .mc [] with kbank := { (ctx0 .mc []).kbank with tnest := true, code := causeLong, tval := 4 } })] }
    let q : State := { s (command [4]) with launches := [] }
    (s (command [])).booted = true ∧ (s (command [])).parts.get? 5 = none ∧ (on .mc []).booted = false ∧
    (∃ e ∈ (s (command [])).launches, e.2.tag = 0 ∧ e.2.done = false) ∧ (∀ e ∈ q.launches, e.2.tag = 0 → e.2.done = true) ∧ q.shrinking = [] ∧ q.requests = [] ∧
    (command []).ctail ≠ (command []).chead ∧ (Partition.init 0 0).ctail = (Partition.init 0 0).chead ∧ (command []).op = 0 ∧ 4 < (command [5]).op ∧
    (command [1, 1]).zeroOk = false ∧ (command [2, 1]).op = 2 ∧ (command [3, 1]).op = 3 ∧ (command [4, 1]).op = 4 ∧
    (command [0x701]).zeroOk = true ∧ (command [0x701]).op = 1 ∧ ufield ((command [0x701]).word 0) 8 8 ≤ 7 ∧ (s (command [0x701])).commandTile 0 (command [0x701]) = some ⟨0, 0⟩ ∧
    (command [0x701]).word 6 = 0 ∧ (command [0x701]).word 5 = 0 ∧ ufield ((command [1, 0, 0, 0, 0x40]).word 4) 6 6 ≠ 0 ∧ ufield ((command [1, 0, 0, 0, 0x3F]).word 4) 6 6 = 0 ∧
    (command [0x302]).op = 2 ∧ ufield ((command [0x302]).word 0) 8 8 ≤ 3 ∧ (s (command [0x302])).commandTile 0 (command [0x302]) = some ⟨0, 0⟩ ∧
    o.core ∈ coresOf [⟨0, 0⟩] ∧ u.inOverrun o = true ∧ (u.core o.core).overruns.get? 3 = some (ctx0 .mc []) ∧
    (∀ i, (s (command [0x302])).inOverrun i = true → i.core ∉ coresOf [⟨0, 0⟩]) ∧
    (command [3]).op = 3 ∧ (command [3]).zeroOk = true ∧ ufield ((command [3, 0, 0, 0, 1]).word 4) 0 6 ≠ 0 ∧ ufield ((command [3]).word 4) 0 6 = 0 ∧
    ufield ((command [3]).word 6) 0 6 = 0 ∧ freeObject.refusal (command [3]).programs.length = none ∧ (command [3]).programs.length ≤ 64 ∧
    (command [4]).op = 4 ∧ (command [4]).programs.get? 0 = some freeObject ∧ (command [4]).programs.get? 1 = none ∧ q.programUsed 0 0 = false ∧
    49151 + 1 ≤ 49152 ∧ 16383 + 1 ≤ 16384 := by
  refine ⟨by decide, rfl, by decide, ⟨_, List.mem_cons_self, rfl, rfl⟩, by decide, rfl, rfl, by decide, rfl, rfl, by decide, by decide, rfl, rfl, rfl, by decide, rfl, by decide,
    rfl, rfl, rfl, by decide, rfl, rfl, by decide, rfl, by decide, by decide, rfl, ?_, rfl, by decide, by decide, rfl, rfl, by decide, by decide, rfl, rfl, rfl, by decide,
    by decide, by decide⟩
  intro i h
  have : ∀ c : CoreId, (({ started (pooled .resident id) with parts := [(0, command [0x302])] } : State).core c).overruns = [] := by
    intro c
    simp only [State.core, Map.getD]
    show ((Map.get? (Map.set ([] : Map CoreId Core) ⟨0, 0, .mc⟩ Core.init) c).getD Core.init).overruns = []
    simp only [Map.set, Map.get?]
    split <;> rfl
  simp only [State.inOverrun, this] at h
  exact absurd h (by simp [Map.get?])

theorem witness_LinkSteps :
    let b : EdgeEnd := { peer := 0, tag := 0, peerCh := 0, core := ⟨0, 0, .mc⟩, ch := 3 }
    let f : PortFrame := { edge := 1, seq := 5, credit := none, payload := [0, 7], tile := 0, path := [], num := 0 }
    let e : Edge := { port := 15, end_ := b, next := 0, unacked := [(0, f)], expect := 5 }
    let s : State := { withChan .send 64 (on .mc []) with edges := [(1, e)], cycle := 15000 }
    (on .mc []).commitAt = none ∧ ({ on .mc [] with slotTime := 1024 } : State).slotTime % 512 = 0 ∧ ((2 : Nat) : Int) ≤ (1024 : Int) / 512 ∧ (1025 : Int) % 512 ≠ 0 ∧
    (([] : Map (LinkId × Nat) (BitVec 16)).map Prod.fst).Nodup ∧ (15 : Nat) < 16 ∧
    512 < (((3 * 400 / 2 : Nat) : Int) - 0).natAbs ∧ (((3 * 341 / 2 : Nat) : Int) - 0).natAbs ≤ 512 ∧ s.edges.get? 1 = some e ∧ f.edge = 1 ∧ e.port ∉ s.down ∧
    f.seq = e.expect ∧ 1 ≤ (e.expect - { f with seq := 4 }.seq).toNat ∧ (e.expect - { f with seq := 4 }.seq).toNat < 2147483648 ∧
    2147483648 ≤ (e.expect - { f with seq := 6 }.seq).toNat ∧ 0 + 15000 ≤ s.cycle ∧ 15 ∈ ({ s with down := [15] } : State).down ∧ s.edges.get? 2 = none ∧
    ((s.core b.core).chan b.ch).kind = .send ∧ (∀ x ∈ s.edges, x.2.port ≠ 3) := by
  refine ⟨rfl, rfl, by decide, by decide, by decide, by decide, by decide, by decide, rfl, rfl, by decide, rfl, by decide, by decide, by decide, by decide, by decide, rfl, rfl, by decide⟩

/-- Die 0 alone takes part, in a phase. -/
def alone (ph : Nat) : State :=
  { State.reset with dies := (List.range 52).map fun i => (i, { Die.init with part := i == 0, phase := ph, image := some { code := [], ecKey := (0, 0), ecSig := (0, 0), lmsSig := [], version := 0 } }) }

theorem witness_BringupSteps :
    let i : FwImage := { code := [], ecKey := (0, 0), ecSig := (0, 0), lmsSig := [], version := 3 }
    let s : State := { State.reset with dies := [(0, { Die.init with phase := 2 }), (1, { Die.init with phase := 2 })] }
    (51 : Nat) < 52 ∧ (State.reset.die 51).part = true ∧ (State.reset.die 51).phase = 0 ∧ ({ Die.init with slotA := some i }).slotA = some i ∧
    Die.init.minimum.toNat ≤ i.version.toNat ∧ (∀ j, Die.init.slotA ≠ some j) ∧ (∀ j, Die.init.slotB ≠ some j) ∧ ((alone 1).die 0).phase = 1 ∧
    allSeams.contains (0, 1) = true ∧ (s.die 0).phase = 2 ∧ (s.die 1).phase = 2 ∧ (0, 1) ∉ s.trained ∧ s.retiredOf 0 3 = [] ∧ s.retiredOf 1 3 = [] ∧
    (seamLinks 0 1).length = 24 ∧ (alone 2).partDies = [0] ∧ (∀ x ∈ (alone 2).partDies, ((alone 2).die x).phase = 2) ∧
    (∀ x ∈ (alone 2).liveSeams, x ∈ (alone 2).trained) ∧ (∀ x ∈ (alone 4).partDies, ((alone 4).die x).phase = 4) ∧
    (∀ x ∈ (alone 5).partDies, ((alone 5).die x).phase = 5) ∧ (alone 5).boot.getD 0 0 = 0 ∧ (started (alone 5)).boot.getD 0 0 ≠ 0 ∧
    3000000000 ≤ ({ State.reset with cycle := 3000000000 } : State).cycle ∧ State.reset.cycle < 3000000000 ∧ (alone 5).answers = true ∧ State.reset.answers = false := by
  refine ⟨by decide, rfl, rfl, rfl, by decide, (fun _ h => nomatch h), (fun _ h => nomatch h), by decide, by decide, rfl, rfl, by decide, by decide +kernel, by decide +kernel, by decide, by decide,
    by decide, by decide, by decide, by decide, by decide, by decide, by decide, by decide, by decide, by decide⟩

/-- The SHA-384 digest of the one byte 2. It is the x coordinate of a point of P-384; the point less the base point is the key under which (digest, digest) signs it. -/
def digest2 : Nat := 0xDB475240477C5E4497A2C5724CA485F5B1F2C2FC0602B92BAE234238EC8D4E873A7148C739593E95A7F4DFE7C6E69F69
def key2 : Nat × Nat :=
  (0xB42062144550E6F1C1EAB261BC2F03156627CFBA964FB8B26E2EC1644432B6873CF698069CF8AABCD7EBC2754650B412,
   0xCED6FF89AF867F08CC08FA4C6A369DC0E2EE4F55350A07A3820E84657604C645D002B3907E62A6A02E4847EA6BB59FBC)
theorem test_sha384 : bigToNat (sha384 [2]) = digest2 := by decide +kernel
theorem test_ecdsa : ecdsaVerify key2 digest2 (digest2, digest2) = true := by decide +kernel

/-- An LMS signature of leaf 0 in which all hash values are 0. -/
def sig2 : List Byte := natToBig 4 0 ++ natToBig 4 3 ++ List.replicate 2176 0 ++ natToBig 4 6 ++ List.replicate 320 0

/-- Under some public key of 56 bytes it verifies: the key holds the root that it leads to. -/
theorem sig2_verifies (m : List Byte) : ∃ key, lmsVerify key m sig2 = true := by
  let id : List Byte := List.replicate 16 0
  let root := lmsRoot id ((List.range 10).map fun i => slice sig2 (2188 + 32 * i) 32) (1024 + 0)
    (sha256 (id ++ natToBig 4 (1024 + 0) ++ [0x82, 0x82] ++ otsKey id 0 (slice sig2 4 2180) m))
  have hr : root.length = 32 := lmsRoot_length _ _ _ _ (sha256_length _)
  refine ⟨natToBig 4 6 ++ natToBig 4 3 ++ id ++ root, ?_⟩
  have hq : bigToNat (slice sig2 0 4) = 0 := by decide +kernel
  have hp : (natToBig 4 6 ++ natToBig 4 3 ++ id).length = 24 := by rfl
  have hi : slice (natToBig 4 6 ++ natToBig 4 3 ++ id ++ root) 8 16 = id := by
    rw [slice, List.drop_append_of_le_length (by rw [hp]; decide), List.take_left' (by rfl)]; rfl
  have hk : slice (natToBig 4 6 ++ natToBig 4 3 ++ id ++ root) 24 32 = root := by
    rw [slice, List.drop_left' hp, ← hr, List.take_length]
  unfold lmsVerify
  simp only [hi, hk, hq, Bool.and_eq_true, decide_eq_true_eq]
  refine ⟨⟨⟨⟨⟨⟨⟨?_, ?_⟩, ?_⟩, ?_⟩, ?_⟩, ?_⟩, ?_⟩, ?_⟩
  · simp [natToBig, id, hr]
  · rfl
  · rfl
  · decide +kernel
  · decide +kernel
  · decide +kernel
  · decide
  · rfl

theorem test_key_hash : sha384 (natToBig 48 key2.1 ++ natToBig 48 key2.2) =
    natToBig 48 (BitVec.ofNat 384 (bigToNat (sha384 (natToBig 48 key2.1 ++ natToBig 48 key2.2)))).toNat := by decide +kernel

/-- A die whose slot A holds a sound image, signed under the keys that the die has fused. -/
theorem witness_BringupSteps_signed : ∃ (d : Die) (i : FwImage), d.slotA = some i ∧ d.part = true ∧ d.phase = 0 ∧ d.minimum.toNat ≤ i.version.toNat ∧
    sha384 (natToBig 48 i.ecKey.1 ++ natToBig 48 i.ecKey.2) = natToBig 48 d.ecHash.toNat ∧
    ecdsaVerify i.ecKey (bigToNat (sha384 i.code)) i.ecSig = true ∧ lmsVerify d.lmsKey (sha384 i.code) i.lmsSig = true := by
  obtain ⟨key, h⟩ := sig2_verifies (sha384 [2])
  refine ⟨{ Die.init with slotA := some { code := [2], ecKey := key2, ecSig := (digest2, digest2), lmsSig := sig2, version := 0 }, lmsKey := key,
                          ecHash := BitVec.ofNat 384 (bigToNat (sha384 (natToBig 48 key2.1 ++ natToBig 48 key2.2))) }, _, rfl, rfl, rfl, ?_, ?_, ?_, h⟩
  · exact Nat.zero_le _
  · exact test_key_hash
  · rw [test_sha384]; exact test_ecdsa

/-! The step, the decoder, the whole machine. -/

theorem witness_StepRunsDecoded :
    let s := State.reset.place [0x05, 0x23, 0x08, 0x00] .mc 0
    s.agenda = [] ∧ nextIssue s = some (id0 .mc) ∧ decode ((s.select (id0 .mc)).fetchHalves (id0 .mc)) = .ok (.add 2 1 3) ∧
    nextIssue State.reset = none ∧ decode (((State.reset.place [0x01, 0, 0, 0] .mc 0).select (id0 .mc)).fetchHalves (id0 .mc)) = .error (.unassigned 1) ∧
    decode (((State.reset.place [] .mc 0).select (id0 .mc)).fetchHalves (id0 .mc)) = .error .truncated ∧
    asyncDue (onC .mc [] fun c => { c with asyncs := [{ code := causeProt, tval := 0 }] }).here = true ∧ asyncDue (on .mc []).here = false ∧
    interruptDue (on .mc []).here = false := by
  refine ⟨rfl, by decide, rfl, by decide, rfl, rfl, rfl, rfl, rfl⟩

theorem witness_DecodeOfEncode : wf (.add 2 1 3) = true ∧ (Instr.add 2 1 3).isEvent = false ∧ wf (.vaddF32 3 2 1 4 (some 0xFFFF)) = true := by refine ⟨rfl, rfl, rfl⟩

theorem witness_DecodeSound : decode [0x2305, 0x0008] = .ok (.add 2 1 3) := rfl

theorem witness_MemoryStaysCanonical : MemoryCanonical State.reset ∧ MemoryCanonical (mapped (on .mc [])) := by
  refine ⟨⟨?_, ?_, ?_, ?_⟩, ⟨?_, ?_, ?_, ?_⟩⟩ <;> intro e h
  · exact absurd h List.not_mem_nil
  · exact absurd h List.not_mem_nil
  · exact absurd h List.not_mem_nil
  · exact absurd h List.not_mem_nil
  · rcases List.mem_singleton.mp h with rfl; rfl
  · exact absurd h List.not_mem_nil
  · rcases List.mem_singleton.mp h with rfl; rfl
  · exact absurd h List.not_mem_nil

theorem witness_UserLevelKeepsControl :
    let s := on .mc [(1, 7)]
    (Instr.add 2 1 3).isEvent = false ∧ s.cur.core.r ≠ .steward ∧ s.here.level = 0 ∧ ∃ t, exec (.add 2 1 3) s = .next t ∧ t.trapped = none := by
  refine ⟨rfl, by decide, rfl, _, rfl, rfl⟩

/-! ### Single units, with results worked out by hand from the spec and from its worked examples -/

/-- The state a unit leaves. -/
def after (i : Instr) (s : State) : State :=
  match exec i s with
  | .next t => t
  | _ => State.reset

/-- A register the running task reads after a unit. -/
def regAfter (i : Instr) (s : State) (d : BitVec 5) : Word := (after i s).here.reg d

/-- 04, worked example: a packed arithmetic shift. -/
theorem test_psha_worked_example : regAfter (.psha 1 6 5 7) (on .mc [(5, 0x8000000100FF7F80), (6, 0x000F001001080004)]) 7 = 0xFFFF0000000007F8 := by decide
theorem test_movh_worked_example : regAfter (.movi 0x7FFC0 5) (on .mc []) 5 = 0xFFFFFFFFFFFFFFC0 ∧ regAfter (.movh 0x201F 5) (on .mc [(5, 0xFFFFFFFFFE000000)]) 5 = 0xFFFFF0000000201F ∧
    regAfter (.movh 0x77F80 5) (on .mc [(5, 0xFFFFF0000000201F)]) 5 = 0x8000000100FF7F80 := by decide

/-- 04 R124: the amount is not reduced. -/
theorem test_shifts_past_the_width : regAfter (.shl 2 1 3) (on .mc [(1, 5), (2, 0x100)]) 3 = 0 ∧ regAfter (.sha 2 1 3) (on .mc [(1, 0x8000000000000000), (2, 64)]) 3 = 0xFFFFFFFFFFFFFFFF ∧
    regAfter (.shr 2 1 3) (on .mc [(1, 0xFFFFFFFFFFFFFFFF), (2, 64)]) 3 = 0 := by decide

/-- 04 R125: zero divisors, the overflow, rounding toward zero. -/
theorem test_division_corners : regAfter (.div 0 1 3) (on .mc [(1, 7)]) 3 = 0xFFFFFFFFFFFFFFFF ∧ regAfter (.remn 0 1 3) (on .mc [(1, 7)]) 3 = 7 ∧
    regAfter (.div 2 1 3) (on .mc [(1, 0x8000000000000000), (2, 0xFFFFFFFFFFFFFFFF)]) 3 = 0x8000000000000000 ∧
    regAfter (.rem 2 1 3) (on .mc [(1, 0x8000000000000000), (2, 0xFFFFFFFFFFFFFFFF)]) 3 = 0 := by decide
theorem test_division_rounds_toward_zero : regAfter (.div 2 1 3) (on .mc [(1, 0xFFFFFFFFFFFFFFF9), (2, 2)]) 3 = 0xFFFFFFFFFFFFFFFD ∧
    regAfter (.rem 2 1 3) (on .mc [(1, 0xFFFFFFFFFFFFFFF9), (2, 2)]) 3 = 0xFFFFFFFFFFFFFFFF ∧ regAfter (.divn 2 1 3) (on .mc [(1, 0xFFFFFFFFFFFFFFF9), (2, 2)]) 3 = 0x7FFFFFFFFFFFFFFC := by decide
theorem test_high_products : regAfter (.mulh 1 1 3) (on .mc [(1, 0xFFFFFFFFFFFFFFFF)]) 3 = 0 ∧ regAfter (.mulhn 1 1 3) (on .mc [(1, 0xFFFFFFFFFFFFFFFF)]) 3 = 0xFFFFFFFFFFFFFFFE := by decide
theorem test_signed_and_unsigned_compares : regAfter (.slt 2 1 3) (on .mc [(1, 0xFFFFFFFFFFFFFFFF), (2, 1)]) 3 = 1 ∧ regAfter (.sltn 2 1 3) (on .mc [(1, 0xFFFFFFFFFFFFFFFF), (2, 1)]) 3 = 0 := by decide
theorem test_bit_counts : regAfter (.clz 0 3) (on .mc []) 3 = 64 ∧ regAfter (.ctz 1 3) (on .mc [(1, 0x50)]) 3 = 4 ∧ regAfter (.popc 1 3) (on .mc [(1, 0xF0F)]) 3 = 8 := by decide

/-- 04 R108: s0 takes nothing, and a source that is the destination is read before it is written. -/
theorem test_s0_and_source_as_destination : regAfter (.add 1 1 0) (on .mc [(1, 7)]) 0 = 0 ∧ regAfter (.sub 1 2 1) (on .mc [(1, 7), (2, 10)]) 1 = 3 := by decide

/-- 04 R132, R133: offsets count halfwords from the unit's own address. -/
theorem test_transfers : (after (.beq 0x7FE 1 1) (onC .mc [] fun c => { c with pc := 16 })).here.pc = 12 ∧ (after (.bne 4 1 1) (on .mc [])).here.pc = 4 ∧
    (after (.jal 5) (on .mc [])).here.pc = 10 ∧ regAfter (.jal 5) (on .mc []) 31 = 4 := by decide
theorem test_jr_odd_target_traps : (after (.jr 1 1 2) (entries (on .mc [(1, 8)]))).here.kbank.tval = 9 ∧ (after (.jr 1 1 2) (entries (on .mc [(1, 8)]))).here.pc = 0x40 ∧
    regAfter (.jr 2 1 2) (on .mc [(1, 8)]) 2 = 4 := by decide

/-- 04 R137: sysc enters kernel level with the operand in tval. -/
theorem test_sysc_enters_kernel_level :
    let c := (after (.sysc 1) (entries (on .mc [(1, 77)]))).here
    c.level = 1 ∧ c.kbank.tval = 77 ∧ c.pc = 0x40 ∧ c.kbank.plevel = 0 := by decide

/-- Memory of the own tile. -/
def padOf (bs : List Byte) (off : Nat) (t : Tile) : Tile := { t with mem := t.mem.write off bs }

/-- 07 R216, R222: extension, and the lowest byte first. -/
theorem test_loads_extend : regAfter (.ldBS 0 0 1 2) (onT .mc [(1, 64)] (padOf [0x80, 0xFF] 64)) 2 = 0xFFFFFFFFFFFFFF80 ∧
    regAfter (.ldHZ 0 0 1 2) (onT .mc [(1, 64)] (padOf [0x80, 0xFF] 64)) 2 = 0xFF80 := by decide
theorem test_store_halfword : ((after (.stH 0 2 0 1) (on .mc [(1, 0x12345678)])).tile ⟨0, 0⟩).mem.read 0 8 = [0, 0, 0, 0, 0x78, 0x56, 0, 0] := by decide

/-- 12: the old value goes to the register, the sum to memory; a compare that fails stores nothing. -/
theorem test_amo_add : regAfter (.amoAdd 0 1 1 2 3) (onT .mc [(1, 5)] (padOf [0xFF] 0)) 3 = 0xFF ∧
    ((after (.amoAdd 0 1 1 2 3) (onT .mc [(1, 5)] (padOf [0xFF] 0))).tile ⟨0, 0⟩).mem.read 0 3 = [4, 1, 0] := by decide

/-- 12: a compare that fails stores nothing; one that holds stores. -/
theorem test_amo_cas : ((after (.amoCas 0 1 1 2 3) (onT .mc [(1, 9), (3, 5)] (padOf [5] 0))).tile ⟨0, 0⟩).mem.read 0 2 = [9, 0] ∧
    ((after (.amoCas 0 1 1 2 3) (onT .mc [(1, 9), (3, 4)] (padOf [5] 0))).tile ⟨0, 0⟩).mem.read 0 2 = [5, 0] := by decide

/-- 08, worked example: five lanes through the tree give 16,777,220 in lane 0 and nothing elsewhere, with nx. -/
theorem test_vredadd_worked_example :
    let s := onC .ac [] fun c => { c with v := c.v.setIfInBounds 1 (ofLanes 32 fun i => if i = 0 then 0x4B800000 else 0x3F800000), k := c.k.setIfInBounds 1 5 }
    let t := after (.vredaddF32 1 1 2 none) s
    t.vreg 0 2 = 0x4B800002 ∧ t.here.flags = 0x10 := by decide +kernel

/-- 08 R251: integer lanes wrap. -/
theorem test_vadd_lanes :
    let s := onC .ac [] fun c => { c with v := c.v.setIfInBounds 1 0x7F01 }
    (after (.vaddI8 0 0 1 1 2 none) s).vreg 0 2 = 0xFE02 := by decide +kernel

/-- 03, worked example: the scale and the elements of one block of .e2m1. -/
theorem test_e2m1_block :
    let xs := [Val.fin false 3 0, .fin false 0x333333 (-22), .fin true 0x4CCCCD (-25)]
    mxScale (.float fmtE2m1) xs = 0x7E := by decide

/-- 03, worked example: one coded block, and its decoding. -/
def codedBlock : List Byte := 0x33 :: List.replicate 32 0 ++ [0x90, 0xA8] ++ List.replicate 14 0xAA ++ 0x02 :: List.replicate 6 0
theorem test_coded_block : ce8Block ([0, 0, 0x30, 0x30] ++ List.replicate 60 0x38) = codedBlock := by decide +kernel
theorem test_coded_block_decodes : ce8Decode codedBlock = some ([0, 0, 0x30, 0x30] ++ List.replicate 60 0x38) := by decide +kernel

/-- 14, worked example: the bucket and the page offset of a hit in a 2 MiB page. -/
theorem test_bucket : bucketOf 0x45A6B1238 0x2A 1 16 = 28883 ∧ (pageOf (fun _ => 0) 0xB838000000234400 0x45A6B1238 8).place = some (.hbm 7 0x2344B1238) := by decide

/-- 01, worked example: a relative designator on a grid of 64 by 48. -/
theorem test_designator :
    let s := (on .mc []).modLaunch 0 fun l => { l with x := 64, y := 48 }
    s.resolve ⟨0, 130, .mc⟩ 0x801FFFFB001FFFFD = some 2943 ∧ s.resolve ⟨0, 130, .mc⟩ 0xB7F = some 2943 ∧ s.resolve ⟨0, 130, .mc⟩ 3072 = none := by decide

/-- 03 R87: half way goes to the even mantissa, with nx (12, worked example). -/
theorem test_tie_to_even : roundTo fmtF32 (Val.fin false 16777217 0).exact 1 0 = (0x4B800000, 0x10) := by decide

/-- 10 R311, worked example: the one fault lo0 > hi0 is reported against word 5. -/
theorem test_shape_record_fault : tsrFault [0, 15, 0, 0, 0, 4, 3, 0] = some 5 ∧ tsrFault [0, 15, 0, 0, 0, 3, 4, 0] = none := by decide

/-- 07 R216: an access past a segment's limit traps SEGLIM with the offset. -/
theorem test_seglim :
    let c := (after (.ldD 0 0 1 2) (entries (on .mc [(1, 0x1000)]))).here
    c.kbank.code = causeSeglim ∧ c.kbank.tval = 0x1000 ∧ c.pc = 0x40 ∧ c.reg 2 = 0 := by decide
theorem test_misaligned_load : (after (.ldD 0 0 1 2) (entries (on .mc [(1, 12)]))).here.kbank.code = causeAlign := by decide

/-- 07 R226: a load that waits for a full word leaves the word as it is until it is full; its reader leaves it full. -/
theorem test_ldsync_waits : (after (.ldsync 0 0 1 2) (on .mc [])).here.reg 2 = 0 ∧ (after (.ldsync 0 0 1 2) (on .mc [])).here.phase ≠ .run := by decide
theorem test_ldsync_takes :
    let t := after (.ldsync 0 0 1 2) (onT .mc [] fun t => { padOf [7] 0 t with full := [0] })
    t.here.reg 2 = 7 ∧ (t.tile ⟨0, 0⟩).full = [0] := by decide

/-- 05 R165: end leaves the context free. -/
theorem test_end_frees : (after .endTask (on .mc [])).here.task = none := by decide

/-- 06 R205: qflush.q discards one entry, and waits as a pop does. -/
theorem test_qflush : (((after (.qflushQ 2) (onT .ac [] (withEntries 2 2))).tile ⟨0, 0⟩).queue 2).entries.length = 1 := by decide

/-- 13 R390: sem.post adds. -/
theorem test_sem_post : (((after (.semPost 2 1) (on .mc [(1, 3)])).tile ⟨0, 0⟩).sem 2).value = 3 := by decide

/-- 04 R136: a body of one halfword runs three times. -/
theorem test_rep_loops :
    let t := after (.rep 1 4) (on .mc [(4, 3)])
    t.here.pc = 4 ∧ t.here.loop = { active := true, start := 4, stop := 6, count := 3 } := by decide

/-- Words that the spec writes out beside units: 04, 07 to 09, 11 to 13. -/
theorem test_decode_worked_examples :
    decode (word 0x0C98A709) = .ok (.psha 1 6 5 7) ∧ decode (word 0xEFF0052D) = .ok (.movh 0x77F80 5) ∧ decode (word 0x2A0CA75D) = .ok (.ldWS 2 3 5 7) ∧
    decode (word 0x4420A769) = .ok (.stfull 1 8 5 7) ∧ decode (word 0x00200969) = .ok (.ldsync 0 8 0 9) ∧ decode (word 0x0C240961) = .ok (.stD 0 9 0 9) ∧
    decode (word 0x1000E185) = .ok (.vbcastS 0 0 7 1) ∧ decode (word 0x50010185) = .ok (.vmovsToVector 0 0 8 1) ∧ decode (word 0x00012189) = .ok (.kset 9 1) ∧
    decode (word 0xA0802271) = .ok (.vredaddF32 1 1 2 none) ∧ decode (word 0x40004685) = .ok (.vmovsToScalar 0 0 2 6) ∧ decode (word 0x40080455) = .ok (.sendwR 0 1 4) ∧
    decode (word 0x000D0529) = .ok (.movi 0x68 5) ∧ decode (word 0x04140295) = .ok (.unpackCe8 2 5 0 2) ∧ decode (word 0x20000291) = .ok (.cvt 2 0 0 2 none) ∧
    decode (word 0x15000291) = .ok (.cvt 1 5 0 2 none) ∧ decode (word 0x080000AD) = .ok (.fence 2 0) ∧ decode (word 0x0A0000AD) = .ok (.fence 2 1) ∧
    decode (word 0x0C0000AD) = .ok (.fence 3 0) ∧ decode (word 0x1800C5AD) = .ok (.ackw 2 6 5) ∧ decode (word 0x029CC5B9) = .ok (.amoAdd 2 1 7 6 5) ∧
    decode (word 0x929CC5B9) = .ok (.amoCas 2 1 7 6 5) ∧ decode (word 0x400CA0D1) = .ok (.semPost 3 5) ∧ decode (word 0x002480C9) = .ok (.barInit 9 4) ∧
    decode (word 0x402486C9) = .ok (.barArr 0 9 4 6) ∧ decode (word 0x100107CD) = .ok (.grpLeave 8 7) ∧ decode (word 0x0014A451) = .ok (.spawn 5 5 4) ∧
    decode (word 0x101CC04D) = .ok (.arm 7 6) ∧ decode (word 0x00048041) = .ok (.rep 1 4) := by
  refine ⟨?_, ?_, ?_, ?_, ?_, ?_, ?_, ?_, ?_, ?_, ?_, ?_, ?_, ?_, ?_, ?_, ?_, ?_, ?_, ?_, ?_, ?_, ?_, ?_, ?_, ?_, ?_, ?_, ?_⟩ <;> rfl

/-- 09, worked example: the block of R104 from stream offset 40 of MF0, expanded into two entries of FA0. -/
def codedStream : State :=
  let e (bs : List Byte) : QEntry := { data := BitVec.ofNat 512 (bytesToNat bs), tag := false, owner := none }
  onT .fc [(5, 0x68)] fun t =>
    { t with queues := t.queues.set 0 { Queue.init with entries := [e (List.replicate 40 0xEE ++ codedBlock.take 24), e (codedBlock.drop 24 ++ List.replicate 32 0xEE)] } }

theorem test_unpack_worked_example :
    let t := after (.unpackCe8 2 5 0 2) codedStream
    ((t.tile ⟨0, 0⟩).queue 0).cursor = 32 ∧ ((t.tile ⟨0, 0⟩).queue 0).entries.length = 1 ∧ t.here.flags = 0 ∧
    ((t.tile ⟨0, 0⟩).queue 2).entries.map (fun e => (natToBytes 64 e.data.toNat).take 10) =
      [[0, 0, 0, 0, 0, 0x3F, 0, 0x3F, 0x80, 0x3F], [0x80, 0x3F, 0x80, 0x3F, 0x80, 0x3F, 0x80, 0x3F, 0x80, 0x3F]] := by decide +kernel

/-- 07 R239: a global address of a place of the own tile; 01, worked example: the window address of tile 5, offset 0x40. -/
theorem test_gaddr : windowAddr 5 0x40 = 0x100000500040 ∧ regAfter (.gaddr 0 1 2) (on .mc [(1, 0x40)]) 2 = 0x100000000040 := by decide

/-- 06: a send of two words takes the credits of its three flits and puts one message on its way. -/
theorem test_send_takes_credits :
    let s := withChan .send 64 (on .mc [(16, 41), (17, 42)])
    ((after (.sendR 2 3 16) s).core ⟨0, 0, .mc⟩).chan 3 = { (s.core ⟨0, 0, .mc⟩).chan 3 with credits := 62 } ∧ (after (.sendR 2 3 16) s).net.length = 1 := by decide

/-- 08 R258: compress packs the lanes whose selector is not 0. -/
theorem test_vcompress :
    let s := onC .ac [] fun c => { c with v := (c.v.setIfInBounds 1 (ofLanes 32 fun i => i + 1)).setIfInBounds 2 (ofLanes 32 fun i => i % 2) }
    let x := (after (.vcompress 0 0 2 1 3) s).vreg 0 3
    lane x 32 0 = 2 ∧ lane x 32 7 = 16 := by decide +kernel

/-- 08 R255: each lane gets the sum of the lanes up to it. -/
theorem test_vscan :
    let s := onC .ac [] fun c => { c with v := c.v.setIfInBounds 1 (ofLanes 32 fun i => i + 1) }
    let x := (after (.vscanI32 0 0 1 2 none) s).vreg 0 2
    lane x 32 0 = 1 ∧ lane x 32 15 = 136 := by decide +kernel

/-- 08 R264: a unit of a gang acts on every member, each with its own registers. -/
theorem test_gang_lanes :
    let s := (gang2 []).setVreg 1 1 5
    (after (.vaddI32 0 0 1 1 2 none) s).vreg 1 2 = 10 ∧ (after (.vaddI32 0 0 1 1 2 none) s).vreg 0 2 = 0 := by decide +kernel

/-- 04 R121: eret goes back to the unit that trapped. -/
theorem test_trap_and_return :
    let s := after (.sysc 1) (entries (onC .mc [(1, 77)] fun c => { c with pc := 12 }))
    let t := after .eret s
    t.here.level = 0 ∧ t.here.pc = 12 ∧ t.here.kbank.tnest = false := by decide

/-- 05 R166: arm gives the entry its threshold, its class and its argument; a threshold of 0 traps PROT with the word. -/
theorem test_arm :
    let e := ((after (.arm 7 6) (on .mc [(6, 0x2440C), (7, 55)])).core ⟨0, 0, .mc⟩).entry 12
    e.armed = true ∧ e.thr = 2 ∧ e.cls = 4 ∧ e.join = true ∧ e.arg = 55 ∧ (after (.arm 7 6) (entries (on .mc [(6, 0x440C)]))).here.kbank.tval = 0x440C := by decide

/-- 10 R294: an array operation is accepted behind those before it. -/
theorem test_mzero : ((after (.mzero 1) (on .ac [])).tile ⟨0, 0⟩).ops.length = 1 := by decide +kernel

/-- A store that reaches a command page (17 R480, R481): a word of command 0, the tail, read back; head and what is reserved take no write. -/
theorem test_command_page :
    let s := (((hosted page0).writeCommands 0 8 [7, 0, 0, 0, 0, 0, 0, 1]).writeCommands 0 0xF80 [3, 0, 0, 0]).writeCommands 0 0xF88 [9, 0, 0, 0]
    (s.parts.get? 0).map (fun p => (p.word 1, p.ctail, p.chead)) = some (0x0100000000000007, 3, ((hosted page0).parts.get? 0).elim 0 (·.chead)) ∧
    s.readCommands 0 0xF80 2 = [3, 0] ∧ s.readCommands 0 0xFF8 2 = [0, 0] := by decide

/-! Statements that reach further: a steward's words, accesses elsewhere and through translation, queue accesses. -/

theorem witness_StewardWords :
    let s := onC .steward [] fun c => { c with level := 3 }
    s.cur.core.r = .steward ∧ s.cur.core.r ∈ wordRoles 0x016 ∧ s.cur.core.r ∈ wordRoles 0x030 ∧ writeLevel 0x016 ≤ s.here.level.toNat ∧ writeLevel 0x030 ≤ s.here.level.toNat ∧
    wordRead s 0x016 = some 0 ∧ kept 0x016 1 = some 1 := by decide

/-- 02 R521: a steward that writes cw.mode or cw.ptag keeps nothing there. -/
theorem test_steward_keeps_no_tag :
    let s := after (.cww 0x030 1) (onC .steward [(1, 7)] fun c => { c with level := 3 })
    s.here.pc = 4 ∧ wordRead s 0x030 = some 0 := by decide

/-- A posted write of the task of a state. -/
def out1 (s : State) : Posted := { wid := 1, by_ := s.me, home := .tile ⟨0, 1⟩, addr := 0 }

theorem witness_AccessesElsewhere_atomics :
    let s := on .mc []
    (∃ r, atomicOf s.here (.amoAdd 1 1 1 2 3) = some (formAmoAdd 1 1 1 2 3, 1, 2, 8, some 3, r)) ∧
    (∃ r, atomicOf s.here (.redInteger 7 1 0 1 2) = some (formRedInteger 7 1 0 1 2, 1, 2, 4, none, r)) ∧ Passes s [.mc] 0 [] ∧ s.takeSeq ≠ none ∧
    s.locate 1 (s.here.reg 2) 8 8 true true = .ok (.global 0x100000100000) ∧ s.pieces s.cur.core (.global 0x100000100000) 8 = [.tile ⟨0, 1⟩ 0 8 0] ∧
    s.permitted s.cur.core = true ∧ (s.outstanding s.uid).length < 256 ∧
    (∃ r, atomicOf s.here (.amoAdd 2 1 1 2 3) = some (formAmoAdd 2 1 1 2 3, 2, 2, 8, some 3, r)) ∧
    s.locate 2 (s.here.reg 2) 8 8 true true = .ok (.global 0x200000000000) ∧ s.pieces s.cur.core (.global 0x200000000000) 8 = [.xlat 0x200000000000 8 0] ∧
    s.parts.get? s.hereCore.ptag ≠ none := by
  refine ⟨⟨_, rfl⟩, ⟨_, rfl⟩, ?_, Option.isSome_iff_ne_none.mp rfl, rfl, rfl, rfl, by decide, ⟨_, rfl⟩, rfl, rfl, Option.isSome_iff_ne_none.mp rfl⟩
  simp [Passes]; decide

theorem witness_StoresTranslated :
    let s := on .mc []
    let full : State := { s with posted := List.replicate 256 (out1 s) }
    s.locate 2 0 8 8 false true = .ok (.global 0x200000000000) ∧ s.pieces s.cur.core (.global 0x200000000000) 8 = [.xlat 0x200000000000 8 0] ∧
    storeOf s.here (.stD 2 0 0 2) = some (formStD 2 0 0 2, 2, 0, 8, 0, .keep, none) ∧ storeOf s.here (.stfull 2 0 0 2) = some (formStfull 2 0 0 2, 2, 0, 8, 0, .full, none) ∧
    (s.here.reg 0 + (0 : BitVec 7).signExtend 64 * 8 = 0) ∧ 256 ≤ (full.outstanding full.uid).length ∧ (s.outstanding s.uid).length < 256 ∧
    ({ s with parts := [] } : State).parts.get? s.hereCore.ptag = none := by
  refine ⟨rfl, rfl, rfl, rfl, rfl, by decide +kernel, by decide, rfl⟩

theorem witness_OrderedElsewhere :
    let s := on .mc []
    s.locate 1 (s.here.reg 0 + (0 : BitVec 7).signExtend 64 * 8) 8 8 true false = .ok (.global 0x100000100000) ∧
    s.locate 1 (s.here.reg 0 + (0 : BitVec 7).signExtend 64 * 8) 8 8 false true = .ok (.global 0x100000100000) ∧
    s.pieces s.cur.core (.global 0x100000100000) 8 = [.tile ⟨0, 1⟩ 0 8 0] ∧ (s.scopeSet 0).has (.tile ⟨0, 1⟩) = false ∧ (s.scopeSet 2).has (.tile ⟨0, 1⟩) = true ∧
    s.unacked (s.scopeSet 2) = 0 ∧ s.hostLinks = [] ∧
    s.locate 2 (s.here.reg 0 + (0 : BitVec 7).signExtend 64 * 8) 8 8 true false = .ok (.global 0x200000000000) ∧
    s.locate 2 (s.here.reg 0 + (0 : BitVec 7).signExtend 64 * 8) 8 8 false true = .ok (.global 0x200000000000) ∧
    s.pieces s.cur.core (.global 0x200000000000) 8 = [.xlat 0x200000000000 8 0] := by
  refine ⟨rfl, rfl, rfl, rfl, rfl, rfl, rfl, rfl, rfl, rfl⟩

theorem witness_AnswersComplete_number : ((onC .mc [] fun c => { c with took := some 3 }).ctx (id0 .mc)).took = some 3 ∧ ((on .mc []).ctx (id0 .mc)).took = none := ⟨rfl, rfl⟩

/-- A segment of the running task changed. -/
def withSeg (n : Nat) (x : Seg) (s : State) : State := s.modCtx s.cur fun c => { c with segs := c.segs.setIfInBounds n x }

theorem witness_FirstFaultLoads :
    let s := on .mc [(1, 0xFC0), (2, 8), (3, 0x1000), (4, 0x40)]
    let deny := onT .mc [] fun t => { t with prot := 0xFFF :: List.replicate 7 0 }
    let last := withSeg 5 ⟨0x1000000FFFC0, 0xE000000000001000⟩ ((on .mc []).modLaunch 0 fun l => { l with x := 1 })
    Passes s (formLdff 0 1 1 1).roles 0 [] ∧ (s.here.reg 2).toNat % 64 ≠ 0 ∧ (s.here.seg 0).size ≤ (s.here.reg 3).toNat ∧
    ((withSeg 5 ⟨0, 0x8000000000001000⟩ s).here.seg 5).canRead = false ∧ (s.here.reg 4).toNat < ((withSeg 5 ⟨0, 0x8000000000001000⟩ s).here.seg 5).size ∧
    (onT .mc [] (withEntries 1 16)).hasRoom ⟨0, 0⟩ 1 0 2 = false ∧ s.queuePushing s.cur 1 = false ∧
    ({ s with ctxs := s.ctxs ++ [(⟨⟨0, 0, .mc⟩, 1⟩, { ctx0 .mc [] with phase := .busy 3 1 [] 4 false (.queue 1 2) })] } : State).queuePushing s.cur 1 = true ∧
    RoomNow s 1 2 ∧ AtOwnHome s (.pad 0xFC0) 0xFC0 64 ∧ Granted s [.lr] false 0xFC0 64 ∧ (s.here.seg 0).size - 0xFC0 < 64 * 2 ∧
    (∃ l, (deny.tile deny.cur.core.tile).deniedLine [.lr] false 0 128 = some l) ∧ AtOwnHome deny (.pad 0) 0 128 ∧
    (∃ p, last.pieces last.cur.core (.global 0x1000000FFFC0) 128 = [.own 0xFFFC0 64 0, p]) ∧ last.cur.core.t + 1 = last.gridSize last.cur.core.l ∧
    last.ownPending last.cur.core = false ∧ Granted last [.lr] false 0xFFFC0 64 ∧ (last.here.seg 5).isGlobal = true ∧ (last.here.seg 5).canRead = true := by
  refine ⟨?_, by decide, by decide, rfl, by decide, rfl, rfl, rfl, ⟨rfl, rfl⟩, ⟨rfl, rfl⟩, rfl, by decide, ⟨_, rfl⟩, ⟨rfl, rfl⟩, ⟨_, rfl⟩, rfl, rfl, rfl, rfl, rfl⟩
  simp [Passes]; decide

theorem witness_QueueAccessesElsewhere :
    let s := onT .mc [] (withEntries 5 16)
    RoomNow s 1 16 ∧ s.locate 1 (s.here.reg 0) (64 * 16) 64 true false = .ok (.global 0x100000100000) ∧
    s.pieces s.cur.core (.global 0x100000100000) (64 * 16) = [.tile ⟨0, 1⟩ 0 (64 * 16) 0] ∧ s.permitted s.cur.core = true ∧
    s.locate 2 (s.here.reg 0) (64 * 16) 64 true false = .ok (.global 0x200000000000) ∧
    s.pieces s.cur.core (.global 0x200000000000) (64 * 16) = [.xlat 0x200000000000 (64 * 16) 0] ∧ s.parts.get? s.hereCore.ptag ≠ none ∧
    (s.here.seg 1).canRead = true ∧ (s.here.seg 1).isGlobal = true ∧ min (64 * 15) ((s.here.seg 1).size - 0) = 960 ∧ 1 < s.gridSize s.cur.core.l ∧
    s.pieces s.cur.core (.global ((s.here.seg 1).base + 0)) 960 = [.tile ⟨0, 1⟩ 0 960 0] ∧ s.popping s.cur 5 = false ∧
    ((s.tile s.cur.core.tile).queue 5).has s.uid 16 = true ∧ s.locate 1 (s.here.reg 0) (64 * 16) 64 false true = .ok (.global 0x100000100000) ∧
    s.locate 2 (s.here.reg 0) (64 * 16) 64 false true = .ok (.global 0x200000000000) ∧ s.takeSeq ≠ none ∧ (s.outstanding s.uid).length + 1 < 256 := by
  refine ⟨⟨rfl, rfl⟩, rfl, rfl, rfl, rfl, rfl, Option.isSome_iff_ne_none.mp rfl, rfl, rfl, by decide, by decide, rfl, rfl, rfl, rfl, rfl,
    Option.isSome_iff_ne_none.mp rfl, by decide⟩

theorem witness_FirstFaultAnswers :
    let s := onC .mc [] fun c => { c with phase := .busy 7 1 (List.replicate 128 0) 4 false (.firstFault 1 2 128 0 0x200000000000) }
    (s.ctx ⟨s.me.core, s.me.ctx⟩).phase = .busy 7 1 (List.replicate 128 0) 4 false (.firstFault 1 2 128 0 0x200000000000) ∧ 64 + ([] : List Byte).length < 128 := by
  refine ⟨rfl, by decide⟩

/-- A count entry at the head of queue 2 of a tile. -/
def countEntry (s : State) (t : TileId) : State :=
  s.modTile t fun t => { t with queues := [(2, { Queue.init with entries := [{ data := 64, tag := true, owner := none }] })] }
def dataEntry (s : State) (t : TileId) : State := s.modTile t (withEntries 2 1)

theorem witness_FollowerTraps :
    let s := countEntry (dataEntry (gang2 []) ⟨0, 0⟩) ⟨0, 1⟩
    let k := dataEntry (countEntry (gang2 [(1, 2)]) ⟨0, 0⟩) ⟨0, 1⟩
    (∀ j, j < s.gangSize → ((s.tile (memberTile s j)).queue 2).has s.uid 1 = true) ∧ 1 < s.gangSize ∧ (s.head 1 2).tag = true ∧ (∀ j, j < 1 → (s.head j 2).tag = false) ∧
    (k.here.reg 1) &&& ~~~0x13F = 0 ∧ (k.here.reg 1).toNat % 64 ≤ 14 ∧ (∀ j, j < k.gangSize → ((k.tile (memberTile k j)).queue 2).has k.uid 1 = true) ∧
    (k.head 1 2).tag = false ∧ (∀ j, j < 1 → (k.head j 2).tag = true) ∧ (∃ j, j < (gang2 []).gangSize ∧ (((gang2 []).tile (memberTile (gang2 []) j)).queue 2).has 0 1 = false) := by
  refine ⟨?_, by decide, rfl, ?_, rfl, by decide, ?_, rfl, ?_, 0, by decide, rfl⟩
  all_goals intro j h
  · have : j = 0 ∨ j = 1 := by have : j < 2 := h; omega
    rcases this with rfl | rfl <;> rfl
  · obtain rfl : j = 0 := by omega
    rfl
  · have : j = 0 ∨ j = 1 := by have : j < 2 := h; omega
    rcases this with rfl | rfl <;> rfl
  · obtain rfl : j = 0 := by omega
    rfl

theorem witness_GjoinTraps :
    let s := { on .ac [(1, 0x20000), (2, 2), (3, 4), (4, 5)] with cur := ⟨⟨0, 1, .ac⟩, 0⟩ }
    let x (n : Word) := n &&& ~~~0x1FF0F
    x 0x20000 ≠ 0 ∧ x 2 = 0 ∧ x 4 = 0 ∧ (s.cur.core.t % s.gridX s.cur.core.l) % 2 ≠ 0 ∧ (0 : Nat) % 2 = 0 ∧ s.gridX s.cur.core.l < (1 - 1 % 4) + 4 ∧
    (1 - 1 % 2) + 2 ≤ s.gridX s.cur.core.l ∧ s.hereCore.offer = none ∧
    (s.modCore s.cur.core fun k => { k with offer := some { size := 2, entry := 0, notify := false, ready := true } }).hereCore.offer ≠ none := by
  refine ⟨by decide, rfl, rfl, by decide, rfl, by decide, by decide, rfl, Option.isSome_iff_ne_none.mp rfl⟩

theorem witness_FqmvTests :
    let s := onT .fc [] (withEntries 0 2)
    let q (f : Queue → Queue) (n : Nat) := onT .fc [] fun t => let t := withEntries 0 2 t; { t with queues := t.queues.set n (f (t.queue n)) }
    Passes s (formFqmv 2 0 2 none).roles 0 (formFqmv 2 0 2 none).feats ∧ ((s.tile ⟨0, 0⟩).queue 0).cursor = 0 ∧ ((s.tile ⟨0, 0⟩).queue 2).pack = [] ∧
    ((((q (fun x => { x with cursor := 8 }) 0).tile ⟨0, 0⟩).queue 0).cursor ≠ 0) ∧ ((((q (fun x => { x with pack := [1] }) 2).tile ⟨0, 0⟩).queue 2).pack ≠ []) ∧
    ((s.tile ⟨0, 0⟩).queue 0).has s.uid 3 = false := by
  refine ⟨?_, rfl, rfl, by decide, by decide, rfl⟩; simp [Passes]; decide

/-- 04 R120: above user level a unit that rounds leaves the flags as they were. -/
theorem test_flags_of_the_system :
    let v (l : BitVec 2) := onC .ac [] fun c => { c with level := l, v := c.v.setIfInBounds 1 (ofLanes 32 fun i => if i = 0 then 0x4B800000 else 0x3F800000), k := c.k.setIfInBounds 1 5 }
    (after (.vredaddF32 1 1 2 none) (v 1)).here.flags = 0 ∧ (after (.vredaddF32 1 1 2 none) (v 0)).here.flags = 0x10 := by decide +kernel

/-! Statements that reach further: tasks, tickets, barriers, messages and answers. -/

/-- 05 R162: of three equal records two are woken, one stays. -/
theorem test_wake_takes_as_many_as_it_names :
    let w : Waiter := { core := ⟨0, 0, .mc⟩, entry := 9, off := 8, tag := 0 }
    let s := after (.wake 2 1) { on .mc [(1, 0x100000000008), (2, 2)] with homes := [(.tile ⟨0, 0⟩, { HomeSt.init with waiters := [w, w, w] })] }
    (s.home (.tile ⟨0, 0⟩)).waiters.length = 1 ∧ s.net.length = 2 := by decide

theorem witness_TicketUnits_scopes :
    let s := on .mc [(1, 0x201), (2, 2)]
    let st (f : Launch → Launch) := s.modLaunch 0 f
    let room := st fun l => { l with pool := 2, done := false }
    let v := onC .mc [] fun c => { c with level := 1 }
    let two : State := { v with ctxs := v.ctxs ++ [(⟨⟨0, 0, .mc⟩, 1⟩, ctx0 .mc [])] }
    (s.here.reg 1).toNat % 16 = 1 ∧ (s.here.reg 1).toNat / 256 % 256 = 2 ∧ (s.here.reg 1).toNat / 2 ^ 16 = 0 ∧ (s.here.reg 1).toNat / 16 % 16 = 0 ∧
    (s.here.reg 2).toNat % 16 = 2 ∧ s.ownTT.map TTId.path = some (List.replicate (s.staticDepth s.cur.core.l) 0) ∧
    (room.launches.get? 0).map (fun l => (l.free, l.overflow, l.pool, l.done)) = some (false, none, 2, false) ∧
    ((st fun l => { l with scope := .stream, slot := 1 }).launches.get? 0).map (fun l => (l.free, l.scope, l.ending)) = some (false, .stream, false) ∧
    (two.ctx ⟨⟨0, 0, .mc⟩, 1⟩).task.bind Task.tt = two.ownTT ∧ (⟨0, 0, .mc⟩ : CoreId) ∈ two.cores.keys := by
  refine ⟨rfl, rfl, rfl, rfl, rfl, rfl, rfl, rfl, rfl, by decide⟩

/-- 12 R369: after tkt.void another task of the tile task still stands, to end at its boundary. -/
theorem test_void_marks_the_others :
    let v := onC .mc [] fun c => { c with level := 1 }
    let t := after (.tktVoid 0) { v with ctxs := v.ctxs ++ [(⟨⟨0, 0, .mc⟩, 1⟩, ctx0 .mc [])] }
    (t.ctx ⟨⟨0, 0, .mc⟩, 1⟩).ends = true ∧ (t.ctx ⟨⟨0, 0, .mc⟩, 1⟩).phase = .run ∧ (t.ctx (id0 .mc)).phase = .free := by decide

theorem witness_BarrierAndGroupUnits_bound :
    let s := on .mc [(1, 4)]
    let b (m : BarMode) := s.modCore s.cur.core fun c => { c with bars := [(2, { Barrier.init with mode := m })] }
    let full := s.modCore s.cur.core fun c => { c with members := (List.range 8).map fun i => { g := i, index := 0, gen := 0, peers := [] } }
    ((b (.bound 1)).core s.cur.core).barInUse 2 = false ∧ (((b (.bound 1)).core s.cur.core).bar 2).mode = .bound 1 ∧ (b (.bound 1)).permitted s.cur.core = true ∧
    ((b (.bound 1)).modPart 0 fun p => { p with permit := 0 }).permitted s.cur.core = false ∧ 8 ≤ (full.core full.cur.core).members.length ∧
    (s.core s.cur.core).member 4 = none := by
  refine ⟨rfl, rfl, rfl, by decide, by decide, rfl⟩

theorem witness_MessageSteps_bounced :
    let m : Message := { id := 9, src := ⟨0, 1, .fc⟩, sendCh := 3, ch := 3, words := [7, 8], refused := false, reply := false, direct := true, key := ⟨0, [0], 0⟩,
                         tt := none, uid := 1 }
    let f : Flight := fl (.message ⟨0, 0, .mc⟩ m)
    let s (st : BundleSt) (g : Nat) : State := { net1 f (on .mc []) with bundles := [((0, 0), { bundle0 st with gen := g })] }
    (s .folding 0).foldTakes f ⟨0, 0⟩ = false ∧ (s .resident 1).bundle ⟨0, 0⟩ = some { bundle0 .resident with gen := 1 } ∧
    (s .folded 0).isForeign { f with tag := 9 } ⟨0, 0⟩ = true ∧ (s .folded 0).isForeign f ⟨0, 0⟩ = false ∧ (s .folded 0).resends ⟨0, 1, .fc⟩ = false ∧
    (s .resident 0).resends ⟨0, 1, .fc⟩ = true := by
  refine ⟨by decide, rfl, by decide, by decide, by decide, by decide⟩

theorem witness_InjectionAndParking_starved :
    let m (ch : Nat) : Message := { id := 9, src := ⟨0, 1, .fc⟩, sendCh := ch, ch := 3, words := [7], refused := false, reply := false, direct := true, key := ⟨0, [0], 0⟩,
                                    tt := none, uid := 1 }
    let f (n ch : Nat) : Flight := { fl (.message ⟨0, 0, .mc⟩ (m ch)) with id := n, st := .queued [] }
    let s : State := { (on .mc []).modCore ⟨0, 1, .fc⟩ fun k => { k with since := [64, 64, 0, 0, 0, 0, 0, 0] } with net := [f 5 3, f 6 11, f 7 20] }
    s.nextInject ⟨0, 1, .fc⟩ = some (f 5 3) ∧ 64 ≤ (s.core ⟨0, 1, .fc⟩).since.getD ((f 6 11).pkt.sendCh / 8) 0 := by
  refine ⟨by decide, by decide⟩

theorem witness_AccessSteps_more :
    let b := (on .fc []).me
    let eng : Issuer := { b with engine := true }
    let s (p : Packet) := net1 (fl p) (on .mc [])
    let deny := onT .mc [] fun t => { t with prot := 0xFFF :: List.replicate 7 0 }
    let e (k : Option Key) (n : Nat) : Effect :=
      { key := k, part := 0, gated := true, sendw := false, spilled := false, by_ := b, acts := [.write 64 [1] .keep], wid := some 3, xfer := some 4,
        reply := none, addr := 8, elems := n, round := none }
    Lands (s (.read (.tile ⟨0, 0⟩ 8) 8 eng 3 0 .plain 8)) (fl (.read (.tile ⟨0, 0⟩ 8) 8 eng 3 0 .plain 8)) ∧ (deny.tile ⟨0, 0⟩).deniedLine [.eng] false 64 8 = some 1 ∧
    Lands (s (.read (.tile ⟨0, 0⟩ 8) 8 b 3 0 .leading 8)) (fl (.read (.tile ⟨0, 0⟩ 8) 8 b 3 0 .leading 8)) ∧
    Lands (s (.read (.host 1 8) 8 b 3 0 .plain 8)) (fl (.read (.host 1 8) 8 b 3 0 .plain 8)) ∧ (s (.ack 3)).home (.host 1) = HomeSt.init ∧
    commandPageAt (.tile ⟨0, 0⟩) 64 = none ∧ (∃ a, deny.deniesEffect ⟨0, 0⟩ (e none 2) = some a) ∧ (e none 2).elems ≠ 0 ∧
    (∀ h, (on .mc []).repeated h (e (some ⟨0, [0], 1⟩) 2) = none) ∧
    ({ on .mc [] with tts := [(⟨0, [0]⟩, TileTask.init 0 0 ⟨0, 0⟩), (⟨0, [1]⟩, TileTask.init 1 0 ⟨0, 0⟩)] } : State).reached (.tile ⟨0, 0⟩) ⟨0, [1]⟩ = false := by
  refine ⟨witness_Lands _ rfl, rfl, witness_Lands _ rfl, witness_Lands _ rfl, rfl, rfl, ⟨_, rfl⟩, by decide, fun h => ?_, by decide⟩
  cases h <;> rfl

theorem witness_AnswerSteps_number : ((onC .mc [] fun c => { c with took := some 3 }).ctx ⟨(on .mc []).me.core, (on .mc []).me.ctx⟩).took = some 3 := rfl

theorem witness_OwnerSteps_disagree :
    let b := (on .fc []).me
    let dst : CoreId := ⟨0, 0, .mc⟩
    let w : Word := 0x100000000000000
    let r : Registration := { core := ⟨0, 0, .fc⟩, entry := 1, bar := 2, next := false }
    let full : State := net1 (fl (.barArr dst 2 w 0 b 3)) ((on .mc []).modCore dst fun k => { k with regs := List.replicate 256 r })
    ({ Barrier.init with mode := .counted, ecur := 2 }).mode = .counted ∧ (0x20000000000 : Word).getLsbD 41 = true ∧ ({ Barrier.init with mode := .bound 1 }).mode = .bound 1 ∧
    (0 : Word).getLsbD 41 = false ∧ 1 ≠ ((0x20200000000 : Word).extractLsb' 32 8).toNat ∧ ({ Barrier.init with mode := .counted, ecur := 2 }).accepts w = true ∧
    w.getLsbD 56 = true ∧ Lands full (fl (.barArr dst 2 w 0 b 3)) ∧ 256 ≤ (full.core dst).regs.length := by
  refine ⟨rfl, by decide, rfl, by decide, by decide, rfl, by decide, ?_, by decide +kernel⟩
  refine ⟨rfl, rfl, rfl, rfl, fun t b h1 h2 => ?_⟩
  obtain rfl : (⟨0, 0⟩ : TileId) = t := Option.some.inj h1
  obtain rfl : bundle0 .resident = b := Option.some.inj h2
  exact ⟨rfl, rfl, rfl, rfl⟩

/-! Statements that reach further: boundaries, translation, zones, launches, the loader, the host's registers, the bring-up. -/

theorem witness_Boundaries_notDue : (entries (onC .mc [] fun c => { c with pending := 1 })).overrunDue (id0 .mc) = false ∧ ((on .mc []).core ⟨0, 0, .mc⟩).follows = none := ⟨rfl, rfl⟩

/-- 14 R420: a user interrupt waits behind an overrun that is due at the same boundary. -/
theorem test_interrupt_behind_overrun :
    let s (w : Nat) := { entries (onC .mc [] fun c => { c with asked := some 0, pending := 1 }) with cycle := w }
    (after (.userInterruptEntry ⟨⟨0, 0, .mc⟩, 0⟩) (s 65536)).here.uih = false ∧ (s 65536).overrunDue (id0 .mc) = true := by decide

theorem witness_TileTaskSteps_again :
    let x := { TileTask.init 0 0 ⟨0, 0⟩ with done := true, retired := true, ran := true }
    let s : State := { free id with tts := [(⟨0, [0]⟩, x)], zones := [(3, { Zone.init with rerun := [⟨0, [0]⟩] })] }
    s.rerunning ⟨0, [0]⟩ = true ∧ s.settled ⟨0, [0]⟩ = true ∧ s.homeServes (.tile ⟨0, 0⟩) = true := ⟨rfl, rfl, rfl⟩

/-- A context of the running task that is in progress for request 3, and its access of 8 bytes at 0 with its page found. -/
def asking (c : Cont) : State := mapped (onC .mc [] fun x => { x with phase := .busy 3 1 (List.replicate 8 0) 4 false c })
def access (k : AccessKind) (t : Then) : Access := { by_ := (on .mc []).me, kind := k, va := 0, len := 8, addr := 0, device := false, then_ := t }
def found (a : Access) (p : Page) : Flight := fl (.walk a [] [p])
def page (h : Option Place) (r w : Bool) : Page := { len := 8, place := h, r := r, w := w }
def writes8 : Effect :=
  { key := none, part := 0, gated := false, sendw := false, spilled := false, by_ := (on .mc []).me, acts := [.write 0 (List.replicate 8 1) .keep], wid := none,
    xfer := none, reply := some 3, addr := 0, elems := 0, round := none }

theorem witness_TranslatedWrites :
    let a := access .write (.effect writes8)
    let f := found a (page (some (.hbm 0 8)) true true)
    let s : State := { asking .none with net := [f] }
    let q : State := { asking (.popped 5 1) with net := [f] }
    OnePage s f a (page (some (.hbm 0 8)) true true) ∧ (page (some (.hbm 0 8)) true true).allows .write = true ∧ (page (some (.hbm 0 8)) true false).allows .write = false ∧
    (page (some (.host 1 8)) true true).allows .atomic = true ∧ (on .mc []).me.engine = false ∧ writes8.reply = some 3 ∧ writes8.by_ = a.by_ ∧
    (∃ k u, ({ s with net := netWithout s f, cur := id0 .mc } : State).takeSeq = some (k, u)) ∧
    (s.ctx (id0 .mc)).phase = .busy 3 1 (List.replicate 8 0) 4 false .none ∧ (q.ctx (id0 .mc)).phase = .busy 3 1 (List.replicate 8 0) 4 false (.popped 5 1) ∧
    (let b := access .atomic (.atomic writes8)
     OnePage { asking .none with net := [found b (page (some (.hbm 0 8)) true true)] } (found b (page (some (.hbm 0 8)) true true)) b (page (some (.hbm 0 8)) true true)) ∧
    (let b := access .write (.check 3 .device 4 (.store [] true 0 0 0))
     OnePage { asking .none with net := [found b (page (some (.hbm 0 8)) true true)] } (found b (page (some (.hbm 0 8)) true true)) b (page (some (.hbm 0 8)) true true)) := by
  refine ⟨⟨rfl, rfl, rfl, rfl, Option.isSome_iff_ne_none.mp rfl, rfl⟩, rfl, rfl, rfl, rfl, rfl, rfl, ⟨_, _, rfl⟩, rfl, rfl,
    ⟨rfl, rfl, rfl, rfl, Option.isSome_iff_ne_none.mp rfl, rfl⟩, rfl, rfl, rfl, rfl, Option.isSome_iff_ne_none.mp rfl, rfl⟩

theorem witness_TranslatedPrefixes :
    let a := access .read (.read 3 0 .leading)
    let at_ (p : Page) := OnePage { asking .none with net := [found a p] } (found a p) a p
    at_ (page none false false) ∧ at_ (page (some (.hbm 0 8)) false true) ∧ at_ (page (some (.hbm 0 8)) true true) := by
  refine ⟨⟨rfl, rfl, rfl, rfl, ?_, rfl⟩, ⟨rfl, rfl, rfl, rfl, ?_, rfl⟩, ⟨rfl, rfl, rfl, rfl, ?_, rfl⟩⟩ <;> exact Option.isSome_iff_ne_none.mp rfl

/-- 14 R409: a write of a page found, without the right, makes its unit trap PROT with nothing written. -/
theorem test_translated_write_denied :
    let a := access .write (.effect writes8)
    let s : State := entries { asking .none with net := [found a (page (some (.hbm 0 8)) true false)] }
    (after (.walkComplete 5) s).here.kbank.code = causeProt ∧ (after (.walkComplete 5) s).hbm = s.hbm ∧ (after (.walkComplete 5) s).posted = [] := by decide

/-- Whether a zone's replay log fills its space is the implementation's (log entry 18): either way a clause is met, in an early and in a late cycle. -/
theorem witness_RoundAndPowerSteps_full :
    let z := { Zone.init with log := [(0, .ack 3)] }
    z.due = none ∧ z.lost = false ∧ 5 < z.opened + 1024 ∧ z.opened + 1024 ≤ 2000 ∧ (z.logIsFull 0 = false ∨ z.logIsFull 0 = true) := by
  refine ⟨rfl, rfl, by decide, by decide, ?_⟩
  cases Zone.logIsFull _ _ <;> simp

theorem witness_RoundAndPowerSteps_mirrored :
    let i : Image := { round := 0, tiles := [], cores := [], ctxs := [], homes := [], tts := [], queued := [], xfers := [], posted := [] }
    let s (lost : Bool) : State := { pooled .resident id with zones := [(0, { Zone.init with streaming := some i, buddy := some 4 }), (4, { Zone.init with lost := lost })] }
    ((s false).zone 0).streaming = some i ∧ (if ((s false).zone 0).buddy = none then ((s false).zone 0).next else ((s false).zone 0).buddy) = some 4 ∧
    ((s false).zone 4).lost = false ∧ ((s true).zone 4).lost = true := by refine ⟨rfl, by decide, rfl, rfl⟩

theorem witness_LossSteps_log : (State.reset.die 0).activeBank = some 0 ∧ (trimBank ((State.reset.die 0).bank 0)).length < 2048 := by decide +kernel

/-- 18 R494, R496: appending to a log just made, and reading the record back. -/
theorem test_retirement_record :
    let d := Die.init.append 3 1 700 2
    d.bank0.length = Die.init.bank0.length + 1 ∧ d.seq = Die.init.seq + 1 ∧ retired 3 d.bank0 = [(1, 700, 2)] := by decide +kernel

theorem witness_LaunchSteps_failed :
    let x := { oneTileLaunch freeObject with done := false, failed := true }
    let l : State := { hosted page0 with launches := [(0, x)], tts := [], net := [], cores := [] }
    l.noticesOver 0 = true ∧ l.writesOut 0 = false ∧ l.launches.get? 0 = some x ∧
    ({ l with net := [fl (.effect (.agent 0) writes8)] } : State).writesOut 0 = true := by refine ⟨by decide, by decide, rfl, by decide⟩

theorem witness_ManagementSteps_load :
    let s (p : Partition) : State := { started (mapped (pooled .resident id)) with parts := [(0, p)] }
    let c (a len : Word) := command [3, 0, 0, 0, a, len]
    (c 0x200000 64).op = 3 ∧ (c 0x200000 64).zeroOk = true ∧ (s (c 0x200000 64)).spans 0 ((c 0x200000 64).word 4) ((c 0x200000 64).word 5).toNat Page.r = none ∧
    (s (c 0 64)).spans 0 ((c 0 64).word 4) ((c 0 64).word 5).toNat Page.r ≠ none ∧ freeObject.refusalIn ((c 0 64).word 5).toNat (c 0 64).programs.length = none ∧
    (∃ r, { freeObject with sections := [(0, 65)] }.refusalIn ((c 0 64).word 5).toNat (c 0 64).programs.length = some r) ∧ (s (c 0 64)).changing 0 = false := by
  refine ⟨rfl, by decide, by decide +kernel, by decide +kernel, by decide +kernel, ⟨_, rfl⟩, rfl⟩

/-- An object of profile 3 has no unit that its profile does not offer. -/
theorem refused_of_profile3 (o : Object) (h : o.profile = 3) : o.refusedSites = [] := by
  have hf (f : Nat) : ¬ 3 < firstProfile f := by unfold firstProfile; split <;> [omega; split <;> omega]
  have hx (x : Site) : o.refusedFeature x = none := by
    unfold Object.refusedFeature; rw [h, List.find?_eq_none]; intro f _; simpa [offeredProfile] using hf f
  unfold Object.refusedSites; rw [h]; simp [hx]

/-- One node whose edge to itself makes one word and takes two in each firing. -/
def unbalanced : Object := { freeObject with graph := [1, 0x200100, 0x2800000018, 0, 0x8000000, 0x810810000000, 0, 17, 0] }

theorem witness_LoaderRefusals :
    let gs := (parseGraphs freeObject.graph).getD []
    let long : Object := { freeObject with codeMc := List.replicate 131073 0 }
    let us := (parseGraphs unbalanced.graph).getD []
    ({ freeObject with profile := 1, regions := [{ offset := 0, bytes := 8, persist := true }] }).refusedSites ≠ [] ∧ freeObject.refusedSites = [] ∧
    (∃ x ∈ ({ freeObject with sections := [(8, 64)] }).sections, 64 < x.1 + x.2) ∧ parseGraphs ({ freeObject with graph := [] }).graph = none ∧
    parseGraphs freeObject.graph = some gs ∧ ({ freeObject with x := 0 }).limitsOk gs = false ∧ freeObject.limitsOk gs = true ∧
    long.refusedSites = [] ∧ 131072 < long.codeMc.length ∧ freeObject.handlersOk gs = true ∧
    ({ freeObject with codeFc := [0, 0] }).handlersOk gs = false ∧ ({ freeObject with codeFc := [0, 0] }).limitsOk gs = true ∧
    parseGraphs unbalanced.graph = some us ∧ unbalanced.limitsOk us = true ∧ unbalanced.handlersOk us = true ∧ (∃ g ∈ us, g.sizesOk = false) ∧ (∀ g ∈ gs, g.sizesOk = true) := by
  refine ⟨by decide +kernel, refused_of_profile3 _ rfl, ⟨_, List.mem_cons_self, by decide⟩, rfl, by decide +kernel, by decide +kernel, by decide +kernel, refused_of_profile3 _ rfl, ?_,
    by decide +kernel, by decide +kernel, by decide +kernel, by decide +kernel, by decide +kernel, by decide +kernel, by decide +kernel, by decide +kernel⟩
  show 131072 < (List.replicate 131073 (0 : Byte)).length
  rw [List.length_replicate]; decide

theorem witness_RegisterWrites :
    let s := hosted page0
    s.onLink 1 0 = true ∧ s.onLink 0 0 = false ∧ s.parts.get? 0 ≠ none ∧ s.parts.get? 9 = none ∧ (15 : Nat) < 16 ∧ (4095 : Nat) < 4096 ∧ (61 : Nat) < 62 ∧ (63 : Nat) < 64 := by
  refine ⟨rfl, rfl, Option.isSome_iff_ne_none.mp rfl, rfl, by decide, by decide, by decide, by decide⟩

/-- 17 Table 17.1: the completion ring's base, read byte by byte on its link, and 0 on the other. -/
theorem test_page_reads : (List.range 8).map (fun i => (hosted page0).readHwA 1 (0x810 + i)) = [0, 0x10, 0, 0, 0, 0, 0, 0] ∧ (hosted page0).readHwA 0 0x811 = 0 := by decide

theorem witness_MasksAndImages :
    let s := hosted page0
    let r : State := { s with launches := [(0, { oneTileLaunch freeObject with done := false })] }
    (∃ e ∈ r.launches, e.2.tag = 0 ∧ e.2.done = false) ∧ (¬∃ e ∈ s.launches, e.2.tag = 0 ∧ e.2.done = false) ∧ Role.fc ∈ onTile := by
  refine ⟨⟨_, List.mem_cons_self, rfl, rfl⟩, ?_, by decide⟩
  rintro ⟨e, h, _⟩; exact absurd h List.not_mem_nil

/-- 00 R6: a time in ns is rounded up to whole cycles. -/
theorem test_time_rounds_up :
    let s : State := { started (on .mc []) with clock := some 3 }
    (after (.ptpEventMessage 3 1) s).slotTime = 2 := by decide

theorem witness_BringupSteps_more :
    (alone 2).late4 = false ∧ (alone 2).inPhase4 = true ∧ ({ alone 2 with cycle := 3000000000 } : State).phase4Since + 1500000000 ≤ 3000000000 ∧
    (alone 5).failsSetNow = false ∧ 0 < (alone 5).partDies.length ∧
    3 ≤ ({ alone 5 with dies := (alone 5).dies.map fun x => (x.1, { x.2 with read := 3 }) } : State).countRead ∧
    ufield (({ alone 5 with boot := 0x30000000000 :: List.replicate 7 0 } : State).boot.getD 0 0) 40 4 ≠ 0 := by decide +kernel

/-! Further clauses: gangs, handlers above a unit in progress, denials, counts, logs, kept contexts, images, second deaths, what a launch writes last. -/

/-- 08 R268: a trap of the leader of a gang of two. -/
theorem witness_TrapTaken_gang :
    let s := entries (gang2 [])
    (enteredBank s s.cur causeProt).tnest = false ∧ trapEntry s s.cur causeProt ≠ 0 ∧ (s.ctx s.cur).gang = some { size := 2, members := [⟨0, 1⟩] } := by
  refine ⟨rfl, by decide, rfl⟩

theorem test_trap_disbands : ((entries (gang2 [])).takeTrap (id0 .ac) causeBrk false 0 0).here.gang = none ∧
    (((entries (gang2 [])).takeTrap (id0 .ac) causeBrk false 0 0).core ⟨0, 1, .ac⟩).follows = none ∧ ((gang2 []).core ⟨0, 1, .ac⟩).follows ≠ none := by decide

/-- A context at kernel level that a LONG kind 4 entered with a unit in progress at address 8, and its state after eret, but for what is beneath. -/
def beneath (epc : Word) (h : Bool) : State :=
  onC .mc [] fun c =>
    let u : Beneath := { pc := 8, phase := .busy 3 1 (List.replicate 8 0) 4 false (.scalar 2 8 false), took := some 4 }
    { c with level := 1, kbank := { c.kbank with epc := epc, tnest := true }, hbank := { c.hbank with tnest := h }, under := some u }
def returned (s : State) : Ctx := ({ s.here with level := 0, kbank := { s.here.kbank with tnest := false } } : Ctx).jump s.here.kbank.epc

theorem witness_EretReturns_beneath :
    (beneath 8 false).here.under.map Beneath.pc = some (returned (beneath 8 false)).pc ∧ (beneath 12 false).here.under.map Beneath.pc ≠ some (returned (beneath 12 false)).pc ∧
    (returned (beneath 12 false)).kbank.tnest = false ∧ (returned (beneath 12 false)).hbank.tnest = false ∧ (returned (beneath 12 true)).hbank.tnest = true ∧
    (on .mc []).here.under = none := by decide

theorem test_eret_goes_on : (after .eret (beneath 8 false)).here.took = some 4 ∧ (after .eret (beneath 8 false)).here.under = none ∧
    (after .eret (beneath 12 false)).here.phase = .run ∧ (after .eret (beneath 12 true)).here.under ≠ none := by decide

/-- Tile 0 with every line denied. -/
def denied (xs : List (BitVec 5 × Word)) : State := onT .mc xs fun t => { withEntries 5 16 t with prot := List.replicate 8 0 }

theorem witness_LoadsAndStoresDenied_more :
    let s := denied [(1, 0x1000)]
    Passes s [.mc] 0 [] ∧ s.locate 0 (s.here.reg 1 + (0 : BitVec 7).signExtend 64 * 8) 8 8 false true = .error (causeSeglim, 0x1000) ∧
    s.locate 0 (s.here.reg 1 + (0 : BitVec 7).signExtend 64 * 8) 8 8 true false = .error (causeSeglim, 0x1000) ∧
    s.locate 0 (s.here.reg 0 + (1 : BitVec 7).signExtend 64 * 8) 8 8 false true = .ok (.pad 8) ∧ AtOwnHome s (.pad 8) 8 8 ∧
    s.locate 0 (s.here.reg 0 + (1 : BitVec 7).signExtend 64 * 8) 8 8 true false = .ok (.pad 8) ∧ ¬Granted s [.lr] false 8 8 ∧ ¬Granted s [.lw] true 8 8 ∧
    s.popping s.cur 5 = false ∧ ((s.tile s.cur.core.tile).queue 5).has s.uid 16 = true ∧
    s.locate 0 (s.here.reg 1) (64 * 16) 64 false true = .error (causeSeglim, 0x1000) ∧ s.locate 0 (s.here.reg 0) (64 * 16) 64 false true = .ok (.pad 0) ∧
    AtOwnHome s (.pad 0) 0 (64 * 16) ∧ (s.tile s.cur.core.tile).deniedLine [.lw] true 0 (64 * 16) = some 0 ∧
    (∃ d r, atomicOf s.here (.amoAdd 0 0 0 2 3) = some (formAmoAdd 0 0 0 2 3, 0, 2, 4, d, r)) ∧
    floatAtomicOf s.here (.redFloat 1 0 0 3 2) = some (formRedFloat 1 0 0 3 2, 0, 2, 0, none, 1, s.here.reg 3) ∧
    s.locate 0 (s.here.reg 1) 4 4 true true = .error (causeSeglim, 0x1000) ∧ s.locate 0 (s.here.reg 2) 4 4 true true = .ok (.pad 0) ∧
    AtOwnHome s (.pad 0) 0 4 ∧ ¬Granted s [.lr, .lw] true 0 4 ∧ (s.tile s.cur.core.tile).deniedLine [.lr] false 0 (64 * 16) = some 0 := by
  refine ⟨?_, rfl, rfl, rfl, ⟨rfl, rfl⟩, rfl, (fun h => nomatch h), (fun h => nomatch h), rfl, rfl, rfl, rfl, ⟨rfl, rfl⟩, rfl, ⟨_, _, rfl⟩, rfl, rfl, rfl, ⟨rfl, rfl⟩, (fun h => nomatch h), rfl⟩
  simp [Passes]; decide

theorem test_denials_trap : (after (.stq 0 16 0) (entries (denied []))).here.kbank.code = causeProt ∧ (after (.amoAdd 0 1 0 2 3) (entries (denied []))).here.kbank.code = causeProt := by
  decide +kernel

theorem witness_SyncLoads_elsewhere :
    let s := on .mc []
    s.locate 1 (s.here.reg 0 + (0 : BitVec 7).signExtend 64 * 8) 8 8 true false = .ok (.global 0x100000100000) ∧
    s.pieces s.cur.core (.global 0x100000100000) 8 = [.tile ⟨0, 1⟩ 0 8 0] ∧ s.permitted s.cur.core = true ∧
    (s.modPart 0 fun p => { p with permit := 0 }).permitted s.cur.core = false := by
  refine ⟨rfl, rfl, rfl, rfl⟩

theorem witness_TaskEnds_redo : ((onC .mc [] fun c => { c with redo := some 4 }).ctx (id0 .mc)).redo = some 4 ∧ ((on .mc []).ctx (id0 .mc)).redo = none ∧
    (TileTask.init 0 0 ⟨0, 0⟩).seqOf .mc ≠ 4 ∧ ({ TileTask.init 0 0 ⟨0, 0⟩ with seqs := [4, 0, 0] } : TileTask).seqOf .mc = 4 := by decide

/-- 12 R353: a number that a trap gave back, and that no unit took since, is free again after the task. -/
theorem test_number_goes_back :
    let s := onC .mc [] fun c => { c with redo := some 4 }
    (({ s with tts := [(⟨0, [0]⟩, { TileTask.init 0 0 ⟨0, 0⟩ with seqs := [4, 0, 0] })] } : State).endIn (id0 .mc) true).tts.map (fun x => x.2.seqOf .mc) = [3] := by decide

theorem witness_UiretOnStewards : (on .steward []).cur.core.r = .steward ∧ (∀ n ∈ formUiret.feats, ((on .steward []).here.task.elim 0 Task.prof).getLsbD n = false) ∧
    2 ≤ (onC .steward [] fun c => { c with level := 3 }).here.level.toNat ∧ (after .uiret (entries (on .steward []))).here.kbank.code = causeRole := by decide

/-- The task of tile 0 with a read in progress beneath a handler, and the read's answer on its way. -/
theorem witness_AnswersBeneath :
    let s (b : Issuer) := net1 (fl (.reply b 3 0 [1])) (beneath 8 false)
    let b := (on .mc []).me
    let f := fl (.reply b 3 0 [1])
    (s b).flight f.id = some f ∧ f.dst = some ⟨0, 0⟩ ∧ (s b).bundle ⟨0, 0⟩ = some (bundle0 .resident) ∧ f.gen = (bundle0 .resident).gen ∧ (s b).isForeign f ⟨0, 0⟩ = false ∧
    ((s b).ctx (id0 .mc)).under.map Beneath.phase = some (.busy 3 1 (List.replicate 8 0) 4 false (.scalar 2 8 false)) ∧ (s b).awaitsBeneath ⟨0, 0⟩ f.pkt = true := by
  refine ⟨rfl, rfl, rfl, rfl, by decide, rfl, by decide⟩

theorem witness_MessageSteps_counts :
    let c : CoreId := ⟨0, 0, .mc⟩
    let m : Message := { id := 9, src := ⟨0, 0, .fc⟩, sendCh := 3, ch := 3, words := [7], refused := false, reply := false, direct := true, key := ⟨0, [0], 0⟩, tt := none, uid := 1 }
    let f : Flight := { fl (.message c m) with src := some ⟨0, 0, .fc⟩, tag := 9 }
    let s : State := { net1 f (on .mc []) with bundles := [((0, 0), bundle0 .folding)] }
    let counting : Chan := { Chan.closed with kind := .direct, depth := 17, bind := .count 7 }
    s.bundle ⟨0, 0⟩ = some (bundle0 .folding) ∧ s.foldTakes f ⟨0, 0⟩ = true ∧ s.isForeign f ⟨0, 0⟩ = true ∧ s.blocked f = false ∧
    ({ s with later := [(c, 3)] } : State).later = [(c, 3)] ∧ ((s.modCore c fun k => { k with chans := [(3, counting)] }).core c).chan 3 = counting ∧ Fits counting m := by
  refine ⟨rfl, by decide, by decide, by decide, rfl, rfl, by decide, by decide⟩

/-- 05 R147: increments that units made are counted once the units of the cycle have issued, and a full counter stays full. -/
theorem test_counts_follow : let c : CoreId := ⟨0, 0, .mc⟩
    ((({ on .mc [] with later := [(c, 3), (c, 3)] } : State).applyLater.core c).entry 3).counter = 2 := by decide

theorem witness_AccessSteps_logged :
    let b := { (on .fc []).me with core := ⟨1, 0, .fc⟩ }
    let f : Flight := { fl (.read (.tile ⟨0, 0⟩ 8) 8 b 3 0 .sync 8) with src := some ⟨1, 0, .fc⟩ }
    let s : State := { net1 f (on .mc []) with zones := [(0, { Zone.init with buddy := some 4 })] }
    Lands s f ∧ f.dst = some ⟨0, 0⟩ ∧ s.zoneOf ⟨0, 0⟩ = some 0 ∧ (∀ c, f.src = some c → s.zoneOf c.tile ≠ some 0) ∧ (s.zone 0).buddy ≠ none ∧
    (∀ y ∈ (s.home (.tile ⟨0, 0⟩)).syncs, y.id ≠ 3) := by
  refine ⟨⟨rfl, rfl, rfl, rfl, fun t b h1 h2 => ?_⟩, rfl, rfl, ?_, by decide, by decide⟩
  · obtain rfl : (⟨0, 0⟩ : TileId) = t := Option.some.inj h1
    obtain rfl : bundle0 .resident = b := Option.some.inj h2
    exact ⟨rfl, rfl, rfl, rfl⟩
  · intro c h; obtain rfl := Option.some.inj h; decide

/-- A context of tile 0 kept for a save while it runs on. -/
def keeping (s : State) : State := s.modCore ⟨0, 0, .mc⟩ fun k => { k with overruns := [(0, ctx0 .mc [])] }

theorem witness_AnswerSteps_kept :
    let b := (on .mc []).me
    let x : Xfer := { id := 1, by_ := b, key := none, type := 0, drain := none, todo := [], writes := [3], waits := 0, ring := none, notice := ⟨2, 7⟩, told := false }
    let s (p : Packet) := keeping (net1 (fl p) (on .mc []))
    Lands (s (.denial b none none 8)) (fl (.denial b none none 8)) ∧ ((s (.ack 3)).core b.core).overruns.get? 0 = some (ctx0 .mc []) ∧
    (ctx0 .mc []).task.map Task.uid = some b.uid ∧ Lands ({ s (.ack 3) with xfers := [x] }) (fl (.ack 3)) ∧ (3 : Nat) ∈ x.writes ∧
    (({ s (.ack 3) with xfers := [{ x with writes := [] }] } : State).xfers.find? fun y => y.id = 1) = some { x with writes := [] } := by
  have l (s : State) (f : Flight) (h0 : f.dst = some ⟨0, 0⟩) (h1 : s.flight f.id = some f) (h2 : f.st = .transit) (h3 : s.blocked f = false) (h4 : s.heldForRound f = false)
      (h5 : s.bundle ⟨0, 0⟩ = some (bundle0 .resident)) (h6 : f.gen = 0) (h7 : s.isForeign f ⟨0, 0⟩ = false) (h8 : s.awaitsBeneath ⟨0, 0⟩ f.pkt = false) : Lands s f :=
    ⟨h1, h2, h3, h4, fun t b e1 e2 => by
      obtain rfl : (⟨0, 0⟩ : TileId) = t := Option.some.inj (h0.symm.trans e1)
      obtain rfl : bundle0 .resident = b := Option.some.inj (h5.symm.trans e2)
      exact ⟨rfl, h6, h7, h8⟩⟩
  refine ⟨l _ _ rfl rfl rfl rfl rfl rfl rfl (by decide) (by decide), rfl, rfl, l _ _ rfl rfl rfl rfl rfl rfl rfl (by decide) (by decide), by decide, rfl⟩

/-- 14 R408: a translated access is out, one that still awaits its page is not. -/
theorem witness_TranslationSteps_out :
    let b := (on .mc []).me
    let acc : Access := { by_ := b, kind := .read, va := 0, len := 8, addr := 0, device := false, then_ := .read 3 0 .plain }
    (∀ g ∈ (net1 (fl (.walk acc [(0, 8)] [])) (on .mc [])).net, g.pkt.issuer.map Issuer.tag = some 0 → ∃ a ps, g.pkt = .walk a ps []) ∧
    (net1 (fl (.walk acc [(0, 8)] [])) (on .mc [])).accessOut 0 9 = false ∧ (net1 (fl (.read (.hbm 1 0) 8 b 3 0 .plain 0)) (on .mc [])).accessOut 0 9 = true := by
  refine ⟨fun g h _ => ?_, by decide, by decide⟩
  rcases List.mem_singleton.mp h with rfl; exact ⟨_, _, rfl⟩

/-- A bundle that is summoned back to zone 0, and the same beside an image of the zone. -/
def called (z : Zone) (id : CtxId) (c : Ctx) : State :=
  { pooled .folded (fun _ => c) with bundles := [((0, 0), { bundle0 .folded with summoned := some 3 })], zones := [(0, z)], ctxs := [(id, c)] }

theorem witness_FoldingSteps_images :
    let i (ts : Map TileId Tile) : Image := { round := 0, tiles := ts, cores := [], ctxs := [], homes := [], tts := [], queued := [], xfers := [], posted := [] }
    let n : Ctx := { ctx0 .mc [] with level := 1, task := some { oneTileTask with kind := .notice } }
    let u : Beneath := { pc := 8, phase := .busy 3 1 [] 4 false (.scalar 2 8 false), took := none }
    let s (z : Zone) := called z (id0 .mc) (ctx0 .mc [])
    let with_ (ts : Map TileId Tile) : Zone := { Zone.init with streaming := some (i ts) }
    ((s Zone.init).findFrame 0 2).map (fun x => x.2.2.zoneOf) = some 0 ∧ (((s Zone.init).zone 0).restore = none ∧ ((s Zone.init).zone 0).streaming = none) ∧
    ((s (with_ [])).zone 0).streaming ≠ none ∧ (with_ []).holds ⟨0, 0⟩ = false ∧ (with_ [(⟨0, 0⟩, Tile.init), (⟨0, 1⟩, Tile.init)]).holds ⟨0, 1⟩ = true ∧
    (pooled .folding fun _ => n).runsNotice (id0 .mc) = true ∧ (pooled .folding fun _ => n).foldReady ((pooled .folding fun _ => n).membersOf 0 0) = true ∧
    (on .mc []).runsNotice (id0 .mc) = false ∧ ((onC .mc [] fun c => { c with phase := .saved, under := some u }).ctx (id0 .mc)).under = some u ∧
    u.phase = .busy 3 1 [] 4 false (.scalar 2 8 false) := by
  refine ⟨by decide, ⟨rfl, rfl⟩, by decide, by decide, by decide, by decide, by decide, by decide, rfl, rfl⟩

/-- 16 R446, R450: a transfer all of whose writes wait for this round's close stands in its image; one that still reads holds the close. -/
theorem witness_RoundAndPowerSteps_stands :
    let b := (on .ac []).me
    let x (ws : List Nat) (n : Nat) : Xfer := { id := 4, by_ := b, key := none, type := 0, drain := none, todo := [], writes := ws, waits := n, ring := none, notice := ⟨0, 0⟩, told := false }
    let e : Effect := { writes8 with wid := some 3, round := some (0, 0) }
    let s (x : Xfer) : State := { pooled .resident id with zones := [(0, { Zone.init with asked := true, buddy := some 4, streaming := none })], xfers := [x],
                                                           homes := [(.agent 0, { HomeSt.init with held := [e] })] }
    (s (x [3] 0)).xferStands (x [3] 0) = true ∧ (s (x [3] 1)).xferStands (x [3] 1) = false ∧ (x [3] 1).by_.core.tile ∈ (s (x [3] 1)).tilesIn 0 ∧ (3 : Nat) ∈ (s (x [3] 0)).crossingWrites := by
  refine ⟨by decide, by decide, by decide, by decide⟩

/-- A second death in a zone whose wave runs: its regulator's or a tile's. -/
theorem witness_LossSteps_again :
    let v : Wave := { moves := [], again := [] }
    let z : Zone := { Zone.init with wave := some v, lost := true, buddy := some 4 }
    let s : State := { started (pooled .resident id) with zones := [(0, z)] }
    s.booted = true ∧ (s.zone 0).sound = true ∧ (s.zone 0).lost = true ∧ (s.zone 0).wave = some v ∧ s.live ⟨0, 0, 0⟩ = true ∧ (⟨0, 0, 0⟩ : PTile).zoneOf = 0 ∧
    s.bundles.get? (0, 0) = some (bundle0 .resident) ∧ (bundle0 .resident).placed = true ∧ (bundle0 .resident).home.zoneOf = 0 ∧
    (∀ h ∈ s.membersOf 0 0, (s.tile h).parked = []) ∧ (s.zone 0).log = [] ∧
    ((after (.uncorrectableError ⟨0, 0, 0⟩) s).bundles.get? (0, 0)).map Bundle.st = some .remapping := by
  refine ⟨by decide, rfl, rfl, rfl, by decide, by decide, rfl, rfl, by decide, by decide, rfl, by decide⟩

/-- 17 R476: what a failed launch has written and a memory agent still holds is applied before its record. -/
theorem witness_LaunchSteps_last :
    let e : Effect := { writes8 with wid := some 3 }
    let s : State := { on .mc [] with homes := [(.agent 0, { HomeSt.init with held := [e] })] }
    (s.home (.agent 0)).held = [e] ∧ e.acts = [.write 0 (List.replicate 8 1) .keep] ∧ e.by_.core.l = 0 ∧ s.repeated (.agent 0) e = none ∧ commandPageAt (.agent 0) 0 = none ∧
    (∀ f ∈ s.net, f.turnedAway = false) ∧ (∀ h, h ≠ .agent 0 → (s.home h).held = []) ∧ ((s.commitAll 0).stack 0).read 0 2 = [1, 1] := by
  refine ⟨rfl, rfl, rfl, rfl, rfl, by decide, fun h hh => ?_, by decide⟩
  simp [State.home, Map.getD, Map.get?, Ne.symm hh, HomeSt.init]

/-- The object freeObject with its sections, and a module whose memory holds them at device address 0. -/
def stored : Object := { freeObject with sections := [(0, 64), (64, 4), (0, 0), (0, 0), (0, 0), (72, 40)] }
def holding (p : Partition) : State :=
  { started (mapped (pooled .resident id)) with parts := [(0, p)], hbm := [(0, [(15, 0x98), (64, 0x4D), (72, 1), (81, 1), (88, 0x18), (107, 8)])] }

theorem witness_ManagementSteps_sections :
    let p := command [3, 0, 0, 0, 0, 112]
    (holding p).carries 0 (p.word 4) (p.word 5).toNat stored = true ∧ (holding p).carries 0 (p.word 4) (p.word 5).toNat { stored with codeMc := [0x4E, 0, 0, 0] } = false ∧
    (holding p).spans 0 (p.word 4) (p.word 5).toNat Page.r ≠ none ∧ stored.refusalIn (p.word 5).toNat p.programs.length = none ∧
    (objectBytes stored)[0]? = some [0x4D, 0, 0, 0] ∧ stored.sections.getD 1 (0, 0) = (64, 4) ∧ 64 + 4 ≤ (p.word 5).toNat ∧
    (holding p).carries 0 0x200000 64 stored = true ∧ (holding p).spans 0 0x200000 64 Page.r = none ∧ (holding p).commandTile 0 (command [0x302, 0, 0, 5]) = none ∧
    (holding p).carries 0 1 0 stored = true ∧ (holding p).carries 0 0 0 stored = true ∧ (holding p).carries 0 0 64 stored = true ∧
    stored.refusalIn 64 p.programs.length = some (2 :: List.replicate 7 0) := by
  decide +kernel

theorem witness_LinkSteps_bind :
    let s : State := { withChan .send 64 (pooled .resident id) with zones := [(0, { Zone.init with buddy := some 4 })] }
    s.bundle ⟨0, 0⟩ = some (bundle0 .resident) ∧ (s.zone (bundle0 .resident).home.zoneOf).buddy ≠ none ∧ s.edges.get? 1 = none ∧ ((s.core ⟨0, 0, .mc⟩).chan 3).kind = .send ∧
    s.tagOfLaunch 0 = some 0 ∧ (⟨0, 0⟩ : TileId) ∈ s.tiles.keys := by
  refine ⟨rfl, by decide, rfl, rfl, rfl, by decide⟩

/-- Whatever an offset in HW-B is (log entry 21), it is of a register or it is not. -/
theorem witness_HostReads (o : Nat) : Config.globalRegister o = none ∨ ∃ r, Config.globalRegister o = some r := by
  cases Config.globalRegister o <;> simp

/-- 14 R420: an entry that stands on the agenda for a context that can issue waits for its boundary, one for a context that waits does not. -/
theorem witness_StepRunsDecoded_waits :
    let s (i : Instr) : State := { on .mc [] with agenda := [i] }
    ((s (.userInterruptEntry (id0 .mc))).ctx (id0 .mc)).phase = .run ∧ ((onC .mc [] fun c => { c with phase := .dead }).ctx (id0 .mc)).phase ≠ .run ∧
    (s (.walkComplete 3)).agenda = [.walkComplete 3] := by refine ⟨rfl, by decide, rfl⟩

end Sys2Proof.Tests
end

section
/-! O59: the host's registers, masks and images, what a host reads back, and that no step stops the machine. -/

namespace Sys2Proof.Machine

/-! ### No step stops the machine (00 R13) -/

/-- Every meaning answers a next state. Most do so as they stand (unit, event); the rest look first for the thing that they are about, and answer on each branch. -/
theorem exec_next (i : Instr) (s : State) : ∃ t, exec i s = .next t := by
  cases i
  case uiret | bfins =>
    dsimp only [exec, execUiret, execBfins]
    split <;> exact ⟨_, rfl⟩
  case launchAdmission | launchCompletion | activationEnter | taskStart | waitClear | long | boundaryOverrun | asyncTrapTake | kernelNotice | tileTaskComplete |
      tileTaskRetire | messageInject | retryReply | retryResend | transferComplete | ringDeliveryComplete | arrayOperationRetire | gjoinOfferReady | apertureWrite |
      apertureRead | pageWalk | walkComplete | faultCompletion | fold | foldStreamed | unfold | unfoldComplete | remapWaveCommit | closeDeferralEnd | roundMirrored |
      protectionDescriptor | contextSave | loadObject | unloadProgram | unknownCommand | slotTableTakeEffect | scaleOutFrameReceive | scaleOutAck | frameBoundary =>
    dsimp only [exec, execLaunchAdmission, execLaunchCompletion, execActivationEnter, execTaskStart, execWaitClear, execLong, execBoundaryOverrun, execAsyncTrapTake,
      execKernelNotice, execTileTaskComplete, execTileTaskRetire, execMessageInject, execRetryReply, execRetryResend, execTransferComplete, execRingDeliveryComplete,
      execArrayOperationRetire, execGjoinOfferReady, execApertureWrite, execApertureRead, execPageWalk, execWalkComplete, execFaultCompletion, execFold,
      execFoldStreamed, execUnfold, execUnfoldComplete, execRemapWaveCommit, execCloseDeferralEnd, execRoundMirrored, execProtectionDescriptor, execContextSave,
      execLoadObject, execUnloadProgram, execUnknownCommand, execSlotTableTakeEffect, execScaleOutFrameReceive, execScaleOutAck, execFrameBoundary, event]
    (repeat' split) <;> exact ⟨_, rfl⟩
  all_goals exact ⟨_, rfl⟩

/-- A unit boundary answers, whichever of unit, trap and interrupt it takes. -/
theorem boundary_next (i : Instr) (s : State) : ∃ t, boundary i s = .next t := by
  obtain ⟨t, h⟩ := exec_next i s
  simp only [boundary, h]
  split
  · exact ⟨t, rfl⟩
  · split
    · exact exec_next _ s
    · split
      · exact exec_next _ s
      · exact ⟨t, rfl⟩

theorem issue_next (id : CtxId) (s : State) : ∃ t, issue id s = .next t := by
  dsimp only [issue]
  split <;> exact boundary_next _ _

theorem fromAgenda_next (i : Instr) (s : State) : ∃ t, fromAgenda i s = .next t := by
  unfold fromAgenda
  split
  · exact ⟨s, rfl⟩
  · exact exec_next i s

/-- Every step gives a next state: of the agenda, of a unit, of a device step, or of the cycle. -/
theorem step_next (s : State) : ∃ t, step s = .next t := by
  unfold step
  split
  · exact fromAgenda_next _ _
  · split
    · exact issue_next _ s
    · split
      · exact exec_next _ s
      · exact ⟨s.tick, rfl⟩

/-! ### Interfaces and partitions after a write -/

theorem State.iface_modIface (s : State) (n k : Nat) (f : Iface → Iface) : (s.modIface n f).iface k = if k = n then f (s.iface n) else s.iface k := by
  by_cases h : k = n
  · subst h; simp [State.iface, State.modIface]
  · simp [State.iface, State.modIface, Map.getD_set_ne _ _ _ h, h]

theorem State.modPart_of_none {s : State} {tag : BitVec 8} (h : s.parts.get? tag = none) (f : Partition → Partition) : s.modPart tag f = s := by
  simp [State.modPart, h]

theorem State.modPart_of_some {s : State} {tag : BitVec 8} {p : Partition} (h : s.parts.get? tag = some p) (f : Partition → Partition) :
    s.modPart tag f = { s with parts := s.parts.set tag (f p) } := by
  simp [State.modPart, h]

theorem State.modPart_frame (s : State) (tag : BitVec 8) (f : Partition → Partition) : s.modPart tag f = { s with parts := (s.modPart tag f).parts } := by
  unfold State.modPart; split <;> rfl

theorem State.get?_modPart_self {s : State} {tag : BitVec 8} {p : Partition} (h : s.parts.get? tag = some p) (f : Partition → Partition) :
    (s.modPart tag f).parts.get? tag = some (f p) := by
  simp [State.modPart_of_some h]

theorem State.get?_modPart_ne (s : State) {tag k : BitVec 8} (hk : k ≠ tag) (f : Partition → Partition) : (s.modPart tag f).parts.get? k = s.parts.get? k := by
  unfold State.modPart; split
  · rfl
  · exact Map.get?_set_ne _ _ hk

/-! ### Writing registers (00 R9, R11) -/

theorem exec_registerWrite (link : Nat) (r : HostReg) (v : Word) (s : State) : exec (.registerWrite link r v) s = .next (s.writeReg link r v) := rfl

theorem exec_profileMaskWrite (tag m : BitVec 8) (s : State) :
    exec (.profileMaskWrite tag m) s = .next (if (s.parts.get? tag).isSome then s.setProfile tag (m &&& 0xFE) else s) := rfl

/-- A write of an interface page (17 R470): on its own link it changes that interface, on the other nothing. -/
theorem registerWrite_page {s : State} {link n : Nat} {r : HostReg} {v : Word} {f : Iface → Iface} {g : Iface}
    (hw : s.writeReg link r v = if s.onLink link n then s.modIface n f else s) (hg : f (s.iface n) = g) :
    ∃ t, exec (.registerWrite link r v) s = .next t ∧ t = { s with ifaces := t.ifaces } ∧
      ∀ k, t.iface k = if k = n ∧ s.onLink link n = true then g else s.iface k := by
  refine ⟨_, exec_registerWrite link r v s, ?_⟩
  rw [hw]
  by_cases h : s.onLink link n = true
  · simp only [h, if_true, and_true]
    exact ⟨rfl, fun k => by rw [State.iface_modIface, hg]⟩
  · simp only [h, Bool.false_eq_true, if_false, and_false, implies_true, and_true]

/-- A tag names its own block of HW-B, so a write there reaches its partition. -/
theorem modPart_block (s : State) (tag : BitVec 8) (f : Partition → Partition) :
    (if tag.toNat < 256 then s.modPart (BitVec.ofNat 8 tag.toNat) f else s) = s.modPart tag f := by
  rw [if_pos tag.isLt, BitVec.ofNat_toNat, BitVec.setWidth_eq]

/-- A write of a partition's block changes that partition alone. -/
theorem registerWrite_part {s : State} {link : Nat} {tag : BitVec 8} {r : HostReg} {v : Word} {p q : Partition} {f : Partition → Partition}
    (hp : s.parts.get? tag = some p) (hw : s.writeReg link r v = s.modPart tag f) (hq : f p = q) :
    ∃ t, exec (.registerWrite link r v) s = .next t ∧ t = { s with parts := t.parts } ∧
      t.parts.get? tag = some q ∧ ∀ k, k ≠ tag → t.parts.get? k = s.parts.get? k := by
  refine ⟨_, exec_registerWrite link r v s, ?_⟩
  rw [hw]
  exact ⟨State.modPart_frame s tag f, hq ▸ State.get?_modPart_self hp f, fun k hk => State.get?_modPart_ne s hk f⟩

/-- A write of a block whose partition is not changes nothing. -/
theorem registerWrite_no_part {s : State} {link : Nat} {tag : BitVec 8} {r : HostReg} {v : Word} {f : Partition → Partition}
    (hp : s.parts.get? tag = none) (hw : s.writeReg link r v = s.modPart tag f) : exec (.registerWrite link r v) s = .next s := by
  rw [exec_registerWrite, hw, State.modPart_of_none hp]

/-- The profile mask of HW-B is written as the device step of 17 R489 writes it. -/
theorem registerWrite_profileMask (s : State) (link : Nat) (tag : BitVec 8) (v : Word) :
    exec (.registerWrite link (.profileMask tag.toNat) v) s = exec (.profileMaskWrite tag (v.setWidth 8)) s := by
  rw [exec_registerWrite, exec_profileMaskWrite]
  simp only [State.writeReg, tag.isLt, true_and, BitVec.ofNat_toNat, BitVec.setWidth_eq]

/-- A permit mask after one of its words is written (17 R464). -/
theorem getLsbD_setMask (m : BitVec 256) {w : Nat} (v : Word) (hw : w < 4) {i : Nat} (hi : i < 256) :
    (setMask m w v).getLsbD i = if 64 * w ≤ i ∧ i < 64 * w + 64 then v.getLsbD (i - 64 * w) else m.getLsbD i := by
  have ones : (0xFFFFFFFFFFFFFFFF#256) = (BitVec.allOnes 64).setWidth 256 := by decide
  have hw' : ¬ 4 ≤ w := by omega
  rw [setMask, if_neg hw', ones]
  simp only [BitVec.getLsbD_or, BitVec.getLsbD_and, BitVec.getLsbD_not, BitVec.getLsbD_shiftLeft, BitVec.getLsbD_setWidth, BitVec.getLsbD_allOnes, hi, decide_true,
    Bool.true_and]
  by_cases hlo : 64 * w ≤ i
  · by_cases hup : i < 64 * w + 64
    · have h1 : i - 64 * w < 64 := by omega
      have h2 : i - 64 * w < 256 := by omega
      simp [hlo, hup, h1, h2, Nat.not_lt.mpr hlo]
    · have h1 : ¬ i - 64 * w < 64 := by omega
      simp [hup, h1, BitVec.getLsbD_of_ge v (i - 64 * w) (by omega)]
  · simp [hlo, Nat.lt_of_not_le hlo]

/-- What a host write of a register does, by where the register stands. -/
theorem registerWrites : Claims.RegisterWrites := by
  intro s link v
  refine ⟨fun n => ⟨fun k w hk hw => registerWrite_page (if_pos ⟨hk, hw⟩) rfl, registerWrite_page rfl rfl, registerWrite_page rfl rfl, registerWrite_page rfl rfl,
      registerWrite_page rfl rfl, fun hn => ?_⟩, fun tag => ⟨rfl, rfl, fun hp r hr => ?_, fun p hp => ?_⟩, rfl,
    fun l k hk => congrArg Host.Outcome.next (if_pos hk), rfl, rfl⟩
  · refine ⟨s.assignIface n v, congrArg Host.Outcome.next (if_pos hn), rfl, ?_, fun k hk => ?_⟩
    · rw [State.assignIface, State.iface_modIface, if_pos rfl]
    · rw [State.assignIface, State.iface_modIface, if_neg hk]
  · simp only [List.mem_cons, List.not_mem_nil, or_false] at hr
    rcases hr with rfl | rfl | rfl | rfl | rfl | rfl
    case inr.inr.inr.inr.inl => rw [registerWrite_profileMask, exec_profileMaskWrite, hp]; rfl
    all_goals exact registerWrite_no_part hp (modPart_block s tag _)
  · have stores {r : HostReg} {q : Partition} {f : Partition → Partition}
        (hw : s.writeReg link r v = if tag.toNat < 256 then s.modPart (BitVec.ofNat 8 tag.toNat) f else s)
        (hq : f p = q) := registerWrite_part hp (hw.trans (modPart_block s tag f)) hq
    exact ⟨stores rfl rfl, stores rfl rfl, stores rfl rfl, stores rfl rfl, stores rfl rfl, registerWrite_profileMask s link tag v,
      fun w hw => ⟨setMask p.permit w v, stores rfl rfl, fun i hi => getLsbD_setMask _ v hw hi⟩, fun k w hk hw => stores (if_pos ⟨hk, hw⟩) rfl,
      stores rfl rfl, stores rfl rfl, stores rfl rfl⟩

/-! ### Profile masks (17 R489; 16 R451) -/

/-- A zone is another with more in its replay log. -/
def Zone.Logged (z z' : Zone) : Prop := ∃ l, z' = { z with log := z.log ++ l }

theorem Zone.Logged.refl (z : Zone) : z.Logged z := ⟨[], by simp⟩

theorem Zone.Logged.trans {a b c : Zone} (h : a.Logged b) (h' : b.Logged c) : a.Logged c := by
  obtain ⟨l, rfl⟩ := h
  obtain ⟨m, rfl⟩ := h'
  exact ⟨l ++ m, by simp⟩

theorem Zone.Logged.round_eq {z z' : Zone} (h : z.Logged z') : z'.round = z.round := by obtain ⟨l, rfl⟩ := h; rfl

theorem Zone.Logged.buddy_eq {z z' : Zone} (h : z.Logged z') : z'.buddy = z.buddy := by obtain ⟨l, rfl⟩ := h; rfl

theorem Zone.Logged.mem {z z' : Zone} (h : z.Logged z') {e : BitVec 32 × Packet} (he : e ∈ z.log) : e ∈ z'.log := by
  obtain ⟨l, rfl⟩ := h
  exact List.mem_append_left l he

theorem State.zone_modZone (s : State) (n k : Nat) (f : Zone → Zone) : (s.modZone n f).zone k = if k = n then f (s.zone n) else s.zone k := by
  by_cases h : k = n
  · subst h; simp [State.zone, State.modZone]
  · simp [State.zone, State.modZone, Map.getD_set_ne _ _ _ h, h]

theorem State.logHost_frame (s : State) (t : TileId) (p : Packet) : s.logHost t p = { s with zones := (s.logHost t p).zones } := by
  unfold State.logHost
  split
  · rfl
  · dsimp only; split <;> rfl

theorem State.logHost_logged (s : State) (t : TileId) (p : Packet) (z : Nat) : (s.zone z).Logged ((s.logHost t p).zone z) := by
  unfold State.logHost
  split
  · exact .refl _
  · dsimp only; split
    · exact .refl _
    · rw [State.zone_modZone]; split
      · rename_i h; exact ⟨_, by rw [h]⟩
      · exact .refl _

/-- What the outside writes into a resident tile of a zone with a buddy stands in that zone's log. -/
theorem State.mem_logHost {s : State} {t : TileId} {b : Bundle} (p : Packet) (hb : s.bundle t = some b) (hr : b.st = .resident)
    (hz : (s.zone b.home.zoneOf).buddy ≠ none) : ((s.zone b.home.zoneOf).round, p) ∈ ((s.logHost t p).zone b.home.zoneOf).log := by
  have hl : (s.zone b.home.zoneOf).logs = true := by simp [Zone.logs, Option.isSome_iff_ne_none.mpr hz]
  simp [State.logHost, hb, hr, hl, State.zone_modZone]

theorem State.putProfile_frame (s : State) (t : TileId) (m : BitVec 8) : s.putProfile t m = { s with cores := (s.putProfile t m).cores } := rfl

/-- A mask put on a tile waits in each of its three cores for their next activation. -/
theorem State.core_putProfile (s : State) (t : TileId) (m : BitVec 8) (c : CoreId) :
    (s.putProfile t m).core c = if c.tile = t ∧ c.r ≠ .steward then { s.core c with profNew := some m } else s.core c := by
  have put (s : State) (r : Role) : (s.modCore (t.core r) fun k => { k with profNew := some m }).core c =
      if c.tile = t ∧ c.r = r then { s.core c with profNew := some m } else s.core c := by
    have hid : c = t.core r ↔ c.tile = t ∧ c.r = r := by
      cases c; cases t; simp [CoreId.tile, TileId.core, and_assoc]
    by_cases h : c = t.core r
    · rw [if_pos (hid.mp h), h, State.core_modCore_self]
    · rw [if_neg (mt hid.mpr h), State.core_modCore_ne _ _ h]
  simp only [State.putProfile, coresOf, List.flatMap_cons, List.flatMap_nil, List.append_nil, List.foldl_cons, List.foldl_nil, put]
  by_cases ht : c.tile = t <;> cases hr : c.r <;> simp [ht]

/-- The host write of a profile mask on one tile, which a replay log holds. -/
def State.profileTile (s : State) (m : BitVec 8) (t : TileId) : State := (s.putProfile t m).logHost t (.profile t m)

/-- The host writes of a profile mask, tile by tile. -/
def State.profileTiles (s : State) (m : BitVec 8) (ts : List TileId) : State := ts.foldl (fun s t => s.profileTile m t) s

/-- A mask write stores the mask in the partition and makes the writes on the partition's tiles. -/
theorem State.setProfile_eq (s : State) (tag m : BitVec 8) :
    s.setProfile tag m =
      (s.modPart tag fun p => { p with mask := m }).profileTiles m (s.tiles.keys.filter fun t => decide (s.tagOfLaunch t.l = some tag)) := rfl

theorem State.profileTiles_cons (s : State) (m : BitVec 8) (t : TileId) (ts : List TileId) :
    s.profileTiles m (t :: ts) = (s.profileTile m t).profileTiles m ts := rfl

theorem State.profileTile_frame (s : State) (m : BitVec 8) (t : TileId) :
    s.profileTile m t = { s with cores := (s.profileTile m t).cores, zones := (s.profileTile m t).zones } := by
  rw [State.profileTile, State.logHost_frame, State.putProfile_frame]

theorem State.core_profileTile (s : State) (m : BitVec 8) (t : TileId) (c : CoreId) :
    (s.profileTile m t).core c = if c.tile = t ∧ c.r ≠ .steward then { s.core c with profNew := some m } else s.core c := by
  rw [State.profileTile, State.logHost_frame]
  exact State.core_putProfile s t m c

theorem State.profileTile_logged (s : State) (m : BitVec 8) (t : TileId) (z : Nat) : (s.zone z).Logged ((s.profileTile m t).zone z) :=
  State.logHost_logged (s.putProfile t m) t (.profile t m) z

theorem State.profileTiles_frame (s : State) (m : BitVec 8) (ts : List TileId) :
    s.profileTiles m ts = { s with cores := (s.profileTiles m ts).cores, zones := (s.profileTiles m ts).zones } := by
  induction ts generalizing s with
  | nil => rfl
  | cons t ts ih =>
    calc s.profileTiles m (t :: ts)
      _ = { s.profileTile m t with cores := (s.profileTiles m (t :: ts)).cores, zones := (s.profileTiles m (t :: ts)).zones } := ih (s.profileTile m t)
      _ = _ := by rw [State.profileTile_frame]

theorem State.core_profileTiles (s : State) (m : BitVec 8) (ts : List TileId) (c : CoreId) :
    (s.profileTiles m ts).core c = if c.tile ∈ ts ∧ c.r ≠ .steward then { s.core c with profNew := some m } else s.core c := by
  induction ts generalizing s with
  | nil => simp [State.profileTiles]
  | cons t ts ih =>
    rw [State.profileTiles_cons, ih, State.core_profileTile]
    by_cases ht : c.tile = t <;> by_cases hts : c.tile ∈ ts <;> by_cases hr : c.r = .steward <;> simp [ht, hts, hr]

theorem State.profileTiles_logged (s : State) (m : BitVec 8) (ts : List TileId) (z : Nat) : (s.zone z).Logged ((s.profileTiles m ts).zone z) := by
  induction ts generalizing s with
  | nil => exact .refl _
  | cons t ts ih => exact (s.profileTile_logged m t z).trans (ih _)

/-- The log of a resident tile's zone holds the mask that is written. -/
theorem State.mem_profileTiles {s : State} {m : BitVec 8} {ts : List TileId} {h : TileId} {b : Bundle} (hh : h ∈ ts) (hb : s.bundle h = some b)
    (hr : b.st = .resident) (hz : (s.zone b.home.zoneOf).buddy ≠ none) :
    ((s.zone b.home.zoneOf).round, .profile h m) ∈ ((s.profileTiles m ts).zone b.home.zoneOf).log := by
  induction ts generalizing s with
  | nil => exact absurd hh List.not_mem_nil
  | cons t ts ih =>
    rw [State.profileTiles_cons]
    rcases List.mem_cons.mp hh with rfl | hts
    · exact (State.profileTiles_logged _ m ts _).mem (State.mem_logHost (s := s.putProfile h m) (.profile h m) hb hr hz)
    · have hl := s.profileTile_logged m t b.home.zoneOf
      have hbundle : (s.profileTile m t).bundle h = s.bundle h := by rw [State.profileTile_frame]; rfl
      rw [← hl.round_eq]
      exact ih hts (hbundle.trans hb) (hl.buddy_eq.trans_ne hz)

/-! ### Images (18 R512) -/

/-- An image up to where bytes are written: as it was, then zeros. -/
theorem getD_take_append_zeros (img : List Byte) {off a : Nat} (h : a < off) :
    (img.take off ++ List.replicate (off - img.length) 0).getD a 0 = img.getD a 0 := by
  by_cases ha : a < img.length
  · rw [List.getD_append _ _ _ _ (by simp; omega)]
    simp [h]
  · rw [List.getD_append_right _ _ _ _ (by simp; omega)]
    simp only [List.getD_eq_getElem?_getD, List.getElem?_replicate, List.getElem?_eq_none (Nat.le_of_not_lt ha)]
    split <;> rfl

/-- A byte of an image after bytes are written that lie within it. -/
theorem getD_writeImage (img bs : List Byte) {n off : Nat} (h : off + bs.length ≤ n) (a : Nat) :
    (writeImage img n off bs).getD a 0 = if off ≤ a ∧ a < off + bs.length then bs.getD (a - off) 0 else img.getD a 0 := by
  have ht : bs.take (n - off) = bs := List.take_of_length_le (by omega)
  by_cases he : bs = []
  · subst he
    have hne : ¬ (off ≤ a ∧ a < off) := by omega
    simp [writeImage, hne]
  have hw : writeImage img n off bs = (img.take off ++ List.replicate (off - img.length) 0) ++ (bs ++ img.drop (off + bs.length)) := by
    simp [writeImage, ht, he]
  have hpre : (img.take off ++ List.replicate (off - img.length) 0).length = off := by simp; omega
  rw [hw]
  by_cases h1 : off ≤ a
  · rw [List.getD_append_right _ _ _ _ (by omega), hpre]
    by_cases h2 : a < off + bs.length
    · rw [if_pos ⟨h1, h2⟩, List.getD_append _ _ _ _ (by omega)]
    · rw [if_neg fun h => h2 h.2, List.getD_append_right _ _ _ _ (by omega), List.getD_eq_getElem?_getD, List.getElem?_drop, List.getD_eq_getElem?_getD]
      congr 2
      omega
  · rw [if_neg fun h => h1 h.1, List.getD_append _ _ _ _ (by omega)]
    exact getD_take_append_zeros img (by omega)

/-- A kernel image of a partition, by the role that runs it. -/
def Partition.image (p : Partition) : Role → List Byte
  | .mc => p.kernMc
  | .fc => p.kernFc
  | _ => p.kernAc

/-- A partition after bytes of the kernel image of a role are written. -/
def Partition.writeKernel (p : Partition) (r : Role) (off : Nat) (bytes : List Byte) : Partition :=
  match r with
  | .mc => { p with kernMc := writeImage p.kernMc 49152 off bytes }
  | .fc => { p with kernFc := writeImage p.kernFc 49152 off bytes }
  | _ => { p with kernAc := writeImage p.kernAc 49152 off bytes }

theorem Partition.writeKernel_frame (p : Partition) (r : Role) (off : Nat) (bytes : List Byte) :
    p.writeKernel r off bytes = { p with kernMc := (p.writeKernel r off bytes).kernMc, kernFc := (p.writeKernel r off bytes).kernFc,
                                         kernAc := (p.writeKernel r off bytes).kernAc } := by
  cases r <;> rfl

theorem Partition.image_writeKernel_self (p : Partition) (r : Role) (off : Nat) (bytes : List Byte) :
    (p.writeKernel r off bytes).image r = writeImage (p.image r) 49152 off bytes := by
  cases r <;> rfl

theorem Partition.image_writeKernel_ne (p : Partition) {r k : Role} (hr : r ∈ Claims.onTile) (hk : k ∈ Claims.onTile) (h : k ≠ r) (off : Nat) (bytes : List Byte) :
    (p.writeKernel r off bytes).image k = p.image k := by
  cases r with
  | mc => cases k with
    | mc => exact absurd rfl h
    | _ => rfl
  | fc => cases k with
    | fc => exact absurd rfl h
    | _ => rfl
  | ac => cases k with
    | ac => exact absurd rfl h
    | steward => exact absurd hk (by decide)
    | _ => rfl
  | steward => exact absurd hr (by decide)

/-- A write of a kernel image: recorded while a launch of the partition runs, else made. -/
theorem exec_kernelImageWrite {s : State} {tag : BitVec 8} {p : Partition} {r : Role} (hp : s.parts.get? tag = some p) (hr : r ∈ Claims.onTile) (off : Nat)
    (bytes : List Byte) :
    exec (.kernelImageWrite tag r off bytes) s =
      .next (if s.launches.any fun l => decide (l.2.tag = tag) && !l.2.done then s.logError tag .kernelImage else s.modPart tag fun p => p.writeKernel r off bytes) := by
  have hsteward : r ≠ .steward := by rintro rfl; exact absurd hr (by decide)
  have due : ((s.parts.get? tag).isSome && decide (r ≠ .steward)) = true := by simp [hp, hsteward]
  exact congrArg Host.Outcome.next (if_pos due)

theorem exec_hyperImageWrite (off : Nat) (bytes : List Byte) (s : State) :
    exec (.hyperImageWrite off bytes) s =
      .next (if s.launches.any fun l => !l.2.done then { s with errors := s.errors ++ [.hyperImage] } else { s with hyper := writeImage s.hyper 16384 off bytes }) := rfl

theorem anyRunning_iff (s : State) (tag : BitVec 8) :
    (s.launches.any fun l => decide (l.2.tag = tag) && !l.2.done) = true ↔ ∃ e ∈ s.launches, e.2.tag = tag ∧ e.2.done = false := by
  simp only [List.any_eq_true, Bool.and_eq_true, decide_eq_true_eq, Bool.not_eq_true']

theorem State.setProfile_frame (s : State) (tag m : BitVec 8) :
    s.setProfile tag m =
      { s with parts := (s.modPart tag fun p => { p with mask := m }).parts, cores := (s.setProfile tag m).cores, zones := (s.setProfile tag m).zones } := by
  rw [State.setProfile_eq, State.profileTiles_frame, State.modPart_frame]

/-- A mask write reaches every core of the partition's tiles. -/
theorem State.core_setProfile (s : State) (tag m : BitVec 8) (c : CoreId) :
    (s.setProfile tag m).core c =
      if s.tagOfLaunch c.l = some tag ∧ c.tile ∈ s.tiles.keys ∧ c.r ≠ .steward then { s.core c with profNew := some m } else s.core c := by
  have hmem : c.tile ∈ (s.tiles.keys.filter fun t => decide (s.tagOfLaunch t.l = some tag)) ↔ c.tile ∈ s.tiles.keys ∧ s.tagOfLaunch c.l = some tag := by
    simp [CoreId.tile]
  have hcore : (s.modPart tag fun p => { p with mask := m }).core c = s.core c := by rw [State.modPart_frame]; rfl
  rw [State.setProfile_eq, State.core_profileTiles, hcore]
  simp only [hmem, and_assoc, and_left_comm]

/-- A mask write stands in the replay log of each zone where a tile of the partition is resident (16 R451). -/
theorem State.mem_setProfile {s : State} {tag m : BitVec 8} {h : TileId} {b : Bundle} (hh : h ∈ s.tiles.keys) (ht : s.tagOfLaunch h.l = some tag)
    (hb : s.bundle h = some b) (hr : b.st = .resident) (hz : (s.zone b.home.zoneOf).buddy ≠ none) :
    ((s.zone b.home.zoneOf).round, .profile h m) ∈ ((s.setProfile tag m).zone b.home.zoneOf).log := by
  have hmem : h ∈ s.tiles.keys.filter fun t => decide (s.tagOfLaunch t.l = some tag) := by simp [hh, ht]
  rw [State.setProfile_eq, State.modPart_frame]
  exact State.mem_profileTiles hmem hb hr hz

/-- Profile masks and the images of kernels and hypervisor. -/
theorem masksAndImages : Claims.MasksAndImages := by
  refine fun s tag => ⟨fun p hp => ⟨fun m => ?_, fun r off bytes hr => ⟨fun hrun => ?_, fun hidle hfit => ?_⟩⟩,
    fun off bytes => ⟨fun hrun => ?_, fun hidle hfit => ?_⟩⟩
  · refine ⟨s.setProfile tag (m &&& 0xFE), ?_, ?_, ⟨?_, fun k hk => ?_⟩, State.core_setProfile s tag _,
      fun h x hh ht hb hr hz => State.mem_setProfile hh ht hb hr hz⟩
    · rw [exec_profileMaskWrite, hp]; rfl
    · rw [State.setProfile_frame]
    · rw [State.setProfile_frame]; exact State.get?_modPart_self hp _
    · rw [State.setProfile_frame]; exact State.get?_modPart_ne s hk _
  · rw [exec_kernelImageWrite hp hr, if_pos ((anyRunning_iff s tag).mpr hrun)]
  · refine ⟨_, p.writeKernel r off bytes, ?_, State.modPart_frame s tag fun p => p.writeKernel r off bytes,
      ⟨State.get?_modPart_self hp _, fun k hk => State.get?_modPart_ne s hk _⟩, p.writeKernel_frame r off bytes,
      fun k hk hne => p.image_writeKernel_ne hr hk hne off bytes, fun a => ?_⟩
    · rw [exec_kernelImageWrite hp hr, if_neg (mt (anyRunning_iff s tag).mp hidle)]
    · exact (congrArg (·.getD a 0) (p.image_writeKernel_self r off bytes)).trans (getD_writeImage (p.image r) bytes hfit a)
  · have hany : (s.launches.any fun l => !l.2.done) = true := by simpa using hrun
    rw [exec_hyperImageWrite, if_pos hany]
  · have hany : ¬ (s.launches.any fun l => !l.2.done) = true := by simpa using hidle
    refine ⟨{ s with hyper := writeImage s.hyper 16384 off bytes }, ?_, rfl, getD_writeImage s.hyper bytes hfit⟩
    rw [exec_hyperImageWrite, if_neg hany]

/-! ### Reading registers (00 R9, R11; 17 R470, R477) -/

/-- The bytes of a number, each by its place. -/
theorem natToBytes_eq_map_range (k v : Nat) : natToBytes k v = (List.range k).map fun i => BitVec.ofNat 8 (v / 256 ^ i) := by
  induction k generalizing v with
  | zero => rfl
  | succ k ih =>
    rw [natToBytes, ih, List.range_succ_eq_map, List.map_cons, List.map_map, pow_zero, Nat.div_one]
    refine congrArg (_ :: ·) (List.map_congr_left fun i _ => ?_)
    rw [Function.comp_apply, Nat.div_div_eq_div_mul, Nat.succ_eq_add_one, Nat.pow_succ']

/-- Bytes that stand one by one for the places of a number make that number (00 R8). -/
theorem bytesToNat_map_range {k v : Nat} {b : Nat → Byte} (hv : v < 256 ^ k) (h : ∀ i, i < k → b i = BitVec.ofNat 8 (v / 256 ^ i)) :
    bytesToNat ((List.range k).map b) = v := by
  have hb : (List.range k).map b = natToBytes k v := by
    rw [natToBytes_eq_map_range]
    exact List.map_congr_left fun i hi => h i (List.mem_range.mp hi)
  rw [hb, bytesToNat_natToBytes, Nat.mod_eq_of_lt hv]

/-- A byte of a packet slot's word (17 Table 17.1). -/
theorem Iface.pageByte_packet (f : Iface) {i j : Nat} (hi : i < 256) (hj : j < 8) :
    f.pageByte (8 * i + j) = BitVec.ofNat 8 ((f.packets.getD i 0).toNat / 256 ^ j) := by
  have h1 : 8 * i + j < 0x800 := by omega
  have h2 : (8 * i + j) / 8 = i := by omega
  have h3 : (8 * i + j) % 8 = j := by omega
  rw [Iface.pageByte, if_pos h1, h2, h3]

/-- A byte of a field beyond the slots: the fields lie apart, so the first that covers the offset is the one (17 Table 17.1). -/
theorem Iface.pageByte_field (f : Iface) {x : Nat × Nat × Nat} (hx : x ∈ f.fields) {i : Nat} (hi : i < x.2.1) :
    f.pageByte (x.1 + i) = BitVec.ofNat 8 (x.2.2 / 256 ^ i) := by
  simp only [Iface.fields, List.mem_cons, List.not_mem_nil, or_false] at hx
  rcases hx with rfl | rfl | rfl | rfl | rfl | rfl | rfl <;> dsimp only at hi ⊢ <;> interval_cases i <;> rfl

/-- The fields lie behind the slots and below the reserved offsets, and each value fits its bytes (17 Table 17.1). -/
theorem Iface.fields_bounds (f : Iface) {x : Nat × Nat × Nat} (hx : x ∈ f.fields) : x.1 + x.2.1 ≤ 0x830 ∧ x.2.2 < 256 ^ x.2.1 := by
  have htail := f.tail.isLt
  have hhead := f.head.isLt
  have hnbase := f.nbase.isLt
  have hnsize := f.nsize.isLt
  have hvector := f.vector.isLt
  have hcons := f.cons.isLt
  have habase := f.abase.isLt
  simp only [Iface.fields, List.mem_cons, List.not_mem_nil, or_false] at hx
  rcases hx with rfl | rfl | rfl | rfl | rfl | rfl | rfl <;> dsimp only <;> omega

/-- An offset past the fields is reserved. -/
theorem Iface.pageByte_reserved (f : Iface) {o : Nat} (h : 0x830 ≤ o) : f.pageByte o = 0 := by
  have h1 : ¬ o < 0x800 := by omega
  have hnone : (f.fields.findSome? fun x => if x.1 ≤ o ∧ o < x.1 + x.2.1 then some (BitVec.ofNat 8 (x.2.2 / 256 ^ (o - x.1))) else none) = none := by
    rw [List.findSome?_eq_none_iff]
    intro x hx
    have hend := (f.fields_bounds hx).1
    exact if_neg (by omega)
  rw [Iface.pageByte, if_neg h1, hnone]; rfl

theorem State.readHwA_page (s : State) (link n : Nat) {o : Nat} (ho : o < 4096) :
    s.readHwA link (4096 * n + o) = if s.onLink link n then (s.iface n).pageByte o else 0 := by
  have h1 : (4096 * n + o) / 4096 = n := by omega
  have h2 : (4096 * n + o) % 4096 = o := by omega
  rw [State.readHwA, h1, h2]

/-- A packet slot's word as its own link reads it. -/
theorem State.readHwA_packet {s : State} {link n : Nat} (hl : s.onLink link n = true) {i : Nat} (hi : i < 256) :
    bytesToNat ((List.range 8).map fun j => s.readHwA link (4096 * n + 8 * i + j)) = ((s.iface n).packets.getD i 0).toNat :=
  bytesToNat_map_range (BitVec.isLt _) fun j hj => by
    rw [Nat.add_assoc, State.readHwA_page s link n (by omega), if_pos hl, Iface.pageByte_packet _ hi hj]

/-- A field as its own link reads it. -/
theorem State.readHwA_field {s : State} {link n o k v : Nat} (hl : s.onLink link n = true) (hx : (o, k, v) ∈ (s.iface n).fields) :
    bytesToNat ((List.range k).map fun i => s.readHwA link (4096 * n + o + i)) = v := by
  obtain ⟨hend, hv⟩ := (s.iface n).fields_bounds hx
  dsimp only at hend hv
  refine bytesToNat_map_range hv fun i hi => ?_
  rw [Nat.add_assoc, State.readHwA_page s link n (by omega), if_pos hl, Iface.pageByte_field _ hx hi]

/-- A tag names its own block of HW-B, so a read there reads its partition. -/
theorem readPart_block (s : State) (tag : BitVec 8) (f : Partition → Word) :
    (if tag.toNat < 256 then ((s.parts.get? (BitVec.ofNat 8 tag.toNat)).map f).getD 0 else 0) = ((s.parts.get? tag).map f).getD 0 := by
  rw [if_pos tag.isLt, BitVec.ofNat_toNat, BitVec.setWidth_eq]

theorem hwbReg_partition {k o : Nat} {r : HostReg} (hk : k < 256) (ho : o < 0x10000) (hc : Config.partitionRegister k o = some r) (hr : r.partition = some k) :
    hwbReg (0x10000 * (k + 1) + o) = r := by
  have h1 : ¬ 0x10000 * (k + 1) + o < 0x10000 := by omega
  have h2 : 0x10000 * (k + 1) + o < 0x1010000 := by omega
  have h3 : (0x10000 * (k + 1) + o) / 0x10000 - 1 = k := by omega
  have h4 : (0x10000 * (k + 1) + o) % 0x10000 = o := by omega
  simp [hwbReg, h1, h2, h3, h4, hc, hr, Option.filter_some]

theorem hwbReg_global {o : Nat} {r : HostReg} (ho : o < 0x10000) (hc : Config.globalRegister o = some r) (hr : r.isGlobal = true) : hwbReg o = r := by
  simp [hwbReg, ho, hc, hr, Option.filter_some]

theorem hwbReg_beyond {o : Nat} (ho : 0x1010000 ≤ o) : hwbReg o = .reserved := by
  have h1 : ¬ o < 0x10000 := by omega
  simp [hwbReg, h1, Nat.not_lt.mpr ho]

/-- Beyond the boot status block, HW-B reads as its registers do. -/
theorem State.readHwB_reg (s : State) (link : Nat) {o : Nat} (h : 64 ≤ o) : s.readHwB link o = s.readReg link (hwbReg o) := if_neg (Nat.not_lt.mpr h)

/-- What a host reads back. -/
theorem hostReads : Claims.HostReads := by
  intro s link n
  refine ⟨fun hl o ho => ?_, fun hl => ?_, fun i hi => ?_, fun tag => ?_, rfl, rfl, rfl, fun o ho => if_pos ho, fun o r h64 ho hc hr => ?_, fun o ho => ?_⟩
  · rw [State.readHwA_page s link n ho, hl]; rfl
  · have field {o k v : Nat} (hx : (o, k, v) ∈ (s.iface n).fields) := State.readHwA_field hl hx
    refine ⟨fun i hi => State.readHwA_packet hl hi, field ?_, field ?_, field ?_, field ?_, field ?_, field ?_, field ?_, fun o hlo ho => ?_⟩
    iterate 7 · simp [Iface.fields] -- each of the seven is listed
    · rw [State.readHwA_page s link n ho, if_pos hl, Iface.pageByte_reserved _ hlo]
  · have h1 : 8 * i % 8 = 0 ∧ 8 * i < 64 := by omega
    have h2 : 8 * i / 8 = i := by omega
    rw [State.readBoot, if_pos h1, h2]
  · have block (f : Partition → Word) := readPart_block s tag f
    exact ⟨block _, block _, block _, block _, block _, block _, fun w _ => block _, fun c w hc hw => (if_pos ⟨hc, hw⟩).trans (block _), block _, block _, block _,
      block _, block _,
      fun o r ho hc hr => by rw [State.readHwB_reg s link (by omega), hwbReg_partition tag.isLt ho hc hr], rfl⟩
  · rw [State.readHwB_reg s link h64, hwbReg_global ho hc hr]
  · rw [State.readHwB_reg s link (by omega), hwbReg_beyond ho]; rfl

/-- Settles O59: writes by where a register stands, masks tile by tile, reads by the bytes of a number, and an answer of every meaning. -/
theorem registersMasksAndImages : Obligations.RegistersMasksAndImages :=
  ⟨registerWrites, masksAndImages, hostReads, exec_next, step_next⟩

end Sys2Proof.Machine
end


section
/-! O57: every step keeps every memory in its canonical form. Bytes stand in HBM, in host memory, in scratchpads and in the scratchpads that the images of a zone keep;
they are written by Memory.write and Memory.set, left out by a filter, and copied from one of these places to another. So each operation of the model that gives a
state keeps the form: one lemma for each, in the order of the model, from the lemmas of the operations that it is made of. An operation that touches none of these
places keeps the form by definition. -/

namespace Sys2Proof.Machine

/-! ### One memory (07 R209, R223 to R225; 16 R448) -/

/-- Leaving bytes out keeps the canonical form. -/
theorem Memory.wf_filter (p : Nat × Byte → Bool) {m : Memory} (h : m.wf = true) : Memory.wf (m.filter p) = true := by
  induction m with
  | nil => rfl
  | cons e r ih =>
    have hr := ih (Memory.wf_tail h)
    rw [List.filter_cons]
    split
    · exact Memory.wf_cons (Memory.wf_head h) (fun x hx => Memory.wf_above h x (List.mem_filter.mp hx).1) hr
    · exact hr

theorem Memory.wf_foldl_set {m : Memory} (h : m.wf = true) (cs : List (Nat × Byte)) : Memory.wf (cs.foldl (fun m c => m.set c.1 c.2) m) = true :=
  List.foldlRecOn (motive := fun m : Memory => m.wf = true) cs _ h fun m hm c _ => Memory.wf_set m c.1 c.2 hm

/-- Full/empty bits are no bytes. -/
theorem Cells.mem_mark (c : Cells) (fe : FE) (ws : List Nat) : (c.mark fe ws).mem = c.mem := by cases fe <;> rfl

/-- Every act writes its home's memory by Memory.write or Memory.set, or leaves it. -/
theorem Act.wf_run (a : Act) {c : Cells} (h : c.mem.wf = true) : (a.run c).1.mem.wf = true := by
  cases a with
  | write | add => exact (congrArg Memory.wf (Cells.mem_mark ..)).trans (Memory.wf_write _ _ _ h)
  | bits => exact (congrArg Memory.wf (Cells.mem_mark ..)).trans (Memory.wf_set _ _ _ h)
  | amo | famo | bf => exact Memory.wf_write _ _ _ h
  | setEmpty | wake | incr => exact h

theorem wf_launchMem (o : Object) : (launchMem o).wf = true := Memory.wf_write [] 0 o.data rfl

/-- What a mending restores of a scratchpad: its own bytes, or those of its mirrored lines over the data image (16 R448). -/
theorem wf_mendedTile (o : Object) {t : Tile} (h : t.mem.wf = true) : (mendedTile o t).mem.wf = true := by
  unfold mendedTile
  split
  · exact Memory.wf_foldl_set (Memory.wf_filter _ (wf_launchMem o)) _
  · exact h

end Sys2Proof.Machine

namespace Sys2Proof.Claims

open Sys2Proof.Machine

variable {s t : State}

/-! ### Maps, images, zones -/

/-- What holds of every entry of a map holds after an entry is set to a value of which it holds. -/
theorem forall_mem_set {κ ν : Type} [DecidableEq κ] {p : ν → Prop} {m : Map κ ν} (h : ∀ e ∈ m, p e.2) (a : κ) {b : ν} (hb : p b) :
    ∀ e ∈ Map.set m a b, p e.2 := by
  induction m with
  | nil => simpa [Map.set] using hb
  | cons e r ih =>
    have hr := ih fun x hx => h x (List.mem_cons_of_mem _ hx)
    unfold Map.set
    split
    · exact List.forall_mem_cons.mpr ⟨hb, fun x hx => h x (List.mem_cons_of_mem _ hx)⟩
    · exact List.forall_mem_cons.mpr ⟨h _ List.mem_cons_self, hr⟩

/-- What holds of every entry of a map, and of the default, holds of what the map gives. -/
theorem getD_of_forall_mem {κ ν : Type} [DecidableEq κ] {p : ν → Prop} {m : Map κ ν} (h : ∀ e ∈ m, p e.2) (a : κ) {d : ν} (hd : p d) : p (m.getD a d) := by
  induction m with
  | nil => exact hd
  | cons e r ih =>
    by_cases hk : e.1 = a
    · simpa [Map.getD, Map.get?, hk] using h e List.mem_cons_self
    · simpa [Map.getD, Map.get?, hk] using ih fun x hx => h x (List.mem_cons_of_mem _ hx)

/-- What is not there has every property. -/
theorem forall_of_none {α : Type} {p : α → Prop} : ∀ a, none = some a → p a := by
  intro _ h
  cases h

/-- Every scratchpad that an image keeps is in its canonical form. -/
def ImageCanonical (i : Image) : Prop := ∀ e ∈ i.tiles, e.2.mem.wf = true

theorem ImageCanonical.empty : ImageCanonical Image.empty := List.forall_mem_nil _

theorem ImageCanonical.without {i : Image} (h : ImageCanonical i) (ts : List TileId) : ImageCanonical (i.without ts) :=
  fun e he => h e (List.mem_filter.mp he).1

theorem ImageCanonical.with_ {i j : Image} (hi : ImageCanonical i) (hj : ImageCanonical j) : ImageCanonical (i.with_ j) :=
  fun e he => (List.mem_append.mp he).elim (hi e) (hj e)

theorem ImageCanonical.tile {i : Image} (h : ImageCanonical i) (id : TileId) : (i.tiles.getD id Tile.init).mem.wf = true :=
  getD_of_forall_mem (p := fun t : Tile => t.mem.wf = true) h id rfl

/-- Every scratchpad that a zone's images keep is in its canonical form: in the restore point, the image on its way, and those of tiles placed since. -/
def ZoneCanonical (z : Zone) : Prop :=
  (∀ i, z.restore = some i → ImageCanonical i) ∧ (∀ i, z.streaming = some i → ImageCanonical i) ∧ ∀ p ∈ z.placed, ImageCanonical p.2

theorem zoneCanonical_iff (z : Zone) :
    ZoneCanonical z ↔ ∀ i, z.restore = some i ∨ z.streaming = some i ∨ (∃ r, (r, i) ∈ z.placed) → ImageCanonical i := by
  constructor
  · rintro ⟨hr, hs, hp⟩ i (h | h | ⟨r, h⟩)
    · exact hr i h
    · exact hs i h
    · exact hp (r, i) h
  · exact fun h => ⟨fun i hi => h i (.inl hi), fun i hi => h i (.inr (.inl hi)), fun p hp => h p.2 (.inr (.inr ⟨p.1, hp⟩))⟩

theorem ZoneCanonical.init : ZoneCanonical Zone.init := ⟨forall_of_none, forall_of_none, List.forall_mem_nil _⟩

/-- What a mending restores is put together of the zone's images (16 R449). -/
theorem ZoneCanonical.mendImage {z : Zone} (h : ZoneCanonical z) : ImageCanonical z.mendImage := by
  obtain ⟨hrestore, -, hplaced⟩ := h
  have hstart : ImageCanonical (z.restore.getD Image.blank) := by
    cases hr : z.restore with
    | none => exact List.forall_mem_nil _
    | some i => exact hrestore i hr
  unfold Zone.mendImage
  generalize z.restore.getD Image.blank = i at hstart
  generalize z.placed = ps at hplaced
  induction ps generalizing i with
  | nil => exact hstart
  | cons p ps ih =>
    obtain ⟨hp, hps⟩ := List.forall_mem_cons.mp hplaced
    exact ih _ ((hstart.without _).with_ hp) hps

/-! ### The state's memories -/

theorem memoryCanonical_iff (s : State) :
    MemoryCanonical s ↔
      (∀ e ∈ s.hbm, e.2.wf = true) ∧ (∀ e ∈ s.host, e.2.wf = true) ∧ (∀ e ∈ s.tiles, e.2.mem.wf = true) ∧ ∀ z ∈ s.zones, ZoneCanonical z.2 := by
  simp only [MemoryCanonical, zoneCanonical_iff, ImageCanonical]

/-- A state whose memories, tiles and zones are each in canonical form. -/
theorem MemoryCanonical.of_parts (hhbm : ∀ e ∈ s.hbm, e.2.wf = true) (hhost : ∀ e ∈ s.host, e.2.wf = true) (htiles : ∀ e ∈ s.tiles, e.2.mem.wf = true)
    (hzones : ∀ z ∈ s.zones, ZoneCanonical z.2) : MemoryCanonical s := (memoryCanonical_iff s).mpr ⟨hhbm, hhost, htiles, hzones⟩

theorem MemoryCanonical.hbm (h : MemoryCanonical s) : ∀ e ∈ s.hbm, e.2.wf = true := ((memoryCanonical_iff s).mp h).1

theorem MemoryCanonical.host (h : MemoryCanonical s) : ∀ e ∈ s.host, e.2.wf = true := ((memoryCanonical_iff s).mp h).2.1

theorem MemoryCanonical.tiles (h : MemoryCanonical s) : ∀ e ∈ s.tiles, e.2.mem.wf = true := ((memoryCanonical_iff s).mp h).2.2.1

theorem MemoryCanonical.zones (h : MemoryCanonical s) : ∀ z ∈ s.zones, ZoneCanonical z.2 := ((memoryCanonical_iff s).mp h).2.2.2

theorem MemoryCanonical.stack (h : MemoryCanonical s) (n : Nat) : (s.stack n).wf = true :=
  getD_of_forall_mem (p := fun m : Memory => m.wf = true) h.hbm n rfl

theorem MemoryCanonical.hostMem (h : MemoryCanonical s) (n : Nat) : (s.hostMem n).wf = true :=
  getD_of_forall_mem (p := fun m : Memory => m.wf = true) h.host n rfl

theorem MemoryCanonical.tile (h : MemoryCanonical s) (id : TileId) : (s.tile id).mem.wf = true :=
  getD_of_forall_mem (p := fun t : Tile => t.mem.wf = true) h.tiles id rfl

theorem MemoryCanonical.zone (h : MemoryCanonical s) (n : Nat) : ZoneCanonical (s.zone n) := getD_of_forall_mem h.zones n .init

theorem MemoryCanonical.setHbm (h : MemoryCanonical s) (n : Nat) {m : Memory} (hm : m.wf = true) : MemoryCanonical { s with hbm := s.hbm.set n m } :=
  .of_parts (forall_mem_set (p := fun m : Memory => m.wf = true) h.hbm n hm) h.host h.tiles h.zones

theorem MemoryCanonical.setHost (h : MemoryCanonical s) (n : Nat) {m : Memory} (hm : m.wf = true) : MemoryCanonical { s with host := s.host.set n m } :=
  .of_parts h.hbm (forall_mem_set (p := fun m : Memory => m.wf = true) h.host n hm) h.tiles h.zones

theorem MemoryCanonical.setTile {id : TileId} {x : Tile} (h : MemoryCanonical s) (hx : x.mem.wf = true) : MemoryCanonical (s.setTile id x) :=
  .of_parts h.hbm h.host (forall_mem_set (p := fun t : Tile => t.mem.wf = true) h.tiles id hx) h.zones

theorem MemoryCanonical.modTile {id : TileId} {f : Tile → Tile} (h : MemoryCanonical s) (hf : ∀ x : Tile, x.mem.wf = true → (f x).mem.wf = true) :
    MemoryCanonical (s.modTile id f) := h.setTile (hf _ (h.tile id))

theorem MemoryCanonical.modZone {n : Nat} {f : Zone → Zone} (h : MemoryCanonical s) (hf : ∀ z, ZoneCanonical z → ZoneCanonical (f z)) :
    MemoryCanonical (s.modZone n f) := .of_parts h.hbm h.host h.tiles (forall_mem_set h.zones n (hf _ (h.zone n)))

/-- Changing each zone in its place. -/
theorem MemoryCanonical.mapZones {f : Nat × Zone → Zone} (h : MemoryCanonical s) (hf : ∀ z, ZoneCanonical z.2 → ZoneCanonical (f z)) :
    MemoryCanonical { s with zones := s.zones.map fun z => (z.1, f z) } :=
  .of_parts h.hbm h.host h.tiles (List.forall_mem_map.mpr fun z hz => hf z (h.zones z hz))

theorem MemoryCanonical.imageOf (h : MemoryCanonical s) (ts : List TileId) (round : BitVec 32) : ImageCanonical (s.imageOf ts round) :=
  List.forall_mem_map.mpr fun t _ => h.tile t

/-- The memory of a home, whichever it is. -/
theorem MemoryCanonical.cells (h : MemoryCanonical s) (x : Home) : (s.cells x).mem.wf = true := by
  cases x with
  | tile t => exact h.tile t
  | agent n => exact h.stack n
  | host n => exact h.hostMem n

theorem MemoryCanonical.setCells {x : Home} {c : Cells} (h : MemoryCanonical s) (hc : c.mem.wf = true) : MemoryCanonical (s.setCells x c) := by
  cases x with
  | tile t => exact h.modTile fun _ _ => hc
  | agent n => exact h.setHbm n hc
  | host n => exact h.setHost n hc

/-- At a place of a scratchpad, of HBM or of host memory. -/
theorem MemoryCanonical.poke {id : TileId} {off : Nat} {bs : List Byte} (h : MemoryCanonical s) : MemoryCanonical (s.poke id off bs) :=
  h.modTile fun _ hx => Memory.wf_write _ _ _ hx

theorem MemoryCanonical.pokePlace {p : Place} {bs : List Byte} (h : MemoryCanonical s) : MemoryCanonical (s.pokePlace p bs) := by
  cases p with
  | tile => exact .poke h
  | hbm n => exact h.setHbm n (Memory.wf_write _ _ _ (h.stack n))
  | host n => exact h.setHost n (Memory.wf_write _ _ _ (h.hostMem n))

/-! ### Branches, folds, answers -/

theorem MemoryCanonical.ite {c : Prop} {_ : Decidable c} (hs : MemoryCanonical s) (ht : MemoryCanonical t) : MemoryCanonical (if c then s else t) := by
  split
  · exact hs
  · exact ht

theorem MemoryCanonical.foldl {α : Type} {f : State → α → State} {l : List α} (h : MemoryCanonical s)
    (hf : ∀ s a, MemoryCanonical s → MemoryCanonical (f s a)) : MemoryCanonical (l.foldl f s) :=
  List.foldlRecOn l f h fun s hs a _ => hf s a hs

/-- Operations of a list, each of which keeps the form. -/
theorem MemoryCanonical.foldl_of_mem {α : Type} {f : State → α → State} {l : List α} (h : MemoryCanonical s)
    (hf : ∀ s, ∀ a ∈ l, MemoryCanonical s → MemoryCanonical (f s a)) : MemoryCanonical (l.foldl f s) :=
  List.foldlRecOn l f h fun s hs a ha => hf s a ha hs

/-- An answer whose state holds memories in canonical form. -/
def AnswerCanonical (o : Outcome) : Prop := ∀ t, o = .next t → MemoryCanonical t

theorem AnswerCanonical.next (h : MemoryCanonical s) : AnswerCanonical (.next s) := by
  rintro t ⟨⟩
  exact h

/-- A device step: its effect when it is due. -/
theorem AnswerCanonical.event {due : Bool} (hs : MemoryCanonical s) (ht : MemoryCanonical t) : AnswerCanonical (event s due t) := .next (.ite ht hs)

theorem MemoryCanonical.after {o : Outcome} (h : MemoryCanonical s) (ho : AnswerCanonical o) : MemoryCanonical (after s o) := by
  unfold Machine.after
  split
  · exact ho _ rfl
  · exact h

/-- What a destination does with an arrival, where that gives a state. -/
def TakingCanonical (v : Taking) : Prop := ∀ t, v = .done t → MemoryCanonical t

theorem TakingCanonical.done (h : MemoryCanonical s) : TakingCanonical (.done s) := by
  rintro t ⟨⟩
  exact h

theorem TakingCanonical.again : TakingCanonical .again := by
  intro _ h
  cases h

theorem TakingCanonical.stay : TakingCanonical .stay := by
  intro _ h
  cases h

theorem TakingCanonical.ite {c : Prop} {_ : Decidable c} {v w : Taking} (hv : TakingCanonical v) (hw : TakingCanonical w) :
    TakingCanonical (if c then v else w) := by
  split
  · exact hv
  · exact hw

/-- What a destination does with a packet, where that is of its kind. -/
def TakesCanonical (o : Option Taking) : Prop := ∀ v, o = some v → TakingCanonical v

theorem TakesCanonical.none : TakesCanonical none := forall_of_none

theorem TakesCanonical.some {v : Taking} (h : TakingCanonical v) : TakesCanonical (some v) := by
  rintro _ ⟨⟩
  exact h

/-! ### Contexts, cores, tiles; traps and units (02 R60; 04 R118) -/

theorem MemoryCanonical.setCtx {id : CtxId} {c : Ctx} (h : MemoryCanonical s) : MemoryCanonical (s.setCtx id c) := h

theorem MemoryCanonical.modCtx {id : CtxId} {f : Ctx → Ctx} (h : MemoryCanonical s) : MemoryCanonical (s.modCtx id f) := .setCtx h

theorem MemoryCanonical.setCore {id : CoreId} {c : Core} (h : MemoryCanonical s) : MemoryCanonical (s.setCore id c) := h

theorem MemoryCanonical.modCore {id : CoreId} {f : Core → Core} (h : MemoryCanonical s) : MemoryCanonical (s.modCore id f) := .setCore h

theorem MemoryCanonical.modHome {home : Home} {f : HomeSt → HomeSt} (h : MemoryCanonical s) : MemoryCanonical (s.modHome home f) := h

theorem MemoryCanonical.modTT {t : TTId} {f : TileTask → TileTask} (h : MemoryCanonical s) : MemoryCanonical (s.modTT t f) := by
  unfold State.modTT
  split <;> exact h

theorem MemoryCanonical.modLaunch {l : Nat} {f : Launch → Launch} (h : MemoryCanonical s) : MemoryCanonical (s.modLaunch l f) := by
  unfold State.modLaunch
  split <;> exact h

theorem MemoryCanonical.modPart {t : BitVec 8} {f : Machine.Partition → Machine.Partition} (h : MemoryCanonical s) : MemoryCanonical (s.modPart t f) := by
  unfold State.modPart
  split <;> exact h

theorem MemoryCanonical.modIface {n : Nat} {f : Iface → Iface} (h : MemoryCanonical s) : MemoryCanonical (s.modIface n f) := h

theorem MemoryCanonical.modPower {n : Nat} {f : PowerGroup → PowerGroup} (h : MemoryCanonical s) : MemoryCanonical (s.modPower n f) := h

theorem MemoryCanonical.modDie {n : Nat} {f : Die → Die} (h : MemoryCanonical s) : MemoryCanonical (s.modDie n f) := h

theorem MemoryCanonical.finish {len : Nat} (h : MemoryCanonical s) : MemoryCanonical (s.finish len) := .modCtx h

theorem MemoryCanonical.finishReg {len : Nat} {d : BitVec 5} {v : Word} (h : MemoryCanonical s) : MemoryCanonical (s.finishReg len d v) := .modCtx h

theorem MemoryCanonical.disband {id : CtxId} (h : MemoryCanonical s) : MemoryCanonical (s.disband id) := by
  unfold State.disband
  split
  · exact h
  · exact .modCtx (.foldl h fun _ _ h1 => .modCore h1)

theorem MemoryCanonical.logError {tag : BitVec 8} {r : ErrRecord} (h : MemoryCanonical s) : MemoryCanonical (s.logError tag r) := .modPart h

theorem MemoryCanonical.doubleTrap {id : CtxId} {code : BitVec 8} (h : MemoryCanonical s) : MemoryCanonical (s.doubleTrap id code) := .logError (.setCtx h)

theorem MemoryCanonical.takeTrap {id : CtxId} {code : BitVec 8} {isAsync : Bool} {epc tval : Word} (h : MemoryCanonical s) :
    MemoryCanonical (s.takeTrap id code isAsync epc tval) := .ite (.doubleTrap h) (.modCtx (.disband h))

theorem MemoryCanonical.trap {code : BitVec 8} {tval : Word} (h : MemoryCanonical s) : MemoryCanonical (s.trap code tval) :=
  have htaken : MemoryCanonical (s.takeTrap s.cur code false s.here.pc tval) := .takeTrap h
  htaken

theorem MemoryCanonical.unitOn {f : Form} {k : State → State} (h : MemoryCanonical s) (hk : ∀ s, MemoryCanonical s → MemoryCanonical (k s)) :
    MemoryCanonical (s.unitOn f k) := by
  unfold State.unitOn
  dsimp only
  split
  · exact .trap h
  · exact .ite (.trap h) (.ite (.trap h) (hk _ h))

theorem AnswerCanonical.unit {f : Form} {k : State → State} (h : MemoryCanonical s) (hk : ∀ s, MemoryCanonical s → MemoryCanonical (k s)) :
    AnswerCanonical (unit f s k) := .next (.unitOn h hk)

theorem MemoryCanonical.takeSeq {k : Option Key} (h : MemoryCanonical s) (ht : s.takeSeq = some (k, t)) : MemoryCanonical t := by
  unfold State.takeSeq at ht
  split at ht
  · cases ht
    exact h
  · dsimp only at ht
    split at ht
    · cases ht
      exact h
    · split at ht
      · cases ht
      · cases ht
        exact .modTT (.modCtx h)

theorem MemoryCanonical.takeSpawn {tt : TTId} {r : Role} {k : BitVec 16} (h : MemoryCanonical s) (ht : s.takeSpawn tt r = some (k, t)) : MemoryCanonical t := by
  unfold State.takeSpawn at ht
  split at ht
  · cases ht
  · dsimp only at ht
    split at ht
    · cases ht
    · cases ht
      exact .modTT h

/-! ### Sending (06, 15, 16, 17) -/

theorem MemoryCanonical.routed {src : Option CoreId} {dst : Option TileId} (h : MemoryCanonical s) : MemoryCanonical (s.routed src dst).2 := by
  unfold State.routed
  split
  · split
    · exact h
    · dsimp only
      split
      · exact h
      · exact .modTile h fun _ hx => hx
  · exact h
  · exact h

theorem MemoryCanonical.sendSt {src : Option CoreId} {dst : Option TileId} {p : Packet} {st : FlightSt} (h : MemoryCanonical s) :
    MemoryCanonical (s.sendSt src dst p st) := .routed h

theorem MemoryCanonical.send {src : Option CoreId} {dst : Option TileId} {p : Packet} (h : MemoryCanonical s) : MemoryCanonical (s.send src dst p) := .sendSt h

theorem MemoryCanonical.incrEntry {c : CoreId} {e : Nat} (h : MemoryCanonical s) : MemoryCanonical (s.incrEntry c e) := .modCore h

theorem MemoryCanonical.incrLater {c : CoreId} {e : Nat} (h : MemoryCanonical s) : MemoryCanonical (s.incrLater c e) := h

theorem MemoryCanonical.applyLater (h : MemoryCanonical s) : MemoryCanonical s.applyLater := .foldl h fun _ _ h1 => .incrEntry h1

theorem MemoryCanonical.sendIncr {src : Option CoreId} {c : CoreId} {e : Nat} (h : MemoryCanonical s) : MemoryCanonical (s.sendIncr src c e) := .sendSt h

theorem MemoryCanonical.modChan {c : CoreId} {n : Nat} {f : Chan → Chan} (h : MemoryCanonical s) : MemoryCanonical (s.modChan c n f) := .modCore h

theorem MemoryCanonical.pushEdge {n : Nat} {f : PortFrame} (h : MemoryCanonical s) : MemoryCanonical (s.pushEdge n f) := by
  unfold State.pushEdge
  split
  · exact h
  · exact .ite h h

theorem MemoryCanonical.releaseMsg {c : CoreId} {ch id : Nat} (h : MemoryCanonical s) : MemoryCanonical (s.releaseMsg c ch id) := by
  unfold State.releaseMsg
  dsimp only
  split
  · exact h
  · split
    · exact .pushEdge (.modChan h)
    · exact .send (.modChan h)
    · exact .modChan h

theorem MemoryCanonical.releaseAll {c : CoreId} {uid : Nat} (h : MemoryCanonical s) : MemoryCanonical (s.releaseAll c uid) :=
  .foldl h fun _ _ h1 => .foldl h1 fun _ _ h2 => .releaseMsg h2

theorem MemoryCanonical.newTT {t : TTId} {x : TileTask} (h : MemoryCanonical s) : MemoryCanonical (s.newTT t x) := h

theorem MemoryCanonical.reopen {t : TTId} (h : MemoryCanonical s) : MemoryCanonical (s.reopen t) := .modTT h

/-! ### Float flags (03 R99) -/

theorem MemoryCanonical.setFlags {f : Flags} (h : MemoryCanonical s) : MemoryCanonical (s.setFlags f) := .modCtx h

/-! ### Homes: acts, effects, waits (07 R209 to R226; 11 R328 to R334) -/

theorem MemoryCanonical.writeCommands {tag : BitVec 8} {o : Nat} {bs : List Byte} (h : MemoryCanonical s) : MemoryCanonical (s.writeCommands tag o bs) := .modPart h

theorem MemoryCanonical.modKept {id : CtxId} {uid : Nat} {f : Ctx → Ctx} (h : MemoryCanonical s) : MemoryCanonical (s.modKept id uid f) := by
  unfold State.modKept
  split
  · exact h
  · exact .ite (.modCore h) h

theorem MemoryCanonical.modRunning {core : CoreId} {uid : Nat} {f : Ctx → Ctx} (h : MemoryCanonical s) : MemoryCanonical (s.modRunning core uid f) := by
  unfold State.modRunning
  split
  · exact .modKept (.modCtx h)
  · exact .modCore h

theorem MemoryCanonical.giveFlags {b : Issuer} {f : Flags} (h : MemoryCanonical s) : MemoryCanonical (s.giveFlags b f) := by
  unfold State.giveFlags
  split
  · exact h
  · split
    · exact .modRunning h
    · split
      · exact h
      · exact .modTT h

theorem MemoryCanonical.pend {core : CoreId} {uid : Nat} {code : BitVec 8} {tval : Word} (h : MemoryCanonical s) : MemoryCanonical (s.pend core uid code tval) :=
  .modRunning h

theorem MemoryCanonical.countDenial {b : Issuer} {addr : Word} (h : MemoryCanonical s) : MemoryCanonical (s.countDenial b addr) := by
  unfold State.countDenial
  split
  · exact h
  · exact .modTT h

theorem MemoryCanonical.wakeHome {home : Home} {off n : Nat} (h : MemoryCanonical s) : MemoryCanonical (s.wakeHome home off n) :=
  .foldl (.modHome h) fun _ _ h1 => .sendIncr h1

theorem MemoryCanonical.runCells {home : Home} {e : Effect} {a : Act} (h : MemoryCanonical s) : MemoryCanonical (s.runCells home e a).1 :=
  .giveFlags (.setCells h (Act.wf_run a (h.cells home)))

theorem MemoryCanonical.runAct {home : Home} {e : Effect} {a : Act} (h : MemoryCanonical s) : MemoryCanonical (s.runAct home e a).1 := by
  unfold State.runAct
  split
  · exact .wakeHome h
  · exact .incrLater h
  · split
    · exact .writeCommands h
    · exact .runCells h
  · exact .runCells h

theorem MemoryCanonical.sendBack {b : Issuer} {p : Packet} (h : MemoryCanonical s) : MemoryCanonical (s.sendBack b p) := .send h

theorem MemoryCanonical.serveNew {home : Home} {news : List Effect} (h : MemoryCanonical s) : MemoryCanonical (s.serveNew home news) := by
  refine .foldl h fun _ _ h1 => ?_
  split
  · exact .sendBack (.modHome h1)
  · exact h1

theorem MemoryCanonical.serveSyncs {home : Home} (h : MemoryCanonical s) : MemoryCanonical (s.serveSyncs home) := .serveNew h

theorem MemoryCanonical.serveApplied {home : Home} {old : Cells} (h : MemoryCanonical s) : MemoryCanonical (s.serveApplied home old) :=
  .serveSyncs (.foldl h fun _ _ h1 => .ite (.sendBack (.modHome h1)) h1)

theorem MemoryCanonical.answer {e : Effect} {v : Option Word} (h : MemoryCanonical s) : MemoryCanonical (s.answer e v) := by
  unfold State.answer
  split
  · exact .sendBack h
  · exact h

theorem MemoryCanonical.acknowledge {e : Effect} (h : MemoryCanonical s) : MemoryCanonical (s.acknowledge e) := by
  unfold State.acknowledge
  split
  · exact h
  · exact .sendBack h

/-- The acts of an effect, one after the other. -/
theorem MemoryCanonical.runActs {home : Home} {e : Effect} {v : Option Word} (h : MemoryCanonical s) (as : List Act) :
    MemoryCanonical (as.foldl (fun (r : State × Option Word) a =>
      let x := r.1.runAct home e a
      (x.1, if x.2.isSome then x.2 else r.2)) (s, v)).1 := by
  induction as generalizing s v with
  | nil => exact h
  | cons a as ih => exact ih (.runAct h)

theorem MemoryCanonical.applyRaw {home : Home} {e : Effect} (h : MemoryCanonical s) : MemoryCanonical (s.applyRaw home e).1 := by
  refine .serveApplied ?_
  split
  · exact .runActs h _
  · exact .modHome (.runActs h _)

theorem MemoryCanonical.applyEffect {home : Home} {e : Effect} (h : MemoryCanonical s) : MemoryCanonical (s.applyEffect home e) := .answer (.applyRaw h)

theorem MemoryCanonical.drainHome {home : Home} {n : Nat} (h : MemoryCanonical s) : MemoryCanonical (s.drainHome home n) := by
  induction n generalizing s with
  | zero => exact h
  | succ n ih =>
    unfold State.drainHome
    split
    · exact h
    · dsimp only
      split
      · exact ih (.acknowledge (.answer (.modHome h)))
      · exact ih (.acknowledge (.applyEffect (.modHome h)))

theorem MemoryCanonical.giveNew {home : Home} {e : Effect} {v : Option Word} (h : MemoryCanonical s) (ht : s.giveNew home e = some (t, v)) : MemoryCanonical t := by
  unfold State.giveNew at ht
  split at ht
  · cases ht
    exact .acknowledge (.applyRaw h)
  · cases ht
  · cases ht
    exact .serveNew (.ite (.acknowledge (.modHome h)) (.modHome h))

theorem MemoryCanonical.giveHome {home : Home} {e : Effect} {v : Option Word} (h : MemoryCanonical s) (ht : s.giveHome home e = some (t, v)) :
    MemoryCanonical t := by
  have hdrained := h.drainHome (home := home) (n := (s.home home).held.length)
  unfold State.giveHome at ht
  dsimp only at ht
  split at ht
  · split at ht
    · cases ht
      exact .acknowledge hdrained
    · split at ht
      · cases ht
        exact .acknowledge hdrained
      · exact .giveNew hdrained ht
  · exact .giveNew hdrained ht

theorem MemoryCanonical.ackMirrored {home : Home} (h : MemoryCanonical s) : MemoryCanonical (s.ackMirrored home) :=
  .foldl h fun _ _ h1 => .ite (.acknowledge (.modHome h1)) h1

theorem MemoryCanonical.catchUp {home : Home} (h : MemoryCanonical s) : MemoryCanonical (s.catchUp home) := .ite (.serveNew (.ackMirrored (.drainHome h))) h

theorem MemoryCanonical.waitAt {home : Home} {off : Nat} {expected : Word} {b : Issuer} {entry : Nat} (h : MemoryCanonical s) :
    MemoryCanonical (s.waitAt home off expected b entry) := by
  unfold State.waitAt
  split
  · exact .sendIncr h
  · dsimp only
    split
    · exact .modHome h
    · exact .ite (.modHome h) (.sendIncr (.modHome h))

/-! ### Queues, semaphores, rings (05 R150; 10 R286 to R289; 13 R390 to R392) -/

theorem MemoryCanonical.modQueue {t : TileId} {q : Nat} {f : Queue → Queue} (h : MemoryCanonical s) : MemoryCanonical (s.modQueue t q f) := .modTile h fun _ h1 => h1

theorem MemoryCanonical.pushQueue {t : TileId} {q uid : Nat} {es : List (Line × Bool)} (h : MemoryCanonical s) : MemoryCanonical (s.pushQueue t q uid es) :=
  .modCore (.modQueue h)

theorem MemoryCanonical.popQueue {t : TileId} {q uid n : Nat} (h : MemoryCanonical s) : MemoryCanonical (s.popQueue t q uid n) := .modQueue h

theorem MemoryCanonical.wait {w : Wait} (h : MemoryCanonical s) : MemoryCanonical (s.wait w) := .modCtx h

theorem MemoryCanonical.whenEntries {q n : Nat} {k : State → State} (h : MemoryCanonical s) (hk : ∀ s, MemoryCanonical s → MemoryCanonical (k s)) :
    MemoryCanonical (s.whenEntries q n k) := .ite (.modCtx h) (.ite (hk _ h) (.wait h))

theorem MemoryCanonical.whenRoom {q n : Nat} {k : State → State} (h : MemoryCanonical s) (hk : ∀ s, MemoryCanonical s → MemoryCanonical (k s)) :
    MemoryCanonical (s.whenRoom q n k) := .ite (.modCtx h) (.ite (hk _ h) (.wait h))

theorem MemoryCanonical.changeSem {t : TileId} {n : Nat} {f : Sem → Sem} (h : MemoryCanonical s) : MemoryCanonical (s.changeSem t n f) :=
  .foldl (.modTile h fun _ h1 => h1) fun _ _ h1 => .incrLater h1

theorem MemoryCanonical.postSem {t : TileId} {n k : Nat} (h : MemoryCanonical s) : MemoryCanonical (s.postSem t n k) := .changeSem h

theorem MemoryCanonical.postIf {t : TileId} {n : Option Nat} (h : MemoryCanonical s) : MemoryCanonical (s.postIf t n) := by
  unfold State.postIf
  split
  · exact h
  · exact .postSem h

theorem MemoryCanonical.modRing {t : TileId} {n : Nat} {f : Machine.Ring → Machine.Ring} (h : MemoryCanonical s) : MemoryCanonical (s.modRing t n f) :=
  .modTile h fun _ h1 => h1

theorem MemoryCanonical.ringAdd {t : TileId} {n lines : Nat} (h : MemoryCanonical s) : MemoryCanonical (s.ringAdd t n lines) :=
  .ite (.postIf (.modRing h)) (.modRing h)

theorem MemoryCanonical.modEntry {c : CoreId} {e : Nat} {f : WEntry → WEntry} (h : MemoryCanonical s) : MemoryCanonical (s.modEntry c e f) := .modCore h

/-! ### Barriers, groups, closes (13 R380 to R389; 16 R445) -/

theorem MemoryCanonical.askTile {t : TileId} (h : MemoryCanonical s) : MemoryCanonical (s.askTile t) :=
  .foldl h fun _ _ h1 => .foldl h1 fun _ _ h2 => .ite h2 (.modCtx h2)

theorem MemoryCanonical.closeNow {z : Nat} (h : MemoryCanonical s) : MemoryCanonical (s.closeNow z) := .foldl (.modZone h fun _ h1 => h1) fun _ _ h1 => .askTile h1

theorem MemoryCanonical.askClose {z : Nat} (h : MemoryCanonical s) : MemoryCanonical (s.askClose z) := .ite h (.ite (.closeNow h) (.modZone h fun _ h1 => h1))

theorem MemoryCanonical.modBar {c : CoreId} {n : Nat} {f : Barrier → Barrier} (h : MemoryCanonical s) : MemoryCanonical (s.modBar c n f) := .modCore h

theorem MemoryCanonical.settleBar {c : CoreId} {n k : Nat} (h : MemoryCanonical s) : MemoryCanonical (s.settleBar c n k) := by
  induction k generalizing s with
  | zero => exact h
  | succ k ih =>
    have hdone {s : State} (hs : MemoryCanonical s) : MemoryCanonical (match s.zoneOf c.tile with
        | none => s
        | some z => s.askClose z) := by
      split
      · exact hs
      · exact .askClose hs
    exact .ite (ih (hdone (.modBar (.foldl (.modCore h) fun _ _ hs => .sendIncr hs)))) h

theorem MemoryCanonical.settle {c : CoreId} {n : Nat} (h : MemoryCanonical s) : MemoryCanonical (s.settle c n) := .settleBar h

theorem MemoryCanonical.arriveBar {owner : CoreId} {n : Nat} {w : Word} {index : Nat} {b : Issuer} (h : MemoryCanonical s) :
    MemoryCanonical (s.arriveBar owner n w index b).1 := by
  unfold State.arriveBar
  dsimp only
  split
  · exact h
  · simp only [apply_ite Prod.fst]
    refine .ite h (.ite h ?_)
    split
    · exact .modBar h
    · exact .settle (.ite (.modCore (.modBar h)) (.modBar h))

theorem MemoryCanonical.registerBar {owner : CoreId} {n entry : Nat} {b : Issuer} (h : MemoryCanonical s) : MemoryCanonical (s.registerBar owner n entry b).1 := by
  unfold State.registerBar
  split
  · exact h
  · exact .modCore h

theorem MemoryCanonical.modGroup {t : TileId} {g : Nat} {f : Machine.Group → Machine.Group} (h : MemoryCanonical s) : MemoryCanonical (s.modGroup t g f) :=
  .modTile h fun _ h1 => h1

/-! ### Operand forms (02 R44 to R46, R58) -/

theorem AnswerCanonical.regReg {f : Form} {d a b : BitVec 5} {g : Word → Word → Word} (h : MemoryCanonical s) : AnswerCanonical (regReg f d a b g s) :=
  .unit h fun _ h1 => .finishReg h1

theorem AnswerCanonical.regOne {f : Form} {d a : BitVec 5} {g : Word → Word} (h : MemoryCanonical s) : AnswerCanonical (regOne f d a g s) :=
  .unit h fun _ h1 => .finishReg h1

theorem AnswerCanonical.regConst {f : Form} {d : BitVec 5} {v : Word} (h : MemoryCanonical s) : AnswerCanonical (regConst f d v s) :=
  .unit h fun _ h1 => .finishReg h1

theorem AnswerCanonical.branch {f : Form} {a b : BitVec 5} {off : Word} {cond : Word → Word → Bool} (h : MemoryCanonical s) :
    AnswerCanonical (branch f a b off cond s) := .unit h fun _ h1 => .modCtx h1

/-! ### Reaching memory (07 R216 to R222) -/

theorem MemoryCanonical.withPlace {r : Except TrapOf Where} {k : Where → State} (h : MemoryCanonical s) (hk : ∀ x, MemoryCanonical (k x)) :
    MemoryCanonical (s.withPlace r k) := by
  unfold State.withPlace
  split
  · exact .trap h
  · exact hk _

theorem MemoryCanonical.xpart (h : MemoryCanonical s) : MemoryCanonical s.xpart := .trap h

theorem MemoryCanonical.retry (h : MemoryCanonical s) : MemoryCanonical s.retry := .modCtx h

theorem MemoryCanonical.setTsr {t : TileId} {n : Nat} {r : Option (List Word)} (h : MemoryCanonical s) : MemoryCanonical (s.setTsr t n r) :=
  .modTile h fun _ h1 => h1

theorem MemoryCanonical.seqTrap (h : MemoryCanonical s) : MemoryCanonical s.seqTrap := .trap h

theorem MemoryCanonical.post {home : Home} {e : Effect} {st : FlightSt} (h : MemoryCanonical s) : MemoryCanonical (s.post home e st) := .sendSt h

theorem MemoryCanonical.finishCont {step : Nat} {cont : Machine.Cont} {bs : List Byte} (h : MemoryCanonical s) : MemoryCanonical (s.finishCont step cont bs) := by
  unfold State.finishCont
  split
  · exact .finishReg h
  · exact .finishReg h
  · exact .finish h
  · exact .finish (.popQueue h)
  · refine .finish ?_
    split
    · exact .foldl h fun _ _ h1 => .post h1
    · exact .popQueue (.foldl h fun _ _ h1 => .post h1)
  · exact .finish (.pushQueue h)
  · exact .finish (.pushQueue h)
  · exact .ite (.finish (.ringAdd (.poke h))) (.trap h)
  · dsimp only
    split
    · exact .trap h
    · exact .finishReg (.setTsr h)
  · dsimp only
    split
    · exact .seqTrap h
    next hseq => exact .finish (.modEntry (.takeSeq h hseq))
  · exact .finishReg h
  · exact .finish (.settle (.modBar h))
  · exact .finishReg (.modCore h)
  · exact .finishReg (.modCore h)

theorem MemoryCanonical.keepSeq {c : CtxId} (h : MemoryCanonical s) : MemoryCanonical (s.keepSeq c) := .ite (.modCtx h) h

theorem MemoryCanonical.untake {c : CtxId} (h : MemoryCanonical s) : MemoryCanonical (s.untake c) := .ite (.modCtx h) h

theorem MemoryCanonical.replyTo {b : Issuer} {id pos : Nat} {bs : List Byte} (h : MemoryCanonical s) : MemoryCanonical (s.replyTo b id pos bs) := by
  unfold State.replyTo
  dsimp only
  split
  · exact .ite (.ite (.finishCont (.keepSeq h)) (.modCtx h)) h
  · exact h

theorem MemoryCanonical.prefixTo {b : Issuer} {id pos : Nat} {bs : List Byte} {cause : Nat} (h : MemoryCanonical s) :
    MemoryCanonical (s.prefixTo b id pos bs cause) := by
  unfold State.prefixTo
  dsimp only
  split
  · exact .ite (.replyTo (.modCtx h)) h
  · exact h

theorem MemoryCanonical.faultTo {b : Issuer} {id : Nat} {code : BitVec 8} {tval : Word} (h : MemoryCanonical s) : MemoryCanonical (s.faultTo b id code tval) := by
  unfold State.faultTo
  dsimp only
  split
  · exact .ite (.trap (.modBar h)) h
  · exact .ite (.trap (.untake h)) h
  · exact h

theorem MemoryCanonical.sendWalk {a : Access} (h : MemoryCanonical s) : MemoryCanonical (s.sendWalk a) := .send h

theorem MemoryCanonical.sendRead {b : Issuer} {w : Where} {id : Nat} {mode : ReadMode} {device : Bool} {p : Piece} (h : MemoryCanonical s) :
    MemoryCanonical (s.sendRead b w id mode device p) := by
  unfold State.sendRead
  split
  · exact h
  · exact .send h
  · exact .sendWalk h

theorem MemoryCanonical.readUnit {w : Where} {len step : Nat} {device : Bool} {cont : Machine.Cont} (h : MemoryCanonical s) :
    MemoryCanonical (s.readUnit w len step device cont) := by
  unfold State.readUnit
  dsimp only
  split
  · exact .trap h
  · exact .ite (.xpart h) (.ite (.retry h) (.ite (.finishCont h) (.foldl (.modCtx h) fun _ _ h1 => .sendRead h1)))

theorem MemoryCanonical.postReply {home : Home} {e : Effect} (h : MemoryCanonical s) : MemoryCanonical (s.postReply home e) := .send h

theorem MemoryCanonical.keyFor {ps : List Piece} {k : Option Key} (h : MemoryCanonical s) (ht : s.keyFor ps = some (k, t)) : MemoryCanonical t := by
  unfold State.keyFor at ht
  split at ht
  · cases ht
  next hseq =>
    split at ht
    · cases ht
      exact h
    · cases ht
      exact .takeSeq h hseq

theorem MemoryCanonical.writePieces {key : Option Key} {w : Where} {acts : Nat → Nat → Nat → List Act} {ps : List Piece} (h : MemoryCanonical s)
    (ht : s.writePieces key w acts ps = some t) : MemoryCanonical t := by
  induction ps generalizing s with
  | nil =>
    cases ht
    exact h
  | cons p ps ih =>
    cases p with
    | own =>
      unfold State.writePieces at ht
      split at ht
      · cases ht
      next hgive =>
        exact ih (.giveHome h hgive) ht
    | tile => exact ih (.post h) ht
    | xlat => exact ih h ht

theorem MemoryCanonical.walkPieces {kind : AccessKind} {device : Bool} {step : Nat} {cont : Machine.Cont} {acts : Nat → Nat → Nat → List Act} {ps : List Piece}
    (h : MemoryCanonical s) : MemoryCanonical (s.walkPieces kind device step cont acts ps) := by
  refine .foldl (.modCtx h) fun _ _ h1 => ?_
  split
  · exact .sendWalk h1
  · exact h1

theorem MemoryCanonical.writeUnit {w : Where} {len step : Nat} {kind : AccessKind} {device : Bool} {cont : Machine.Cont} {acts : Nat → Nat → Nat → List Act}
    (h : MemoryCanonical s) : MemoryCanonical (s.writeUnit w len step kind device cont acts) := by
  unfold State.writeUnit
  dsimp only
  split
  · exact .trap h
  · refine .ite (.xpart h) ?_
    split
    · exact .seqTrap h
    next hkey =>
      refine .ite (.retry h) (.ite (.walkPieces h) ?_)
      split
      · exact .retry h
      next hwrite => exact .finishCont (.writePieces (.keyFor h hkey) hwrite)

theorem MemoryCanonical.atomicUnit {w : Where} {len step : Nat} {act : Nat → Act} {cont : Machine.Cont} (h : MemoryCanonical s) :
    MemoryCanonical (s.atomicUnit w len step act cont) := by
  unfold State.atomicUnit
  dsimp only
  split
  · exact .trap h
  · refine .ite (.xpart h) ?_
    split
    · exact .seqTrap h
    next t hkey =>
      have ht : MemoryCanonical t := .keyFor h hkey
      have ht' : MemoryCanonical t.take.2 := ht
      refine .ite (.retry h) ?_
      split
      · split
        · exact .retry h
        next hgive => exact .finishCont (.giveHome ht' hgive)
        next hgive => exact .modCtx (.giveHome ht' hgive)
      · exact .postReply (.modCtx ht')
      · exact .sendWalk (.modCtx ht')
      · exact h

/-! ### System forms and control words (04 R112 to R121) -/

theorem MemoryCanonical.orFlags {tt : TTId} {f : BitVec 5} (h : MemoryCanonical s) : MemoryCanonical (s.orFlags tt f) := .modTT h

theorem MemoryCanonical.giveBack {tt : TTId} {r : Role} {n : Option Nat} (h : MemoryCanonical s) : MemoryCanonical (s.giveBack tt r n) := by
  unfold State.giveBack
  split
  · exact h
  · exact .modTT h

theorem MemoryCanonical.endIn {id : CtxId} {keepFlags : Bool} (h : MemoryCanonical s) : MemoryCanonical (s.endIn id keepFlags) := by
  have hreleased {f : Core → Core} {uid : Nat} :
      MemoryCanonical ((((s.disband id).modCore id.core f).modTile id.core.tile fun x => x.unearmark uid).releaseAll id.core uid) :=
    .releaseAll (.modTile (.modCore (.disband h)) fun _ hx => hx)
  refine .setCtx ?_
  split
  · exact .disband h
  · split
    · exact hreleased
    · exact .giveBack (.ite (.orFlags hreleased) hreleased)

theorem MemoryCanonical.endHere (h : MemoryCanonical s) : MemoryCanonical s.endHere := .endIn h

theorem MemoryCanonical.eret (h : MemoryCanonical s) : MemoryCanonical s.eret := .ite (.endHere h) (.ite (.trap h) (.modCtx h))

theorem MemoryCanonical.writeCw {n : BitVec 12} {a : Word} (h : MemoryCanonical s) : MemoryCanonical (s.writeCw n a) := by
  unfold State.writeCw
  split
  · exact .modCtx h
  · exact .modCtx h
  · exact .modCtx h
  · exact .modCtx h
  · exact .ite (.modCore h) (.modCore h)
  · exact .modCtx h
  · exact .modCtx h
  · exact .modCtx h
  · exact .modCtx h
  · exact .modCtx h
  · exact .modCtx h
  · exact .modCtx h
  · exact .ite h (.modCore h)
  · exact .ite h (.modCore h)
  · exact .modCore h
  · exact .modPower h
  · exact .modCore h
  · exact h

/-! ### Tasks, waits on an address, tickets (05 R164 to R175) -/

theorem MemoryCanonical.whenPermitted {k : State → State} (h : MemoryCanonical s) (hk : ∀ s, MemoryCanonical s → MemoryCanonical (k s)) :
    MemoryCanonical (s.whenPermitted k) := .ite (hk _ h) (.xpart h)

theorem MemoryCanonical.whenSeq {k : Option Key → State → State} (h : MemoryCanonical s) (hk : ∀ x s, MemoryCanonical s → MemoryCanonical (k x s)) :
    MemoryCanonical (s.whenSeq k) := by
  unfold State.whenSeq
  split
  · exact .seqTrap h
  next hseq => exact hk _ _ (.takeSeq h hseq)

theorem AnswerCanonical.execArm {b a : BitVec 5} (h : MemoryCanonical s) : AnswerCanonical (execArm b a s) := by
  refine .unit h fun s h1 => ?_
  refine .ite (.trap h1) ?_
  split
  · split
    · exact .trap h1
    next hspawn =>
      obtain ⟨tt, -, htt⟩ := Option.bind_eq_some_iff.mp hspawn
      exact .ite (.seqTrap h1) (.whenSeq (.takeSpawn h1 htt) fun _ _ h2 => .finish (.modEntry h2))
  · exact .whenSeq h1 fun _ _ h2 => .finish (.modEntry h2)

theorem MemoryCanonical.selfDenied {addr : Word} (h : MemoryCanonical s) : MemoryCanonical (s.selfDenied addr) := .pend (.countDenial h)

theorem MemoryCanonical.sendWait {p : Piece} {expected : Word} {entry : Nat} {addr : Word} (h : MemoryCanonical s) :
    MemoryCanonical (s.sendWait p expected entry addr) := by
  unfold State.sendWait
  split
  · dsimp only
    split
    · exact .selfDenied (.incrEntry h)
    · exact .waitAt h
  · exact .send h
  · exact h

theorem AnswerCanonical.execWaita {c b a : BitVec 5} (h : MemoryCanonical s) : AnswerCanonical (execWaita c b a s) := by
  refine .unit h fun _ h1 => ?_
  refine .ite (.trap h1) (.ite (.trap h1) (.ite (.trap h1) (.ite (.xpart h1) (.ite (.retry h1) ?_))))
  split
  · exact .ite (.seqTrap h1) (.sendWalk (.modCtx h1))
  · exact .whenSeq h1 fun _ _ h2 => .finish (.sendWait (.modEntry h2))

theorem AnswerCanonical.execWake {b a : BitVec 5} (h : MemoryCanonical s) : AnswerCanonical (execWake b a s) := by
  refine .unit h fun _ h1 => .ite (.trap h1) (.ite (.trap h1) ?_)
  dsimp only
  split
  · exact .whenSeq h1 fun _ _ h2 => .finish (.selfDenied h2)
  · exact .writeUnit h1

theorem AnswerCanonical.execUiret (h : MemoryCanonical s) : AnswerCanonical (execUiret s) := by
  unfold Machine.execUiret
  split
  · exact .next (.trap h)
  · exact .unit h fun _ h1 => .modCtx h1

theorem MemoryCanonical.sendSpawn {tt : TTId} {k : BitVec 16} {w arg : Word} {cls : Nat} {roaming : Bool} (h : MemoryCanonical s) :
    MemoryCanonical (s.sendSpawn tt k w arg cls roaming) := .sendSt (.newTT h)

theorem AnswerCanonical.spawnUnit {f : Form} {c : BitVec 6} {a d : BitVec 5} {roaming : Bool} (h : MemoryCanonical s) :
    AnswerCanonical (spawnUnit f c a d roaming s) := by
  refine .unit h fun _ h1 => ?_
  refine .ite (.trap h1) ?_
  split
  · exact .trap h1
  · split
    · exact .trap h1
    next hspawn =>
      refine .ite (.xpart h1) ?_
      split
      · exact .seqTrap h1
      next hseq => exact .finish (.sendSpawn (.takeSeq (.takeSpawn h1 hspawn) hseq))

theorem MemoryCanonical.endStream {l : Launch} (h : MemoryCanonical s) : MemoryCanonical (s.endStream l) := .ite (.modIface h) h

theorem AnswerCanonical.execTktScope {a d : BitVec 5} (h : MemoryCanonical s) : AnswerCanonical (execTktScope a d s) := by
  refine .unit h fun _ h1 => ?_
  refine .ite (.trap h1) ?_
  split
  · exact .trap h1
  · split
    · exact .trap h1
    · exact .finishReg (.ite (.endStream h1) h1)

theorem MemoryCanonical.disarmAll {c : CoreId} {tt : TTId} (h : MemoryCanonical s) : MemoryCanonical (s.disarmAll c tt) := .modCore h

theorem MemoryCanonical.void {tt : TTId} (h : MemoryCanonical s) : MemoryCanonical (s.void tt) := by
  refine .foldl (.foldl (.modTT h) ?_) fun s c h1 => .foldl (.modCore (.foldl (.disarmAll h1) ?_)) ?_
  · exact fun _ _ h1 => .foldl (.modHome h1) fun _ _ h2 => .acknowledge h2
  · exact fun _ _ h2 => .modTile (.releaseAll h2) fun _ hx => hx
  · exact fun _ _ h2 => .ite (.modCtx h2) h2

theorem AnswerCanonical.execTktVoid {a : BitVec 5} (h : MemoryCanonical s) : AnswerCanonical (execTktVoid a s) := by
  refine .unit h fun _ h1 => ?_
  refine .ite (.trap h1) ?_
  split
  · exact .endIn h1
  · exact .endIn (.void h1)

/-! ### The bulk copy engine (10 R310 to R324) -/

theorem MemoryCanonical.whenNotice {w : BitVec 16} {k : Notice → State} (h : MemoryCanonical s) (hk : ∀ x, MemoryCanonical (k x)) :
    MemoryCanonical (s.whenNotice w k) := by
  unfold State.whenNotice
  split
  · exact .trap h
  · exact hk _

theorem MemoryCanonical.notify {b : Issuer} {n : Notice} (h : MemoryCanonical s) : MemoryCanonical (s.notify b n) := by
  unfold State.notify
  split
  · exact .incrLater h
  · exact .modRunning h
  · exact h

theorem MemoryCanonical.engineDenial {id : Nat} {b : Issuer} {addr : Word} (h : MemoryCanonical s) : MemoryCanonical (s.engineDenial id b addr) :=
  .ite (.modRunning (.countDenial h)) (.pend (.modRunning (.countDenial h)))

theorem MemoryCanonical.engineRead {b : Issuer} {id pos : Nat} {a : Word} {n : Nat} (h : MemoryCanonical s) : MemoryCanonical (s.engineRead b id pos a n) := by
  unfold State.engineRead
  split
  · exact .send h
  · exact .send h
  · exact .sendWalk h

theorem MemoryCanonical.modXfer {id : Nat} {f : Xfer → Xfer} (h : MemoryCanonical s) : MemoryCanonical (s.modXfer id f) := h

theorem MemoryCanonical.sendWrite {x : Xfer} {g : List Elem} {word part : Nat} {left : List Elem} (h : MemoryCanonical s) :
    MemoryCanonical (s.sendWrite x g word part left) := by
  unfold State.sendWrite
  dsimp only
  split
  · exact .send h
  · exact .send h
  · exact .sendWalk h

theorem MemoryCanonical.advance {id n : Nat} (h : MemoryCanonical s) : MemoryCanonical (s.advance id n) := by
  induction n generalizing s with
  | zero => exact h
  | succ n ih =>
    unfold State.advance
    split
    · exact h
    · refine .ite h ?_
      split
      · exact h
      · split
        · exact .ite h (ih (.modXfer h))
        · exact .ite (ih (.engineDenial (.modXfer h))) (.ite h (ih (.sendWrite (.modXfer h))))

theorem MemoryCanonical.advanceAll (h : MemoryCanonical s) : MemoryCanonical s.advanceAll := .foldl h fun _ _ h1 => .advance h1

theorem MemoryCanonical.readDenied {xfer : Nat} {b : Issuer} {id pos len : Nat} {addr : Word} (h : MemoryCanonical s) :
    MemoryCanonical (s.readDenied xfer b id pos len addr) := by
  unfold State.readDenied
  split
  · exact h
  · exact .foldl h fun _ _ h1 => .engineDenial h1

theorem MemoryCanonical.elemReply {id pos : Nat} {bs : List Byte} (h : MemoryCanonical s) : MemoryCanonical (s.elemReply id pos bs) := .advanceAll h

theorem MemoryCanonical.modElem {id num : Nat} {f : Elem → Elem} (h : MemoryCanonical s) : MemoryCanonical (s.modElem id num f) := .modXfer h

theorem MemoryCanonical.readGroup {b : Issuer} {id w : Nat} {g : List (Elem × Word)} (h : MemoryCanonical s) : MemoryCanonical (s.readGroup b id w g) :=
  .foldl (.foldl h fun _ _ h1 => .modElem h1) fun _ _ h1 => .engineRead h1

theorem MemoryCanonical.startReads {b : Issuer} {id w : Nat} {es : List (Elem × Option Word)} (h : MemoryCanonical s) : MemoryCanonical (s.startReads b id w es) :=
  .foldl (.foldl h fun _ _ h1 => .engineDenial (.modElem h1)) fun _ _ h1 => .readGroup h1

theorem MemoryCanonical.breach {n : Nat} (h : MemoryCanonical s) : MemoryCanonical (s.breach n) := .trap h

theorem MemoryCanonical.startXfer {g : Shape} {ring : Option Nat} {n : Notice} {step : Nat} (h : MemoryCanonical s) :
    MemoryCanonical (s.startXfer g ring n step) := by
  unfold State.startXfer
  refine .ite (.xpart h) (.ite (.retry h) (.whenSeq h fun _ _ h1 => .finish (.advanceAll (.startReads ?_))))
  split
  · exact h1
  · exact .modRing h1

theorem MemoryCanonical.whenHandle {home : Word} {k : Record → State} (h : MemoryCanonical s) (hk : ∀ x, MemoryCanonical (k x)) :
    MemoryCanonical (s.whenHandle home k) := by
  unfold State.whenHandle
  split
  · exact .trap h
  · exact hk _

theorem AnswerCanonical.transfer {f : Form} {d : BitVec 5} {ring : Option Nat} {rows : Option Bool} (h : MemoryCanonical s) :
    AnswerCanonical (transfer f d ring rows s) := by
  refine .unit h fun _ h1 => .whenNotice h1 fun _ => .ite (.breach h1) (.whenHandle h1 fun src => ?_)
  extract_lets count bytes bad2 bad3 go
  have hgo (dst : Option Record) : MemoryCanonical (go dst) := by
    refine .ite (.breach h1) (.ite (.breach h1) (.ite (.breach h1) ?_))
    split
    · exact .startXfer h1
    · refine .ite (.retry h1) ?_
      split
      · exact .breach h1
      · exact .startXfer h1
  split
  · exact hgo _
  · exact .whenHandle h1 fun _ => hgo _

/-! ### The matrix array and its rings (10 R291 to R309) -/

theorem MemoryCanonical.whenArray {ts : List TileId} {k : State} (h : MemoryCanonical s) (hk : MemoryCanonical k) : MemoryCanonical (s.whenArray ts k) :=
  .ite (.retry h) hk

theorem MemoryCanonical.enqueue {t : TileId} {op : ArrayOp} (h : MemoryCanonical s) : MemoryCanonical (s.enqueue t op) := .modTile h fun _ h1 => h1

theorem AnswerCanonical.matrixUnit {f : Form} {mode ty shape rb ra acc : Nat} {joint : Bool} (h : MemoryCanonical s) :
    AnswerCanonical (matrixUnit f mode ty shape rb ra acc joint s) := by
  refine .unit h fun _ h1 => .whenArray h1 ?_
  split
  · exact .trap h1
  · split
    · exact .trap h1
    · exact .finish (.foldl (.modRing (.modRing h1)) fun _ _ h2 => .enqueue h2)

theorem AnswerCanonical.drainUnit {f : Form} {z ty : Nat} {a : BitVec 5} {acc : Nat} {add : Bool} (h : MemoryCanonical s) :
    AnswerCanonical (drainUnit f z ty a acc add s) := by
  refine .unit h fun _ h1 => .ite (.trap h1) (.whenNotice h1 fun _ => .whenHandle h1 fun _ => .whenArray h1 (.ite (.xpart h1) (.ite (.retry h1) ?_)))
  exact .whenSeq h1 fun _ _ h2 => .finish (.foldl h2 fun _ _ h3 => .enqueue h3)

theorem MemoryCanonical.whenRing {filler n lines : Nat} {k : State} (h : MemoryCanonical s) (hk : MemoryCanonical k) :
    MemoryCanonical (s.whenRing filler n lines k) := by
  unfold State.whenRing
  dsimp only
  split
  · exact .trap h
  · split
    · exact .trap h
    · exact hk

/-! ### Vector arithmetic (08 R241 to R255) -/

theorem MemoryCanonical.setVreg {j : Nat} {r : BitVec 5} {x : Line} (h : MemoryCanonical s) : MemoryCanonical (s.setVreg j r x) := .ite (.modCtx h) (.modCore h)

theorem MemoryCanonical.setKreg {j n x : Nat} (h : MemoryCanonical s) : MemoryCanonical (s.setKreg j n x) := .ite h (.ite (.modCtx h) (.modCore h))

theorem MemoryCanonical.eachMember {g : Nat → State → State} (h : MemoryCanonical s) (hg : ∀ j s, MemoryCanonical s → MemoryCanonical (g j s)) :
    MemoryCanonical (s.eachMember g) := .foldl h fun s j => hg j s

theorem AnswerCanonical.lanewise {f : Form} {w : Nat} {k : BitVec 3} {b a d : BitVec 5} {g : State → Nat → Line → Line → Line → Nat → Nat × Flags}
    (h : MemoryCanonical s) : AnswerCanonical (lanewise f w k b a d g s) :=
  .unit h fun _ h1 => .finish (.eachMember h1 fun _ _ h2 => .setFlags (.setVreg h2))

theorem AnswerCanonical.floatLanes {f : Form} {t : Fmt} {k : BitVec 3} {b a d : BitVec 5} {m : Option (BitVec 32)} {g : Val → Val → Val → Exact}
    (h : MemoryCanonical s) : AnswerCanonical (floatLanes f t k b a d m g s) := by
  unfold Machine.floatLanes
  exact .lanewise h

theorem AnswerCanonical.plainLanes {f : Form} {t : Fmt} {k : BitVec 3} {b a d : BitVec 5} {m : Option (BitVec 32)} {g : Val → Val → Nat} (h : MemoryCanonical s) :
    AnswerCanonical (plainLanes f t k b a d m g s) := by
  unfold Machine.plainLanes
  exact .lanewise h

theorem AnswerCanonical.selLanes {f : Form} {w : Nat} {k : BitVec 3} {b a d : BitVec 5} (h : MemoryCanonical s) : AnswerCanonical (selLanes f w k b a d s) :=
  .lanewise h

theorem AnswerCanonical.dotFloat {f : Form} {t : Fmt} {k : BitVec 3} {b a d : BitVec 5} {m : Option (BitVec 32)} (h : MemoryCanonical s) :
    AnswerCanonical (dotFloat f t k b a d m s) := by
  unfold Machine.dotFloat
  exact .lanewise h

theorem AnswerCanonical.reduceLanes {f : Form} {w : Nat} {k : BitVec 3} {a d : BitVec 5} {ident : Nat} {node : Nat → Nat → Nat × Flags} (h : MemoryCanonical s) :
    AnswerCanonical (reduceLanes f w k a d ident node s) := .unit h fun _ h1 => .finish (.setFlags (.setVreg h1))

theorem AnswerCanonical.scanLanes {f : Form} {w : Nat} {k : BitVec 3} {a d : BitVec 5} {ident : Nat} {first : Nat → Nat} {node : Nat → Nat → Nat → Nat × Flags}
    (h : MemoryCanonical s) : AnswerCanonical (scanLanes f w k a d ident first node s) :=
  .unit h fun _ h1 => .finish (.setFlags (.eachMember h1 fun _ _ h2 => .setVreg h2))

theorem AnswerCanonical.reduceFloat {f : Form} {t : Fmt} {k : BitVec 3} {a d : BitVec 5} {m : Option (BitVec 32)} (h : MemoryCanonical s) :
    AnswerCanonical (reduceFloat f t k a d m s) := .reduceLanes h

theorem AnswerCanonical.scanFloat {f : Form} {t : Fmt} {k : BitVec 3} {a d : BitVec 5} {m : Option (BitVec 32)} (h : MemoryCanonical s) :
    AnswerCanonical (scanFloat f t k a d m s) := .scanLanes h

theorem AnswerCanonical.intLanes {f : Form} {n : BitVec 1} {w : Nat} {k : BitVec 3} {b a d : BitVec 5} {m : Option (BitVec 32)} {g : ℤ → ℤ → ℤ}
    (h : MemoryCanonical s) : AnswerCanonical (intLanes f n w k b a d m g s) :=
  .lanewise h

theorem AnswerCanonical.bitLanes {f : Form} {w : Nat} {k : BitVec 3} {b a d : BitVec 5} {g : Nat → Nat → Nat} (h : MemoryCanonical s) :
    AnswerCanonical (bitLanes f w k b a d g s) := .lanewise h

theorem AnswerCanonical.dotInt {f : Form} {n : BitVec 1} {w : Nat} {k : BitVec 3} {b a d : BitVec 5} {m : Option (BitVec 32)} (h : MemoryCanonical s) :
    AnswerCanonical (dotInt f n w k b a d m s) := .lanewise h

/-! ### Lane movement and gangs (08 R256 to R270) -/

theorem AnswerCanonical.moveLanes {f : Form} {w : BitVec 2} {k : BitVec 3} {b a d : BitVec 5} {g : State → Line → Line → Nat → Nat} (h : MemoryCanonical s) :
    AnswerCanonical (moveLanes f w k b a d g s) := .lanewise h

theorem MemoryCanonical.whenHeads {q : Nat} {bad : Bool} {k : State} (h : MemoryCanonical s) (hk : MemoryCanonical k) : MemoryCanonical (s.whenHeads q bad k) := by
  refine .ite (.wait h) (.ite (.trap h) ?_)
  split
  · exact .trap h
  · exact hk

theorem MemoryCanonical.popHeads {q : Nat} (h : MemoryCanonical s) : MemoryCanonical (s.popHeads q) := .foldl h fun _ _ h1 => .popQueue h1

theorem MemoryCanonical.formGang {g : Nat} (h : MemoryCanonical s) : MemoryCanonical (s.formGang g) := .modCtx (.foldl h fun _ _ h1 => .modCore h1)

theorem AnswerCanonical.execKpop {w : BitVec 2} {b a d : BitVec 5} (h : MemoryCanonical s) : AnswerCanonical (execKpop w b a d s) := by
  refine .unit h fun s h1 => .ite (.trap h1) (.whenHeads h1 (.finish ?_))
  have hset {g : Nat → State → Nat} : MemoryCanonical (s.eachMember fun m s => s.setKreg m d.toNat (g m s)) := .eachMember h1 fun _ _ h2 => .setKreg h2
  exact .ite hset (.popHeads hset)

/-! ### The format core (09 R271 to R285) -/

theorem MemoryCanonical.whenBoth {q n p m : Nat} {k : List QEntry → State} (h : MemoryCanonical s) (hk : ∀ x, MemoryCanonical (k x)) :
    MemoryCanonical (s.whenBoth q n p m k) := .ite (hk _) (.wait h)

theorem MemoryCanonical.whenStream {q n p m : Nat} {pushes : Bool} {k : List QEntry → State} (h : MemoryCanonical s) (hk : ∀ x, MemoryCanonical (k x)) :
    MemoryCanonical (s.whenStream q n p m pushes k) := by
  unfold State.whenStream
  split
  · exact .trap h
  · exact .whenBoth h fun _ => .ite (.trap h) (hk _)

theorem MemoryCanonical.convert {q n p : Nat} {es : List (Line × Bool)} (h : MemoryCanonical s) : MemoryCanonical (s.convert q n p es) := .pushQueue (.popQueue h)

theorem AnswerCanonical.execFqmv {n a d : BitVec 5} {m : Option (BitVec 32)} (h : MemoryCanonical s) : AnswerCanonical (execFqmv n a d m s) := by
  refine .unit h fun _ h1 => ?_
  split
  · exact .trap h1
  · exact .whenBoth h1 fun _ => .finish (.convert h1)

theorem AnswerCanonical.execUnpackCe8 {t : BitVec 4} {b a d : BitVec 5} (h : MemoryCanonical s) : AnswerCanonical (execUnpackCe8 t b a d s) := by
  refine .unit h fun _ h1 => ?_
  dsimp only
  split
  · exact .trap h1
  · refine .ite (.trap h1) ?_
    split
    · exact .trap h1
    · refine .whenEntries h1 fun _ h2 => .ite (.trap h2) (.whenBoth h2 fun _ => .ite (.trap h2) ?_)
      exact .finish (.setFlags (.modQueue (.convert h2)))

/-! ### The context that issues -/

theorem MemoryCanonical.select {id : CtxId} (h : MemoryCanonical s) : MemoryCanonical (s.select id) := h

/-! ### Messages, queues and channels (06 R176 to R208) -/

theorem MemoryCanonical.sendMessage {dst : CoreId} {away : Bool} {m : Machine.Message} (h : MemoryCanonical s) : MemoryCanonical (s.sendMessage dst away m) :=
  .sendSt h

theorem MemoryCanonical.whenPad {off : Word} {n : Nat} {k : List Word → State} (h : MemoryCanonical s) (hk : ∀ x, MemoryCanonical (k x)) :
    MemoryCanonical (s.whenPad off n k) := by
  refine .ite (hk _) (.ite (.trap h) ?_)
  split
  · exact .trap h
  · exact .ite (.retry h) (hk _)

theorem MemoryCanonical.useCredits {ch : Nat} (h : MemoryCanonical s) : MemoryCanonical (s.useCredits ch) := .modCore h

theorem MemoryCanonical.sendBound {q : Nat} {words : List Word} {step : Nat} (h : MemoryCanonical s) : MemoryCanonical (s.sendBound q words step) :=
  .ite (.trap h) (.whenPermitted h fun _ h1 => .whenSeq h1 fun _ _ h2 => .finish (.sendMessage (.useCredits (.modChan h2))))

theorem MemoryCanonical.whenSendEnd {q : Nat} {k : State} (h : MemoryCanonical s) (hk : MemoryCanonical k) : MemoryCanonical (s.whenSendEnd q k) := .ite hk (.trap h)

theorem MemoryCanonical.whenTile {d : BitVec 5} {k : Nat → State} (h : MemoryCanonical s) (hk : ∀ x, MemoryCanonical (k x)) :
    MemoryCanonical (s.whenTile d k) := by
  unfold State.whenTile
  split
  · exact .trap h
  · exact hk _

theorem MemoryCanonical.sendDirect {dst : CoreId} {q : Nat} {words : List Word} {reply : Bool} {step : Nat} (h : MemoryCanonical s) :
    MemoryCanonical (s.sendDirect dst q words reply step) := .whenPermitted h fun _ h1 => .whenSeq h1 fun _ _ h2 => .finish (.sendMessage h2)

theorem MemoryCanonical.sendwUnit {r : BitVec 2} {d : BitVec 5} {len step : Nat} {payload : (List Word → State) → State} (h : MemoryCanonical s) (hk : ∀ k,
    (∀ ws, MemoryCanonical (k ws)) → MemoryCanonical (payload k)) : MemoryCanonical (s.sendwUnit r d len step payload) :=
  .ite (.trap h) (.ite (.trap h) (.ite (.trap h) (hk _ fun _ => .whenPermitted h fun _ h1 => .ite (.retry h1) (.whenSeq h1 fun _ _ h2 => .finish (.post h2)))))

theorem AnswerCanonical.execSendwR {r : BitVec 2} {n d : BitVec 5} (h : MemoryCanonical s) : AnswerCanonical (execSendwR r n d s) :=
  .unit h fun _ h1 => .sendwUnit h1 fun _ hws => hws _

theorem AnswerCanonical.execSendwM {r : BitVec 2} {n d : BitVec 5} (h : MemoryCanonical s) : AnswerCanonical (execSendwM r n d s) :=
  .unit h fun _ h1 => .sendwUnit h1 fun _ hws => .whenPad h1 hws

theorem MemoryCanonical.whenAnswerable {k : Machine.Task → State} (h : MemoryCanonical s) (hk : ∀ x, MemoryCanonical (k x)) :
    MemoryCanonical (s.whenAnswerable k) := by
  unfold State.whenAnswerable
  split
  · exact .trap h
  · exact .ite (hk _) (.trap h)

theorem AnswerCanonical.execRefuse (h : MemoryCanonical s) : AnswerCanonical (execRefuse s) := by
  refine .unit h fun _ h1 => .whenAnswerable h1 fun _ => ?_
  split
  · exact .trap h1
  · split
    · exact .trap h1
    · exact .whenPermitted h1 fun _ h3 => .finish (.sendSt (.releaseMsg h3))

theorem AnswerCanonical.execQpeekQ {i q : BitVec 6} {d : BitVec 5} (h : MemoryCanonical s) : AnswerCanonical (execQpeekQ i q d s) := by
  refine .unit h fun _ h1 => .whenEntries h1 fun _ h2 => ?_
  split
  · exact .wait h2
  · exact .finishReg h2

theorem MemoryCanonical.whenHeld {q : Nat} {k : EndMsg → State} (h : MemoryCanonical s) (hk : ∀ x, MemoryCanonical (k x)) :
    MemoryCanonical (s.whenHeld q k) := by
  unfold State.whenHeld
  split
  · exact .trap h
  · exact hk _

/-! ### Barrier, group, round and tile units (13 R393 to R400; 15 R440 to R442; 16 R460 to R462) -/

theorem MemoryCanonical.unbind {n : Nat} (h : MemoryCanonical s) : MemoryCanonical (s.unbind n) := by
  unfold State.unbind
  split
  · exact .send h
  · exact h

theorem MemoryCanonical.whenUnbound {n : Nat} {k : State → State} (h : MemoryCanonical s) (hk : ∀ s, MemoryCanonical s → MemoryCanonical (k s)) :
    MemoryCanonical (s.whenUnbound n k) := by
  unfold State.whenUnbound
  split
  · exact .whenPermitted h hk
  · exact hk _ h

theorem AnswerCanonical.execBarInit {n : BitVec 7} {a : BitVec 5} (h : MemoryCanonical s) : AnswerCanonical (execBarInit n a s) := by
  refine .unit h fun _ h1 => .ite (.trap h1) (.ite (.retry h1) (.ite (.trap h1) (.ite ?_ ?_)))
  · exact .whenPermitted h1 fun _ h2 => .send (.modCtx (.modBar (.unbind h2)))
  · exact .whenUnbound h1 fun _ h2 => .finish (.settle (.modBar (.unbind h2)))

theorem MemoryCanonical.whenOwner {r : BitVec 2} {a : BitVec 5} {k : CoreId → State} (h : MemoryCanonical s) (hk : ∀ x, MemoryCanonical (k x)) :
    MemoryCanonical (s.whenOwner r a k) := by
  unfold State.whenOwner
  split
  · exact .trap h
  · exact hk _

theorem MemoryCanonical.await {step : Nat} {c : Machine.Cont} {k : Nat → State → State} (h : MemoryCanonical s)
    (hk : ∀ x s, MemoryCanonical s → MemoryCanonical (k x s)) : MemoryCanonical (s.await step c k) :=
  hk _ _ (.modCtx h)

theorem MemoryCanonical.groupUnit {a : BitVec 5} {k : Nat → State} (h : MemoryCanonical s) (hk : ∀ x, MemoryCanonical (k x)) :
    MemoryCanonical (s.groupUnit a k) := .ite (.trap h) (hk _)

theorem MemoryCanonical.askGroup {g op index step : Nat} {c : Machine.Cont} (h : MemoryCanonical s) : MemoryCanonical (s.askGroup g op index step c) :=
  .whenPermitted h fun _ h1 => .await h1 fun _ _ h2 => .send h2

theorem AnswerCanonical.execGrpLeave {a d : BitVec 5} (h : MemoryCanonical s) : AnswerCanonical (execGrpLeave a d s) := by
  refine .unit h fun _ h1 => .groupUnit h1 fun _ => ?_
  split
  · exact .trap h1
  · exact .ite (.retry h1) (.askGroup h1)

theorem AnswerCanonical.execRndClose (h : MemoryCanonical s) : AnswerCanonical (execRndClose s) := by
  refine .unit h fun _ h1 => ?_
  split
  · exact .finish h1
  · exact .finish (.askClose h1)

theorem MemoryCanonical.whenBundle {a : BitVec 5} {k : Nat → Nat → Bundle → State} (h : MemoryCanonical s) (hk : ∀ x y z, MemoryCanonical (k x y z)) :
    MemoryCanonical (s.whenBundle a k) := by
  unfold State.whenBundle
  dsimp only
  split
  · exact .trap h
  · split
    · exact .trap h
    · exact hk _ _ _

theorem MemoryCanonical.summon {l n : Nat} (h : MemoryCanonical s) : MemoryCanonical (s.summon l n) := by
  unfold State.summon
  split
  · exact h
  · exact .ite h h

theorem AnswerCanonical.execFoldQ {b a d : BitVec 5} (h : MemoryCanonical s) : AnswerCanonical (execFoldQ b a d s) := by
  refine .unit h fun _ h1 => .whenBundle h1 fun _ _ _ => ?_
  dsimp only
  split
  · exact .trap h1
  · split
    · exact .trap h1
    · refine .finishReg ?_
      split
      · exact .summon h1
      · exact h1
      · exact h1
      · exact h1

/-! ### Activations and tile tasks (05 R141 to R163) -/

theorem MemoryCanonical.reserve {c : CoreId} {r : Ready} {d : ObjRate} (h : MemoryCanonical s) : MemoryCanonical (s.reserve c r d) :=
  .ite (.ite (.modChan h) h) (.ite (.modQueue h) h)

theorem MemoryCanonical.consume {c : CoreId} {src : ActSource} {r : Ready} (h : MemoryCanonical s) : MemoryCanonical (s.consume c src r) := by
  unfold State.consume
  split
  · exact .modChan h
  · dsimp only
    split
    · exact .newTT (.modEntry h)
    · exact .modEntry h
  · exact .modCore h
  · exact .modCore h

theorem MemoryCanonical.enterReady {c : CoreId} {src : ActSource} {r : Ready} (h : MemoryCanonical s) : MemoryCanonical (s.enterReady c src r) :=
  .modCore (.foldl (.consume h) fun _ _ h1 => .reserve h1)

theorem AnswerCanonical.execActivationEnter {c : CoreId} {src : ActSource} (h : MemoryCanonical s) : AnswerCanonical (execActivationEnter c src s) := by
  unfold Machine.execActivationEnter
  split
  · exact .next h
  · exact .next (.enterReady h)

theorem MemoryCanonical.enterWaiting {c : CoreId} (h : MemoryCanonical s) : MemoryCanonical (s.enterWaiting c) := by
  unfold State.enterWaiting
  split
  · exact h
  · exact .enterReady h

theorem MemoryCanonical.startIn {id : CtxId} {r : Ready} (h : MemoryCanonical s) : MemoryCanonical (s.startIn id r) := by
  have hran : MemoryCanonical (match r.tt with
      | none => s
      | some t => s.modTT t fun x => { x with ran := true }) := by
    split
    · exact h
    · exact .modTT h
  unfold State.startIn
  dsimp only
  split
  · split
    · exact h
    · exact .ite (.takeTrap (.modCore (.setCtx h))) (.modCore (.setCtx h))
  · exact .ite (.takeTrap (.modCtx (.setCtx hran))) (.setCtx hran)

theorem AnswerCanonical.execTaskStart {c : CoreId} (h : MemoryCanonical s) : AnswerCanonical (execTaskStart c s) := by
  unfold Machine.execTaskStart
  split
  · exact .event h (.startIn (.modCore h))
  · exact .next h

theorem AnswerCanonical.execWaitClear {id : CtxId} (h : MemoryCanonical s) : AnswerCanonical (execWaitClear id s) := by
  unfold Machine.execWaitClear
  split
  · exact .event h (.modCtx h)
  · exact .next h

theorem MemoryCanonical.withdraw {id : CtxId} {req : Nat} (h : MemoryCanonical s) : MemoryCanonical (s.withdraw id req) := .foldl (.modHome h) fun _ _ h1 => .send h1

theorem MemoryCanonical.abandon {id : CtxId} (h : MemoryCanonical s) : MemoryCanonical (s.abandon id) := by
  unfold State.abandon
  split
  · exact h
  · exact .withdraw h

theorem AnswerCanonical.execLong {id : CtxId} (h : MemoryCanonical s) : AnswerCanonical (execLong id s) := by
  unfold Machine.execLong
  split
  · exact .next h
  · exact .event h (.takeTrap (.abandon h))

theorem AnswerCanonical.execAsyncTrapTake {id : CtxId} (h : MemoryCanonical s) : AnswerCanonical (execAsyncTrapTake id s) := by
  unfold Machine.execAsyncTrapTake
  dsimp only
  split
  · exact .next h
  · exact .event h (.takeTrap (.modCtx (.abandon h)))

theorem MemoryCanonical.noticeIn {id : CtxId} {a : Async} (h : MemoryCanonical s) : MemoryCanonical (s.noticeIn id a) := .ite (.logError (.modCtx h)) h

theorem AnswerCanonical.execKernelNotice {c : CoreId} (h : MemoryCanonical s) : AnswerCanonical (execKernelNotice c s) := by
  unfold Machine.execKernelNotice
  split
  · exact .next h
  · dsimp only
    split
    · exact .event h (.noticeIn (.modCore h))
    · exact .event h (.takeTrap (.abandon (.modCore h)))
    · exact .next h

theorem MemoryCanonical.endVoided (h : MemoryCanonical s) : MemoryCanonical s.endVoided := .foldl h fun _ _ h1 => .ite (.endIn (.abandon h1)) h1

theorem MemoryCanonical.tick (h : MemoryCanonical s) : MemoryCanonical s.tick := .endVoided (.applyLater h)

theorem AnswerCanonical.execTileTaskComplete {tt : TTId} (h : MemoryCanonical s) : AnswerCanonical (execTileTaskComplete tt s) := by
  unfold Machine.execTileTaskComplete
  split
  · exact .next h
  · refine .event h ?_
    split
    · exact .modTT h
    · exact .sendSt (.modTT h)

theorem AnswerCanonical.execTileTaskRetire {tt : TTId} (h : MemoryCanonical s) : AnswerCanonical (execTileTaskRetire tt s) := by
  unfold Machine.execTileTaskRetire
  split
  · exact .next h
  · exact .event h (.modTT (h.mapZones (f := fun z => { z.2 with rerun := z.2.rerun.filter fun t => t ≠ tt }) fun _ hz => hz))

theorem AnswerCanonical.execGjoinOfferReady {c : CoreId} (h : MemoryCanonical s) : AnswerCanonical (execGjoinOfferReady c s) := by
  unfold Machine.execGjoinOfferReady
  split
  · exact .next h
  · exact .event h (.ite (.sendIncr (.modCore h)) (.modCore h))

/-! ### Loads and stores (07 R213 to R240) -/

theorem AnswerCanonical.load {f : Form} {g : BitVec 4} {o : BitVec 7} {a d : BitVec 5} {size : Nat} {sext : Bool} (h : MemoryCanonical s) :
    AnswerCanonical (load f g o a d size sext s) := .unit h fun _ h1 => .withPlace h1 fun _ => .readUnit h1

theorem AnswerCanonical.store {f : Form} {g : BitVec 4} {o : BitVec 7} {a d : BitVec 5} {size : Nat} (h : MemoryCanonical s) :
    AnswerCanonical (store f g o a d size s) := .unit h fun _ h1 => .withPlace h1 fun _ => .writeUnit h1

theorem MemoryCanonical.firstFaultUnit {w : Where} {q n inLimit step : Nat} (h : MemoryCanonical s) : MemoryCanonical (s.firstFaultUnit w q n inLimit step) :=
  .ite (.xpart h) (.ite (.retry h) (.ite (.finishCont h) (.foldl (.modCtx h) fun _ _ h1 => .sendRead h1)))

theorem MemoryCanonical.scratchpad {w : Where} {k : List Piece → State} (h : MemoryCanonical s) (hk : ∀ x, MemoryCanonical (k x)) :
    MemoryCanonical (s.scratchpad w k) := .ite (.trap h) (hk _)

theorem AnswerCanonical.execLdsync {g : BitVec 4} {o : BitVec 7} {a d : BitVec 5} (h : MemoryCanonical s) : AnswerCanonical (execLdsync g o a d s) := by
  refine .unit h fun _ h1 => .withPlace h1 fun _ => .scratchpad h1 fun _ => ?_
  split
  · exact .trap h1
  · refine .ite (.xpart h1) (.ite (.retry h1) ?_)
    dsimp only
    split
    · exact .ite (.finishCont h1) (.modHome (.modCtx h1))
    · exact .sendRead (.modCtx h1)
    · exact h1

/-! ### Fences and releases (11 R336 to R348) -/

theorem MemoryCanonical.afterFlush {step : Nat} {r : Released} (h : MemoryCanonical s) : MemoryCanonical (s.afterFlush step r) := by
  unfold State.afterFlush
  split
  · exact .ite (.modCtx h) (.finish h)
  · exact .finishReg h
  · exact .withPlace h fun _ => .writeUnit h

theorem MemoryCanonical.afterAcks {set : ScopeSet} {step : Nat} {r : Released} (h : MemoryCanonical s) : MemoryCanonical (s.afterAcks set step r) := by
  unfold State.afterAcks
  split
  · exact .finishReg h
  · exact .ite (.afterFlush h) (.modCtx (.foldl h fun _ _ h1 => .sendBack h1))

theorem MemoryCanonical.release {set : ScopeSet} {n step : Nat} {r : Released} (h : MemoryCanonical s) : MemoryCanonical (s.release set n step r) :=
  .ite (.afterAcks h) (.modCtx h)

theorem MemoryCanonical.resumeRelease {id : CtxId} (h : MemoryCanonical s) : MemoryCanonical (s.resumeRelease id) := by
  unfold State.resumeRelease
  split
  · exact .ite (.afterAcks h) h
  · exact h

theorem AnswerCanonical.execStRel {g : BitVec 4} {x : BitVec 2} {o : BitVec 7} {a d : BitVec 5} (h : MemoryCanonical s) :
    AnswerCanonical (execStRel g x o a d s) := by
  refine .unit h fun _ h1 => .withPlace h1 fun _ => .ite (.trap h1) ?_
  dsimp only
  split
  · exact .trap h1
  · refine .ite (.xpart h1) (.ite (.seqTrap h1) ?_)
    split
    · exact .sendWalk (.modCtx h1)
    · exact .release h1

/-! ### Arrivals (06 R178 to R193; 07 R217 to R227) -/

theorem MemoryCanonical.drop {id : Nat} (h : MemoryCanonical s) : MemoryCanonical (s.drop id) := h

theorem MemoryCanonical.modFlight {id : Nat} {g : Flight → Flight} (h : MemoryCanonical s) : MemoryCanonical (s.modFlight id g) := h

theorem MemoryCanonical.bounce {id : Nat} (h : MemoryCanonical s) : MemoryCanonical (s.bounce id) := .modFlight h

theorem MemoryCanonical.refuseForeign {f : Flight} (h : MemoryCanonical s) : MemoryCanonical (s.refuseForeign f) := by
  unfold State.refuseForeign
  split
  · exact .drop h
  · exact .send (.drop h)

theorem MemoryCanonical.logTaken {f : Flight} (h : MemoryCanonical s) : MemoryCanonical (s.logTaken f) := by
  unfold State.logTaken
  split
  · exact h
  · exact .ite h (.modZone h fun _ h1 => h1)

theorem MemoryCanonical.logHost {t : TileId} {p : Packet} (h : MemoryCanonical s) : MemoryCanonical (s.logHost t p) := by
  unfold State.logHost
  split
  · exact h
  · exact .ite h (.modZone h fun _ h1 => h1)

/-- An arrival is taken by its destination, or goes back, or stays on its way. -/
theorem AnswerCanonical.arrival {id : Nat} {k : State → Flight → Option Taking} (h : MemoryCanonical s) (hk : ∀ s f, MemoryCanonical s → TakesCanonical (k s f)) :
    AnswerCanonical (arrival s id k) := by
  refine .next ?_
  split
  · exact h
  · split
    · exact h
    next hv =>
      split
      · exact h
      · exact h
      · exact .bounce h
      · exact .refuseForeign h
      · split
        · exact .logTaken (hk _ _ (.drop h) _ hv _ rfl)
        · exact .bounce h
        · exact h

theorem MemoryCanonical.putMessage {dst : CoreId} {m : Machine.Message} {hampered : Bool} (h : MemoryCanonical s) :
    MemoryCanonical (s.putMessage dst m hampered) := by
  unfold State.putMessage
  dsimp only
  split
  · exact .incrLater (.modChan h)
  · split
    · exact .reopen (.modChan h)
    · exact .modChan h

theorem MemoryCanonical.returnMessage {dst : CoreId} {m : Machine.Message} (h : MemoryCanonical s) : MemoryCanonical (s.returnMessage dst m) := .sendSt h

theorem MemoryCanonical.countRefusal {c : CoreId} {ch : Nat} (h : MemoryCanonical s) : MemoryCanonical (s.countRefusal c ch) := .modChan h

theorem TakingCanonical.takeMessage {dst : CoreId} {m : Machine.Message} (h : MemoryCanonical s) : TakingCanonical (s.takeMessage dst m) := by
  unfold State.takeMessage
  refine .ite (.done (.ite (.putMessage h) h)) (.ite (.ite (.done ?_) ?_) ?_)
  · split
    · exact .ite (.countRefusal h) h
    · exact .modTT (.ite (.countRefusal h) h)
  · split
    · exact .again
    · exact .done (.ite (.countRefusal (.putMessage h)) (.putMessage h))
  · split
    · exact .done (.putMessage h)
    · exact .done (.returnMessage h)

theorem AnswerCanonical.execMessageArrival {id : Nat} (h : MemoryCanonical s) : AnswerCanonical (execMessageArrival id s) := by
  refine .arrival h fun _ _ h1 => ?_
  split
  · exact .some (.takeMessage h1)
  · exact .some (.done (.reopen (.modCore h1)))
  · exact .none

theorem AnswerCanonical.execCreditReturn {id : Nat} (h : MemoryCanonical s) : AnswerCanonical (execCreditReturn id s) := by
  refine .arrival h fun _ _ h1 => ?_
  split
  · exact .some (.done (.modChan h1))
  · exact .none

theorem MemoryCanonical.countRetry {f : Flight} (h : MemoryCanonical s) : MemoryCanonical (s.countRetry f) := by
  unfold State.countRetry
  split
  · exact .modChan h
  · exact h

theorem MemoryCanonical.uncache {src : Option CoreId} {dst : Option TileId} (h : MemoryCanonical s) : MemoryCanonical (s.uncache src dst) := by
  unfold State.uncache
  split
  · exact .modTile h fun _ h1 => h1
  · exact h

theorem AnswerCanonical.execRetryReply {id : Nat} (h : MemoryCanonical s) : AnswerCanonical (execRetryReply id s) := by
  unfold Machine.execRetryReply
  split
  · exact .next h
  · exact .event h (.modFlight (.uncache (.countRetry h)))

theorem AnswerCanonical.execCounterIncrementArrival {id : Nat} (h : MemoryCanonical s) : AnswerCanonical (execCounterIncrementArrival id s) := by
  refine .arrival h fun _ _ h1 => ?_
  split
  · exact .some (.done (.incrLater h1))
  · exact .none

theorem MemoryCanonical.sendEdge {c : CoreId} {m : Machine.Message} (h : MemoryCanonical s) : MemoryCanonical (s.sendEdge c m) := by
  unfold State.sendEdge
  split
  · exact h
  · exact .pushEdge h

theorem AnswerCanonical.execRetryResend {id : Nat} (h : MemoryCanonical s) : AnswerCanonical (execRetryResend id s) := by
  unfold Machine.execRetryResend
  split
  · exact .next h
  · dsimp only
    split
    · exact .event h (.modFlight (.routed (.uncache h)))
    · exact .next h

theorem AnswerCanonical.execMessageInject {c : CoreId} (h : MemoryCanonical s) : AnswerCanonical (execMessageInject c s) := by
  unfold Machine.execMessageInject
  split
  · exact .next h
  · dsimp only
    split
    · exact .next (.sendEdge (.drop (.modCore h)))
    · exact .next (.modFlight (.modCore h))

theorem MemoryCanonical.caughtUp {home : Home} (h : MemoryCanonical s) : MemoryCanonical (s.caughtUp home) := .drainHome h

theorem MemoryCanonical.denyRead {b : Issuer} {id pos len : Nat} {addr : Word} (h : MemoryCanonical s) : MemoryCanonical (s.denyRead b id pos len addr) :=
  .ite (.sendBack h) (.sendBack h)

theorem TakingCanonical.readTile {t : TileId} {off len : Nat} {b : Issuer} {id pos : Nat} {mode : ReadMode} {addr : Word} (h : MemoryCanonical s) :
    TakingCanonical (s.readTile t off len b id pos mode addr) := by
  unfold State.readTile
  dsimp only
  split
  · exact .done (.sendBack h)
  · exact .done (.sendBack h)
  · exact .done (.denyRead h)
  · exact .done (.sendBack h)
  · exact .ite (.done (.sendBack h)) (.ite .again (.done (.modHome h)))

theorem MemoryCanonical.completeFibre {c : CoreId} {n : Nat} {number : BitVec 32} {fail : Bool} (h : MemoryCanonical s) :
    MemoryCanonical (s.completeFibre c n number fail) := .modCore h

theorem MemoryCanonical.putProt {t : TileId} {n : Nat} {w : Word} (h : MemoryCanonical s) : MemoryCanonical (s.putProt t n w) := .modTile h fun _ h1 => h1

theorem MemoryCanonical.putProfile {t : TileId} {m : BitVec 8} (h : MemoryCanonical s) : MemoryCanonical (s.putProfile t m) := .foldl h fun _ _ h1 => .modCore h1

theorem MemoryCanonical.bindChan {c : CoreId} {ch edge : Nat} (h : MemoryCanonical s) : MemoryCanonical (s.bindChan c ch edge) := .modChan h

theorem AnswerCanonical.execRemoteAccessArrival {id : Nat} (h : MemoryCanonical s) : AnswerCanonical (execRemoteAccessArrival id s) := by
  refine .arrival h fun _ _ h1 => ?_
  split
  · split
    · exact .some (.readTile (.caughtUp h1))
    · exact .some (.done (.sendBack (.caughtUp h1)))
  · exact .some (.done (.putProt h1))
  · exact .some (.done (.putProfile h1))
  · exact .some (.done (.bindChan h1))
  · exact .some (.done (.completeFibre h1))
  · exact .none

theorem MemoryCanonical.denyEffect {e : Effect} {addr : Word} (h : MemoryCanonical s) : MemoryCanonical (s.denyEffect e addr) := by
  unfold State.denyEffect
  split
  · exact .sendBack h
  · exact .ite (.acknowledge h) (.foldl (.sendBack h) fun _ _ h1 => .sendBack h1)

theorem MemoryCanonical.denySkipped {home : Home} {e : Effect} {skipped : List Act} (h : MemoryCanonical s) : MemoryCanonical (s.denySkipped home e skipped) := by
  unfold State.denySkipped
  split
  · exact .foldl h fun _ _ h1 => .sendBack h1
  · exact h

theorem AnswerCanonical.execEffectArrival {id : Nat} (h : MemoryCanonical s) : AnswerCanonical (execEffectArrival id s) := by
  refine .arrival h fun _ _ h1 => ?_
  dsimp only
  split
  · split
    · exact .some (.done (.denyEffect h1))
    · split
      · exact .some .again
      next hgive => exact .some (.done (.answer (.denySkipped (.giveHome h1 hgive))))
  · exact .none

theorem AnswerCanonical.execWaitRequestArrival {id : Nat} (h : MemoryCanonical s) : AnswerCanonical (execWaitRequestArrival id s) := by
  refine .arrival h fun _ _ h1 => ?_
  dsimp only
  split
  · split
    · exact .some (.done (.sendBack (.sendIncr (.caughtUp h1))))
    · exact .some (.done (.waitAt (.caughtUp h1)))
  · exact .none

theorem AnswerCanonical.execLdsyncCancel {id : Nat} (h : MemoryCanonical s) : AnswerCanonical (execLdsyncCancel id s) := by
  refine .arrival h fun _ _ h1 => ?_
  split
  · exact .some (.done (.modHome h1))
  · exact .none

theorem AnswerCanonical.execReadReply {id : Nat} (h : MemoryCanonical s) : AnswerCanonical (execReadReply id s) := by
  refine .arrival h fun _ _ h1 => ?_
  split
  · exact .some (.done (.ite (.elemReply h1) (.replyTo h1)))
  · refine .some (.done (.elemReply ?_))
    split
    · exact .readDenied h1
    · exact h1
  · exact .some (.done (.prefixTo h1))
  · exact .some (.done (.faultTo h1))
  · exact .none

theorem MemoryCanonical.acked {wid : Nat} (h : MemoryCanonical s) : MemoryCanonical (s.acked wid) :=
  .foldl (.ite (.advanceAll h) h) fun _ _ h1 => .foldl h1 fun _ _ h2 => .resumeRelease h2

theorem MemoryCanonical.ackedIf {wid : Option Nat} (h : MemoryCanonical s) : MemoryCanonical (s.ackedIf wid) := by
  unfold State.ackedIf
  split
  · exact h
  · exact .acked h

theorem AnswerCanonical.execWriteAcknowledgement {id : Nat} (h : MemoryCanonical s) : AnswerCanonical (execWriteAcknowledgement id s) := by
  refine .arrival h fun _ _ h1 => ?_
  split
  · exact .some (.done (.acked h1))
  · exact .none

theorem AnswerCanonical.execWriteDenial {id : Nat} (h : MemoryCanonical s) : AnswerCanonical (execWriteDenial id s) := by
  refine .arrival h fun _ _ h1 => ?_
  split
  · refine .some (.done (.ackedIf ?_))
    split
    · exact .engineDenial h1
    · exact .pend (.countDenial h1)
  · exact .none

theorem MemoryCanonical.xpartTo {b : Issuer} {id : Option Nat} {addr : Word} (h : MemoryCanonical s) : MemoryCanonical (s.xpartTo b id addr) := by
  unfold State.xpartTo
  split
  · dsimp only
    split
    · exact .pend h
    · exact .elemReply (.pend h)
  · exact .ite (.faultTo h) (.pend h)

theorem AnswerCanonical.execXpartNotice {id : Nat} (h : MemoryCanonical s) : AnswerCanonical (execXpartNotice id s) := by
  refine .arrival h fun _ _ h1 => ?_
  split
  · refine .some (.done (.ackedIf ?_))
    split
    · exact .xpartTo (.countDenial h1)
    · exact .modChan (.xpartTo (.countDenial h1))
  · exact .none

theorem AnswerCanonical.execFlushReadComplete {id : Nat} (h : MemoryCanonical s) : AnswerCanonical (execFlushReadComplete id s) := by
  refine .arrival h fun _ _ h1 => ?_
  dsimp only
  split
  · split
    · exact .some (.done (.ite h1 (.ite (.afterFlush h1) (.modCtx h1))))
    · exact .some (.done h1)
  · exact .none

theorem MemoryCanonical.barReply {b : Issuer} {id : Nat} {r : BarReply} (h : MemoryCanonical s) : MemoryCanonical (s.barReply b id r) := by
  unfold State.barReply
  split <;> exact .sendBack h

theorem AnswerCanonical.execBarrierArrival {id : Nat} (h : MemoryCanonical s) : AnswerCanonical (execBarrierArrival id s) := by
  refine .arrival h fun _ _ h1 => ?_
  dsimp only
  split
  · split
    · exact .some .stay
    · split
      · exact .some .again
      · exact .some (.done (.barReply (.arriveBar h1)))
  · exact .none

theorem AnswerCanonical.execBarrierRegistration {id : Nat} (h : MemoryCanonical s) : AnswerCanonical (execBarrierRegistration id s) := by
  refine .arrival h fun _ _ h1 => ?_
  dsimp only
  split
  · split
    · exact .some .stay
    · split
      · exact .some .again
      · exact .some (.done (.barReply (.registerBar h1)))
  · exact .none

theorem AnswerCanonical.execBarrierBind {id : Nat} (h : MemoryCanonical s) : AnswerCanonical (execBarrierBind id s) := by
  refine .arrival h fun _ _ h1 => ?_
  dsimp only
  split
  · split
    · exact .some (.done (.modGroup h1))
    · split
      · exact .some (.done (.sendBack h1))
      · exact .some (.done (.sendBack (.modGroup h1)))
  · exact .none

theorem MemoryCanonical.changeGroup {t : TileId} {g : Nat} {x : Machine.Group} {join : Bool} {i : Nat} {b : Issuer} {rid : Nat} {bytes : List Byte}
    (h : MemoryCanonical s) : MemoryCanonical (s.changeGroup t g x join i b rid bytes) := by
  unfold State.changeGroup
  extract_lets cores n src s₁ s₂ s₃
  have h₁ : MemoryCanonical s₁ := .modGroup h
  have h₂ : MemoryCanonical s₂ := .foldl h₁ fun _ _ h => .send h
  have h₃ : MemoryCanonical s₃ := .foldl h₂ fun _ _ h => .send h
  exact .ite (.sendBack h₃) h₃

theorem AnswerCanonical.execGroupChange {id : Nat} (h : MemoryCanonical s) : AnswerCanonical (execGroupChange id s) := by
  refine .arrival h fun _ _ h1 => ?_
  dsimp only
  split
  · split
    · exact .some (.done (.sendBack h1))
    · split
      · exact .some .stay
      · split
        · exact .some (.done (.sendBack h1))
        · exact .some (.done (.changeGroup h1))
    · split
      · exact .some .stay
      · exact .some (.done (.changeGroup h1))
  · exact .none

theorem MemoryCanonical.updateDone {t : TileId} {g : Nat} (h : MemoryCanonical s) : MemoryCanonical (s.updateDone t g) := by
  unfold State.updateDone
  split
  · exact h
  · exact .ite (.sendBack (.modGroup h)) (.modGroup h)

theorem AnswerCanonical.execMembershipUpdate {id : Nat} (h : MemoryCanonical s) : AnswerCanonical (execMembershipUpdate id s) := by
  refine .arrival h fun _ _ h1 => ?_
  dsimp only
  split
  · split
    · exact .some .stay
    · exact .some (.done (.updateDone (.modCore h1)))
  · split
    · exact .some .stay
    · split
      · exact .some (.done (.updateDone (.settle (.modBar h1))))
      · exact .some (.done (.updateDone h1))
  · exact .none

theorem MemoryCanonical.tileFault {f : Flight} {t : TileId} (h : MemoryCanonical s) : MemoryCanonical (s.tileFault f t) := by
  unfold State.tileFault
  split
  · exact h
  · exact .ite h (.modCore h)

theorem MemoryCanonical.summonParked {l b : Nat} {first : Bool} (h : MemoryCanonical s) : MemoryCanonical (s.summonParked l b first) := by
  unfold State.summonParked
  split
  · exact h
  · exact .ite h h

theorem AnswerCanonical.execParkedArrival {id : Nat} (h : MemoryCanonical s) : AnswerCanonical (execParkedArrival id s) := by
  refine .next ?_
  split
  · exact h
  · split
    · exact .ite (.bounce h) (.tileFault (.summonParked (.modTile (.modFlight (.modPart h)) fun _ h1 => h1)))
    · exact h

/-! ### Atomics (12 R370 to R375) -/

theorem AnswerCanonical.atomic {f : Form} {g : BitVec 4} {a : BitVec 5} {size : Nat} {act : State → Nat → Act} {cont : Machine.Cont} (h : MemoryCanonical s) :
    AnswerCanonical (atomic f g a size act cont s) := .unit h fun _ h1 => .withPlace h1 fun _ => .atomicUnit h1

theorem AnswerCanonical.reduction {f : Form} {g : BitVec 4} {a : BitVec 5} {size : Nat} {act : State → Nat → Act} (h : MemoryCanonical s) :
    AnswerCanonical (reduction f g a size act s) := .unit h fun _ h1 => .withPlace h1 fun _ => .writeUnit h1

theorem AnswerCanonical.amo {f : Form} {op : Nat} {g : BitVec 4} {w : BitVec 1} {b a d : BitVec 5} (h : MemoryCanonical s) :
    AnswerCanonical (amo f op g w b a d s) := .atomic h

theorem AnswerCanonical.famo {f : Form} {op : Nat} {g : BitVec 4} {t : BitVec 1} {b a d : BitVec 5} (h : MemoryCanonical s) :
    AnswerCanonical (famo f op g t b a d s) := .atomic h

theorem AnswerCanonical.execBfins {g : BitVec 4} {b a d : BitVec 5} (h : MemoryCanonical s) : AnswerCanonical (execBfins g b a d s) := by
  unfold Machine.execBfins
  split
  · exact .reduction h
  · exact .atomic h

/-! ### Engines completing (10 R289 to R319) -/

theorem MemoryCanonical.resumeEngines {c : CoreId} (h : MemoryCanonical s) : MemoryCanonical (s.resumeEngines c) := by
  refine .foldl h fun _ _ h1 => ?_
  dsimp only
  split
  · exact .ite h1 (.finish h1)
  · exact h1

theorem MemoryCanonical.endXfer {x : Xfer} (h : MemoryCanonical s) : MemoryCanonical (s.endXfer x) := .advanceAll (.resumeEngines (.notify h))

theorem AnswerCanonical.execTransferComplete {x : Nat} (h : MemoryCanonical s) : AnswerCanonical (execTransferComplete x s) := by
  unfold Machine.execTransferComplete
  split
  · exact .next h
  · exact .event h (.endXfer h)

theorem MemoryCanonical.deliverLine {x : Xfer} {line : Nat} {bs : List Byte} (h : MemoryCanonical s) : MemoryCanonical (s.deliverLine x line bs) :=
  .ite (.modTile h fun _ hx => Memory.wf_write _ _ _ hx) (.engineDenial h)

theorem MemoryCanonical.deliver {x : Xfer} {n slot : Nat} (h : MemoryCanonical s) : MemoryCanonical (s.deliver x n slot) :=
  .endXfer (.serveSyncs (.postIf (.modRing (.foldl h fun _ _ h1 => .deliverLine h1))))

theorem AnswerCanonical.execRingDeliveryComplete {x : Nat} (h : MemoryCanonical s) : AnswerCanonical (execRingDeliveryComplete x s) := by
  unfold Machine.execRingDeliveryComplete
  split
  · exact .next h
  · split
    · exact .next h
    · exact .event h (.deliver h)

theorem MemoryCanonical.setAcc {t : TileId} {n : Nat} {v : BitVec 32768} (h : MemoryCanonical s) : MemoryCanonical (s.setAcc t n v) := .modTile h fun _ h1 => h1

theorem MemoryCanonical.popRing {t : TileId} {n : Nat} (h : MemoryCanonical s) : MemoryCanonical (s.popRing t n) := .postIf (.modRing h)

theorem MemoryCanonical.giveRow {t : TileId} {b : Issuer} {d : BitVec 5} {line : Line} {member : Nat} (h : MemoryCanonical s) :
    MemoryCanonical (s.giveRow t b d line member) := .ite (.modCtx h) (.modCore h)

theorem MemoryCanonical.drainFrom {a : BitVec 32768} {x member : Nat} (h : MemoryCanonical s) : MemoryCanonical (s.drainFrom a x member) := by
  unfold State.drainFrom
  split
  · exact h
  · dsimp only
    split
    · exact h
    · exact .advanceAll (.giveFlags (.modXfer h))

theorem MemoryCanonical.retireOp {t : TileId} {op : ArrayOp} (h : MemoryCanonical s) : MemoryCanonical (s.retireOp t op) := by
  unfold State.retireOp
  split
  · exact .giveFlags (.foldl (.setAcc h) fun _ _ h1 => .popRing h1)
  · exact .setAcc h
  · exact .replyTo (.giveRow h)
  · exact .drainFrom (.ite (.setAcc h) h)

theorem AnswerCanonical.execArrayOperationRetire {t : TileId} (h : MemoryCanonical s) : AnswerCanonical (execArrayOperationRetire t s) := by
  unfold Machine.execArrayOperationRetire
  split
  · exact .next h
  · exact .next (.retireOp (.modTile h fun _ h1 => h1))

/-! ### Translation (14 R401 to R417) -/

theorem MemoryCanonical.writePages {ps : List Page} {bs : List Byte} (h : MemoryCanonical s) : MemoryCanonical (s.writePages ps bs) := by
  induction ps generalizing s bs with
  | nil => exact h
  | cons p ps ih =>
    unfold State.writePages
    split
    · exact ih (.pokePlace h)
    · exact h

theorem MemoryCanonical.deviceWrite {tag : BitVec 8} {va : Word} {bs : List Byte} (h : MemoryCanonical s) : MemoryCanonical (s.deviceWrite tag va bs) := by
  unfold State.deviceWrite
  split
  · exact h
  · exact .writePages h

theorem MemoryCanonical.cachePage {die : Nat} {tag : BitVec 8} {va w1 : Word} (h : MemoryCanonical s) : MemoryCanonical (s.cachePage die tag va w1) := h

theorem AnswerCanonical.execPageWalk {id : Nat} (h : MemoryCanonical s) : AnswerCanonical (execPageWalk id s) := by
  unfold Machine.execPageWalk
  split
  · exact .next h
  · dsimp only
    split
    · refine .event h ?_
      split
      · exact .modFlight h
      · split
        · exact .modFlight (.cachePage h)
        · exact .modFlight h
    · exact .next h

theorem MemoryCanonical.moreParts {b : Issuer} {id n : Nat} (h : MemoryCanonical s) : MemoryCanonical (s.moreParts b id n) := .ite h (.modCtx h)

theorem MemoryCanonical.forwardRead {a : Access} {id pos : Nat} {mode : ReadMode} {ps : List Page} {cause : Nat} (h : MemoryCanonical s) :
    MemoryCanonical (s.forwardRead a id pos mode ps cause) := by
  unfold State.forwardRead
  split
  · refine .foldl (.moreParts h) fun _ _ h1 => ?_
    split
    · exact h1
    · exact .send h1
  · refine .sendBack (.foldl (.moreParts h) fun _ _ h1 => ?_)
    split
    · exact h1
    · exact .send h1

theorem MemoryCanonical.forwardWrite {e : Effect} {id : Nat} {ps : List Page} (h : MemoryCanonical s) : MemoryCanonical (s.forwardWrite e id ps) := by
  refine .replyTo (.foldl h fun _ _ h1 => ?_)
  split
  · exact h1
  · exact .post h1

theorem MemoryCanonical.forwardEngine {e : Effect} {ps : List Page} (h : MemoryCanonical s) : MemoryCanonical (s.forwardEngine e ps) := by
  refine .foldl h fun s x h1 => ?_
  have hwrites : MemoryCanonical (match e.xfer with
      | none => s
      | some n => s.modXfer n fun y => { y with writes := y.writes ++ [s.fresh] }) := by
    split
    · exact h1
    · exact .modXfer h1
  split
  · exact h1
  · exact .send (.ite (.ite h1 hwrites) (MemoryCanonical.ite h1 hwrites))

theorem MemoryCanonical.keyed {e x : Effect} (h : MemoryCanonical s) (ht : s.keyed e = some (x, t)) : MemoryCanonical t := by
  unfold State.keyed at ht
  split at ht
  · cases ht
    exact h
  · split at ht
    · cases ht
    next hseq =>
      cases ht
      exact .takeSeq (s := { s with cur := ⟨e.by_.core, e.by_.ctx⟩ }) h hseq

theorem MemoryCanonical.keyOthers {e : Effect} (h : MemoryCanonical s) : MemoryCanonical (s.keyOthers e) := .modCtx h

theorem MemoryCanonical.denyAccess {a : Access} {id : Nat} {code : BitVec 8} {tval : Word} (h : MemoryCanonical s) :
    MemoryCanonical (s.denyAccess a id code tval) := by
  unfold State.denyAccess
  split
  · split
    · exact .denyRead h
    · exact .denyEffect h
    · exact h
  · exact .faultTo h

theorem MemoryCanonical.checked {b : Issuer} {id : Nat} {set : ScopeSet} {step : Nat} {r : Released} (h : MemoryCanonical s) :
    MemoryCanonical (s.checked b id set step r) := by
  unfold State.checked
  dsimp only
  split
  · exact .ite (.release h) h
  · exact h

theorem MemoryCanonical.forward {a : Access} {ps : List Page} (h : MemoryCanonical s) : MemoryCanonical (s.forward a ps) := by
  unfold State.forward
  split
  · exact .forwardRead h
  · exact .checked h
  · split
    · exact .forwardEngine h
    · dsimp only
      split
      · exact .faultTo h
      next hkeyed => exact .forwardWrite (.keyOthers (.keyed h hkeyed))
  · dsimp only
    split
    · exact .faultTo h
    next hkeyed _ => exact .postReply (.keyed h hkeyed)
    · exact h
  · dsimp only
    split
    · exact h
    · exact .ite (.replyTo h) (.send (.replyTo h))

theorem MemoryCanonical.recordFault {tag : BitVec 8} {a : Access} {fibre flight : Option Nat} {va : Word} (h : MemoryCanonical s) :
    MemoryCanonical (s.recordFault tag a fibre flight va) := by
  unfold State.recordFault
  split
  · exact h
  · exact .deviceWrite (.modPart h)

theorem MemoryCanonical.suspend {id : CtxId} {n : Nat} {number : BitVec 32} {code : Nat} {va : Word} (h : MemoryCanonical s) :
    MemoryCanonical (s.suspend id n number code va) := by
  refine .setCtx ?_
  split
  · exact .modCore (.disband h)
  · split
    · exact .modCore (.disband h)
    · exact .ite (.modCore (.disband h)) (.modCore (.modCore (.disband h)))

theorem MemoryCanonical.pageFault {f : Flight} {a : Access} {va : Word} (h : MemoryCanonical s) (ht : s.pageFault f a va = some t) : MemoryCanonical t := by
  unfold State.pageFault at ht
  split at ht
  · cases ht
  · split at ht
    · cases ht
    · split at ht
      · cases ht
        exact .modFlight (.recordFault h)
      · dsimp only at ht
        split at ht
        · cases ht
          exact .faultTo (.drop (.recordFault h))
        · split at ht
          · cases ht
          · cases ht
            exact .suspend (.drop (.recordFault h))

theorem MemoryCanonical.translated {f : Flight} {a : Access} {ps : List Page} (h : MemoryCanonical s) : MemoryCanonical (s.translated f a ps) := by
  unfold State.translated
  refine .ite (.denyAccess (.drop h)) (.ite ?_ ?_)
  · split
    · exact .forwardRead (.drop h)
    · exact h
  · split
    · cases hfault : s.pageFault f a _ with
      | none => exact .modFlight h
      | some t => exact .pageFault h hfault
    · exact .ite (.denyAccess (.drop h)) (.ite (.denyAccess (.drop h)) (.forward (.drop h)))

theorem AnswerCanonical.execWalkComplete {id : Nat} (h : MemoryCanonical s) : AnswerCanonical (execWalkComplete id s) := by
  unfold Machine.execWalkComplete
  split
  · exact .next h
  · split
    · exact .event h (.translated h)
    · exact .next h

theorem MemoryCanonical.completePart {id : Nat} {fail : Bool} (h : MemoryCanonical s) : MemoryCanonical (s.completePart id fail) := by
  unfold State.completePart
  split
  · exact h
  · split
    · exact .ite (.denyAccess (.drop h)) (.modFlight h)
    · exact h

theorem AnswerCanonical.execFaultCompletion {tag : BitVec 8} {number : BitVec 32} {fail : Bool} (h : MemoryCanonical s) :
    AnswerCanonical (execFaultCompletion tag number fail s) := by
  unfold Machine.execFaultCompletion
  split
  · exact .next h
  · refine .next ?_
    split
    · refine .completePart ?_
      split
      · exact .logHost (.completeFibre (.modPart h))
      · exact .modPart h
    · split
      · exact .logHost (.completeFibre (.modPart h))
      · exact .modPart h

/-! ### The pool and folding (15 R424 to R437; 17 R467 to R469) -/

theorem MemoryCanonical.modBundle {b : Nat × Nat} {f : Bundle → Bundle} (h : MemoryCanonical s) : MemoryCanonical (s.modBundle b f) := by
  unfold State.modBundle
  split <;> exact h

theorem MemoryCanonical.takeBack {f : Flight} (h : MemoryCanonical s) : MemoryCanonical (s.takeBack f) := by
  unfold State.takeBack
  split
  · exact .modPart (.modTile (.drop h) fun _ h1 => h1)
  · exact .drop h

theorem MemoryCanonical.giveUp {id : CtxId} {req : Nat} (h : MemoryCanonical s) (ht : s.giveUp id req = some t) : MemoryCanonical t := by
  unfold State.giveUp at ht
  dsimp only at ht
  split at ht
  · cases ht
  · cases ht
    refine .modCtx ?_
    split
    · exact .modBar (.foldl (f := State.takeBack) h fun _ _ h1 => .takeBack h1)
    · exact MemoryCanonical.foldl (f := State.takeBack) h fun _ _ h1 => .takeBack h1

theorem MemoryCanonical.toBoundary {id : CtxId} (h : MemoryCanonical s) (ht : s.toBoundary id = some t) : MemoryCanonical t := by
  unfold State.toBoundary at ht
  split at ht
  · cases ht
    exact h
  · cases ht
    exact h
  · cases ht
    exact h
  · cases ht
    exact .abandon h
  · exact .giveUp h ht
  · cases ht

theorem MemoryCanonical.overrun {id : CtxId} {under : Option Beneath} (h : MemoryCanonical s) : MemoryCanonical (s.overrun id under) :=
  .ite (.takeTrap (.modCtx h)) (.modCore (.takeTrap (.modCtx h)))

theorem AnswerCanonical.execBoundaryOverrun {id : CtxId} (h : MemoryCanonical s) : AnswerCanonical (execBoundaryOverrun id s) := by
  unfold Machine.execBoundaryOverrun
  split
  · exact .event h (.overrun h)
  · dsimp only
    split
    · exact .next h
    next hboundary => exact .event h (.overrun (.toBoundary h hboundary))

theorem MemoryCanonical.adopt {z : Nat} {ts : List TileId} (h : MemoryCanonical s) : MemoryCanonical (s.adopt z ts) :=
  .ite h (.modZone h fun _ ⟨hrestore, hstreaming, hplaced⟩ =>
    ⟨hrestore, hstreaming, List.forall_mem_append.mpr ⟨hplaced, List.forall_mem_singleton.mpr (h.imageOf ts _)⟩⟩)

theorem MemoryCanonical.assign {tag : BitVec 8} {ps : List PTile} (h : MemoryCanonical s) : MemoryCanonical (s.assign tag ps) := .foldl h fun _ _ h1 => .ite h1 h1

theorem MemoryCanonical.beginShrink {tag : BitVec 8} {then_ : Option (BitVec 8)} {ps : List PTile} (h : MemoryCanonical s) :
    MemoryCanonical (s.beginShrink tag then_ ps) := .ite h h

theorem MemoryCanonical.perform {r : Request} (h : MemoryCanonical s) : MemoryCanonical (s.perform r) := by
  unfold State.perform
  split
  · exact .assign h
  · exact .beginShrink h
  · exact .beginShrink h

theorem MemoryCanonical.serveRequests (h : MemoryCanonical s) : MemoryCanonical s.serveRequests := .foldl h fun _ _ h1 => .ite h1 (.perform h1)

theorem MemoryCanonical.settleShrinks (h : MemoryCanonical s) : MemoryCanonical s.settleShrinks := by
  refine .serveRequests (.foldl h fun _ _ h1 => ?_)
  refine .ite ?_ h1
  split
  · exact h1
  · exact .assign h1

theorem MemoryCanonical.request {r : Request} (h : MemoryCanonical s) : MemoryCanonical (s.request r) := .settleShrinks (.serveRequests h)

theorem AnswerCanonical.execFold {l b : Nat} (h : MemoryCanonical s) : AnswerCanonical (execFold l b s) := by
  unfold Machine.execFold
  split
  · exact .next h
  · exact .event h (.foldl (.modBundle h) fun _ _ h1 => .askTile h1)

theorem AnswerCanonical.execFoldStreamed {l b : Nat} (h : MemoryCanonical s) : AnswerCanonical (execFoldStreamed l b s) := by
  unfold Machine.execFoldStreamed
  split
  · exact .next h
  · exact .event h (.settleShrinks (.foldl (.foldl (.modBundle h) fun _ _ h1 => .modCtx (.abandon h1)) fun _ _ h1 => .modCore h1))

theorem AnswerCanonical.execUnfold {l b : Nat} (h : MemoryCanonical s) : AnswerCanonical (execUnfold l b s) := by
  unfold Machine.execUnfold
  split
  · dsimp only
    split
    · exact .next h
    · exact .event h (.modBundle (.adopt h))
  · exact .next h

/-- The steps by which State.arrive tries a flight, each keeping the memories. -/
theorem MemoryCanonical.arrive {id : Nat} (h : MemoryCanonical s) : MemoryCanonical (s.arrive id) := by
  refine .foldl_of_mem h fun s f hf hs => .after hs ?_
  simp only [List.mem_cons, List.not_mem_nil, or_false] at hf
  rcases hf with rfl | rfl | rfl | rfl | rfl | rfl | rfl | rfl | rfl | rfl | rfl | rfl | rfl | rfl | rfl | rfl | rfl
  · exact .execMessageArrival hs
  · exact .execCreditReturn hs
  · exact .execCounterIncrementArrival hs
  · exact .execRemoteAccessArrival hs
  · exact .execEffectArrival hs
  · exact .execWaitRequestArrival hs
  · exact .execLdsyncCancel hs
  · exact .execReadReply hs
  · exact .execWriteAcknowledgement hs
  · exact .execWriteDenial hs
  · exact .execXpartNotice hs
  · exact .execFlushReadComplete hs
  · exact .execBarrierArrival hs
  · exact .execBarrierRegistration hs
  · exact .execBarrierBind hs
  · exact .execGroupChange hs
  · exact .execMembershipUpdate hs

theorem MemoryCanonical.unpark {t : TileId} {gen : Nat} (h : MemoryCanonical s) : MemoryCanonical (s.unpark t gen) := .modPart (.modTile h fun _ h1 => h1)

theorem MemoryCanonical.wakeTile {t : TileId} (h : MemoryCanonical s) : MemoryCanonical (s.wakeTile t) :=
  .foldl (.foldl h fun _ _ h1 => .ite h1 (.modCtx h1)) fun _ _ h1 => .modCore h1

theorem MemoryCanonical.joinClose {z : Nat} {ts : List TileId} (h : MemoryCanonical s) : MemoryCanonical (s.joinClose z ts) :=
  .ite (.foldl h fun _ _ h1 => .askTile h1) h

theorem MemoryCanonical.clearTileFaults {ts : List TileId} (h : MemoryCanonical s) : MemoryCanonical (s.clearTileFaults ts) := h

theorem AnswerCanonical.execUnfoldComplete {l b : Nat} (h : MemoryCanonical s) : AnswerCanonical (execUnfoldComplete l b s) := by
  unfold Machine.execUnfoldComplete
  split
  · exact .next h
  · exact .event h (.joinClose (.foldl (.clearTileFaults (.foldl (.modBundle h) fun _ _ h1 => .wakeTile (.unpark h1))) fun _ _ h1 => .arrive h1))

/-! ### Supply zones (16 R445 to R459) -/

theorem AnswerCanonical.execCloseDeferralEnd {zone : Nat} (h : MemoryCanonical s) : AnswerCanonical (execCloseDeferralEnd zone s) := by
  unfold Machine.execCloseDeferralEnd
  dsimp only
  split
  · exact .next h
  · exact .event h (.closeNow h)

theorem MemoryCanonical.releaseHomes (h : MemoryCanonical s) : MemoryCanonical s.releaseHomes := .foldl h fun _ _ h1 => .catchUp h1

theorem MemoryCanonical.settleCtxs {ts : List TileId} (h : MemoryCanonical s) : MemoryCanonical (s.settleCtxs ts) := by
  refine .foldl h fun _ _ h1 => ?_
  split
  · exact .ite (.modCtx h1) h1
  · exact .ite h1 (.modCtx h1)
  · exact .ite h1 (.modCtx h1)
  · exact .ite h1 (.modCtx h1)
  · exact h1

theorem MemoryCanonical.unask {ts : List TileId} (h : MemoryCanonical s) : MemoryCanonical (s.unask ts) :=
  .foldl (.foldl h fun _ _ h1 => .ite (.modCtx h1) h1) fun _ _ h1 => .ite h1 (.modCore h1)

theorem AnswerCanonical.execRoundClose {zone : Nat} (h : MemoryCanonical s) : AnswerCanonical (execRoundClose zone s) := by
  unfold Machine.execRoundClose
  extract_lets z ts image s₁ s₂
  have h₁ : MemoryCanonical s₁ := .settleCtxs (.unask h)
  have himage : ImageCanonical image := h.imageOf ts z.round
  have h₂ : MemoryCanonical s₂ := .modZone h₁ fun x ⟨hrestore, _, hplaced⟩ => by
    refine ⟨hrestore, fun i hi => ?_, fun p hp => hplaced p (List.mem_ite_nil_right.mp hp).2⟩
    obtain ⟨-, rfl⟩ := Option.ite_some_none_eq_some.mp hi
    exact himage
  exact .event h (.ite h₂ (.releaseHomes h₂))

theorem AnswerCanonical.execRoundMirrored {zone : Nat} (h : MemoryCanonical s) : AnswerCanonical (execRoundMirrored zone s) := by
  unfold Machine.execRoundMirrored
  dsimp only
  split
  next hstreaming _ =>
    obtain ⟨-, himage, -⟩ := h.zone zone
    refine .event h (.releaseHomes (.modZone h fun _ ⟨_, _, hplaced⟩ => ⟨?_, forall_of_none, fun p hp => hplaced p (List.mem_filter.mp hp).1⟩))
    rintro _ ⟨⟩
    exact himage _ hstreaming
  · exact .next h

theorem MemoryCanonical.appendLog {die kind index cause : Nat} (h : MemoryCanonical s) : MemoryCanonical (s.appendLog die kind index cause) := .modDie h

theorem MemoryCanonical.failLaunch {l : Nat} {tval : Word} (h : MemoryCanonical s) : MemoryCanonical (s.failLaunch l tval) := by
  unfold State.failLaunch
  split
  · exact h
  · split
    · exact h
    · dsimp only
      split
      · exact .modLaunch h
      · exact .modCore (.modLaunch h)

theorem MemoryCanonical.placeMoves {zone : Nat} {bs : List (Nat × Nat)} (h : MemoryCanonical s) : MemoryCanonical (s.placeMoves zone bs) :=
  .foldl h fun _ _ h1 => .modZone h1 fun _ h2 => h2

theorem MemoryCanonical.retarget {gone : List PTile} (h : MemoryCanonical s) : MemoryCanonical (s.retarget gone) := by
  refine .foldl h fun _ _ h1 => ?_
  split
  · exact h1
  · exact .ite (.placeMoves (.modZone h1 fun _ h2 => h2)) h1

theorem MemoryCanonical.writeRoutes {die : Nat} (h : MemoryCanonical s) : MemoryCanonical (s.writeRoutes die) := h

theorem MemoryCanonical.stopTiles {zone : Nat} {ts : List TileId} (h : MemoryCanonical s) : MemoryCanonical (s.stopTiles zone ts) :=
  .foldl h fun _ _ h1 => .takeBack h1

theorem MemoryCanonical.haltBundles {zone : Nat} {bs : List (Nat × Nat)} (h : MemoryCanonical s) : MemoryCanonical (s.haltBundles zone bs) :=
  .foldl (.stopTiles h) fun _ _ h1 => .modBundle h1

theorem MemoryCanonical.loseZone {zone : Nat} (h : MemoryCanonical s) : MemoryCanonical (s.loseZone zone) :=
  .settleShrinks (.placeMoves (.foldl
    (.modZone (.writeRoutes (.haltBundles h)) fun _ ⟨hrestore, _, hplaced⟩ => ⟨hrestore, forall_of_none, hplaced⟩)
    fun _ _ h1 => .foldl h1 fun _ _ h2 => .failLaunch h2))

theorem MemoryCanonical.loseBuddy {zone : Nat} (h : MemoryCanonical s) : MemoryCanonical (s.loseBuddy zone) := by
  have hs : MemoryCanonical ((s.modZone zone fun z =>
      { z with buddy := none, next := none, streaming := none, restore := none, placed := [], log := [] }).releaseHomes) :=
    .releaseHomes (.modZone h fun _ _ => ⟨forall_of_none, forall_of_none, List.forall_mem_nil _⟩)
  unfold State.loseBuddy
  dsimp only
  split
  · exact .askClose hs
  · exact .askClose (.askClose (.modZone (.modZone hs fun _ hz => hz) fun _ hz => hz))

theorem MemoryCanonical.phase5Again (h : MemoryCanonical s) : MemoryCanonical s.phase5Again := h

theorem MemoryCanonical.dieAgain {zone : Nat} {gone : List PTile} (h : MemoryCanonical s) : MemoryCanonical (s.dieAgain zone gone) :=
  .modZone (.writeRoutes (.haltBundles h)) fun _ h1 => h1

/-- A zone that was to pair with one that fails keeps its restore point only. -/
theorem ZoneCanonical.unpaired {z : Zone} (h : ZoneCanonical z) (zone : Nat) :
    ZoneCanonical (if z.next = some zone then { z with next := none, streaming := none, placed := [], log := [] } else z) := by
  obtain ⟨hrestore, hstreaming, hplaced⟩ := h
  split
  · exact ⟨hrestore, forall_of_none, List.forall_mem_nil _⟩
  · exact ⟨hrestore, hstreaming, hplaced⟩

theorem AnswerCanonical.execRegulatorFailure {zone : Nat} (h : MemoryCanonical s) : AnswerCanonical (execRegulatorFailure zone s) := by
  unfold Machine.execRegulatorFailure
  extract_lets z gone s₁ s₂ s₃ s₄
  have h₁ : MemoryCanonical s₁ := h
  have h₂ : MemoryCanonical s₂ := .appendLog (.modZone h₁ fun _ hz => hz)
  have h₃ : MemoryCanonical s₃ := .mapZones h₂ fun _ hz => hz.unpaired zone
  have h₄ : MemoryCanonical s₄ := .retarget (.ite (.dieAgain h₃) (.loseZone h₃))
  exact .event h (.ite (.phase5Again h₃) (.foldl h₄ fun _ _ h => .loseBuddy h))

theorem AnswerCanonical.execUncorrectableError {tile : PTile} (h : MemoryCanonical s) : AnswerCanonical (execUncorrectableError tile s) := by
  refine .event h ?_
  dsimp only
  split
  · exact .phase5Again (.appendLog h)
  · split
    · exact .retarget (.loseZone (.appendLog h))
    · exact .retarget (.dieAgain (.appendLog h))

theorem MemoryCanonical.restoreTiles {i : Image} {ts : List TileId} (h : MemoryCanonical s) (hi : ImageCanonical i) : MemoryCanonical (s.restoreTiles i ts) := by
  refine .foldl (.foldl (s := _) (.foldl (.foldl (.foldl h fun s id h1 => .setTile h1 ?_) fun _ _ h1 => .setCore h1) fun _ _ h1 => .setCtx h1) fun _ _ h1 => h1)
    fun _ _ h1 => .newTT h1
  have hold : ((i.tiles.get? id).getD Tile.init).mem.wf = true := hi.tile id
  split
  · exact hold
  · exact wf_mendedTile _ hold

theorem MemoryCanonical.replay {log : List Packet} (h : MemoryCanonical s) : MemoryCanonical (s.replay log) := by
  unfold State.replay
  extract_lets r
  have hr : MemoryCanonical r.2 := List.foldlRecOn (motive := fun x : List Flight × State => MemoryCanonical x.2) log _ h fun _ h _ _ => h
  exact .foldl hr fun _ _ h => .arrive h

theorem MemoryCanonical.takePlace {m : (Nat × Nat) × Option (Nat × Nat × PTile)} (h : MemoryCanonical s) : MemoryCanonical (s.takePlace m) := .modBundle h

theorem MemoryCanonical.takeHampers {m : (Nat × Nat) × Option (Nat × Nat × PTile)} (h : MemoryCanonical s) : MemoryCanonical (s.takeHampers m) := by
  unfold State.takeHampers
  split
  · exact .ite (.summonParked h) h
  · exact .foldl (.clearTileFaults h) fun _ _ h1 => .wakeTile (.unpark h1)

theorem MemoryCanonical.renumber {zone : Nat} {round : BitVec 32} (h : MemoryCanonical s) : MemoryCanonical (s.renumber zone round) := by
  unfold State.renumber
  extract_lets again mark s₁
  have h₁ : MemoryCanonical s₁ := .modZone h fun _ ⟨hrestore, hstreaming, hplaced⟩ => ⟨hrestore, hstreaming, List.forall_mem_map.mpr hplaced⟩
  exact h₁

theorem MemoryCanonical.runsAgain {image : Image} {back : List TileId} {rerun : List TTId} (h : MemoryCanonical s) :
    MemoryCanonical (s.runsAgain image back rerun) := h

theorem MemoryCanonical.flushCaches {ts : List TileId} (h : MemoryCanonical s) : MemoryCanonical (s.flushCaches ts) :=
  .of_parts h.hbm h.host (List.forall_mem_map.mpr h.tiles) h.zones

theorem AnswerCanonical.execRemapWaveCommit {zone : Nat} (h : MemoryCanonical s) : AnswerCanonical (execRemapWaveCommit zone s) := by
  unfold Machine.execRemapWaveCommit
  extract_lets z image
  split
  · exact .next h
  · extract_lets moves ts mine log s₁ again s₂ s₃ s₄ s₅ back rerun s₆ s₇ s₈ s₉ s₁₀
    have h₁ : MemoryCanonical s₁ := .restoreTiles h (h.zone zone).mendImage
    have h₂ : MemoryCanonical s₂ := h₁
    have h₃ : MemoryCanonical s₃ := .settleCtxs (.flushCaches (.foldl h₂ fun _ _ h => .takePlace h))
    have h₄ : MemoryCanonical s₄ := .foldl h₃ fun _ _ h => .takeHampers h
    have h₅ : MemoryCanonical s₅ := h₄
    have h₆ : MemoryCanonical s₆ := .modZone (.runsAgain h₅) fun _ hz => hz
    have h₇ : MemoryCanonical s₇ := .renumber h₆
    have h₈ : MemoryCanonical s₈ := .foldl h₇ fun s m h => by
      split
      · exact .joinClose (.ite h (.adopt h))
      · exact h
    have h₉ : MemoryCanonical s₉ := .foldl h₈ fun _ _ h => .modLaunch h
    have h₁₀ : MemoryCanonical s₁₀ := .replay h₉
    exact .next (.ite h₁₀ (.loseZone h₁₀))

theorem MemoryCanonical.reportCycle {cyc : List Relation} {record : Nat} (h : MemoryCanonical s) (ht : s.reportCycle cyc record = some t) : MemoryCanonical t := by
  unfold State.reportCycle at ht
  dsimp only at ht
  split at ht
  · cases ht
  · split at ht
    · cases ht
    · split at ht
      · cases ht
      · cases ht
        exact .modCore (.writePages h)

theorem AnswerCanonical.execDeadlockScan {records : List Nat} (h : MemoryCanonical s) : AnswerCanonical (execDeadlockScan records s) := by
  unfold Machine.execDeadlockScan
  extract_lets told x
  have hx : MemoryCanonical x.1 := List.foldlRecOn (motive := fun x : State × List (List Relation) => MemoryCanonical x.1) _ _ h fun x hx c _ => by
    split
    · exact hx
    next hreport => exact .reportCycle hx hreport
  clear_value x
  exact .event h hx

/-! ### Interfaces and launches (17 R470 to R478) -/

theorem MemoryCanonical.pushRecords {n k : Nat} (h : MemoryCanonical s) : MemoryCanonical (s.pushRecords n k) := by
  induction k generalizing s with
  | zero => exact h
  | succ k ih =>
    unfold State.pushRecords
    extract_lets f
    split
    next r rest link pasid _ _ _ =>
      extract_lets at_ s'
      have hpoke : MemoryCanonical s' := .pokePlace h
      exact .ite (ih hpoke) h
    · exact h

theorem MemoryCanonical.giveRecord {n : Nat} {r : List Word} (h : MemoryCanonical s) : MemoryCanonical (s.giveRecord n r) := .pushRecords (.modIface h)

theorem MemoryCanonical.apertureError {n : Nat} {tag : BitVec 8} {off : Word} (h : MemoryCanonical s) : MemoryCanonical (s.apertureError n tag off) := .logError h

theorem AnswerCanonical.execApertureWrite {link n : Nat} {off : Word} {bytes : List Byte} (h : MemoryCanonical s) :
    AnswerCanonical (execApertureWrite link n off bytes s) := by
  unfold Machine.execApertureWrite
  dsimp only
  split
  · exact .next h
  · refine .event h ?_
    split
    · exact .writePages h
    · exact .apertureError h

theorem AnswerCanonical.execApertureRead {link n : Nat} {off : Word} {len : Nat} (h : MemoryCanonical s) : AnswerCanonical (execApertureRead link n off len s) := by
  unfold Machine.execApertureRead
  dsimp only
  split
  · refine .event h ?_
    split
    · exact h
    · exact .apertureError h
  · exact .next h

theorem MemoryCanonical.placeBundles {l x : Nat} {tag : BitVec 8} {n : Nat} (h : MemoryCanonical s) : MemoryCanonical (s.placeBundles l x tag n) :=
  .foldl h fun _ _ h1 => h1

theorem MemoryCanonical.createTiles {l : Nat} {a : Admit} {p : Machine.Partition} {tag : BitVec 8} (h : MemoryCanonical s) :
    MemoryCanonical (s.createTiles l a p tag) := by
  refine .of_parts h.hbm h.host (List.forall_mem_append.mpr ⟨h.tiles, ?_⟩) h.zones
  exact List.forall_mem_map.mpr fun _ _ => wf_launchMem a.obj

theorem MemoryCanonical.queueStarts {l : Nat} (h : MemoryCanonical s) : MemoryCanonical (s.queueStarts l) :=
  .foldl h fun _ _ h1 => .foldl h1 fun _ _ h2 => .enterWaiting h2

theorem MemoryCanonical.startLaunch {n : Nat} {tag : BitVec 8} {p : Machine.Partition} {a : Admit} {slot : Nat} {number : BitVec 16} {stream : Option
    (Nat × BitVec 16)} (h : MemoryCanonical s) : MemoryCanonical (s.startLaunch n tag p a slot number stream) :=
  .foldl (.queueStarts (.createTiles (.placeBundles (.modIface (.modPart h))))) fun _ _ h1 => .ite h1 (.adopt h1)

theorem AnswerCanonical.execLaunchAdmission {n : Nat} {allot : Bool} (h : MemoryCanonical s) : AnswerCanonical (execLaunchAdmission n allot s) := by
  unfold Machine.execLaunchAdmission
  dsimp only
  split
  · exact .next h
  · split
    · exact .next h
    · refine .event h ?_
      split
      · exact .giveRecord (.modIface h)
      · split
        · exact h
        · exact .startLaunch h

theorem MemoryCanonical.writeFlags {l : Nat} {x : Launch} (h : MemoryCanonical s) : MemoryCanonical (s.writeFlags l x) :=
  .ite h (.foldl h fun _ _ h1 => .ite (.deviceWrite h1) h1)

/-- A zone whose images leave out the tiles of a launch that ended. -/
theorem ZoneCanonical.forget {z : Zone} (h : ZoneCanonical z) (ts : List TileId) :
    ZoneCanonical { z with
      restore := z.restore.map fun i => i.without ts, streaming := z.streaming.map fun i => i.without ts, placed := z.placed.map fun p => (p.1, p.2.without ts) } := by
  obtain ⟨hrestore, hstreaming, hplaced⟩ := h
  refine ⟨fun i hi => ?_, fun i hi => ?_, List.forall_mem_map.mpr fun p hp => (hplaced p hp).without ts⟩
  · obtain ⟨j, hj, rfl⟩ := Option.map_eq_some_iff.mp hi
    exact (hrestore j hj).without ts
  · obtain ⟨j, hj, rfl⟩ := Option.map_eq_some_iff.mp hi
    exact (hstreaming j hj).without ts

theorem MemoryCanonical.clearLaunch {l : Nat} (h : MemoryCanonical s) : MemoryCanonical (s.clearLaunch l) :=
  .of_parts h.hbm h.host (fun e he => h.tiles e (List.mem_filter.mp he).1) (List.forall_mem_map.mpr fun z hz => (h.zones z hz).forget _)

theorem MemoryCanonical.commitHeld {l : Nat} {home : Home} (h : MemoryCanonical s) : MemoryCanonical (s.commitHeld l home) :=
  .foldl h fun _ _ h1 => .ite h1 (.applyRaw h1)

theorem MemoryCanonical.commitAll {l : Nat} (h : MemoryCanonical s) : MemoryCanonical (s.commitAll l) := .foldl h fun _ _ h1 => .commitHeld h1

theorem MemoryCanonical.endLaunch {l : Nat} {x : Launch} (h : MemoryCanonical s) : MemoryCanonical (s.endLaunch l x) :=
  .settleShrinks (.giveRecord (.modPart (.modLaunch (.clearLaunch (.writeFlags (.ite (.commitAll h) h))))))

theorem AnswerCanonical.execLaunchCompletion {l : Nat} (h : MemoryCanonical s) : AnswerCanonical (execLaunchCompletion l s) := by
  unfold Machine.execLaunchCompletion
  split
  · exact .next h
  · exact .event h (.endLaunch h)

/-! ### Management (17 R479 to R489; 18 R505 to R512) -/

theorem MemoryCanonical.commandDone {tag : BitVec 8} {status : Nat} (h : MemoryCanonical s) : MemoryCanonical (s.commandDone tag status) := .modPart h

theorem MemoryCanonical.setProt {t : TileId} {n : Nat} {w : Word} (h : MemoryCanonical s) : MemoryCanonical (s.setProt t n w) := .logHost (.putProt h)

theorem AnswerCanonical.execProtectionDescriptor {tag : BitVec 8} (h : MemoryCanonical s) : AnswerCanonical (execProtectionDescriptor tag s) := by
  unfold Machine.execProtectionDescriptor
  split
  · exact .next h
  · refine .next ?_
    split
    · exact .commandDone h
    · split
      · exact .commandDone h
      · exact .ite (.commandDone h) (.commandDone (.setProt h))

theorem MemoryCanonical.saveCtx {id : CtxId} (h : MemoryCanonical s) : MemoryCanonical (s.saveCtx id) := by
  unfold State.saveCtx
  split
  · exact h
  · exact .setCtx h

theorem AnswerCanonical.execContextSave {tag : BitVec 8} (h : MemoryCanonical s) : AnswerCanonical (execContextSave tag s) := by
  unfold Machine.execContextSave
  split
  · exact .next h
  · refine .next ?_
    split
    · exact .commandDone h
    · dsimp only
      split
      · exact .commandDone h
      · exact .ite (.commandDone h) (.commandDone (.foldl h fun _ _ h1 => .saveCtx h1))

theorem AnswerCanonical.execLoadObject {tag : BitVec 8} {obj : Object} (h : MemoryCanonical s) : AnswerCanonical (execLoadObject tag obj s) := by
  unfold Machine.execLoadObject
  split
  · exact .next h
  · refine .event h (.ite (.commandDone h) (.ite (.commandDone h) (.ite (.commandDone h) ?_)))
    split
    · exact .commandDone (.deviceWrite h)
    · exact .commandDone (.deviceWrite (.modPart h))

theorem AnswerCanonical.execUnloadProgram {tag : BitVec 8} (h : MemoryCanonical s) : AnswerCanonical (execUnloadProgram tag s) := by
  unfold Machine.execUnloadProgram
  split
  · exact .next h
  · exact .next (.ite (.commandDone h) (.ite (.commandDone h) (.commandDone (.modPart h))))

theorem AnswerCanonical.execUnknownCommand {tag : BitVec 8} (h : MemoryCanonical s) : AnswerCanonical (execUnknownCommand tag s) := by
  unfold Machine.execUnknownCommand
  split
  · exact .next h
  · exact .next (.commandDone h)

theorem MemoryCanonical.setProfile {tag m : BitVec 8} (h : MemoryCanonical s) : MemoryCanonical (s.setProfile tag m) :=
  .foldl (.modPart h) fun _ _ h1 => .logHost (.putProfile h1)

theorem MemoryCanonical.assignIface {n : Nat} {v : Word} (h : MemoryCanonical s) : MemoryCanonical (s.assignIface n v) := .modIface h

theorem MemoryCanonical.writeReg {link : Nat} {r : HostReg} {v : Word} (h : MemoryCanonical s) : MemoryCanonical (s.writeReg link r v) := by
  unfold State.writeReg
  split
  · exact .ite (.ite (.modIface h) h) h
  · exact .ite (.modIface h) h
  · exact .ite (.modIface h) h
  · exact .ite (.modIface h) h
  · exact .ite (.modIface h) h
  · exact .ite (.assignIface h) h
  · exact .ite (.modPart h) h
  · exact .ite (.modPart h) h
  · exact .ite (.modPart h) h
  · exact .ite (.modPart h) h
  · exact .ite (.modPart h) h
  · exact h
  · exact .ite (.setProfile h) h
  · exact .ite (.ite (.modPart h) h) h
  · exact .ite (.modPart h) h
  · exact h
  · exact .ite (.modPart h) h
  · exact h
  · exact .ite h h
  · exact h
  · exact h

theorem AnswerCanonical.execSlotTableTakeEffect (h : MemoryCanonical s) : AnswerCanonical (execSlotTableTakeEffect s) := by
  unfold Machine.execSlotTableTakeEffect
  split
  · exact .next h
  · exact .event h h

theorem AnswerCanonical.execFrameBoundary (h : MemoryCanonical s) : AnswerCanonical (execFrameBoundary s) := by
  unfold Machine.execFrameBoundary
  split
  · exact .next h
  · exact .event h h

theorem MemoryCanonical.resend {n : Nat} {again : Nat → Bool} (h : MemoryCanonical s) : MemoryCanonical (s.resend n again) := by
  unfold State.resend
  split
  · exact h
  · exact .ite h h

theorem MemoryCanonical.takeFrame {n : Nat} {e : Edge} {f : PortFrame} (h : MemoryCanonical s) : MemoryCanonical (s.takeFrame n e f) := by
  unfold State.takeFrame
  split <;> exact .send h

theorem AnswerCanonical.execScaleOutFrameReceive {port : Nat} {input : PortInput} (h : MemoryCanonical s) :
    AnswerCanonical (execScaleOutFrameReceive port input s) := by
  unfold Machine.execScaleOutFrameReceive
  split
  · exact .next h
  · dsimp only
    split
    · exact .next h
    · exact .event h (.ite (.takeFrame h) h)

theorem AnswerCanonical.execScaleOutAck {edge : Nat} {seq : BitVec 32} (h : MemoryCanonical s) : AnswerCanonical (execScaleOutAck edge seq s) := by
  unfold Machine.execScaleOutAck
  split <;> exact .next h

theorem AnswerCanonical.execEdgeRebind {edge port : Nat} {bind : Option EdgeEnd} (h : MemoryCanonical s) : AnswerCanonical (execEdgeRebind edge port bind s) := by
  unfold Machine.execEdgeRebind
  extract_lets move fresh
  have hmove (e : Edge) : MemoryCanonical (move e) := .resend h
  have hfresh (b : EdgeEnd) : MemoryCanonical (fresh b) := .ite (.logHost (.bindChan h)) h
  refine .event h ?_
  split
  · exact hmove _
  · exact .ite (hmove _) (hfresh _)
  · exact hfresh _
  · exact h

/-! ### Bring-up (18 R490 to R504) -/

theorem MemoryCanonical.afterReset (h : MemoryCanonical s) : MemoryCanonical s.afterReset :=
  .of_parts h.hbm h.host (List.forall_mem_nil _) (List.forall_mem_nil _)

theorem AnswerCanonical.execPowerLoss {torn : List Nat} {mid : List (Nat × Nat)} (h : MemoryCanonical s) : AnswerCanonical (execPowerLoss torn mid s) := by
  unfold Machine.execPowerLoss
  extract_lets s₁ s₂ s₃
  have h₁ : MemoryCanonical s₁ := .foldl h fun _ _ h => .modDie h
  have h₂ : MemoryCanonical s₂ := .foldl h₁ fun _ _ h => .modDie h
  have h₃ : MemoryCanonical s₃ := .afterReset h₂
  clear_value s₃
  exact .next (.of_parts (List.forall_mem_nil _) h₃.host h₃.tiles h₃.zones)

theorem AnswerCanonical.execFirmwareVerify {die : Nat} (h : MemoryCanonical s) : AnswerCanonical (execFirmwareVerify die s) := by
  refine .event h ?_
  split
  · exact .modDie h
  · exact .setCtx (.modDie h)

theorem MemoryCanonical.sealLog {die : Nat} (h : MemoryCanonical s) : MemoryCanonical (s.sealLog die) := by
  refine .foldl h fun _ _ h1 => ?_
  split
  · exact h1
  · exact .ite (.appendLog h1) h1

theorem MemoryCanonical.retire {die kind index cause : Nat} (h : MemoryCanonical s) : MemoryCanonical (s.retire die kind index cause) := .ite h (.appendLog h)

theorem MemoryCanonical.pair {a b : Nat} (h : MemoryCanonical s) : MemoryCanonical (s.pair a b) :=
  have hempty (c : Nat) : ∀ z, ZoneCanonical z → ZoneCanonical { z with buddy := some c, restore := some Image.empty } :=
    fun _ ⟨_, hstreaming, hplaced⟩ => ⟨fun _ hi => Option.some.inj hi ▸ .empty, hstreaming, hplaced⟩
  .modZone (.modZone h (hempty b)) (hempty a)

theorem MemoryCanonical.pairZones (h : MemoryCanonical s) : MemoryCanonical s.pairZones := by
  refine .foldl (.foldl ?_ fun _ _ h1 => .ite (.pair h1) h1) fun _ _ h1 => ?_
  · exact .of_parts h.hbm h.host h.tiles (List.forall_mem_map.mpr fun _ _ => ZoneCanonical.init)
  · split
    · split
      · exact h1
      · exact .pair h1
    · exact h1

theorem AnswerCanonical.spdm {link : Nat} {bytes : List Byte} (h : MemoryCanonical s) : AnswerCanonical (s.spdm link bytes) := .event h h

theorem AnswerCanonical.execDroopAlarm {zone : Nat} (h : MemoryCanonical s) : AnswerCanonical (execDroopAlarm zone s) := .event h (.ite h h)

theorem MemoryCanonical.setDead {ps : List PTile} (h : MemoryCanonical s) : MemoryCanonical { s with dead := ps } := h

theorem AnswerCanonical.execDieSelfTest {die : Nat} {tiles links zones : List Nat} {ports : List (Nat × Bool)} (h : MemoryCanonical s) :
    AnswerCanonical (execDieSelfTest die tiles links zones ports s) := by
  refine .event h (MemoryCanonical.setDead (.foldl (.foldl (.foldl (.foldl (.sealLog (.modDie h)) ?_) ?_) ?_) ?_))
  · exact fun _ _ h => .retire h
  · exact fun _ _ h => .retire h
  · exact fun _ _ h => .retire h
  · exact fun _ _ h => .modZone h fun _ hz => hz

theorem AnswerCanonical.execPhaseTimeLimit {die : Nat} (h : MemoryCanonical s) : AnswerCanonical (execPhaseTimeLimit die s) := by
  unfold Machine.execPhaseTimeLimit
  extract_lets
  exact .event h (.of_parts h.hbm h.host h.tiles h.zones)

theorem AnswerCanonical.execStartTest {faults : List Nat} (h : MemoryCanonical s) : AnswerCanonical (execStartTest faults s) := by
  unfold Machine.execStartTest
  extract_lets _ s₁ s₂ s₃
  have h₂ : MemoryCanonical s₂ := .ite (.of_parts h.hbm h.host h.tiles h.zones) (.of_parts h.hbm h.host h.tiles h.zones)
  have h₃ : MemoryCanonical s₃ := .pairZones h₂
  clear_value s₃
  exact .event h (.of_parts h₃.hbm h₃.host h₃.tiles h₃.zones)

/-! ### Every meaning -/

/-- Each meaning, by the operations that it is made of. -/
theorem exec_canonical (i : Instr) (h : MemoryCanonical s) : AnswerCanonical (exec i s) := by
  cases i
  all_goals dsimp only [exec]
  case add | sub | mul | mulh | mulhn | div | divn | rem | remn | min | max | minn | maxn | and | or | xor | andn | shl | shr | sha | rotl | seq | slt |
      sltn | padd | psub | pmin | pmax | pshl | pshr | psha | bfi | compactAdd | compactSub | compactAnd | compactOr | compactMove | compactXor |
      compactSlt | compactSeq | compactMul => exact .regReg h
  case vandI32 | vorI32 | vxorI32 | vshlI32 | vshrI32 | vshaI32 | vcmpEqI32 | vcmpNeI32 | vcmpLtI32 | vcmpLeI32 | vandI16 | vorI16 | vxorI16 | vshlI16 |
      vshrI16 | vshaI16 | vcmpEqI16 | vcmpNeI16 | vcmpLtI16 | vcmpLeI16 | vandI8 | vorI8 | vxorI8 | vshlI8 | vshrI8 | vshaI8 | vcmpEqI8 | vcmpNeI8 |
      vcmpLtI8 | vcmpLeI8 => exact .bitLanes h
  case vaddF32 | vsubF32 | vmulF32 | vfmaF32 | vfmsF32 | vfnmaF32 | vrcp | vrsqrt | vsqrt | vexp2 | vlog2 | vtanh | vaddF16 | vsubF16 | vmulF16 |
      vfmaF16 | vfmsF16 | vfnmaF16 => exact .floatLanes h
  case clz | ctz | popc | addi | andi | ori | xori | shli | shri | shai | bfxS | bfxZ | movh | compactAddi | compactShli | compactShri | compactShai |
      compactAndi => exact .regOne h
  case vaddI32 | vsubI32 | vmulI32 | vminI32 | vmaxI32 | vaddI16 | vsubI16 | vmulI16 | vminI16 | vmaxI16 | vaddI8 | vsubI8 | vmulI8 | vminI8 | vmaxI8 =>
    exact .intLanes h
  case vminF32 | vmaxF32 | vcmpEqF32 | vcmpNeF32 | vcmpLtF32 | vcmpLeF32 | vminF16 | vmaxF16 | vcmpEqF16 | vcmpNeF16 | vcmpLtF16 | vcmpLeF16 =>
    exact .plainLanes h
  case cwr | tid | tktGet | bstat | vmovsToScalar | qcntQ | qcntC | chstat | rndQ | sel | segr => exact .unit h fun _ h1 => .finishReg h1
  case amoAdd | amoAnd | amoOr | amoXor | amoMin | amoMax | amoMinn | amoMaxn | amoSwap | amoCas => exact .amo h
  case vredmaxF32 | vredmaxF16 | vredaddI32 | vredmaxI32 | vredaddI16 | vredmaxI16 | vredaddI8 | vredmaxI8 => exact .reduceLanes h
  case beq | bne | blt | bge | bltn | bgen | compactBeq | compactBne => exact .branch h
  case ldBZ | ldBS | ldHZ | ldHS | ldWZ | ldWS | ldD | compactLdD => exact .load h
  case getVersion | getCapabilities | negotiateAlgorithms | getDigests | getCertificate | challenge | getMeasurements | unsupportedRequest =>
    exact .spdm h
  case vperm | vbcastS | vcompress | vexpand | vext | vbcastV | vmov => exact .moveLanes h
  case bcopy | bcopyRing | bgather | bgatherRing | bscatter => exact .transfer h
  case vselF32 | vselF16 | vselI32 | vselI16 | vselI8 => exact .selLanes h
  case stB | stH | stW | stD | compactStD => exact .store h
  case correctableError | partitionDelete | portDown | islandMerging | bootStatusWrite => exact .event h h
  case brk | trap | sysc | compactBrk => exact .unit h fun _ h1 => .trap h1
  case nop | compactNop | prf => exact .unit h fun _ h1 => .finish h1
  case vscanI32 | vscanI16 | vscanI8 => exact .scanLanes h
  case kset | kfirst | kmin => exact .unit h fun _ h1 => .finish (.eachMember h1 fun _ _ h2 => .setKreg h2)
  case jmp | jal | rep => exact .unit h fun _ h1 => .modCtx h1
  case famoAdd | famoMin | famoMax => exact .famo h
  case grow | shrink | preEmption => exact .event h (.request h)
  case compactEnd | endTask => exact .unit h fun _ h1 => .endHere h1
  case spawn | spawnr => exact .spawnUnit h
  case mma | gissue => exact .matrixUnit h
  case mdrain | mdrainadd => exact .drainUnit h
  case vredaddF32 | vredaddF16 => exact .reduceFloat h
  case vscanF32 | vscanF16 => exact .scanFloat h
  case vdotDI16 | vdotDI8 => exact .dotInt h
  case cvt | mxd => exact .unit h fun _ h1 => .whenStream h1 fun _ => .finish (.setFlags (.convert h1))
  case chopen | chclose => exact .unit h fun _ h1 => .ite (.trap h1) (.finish (.modChan (.modLaunch h1)))
  case illegal | fetchProt => exact .next (.trap h)
  case movi | compactMovi => exact .regConst h
  case stfull | stempty => exact .unit h fun _ h1 => .withPlace h1 fun _ => .scratchpad h1 fun _ => .writeUnit h1
  case fence | ackw => exact .unit h fun _ h1 => .release h1
  case redInteger | redFloat => exact .reduction h
  case faultQueueHeadWrite | invalidation => exact .next (.modPart h)
  case invalidationComplete | slotTableCommit => exact .next h
  case currentStep | droopClear => exact .event h (.modPower h)
  case eret => exact .unit h fun _ h1 => .eret h1
  case cww => exact .unit h fun _ h1 => .finish (.writeCw h1)
  case arm => exact .execArm h
  case disarm => exact .unit h fun _ h1 => .ite (.trap h1) (.finishReg (.modEntry h1))
  case waita => exact .execWaita h
  case wake => exact .execWake h
  case prio => exact .unit h fun _ h1 => .ite (.trap h1) (.finishReg (.ite (.modCore h1) h1))
  case defer => exact .unit h fun _ h1 => .ite (.trap h1) (.finish (.modCtx h1))
  case uiret => exact .execUiret h
  case uimask => exact .unit h fun _ h1 => .ite (.trap h1) (.finishReg (.modCtx h1))
  case tktScope => exact .execTktScope h
  case tktVoid => exact .execTktVoid h
  case mzero => exact .unit h fun _ h1 => .whenArray h1 (.finish (.foldl h1 fun _ _ h2 => .enqueue h2))
  case mrow => exact .unit h fun _ h1 => .whenArray h1 (.modCtx (.foldl h1 fun _ _ h2 => .enqueue h2))
  case ringcfg => exact .unit h fun _ h1 => .ite (.trap h1) (.ite (.trap h1) (.ite (.trap h1) (.finish (.modRing h1))))
  case ringpushM => exact .unit h fun _ h1 => .ite (.retry h1) (.whenRing h1 (.withPlace h1 fun _ => .readUnit h1))
  case ringpushQ =>
    exact .unit h fun _ h1 => .whenRing h1 (.ite (.trap h1) (.whenEntries h1 fun _ h2 => .ite (.trap h2) (.finish (.ringAdd (.poke (.popQueue h2))))))
  case tsrw => exact .unit h fun _ h1 => .ite (.trap h1) (.withPlace h1 fun _ => .readUnit h1)
  case tsrinv => exact .unit h fun _ h1 => .ite (.trap h1) (.finish (.setTsr h1))
  case vdotF32 => exact .dotFloat h
  case vmovsToVector => exact .unit h fun _ h1 => .ite (.finish (.setVreg h1)) (.finish h1)
  case vpop => exact .unit h fun _ h1 => .whenHeads h1 (.finish (.popHeads (.eachMember h1 fun _ _ h2 => .setVreg h2)))
  case vpush => exact .unit h fun _ h1 => .ite (.finish (.eachMember h1 fun _ _ h2 => .pushQueue h2)) (.wait h1)
  case kpop => exact .execKpop h
  case gang => exact .unit h fun _ h1 => .ite (.trap h1) (.ite (.trap h1) (.ite (.trap h1) (.ite (.finishReg (.formGang h1)) (.finishReg h1))))
  case gjoin => exact .unit h fun _ h1 => .ite (.trap h1) (.ite (.trap h1) (.ite (.trap h1) (.ite (.trap h1) (.endHere (.modCore h1)))))
  case gdisband => exact .unit h fun _ h1 => .finish (.disband h1)
  case fqmv => exact .execFqmv h
  case unpackCe8 => exact .execUnpackCe8 h
  case packCe8 => exact .unit h fun _ h1 => .whenStream h1 fun _ => .finishReg (.modQueue (.convert h1))
  case mxs => exact .unit h fun _ h1 => .whenStream h1 fun _ => .finishReg h1
  case mxq => exact .unit h fun _ h1 => .whenStream h1 fun _ => .finishReg (.setFlags (.convert h1))
  case sendR => exact .unit h fun _ h1 => .whenSendEnd h1 (.sendBound h1)
  case sendM => exact .unit h fun _ h1 => .whenSendEnd h1 (.whenPad h1 fun _ => .sendBound h1)
  case sendiR => exact .unit h fun _ h1 => .whenTile h1 fun _ => .sendDirect h1
  case sendiM => exact .unit h fun _ h1 => .whenTile h1 fun _ => .whenPad h1 fun _ => .sendDirect h1
  case sendwR => exact .execSendwR h
  case sendwM => exact .execSendwM h
  case replyR => exact .unit h fun _ h1 => .whenAnswerable h1 fun _ => .sendDirect h1
  case replyM => exact .unit h fun _ h1 => .whenAnswerable h1 fun _ => .whenPad h1 fun _ => .sendDirect h1
  case refuse => exact .execRefuse h
  case qpeekQ => exact .execQpeekQ h
  case qpeekC => exact .unit h fun _ h1 => .whenHeld h1 fun _ => .finishReg h1
  case qflushQ => exact .unit h fun _ h1 => .whenEntries h1 fun _ h2 => .finish (.modQueue (.popQueue h2))
  case qflushC => exact .unit h fun _ h1 => .whenHeld h1 fun _ => .finish (.releaseMsg h1)
  case qbind => exact .unit h fun _ h1 => .ite (.trap h1) (.finish (.modChan h1))
  case barInit => exact .execBarInit h
  case barArr =>
    exact .unit h fun _ h1 => .ite (.trap h1) (.ite (.trap h1) (.whenOwner h1 fun _ => .whenPermitted h1 fun _ h3 => .await h3 fun _ _ h4 => .sendSt h4))
  case barWait =>
    exact .unit h fun _ h1 => .ite (.trap h1) (.whenOwner h1 fun _ => .whenPermitted h1 fun _ h3 => .await h3 fun _ _ h4 => .send h4)
  case barExp => exact .unit h fun _ h1 => .ite (.trap h1) (.ite (.retry h1) (.ite (.trap h1) (.finish (.settle (.modBar h1)))))
  case grpJoin => exact .unit h fun _ h1 => .groupUnit h1 fun _ => .ite (.trap h1) (.ite (.retry h1) (.askGroup h1))
  case grpLeave => exact .execGrpLeave h
  case grpQ => exact .unit h fun _ h1 => .groupUnit h1 fun _ => .askGroup h1
  case semInit => exact .unit h fun _ h1 => .ite (.trap h1) (.finish (.changeSem h1))
  case semPost => exact .unit h fun _ h1 => .ite (.trap h1) (.finish (.postSem h1))
  case semArm => exact .unit h fun _ h1 => .ite (.trap h1) (.ite (.trap h1) (.finish (.changeSem h1)))
  case rndClose => exact .execRndClose h
  case lmap => exact .unit h fun _ h1 => .whenBundle h1 fun _ _ _ => .finishReg h1
  case foldQ => exact .execFoldQ h
  case activationEnter => exact .execActivationEnter h
  case taskStart => exact .execTaskStart h
  case startRelease => exact .next (.foldl h fun _ _ h1 => .ite (.modCore h1) h1)
  case waitClear => exact .execWaitClear h
  case long => exact .execLong h
  case asyncTrapTake => exact .execAsyncTrapTake h
  case userInterruptEntry => exact .event h (.modCtx (.abandon h))
  case kernelNotice => exact .execKernelNotice h
  case tileTaskComplete => exact .execTileTaskComplete h
  case tileTaskRetire => exact .execTileTaskRetire h
  case frontAdvance => exact .next (.ite h (.catchUp h))
  case gjoinOfferReady => exact .execGjoinOfferReady h
  case jr => exact .unit h fun _ h1 => .ite (.trap h1) (.modCtx h1)
  case ldq => exact .unit h fun _ h1 => .withPlace h1 fun _ => .whenRoom h1 fun _ h3 => .readUnit h3
  case stq => exact .unit h fun _ h1 => .whenEntries h1 fun _ h2 => .withPlace h2 fun _ => .writeUnit h2
  case ldff => exact .unit h fun _ h1 => .ite (.trap h1) (.ite (.trap h1) (.ite (.trap h1) (.whenRoom h1 fun _ h2 => .firstFaultUnit h2)))
  case ldsync => exact .execLdsync h
  case gaddr => exact .unit h fun _ h1 => .ite (.trap h1) (.finishReg h1)
  case segw => exact .unit h fun _ h1 => .ite (.finish (.modCtx h1)) (.trap h1)
  case stRel => exact .execStRel h
  case ldAcq => exact .unit h fun _ h1 => .withPlace h1 fun _ => .ite (.trap h1) (.readUnit h1)
  case messageArrival => exact .execMessageArrival h
  case creditReturn => exact .execCreditReturn h
  case retryReply => exact .execRetryReply h
  case counterIncrementArrival => exact .execCounterIncrementArrival h
  case retryResend => exact .execRetryResend h
  case messageInject => exact .execMessageInject h
  case remoteAccessArrival => exact .execRemoteAccessArrival h
  case effectArrival => exact .execEffectArrival h
  case waitRequestArrival => exact .execWaitRequestArrival h
  case ldsyncCancel => exact .execLdsyncCancel h
  case readReply => exact .execReadReply h
  case writeAcknowledgement => exact .execWriteAcknowledgement h
  case writeDenial => exact .execWriteDenial h
  case xpartNotice => exact .execXpartNotice h
  case flushReadComplete => exact .execFlushReadComplete h
  case barrierArrival => exact .execBarrierArrival h
  case barrierRegistration => exact .execBarrierRegistration h
  case barrierBind => exact .execBarrierBind h
  case groupChange => exact .execGroupChange h
  case membershipUpdate => exact .execMembershipUpdate h
  case parkedArrival => exact .execParkedArrival h
  case bfins => exact .execBfins h
  case bffcs => exact .atomic h
  case bfpls => exact .unit h fun _ h1 => .ite (.trap h1) (.withPlace h1 fun _ => .atomicUnit h1)
  case transferComplete => exact .execTransferComplete h
  case ringDeliveryComplete => exact .execRingDeliveryComplete h
  case arrayOperationRetire => exact .execArrayOperationRetire h
  case pageWalk => exact .execPageWalk h
  case walkComplete => exact .execWalkComplete h
  case faultCompletion => exact .execFaultCompletion h
  case boundaryOverrun => exact .execBoundaryOverrun h
  case fold => exact .execFold h
  case foldStreamed => exact .execFoldStreamed h
  case unfold => exact .execUnfold h
  case unfoldComplete => exact .execUnfoldComplete h
  case roundTimer => exact .event h (.askClose h)
  case closeDeferralEnd => exact .execCloseDeferralEnd h
  case roundClose => exact .execRoundClose h
  case roundMirrored => exact .execRoundMirrored h
  case regulatorFailure => exact .execRegulatorFailure h
  case uncorrectableError => exact .execUncorrectableError h
  case hbmLineError => exact .event h (.ite h (.foldl h fun _ _ h1 => .failLaunch h1))
  case remapWaveCommit => exact .execRemapWaveCommit h
  case droopAlarm => exact .execDroopAlarm h
  case deadlockScan => exact .execDeadlockScan h
  case launchSubmit => exact .event h (.modIface h)
  case consumedCountWrite => exact .event h (.pushRecords (.modIface h))
  case apertureWrite => exact .execApertureWrite h
  case apertureRead => exact .execApertureRead h
  case launchAdmission => exact .execLaunchAdmission h
  case launchCompletion => exact .execLaunchCompletion h
  case partitionCreate => exact .event h (.assign h)
  case commandSubmit => exact .event h (.modPart h)
  case protectionDescriptor => exact .execProtectionDescriptor h
  case contextSave => exact .execContextSave h
  case loadObject => exact .execLoadObject h
  case unloadProgram => exact .execUnloadProgram h
  case unknownCommand => exact .execUnknownCommand h
  case kernelImageWrite => exact .event h (.ite (.logError h) (.modPart h))
  case hyperImageWrite => exact .next (.ite h h)
  case profileMaskWrite => exact .event h (.setProfile h)
  case registerWrite => exact .next (.writeReg h)
  case failsClear => exact .event h (.ite h h)
  case slotTableTakeEffect => exact .execSlotTableTakeEffect h
  case ptpEventMessage => exact .event h (.ite h (.ite h h))
  case frameBoundary => exact .execFrameBoundary h
  case scaleOutFrameReceive => exact .execScaleOutFrameReceive h
  case scaleOutAck => exact .execScaleOutAck h
  case scaleOutRetransmit => exact .next (.resend h)
  case portUp => exact .event h (.foldl h fun _ _ h1 => .resend h1)
  case edgeRebind => exact .execEdgeRebind h
  case reset => exact .next (.afterReset h)
  case powerLoss => exact .execPowerLoss h
  case firmwareVerify => exact .execFirmwareVerify h
  case dieSelfTest => exact .execDieSelfTest h
  case seamTraining => exact .event h (.foldl h fun _ _ h1 => .retire (.retire h1))
  case phaseTimeLimit => exact .execPhaseTimeLimit h
  case startTest => exact .execStartTest h

/-! ### A boundary, a unit, a step -/

/-- Whichever of unit, trap and interrupt a boundary takes. -/
theorem AnswerCanonical.boundary {i : Instr} (h : MemoryCanonical s) : AnswerCanonical (boundary i s) := by
  unfold Machine.boundary
  split
  next hexec =>
    have ht := exec_canonical i h _ hexec
    split
    · exact .next ht
    · split
      · exact exec_canonical _ h
      · split
        · exact exec_canonical _ h
        · exact .next ht
  next => exact exec_canonical i h

theorem AnswerCanonical.issue {id : CtxId} (h : MemoryCanonical s) : AnswerCanonical (issue id s) := by
  unfold Machine.issue
  dsimp only
  split
  · exact .boundary (.select h)
  · exact .boundary (.select h)
  · exact .boundary (.select h)

theorem AnswerCanonical.fromAgenda {i : Instr} (h : MemoryCanonical s) : AnswerCanonical (fromAgenda i s) := by
  unfold Machine.fromAgenda
  split
  · exact .next h
  · exact exec_canonical i h

theorem AnswerCanonical.step (h : MemoryCanonical s) : AnswerCanonical (step s) := by
  unfold Machine.step
  split
  · exact .fromAgenda h
  · split
    · exact .issue h
    · split
      · exact exec_canonical _ h
      · exact .next (.tick h)

/-- Settles O57: every operation of the model keeps the form, so every meaning and every step does. -/
theorem memoryStaysCanonical : Obligations.MemoryStaysCanonical := fun _ h => ⟨fun i => exec_canonical i h, AnswerCanonical.step h⟩

end Sys2Proof.Claims
end

section
/-! O5, O53: the tests between decoding and a unit's own effect, the units whose effect is a trap, and which instruction a step runs. -/

namespace Sys2Proof.Machine

-- One proof after the other: what one needed of memory the next one uses again.
set_option Elab.async false

/-! ### The decode tests (02 R60 to R64) -/

/-- The mask is looked at below hyper level only (02 R64). -/
theorem Ctx.maskedFeature_eq_find (c : Ctx) (feats : List Nat) :
    c.maskedFeature feats = feats.find? fun n => decide (c.level.toNat < 2) && (c.task.elim 0 Task.prof).getLsbD n := by
  unfold Ctx.maskedFeature
  split
  next h => exact (List.find?_eq_none.mpr fun n _ => by simp [Nat.not_lt.mpr h]).symm
  next h => simp [Nat.lt_of_not_le h]

/-- No feature of a unit that passes is masked. -/
theorem maskedFeature_of_passes {s : State} {roles : List Role} {level : Nat} {feats : List Nat} (h : Claims.Passes s roles level feats) :
    s.here.maskedFeature feats = none := by
  rw [Ctx.maskedFeature_eq_find]
  refine List.find?_eq_none.mpr fun n hn => ?_
  rcases h.1 with hhigh | hprof
  · rw [decide_eq_false (Nat.not_lt.mpr hhigh)]
    exact Bool.false_ne_true
  · rw [hprof n hn, Bool.and_false]
    exact Bool.false_ne_true

/-- What the three tests answer, in their order (02 R60). -/
theorem State.unitOn_eq (s : State) (f : Form) (k : State → State) :
    s.unitOn f k = match s.here.maskedFeature f.feats with
      | some n => (Claims.start s).trap causeMasked ((f.bits <<< 32) ||| BitVec.ofNat 64 n)
      | none =>
        if f.roles.contains s.cur.core.r = false then (Claims.start s).trap causeRole f.bits
        else if s.here.level.toNat < f.level then (Claims.start s).trap causePriv f.bits
        else k (Claims.start s) := rfl

theorem unit_masked {f : Form} {s : State} (k : State → State) {n : Nat} (hm : s.here.maskedFeature f.feats = some n) :
    unit f s k = .next ((Claims.start s).trap causeMasked ((f.bits <<< 32) ||| BitVec.ofNat 64 n)) := by
  rw [unit, State.unitOn_eq, hm]

theorem unit_otherRole {f : Form} {s : State} (k : State → State) (hm : s.here.maskedFeature f.feats = none) (hr : s.cur.core.r ∉ f.roles) :
    unit f s k = .next ((Claims.start s).trap causeRole f.bits) := by
  have hrole : f.roles.contains s.cur.core.r = false := by simpa using hr
  rw [unit, State.unitOn_eq, hm]
  simp only [hrole, if_true]

theorem unit_lowLevel {f : Form} {s : State} (k : State → State) (hm : s.here.maskedFeature f.feats = none) (hr : s.cur.core.r ∈ f.roles)
    (hl : s.here.level.toNat < f.level) : unit f s k = .next ((Claims.start s).trap causePriv f.bits) := by
  have hrole : f.roles.contains s.cur.core.r = true := by simpa using hr
  rw [unit, State.unitOn_eq, hm]
  simp only [hrole, Bool.true_eq_false, if_false, hl, if_true]

theorem decodeTests : Claims.DecodeTests := by
  intro f s k
  rw [← Ctx.maskedFeature_eq_find]
  exact ⟨fun n hm => unit_masked k hm, unit_otherRole k, unit_lowLevel k, fun hp =>
    unit_eq f s k (maskedFeature_of_passes hp) (List.contains_iff_mem.mpr hp.2.1) hp.2.2⟩

/-! ### Units whose effect is a trap (04 R137; 02 R40, R56 to R61; 07 R232) -/

theorem exec_illegal (bits : Word) (s : State) :
    exec (.illegal bits) s = .next ((Claims.start s).trap (if stqElsewhere bits then causeRole else causeIllegal) bits) := rfl

theorem trappingUnits : Claims.TrappingUnits := by
  intro a bits addr s
  refine ⟨unit_free _ s _ rfl rfl rfl, unit_free _ s _ rfl rfl rfl, unit_free _ s _ rfl rfl rfl, unit_free _ s _ rfl rfl rfl, fun h => ?_, fun h => ?_, rfl⟩
  · rw [exec_illegal, h]
    rfl
  · rw [exec_illegal, h]
    rfl

/-- Settles O5: the tests by their order in unit, and the trapping units because every role and level runs them. -/
theorem decodeTestsAndTraps : Obligations.DecodeTestsAndTraps := ⟨decodeTests, trappingUnits⟩

/-! ### What a step runs (02 R40, R60; 05 R140; 14 R420) -/

theorem boundary_of_exec {i : Instr} {s t : State} (h : exec i s = .next t) :
    boundary i s = if t.trapped.isSome then .next t else if asyncDue s.here then exec (.asyncTrapTake s.cur) s
      else if interruptDue s.here then exec (.userInterruptEntry s.cur) s else .next t := by
  unfold boundary
  rw [h]

/-- The order at the boundary: the unit's own trap, else an asynchronous trap, else a user interrupt, else the unit (14 R420). -/
theorem boundary_order {i : Instr} {s t : State} (h : exec i s = .next t) :
    (t.trapped ≠ none → boundary i s = .next t) ∧
    (t.trapped = none → asyncDue s.here = true → boundary i s = exec (.asyncTrapTake s.cur) s) ∧
    (t.trapped = none → asyncDue s.here = false → interruptDue s.here = true → boundary i s = exec (.userInterruptEntry s.cur) s) ∧
    (t.trapped = none → asyncDue s.here = false → interruptDue s.here = false → boundary i s = exec i s) := by
  rw [boundary_of_exec h]
  have hruns (ht : t.trapped = none) : ¬ t.trapped.isSome = true := by
    rw [ht]
    exact Bool.false_ne_true
  refine ⟨fun ht => if_pos (Option.isSome_iff_ne_none.mpr ht), fun ht ha => ?_, fun ht ha hu => ?_, fun ht ha hu => ?_⟩
  · rw [if_neg (hruns ht), if_pos ha]
  · rw [if_neg (hruns ht), if_neg (ne_true_of_eq_false ha), if_pos hu]
  · rw [if_neg (hruns ht), if_neg (ne_true_of_eq_false ha), if_neg (ne_true_of_eq_false hu), h]

/-- With nothing on the agenda, a context that can issue does. -/
theorem step_issue {s : State} {id : CtxId} (ha : s.agenda = []) (hn : nextIssue s = some id) : step s = issue id s := by
  simp only [step, ha, hn]

/-- The unit that a context issues is the one its bytes decode to; bits that are no unit trap, for each of the three reasons (02 R56, R60), and so does a
unit cut short. -/
theorem issue_eq (s : State) (id : CtxId) :
    issue id s = match decode ((s.select id).fetchHalves id) with
      | .ok i => boundary i (s.select id)
      | .error .truncated => boundary (.fetchProt ((s.select id).ctx id).pc) (s.select id)
      | .error (.unassigned b) => boundary (.illegal b) (s.select id)
      | .error (.reserved b) => boundary (.illegal b) (s.select id)
      | .error (.operand b) => boundary (.illegal b) (s.select id) := by
  unfold issue fetch
  dsimp only
  rcases decode ((s.select id).fetchHalves id) with e | i
  · cases e <;> rfl
  · rfl

theorem issue_of_fetch {s : State} {id : CtxId} {i : Instr} (h : decode ((s.select id).fetchHalves id) = .ok i) : issue id s = boundary i (s.select id) := by
  rw [issue_eq, h]

theorem issue_of_truncated {s : State} {id : CtxId} (h : decode ((s.select id).fetchHalves id) = .error .truncated) :
    issue id s = boundary (.fetchProt ((s.select id).ctx id).pc) (s.select id) := by
  rw [issue_eq, h]

theorem issue_of_illegal {s : State} {id : CtxId} {b : Word}
    (h : decode ((s.select id).fetchHalves id) = .error (.unassigned b) ∨ decode ((s.select id).fetchHalves id) = .error (.reserved b) ∨
      decode ((s.select id).fetchHalves id) = .error (.operand b)) : issue id s = boundary (.illegal b) (s.select id) := by
  rcases h with h | h | h <;> rw [issue_eq, h]

/-- Settles O53: the agenda, then the next context's boundary, then the first step that is due, then the cycle. -/
theorem stepRunsDecoded : Obligations.StepRunsDecoded := by
  intro s
  refine ⟨fun i rest hag => ?_, fun ha hn => ⟨fun i => step_due ha hn, step_tick ha hn⟩, fun id ha hn => ?_⟩
  · have hwaits := State.awaitsBoundary_iff { s with agenda := rest } i
    exact ⟨fun h => step_agenda_waits hag (hwaits.mpr h), fun h => step_agenda hag (Bool.eq_false_iff.mpr fun hw => h (hwaits.mp hw))⟩
  · dsimp only
    rw [step_issue ha hn]
    exact ⟨fun i h => issue_of_fetch h ▸ fun t => boundary_order, fun h => issue_of_truncated h ▸ fun t => boundary_order,
      fun b h => issue_of_illegal h ▸ fun t => boundary_order⟩

end Sys2Proof.Machine
end

section
/-! O60: at user level a unit that does not trap leaves what only higher levels write. A unit has come either to a trap or to a state with the control
of the one it started from; each operation a unit is made of keeps that, and the ending of a task frees the context it ends. -/

namespace Sys2Proof.Machine

-- One proof after the other: what one needed of memory the next one uses again.
set_option Elab.async false

/-! ### What the higher levels write of a context and of a core (02 Table 2.14; 04 Table 4.4) -/

/-- A context's level and the two banks. -/
def Ctx.control (c : Ctx) : BitVec 2 × Bank × Bank := (c.level, c.kbank, c.hbank)

/-- A core's entry addresses, tag, profile, watchdog and ordering mode. -/
def Core.control (k : Core) : Word × Word × BitVec 8 × BitVec 8 × BitVec 32 × Bool := (k.tvecK, k.tvecH, k.ptag, k.prof, k.wdog, k.free)

@[simp] theorem Ctx.control_setReg (c : Ctx) (n : BitVec 5) (v : Word) : (c.setReg n v).control = c.control := by
  unfold Ctx.setReg
  split
  · rfl
  · split <;> rfl

@[simp] theorem Ctx.control_jump (c : Ctx) (next : Word) : (c.jump next).control = c.control := by
  unfold Ctx.jump
  split
  · rfl
  · split
    · split <;> rfl
    · split <;> rfl

@[simp] theorem Ctx.control_counted (c : Ctx) (level : BitVec 2) : (c.counted level).control = c.control := by
  unfold Ctx.counted
  split <;> rfl

@[simp] theorem Ctx.control_complete (c : Ctx) (level : BitVec 2) (next : Word) : (c.complete level next).control = c.control :=
  calc (c.complete level next).control = ((c.counted level).jump next).control := rfl
    _ = c.control := by simp

end Sys2Proof.Machine

namespace Sys2Proof.Claims

-- One proof after the other: what one needed of memory the next one uses again.
set_option Elab.async false

open Sys2Proof.Machine

variable {s₀ s t : State}

/-! ### Keeping the control -/

/-- The same unit's context, and everything that only higher levels write as it was. -/
def SameControl (s₀ s : State) : Prop :=
  s.cur = s₀.cur ∧ s.groups = s₀.groups ∧ s.hyper = s₀.hyper ∧ s.hyperEntry = s₀.hyperEntry ∧
    (∀ c, (s.core c).control = (s₀.core c).control) ∧ ∀ id, (s.ctx id).control = (s₀.ctx id).control

/-- Where a unit that began at s₀ has come to: it has trapped, or the control is that of s₀. -/
def KeepsControl (s₀ s : State) : Prop := s.trapped ≠ none ∨ SameControl s₀ s

theorem KeepsControl.refl : KeepsControl s s := .inr ⟨rfl, rfl, rfl, rfl, fun _ => rfl, fun _ => rfl⟩

theorem KeepsControl.setCtx {id : CtxId} {c : Ctx} (h : KeepsControl s₀ s) (hc : c.control = (s.ctx id).control) : KeepsControl s₀ (s.setCtx id c) := by
  refine h.imp_right fun ⟨hcur, hgroups, hhyper, hentry, hcores, hctxs⟩ => ⟨hcur, hgroups, hhyper, hentry, hcores, fun x => ?_⟩
  by_cases hx : x = id
  · rw [hx, State.ctx_setCtx_self, hc, hctxs]
  · rw [State.ctx_setCtx_ne _ _ hx, hctxs]

theorem KeepsControl.modCtx {id : CtxId} {f : Ctx → Ctx} (h : KeepsControl s₀ s) (hf : ∀ c, (f c).control = c.control) :
    KeepsControl s₀ (s.modCtx id f) := .setCtx h (hf _)

theorem KeepsControl.modCore {id : CoreId} {f : Core → Core} (h : KeepsControl s₀ s) (hf : ∀ k, (f k).control = k.control) :
    KeepsControl s₀ (s.modCore id f) := by
  refine h.imp_right fun ⟨hcur, hgroups, hhyper, hentry, hcores, hctxs⟩ => ⟨hcur, hgroups, hhyper, hentry, fun x => ?_, hctxs⟩
  by_cases hx : x = id
  · rw [hx, State.core_modCore_self, hf, hcores]
  · rw [State.core_modCore_ne _ _ hx, hcores]

/-- A trap ends the unit (00 R14). -/
theorem KeepsControl.trap {code : BitVec 8} {tval : Word} : KeepsControl s₀ (s.trap code tval) := .inl (Option.some_ne_none code)

theorem KeepsControl.xpart : KeepsControl s₀ s.xpart := .trap

theorem KeepsControl.seqTrap : KeepsControl s₀ s.seqTrap := .trap

theorem KeepsControl.breach {n : Nat} : KeepsControl s₀ (s.breach n) := .trap

theorem KeepsControl.ifElse {c : Prop} {_ : Decidable c} (hs : KeepsControl s₀ s) (ht : KeepsControl s₀ t) : KeepsControl s₀ (if c then s else t) := by
  split
  · exact hs
  · exact ht

theorem KeepsControl.foldl {α : Type} {f : State → α → State} {l : List α} (h : KeepsControl s₀ s)
    (hf : ∀ s a, KeepsControl s₀ s → KeepsControl s₀ (f s a)) : KeepsControl s₀ (l.foldl f s) :=
  List.foldlRecOn l f h fun s hs a _ => hf s a hs

/-! ### A unit's answer -/

/-- What O60 says of a unit at user level that began at s₀ and left t. -/
def UserLeaves (s₀ t : State) : Prop :=
  s₀.cur.core.r ≠ .steward → s₀.here.level = 0 → t.trapped = none →
    t.here.level = 0 ∧ t.groups = s₀.groups ∧ t.hyper = s₀.hyper ∧ t.hyperEntry = s₀.hyperEntry ∧
    (∀ c, (t.core c).control = (s₀.core c).control) ∧
    ∀ id, (t.ctx id).phase ≠ .free → (t.ctx id).kbank = (s₀.ctx id).kbank ∧ (t.ctx id).hbank = (s₀.ctx id).hbank

theorem KeepsControl.userLeaves (h : KeepsControl s₀ s) : UserLeaves s₀ s := by
  rintro - hlevel htrapped
  obtain ⟨hcur, hgroups, hhyper, hentry, hcores, hctxs⟩ := h.resolve_left (not_not_intro htrapped)
  have hhere : s.here.control = s₀.here.control := by rw [State.here, State.here, hcur, hctxs]
  exact ⟨(congrArg Prod.fst hhere).trans hlevel, hgroups, hhyper, hentry, hcores, fun id _ =>
    ⟨congrArg (·.2.1) (hctxs id), congrArg (·.2.2) (hctxs id)⟩⟩

theorem UserLeaves.trap {code : BitVec 8} {tval : Word} : UserLeaves s₀ (s.trap code tval) := KeepsControl.userLeaves KeepsControl.trap

theorem UserLeaves.ifElse {c : Prop} {_ : Decidable c} (hs : UserLeaves s₀ s) (ht : UserLeaves s₀ t) : UserLeaves s₀ (if c then s else t) := by
  split
  · exact hs
  · exact ht

/-- An answer to a unit: whichever state it gives. -/
def AnswerKeepsControl (s : State) (o : Outcome) : Prop := ∀ t, o = .next t → UserLeaves s t

theorem AnswerKeepsControl.next (h : UserLeaves s t) : AnswerKeepsControl s (.next t) := by
  rintro _ ⟨⟩
  exact h

/-- A unit by its own effect: where a decode test fails it traps. -/
theorem AnswerKeepsControl.unit_of_effect {f : Form} {k : State → State} (hk : UserLeaves (start s) (k (start s))) : AnswerKeepsControl s (unit f s k) := by
  refine .next ?_
  rw [State.unitOn_eq]
  split
  · exact .trap
  · exact .ifElse .trap (.ifElse .trap hk)

/-- A unit made of operations that keep the control. -/
theorem AnswerKeepsControl.unit {f : Form} {k : State → State} (hk : ∀ t, KeepsControl (start s) t → KeepsControl (start s) (k t)) :
    AnswerKeepsControl s (unit f s k) := .unit_of_effect (hk _ .refl).userLeaves

/-- A unit of a higher level traps at user level (02 R60). -/
theorem AnswerKeepsControl.unit_above {f : Form} {k : State → State} (hf : 0 < f.level) : AnswerKeepsControl s (Machine.unit f s k) := by
  refine .next fun hr hlevel => ?_
  have hlow : s.here.level.toNat < f.level := by rwa [hlevel]
  rw [State.unitOn_eq, if_pos hlow]
  split
  · exact UserLeaves.trap hr hlevel
  · exact UserLeaves.ifElse .trap .trap hr hlevel

/-! ### Contexts, cores, tiles (02 R60; 04 R118) -/

theorem KeepsControl.modTile {id : TileId} {f : Tile → Tile} (h : KeepsControl s₀ s) : KeepsControl s₀ (s.modTile id f) := h

theorem KeepsControl.modZone {n : Nat} {f : Zone → Zone} (h : KeepsControl s₀ s) : KeepsControl s₀ (s.modZone n f) := h

theorem KeepsControl.modHome {home : Home} {f : HomeSt → HomeSt} (h : KeepsControl s₀ s) : KeepsControl s₀ (s.modHome home f) := h

theorem KeepsControl.setCells {x : Home} {c : Cells} (h : KeepsControl s₀ s) : KeepsControl s₀ (s.setCells x c) := by
  cases x <;> exact h

theorem KeepsControl.poke {id : TileId} {off : Nat} {bs : List Byte} (h : KeepsControl s₀ s) : KeepsControl s₀ (s.poke id off bs) := h

theorem KeepsControl.modTT {t : TTId} {f : TileTask → TileTask} (h : KeepsControl s₀ s) : KeepsControl s₀ (s.modTT t f) := by
  unfold State.modTT
  split <;> exact h

theorem KeepsControl.modLaunch {l : Nat} {f : Launch → Launch} (h : KeepsControl s₀ s) : KeepsControl s₀ (s.modLaunch l f) := by
  unfold State.modLaunch
  split <;> exact h

theorem KeepsControl.modPart {t : BitVec 8} {f : Machine.Partition → Machine.Partition} (h : KeepsControl s₀ s) : KeepsControl s₀ (s.modPart t f) := by
  unfold State.modPart
  split <;> exact h

theorem KeepsControl.modIface {n : Nat} {f : Iface → Iface} (h : KeepsControl s₀ s) : KeepsControl s₀ (s.modIface n f) := h

theorem KeepsControl.finish {len : Nat} (h : KeepsControl s₀ s) : KeepsControl s₀ (s.finish len) := .modCtx h fun _ => Ctx.control_complete _ _ _

theorem KeepsControl.finishReg {len : Nat} {d : BitVec 5} {v : Word} (h : KeepsControl s₀ s) : KeepsControl s₀ (s.finishReg len d v) :=
  .modCtx h fun _ => by simp

theorem KeepsControl.disband {id : CtxId} (h : KeepsControl s₀ s) : KeepsControl s₀ (s.disband id) := by
  unfold State.disband
  split
  · exact h
  · exact .modCtx (.foldl h fun _ _ h1 => .modCore h1 fun _ => rfl) fun _ => rfl

theorem KeepsControl.takeSeq {k : Option Key} (h : KeepsControl s₀ s) (ht : s.takeSeq = some (k, t)) : KeepsControl s₀ t := by
  unfold State.takeSeq at ht
  split at ht
  · cases ht
    exact h
  · dsimp only at ht
    split at ht
    · cases ht
      exact h
    · split at ht
      · cases ht
      · cases ht
        exact .modTT (.modCtx h fun _ => rfl)

theorem KeepsControl.takeSpawn {tt : TTId} {r : Role} {k : BitVec 16} (h : KeepsControl s₀ s) (ht : s.takeSpawn tt r = some (k, t)) : KeepsControl s₀ t := by
  unfold State.takeSpawn at ht
  split at ht
  · cases ht
  · dsimp only at ht
    split at ht
    · cases ht
    · cases ht
      exact .modTT h

/-! ### Sending (06, 15, 16, 17) -/

theorem KeepsControl.routed {src : Option CoreId} {dst : Option TileId} (h : KeepsControl s₀ s) : KeepsControl s₀ (s.routed src dst).2 := by
  unfold State.routed
  split
  · split
    · exact h
    · dsimp only
      split
      · exact h
      · exact .modTile h
  · exact h
  · exact h

theorem KeepsControl.sendSt {src : Option CoreId} {dst : Option TileId} {p : Packet} {st : FlightSt} (h : KeepsControl s₀ s) :
    KeepsControl s₀ (s.sendSt src dst p st) := .routed h

theorem KeepsControl.send {src : Option CoreId} {dst : Option TileId} {p : Packet} (h : KeepsControl s₀ s) : KeepsControl s₀ (s.send src dst p) := .sendSt h

theorem KeepsControl.incrEntry {c : CoreId} {e : Nat} (h : KeepsControl s₀ s) : KeepsControl s₀ (s.incrEntry c e) := .modCore h fun _ => rfl

theorem KeepsControl.incrLater {c : CoreId} {e : Nat} (h : KeepsControl s₀ s) : KeepsControl s₀ (s.incrLater c e) := h

theorem KeepsControl.sendIncr {src : Option CoreId} {c : CoreId} {e : Nat} (h : KeepsControl s₀ s) : KeepsControl s₀ (s.sendIncr src c e) := .sendSt h

theorem KeepsControl.modChan {c : CoreId} {n : Nat} {f : Chan → Chan} (h : KeepsControl s₀ s) : KeepsControl s₀ (s.modChan c n f) := .modCore h fun _ => rfl

theorem KeepsControl.pushEdge {n : Nat} {f : PortFrame} (h : KeepsControl s₀ s) : KeepsControl s₀ (s.pushEdge n f) := by
  unfold State.pushEdge
  split
  · exact h
  · exact .ifElse h h

theorem KeepsControl.releaseMsg {c : CoreId} {ch id : Nat} (h : KeepsControl s₀ s) : KeepsControl s₀ (s.releaseMsg c ch id) := by
  unfold State.releaseMsg
  dsimp only
  split
  · exact h
  · split
    · exact .pushEdge (.modChan h)
    · exact .send (.modChan h)
    · exact .modChan h

theorem KeepsControl.releaseAll {c : CoreId} {uid : Nat} (h : KeepsControl s₀ s) : KeepsControl s₀ (s.releaseAll c uid) :=
  .foldl h fun _ _ h1 => .foldl h1 fun _ _ h2 => .releaseMsg h2

theorem KeepsControl.newTT {t : TTId} {x : TileTask} (h : KeepsControl s₀ s) : KeepsControl s₀ (s.newTT t x) := h

/-! ### Float flags (03 R99) -/

theorem KeepsControl.setFlags {f : Flags} (h : KeepsControl s₀ s) : KeepsControl s₀ (s.setFlags f) := .modCtx h fun _ => rfl

/-! ### Homes: acts, effects, waits (07 R209 to R226; 11 R328 to R334) -/

theorem KeepsControl.writeCommands {tag : BitVec 8} {o : Nat} {bs : List Byte} (h : KeepsControl s₀ s) : KeepsControl s₀ (s.writeCommands tag o bs) :=
  .modPart h

theorem KeepsControl.modKept {id : CtxId} {uid : Nat} {f : Ctx → Ctx} (h : KeepsControl s₀ s) : KeepsControl s₀ (s.modKept id uid f) := by
  unfold State.modKept
  split
  · exact h
  · exact .ifElse (.modCore h fun _ => rfl) h

theorem KeepsControl.modRunning {core : CoreId} {uid : Nat} {f : Ctx → Ctx} (h : KeepsControl s₀ s) (hf : ∀ c, (f c).control = c.control) :
    KeepsControl s₀ (s.modRunning core uid f) := by
  unfold State.modRunning
  split
  · exact .modKept (.modCtx h hf)
  · exact .modCore h fun _ => rfl

theorem KeepsControl.giveFlags {b : Issuer} {f : Flags} (h : KeepsControl s₀ s) : KeepsControl s₀ (s.giveFlags b f) := by
  unfold State.giveFlags
  split
  · exact h
  · split
    · exact .modRunning h fun _ => rfl
    · split
      · exact h
      · exact .modTT h

theorem KeepsControl.pend {core : CoreId} {uid : Nat} {code : BitVec 8} {tval : Word} (h : KeepsControl s₀ s) : KeepsControl s₀ (s.pend core uid code tval) :=
  .modRunning h fun _ => rfl

theorem KeepsControl.countDenial {b : Issuer} {addr : Word} (h : KeepsControl s₀ s) : KeepsControl s₀ (s.countDenial b addr) := by
  unfold State.countDenial
  split
  · exact h
  · exact .modTT h

theorem KeepsControl.wakeHome {home : Home} {off n : Nat} (h : KeepsControl s₀ s) : KeepsControl s₀ (s.wakeHome home off n) :=
  .foldl (.modHome h) fun _ _ h1 => .sendIncr h1

theorem KeepsControl.runCells {home : Home} {e : Effect} {a : Act} (h : KeepsControl s₀ s) : KeepsControl s₀ (s.runCells home e a).1 :=
  .giveFlags (.setCells h)

theorem KeepsControl.runAct {home : Home} {e : Effect} {a : Act} (h : KeepsControl s₀ s) : KeepsControl s₀ (s.runAct home e a).1 := by
  unfold State.runAct
  split
  · exact .wakeHome h
  · exact .incrLater h
  · split
    · exact .writeCommands h
    · exact .runCells h
  · exact .runCells h

theorem KeepsControl.sendBack {b : Issuer} {p : Packet} (h : KeepsControl s₀ s) : KeepsControl s₀ (s.sendBack b p) := .send h

theorem KeepsControl.serveNew {home : Home} {news : List Effect} (h : KeepsControl s₀ s) : KeepsControl s₀ (s.serveNew home news) := by
  refine .foldl h fun _ _ h1 => ?_
  split
  · exact .sendBack (.modHome h1)
  · exact h1

theorem KeepsControl.serveSyncs {home : Home} (h : KeepsControl s₀ s) : KeepsControl s₀ (s.serveSyncs home) := .serveNew h

theorem KeepsControl.serveApplied {home : Home} {old : Cells} (h : KeepsControl s₀ s) : KeepsControl s₀ (s.serveApplied home old) :=
  .serveSyncs (.foldl h fun _ _ h1 => .ifElse (.sendBack (.modHome h1)) h1)

theorem KeepsControl.answer {e : Effect} {v : Option Word} (h : KeepsControl s₀ s) : KeepsControl s₀ (s.answer e v) := by
  unfold State.answer
  split
  · exact .sendBack h
  · exact h

theorem KeepsControl.acknowledge {e : Effect} (h : KeepsControl s₀ s) : KeepsControl s₀ (s.acknowledge e) := by
  unfold State.acknowledge
  split
  · exact h
  · exact .sendBack h

theorem KeepsControl.runActs {home : Home} {e : Effect} {v : Option Word} (h : KeepsControl s₀ s) (as : List Act) :
    KeepsControl s₀ (as.foldl (fun (r : State × Option Word) a =>
      let x := r.1.runAct home e a
      (x.1, if x.2.isSome then x.2 else r.2)) (s, v)).1 := by
  induction as generalizing s v with
  | nil => exact h
  | cons a as ih => exact ih (.runAct h)

theorem KeepsControl.applyRaw {home : Home} {e : Effect} (h : KeepsControl s₀ s) : KeepsControl s₀ (s.applyRaw home e).1 := by
  refine .serveApplied ?_
  split
  · exact .runActs h _
  · exact .modHome (.runActs h _)

theorem KeepsControl.applyEffect {home : Home} {e : Effect} (h : KeepsControl s₀ s) : KeepsControl s₀ (s.applyEffect home e) := .answer (.applyRaw h)

theorem KeepsControl.drainHome {home : Home} {n : Nat} (h : KeepsControl s₀ s) : KeepsControl s₀ (s.drainHome home n) := by
  induction n generalizing s with
  | zero => exact h
  | succ n ih =>
    unfold State.drainHome
    split
    · exact h
    · dsimp only
      split
      · exact ih (.acknowledge (.answer (.modHome h)))
      · exact ih (.acknowledge (.applyEffect (.modHome h)))

theorem KeepsControl.giveNew {home : Home} {e : Effect} {v : Option Word} (h : KeepsControl s₀ s) (ht : s.giveNew home e = some (t, v)) :
    KeepsControl s₀ t := by
  unfold State.giveNew at ht
  split at ht
  · cases ht
    exact .acknowledge (.applyRaw h)
  · cases ht
  · cases ht
    exact .serveNew (.ifElse (.acknowledge (.modHome h)) (.modHome h))

theorem KeepsControl.giveHome {home : Home} {e : Effect} {v : Option Word} (h : KeepsControl s₀ s) (ht : s.giveHome home e = some (t, v)) :
    KeepsControl s₀ t := by
  have hdrained := h.drainHome (home := home) (n := (s.home home).held.length)
  unfold State.giveHome at ht
  dsimp only at ht
  split at ht
  · split at ht
    · cases ht
      exact .acknowledge hdrained
    · split at ht
      · cases ht
        exact .acknowledge hdrained
      · exact .giveNew hdrained ht
  · exact .giveNew hdrained ht

theorem KeepsControl.waitAt {home : Home} {off : Nat} {expected : Word} {b : Issuer} {entry : Nat} (h : KeepsControl s₀ s) :
    KeepsControl s₀ (s.waitAt home off expected b entry) := by
  unfold State.waitAt
  split
  · exact .sendIncr h
  · dsimp only
    split
    · exact .modHome h
    · exact .ifElse (.modHome h) (.sendIncr (.modHome h))

/-! ### Queues, semaphores, rings (05 R150; 10 R286 to R289; 13 R390 to R392) -/

theorem KeepsControl.modQueue {t : TileId} {q : Nat} {f : Queue → Queue} (h : KeepsControl s₀ s) : KeepsControl s₀ (s.modQueue t q f) := .modTile h

theorem KeepsControl.pushQueue {t : TileId} {q uid : Nat} {es : List (Line × Bool)} (h : KeepsControl s₀ s) : KeepsControl s₀ (s.pushQueue t q uid es) :=
  .modCore (.modQueue h) fun _ => rfl

theorem KeepsControl.popQueue {t : TileId} {q uid n : Nat} (h : KeepsControl s₀ s) : KeepsControl s₀ (s.popQueue t q uid n) := .modQueue h

theorem KeepsControl.wait {w : Wait} (h : KeepsControl s₀ s) : KeepsControl s₀ (s.wait w) := .modCtx h fun _ => rfl

theorem KeepsControl.whenEntries {q n : Nat} {k : State → State} (h : KeepsControl s₀ s) (hk : ∀ s, KeepsControl s₀ s → KeepsControl s₀ (k s)) :
    KeepsControl s₀ (s.whenEntries q n k) := .ifElse (.modCtx h fun _ => rfl) (.ifElse (hk _ h) (.wait h))

theorem KeepsControl.whenRoom {q n : Nat} {k : State → State} (h : KeepsControl s₀ s) (hk : ∀ s, KeepsControl s₀ s → KeepsControl s₀ (k s)) :
    KeepsControl s₀ (s.whenRoom q n k) := .ifElse (.modCtx h fun _ => rfl) (.ifElse (hk _ h) (.wait h))

theorem KeepsControl.changeSem {t : TileId} {n : Nat} {f : Sem → Sem} (h : KeepsControl s₀ s) : KeepsControl s₀ (s.changeSem t n f) :=
  .foldl (.modTile h) fun _ _ h1 => .incrLater h1

theorem KeepsControl.postSem {t : TileId} {n k : Nat} (h : KeepsControl s₀ s) : KeepsControl s₀ (s.postSem t n k) := .changeSem h

theorem KeepsControl.postIf {t : TileId} {n : Option Nat} (h : KeepsControl s₀ s) : KeepsControl s₀ (s.postIf t n) := by
  unfold State.postIf
  split
  · exact h
  · exact .postSem h

theorem KeepsControl.modRing {t : TileId} {n : Nat} {f : Machine.Ring → Machine.Ring} (h : KeepsControl s₀ s) : KeepsControl s₀ (s.modRing t n f) :=
  .modTile h

theorem KeepsControl.ringAdd {t : TileId} {n lines : Nat} (h : KeepsControl s₀ s) : KeepsControl s₀ (s.ringAdd t n lines) :=
  .ifElse (.postIf (.modRing h)) (.modRing h)

theorem KeepsControl.modEntry {c : CoreId} {e : Nat} {f : WEntry → WEntry} (h : KeepsControl s₀ s) : KeepsControl s₀ (s.modEntry c e f) :=
  .modCore h fun _ => rfl

/-! ### Barriers, groups, closes (13 R380 to R389; 16 R445) -/

theorem KeepsControl.askTile {t : TileId} (h : KeepsControl s₀ s) : KeepsControl s₀ (s.askTile t) :=
  .foldl h fun _ _ h1 => .foldl h1 fun _ _ h2 => .ifElse h2 (.modCtx h2 fun _ => rfl)

theorem KeepsControl.closeNow {z : Nat} (h : KeepsControl s₀ s) : KeepsControl s₀ (s.closeNow z) := .foldl (.modZone h) fun _ _ h1 => .askTile h1

theorem KeepsControl.askClose {z : Nat} (h : KeepsControl s₀ s) : KeepsControl s₀ (s.askClose z) := .ifElse h (.ifElse (.closeNow h) (.modZone h))

theorem KeepsControl.modBar {c : CoreId} {n : Nat} {f : Barrier → Barrier} (h : KeepsControl s₀ s) : KeepsControl s₀ (s.modBar c n f) := .modCore h fun _ => rfl

theorem KeepsControl.settleBar {c : CoreId} {n k : Nat} (h : KeepsControl s₀ s) : KeepsControl s₀ (s.settleBar c n k) := by
  induction k generalizing s with
  | zero => exact h
  | succ k ih =>
    have hdone {s : State} (hs : KeepsControl s₀ s) : KeepsControl s₀ (match s.zoneOf c.tile with
        | none => s
        | some z => s.askClose z) := by
      split
      · exact hs
      · exact .askClose hs
    exact .ifElse (ih (hdone (.modBar (.foldl (.modCore h fun _ => rfl) fun _ _ hs => .sendIncr hs)))) h

theorem KeepsControl.settle {c : CoreId} {n : Nat} (h : KeepsControl s₀ s) : KeepsControl s₀ (s.settle c n) := .settleBar h

/-! ### Operand forms (02 R44 to R46, R58) -/

theorem AnswerKeepsControl.regReg {f : Form} {d a b : BitVec 5} {g : Word → Word → Word} : AnswerKeepsControl s (regReg f d a b g s) :=
  .unit fun _ h1 => .finishReg h1

theorem AnswerKeepsControl.regOne {f : Form} {d a : BitVec 5} {g : Word → Word} : AnswerKeepsControl s (regOne f d a g s) :=
  .unit fun _ h1 => .finishReg h1

theorem AnswerKeepsControl.regConst {f : Form} {d : BitVec 5} {v : Word} : AnswerKeepsControl s (regConst f d v s) :=
  .unit fun _ h1 => .finishReg h1

theorem AnswerKeepsControl.branch {f : Form} {a b : BitVec 5} {off : Word} {cond : Word → Word → Bool} :
    AnswerKeepsControl s (branch f a b off cond s) :=
  .unit fun _ h1 => .modCtx h1 fun _ => Ctx.control_complete _ _ _

/-! ### Reaching memory (07 R216 to R222) -/

theorem KeepsControl.withPlace {r : Except TrapOf Where} {k : Where → State} (hk : ∀ x, KeepsControl s₀ (k x)) :
    KeepsControl s₀ (s.withPlace r k) := by
  unfold State.withPlace
  split
  · exact .trap
  · exact hk _

theorem KeepsControl.retry (h : KeepsControl s₀ s) : KeepsControl s₀ s.retry := .modCtx h fun _ => rfl

theorem KeepsControl.setTsr {t : TileId} {n : Nat} {r : Option (List Word)} (h : KeepsControl s₀ s) : KeepsControl s₀ (s.setTsr t n r) :=
  .modTile h

theorem KeepsControl.post {home : Home} {e : Effect} {st : FlightSt} (h : KeepsControl s₀ s) : KeepsControl s₀ (s.post home e st) := .sendSt h

theorem KeepsControl.finishCont {step : Nat} {cont : Machine.Cont} {bs : List Byte} (h : KeepsControl s₀ s) : KeepsControl s₀ (s.finishCont step cont bs) := by
  unfold State.finishCont
  split
  · exact .finishReg h
  · exact .finishReg h
  · exact .finish h
  · exact .finish (.popQueue h)
  · refine .finish ?_
    split
    · exact .foldl h fun _ _ h1 => .post h1
    · exact .popQueue (.foldl h fun _ _ h1 => .post h1)
  · exact .finish (.pushQueue h)
  · exact .finish (.pushQueue h)
  · exact .ifElse (.finish (.ringAdd (.poke h))) .trap
  · dsimp only
    split
    · exact .trap
    · exact .finishReg (.setTsr h)
  · dsimp only
    split
    · exact .seqTrap
    next hseq => exact .finish (.modEntry (.takeSeq h hseq))
  · exact .finishReg h
  · exact .finish (.settle (.modBar h))
  · exact .finishReg (.modCore h fun _ => rfl)
  · exact .finishReg (.modCore h fun _ => rfl)

theorem KeepsControl.sendWalk {a : Access} (h : KeepsControl s₀ s) : KeepsControl s₀ (s.sendWalk a) := .send h

theorem KeepsControl.sendRead {b : Issuer} {w : Where} {id : Nat} {mode : ReadMode} {device : Bool} {p : Piece} (h : KeepsControl s₀ s) :
    KeepsControl s₀ (s.sendRead b w id mode device p) := by
  unfold State.sendRead
  split
  · exact h
  · exact .send h
  · exact .sendWalk h

theorem KeepsControl.readUnit {w : Where} {len step : Nat} {device : Bool} {cont : Machine.Cont} (h : KeepsControl s₀ s) :
    KeepsControl s₀ (s.readUnit w len step device cont) := by
  unfold State.readUnit
  dsimp only
  split
  · exact .trap
  · exact .ifElse .xpart (.ifElse (.retry h) (.ifElse (.finishCont h) (.foldl (.modCtx h fun _ => rfl) fun _ _ h1 => .sendRead h1)))

theorem KeepsControl.postReply {home : Home} {e : Effect} (h : KeepsControl s₀ s) : KeepsControl s₀ (s.postReply home e) := .send h

theorem KeepsControl.keyFor {ps : List Piece} {k : Option Key} (h : KeepsControl s₀ s) (ht : s.keyFor ps = some (k, t)) : KeepsControl s₀ t := by
  unfold State.keyFor at ht
  split at ht
  · cases ht
  next hseq =>
    split at ht
    · cases ht
      exact h
    · cases ht
      exact .takeSeq h hseq

theorem KeepsControl.writePieces {key : Option Key} {w : Where} {acts : Nat → Nat → Nat → List Act} {ps : List Piece} (h : KeepsControl s₀ s)
    (ht : s.writePieces key w acts ps = some t) : KeepsControl s₀ t := by
  induction ps generalizing s with
  | nil =>
    cases ht
    exact h
  | cons p ps ih =>
    cases p with
    | own =>
      unfold State.writePieces at ht
      split at ht
      · cases ht
      next hgive =>
        exact ih (.giveHome h hgive) ht
    | tile => exact ih (.post h) ht
    | xlat => exact ih h ht

theorem KeepsControl.walkPieces {kind : AccessKind} {device : Bool} {step : Nat} {cont : Machine.Cont} {acts : Nat → Nat → Nat → List Act} {ps : List Piece}
    (h : KeepsControl s₀ s) : KeepsControl s₀ (s.walkPieces kind device step cont acts ps) := by
  refine .foldl (.modCtx h fun _ => rfl) fun _ _ h1 => ?_
  split
  · exact .sendWalk h1
  · exact h1

theorem KeepsControl.writeUnit {w : Where} {len step : Nat} {kind : AccessKind} {device : Bool} {cont : Machine.Cont} {acts : Nat → Nat → Nat → List Act}
    (h : KeepsControl s₀ s) : KeepsControl s₀ (s.writeUnit w len step kind device cont acts) := by
  unfold State.writeUnit
  dsimp only
  split
  · exact .trap
  · refine .ifElse .xpart ?_
    split
    · exact .seqTrap
    next hkey =>
      refine .ifElse (.retry h) (.ifElse (.walkPieces h) ?_)
      split
      · exact .retry h
      next hwrite => exact .finishCont (.writePieces (.keyFor h hkey) hwrite)

theorem KeepsControl.atomicUnit {w : Where} {len step : Nat} {act : Nat → Act} {cont : Machine.Cont} (h : KeepsControl s₀ s) :
    KeepsControl s₀ (s.atomicUnit w len step act cont) := by
  unfold State.atomicUnit
  dsimp only
  split
  · exact .trap
  · refine .ifElse .xpart ?_
    split
    · exact .seqTrap
    next t hkey =>
      have ht : KeepsControl s₀ t := .keyFor h hkey
      have ht' : KeepsControl s₀ t.take.2 := ht
      refine .ifElse (.retry h) ?_
      split
      · split
        · exact .retry h
        next hgive => exact .finishCont (.giveHome ht' hgive)
        next hgive => exact .modCtx (.giveHome ht' hgive) fun _ => rfl
      · exact .postReply (.modCtx ht' fun _ => rfl)
      · exact .sendWalk (.modCtx ht' fun _ => rfl)
      · exact h

/-! ### Ending a task (05 R165) -/

theorem KeepsControl.orFlags {tt : TTId} {f : BitVec 5} (h : KeepsControl s₀ s) : KeepsControl s₀ (s.orFlags tt f) := .modTT h

theorem KeepsControl.giveBack {tt : TTId} {r : Role} {n : Option Nat} (h : KeepsControl s₀ s) : KeepsControl s₀ (s.giveBack tt r n) := by
  unfold State.giveBack
  split
  · exact h
  · exact .modTT h

/-- A state that keeps the control, with the unit's own context freed at user level. -/
theorem UserLeaves.setCtx_free {level : BitVec 2} (h : KeepsControl s₀ s) (hlevel : s₀.cur.core.r ≠ .steward → level = 0) :
    UserLeaves s₀ (s.setCtx s₀.cur { Ctx.init with level := level }) := by
  rintro hr - htrapped
  obtain ⟨hcur, hgroups, hhyper, hentry, hcores, hctxs⟩ := h.resolve_left (not_not_intro htrapped)
  refine ⟨?_, hgroups, hhyper, hentry, hcores, fun id hid => ?_⟩
  · change (State.ctx _ s.cur).level = 0
    rw [hcur, State.ctx_setCtx_self, hlevel hr]
  · have hne : id ≠ s₀.cur := by
      rintro rfl
      exact hid (by rw [State.ctx_setCtx_self]; rfl)
    rw [State.ctx_setCtx_ne _ _ hne]
    exact ⟨congrArg (·.2.1) (hctxs id), congrArg (·.2.2) (hctxs id)⟩

/-- The unit's task ends and its context is free. -/
theorem UserLeaves.endHere (h : KeepsControl s₀ s) (hcur : s.cur = s₀.cur) : UserLeaves s₀ s.endHere := by
  unfold State.endHere State.endIn
  rw [hcur]
  dsimp only
  refine .setCtx_free ?_ fun hr => if_neg hr
  split
  · exact .disband h
  · split
    · exact .releaseAll (.modTile (.modCore (.disband h) fun _ => rfl))
    · exact .giveBack (.ifElse (.orFlags (.releaseAll (.modTile (.modCore (.disband h) fun _ => rfl))))
        (.releaseAll (.modTile (.modCore (.disband h) fun _ => rfl))))

/-! ### Tasks, waits on an address, tickets (05 R164 to R175) -/

theorem KeepsControl.whenPermitted {k : State → State} (h : KeepsControl s₀ s) (hk : ∀ s, KeepsControl s₀ s → KeepsControl s₀ (k s)) :
    KeepsControl s₀ (s.whenPermitted k) := .ifElse (hk _ h) .xpart

theorem KeepsControl.whenSeq {k : Option Key → State → State} (h : KeepsControl s₀ s) (hk : ∀ x s, KeepsControl s₀ s → KeepsControl s₀ (k x s)) :
    KeepsControl s₀ (s.whenSeq k) := by
  unfold State.whenSeq
  split
  · exact .seqTrap
  next hseq => exact hk _ _ (.takeSeq h hseq)

theorem AnswerKeepsControl.execArm {b a : BitVec 5} : AnswerKeepsControl s (execArm b a s) := by
  refine .unit fun s h1 => ?_
  refine .ifElse .trap ?_
  split
  · split
    · exact .trap
    next hspawn =>
      obtain ⟨tt, -, htt⟩ := Option.bind_eq_some_iff.mp hspawn
      exact .ifElse .seqTrap (.whenSeq (.takeSpawn h1 htt) fun _ _ h2 => .finish (.modEntry h2))
  · exact .whenSeq h1 fun _ _ h2 => .finish (.modEntry h2)

theorem KeepsControl.selfDenied {addr : Word} (h : KeepsControl s₀ s) : KeepsControl s₀ (s.selfDenied addr) := .pend (.countDenial h)

theorem KeepsControl.sendWait {p : Piece} {expected : Word} {entry : Nat} {addr : Word} (h : KeepsControl s₀ s) :
    KeepsControl s₀ (s.sendWait p expected entry addr) := by
  unfold State.sendWait
  split
  · dsimp only
    split
    · exact .selfDenied (.incrEntry h)
    · exact .waitAt h
  · exact .send h
  · exact h

theorem AnswerKeepsControl.execWaita {c b a : BitVec 5} : AnswerKeepsControl s (execWaita c b a s) := by
  refine .unit fun _ h1 => ?_
  refine .ifElse .trap (.ifElse .trap (.ifElse .trap (.ifElse .xpart (.ifElse (.retry h1) ?_))))
  split
  · exact .ifElse .seqTrap (.sendWalk (.modCtx h1 fun _ => rfl))
  · exact .whenSeq h1 fun _ _ h2 => .finish (.sendWait (.modEntry h2))

theorem AnswerKeepsControl.execWake {b a : BitVec 5} : AnswerKeepsControl s (execWake b a s) := by
  refine .unit fun _ h1 => .ifElse .trap (.ifElse .trap ?_)
  dsimp only
  split
  · exact .whenSeq h1 fun _ _ h2 => .finish (.selfDenied h2)
  · exact .writeUnit h1

theorem AnswerKeepsControl.execUiret : AnswerKeepsControl s (execUiret s) := by
  unfold Machine.execUiret
  split
  · exact .next .trap
  · exact .unit fun _ h1 => .modCtx h1 fun c => (Ctx.control_jump _ _).trans (Ctx.control_counted c c.level)

theorem KeepsControl.sendSpawn {tt : TTId} {k : BitVec 16} {w arg : Word} {cls : Nat} {roaming : Bool} (h : KeepsControl s₀ s) :
    KeepsControl s₀ (s.sendSpawn tt k w arg cls roaming) := .sendSt (.newTT h)

theorem AnswerKeepsControl.spawnUnit {f : Form} {c : BitVec 6} {a d : BitVec 5} {roaming : Bool} :
    AnswerKeepsControl s (spawnUnit f c a d roaming s) := by
  refine .unit fun _ h1 => ?_
  refine .ifElse .trap ?_
  split
  · exact .trap
  · split
    · exact .trap
    next hspawn =>
      refine .ifElse .xpart ?_
      split
      · exact .seqTrap
      next hseq => exact .finish (.sendSpawn (.takeSeq (.takeSpawn h1 hspawn) hseq))

theorem KeepsControl.endStream {l : Launch} (h : KeepsControl s₀ s) : KeepsControl s₀ (s.endStream l) := .ifElse (.modIface h) h

theorem AnswerKeepsControl.execTktScope {a d : BitVec 5} : AnswerKeepsControl s (execTktScope a d s) := by
  refine .unit fun _ h1 => ?_
  refine .ifElse .trap ?_
  split
  · exact .trap
  · split
    · exact .trap
    · exact .finishReg (.ifElse (.endStream h1) h1)

/-! ### The bulk copy engine (10 R310 to R324) -/

theorem KeepsControl.whenNotice {w : BitVec 16} {k : Notice → State} (hk : ∀ x, KeepsControl s₀ (k x)) :
    KeepsControl s₀ (s.whenNotice w k) := by
  unfold State.whenNotice
  split
  · exact .trap
  · exact hk _

theorem KeepsControl.engineDenial {id : Nat} {b : Issuer} {addr : Word} (h : KeepsControl s₀ s) : KeepsControl s₀ (s.engineDenial id b addr) :=
  .ifElse (.modRunning (.countDenial h) fun _ => rfl) (.pend (.modRunning (.countDenial h) fun _ => rfl))

theorem KeepsControl.engineRead {b : Issuer} {id pos : Nat} {a : Word} {n : Nat} (h : KeepsControl s₀ s) : KeepsControl s₀ (s.engineRead b id pos a n) := by
  unfold State.engineRead
  split
  · exact .send h
  · exact .send h
  · exact .sendWalk h

theorem KeepsControl.modXfer {id : Nat} {f : Xfer → Xfer} (h : KeepsControl s₀ s) : KeepsControl s₀ (s.modXfer id f) := h

theorem KeepsControl.sendWrite {x : Xfer} {g : List Elem} {word part : Nat} {left : List Elem} (h : KeepsControl s₀ s) :
    KeepsControl s₀ (s.sendWrite x g word part left) := by
  unfold State.sendWrite
  dsimp only
  split
  · exact .send h
  · exact .send h
  · exact .sendWalk h

theorem KeepsControl.advance {id n : Nat} (h : KeepsControl s₀ s) : KeepsControl s₀ (s.advance id n) := by
  induction n generalizing s with
  | zero => exact h
  | succ n ih =>
    unfold State.advance
    split
    · exact h
    · refine .ifElse h ?_
      split
      · exact h
      · split
        · exact .ifElse h (ih (.modXfer h))
        · exact .ifElse (ih (.engineDenial (.modXfer h))) (.ifElse h (ih (.sendWrite (.modXfer h))))

theorem KeepsControl.advanceAll (h : KeepsControl s₀ s) : KeepsControl s₀ s.advanceAll := .foldl h fun _ _ h1 => .advance h1

theorem KeepsControl.modElem {id num : Nat} {f : Elem → Elem} (h : KeepsControl s₀ s) : KeepsControl s₀ (s.modElem id num f) := .modXfer h

theorem KeepsControl.readGroup {b : Issuer} {id w : Nat} {g : List (Elem × Word)} (h : KeepsControl s₀ s) : KeepsControl s₀ (s.readGroup b id w g) :=
  .foldl (.foldl h fun _ _ h1 => .modElem h1) fun _ _ h1 => .engineRead h1

theorem KeepsControl.startReads {b : Issuer} {id w : Nat} {es : List (Elem × Option Word)} (h : KeepsControl s₀ s) : KeepsControl s₀ (s.startReads b id w es) :=
  .foldl (.foldl h fun _ _ h1 => .engineDenial (.modElem h1)) fun _ _ h1 => .readGroup h1

theorem KeepsControl.startXfer {g : Shape} {ring : Option Nat} {n : Notice} {step : Nat} (h : KeepsControl s₀ s) :
    KeepsControl s₀ (s.startXfer g ring n step) := by
  unfold State.startXfer
  refine .ifElse .xpart (.ifElse (.retry h) (.whenSeq h fun _ _ h1 => .finish (.advanceAll (.startReads ?_))))
  split
  · exact h1
  · exact .modRing h1

theorem KeepsControl.whenHandle {home : Word} {k : Record → State} (hk : ∀ x, KeepsControl s₀ (k x)) :
    KeepsControl s₀ (s.whenHandle home k) := by
  unfold State.whenHandle
  split
  · exact .trap
  · exact hk _

theorem AnswerKeepsControl.transfer {f : Form} {d : BitVec 5} {ring : Option Nat} {rows : Option Bool} :
    AnswerKeepsControl s (transfer f d ring rows s) := by
  refine .unit fun _ h1 => .whenNotice fun _ => .ifElse .breach (.whenHandle fun src => ?_)
  extract_lets count bytes bad2 bad3 go
  have hgo (dst : Option Record) : KeepsControl (start s) (go dst) := by
    refine .ifElse .breach (.ifElse .breach (.ifElse .breach ?_))
    split
    · exact .startXfer h1
    · refine .ifElse (.retry h1) ?_
      split
      · exact .breach
      · exact .startXfer h1
  split
  · exact hgo _
  · exact .whenHandle fun _ => hgo _

/-! ### The matrix array and its rings (10 R291 to R309) -/

theorem KeepsControl.whenArray {ts : List TileId} {k : State} (h : KeepsControl s₀ s) (hk : KeepsControl s₀ k) : KeepsControl s₀ (s.whenArray ts k) :=
  .ifElse (.retry h) hk

theorem KeepsControl.enqueue {t : TileId} {op : ArrayOp} (h : KeepsControl s₀ s) : KeepsControl s₀ (s.enqueue t op) := .modTile h

theorem AnswerKeepsControl.matrixUnit {f : Form} {mode ty shape rb ra acc : Nat} {joint : Bool} :
    AnswerKeepsControl s (matrixUnit f mode ty shape rb ra acc joint s) := by
  refine .unit fun _ h1 => .whenArray h1 ?_
  split
  · exact .trap
  · split
    · exact .trap
    · exact .finish (.foldl (.modRing (.modRing h1)) fun _ _ h2 => .enqueue h2)

theorem AnswerKeepsControl.drainUnit {f : Form} {z ty : Nat} {a : BitVec 5} {acc : Nat} {add : Bool} :
    AnswerKeepsControl s (drainUnit f z ty a acc add s) := by
  refine .unit fun _ h1 => .ifElse .trap (.whenNotice fun _ => .whenHandle fun _ => .whenArray h1 (.ifElse .xpart (.ifElse (.retry h1) ?_)))
  exact .whenSeq h1 fun _ _ h2 => .finish (.foldl h2 fun _ _ h3 => .enqueue h3)

theorem KeepsControl.whenRing {filler n lines : Nat} {k : State} (hk : KeepsControl s₀ k) :
    KeepsControl s₀ (s.whenRing filler n lines k) := by
  unfold State.whenRing
  dsimp only
  split
  · exact .trap
  · split
    · exact .trap
    · exact hk

/-! ### Vector arithmetic (08 R241 to R255) -/

theorem KeepsControl.setVreg {j : Nat} {r : BitVec 5} {x : Line} (h : KeepsControl s₀ s) : KeepsControl s₀ (s.setVreg j r x) :=
  .ifElse (.modCtx h fun _ => rfl) (.modCore h fun _ => rfl)

theorem KeepsControl.setKreg {j n x : Nat} (h : KeepsControl s₀ s) : KeepsControl s₀ (s.setKreg j n x) :=
  .ifElse h (.ifElse (.modCtx h fun _ => rfl) (.modCore h fun _ => rfl))

theorem KeepsControl.eachMember {g : Nat → State → State} (h : KeepsControl s₀ s) (hg : ∀ j s, KeepsControl s₀ s → KeepsControl s₀ (g j s)) :
    KeepsControl s₀ (s.eachMember g) := .foldl h fun s j => hg j s

theorem AnswerKeepsControl.lanewise {f : Form} {w : Nat} {k : BitVec 3} {b a d : BitVec 5} {g : State → Nat → Line → Line → Line → Nat → Nat × Flags} :
    AnswerKeepsControl s (lanewise f w k b a d g s) :=
  .unit fun _ h1 => .finish (.eachMember h1 fun _ _ h2 => .setFlags (.setVreg h2))

theorem AnswerKeepsControl.floatLanes {f : Form} {t : Fmt} {k : BitVec 3} {b a d : BitVec 5} {m : Option (BitVec 32)} {g : Val → Val → Val → Exact} :
    AnswerKeepsControl s (floatLanes f t k b a d m g s) := by
  unfold Machine.floatLanes
  exact .lanewise

theorem AnswerKeepsControl.plainLanes {f : Form} {t : Fmt} {k : BitVec 3} {b a d : BitVec 5} {m : Option (BitVec 32)} {g : Val → Val → Nat} :
    AnswerKeepsControl s (plainLanes f t k b a d m g s) := by
  unfold Machine.plainLanes
  exact .lanewise

theorem AnswerKeepsControl.selLanes {f : Form} {w : Nat} {k : BitVec 3} {b a d : BitVec 5} : AnswerKeepsControl s (selLanes f w k b a d s) :=
  .lanewise

theorem AnswerKeepsControl.dotFloat {f : Form} {t : Fmt} {k : BitVec 3} {b a d : BitVec 5} {m : Option (BitVec 32)} :
    AnswerKeepsControl s (dotFloat f t k b a d m s) := by
  unfold Machine.dotFloat
  exact .lanewise

theorem AnswerKeepsControl.reduceLanes {f : Form} {w : Nat} {k : BitVec 3} {a d : BitVec 5} {ident : Nat} {node : Nat → Nat → Nat × Flags} :
    AnswerKeepsControl s (reduceLanes f w k a d ident node s) := .unit fun _ h1 => .finish (.setFlags (.setVreg h1))

theorem AnswerKeepsControl.scanLanes {f : Form} {w : Nat} {k : BitVec 3} {a d : BitVec 5} {ident : Nat} {first : Nat → Nat}
    {node : Nat → Nat → Nat → Nat × Flags} : AnswerKeepsControl s (scanLanes f w k a d ident first node s) :=
  .unit fun _ h1 => .finish (.setFlags (.eachMember h1 fun _ _ h2 => .setVreg h2))

theorem AnswerKeepsControl.reduceFloat {f : Form} {t : Fmt} {k : BitVec 3} {a d : BitVec 5} {m : Option (BitVec 32)} :
    AnswerKeepsControl s (reduceFloat f t k a d m s) := .reduceLanes

theorem AnswerKeepsControl.scanFloat {f : Form} {t : Fmt} {k : BitVec 3} {a d : BitVec 5} {m : Option (BitVec 32)} :
    AnswerKeepsControl s (scanFloat f t k a d m s) := .scanLanes

theorem AnswerKeepsControl.intLanes {f : Form} {n : BitVec 1} {w : Nat} {k : BitVec 3} {b a d : BitVec 5} {m : Option (BitVec 32)} {g : ℤ → ℤ → ℤ} :
    AnswerKeepsControl s (intLanes f n w k b a d m g s) :=
  .lanewise

theorem AnswerKeepsControl.bitLanes {f : Form} {w : Nat} {k : BitVec 3} {b a d : BitVec 5} {g : Nat → Nat → Nat} :
    AnswerKeepsControl s (bitLanes f w k b a d g s) := .lanewise

theorem AnswerKeepsControl.dotInt {f : Form} {n : BitVec 1} {w : Nat} {k : BitVec 3} {b a d : BitVec 5} {m : Option (BitVec 32)} :
    AnswerKeepsControl s (dotInt f n w k b a d m s) := .lanewise

/-! ### Lane movement and gangs (08 R256 to R270) -/

theorem AnswerKeepsControl.moveLanes {f : Form} {w : BitVec 2} {k : BitVec 3} {b a d : BitVec 5} {g : State → Line → Line → Nat → Nat} :
    AnswerKeepsControl s (moveLanes f w k b a d g s) := .lanewise

theorem KeepsControl.whenHeads {q : Nat} {bad : Bool} {k : State} (h : KeepsControl s₀ s) (hk : KeepsControl s₀ k) : KeepsControl s₀ (s.whenHeads q bad k) := by
  refine .ifElse (.wait h) (.ifElse .trap ?_)
  split
  · exact .trap
  · exact hk

theorem KeepsControl.popHeads {q : Nat} (h : KeepsControl s₀ s) : KeepsControl s₀ (s.popHeads q) := .foldl h fun _ _ h1 => .popQueue h1

theorem KeepsControl.formGang {g : Nat} (h : KeepsControl s₀ s) : KeepsControl s₀ (s.formGang g) :=
  .modCtx (.foldl h fun _ _ h1 => .modCore h1 fun _ => rfl) fun _ => rfl

theorem AnswerKeepsControl.execKpop {w : BitVec 2} {b a d : BitVec 5} : AnswerKeepsControl s (execKpop w b a d s) := by
  refine .unit fun s h1 => .ifElse .trap (.whenHeads h1 (.finish ?_))
  have hset {g : Nat → State → Nat} : KeepsControl (start _) (s.eachMember fun m s => s.setKreg m d.toNat (g m s)) := .eachMember h1 fun _ _ h2 => .setKreg h2
  exact .ifElse hset (.popHeads hset)

/-! ### The format core (09 R271 to R285) -/

theorem KeepsControl.whenBoth {q n p m : Nat} {k : List QEntry → State} (h : KeepsControl s₀ s) (hk : ∀ x, KeepsControl s₀ (k x)) :
    KeepsControl s₀ (s.whenBoth q n p m k) := .ifElse (hk _) (.wait h)

theorem KeepsControl.whenStream {q n p m : Nat} {pushes : Bool} {k : List QEntry → State} (h : KeepsControl s₀ s) (hk : ∀ x, KeepsControl s₀ (k x)) :
    KeepsControl s₀ (s.whenStream q n p m pushes k) := by
  unfold State.whenStream
  split
  · exact .trap
  · exact .whenBoth h fun _ => .ifElse .trap (hk _)

theorem KeepsControl.convert {q n p : Nat} {es : List (Line × Bool)} (h : KeepsControl s₀ s) : KeepsControl s₀ (s.convert q n p es) := .pushQueue (.popQueue h)

theorem AnswerKeepsControl.execFqmv {n a d : BitVec 5} {m : Option (BitVec 32)} : AnswerKeepsControl s (execFqmv n a d m s) := by
  refine .unit fun _ h1 => ?_
  split
  · exact .trap
  · exact .whenBoth h1 fun _ => .finish (.convert h1)

theorem AnswerKeepsControl.execUnpackCe8 {t : BitVec 4} {b a d : BitVec 5} : AnswerKeepsControl s (execUnpackCe8 t b a d s) := by
  refine .unit fun _ h1 => ?_
  dsimp only
  split
  · exact .trap
  · refine .ifElse .trap ?_
    split
    · exact .trap
    · refine .whenEntries h1 fun _ h2 => .ifElse .trap (.whenBoth h2 fun _ => .ifElse .trap ?_)
      exact .finish (.setFlags (.modQueue (.convert h2)))

/-! ### Messages, queues and channels (06 R176 to R208) -/

theorem KeepsControl.sendMessage {dst : CoreId} {away : Bool} {m : Machine.Message} (h : KeepsControl s₀ s) : KeepsControl s₀ (s.sendMessage dst away m) :=
  .sendSt h

theorem KeepsControl.whenPad {off : Word} {n : Nat} {k : List Word → State} (h : KeepsControl s₀ s) (hk : ∀ x, KeepsControl s₀ (k x)) :
    KeepsControl s₀ (s.whenPad off n k) := by
  refine .ifElse (hk _) (.ifElse .trap ?_)
  split
  · exact .trap
  · exact .ifElse (.retry h) (hk _)

theorem KeepsControl.useCredits {ch : Nat} (h : KeepsControl s₀ s) : KeepsControl s₀ (s.useCredits ch) := .modCore h fun _ => rfl

theorem KeepsControl.sendBound {q : Nat} {words : List Word} {step : Nat} (h : KeepsControl s₀ s) : KeepsControl s₀ (s.sendBound q words step) :=
  .ifElse .trap (.whenPermitted h fun _ h1 => .whenSeq h1 fun _ _ h2 => .finish (.sendMessage (.useCredits (.modChan h2))))

theorem KeepsControl.whenSendEnd {q : Nat} {k : State} (hk : KeepsControl s₀ k) : KeepsControl s₀ (s.whenSendEnd q k) := .ifElse hk .trap

theorem KeepsControl.whenTile {d : BitVec 5} {k : Nat → State} (hk : ∀ x, KeepsControl s₀ (k x)) :
    KeepsControl s₀ (s.whenTile d k) := by
  unfold State.whenTile
  split
  · exact .trap
  · exact hk _

theorem KeepsControl.sendDirect {dst : CoreId} {q : Nat} {words : List Word} {reply : Bool} {step : Nat} (h : KeepsControl s₀ s) :
    KeepsControl s₀ (s.sendDirect dst q words reply step) := .whenPermitted h fun _ h1 => .whenSeq h1 fun _ _ h2 => .finish (.sendMessage h2)

theorem KeepsControl.sendwUnit {r : BitVec 2} {d : BitVec 5} {len step : Nat} {payload : (List Word → State) → State} (h : KeepsControl s₀ s) (hk : ∀ k,
    (∀ ws, KeepsControl s₀ (k ws)) → KeepsControl s₀ (payload k)) : KeepsControl s₀ (s.sendwUnit r d len step payload) :=
  .ifElse .trap (.ifElse .trap (.ifElse .trap (hk _ fun _ => .whenPermitted h fun _ h1 => .ifElse (.retry h1) (.whenSeq h1 fun _ _ h2 => .finish (.post h2)))))

theorem AnswerKeepsControl.execSendwR {r : BitVec 2} {n d : BitVec 5} : AnswerKeepsControl s (execSendwR r n d s) :=
  .unit fun _ h1 => .sendwUnit h1 fun _ hws => hws _

theorem AnswerKeepsControl.execSendwM {r : BitVec 2} {n d : BitVec 5} : AnswerKeepsControl s (execSendwM r n d s) :=
  .unit fun _ h1 => .sendwUnit h1 fun _ hws => .whenPad h1 hws

theorem KeepsControl.whenAnswerable {k : Machine.Task → State} (hk : ∀ x, KeepsControl s₀ (k x)) :
    KeepsControl s₀ (s.whenAnswerable k) := by
  unfold State.whenAnswerable
  split
  · exact .trap
  · exact .ifElse (hk _) .trap

theorem AnswerKeepsControl.execRefuse : AnswerKeepsControl s (execRefuse s) := by
  refine .unit fun _ h1 => .whenAnswerable fun _ => ?_
  split
  · exact .trap
  · split
    · exact .trap
    · exact .whenPermitted h1 fun _ h3 => .finish (.sendSt (.releaseMsg h3))

theorem AnswerKeepsControl.execQpeekQ {i q : BitVec 6} {d : BitVec 5} : AnswerKeepsControl s (execQpeekQ i q d s) := by
  refine .unit fun _ h1 => .whenEntries h1 fun _ h2 => ?_
  split
  · exact .wait h2
  · exact .finishReg h2

theorem KeepsControl.whenHeld {q : Nat} {k : EndMsg → State} (hk : ∀ x, KeepsControl s₀ (k x)) :
    KeepsControl s₀ (s.whenHeld q k) := by
  unfold State.whenHeld
  split
  · exact .trap
  · exact hk _

/-! ### Barrier, group, round and tile units (13 R393 to R400; 15 R440 to R442; 16 R460 to R462) -/

theorem KeepsControl.unbind {n : Nat} (h : KeepsControl s₀ s) : KeepsControl s₀ (s.unbind n) := by
  unfold State.unbind
  split
  · exact .send h
  · exact h

theorem KeepsControl.whenUnbound {n : Nat} {k : State → State} (h : KeepsControl s₀ s) (hk : ∀ s, KeepsControl s₀ s → KeepsControl s₀ (k s)) :
    KeepsControl s₀ (s.whenUnbound n k) := by
  unfold State.whenUnbound
  split
  · exact .whenPermitted h hk
  · exact hk _ h

theorem AnswerKeepsControl.execBarInit {n : BitVec 7} {a : BitVec 5} : AnswerKeepsControl s (execBarInit n a s) := by
  refine .unit fun _ h1 => .ifElse .trap (.ifElse (.retry h1) (.ifElse .trap (.ifElse ?_ ?_)))
  · exact .whenPermitted h1 fun _ h2 => .send (.modCtx (.modBar (.unbind h2)) fun _ => rfl)
  · exact .whenUnbound h1 fun _ h2 => .finish (.settle (.modBar (.unbind h2)))

theorem KeepsControl.whenOwner {r : BitVec 2} {a : BitVec 5} {k : CoreId → State} (hk : ∀ x, KeepsControl s₀ (k x)) :
    KeepsControl s₀ (s.whenOwner r a k) := by
  unfold State.whenOwner
  split
  · exact .trap
  · exact hk _

theorem KeepsControl.await {step : Nat} {c : Machine.Cont} {k : Nat → State → State} (h : KeepsControl s₀ s)
    (hk : ∀ x s, KeepsControl s₀ s → KeepsControl s₀ (k x s)) : KeepsControl s₀ (s.await step c k) :=
  hk _ _ (.modCtx h fun _ => rfl)

theorem KeepsControl.groupUnit {a : BitVec 5} {k : Nat → State} (hk : ∀ x, KeepsControl s₀ (k x)) :
    KeepsControl s₀ (s.groupUnit a k) := .ifElse .trap (hk _)

theorem KeepsControl.askGroup {g op index step : Nat} {c : Machine.Cont} (h : KeepsControl s₀ s) : KeepsControl s₀ (s.askGroup g op index step c) :=
  .whenPermitted h fun _ h1 => .await h1 fun _ _ h2 => .send h2

theorem AnswerKeepsControl.execGrpLeave {a d : BitVec 5} : AnswerKeepsControl s (execGrpLeave a d s) := by
  refine .unit fun _ h1 => .groupUnit fun _ => ?_
  split
  · exact .trap
  · exact .ifElse (.retry h1) (.askGroup h1)

theorem AnswerKeepsControl.execRndClose : AnswerKeepsControl s (execRndClose s) := by
  refine .unit fun _ h1 => ?_
  split
  · exact .finish h1
  · exact .finish (.askClose h1)

/-! ### Loads and stores (07 R213 to R240) -/

theorem AnswerKeepsControl.load {f : Form} {g : BitVec 4} {o : BitVec 7} {a d : BitVec 5} {size : Nat} {sext : Bool} :
    AnswerKeepsControl s (load f g o a d size sext s) := .unit fun _ h1 => .withPlace fun _ => .readUnit h1

theorem AnswerKeepsControl.store {f : Form} {g : BitVec 4} {o : BitVec 7} {a d : BitVec 5} {size : Nat} :
    AnswerKeepsControl s (store f g o a d size s) := .unit fun _ h1 => .withPlace fun _ => .writeUnit h1

theorem KeepsControl.firstFaultUnit {w : Where} {q n inLimit step : Nat} (h : KeepsControl s₀ s) : KeepsControl s₀ (s.firstFaultUnit w q n inLimit step) :=
  .ifElse .xpart (.ifElse (.retry h) (.ifElse (.finishCont h) (.foldl (.modCtx h fun _ => rfl) fun _ _ h1 => .sendRead h1)))

theorem KeepsControl.scratchpad {w : Where} {k : List Piece → State} (hk : ∀ x, KeepsControl s₀ (k x)) :
    KeepsControl s₀ (s.scratchpad w k) := .ifElse .trap (hk _)

theorem AnswerKeepsControl.execLdsync {g : BitVec 4} {o : BitVec 7} {a d : BitVec 5} : AnswerKeepsControl s (execLdsync g o a d s) := by
  refine .unit fun _ h1 => .withPlace fun _ => .scratchpad fun _ => ?_
  split
  · exact .trap
  · refine .ifElse .xpart (.ifElse (.retry h1) ?_)
    dsimp only
    split
    · exact .ifElse (.finishCont h1) (.modHome (.modCtx h1 fun _ => rfl))
    · exact .sendRead (.modCtx h1 fun _ => rfl)
    · exact h1

/-! ### Fences and releases (11 R336 to R348) -/

theorem KeepsControl.afterFlush {step : Nat} {r : Released} (h : KeepsControl s₀ s) : KeepsControl s₀ (s.afterFlush step r) := by
  unfold State.afterFlush
  split
  · exact .ifElse (.modCtx h fun _ => rfl) (.finish h)
  · exact .finishReg h
  · exact .withPlace fun _ => .writeUnit h

theorem KeepsControl.afterAcks {set : ScopeSet} {step : Nat} {r : Released} (h : KeepsControl s₀ s) : KeepsControl s₀ (s.afterAcks set step r) := by
  unfold State.afterAcks
  split
  · exact .finishReg h
  · exact .ifElse (.afterFlush h) (.modCtx (.foldl h fun _ _ h1 => .sendBack h1) fun _ => rfl)

theorem KeepsControl.release {set : ScopeSet} {n step : Nat} {r : Released} (h : KeepsControl s₀ s) : KeepsControl s₀ (s.release set n step r) :=
  .ifElse (.afterAcks h) (.modCtx h fun _ => rfl)

theorem AnswerKeepsControl.execStRel {g : BitVec 4} {x : BitVec 2} {o : BitVec 7} {a d : BitVec 5} :
    AnswerKeepsControl s (execStRel g x o a d s) := by
  refine .unit fun _ h1 => .withPlace fun _ => .ifElse .trap ?_
  dsimp only
  split
  · exact .trap
  · refine .ifElse .xpart (.ifElse .seqTrap ?_)
    split
    · exact .sendWalk (.modCtx h1 fun _ => rfl)
    · exact .release h1

/-! ### Atomics (12 R370 to R375) -/

theorem AnswerKeepsControl.atomic {f : Form} {g : BitVec 4} {a : BitVec 5} {size : Nat} {act : State → Nat → Act} {cont : Machine.Cont} :
    AnswerKeepsControl s (atomic f g a size act cont s) := .unit fun _ h1 => .withPlace fun _ => .atomicUnit h1

theorem AnswerKeepsControl.reduction {f : Form} {g : BitVec 4} {a : BitVec 5} {size : Nat} {act : State → Nat → Act} :
    AnswerKeepsControl s (reduction f g a size act s) := .unit fun _ h1 => .withPlace fun _ => .writeUnit h1

theorem AnswerKeepsControl.amo {f : Form} {op : Nat} {g : BitVec 4} {w : BitVec 1} {b a d : BitVec 5} :
    AnswerKeepsControl s (amo f op g w b a d s) := .atomic

theorem AnswerKeepsControl.famo {f : Form} {op : Nat} {g : BitVec 4} {t : BitVec 1} {b a d : BitVec 5} :
    AnswerKeepsControl s (famo f op g t b a d s) := .atomic

theorem AnswerKeepsControl.execBfins {g : BitVec 4} {b a d : BitVec 5} : AnswerKeepsControl s (execBfins g b a d s) := by
  unfold Machine.execBfins
  split
  · exact .reduction
  · exact .atomic

/-! ### Jumps and control words (04 R132 to R138) -/

theorem AnswerKeepsControl.execRep {l : BitVec 14} {a : BitVec 5} : AnswerKeepsControl s (execRep l a s) := by
  refine .unit fun _ h1 => .modCtx h1 fun c => ?_
  dsimp only
  split
  · exact Ctx.control_complete _ _ _
  · exact Ctx.control_complete _ _ _

/-- The control words that user level may write (04 Table 4.4). -/
theorem toNat_mem_of_cwWriteLevel {n : BitVec 12} (h : cwWriteLevel n = 0) : n.toNat ∈ [0x005, 0x010, 0x011, 0x012, 0x013, 0x014, 0x015] := by
  unfold cwWriteLevel at h
  split at h
  · cases h
  · split at h
    next hmem => exact List.contains_iff_mem.mp hmem
    next => cases h

theorem KeepsControl.writeCw {n : BitVec 12} {a : Word} (h : KeepsControl s₀ s) (hn : cwWriteLevel n = 0) : KeepsControl s₀ (s.writeCw n a) := by
  have hmem := toNat_mem_of_cwWriteLevel hn
  simp only [List.mem_cons, List.not_mem_nil, or_false] at hmem
  unfold State.writeCw
  rcases hmem with hn | hn | hn | hn | hn | hn | hn <;> rw [hn] <;> exact .modCtx h fun _ => rfl

/-- A control word of a higher level is not written: the unit traps PRIV. -/
theorem AnswerKeepsControl.execCww {n : BitVec 12} {a : BitVec 5} : AnswerKeepsControl s (execCww n a s) := by
  rcases Nat.eq_zero_or_pos (cwWriteLevel n) with hlevel | hlevel
  · exact .unit fun _ h1 => .finish (.writeCw h1 hlevel)
  · refine .unit_above ?_
    exact hlevel

/-! ### Every unit -/

/-- Each unit, by the operations that it is made of. -/
theorem exec_keepsControl (i : Instr) (hi : i.isEvent = false) : AnswerKeepsControl s (exec i s) := by
  induction i
  case launchSubmit | launchAdmission | startRelease | launchCompletion | consumedCountWrite | activationEnter | taskStart | waitClear | long |
      boundaryOverrun | asyncTrapTake | userInterruptEntry | kernelNotice | tileTaskComplete | tileTaskRetire | frontAdvance | messageInject |
      messageArrival | creditReturn | retryReply | retryResend | counterIncrementArrival | remoteAccessArrival | effectArrival | waitRequestArrival |
      ldsyncCancel | readReply | writeAcknowledgement | writeDenial | xpartNotice | flushReadComplete | transferComplete | ringDeliveryComplete |
      arrayOperationRetire | gjoinOfferReady | apertureWrite | apertureRead | barrierArrival | barrierRegistration | barrierBind | groupChange |
      membershipUpdate | pageWalk | walkComplete | faultCompletion | faultQueueHeadWrite | invalidation | invalidationComplete | fold | foldStreamed |
      unfold | unfoldComplete | parkedArrival | regulatorFailure | uncorrectableError | correctableError | hbmLineError | remapWaveCommit | roundTimer |
      closeDeferralEnd | roundClose | roundMirrored | currentStep | droopAlarm | droopClear | deadlockScan | partitionCreate | partitionDelete | grow |
      shrink | preEmption | commandSubmit | protectionDescriptor | contextSave | loadObject | unloadProgram | unknownCommand | slotTableCommit |
      slotTableTakeEffect | scaleOutFrameReceive | scaleOutAck | scaleOutRetransmit | portDown | portUp | edgeRebind | ptpEventMessage | profileMaskWrite |
      kernelImageWrite | hyperImageWrite | failsClear | registerWrite | reset | firmwareVerify | dieSelfTest | seamTraining | islandMerging | startTest |
      bootStatusWrite | phaseTimeLimit | getVersion | getCapabilities | negotiateAlgorithms | getDigests | getCertificate | challenge | getMeasurements |
      unsupportedRequest | illegal | fetchProt | powerLoss | frameBoundary =>
    exact absurd hi.symm Bool.false_ne_true
  all_goals dsimp only [exec]
  case add | sub | mul | mulh | mulhn | div | divn | rem | remn | min | max | minn | maxn | and | or | xor | andn | shl | shr | sha | rotl | seq | slt |
      sltn | padd | psub | pmin | pmax | pshl | pshr | psha | bfi | compactAdd | compactSub | compactAnd | compactOr | compactMove | compactXor |
      compactSlt | compactSeq | compactMul => exact .regReg
  case vandI32 | vorI32 | vxorI32 | vshlI32 | vshrI32 | vshaI32 | vcmpEqI32 | vcmpNeI32 | vcmpLtI32 | vcmpLeI32 | vandI16 | vorI16 | vxorI16 | vshlI16 |
      vshrI16 | vshaI16 | vcmpEqI16 | vcmpNeI16 | vcmpLtI16 | vcmpLeI16 | vandI8 | vorI8 | vxorI8 | vshlI8 | vshrI8 | vshaI8 | vcmpEqI8 | vcmpNeI8 |
      vcmpLtI8 | vcmpLeI8 => exact .bitLanes
  case vaddF32 | vsubF32 | vmulF32 | vfmaF32 | vfmsF32 | vfnmaF32 | vrcp | vrsqrt | vsqrt | vexp2 | vlog2 | vtanh | vaddF16 | vsubF16 | vmulF16 | vfmaF16 |
      vfmsF16 | vfnmaF16 => exact .floatLanes
  case clz | ctz | popc | addi | andi | ori | xori | shli | shri | shai | bfxS | bfxZ | movh | compactAddi | compactShli | compactShri | compactShai |
      compactAndi => exact .regOne
  case vaddI32 | vsubI32 | vmulI32 | vminI32 | vmaxI32 | vaddI16 | vsubI16 | vmulI16 | vminI16 | vmaxI16 | vaddI8 | vsubI8 | vmulI8 | vminI8 | vmaxI8 =>
    exact .intLanes
  case vminF32 | vmaxF32 | vcmpEqF32 | vcmpNeF32 | vcmpLtF32 | vcmpLeF32 | vminF16 | vmaxF16 | vcmpEqF16 | vcmpNeF16 | vcmpLtF16 | vcmpLeF16 =>
    exact .plainLanes
  case cwr | tid | tktGet | bstat | vmovsToScalar | qcntQ | qcntC | chstat | rndQ | sel | segr => exact .unit fun _ h1 => .finishReg h1
  case amoAdd | amoAnd | amoOr | amoXor | amoMin | amoMax | amoMinn | amoMaxn | amoSwap | amoCas => exact .amo
  case vredmaxF32 | vredmaxF16 | vredaddI32 | vredmaxI32 | vredaddI16 | vredmaxI16 | vredaddI8 | vredmaxI8 => exact .reduceLanes
  case beq | bne | blt | bge | bltn | bgen | compactBeq | compactBne => exact .branch
  case ldBZ | ldBS | ldHZ | ldHS | ldWZ | ldWS | ldD | compactLdD => exact .load
  case vperm | vbcastS | vcompress | vexpand | vext | vbcastV | vmov => exact .moveLanes
  case bcopy | bcopyRing | bgather | bgatherRing | bscatter => exact .transfer
  case vselF32 | vselF16 | vselI32 | vselI16 | vselI8 => exact .selLanes
  case stB | stH | stW | stD | compactStD => exact .store
  case brk | trap | sysc | compactBrk => exact .unit fun _ h1 => .trap
  case nop | compactNop | prf => exact .unit fun _ h1 => .finish h1
  case vscanI32 | vscanI16 | vscanI8 => exact .scanLanes
  case kset | kfirst | kmin => exact .unit fun _ h1 => .finish (.eachMember h1 fun _ _ h2 => .setKreg h2)
  case rep => exact .execRep
  case jmp | jal => exact .unit fun _ h1 => .modCtx h1 fun _ => by simp
  case famoAdd | famoMin | famoMax => exact .famo
  case compactEnd | endTask => exact .unit_of_effect (.endHere .refl rfl)
  case spawn | spawnr => exact .spawnUnit
  case mma | gissue => exact .matrixUnit
  case mdrain | mdrainadd => exact .drainUnit
  case vredaddF32 | vredaddF16 => exact .reduceFloat
  case vscanF32 | vscanF16 => exact .scanFloat
  case vdotDI16 | vdotDI8 => exact .dotInt
  case cvt | mxd => exact .unit fun _ h1 => .whenStream h1 fun _ => .finish (.setFlags (.convert h1))
  case chopen | chclose => exact .unit fun _ h1 => .ifElse .trap (.finish (.modChan (.modLaunch h1)))
  case movi | compactMovi => exact .regConst
  case stfull | stempty => exact .unit fun _ h1 => .withPlace fun _ => .scratchpad fun _ => .writeUnit h1
  case fence | ackw => exact .unit fun _ h1 => .release h1
  case redInteger | redFloat => exact .reduction
  case eret | tktVoid | lmap | foldQ =>
    refine .unit_above ?_
    exact Nat.one_pos
  case cww => exact .execCww
  case arm => exact .execArm
  case disarm => exact .unit fun _ h1 => .ifElse .trap (.finishReg (.modEntry h1))
  case waita => exact .execWaita
  case wake => exact .execWake
  case prio => exact .unit fun _ h1 => .ifElse .trap (.finishReg (.ifElse (.modCore h1 fun _ => rfl) h1))
  case defer => exact .unit fun _ h1 => .ifElse .trap (.finish (.modCtx h1 fun _ => rfl))
  case uiret => exact .execUiret
  case uimask => exact .unit fun _ h1 => .ifElse .trap (.finishReg (.modCtx h1 fun _ => rfl))
  case tktScope => exact .execTktScope
  case mzero => exact .unit fun _ h1 => .whenArray h1 (.finish (.foldl h1 fun _ _ h2 => .enqueue h2))
  case mrow => exact .unit fun _ h1 => .whenArray h1 (.modCtx (.foldl h1 fun _ _ h2 => .enqueue h2) fun _ => rfl)
  case ringcfg => exact .unit fun _ h1 => .ifElse .trap (.ifElse .trap (.ifElse .trap (.finish (.modRing h1))))
  case ringpushM => exact .unit fun _ h1 => .ifElse (.retry h1) (.whenRing (.withPlace fun _ => .readUnit h1))
  case ringpushQ => exact .unit fun _ h1 => .whenRing (.ifElse .trap (.whenEntries h1 fun _ h2 => .ifElse .trap (.finish (.ringAdd (.poke (.popQueue h2))))))
  case tsrw => exact .unit fun _ h1 => .ifElse .trap (.withPlace fun _ => .readUnit h1)
  case tsrinv => exact .unit fun _ h1 => .ifElse .trap (.finish (.setTsr h1))
  case vdotF32 => exact .dotFloat
  case vmovsToVector => exact .unit fun _ h1 => .ifElse (.finish (.setVreg h1)) (.finish h1)
  case vpop => exact .unit fun _ h1 => .whenHeads h1 (.finish (.popHeads (.eachMember h1 fun _ _ h2 => .setVreg h2)))
  case vpush => exact .unit fun _ h1 => .ifElse (.finish (.eachMember h1 fun _ _ h2 => .pushQueue h2)) (.wait h1)
  case kpop => exact .execKpop
  case gang => exact .unit fun _ h1 => .ifElse .trap (.ifElse .trap (.ifElse .trap (.ifElse (.finishReg (.formGang h1)) (.finishReg h1))))
  case gjoin => exact .unit_of_effect (.ifElse .trap (.ifElse .trap (.ifElse .trap (.ifElse .trap (.endHere (.modCore .refl fun _ => rfl) rfl)))))
  case gdisband => exact .unit fun _ h1 => .finish (.disband h1)
  case fqmv => exact .execFqmv
  case unpackCe8 => exact .execUnpackCe8
  case packCe8 => exact .unit fun _ h1 => .whenStream h1 fun _ => .finishReg (.modQueue (.convert h1))
  case mxs => exact .unit fun _ h1 => .whenStream h1 fun _ => .finishReg h1
  case mxq => exact .unit fun _ h1 => .whenStream h1 fun _ => .finishReg (.setFlags (.convert h1))
  case sendR => exact .unit fun _ h1 => .whenSendEnd (.sendBound h1)
  case sendM => exact .unit fun _ h1 => .whenSendEnd (.whenPad h1 fun _ => .sendBound h1)
  case sendiR => exact .unit fun _ h1 => .whenTile fun _ => .sendDirect h1
  case sendiM => exact .unit fun _ h1 => .whenTile fun _ => .whenPad h1 fun _ => .sendDirect h1
  case sendwR => exact .execSendwR
  case sendwM => exact .execSendwM
  case replyR => exact .unit fun _ h1 => .whenAnswerable fun _ => .sendDirect h1
  case replyM => exact .unit fun _ h1 => .whenAnswerable fun _ => .whenPad h1 fun _ => .sendDirect h1
  case refuse => exact .execRefuse
  case qpeekQ => exact .execQpeekQ
  case qpeekC => exact .unit fun _ h1 => .whenHeld fun _ => .finishReg h1
  case qflushQ => exact .unit fun _ h1 => .whenEntries h1 fun _ h2 => .finish (.modQueue (.popQueue h2))
  case qflushC => exact .unit fun _ h1 => .whenHeld fun _ => .finish (.releaseMsg h1)
  case qbind => exact .unit fun _ h1 => .ifElse .trap (.finish (.modChan h1))
  case barInit => exact .execBarInit
  case barArr => exact .unit fun _ h1 => .ifElse .trap (.ifElse .trap (.whenOwner fun _ => .whenPermitted h1 fun _ h3 => .await h3 fun _ _ h4 => .sendSt h4))
  case barWait => exact .unit fun _ h1 => .ifElse .trap (.whenOwner fun _ => .whenPermitted h1 fun _ h3 => .await h3 fun _ _ h4 => .send h4)
  case barExp => exact .unit fun _ h1 => .ifElse .trap (.ifElse (.retry h1) (.ifElse .trap (.finish (.settle (.modBar h1)))))
  case grpJoin => exact .unit fun _ h1 => .groupUnit fun _ => .ifElse .trap (.ifElse (.retry h1) (.askGroup h1))
  case grpLeave => exact .execGrpLeave
  case grpQ => exact .unit fun _ h1 => .groupUnit fun _ => .askGroup h1
  case semInit => exact .unit fun _ h1 => .ifElse .trap (.finish (.changeSem h1))
  case semPost => exact .unit fun _ h1 => .ifElse .trap (.finish (.postSem h1))
  case semArm => exact .unit fun _ h1 => .ifElse .trap (.ifElse .trap (.finish (.changeSem h1)))
  case rndClose => exact .execRndClose
  case jr => exact .unit fun _ h1 => .ifElse .trap (.modCtx h1 fun _ => by simp)
  case ldq => exact .unit fun _ h1 => .withPlace fun _ => .whenRoom h1 fun _ h3 => .readUnit h3
  case stq => exact .unit fun _ h1 => .whenEntries h1 fun _ h2 => .withPlace fun _ => .writeUnit h2
  case ldff => exact .unit fun _ h1 => .ifElse .trap (.ifElse .trap (.ifElse .trap (.whenRoom h1 fun _ h2 => .firstFaultUnit h2)))
  case ldsync => exact .execLdsync
  case gaddr => exact .unit fun _ h1 => .ifElse .trap (.finishReg h1)
  case segw => exact .unit fun _ h1 => .ifElse (.finish (.modCtx h1 fun _ => rfl)) .trap
  case stRel => exact .execStRel
  case ldAcq => exact .unit fun _ h1 => .withPlace fun _ => .ifElse .trap (.readUnit h1)
  case bfins => exact .execBfins
  case bffcs => exact .atomic
  case bfpls => exact .unit fun _ h1 => .ifElse .trap (.withPlace fun _ => .atomicUnit h1)

/-- Settles O60: a unit that does not trap is made of operations that keep what only higher levels write, and ending a task frees its context. -/
theorem userLevelKeepsControl : Obligations.UserLevelKeepsControl := by
  intro i s t hi hr hlevel hexec htrapped
  obtain ⟨hhere, hgroups, hhyper, hentry, hcores, hctxs⟩ := exec_keepsControl i hi t hexec hr hlevel htrapped
  refine ⟨hhere, hgroups, hhyper, hentry, fun c => ?_, fun id hid => ?_⟩
  · simpa only [Core.control, Prod.mk.injEq] using hcores c
  · obtain ⟨hk, hh⟩ := hctxs id hid
    simp only [hk, hh, and_self]

end Sys2Proof.Claims
end

section
/-! O54, O55, O56: the decoder and the encoder. The decoder reads a word only by its fields (`candidateReading`), and what is read of a row of fields put side by
side is computed from the fields alone (`Reads.append`); so the row that the decoder finds for a form's word is found by computing, with the operands left as they are.
Which length a unit has stands in its low two bits. What the decoder accepts has been encoded again, so its bits alone say that nothing was dropped. -/

namespace Sys2Proof

-- One proof after the other: what one needed of memory the next one uses again.
set_option Elab.async false

/-! ### Reading a word by its fields (02 R39) -/

/-- What is read of a word: the bits from each start on, at each length. -/
abbrev Reading := (start length : Nat) → BitVec length

def readWord {n : Nat} (x : BitVec n) : Reading := fun start length => x.extractLsb' start length

theorem extractLsb'_eq_readWord {n : Nat} (x : BitVec n) (start length : Nat) : x.extractLsb' start length = readWord x start length := rfl

/-- The reading of a word, in a form of its own. -/
abbrev ReadingOf {n : Nat} (x : BitVec n) := {r : Reading // readWord x = r}

/-- A field read whole is the field itself. -/
def readField {n : Nat} (x : BitVec n) : ReadingOf x := by
  refine ⟨fun start length => if h : n = length ∧ start = 0 then h.1 ▸ x else x.extractLsb' start length, ?_⟩
  funext start length
  split
  next h =>
    obtain ⟨rfl, rfl⟩ := h
    exact BitVec.extractLsb'_eq_self
  next => rfl

/-- Of fields put side by side, what lies within the lowest is read of it, and what lies above it of the others. The tests are Boolean, which the kernel computes. -/
def readAppend {v w : Nat} {x : BitVec v} (rx : ReadingOf x) (y : BitVec w) : ReadingOf (x ++ y) := by
  refine ⟨fun start length =>
    bif (start + length).ble w then (readField y).1 start length
    else bif w.ble start then rx.1 (start - w) length
    else (x ++ y).extractLsb' start length, ?_⟩
  funext start length
  cases hlow : (start + length).ble w with
  | true => rw [cond_true, ← (readField y).2, readWord, readWord, BitVec.extractLsb'_append_eq_of_add_le (Nat.le_of_ble_eq_true hlow)]
  | false =>
    cases hhigh : w.ble start with
    | true => rw [cond_false, cond_true, ← rx.2, readWord, readWord, BitVec.extractLsb'_append_eq_of_le (Nat.le_of_ble_eq_true hhigh)]
    | false => rfl

/-- The rows of 02 Table 2.9 as a function of what is read of the word: `candidate` with each field of the word replaced by its reading. -/
noncomputable def candidateReading : {c : Reading → Option (BitVec 32) → Option Instr // ∀ w m, candidate w m = c (readWord w) m} := by
  refine ⟨?rows, ?reads⟩
  case reads =>
    intro w m
    delta candidate candidate01 candidate02 candidate03 candidate04 candidate05 candidate06 candidate07 candidate08 candidate09 candidate0A candidate0B
      candidate0C candidate0D candidate0E candidate0F candidate10 candidate11 candidate12 candidate13 candidate14 candidate15 candidate16 candidate17
      candidate18 candidate19 candidate1A candidate1B candidate1C candidate1D candidate1E candidate1F candidate20 candidate21 candidate22 candidate23
      candidate24 candidate25 candidate26 candidate27 candidate28 candidate29 candidate2A candidate2B candidate2C candidate2D candidate2E candidate2F
      candidate30 candidate31 candidate32 candidate33 candidate34 candidate35 candidate36
    dsimp -iota +instances only [extractLsb'_eq_readWord]
    generalize readWord w = r
    rfl

/-- The rows of 02 Table 2.11, likewise. -/
noncomputable def candidateCompactReading : {c : Reading → Option Instr // ∀ h, candidateCompact h = c (readWord h)} := by
  refine ⟨?rows, ?reads⟩
  case reads =>
    intro h
    delta candidateCompact
    dsimp -iota only [extractLsb'_eq_readWord]
    generalize readWord h = r
    rfl

/-! ### The row found for each form -/

/-- The word of a form says by its low two bits whether a modifier word follows, and the row that the decoder finds for it is the form with its operands. -/
def RowFound (i : Instr) : Prop :=
  ((encodeWord i).extractLsb' 0 2, candidate (encodeWord i) i.modifier) = (modBits i.modifier, some i)

/-- The halfword of a compact form has W = 0, and the row that the decoder finds for it is the form with its operands. -/
def CompactFound (i : Instr) : Prop := ((encodeCompact i).extractLsb' 0 1, candidateCompact (encodeCompact i)) = (0#1, some i)

/-- What the decoder finds for the bits of a unit, by its length (02 R39): a step of the device has no bits. -/
def Encoded (i : Instr) : Prop :=
  (i.isEvent = true ∧ i.isCompact = false ∧ i.modifier = none ∧ encodeWord i = 0) ∨
  (i.isEvent = false ∧ i.isCompact = true ∧ CompactFound i) ∨ (i.isEvent = false ∧ i.isCompact = false ∧ (wf i = true → RowFound i))

theorem encoded_step {i : Instr} (he : i.isEvent = true) (hc : i.isCompact = false) (hm : i.modifier = none) (hw : encodeWord i = 0) : Encoded i :=
  .inl ⟨he, hc, hm, hw⟩

/-- The decoder finds the row by computing on the reading of the halfword. -/
theorem encoded_compact {i : Instr} (he : i.isEvent = false) (hc : i.isCompact = true) (r : ReadingOf (encodeCompact i))
    (hrow : (0#1, some i) = (r.1 0 1, candidateCompactReading.1 r.1)) : Encoded i := by
  refine .inr (.inl ⟨he, hc, ?_⟩)
  rw [CompactFound, candidateCompactReading.2, extractLsb'_eq_readWord, r.2, hrow]

theorem encoded_word_of_wf {i : Instr} (he : i.isEvent = false) (hc : i.isCompact = false) (r : ReadingOf (encodeWord i))
    (hrow : wf i = true → (modBits i.modifier, some i) = (r.1 0 2, candidateReading.1 r.1 i.modifier)) : Encoded i := by
  refine .inr (.inr ⟨he, hc, fun hwf => ?_⟩)
  rw [RowFound, candidateReading.2, extractLsb'_eq_readWord, r.2, hrow hwf]

theorem encoded_word {i : Instr} (he : i.isEvent = false) (hc : i.isCompact = false) (r : ReadingOf (encodeWord i))
    (hrow : (modBits i.modifier, some i) = (r.1 0 2, candidateReading.1 r.1 i.modifier)) : Encoded i :=
  encoded_word_of_wf he hc r fun _ => hrow

/-- Each unit's word is read field by field, and the decoder computes on what is read. A destination that is not s0 tells the atomic units that return the old value
from those that return nothing. -/
theorem encoded (i : Instr) : Encoded i := by
  induction i
  case add | sub | mul | mulh | mulhn | div | divn | rem | remn | min | max | minn | maxn | and | or | xor | andn | shl | shr | sha | rotl | clz | ctz | popc
      | seq | slt | sltn | padd | psub | pmin | pmax | pshl | pshr | psha | addi | andi | ori | xori | shli | shri | shai | bfxS | bfxZ | bfi | sel | movi |
      movh | beq | bne | blt | bge | bltn | bgen | jmp | jal | jr | rep | nop | brk | trap | sysc | eret | cwr | cww | endTask | arm | disarm | waita | wake |
      tid | prio | defer | uiret | uimask | spawn | spawnr | sendR | sendM | sendiR | sendiM | sendwR | sendwM | replyR | replyM | refuse | qpeekQ | qpeekC |
      qcntQ | qcntC | qflushQ | qflushC | qbind | chopen | chclose | chstat | tktGet | tktScope | tktVoid | barInit | barArr | barWait | barExp | grpJoin |
      grpLeave | grpQ | semInit | semPost | semArm | rndClose | rndQ | lmap | foldQ | ldBZ | ldBS | ldHZ | ldHS | ldWZ | ldWS | ldD | stB | stH | stW | stD |
      ldq | stq | ldff | prf | ldsync | stfull | stempty | gaddr | segw | segr | fence | ackw | stRel | ldAcq | redInteger | redFloat | bfins | bffcs | bfpls
      | vaddF32 | vsubF32 | vmulF32 | vfmaF32 | vfmsF32 | vfnmaF32 | vminF32 | vmaxF32 | vrcp | vrsqrt | vsqrt | vexp2 | vlog2 | vtanh | vcmpEqF32 | vcmpNeF32
      | vcmpLtF32 | vcmpLeF32 | vselF32 | vredaddF32 | vredmaxF32 | vscanF32 | vaddF16 | vsubF16 | vmulF16 | vfmaF16 | vfmsF16 | vfnmaF16 | vminF16 | vmaxF16
      | vdotF32 | vcmpEqF16 | vcmpNeF16 | vcmpLtF16 | vcmpLeF16 | vselF16 | vredaddF16 | vredmaxF16 | vscanF16 | vaddI32 | vsubI32 | vmulI32 | vminI32 |
      vmaxI32 | vandI32 | vorI32 | vxorI32 | vshlI32 | vshrI32 | vshaI32 | vcmpEqI32 | vcmpNeI32 | vcmpLtI32 | vcmpLeI32 | vselI32 | vredaddI32 | vredmaxI32 |
      vscanI32 | vaddI16 | vsubI16 | vmulI16 | vminI16 | vmaxI16 | vandI16 | vorI16 | vxorI16 | vshlI16 | vshrI16 | vshaI16 | vcmpEqI16 | vcmpNeI16 |
      vcmpLtI16 | vcmpLeI16 | vselI16 | vredaddI16 | vredmaxI16 | vscanI16 | vdotDI16 | vaddI8 | vsubI8 | vmulI8 | vminI8 | vmaxI8 | vandI8 | vorI8 | vxorI8 |
      vshlI8 | vshrI8 | vshaI8 | vcmpEqI8 | vcmpNeI8 | vcmpLtI8 | vcmpLeI8 | vselI8 | vredaddI8 | vredmaxI8 | vscanI8 | vdotDI8 | vperm | vbcastS | vcompress
      | vexpand | vmovsToScalar | vmovsToVector | vext | vbcastV | vmov | vpop | vpush | kset | kfirst | kmin | kpop | gang | gjoin | gdisband | cvt | fqmv |
      unpackCe8 | packCe8 | mxs | mxq | mxd | mma | gissue | mzero | mrow | mdrain | mdrainadd | ringcfg | ringpushM | ringpushQ | tsrw | tsrinv | bcopy |
      bcopyRing | bgather | bgatherRing | bscatter | bstat =>
    refine encoded_word (.refl false) (.refl false) ?r ?_
    case r =>
      apply readAppend
      with_reducible repeat apply readAppend
      apply readField
    rfl
  case amoAdd | amoAnd | amoOr | amoXor | amoMin | amoMax | amoMinn | amoMaxn | amoSwap | amoCas =>
    refine encoded_word_of_wf (.refl false) (.refl false) ?r ?_
    case r =>
      apply readAppend
      with_reducible repeat apply readAppend
      apply readField
    exact fun hwf => Prod.ext rfl (if_neg (not_and_of_not_left _ (bne_iff_ne.mp hwf))).symm
  case famoAdd | famoMin | famoMax =>
    refine encoded_word_of_wf (.refl false) (.refl false) ?r ?_
    case r =>
      apply readAppend
      with_reducible repeat apply readAppend
      apply readField
    exact fun hwf => Prod.ext rfl (if_neg (bne_iff_ne.mp hwf)).symm
  case compactAdd | compactSub | compactAnd | compactOr | compactMove | compactXor | compactAddi | compactMovi | compactShli | compactShri | compactShai |
      compactAndi | compactSlt | compactSeq | compactMul | compactLdD | compactStD | compactBeq | compactBne | compactNop | compactBrk | compactEnd =>
    refine encoded_compact (.refl false) (.refl true) ?r ?_
    case r =>
      repeat apply readAppend
      apply readField
    rfl
  case launchSubmit | launchAdmission | startRelease | launchCompletion | consumedCountWrite | activationEnter | taskStart | waitClear | long |
      boundaryOverrun | asyncTrapTake | userInterruptEntry | kernelNotice | tileTaskComplete | tileTaskRetire | frontAdvance | messageInject | messageArrival
      | creditReturn | retryReply | retryResend | counterIncrementArrival | remoteAccessArrival | effectArrival | waitRequestArrival | ldsyncCancel |
      readReply | writeAcknowledgement | writeDenial | xpartNotice | flushReadComplete | transferComplete | ringDeliveryComplete | arrayOperationRetire |
      gjoinOfferReady | apertureWrite | apertureRead | barrierArrival | barrierRegistration | barrierBind | groupChange | membershipUpdate | pageWalk |
      walkComplete | faultCompletion | faultQueueHeadWrite | invalidation | invalidationComplete | fold | foldStreamed | unfold | unfoldComplete |
      parkedArrival | regulatorFailure | uncorrectableError | correctableError | hbmLineError | remapWaveCommit | roundTimer | closeDeferralEnd | roundClose |
      roundMirrored | currentStep | droopAlarm | droopClear | deadlockScan | partitionCreate | partitionDelete | grow | shrink | preEmption | commandSubmit |
      protectionDescriptor | contextSave | loadObject | unloadProgram | unknownCommand | slotTableCommit | slotTableTakeEffect | scaleOutFrameReceive |
      scaleOutAck | scaleOutRetransmit | portDown | portUp | edgeRebind | ptpEventMessage | profileMaskWrite | kernelImageWrite | hyperImageWrite | failsClear
      | registerWrite | reset | firmwareVerify | dieSelfTest | seamTraining | islandMerging | startTest | bootStatusWrite | phaseTimeLimit | getVersion |
      getCapabilities | negotiateAlgorithms | getDigests | getCertificate | challenge | getMeasurements | unsupportedRequest | illegal | fetchProt | powerLoss
      | frameBoundary =>
    exact encoded_step (.refl true) (.refl false) (.refl none) (.refl 0)

/-! ### Bits of a unit (02 R39, R61) -/

theorem compact_unit {i : Instr} (hc : i.isCompact = true) : i.isEvent = false ∧ CompactFound i := by
  obtain ⟨-, h, -, -⟩ | ⟨he, -, h⟩ | ⟨-, h, -⟩ := encoded i
  · exact absurd (h.symm.trans hc) Bool.false_ne_true
  · exact ⟨he, h⟩
  · exact absurd (h.symm.trans hc) Bool.false_ne_true

theorem encodeWord_of_isEvent {i : Instr} (he : i.isEvent = true) : i.isCompact = false ∧ i.modifier = none ∧ encodeWord i = 0 := by
  obtain ⟨-, h⟩ | ⟨h, -, -⟩ | ⟨h, -, -⟩ := encoded i
  · exact h
  · exact absurd (h.symm.trans he) Bool.false_ne_true
  · exact absurd (h.symm.trans he) Bool.false_ne_true

theorem rowFound_of_wf {i : Instr} (he : i.isEvent = false) (hc : i.isCompact = false) (hwf : wf i = true) : RowFound i := by
  obtain ⟨h, -, -, -⟩ | ⟨-, h, -⟩ | ⟨-, -, h⟩ := encoded i
  · exact absurd (he.symm.trans h) Bool.false_ne_true
  · exact absurd (hc.symm.trans h) Bool.false_ne_true
  · exact h hwf

theorem CompactFound.candidateCompact_encodeCompact {i : Instr} (h : CompactFound i) : candidateCompact (encodeCompact i) = some i := congrArg Prod.snd h

theorem RowFound.candidate_encodeWord {i : Instr} (h : RowFound i) : candidate (encodeWord i) i.modifier = some i := congrArg Prod.snd h

theorem encodeBits_of_isCompact {i : Instr} (hc : i.isCompact = true) : encodeBits i = (encodeCompact i).setWidth 64 := if_pos hc

theorem encodeBits_of_word {i : Instr} (hc : i.isCompact = false) : encodeBits i = i.modifier.getD 0 ++ encodeWord i := by
  simp [encodeBits, hc, withModifier]

/-- A step of the device has no bits. -/
theorem encodeBits_of_isEvent {i : Instr} (he : i.isEvent = true) : encodeBits i = 0 := by
  obtain ⟨hc, hm, hw⟩ := encodeWord_of_isEvent he
  rw [encodeBits_of_word hc, hm, hw]
  rfl

theorem CompactFound.getLsbD_zero {i : Instr} (h : CompactFound i) : (encodeCompact i).getLsbD 0 = false := by
  simpa using congrArg (·.1.getLsbD 0) h

theorem RowFound.getLsbD_zero {i : Instr} (h : RowFound i) : (encodeWord i).getLsbD 0 = true := by
  have hbit := congrArg (·.1.getLsbD 0) h
  cases hm : i.modifier <;> simpa [hm, modBits] using hbit

/-- M = 1 says that a modifier word follows. -/
theorem RowFound.getLsbD_one {i : Instr} (h : RowFound i) : (encodeWord i).getLsbD 1 = i.modifier.isSome := by
  have hbit := congrArg (·.1.getLsbD 1) h
  cases hm : i.modifier <;> simpa [hm, modBits] using hbit

/-- A word is its two halfwords. -/
theorem append_halves (w : BitVec 32) : w.extractLsb' 16 16 ++ w.extractLsb' 0 16 = w := by
  rw [BitVec.extractLsb'_append_extractLsb'_eq_extractLsb' (start₁ := 0) (len₁ := 16) rfl, BitVec.extractLsb'_eq_self]

theorem setWidth_eq_zero_append (w : BitVec 32) : w.setWidth 64 = 0#32 ++ w := BitVec.setWidth_eq_append (by decide)

theorem eq_and_eq_of_append_eq {v w : Nat} {x x' : BitVec v} {y y' : BitVec w} (h : x ++ y = x' ++ y') : x = x' ∧ y = y' :=
  ⟨by simpa only [BitVec.extractLsb'_append_eq_left] using congrArg (BitVec.extractLsb' w v) h,
    by simpa only [BitVec.extractLsb'_append_eq_right] using congrArg (BitVec.extractLsb' 0 w) h⟩

/-! ### The decoder on units of each length (02 R39, R60) -/

theorem accept_encodeBits {i : Instr} (hwf : wf i = true) : accept (encodeBits i) (some i) = .ok i := by
  simp [accept, hwf]

/-- What is accepted is the candidate, its encoding the bits, its operands admitted. -/
theorem accept_eq_ok {bits : Word} {c : Option Instr} {i : Instr} (h : accept bits c = .ok i) : c = some i ∧ encodeBits i = bits ∧ wf i = true := by
  unfold accept at h
  split at h
  · cases h
  · split at h
    · split at h
      · cases h; exact ⟨rfl, ‹_›, ‹_›⟩
      · cases h
    · cases h

section
variable {h0 h1 h2 h3 : Half} (rest : List Half)

theorem decode_halfword (hW : h0.getLsbD 0 = false) : decode (h0 :: rest) = accept (h0.setWidth 64) (candidateCompact h0) := if_pos hW

theorem decode_word (hW : h0.getLsbD 0 = true) (hM : h0.getLsbD 1 = false) :
    decode (h0 :: h1 :: rest) = accept ((h1 ++ h0 : BitVec 32).setWidth 64) (candidate (h1 ++ h0) none) :=
  (if_neg (ne_false_of_eq_true hW)).trans (if_pos hM)

theorem decode_modified (hW : h0.getLsbD 0 = true) (hM : h0.getLsbD 1 = true) :
    decode (h0 :: h1 :: h2 :: h3 :: rest) = accept ((h3 ++ h2 : BitVec 32) ++ (h1 ++ h0 : BitVec 32)) (candidate (h1 ++ h0) (some (h3 ++ h2))) :=
  (if_neg (ne_false_of_eq_true hW)).trans (if_neg (ne_false_of_eq_true hM))

/-- A word that is cut short is refused (02 R40). -/
theorem decode_half_word (hW : h0.getLsbD 0 = true) : decode [h0] = .error .truncated := if_neg (ne_false_of_eq_true hW)

end

/-- So is a modifier word that is missing or cut short. -/
theorem decode_half_modified {h0 h1 : Half} {rest : List Half} (hr : rest = [] ∨ ∃ h2, rest = [h2]) (hW : h0.getLsbD 0 = true) (hM : h0.getLsbD 1 = true) :
    decode (h0 :: h1 :: rest) = .error .truncated := by
  rcases hr with rfl | ⟨h2, rfl⟩ <;> exact (if_neg (ne_false_of_eq_true hW)).trans (if_neg (ne_false_of_eq_true hM))

/-! ### Encoding, then decoding -/

theorem encode_of_isCompact {i : Instr} (he : i.isEvent = false) (hc : i.isCompact = true) : encode i = [encodeCompact i] := by
  simp [encode, he, hc]

theorem encode_of_word {i : Instr} (he : i.isEvent = false) (hc : i.isCompact = false) (hm : i.modifier = none) :
    encode i = [(encodeWord i).extractLsb' 0 16, (encodeWord i).extractLsb' 16 16] := by
  simp [encode, he, hc, hm]

theorem encode_of_modifier {i : Instr} {m : BitVec 32} (he : i.isEvent = false) (hc : i.isCompact = false) (hm : i.modifier = some m) :
    encode i = [(encodeWord i).extractLsb' 0 16, (encodeWord i).extractLsb' 16 16, m.extractLsb' 0 16, m.extractLsb' 16 16] := by
  simp [encode, he, hc, hm]

theorem decode_encode_compact {i : Instr} (rest : List Half) (hwf : wf i = true) (hc : i.isCompact = true) : decode (encode i ++ rest) = .ok i := by
  obtain ⟨he, hfound⟩ := compact_unit hc
  rw [encode_of_isCompact he hc, List.cons_append, decode_halfword _ hfound.getLsbD_zero, hfound.candidateCompact_encodeCompact, ← encodeBits_of_isCompact hc,
    accept_encodeBits hwf]

/-- Settles O55: the low bits of an encoding say how long it is, and the row that is found for its word is the instruction again. -/
theorem decodeOfEncode : Obligations.DecodeOfEncode := by
  intro i rest hwf he
  cases hc : i.isCompact with
  | true => exact decode_encode_compact rest hwf hc
  | false =>
    have hfound := rowFound_of_wf he hc hwf
    have hW : ((encodeWord i).extractLsb' 0 16).getLsbD 0 = true := by simpa using hfound.getLsbD_zero
    have hM : ((encodeWord i).extractLsb' 0 16).getLsbD 1 = i.modifier.isSome := by simpa using hfound.getLsbD_one
    have hrow := hfound.candidate_encodeWord
    have hbits := encodeBits_of_word hc
    cases hm : i.modifier with
    | none =>
      rw [hm] at hM hrow hbits
      rw [encode_of_word he hc hm, List.cons_append, List.cons_append, decode_word _ hW hM, append_halves, hrow, setWidth_eq_zero_append]
      exact hbits ▸ accept_encodeBits hwf
    | some m =>
      rw [hm] at hM hrow hbits
      rw [encode_of_modifier he hc hm]
      simp only [List.cons_append]
      rw [decode_modified _ hW hM, append_halves, append_halves, hrow]
      exact hbits ▸ accept_encodeBits hwf

/-! ### Decoding, then encoding -/

/-- No row stands at compact major 0 (02 R56). -/
theorem candidateCompact_zero : candidateCompact 0 = none := rfl

theorem getLsbD_encodeBits_of_word {i : Instr} (hc : i.isCompact = false) {k : Nat} (hk : k < 32) : (encodeBits i).getLsbD k = (encodeWord i).getLsbD k := by
  rw [encodeBits_of_word hc, BitVec.getLsbD_append, if_pos hk]

/-- A unit whose bits have W = 1 is a form of 32 bits. -/
theorem isCompact_of_getLsbD_true {i : Instr} (h : (encodeBits i).getLsbD 0 = true) : i.isEvent = false ∧ i.isCompact = false := by
  constructor
  · by_contra he
    rw [encodeBits_of_isEvent ((Bool.not_eq_false _).mp he)] at h
    cases h
  · by_contra hc
    rw [Bool.not_eq_false] at hc
    rw [encodeBits_of_isCompact hc, BitVec.getLsbD_setWidth, (compact_unit hc).2.getLsbD_zero] at h
    cases h

/-- A halfword with W = 0 is the encoding of the compact form that it decodes to: a form of 32 bits has W = 1, and the halfword 0 has no row. -/
theorem compact_of_halfword {i : Instr} {h0 : Half} (hW : h0.getLsbD 0 = false) (hrow : candidateCompact h0 = some i) (hbits : encodeBits i = h0.setWidth 64)
    (hwf : wf i = true) : i.isCompact = true ∧ encodeCompact i = h0 := by
  have hlow {x : Half} (h : x.setWidth 64 = h0.setWidth 64) : x = h0 := by
    simpa using congrArg (BitVec.setWidth 16) h
  cases hc : i.isCompact with
  | true => exact ⟨rfl, hlow (encodeBits_of_isCompact hc ▸ hbits)⟩
  | false =>
    cases he : i.isEvent with
    | true =>
      rw [← hlow (x := 0) ((encodeBits_of_isEvent he).symm.trans hbits), candidateCompact_zero] at hrow
      cases hrow
    | false =>
      have hbit := (rowFound_of_wf he hc hwf).getLsbD_zero
      rw [← getLsbD_encodeBits_of_word hc (by decide), hbits, BitVec.getLsbD_setWidth, hW] at hbit
      cases hbit

/-- Bits whose low word has W = 1 are those of the form of 32 bits that they decode to: its word, and above it its modifier word, if it has one. -/
theorem word_of_encodeBits {i : Instr} {m w : BitVec 32} (hW : w.getLsbD 0 = true) (hbits : encodeBits i = m ++ w) (hwf : wf i = true) :
    i.isEvent = false ∧ i.isCompact = false ∧ encodeWord i = w ∧ i.modifier.isSome = w.getLsbD 1 ∧ i.modifier.getD 0 = m := by
  have hzero : (encodeBits i).getLsbD 0 = true := by
    rw [hbits, BitVec.getLsbD_append, if_pos (by decide), hW]
  obtain ⟨he, hc⟩ := isCompact_of_getLsbD_true hzero
  obtain ⟨hm, hw⟩ := eq_and_eq_of_append_eq ((encodeBits_of_word hc).symm.trans hbits)
  exact ⟨he, hc, hw, hw ▸ (rowFound_of_wf he hc hwf).getLsbD_one.symm, hm⟩

theorem getLsbD_append_low {h1 h0 : Half} {k : Nat} (hk : k < 16) : (h1 ++ h0 : BitVec 32).getLsbD k = h0.getLsbD k := by
  rw [BitVec.getLsbD_append, if_pos hk]

theorem encode_halfword_sound {h0 : Half} {rest : List Half} {i : Instr} (hW : h0.getLsbD 0 = false) (h : decode (h0 :: rest) = .ok i) :
    wf i = true ∧ i.isEvent = false ∧ ∃ rest', h0 :: rest = encode i ++ rest' := by
  rw [decode_halfword _ hW] at h
  obtain ⟨hrow, hbits, hwf⟩ := accept_eq_ok h
  obtain ⟨hc, henc⟩ := compact_of_halfword hW hrow hbits hwf
  have he := (compact_unit hc).1
  exact ⟨hwf, he, rest, by rw [encode_of_isCompact he hc, henc]; rfl⟩

theorem encode_word_sound {h0 h1 : Half} {rest : List Half} {i : Instr} (hW : h0.getLsbD 0 = true) (hM : h0.getLsbD 1 = false)
    (h : decode (h0 :: h1 :: rest) = .ok i) : wf i = true ∧ i.isEvent = false ∧ ∃ rest', h0 :: h1 :: rest = encode i ++ rest' := by
  rw [decode_word _ hW hM] at h
  obtain ⟨-, hbits, hwf⟩ := accept_eq_ok h
  rw [setWidth_eq_zero_append] at hbits
  obtain ⟨he, hc, hw, hsome, -⟩ := word_of_encodeBits ((getLsbD_append_low (by decide)).trans hW) hbits hwf
  have hm : i.modifier = none := by rwa [getLsbD_append_low (by decide), hM, Option.isSome_eq_false_iff, Option.isNone_iff_eq_none] at hsome
  refine ⟨hwf, he, rest, ?_⟩
  rw [encode_of_word he hc hm, hw, BitVec.extractLsb'_append_eq_left, BitVec.extractLsb'_append_eq_right]
  rfl

theorem encode_modified_sound {h0 h1 h2 h3 : Half} {rest : List Half} {i : Instr} (hW : h0.getLsbD 0 = true) (hM : h0.getLsbD 1 = true)
    (h : decode (h0 :: h1 :: h2 :: h3 :: rest) = .ok i) : wf i = true ∧ i.isEvent = false ∧ ∃ rest', h0 :: h1 :: h2 :: h3 :: rest = encode i ++ rest' := by
  rw [decode_modified _ hW hM] at h
  obtain ⟨-, hbits, hwf⟩ := accept_eq_ok h
  obtain ⟨he, hc, hw, hsome, hm⟩ := word_of_encodeBits ((getLsbD_append_low (by decide)).trans hW) hbits hwf
  rw [getLsbD_append_low (by decide), hM] at hsome
  obtain ⟨m, hm'⟩ := Option.isSome_iff_exists.mp hsome
  rw [hm', Option.getD_some] at hm
  refine ⟨hwf, he, rest, ?_⟩
  rw [encode_of_modifier he hc hm', hw, hm]
  simp only [BitVec.extractLsb'_append_eq_left, BitVec.extractLsb'_append_eq_right]
  rfl

/-- Settles O56: by the length that the low bits of the first halfword give. -/
theorem decodeSound : Obligations.DecodeSound := by
  intro hs i h
  match hs with
  | [] => cases h
  | h0 :: rest =>
    cases hW : h0.getLsbD 0 with
    | false => exact encode_halfword_sound hW h
    | true =>
      match rest with
      | [] => exact absurd (decode_half_word hW ▸ h) (by simp)
      | h1 :: rest =>
        cases hM : h0.getLsbD 1 with
        | false => exact encode_word_sound hW hM h
        | true =>
          match rest with
          | h2 :: h3 :: rest => exact encode_modified_sound hW hM h
          | [] => exact absurd (decode_half_modified (.inl rfl) hW hM ▸ h) (by simp)
          | [h2] => exact absurd (decode_half_modified (.inr ⟨h2, rfl⟩) hW hM ▸ h) (by simp)

/-- Settles O54: the decoder evaluates on each of the words. -/
theorem decodeWords : Obligations.DecodeWords :=
  ⟨rfl, rfl, rfl, rfl, rfl, rfl, rfl, rfl, rfl, rfl, rfl, rfl, rfl, rfl, rfl⟩

end Sys2Proof
end

section
/-! O25: a CE8 block is read back as it was packed. Nibbles and stream bits come back as they were written, whatever stands above them; the codes of the
ranks are free of prefixes, so a stream gives its tokens one by one; a token has at least 2 bits, so a coded block has the 7 or 8 units that the decoder
takes. What is left is the header, for the coded and the raw form. -/

namespace Sys2Proof.Machine

/-! ### Nibbles (03 R103) -/

/-- The number that `nibbleBytes` writes. -/
def nibbleSum (ns : List Nat) : Nat := ns.foldr (fun e x => e % 16 + 16 * x) 0

theorem nibbleBytes_eq (ns : List Nat) : nibbleBytes ns = natToBytes 32 (nibbleSum ns) := rfl

theorem nibbleSum_cons (n : Nat) (ns : List Nat) : nibbleSum (n :: ns) = n % 16 + 16 * nibbleSum ns := rfl

@[simp] theorem nibbleBytes_length (ns : List Nat) : (nibbleBytes ns).length = 32 := natToBytes_length ..

theorem nibbleSum_lt (ns : List Nat) : nibbleSum ns < 16 ^ ns.length := by
  induction ns with
  | nil => exact Nat.one_pos
  | cons n ns ih => rw [nibbleSum_cons, List.length_cons, pow_succ]; omega

theorem nibbles_of_nibbleSum {ns : List Nat} (hns : ∀ n ∈ ns, n < 16) : (List.range ns.length).map (fun i => nibbleSum ns / 16 ^ i % 16) = ns := by
  induction ns with
  | nil => rfl
  | cons n ns ih =>
    obtain ⟨hn, hns⟩ := List.forall_mem_cons.mp hns
    have hhead : nibbleSum (n :: ns) / 16 ^ 0 % 16 = n := by rw [nibbleSum_cons, pow_zero]; omega
    have htail (i : Nat) : nibbleSum (n :: ns) / 16 ^ (i + 1) = nibbleSum ns / 16 ^ i := by
      rw [pow_succ', ← Nat.div_div_eq_div_mul, nibbleSum_cons]
      congr 1; omega
    rw [List.length_cons, List.range_succ_eq_map, List.map_cons, List.map_map, hhead]
    simpa [Function.comp_def, htail] using ih hns

theorem nibblesOf_nibbleBytes {ns : List Nat} (hlen : ns.length = 64) (hns : ∀ n ∈ ns, n < 16) : nibblesOf (nibbleBytes ns) = ns := by
  have hlt : nibbleSum ns < 256 ^ 32 := (hlen ▸ nibbleSum_lt ns : nibbleSum ns < 16 ^ 64)
  rw [nibblesOf, nibbleBytes_eq, bytesToNat_natToBytes, Nat.mod_eq_of_lt hlt, ← hlen]
  exact nibbles_of_nibbleSum hns

/-! ### Stream bits (03 R104) -/

theorem ofBits_cons (b : Bool) (bs : List Bool) : ofBits (b :: bs) = Nat.bit b (ofBits bs) := by rw [ofBits, Nat.bit_val, Nat.add_comm]

@[simp] theorem bitsOf_length (n v : Nat) : (bitsOf n v).length = n := by simp [bitsOf]

theorem bitsOf_succ (n v : Nat) : bitsOf (n + 1) v = v.testBit 0 :: bitsOf n (v / 2) := by
  simp [bitsOf, List.range_succ_eq_map, Function.comp_def, Nat.testBit_succ]

theorem bitsOf_zero (n : Nat) : bitsOf n 0 = List.replicate n false := by
  simp [bitsOf, List.map_const']

/-- The bits below a power of two do not see what is above it. -/
theorem bitsOf_mod_two_pow (n v : Nat) : bitsOf n (v % 2 ^ n) = bitsOf n v :=
  List.map_congr_left fun i hi => by simp [Nat.testBit_mod_two_pow, List.mem_range.mp hi]

/-- Bits come back as they were, with zeros behind them. -/
theorem bitsOf_ofBits {n : Nat} {bs : List Bool} (h : bs.length ≤ n) : bitsOf n (ofBits bs) = bs ++ List.replicate (n - bs.length) false := by
  induction bs generalizing n with
  | nil => exact bitsOf_zero n
  | cons b bs ih =>
    obtain ⟨n, rfl⟩ : ∃ m, n = m + 1 := ⟨n - 1, by simp at h; omega⟩
    rw [ofBits_cons, bitsOf_succ, Nat.testBit_bit_zero, Nat.bit_div_two, ih (Nat.le_of_succ_le_succ h), List.length_cons, Nat.add_sub_add_right,
      List.cons_append]

theorem bitsOf_natToBytes {k : Nat} {bs : List Bool} (h : bs.length ≤ k * 8) :
    bitsOf (k * 8) (bytesToNat (natToBytes k (ofBits bs))) = bs ++ List.replicate (k * 8 - bs.length) false := by
  have hpow : 256 ^ k = 2 ^ (k * 8) := by rw [Nat.mul_comm, pow_mul]; rfl
  rw [bytesToNat_natToBytes, hpow, bitsOf_mod_two_pow, bitsOf_ofBits h]

/-! ### Codes and codebooks (03 Tables 3.11 and 3.12) -/

theorem ce8Code_prefix_free : ∀ r < 16, ∀ r' < 16, ce8Code r <+: ce8Code r' → r = r' := by decide

theorem two_le_ce8Code_length (r : Nat) : 2 ≤ (ce8Code r).length := by
  unfold ce8Code; split_ifs <;> simp

theorem ce8Book_length (b : Nat) : (ce8Book b).length = 16 := by
  unfold ce8Book; split <;> rfl

/-- Every exponent field has a rank in every codebook. -/
theorem mem_ce8Book (b : Nat) {e : Nat} (he : e < 16) : e ∈ ce8Book b := by
  unfold ce8Book; split <;> revert e <;> decide

theorem idxOf_ce8Book_lt (b : Nat) {e : Nat} (he : e < 16) : (ce8Book b).idxOf e < 16 := by
  simpa [ce8Book_length] using List.idxOf_lt_length_of_mem (mem_ce8Book b he)

theorem ce8Book_getD_idxOf (b : Nat) {e : Nat} (he : e < 16) : (ce8Book b).getD ((ce8Book b).idxOf e) 0 = e := by
  rw [List.getD_eq_getElem _ _ (List.idxOf_lt_length_of_mem (mem_ce8Book b he)), List.getElem_idxOf]

/-- The one rank whose code begins the bits is found. -/
theorem find_ce8Code {r : Nat} (hr : r < 16) (bs : List Bool) : (List.range 16).find? (fun q => (ce8Code q).isPrefixOf (ce8Code r ++ bs)) = some r := by
  have honly : ∀ q < 16, ce8Code q <+: ce8Code r ++ bs → q = r := fun q hq hpre =>
    (List.prefix_or_prefix_of_prefix hpre (List.prefix_append ..)).elim (ce8Code_prefix_free q hq r hr) fun h => (ce8Code_prefix_free r hr q hq h).symm
  rw [List.find?_range_eq_some]
  refine ⟨by simp, List.mem_range.mpr hr, fun q hq => ?_⟩
  have hne : ¬ ce8Code q <+: ce8Code r ++ bs := fun h => hq.ne (honly q (hq.trans hr) h)
  rwa [← List.isPrefixOf_iff_prefix, Bool.not_eq_true, ← Bool.not_eq_true'] at hne

/-! ### Tokens (03 R104) -/

theorem ce8Stream_cons (b e : Nat) (es : List Nat) : ce8Stream b (e :: es) = ce8Code ((ce8Book b).idxOf e) ++ ce8Stream b es := rfl

theorem ce8Tokens_code {r : Nat} (hr : r < 16) (b k : Nat) (bs : List Bool) :
    ce8Tokens b (k + 1) (ce8Code r ++ bs) = (ce8Tokens b k bs).map fun y => ((ce8Book b).getD r 0 :: y.1, y.2) := by
  simp only [ce8Tokens, find_ce8Code hr, List.drop_left]

/-- A stream gives its exponent fields and leaves what follows it. -/
theorem ce8Tokens_ce8Stream (b : Nat) {es : List Nat} (hes : ∀ e ∈ es, e < 16) (bs : List Bool) :
    ce8Tokens b es.length (ce8Stream b es ++ bs) = some (es, bs) := by
  induction es with
  | nil => rfl
  | cons e es ih =>
    obtain ⟨he, hes⟩ := List.forall_mem_cons.mp hes
    rw [ce8Stream_cons, List.append_assoc, List.length_cons, ce8Tokens_code (idxOf_ce8Book_lt b he), ih hes, Option.map_some, ce8Book_getD_idxOf b he]

theorem two_mul_length_le_ce8Stream_length (b : Nat) (es : List Nat) : 2 * es.length ≤ (ce8Stream b es).length := by
  induction es with
  | nil => exact Nat.zero_le _
  | cons e es ih =>
    have := two_le_ce8Code_length ((ce8Book b).idxOf e)
    rw [ce8Stream_cons, List.length_append, List.length_cons]
    omega

/-! ### The decoder by the header's form (03 R103, R107) -/

/-- The value of a nibble and an exponent field. -/
def ce8Value (x : Nat × Nat) : Nat := x.1 / 8 * 128 + x.2 * 8 + x.1 % 8

/-- Behind the header stand the nibbles, and behind these the exponents. -/
theorem block_parts (h : Byte) {ns : List Byte} (hns : ns.length = 32) (tail : List Byte) :
    ((h :: ns ++ tail).drop 1).take 32 = ns ∧ (h :: ns ++ tail).drop 33 = tail ∧ (h :: ns ++ tail).length - 33 = tail.length :=
  ⟨List.take_left' hns, List.drop_left' (l₁ := h :: ns) (congrArg (· + 1) hns), by simp [hns]⟩

theorem ce8Decode_raw {ns es pad : List Byte} (hns : ns.length = 32) (hes : es.length = 32) (hpad : pad.any (· ≠ 0) = false) :
    ce8Decode (BitVec.ofNat 8 (8 * 8 + 4) :: ns ++ (es ++ pad)) = some (((nibblesOf ns).zip (nibblesOf es)).map ce8Value) := by
  obtain ⟨hn, ht, -⟩ := block_parts (BitVec.ofNat 8 (8 * 8 + 4)) hns (es ++ pad)
  have hp : (BitVec.ofNat 8 (8 * 8 + 4) :: ns ++ (es ++ pad)).drop 65 = pad := by
    rw [← List.drop_drop (i := 32) (j := 33), ht, List.drop_left' hes]
  rw [ce8Decode, hn, ht, hp, hpad, List.take_left' hes]
  simp only [List.cons_append, List.getD_cons_zero]
  exact (if_neg (by decide)).trans ((if_pos (by decide)).trans (if_neg (by decide)))

/-- The header byte of a coded block (03 Table 3.10). -/
theorem codedHeader_fields {u book : Nat} (hu : u = 6 ∨ u = 7) (hb : book < 4) :
    let h := (BitVec.ofNat 8 (u * 8 + book)).toNat
    h < 128 ∧ h / 8 % 16 = u ∧ h.testBit 2 = false ∧ h % 4 = book := by
  have hh : (BitVec.ofNat 8 (u * 8 + book)).toNat = u * 8 + book := by rw [BitVec.toNat_ofNat]; omega
  simp only [hh, Nat.testBit_eq_decide_div_mod_eq, decide_eq_false_iff_not]
  omega

theorem ce8Decode_coded {u book : Nat} {ns tail : List Byte} {es : List Nat} {rest : List Bool} {k : Nat} (hu : u = 6 ∨ u = 7) (hb : book < 4)
    (hns : ns.length = 32) (hk : tail.length = k)
    (htok : ce8Tokens book 64 (bitsOf (k * 8) (bytesToNat tail)) = some (es, rest)) (hunits : ce8Units (k * 8 - rest.length) = u + 1)
    (hrest : rest.any id = false) :
    ce8Decode (BitVec.ofNat 8 (u * 8 + book) :: ns ++ tail) = some (((nibblesOf ns).zip es).map ce8Value) := by
  obtain ⟨hn, ht, hl⟩ := block_parts (BitVec.ofNat 8 (u * 8 + book)) hns tail
  obtain ⟨hlow, hfield, hraw, hbook⟩ := codedHeader_fields hu hb
  have hform : ¬ (u ≠ 6 ∧ u ≠ 7) := by omega
  rw [ce8Decode, hn, ht, hl, hk]
  simp only [List.cons_append, List.getD_cons_zero, hfield, hraw, hbook, htok, bitsOf_length, hunits, hrest, if_neg (Nat.not_le.mpr hlow), if_neg hform]
  exact (if_neg Bool.false_ne_true).trans (if_neg (not_or_intro (not_not_intro rfl) Bool.false_ne_true))

/-! ### The encoder (03 R105) -/

theorem minBy_mem {α : Type} {f : α → Nat} {l : List α} {a : α} (h : minBy f l = some a) : a ∈ l := by
  induction l generalizing a with
  | nil => cases h
  | cons b l ih =>
    rw [minBy] at h
    split at h
    next => exact (Option.some.inj h) ▸ List.mem_cons_self
    next c hc =>
      split at h
      next => exact (Option.some.inj h) ▸ List.mem_cons_of_mem b (ih hc)
      next => exact (Option.some.inj h) ▸ List.mem_cons_self

/-- The sign and the mantissa of a value, as its nibble. -/
def ce8Nibble (v : Nat) : Nat := v / 128 * 8 + v % 8

/-- The exponent field of a value. -/
def ce8Exponent (v : Nat) : Nat := v / 8 % 16

theorem ce8Value_of_fields (v : Nat) : ce8Value (ce8Nibble v, ce8Exponent v) = v := by
  unfold ce8Value ce8Nibble ce8Exponent; omega

theorem map_ce8Value_fields (vs : List Nat) : ((vs.map ce8Nibble).zip (vs.map ce8Exponent)).map ce8Value = vs := by
  rw [List.zip_map', List.map_map]
  exact (List.map_congr_left fun v _ => ce8Value_of_fields v).trans (List.map_id vs)

theorem ce8Nibble_lt {v : Nat} (hv : v < 256) : ce8Nibble v < 16 := by unfold ce8Nibble; omega

theorem ce8Exponent_lt (v : Nat) : ce8Exponent v < 16 := Nat.mod_lt _ (by decide)

/-- The token stream of values. -/
def blockStream (book : Nat) (vs : List Nat) : List Bool := ce8Stream book (vs.map ce8Exponent)

/-- The units that the coded form of values takes. -/
def blockUnits (book : Nat) (vs : List Nat) : Nat := ce8Units (blockStream book vs).length

/-- The block of values in the coded form, with a codebook. -/
def ce8CodedBlock (book : Nat) (vs : List Nat) : List Byte :=
  BitVec.ofNat 8 ((blockUnits book vs - 1) * 8 + book) :: nibbleBytes (vs.map ce8Nibble) ++
    natToBytes (blockUnits book vs * 8 - 33) (ofBits (blockStream book vs))

/-- The block of values in the raw form. -/
def ce8RawBlock (vs : List Nat) : List Byte :=
  BitVec.ofNat 8 (8 * 8 + 4) :: nibbleBytes (vs.map ce8Nibble) ++ (nibbleBytes (vs.map ce8Exponent) ++ List.replicate 7 0)

/-- The stream fits the bytes behind the nibbles (03 R104). -/
theorem blockStream_length_le (book : Nat) (vs : List Nat) : (blockStream book vs).length ≤ (blockUnits book vs * 8 - 33) * 8 := by
  unfold blockUnits ce8Units; omega

theorem ce8RawBlock_length (vs : List Nat) : (ce8RawBlock vs).length = 72 := by simp [ce8RawBlock]

/-- A block is coded with a codebook that makes it short enough, or raw. -/
theorem ce8Block_cases (vs : List Nat) : (∃ book < 4, blockUnits book vs ≤ 8 ∧ ce8Block vs = ce8CodedBlock book vs) ∨ ce8Block vs = ce8RawBlock vs := by
  have hbook (f : Nat → Nat) : (minBy f [0, 1, 2, 3]).getD 0 < 4 := by
    cases h : minBy f [0, 1, 2, 3] with
    | none => exact Nat.zero_lt_succ 3
    | some b => exact List.mem_range.mp (minBy_mem h : b ∈ List.range 4)
  by_cases hshort : blockUnits ((minBy (fun b => (blockStream b vs).length) [0, 1, 2, 3]).getD 0) vs ≤ 8
  · exact .inl ⟨_, hbook _, hshort, if_pos hshort⟩
  · exact .inr ((if_neg hshort).trans (List.append_assoc ..))

/-! ### What comes back (03 R103 to R107) -/

section

variable {vs : List Nat} (hlen : vs.length = 64)
include hlen

theorem nibblesOf_ce8Exponent : nibblesOf (nibbleBytes (vs.map ce8Exponent)) = vs.map ce8Exponent :=
  nibblesOf_nibbleBytes ((List.length_map _).trans hlen) (List.forall_mem_map.mpr fun v _ => ce8Exponent_lt v)

/-- Behind the tokens of the block's values a coded block's stream has zeros. -/
theorem ce8Tokens_blockStream {book k : Nat} (hfit : (blockStream book vs).length ≤ k * 8) :
    ce8Tokens book 64 (bitsOf (k * 8) (bytesToNat (natToBytes k (ofBits (blockStream book vs))))) =
      some (vs.map ce8Exponent, List.replicate (k * 8 - (blockStream book vs).length) false) := by
  have hexp : ∀ e ∈ vs.map ce8Exponent, e < 16 := List.forall_mem_map.mpr fun v _ => ce8Exponent_lt v
  have h64 : (vs.map ce8Exponent).length = 64 := (List.length_map _).trans hlen
  rw [bitsOf_natToBytes hfit, blockStream, ← h64, ce8Tokens_ce8Stream book hexp]

/-- The 64 tokens have at least 128 bits. -/
theorem seven_le_blockUnits (book : Nat) : 7 ≤ blockUnits book vs := by
  have h := two_mul_length_le_ce8Stream_length book (vs.map ce8Exponent)
  rw [List.length_map, hlen, ← blockStream] at h
  unfold blockUnits ce8Units
  omega

theorem ce8CodedBlock_length (book : Nat) : (ce8CodedBlock book vs).length = 8 * blockUnits book vs := by
  have := seven_le_blockUnits hlen book
  simp only [ce8CodedBlock, List.length_append, List.length_cons, nibbleBytes_length, natToBytes_length]
  omega

variable (hvs : ∀ v ∈ vs, v < 256)
include hvs

theorem nibblesOf_ce8Nibble : nibblesOf (nibbleBytes (vs.map ce8Nibble)) = vs.map ce8Nibble :=
  nibblesOf_nibbleBytes ((List.length_map _).trans hlen) (List.forall_mem_map.mpr fun v hv => ce8Nibble_lt (hvs v hv))

theorem ce8Decode_ce8RawBlock : ce8Decode (ce8RawBlock vs) = some vs := by
  rw [ce8RawBlock, ce8Decode_raw (nibbleBytes_length _) (nibbleBytes_length _) (by decide), nibblesOf_ce8Nibble hlen hvs, nibblesOf_ce8Exponent hlen,
    map_ce8Value_fields]

theorem ce8Decode_ce8CodedBlock {book : Nat} (hb : book < 4) (hshort : blockUnits book vs ≤ 8) :
    ce8Decode (ce8CodedBlock book vs) = some vs := by
  have hseven := seven_le_blockUnits hlen book
  have hfit := blockStream_length_le book vs
  have hu : blockUnits book vs - 1 = 6 ∨ blockUnits book vs - 1 = 7 := by omega
  rw [ce8CodedBlock, ce8Decode_coded hu hb (nibbleBytes_length _) (natToBytes_length ..) (ce8Tokens_blockStream hlen hfit), nibblesOf_ce8Nibble hlen hvs,
    map_ce8Value_fields]
  · rw [List.length_replicate, Nat.sub_sub_self hfit, ← blockUnits]
    omega
  · simp

end

end Sys2Proof.Machine

namespace Sys2Proof

open Machine

/-- Settles O25: by the form that the encoder chooses. -/
theorem blocksUnpackAsPacked : Obligations.BlocksUnpackAsPacked := by
  intro vs hlen hvs
  rcases ce8Block_cases vs with ⟨book, hb, hshort, hblk⟩ | hblk
  · have hseven := seven_le_blockUnits hlen book
    rw [hblk, ce8CodedBlock_length hlen]
    exact ⟨ce8Decode_ce8CodedBlock hlen hvs hb hshort, by omega⟩
  · rw [hblk, ce8RawBlock_length]
    exact ⟨ce8Decode_ce8RawBlock hlen hvs, by decide⟩

end Sys2Proof
end

section
/-! O32: a full waiter table gives up its oldest record (05 R161), and the increment that is then sent passes through the cache of the NI (15 R430). -/

namespace Sys2Proof.Machine

open Sys2Proof.Claims

/-- A record of a waiter of tile 1 for the word at offset 8. -/
def distantWaiter : Waiter := { off := 8, core := ⟨0, 1, .mc⟩, entry := 0, tag := 0 }

/-- A task of the MC of tile 0 with the window address of the word at offset 8 in s1; its tile grants every right, its waiter table holds 32 records of waiters
of tile 1. -/
def fullWaiterTable : State :=
  let s := State.reset.place [] .mc 0
  { s with cur := ⟨⟨0, 0, .mc⟩, 0⟩, ctxs := [(⟨⟨0, 0, .mc⟩, 0⟩, (placedCtx .mc 0).setReg 1 0x100000000008)],
           tiles := [(⟨0, 0⟩, { Tile.init with prot := [0xFFFC000FFF] })],
           homes := [(.tile ⟨0, 0⟩, { HomeSt.init with waiters := List.replicate 32 distantWaiter })] }

/-- The NI of tile 0 caches the entry of tile 1 when the waita of a 33rd waiter evicts the oldest record. -/
theorem tiles_waita_fullWaiterTable : ∀ t, exec (.waita 0 0 1) fullWaiterTable = .next t → t.tiles ≠ fullWaiterTable.tiles := by
  rintro t ht heq
  have hcache : (match exec (.waita 0 0 1) fullWaiterTable with
      | .next t => (t.tile ⟨0, 0⟩).cache
      | _ => []) = [(1, 0)] := by decide
  rw [ht] at hcache
  have hempty : (t.tile ⟨0, 0⟩).cache = (fullWaiterTable.tile ⟨0, 0⟩).cache := by rw [State.tile, heq]; rfl
  exact absurd (hempty.symm.trans hcache) (by decide)

/-- Refutes O32: waita on a full waiter table, whose oldest record is a waiter of another tile, moves the cache of its own tile. -/
theorem not_waitsAndWakes : ¬ Obligations.WaitsAndWakes := by
  intro h
  have hpasses : Passes fullWaiterTable onTile 0 [] := ⟨.inr (by simp), by decide, by decide⟩
  obtain ⟨hwaita, -⟩ := h 0 0 1 fullWaiterTable 8 hpasses (by decide) (by decide) (by decide) (by decide)
  obtain ⟨t, ht, -, -, htiles, -⟩ := hwaita _ _ rfl (by decide) (by decide) (by decide) (by decide) (by decide) (.inl (by decide)) rfl
  exact tiles_waita_fullWaiterTable t ht htiles

end Sys2Proof.Machine
end

section
/-! What sending a packet, answering an issuer and taking a number leave as they were. The statements of 05 use these frames. -/

namespace Sys2Proof.Machine

open Sys2Proof.Claims

-- One proof after the other: what one needed of memory the next one uses again.
set_option Elab.async false

variable {s t u : State}

/-! ### Units -/

theorem unit_of_passes {f : Form} {k : State → State} (h : Passes s f.roles f.level f.feats) : unit f s k = .next (k (start s)) := by
  obtain ⟨-, -, -, hpasses⟩ := decodeTests f s k
  exact hpasses h

/-! ### Routing and sending (06 R176, R187; 15 R430) -/

theorem State.routed_frame (s : State) (src : Option CoreId) (dst : Option TileId) :
    (s.routed src dst).2 = { s with tiles := (s.routed src dst).2.tiles } := by
  unfold State.routed
  split
  · split
    · rfl
    · dsimp only
      split <;> rfl
  · rfl
  · rfl

/-- Of a tile routing moves the cache of its NI alone. -/
theorem State.tile_routed (s : State) (src : Option CoreId) (dst : Option TileId) (x : TileId) :
    (s.routed src dst).2.tile x = { s.tile x with cache := ((s.routed src dst).2.tile x).cache } := by
  unfold State.routed
  split
  next c t =>
    split
    · rfl
    · dsimp only
      split
      · rfl
      · by_cases hx : x = c.tile
        · rw [hx, State.tile_modTile_self]
        · rw [State.tile_modTile_ne _ _ hx]
  · rfl
  · rfl

theorem State.routed_none (s : State) (dst : Option TileId) : (s.routed none dst).2 = s := by cases dst <;> rfl

theorem State.routed_own (s : State) (c : CoreId) : (s.routed (some c) (some c.tile)).2 = s := by
  show (if c.tile = c.tile then (s.genOf c.tile, s) else _).2 = s
  rw [if_pos rfl]

/-- The flight of a packet that is sent now. -/
def State.flightOf (s : State) (src : Option CoreId) (dst : Option TileId) (p : Packet) (st : FlightSt) : Flight :=
  { id := s.fresh, src := src, dst := dst, pkt := p, st := st, tries := 0, tag := s.packetTag src dst p, gen := (s.routed src dst).1,
    round := s.tagOf src dst p, sent := src.bind s.sentBy }

theorem State.sendSt_eq (s : State) (src : Option CoreId) (dst : Option TileId) (p : Packet) (st : FlightSt) :
    s.sendSt src dst p st =
      { s with tiles := (s.routed src dst).2.tiles, fresh := s.fresh + 1, net := s.net ++ [s.flightOf src dst p st] } := by
  unfold State.sendSt
  dsimp only
  rw [State.routed_frame]
  rfl

/-- What a tile's NI sends to its own tile, or what no core sends, moves no tile. -/
theorem State.sendSt_of_routed {src : Option CoreId} {dst : Option TileId} (h : (s.routed src dst).2 = s) (p : Packet) (st : FlightSt) :
    s.sendSt src dst p st = { s with fresh := s.fresh + 1, net := s.net ++ [s.flightOf src dst p st] } := by
  rw [State.sendSt_eq, h]

theorem State.sendBack_eq (s : State) (b : Issuer) (p : Packet) :
    s.sendBack b p = { s with fresh := s.fresh + 1, net := s.net ++ [s.flightOf none (some b.core.tile) p .transit] } :=
  State.sendSt_of_routed (State.routed_none s _) p .transit

/-! ### Tile tasks, sequence numbers, spawn indices (12 R351, R353) -/

theorem State.modTT_of_some {tt : TTId} {x : TileTask} (h : s.tts.get? tt = some x) (f : TileTask → TileTask) :
    s.modTT tt f = { s with tts := s.tts.set tt (f x) } := by
  simp [State.modTT, h]

theorem State.modTT_frame (s : State) (tt : TTId) (f : TileTask → TileTask) : s.modTT tt f = { s with tts := (s.modTT tt f).tts } := by
  unfold State.modTT
  split <;> rfl

theorem State.get?_modTT (s : State) (tt k : TTId) (f : TileTask → TileTask) :
    (s.modTT tt f).tts.get? k = if k = tt then (s.tts.get? tt).map f else s.tts.get? k := by
  unfold State.modTT
  split
  next h =>
    split
    next hk => rw [hk, h]; rfl
    next => rfl
  next x h => rw [Map.get?_set, h]; rfl

theorem State.modTT_start (s : State) (tt : TTId) (f : TileTask → TileTask) : (start s).modTT tt f = start (s.modTT tt f) := by
  show State.modTT { s with trapped := none } tt f = start (s.modTT tt f)
  unfold State.modTT
  dsimp only
  split <;> rfl

theorem State.takeSeq_start {key : Option Key} (h : s.takeSeq = some (key, t)) : (start s).takeSeq = some (key, start t) := by
  cases hn : s.here.numbered with
  | none =>
    have hn' : (start s).here.numbered = none := hn
    simp only [State.takeSeq, hn] at h
    simp only [State.takeSeq, hn']
    cases h
    rfl
  | some tt =>
    have hn' : (start s).here.numbered = some tt := hn
    simp only [State.takeSeq, hn] at h
    simp only [State.takeSeq, hn']
    cases hx : s.tts.get? tt with
    | none =>
      have hx' : (start s).tts.get? tt = none := hx
      simp only [hx] at h
      simp only [hx']
      cases h
      rfl
    | some x =>
      have hx' : (start s).tts.get? tt = some x := hx
      simp only [hx] at h
      simp only [hx']
      split at h
      · cases h
      next hne =>
        cases h
        refine (if_neg hne).trans ?_
        exact congrArg (fun u => some (_, u)) (State.modTT_start (s.modCtx s.cur fun c => { c with redo := none }) tt _)

theorem State.takeSpawn_start {tt : TTId} {r : Role} {k : BitVec 16} (h : s.takeSpawn tt r = some (k, t)) : (start s).takeSpawn tt r = some (k, start t) := by
  cases hx : s.tts.get? tt with
  | none =>
    simp only [State.takeSpawn, hx] at h
    cases h
  | some x =>
    have hx' : (start s).tts.get? tt = some x := hx
    simp only [State.takeSpawn, hx] at h
    simp only [State.takeSpawn, hx']
    split at h
    · cases h
    next hc =>
      cases h
      exact (if_neg hc).trans (congrArg (fun u => some (_, u)) (State.modTT_start _ _ _))

/-- A tile task apart from its counts of numbers and spawn indices. -/
def TileTask.uncounted (x : TileTask) : TileTask := { x with seqs := [], spawns := [] }

/-- What taking a number changes: the counts of tile tasks, and of the running context the number given back. -/
def TookNumber (s t : State) : Prop :=
  t = { s with ctxs := t.ctxs, tts := t.tts } ∧ t.here = { s.here with redo := t.here.redo } ∧ (∀ id, id ≠ s.cur → t.ctx id = s.ctx id) ∧
  ∀ tt, (t.tts.get? tt).map TileTask.uncounted = (s.tts.get? tt).map TileTask.uncounted

theorem TookNumber.refl (s : State) : TookNumber s s := ⟨rfl, rfl, fun _ _ => rfl, fun _ => rfl⟩

/-- Counting of a tile task. -/
theorem TookNumber.modTT {tt : TTId} {f : TileTask → TileTask} (hf : ∀ x, (f x).uncounted = x.uncounted) (h : TookNumber s t) : TookNumber s (t.modTT tt f) := by
  obtain ⟨heq, hhere, hctx, htts⟩ := h
  rw [State.modTT_frame]
  refine ⟨?_, hhere, hctx, fun k => ?_⟩
  · rw [heq]
  · rw [← htts]
    change ((t.modTT tt f).tts.get? k).map _ = _
    rw [State.get?_modTT]
    split
    next hk =>
      rw [hk, Option.map_map]
      exact congrFun (congrArg Option.map (funext hf)) _
    next => rfl

theorem TookNumber.takeSeq {key : Option Key} (h : s.takeSeq = some (key, t)) : TookNumber s t := by
  unfold State.takeSeq at h
  split at h
  · cases h
    exact .refl s
  · dsimp only at h
    split at h
    · cases h
      exact .refl s
    · split at h
      · cases h
      · cases h
        refine .modTT (fun _ => rfl) ⟨rfl, ?_, fun id hid => State.ctx_modCtx_ne _ _ hid, fun _ => rfl⟩
        rw [State.here_modCtx]

theorem TookNumber.takeSpawn {tt : TTId} {r : Role} {k : BitVec 16} (h : s.takeSpawn tt r = some (k, t)) : TookNumber s t := by
  unfold State.takeSpawn at h
  split at h
  · cases h
  · dsimp only at h
    split at h
    · cases h
    · cases h
      exact .modTT (fun _ => rfl) (.refl s)

theorem TookNumber.trans (h : TookNumber s t) (h' : TookNumber t u) : TookNumber s u := by
  obtain ⟨heq, hhere, hctx, htts⟩ := h
  obtain ⟨heq', hhere', hctx', htts'⟩ := h'
  have hcur : t.cur = s.cur := by rw [heq]
  refine ⟨?_, ?_, fun id hid => ?_, fun tt => (htts' tt).trans (htts tt)⟩
  · rw [heq', heq]
  · rw [hhere', hhere]
  · rw [hctx' id (hcur ▸ hid), hctx id hid]

end Sys2Proof.Machine

namespace Sys2Proof.Claims

open Sys2Proof.Machine

set_option Elab.async false

variable {s t u : State}

/-! ### Bytes and full/empty bits -/

theorem SameMemory.refl (s : State) : SameMemory s s := ⟨rfl, rfl, fun _ => ⟨rfl, rfl⟩⟩

theorem SameMemory.of_eq (hbm : t.hbm = s.hbm) (hhost : t.host = s.host) (htiles : t.tiles = s.tiles) : SameMemory s t := by
  refine ⟨hbm, hhost, fun x => ?_⟩
  rw [State.tile, State.tile, htiles]
  exact ⟨rfl, rfl⟩

theorem SameMemory.trans (h : SameMemory s t) (h' : SameMemory t u) : SameMemory s u := by
  obtain ⟨hbm, host, htiles⟩ := h
  obtain ⟨hbm', host', htiles'⟩ := h'
  exact ⟨hbm'.trans hbm, host'.trans host, fun x => ⟨(htiles' x).1.trans (htiles x).1, (htiles' x).2.trans (htiles x).2⟩⟩

/-- A tile's other fields move, its bytes and its full/empty bits stay. -/
theorem SameMemory.modTile {x : TileId} {f : Tile → Tile} (h : SameMemory s t) (hf : ∀ y, (f y).mem = y.mem ∧ (f y).full = y.full) : SameMemory s (t.modTile x f) := by
  refine h.trans ⟨rfl, rfl, fun y => ?_⟩
  by_cases hy : y = x
  · rw [hy, State.tile_modTile_self]
    exact hf _
  · rw [State.tile_modTile_ne _ _ hy]
    exact ⟨rfl, rfl⟩

theorem SameMemory.routed (s : State) (src : Option CoreId) (dst : Option TileId) : SameMemory s (s.routed src dst).2 := by
  refine ⟨?_, ?_, fun x => ?_⟩
  · rw [State.routed_frame]
  · rw [State.routed_frame]
  · rw [State.tile_routed]
    exact ⟨rfl, rfl⟩

theorem SameMemory.sendSt {src : Option CoreId} {dst : Option TileId} {p : Packet} {st : FlightSt} (h : SameMemory s t) :
    SameMemory s (t.sendSt src dst p st) := by
  rw [State.sendSt_eq]
  obtain ⟨-, -, htiles⟩ := SameMemory.routed t src dst
  exact h.trans ⟨rfl, rfl, htiles⟩

theorem SameMemory.sendIncr {src : Option CoreId} {c : CoreId} {e : Nat} (h : SameMemory s t) : SameMemory s (t.sendIncr src c e) := h.sendSt

/-- What sending packets changes: what travels, and the caches of NIs. -/
def SendsOnly (s t : State) : Prop := t = { s with tiles := t.tiles, net := t.net, fresh := t.fresh } ∧ SameMemory s t

theorem SendsOnly.refl (s : State) : SendsOnly s s := ⟨rfl, .refl s⟩

theorem SendsOnly.trans (h : SendsOnly s t) (h' : SendsOnly t u) : SendsOnly s u := by
  obtain ⟨ht, hmem⟩ := h
  obtain ⟨hu, hmem'⟩ := h'
  exact ⟨by rw [hu, ht], hmem.trans hmem'⟩

theorem SendsOnly.sendSt {src : Option CoreId} {dst : Option TileId} {p : Packet} {st : FlightSt} : SendsOnly s (s.sendSt src dst p st) :=
  ⟨by rw [State.sendSt_eq], (SameMemory.refl s).sendSt⟩

theorem SendsOnly.foldl {α : Type} {f : State → α → State} (l : List α) (hf : ∀ s a, SendsOnly s (f s a)) (s : State) : SendsOnly s (l.foldl f s) :=
  List.foldlRecOn l f (.refl s) fun t ht a _ => ht.trans (hf t a)

end Sys2Proof.Claims
end

section
/-! O31: the end of a task and the task units. A task that ends gives up its gang, its reservations, its earmarks and its messages, then its context is freed. -/

namespace Sys2Proof.Machine

open Sys2Proof.Claims

-- One proof after the other: what one needed of memory the next one uses again.
set_option Elab.async false

variable {s t u : State}

/-! ### The gang disbands (08 R268) -/

theorem State.disband_of_none {id : CtxId} (h : (s.ctx id).gang = none) : s.disband id = s := by
  simp only [State.disband, h]

/-- A gang's end changes which leader the cores follow, and nothing else of them. -/
theorem State.unfollow_frame (ts : List TileId) (s : State) :
    let t := ts.foldl (fun s t => s.modCore (t.core .ac) fun k => { k with follows := none }) s
    t = { s with cores := t.cores } ∧ ∀ c, t.core c = { s.core c with follows := (t.core c).follows } := by
  refine List.foldlRecOn (motive := fun t : State => t = { s with cores := t.cores } ∧ ∀ c, t.core c = { s.core c with follows := (t.core c).follows }) ts _
    ⟨rfl, fun _ => rfl⟩ fun t ⟨ht, hcores⟩ x _ => ⟨?_, fun c => ?_⟩
  · rw [ht]
    rfl
  · by_cases hc : c = x.core .ac
    · rw [hc, State.core_modCore_self, hcores]
    · rw [State.core_modCore_ne _ _ hc, hcores]

theorem State.disband_frame (s : State) (id : CtxId) :
    s.disband id = { s with ctxs := (s.disband id).ctxs, cores := (s.disband id).cores } ∧
    (s.disband id).ctx id = { s.ctx id with gang := none } ∧ (∀ x, x ≠ id → (s.disband id).ctx x = s.ctx x) ∧
    ∀ c, (s.disband id).core c = { s.core c with follows := ((s.disband id).core c).follows } := by
  unfold State.disband
  split
  next h => exact ⟨rfl, by rw [← h], fun _ _ => rfl, fun _ => rfl⟩
  next g h =>
    obtain ⟨ht, hcores⟩ := State.unfollow_frame g.members s
    dsimp only at ht hcores ⊢
    generalize g.members.foldl _ s = t at ht hcores
    have hctx (x : CtxId) : t.ctx x = s.ctx x := (congrArg (State.ctx · x) ht :)
    refine ⟨?_, ?_, fun x hx => ?_, hcores⟩
    · rw [ht]
      rfl
    · rw [State.ctx_modCtx_self, hctx]
    · rw [State.ctx_modCtx_ne _ _ hx, hctx]

end Sys2Proof.Machine

namespace Sys2Proof.Claims

open Sys2Proof.Machine

set_option Elab.async false

variable {s t u : State}

/-! ### Messages are released (06 R184, R186) -/

/-- What releasing messages changes: the channels of cores, what travels, and the caches of NIs. -/
def Releases (s t : State) : Prop :=
  t = { s with cores := t.cores, tiles := t.tiles, net := t.net, fresh := t.fresh, edges := t.edges, out := t.out } ∧ SameMemory s t ∧
  ∀ c, t.core c = { s.core c with chans := (t.core c).chans }

theorem Releases.refl (s : State) : Releases s s := ⟨rfl, .refl s, fun _ => rfl⟩

theorem Releases.trans (h : Releases s t) (h' : Releases t u) : Releases s u := by
  obtain ⟨ht, hmem, hcores⟩ := h
  obtain ⟨hu, hmem', hcores'⟩ := h'
  refine ⟨?_, hmem.trans hmem', fun c => ?_⟩
  · rw [hu, ht]
  · rw [hcores', hcores]

theorem Releases.modChan {c : CoreId} {ch : Nat} {f : Chan → Chan} : Releases s (s.modChan c ch f) := by
  refine ⟨rfl, .refl s, fun x => ?_⟩
  by_cases hx : x = c
  · rw [hx, State.modChan, State.core_modCore_self]
  · rw [State.modChan, State.core_modCore_ne _ _ hx]

theorem Releases.pushEdge {n : Nat} {f : PortFrame} : Releases s (s.pushEdge n f) := by
  unfold State.pushEdge
  split
  · exact .refl s
  · dsimp only
    split <;> exact ⟨rfl, .refl s, fun _ => rfl⟩

theorem Releases.sendSt {src : Option CoreId} {dst : Option TileId} {p : Packet} {st : FlightSt} : Releases s (s.sendSt src dst p st) := by
  refine ⟨?_, (SameMemory.refl s).sendSt, fun c => ?_⟩
  · rw [State.sendSt_eq]
  · rw [State.sendSt_eq]
    rfl

theorem Releases.releaseMsg {c : CoreId} {ch id : Nat} : Releases s (s.releaseMsg c ch id) := by
  unfold State.releaseMsg
  dsimp only
  split
  · exact .refl s
  · split
    · exact .trans .modChan .pushEdge
    · exact .trans .modChan .sendSt
    · exact .modChan

theorem Releases.foldl {α : Type} {f : State → α → State} (l : List α) (hf : ∀ s a, Releases s (f s a)) : Releases s (l.foldl f s) :=
  List.foldlRecOn l f (.refl s) fun t ht a _ => ht.trans (hf t a)

theorem Releases.releaseAll {c : CoreId} {uid : Nat} : Releases s (s.releaseAll c uid) :=
  .foldl _ fun _ _ => .foldl _ fun _ _ => .releaseMsg

end Sys2Proof.Claims

namespace Sys2Proof.Machine

open Sys2Proof.Claims

set_option Elab.async false

variable {s t u : State}

/-! ### A task ends (05 R165) -/

/-- A context without a task, at the level of its role. -/
def Ctx.freed (r : Role) : Ctx := { Ctx.init with level := if r = .steward then 3 else 0 }

/-- An activation gives up its reservations, earmarks and messages (05 R150; 06 R186). -/
def State.withoutTask (s : State) (c : CoreId) (uid : Nat) : State :=
  ((s.modCore c fun k => { k with resv := k.resv.filter fun r => r.uid ≠ uid }).modTile c.tile fun x => x.unearmark uid).releaseAll c uid

/-- What a tile task takes from a task of its that ends: flags, and a number to take again (03 R99; 12 R353). -/
def State.settleTask (s : State) (tt : Option TTId) (r : Role) (keep : Bool) (c : Ctx) : State :=
  match tt with
  | none => s
  | some tt => (if keep then s.orFlags tt c.flags else s).giveBack tt r c.redo

theorem State.endIn_of_none {id : CtxId} (h : (s.ctx id).task = none) (keep : Bool) : s.endIn id keep = (s.disband id).setCtx id (.freed id.core.r) := by
  obtain ⟨-, hctx, -⟩ := State.disband_frame s id
  unfold State.endIn
  dsimp only
  rw [hctx, h]
  rfl

theorem State.endIn_of_some {id : CtxId} {k : Task} (h : (s.ctx id).task = some k) (keep : Bool) :
    s.endIn id keep = (((s.disband id).withoutTask id.core k.uid).settleTask k.tt id.core.r keep (s.ctx id)).setCtx id (.freed id.core.r) := by
  obtain ⟨-, hctx, -⟩ := State.disband_frame s id
  unfold State.endIn
  dsimp only
  rw [hctx]
  dsimp only
  rw [h]
  dsimp only
  unfold State.settleTask
  cases k.tt <;> rfl

theorem State.withoutTask_frame (s : State) (c : CoreId) (uid : Nat) :
    let t := s.withoutTask c uid
    t = { s with cores := t.cores, tiles := t.tiles, net := t.net, fresh := t.fresh, edges := t.edges, out := t.out } ∧ SameMemory s t ∧
    (t.core c).resv = (s.core c).resv.filter fun r => r.uid ≠ uid := by
  have hgiven : SameMemory s ((s.modCore c fun k => { k with resv := k.resv.filter fun r => r.uid ≠ uid }).modTile c.tile fun x => x.unearmark uid) :=
    .modTile ⟨rfl, rfl, fun _ => ⟨rfl, rfl⟩⟩ fun _ => ⟨rfl, rfl⟩
  obtain ⟨ht, hmem, hcores⟩ : Releases _ (s.withoutTask c uid) := .releaseAll
  refine ⟨?_, hgiven.trans hmem, ?_⟩
  · rw [ht]
    rfl
  · rw [hcores, State.core_modTile, State.core_modCore_self]

theorem State.giveBack_frame (s : State) (tt : TTId) (r : Role) (n : Option Nat) : s.giveBack tt r n = { s with tts := (s.giveBack tt r n).tts } := by
  unfold State.giveBack
  split
  · rfl
  · exact State.modTT_frame ..

theorem State.settleTask_frame (s : State) (tt : Option TTId) (r : Role) (keep : Bool) (c : Ctx) :
    s.settleTask tt r keep c = { s with tts := (s.settleTask tt r keep c).tts } := by
  unfold State.settleTask
  split
  · rfl
  · rw [State.giveBack_frame]
    split
    · rw [State.orFlags, State.modTT_frame]
    · rfl

/-- A tile task after a task of its has ended. -/
theorem State.get?_settleTask {tt : TTId} {x : TileTask} (h : s.tts.get? tt = some x) (r : Role) (keep : Bool) (c : Ctx) :
    let y : TileTask := { x with flags := if keep then x.flags ||| c.flags else x.flags }
    (c.redo = none → (s.settleTask (some tt) r keep c).tts.get? tt = some y) ∧
    ∀ n, c.redo = some n →
      (s.settleTask (some tt) r keep c).tts.get? tt = some (if x.seqOf r = n then { y with seqs := setAt y.seqs r.code (n - 1) } else y) := by
  intro y
  have hflags : (if keep then s.orFlags tt c.flags else s).tts.get? tt = some y := by
    cases keep
    · exact h
    · simp [State.orFlags, State.get?_modTT, h, y]
  constructor
  · intro hredo
    simp only [State.settleTask, State.giveBack, hredo]
    exact hflags
  · intro n hredo
    simp only [State.settleTask, State.giveBack, hredo, State.get?_modTT, if_true, hflags, Option.map_some]
    rfl

/-- What the end of a task leaves as it was, beside other contexts. -/
def EndsOnly (s t : State) : Prop :=
  t = { s with ctxs := t.ctxs, cores := t.cores, tiles := t.tiles, tts := t.tts, net := t.net, fresh := t.fresh, edges := t.edges, out := t.out } ∧
  SameMemory s t

theorem EndsOnly.of_tasks {m : Map CtxId Ctx} {c : Map CoreId Core} {l : Map TTId TileTask} (ht : t = { s with ctxs := m, cores := c, tts := l }) :
    EndsOnly s t := by
  subst ht
  exact ⟨rfl, .refl s⟩

theorem EndsOnly.trans (h : EndsOnly s t) (h' : EndsOnly t u) : EndsOnly s u := by
  obtain ⟨ht, hmem⟩ := h
  obtain ⟨hu, hmem'⟩ := h'
  refine ⟨?_, hmem.trans hmem'⟩
  rw [hu, ht]

theorem EndsOnly.withoutTask (s : State) (c : CoreId) (uid : Nat) : EndsOnly s (s.withoutTask c uid) := by
  obtain ⟨ht, hmem, -⟩ := State.withoutTask_frame s c uid
  refine ⟨?_, hmem⟩
  rw [ht]

/-- The end of a task changes no other context, no home and no memory. -/
theorem State.endIn_frame (s : State) (id : CtxId) (keep : Bool) :
    EndsOnly s (s.endIn id keep) ∧ (s.endIn id keep).ctx id = .freed id.core.r ∧ ∀ x, x ≠ id → (s.endIn id keep).ctx x = s.ctx x := by
  obtain ⟨hd, -, hothers, -⟩ := State.disband_frame s id
  have hdisbanded : EndsOnly s (s.disband id) := .of_tasks hd
  cases h : (s.ctx id).task with
  | none =>
    rw [State.endIn_of_none h]
    exact ⟨hdisbanded.trans (.of_tasks rfl), State.ctx_setCtx_self .., fun x hx => (State.ctx_setCtx_ne _ _ hx).trans (hothers x hx)⟩
  | some k =>
    rw [State.endIn_of_some h]
    obtain ⟨hl, -⟩ := State.withoutTask_frame (s.disband id) id.core k.uid
    have hlosses := EndsOnly.withoutTask (s.disband id) id.core k.uid
    generalize (s.disband id).withoutTask id.core k.uid = l at hl hlosses ⊢
    have hsettle := State.settleTask_frame l k.tt id.core.r keep (s.ctx id)
    generalize l.settleTask k.tt id.core.r keep (s.ctx id) = e at hsettle ⊢
    have hctxs : e.ctxs = (s.disband id).ctxs := (congrArg State.ctxs hsettle :).trans (congrArg State.ctxs hl :)
    have hctx (x : CtxId) : e.ctx x = (s.disband id).ctx x := by rw [State.ctx, hctxs]; rfl
    exact ⟨hdisbanded.trans (hlosses.trans (.trans (.of_tasks hsettle) (.of_tasks rfl))), State.ctx_setCtx_self ..,
      fun x hx => (State.ctx_setCtx_ne _ _ hx).trans ((hctx x).trans (hothers x hx))⟩

theorem taskEnds : Claims.TaskEnds := by
  intro s id keep
  obtain ⟨⟨ht, hbm, host, htiles⟩, hself, hothers⟩ := State.endIn_frame s id keep
  refine ⟨hself, hothers, ?_, hbm, host, fun x => (htiles x).1, fun k hk => ?_⟩
  · rw [ht]
  obtain ⟨hd, -, -, hcores⟩ := State.disband_frame s id
  obtain ⟨hl, -, hresv⟩ := State.withoutTask_frame (s.disband id) id.core k.uid
  have hsettle := State.settleTask_frame ((s.disband id).withoutTask id.core k.uid) k.tt id.core.r keep (s.ctx id)
  rw [State.endIn_of_some hk]
  constructor
  · rw [State.core_setCtx, hsettle]
    change (State.core ((s.disband id).withoutTask id.core k.uid) id.core).resv = _
    rw [hresv, hcores]
  · intro tt x htt hx
    have hx' : ((s.disband id).withoutTask id.core k.uid).tts.get? tt = some x := by rw [hl, hd]; exact hx
    rw [htt]
    exact State.get?_settleTask hx' id.core.r keep (s.ctx id)

/-! ### Words (05 Tables 5.2 to 5.4) -/

theorem extractLsb'_upper_eq_zero {n l : Nat} (h : n + l = 64) (w : Word) : w.extractLsb' n l = 0 ↔ w.toNat < 2 ^ n := by
  have hw : w.toNat < 2 ^ n * 2 ^ l := by
    rw [← Nat.pow_add, h]
    exact w.isLt
  rw [BitVec.toNat_eq, BitVec.extractLsb'_toNat, Nat.shiftRight_eq_div_pow, Nat.mod_eq_of_lt (Nat.div_lt_of_lt_mul hw)]
  exact Nat.div_eq_zero_iff_lt (Nat.two_pow_pos n)

theorem toNat_extractLsb'_low (w : Word) (l : Nat) : (w.extractLsb' 0 l).toNat = w.toNat % 2 ^ l := by
  rw [BitVec.extractLsb'_toNat, Nat.shiftRight_zero]

theorem toNat_extractLsb'_eq (w : Word) (n l : Nat) : (w.extractLsb' n l).toNat = w.toNat / 2 ^ n % 2 ^ l := by
  rw [BitVec.extractLsb'_toNat, Nat.shiftRight_eq_div_pow]

/-! ### Completing a unit (04 R110, R136) -/

/-- Where a jump of a context with a loop leads (04 R136). -/
def Loop.target (l : Loop) (next : Word) : Word := if l.active = true ∧ next = l.stop ∧ 1 < l.count.toNat then l.start else next

/-- The loop after a jump (04 R136). -/
def Loop.afterJump (l : Loop) (next : Word) : Loop :=
  if l.active = false then l
  else if next = l.stop then if 1 < l.count.toNat then { l with count := l.count - 1 } else { l with active := false }
  else if next < l.start ∨ l.stop < next then { l with active := false }
  else l

theorem Ctx.jump_eq (c : Ctx) (next : Word) : c.jump next = { c with pc := c.loop.target next, loop := c.loop.afterJump next } := by
  unfold Ctx.jump Loop.target Loop.afterJump
  split
  next h => simp [h]
  next h =>
    split
    next hstop => split <;> simp [*]
    next hstop => split <;> simp [*]

theorem Ctx.complete_eq (c : Ctx) (level : BitVec 2) (next : Word) :
    c.complete level next = { c with count := if level = 0 then c.count + 1 else c.count, pc := c.loop.target next, loop := c.loop.afterJump next,
                                     phase := .run, waited := 0 } := by
  rw [Ctx.complete, Ctx.jump_eq, Ctx.counted]
  split <;> rfl

theorem Ctx.complete_redo (c : Ctx) (r : Option Nat) (level : BitVec 2) (next : Word) :
    ({ c with redo := r } : Ctx).complete level next = { c.complete level next with redo := r } := by
  rw [Ctx.complete_eq, Ctx.complete_eq]

theorem Ctx.complete_background (c : Ctx) (b : Bool) (level : BitVec 2) (next : Word) :
    ({ c with background := b } : Ctx).complete level next = { c.complete level next with background := b } := by
  rw [Ctx.complete_eq, Ctx.complete_eq]

theorem Ctx.complete_uim (c : Ctx) (b : Bool) (level : BitVec 2) (next : Word) :
    ({ c with uim := b } : Ctx).complete level next = { c.complete level next with uim := b } := by
  rw [Ctx.complete_eq, Ctx.complete_eq]

theorem Ctx.setReg_uim (c : Ctx) (b : Bool) (d : BitVec 5) (v : Word) : ({ c with uim := b } : Ctx).setReg d v = { c.setReg d v with uim := b } := by
  unfold Ctx.setReg
  repeat' split
  all_goals rfl

theorem Ctx.setReg_redo (c : Ctx) (r : Option Nat) (d : BitVec 5) (v : Word) : ({ c with redo := r } : Ctx).setReg d v = { c.setReg d v with redo := r } := by
  unfold Ctx.setReg
  repeat' split
  all_goals rfl

theorem Ctx.level_setReg (c : Ctx) (d : BitVec 5) (v : Word) : (c.setReg d v).level = c.level := by
  unfold Ctx.setReg
  repeat' split
  all_goals rfl

/-! ### Waiting-task entries (05 R146, R166, R167) -/

theorem State.core_modEntry_ne (s : State) {c x : CoreId} (e : Nat) (f : WEntry → WEntry) (h : x ≠ c) : (s.modEntry c e f).core x = s.core x :=
  State.core_modCore_ne _ _ h

theorem State.entry_modEntry (s : State) (c : CoreId) (e n : Nat) (f : WEntry → WEntry) :
    ((s.modEntry c e f).core c).entry n = if n = e then f ((s.core c).entry e) else (s.core c).entry n := by
  rw [State.modEntry, State.core_modCore_self]
  by_cases h : n = e
  · rw [if_pos h, h]
    exact Map.getD_set_self ..
  · rw [if_neg h]
    exact Map.getD_set_ne _ _ _ h

/-- One entry of the unit's core becomes x, and no other entry changes (05 Table 5.2). -/
def EntryBecomes (s t : State) (e : Nat) (x : WEntry) : Prop :=
  (t.core s.cur.core).entry e = x ∧ (∀ n, n ≠ e → (t.core s.cur.core).entry n = (s.core s.cur.core).entry n) ∧ ∀ k, k ≠ s.cur.core → t.core k = s.core k

/-- A unit that has taken at most a number changes an entry and completes. -/
theorem EntryBecomes.of_tookNumber (hu : TookNumber (start s) u) {e : Nat} {f : WEntry → WEntry} (ht : t = { u.modEntry u.cur.core e f with ctxs := t.ctxs }) :
    EntryBecomes s t e (f ((s.core s.cur.core).entry e)) := by
  obtain ⟨hu, -⟩ := hu
  have hcur : u.cur = s.cur := (congrArg State.cur hu :)
  have hcore (k : CoreId) : u.core k = s.core k := (congrArg (State.core · k) hu :)
  have hcores (k : CoreId) : t.core k = (u.modEntry s.cur.core e f).core k := by rw [ht, hcur]; rfl
  refine ⟨?_, fun n hn => ?_, fun k hk => ?_⟩
  · rw [hcores, State.entry_modEntry, if_pos rfl, hcore]
  · rw [hcores, State.entry_modEntry, if_neg hn, hcore]
  · rw [hcores, State.core_modEntry_ne _ _ _ hk, hcore]

/-- A unit that has taken at most a number, then changed no context, no home and no memory, completes. -/
theorem wentOn_modCtx (hu : TookNumber (start s) u) (ht : t = { u with cores := t.cores, tiles := t.tiles, tts := t.tts, net := t.net, fresh := t.fresh })
    (hmem : SameMemory u t) {g : Ctx → Ctx} {c : Ctx} (hg : ∀ r, g { s.here with redo := r } = { c with redo := r }) : WentOn s (t.modCtx t.cur g) c := by
  obtain ⟨hu, hhere, hctx, -⟩ := hu
  obtain ⟨hbm, host, htiles⟩ := hmem
  have hcur : t.cur = s.cur := (congrArg State.cur ht :).trans (congrArg State.cur hu :)
  have hthere : t.here = { s.here with redo := u.here.redo } := by
    have h : t.here = u.here := (congrArg State.here ht :)
    rw [h, hhere]
    rfl
  have htile (x : TileId) : u.tile x = s.tile x := (congrArg (State.tile · x) hu :)
  refine ⟨?_, fun id hid => ?_, ?_, ?_, ?_, fun x => ?_⟩
  · rw [State.here_modCtx, hthere, hg]
  · exact (State.ctx_modCtx_ne _ _ (hcur ▸ hid)).trans ((congrArg (State.ctx · id) ht :).trans (hctx id hid))
  · rw [State.modCtx, ht, hu]
    rfl
  · exact hbm.trans (congrArg State.hbm hu :)
  · exact host.trans (congrArg State.host hu :)
  · exact htile x ▸ htiles x

/-- A unit that has taken at most a number changes cores and completes. -/
theorem wentOn_finish (hu : TookNumber (start s) u) {len : Nat} (ht : t = { u with cores := t.cores }) : WentOn s (t.finish len) (goneOn s.here len) := by
  refine wentOn_modCtx hu ?_ ?_ fun r => Ctx.complete_redo s.here r s.here.level _
  · rw [ht]
  · rw [ht]
    exact .refl u

/-- A unit that has taken at most a number changes cores and writes a register. -/
theorem wentOn_finishReg (hu : TookNumber (start s) u) {len : Nat} {d : BitVec 5} {v : Word} (ht : t = { u with cores := t.cores }) :
    WentOn s (t.finishReg len d v) ((s.here.setReg d v).complete s.here.level (s.here.pc + BitVec.ofNat 64 len)) := by
  refine wentOn_modCtx hu ?_ ?_ fun r => ?_
  · rw [ht]
  · rw [ht]
    exact .refl u
  · rw [Ctx.setReg_redo]
    exact Ctx.complete_redo _ r _ _

/-- A unit that changes nothing but cores beside its register. -/
theorem finishReg_of_cores (ht : t = { start s with cores := t.cores }) (len : Nat) (d : BitVec 5) (v : Word) :
    (t.finishReg len d v).here = (s.here.setReg d v).complete s.here.level (s.here.pc + BitVec.ofNat 64 len) ∧
    OnlyHere s { t.finishReg len d v with cores := s.cores } := by
  rw [ht]
  exact ⟨State.here_modCtx .., rfl, fun id hid => State.ctx_modCtx_ne (start s) (fun c => (c.setReg d v).complete c.level (c.pc + BitVec.ofNat 64 len)) hid⟩

/-- Whether another tile task has armed an entry (05 R166, R167). -/
theorem armedByOther_iff (s : State) (e : Nat) :
    s.armedByOther e = true ↔ ¬(((s.core s.cur.core).entry e).armed = false ∨ ((s.core s.cur.core).entry e).owner = s.ownTT) := by
  rw [not_or, Bool.not_eq_false, State.armedByOther, Bool.and_eq_true, decide_eq_true_eq]
  rfl

/-- The entry that an arm word names (05 Table 5.2). -/
theorem armEntry_eq (w : Word) : armEntry w = w.toNat % 256 := toNat_extractLsb'_low w 8

/-- An arm word that breaks none of the tests of Table 5.2. -/
theorem armWord_bad_iff (s : State) (w : Word) :
    (s.here.isNotice || !armZero w || decide (armThr w = 0) || s.armedByOther (armEntry w)) = true ↔
    ¬(s.here.isNotice = false ∧ w.extractLsb' 48 16 = 0 ∧ w.getLsbD 15 = false ∧ w.extractLsb' 16 32 ≠ 0 ∧
      (((s.core s.cur.core).entry (w.toNat % 256)).armed = false ∨ ((s.core s.cur.core).entry (w.toNat % 256)).owner = s.ownTT)) := by
  simp only [Bool.or_eq_true, armedByOther_iff, armEntry_eq, armZero, Bool.not_eq_true', Bool.and_eq_false_iff, decide_eq_true_eq, decide_eq_false_iff_not,
    Bool.not_eq_false']
  simp only [not_and_or, armThr, Bool.not_eq_false, Ne, not_not, or_assoc]

theorem State.whenSeq_of_some {key : Option Key} (h : s.takeSeq = some (key, t)) (k : Option Key → State → State) : s.whenSeq k = k key t := by
  simp only [State.whenSeq, h]

/-- An entry that an arm word arms (05 R166, Table 5.2). -/
def State.armEntryOf (s : State) (w arg : Word) (key : Option Key) (index : BitVec 16) (e : WEntry) : WEntry :=
  { e with armed := true, thr := armThr w, cls := armClass w, join := armJoin w, arg := arg, owner := s.ownTT, seq := (key.map Key.seq).getD 0, index := index }

/-- A class of the unit's core takes a priority, when the word says so (05 R171). -/
def State.reprioritised (s : State) (write : Bool) (n prio : Nat) : State :=
  if write then s.modCore s.cur.core fun k => { k with classes := k.classes.set n { (s.core s.cur.core).classes.getD n Class.invalid with prio := prio } } else s

theorem State.modCtx_modCtx (s : State) (id : CtxId) (f g : Ctx → Ctx) : (s.modCtx id f).modCtx id g = s.setCtx id (g (f (s.ctx id))) := by
  unfold State.modCtx
  rw [State.ctx_setCtx_self]
  unfold State.setCtx
  rw [Map.set_set]

/-! ### The task units (05 R164 to R167, R170 to R174) -/

section

variable (hp : Passes s onTile 0 [])

include hp

theorem exec_endTask : exec .endTask s = .next ((start s).endIn s.cur true) := unit_of_passes (f := formEndTask) hp

theorem exec_compactEnd : exec .compactEnd s = .next ((start s).endIn s.cur true) := unit_of_passes (f := formCompactEnd) hp

theorem exec_tid {k : Task} (hk : s.here.task = some k) (d : BitVec 5) :
    exec (.tid d) s = .next ((start s).finishReg 4 d (BitVec.ofNat 64 (k.kind.code * 2 ^ 24 + k.entry.toNat * 2 ^ 8 + s.cur.c * 2 ^ 6 + k.cls))) := by
  have hword : taskWord s.here s.cur.c = BitVec.ofNat 64 (k.kind.code * 2 ^ 24 + k.entry.toNat * 2 ^ 8 + s.cur.c * 2 ^ 6 + k.cls) := by
    simp only [taskWord, hk]
    rfl
  rw [← hword]
  exact unit_of_passes (f := formTid d) hp

theorem exec_prio_bad {a d : BitVec 5} (h : s.here.reg a &&& ~~~0x873F ≠ 0) : exec (.prio a d) s = .next ((start s).trap causeProt (s.here.reg a)) :=
  (unit_of_passes (f := formPrio a d) hp).trans (congrArg _ (if_pos h))

omit hp in
/-- The fields of a prio word (05 Table 5.3). -/
theorem prioWord_fields (w : Word) : (w.extractLsb' 0 6).toNat = w.toNat % 64 ∧ (w.extractLsb' 8 3).toNat = w.toNat / 256 % 8 :=
  ⟨toNat_extractLsb'_low w 6, toNat_extractLsb'_eq w 8 3⟩

theorem exec_prio {a d : BitVec 5} (h : s.here.reg a &&& ~~~0x873F = 0) :
    let w := s.here.reg a
    let n := w.toNat % 64
    let old := (s.core s.cur.core).classes.getD n Class.invalid
    exec (.prio a d) s = .next (((start s).reprioritised (w.getLsbD 15) n (w.toNat / 256 % 8)).finishReg 4 d (BitVec.ofNat 64 old.prio)) := by
  dsimp only
  obtain ⟨hn, hprio⟩ := prioWord_fields (s.here.reg a)
  have hunit : exec (.prio a d) s = .next _ := unit_of_passes (f := formPrio a d) hp
  refine (hunit.trans (congrArg _ (if_neg (not_not_intro h)))).trans ?_
  rw [← hn, ← hprio]
  rfl

theorem exec_defer_bad {a : BitVec 5} (h : 2 ≤ (s.here.reg a).toNat) : exec (.defer a) s = .next ((start s).trap causeProt (s.here.reg a)) :=
  (unit_of_passes (f := formDefer a) hp).trans (congrArg _ (if_pos (mt (extractLsb'_upper_eq_zero (n := 1) rfl _).mp (Nat.not_lt.mpr h))))

theorem exec_defer {a : BitVec 5} (h : (s.here.reg a).toNat < 2) :
    exec (.defer a) s = .next ((start s).setCtx s.cur { goneOn s.here 4 with background := (s.here.reg a).getLsbD 0 }) := by
  have hunit : exec (.defer a) s = .next _ := unit_of_passes (f := formDefer a) hp
  refine (hunit.trans (congrArg _ (if_neg (not_not_intro ((extractLsb'_upper_eq_zero (n := 1) rfl _).mpr h))))).trans (congrArg _ ?_)
  exact (State.modCtx_modCtx ..).trans (congrArg (State.setCtx _ _) (Ctx.complete_background s.here _ s.here.level _))

theorem exec_disarm_bad {a d : BitVec 5} (h : 256 ≤ (s.here.reg a).toNat ∨ s.armedByOther ((s.here.reg a).toNat % 256) = true) :
    exec (.disarm a d) s = .next ((start s).trap causeProt (s.here.reg a)) := by
  refine (unit_of_passes (f := formDisarm a d) hp).trans (congrArg _ (if_pos ?_))
  rw [← armEntry_eq] at h
  exact h.imp_left fun h => mt (extractLsb'_upper_eq_zero (n := 8) rfl _).mp (Nat.not_lt.mpr h)

theorem exec_disarm {a d : BitVec 5} (h : (s.here.reg a).toNat < 256) (hmine : s.armedByOther ((s.here.reg a).toNat % 256) = false) :
    let e := (s.here.reg a).toNat % 256
    exec (.disarm a d) s = .next (((start s).modEntry s.cur.core e fun x => { x with counter := 0, armed := false }).finishReg 4 d
      (((s.core s.cur.core).entry e).counter.setWidth 64)) := by
  dsimp only
  have hunit : exec (.disarm a d) s = .next _ := unit_of_passes (f := formDisarm a d) hp
  rw [← armEntry_eq] at hmine ⊢
  refine hunit.trans (congrArg _ (if_neg ?_))
  rintro (hword | hother)
  · exact hword ((extractLsb'_upper_eq_zero (n := 8) rfl _).mpr h)
  · exact Bool.noConfusion (hmine.symm.trans hother)

theorem exec_arm_bad {b a : BitVec 5} (h : (s.here.isNotice || !armZero (s.here.reg a) || decide (armThr (s.here.reg a) = 0) || s.armedByOther (armEntry (s.here.reg a))) = true) :
    exec (.arm b a) s = .next ((start s).trap causeProt (s.here.reg a)) :=
  (unit_of_passes (f := formArm b a) hp).trans (congrArg _ (if_pos h))

theorem exec_arm_threshold {b a : BitVec 5} {key : Option Key}
    (h : (s.here.isNotice || !armZero (s.here.reg a) || decide (armThr (s.here.reg a) = 0) || s.armedByOther (armEntry (s.here.reg a))) ≠ true)
    (hjoin : armJoin (s.here.reg a) = false) (hseq : (start s).takeSeq = some (key, u)) :
    exec (.arm b a) s = .next ((u.modEntry u.cur.core (armEntry (s.here.reg a)) (u.armEntryOf (s.here.reg a) (u.here.reg b) key 0)).finish 4) := by
  have hunit : exec (.arm b a) s = .next _ := unit_of_passes (f := formArm b a) hp
  exact hunit.trans (congrArg _ ((if_neg h).trans ((if_neg (Bool.eq_false_iff.mp hjoin)).trans (State.whenSeq_of_some hseq _))))

theorem exec_arm_join {b a : BitVec 5} {key : Option Key} {tt : TTId} {k : BitVec 16}
    (h : (s.here.isNotice || !armZero (s.here.reg a) || decide (armThr (s.here.reg a) = 0) || s.armedByOther (armEntry (s.here.reg a))) ≠ true)
    (hjoin : armJoin (s.here.reg a) = true) (htt : s.ownTT = some tt) (hspawn : (start s).takeSpawn tt s.cur.core.r = some (k, t)) (hseq : t.takeSeq = some (key, u)) :
    exec (.arm b a) s = .next ((u.modEntry u.cur.core (armEntry (s.here.reg a)) (u.armEntryOf (s.here.reg a) (u.here.reg b) key k)).finish 4) := by
  have hunit : exec (.arm b a) s = .next _ := unit_of_passes (f := formArm b a) hp
  refine hunit.trans (congrArg _ ((if_neg h).trans ((if_pos hjoin).trans ?_)))
  have htt' : (start s).ownTT = some tt := htt
  have hcore : (start s).cur.core.r = s.cur.core.r := rfl
  rw [htt', Option.bind_some, hcore, hspawn]
  refine (if_neg ?_).trans (State.whenSeq_of_some hseq _)
  rw [hseq]
  exact Bool.false_ne_true

theorem exec_uiret_bad (h : s.here.uih = false) : exec .uiret s = .next ((start s).trap causeIllegal formUiret.bits) := by
  obtain ⟨-, hrole, -⟩ := hp
  have htile : s.cur.core.r ≠ .steward := fun h => by simp [onTile, h] at hrole
  exact if_pos ⟨h, htile⟩

end

section

variable (hp : Passes s onTile 0 [5])

include hp

theorem exec_uimask_bad {a d : BitVec 5} (h : 2 ≤ (s.here.reg a).toNat) : exec (.uimask a d) s = .next ((start s).trap causeProt (s.here.reg a)) :=
  (unit_of_passes (f := formUimask a d) hp).trans (congrArg _ (if_pos (mt (extractLsb'_upper_eq_zero (n := 1) rfl _).mp (Nat.not_lt.mpr h))))

theorem exec_uimask {a d : BitVec 5} (h : (s.here.reg a).toNat < 2) :
    let c := s.here
    exec (.uimask a d) s = .next ((start s).setCtx s.cur
      { (c.setReg d (if c.uim then 1 else 0)).complete c.level (c.pc + 4) with uim := (c.reg a).getLsbD 0 }) := by
  intro c
  have hunit : exec (.uimask a d) s = .next _ := unit_of_passes (f := formUimask a d) hp
  refine (hunit.trans (congrArg _ (if_neg (not_not_intro ((extractLsb'_upper_eq_zero (n := 1) rfl _).mpr h))))).trans (congrArg _ ?_)
  refine (State.modCtx_modCtx ..).trans (congrArg (State.setCtx _ _) ?_)
  rw [Ctx.setReg_uim, Ctx.complete_uim]
  rfl

theorem exec_uiret (h : s.here.uih = true) :
    let c := s.here
    exec .uiret s = .next ((start s).setCtx s.cur (({ c with loop := c.uloop, uih := false } : Ctx).complete c.level c.upc)) := by
  intro c
  have hunit : ¬(s.here.uih = false ∧ s.cur.core.r ≠ .steward) := fun hc => Bool.noConfusion (hc.1.symm.trans h)
  refine (if_neg hunit).trans ((unit_of_passes (f := formUiret) hp).trans (congrArg _ (congrArg (State.setCtx _ _) ?_)))
  change ({ Ctx.jump { c.counted c.level with loop := c.uloop, uih := false } c.upc with phase := .run, waited := 0 } : Ctx) = _
  unfold Ctx.complete Ctx.counted
  split <;> rfl

end

theorem TookNumber.ownTT (h : TookNumber s u) : u.ownTT = s.ownTT := by
  obtain ⟨-, hhere, -⟩ := h
  rw [State.ownTT, hhere]
  rfl

theorem TookNumber.here_reg (h : TookNumber s u) (n : BitVec 5) : u.here.reg n = s.here.reg n := by
  obtain ⟨-, hhere, -⟩ := h
  rw [hhere]
  rfl

/-- A unit that arms an entry, after it has taken its number (05 R166). -/
theorem armed_of_tookNumber (hu : TookNumber (start s) u) (b : BitVec 5) (w : Word) (key : Option Key) (index : BitVec 16) :
    let t := (u.modEntry u.cur.core (armEntry w) (u.armEntryOf w (u.here.reg b) key index)).finish 4
    WentOn s t (goneOn s.here 4) ∧
    EntryBecomes s t (w.toNat % 256)
      { (s.core s.cur.core).entry (w.toNat % 256) with
        armed := true, thr := w.extractLsb' 16 32, cls := (w.extractLsb' 8 6).toNat, join := w.getLsbD 14, arg := s.here.reg b, owner := s.ownTT,
        seq := (key.map Key.seq).getD 0, index := index } := by
  refine ⟨wentOn_finish hu rfl, ?_⟩
  have hput := EntryBecomes.of_tookNumber hu (e := armEntry w) (f := u.armEntryOf w (u.here.reg b) key index)
    (t := (u.modEntry u.cur.core (armEntry w) (u.armEntryOf w (u.here.reg b) key index)).finish 4) rfl
  rw [armEntry_eq, State.armEntryOf, hu.ownTT, hu.here_reg] at hput
  rw [armEntry_eq, hu.here_reg]
  exact hput

/-- What prio changes beside its register: the class that its word names (05 R171). -/
theorem reprioritised_frame (s : State) (write : Bool) (n prio : Nat) :
    let t := s.reprioritised write n prio
    let old := (s.core s.cur.core).classes.getD n Class.invalid
    t = { s with cores := t.cores } ∧ (∀ k, k ≠ s.cur.core → t.core k = s.core k) ∧
    (t.core s.cur.core).classes.getD n Class.invalid = (if write then { old with prio := prio } else old) ∧
    ∀ m, m ≠ n → (t.core s.cur.core).classes.getD m Class.invalid = (s.core s.cur.core).classes.getD m Class.invalid := by
  unfold State.reprioritised
  cases write with
  | false => exact ⟨rfl, fun _ _ => rfl, rfl, fun _ _ => rfl⟩
  | true =>
    rw [if_pos rfl]
    refine ⟨rfl, fun k hk => State.core_modCore_ne _ _ hk, ?_, fun m hm => ?_⟩
    · rw [State.core_modCore_self, Map.getD_set_self, if_pos rfl]
    · rw [State.core_modCore_self]
      exact Map.getD_set_ne _ _ _ hm

theorem taskUnits : Claims.TaskUnits := by
  intro a b d s hp c w e old mine armed
  have hbad : ¬(c.isNotice = false ∧ w.extractLsb' 48 16 = 0 ∧ w.getLsbD 15 = false ∧ w.extractLsb' 16 32 ≠ 0 ∧ mine) ↔ _ := (armWord_bad_iff s w).symm
  have hother : s.armedByOther e = true ↔ ¬mine := armedByOther_iff s e
  refine ⟨exec_endTask hp, exec_compactEnd hp, fun k hk => exec_tid hp hk d, exec_prio_bad hp, fun hw => ?_, exec_defer hp, exec_defer_bad hp,
    fun hp5 => ⟨exec_uimask hp5, exec_uimask_bad hp5, exec_uiret hp5⟩, exec_uiret_bad hp, fun hw hmine => ?_, fun hw => ?_, ?_⟩
  case refine_1 =>
    obtain ⟨ht, hcores, hclass, hclasses⟩ := reprioritised_frame (start s) (w.getLsbD 15) (w.toNat % 64) (w.toNat / 256 % 8)
    obtain ⟨hhere, honly⟩ := finishReg_of_cores ht 4 d (BitVec.ofNat 64 ((s.core s.cur.core).classes.getD (w.toNat % 64) Class.invalid).prio)
    exact ⟨_, exec_prio hp hw, hhere, honly, hcores, hclass, hclasses⟩
  case refine_2 =>
    have hu := TookNumber.refl (start s)
    exact ⟨_, exec_disarm hp hw (Bool.eq_false_iff.mpr fun h => hother.mp h hmine),
      EntryBecomes.of_tookNumber hu (f := fun x => { x with counter := 0, armed := false }) rfl, wentOn_finishReg hu rfl⟩
  case refine_3 => exact exec_disarm_bad hp (hw.imp_right hother.mpr)
  case refine_4 =>
    refine ⟨fun hok => exec_arm_bad hp (hbad.mp hok), fun hok hjoin key s' hseq => ?_, fun hok hjoin tt k s' key s'' htt hspawn hseq => ?_⟩
    · have hu := TookNumber.takeSeq (State.takeSeq_start hseq)
      obtain ⟨hwent, harmed⟩ := armed_of_tookNumber hu b w key 0
      rw [hjoin] at harmed
      exact ⟨_, exec_arm_threshold hp (fun h => hbad.mpr h hok) hjoin (State.takeSeq_start hseq), hwent, harmed⟩
    · have hu := (TookNumber.takeSpawn (State.takeSpawn_start hspawn)).trans (TookNumber.takeSeq (State.takeSeq_start hseq))
      obtain ⟨hwent, harmed⟩ := armed_of_tookNumber hu b w key k
      rw [hjoin] at harmed
      exact ⟨_, exec_arm_join hp (fun h => hbad.mpr h hok) hjoin htt (State.takeSpawn_start hspawn) (State.takeSeq_start hseq), hwent, harmed⟩

theorem uiretOnStewards : Claims.UiretOnStewards := by
  intro s hrole hfeats
  have hmask : s.here.maskedFeature formUiret.feats = none := by
    rw [Ctx.maskedFeature_eq_find, List.find?_eq_none]
    intro n hn hc
    obtain ⟨hl, hbit⟩ := Bool.and_eq_true_iff.mp hc
    rcases hfeats with h | h
    · exact absurd (of_decide_eq_true hl) (Nat.not_lt.mpr h)
    · exact Bool.noConfusion ((h n hn).symm.trans hbit)
  exact (if_neg fun h => h.2 hrole).trans (unit_otherRole _ hmask (by rw [hrole]; decide))

/-- Settles O31: the end of a task by what each of its steps leaves, the units one by one from the tests of their words. -/
theorem taskEndsAndUnits : Obligations.TaskEndsAndUnits := ⟨taskEnds, taskUnits, uiretOnStewards⟩

end Sys2Proof.Machine
end

section
/-! O37: activations. Entering takes the activation from its source, then reserves what its class's rates declare; both keep the run queue. -/

namespace Sys2Proof.Machine

open Sys2Proof.Claims

-- One proof after the other: what one needed of memory the next one uses again.
set_option Elab.async false

variable {s t u : State}

/-! ### An activation enters the run queue (05 R141, R147 to R150) -/

/-- What enters is offered by its source, and nothing that is due has a higher priority. -/
theorem State.entering_eq_some {c : CoreId} {src : ActSource} {r : Ready} (h : s.entering c src = some r) :
    s.offers c src = some r ∧ ∀ x ∈ s.dueList c, x.2.prio ≤ r.prio := by
  unfold State.entering at h
  dsimp only at h
  split at h
  · cases h
  next y r' hfind =>
    split at h
    · cases h
    next hany =>
      cases h
      have hmem := List.mem_of_find?_eq_some hfind
      have hsrc : y = src := of_decide_eq_true (List.find?_some (p := fun x : ActSource × Ready => decide (x.1 = src)) hfind)
      refine ⟨?_, fun x hx => Nat.le_of_not_lt fun hlt => hany (List.any_eq_true.mpr ⟨x, hx, ?_⟩)⟩
      · unfold State.dueList at hmem
        split at hmem
        · obtain ⟨z, -, hz⟩ := List.mem_filterMap.mp hmem
          split at hz
          · cases hz
          next q hq =>
            split at hz
            · cases hz
              rw [← hsrc, hq]
            · cases hz
        · cases hmem
      · rw [decide_eq_true hlt, Bool.true_or]

/-- What reserving and holding for an activation of a core changes; what it holds it goes on to hold. -/
def Reserves (c : CoreId) (uid : Nat) (s t : State) : Prop :=
  t = { s with cores := t.cores, tiles := t.tiles } ∧ SameMemory s t ∧ (∀ x, x ≠ c → t.core x = s.core x) ∧
  t.core c = { s.core c with chans := (t.core c).chans } ∧
  ∀ (ch i : Nat) (m : EndMsg), ((s.core c).chan ch).msgs[i]? = some m → m.holder = some uid → ((t.core c).chan ch).msgs[i]? = some m

theorem Reserves.refl (c : CoreId) (uid : Nat) (s : State) : Reserves c uid s s := ⟨rfl, .refl s, fun _ _ => rfl, rfl, fun _ _ _ h _ => h⟩

theorem Reserves.trans {c : CoreId} {uid : Nat} (h : Reserves c uid s t) (h' : Reserves c uid t u) : Reserves c uid s u := by
  obtain ⟨ht, hmem, hcores, hcore, hheld⟩ := h
  obtain ⟨hu, hmem', hcores', hcore', hheld'⟩ := h'
  refine ⟨?_, hmem.trans hmem', fun x hx => (hcores' x hx).trans (hcores x hx), ?_, fun ch i m hm hown => hheld' ch i m (hheld ch i m hm hown) hown⟩
  · rw [hu, ht]
  · rw [hcore', hcore]

theorem State.chan_modChan (s : State) (c : CoreId) (n ch : Nat) (f : Chan → Chan) :
    ((s.modChan c n f).core c).chan ch = if ch = n then f ((s.core c).chan n) else (s.core c).chan ch := by
  rw [State.modChan, State.core_modCore_self]
  by_cases h : ch = n
  · rw [if_pos h, h]
    exact Map.getD_set_self ..
  · rw [if_neg h]
    exact Map.getD_set_ne _ _ _ h

theorem State.core_modChan_ne (s : State) {c x : CoreId} (n : Nat) (f : Chan → Chan) (h : x ≠ c) : (s.modChan c n f).core x = s.core x :=
  State.core_modCore_ne _ _ h

/-- Of a channel whose messages an activation holds, one that it names has it as its holder, the others stay. -/
theorem Chan.getElem?_hold (x : Chan) (uid : Nat) (ids : List Nat) (i : Nat) :
    (x.hold uid ids).msgs[i]? = x.msgs[i]?.map fun m => if ids.contains m.msg.id then { m with holder := some uid } else m := List.getElem?_map

theorem Reserves.hold {c : CoreId} {uid n : Nat} {ids : List Nat} : Reserves c uid s (s.modChan c n fun x => x.hold uid ids) := by
  refine ⟨rfl, .refl s, fun x hx => State.core_modChan_ne _ _ _ hx, ?_, fun ch i m hm hown => ?_⟩
  · rw [State.modChan, State.core_modCore_self]
  · rw [State.chan_modChan]
    split
    next h =>
      rw [Chan.getElem?_hold, ← h, hm, Option.map_some]
      split
      · rw [← hown]
      · rfl
    · exact hm

theorem Reserves.reserve {c : CoreId} {r : Ready} {d : ObjRate} : Reserves c r.uid s (s.reserve c r d) := by
  unfold State.reserve
  split
  · split
    · exact .hold
    · exact .refl ..
  · split
    · exact ⟨rfl, .modTile (.refl s) fun _ => ⟨rfl, rfl⟩, fun _ _ => rfl, rfl, fun _ _ _ h _ => h⟩
    · exact .refl ..

theorem Reserves.foldl {c : CoreId} {r : Ready} (ds : List ObjRate) (s : State) : Reserves c r.uid s (ds.foldl (fun s d => s.reserve c r d) s) :=
  List.foldlRecOn ds _ (.refl c r.uid s) fun _ ht d _ => ht.trans (.reserve (d := d))

/-- The run queue of a core takes an activation, and nothing else changes of what its source and its reservations left; what it holds it goes on to hold. -/
def Enters (c : CoreId) (r : Ready) (u t : State) : Prop :=
  t = { u with cores := t.cores, tiles := t.tiles } ∧ SameMemory u t ∧ (∀ x, x ≠ c → t.core x = u.core x) ∧
  t.core c = { u.core c with chans := (t.core c).chans, runq := (u.core c).runq ++ [r], resv := (t.core c).resv } ∧
  ∀ (ch i : Nat) (m : EndMsg), ((u.core c).chan ch).msgs[i]? = some m → m.holder = some r.uid → ((t.core c).chan ch).msgs[i]? = some m

theorem Enters.of_reserves {c : CoreId} {r : Ready} {f : Core → Core} (h : Reserves c r.uid s t) (hf : ∀ k, f k = { k with runq := k.runq ++ [r], resv := (f k).resv }) :
    Enters c r s (t.modCore c f) := by
  obtain ⟨ht, hmem, hcores, hcore, hheld⟩ := h
  have hself : (t.modCore c f).core c = f (t.core c) := State.core_modCore_self ..
  refine ⟨?_, hmem, fun x hx => (State.core_modCore_ne _ _ hx).trans (hcores x hx), ?_, fun ch i m hm hown => ?_⟩
  · rw [ht]
    rfl
  · rw [hself, hf, hcore]
  · rw [hself, hf]
    exact hheld ch i m hm hown

/-- The next number that the model gives is taken. -/
def State.nextFresh (s : State) : State := { s with fresh := s.fresh + 1 }

theorem Enters.enterReady (s : State) (c : CoreId) (src : ActSource) (r : Ready) : Enters c r (s.nextFresh.consume c src r) (s.enterReady c src r) := by
  unfold State.enterReady
  exact .of_reserves (.foldl _ _) fun _ => rfl

/-- A waiting-task entry that fires gives up its threshold and disarms (05 R147). -/
def State.fired (s : State) (c : CoreId) (n : Nat) : State := s.modEntry c n fun e => { e with counter := e.counter - e.thr, armed := false }

/-- What taking an activation from its source changes: of the core the source alone, and for a join the tile tasks. -/
def Consumes (c : CoreId) (s t : State) : Prop :=
  t = { s with cores := t.cores, tts := t.tts } ∧ (∀ x, x ≠ c → t.core x = s.core x) ∧
  t.core c = { s.core c with chans := (t.core c).chans, wtt := (t.core c).wtt, waiting := (t.core c).waiting, fibres := (t.core c).fibres }

theorem Consumes.modCore {c : CoreId} {f : Core → Core}
    (hf : ∀ k, f k = { k with chans := (f k).chans, wtt := (f k).wtt, waiting := (f k).waiting, fibres := (f k).fibres }) : Consumes c s (s.modCore c f) := by
  refine ⟨rfl, fun x hx => State.core_modCore_ne _ _ hx, ?_⟩
  rw [State.core_modCore_self]
  exact hf _

theorem Consumes.sameMemory {c : CoreId} (h : Consumes c s t) : SameMemory s t := by
  obtain ⟨ht, -⟩ := h
  rw [ht]
  exact .refl s

theorem Consumes.newTT {c : CoreId} {tt : TTId} {y : TileTask} (h : Consumes c s t) : Consumes c s (t.newTT tt y) := by
  obtain ⟨ht, hcores⟩ := h
  refine ⟨?_, hcores⟩
  rw [ht]
  rfl

theorem Consumes.consume (s : State) (c : CoreId) (src : ActSource) (r : Ready) : Consumes c s (s.consume c src r) := by
  unfold State.consume
  cases src with
  | message ch i => exact .modCore fun _ => rfl
  | entry n =>
    dsimp only
    split
    · exact .newTT (.modCore fun _ => rfl)
    · exact .modCore fun _ => rfl
  | waiting i => exact .modCore fun _ => rfl
  | fibre n => exact .modCore fun _ => rfl

/-- What an entry that fires offers (05 R147, R157). -/
theorem State.offers_entry {c : CoreId} {n : Nat} {r : Ready} (h : s.offers c (.entry n) = some r) :
    let e := (s.core c).entry n
    e.armed = true ∧ e.thr ≤ e.counter ∧ r.kind = (if e.join then .join else .counter) ∧ r.cls = e.cls ∧ r.s1 = BitVec.ofNat 64 n ∧ r.s2 = e.arg ∧
    r.s3 = e.counter.setWidth 64 := by
  unfold State.offers at h
  dsimp only at h ⊢
  split at h
  · cases h
  · split at h
    next hdue =>
      obtain ⟨harmed, hle⟩ := Bool.and_eq_true_iff.mp hdue
      cases h
      exact ⟨harmed, of_decide_eq_true hle, rfl, rfl, rfl, rfl, rfl⟩
    · cases h

/-- What a waiting activation offers, once it is released (05 R158; 16 R458). -/
theorem State.offers_waiting {c : CoreId} {i : Nat} {r : Ready} (h : s.offers c (.waiting i) = some r) :
    ∃ w, (s.core c).waiting[i]? = some w ∧ w.release = none ∧ r.kind = w.kind ∧ r.cls = w.cls ∧ r.s1 = w.s1 ∧ r.s2 = w.s2 ∧ r.s3 = w.s3 ∧ r.tt = some w.tt := by
  unfold State.offers at h
  dsimp only at h
  split at h
  · cases h
  next w hw =>
    split at h
    · cases h
    next hrelease =>
      cases h
      exact ⟨w, hw, Option.not_isSome_iff_eq_none.mp hrelease, rfl, rfl, rfl, rfl, rfl, rfl⟩

/-- What a message bound to a class offers (06 R185). -/
theorem State.offers_message {c : CoreId} {ch i : Nat} {r : Ready} (h : s.offers c (.message ch i) = some r) :
    ∃ m : EndMsg, ((s.core c).chan ch).msgs[i]? = some m ∧ r.kind = .message ∧ r.s1 = m.msg.header ch ∧ r.s2 = BitVec.ofNat 64 (8 * m.msg.words.length) ∧
    r.s3 = BitVec.ofNat 64 m.msg.src.t ∧ r.msg = some { ch := ch, id := m.msg.id } := by
  unfold State.offers at h
  dsimp only at h
  split at h
  next m first hm hfirst =>
    split at h
    · split at h
      · cases h
        exact ⟨m, hm, rfl, rfl, rfl, rfl, rfl⟩
      · cases h
    · cases h
  · cases h

/-- What a resumed fibre offers (14 R415). -/
theorem State.offers_fibre {c : CoreId} {n : Nat} {r : Ready} (h : s.offers c (.fibre n) = some r) :
    ∃ f, (s.core c).fibres.get? n = some f ∧ f.resumed = true ∧ f.ready = false := by
  unfold State.offers at h
  dsimp only at h
  split at h
  · cases h
  next f hf =>
    split at h
    · cases h
    · split at h
      next hdue =>
        obtain ⟨hresumed, hready⟩ := Bool.and_eq_true_iff.mp hdue
        exact ⟨f, hf, hresumed, Bool.not_eq_true' _ ▸ hready⟩
      · cases h

/-- The value of one name of a map changes. -/
theorem Map.get?_map_at {κ ν : Type} [DecidableEq κ] (m : Map κ ν) (a : κ) (f : ν → ν) :
    Map.get? (m.map fun x : κ × ν => if x.1 = a then (x.1, f x.2) else x) a = (Map.get? m a).map f := by
  induction m with
  | nil => rfl
  | cons x m ih =>
    obtain ⟨k, v⟩ := x
    by_cases h : k = a <;> simp [Map.get?, h, ih]

theorem Map.get?_erase_self {κ ν : Type} [DecidableEq κ] (m : Map κ ν) (a : κ) : Map.get? (m.erase a) a = none := by
  induction m with
  | nil => rfl
  | cons x m ih =>
    obtain ⟨k, v⟩ := x
    by_cases h : k = a <;> simpa [Map.erase, Map.get?, h] using ih

/-! ### What an activation takes away from its source -/

theorem State.entry_consume (s : State) (c : CoreId) (n : Nat) (r : Ready) :
    let e := (s.core c).entry n
    ((s.consume c (.entry n) r).core c).entry n = { e with counter := e.counter - e.thr, armed := false } := by
  have hfired : ((s.fired c n).core c).entry n = _ := (State.entry_modEntry s c n n _).trans (if_pos rfl)
  unfold State.consume
  dsimp only
  split
  · exact hfired
  · exact hfired

theorem State.waiting_consume (s : State) (c : CoreId) (i : Nat) (r : Ready) :
    ((s.consume c (.waiting i) r).core c).waiting = (s.core c).waiting.eraseIdx i := by
  unfold State.consume
  rw [State.core_modCore_self]

theorem State.fibre_consume (s : State) (c : CoreId) (n : Nat) (r : Ready) :
    ((s.consume c (.fibre n) r).core c).fibres.get? n = ((s.core c).fibres.get? n).map fun f => { f with ready := true } := by
  unfold State.consume
  rw [State.core_modCore_self]
  exact Map.get?_map_at (s.core c).fibres n fun f => { f with ready := true }

/-- The message that activates is held (06 R186). -/
theorem State.message_consume {c : CoreId} {ch i : Nat} {r : Ready} {m : EndMsg} (hm : ((s.core c).chan ch).msgs[i]? = some m)
    (hr : r.msg = some { ch := ch, id := m.msg.id }) :
    (((s.consume c (.message ch i) r).core c).chan ch).msgs[i]? = some { m with holder := some r.uid } := by
  have hids : (r.msg.map MsgRef.id).toList.contains m.msg.id = true := by simp [hr]
  unfold State.consume
  dsimp only
  rw [State.chan_modChan, if_pos rfl, Chan.getElem?_hold, hm, Option.map_some, if_pos hids]

theorem activationEnters {c : CoreId} {src : ActSource} {r : Ready} (h : s.entering c src = some r) :
    let k := s.core c
    ∃ t, exec (.activationEnter c src) s = .next t ∧ (t.core c).runq = k.runq ++ [r] ∧ (∀ x ∈ s.dueList c, x.2.prio ≤ r.prio) ∧
      (∀ x, x ≠ c → t.core x = s.core x) ∧ t.ctxs = s.ctxs ∧ t.net = s.net ∧ t.homes = s.homes ∧ SameMemory s t ∧
      (∀ n, src = .entry n →
        let e := k.entry n
        e.armed = true ∧ e.thr ≤ e.counter ∧ r.kind = (if e.join then .join else .counter) ∧ r.cls = e.cls ∧ r.s1 = BitVec.ofNat 64 n ∧ r.s2 = e.arg ∧
        r.s3 = e.counter.setWidth 64 ∧ (t.core c).entry n = { e with counter := e.counter - e.thr, armed := false }) ∧
      (∀ i, src = .waiting i → ∃ w, k.waiting[i]? = some w ∧ w.release = none ∧ r.kind = w.kind ∧ r.cls = w.cls ∧ r.s1 = w.s1 ∧ r.s2 = w.s2 ∧ r.s3 = w.s3 ∧
        r.tt = some w.tt ∧ (t.core c).waiting = k.waiting.eraseIdx i) ∧
      (∀ ch i, src = .message ch i → ∃ m, (k.chan ch).msgs[i]? = some m ∧ r.kind = .message ∧ r.s1 = m.msg.header ch ∧
        r.s2 = BitVec.ofNat 64 (8 * m.msg.words.length) ∧ r.s3 = BitVec.ofNat 64 m.msg.src.t ∧
        ((t.core c).chan ch).msgs[i]? = some { m with holder := some r.uid }) ∧
      (∀ n, src = .fibre n → ∃ f, k.fibres.get? n = some f ∧ f.resumed = true ∧ f.ready = false ∧ (t.core c).fibres.get? n = some { f with ready := true }) := by
  intro k
  obtain ⟨hoffer, hprio⟩ := State.entering_eq_some h
  have hexec : exec (.activationEnter c src) s = .next (s.enterReady c src r) := by
    show execActivationEnter c src s = _
    rw [execActivationEnter, h]
  obtain ⟨ht, hmem, hcores, hcore, hheld⟩ := Enters.enterReady s c src r
  have hconsumes := Consumes.consume s.nextFresh c src r
  have humem : SameMemory s (s.nextFresh.consume c src r) := hconsumes.sameMemory
  obtain ⟨hu, hucores, hucore⟩ := hconsumes
  refine ⟨_, hexec, ?_, hprio, fun x hx => (hcores x hx).trans (hucores x hx), ?_, ?_, ?_, humem.trans hmem, ?_, ?_, ?_, ?_⟩
  · rw [hcore, hucore]
    rfl
  · exact (congrArg State.ctxs ht :).trans (congrArg State.ctxs hu :)
  · exact (congrArg State.net ht :).trans (congrArg State.net hu :)
  · exact (congrArg State.homes ht :).trans (congrArg State.homes hu :)
  · rintro n rfl
    obtain ⟨harmed, hthr, hkind, hcls, hs1, hs2, hs3⟩ := State.offers_entry hoffer
    refine ⟨harmed, hthr, hkind, hcls, hs1, hs2, hs3, ?_⟩
    rw [hcore]
    exact State.entry_consume s.nextFresh c n r
  · rintro i rfl
    obtain ⟨w, hw, hrelease, hkind, hcls, hs1, hs2, hs3, htt⟩ := State.offers_waiting hoffer
    refine ⟨w, hw, hrelease, hkind, hcls, hs1, hs2, hs3, htt, ?_⟩
    rw [hcore]
    exact State.waiting_consume s.nextFresh c i r
  · rintro ch i rfl
    obtain ⟨m, hm, hkind, hs1, hs2, hs3, hmsg⟩ := State.offers_message hoffer
    exact ⟨m, hm, hkind, hs1, hs2, hs3, hheld ch i _ (State.message_consume (s := s.nextFresh) hm hmsg) rfl⟩
  · rintro n rfl
    obtain ⟨f, hf, hresumed, hready⟩ := State.offers_fibre hoffer
    refine ⟨f, hf, hresumed, hready, ?_⟩
    rw [hcore]
    exact (State.fibre_consume s.nextFresh c n r).trans (congrArg _ hf)

/-! ### Start activations are released (16 R458) -/

/-- A start activation whose cycle has come. -/
def Waiting.releasedAt (now : Nat) (w : Waiting) : Waiting :=
  match w.release with
  | some x => if x ≤ now then { w with release := none } else w
  | none => w

theorem Waiting.releasedAt_releasedAt (now : Nat) (w : Waiting) : (w.releasedAt now).releasedAt now = w.releasedAt now := by
  cases h : w.release with
  | none => simp only [Waiting.releasedAt, h]
  | some x => by_cases hx : x ≤ now <;> simp [Waiting.releasedAt, h, hx]

/-- A core whose start activations are released. -/
def Core.releasedAt (now : Nat) (k : Core) : Core := { k with waiting := k.waiting.map (Waiting.releasedAt now) }

theorem Core.releasedAt_releasedAt (now : Nat) (k : Core) : (k.releasedAt now).releasedAt now = k.releasedAt now := by
  unfold Core.releasedAt
  rw [List.map_map]
  exact congrArg (fun l => { k with waiting := l }) (List.map_congr_left fun w _ => Waiting.releasedAt_releasedAt now w)

/-- What START_RELEASE does for one core. -/
def State.releaseStarts (l pg : Nat) (s : State) (c : CoreId) : State :=
  if c.l = l ∧ (s.zoneOf c.tile).map powerOf = some pg then s.modCore c (Core.releasedAt s.cycle) else s

theorem exec_startRelease (l pg : Nat) (s : State) : exec (.startRelease l pg) s = .next (s.cores.keys.foldl (State.releaseStarts l pg) s) := by
  show Host.Outcome.next _ = _
  congr 2
  funext s c
  unfold State.releaseStarts
  congr 2
  funext k
  unfold Core.releasedAt Waiting.releasedAt
  congr 2
  funext w
  cases w.release <;> rfl

theorem State.releaseStarts_frame (l pg : Nat) (s : State) (x : CoreId) :
    let t := s.releaseStarts l pg x
    t = { s with cores := t.cores } ∧
    ∀ c, t.core c = if c = x ∧ c.l = l ∧ (s.zoneOf c.tile).map powerOf = some pg then (s.core c).releasedAt s.cycle else s.core c := by
  unfold State.releaseStarts
  by_cases hx : x.l = l ∧ (s.zoneOf x.tile).map powerOf = some pg
  · rw [if_pos hx]
    refine ⟨rfl, fun c => ?_⟩
    by_cases hc : c = x
    · rw [hc, if_pos ⟨rfl, hx⟩, State.core_modCore_self]
    · rw [if_neg fun h => hc h.1, State.core_modCore_ne _ _ hc]
  · rw [if_neg hx]
    exact ⟨rfl, fun c => (if_neg fun h : c = x ∧ _ => hx (h.1 ▸ h.2)).symm⟩

/-- A core that several keys name is released as by one. -/
theorem State.foldl_releaseStarts (l pg : Nat) (cs : List CoreId) (s : State) :
    let t := cs.foldl (State.releaseStarts l pg) s
    t = { s with cores := t.cores } ∧
    ∀ c, t.core c = if c ∈ cs ∧ c.l = l ∧ (s.zoneOf c.tile).map powerOf = some pg then (s.core c).releasedAt s.cycle else s.core c := by
  induction cs generalizing s with
  | nil => exact ⟨rfl, fun c => (if_neg fun h => List.not_mem_nil h.1).symm⟩
  | cons x cs ih =>
    obtain ⟨hu, hucores⟩ := State.releaseStarts_frame l pg s x
    obtain ⟨ht, htcores⟩ := ih (s.releaseStarts l pg x)
    rw [List.foldl_cons]
    generalize s.releaseStarts l pg x = u at hu hucores ht htcores
    have hzone (c : CoreId) : u.zoneOf c.tile = s.zoneOf c.tile := (congrArg (State.zoneOf · c.tile) hu :)
    have hcycle : u.cycle = s.cycle := (congrArg State.cycle hu :)
    refine ⟨by rw [ht, hu], fun c => ?_⟩
    rw [htcores, hucores, hzone, hcycle]
    by_cases hc : c.l = l ∧ (s.zoneOf c.tile).map powerOf = some pg
    · simp only [hc, and_true, List.mem_cons]
      by_cases hx : c = x <;> by_cases hmem : c ∈ cs <;> simp only [hx, hmem, if_true, if_false, or_true, or_false, true_or, Core.releasedAt_releasedAt, ite_self]
    · simp only [hc, and_false, if_false]

theorem Map.get?_of_not_mem_keys {κ ν : Type} [DecidableEq κ] {m : Map κ ν} {a : κ} (h : a ∉ m.keys) : Map.get? m a = none := by
  induction m with
  | nil => rfl
  | cons x m ih =>
    obtain ⟨k, v⟩ := x
    obtain ⟨hk, hm⟩ := not_or.mp (mt List.mem_cons.mpr h)
    exact (if_neg (Ne.symm hk)).trans (ih hm)

theorem State.core_of_not_mem {c : CoreId} (h : c ∉ s.cores.keys) : s.core c = Core.init := by
  rw [State.core, Map.getD, Map.get?_of_not_mem_keys h, Option.getD_none]

theorem startsReleased (s : State) (c : CoreId) (l pg : Nat) :
    ∃ t, exec (.startRelease l pg) s = .next t ∧ t = { s with cores := t.cores } ∧
      t.core c = if c.l = l ∧ (s.zoneOf c.tile).map powerOf = some pg then
          { s.core c with waiting := (s.core c).waiting.map fun w => match w.release with
              | some x => if x ≤ s.cycle then { w with release := none } else w
              | none => w }
        else s.core c := by
  obtain ⟨ht, hcores⟩ := State.foldl_releaseStarts l pg s.cores.keys s
  refine ⟨_, exec_startRelease l pg s, ht, (hcores c).trans ?_⟩
  by_cases hc : c ∈ s.cores.keys
  · simp only [hc, true_and]
    rfl
  · simp only [hc, false_and, if_false, State.core_of_not_mem hc, Core.init, List.map_nil, ite_self]

/-! ### A trap of a context that leads no gang (04 R118, R119; 14 R418) -/

/-- A context that a trap to the kernel level enters. -/
def Ctx.enterKernel (c : Ctx) (entry : Word) (code : BitVec 8) (isAsync : Bool) (epc tval : Word) : Ctx :=
  { c with kbank := c.kbank.enter code isAsync epc tval c.level, savedLoop := c.loop, loop := { c.loop with active := false }, phase := .run, waited := 0,
           level := if c.level = 3 then 3 else 1, pc := entry }

theorem State.takeTrap_kernel {id : CtxId} {code : BitVec 8} (hgang : (s.ctx id).gang = none) (hkernel : toHyper (s.ctx id).level code = false)
    (hnest : (s.ctx id).kbank.tnest = false) (hentry : (s.core id.core).tvecK ≠ 0) (isAsync : Bool) (epc tval : Word) :
    s.takeTrap id code isAsync epc tval = s.setCtx id ((s.ctx id).enterKernel (s.core id.core).tvecK code isAsync epc tval) := by
  unfold State.takeTrap
  dsimp only
  refine (if_neg ?_).trans ?_
  · rw [hkernel]
    simp only [hnest, Bool.false_eq_true, if_false, Bool.false_or, decide_eq_true_eq]
    exact hentry
  · rw [State.disband_of_none hgang]
    refine congrArg (State.setCtx s id) ?_
    rw [hkernel]
    rfl

theorem State.takeTrap_eq_or {id : CtxId} (hgang : (s.ctx id).gang = none) (code : BitVec 8) (isAsync : Bool) (epc tval : Word) :
    s.takeTrap id code isAsync epc tval = s.doubleTrap id code ∨ ∃ d, s.takeTrap id code isAsync epc tval = s.setCtx id d := by
  unfold State.takeTrap
  dsimp only
  rw [State.disband_of_none hgang]
  exact (ite_eq_or_eq _ _ _).imp_right fun h => ⟨_, h⟩

/-- A trap of a context that leads no gang changes that context, or else stops it and is logged. -/
theorem State.takeTrap_frame {id : CtxId} (hgang : (s.ctx id).gang = none) (code : BitVec 8) (isAsync : Bool) (epc tval : Word) :
    let t := s.takeTrap id code isAsync epc tval
    t = { s with ctxs := t.ctxs, parts := t.parts } ∧ ∀ x, x ≠ id → t.ctx x = s.ctx x := by
  dsimp only
  rcases State.takeTrap_eq_or hgang code isAsync epc tval with h | ⟨d, h⟩
  · rw [h, State.doubleTrap, State.logError, State.modPart_frame]
    exact ⟨rfl, fun x hx => State.ctx_setCtx_ne s _ hx⟩
  · rw [h]
    exact ⟨rfl, fun x hx => State.ctx_setCtx_ne s _ hx⟩

/-! ### An activation starts (05 R154 to R156, R525; 14 R415) -/

/-- The core as TASK_START leaves it: the ready entry is gone, the others age, and a profile that was set takes effect. -/
def Core.started (r : Ready) (k : Core) : Core :=
  { k with runq := (k.runq.erase r).map fun x => x.aged r.eff, prof := k.profNew.getD k.prof, profNew := none }

theorem exec_taskStart {c : CoreId} {r : Ready} {id : CtxId} (hact : s.activates c = true) (hnotices : (s.core c).notices = [])
    (hready : s.nextReady c = some r) (hfree : s.freeCtx c = some id) : exec (.taskStart c) s = .next ((s.modCore c (.started r)).startIn id r) := by
  show execTaskStart c s = _
  rw [execTaskStart, hready, hfree]
  refine congrArg Host.Outcome.next (if_pos ?_)
  rw [hact, hnotices]
  rfl

/-- The lowest free context of a core is one of its own. -/
theorem State.core_of_freeCtx {c : CoreId} {id : CtxId} (h : s.freeCtx c = some id) : id.core = c := by
  obtain ⟨i, -, hi⟩ := List.mem_map.mp (List.mem_of_find?_eq_some h)
  rw [← hi]

/-- A tile task that has begun to run (05 R144). -/
def State.ran (s : State) (tt : Option TTId) : State :=
  match tt with
  | none => s
  | some t => s.modTT t fun x => { x with ran := true }

theorem State.ran_frame (s : State) (tt : Option TTId) : s.ran tt = { s with tts := (s.ran tt).tts } := by
  unfold State.ran
  cases tt with
  | none => rfl
  | some t => exact State.modTT_frame ..

/-- A new activation in its context, before its class is looked at. -/
def State.placed (s : State) (id : CtxId) (r : Ready) : State := (s.ran r.tt).setCtx id (s.startCtx id.core r)

theorem State.placed_frame (s : State) (id : CtxId) (r : Ready) :
    let t := s.placed id r
    t = { s with ctxs := t.ctxs, tts := t.tts } ∧ t.ctx id = s.startCtx id.core r ∧ ∀ x, x ≠ id → t.ctx x = s.ctx x := by
  have hctx (x : CtxId) : (s.ran r.tt).ctx x = s.ctx x := (congrArg (State.ctx · x) (State.ran_frame ..) :)
  refine ⟨?_, State.ctx_setCtx_self .., fun x hx => (State.ctx_setCtx_ne _ _ hx).trans (hctx x)⟩
  rw [State.placed, State.ran_frame]
  rfl

theorem State.startIn_of_none {id : CtxId} {r : Ready} (hfibre : r.fibre = none) :
    s.startIn id r = if r.addr.isNone && !((s.core id.core).cls r.cls).valid then
      ((s.placed id r).modCtx id fun x => { x with pc := 0 }).takeTrap id causeProt false 0 (BitVec.ofNat 64 (0xC00 + r.cls)) else s.placed id r := by
  have hcore : (s.placed id r).core id.core = s.core id.core := by
    obtain ⟨ht, -⟩ := s.placed_frame id r
    rw [ht]
    rfl
  rw [← hcore]
  unfold State.startIn
  rw [hfibre]
  rfl

theorem State.startIn_valid {id : CtxId} {r : Ready} (hfibre : r.fibre = none) (h : r.addr ≠ none ∨ ((s.core id.core).cls r.cls).valid = true) :
    s.startIn id r = s.placed id r := by
  rw [State.startIn_of_none hfibre]
  refine if_neg fun hbad => ?_
  obtain ⟨haddr, hvalid⟩ := Bool.and_eq_true_iff.mp hbad
  rcases h with h | h
  · exact h (Option.isNone_iff_eq_none.mp haddr)
  · rw [h] at hvalid
    exact Bool.noConfusion hvalid

theorem State.startIn_invalid {id : CtxId} {r : Ready} (hfibre : r.fibre = none) (haddr : r.addr = none) (h : ((s.core id.core).cls r.cls).valid = false) :
    s.startIn id r = ((s.placed id r).modCtx id fun x => { x with pc := 0 }).takeTrap id causeProt false 0 (BitVec.ofNat 64 (0xC00 + r.cls)) := by
  rw [State.startIn_of_none hfibre]
  refine if_pos ?_
  rw [haddr, h]
  rfl

theorem State.startIn_fibre {id : CtxId} {r : Ready} {n : Nat} {f : Fibre} (hfibre : r.fibre = some n) (hf : (s.core id.core).fibres.get? n = some f)
    (hgood : f.failed = false) :
    s.startIn id r = (s.setCtx id { f.ctx with phase := .run, waited := 0, asked := none }).modCore id.core fun k => { k with fibres := k.fibres.erase n } := by
  unfold State.startIn
  rw [hfibre]
  dsimp only
  rw [hf]
  exact if_neg (Bool.eq_false_iff.mp hgood)

/-- A fibre that the core does not hold starts nothing. -/
theorem State.startIn_noFibre {id : CtxId} {r : Ready} {n : Nat} (hfibre : r.fibre = some n) (hf : (s.core id.core).fibres.get? n = none) : s.startIn id r = s := by
  unfold State.startIn
  rw [hfibre]
  dsimp only
  rw [hf]

/-- What starting in a context leaves as it was. -/
def StartsOnly (id : CtxId) (s t : State) : Prop :=
  t = { s with ctxs := t.ctxs, cores := t.cores, tts := t.tts, parts := t.parts } ∧ (∀ x, x ≠ id → t.ctx x = s.ctx x) ∧
  (∀ x, x ≠ id.core → t.core x = s.core x) ∧ (t.core id.core).runq = (s.core id.core).runq

theorem StartsOnly.of_ctxs {id : CtxId} {m : Map CtxId Ctx} {l : Map TTId TileTask} {p : Map (BitVec 8) Partition}
    (ht : t = { s with ctxs := m, tts := l, parts := p }) (hothers : ∀ x, x ≠ id → t.ctx x = s.ctx x) : StartsOnly id s t := by
  subst ht
  exact ⟨rfl, hothers, fun _ _ => rfl, rfl⟩

theorem StartsOnly.trans {id : CtxId} (h : StartsOnly id s t) (h' : StartsOnly id t u) : StartsOnly id s u := by
  obtain ⟨ht, hothers, hcores, hrunq⟩ := h
  obtain ⟨hu, hothers', hcores', hrunq'⟩ := h'
  refine ⟨?_, fun x hx => (hothers' x hx).trans (hothers x hx), fun x hx => (hcores' x hx).trans (hcores x hx), hrunq'.trans hrunq⟩
  rw [hu, ht]

theorem StartsOnly.resumed {id : CtxId} {d : Ctx} {n : Nat} :
    StartsOnly id s ((s.setCtx id d).modCore id.core fun k => { k with fibres := k.fibres.erase n }) := by
  refine ⟨rfl, fun x hx => State.ctx_setCtx_ne s _ hx, fun x hx => State.core_modCore_ne _ _ hx, ?_⟩
  rw [State.core_modCore_self]
  rfl

theorem StartsOnly.startIn {id : CtxId} {r : Ready}
    (hgood : ∀ n f, r.fibre = some n → (s.core id.core).fibres.get? n = some f → f.failed = false) : StartsOnly id s (s.startIn id r) := by
  cases hfibre : r.fibre with
  | some n =>
    cases hf : (s.core id.core).fibres.get? n with
    | none =>
      rw [State.startIn_noFibre hfibre hf]
      exact .of_ctxs rfl fun _ _ => rfl
    | some f =>
      rw [State.startIn_fibre hfibre hf (hgood n f hfibre hf)]
      exact .resumed
  | none =>
    obtain ⟨ht, hctx, hothers⟩ := s.placed_frame id r
    have hplaced : StartsOnly id s (s.placed id r) := .of_ctxs ht hothers
    by_cases h : r.addr ≠ none ∨ ((s.core id.core).cls r.cls).valid = true
    · rw [State.startIn_valid hfibre h]
      exact hplaced
    · obtain ⟨haddr, hvalid⟩ := not_or.mp h
      rw [State.startIn_invalid hfibre (not_not.mp haddr) (Bool.eq_false_iff.mpr hvalid)]
      have hgang : (((s.placed id r).modCtx id fun x => { x with pc := 0 }).ctx id).gang = none := by
        rw [State.ctx_modCtx_self, hctx]
        rfl
      have hzero : StartsOnly id (s.placed id r) ((s.placed id r).modCtx id fun x => { x with pc := 0 }) :=
        .of_ctxs rfl fun x hx => State.ctx_modCtx_ne _ _ hx
      obtain ⟨hu, huothers⟩ := State.takeTrap_frame hgang causeProt false 0 (BitVec.ofNat 64 (0xC00 + r.cls))
      exact hplaced.trans (hzero.trans (.of_ctxs hu huothers))

/-- The registers of a new activation (05 Table 5.1). -/
theorem Ctx.reg_startCtx (s : State) (c : CoreId) (r : Ready) (n : BitVec 5) :
    (s.startCtx c r).reg n = if n = 1 then r.s1 else if n = 2 then r.s2 else if n = 3 then r.s3 else 0 := by
  have hlt : n.toNat < 32 := n.isLt
  have hnat (k : Nat) (hk : k < 32) : k = n.toNat ↔ n = BitVec.ofNat 5 k := by bv_omega
  by_cases h0 : n = 0
  · rw [h0]
    rfl
  · show (if n = 0 then 0 else (((Ctx.init.regs.setIfInBounds 1 r.s1).setIfInBounds 2 r.s2).setIfInBounds 3 r.s3).getD n.toNat 0) = _
    have hinit : Ctx.init.regs.getD n.toNat 0 = 0 := by simp [Ctx.init, Vector.getD, hlt]
    simp only [if_neg h0, Vector.getD_setIfInBounds, hlt, and_true, hinit, hnat 1 (by decide), hnat 2 (by decide), hnat 3 (by decide)]
    by_cases h1 : n = 1#5
    · simp [h1]
    · by_cases h2 : n = 2#5
      · simp [h2]
      · simp [h1, h2]

theorem fresh_startCtx (s : State) (c : CoreId) (r : Ready) : Fresh (s.startCtx c r) r.s1 r.s2 r.s3 (r.addr.getD ((s.core c).cls r.cls).handler) :=
  ⟨rfl, rfl, rfl, rfl, rfl, rfl, rfl, rfl, rfl, Ctx.reg_startCtx s c r⟩

theorem activationStarts {c : CoreId} {r : Ready} {id : CtxId} (hact : s.activates c = true) (hnotices : (s.core c).notices = [])
    (hready : s.nextReady c = some r) (hfree : s.freeCtx c = some id)
    (hgood : ∀ n f, r.fibre = some n → (s.core c).fibres.get? n = some f → f.failed = false) :
    let k := s.core c
    ∃ t, exec (.taskStart c) s = .next t ∧ (t.core c).runq = (k.runq.erase r).map (fun x => x.aged r.eff) ∧ (∀ x, x ≠ c → t.core x = s.core x) ∧
      (∀ x, x ≠ id → t.ctx x = s.ctx x) ∧ t.net = s.net ∧ t.homes = s.homes ∧ SameMemory s t ∧
      (r.fibre = none → r.addr ≠ none ∨ (k.cls r.cls).valid = true →
        Fresh (t.ctx id) r.s1 r.s2 r.s3 (r.addr.getD (k.cls r.cls).handler) ∧ (t.ctx id).uvec = k.uvec ∧
        ∃ x, (t.ctx id).task = some x ∧ x.uid = r.uid ∧ x.kind = r.kind ∧ x.cls = r.cls ∧ x.tt = r.tt ∧ x.key = r.key ∧ x.prof = k.profNew.getD k.prof) ∧
      (r.fibre = none → r.addr = none → (k.cls r.cls).valid = false → k.tvecK ≠ 0 →
        (t.ctx id).level = 1 ∧ (t.ctx id).pc = k.tvecK ∧ (t.ctx id).kbank.code = causeProt ∧ (t.ctx id).kbank.epc = 0 ∧
        (t.ctx id).kbank.tval = BitVec.ofNat 64 (0xC00 + r.cls)) ∧
      (∀ n f, r.fibre = some n → k.fibres.get? n = some f →
        t.ctx id = { f.ctx with phase := .run, waited := 0, asked := none } ∧ (t.core c).fibres.get? n = none) := by
  intro k
  have hid := State.core_of_freeCtx hfree
  have hexec := exec_taskStart hact hnotices hready hfree
  subst hid
  have hcore : (s.modCore id.core (.started r)).core id.core = k.started r := State.core_modCore_self ..
  have hgood' : ∀ n f, r.fibre = some n → ((s.modCore id.core (.started r)).core id.core).fibres.get? n = some f → f.failed = false := by
    rw [hcore]
    exact hgood
  obtain ⟨ht, hothers, hcores, hrunq⟩ := StartsOnly.startIn hgood'
  refine ⟨_, hexec, ?_, fun x hx => (hcores x hx).trans (State.core_modCore_ne _ _ hx), hothers, ?_, ?_, ?_, fun hfibre hvalid => ?_,
    fun hfibre haddr hinvalid hentry => ?_, fun n f hfibre hf => ?_⟩
  · rw [hrunq, hcore]
    rfl
  · exact (congrArg State.net ht :)
  · exact (congrArg State.homes ht :)
  · exact SameMemory.of_eq (congrArg State.hbm ht :) (congrArg State.host ht :) (congrArg State.tiles ht :)
  · obtain ⟨-, hctx, -⟩ := State.placed_frame (s.modCore id.core (.started r)) id r
    rw [State.startIn_valid hfibre (by rw [hcore]; exact hvalid), hctx]
    have hfresh := fresh_startCtx (s.modCore id.core (.started r)) id.core r
    rw [hcore] at hfresh
    refine ⟨hfresh, ?_, _, rfl, rfl, rfl, rfl, rfl, rfl, ?_⟩
    · show ((s.modCore id.core (.started r)).core id.core).uvec = k.uvec
      rw [hcore]
      rfl
    · show ((s.modCore id.core (.started r)).core id.core).prof = _
      rw [hcore]
      rfl
  · rw [State.startIn_invalid hfibre haddr (by rw [hcore]; exact hinvalid)]
    obtain ⟨hplaced, hctx, -⟩ := State.placed_frame (s.modCore id.core (.started r)) id r
    have hctx' := State.ctx_modCtx_self ((s.modCore id.core (.started r)).placed id r) id fun x => { x with pc := 0 }
    rw [hctx] at hctx'
    have hentry' : ((((s.modCore id.core (.started r)).placed id r).modCtx id fun x => { x with pc := 0 }).core id.core).tvecK = k.tvecK := by
      rw [State.modCtx, hplaced]
      have h := congrArg Core.tvecK hcore
      exact h
    rw [State.takeTrap_kernel (by rw [hctx']; rfl) (by rw [hctx']; rfl) (by rw [hctx']; rfl) (by rw [hentry']; exact hentry), State.ctx_setCtx_self, hentry', hctx']
    exact ⟨rfl, rfl, rfl, rfl, rfl⟩
  · rw [State.startIn_fibre hfibre (by rw [hcore]; exact hf) (hgood n f hfibre hf)]
    refine ⟨State.ctx_setCtx_self .., ?_⟩
    rw [State.core_modCore_self]
    exact Map.get?_erase_self _ n

/-- Settles O37: what the source offers is what enters, the context is as its activation gives it, and a release touches the waiting activations alone. -/
theorem activations : Obligations.Activations := fun s c =>
  ⟨fun _ _ h => activationEnters h, fun _ _ hact hnotices hready hfree hgood => activationStarts hact hnotices hready hfree hgood, startsReleased s c⟩

end Sys2Proof.Machine
end

section
/-! O38: boundaries of a context. A wait, a due trap, a pending source or a notice decides what the context does next. -/

namespace Sys2Proof.Machine

open Sys2Proof.Claims

-- One proof after the other: what one needed of memory the next one uses again.
set_option Elab.async false

variable {s t u : State}

/-! ### The least of a list (14 R420) -/

theorem minBy_eq_none {α : Type} {f : α → Nat} {l : List α} (h : minBy f l = none) : l = [] := by
  cases l with
  | nil => rfl
  | cons a l =>
    rw [minBy] at h
    split at h
    · cases h
    · split at h <;> cases h

theorem minBy_le {α : Type} {f : α → Nat} {l : List α} {a : α} (h : minBy f l = some a) : ∀ b ∈ l, f a ≤ f b := by
  induction l generalizing a with
  | nil => cases h
  | cons x l ih =>
    rw [minBy] at h
    intro b hb
    cases hl : minBy f l with
    | none =>
      rw [hl] at h
      cases h
      rw [minBy_eq_none hl, List.mem_singleton] at hb
      rw [hb]
    | some c =>
      rw [hl] at h
      have hc := ih hl
      have hsome : (if f c < f x then some c else some x) = some a := h
      rcases List.mem_cons.mp hb with rfl | hb
      · split at hsome
        next hlt =>
          cases hsome
          exact Nat.le_of_lt hlt
        next =>
          cases hsome
          exact Nat.le_refl _
      · have := hc b hb
        split at hsome <;> cases hsome <;> omega

/-- Of what comes first and is not after any other, the first is taken. -/
theorem minBy_cons_of_le {α : Type} {f : α → Nat} {l : List α} {a : α} (h : ∀ b ∈ l, f a ≤ f b) : minBy f (a :: l) = some a := by
  rw [minBy]
  cases hl : minBy f l with
  | none => rfl
  | some b => exact if_neg (Nat.not_lt.mpr (h b (minBy_mem hl)))

/-! ### Waits (05 R151, R153) -/

/-- A wait that is over lets the unit issue again. -/
theorem exec_waitClear {id : CtxId} {w : Wait} (h : (s.ctx id).phase = .held w) :
    exec (.waitClear id) s = .next (if s.waitOver id w then s.setCtx id { s.ctx id with phase := .run } else s) := by
  show execWaitClear id s = _
  rw [execWaitClear, h]
  rfl

theorem exec_long {id : CtxId} {w : Word} (h : s.longWord id = some w) :
    exec (.long id) s = .next (if (s.core id.core).wdog.toNat < (s.ctx id).waited then (s.abandon id).takeTrap id causeLong false (s.ctx id).pc w else s) := by
  show execLong id s = _
  rw [execLong, h]
  show Host.Outcome.next _ = _
  congr 1
  simp only [State.longDue, h, Option.isSome_some, Bool.true_and, decide_eq_true_eq]
  rfl

theorem State.abandon_of_not_busy {id : CtxId} (h : (s.ctx id).syncing = none) : s.abandon id = s := by
  rw [State.abandon, h]

theorem exec_long_held {id : CtxId} {w : Wait} (h : (s.ctx id).phase = .held w) :
    exec (.long id) s = .next (if (s.core id.core).wdog.toNat < (s.ctx id).waited then s.takeTrap id causeLong false (s.ctx id).pc (s.waitWord id w) else s) := by
  rw [exec_long (w := s.waitWord id w) (by rw [State.longWord, h]), State.abandon_of_not_busy (by rw [Ctx.syncing, h])]

/-- A context that leads no gang waits for its own tile alone. -/
theorem State.waitOver_emptyQueue {id : CtxId} (h : (s.ctx id).gang = none) (n m : Nat) :
    s.waitOver id (.emptyQueue n m) = decide (m ≤ (((s.tile id.core.tile).queue n).order (s.uidOf id)).length) := by
  simp [State.waitOver, State.tilesOf, h, Queue.has]

theorem State.waitOver_fullQueue {id : CtxId} (h : (s.ctx id).gang = none) (n m : Nat) :
    s.waitOver id (.fullQueue n m) = s.hasRoom id.core.tile n (s.uidOf id) m := by
  simp [State.waitOver, State.tilesOf, h]

theorem emptyQueueWait {id : CtxId} {n m : Nat} (hphase : (s.ctx id).phase = .held (.emptyQueue n m)) (hgang : (s.ctx id).gang = none) :
    let c := s.ctx id
    let k := s.core id.core
    let l := (((s.tile id.core.tile).queue n).order (s.uidOf id)).length
    (m ≤ l → exec (.waitClear id) s = .next (s.setCtx id { c with phase := .run })) ∧
    (l < m → exec (.waitClear id) s = .next s) ∧
    (k.wdog.toNat < c.waited → exec (.long id) s = .next (s.takeTrap id causeLong false c.pc (BitVec.ofNat 64 (n * 256 + 1)))) ∧
    (c.waited ≤ k.wdog.toNat → exec (.long id) s = .next s) := by
  intro c k l
  rw [exec_waitClear hphase, State.waitOver_emptyQueue hgang, exec_long_held hphase]
  refine ⟨fun h => ?_, fun h => ?_, fun h => ?_, fun h => ?_⟩
  · rw [if_pos (decide_eq_true h)]
  · rw [if_neg (by simpa using h)]
  · rw [if_pos h]
    rfl
  · rw [if_neg (Nat.not_lt.mpr h)]

theorem fullQueueWait {id : CtxId} {n m : Nat} (hphase : (s.ctx id).phase = .held (.fullQueue n m)) (hgang : (s.ctx id).gang = none) :
    let c := s.ctx id
    let k := s.core id.core
    (s.hasRoom id.core.tile n (s.uidOf id) m = true → exec (.waitClear id) s = .next (s.setCtx id { c with phase := .run })) ∧
    (s.hasRoom id.core.tile n (s.uidOf id) m = false → exec (.waitClear id) s = .next s) ∧
    (k.wdog.toNat < c.waited → exec (.long id) s = .next (s.takeTrap id causeLong false c.pc (BitVec.ofNat 64 (n * 256 + 2)))) := by
  intro c k
  rw [exec_waitClear hphase, State.waitOver_fullQueue hgang, exec_long_held hphase]
  refine ⟨fun h => ?_, fun h => ?_, fun h => ?_⟩
  · rw [if_pos h]
  · rw [if_neg (Bool.eq_false_iff.mp h)]
  · rw [if_pos h]
    rfl

/-! ### An ldsync that waits is given up (05 R153; 07 R227) -/

/-- What a trap makes of its context depends on that context and on its core alone. -/
theorem State.ctx_takeTrap_congr {id : CtxId} (hctx : t.ctx id = s.ctx id) (hcore : t.core id.core = s.core id.core) (code : BitVec 8) (isAsync : Bool)
    (epc tval : Word) : (t.takeTrap id code isAsync epc tval).ctx id = (s.takeTrap id code isAsync epc tval).ctx id := by
  have hdouble (u : State) : (u.doubleTrap id code).ctx id = { u.ctx id with phase := .dead } := by
    rw [State.doubleTrap, State.logError, State.modPart_frame]
    exact State.ctx_setCtx_self ..
  obtain ⟨-, hs, -⟩ := State.disband_frame s id
  obtain ⟨-, ht, -⟩ := State.disband_frame t id
  unfold State.takeTrap
  dsimp only
  rw [apply_ite (fun x : State => x.ctx id), apply_ite (fun x : State => x.ctx id), hdouble, hdouble, State.ctx_modCtx_self, State.ctx_modCtx_self, hs, ht, hctx, hcore]

/-- A trap moves neither homes nor memory. -/
theorem State.takeTrap_moves (s : State) (id : CtxId) (code : BitVec 8) (isAsync : Bool) (epc tval : Word) :
    let t := s.takeTrap id code isAsync epc tval
    t = { s with ctxs := t.ctxs, cores := t.cores, parts := t.parts } := by
  have hdouble : s.doubleTrap id code = { s with ctxs := (s.doubleTrap id code).ctxs, parts := (s.doubleTrap id code).parts } := by
    rw [State.doubleTrap, State.logError, State.modPart_frame]
    rfl
  obtain ⟨hdisband, -⟩ := State.disband_frame s id
  have hor : s.takeTrap id code isAsync epc tval = s.doubleTrap id code ∨ ∃ f, s.takeTrap id code isAsync epc tval = (s.disband id).modCtx id f := by
    unfold State.takeTrap
    exact (ite_eq_or_eq _ _ _).imp_right fun h => ⟨_, h⟩
  dsimp only
  rcases hor with h | ⟨f, h⟩
  · rw [h, hdouble]
  · rw [h, State.modCtx, hdisband]
    rfl

/-- Giving up an ldsync takes it away at its own tile, and tells other tiles where it may stand. -/
theorem State.withdraw_frame (s : State) (id : CtxId) (req : Nat) :
    let t := s.withdraw id req
    t = { s with homes := t.homes, tiles := t.tiles, net := t.net, fresh := t.fresh } ∧ SameMemory s t ∧
    (t.home (.tile id.core.tile)).syncs = (s.home (.tile id.core.tile)).syncs.filter fun y => y.id ≠ req := by
  unfold State.withdraw
  dsimp only
  generalize List.filterMap _ _ ++ List.filterMap _ _ = ts
  generalize Issuer.mk .. = b
  obtain ⟨ht, hmem⟩ := SendsOnly.foldl (f := fun s t => s.send (some id.core) (some t) (.cancel t b req)) ts (fun _ _ => .sendSt)
    (s.modHome (.tile id.core.tile) fun x => { x with syncs := x.syncs.filter fun y => y.id ≠ req })
  refine ⟨?_, hmem, ?_⟩
  · rw [ht]
    rfl
  · rw [ht]
    have h := congrArg HomeSt.syncs (State.home_modHome_self s (.tile id.core.tile) fun x => { x with syncs := x.syncs.filter fun y => y.id ≠ req })
    exact h

theorem conversationWait {id : CtxId} {r need n : Nat} {buf : List Byte} {d : Cont} (hphase : (s.ctx id).phase = .busy r need buf n true d)
    (hdue : (s.core id.core).wdog.toNat < (s.ctx id).waited) :
    ∃ t, exec (.long id) s = .next t ∧ t.ctx id = (s.takeTrap id causeLong false (s.ctx id).pc 3).ctx id ∧
      (∀ x ∈ (t.home (.tile id.core.tile)).syncs, x.id ≠ r) ∧ SameMemory s t := by
  have habandon : s.abandon id = s.withdraw id r := by simp only [State.abandon, Ctx.syncing, hphase]
  obtain ⟨hw, hmem, hsyncs⟩ := State.withdraw_frame s id r
  have htrap := State.takeTrap_moves (s.withdraw id r) id causeLong false (s.ctx id).pc 3
  refine ⟨_, (exec_long (w := 3) (by simp only [State.longWord, hphase])).trans (congrArg _ (if_pos hdue)), ?_, fun x hx => ?_, ?_⟩
  · rw [habandon]
    refine State.ctx_takeTrap_congr ?_ ?_ _ _ _ _
    · rw [hw]
      rfl
    · rw [hw]
      rfl
  · rw [habandon, htrap] at hx
    have hmem : x ∈ ((s.withdraw id r).home (.tile id.core.tile)).syncs := hx
    rw [hsyncs] at hmem
    exact of_decide_eq_true (List.mem_filter.mp hmem).2
  · rw [habandon, htrap]
    exact hmem

/-! ### Traps and interrupts at a boundary (14 R420, R422; 16 R446) -/

/-- A context whose boundary is overrun with no unit in progress (16 R446). -/
def Ctx.stopped (c : Ctx) (now : Nat) : Ctx := { c with asked := some now, under := none }

/-- The context in the handler of its LONG kind 4. -/
def Ctx.overrunning (c : Ctx) (now : Nat) (entry : Word) : Ctx := (c.stopped now).enterKernel entry causeLong false c.pc 4

/-- The copy of the context that a save takes (14 R422; log 6). -/
def Ctx.overrunCopy (c d : Ctx) : Ctx :=
  { d with phase := .run, pc := c.pc, level := c.level, loop := c.loop, waited := 0, asked := none,
           kbank := { d.kbank with tnest := c.kbank.tnest }, hbank := { d.hbank with tnest := c.hbank.tnest } }

theorem State.overrun_none {id : CtxId} (hlevel : (s.ctx id).level = 0) (hnest : (s.ctx id).kbank.tnest = false) (hentry : (s.core id.core).tvecK ≠ 0)
    (hgang : (s.ctx id).gang = none) :
    let d := (s.ctx id).overrunning s.cycle (s.core id.core).tvecK
    s.overrun id none = (s.setCtx id d).modCore id.core fun k => { k with overruns := k.overruns.set id.c ((s.ctx id).overrunCopy d) } := by
  intro d
  have hself : (s.setCtx id ((s.ctx id).stopped s.cycle)).ctx id = (s.ctx id).stopped s.cycle := State.ctx_setCtx_self ..
  have htrap : (s.setCtx id ((s.ctx id).stopped s.cycle)).takeTrap id causeLong false (s.ctx id).pc 4 = s.setCtx id d := by
    rw [State.takeTrap_kernel (s := s.setCtx id ((s.ctx id).stopped s.cycle)) (by rw [hself]; exact hgang) (by rw [hself, Ctx.stopped, hlevel]; rfl) (by rw [hself]; exact hnest) hentry, hself]
    exact State.setCtx_setCtx ..
  have hd : (s.setCtx id d).ctx id = d := State.ctx_setCtx_self ..
  have hover : s.overrun id none = if ((s.setCtx id d).ctx id).phase = .dead then s.setCtx id d
      else (s.setCtx id d).modCore id.core fun k => { k with overruns := k.overruns.set id.c ((s.ctx id).overrunCopy ((s.setCtx id d).ctx id)) } := by
    rw [← htrap]
    rfl
  rw [hover, hd]
  exact if_neg Phase.noConfusion

theorem overrunAtBoundary {id : CtxId} {x : Nat} (hphase : (s.ctx id).phase = .run) (hasked : (s.ctx id).asked = some x)
    (hdue : x + (s.core id.core).wdog.toNat ≤ s.cycle) (hnotice : (s.ctx id).isNotice = false) (hin : s.inOverrun id = false) (hlevel : (s.ctx id).level = 0)
    (hnest : (s.ctx id).kbank.tnest = false) (hentry : (s.core id.core).tvecK ≠ 0) (hgang : (s.ctx id).gang = none) :
    let c := s.ctx id
    let k := s.core id.core
    ∃ t o, exec (.boundaryOverrun id) s = .next t ∧ t = { s with ctxs := t.ctxs, cores := t.cores } ∧ (∀ y, y ≠ id → t.ctx y = s.ctx y) ∧
      (t.ctx id).level = 1 ∧ (t.ctx id).pc = k.tvecK ∧ (t.ctx id).kbank.code = causeLong ∧ (t.ctx id).kbank.tval = 4 ∧ (t.ctx id).kbank.epc = c.pc ∧
      (t.ctx id).regs = c.regs ∧ t.core id.core = { k with overruns := k.overruns.set id.c o } ∧
      o.pc = c.pc ∧ o.level = 0 ∧ o.loop = c.loop ∧ o.regs = c.regs ∧ o.task = c.task ∧ o.phase = .run := by
  intro c k
  have hover : s.overrunDue id = true := by simp [State.overrunDue, hasked, hnotice, hin, hdue]
  have hcross : s.crosses id = false := by rw [State.crosses, hphase]
  have hbound : s.toBoundary id = some s := by rw [State.toBoundary, hphase]
  have hexec : exec (.boundaryOverrun id) s = .next (s.overrun id none) := by
    show execBoundaryOverrun id s = _
    rw [execBoundaryOverrun, hcross, hbound, hover]
    rfl
  have hover' := State.overrun_none hlevel hnest hentry hgang
  rw [hover'] at hexec
  have hself : (s.setCtx id (c.overrunning s.cycle k.tvecK)).ctx id = c.overrunning s.cycle k.tvecK := State.ctx_setCtx_self ..
  have hctx (y : CtxId) (f : Core → Core) : ((s.setCtx id (c.overrunning s.cycle k.tvecK)).modCore id.core f).ctx y =
    (s.setCtx id (c.overrunning s.cycle k.tvecK)).ctx y := rfl
  have hlevel' : (c.stopped s.cycle).level = 0 := hlevel
  refine ⟨_, c.overrunCopy (c.overrunning s.cycle k.tvecK), hexec, rfl, fun y hy => State.ctx_setCtx_ne s _ hy, ?_⟩
  rw [hctx, hself]
  refine ⟨?_, rfl, rfl, rfl, rfl, rfl, State.core_modCore_self _ _ _, rfl, hlevel, rfl, rfl, rfl, rfl⟩
  show (if (c.stopped s.cycle).level = 3 then (3 : BitVec 2) else 1) = 1
  rw [hlevel']
  rfl

theorem asyncAtBoundary {id : CtxId} {a : Async} (hphase : (s.ctx id).phase = .run) (hnext : (s.ctx id).nextAsync = some a)
    (hk : (s.ctx id).kbank.tnest = false) (hh : (s.ctx id).hbank.tnest = false) :
    let c := s.ctx id
    a ∈ c.asyncs ∧ (∀ b ∈ c.asyncs, a.code ≤ b.code) ∧
    exec (.asyncTrapTake id) s = .next ((s.setCtx id { c with asyncs := c.asyncs.erase a }).takeTrap id a.code true c.pc a.tval) := by
  intro c
  have hmem : a ∈ c.asyncs := minBy_mem hnext
  refine ⟨hmem, fun b hb => minBy_le hnext b hb, ?_⟩
  have hdue : (asyncDue c && c.atBoundary) = true := by
    simp [asyncDue, Ctx.atBoundary, c, hphase, hk, hh, List.ne_nil_of_mem hmem]
  show execAsyncTrapTake id s = _
  rw [execAsyncTrapTake, hnext]
  refine congrArg Host.Outcome.next ((if_pos hdue).trans ?_)
  rw [State.abandon_of_not_busy (by rw [Ctx.syncing, hphase])]
  rfl

theorem nextSource_eq {c : Ctx} {n : Nat} (hn : n < 16) (hbit : c.pending.getLsbD n = true) (hlow : ∀ m, m < n → c.pending.getLsbD m = false) : c.nextSource = n := by
  have hfind : (List.range 16).find? (fun n => c.pending.getLsbD n) = some n :=
    List.find?_range_eq_some.mpr ⟨hbit, List.mem_range.mpr hn, fun m hm => by rw [hlow m hm]; rfl⟩
  rw [Ctx.nextSource, hfind, Option.getD_some]

theorem interruptAtBoundary {id : CtxId} {n : Nat} (hphase : (s.ctx id).phase = .run) (huim : (s.ctx id).uim = false) (huih : (s.ctx id).uih = false)
    (hasyncs : (s.ctx id).asyncs = []) (hn : n < 16) (hbit : (s.ctx id).pending.getLsbD n = true) (hlow : ∀ m, m < n → (s.ctx id).pending.getLsbD m = false)
    (hover : s.overrunDue id = false) :
    let c := s.ctx id
    exec (.userInterruptEntry id) s = .next (s.setCtx id
      { c with waited := 0, pending := c.pending &&& ~~~((1 : BitVec 16) <<< n), upc := c.pc, uloop := c.loop, loop := { c.loop with active := false },
               uih := true, pc := c.uvec + BitVec.ofNat 64 (64 * n) }) := by
  intro c
  have hpending : (s.ctx id).pending ≠ 0#16 := fun h => by simp [h] at hbit
  have hlong : s.longDue id = false := by simp only [State.longDue, State.longWord, hphase, Option.isSome_none, Bool.false_and]
  have hdue : (interruptDue c && !asyncDue c && !s.longDue id && !s.overrunDue id && c.atBoundary) = true := by
    simp [interruptDue, asyncDue, Ctx.atBoundary, c, hphase, huim, huih, hasyncs, hlong, hover, hpending]
  have hint : c.interrupted = { c with waited := 0, pending := c.pending &&& ~~~((1 : BitVec 16) <<< n), upc := c.pc, uloop := c.loop,
                                       loop := { c.loop with active := false }, uih := true, pc := c.uvec + BitVec.ofNat 64 (64 * n) } := by
    rw [Ctx.interrupted, nextSource_eq hn hbit hlow, ← hphase]
  rw [← hint]
  refine congrArg Host.Outcome.next ((if_pos hdue).trans ?_)
  rw [State.abandon_of_not_busy (by rw [Ctx.syncing, hphase])]
  rfl

/-- A notice is taken in the lowest free context (14 R421). -/
theorem noticeAtBoundary {id : CtxId} {a : Async} {rest : List Async} (hnotices : (s.core id.core).notices = a :: rest) (hleast : ∀ b ∈ rest, a.code ≤ b.code)
    (hresident : s.resident id.core.tile = true) (hfollows : (s.core id.core).follows = none) (hfree : s.freeCtx id.core = some id)
    (hentry : (s.core id.core).tvecK ≠ 0) :
    let k := s.core id.core
    ∃ t x, exec (.kernelNotice id.core) s = .next t ∧ t = { s with ctxs := t.ctxs, cores := t.cores, fresh := t.fresh } ∧
      t.core id.core = { k with notices := rest } ∧ (∀ y, y ≠ id.core → t.core y = s.core y) ∧ (∀ y, y ≠ id → t.ctx y = s.ctx y) ∧
      (t.ctx id).level = 1 ∧ (t.ctx id).pc = k.tvecK ∧ (t.ctx id).phase = .run ∧
      (t.ctx id).kbank = { Bank.init with code := a.code, async := true, epc := 0, tval := a.tval, plevel := 0, tnest := true } ∧
      (t.ctx id).task = some x ∧ x.kind = .notice ∧ x.tt = none := by
  intro k
  let u := s.modCore id.core fun k => { k with notices := rest }
  let t : State := { u.setCtx id (u.noticeCtx id.core a) with fresh := u.fresh + 1 }
  have hmin : minBy (fun a : Async => a.code.toNat) (s.core id.core).notices = some a := by
    rw [hnotices]
    exact minBy_cons_of_le hleast
  have hcore : u.core id.core = { k with notices := rest } := State.core_modCore_self ..
  have hexec : exec (.kernelNotice id.core) s = .next t := by
    show execKernelNotice id.core s = _
    rw [execKernelNotice, hmin]
    dsimp only
    rw [hfree]
    refine congrArg Host.Outcome.next ((if_pos ?_).trans ?_)
    · rw [hresident, hfollows]
      rfl
    · have herase : (s.modCore id.core fun k => { k with notices := k.notices.erase a }) = u := by
        refine congrArg (fun l => s.setCore id.core { s.core id.core with notices := l }) ?_
        rw [hnotices, List.erase_cons_head]
      rw [herase]
      exact if_neg (by rw [show ({ u.setCtx id (u.noticeCtx id.core a) with fresh := u.fresh + 1 } : State).core id.core = u.core id.core from rfl, hcore]; exact hentry)
  have hctx : t.ctx id = u.noticeCtx id.core a := State.ctx_setCtx_self u ..
  have hcores (y : CoreId) (hy : y ≠ id.core) : u.core y = s.core y := State.core_modCore_ne _ _ hy
  have hvec : (u.core id.core).tvecK = k.tvecK := by rw [hcore]
  obtain ⟨x, htask, hkind, htt⟩ : ∃ x, (u.noticeCtx id.core a).task = some x ∧ x.kind = .notice ∧ x.tt = none := ⟨_, rfl, rfl, rfl⟩
  refine ⟨t, x, hexec, rfl, hcore, hcores, fun y hy => State.ctx_setCtx_ne u _ hy, ?_⟩
  rw [hctx]
  exact ⟨rfl, hvec, rfl, rfl, htask, hkind, htt⟩

/-- Settles O38, one clause for each thing that can happen at a boundary. -/
theorem boundaries : Obligations.Boundaries := fun _ _ =>
  ⟨fun _ _ hphase hgang => emptyQueueWait hphase hgang, fun _ _ hphase hgang => fullQueueWait hphase hgang,
    fun _ _ _ _ _ hphase hdue => conversationWait hphase hdue,
    fun _ hphase hasked hdue hnotice hin hlevel hnest hentry hgang => overrunAtBoundary hphase hasked hdue hnotice hin hlevel hnest hentry hgang,
    fun _ hphase hnext hk hh => asyncAtBoundary hphase hnext hk hh,
    fun _ hphase huim huih hasyncs hn hbit hlow hover => interruptAtBoundary hphase huim huih hasyncs hn hbit hlow hover,
    fun _ _ hnotices hleast hresident hfollows hfree hentry => noticeAtBoundary hnotices hleast hresident hfollows hfree hentry⟩

end Sys2Proof.Machine
end

section
/-! What a home's service changes: what it answers and acknowledges leaves what it holds and its bytes alone (12 R362 to R365). -/

namespace Sys2Proof.Machine

open Sys2Proof.Claims

-- One proof after the other: what one needed of memory the next one uses again.
set_option Elab.async false

variable {s t u : State} {h : Home} {e : Effect} {a : Act}

/-! ### Answers and acknowledgements -/

/-- Only packets were sent, by no core, behind what travels. -/
def Adds (s t : State) : Prop := t = { s with net := t.net, fresh := t.fresh } ∧ ∃ ys, t.net = s.net ++ ys

theorem Adds.refl (s : State) : Adds s s := ⟨rfl, [], (List.append_nil _).symm⟩

theorem Adds.home (h : Adds s t) (g : Home) : t.home g = s.home g := by
  obtain ⟨ht, -⟩ := h
  rw [ht]
  rfl

theorem Adds.sendBack {b : Issuer} {p : Packet} : Adds s (s.sendBack b p) := by
  rw [State.sendBack_eq]
  exact ⟨rfl, _, rfl⟩

theorem Adds.acknowledge : Adds s (s.acknowledge e) := by
  unfold State.acknowledge
  cases e.wid with
  | none => exact .refl s
  | some w => exact .sendBack

theorem Adds.answer {v : Option Word} : Adds s (s.answer e v) := by
  unfold State.answer
  cases e.reply with
  | none => exact .refl s
  | some q =>
    cases v with
    | none => exact .refl s
    | some w => exact .sendBack

theorem State.acknowledge_of_some {w : Nat} (hw : e.wid = some w) : ∃ y ∈ (s.acknowledge e).net, y.pkt = .ack w := by
  refine ⟨s.flightOf none (some e.by_.core.tile) (.ack w) .transit, ?_, rfl⟩
  rw [State.acknowledge, hw]
  show _ ∈ (s.sendBack e.by_ (.ack w)).net
  rw [State.sendBack_eq]
  exact List.mem_append_right _ (List.mem_singleton_self _)

theorem State.answer_of_some {q : Nat} {w : Word} {v : Option Word} (hq : e.reply = some q) (hv : v = some w) :
    ∃ y ∈ (s.answer e v).net, y.pkt = .reply e.by_ q 0 (wordBytes w) := by
  refine ⟨s.flightOf none (some e.by_.core.tile) (.reply e.by_ q 0 (wordBytes w)) .transit, ?_, rfl⟩
  simp only [State.answer, hq, hv]
  rw [State.sendBack_eq]
  exact List.mem_append_right _ (List.mem_singleton_self _)

/-- A home was served: packets were sent, requests that waited are gone, what homes hold stays held. -/
def Answered (s t : State) : Prop :=
  t = { s with homes := t.homes, net := t.net, fresh := t.fresh } ∧ (∃ ys, t.net = s.net ++ ys) ∧ ∀ g, (t.home g).held = (s.home g).held

theorem Adds.answered (h : Adds s t) : Answered s t := by
  obtain ⟨ht, hnet⟩ := h
  refine ⟨?_, hnet, fun g => ?_⟩
  · rw [ht]
  · rw [ht]
    rfl

theorem Answered.refl (s : State) : Answered s s := (Adds.refl s).answered

theorem Answered.trans (h : Answered s t) (h' : Answered t u) : Answered s u := by
  obtain ⟨ht, ⟨ys, hnet⟩, hheld⟩ := h
  obtain ⟨hu, ⟨zs, hnet'⟩, hheld'⟩ := h'
  refine ⟨by rw [hu, ht], ⟨ys ++ zs, ?_⟩, fun g => (hheld' g).trans (hheld g)⟩
  rw [hnet', hnet, List.append_assoc]

/-- What travels goes on to travel. -/
theorem Answered.mem_net {y : Flight} (h : Answered s t) (hy : y ∈ s.net) : y ∈ t.net := by
  obtain ⟨-, ⟨ys, hnet⟩, -⟩ := h
  rw [hnet]
  exact List.mem_append_left _ hy

/-- A home's other tables move, what it holds stays. -/
theorem Answered.modHome {f : HomeSt → HomeSt} (hf : ∀ x, (f x).held = x.held) : Answered s (s.modHome h f) := by
  refine ⟨rfl, ⟨[], (List.append_nil _).symm⟩, fun g => ?_⟩
  by_cases hg : g = h
  · rw [hg, State.home_modHome_self, hf]
  · rw [State.home_modHome_ne _ _ hg]

theorem Answered.foldl {α : Type} {f : State → α → State} (l : List α) (hf : ∀ s a, Answered s (f s a)) (s : State) : Answered s (l.foldl f s) :=
  List.foldlRecOn l f (.refl s) fun _ ht a _ => ht.trans (hf _ a)

/-- A request that waited is answered. -/
theorem Answered.dropSync {p : Sync → Bool} {b : Issuer} {q : Packet} : Answered s ((s.modHome h fun x => { x with syncs := x.syncs.filter p }).sendBack b q) :=
  .trans (.modHome (f := fun x => { x with syncs := x.syncs.filter p }) fun _ => rfl) Adds.sendBack.answered

theorem Answered.serveNew {news : List Effect} : Answered s (s.serveNew h news) := by
  refine .foldl _ (fun s y => ?_) s
  split
  · exact .dropSync
  · exact .refl s

theorem Answered.serveApplied {old : Cells} : Answered s (s.serveApplied h old) := by
  refine .trans (.foldl _ (fun s y => ?_) s) .serveNew
  split
  · exact .dropSync
  · exact .refl s

/-! ### One act of an effect is done (12 R363; 07 R218) -/

/-- Beside what its act does, an effect that is applied is only recorded and answered. -/
theorem State.applyRaw_single (hacts : e.acts = [a]) : Answered (s.runAct h e a).1 (s.applyRaw h e).1 ∧ (s.applyRaw h e).2 = (s.runAct h e a).2 := by
  have hvalue (v : Option Word) : (if v.isSome then v else none) = v := by cases v <;> rfl
  unfold State.applyRaw
  rw [hacts]
  dsimp only [List.foldl_cons, List.foldl_nil]
  rw [hvalue]
  refine ⟨.trans ?_ .serveApplied, rfl⟩
  cases e.key with
  | none => exact .refl _
  | some k => exact .modHome fun _ => rfl

theorem Answered.applyEffect (hacts : e.acts = [a]) : Answered (s.runAct h e a).1 (s.applyEffect h e) :=
  (State.applyRaw_single hacts).1.trans Adds.answer.answered

/-- The bytes and full/empty bits of homes after a service. -/
theorem Answered.cells (h : Answered s t) (g : Home) : t.cells g = s.cells g := by
  obtain ⟨ht, -⟩ := h
  rw [ht]
  cases g <;> rfl

/-! ### What an act does to its home's cells (07 R218, R224, R237; 12 R373 to R375) -/

theorem State.giveFlags_zero (s : State) (b : Issuer) : s.giveFlags b 0 = s := if_pos (.inl rfl)

theorem State.modKept_frame (s : State) (id : CtxId) (uid : Nat) (f : Ctx → Ctx) : s.modKept id uid f = { s with cores := (s.modKept id uid f).cores } := by
  unfold State.modKept
  split
  · rfl
  · split <;> rfl

theorem State.modRunning_frame (s : State) (c : CoreId) (uid : Nat) (f : Ctx → Ctx) :
    s.modRunning c uid f = { s with ctxs := (s.modRunning c uid f).ctxs, cores := (s.modRunning c uid f).cores } := by
  unfold State.modRunning
  split
  · rw [State.modKept_frame]
    rfl
  · rfl

theorem State.giveFlags_frame (s : State) (b : Issuer) (f : Flags) :
    s.giveFlags b f = { s with ctxs := (s.giveFlags b f).ctxs, cores := (s.giveFlags b f).cores, tts := (s.giveFlags b f).tts } := by
  unfold State.giveFlags
  split
  · rfl
  · split
    · rw [State.modRunning_frame]
    · split
      · rfl
      · rw [State.modTT_frame]

/-- The write of a tile's bytes gives no flag and no value. -/
theorem State.runAct_write {x : TileId} {off : Nat} {bs : List Byte} {fe : FE} :
    s.runAct (.tile x) e (.write off bs fe) = (s.setCells (.tile x) ((Act.write off bs fe).run (s.cells (.tile x))).1, none) :=
  congrArg (·, none) (State.giveFlags_zero _ e.by_)

theorem Act.mem_run_write (off : Nat) (bs : List Byte) (fe : FE) (c : Cells) : ((Act.write off bs fe).run c).1.mem = c.mem.write off bs :=
  Cells.mem_mark { c with mem := c.mem.write off bs } fe _

/-- An act that neither wakes nor counts, and is no write to a command page, acts on its home's cells. -/
theorem State.runAct_cells (hpage : commandPageAt h a.range.1 = none) (hwake : ∀ o n, a ≠ .wake o n) (hincr : ∀ c n, a ≠ .incr c n) :
    s.runAct h e a = s.runCells h e a := by
  cases a with
  | wake o n => exact absurd rfl (hwake o n)
  | incr c n => exact absurd rfl (hincr c n)
  | write off bs fe =>
    have hoff : commandPageAt h off = none := hpage
    simp only [State.runAct, hoff]
  | setEmpty | bits | amo | famo | bf | add => rfl

theorem State.cells_setCells (s : State) (h : Home) (c : Cells) :
    ((s.setCells h c).cells h).mem = c.mem ∧ (∀ x, h = .tile x → ((s.setCells h c).tile x).full = c.full) ∧
    ∀ g, g ≠ h → (s.setCells h c).cells g = s.cells g := by
  cases h with
  | tile t =>
    have hself : (s.setCells (.tile t) c).tile t = { s.tile t with mem := c.mem, full := c.full } := State.tile_modTile_self ..
    refine ⟨congrArg Tile.mem hself, fun x hx => ?_, fun g hg => ?_⟩
    · cases hx
      exact congrArg Tile.full hself
    · cases g with
      | tile x =>
        have hx : (s.setCells (.tile t) c).tile x = s.tile x := State.tile_modTile_ne _ _ fun h => hg (congrArg Home.tile h)
        simp only [State.cells, hx]
      | agent n => rfl
      | host n => rfl
  | agent n =>
    refine ⟨Map.getD_set_self .., fun x hx => Home.noConfusion hx, fun g hg => ?_⟩
    cases g with
    | agent m =>
      have hm : (s.setCells (.agent n) c).stack m = s.stack m := Map.getD_set_ne _ _ _ fun h => hg (congrArg Home.agent h)
      simp only [State.cells, hm]
    | tile x => rfl
    | host m => rfl
  | host n =>
    refine ⟨Map.getD_set_self .., fun x hx => Home.noConfusion hx, fun g hg => ?_⟩
    cases g with
    | host m =>
      have hm : (s.setCells (.host n) c).hostMem m = s.hostMem m := Map.getD_set_ne _ _ _ fun h => hg (congrArg Home.host h)
      simp only [State.cells, hm]
    | tile x => rfl
    | agent m => rfl

/-- What an act on cells changes beside them: its issuer's flags (04 R116). -/
theorem State.runCells_frame (s : State) (h : Home) (e : Effect) (a : Act) :
    let t := (s.runCells h e a).1
    let c := (a.run (s.cells h)).1
    t = { s with ctxs := t.ctxs, cores := t.cores, tts := t.tts, tiles := t.tiles, hbm := t.hbm, host := t.host } ∧
    (t.cells h).mem = c.mem ∧ (∀ x, h = .tile x → (t.tile x).full = c.full) ∧ ∀ g, g ≠ h → t.cells g = s.cells g := by
  unfold State.runCells
  dsimp only
  obtain ⟨hmem, hfull, hothers⟩ := State.cells_setCells s h (a.run (s.cells h)).1
  have hset : s.setCells h (a.run (s.cells h)).1 = { s with
      tiles := (s.setCells h (a.run (s.cells h)).1).tiles, hbm := (s.setCells h (a.run (s.cells h)).1).hbm, host := (s.setCells h (a.run (s.cells h)).1).host } := by
    cases h <;> rfl
  generalize s.setCells h (a.run (s.cells h)).1 = u at hmem hfull hothers hset
  have hgive := u.giveFlags_frame e.by_ (a.run (s.cells h)).2.2
  generalize u.giveFlags e.by_ (a.run (s.cells h)).2.2 = t at hgive ⊢
  have hcells (g : Home) : t.cells g = u.cells g := by
    rw [hgive]
    cases g <;> rfl
  have htile (x : TileId) : t.tile x = u.tile x := by
    rw [hgive]
    rfl
  refine ⟨?_, ?_, fun x hx => ?_, fun g hg => ?_⟩
  · rw [hgive, hset]
  · rw [hcells, hmem]
  · rw [htile, hfull x hx]
  · rw [hcells, hothers g hg]

end Sys2Proof.Machine
end

section
/-! O39: tile tasks complete and retire; the front of a home releases what it holds; a join's offer becomes ready. -/

namespace Sys2Proof.Machine

open Sys2Proof.Claims

-- One proof after the other: what one needed of memory the next one uses again.
set_option Elab.async false

variable {s t u : State}

/-! ### Completion (12 R359) -/

/-- A tile task that is marked as having nothing left. -/
def State.completed (s : State) (tt : TTId) : State := s.modTT tt fun y => { y with done := true, report := none }

theorem State.completed_frame {tt : TTId} {x : TileTask} (hx : s.tts.get? tt = some x) :
    let u := s.completed tt
    u = { s with tts := u.tts } ∧ u.tts.get? tt = some { x with done := true, report := none } ∧ ∀ y, y ≠ tt → u.tts.get? y = s.tts.get? y := by
  refine ⟨State.modTT_frame .., ?_, fun y hy => ?_⟩
  · rw [State.completed, State.get?_modTT, if_pos rfl, hx]
    rfl
  · rw [State.completed, State.get?_modTT, if_neg hy]

theorem exec_tileTaskComplete {tt : TTId} {x : TileTask} (hx : s.tts.get? tt = some x) (hdone : x.done = false) (hfinished : s.finished tt x = true) :
    exec (.tileTaskComplete tt) s = .next (x.report.elim (s.completed tt) fun r =>
      (s.completed tt).sendSt (some (x.tile.core .mc)) (some r.1.tile) (.increment r.1 r.2) (.queued (s.writesOf tt))) := by
  show execTileTaskComplete tt s = _
  rw [execTileTaskComplete, hx]
  have hdue : (!x.done && s.finished tt x) = true := by rw [hdone, hfinished]; rfl
  refine congrArg Host.Outcome.next ((if_pos hdue).trans ?_)
  cases x.report <;> rfl

theorem tileTaskCompletes {tt : TTId} {x : TileTask} (hx : s.tts.get? tt = some x) (hdone : x.done = false) (hfinished : s.finished tt x = true) :
    ∃ t, exec (.tileTaskComplete tt) s = .next t ∧ t.tts.get? tt = some { x with done := true, report := none } ∧
      (∀ y, y ≠ tt → t.tts.get? y = s.tts.get? y) ∧ t.ctxs = s.ctxs ∧ t.cores = s.cores ∧ t.homes = s.homes ∧ SameMemory s t ∧
      (x.report = none → t.net = s.net) ∧
      (∀ d n, x.report = some (d, n) → ∃ y, t.net = s.net ++ [y] ∧ y.pkt = .increment d n ∧ y.dst = some d.tile ∧ y.st = .queued (s.writesOf tt)) := by
  obtain ⟨hu, hself, hothers⟩ := State.completed_frame hx
  have hexec := exec_tileTaskComplete hx hdone hfinished
  generalize s.completed tt = u at hu hself hothers hexec
  cases hreport : x.report with
  | none =>
    rw [hreport] at hexec
    refine ⟨u, hexec, hself, hothers, ?_, ?_, ?_, ?_, fun _ => ?_, fun _ _ h => Option.some_ne_none _ h.symm |>.elim⟩
    all_goals rw [hu]
    exact .refl s
  | some r =>
    obtain ⟨c, e⟩ := r
    rw [hreport] at hexec
    obtain ⟨ht, hmem⟩ := SendsOnly.sendSt (s := u) (src := some (x.tile.core .mc)) (dst := some c.tile) (p := .increment c e) (st := .queued (s.writesOf tt))
    have hnet := congrArg State.net (State.sendSt_eq u (some (x.tile.core .mc)) (some c.tile) (.increment c e) (.queued (s.writesOf tt)))
    have hnet' : u.net = s.net := by rw [hu]
    have hmem' : SameMemory s u := by rw [hu]; exact .refl s
    refine ⟨_, hexec, ?_, fun y hy => ?_, ?_, ?_, ?_, hmem'.trans hmem, fun h => Option.some_ne_none _ h |>.elim, fun d n h => ?_⟩
    · exact (congrArg (fun v : State => v.tts.get? tt) ht).trans hself
    · exact (congrArg (fun v : State => v.tts.get? y) ht).trans (hothers y hy)
    · exact (congrArg State.ctxs ht).trans (by rw [hu])
    · exact (congrArg State.cores ht).trans (by rw [hu])
    · exact (congrArg State.homes ht).trans (by rw [hu])
    · cases h
      exact ⟨_, hnet.trans (congrArg (· ++ _) hnet'), rfl, rfl, rfl⟩

/-! ### Retirement (12 R360; 16 R454) -/

/-- The mending fronts without a tile task. -/
def Zone.withoutRerun (tt : TTId) (z : Zone) : Zone := { z with rerun := z.rerun.filter fun t => t ≠ tt }

theorem exec_tileTaskRetire {tt : TTId} {x : TileTask} (hx : s.tts.get? tt = some x) :
    exec (.tileTaskRetire tt) s = .next (if ((!x.retired || s.rerunning tt) && x.done && (x.ran || x.voided) && s.settled tt) = true then
      ({ s with zones := s.zones.map fun z => (z.1, z.2.withoutRerun tt) } : State).modTT tt fun y => { y with retired := true } else s) := by
  show execTileTaskRetire tt s = _
  rw [execTileTaskRetire, hx]
  rfl

theorem tileTaskRetires {tt : TTId} {x : TileTask} (hx : s.tts.get? tt = some x) (hdue : x.retired = false ∨ s.rerunning tt = true) (hdone : x.done = true)
    (hran : x.ran = true ∨ x.voided = true) (hsettled : s.settled tt = true) :
    ∃ t, exec (.tileTaskRetire tt) s = .next t ∧ t = { s with tts := t.tts, zones := t.zones } ∧ t.tts.get? tt = some { x with retired := true } ∧
      t.rerunning tt = false ∧ ∀ y, y ≠ tt → t.tts.get? y = s.tts.get? y ∧ t.rerunning y = s.rerunning y := by
  let u : State := { s with zones := s.zones.map fun z => (z.1, z.2.withoutRerun tt) }
  have ht := State.modTT_frame u tt fun y => { y with retired := true }
  have hcond : ((!x.retired || s.rerunning tt) && x.done && (x.ran || x.voided) && s.settled tt) = true := by
    rcases hdue with h | h <;> rcases hran with h' | h' <;> simp [h, h', hdone, hsettled]
  refine ⟨_, (exec_tileTaskRetire hx).trans (congrArg _ (if_pos hcond)), ?_, ?_, ?_, fun y hy => ⟨?_, ?_⟩⟩
  · rw [ht]
  · rw [State.get?_modTT, if_pos rfl]
    exact congrArg _ hx
  · rw [ht]
    exact List.any_eq_false.mpr fun z hz => by
      obtain ⟨y, -, rfl⟩ := List.mem_map.mp hz
      simp [Zone.withoutRerun]
  · rw [State.get?_modTT, if_neg hy]
  · rw [ht]
    show List.any (s.zones.map _) _ = _
    rw [List.any_map]
    refine congrArg (List.any s.zones) (funext fun z => ?_)
    simp [Zone.withoutRerun, List.contains_eq_mem, List.mem_filter, hy]

theorem tileTaskStays {tt : TTId} {x : TileTask} (hx : s.tts.get? tt = some x) (h : x.done = false ∨ s.settled tt = false) :
    exec (.tileTaskRetire tt) s = .next s := by
  refine (exec_tileTaskRetire hx).trans (congrArg _ (if_neg ?_))
  rcases h with h | h <;> simp [h]

/-! ### The front of a home (12 R361 to R364) -/

/-- An effect that alone is held is taken when the front has reached it. -/
theorem State.nextEligible_single {h : Home} {e : Effect} {key : Key} (hserves : s.homeServes h = true) (hheld : (s.home h).held = [e]) (hkey : e.key = some key)
    (hgated : e.gated = true) (hmirrored : s.mirrored e = true) : s.nextEligible h = if s.reached h key.tt then some e else none := by
  have heligible : s.eligible h e [] [] = s.reached h key.tt := by
    simp [State.eligible, hkey, hgated, hmirrored]
  have hnone : [e].filter (fun x => decide (x ≠ e)) = [] := by simp
  rw [State.nextEligible, hserves, if_pos rfl, hheld]
  simp only [List.length_singleton, List.range_one, List.filterMap_cons, List.filterMap_nil, List.getElem?_cons_zero, List.take_zero, hnone, heligible]
  cases s.reached h key.tt <;> rfl

/-- The held effect that the front reaches is applied, or answered as before when its key has been applied. -/
theorem State.drainHome_reached {h : Home} {e : Effect} (hnext : s.nextEligible h = some e) (hheld : (s.home h).held = [e]) :
    let u := s.modHome h fun x => { x with held := [] }
    (∀ v, s.repeated h e = some v → s.drainHome h 1 = (u.answer e v).acknowledge e) ∧
    (s.repeated h e = none → s.drainHome h 1 = (u.applyEffect h e).acknowledge e) := by
  intro u
  have herase : (s.modHome h fun x => { x with held := x.held.erase e }) = u := by
    refine congrArg (fun l => s.modHome h fun _ => { s.home h with held := l }) (?_ : (s.home h).held.erase e = [])
    rw [hheld, List.erase_cons_head]
  have hrepeated : u.repeated h e = s.repeated h e := by
    have happlied : (u.home h).applied = (s.home h).applied := by rw [State.home_modHome_self]
    simp only [State.repeated, happlied]
  rw [State.drainHome, hnext]
  dsimp only
  rw [herase, hrepeated]
  refine ⟨fun v hv => ?_, fun hv => ?_⟩
  · rw [hv]
    rfl
  · rw [hv]
    rfl

theorem State.ackMirrored_nil {h : Home} (hheld : (s.home h).held = []) : s.ackMirrored h = s := by
  rw [State.ackMirrored, hheld, List.foldl_nil]

theorem State.ackMirrored_single {h : Home} {e : Effect} (hheld : (s.home h).held = [e]) :
    let t := s.ackMirrored h
    t = { s with homes := t.homes, net := t.net, fresh := t.fresh } ∧ ∃ w, (t.home h).held = [{ e with wid := w }] := by
  rw [State.ackMirrored, hheld, List.foldl_cons, List.foldl_nil]
  split
  · have hack := Adds.acknowledge (s := s.modHome h fun x => { x with held := x.held.map fun y => if y = e then { y with wid := none } else y }) (e := e)
    refine ⟨by rw [hack.1]; rfl, none, ?_⟩
    rw [hack.home, State.home_modHome_self, hheld, List.map_cons, List.map_nil, if_pos rfl]
  · exact ⟨rfl, e.wid, hheld⟩

/-- What a write that the front has reached leaves: its bytes once, nothing held, its acknowledgement. -/
theorem drained_write {h : TileId} {e : Effect} {off : Nat} {bs : List Byte} {fe : FE} (hnext : s.nextEligible (.tile h) = some e)
    (hheld : (s.home (.tile h)).held = [e]) (hacts : e.acts = [.write off bs fe]) :
    ∃ u, u = { s with homes := u.homes, tiles := u.tiles } ∧ Answered u (s.drainHome (.tile h) 1) ∧ (u.home (.tile h)).held = [] ∧
      (∀ y, y ≠ h → u.tile y = s.tile y) ∧
      (u.tile h).mem = (if s.repeated (.tile h) e = none then (s.tile h).mem.write off bs else (s.tile h).mem) ∧
      ∀ w, e.wid = some w → ∃ y ∈ (s.drainHome (.tile h) 1).net, y.pkt = .ack w := by
  obtain ⟨hagain, hnew⟩ := State.drainHome_reached hnext hheld
  let u := s.modHome (.tile h) fun x => { x with held := [] }
  have hempty : (u.home (.tile h)).held = [] := congrArg HomeSt.held (State.home_modHome_self ..)
  cases hrep : s.repeated (.tile h) e with
  | some v =>
    rw [hagain v hrep]
    exact ⟨u, rfl, Adds.answer.answered.trans Adds.acknowledge.answered, hempty, fun _ _ => rfl, rfl, fun w hw => State.acknowledge_of_some hw⟩
  | none =>
    rw [hnew hrep]
    have happlied := Answered.applyEffect (s := u) (h := .tile h) hacts
    rw [State.runAct_write] at happlied
    obtain ⟨hmem, -, hothers⟩ := State.cells_setCells u (.tile h) ((Act.write off bs fe).run (u.cells (.tile h))).1
    exact ⟨u.setCells (.tile h) ((Act.write off bs fe).run (u.cells (.tile h))).1, rfl, happlied.trans Adds.acknowledge.answered, hempty, fun y hy => State.tile_modTile_ne u _ hy,
      hmem.trans (Act.mem_run_write ..), fun w hw => State.acknowledge_of_some hw⟩

theorem frontAdvances {h : TileId} {e : Effect} {off : Nat} {bs : List Byte} {fe : FE} {key : Key} (hserves : s.homeServes (.tile h) = true)
    (hheld : (s.home (.tile h)).held = [e]) (hkey : e.key = some key) (hgated : e.gated = true) (hmirrored : s.mirrored e = true) (hacts : e.acts = [.write off bs fe]) :
    ∃ t, exec (.frontAdvance (.tile h)) s = .next t ∧ t.hbm = s.hbm ∧ t.host = s.host ∧ t.ctxs = s.ctxs ∧ (∀ y, y ≠ h → t.tile y = s.tile y) ∧
      (s.reached (.tile h) key.tt = true →
        (t.home (.tile h)).held = [] ∧
        (t.tile h).mem = (if s.repeated (.tile h) e = none then (s.tile h).mem.write off bs else (s.tile h).mem) ∧
        ∀ w, e.wid = some w → ∃ y ∈ t.net, y.pkt = .ack w) ∧
      (s.reached (.tile h) key.tt = false → (∃ w, (t.home (.tile h)).held = [{ e with wid := w }]) ∧ (t.tile h).mem = (s.tile h).mem) := by
  have hnext := State.nextEligible_single hserves hheld hkey hgated hmirrored
  have hexec : exec (.frontAdvance (.tile h)) s = .next ((((s.drainHome (.tile h) 1).ackMirrored (.tile h)).serveNew (.tile h)
      ((s.drainHome (.tile h) 1).newMirrored (.tile h)))) := by
    show execFrontAdvance (.tile h) s = _
    rw [execFrontAdvance, State.catchUp, hheld, hserves]
    rfl
  cases hreached : s.reached (.tile h) key.tt with
  | true =>
    obtain ⟨u, hu, hdrain, hempty, hothers, hmem, hack⟩ := drained_write (hnext.trans (if_pos hreached)) hheld hacts
    have hserved := hdrain.trans (.serveNew (h := .tile h) (news := (s.drainHome (.tile h) 1).newMirrored (.tile h)))
    rw [State.ackMirrored_nil ((hdrain.2.2 _).trans hempty)] at hexec
    obtain ⟨ht, -, hheld'⟩ := hserved
    refine ⟨_, hexec, ?_, ?_, ?_, fun y hy => ?_, fun _ => ⟨?_, ?_, fun w hw => ?_⟩, fun h => Bool.noConfusion h⟩
    · rw [ht, hu]
    · rw [ht, hu]
    · rw [ht, hu]
    · rw [ht]
      exact hothers y hy
    · rw [hheld', hempty]
    · rw [ht]
      exact hmem
    · obtain ⟨y, hy, hpkt⟩ := hack w hw
      exact ⟨y, Answered.serveNew.mem_net hy, hpkt⟩
  | false =>
    have hstays : s.drainHome (.tile h) 1 = s := by
      rw [State.drainHome, hnext, hreached]
      rfl
    rw [hstays] at hexec
    obtain ⟨ht, w, hw⟩ := State.ackMirrored_single hheld
    obtain ⟨hu, -, hheld'⟩ := Answered.serveNew (s := s.ackMirrored (.tile h)) (h := .tile h) (news := s.newMirrored (.tile h))
    refine ⟨_, hexec, ?_, ?_, ?_, fun y _ => ?_, fun h => Bool.noConfusion h, fun _ => ⟨⟨w, (hheld' _).trans hw⟩, ?_⟩⟩
    · rw [hu, ht]
    · rw [hu, ht]
    · rw [hu, ht]
    · rw [hu, ht]
      rfl
    · rw [hu, ht]
      rfl

/-! ### A join's offer (08 R266) -/

theorem offerReady {c : CoreId} {o : Offer} (hoffer : (s.core c).offer = some o) (hready : o.ready = false) (hresident : s.resident c.tile = true)
    (hidle : ∀ i, i < 4 → (s.ctx ⟨c, i⟩).phase = .free) :
    ∃ t, exec (.gjoinOfferReady c) s = .next t ∧ (t.core c) = { s.core c with offer := some { o with ready := true } } ∧
      (∀ y, y ≠ c → t.core y = s.core y) ∧ t.ctxs = s.ctxs ∧ SameMemory s t ∧ (o.notify = false → t.net = s.net) ∧
      (o.notify = true → ∃ y, t.net = s.net ++ [y] ∧ y.pkt = .increment ⟨c.l, c.t - (c.t % s.gridX c.l) % o.size, .ac⟩ o.entry) := by
  let u := s.modCore c fun k => { k with offer := some { o with ready := true } }
  let leader : CoreId := ⟨c.l, c.t - (c.t % s.gridX c.l) % o.size, .ac⟩
  have hexec : exec (.gjoinOfferReady c) s = .next (if o.notify then u.sendIncr (some c) leader o.entry else u) := by
    show execGjoinOfferReady c s = _
    rw [execGjoinOfferReady, hoffer]
    refine congrArg Host.Outcome.next (if_pos ?_)
    have hall : ((List.range 4).all fun i => decide ((s.ctx ⟨c, i⟩).phase = .free)) = true :=
      List.all_eq_true.mpr fun i hi => decide_eq_true (hidle i (List.mem_range.mp hi))
    rw [hready, hresident, hall]
    rfl
  have hself : u.core c = { s.core c with offer := some { o with ready := true } } := State.core_modCore_self ..
  have hothers (y : CoreId) (hy : y ≠ c) : u.core y = s.core y := State.core_modCore_ne _ _ hy
  by_cases hnotify : o.notify = true
  case neg =>
    rw [if_neg hnotify] at hexec
    exact ⟨u, hexec, hself, hothers, rfl, .refl s, fun _ => rfl, fun h => absurd h hnotify⟩
  case pos =>
    rw [if_pos hnotify] at hexec
    have hsend := State.sendSt_eq u (some c) (some leader.tile) (.increment leader o.entry) (.queued [])
    obtain ⟨ht, hmem⟩ := SendsOnly.sendSt (s := u) (src := some c) (dst := some leader.tile) (p := .increment leader o.entry) (st := .queued [])
    refine ⟨_, hexec, (congrArg (fun v : State => v.core c) ht).trans hself, fun y hy => (congrArg (fun v : State => v.core y) ht).trans (hothers y hy),
      (congrArg State.ctxs ht).trans rfl, hmem, fun h => absurd hnotify (Bool.eq_false_iff.mp h), fun _ => ⟨_, congrArg State.net hsend, rfl⟩⟩

/-- Settles O39, one clause for each step. -/
theorem tileTaskSteps : Obligations.TileTaskSteps := fun _ _ _ _ _ _ _ _ _ _ _ =>
  ⟨fun hx hdone hfinished => tileTaskCompletes hx hdone hfinished, fun hx hdue hdone hran hsettled => tileTaskRetires hx hdue hdone hran hsettled,
    fun hx h => tileTaskStays hx h, fun hserves hheld hkey hgated hmirrored hacts => frontAdvances hserves hheld hkey hgated hmirrored hacts,
    fun hoffer hready hresident hidle => offerReady hoffer hready hresident hidle⟩

end Sys2Proof.Machine
end

section
/-! O33: spawning, and the ticket units. A child is entered at its tile's task table, then its activation is sent. -/

namespace Sys2Proof.Machine

open Sys2Proof.Claims

-- One proof after the other: what one needed of memory the next one uses again.
set_option Elab.async false

variable {s t u : State}

/-! ### The spawn word (05 Table 5.5) -/

theorem spawnWord_upper (w : Word) : w.extractLsb' 35 29 ≠ 0 ↔ w.toNat / 2 ^ 35 ≠ 0 := by
  rw [Ne, extractLsb'_upper_eq_zero (n := 35) rfl, Ne, Nat.div_eq_zero_iff_lt (Nat.two_pow_pos 35)]

theorem badSpawn_iff (s : State) (w : Word) (roaming : Bool) : s.badSpawn w roaming = true ↔
    w.toNat / 2 ^ 35 ≠ 0 ∨ w.extractLsb' 33 2 = 3 ∨ s.gridSize s.cur.core.l ≤ w.toNat % 2 ^ 20 ∨ (roaming = false ∧ w.extractLsb' 20 4 ≠ 0) := by
  rw [← spawnWord_upper]
  simp only [State.badSpawn, Bool.or_eq_true, Bool.and_eq_true, decide_eq_true_eq, Bool.not_eq_true', toNat_extractLsb'_low, or_assoc]

/-- The role that a spawn word names. -/
theorem spawnRole_eq {w : Word} (h : w.extractLsb' 33 2 ≠ 3) :
    Role.ofCode (w.extractLsb' 33 2).toNat = if w.extractLsb' 33 2 = 0 then .mc else if w.extractLsb' 33 2 = 1 then .fc else .ac := by
  generalize w.extractLsb' 33 2 = r at h
  revert h
  revert r
  decide

/-! ### Where a child lands (05 R159) -/

theorem landing_mem (s : State) (hint r : Nat) (role : Role) (child : List (BitVec 16)) :
    s.landing hint r role child = hint ∨ s.landing hint r role child ∈ s.candidates s.cur.core.l hint r := by
  have hgetD (l : List Nat) (n : Nat) : l.getD n hint = hint ∨ l.getD n hint ∈ l := by
    rw [List.getD_eq_getElem?_getD]
    cases h : l[n]? with
    | none => exact .inl rfl
    | some y => exact .inr (List.mem_of_getElem? h)
  unfold State.landing
  dsimp only
  split
  · split
    · exact .inl rfl
    · rcases hgetD _ _ with h | h
      · exact .inl h
      · rcases List.mem_append.mp h with h | h
        · exact .inr (List.mem_of_mem_filter h)
        · exact .inl (List.mem_singleton.mp h)
  · exact hgetD _ _

/-! ### A child is spawned (05 R157, R158, R175) -/

theorem exec_spawn_bad {x : BitVec 6} {a d : BitVec 5} {roaming : Bool} (hp : Passes s onTile 0 (if roaming then [4] else []))
    (h : (s.here.isNotice || s.badSpawn (s.here.reg a) roaming) = true) :
    exec (if roaming then .spawnr x a d else .spawn x a d) s = .next ((start s).trap causeProt (s.here.reg a)) := by
  cases roaming with
  | true => exact (unit_of_passes (f := formSpawnr x a d) hp).trans (congrArg _ (if_pos h))
  | false => exact (unit_of_passes (f := formSpawn x a d) hp).trans (congrArg _ (if_pos h))

theorem spawnUnit_eq {f : Form} {x : BitVec 6} {a d : BitVec 5} {roaming : Bool} {tt : TTId} {k : BitVec 16} {key : Option Key}
    (hp : Passes s f.roles f.level f.feats) (h : (s.here.isNotice || s.badSpawn (s.here.reg a) roaming) ≠ true) (htt : s.ownTT = some tt)
    (hspawn : (start s).takeSpawn tt s.cur.core.r = some (k, t)) (hperm : s.permitted s.cur.core = true) (hseq : t.takeSeq = some (key, u)) :
    spawnUnit f x a d roaming s = .next ((u.sendSpawn tt k (s.here.reg a) (s.here.reg d) x.toNat roaming).finish f.len) := by
  have htt' : (start s).ownTT = some tt := htt
  have hperm' : ¬(start s).permitted (start s).cur.core = false := fun h => Bool.noConfusion (h.symm.trans hperm)
  have hspawn' : (start s).takeSpawn tt (start s).cur.core.r = some (k, t) := hspawn
  refine (unit_of_passes hp).trans (congrArg _ ((if_neg h).trans ?_))
  rw [htt']
  dsimp only
  rw [hspawn']
  refine (if_neg hperm').trans ?_
  rw [hseq]
  rfl

theorem exec_spawn {x : BitVec 6} {a d : BitVec 5} {roaming : Bool} {tt : TTId} {k : BitVec 16} {key : Option Key}
    (hp : Passes s onTile 0 (if roaming then [4] else [])) (h : (s.here.isNotice || s.badSpawn (s.here.reg a) roaming) ≠ true) (htt : s.ownTT = some tt)
    (hspawn : (start s).takeSpawn tt s.cur.core.r = some (k, t)) (hperm : s.permitted s.cur.core = true) (hseq : t.takeSeq = some (key, u)) :
    exec (if roaming then .spawnr x a d else .spawn x a d) s = .next ((u.sendSpawn tt k (s.here.reg a) (s.here.reg d) x.toNat roaming).finish 4) := by
  cases roaming with
  | true => exact spawnUnit_eq (f := formSpawnr x a d) hp h htt hspawn hperm hseq
  | false => exact spawnUnit_eq (f := formSpawn x a d) hp h htt hspawn hperm hseq

/-- The tile where a child of a spawn word lands. -/
def State.spawnTile (s : State) (w : Word) (child : List (BitVec 16)) (roaming : Bool) : Nat :=
  if roaming then s.landing (w.extractLsb' 0 20).toNat (w.extractLsb' 20 4).toNat (Role.ofCode (w.extractLsb' 33 2).toNat) child else (w.extractLsb' 0 20).toNat

/-- The child's place among the tile tasks (05 R157). -/
def State.childTask (s : State) (tt : TTId) (w : Word) (y : Nat) : TileTask :=
  let parent := (s.tts.get? tt).getD (TileTask.init 0 0 s.cur.core.tile)
  { TileTask.init parent.index parent.node ⟨tt.l, y⟩ with report := if w.getLsbD 32 then some (s.cur.core, (w.extractLsb' 24 8).toNat) else none }

/-- The child's activation (05 R158, R175). -/
def State.childStart (s : State) (child : TTId) (k : BitVec 16) (arg : Word) (cls : Nat) (roaming : Bool) : Waiting :=
  { kind := if roaming then .roaming else .spawn, cls := cls, s1 := arg, s2 := k.setWidth 64, s3 := BitVec.ofNat 64 s.cur.core.t, tt := child,
    key := ⟨child.l, child.path, 0⟩, addr := none, release := none }

/-- The state with the child entered. -/
def State.withChild (s : State) (tt : TTId) (k : BitVec 16) (w : Word) (roaming : Bool) : State :=
  s.newTT ⟨tt.l, tt.path ++ [k]⟩ (s.childTask tt w (s.spawnTile w (tt.path ++ [k]) roaming))

theorem State.sendSpawn_eq (s : State) (tt : TTId) (k : BitVec 16) (w arg : Word) (cls : Nat) (roaming : Bool) :
    let child : TTId := ⟨tt.l, tt.path ++ [k]⟩
    let y := s.spawnTile w child.path roaming
    s.sendSpawn tt k w arg cls roaming = (s.withChild tt k w roaming).sendSt (some s.cur.core) (some ⟨tt.l, y⟩)
      (.spawn ⟨tt.l, y, Role.ofCode (w.extractLsb' 33 2).toNat⟩ (s.childStart child k arg cls roaming) s.uid) (.queued s.deviceWrites) := rfl

/-- Entering a child moves the tile tasks alone, sending its activation what travels. -/
theorem State.sendSpawn_frame (s : State) (tt : TTId) (k : BitVec 16) (w arg : Word) (cls : Nat) (roaming : Bool) :
    let t := s.sendSpawn tt k w arg cls roaming
    t = { s with tiles := t.tiles, tts := t.tts, net := t.net, fresh := t.fresh } ∧ SameMemory s t := by
  rw [State.sendSpawn_eq]
  obtain ⟨ht, hmem⟩ := SendsOnly.sendSt (s := s.withChild tt k w roaming) (src := some s.cur.core) (dst := some ⟨tt.l, s.spawnTile w (tt.path ++ [k]) roaming⟩)
    (p := .spawn ⟨tt.l, s.spawnTile w (tt.path ++ [k]) roaming, Role.ofCode (w.extractLsb' 33 2).toNat⟩
      (s.childStart ⟨tt.l, tt.path ++ [k]⟩ k arg cls roaming) s.uid) (st := .queued s.deviceWrites)
  refine ⟨?_, hmem⟩
  rw [ht]
  rfl

/-- The packet of a child. -/
theorem State.sendSpawn_sent (s : State) (tt : TTId) (k : BitVec 16) (w arg : Word) (cls : Nat) (roaming : Bool) :
    let child : TTId := ⟨tt.l, tt.path ++ [k]⟩
    let y := s.spawnTile w child.path roaming
    Sent s (s.sendSpawn tt k w arg cls roaming) (some ⟨tt.l, y⟩) (.queued s.deviceWrites) (fun q =>
      q = .spawn ⟨tt.l, y, Role.ofCode (w.extractLsb' 33 2).toNat⟩ (s.childStart child k arg cls roaming) s.uid) := by
  intro child y
  rw [State.sendSpawn_eq, State.sendSt_eq]
  exact ⟨_, rfl, rfl, rfl, rfl, rfl, rfl⟩

/-- The tile task of a child. -/
theorem State.sendSpawn_child {tt : TTId} {p : TileTask} (hp : s.tts.get? tt = some p) (k : BitVec 16) (w arg : Word) (cls : Nat) (roaming : Bool) :
    let child : TTId := ⟨tt.l, tt.path ++ [k]⟩
    ∃ z, (s.sendSpawn tt k w arg cls roaming).tts.get? child = some z ∧ z.index = p.index ∧ z.node = p.node ∧
      z.tile = ⟨tt.l, s.spawnTile w child.path roaming⟩ ∧ z.done = false ∧ z.voided = ((s.tts.get? child).map TileTask.voided).getD false ∧
      z.report = if w.getLsbD 32 then some (s.cur.core, (w.extractLsb' 24 8).toNat) else none := by
  intro child
  rw [State.sendSpawn_eq, State.sendSt_eq]
  refine ⟨_, Map.get?_set_self _ _ _, ?_, ?_, rfl, rfl, rfl, rfl⟩
  · show ((s.tts.get? tt).getD _).index = p.index
    rw [hp]
    rfl
  · show ((s.tts.get? tt).getD _).node = p.node
    rw [hp]
    rfl

theorem TookNumber.uid (h : TookNumber s u) : u.uid = s.uid := by
  obtain ⟨-, hhere, -⟩ := h
  rw [State.uid, hhere]
  rfl

theorem TookNumber.deviceWrites (h : TookNumber s u) : u.deviceWrites = s.deviceWrites := by
  obtain ⟨hframe, -⟩ := id h
  have hposted : u.posted = s.posted := (congrArg State.posted hframe :)
  simp only [State.deviceWrites, State.outstanding, h.uid, hposted]

/-- A tile task after numbers were taken. -/
theorem TookNumber.get? {tt : TTId} {p : TileTask} (h : TookNumber s u) (hp : s.tts.get? tt = some p) :
    ∃ q, u.tts.get? tt = some q ∧ q.uncounted = p.uncounted := by
  obtain ⟨-, -, -, htts⟩ := h
  have hq := htts tt
  rw [hp, Option.map_some] at hq
  exact Option.map_eq_some_iff.mp hq

theorem TookNumber.voided (h : TookNumber s u) (tt : TTId) : (u.tts.get? tt).map TileTask.voided = (s.tts.get? tt).map TileTask.voided := by
  obtain ⟨-, -, -, htts⟩ := h
  have hvoided : TileTask.voided = TileTask.voided ∘ TileTask.uncounted := rfl
  rw [hvoided, ← Option.map_map, htts, Option.map_map]

theorem spawns : Claims.Spawns := by
  intro x a d s roaming i w tile role hp
  have hbad := badSpawn_iff s w roaming
  refine ⟨fun h => ?_, ?_⟩
  · refine exec_spawn_bad hp (Bool.or_eq_true_iff.mpr ?_)
    rw [hbad]
    exact h
  · intro tt p k s' key s'' hnotice hzero hrole htile hhint htt hparent hspawn hseq hperm child
    have hgood : (s.here.isNotice || s.badSpawn w roaming) ≠ true := by
      rw [hnotice, Bool.false_or, Ne, hbad]
      rintro (h | h | h | ⟨hr, h⟩)
      · exact h hzero
      · exact hrole h
      · exact absurd htile (Nat.not_lt.mpr h)
      · exact h (hhint hr)
    have hu := (TookNumber.takeSpawn (State.takeSpawn_start hspawn)).trans (TookNumber.takeSeq (State.takeSeq_start hseq))
    have hexec := exec_spawn (x := x) (d := d) hp hgood htt (State.takeSpawn_start hspawn) hperm (State.takeSeq_start hseq)
    generalize start s'' = u at hu hexec
    obtain ⟨q, hq, hqp⟩ := hu.get? (s := start s) hparent
    obtain ⟨ht, hmem⟩ := u.sendSpawn_frame tt k w (s.here.reg d) x.toNat roaming
    obtain ⟨y, hnet, hsrc, hdst, hst, htag, hpkt⟩ := u.sendSpawn_sent tt k w (s.here.reg d) x.toNat roaming
    obtain ⟨z, hz, hindex, hnode, hztile, hdone, hvoided, hreport⟩ := State.sendSpawn_child hq k w (s.here.reg d) x.toNat roaming
    obtain ⟨huframe, -⟩ := id hu
    have hcur : u.cur = s.cur := (congrArg State.cur huframe :)
    have hcore : u.core s.cur.core = s.core s.cur.core := (congrArg (State.core · s.cur.core) huframe :)
    have hpnet : u.net = s.net := (congrArg State.net huframe :)
    have hcandidates (l n r : Nat) : u.candidates l n r = s.candidates l n r := (congrArg (State.candidates · l n r) huframe :)
    clear huframe
    have hhint' : (w.extractLsb' 0 20).toNat = tile := toNat_extractLsb'_low w 20
    rw [hcur] at hsrc htag hreport
    rw [hcore] at htag
    have hwent : WentOn s ((u.sendSpawn tt k w (s.here.reg d) x.toNat roaming).finish 4) (goneOn s.here 4) :=
      wentOn_modCtx hu (by rw [ht]) hmem fun r => Ctx.complete_redo s.here r s.here.level _
    refine ⟨_, u.spawnTile w child.path roaming, hexec, hwent, ⟨y, hnet.trans (by rw [hpnet]), hsrc, hdst, hst.trans (by rw [hu.deviceWrites]; rfl), htag, ?_⟩,
      fun hr => ?_, fun hr => ?_, z, hz, ?_, ?_, hztile, hdone, ?_, hreport⟩
    · refine ⟨u.childStart child k (s.here.reg d) x.toNat roaming, hpkt.trans ?_, rfl, rfl, rfl, rfl, rfl, ?_⟩
      · rw [spawnRole_eq hrole, hu.uid]
        rfl
      · show BitVec.ofNat 64 u.cur.core.t = _
        rw [hcur]
    · rw [hr]
      exact hhint'
    · rw [hr]
      have hland := landing_mem u (w.extractLsb' 0 20).toNat (w.extractLsb' 20 4).toNat (Role.ofCode (w.extractLsb' 33 2).toNat) child.path
      rw [hcur, hcandidates, hhint'] at hland
      show u.landing (w.extractLsb' 0 20).toNat _ _ _ = _ ∨ u.landing (w.extractLsb' 0 20).toNat _ _ _ ∈ _
      rw [hhint']
      exact hland
    · have h : q.uncounted.index = p.uncounted.index := congrArg TileTask.index hqp
      exact hindex.trans h
    · have h : q.uncounted.node = p.uncounted.node := congrArg TileTask.node hqp
      exact hnode.trans h
    · rw [hvoided, hu.voided]
      rfl

/-! ### Ticket words (12 Tables 12.8, 12.9) -/

/-- A launch's scope kind and number as a ticket word places them. -/
theorem scopeBits_eq (l : Launch) : scopeBits l = l.scope.code * 2 ^ 62 + if l.scope = .stream then l.number.toNat * 2 ^ 32 else 0 := by
  unfold scopeBits
  split <;> simp

theorem exec_tktGet {d : BitVec 5} {l : Launch} {tt : TTId} {x : TileTask} (hp : Passes s onTile 0 []) (hl : s.launches.get? s.cur.core.l = some l)
    (htt : s.ownTT = some tt) (hx : s.tts.get? tt = some x) :
    exec (.tktGet d) s = .next ((start s).finishReg 4 d
      (BitVec.ofNat 64 (scopeBits l + (tt.path.length - 1) * 2 ^ 59 + (seqWord s.cur.core.r (s.here.nextSeq x s.cur.core.r)).toNat))) := by
  refine (unit_of_passes (f := formTktGet d) hp).trans (congrArg _ (congrArg (State.finishReg (start s) 4 d) ?_))
  show s.ticketState = _
  simp only [State.ticketState, hl, htt, hx, Option.map_some, Option.getD_some]
  rfl

/-! ### tkt.scope (12 R378) -/

/-- A scope word that keeps Table 12.9, in the tile task that may give it. -/
def ScopeLegal (s : State) (w : Word) : Prop :=
  w.toNat % 16 ≤ 2 ∧ w.toNat / 2 ^ 16 = 0 ∧ w.toNat / 16 % 16 = 0 ∧ (w.toNat % 16 ≠ 1 → w.toNat / 256 % 256 = 0) ∧
  (w.toNat % 16 ≠ 0 → s.ownTT.map TTId.path = some (List.replicate (s.staticDepth s.cur.core.l) 0))

theorem scopeOp_eq (w : Word) : (w.extractLsb' 0 4).toNat = w.toNat % 16 := toNat_extractLsb'_low w 4

theorem scopeUnits_eq (w : Word) : (w.extractLsb' 8 8).toNat = w.toNat / 256 % 256 := toNat_extractLsb'_eq w 8 8

theorem scopeLegal_iff (s : State) (w : Word) :
    ¬(2 < (w.extractLsb' 0 4).toNat ∨ w.extractLsb' 16 48 ≠ 0 ∨ w.extractLsb' 4 4 ≠ 0 ∨ ((w.extractLsb' 0 4).toNat ≠ 1 ∧ (w.extractLsb' 8 8).toNat ≠ 0) ∨
      ((w.extractLsb' 0 4).toNat ≠ 0 ∧ s.isIndex0 = false)) ↔ ScopeLegal s w := by
  have hmid : w.extractLsb' 4 4 = 0 ↔ w.toNat / 16 % 16 = 0 := by
    rw [BitVec.toNat_eq, toNat_extractLsb'_eq]
    rfl
  have hhigh : w.extractLsb' 16 48 = 0 ↔ w.toNat / 2 ^ 16 = 0 := by
    rw [extractLsb'_upper_eq_zero (n := 16) rfl, Nat.div_eq_zero_iff_lt (Nat.two_pow_pos 16)]
  have hfirst : s.isIndex0 = true ↔ s.ownTT.map TTId.path = some (List.replicate (s.staticDepth s.cur.core.l) 0) := decide_eq_true_iff
  simp only [ScopeLegal, ← hfirst, scopeOp_eq, scopeUnits_eq, not_or, not_and, Ne, not_not, Nat.not_lt, hmid, hhigh, Bool.not_eq_false]

theorem exec_tktScope_bad {a d : BitVec 5} (hp : Passes s onTile 0 [2]) (h : ¬ScopeLegal s (s.here.reg a)) :
    exec (.tktScope a d) s = .next ((start s).trap causeProt (s.here.reg a)) :=
  (unit_of_passes (f := formTktScope a d) hp).trans (congrArg _ (if_pos (not_not.mp (mt (scopeLegal_iff s _).mp h))))

/-- The launches, with that of the unit changed. -/
def State.withLaunch (s : State) (m : Launch) : State := { s with launches := s.launches.set s.cur.core.l m }

/-- The launch of the unit takes a scope's change; a stream that ends has its interface open none (12 R378). -/
def State.rescoped (s : State) (l m : Launch) : State :=
  if m.ending && !l.ending then (s.withLaunch m).endStream m else s.withLaunch m

/-- The launch as an accepted tkt.scope leaves it: an op 1 takes the next place. -/
def State.placedOp (s : State) (n : Nat) (m : Launch) : Launch := if n = 1 then { m with overflowAt := s.nextOverflow } else m

theorem exec_tktScope {a d : BitVec 5} {l m : Launch} (hp : Passes s onTile 0 [2]) (h : ScopeLegal s (s.here.reg a))
    (hl : s.launches.get? s.cur.core.l = some l) (hm : l.scoped ((s.here.reg a).toNat % 16) ((s.here.reg a).toNat / 256 % 256) = some m) :
    let m' := s.placedOp ((s.here.reg a).toNat % 16) m
    let t := (start s).rescoped l m'
    exec (.tktScope a d) s = .next (t.finishReg 4 d (scopeWord m' (t.scopeOverflow t.cur.core.l) (t.scopeEnding t.cur.core.l))) := by
  dsimp only
  rw [← scopeOp_eq, ← scopeUnits_eq] at hm
  rw [← scopeOp_eq]
  have hl' : (start s).launches.get? (start s).cur.core.l = some l := hl
  refine (unit_of_passes (f := formTktScope a d) hp).trans (congrArg _ ((if_neg ((scopeLegal_iff s _).mpr h)).trans ?_))
  rw [hl']
  dsimp only
  have hm' : l.scoped (((start s).here.reg a).extractLsb' 0 4).toNat (((start s).here.reg a).extractLsb' 8 8).toNat = some m := hm
  rw [hm']
  rfl

/-- A change that a launch in free mode, or of another scope, does not accept. -/
theorem exec_tktScope_refused {a d : BitVec 5} {l : Launch} (hp : Passes s onTile 0 [2]) (h : ScopeLegal s (s.here.reg a))
    (hl : s.launches.get? s.cur.core.l = some l) (hm : l.scoped ((s.here.reg a).toNat % 16) ((s.here.reg a).toNat / 256 % 256) = none) :
    exec (.tktScope a d) s = .next ((start s).trap causeProt (s.here.reg a)) := by
  rw [← scopeOp_eq, ← scopeUnits_eq] at hm
  have hl' : (start s).launches.get? (start s).cur.core.l = some l := hl
  refine (unit_of_passes (f := formTktScope a d) hp).trans (congrArg _ ((if_neg ((scopeLegal_iff s _).mpr h)).trans ?_))
  rw [hl']
  dsimp only
  have hm' : l.scoped (((start s).here.reg a).extractLsb' 0 4).toNat (((start s).here.reg a).extractLsb' 8 8).toNat = none := hm
  rw [hm']
  rfl

/-- What a scope's change moves beside the register: its launch, and the interface of a stream that ends. -/
theorem State.rescoped_frame {l m : Launch} (hiface : m.iface = l.iface) (hslot : m.slot = l.slot) :
    let t := s.rescoped l m
    t = { s.withLaunch m with ifaces := t.ifaces } ∧ (m.ending = l.ending → t.ifaces = s.ifaces) ∧
    (m.ending = true → l.ending = false → (t.iface l.iface).stream.map Prod.fst ≠ some l.slot) := by
  unfold State.rescoped
  split
  next h =>
    obtain ⟨hm, hl⟩ := Bool.and_eq_true_iff.mp h
    unfold State.endStream
    split
    next hopen =>
      refine ⟨rfl, fun heq => ?_, fun _ _ => ?_⟩
      · rw [← heq, hm] at hl
        exact Bool.noConfusion hl
      · have hnone : ((s.withLaunch m).modIface m.iface fun f => { f with stream := none }).iface m.iface = { (s.withLaunch m).iface m.iface with stream := none } :=
          Map.getD_set_self ..
        rw [← hiface]
        show ((((s.withLaunch m).modIface m.iface fun f => { f with stream := none }).iface m.iface).stream).map _ ≠ _
        rw [hnone]
        exact Option.some_ne_none _ ∘ Eq.symm
    next hclosed =>
      refine ⟨rfl, fun _ => rfl, fun _ _ => ?_⟩
      rw [← hiface, ← hslot]
      exact hclosed
  next h =>
    refine ⟨rfl, fun _ => rfl, fun hm hl => absurd ?_ h⟩
    rw [hm, hl]
    rfl

/-! ### What a scope's launches tell (12 R378) -/

/-- An entry of a map in its place. -/
theorem Map.set_split {κ ν : Type} [DecidableEq κ] {m : Map κ ν} {a : κ} {v : ν} (h : Map.get? m a = some v) :
    ∃ l₁ l₂ : List (κ × ν), m = l₁ ++ (a, v) :: l₂ ∧ ∀ b, m.set a b = l₁ ++ (a, b) :: l₂ := by
  induction m with
  | nil => cases h
  | cons x m ih =>
    obtain ⟨k, w⟩ := x
    by_cases hk : k = a
    · rw [Map.get?, if_pos hk] at h
      cases h
      exact ⟨[], m, by rw [hk]; rfl, fun b => if_pos hk⟩
    · rw [Map.get?, if_neg hk] at h
      obtain ⟨l₁, l₂, hm, hset⟩ := ih h
      exact ⟨(k, w) :: l₁, l₂, by rw [hm]; rfl, fun b => (if_neg hk).trans (by rw [hset]; rfl)⟩

theorem State.sameScope_self (s : State) (x : Nat) : s.sameScope x x = true := by simp [State.sameScope]

section

variable {l m : Launch} (hl : s.launches.get? s.cur.core.l = some l) (hscope : m.scope = l.scope) (hstream : m.stream = l.stream)

include hl hscope hstream

theorem State.sameScope_withLaunch (x y : Nat) : (s.withLaunch m).sameScope x y = s.sameScope x y := by
  have hget (x : Nat) : (s.withLaunch m).launches.get? x = if x = s.cur.core.l then some m else s.launches.get? x := Map.get?_set _ _ _ _
  unfold State.sameScope
  rw [hget, hget]
  by_cases hx : x = s.cur.core.l <;> by_cases hy : y = s.cur.core.l
  · rw [hx, hy]
    simp
  · rw [if_pos hx, if_neg hy, hx, hl]
    cases s.launches.get? y with
    | none => rfl
    | some z => simp only [hscope, hstream]
  · rw [if_neg hx, if_pos hy, hy, hl]
    cases s.launches.get? x with
    | none => rfl
    | some z => simp only [hscope, hstream]
  · rw [if_neg hx, if_neg hy]

/-- An accepted end or query leaves what the scope tells of its hamper. -/
theorem State.scopeOverflow_withLaunch (hdone : m.done = l.done) (hover : m.overflow = l.overflow) (hat : m.overflowAt = l.overflowAt) (x : Nat) :
    (s.withLaunch m).scopeOverflow x = s.scopeOverflow x := by
  obtain ⟨l₁, l₂, hsplit, hset⟩ := Map.set_split hl
  unfold State.scopeOverflow
  have hset' : (s.withLaunch m).launches = l₁ ++ (s.cur.core.l, m) :: l₂ := hset m
  rw [hset']
  conv_rhs => rw [hsplit]
  simp only [State.sameScope_withLaunch hl hscope hstream, List.filter_append, List.filter_cons, List.filterMap_append, hdone]
  split
  · simp only [List.filterMap_cons, hover, hat]
  · rfl

theorem State.scopeEnding_withLaunch (hending : m.ending = l.ending) (x : Nat) : (s.withLaunch m).scopeEnding x = s.scopeEnding x := by
  obtain ⟨l₁, l₂, hsplit, hset⟩ := Map.set_split hl
  have hset' : (s.withLaunch m).launches = l₁ ++ (s.cur.core.l, m) :: l₂ := hset m
  unfold State.scopeEnding
  rw [hset']
  conv_rhs => rw [hsplit]
  simp only [State.sameScope_withLaunch hl hscope hstream, List.any_append, List.any_cons, hending]

end

/-- What a place and its units make of the latest so far (12 R378; log 91). -/
def laterOverflow (b x : Nat × Nat) : Nat × Nat := if b.1 ≤ x.1 then x else b

theorem foldl_laterOverflow_le {l : List (Nat × Nat)} {b : Nat × Nat} {n : Nat} (hb : b.1 ≤ n) (hl : ∀ x ∈ l, x.1 ≤ n) : (l.foldl laterOverflow b).1 ≤ n := by
  induction l generalizing b with
  | nil => exact hb
  | cons x l ih =>
    rw [List.foldl_cons]
    refine ih ?_ fun y hy => hl y (List.mem_cons_of_mem x hy)
    rw [laterOverflow]
    split
    · exact hl x List.mem_cons_self
    · exact hb

theorem foldl_laterOverflow_lt {l : List (Nat × Nat)} {b : Nat × Nat} (hl : ∀ x ∈ l, x.1 < b.1) : l.foldl laterOverflow b = b := by
  induction l with
  | nil => rfl
  | cons x l ih =>
    rw [List.foldl_cons, laterOverflow, if_neg (Nat.not_le.mpr (hl x List.mem_cons_self))]
    exact ih fun y hy => hl y (List.mem_cons_of_mem x hy)

/-- A place after all others is the latest. -/
theorem foldl_laterOverflow_middle {l₁ l₂ : List (Nat × Nat)} {x : Nat × Nat} (h₁ : ∀ y ∈ l₁, y.1 < x.1) (h₂ : ∀ y ∈ l₂, y.1 < x.1) (hpos : 0 < x.1) :
    (l₁ ++ x :: l₂).foldl laterOverflow (0, 0) = x := by
  have hle := foldl_laterOverflow_le (b := (0, 0)) (n := x.1) (Nat.le_of_lt hpos) fun y hy => Nat.le_of_lt (h₁ y hy)
  rw [List.foldl_append, List.foldl_cons, laterOverflow, if_pos hle, foldl_laterOverflow_lt h₂]

theorem le_foldl_max {l : List (Nat × Launch)} (n : Nat) :
    n ≤ l.foldl (fun m x => max m x.2.overflowAt) n ∧ ∀ x ∈ l, x.2.overflowAt ≤ l.foldl (fun m x => max m x.2.overflowAt) n := by
  induction l generalizing n with
  | nil => exact ⟨Nat.le_refl n, fun x hx => absurd hx List.not_mem_nil⟩
  | cons y l ih =>
    obtain ⟨hn, hl⟩ := ih (max n y.2.overflowAt)
    refine ⟨Nat.le_trans (Nat.le_max_left ..) hn, fun x hx => ?_⟩
    rcases List.mem_cons.mp hx with rfl | hx
    · exact Nat.le_trans (Nat.le_max_right ..) hn
    · exact hl x hx

/-- Every op 1 so far has an earlier place than the next. -/
theorem State.overflowAt_lt_next (s : State) : ∀ x ∈ s.launches, x.2.overflowAt < s.nextOverflow := fun x hx =>
  Nat.lt_succ_of_le ((le_foldl_max 0).2 x hx)

/-- The latest op 1 among a scope's running launches tells of its hamper (log 91). -/
theorem State.scopeOverflow_latest {l m : Launch} {n : Nat} (hl : s.launches.get? s.cur.core.l = some l) (hdone : m.done = false) (hover : m.overflow = some n)
    (hat : m.overflowAt = s.nextOverflow) : (s.withLaunch m).scopeOverflow s.cur.core.l = n := by
  obtain ⟨l₁, l₂, hsplit, hset⟩ := Map.set_split hl
  have hset' : (s.withLaunch m).launches = l₁ ++ (s.cur.core.l, m) :: l₂ := hset m
  have hmine : (!m.done && (s.withLaunch m).sameScope s.cur.core.l s.cur.core.l) = true := by
    rw [hdone, State.sameScope_self]
    rfl
  have hlt (k : List (Nat × Launch)) (hk : ∀ x ∈ k, x ∈ s.launches) (q : Nat × Launch → Bool) :
      ∀ y ∈ (k.filter q).filterMap (fun x => x.2.overflow.map fun u => (x.2.overflowAt, u)), y.1 < m.overflowAt := by
    intro y hy
    obtain ⟨x, hx, hxy⟩ := List.mem_filterMap.mp hy
    obtain ⟨w, -, rfl⟩ := Option.map_eq_some_iff.mp hxy
    rw [hat]
    exact s.overflowAt_lt_next x (hk x (List.mem_of_mem_filter hx))
  unfold State.scopeOverflow
  rw [hset', List.filter_append, List.filter_cons, if_pos hmine, List.filterMap_append, List.filterMap_cons, hover]
  refine congrArg Prod.snd (foldl_laterOverflow_middle (x := (m.overflowAt, n)) (hlt l₁ ?_ _) (hlt l₂ ?_ _) ?_)
  · intro x hx
    rw [hsplit]
    exact List.mem_append_left _ hx
  · intro x hx
    rw [hsplit]
    exact List.mem_append_right _ (List.mem_cons_of_mem _ hx)
  · show 0 < m.overflowAt
    rw [hat]
    exact Nat.succ_pos _

theorem State.scopeEnding_of_ending {l m : Launch} (hl : s.launches.get? s.cur.core.l = some l) (hending : m.ending = true) :
    (s.withLaunch m).scopeEnding s.cur.core.l = true := by
  obtain ⟨l₁, l₂, -, hset⟩ := Map.set_split hl
  have hset' : (s.withLaunch m).launches = l₁ ++ (s.cur.core.l, m) :: l₂ := hset m
  refine List.any_eq_true.mpr ⟨(s.cur.core.l, m), ?_, ?_⟩
  · rw [hset']
    exact List.mem_append_right _ List.mem_cons_self
  · rw [hending, State.sameScope_self]
    rfl

/-- A scope word tells of a launch's scope alone (12 Table 12.9). -/
theorem scopeWord_congr {l m : Launch} (hscope : m.scope = l.scope) (hnumber : m.number = l.number) (hslot : m.slot = l.slot) (o : Nat) (ends : Bool) :
    scopeWord m o ends = scopeWord l o ends := by
  simp only [scopeWord, scopeBits, hscope, hnumber, hslot]

/-- What an accepted tkt.scope changes and answers, from what the scope's launches then tell. -/
theorem tktScope_accepted {a d : BitVec 5} {l m m' : Launch} {o : Nat} {ends : Bool} (hp : Passes s onTile 0 [2]) (hlegal : ScopeLegal s (s.here.reg a))
    (hl : s.launches.get? s.cur.core.l = some l) (hm : l.scoped ((s.here.reg a).toNat % 16) ((s.here.reg a).toNat / 256 % 256) = some m)
    (hm' : s.placedOp ((s.here.reg a).toNat % 16) m = m') (hiface : m'.iface = l.iface) (hslot : m'.slot = l.slot)
    (ho : ((start s).withLaunch m').scopeOverflow s.cur.core.l = o) (hends : ((start s).withLaunch m').scopeEnding s.cur.core.l = ends) :
    ∃ t, exec (.tktScope a d) s = .next t ∧ OnlyHere s { t with launches := s.launches, ifaces := s.ifaces } ∧
      (m'.ending = l.ending → t.ifaces = s.ifaces) ∧ (m'.ending = true → l.ending = false → (t.iface l.iface).stream.map Prod.fst ≠ some l.slot) ∧
      t.launches.get? s.cur.core.l = some m' ∧ (∀ n, n ≠ s.cur.core.l → t.launches.get? n = s.launches.get? n) ∧
      t.here = (s.here.setReg d (scopeWord m' o ends)).complete s.here.level (s.here.pc + 4) := by
  have hexec : exec (.tktScope a d) s = .next (((start s).rescoped l m').finishReg 4 d (scopeWord m'
    (((start s).rescoped l m').scopeOverflow ((start s).rescoped l m').cur.core.l) (((start s).rescoped l m').scopeEnding ((start s).rescoped l m').cur.core.l))) :=
    hm' ▸ exec_tktScope hp hlegal hl hm
  obtain ⟨ht, hsame, hclosed⟩ := State.rescoped_frame (s := start s) hiface hslot
  generalize (start s).rescoped l m' = t at ht hsame hclosed hexec
  have hcur : t.cur = s.cur := (congrArg State.cur ht :)
  have hover : t.scopeOverflow t.cur.core.l = o := (congrArg (fun x => State.scopeOverflow x x.cur.core.l) ht :).trans ho
  have hending : t.scopeEnding t.cur.core.l = ends := (congrArg (fun x => State.scopeEnding x x.cur.core.l) ht :).trans hends
  rw [hover, hending] at hexec
  have hctx (id : CtxId) : t.ctx id = s.ctx id := (congrArg (State.ctx · id) ht :)
  have hother (id : CtxId) (hid : id ≠ s.cur) : (t.finishReg 4 d (scopeWord m' o ends)).ctx id = s.ctx id := by
    rw [State.finishReg, State.ctx_modCtx_ne _ _ (hcur ▸ hid), hctx]
  have hlaunches : t.launches = s.launches.set s.cur.core.l m' := (congrArg State.launches ht :)
  refine ⟨_, hexec, ⟨?_, fun id hid => ?_⟩, hsame, hclosed, ?_, fun n hn => ?_, ?_⟩
  · show ({ (t.finishReg 4 d (scopeWord m' o ends)) with launches := s.launches, ifaces := s.ifaces } : State) = _
    rw [State.finishReg, State.modCtx, ht]
    rfl
  · exact hother id hid
  · show t.launches.get? _ = _
    rw [hlaunches]
    exact Map.get?_set_self _ _ _
  · show t.launches.get? _ = _
    rw [hlaunches]
    exact Map.get?_set_ne _ _ hn
  · rw [State.finishReg, State.here_modCtx, State.here, hcur, hctx]
    rfl

/-! ### tkt.void (12 R369, R379) -/

/-- What voiding leaves after the tile task is marked: tile tasks as they stand, every context its task, and of a task that is to end the mark that it is. -/
def Voids (s t : State) : Prop :=
  t.tts = s.tts ∧ t.cur = s.cur ∧ (∀ x, (t.ctx x).task = (s.ctx x).task ∧ ((s.ctx x).ends = true → (t.ctx x).ends = true)) ∧ t.ctx s.cur = s.ctx s.cur

theorem Voids.trans (h : Voids s t) (h' : Voids t u) : Voids s u := by
  obtain ⟨htts, hcur, hctx, hhere⟩ := h
  obtain ⟨htts', hcur', hctx', hhere'⟩ := h'
  refine ⟨htts'.trans htts, hcur'.trans hcur, fun x => ⟨((hctx' x).1).trans (hctx x).1, fun h => (hctx' x).2 ((hctx x).2 h)⟩, ?_⟩
  rw [← hcur, hhere', hcur, hhere]

/-- A step that moves neither tile tasks nor contexts. -/
theorem Voids.of_ctxs (htts : t.tts = s.tts) (hcur : t.cur = s.cur) (hctxs : t.ctxs = s.ctxs) : Voids s t := by
  have hctx (x : CtxId) : t.ctx x = s.ctx x := by simp only [State.ctx, hctxs]
  refine ⟨htts, hcur, fun x => ?_, hctx _⟩
  rw [hctx]
  exact ⟨rfl, fun h => h⟩

theorem Voids.refl (s : State) : Voids s s := .of_ctxs rfl rfl rfl

theorem Voids.foldl {α : Type} {f : State → α → State} (l : List α) (hf : ∀ s a, Voids s (f s a)) (s : State) : Voids s (l.foldl f s) :=
  List.foldlRecOn l f (.refl s) fun _ ht a _ => ht.trans (hf _ a)

/-- What one of the steps marks is marked after all of them. -/
theorem Voids.foldl_marks {α : Type} {f : State → α → State} {l : List α} {a : α} {x : CtxId} (hf : ∀ s a, Voids s (f s a)) (ha : a ∈ l)
    (hmark : ∀ u, Voids s u → ((f u a).ctx x).ends = true) : ((l.foldl f s).ctx x).ends = true := by
  obtain ⟨l₁, l₂, rfl⟩ := List.append_of_mem ha
  rw [List.foldl_append, List.foldl_cons]
  obtain ⟨-, -, hctx, -⟩ := Voids.foldl l₂ hf (f (l₁.foldl f s) a)
  exact (hctx x).2 (hmark _ (.foldl l₁ hf s))

/-- The tasks of a tile task on one core that are to end (12 R369). -/
def State.markEnds (tt : TTId) (c : CoreId) (s : State) (i : Nat) : State :=
  if (⟨c, i⟩ : CtxId) ≠ s.cur ∧ ((s.ctx ⟨c, i⟩).task.bind Task.tt) = some tt then s.modCtx ⟨c, i⟩ fun x => { x with ends := true } else s

theorem Voids.markEnds {tt : TTId} {c : CoreId} {i : Nat} : Voids s (s.markEnds tt c i) := by
  unfold State.markEnds
  split
  next h =>
    obtain ⟨hne, -⟩ := h
    refine ⟨rfl, rfl, fun x => ?_, State.ctx_modCtx_ne _ _ hne.symm⟩
    by_cases hx : x = ⟨c, i⟩
    · rw [hx, State.ctx_modCtx_self]
      exact ⟨rfl, fun _ => rfl⟩
    · rw [State.ctx_modCtx_ne _ _ hx]
      exact ⟨rfl, fun h => h⟩
  next => exact .refl s

/-- What voiding takes from a core beside the marks: entries, ready and waiting activations, fibres. -/
def State.clearCore (tt : TTId) (s : State) (c : CoreId) : State :=
  let mine (x : Nat × Fibre) : Bool := decide (x.2.ctx.task.bind Task.tt = some tt)
  let gone := ((s.core c).runq.filter fun r => decide (r.tt = some tt)).map Ready.uid ++
    ((s.core c).fibres.filter mine).map fun (x : Nat × Fibre) => (x.2.ctx.task.map Task.uid).getD 0
  (gone.foldl (fun s r => (s.releaseAll c r).modTile c.tile fun x => x.unearmark r) (s.disarmAll c tt)).modCore c fun k =>
    { k with runq := (k.runq.filter fun r => !decide (r.tt = some tt)), waiting := (k.waiting.filter fun w => !decide (w.tt = tt)),
             resv := (k.resv.filter fun r => !gone.contains r.uid), fibres := k.fibres.filter fun x => !mine x }

theorem Voids.of_releases (h : Releases s t) : Voids s t := by
  obtain ⟨ht, -⟩ := h
  exact .of_ctxs (by rw [ht]) (by rw [ht]) (by rw [ht])

theorem Voids.clearCore {tt : TTId} {c : CoreId} : Voids s (s.clearCore tt c) := by
  unfold State.clearCore
  dsimp only
  refine .trans (.trans (t := s.disarmAll c tt) (.of_ctxs rfl rfl rfl) (.foldl _ (fun s r => ?_) _)) (.of_ctxs rfl rfl rfl)
  exact .trans (.of_releases .releaseAll) (.of_ctxs rfl rfl rfl)

/-- Voiding on one core. -/
def State.voidCore (tt : TTId) (s : State) (c : CoreId) : State := (List.range 4).foldl (State.markEnds tt c) (s.clearCore tt c)

theorem Voids.voidCore {tt : TTId} {c : CoreId} : Voids s (s.voidCore tt c) := .trans .clearCore (.foldl _ (fun _ _ => .markEnds) _)

theorem State.ends_voidCore {tt : TTId} {x : CtxId} (hne : x ≠ s.cur) (hc : x.c < 4) (htask : (s.ctx x).task.bind Task.tt = some tt) :
    ((s.voidCore tt x.core).ctx x).ends = true := by
  refine Voids.foldl_marks (fun _ _ => .markEnds) (List.mem_range.mpr hc) fun u hu => ?_
  obtain ⟨-, hcur, hctx, -⟩ := Voids.clearCore.trans hu
  have hmark : (⟨x.core, x.c⟩ : CtxId) ≠ u.cur ∧ ((u.ctx ⟨x.core, x.c⟩).task.bind Task.tt) = some tt := by
    rw [hcur, (hctx x).1]
    exact ⟨hne, htask⟩
  rw [State.markEnds, if_pos hmark]
  show ((u.modCtx x fun c => { c with ends := true }).ctx x).ends = true
  rw [State.ctx_modCtx_self]

/-- Voiding at one home: what is held there of the tile task is acknowledged. -/
def State.voidHome (tt : TTId) (s : State) (h : Home) : State :=
  let gone := (s.home h).held.filter fun e => e.gated && decide (e.key.map Key.tt = some tt)
  gone.foldl (fun s e => s.acknowledge e) (s.modHome h fun x => { x with held := x.held.filter fun e => !gone.contains e })

theorem State.voidHome_frame (tt : TTId) (s : State) (h : Home) :
    s.voidHome tt h = { s with homes := (s.voidHome tt h).homes, net := (s.voidHome tt h).net, fresh := (s.voidHome tt h).fresh } := by
  unfold State.voidHome
  dsimp only
  generalize (s.home h).held.filter _ = gone
  refine List.foldlRecOn (motive := fun t : State => t = { s with homes := t.homes, net := t.net, fresh := t.fresh }) gone _ rfl fun t ht e _ => ?_
  obtain ⟨hack, -⟩ := Adds.acknowledge (s := t) (e := e)
  rw [hack, ht]

theorem State.foldl_voidHome_frame (tt : TTId) (hs : List Home) (s : State) :
    let t := hs.foldl (State.voidHome tt) s
    t = { s with homes := t.homes, net := t.net, fresh := t.fresh } :=
  List.foldlRecOn (motive := fun t : State => t = { s with homes := t.homes, net := t.net, fresh := t.fresh }) hs _ rfl fun t ht h _ => by
    rw [State.voidHome_frame, ht]

theorem State.void_eq (s : State) (tt : TTId) :
    let v := s.modTT tt fun t => { t with voided := true, retired := true }
    let w := v.homes.keys.foldl (State.voidHome tt) v
    s.void tt = w.cores.keys.foldl (State.voidCore tt) w := rfl

/-- A voided tile task: itself marked, its other tasks to end. -/
theorem State.void_spec (s : State) (tt : TTId) :
    let t := s.void tt
    t.cur = s.cur ∧ t.ctx s.cur = s.ctx s.cur ∧ (∀ x, s.tts.get? tt = some x → t.tts.get? tt = some { x with voided := true, retired := true }) ∧
    ∀ id, id ≠ s.cur → id.core ∈ s.cores.keys → id.c < 4 → (s.ctx id).task.bind Task.tt = some tt → (t.ctx id).ends = true := by
  dsimp only
  rw [State.void_eq]
  have hv := State.modTT_frame s tt fun t => { t with voided := true, retired := true }
  have hmarked := State.get?_modTT s tt tt fun t => { t with voided := true, retired := true }
  rw [if_pos rfl] at hmarked
  generalize (s.modTT tt fun t => { t with voided := true, retired := true }) = v at hv hmarked ⊢
  have hw := State.foldl_voidHome_frame tt v.homes.keys v
  dsimp only at hw ⊢
  generalize v.homes.keys.foldl (State.voidHome tt) v = w at hw ⊢
  have hctx (y : CtxId) : w.ctx y = s.ctx y := (congrArg (State.ctx · y) hw :).trans (congrArg (State.ctx · y) hv :)
  have hcur : w.cur = s.cur := (congrArg State.cur hw :).trans (congrArg State.cur hv :)
  have hcores : w.cores = s.cores := (congrArg State.cores hw :).trans (congrArg State.cores hv :)
  obtain ⟨htts, hcur', -, hhere⟩ := Voids.foldl w.cores.keys (fun _ _ => .voidCore (tt := tt)) w
  refine ⟨hcur'.trans hcur, ?_, fun x hx => ?_, fun id hne hmem hc htask => ?_⟩
  · rw [← hcur, hhere, hcur, hctx]
  · rw [htts, hw]
    exact hmarked.trans (congrArg _ hx)
  · refine Voids.foldl_marks (fun _ _ => .voidCore) (hcores ▸ hmem) fun u hu => ?_
    obtain ⟨-, hucur, huctx, -⟩ := hu
    exact State.ends_voidCore (by rw [hucur, hcur]; exact hne) hc (by rw [(huctx id).1, hctx]; exact htask)

theorem exec_tktVoid_bad {a : BitVec 5} (hp : Passes s onTile 1 [2]) (h : s.here.reg a ≠ 0) :
    exec (.tktVoid a) s = .next ((start s).trap causeProt (s.here.reg a)) :=
  (unit_of_passes (f := formTktVoid a) hp).trans (congrArg _ (if_pos h))

theorem exec_tktVoid {a : BitVec 5} (hp : Passes s onTile 1 [2]) (h : s.here.reg a = 0) :
    exec (.tktVoid a) s = .next ((s.ownTT.elim (start s) (start s).void).endIn s.cur false) := by
  refine (unit_of_passes (f := formTktVoid a) hp).trans (congrArg _ ((if_neg (not_not_intro h)).trans ?_))
  have htt : (start s).ownTT = s.ownTT := rfl
  rw [htt]
  cases s.ownTT <;> rfl

/-- A voided tile task stays so when the task that voids it ends. -/
theorem State.endIn_voided {id : CtxId} {tt : TTId} {y : TileTask} (htask : (s.ctx id).task.bind Task.tt = some tt) (hy : s.tts.get? tt = some y)
    (hvoided : y.voided = true) (hretired : y.retired = true) (keep : Bool) :
    ∃ z, (s.endIn id keep).tts.get? tt = some z ∧ z.voided = true ∧ z.retired = true := by
  obtain ⟨k, hk, hktt⟩ := Option.bind_eq_some_iff.mp htask
  obtain ⟨-, -, -, -, -, -, hends⟩ := taskEnds s id keep
  obtain ⟨hnone, hsome⟩ := (hends k hk).2 tt y hktt hy
  cases hredo : (s.ctx id).redo with
  | none => exact ⟨_, hnone hredo, hvoided, hretired⟩
  | some n =>
    refine ⟨_, hsome n hredo, ?_, ?_⟩
    · split <;> exact hvoided
    · split <;> exact hretired

theorem tktVoids {a : BitVec 5} (hp : Passes s onTile 1 [2]) (h : s.here.reg a = 0) :
    ∃ t, exec (.tktVoid a) s = .next t ∧ t.here = Ctx.init ∧
      ∀ tt x, s.ownTT = some tt → s.tts.get? tt = some x → (∃ y, t.tts.get? tt = some y ∧ y.voided = true ∧ y.retired = true) ∧
        ∀ id, id ≠ s.cur → id.core ∈ s.cores.keys → id.c < 4 → (s.ctx id).task.bind Task.tt = some tt → (t.ctx id).ends = true := by
  have hrole : Ctx.freed s.cur.core.r = Ctx.init := by
    have h : s.cur.core.r ≠ .steward := fun h => by
      have hmem := hp.2.1
      simp [onTile, h] at hmem
    exact congrArg (fun l => { Ctx.init with level := l }) (if_neg h)
  cases htt : s.ownTT with
  | none =>
    have hexec := exec_tktVoid hp h
    rw [htt] at hexec
    obtain ⟨⟨ht, -⟩, hself, -⟩ := State.endIn_frame (start s) s.cur false
    have hcur : ((start s).endIn s.cur false).cur = s.cur := (congrArg State.cur ht :)
    refine ⟨_, hexec, ?_, fun tt x h => Option.some_ne_none _ h.symm |>.elim⟩
    rw [State.here, Option.elim_none, hcur, hself, hrole]
  | some tt =>
    have hexec := exec_tktVoid hp h
    rw [htt] at hexec
    obtain ⟨hcur, hhere, hmarked, hends⟩ := State.void_spec (start s) tt
    have hexec' : exec (.tktVoid a) s = .next (((start s).void tt).endIn s.cur false) := hexec
    generalize (start s).void tt = v at hcur hhere hmarked hends hexec'
    obtain ⟨⟨ht, -⟩, hself, hothers⟩ := State.endIn_frame v s.cur false
    have htcur : (v.endIn s.cur false).cur = s.cur := (congrArg State.cur ht).trans hcur
    refine ⟨_, hexec', ?_, fun tt' x htt' hx => ?_⟩
    · rw [State.here, htcur, hself, hrole]
    · cases htt'
      have htask : (v.ctx s.cur).task.bind Task.tt = some tt := (congrArg (fun c => c.task.bind Task.tt) hhere).trans htt
      refine ⟨State.endIn_voided htask (hmarked x hx) rfl rfl false, fun id hne hmem hc hid => ?_⟩
      rw [hothers id hne]
      exact hends id hne hmem hc hid

/-! ### The ticket units -/

theorem ticketUnits : Claims.TicketUnits := by
  intro a d s l hl w op u bits word ended first legal gives
  have hbits : bits = scopeBits l := by
    rw [scopeBits_eq]
    rfl
  have hlegal : legal ↔ ScopeLegal s w := Iff.rfl
  have hword (o : Nat) (ends : Bool) : word o ends = scopeWord l o ends := by
    show BitVec.ofNat 64 (bits + _ + _ + _) = _
    rw [hbits]
    rfl
  have hl' : (start s).launches.get? (start s).cur.core.l = some l := hl
  refine ⟨fun hp tt x htt hx => ?_, fun hp => ⟨fun h => exec_tktScope_bad hp h, fun h hop => ?_, fun h hop hfree hover hpool hdone => ?_, fun h hop hfree hscope => ?_,
    fun h hop hfree => ?_⟩, fun hp => ⟨exec_tktVoid_bad hp, tktVoids hp⟩⟩
  · rw [hbits]
    exact exec_tktGet hp hl htt hx
  · have hm : l.scoped op u = some l := by rw [hop]; rfl
    have hm' : s.placedOp op l = l := by rw [hop]; rfl
    obtain ⟨t, hexec, honly, hifaces, -, hself, hothers, hhere⟩ := tktScope_accepted (d := d) hp h hl hm hm' rfl rfl
      (State.scopeOverflow_withLaunch hl' rfl rfl rfl rfl rfl _) (State.scopeEnding_withLaunch hl' rfl rfl rfl _)
    exact ⟨t, hexec, honly, fun _ => hifaces rfl, fun h => absurd (hop.symm.trans h) (by decide), hself, hothers, by rw [hword]; exact hhere⟩
  · have hm : l.scoped op u = some { l with overflow := some u, pool := l.pool - u } := by
      rw [hop]
      simp [Launch.scoped, hfree, hover, hpool]
    have hm' : s.placedOp op { l with overflow := some u, pool := l.pool - u } =
        { l with overflow := some u, overflowAt := s.nextOverflow, pool := l.pool - u } := by rw [hop]; rfl
    obtain ⟨t, hexec, honly, hifaces, -, hself, hothers, hhere⟩ := tktScope_accepted (d := d) hp h hl hm hm' rfl rfl
      (State.scopeOverflow_latest (n := u) hl' hdone rfl rfl)
      (State.scopeEnding_withLaunch (m := { l with overflow := some u, overflowAt := s.nextOverflow, pool := l.pool - u }) hl' rfl rfl rfl _)
    exact ⟨t, hexec, honly, fun _ => hifaces rfl, fun h => absurd (hop.symm.trans h) (by decide), hself, hothers, by rw [hword]; exact hhere⟩
  · have hm : l.scoped op u = some { l with ending := true } := by
      rw [hop]
      simp [Launch.scoped, hfree, hscope]
    have hm' : s.placedOp op { l with ending := true } = { l with ending := true } := by rw [hop]; rfl
    obtain ⟨t, hexec, honly, -, hclosed, hself, hothers, hhere⟩ := tktScope_accepted (d := d) hp h hl hm hm' rfl rfl
      (State.scopeOverflow_withLaunch (m := { l with ending := true }) hl' rfl rfl rfl rfl rfl _) (State.scopeEnding_of_ending hl' rfl)
    exact ⟨t, hexec, honly, fun h => absurd (hop ▸ h : (2 : Nat) < 2) (by decide), fun _ hopen => hclosed rfl hopen, hself, hothers, by rw [hword]; exact hhere⟩
  · refine exec_tktScope_refused hp h hl (?_ : l.scoped op u = none)
    have hle : op ≤ 2 := h.1
    have hor : op = 1 ∨ op = 2 := by omega
    rcases hor with h | h <;> rw [h] <;> simp [Launch.scoped, hfree]

/-- Settles O33: the child from what taking its index and number leaves; the scope from what its launches tell after the change. -/
theorem spawnsAndTickets : Obligations.SpawnsAndTickets := ⟨spawns, ticketUnits⟩

end Sys2Proof.Machine
end

section
/-! What an arrival meets, and what its destination's tile logs of it. The statements of 06, 15, 16 and 17 use these facts. -/

namespace Sys2Proof.Machine

open Sys2Proof.Claims

set_option Elab.async false

variable {s t : State} {f : Flight}

theorem State.reopen_frame (s : State) (tt : TTId) : s.reopen tt = { s with tts := (s.reopen tt).tts } := State.modTT_frame s tt _

@[simp] theorem State.core_reopen (s : State) (tt : TTId) (c : CoreId) : (s.reopen tt).core c = s.core c :=
  (congrArg (State.core · c) (State.reopen_frame ..) :)

/-! ### Arrivals (06 R178; 16 R451) -/

theorem State.logTaken_frame (s : State) (f : Flight) : s.logTaken f = { s with zones := (s.logTaken f).zones } := by
  unfold State.logTaken
  split
  · rfl
  · cases f.src <;> (dsimp only; split <;> rfl)

@[simp] theorem State.core_logTaken (s : State) (f : Flight) (c : CoreId) : (s.logTaken f).core c = s.core c :=
  (congrArg (State.core · c) (State.logTaken_frame ..) :)

@[simp] theorem State.home_logTaken (s : State) (f : Flight) (h : Home) : (s.logTaken f).home h = s.home h :=
  (congrArg (State.home · h) (State.logTaken_frame ..) :)

@[simp] theorem State.tile_logTaken (s : State) (f : Flight) (t : TileId) : (s.logTaken f).tile t = s.tile t :=
  (congrArg (State.tile · t) (State.logTaken_frame ..) :)

@[simp] theorem State.ctx_logTaken (s : State) (f : Flight) (id : CtxId) : (s.logTaken f).ctx id = s.ctx id :=
  (congrArg (State.ctx · id) (State.logTaken_frame ..) :)

@[simp] theorem State.net_logTaken (s : State) (f : Flight) : (s.logTaken f).net = s.net := by rw [State.logTaken_frame]

@[simp] theorem State.cells_logTaken (s : State) (f : Flight) (h : Home) : (s.logTaken f).cells h = s.cells h := by
  rw [State.logTaken_frame]
  cases h <;> rfl

@[simp] theorem State.ctxs_logTaken (s : State) (f : Flight) : (s.logTaken f).ctxs = s.ctxs := by rw [State.logTaken_frame]

@[simp] theorem State.cores_logTaken (s : State) (f : Flight) : (s.logTaken f).cores = s.cores := by rw [State.logTaken_frame]

@[simp] theorem State.homes_logTaken (s : State) (f : Flight) : (s.logTaken f).homes = s.homes := by rw [State.logTaken_frame]

@[simp] theorem State.tts_logTaken (s : State) (f : Flight) : (s.logTaken f).tts = s.tts := by rw [State.logTaken_frame]

theorem SameMemory.logTaken (h : SameMemory s t) : SameMemory s (t.logTaken f) := by
  rw [State.logTaken_frame]
  exact h

/-- What Lands asks is what an arrival is taken by. -/
theorem State.reachOf_lands (h : Lands s f) : s.reachOf f = .take := by
  obtain ⟨-, hst, hblocked, hround, htile⟩ := h
  cases hd : f.dst with
  | none => simp [State.reachOf, hst, hblocked, hd]
  | some t =>
    cases hb : s.bundle t with
    | none => simp [State.reachOf, hst, hblocked, hd, hb]
    | some b =>
      obtain ⟨hres, hgen, hforeign, hbeneath⟩ := htile t b hd hb
      simp [State.reachOf, hst, hblocked, hd, hb, hres, hgen, hforeign, hround, hbeneath]

theorem arrival_taken {k : State → Flight → Option Taking} (h : Lands s f) (hk : k (s.drop f.id) f = some (.done t)) :
    arrival s f.id k = .next (t.logTaken f) := by
  obtain ⟨hf, -⟩ := id h
  simp only [arrival, hf, hk, State.reachOf_lands h]

theorem arrival_again {k : State → Flight → Option Taking} (h : Lands s f) (hk : k (s.drop f.id) f = some .again) :
    arrival s f.id k = .next (s.bounce f.id) := by
  obtain ⟨hf, -⟩ := id h
  simp only [arrival, hf, hk, State.reachOf_lands h]

theorem arrival_bounced {k : State → Flight → Option Taking} {v : Taking} (hf : s.flight f.id = some f) (hk : k (s.drop f.id) f = some v)
    (h : s.reachOf f = .bounce) : arrival s f.id k = .next (s.bounce f.id) := by
  simp only [arrival, hf, hk, h]

theorem arrival_foreign {k : State → Flight → Option Taking} {v : Taking} (hf : s.flight f.id = some f) (hk : k (s.drop f.id) f = some v)
    (h : s.reachOf f = .foreign) : arrival s f.id k = .next (s.refuseForeign f) := by
  simp only [arrival, hf, hk, h]

/-! ### Refusal at ejection (17 R465) -/

theorem State.refuseForeign_eq {p : Packet} (hp : s.xpartOf f = some p) :
    s.refuseForeign f = { s with fresh := s.fresh + 1,
                                 net := netWithout s f ++ [(s.drop f.id).flightOf none (f.src.map CoreId.tile) p .transit] } := by
  rw [State.refuseForeign, hp]
  exact State.sendSt_of_routed (State.routed_none _ _) p .transit

end Sys2Proof.Machine
end

section
/-! Messages, credits and increments arrive, are bounced and sent again; the NI injects, and arrivals for a folded tile are parked (06, 15, 17). -/

namespace Sys2Proof.Machine

open Sys2Proof.Claims

set_option Elab.async false

variable {s t : State} {f : Flight}

/-! ### Messages at their core (06 R181 to R191) -/

theorem sumOf_eq (l : List Nat) : sumOf l = l.sum := List.sum_eq_foldl.symm

theorem Chan.takes_of_fits {x : Chan} {m : Message} (h : Fits x m) : x.takes m.flits = some false := by
  obtain ⟨hplain, hroom⟩ := h
  have hnone : x.msgs.any EndMsg.hampered = false := List.any_eq_false.mpr fun y hy => by rw [hplain y hy]; exact Bool.false_ne_true
  have hall : (x.msgs.filter fun y => !y.hampered) = x.msgs := List.filter_eq_self.mpr fun y hy => by rw [hplain y hy]; rfl
  have hused : x.used + m.flits ≤ x.depth := by
    rw [Chan.used, hall, sumOf_eq]
    exact hroom
  simp [Chan.takes, hnone, hused]

/-- A message as a receive end keeps it. -/
def Chan.entering (x : Chan) (m : Message) : EndMsg := { msg := m, bind := x.bind, holder := none, hampered := false }

/-- A receive end with a message more. -/
def Chan.received (m : Message) (x : Chan) : Chan := { x with msgs := x.msgs ++ [x.entering m] }

/-- The counts that a message makes as it enters. -/
def Chan.counted (x : Chan) (dst : CoreId) : List (CoreId × Nat) :=
  match x.bind with
  | .count n => [(dst, n)]
  | _ => []

theorem State.putMessage_eq (s : State) (dst : CoreId) (m : Message) :
    s.putMessage dst m false =
      { s with cores := (s.modChan dst m.ch (Chan.received m)).cores,
               tts := (s.putMessage dst m false).tts, later := s.later ++ ((s.core dst).chan m.ch).counted dst } := by
  cases hbind : ((s.core dst).chan m.ch).bind with
  | count n => simp [State.putMessage, Chan.counted, Chan.received, Chan.entering, hbind, State.incrLater, State.modChan, State.modCore, State.setCore]
  | cls n =>
    simp only [State.putMessage, State.modChan, State.modCore, State.setCore, Chan.counted, Chan.received, Chan.entering, hbind, List.append_nil]
    split
    · rw [State.reopen_frame]
    · rfl

theorem State.takeMessage_enters {dst : CoreId} {m : Message} (hfits : Fits ((s.core dst).chan m.ch) m)
    (hkind : (m.direct = false ∧ ((s.core dst).chan m.ch).kind = .bound) ∨ (m.direct = true ∧ m.refused = false ∧ ((s.core dst).chan m.ch).kind = .direct)) :
    s.takeMessage dst m = .done (s.putMessage dst m false) := by
  have htakes := Chan.takes_of_fits hfits
  obtain ⟨hdirect, hbound⟩ | ⟨hdirect, hrefused, hend⟩ := hkind
  · simp [State.takeMessage, hdirect, hbound, htakes]
  · cases hreply : m.reply <;> simp [State.takeMessage, hdirect, hrefused, hreply, hend, htakes]

/-- A message that fits enters its receive end with the binding in force. -/
theorem messageEnters {dst : CoreId} {m : Message} (h : Lands s f) (hpkt : f.pkt = .message dst m) (hfits : Fits ((s.core dst).chan m.ch) m)
    (hkind : (m.direct = false ∧ ((s.core dst).chan m.ch).kind = .bound) ∨ (m.direct = true ∧ m.refused = false ∧ ((s.core dst).chan m.ch).kind = .direct)) :
    ∃ t, exec (.messageArrival f.id) s = .next t ∧ CoresOnly s t f dst (((s.core dst).chan m.ch).counted dst) ∧
      (t.core dst).chan m.ch = ((s.core dst).chan m.ch).received m ∧
      (∀ c, c ≠ m.ch → (t.core dst).chan c = (s.core dst).chan c) ∧ ∀ n, (t.core dst).entry n = (s.core dst).entry n := by
  have hdone : (s.drop f.id).takeMessage dst m = .done ((s.drop f.id).putMessage dst m false) := State.takeMessage_enters hfits hkind
  have hcores : (((s.drop f.id).putMessage dst m false).logTaken f).cores = ((s.drop f.id).modChan dst m.ch (Chan.received m)).cores := by
    rw [State.logTaken_frame, State.putMessage_eq]
  have hcore (c : CoreId) : (((s.drop f.id).putMessage dst m false).logTaken f).core c = ((s.drop f.id).modChan dst m.ch (Chan.received m)).core c :=
    congrArg (fun x => Map.getD x c Core.init) hcores
  have hchan (ch : Nat) := State.chan_modChan (s.drop f.id) dst m.ch ch (Chan.received m)
  refine ⟨((s.drop f.id).putMessage dst m false).logTaken f, ?_, ⟨?_, fun c hc => ?_⟩, ?_, fun c hc => ?_, fun n => ?_⟩
  · show execMessageArrival f.id s = _
    refine arrival_taken h ?_
    simp only [hpkt, hdone]
  · rw [State.logTaken_frame, State.putMessage_eq]
    rfl
  · exact (hcore c).trans (State.core_modChan_ne (s.drop f.id) m.ch _ hc)
  · rw [hcore]
    exact (hchan m.ch).trans (if_pos rfl)
  · rw [hcore]
    exact (hchan c).trans (if_neg hc)
  · rw [hcore]
    rw [State.modChan, State.core_modCore_self]
    rfl

/-- A sendi that finds no room, or no end of its kind, goes back to its sender. -/
theorem messageReturns {dst : CoreId} {m : Message} (h : Lands s f) (hpkt : f.pkt = .message dst m) (hdirect : m.direct = true) (hrefused : m.refused = false)
    (hreply : m.reply = false) (hno : ((s.core dst).chan m.ch).kind ≠ .direct ∨ ((s.core dst).chan m.ch).takes m.flits = none) :
    ∃ t y n, exec (.messageArrival f.id) s = .next t ∧ t.cores = s.cores ∧ t.ctxs = s.ctxs ∧ SameMemory s t ∧ t.net = netWithout s f ++ [y] ∧
      y.dst = some m.src.tile ∧ y.pkt = .message m.src n ∧ n.refused = true ∧ n.words = m.words ∧ n.src = dst ∧ n.ch = m.ch := by
  have hdone : (s.drop f.id).takeMessage dst m = .done ((s.drop f.id).returnMessage dst m) := by
    show (if m.direct = false then _ else if m.refused || m.reply then _ else _) = _
    rw [if_neg (by simp [hdirect]), if_neg (by simp [hrefused, hreply])]
    split
    next hkind htakes =>
      obtain hk | ht := hno
      · exact absurd hkind hk
      · cases ht.symm.trans htakes
    next => rfl
  have ht : (s.drop f.id).returnMessage dst m = _ :=
    State.sendSt_eq (s.drop f.id) (some dst) (some m.src.tile) (.message m.src (m.returned dst 0)) (.queued [])
  refine ⟨((s.drop f.id).returnMessage dst m).logTaken f,
    (s.drop f.id).flightOf (some dst) (some m.src.tile) (.message m.src (m.returned dst 0)) (.queued []), m.returned dst 0, ?_, ?_, ?_, ?_, ?_,
    rfl, rfl, rfl, rfl, rfl, rfl⟩
  · show execMessageArrival f.id s = _
    refine arrival_taken h ?_
    simp only [hpkt, hdone]
  all_goals rw [State.logTaken_frame]
  · exact (congrArg State.cores ht).trans rfl
  · exact (congrArg State.ctxs ht).trans rfl
  · have hmem : SameMemory s (s.drop f.id) := .refl s
    exact hmem.sendSt (p := .message m.src (m.returned dst 0)) (st := .queued [])
  · exact congrArg State.net ht

/-! ### What arrives beside messages (05 R147, R158; 06 R184; 07 R227) -/

/-- A spawned activation waits at its core. -/
theorem spawnArrives {dst : CoreId} {w : Waiting} {u : Nat} (h : Lands s f) (hpkt : f.pkt = .spawn dst w u) :
    ∃ t, exec (.messageArrival f.id) s = .next t ∧ CoresOnly s t f dst [] ∧ t.core dst = { s.core dst with waiting := (s.core dst).waiting ++ [w] } := by
  refine ⟨(((s.drop f.id).modCore dst fun k => { k with waiting := k.waiting ++ [w] }).reopen w.tt).logTaken f, ?_, ⟨?_, fun c hc => ?_⟩, ?_⟩
  · show execMessageArrival f.id s = _
    refine arrival_taken h ?_
    simp only [hpkt]
  · rw [State.logTaken_frame, State.reopen_frame]
    simp only [State.modCore, State.setCore, State.drop, netWithout, List.append_nil]
  · rw [State.core_logTaken, State.core_reopen]
    exact State.core_modCore_ne (s.drop f.id) _ hc
  · rw [State.core_logTaken, State.core_reopen]
    exact State.core_modCore_self (s.drop f.id) dst _

theorem creditArrives {dst : CoreId} {ch n : Nat} (h : Lands s f) (hpkt : f.pkt = .credit dst ch n) :
    ∃ t, exec (.creditReturn f.id) s = .next t ∧ CoresOnly s t f dst [] ∧
      (t.core dst).chan ch = { (s.core dst).chan ch with credits := ((s.core dst).chan ch).credits + n } ∧
      ∀ c, c ≠ ch → (t.core dst).chan c = (s.core dst).chan c := by
  have hchan (c : Nat) := State.chan_modChan (s.drop f.id) dst ch c (f := fun x => { x with credits := x.credits + n })
  refine ⟨((s.drop f.id).modChan dst ch fun x => { x with credits := x.credits + n }).logTaken f, ?_, ⟨?_, fun c hc => ?_⟩, ?_, fun c hc => ?_⟩
  · show execCreditReturn f.id s = _
    refine arrival_taken h ?_
    simp only [hpkt]
  · rw [State.logTaken_frame]
    simp only [State.modChan, State.modCore, State.setCore, State.drop, netWithout, List.append_nil]
  all_goals rw [State.core_logTaken]
  · exact State.core_modChan_ne (s.drop f.id) ch _ hc
  · exact (hchan ch).trans (if_pos rfl)
  · exact (hchan c).trans (if_neg hc)

theorem incrementArrives {dst : CoreId} {e : Nat} (h : Lands s f) (hpkt : f.pkt = .increment dst e) :
    ∃ t, exec (.counterIncrementArrival f.id) s = .next t ∧ CoresOnly s t f dst [(dst, e)] ∧ t.cores = s.cores := by
  refine ⟨((s.drop f.id).incrLater dst e).logTaken f, ?_, ⟨?_, fun c _ => ?_⟩, ?_⟩
  · show execCounterIncrementArrival f.id s = _
    refine arrival_taken h ?_
    simp only [hpkt]
  all_goals
    rw [State.logTaken_frame]
    rfl

/-- The increments of a cycle are counted once its units have issued. -/
theorem incrementCounts {dst : CoreId} {e : Nat} (h : s.later = [(dst, e)]) :
    s.applyLater = { s with later := [], cores := s.applyLater.cores } ∧ (∀ c, c ≠ dst → s.applyLater.core c = s.core c) ∧
      (∀ n, n ≠ e → (s.applyLater.core dst).entry n = (s.core dst).entry n) ∧
      (s.applyLater.core dst).entry e = { (s.core dst).entry e with
        counter := if ((s.core dst).entry e).counter = BitVec.allOnes 32 then BitVec.allOnes 32 else ((s.core dst).entry e).counter + 1 } := by
  have ht : s.applyLater = State.incrEntry { s with later := [] } dst e := by rw [State.applyLater, h]; rfl
  rw [ht, State.incrEntry]
  refine ⟨rfl, fun c hc => State.core_modCore_ne _ _ hc, fun n hn => ?_, ?_⟩
  · rw [State.core_modCore_self]
    exact Map.getD_set_ne _ _ _ hn
  · rw [State.core_modCore_self]
    refine (Map.getD_set_self ..).trans ?_
    show { (s.core dst).entry e with
      counter := if ((s.core dst).entry e).counter = BitVec.allOnes 32 then ((s.core dst).entry e).counter else ((s.core dst).entry e).counter + 1 } = _
    by_cases hfull : ((s.core dst).entry e).counter = BitVec.allOnes 32
    · rw [if_pos hfull, if_pos hfull, hfull]
    · rw [if_neg hfull, if_neg hfull]

/-- A cancelled ldsync is forgotten. -/
theorem cancelArrives {h : TileId} {b : Issuer} {r : Nat} (hl : Lands s f) (hpkt : f.pkt = .cancel h b r) :
    ∃ t, exec (.ldsyncCancel f.id) s = .next t ∧ t = { s with net := netWithout s f, homes := t.homes, zones := t.zones } ∧
      t.home (.tile h) = { s.home (.tile h) with syncs := (s.home (.tile h)).syncs.filter fun y => y.id ≠ r } := by
  refine ⟨((s.drop f.id).modHome (.tile h) fun x => { x with syncs := x.syncs.filter fun y => y.id ≠ r }).logTaken f, ?_, ?_, ?_⟩
  · show execLdsyncCancel f.id s = _
    refine arrival_taken hl ?_
    simp only [hpkt]
  · rw [State.logTaken_frame]
    rfl
  · rw [State.home_logTaken]
    exact State.home_modHome_self (s.drop f.id) _ _

/-! ### Retry replies (06 R193; 15 R430, R433; 17 R465) -/

/-- A message that its destination does not take now, but refuses for its tile's state or for the entry that routed it, is bounced. -/
theorem messageBounces {dst : CoreId} {m : Message} {t : TileId} {b : Bundle} (hpkt : f.pkt = .message dst m) (hf : s.flight f.id = some f)
    (hst : f.st = .transit) (hblocked : s.blocked f = false) (hdst : f.dst = some t) (hb : s.bundle t = some b)
    (h : (b.st = .folding ∧ s.foldTakes f t = false) ∨ b.st = .unfolding ∨ b.st = .remapping ∨ ((b.st = .resident ∨ b.st = .folded) ∧ f.gen ≠ b.gen)) :
    exec (.messageArrival f.id) s = .next { s with net := s.net.map fun g => if g.id = f.id then { g with st := .bounced } else g } := by
  have hreach : s.reachOf f = .bounce := by
    obtain ⟨hfolding, htakes⟩ | hun | hre | ⟨hres | hfolded, hgen⟩ := h <;> simp [State.reachOf, *]
  show execMessageArrival f.id s = _
  refine arrival_bounced (v := (s.drop f.id).takeMessage dst m) hf ?_ hreach
  simp only [hpkt]

/-- A message whose tag is not its destination's is refused at ejection, and its sender is told. -/
theorem messageForeign {dst : CoreId} {m : Message} {t : TileId} {b : Bundle} (hpkt : f.pkt = .message dst m) (hf : s.flight f.id = some f)
    (hst : f.st = .transit) (hblocked : s.blocked f = false) (hdst : f.dst = some t) (hb : s.bundle t = some b)
    (h : (b.st = .resident ∨ b.st = .folded) ∧ f.gen = b.gen ∨ b.st = .folding ∧ s.foldTakes f t = true) (hforeign : s.isForeign f t = true)
    (hdirect : m.direct = true) (hrefused : m.refused = false) :
    ∃ v y, exec (.messageArrival f.id) s = .next v ∧ v = { s with net := netWithout s f ++ [y], fresh := v.fresh } ∧
      y.pkt = .xpart { core := f.src.getD dst, ctx := 0, uid := m.uid, tt := m.tt, engine := false, sys := false, tag := f.tag } none none
        (BitVec.ofNat 64 t.t) none := by
  have hreach : s.reachOf f = .foreign := by
    obtain ⟨hres | hfolded, hgen⟩ | ⟨hfolding, htakes⟩ := h <;> simp [State.reachOf, *]
  obtain ⟨c, hc⟩ : ∃ c, f.src = some c := Option.isSome_iff_exists.mp (Bool.and_eq_true_iff.mp hforeign).1
  have hp : s.xpartOf f = some (.xpart { core := f.src.getD dst, ctx := 0, uid := m.uid, tt := m.tt, engine := false, sys := false, tag := f.tag } none none
      (BitVec.ofNat 64 t.t) none) := by
    simp [State.xpartOf, hc, hdst, hpkt, hdirect, hrefused]
  have hv := State.refuseForeign_eq hp
  refine ⟨s.refuseForeign f, (s.drop f.id).flightOf none (f.src.map CoreId.tile) _ .transit, ?_, ?_, rfl⟩
  · show execMessageArrival f.id s = _
    refine arrival_foreign (v := (s.drop f.id).takeMessage dst m) hf ?_ hreach
    simp only [hpkt]
  · rw [hv]

theorem State.countRetry_frame (s : State) (f : Flight) : s.countRetry f = { s with cores := (s.countRetry f).cores } := by
  unfold State.countRetry
  split <;> rfl

theorem State.uncache_frame (s : State) (src : Option CoreId) (dst : Option TileId) : s.uncache src dst = { s with tiles := (s.uncache src dst).tiles } := by
  unfold State.uncache
  split <;> rfl

theorem SameMemory.countRetry (s : State) (f : Flight) : SameMemory s (s.countRetry f) := by
  rw [State.countRetry_frame]
  exact .refl s

theorem SameMemory.uncache (s : State) (src : Option CoreId) (dst : Option TileId) : SameMemory s (s.uncache src dst) := by
  unfold State.uncache
  split
  · exact (SameMemory.refl s).modTile fun _ => ⟨rfl, rfl⟩
  · exact .refl s

/-- A change of one item in flight, behind a change of cores and tiles alone. -/
theorem State.modFlight_of_frame {u : State} {cs ts} (h : u = { s with cores := cs, tiles := ts }) (i : Nat) (g : Flight → Flight) :
    let t := u.modFlight i g
    t = { s with net := t.net, cores := t.cores, tiles := t.tiles } ∧ t.net = s.net.map fun x => if x.id = i then g x else x := by
  subst h
  exact ⟨rfl, rfl⟩

theorem State.modFlight_of_tiles {u : State} {ts} (h : u = { s with tiles := ts }) (i : Nat) (g : Flight → Flight) :
    let t := u.modFlight i g
    t = { s with net := t.net, tiles := t.tiles } := by
  subst h
  rfl

theorem State.routed_uncache_frame (s : State) (src : Option CoreId) (dst : Option TileId) :
    ((s.uncache src dst).routed src dst).2 = { s with tiles := ((s.uncache src dst).routed src dst).2.tiles } := by
  have hu := State.uncache_frame s src dst
  generalize s.uncache src dst = u at hu ⊢
  exact (State.routed_frame u src dst).trans (congrArg (fun x : State => { x with tiles := (u.routed src dst).2.tiles }) hu :)

theorem State.uncache_countRetry_frame (s : State) (f : Flight) :
    (s.countRetry f).uncache f.src f.dst =
      { s with cores := (s.countRetry f).cores, tiles := ((s.countRetry f).uncache f.src f.dst).tiles } := by
  have hu := State.countRetry_frame s f
  generalize s.countRetry f = u at hu ⊢
  exact (State.uncache_frame u f.src f.dst).trans (congrArg (fun x : State => { x with tiles := (u.uncache f.src f.dst).tiles }) hu :)

/-- A bounced item waits for the time that its tries give, its channel counts the retry. -/
theorem flightRetries (hf : s.flight f.id = some f) (hst : f.st = .bounced) :
    ∃ t, exec (.retryReply f.id) s = .next t ∧ t = { s with net := t.net, cores := t.cores, tiles := t.tiles } ∧ SameMemory s t ∧
      t.net = (s.net.map fun g => if g.id = f.id then { g with st := .waiting (s.cycle + 64 * 2 ^ min g.tries 8), tries := g.tries + 1 } else g) ∧
      ∀ c dst m, f.src = some c → f.pkt = .message dst m →
        (t.core c).chan m.sendCh = { (s.core c).chan m.sendCh with retries := ((s.core c).chan m.sendCh).retries + 1 } := by
  have hframe := State.uncache_countRetry_frame s f
  refine ⟨((s.countRetry f).uncache f.src f.dst).modFlight f.id fun g =>
    { g with st := .waiting (s.cycle + 64 * 2 ^ min g.tries 8), tries := g.tries + 1 }, ?_, ?_, ?_, ?_, fun c dst m hc hm => ?_⟩
  · show execRetryReply f.id s = _
    simp only [execRetryReply, hf, event, hst, decide_true, if_true]
  · exact (State.modFlight_of_frame hframe ..).1
  · exact (SameMemory.countRetry s f).trans (.trans (SameMemory.uncache _ f.src f.dst) (.refl _))
  · exact (State.modFlight_of_frame hframe ..).2
  · show ((((s.countRetry f).uncache f.src f.dst).core c).chan m.sendCh) = _
    have hcore : ((s.countRetry f).uncache f.src f.dst).core c = (s.countRetry f).core c := (congrArg (State.core · c) hframe :)
    rw [hcore]
    simp only [State.countRetry, hc, hm]
    exact (State.chan_modChan ..).trans (if_pos rfl)

/-- Before its time a waiting item stays. -/
theorem flightWaits {w : Nat} (hf : s.flight f.id = some f) (hst : f.st = .waiting w) (h : s.cycle < w) : exec (.retryResend f.id) s = .next s := by
  have hlate : decide (w ≤ s.cycle) = false := decide_eq_false (Nat.not_le.mpr h)
  show execRetryResend f.id s = _
  simp [execRetryResend, hf, hst, event, hlate]

/-- What an NI resends is routed anew, for its cached entry was dropped. -/
theorem State.routed_uncache (s : State) (src : Option CoreId) (d : TileId) : ((s.uncache src (some d)).routed src (some d)).1 = s.genOf d := by
  cases src with
  | none => rfl
  | some c =>
    by_cases hown : c.tile = d
    · exact congrArg Prod.fst ((if_pos hown).trans rfl)
    · have hcache : ((s.uncache (some c) (some d)).tile c.tile).cache.get? d.t = none := by
        show ((s.modTile c.tile fun x => { x with cache := x.cache.erase d.t }).tile c.tile).cache.get? d.t = none
        rw [State.tile_modTile_self]
        exact Map.get?_erase_self _ _
      simp only [State.routed, if_neg hown, hcache]
      rfl

theorem flightResends {w : Nat} {c : CoreId} (hf : s.flight f.id = some f) (hst : f.st = .waiting w) (hsrc : f.src = some c) (hresends : s.resends c = true)
    (h : w ≤ s.cycle) :
    ∃ t g, exec (.retryResend f.id) s = .next t ∧ t = { s with net := t.net, tiles := t.tiles } ∧ SameMemory s t ∧
      (t.net = s.net.map fun x => if x.id = f.id then { s.retag x with st := .transit, gen := g } else x) ∧ ∀ d, f.dst = some d → g = s.genOf d := by
  refine ⟨((s.uncache f.src f.dst).routed f.src f.dst).2.modFlight f.id fun x =>
    { s.retag x with st := .transit, gen := ((s.uncache f.src f.dst).routed f.src f.dst).1 }, ((s.uncache f.src f.dst).routed f.src f.dst).1, ?_, ?_, ?_, ?_,
    fun d hd => ?_⟩
  · show execRetryResend f.id s = _
    have hresent : (f.src.map s.resends).getD true = true := by rw [hsrc]; exact hresends
    simp only [execRetryResend, hf, hst, event, hresent, decide_eq_true h, Bool.and_self, if_true]
  · exact State.modFlight_of_tiles (State.routed_uncache_frame ..) ..
  · exact (SameMemory.uncache s _ _).trans (.trans (.routed _ _ _) (.refl _))
  · exact (State.modFlight_of_frame (State.routed_uncache_frame ..) ..).2
  · rw [hd]
    exact State.routed_uncache s f.src d

theorem messageSteps : Claims.MessageSteps := fun _ _ =>
  ⟨fun _ _ h hpkt => ⟨fun hkind hfits => messageEnters h hpkt hfits hkind, messageReturns h hpkt⟩, fun _ _ _ => spawnArrives, fun _ _ _ => creditArrives,
    fun _ _ => incrementArrives, fun _ _ => incrementCounts, fun _ _ _ => cancelArrives,
    fun _ _ _ _ hpkt hf hst hblocked hdst hb => ⟨messageBounces hpkt hf hst hblocked hdst hb, messageForeign hpkt hf hst hblocked hdst hb⟩,
    flightRetries, fun _ _ hf hst hsrc hresends => ⟨flightWaits hf hst, flightResends hf hst hsrc hresends⟩⟩

/-! ### Injection (06 R187; 11 R340; 17 R487) -/

/-- The level at which a core's NI injects an item. -/
def Flight.level (f : Flight) : Nat := f.pkt.sendCh / 8

theorem nextLevel_mem {since levels : List Nat} {l : Nat} (h : nextLevel since levels = some l) : l ∈ levels := by
  unfold nextLevel at h
  dsimp only at h
  split at h
  · exact minBy_mem h
  · exact List.mem_of_mem_filter (minBy_mem h)

/-- No level starves: the highest goes. -/
theorem nextLevel_highest {since levels : List Nat} {l : Nat} (h : nextLevel since levels = some l) (hsince : ∀ k, since.getD k 0 < 64)
    (hlevels : ∀ k ∈ levels, k < 8) : ∀ k ∈ levels, k ≤ l := by
  have hnone : (levels.filter fun l => decide (64 ≤ since.getD l 0)) = [] :=
    List.filter_eq_nil_iff.mpr fun k _ => by simpa using hsince k
  simp only [nextLevel, hnone, List.isEmpty_nil, if_true] at h
  intro k hk
  have hle := minBy_le h k hk
  have hl := hlevels l (minBy_mem h)
  have hk' := hlevels k hk
  omega

/-- A level that starves goes before the higher ones. -/
theorem nextLevel_starved {since levels : List Nat} {l : Nat} (h : nextLevel since levels = some l) : ∀ k ∈ levels, 64 ≤ since.getD k 0 → l ≤ k := by
  intro k hk hstarved
  have hmem : k ∈ levels.filter fun l => decide (64 ≤ since.getD l 0) := List.mem_filter.mpr ⟨hk, decide_eq_true hstarved⟩
  have hsome : (levels.filter fun l => decide (64 ≤ since.getD l 0)).isEmpty = false := List.isEmpty_eq_false_iff.mpr (List.ne_nil_of_mem hmem)
  simp only [nextLevel, hsome, Bool.false_eq_true, if_false] at h
  exact minBy_le h k hmem

theorem State.nextInject_some {c : CoreId} (h : s.nextInject c = some f) :
    f ∈ s.pendingOf c ∧ nextLevel (s.core c).since (((s.pendingOf c).map fun g => g.pkt.sendCh / 8).dedup) = some f.level := by
  unfold State.nextInject at h
  dsimp only at h
  split at h
  · cases h
  next l hl =>
    obtain ⟨hmem, hlevel⟩ := List.mem_filter.mp (minBy_mem h)
    exact ⟨hmem, hl.trans (congrArg some (of_decide_eq_true hlevel).symm)⟩

theorem State.level_mem {c : CoreId} {g : Flight} (hg : g ∈ s.pendingOf c) : g.level ∈ ((s.pendingOf c).map fun g => g.pkt.sendCh / 8).dedup :=
  List.mem_dedup.mpr (List.mem_map.mpr ⟨g, hg, rfl⟩)

/-- An item that may be injected is queued, and its earlier device writes are acknowledged. -/
theorem State.mem_pendingOf {c : CoreId} (h : f ∈ s.pendingOf c) :
    f ∈ s.net ∧ f.src = some c ∧ ∃ ws, f.st = .queued ws ∧ ∀ w ∈ ws, ∀ p ∈ s.posted, p.wid ≠ w := by
  obtain ⟨hnet, hdue⟩ := List.mem_filter.mp h
  obtain ⟨hhere, hst⟩ := Bool.and_eq_true_iff.mp hdue
  refine ⟨hnet, of_decide_eq_true (Bool.and_eq_true_iff.mp hhere).1, ?_⟩
  split at hst
  next ws hq =>
    refine ⟨ws, hq, fun w hw p hp hwid => ?_⟩
    have hacked := List.all_eq_true.mp (Bool.and_eq_true_iff.mp hst).1 w hw
    rw [Bool.not_eq_true', List.any_eq_false] at hacked
    exact hacked p hp (decide_eq_true hwid)
  next => cases hst

/-- How many messages of higher levels have passed each level, after one of level l has gone, which passes the levels in lower. -/
def Core.sincePassing (k : Core) (l : Nat) (lower : List Nat) : List Nat :=
  (List.range 8).map fun x => if x = l then 0 else k.since.getD x 0 + (if lower.contains x then 1 else 0)

theorem Core.sincePassing_self (k : Core) (l : Nat) (lower : List Nat) : (k.sincePassing l lower).getD l 0 = 0 := by
  by_cases hl : l < 8 <;> simp [Core.sincePassing, List.getD, hl]

/-- A core's NI after an item of its has gone. -/
def State.injected (s : State) (c : CoreId) (f : Flight) : State :=
  s.modCore c fun k =>
    { k with since := k.sincePassing f.level (((s.pendingOf c).map fun g => g.pkt.sendCh / 8).filter fun x => x < f.level),
             lastCh := k.lastCh.set f.level f.pkt.sendCh }

theorem exec_messageInject_tile {c : CoreId} {d : TileId} (h : s.nextInject c = some f) (hdst : f.dst = some d) :
    exec (.messageInject c) s = .next ((s.injected c f).modFlight f.id (s.injected c f).leaves) := by
  show execMessageInject c s = _
  simp only [execMessageInject, h, hdst]
  rfl

theorem exec_messageInject_module {c to_ : CoreId} {m : Message} (h : s.nextInject c = some f) (hdst : f.dst = none) (hpkt : f.pkt = .message to_ m) :
    exec (.messageInject c) s = .next (((s.injected c f).drop f.id).sendEdge c m) := by
  show execMessageInject c s = _
  simp only [execMessageInject, State.injected, Flight.level, h, hdst, hpkt]
  rfl

/-- An item for a tile of the module goes on its way. -/
theorem itemLeaves {c : CoreId} {d : TileId} (h : s.nextInject c = some f) (hdst : f.dst = some d) :
    ∃ t, exec (.messageInject c) s = .next t ∧ t = { s with net := t.net, cores := t.cores } ∧
      (t.net = s.net.map fun g => if g.id = f.id then s.leaves g else g) ∧ (∀ k, k ≠ c → t.core k = s.core k) ∧
      t.core c = { s.core c with since := (t.core c).since, lastCh := (t.core c).lastCh } ∧ (t.core c).since.getD (f.pkt.sendCh / 8) 0 = 0 := by
  have hcore : (s.injected c f).core c = _ := State.core_modCore_self ..
  refine ⟨(s.injected c f).modFlight f.id (s.injected c f).leaves, exec_messageInject_tile h hdst, rfl, rfl, fun k hk => ?_, ?_, ?_⟩
  · show (s.injected c f).core k = s.core k
    exact State.core_modCore_ne s _ hk
  · show (s.injected c f).core c = { s.core c with since := ((s.injected c f).core c).since, lastCh := ((s.injected c f).core c).lastCh }
    rw [hcore]
  · show ((s.injected c f).core c).since.getD f.level 0 = 0
    rw [hcore]
    exact Core.sincePassing_self ..

/-- The next frame of an edge, with a message. -/
def Message.frame (m : Message) (c : CoreId) (n : Nat) (e : Edge) : PortFrame :=
  { edge := n, seq := e.next, credit := none, payload := m.header m.ch :: m.words, tile := c.t, path := m.key.path, num := m.key.seq }

theorem State.sendEdge_up {c : CoreId} {m : Message} {n : Nat} {e : Edge} (hedge : ((s.core c).chan m.sendCh).edge = some n) (he : s.edges.get? n = some e)
    (hup : e.port ∉ s.down) :
    s.sendEdge c m = { s with edges := s.edges.set n { e with next := e.next + 1, unacked := e.unacked ++ [(s.cycle, m.frame c n e)] },
                              out := .frame e.port (m.frame c n e) :: s.out } := by
  have hopen : s.down.contains e.port = false := by simpa using hup
  simp only [State.sendEdge, hedge, State.pushEdge, he, hopen, Bool.false_eq_true, if_false]
  rfl

/-- A message for another module goes out as its edge's next frame. -/
theorem itemLeavesModule {c to_ : CoreId} {m : Message} {n : Nat} {e : Edge} (h : s.nextInject c = some f) (hdst : f.dst = none) (hpkt : f.pkt = .message to_ m)
    (hedge : ((s.core c).chan m.sendCh).edge = some n) (he : s.edges.get? n = some e) (hup : e.port ∉ s.down) :
    ∃ t fr, exec (.messageInject c) s = .next t ∧ t = { s with net := netWithout s f, cores := t.cores, edges := t.edges, out := .frame e.port fr :: s.out } ∧
      t.edges.get? n = some { e with next := e.next + 1, unacked := e.unacked ++ [(s.cycle, fr)] } ∧
      fr = { edge := n, seq := e.next, credit := none, payload := m.header m.ch :: m.words, tile := c.t, path := m.key.path, num := m.key.seq } := by
  have hedge' : (((s.injected c f).core c).chan m.sendCh).edge = some n := by
    rw [State.injected, State.core_modCore_self]
    exact hedge
  have hsend := State.sendEdge_up (s := (s.injected c f).drop f.id) hedge' he hup
  refine ⟨((s.injected c f).drop f.id).sendEdge c m, m.frame c n e, exec_messageInject_module h hdst hpkt, ?_, ?_, rfl⟩
  · rw [hsend]
    rfl
  · rw [hsend]
    exact Map.get?_set_self ..

/-- A core none of whose items may go injects nothing. -/
theorem nothingInjects {c : CoreId} (h : s.nextInject c = none) : exec (.messageInject c) s = .next s := by
  show execMessageInject c s = _
  simp only [execMessageInject, h]

/-! ### Arrivals for a folded tile (15 R435) -/

theorem State.reachOf_folded {t : TileId} {b : Bundle} (hst : f.st = .transit) (hblocked : s.blocked f = false) (hdst : f.dst = some t)
    (hb : s.bundle t = some b) (hfolded : b.st = .folded) (hgen : f.gen = b.gen) (hforeign : s.isForeign f t = false) : s.reachOf f = .park := by
  simp [State.reachOf, hst, hblocked, hdst, hb, hfolded, hgen, hforeign]

/-- The part of a partition's pool that a further arrival of a folded tile takes. -/
def State.parkingUnits (s : State) (f : Flight) (t : TileId) : Nat := unitsOf (s.parkedFlits t + f.pkt.flits) - unitsOf (s.parkedFlits t)

/-- The pool of a folded tile's partition without what a further arrival takes of it. -/
def State.pooled (s : State) (f : Flight) (t : TileId) : State :=
  s.modPart (s.partOf (t.core .mc)) fun p => { p with pool := p.pool - s.parkingUnits f t }

/-- A folded tile with an arrival more in its hamper. -/
def State.hampered (s : State) (f : Flight) (t : TileId) : State :=
  ((s.pooled f t).modFlight f.id fun g => { (s.pooled f t).retag g with st := .parked }).modTile t fun x => { x with parked := x.parked ++ [f.id] }

theorem State.pooled_frame (s : State) (f : Flight) (t : TileId) : s.pooled f t = { s with parts := (s.pooled f t).parts } := State.modPart_frame ..

theorem State.retag_pooled (s : State) (f g : Flight) (t : TileId) : (s.pooled f t).retag g = s.retag g := by
  rw [State.pooled_frame]
  rfl

theorem State.hampered_frame (s : State) (f : Flight) (t : TileId) :
    s.hampered f t = { s with parts := (s.pooled f t).parts, tiles := (s.hampered f t).tiles,
                              net := s.net.map fun g => if g.id = f.id then { s.retag g with st := .parked } else g } := by
  rw [State.hampered, State.modFlight]
  simp only [State.retag_pooled]
  rw [State.pooled_frame]
  rfl

theorem State.tile_hampered (s : State) (f : Flight) (t : TileId) : (s.hampered f t).tile t = { s.tile t with parked := (s.tile t).parked ++ [f.id] } := by
  rw [State.hampered, State.tile_modTile_self]
  have htile : (s.pooled f t).tile t = s.tile t := by
    rw [State.pooled_frame]
    rfl
  show { (s.pooled f t).tile t with parked := ((s.pooled f t).tile t).parked ++ [f.id] } = _
  rw [htile]

theorem SameMemory.hampered (s : State) (f : Flight) (t : TileId) : SameMemory s (s.hampered f t) := by
  refine SameMemory.modTile (f := fun x => { x with parked := x.parked ++ [f.id] }) ?_ fun _ => ⟨rfl, rfl⟩
  rw [State.pooled_frame]
  exact .refl s

theorem State.summonParked_frame (s : State) (l b : Nat) (first : Bool) :
    s.summonParked l b first = { s with bundles := (s.summonParked l b first).bundles, fresh := (s.summonParked l b first).fresh } := by
  unfold State.summonParked
  split
  · rfl
  · split <;> rfl

theorem State.get?_summonParked {l b : Nat} {x : Bundle} (h : s.bundles.get? (l, b) = some x) (occupied : Bool) :
    (s.summonParked l b (!occupied)).bundles.get? (l, b) =
      some (if occupied = false ∨ x.summoned = none then { x with summoned := some s.fresh } else x) := by
  by_cases hs : occupied = false ∨ x.summoned = none
  · have hs' : (!occupied || x.summoned.isNone) = true := by simpa using hs
    simp only [State.summonParked, h, hs', if_true, if_pos hs]
    exact Map.get?_set_self ..
  · have hs' : (!occupied || x.summoned.isNone) = false := by simpa [Option.isSome_iff_ne_none] using hs
    simp only [State.summonParked, h, hs', if_neg hs, Bool.false_eq_true, if_false]

theorem State.tileFault_frame (s : State) (f : Flight) (t : TileId) : s.tileFault f t = { s with cores := (s.tileFault f t).cores } := by
  unfold State.tileFault
  split
  · rfl
  · split <;> rfl

theorem State.core_tileFault {k : CoreId} {t : TileId} (hsrc : f.src = some k) (hunit : f.pkt.byUnit = true) (hnew : t ∉ (s.core k).tileFaults) :
    (s.tileFault f t).core k = { s.core k with
      tileFaults := (s.core k).tileFaults ++ [t], notices := (s.core k).notices ++ [{ code := causeTilefault, tval := BitVec.ofNat 64 t.t }] } := by
  have hskip : (!f.pkt.byUnit || (s.core k).tileFaults.contains t) = false := by simpa [hunit] using hnew
  simp only [State.tileFault, hsrc, hskip, Bool.false_eq_true, if_false]
  exact State.core_modCore_self ..

theorem exec_parkedArrival {t : TileId} (hf : s.flight f.id = some f) (hreach : s.reachOf f = .park) (hdst : f.dst = some t) :
    exec (.parkedArrival f.id) s = .next (if ((s.parts.get? (s.partOf (t.core .mc))).map Partition.pool).getD 0 < s.parkingUnits f t then s.bounce f.id
      else ((s.hampered f t).summonParked t.l (bundleOf (s.gridX t.l) t.t) (!s.parkedIn t.l (bundleOf (s.gridX t.l) t.t))).tileFault f t) := by
  show execParkedArrival f.id s = _
  simp only [execParkedArrival, hf, hreach, hdst]
  rfl

/-- The state after an arrival has been parked. -/
def State.parkedFor (s : State) (f : Flight) (t : TileId) : State :=
  (s.hampered f t).summonParked t.l (bundleOf (s.gridX t.l) t.t) (!s.parkedIn t.l (bundleOf (s.gridX t.l) t.t))

theorem State.parkedFor_frame (s : State) (f : Flight) (t : TileId) :
    s.parkedFor f t = { s with parts := (s.pooled f t).parts, tiles := (s.hampered f t).tiles, bundles := (s.parkedFor f t).bundles,
                               fresh := (s.parkedFor f t).fresh,
                               net := s.net.map fun g => if g.id = f.id then { s.retag g with st := .parked } else g } := by
  rw [State.parkedFor, State.summonParked_frame, State.hampered_frame]

/-- What comes for a folded tile is kept in its hamper, as far as the partition's pool goes; its bundle is summoned, its sender told. -/
theorem arrivalParks {t : TileId} {b : Bundle} {p : Partition} (hf : s.flight f.id = some f) (hst : f.st = .transit) (hblocked : s.blocked f = false)
    (hdst : f.dst = some t) (hb : s.bundle t = some b) (hfolded : b.st = .folded) (hgen : f.gen = b.gen) (hforeign : s.isForeign f t = false)
    (hp : s.parts.get? (s.partOf (t.core .mc)) = some p) :
    (p.pool < s.parkingUnits f t →
      exec (.parkedArrival f.id) s = .next { s with net := s.net.map fun g => if g.id = f.id then { g with st := .bounced } else g }) ∧
    (s.parkingUnits f t ≤ p.pool → ∃ v, exec (.parkedArrival f.id) s = .next v ∧ SameMemory s v ∧ v.ctxs = s.ctxs ∧
      (v.net = s.net.map fun g => if g.id = f.id then { s.retag g with st := .parked } else g) ∧ (v.tile t).parked = (s.tile t).parked ++ [f.id] ∧
      v.parts.get? (s.partOf (t.core .mc)) = some { p with pool := p.pool - s.parkingUnits f t } ∧
      (v.bundles.get? (t.l, bundleOf (s.gridX t.l) t.t) =
        some (if s.parkedIn t.l (bundleOf (s.gridX t.l) t.t) = false ∨ b.summoned = none then { b with summoned := some s.fresh } else b)) ∧
      ∀ k, f.src = some k → f.pkt.byUnit = true → t ∉ (s.core k).tileFaults →
        (v.core k).tileFaults = (s.core k).tileFaults ++ [t] ∧
        (v.core k).notices = (s.core k).notices ++ [{ code := causeTilefault, tval := BitVec.ofNat 64 t.t }]) := by
  have hexec := exec_parkedArrival hf (State.reachOf_folded hst hblocked hdst hb hfolded hgen hforeign) hdst
  have hpool : ((s.parts.get? (s.partOf (t.core .mc))).map Partition.pool).getD 0 = p.pool := by rw [hp]; rfl
  rw [hpool] at hexec
  refine ⟨fun hfull => hexec.trans (by rw [if_pos hfull]; rfl), fun hroom => ⟨(s.parkedFor f t).tileFault f t, ?_, ?_, ?_, ?_, ?_, ?_, ?_, fun k hsrc hunit hnew => ?_⟩⟩
  · rw [hexec, if_neg (Nat.not_lt.mpr hroom)]
    rfl
  · rw [State.tileFault_frame, State.parkedFor_frame]
    obtain ⟨-, -, htiles⟩ := SameMemory.hampered s f t
    exact ⟨rfl, rfl, htiles⟩
  · rw [State.tileFault_frame, State.parkedFor_frame]
  · rw [State.tileFault_frame, State.parkedFor_frame]
  · rw [State.tileFault_frame, State.parkedFor_frame]
    exact congrArg Tile.parked (State.tile_hampered s f t)
  · rw [State.tileFault_frame, State.parkedFor_frame]
    exact State.get?_modPart_self hp _
  · rw [State.tileFault_frame]
    have hb' : (s.hampered f t).bundles.get? (t.l, bundleOf (s.gridX t.l) t.t) = some b := by
      rw [State.hampered_frame]
      exact hb
    have hfresh : (s.hampered f t).fresh = s.fresh := by rw [State.hampered_frame]
    have hsummoned := State.get?_summonParked hb' (s.parkedIn t.l (bundleOf (s.gridX t.l) t.t))
    rw [hfresh] at hsummoned
    exact hsummoned
  · have hcore : (s.parkedFor f t).core k = s.core k := by
      rw [State.parkedFor_frame]
      rfl
    have htold := State.core_tileFault (s := s.parkedFor f t) hsrc hunit (hcore ▸ hnew)
    rw [hcore] at htold
    exact ⟨congrArg Core.tileFaults htold, congrArg Core.notices htold⟩

theorem injectionAndParking : Claims.InjectionAndParking := by
  intro s c f
  refine ⟨fun h => ?_, nothingInjects, fun t b p hf hst hblocked hdst hb hfolded hgen hforeign hp =>
    arrivalParks hf hst hblocked hdst hb hfolded hgen hforeign hp⟩
  obtain ⟨hmem, hlevel⟩ := State.nextInject_some h
  obtain ⟨hnet, hsrc, hqueued⟩ := State.mem_pendingOf hmem
  refine ⟨hnet, hsrc, hqueued, fun hsince hch g hg => ?_, fun g hg => nextLevel_starved hlevel _ (State.level_mem hg), fun d => itemLeaves h,
    fun to_ m n e => itemLeavesModule h⟩
  refine nextLevel_highest hlevel hsince (fun k hk => ?_) _ (State.level_mem hg)
  obtain ⟨x, hx, rfl⟩ := List.mem_map.mp (List.mem_dedup.mp hk)
  exact Nat.div_lt_of_lt_mul (hch x hx)

/-- Settles O40: what an arrival meets decides the step; what its destination does with it, and what the NI sends next, is then one case of the model's tables. -/
theorem messagesAndInjection : Obligations.MessagesAndInjection := ⟨messageSteps, injectionAndParking⟩

end Sys2Proof.Machine
end

section
/-! What a zone's replay log leaves out, and a home that holds no effect. The statements about accesses use these facts. -/

namespace Sys2Proof.Machine

open Sys2Proof.Claims

set_option Elab.async false

variable {s t : State} {f : Flight} {g : Home} {b : Issuer}

/-! ### What is not logged (16 R451) -/

/-- What answers no request, denies nothing and refuses nothing is awaited by no image. -/
theorem Image.awaits_eq_false {p : Packet} (hanswers : ∀ r, p.answers r = false) (hdenial : ∀ b w x a, p ≠ .denial b w x a)
    (hxpart : ∀ b w r a c, p ≠ .xpart b w r a c) (i : Image) : i.awaits p = false := by
  refine Bool.or_eq_false_iff.mpr ⟨List.any_eq_false.mpr fun c _ => ?_, ?_⟩
  · split
    · rw [hanswers]
      exact Bool.false_ne_true
    · exact Bool.false_ne_true
  · split
    · exact absurd rfl (hdenial _ _ _ _)
    · exact absurd rfl (hxpart _ _ _ _ _)
    · rfl

theorem State.logTaken_unlogged (hlogged : f.pkt.logged = false) (hsync : s.holdsSync f.pkt = false) (hawaits : ∀ i : Image, i.awaits f.pkt = false) :
    s.logTaken f = s := by
  unfold State.logTaken
  split
  · rfl
  next z _ =>
    have hzone : (s.zone z).awaits f.pkt = false := List.any_eq_false.mpr fun i _ => by rw [hawaits i]; exact Bool.false_ne_true
    simp [hlogged, hsync, hzone]

theorem Image.awaits_read (p : Place) (len : Nat) (b : Issuer) (r pos : Nat) (mode : ReadMode) (addr : Word) (i : Image) :
    i.awaits (.read p len b r pos mode addr) = false :=
  i.awaits_eq_false (fun _ => rfl) (fun _ _ _ _ h => Packet.noConfusion h) fun _ _ _ _ _ h => Packet.noConfusion h

/-- A read of which its home holds no request is not logged. -/
theorem State.logTaken_read {p : Place} {len r pos : Nat} {mode : ReadMode} {addr : Word} (hpkt : f.pkt = .read p len b r pos mode addr)
    (hsync : mode ≠ .sync ∨ ∀ y ∈ (s.home p.home).syncs, y.id ≠ r) : s.logTaken f = s := by
  refine State.logTaken_unlogged ?_ ?_ ?_
  · rw [hpkt]
    rfl
  · rw [hpkt]
    cases mode with
    | sync =>
      obtain h | h := hsync
      · exact absurd rfl h
      · exact List.any_eq_false.mpr fun y hy => by simpa using h y hy
    | plain | leading => rfl
  · rw [hpkt]
    exact Image.awaits_read p len b r pos mode addr

/-- An ldsync that its home holds is logged, if it comes from outside the zone of its home and the zone keeps a log. -/
theorem State.logTaken_holdsSync {z : Nat} (hz : f.dst.bind s.zoneOf = some z) (hsync : s.holdsSync f.pkt = true) :
    s.logTaken f = if (∀ c, f.src = some c → s.zoneOf c.tile ≠ some z) ∧ ((s.zone z).buddy ≠ none ∨ (s.zone z).streaming ≠ none) then
        s.modZone z fun x => { x with log := x.log ++ [(x.round, f.pkt)] }
      else s := by
  have hlogs : (s.zone z).logs = true ↔ (s.zone z).buddy ≠ none ∨ (s.zone z).streaming ≠ none := by
    simp [Zone.logs, Option.isSome_iff_ne_none]
  unfold State.logTaken
  rw [hz]
  cases hsrc : f.src with
  | none => by_cases hl : (s.zone z).logs = true <;> simp [hsync, hl, ← hlogs]
  | some c => by_cases hin : s.zoneOf c.tile = some z <;> by_cases hl : (s.zone z).logs = true <;> simp [hsync, hin, hl, ← hlogs]

theorem State.zone_logTaken_holdsSync {z : Nat} (hz : f.dst.bind s.zoneOf = some z) (hsync : s.holdsSync f.pkt = true) :
    (∀ k, k ≠ z → (s.logTaken f).zone k = s.zone k) ∧
    (s.logTaken f).zone z = if (∀ c, f.src = some c → s.zoneOf c.tile ≠ some z) ∧ ((s.zone z).buddy ≠ none ∨ (s.zone z).streaming ≠ none) then
        { s.zone z with log := (s.zone z).log ++ [((s.zone z).round, f.pkt)] }
      else s.zone z := by
  rw [State.logTaken_holdsSync hz hsync]
  split
  · exact ⟨fun k hk => (State.zone_modZone ..).trans (if_neg hk), (State.zone_modZone ..).trans (if_pos rfl)⟩
  · exact ⟨fun _ _ => rfl, rfl⟩

/-! ### A home that holds no effect (12 R360, R363) -/

theorem State.caughtUp_of_empty (h : (s.home g).held = []) : s.caughtUp g = s := by
  rw [State.caughtUp, h]
  rfl

theorem State.view_of_empty (h : (s.home g).held = []) (b : Issuer) : s.view g b = s.cells g := by
  rw [State.view, h]
  rfl

theorem State.readHome_tile {x : TileId} (h : (s.home (.tile x)).held = []) (b : Issuer) (off n : Nat) :
    s.readHome (.tile x) b off n = (s.tile x).mem.read off n := by
  show (s.view (.tile x) b).mem.read off n = _
  rw [State.view_of_empty h]
  rfl

end Sys2Proof.Machine
end

section
/-! Accesses are performed at their homes, and answered at their issuers (05 R162; 07 R212, R217 to R226; 11 R334 to R338; 12 R363, R365; 17 R465). -/

namespace Sys2Proof.Machine

open Sys2Proof.Claims

set_option Elab.async false

variable {s t : State} {f : Flight} {h : TileId} {b : Issuer} {off len r pos : Nat} {mode : ReadMode} {addr : Word}

/-! ### Reads at a tile (07 R217, R218, R226, R234) -/

/-- The line at which a tile denies a read. -/
def State.readDenied? (s : State) (h : TileId) (b : Issuer) (off len : Nat) : Option Nat :=
  (s.tile h).deniedLine [if b.core.tile = h then .lr else .rr] false off len

theorem State.deniedLine_ownTile (s : State) (h : TileId) (b : Issuer) (off len : Nat) :
    (s.tile h).deniedLine [if b.ownTile h then .lr else .rr] false off len = s.readDenied? h b off len := by
  simp [State.readDenied?, Issuer.ownTile]

theorem State.readTile_plain (hheld : (s.home (.tile h)).held = []) (hok : s.readDenied? h b off len = none) :
    s.readTile h off len b r pos .plain addr = .done (s.sendBack b (.reply b r pos ((s.tile h).mem.read off len))) := by
  simp only [State.readTile, State.deniedLine_ownTile, hok, State.readHome_tile hheld]

theorem State.readTile_denied {l : Nat} (hmode : mode = .plain ∨ mode = .sync) (hno : s.readDenied? h b off len = some l) :
    s.readTile h off len b r pos mode addr = .done (s.denyRead b r pos len (deniedAddr addr off len l)) := by
  obtain rfl | rfl := hmode <;> simp only [State.readTile, State.deniedLine_ownTile, hno]

theorem State.readTile_leading (hheld : (s.home (.tile h)).held = []) (hok : s.readDenied? h b off len = none) :
    s.readTile h off len b r pos .leading addr = .done (s.sendBack b (.prefixReply b r pos ((s.tile h).mem.read off len) 0)) := by
  simp only [State.readTile, State.deniedLine_ownTile, hok, State.readHome_tile hheld]

theorem State.readTile_leading_denied {l : Nat} (hheld : (s.home (.tile h)).held = []) (hno : s.readDenied? h b off len = some l) :
    s.readTile h off len b r pos .leading addr = .done (s.sendBack b (.prefixReply b r pos ((s.tile h).mem.read off (l * 64 - off)) 2)) := by
  simp only [State.readTile, State.deniedLine_ownTile, hno, State.readHome_tile hheld]

theorem State.readTile_full (hheld : (s.home (.tile h)).held = []) (hok : s.readDenied? h b off len = none) (hfull : off ∈ (s.tile h).full) :
    s.readTile h off len b r pos .sync addr = .done (s.sendBack b (.reply b r pos ((s.tile h).mem.read off 8))) := by
  have hfull' : (s.view (.tile h) b).full.contains off = true := by
    rw [State.view_of_empty hheld]
    exact List.contains_iff_mem.mpr hfull
  simp only [State.readTile, State.deniedLine_ownTile, hok, hfull', if_true, State.readHome_tile hheld]

/-- A home with the request of an ldsync more. -/
def State.holding (s : State) (h : TileId) (off : Nat) (b : Issuer) (r : Nat) : State :=
  s.modHome (.tile h) fun x => { x with syncs := x.syncs ++ [{ off := off, by_ := b, id := r, remote := !decide (b.core.tile = h) }] }

theorem State.readTile_empty (hheld : (s.home (.tile h)).held = []) (hok : s.readDenied? h b off len = none) (hempty : off ∉ (s.tile h).full)
    (hroom : ((s.home (.tile h)).syncs.filter Sync.remote).length < 64) :
    s.readTile h off len b r pos .sync addr = .done (s.holding h off b r) := by
  have hempty' : (s.view (.tile h) b).full.contains off = false := by
    rw [State.view_of_empty hheld]
    exact Bool.eq_false_iff.mpr fun hc => hempty (List.contains_iff_mem.mp hc)
  have hroom' : (!b.ownTile h && decide (64 ≤ (s.home (.tile h)).remoteSyncs)) = false := by
    rw [HomeSt.remoteSyncs, decide_eq_false (Nat.not_le.mpr hroom), Bool.and_false]
  simp only [State.readTile, State.deniedLine_ownTile, hok, hempty', hroom', Bool.false_eq_true, if_false]
  rfl

/-- A read that a tile takes with its step at once. -/
theorem exec_readTile {u : State} (hl : Lands s f) (hpkt : f.pkt = .read (.tile h off) len b r pos mode addr) (hheld : (s.home (.tile h)).held = [])
    (hu : (s.drop f.id).readTile h off len b r pos mode addr = .done u) : exec (.remoteAccessArrival f.id) s = .next (u.logTaken f) := by
  have hcaught : (s.drop f.id).caughtUp (.tile h) = s.drop f.id := State.caughtUp_of_empty hheld
  show execRemoteAccessArrival f.id s = _
  refine arrival_taken hl ?_
  simp only [hpkt, Place.home, hcaught, hu]

/-- A read that its tile answers changes what travels, and what a zone logs of it. -/
theorem readAnswered {p : Packet} (hl : Lands s f) (hpkt : f.pkt = .read (.tile h off) len b r pos mode addr) (hheld : (s.home (.tile h)).held = [])
    (hu : (s.drop f.id).readTile h off len b r pos mode addr = .done ((s.drop f.id).sendBack b p)) :
    ∃ t y, exec (.remoteAccessArrival f.id) s = .next t ∧ y.pkt = p ∧
      t = { s with net := netWithout s f ++ [y], fresh := t.fresh, zones := t.zones } ∧
      (mode ≠ .sync ∨ (∀ y ∈ (s.home (.tile h)).syncs, y.id ≠ r) → t.zones = s.zones) := by
  refine ⟨((s.drop f.id).sendBack b p).logTaken f, (s.drop f.id).flightOf none (some b.core.tile) p .transit, exec_readTile hl hpkt hheld hu, rfl, ?_,
    fun hsync => ?_⟩
  · rw [State.logTaken_frame, State.sendBack_eq]
    rfl
  · have hhome : (((s.drop f.id).sendBack b p).home (Place.tile h off).home).syncs = (s.home (.tile h)).syncs := by
      rw [State.sendBack_eq]
      rfl
    rw [State.logTaken_read hpkt (by rw [hhome]; exact hsync), State.sendBack_eq]
    rfl

/-- The reads at a tile that holds no effect. -/
theorem readsAtTile (hl : Lands s f) (hpkt : f.pkt = .read (.tile h off) len b r pos mode addr) (hheld : (s.home (.tile h)).held = []) :
    let right : Right := if b.core.tile = h then .lr else .rr
    let answers (p : Packet) : Prop := ∃ t y, exec (.remoteAccessArrival f.id) s = .next t ∧ y.pkt = p ∧
      t = { s with net := netWithout s f ++ [y], fresh := t.fresh, zones := t.zones } ∧ (mode ≠ .sync ∨ (∀ y ∈ (s.home (.tile h)).syncs, y.id ≠ r) → t.zones = s.zones)
    (mode = .plain → (s.tile h).deniedLine [right] false off len = none → answers (.reply b r pos ((s.tile h).mem.read off len))) ∧
    (∀ l, mode = .plain ∨ mode = .sync → b.engine = false → (s.tile h).deniedLine [right] false off len = some l →
      answers (.faultReply b r causeProt (deniedAddr addr off len l))) ∧
    (∀ l, mode = .plain → b.engine = true → (s.tile h).deniedLine [right] false off len = some l →
      answers (.zeros b r pos len (s.xferOf r) (deniedAddr addr off len l))) ∧
    (mode = .leading → (s.tile h).deniedLine [right] false off len = none → answers (.prefixReply b r pos ((s.tile h).mem.read off len) 0)) ∧
    (∀ l, mode = .leading → (s.tile h).deniedLine [right] false off len = some l →
      answers (.prefixReply b r pos ((s.tile h).mem.read off (l * 64 - off)) 2)) ∧
    (mode = .sync → len = 8 → (s.tile h).deniedLine [right] false off len = none →
      (off ∈ (s.tile h).full → answers (.reply b r pos ((s.tile h).mem.read off 8))) ∧
      (off ∉ (s.tile h).full → ((s.home (.tile h)).syncs.filter Sync.remote).length < 64 →
        ∃ t, exec (.remoteAccessArrival f.id) s = .next t ∧ t = { s with net := netWithout s f, homes := t.homes, zones := t.zones } ∧
          (t.home (.tile h)).syncs = (s.home (.tile h)).syncs ++ [{ off := off, by_ := b, id := r, remote := !decide (b.core.tile = h) }] ∧
          ∀ z, f.dst = some h → s.zoneOf h = some z → (∀ k, k ≠ z → t.zone k = s.zone k) ∧
            t.zone z = if (∀ c, f.src = some c → s.zoneOf c.tile ≠ some z) ∧ ((s.zone z).buddy ≠ none ∨ (s.zone z).streaming ≠ none) then
                { s.zone z with log := (s.zone z).log ++ [((s.zone z).round, f.pkt)] }
              else s.zone z)) := by
  have hheld' : ((s.drop f.id).home (.tile h)).held = [] := hheld
  refine ⟨fun hmode hok => ?_, fun l hmode hcore hno => ?_, fun l hmode hengine hno => ?_, fun hmode hok => ?_, fun l hmode hno => ?_,
    fun hmode hlen hok => ⟨fun hfull => ?_, fun hempty hroom => ?_⟩⟩
  · subst hmode
    exact readAnswered hl hpkt hheld (State.readTile_plain hheld' hok)
  · refine readAnswered hl hpkt hheld ((State.readTile_denied (s := s.drop f.id) hmode hno).trans ?_)
    simp [State.denyRead, hcore]
  · refine readAnswered hl hpkt hheld ((State.readTile_denied (s := s.drop f.id) (.inl hmode) hno).trans ?_)
    simp [State.denyRead, hengine]
    rfl
  · subst hmode
    exact readAnswered hl hpkt hheld (State.readTile_leading hheld' hok)
  · subst hmode
    exact readAnswered hl hpkt hheld (State.readTile_leading_denied hheld' hno)
  · subst hmode
    exact readAnswered hl hpkt hheld (State.readTile_full hheld' hok hfull)
  · subst hmode
    refine ⟨((s.drop f.id).holding h off b r).logTaken f, exec_readTile hl hpkt hheld (State.readTile_empty hheld' hok hempty hroom), ?_, ?_,
      fun z hdst hz => ?_⟩
    · rw [State.logTaken_frame]
      rfl
    · rw [State.home_logTaken, State.holding, State.home_modHome_self]
      rfl
    · have hz' : f.dst.bind ((s.drop f.id).holding h off b r).zoneOf = some z := by
        rw [hdst]
        exact hz
      have hsync : ((s.drop f.id).holding h off b r).holdsSync f.pkt = true := by
        rw [hpkt]
        refine List.any_eq_true.mpr ⟨{ off := off, by_ := b, id := r, remote := !decide (b.core.tile = h) }, ?_, decide_eq_true rfl⟩
        show _ ∈ (((s.drop f.id).holding h off b r).home (.tile h)).syncs
        rw [State.holding, State.home_modHome_self]
        exact List.mem_append_right _ (List.mem_singleton_self _)
      exact State.zone_logTaken_holdsSync hz' hsync

/-! ### Reads at a memory agent and at a host interface (07 R217; 17 R480) -/

/-- A plain read at a home that is no tile is answered with the bytes there. -/
theorem readElsewhere {p : Place} {bs : List Byte} (hl : Lands s f) (hpkt : f.pkt = .read p len b r pos .plain addr) (hplace : ∀ x o, p ≠ .tile x o)
    (hheld : (s.home p.home).held = []) (hbs : (s.drop f.id).readHome p.home b p.off len = bs) :
    ∃ t y, exec (.remoteAccessArrival f.id) s = .next t ∧ t = { s with net := netWithout s f ++ [y], fresh := t.fresh } ∧ y.pkt = .reply b r pos bs := by
  have hcaught : (s.drop f.id).caughtUp p.home = s.drop f.id := State.caughtUp_of_empty hheld
  refine ⟨(s.drop f.id).sendBack b (.reply b r pos bs), (s.drop f.id).flightOf none (some b.core.tile) (.reply b r pos bs) .transit, ?_, ?_, rfl⟩
  · have hlog : ((s.drop f.id).sendBack b (.reply b r pos bs)).logTaken f = (s.drop f.id).sendBack b (.reply b r pos bs) :=
      State.logTaken_read hpkt (.inl (by decide))
    rw [← hlog]
    show execRemoteAccessArrival f.id s = _
    refine arrival_taken hl ?_
    simp only [hpkt, hcaught]
    cases p with
    | tile x o => exact absurd rfl (hplace x o)
    | hbm n o => simp only [hbs]; rfl
    | host n a => simp only [hbs]; rfl
  · rw [State.sendBack_eq]
    rfl

theorem readAtStack {n : Nat} (hl : Lands s f) (hpkt : f.pkt = .read (.hbm n off) len b r pos .plain addr) (hheld : (s.home (.agent n)).held = []) :
    ∃ t y, exec (.remoteAccessArrival f.id) s = .next t ∧ t = { s with net := netWithout s f ++ [y], fresh := t.fresh } ∧
      y.pkt = .reply b r pos ((s.stack n).read off len) := by
  refine readElsewhere hl hpkt (fun _ _ h => Place.noConfusion h) hheld ?_
  show ((s.drop f.id).view (.agent n) b).mem.read off len = _
  rw [State.view_of_empty (s := s.drop f.id) hheld]
  rfl

theorem readAtHost {n : Nat} (hl : Lands s f) (hpkt : f.pkt = .read (.host n off) len b r pos .plain addr) (hheld : (s.home (.host n)).held = []) :
    ∃ t y, exec (.remoteAccessArrival f.id) s = .next t ∧ t = { s with net := netWithout s f ++ [y], fresh := t.fresh } ∧
      y.pkt = .reply b r pos (match commandPageAt (.host n) off with
        | none => (s.hostMem n).read off len
        | some x => s.readCommands x.1 x.2 len) := by
  refine readElsewhere hl hpkt (fun _ _ h => Place.noConfusion h) hheld ?_
  simp only [State.readHome, Place.home, Place.off]
  cases commandPageAt (.host n) off with
  | none =>
    show ((s.drop f.id).view (.host n) b).mem.read off len = _
    rw [State.view_of_empty (s := s.drop f.id) hheld]
    rfl
  | some x => rfl

end Sys2Proof.Machine
end

section
/-! Effects at their homes (07 R220; 10 R323; 12 R363, R365). -/

namespace Sys2Proof.Machine

open Sys2Proof.Claims

set_option Elab.async false

variable {s t u : State} {f : Flight} {h : Home} {e : Effect} {a : Act} {v : Option Word}

/-! ### Denials (07 R220; 10 R323) -/

/-- An act alone is denied as the effect that it makes. -/
theorem State.actDenied_single (s : State) (x : TileId) (hacts : e.acts = [a]) : s.actDenied x e a = s.deniesEffect x e := by
  have haddr : e.addr + BitVec.ofNat 64 a.range.1 - BitVec.ofNat 64 ((e.acts.head?.map fun y => y.range.1).getD 0) = e.addr := by
    rw [hacts]
    exact BitVec.add_sub_cancel ..
  rw [State.actDenied, haddr, ← hacts]

/-- An effect of one act that is not denied skips nothing. -/
theorem State.skips_single (hacts : e.acts = [a]) (hok : ∀ x, h = .tile x → s.deniesEffect x e = none) : s.skips h e = [] := by
  cases h with
  | tile x => simp [State.skips, hacts, State.actDenied_single s x hacts, hok x rfl]
  | agent | host => rfl

theorem State.skips_write {off : Nat} {bs : List Byte} {fe : FE} (hacts : e.acts = [.write off bs fe]) : s.skips h e = [] := by
  cases h with
  | tile x => simp [State.skips, hacts, Act.isAdd]
  | agent | host => rfl

/-- Answers of one kind, one for each element. -/
theorem State.foldl_sendBack (b : Issuer) (p : Packet) (s : State) (n : Nat) :
    ∃ ys, ((List.range n).foldl (fun s _ => s.sendBack b p) s) = { s with net := s.net ++ ys, fresh := s.fresh + n } ∧ ys.map Flight.pkt = List.replicate n p := by
  induction n with
  | zero => exact ⟨[], by simp, rfl⟩
  | succ n ih =>
    obtain ⟨ys, hs, hys⟩ := ih
    rw [List.range_succ, List.foldl_append, hs]
    refine ⟨ys ++ [({ s with net := s.net ++ ys, fresh := s.fresh + n } : State).flightOf none (some b.core.tile) p .transit], ?_, ?_⟩
    · show State.sendBack _ b p = _
      rw [State.sendBack_eq]
      simp [Nat.add_assoc]
    · rw [List.map_append, hys, List.replicate_succ']
      rfl

/-- The denial of a write goes back once for each element access that it makes. -/
theorem State.denyEffect_write {addr : Word} (hreply : e.reply = none) (helems : e.xfer = none ∨ e.elems ≠ 0) :
    ∃ ys n, s.denyEffect e addr = { s with net := s.net ++ ys, fresh := n } ∧
      ys.map Flight.pkt = .denial e.by_ e.wid e.xfer addr :: List.replicate (e.elems - 1) (.denial e.by_ none e.xfer addr) := by
  have hsome : (e.xfer.isSome && decide (e.elems = 0)) = false := by
    obtain hx | hx := helems <;> simp [hx]
  obtain ⟨ys, hs, hys⟩ := State.foldl_sendBack e.by_ (.denial e.by_ none e.xfer addr) (s.sendBack e.by_ (.denial e.by_ e.wid e.xfer addr)) (e.elems - 1)
  refine ⟨s.flightOf none (some e.by_.core.tile) (.denial e.by_ e.wid e.xfer addr) .transit :: ys, s.fresh + 1 + (e.elems - 1), ?_, ?_⟩
  · simp only [State.denyEffect, hreply, hsome, Bool.false_eq_true, if_false, hs]
    rw [State.sendBack_eq]
    simp
  · rw [List.map_cons, hys]
    rfl

/-- A write that its tile denies. -/
theorem writeDenied {x : TileId} {off : Nat} {bs : List Byte} {fe : FE} {addr : Word} (hl : Lands s f) (hpkt : f.pkt = .effect (.tile x) e)
    (hacts : e.acts = [.write off bs fe]) (hreply : e.reply = none) (hno : s.deniesEffect x e = some addr) (helems : e.xfer = none ∨ e.elems ≠ 0) :
    ∃ t ys, exec (.effectArrival f.id) s = .next t ∧ t = { s with net := netWithout s f ++ ys, fresh := t.fresh, zones := t.zones } ∧
      ys.map Flight.pkt = .denial e.by_ e.wid e.xfer addr :: List.replicate (e.elems - 1) (.denial e.by_ none e.xfer addr) := by
  obtain ⟨ys, n, hs, hys⟩ := State.denyEffect_write (s := s.drop f.id) (addr := addr) hreply helems
  have hskips : (s.drop f.id).skips (.tile x) e = [] := State.skips_write hacts
  have hno' : (s.drop f.id).deniesEffect x e = some addr := hno
  refine ⟨((s.drop f.id).denyEffect e addr).logTaken f, ys, ?_, ?_, hys⟩
  · show execEffectArrival f.id s = _
    refine arrival_taken hl ?_
    simp only [hpkt, hskips, List.isEmpty_nil, if_true, hno']
  · rw [State.logTaken_frame, hs]
    rfl

/-! ### What a home does with an effect that it does not deny (12 R363, R365) -/

theorem exec_effect_given (hl : Lands s f) (hpkt : f.pkt = .effect h e) (hskips : s.skips h e = []) (hok : ∀ x, h = .tile x → s.deniesEffect x e = none)
    (hgive : (s.drop f.id).giveHome h e = some (u, v)) : exec (.effectArrival f.id) s = .next ((u.answer e v).logTaken f) := by
  have hskips' : (s.drop f.id).skips h e = [] := hskips
  have hnone : u.denySkipped h e [] = u := by cases h <;> rfl
  show execEffectArrival f.id s = _
  refine arrival_taken hl ?_
  simp only [hpkt, hskips', List.isEmpty_nil, if_true]
  cases h with
  | tile x =>
    have hok' : (s.drop f.id).deniesEffect x e = none := hok x rfl
    simp only [hok', hgive, hnone]
  | agent n => simp only [hgive, hnone]
  | host n => simp only [hgive, hnone]

theorem exec_effect_full (hl : Lands s f) (hpkt : f.pkt = .effect h e) (hskips : s.skips h e = []) (hok : ∀ x, h = .tile x → s.deniesEffect x e = none)
    (hgive : (s.drop f.id).giveHome h e = none) : exec (.effectArrival f.id) s = .next (s.bounce f.id) := by
  have hskips' : (s.drop f.id).skips h e = [] := hskips
  show execEffectArrival f.id s = _
  refine arrival_again hl ?_
  simp only [hpkt, hskips', List.isEmpty_nil, if_true]
  cases h with
  | tile x =>
    have hok' : (s.drop f.id).deniesEffect x e = none := hok x rfl
    simp only [hok', hgive]
  | agent n => simp only [hgive]
  | host n => simp only [hgive]

theorem State.giveHome_new (hheld : (s.home h).held = [])
    (hkey : ∀ k, e.key = some k → s.repeated h e = none ∧ (e.gated = true → s.isVoided k.tt = false)) : s.giveHome h e = s.giveNew h e := by
  have hdrained : s.drainHome h (s.home h).held.length = s := State.caughtUp_of_empty hheld
  unfold State.giveHome
  rw [hdrained]
  cases hk : e.key with
  | none => rfl
  | some k =>
    obtain ⟨hrep, hvoid⟩ := hkey k hk
    have hno : (e.gated && s.isVoided k.tt) = false := by
      cases hg : e.gated with
      | false => rfl
      | true => exact hvoid hg
    simp only [hno, hrep, Bool.false_eq_true, if_false]

theorem State.giveHome_repeated {k : Key} (hheld : (s.home h).held = []) (hkey : e.key = some k) (hvoid : e.gated = false ∨ s.isVoided k.tt = false)
    (hrep : s.repeated h e = some v) : s.giveHome h e = some (s.acknowledge e, v) := by
  have hdrained : s.drainHome h (s.home h).held.length = s := State.caughtUp_of_empty hheld
  have hno : (e.gated && s.isVoided k.tt) = false := by
    obtain hg | hg := hvoid <;> simp [hg]
  unfold State.giveHome
  rw [hdrained]
  simp only [hkey, hno, hrep, Bool.false_eq_true, if_false]

theorem State.eligible_of_reached (hmirrored : s.mirrored e = true) (hreached : ∀ k, e.key = some k → e.gated = true → s.reached h k.tt = true) :
    s.eligible h e [] [] = true := by
  cases hk : e.key with
  | none => simp [State.eligible, hk, hmirrored]
  | some k =>
    cases hg : e.gated with
    | false => simp [State.eligible, hk, hg, hmirrored]
    | true => simp [State.eligible, hk, hmirrored, hreached k hk hg]

/-- A home that holds nothing applies an effect whose round is mirrored and whose turn has come. -/
theorem State.giveNew_applied (hheld : (s.home h).held = []) (hmirrored : s.mirrored e = true)
    (hreached : ∀ k, e.key = some k → e.gated = true → s.reached h k.tt = true) :
    s.giveNew h e = some ((s.applyRaw h e).1.acknowledge e, (s.applyRaw h e).2) := by
  have hhow : s.howTaken h e = .applied := by
    rw [State.howTaken, hheld]
    exact if_pos (State.eligible_of_reached hmirrored hreached)
  simp only [State.giveNew, hhow]

/-- An effect as its home's buffer holds it, acknowledged or not. -/
def State.asHeld (s : State) (e : Effect) : Effect := { e with spilled := false, wid := if s.mirrored e && e.gated then none else e.wid }

/-- A home with an effect in its buffer, as e', which was acknowledged if its round is mirrored. -/
def State.buffered (s : State) (h : Home) (e e' : Effect) : State :=
  let t := s.modHome h fun x => { x with held := x.held ++ [e'] }
  (if s.mirrored e && e.gated then t.acknowledge e else t).serveNew h [e']

theorem State.giveNew_held {k : Key} (hheld : (s.home h).held = []) (hkey : e.key = some k) (hgated : e.gated = true) (hreached : s.reached h k.tt = false)
    (hentry : s.hasEntry h e = true) : s.giveNew h e = some (s.buffered h e (s.asHeld e), none) := by
  have hno : s.eligible h e [] [] = false := by simp [State.eligible, hkey, hgated, hreached]
  have hhow : s.howTaken h e = .held := by
    rw [State.howTaken, hheld]
    simp [hno, hgated, hentry]
  have hspill : (e.gated && !s.hasEntry h e) = false := by rw [hentry, Bool.not_true, Bool.and_false]
  simp only [State.giveNew, hhow, hspill]
  rfl

/-- Of a home that buffers an effect the buffer moves, and what it serves. -/
theorem State.buffered_spec (s : State) (h : Home) (e e' : Effect) :
    s.buffered h e e' = { s with homes := (s.buffered h e e').homes, net := (s.buffered h e e').net, fresh := (s.buffered h e e').fresh } ∧
    ((s.buffered h e e').home h).held = (s.home h).held ++ [e'] := by
  have hkept : Answered (s.modHome h fun x => { x with held := x.held ++ [e'] }) (s.buffered h e e') := by
    refine .trans ?_ .serveNew
    split
    · exact Adds.acknowledge.answered
    · exact .refl _
  obtain ⟨ht, -, hheld⟩ := hkept
  refine ⟨ht.trans rfl, (hheld h).trans ?_⟩
  rw [State.home_modHome_self]

theorem State.answer_none (s : State) (e : Effect) : s.answer e none = s := by
  unfold State.answer
  split
  next hv => cases hv
  next => rfl

theorem State.answer_of_none {e : Effect} (h : e.reply = none) (s : State) (v : Option Word) : s.answer e v = s := by
  simp only [State.answer, h]

/-- An effect whose turn has not come is held. -/
theorem effectHeld {k : Key} (hl : Lands s f) (hpkt : f.pkt = .effect h e) (hskips : s.skips h e = []) (hok : ∀ x, h = .tile x → s.deniesEffect x e = none)
    (hheld : (s.home h).held = []) (hkey : e.key = some k) (hrep : s.repeated h e = none) (hvoid : e.gated = true → s.isVoided k.tt = false)
    (hgated : e.gated = true) (hreached : s.reached h k.tt = false) (hentry : s.hasEntry h e = true) :
    ∃ t, exec (.effectArrival f.id) s = .next t ∧ t.tiles = s.tiles ∧ t.hbm = s.hbm ∧ t.host = s.host ∧
      ∃ w, (t.home h).held = [{ e with spilled := false, wid := w }] := by
  have hgive : (s.drop f.id).giveHome h e = some ((s.drop f.id).buffered h e ((s.drop f.id).asHeld e), none) := by
    rw [State.giveHome_new (s := s.drop f.id) hheld fun j hj => ⟨hrep, by cases hkey.symm.trans hj; exact hvoid⟩]
    exact State.giveNew_held hheld hkey hgated hreached hentry
  obtain ⟨ht, hbuf⟩ := State.buffered_spec (s.drop f.id) h e ((s.drop f.id).asHeld e)
  have hanswer := State.answer_none ((s.drop f.id).buffered h e ((s.drop f.id).asHeld e)) e
  have hhome : ((s.drop f.id).home h).held = [] := hheld
  refine ⟨_, exec_effect_given hl hpkt hskips hok hgive, ?_, ?_, ?_, ((s.drop f.id).asHeld e).wid, ?_⟩
  · rw [hanswer, State.logTaken_frame, ht]
    rfl
  · rw [hanswer, State.logTaken_frame, ht]
    rfl
  · rw [hanswer, State.logTaken_frame, ht]
    rfl
  · rw [hanswer, State.home_logTaken, hbuf, hhome]
    rfl

/-- An effect whose turn has come does to its home's cells what its act says. -/
theorem effectApplied (hl : Lands s f) (hpkt : f.pkt = .effect h e) (hacts : e.acts = [a]) (hok : ∀ x, h = .tile x → s.deniesEffect x e = none)
    (hheld : (s.home h).held = []) (hpage : commandPageAt h a.range.1 = none) (hwake : ∀ o n, a ≠ .wake o n) (hincr : ∀ c n, a ≠ .incr c n)
    (hkey : ∀ k, e.key = some k → s.repeated h e = none ∧ (e.gated = true → s.isVoided k.tt = false)) (hmirrored : s.mirrored e = true)
    (hreached : ∀ k, e.key = some k → e.gated = true → s.reached h k.tt = true) :
    ∃ t, exec (.effectArrival f.id) s = .next t ∧ (t.cells h).mem = (a.run (s.cells h)).1.mem ∧
      (∀ x, h = .tile x → (t.tile x).full = (a.run (s.cells h)).1.full) ∧ (∀ g, g ≠ h → t.cells g = s.cells g) ∧ (t.home h).held = [] ∧
      (∀ w, e.wid = some w → ∃ y ∈ t.net, y.pkt = .ack w) ∧
      ∀ q w, e.reply = some q → (a.run (s.cells h)).2.1 = some w → ∃ y ∈ t.net, y.pkt = .reply e.by_ q 0 (wordBytes w) := by
  have hgive : (s.drop f.id).giveHome h e = some (((s.drop f.id).applyRaw h e).1.acknowledge e, ((s.drop f.id).applyRaw h e).2) :=
    (State.giveHome_new (s := s.drop f.id) hheld hkey).trans (State.giveNew_applied hheld hmirrored hreached)
  obtain ⟨hraw, hvalue⟩ := State.applyRaw_single (s := s.drop f.id) (h := h) hacts
  rw [State.runAct_cells hpage hwake hincr] at hraw hvalue
  obtain ⟨hrun, hmem, hfull, hothers⟩ := State.runCells_frame (s.drop f.id) h e a
  have hcells (g : Home) : (s.drop f.id).cells g = s.cells g := by cases g <;> rfl
  rw [hcells] at hmem hfull
  have hdone := (hraw.trans (Adds.acknowledge (e := e)).answered).trans
    (Adds.answer (e := e) (v := ((s.drop f.id).applyRaw h e).2)).answered
  refine ⟨_, exec_effect_given hl hpkt (State.skips_single hacts hok) hok hgive, ?_, fun x hx => ?_, fun g hg => ?_, ?_, fun w hw => ?_, fun q w hq hw => ?_⟩
  · rw [State.cells_logTaken, hdone.cells, hmem]
  · obtain ⟨ht, -⟩ := hdone
    rw [State.tile_logTaken, ht]
    exact hfull x hx
  · rw [State.cells_logTaken, hdone.cells, hothers g hg, hcells]
  · obtain ⟨-, -, hkept⟩ := hdone
    rw [State.home_logTaken, hkept, hrun]
    exact hheld
  · obtain ⟨y, hy, hpkt⟩ := State.acknowledge_of_some (s := ((s.drop f.id).applyRaw h e).1) hw
    rw [State.net_logTaken]
    exact ⟨y, Adds.answer.answered.mem_net hy, hpkt⟩
  · rw [State.net_logTaken]
    exact State.answer_of_some hq (hvalue.trans (by rw [← hw, ← hcells h]; rfl))

/-! ### Writes of a tile's bytes (07 R220; 12 R363, R365) -/

/-- What a write at a tile leaves as it was. -/
def WritesOnly (x : TileId) (s t : State) : Prop :=
  t.ctxs = s.ctxs ∧ t.cores = s.cores ∧ t.hbm = s.hbm ∧ t.host = s.host ∧ ∀ y, y ≠ x → t.tile y = s.tile y

theorem WritesOnly.trans {x : TileId} (h : WritesOnly x s t) (h' : WritesOnly x t u) : WritesOnly x s u := by
  obtain ⟨hctxs, hcores, hhbm, hhost, htiles⟩ := h
  obtain ⟨hctxs', hcores', hhbm', hhost', htiles'⟩ := h'
  exact ⟨hctxs'.trans hctxs, hcores'.trans hcores, hhbm'.trans hhbm, hhost'.trans hhost, fun y hy => (htiles' y hy).trans (htiles y hy)⟩

theorem Answered.writesOnly {x : TileId} (h : Answered s t) : WritesOnly x s t := by
  obtain ⟨ht, -⟩ := h
  rw [ht]
  exact ⟨rfl, rfl, rfl, rfl, fun _ _ => rfl⟩

theorem WritesOnly.logTaken {x : TileId} (h : WritesOnly x s t) : WritesOnly x s (t.logTaken f) := by
  rw [State.logTaken_frame]
  exact h

theorem WritesOnly.applyRaw {x : TileId} {off : Nat} {bs : List Byte} {fe : FE} (hacts : e.acts = [.write off bs fe]) :
    WritesOnly x s (s.applyRaw (.tile x) e).1 := by
  obtain ⟨hraw, -⟩ := State.applyRaw_single (s := s) (h := .tile x) hacts
  rw [State.runAct_write] at hraw
  have hset : WritesOnly x s (s.setCells (.tile x) ((Act.write off bs fe).run (s.cells (.tile x))).1) :=
    ⟨rfl, rfl, rfl, rfl, fun y hy => State.tile_modTile_ne s _ hy⟩
  exact hset.trans hraw.writesOnly

/-- A home that is given a write touches its tile alone. -/
theorem WritesOnly.giveNew {x : TileId} {off : Nat} {bs : List Byte} {fe : FE} (hacts : e.acts = [.write off bs fe])
    (h : s.giveNew (.tile x) e = some (u, v)) : WritesOnly x s u := by
  unfold State.giveNew at h
  split at h
  · cases h
    exact (WritesOnly.applyRaw hacts).trans Adds.acknowledge.answered.writesOnly
  · cases h
  · cases h
    obtain ⟨ht, -⟩ := State.buffered_spec s (.tile x) e
      { e with spilled := e.gated && !s.hasEntry (.tile x) e, wid := if s.mirrored e && e.gated then none else e.wid }
    show WritesOnly x s (s.buffered (.tile x) e _)
    rw [ht]
    exact ⟨rfl, rfl, rfl, rfl, fun _ _ => rfl⟩

theorem WritesOnly.giveHome {x : TileId} {off : Nat} {bs : List Byte} {fe : FE} (hacts : e.acts = [.write off bs fe]) (hheld : (s.home (.tile x)).held = [])
    (h : s.giveHome (.tile x) e = some (u, v)) : WritesOnly x s u := by
  have hdrained : s.drainHome (.tile x) (s.home (.tile x)).held.length = s := State.caughtUp_of_empty hheld
  unfold State.giveHome at h
  rw [hdrained] at h
  dsimp only at h
  split at h
  · split at h
    · cases h
      exact Adds.acknowledge.answered.writesOnly
    · split at h
      · cases h
        exact Adds.acknowledge.answered.writesOnly
      · exact .giveNew hacts h
  · exact .giveNew hacts h

/-- A write that its tile does not deny, taken or sent back, touches its tile alone. -/
theorem writeGiven {x : TileId} {off : Nat} {bs : List Byte} {fe : FE} (hl : Lands s f) (hpkt : f.pkt = .effect (.tile x) e)
    (hacts : e.acts = [.write off bs fe]) (hheld : (s.home (.tile x)).held = []) (hok : s.deniesEffect x e = none) :
    ∃ t, exec (.effectArrival f.id) s = .next t ∧ WritesOnly x s t := by
  have hskips : s.skips (.tile x) e = [] := State.skips_write hacts
  have hok' : ∀ y, Home.tile x = .tile y → s.deniesEffect y e = none := fun y hy => by cases hy; exact hok
  cases hgive : (s.drop f.id).giveHome (.tile x) e with
  | none => exact ⟨_, exec_effect_full hl hpkt hskips hok' hgive, rfl, rfl, rfl, rfl, fun _ _ => rfl⟩
  | some r =>
    obtain ⟨u, v⟩ := r
    have hdrop : WritesOnly x s (s.drop f.id) := ⟨rfl, rfl, rfl, rfl, fun _ _ => rfl⟩
    exact ⟨_, exec_effect_given hl hpkt hskips hok' hgive,
      (hdrop.trans ((WritesOnly.giveHome (s := s.drop f.id) hacts hheld hgive).trans Adds.answer.answered.writesOnly)).logTaken⟩

/-- A key that was applied before is acknowledged again. -/
theorem writeRepeated {x : TileId} {k : Key} (hl : Lands s f) (hpkt : f.pkt = .effect (.tile x) e) (hskips : s.skips (.tile x) e = [])
    (hok : s.deniesEffect x e = none) (hheld : (s.home (.tile x)).held = []) (hkey : e.key = some k) (hreply : e.reply = none)
    (hvoid : e.gated = false ∨ s.isVoided k.tt = false) (hrep : s.repeated (.tile x) e = some v) :
    ∃ t, exec (.effectArrival f.id) s = .next t ∧ t.tile x = s.tile x ∧ t.homes = s.homes ∧ ∀ w, e.wid = some w → ∃ y ∈ t.net, y.pkt = .ack w := by
  have hok' : ∀ y, Home.tile x = .tile y → s.deniesEffect y e = none := fun y hy => by cases hy; exact hok
  have hgive : (s.drop f.id).giveHome (.tile x) e = some ((s.drop f.id).acknowledge e, v) := State.giveHome_repeated hheld hkey hvoid hrep
  obtain ⟨ht, -⟩ := Adds.acknowledge (s := s.drop f.id) (e := e)
  refine ⟨_, exec_effect_given hl hpkt hskips hok' hgive, ?_, ?_, fun w hw => ?_⟩
  · rw [State.answer_of_none hreply, State.tile_logTaken, ht]
    rfl
  · rw [State.answer_of_none hreply, State.logTaken_frame, ht]
    rfl
  · rw [State.answer_of_none hreply, State.net_logTaken]
    exact State.acknowledge_of_some hw

theorem State.repeated_eq_none {k : Key} (hkey : e.key = some k) (hnew : ∀ x ∈ (s.home h).applied, ¬(x.1 = k ∧ x.2.1 = e.part)) :
    s.repeated h e = none := by
  have hfind : ((s.home h).applied.find? fun x => x.1 = k && x.2.1 = e.part) = none :=
    List.find?_eq_none.mpr fun x hx hc => hnew x hx (by simpa using hc)
  simp only [State.repeated, hkey, hfind, Option.map_none]

theorem State.repeated_isSome {k : Key} (hkey : e.key = some k) (hold : ∃ x ∈ (s.home h).applied, x.1 = k ∧ x.2.1 = e.part) :
    ∃ v, s.repeated h e = some v := by
  obtain ⟨x, hx, hk⟩ := hold
  obtain ⟨y, hy⟩ := Option.isSome_iff_exists.mp (List.find?_isSome (p := fun x => decide (x.1 = k) && decide (x.2.1 = e.part)) |>.mpr ⟨x, hx, by simpa using hk⟩)
  exact ⟨y.2.2, by simp only [State.repeated, hkey, hy, Option.map_some]⟩

/-- A write that its tile does not deny: applied, held or acknowledged again. -/
theorem writeTaken {x : TileId} {off : Nat} {bs : List Byte} {fe : FE} {k : Key} (hl : Lands s f) (hpkt : f.pkt = .effect (.tile x) e)
    (hacts : e.acts = [.write off bs fe]) (hkey : e.key = some k) (hreply : e.reply = none) (hheld : (s.home (.tile x)).held = [])
    (hvoid : e.gated = false ∨ s.isVoided k.tt = false) (hok : s.deniesEffect x e = none) :
    ∃ t, exec (.effectArrival f.id) s = .next t ∧ t.ctxs = s.ctxs ∧ t.cores = s.cores ∧ t.hbm = s.hbm ∧ t.host = s.host ∧
      (∀ y, y ≠ x → t.tile y = s.tile y) ∧
      ((∀ y ∈ (s.home (.tile x)).applied, ¬(y.1 = k ∧ y.2.1 = e.part)) →
        (e.gated = false ∨ s.reached (.tile x) k.tt = true → s.mirrored e = true →
          (t.tile x).mem = (s.tile x).mem.write off bs ∧ (t.home (.tile x)).held = [] ∧ ∀ w, e.wid = some w → ∃ y ∈ t.net, y.pkt = .ack w) ∧
        (e.gated = true → s.reached (.tile x) k.tt = false → s.hasEntry (.tile x) e = true →
          t.tile x = s.tile x ∧ ∃ w, (t.home (.tile x)).held = [{ e with spilled := false, wid := w }])) ∧
      ((∃ y ∈ (s.home (.tile x)).applied, y.1 = k ∧ y.2.1 = e.part) →
        t.tile x = s.tile x ∧ t.homes = s.homes ∧ ∀ w, e.wid = some w → ∃ y ∈ t.net, y.pkt = .ack w) := by
  have hok' : ∀ y, Home.tile x = .tile y → s.deniesEffect y e = none := fun y hy => by cases hy; exact hok
  have hskips : s.skips (.tile x) e = [] := State.skips_write hacts
  have hvoid' : e.gated = true → s.isVoided k.tt = false := fun hg => hvoid.resolve_left (by rw [hg]; exact Bool.noConfusion)
  obtain ⟨t, ht, hctxs, hcores, hhbm, hhost, htiles⟩ := writeGiven hl hpkt hacts hheld hok
  refine ⟨t, ht, hctxs, hcores, hhbm, hhost, htiles, fun hnew => ⟨fun hdue hmirrored => ?_, fun hgated hreached hentry => ?_⟩, fun hold => ?_⟩
  · have hrep := State.repeated_eq_none hkey hnew
    obtain ⟨u, hu, hmem, -, -, hempty, hack, -⟩ := effectApplied hl hpkt hacts hok' hheld rfl (fun _ _ h => Act.noConfusion h) (fun _ _ h => Act.noConfusion h)
      (fun j hj => by cases hkey.symm.trans hj; exact ⟨hrep, hvoid'⟩) hmirrored
      (fun j hj hg => by cases hkey.symm.trans hj; exact hdue.resolve_left (by rw [hg]; exact Bool.noConfusion))
    cases ht.symm.trans hu
    exact ⟨hmem.trans (Act.mem_run_write ..), hempty, hack⟩
  · obtain ⟨u, hu, htiles', -, -, hbuf⟩ := effectHeld hl hpkt hskips hok' hheld hkey (State.repeated_eq_none hkey hnew) hvoid' hgated hreached hentry
    cases ht.symm.trans hu
    exact ⟨congrArg (fun m => Map.getD m x Tile.init) htiles', hbuf⟩
  · obtain ⟨v, hrep⟩ := State.repeated_isSome hkey hold
    obtain ⟨u, hu, hsame⟩ := writeRepeated hl hpkt hskips hok hheld hkey hreply hvoid hrep
    cases ht.symm.trans hu
    exact hsame

/-! ### Waits (05 R161, R162) -/

theorem State.waitAt_other {off entry : Nat} {expected : Word} {b : Issuer} (hne : bytesToWord (s.readHome h b off 8) ≠ expected) :
    s.waitAt h off expected b entry = s.sendIncr (homeSender h) b.core entry := if_pos hne

theorem State.waitAt_registers {off entry : Nat} {expected : Word} {b : Issuer} (heq : bytesToWord (s.readHome h b off 8) = expected)
    (hroom : (s.home h).waiters.length < waiterSize h) :
    s.waitAt h off expected b entry = s.modHome h fun x =>
      { x with waiters := (s.home h).waiters ++ [{ off := off, core := b.core, entry := entry, tag := (s.core b.core).ptag }] } := by
  unfold State.waitAt
  rw [if_neg (not_not_intro heq)]
  cases hw : (s.home h).waiters with
  | nil => rfl
  | cons o r => exact if_pos (hw ▸ hroom)

/-- What a wait at a home leaves as it was. -/
def WaitsOnly (s t : State) : Prop := SameMemory s t ∧ t.ctxs = s.ctxs ∧ t.cores = s.cores

theorem WaitsOnly.sendIncr {src : Option CoreId} {c : CoreId} {n : Nat} (hs : WaitsOnly s t) : WaitsOnly s (t.sendIncr src c n) := by
  obtain ⟨hmem, hctxs, hcores⟩ := hs
  obtain ⟨ht, -⟩ : SendsOnly t (t.sendIncr src c n) := .sendSt
  refine ⟨hmem.sendIncr, ?_, ?_⟩
  · rw [ht]
    exact hctxs
  · rw [ht]
    exact hcores

theorem WaitsOnly.waitAt {off entry : Nat} {expected : Word} {b : Issuer} : WaitsOnly s (s.waitAt h off expected b entry) := by
  have hsame : WaitsOnly s s := ⟨.refl s, rfl, rfl⟩
  unfold State.waitAt
  split
  · exact hsame.sendIncr
  · dsimp only
    split
    · exact hsame
    · split
      · exact hsame
      · exact WaitsOnly.sendIncr hsame

/-- A wait request that its tile does not deny: a word that has the expected value registers its waiter, another counts at once. -/
theorem waitTaken {x : TileId} {off entry : Nat} {expected addr : Word} {b : Issuer} (hl : Lands s f) (hpkt : f.pkt = .wait (.tile x off) expected b entry addr)
    (hheld : (s.home (.tile x)).held = []) (hok : s.deniesRead x b off 8 addr = none) :
    ∃ t, exec (.waitRequestArrival f.id) s = .next t ∧ SameMemory s t ∧ t.ctxs = s.ctxs ∧ t.cores = s.cores ∧
      (bytesToWord ((s.tile x).mem.read off 8) = expected → (s.home (.tile x)).waiters.length < 32 → t.net = netWithout s f ∧
        (t.home (.tile x)).waiters = (s.home (.tile x)).waiters ++ [{ off := off, core := b.core, entry := entry, tag := (s.core b.core).ptag }]) ∧
      (bytesToWord ((s.tile x).mem.read off 8) ≠ expected → t.homes = s.homes ∧ ∃ y, t.net = netWithout s f ++ [y] ∧ y.pkt = .increment b.core entry) := by
  have hcaught : (s.drop f.id).caughtUp (.tile x) = s.drop f.id := State.caughtUp_of_empty hheld
  have hok' : (s.drop f.id).deniesRead x b off 8 addr = none := hok
  have hbytes : (s.drop f.id).readHome (.tile x) b off 8 = (s.tile x).mem.read off 8 := State.readHome_tile (s := s.drop f.id) hheld b off 8
  have hdrop : SameMemory s (s.drop f.id) := .refl s
  obtain ⟨hmem, hctxs, hcores⟩ : WaitsOnly (s.drop f.id) ((s.drop f.id).waitAt (.tile x) off expected b entry) := .waitAt
  refine ⟨((s.drop f.id).waitAt (.tile x) off expected b entry).logTaken f, ?_, SameMemory.logTaken (hdrop.trans hmem), ?_, ?_, fun heq hroom => ?_, fun hne => ?_⟩
  · show execWaitRequestArrival f.id s = _
    refine arrival_taken hl ?_
    simp only [hpkt, Place.home, Place.off, hcaught, hok']
  · rw [State.ctxs_logTaken]
    exact hctxs
  · rw [State.cores_logTaken]
    exact hcores
  · rw [State.waitAt_registers (s := s.drop f.id) (hbytes ▸ heq) hroom, State.net_logTaken, State.home_logTaken, State.home_modHome_self]
    exact ⟨rfl, rfl⟩
  · rw [State.waitAt_other (s := s.drop f.id) (hbytes ▸ hne), State.net_logTaken, State.logTaken_frame, State.sendIncr, State.sendSt_eq]
    exact ⟨rfl, _, rfl, rfl⟩

/-! ### The accesses together -/

theorem accessSteps : Claims.AccessSteps := by
  intro s f hl
  refine ⟨fun h off len b r pos mode addr hpkt hheld => readsAtTile hl hpkt hheld, fun n off len b r pos addr => readAtStack hl,
    fun n off len b r pos addr => readAtHost hl, fun h e off bs fe k hpkt hacts hkey hreply hheld hvoid => ⟨fun a hno helems => ?_, fun hok => ?_⟩,
    fun h e a hpkt hacts hheld hpage hwake hincr hok hkey => ⟨fun hmirrored hreached => ?_, fun k hk hgated hreached hentry => ?_⟩,
    fun h off expected b entry addr => waitTaken hl⟩
  · exact writeDenied hl hpkt hacts hreply hno helems
  · exact writeTaken hl hpkt hacts hkey hreply hheld hvoid hok
  · exact effectApplied hl hpkt hacts hok hheld hpage hwake hincr hkey hmirrored hreached
  · obtain ⟨hrep, hvoid⟩ := hkey k hk
    obtain ⟨t, ht, htiles, hhbm, hhost, hbuf⟩ := effectHeld hl hpkt (State.skips_single hacts hok) hok hheld hk hrep hvoid hgated hreached hentry
    refine ⟨t, ht, fun g => ?_, hbuf⟩
    cases g <;> simp only [State.cells, State.tile, State.stack, State.hostMem, htiles, hhbm, hhost]

end Sys2Proof.Machine
end

section
/-! Answers at their issuers (07 R218, R220; 11 R334, R337, R338; 17 R465). -/

namespace Sys2Proof.Machine

open Sys2Proof.Claims

set_option Elab.async false

variable {s t : State} {f : Flight} {b : Issuer} {addr : Word}

/-! ### Replies (07 R218) -/

theorem replyArrives {r pos : Nat} {bs : List Byte} (hl : Lands s f) (hpkt : f.pkt = .reply b r pos bs) (hcore : b.engine = false) :
    exec (.readReply f.id) s = .next (((s.drop f.id).replyTo b r pos bs).logTaken f) := by
  show execReadReply f.id s = _
  refine arrival_taken hl ?_
  simp only [hpkt, hcore, Bool.false_eq_true, if_false]

theorem prefixArrives {r pos k : Nat} {bs : List Byte} (hl : Lands s f) (hpkt : f.pkt = .prefixReply b r pos bs k) :
    exec (.readReply f.id) s = .next (((s.drop f.id).prefixTo b r pos bs k).logTaken f) := by
  show execReadReply f.id s = _
  refine arrival_taken hl ?_
  simp only [hpkt]

theorem faultArrives {r : Nat} {code : BitVec 8} {v : Word} (hl : Lands s f) (hpkt : f.pkt = .faultReply b r code v) :
    exec (.readReply f.id) s = .next (((s.drop f.id).faultTo b r code v).logTaken f) := by
  show execReadReply f.id s = _
  refine arrival_taken hl ?_
  simp only [hpkt]

/-! ### Acknowledgements (10 R324; 11 R334, R337) -/

/-- A context that stalls for no acknowledgement does not go on. -/
theorem State.resumeRelease_of_no_acks {id : CtxId} (h : ∀ set n step r, (s.ctx id).phase ≠ .stall (.acks set n step r)) : s.resumeRelease id = s := by
  unfold State.resumeRelease
  split
  next hphase => exact absurd hphase (h _ _ _ _)
  next => rfl

/-- The contexts of a core whose releases may go on do so. -/
def State.resumeCore (s : State) (c : CoreId) : State := (List.range 4).foldl (fun s i => s.resumeRelease ⟨c, i⟩) s

/-- A write off the unacknowledged, and off those of its transfer. -/
def State.withoutWrite (s : State) (w : Nat) : State :=
  { s with posted := s.posted.filter (fun p => p.wid ≠ w), xfers := s.xfers.map fun x => { x with writes := x.writes.filter fun y => y ≠ w } }

theorem State.acked_of_no_transfer {w : Nat} (hstall : ∀ id set n step r, (s.ctx id).phase ≠ .stall (.acks set n step r)) (hno : ∀ x ∈ s.xfers, w ∉ x.writes) :
    s.acked w = s.withoutWrite w := by
  have hengines : (s.xfers.any fun x => x.writes.contains w) = false :=
    List.any_eq_false.mpr fun x hx hc => hno x hx (List.contains_iff_mem.mp hc)
  have hcore (c : CoreId) : (s.withoutWrite w).resumeCore c = s.withoutWrite w :=
    List.foldl_fixed' (fun i : Nat => State.resumeRelease_of_no_acks (s := s.withoutWrite w) (hstall ⟨c, i⟩)) _
  unfold State.acked
  rw [hengines]
  exact List.foldl_fixed' hcore _

theorem State.acked_of_transfer {w : Nat} (hno : ∀ p ∈ s.posted, p.wid ≠ w) (hsome : ∃ x ∈ s.xfers, w ∈ x.writes) :
    s.acked w = (s.withoutWrite w).advanceAll := by
  obtain ⟨x, hx, hw⟩ := hsome
  have hengines : (s.xfers.any fun x => x.writes.contains w) = true := List.any_eq_true.mpr ⟨x, hx, List.contains_iff_mem.mpr hw⟩
  have hnone : (s.posted.filter fun p => p.wid = w) = [] := List.filter_eq_nil_iff.mpr fun p hp => by simpa using hno p hp
  unfold State.acked
  rw [hengines, hnone]
  rfl

theorem Image.awaits_ack (w : Nat) (i : Image) : i.awaits (.ack w) = false :=
  i.awaits_eq_false (fun _ => rfl) (fun _ _ _ _ h => Packet.noConfusion h) fun _ _ _ _ _ h => Packet.noConfusion h

theorem exec_ack {w : Nat} (hl : Lands s f) (hpkt : f.pkt = .ack w) : exec (.writeAcknowledgement f.id) s = .next ((s.drop f.id).acked w) := by
  have hlog : ((s.drop f.id).acked w).logTaken f = (s.drop f.id).acked w :=
    State.logTaken_unlogged (by rw [hpkt]; rfl) (by rw [hpkt]; rfl) (by rw [hpkt]; exact Image.awaits_ack w)
  rw [← hlog]
  show execWriteAcknowledgement f.id s = _
  refine arrival_taken hl ?_
  simp only [hpkt]

/-! ### Denials and refusals (07 R220; 14 R420, R422; 17 R465) -/

theorem State.modRunning_of_first {core : CoreId} {uid i : Nat} (hi : i < 4) (huid : (s.ctx ⟨core, i⟩).task.map Task.uid = some uid)
    (hfirst : ∀ j, j < i → (s.ctx ⟨core, j⟩).task.map Task.uid ≠ some uid) (f : Ctx → Ctx) :
    s.modRunning core uid f = (s.modCtx ⟨core, i⟩ f).modKept ⟨core, i⟩ uid f := by
  have hfind : ((List.range 4).find? fun i => decide (((s.ctx ⟨core, i⟩).task.map Task.uid) = some uid)) = some i :=
    List.find?_range_eq_some.mpr ⟨decide_eq_true huid, List.mem_range.mpr hi, fun j hj => by simpa using hfirst j hj⟩
  simp only [State.modRunning, hfind]

/-- A context with an asynchronous trap more that is pending. -/
def Ctx.withAsync (code : BitVec 8) (addr : Word) (c : Ctx) : Ctx := { c with asyncs := c.asyncs ++ [{ code := code, tval := addr }] }

/-- What tells a task of a denial or a refusal: its trap is pending, its tile task has a denial more. -/
def Told (i : Nat) (b : Issuer) (tt : TTId) (x : TileTask) (code : BitVec 8) (addr : Word) (s t : State) : Prop :=
  t.ctx ⟨b.core, i⟩ = (s.ctx ⟨b.core, i⟩).withAsync code addr ∧ (∀ y, y ≠ ⟨b.core, i⟩ → t.ctx y = s.ctx y) ∧
  t.tts.get? tt = some { x with denials := x.denials + 1, denied := some (x.denied.getD addr) } ∧ SameMemory s t ∧ t.net = s.net

theorem State.cores_modKept_congr (h : t.cores = s.cores) (id : CtxId) (uid : Nat) (g : Ctx → Ctx) :
    (t.modKept id uid g).cores = (s.modKept id uid g).cores := by
  have hcore (c : CoreId) : t.core c = s.core c := congrArg (fun m => Map.getD m c Core.init) h
  unfold State.modKept
  rw [hcore]
  split
  · exact h
  · split
    · simp only [State.modCore, State.setCore, hcore, h]
    · exact h

theorem Told.pend {i : Nat} {tt : TTId} {x : TileTask} {code : BitVec 8} (htt : b.tt = some tt) (hx : s.tts.get? tt = some x) (hi : i < 4)
    (huid : (s.ctx ⟨b.core, i⟩).task.map Task.uid = some b.uid) (hfirst : ∀ j, j < i → (s.ctx ⟨b.core, j⟩).task.map Task.uid ≠ some b.uid) :
    Told i b tt x code addr s ((s.countDenial b addr).pend b.core b.uid code addr) ∧
    ((s.countDenial b addr).pend b.core b.uid code addr).cores = (s.modKept ⟨b.core, i⟩ b.uid (Ctx.withAsync code addr)).cores := by
  have hcount : s.countDenial b addr = { s with tts := s.tts.set tt { x with denials := x.denials + 1, denied := some (x.denied.getD addr) } } := by
    simp only [State.countDenial, htt]
    exact State.modTT_of_some hx _
  generalize hu : s.countDenial b addr = u at hcount ⊢
  have huid' : (u.ctx ⟨b.core, i⟩).task.map Task.uid = some b.uid := by rw [hcount]; exact huid
  have hfirst' : ∀ j, j < i → (u.ctx ⟨b.core, j⟩).task.map Task.uid ≠ some b.uid := by rw [hcount]; exact hfirst
  have hpend : u.pend b.core b.uid code addr = (u.modCtx ⟨b.core, i⟩ (Ctx.withAsync code addr)).modKept ⟨b.core, i⟩ b.uid (Ctx.withAsync code addr) :=
    State.modRunning_of_first hi huid' hfirst' _
  have hcores : ((u.modCtx ⟨b.core, i⟩ (Ctx.withAsync code addr)).modKept ⟨b.core, i⟩ b.uid (Ctx.withAsync code addr)).cores =
      (s.modKept ⟨b.core, i⟩ b.uid (Ctx.withAsync code addr)).cores := State.cores_modKept_congr (by rw [hcount]; rfl) ..
  have hctx (y : CtxId) (hy : y ≠ ⟨b.core, i⟩) : (u.modCtx ⟨b.core, i⟩ (Ctx.withAsync code addr)).ctx y = u.ctx y := State.ctx_modCtx_ne _ _ hy
  rw [hpend]
  refine ⟨⟨?_, fun y hy => ?_, ?_, ?_, ?_⟩, hcores⟩
  all_goals rw [State.modKept_frame]
  · refine (State.ctx_modCtx_self ..).trans ?_
    rw [hcount]
    rfl
  · refine (hctx y hy).trans ?_
    rw [hcount]
    rfl
  · show u.tts.get? tt = _
    rw [hcount]
    exact Map.get?_set_self ..
  · show SameMemory s _
    rw [hcount]
    exact ⟨rfl, rfl, fun _ => ⟨rfl, rfl⟩⟩
  · show u.net = s.net
    rw [hcount]

/-- Being told survives what moves no context, no tile task, no memory and no packet. -/
theorem Told.congr {i : Nat} {tt : TTId} {x : TileTask} {code : BitVec 8} {u : State} (h : Told i b tt x code addr s t) (hctxs : u.ctxs = t.ctxs) (htts : u.tts = t.tts)
    (hmem : SameMemory t u) (hnet : u.net = t.net) : Told i b tt x code addr s u := by
  have hctx (y : CtxId) : u.ctx y = t.ctx y := by simp only [State.ctx, hctxs]
  obtain ⟨hself, hothers, htask, hsame, hsent⟩ := h
  exact ⟨(hctx _).trans hself, fun y hy => (hctx y).trans (hothers y hy), htts ▸ htask, hsame.trans hmem, hnet.trans hsent⟩

/-- A core whose overrun copy of a task takes the pending trap too. -/
theorem State.core_modKept (s : State) (id : CtxId) (uid : Nat) (g : Ctx → Ctx) :
    (s.modKept id uid g).core id.core = (match (s.core id.core).overruns.get? id.c with
      | none => s.core id.core
      | some o => if o.task.map Task.uid = some uid then { s.core id.core with overruns := (s.core id.core).overruns.set id.c (g o) } else s.core id.core) := by
  unfold State.modKept
  cases (s.core id.core).overruns.get? id.c with
  | none => rfl
  | some o =>
    by_cases ho : o.task.map Task.uid = some uid
    · simp only [if_pos ho]
      exact State.core_modCore_self ..
    · simp only [if_neg ho]

theorem State.core_modKept_ne {k : CoreId} {id : CtxId} (hk : k ≠ id.core) (uid : Nat) (g : Ctx → Ctx) : (s.modKept id uid g).core k = s.core k := by
  unfold State.modKept
  split
  · rfl
  · split
    · exact State.core_modCore_ne _ _ hk
    · rfl

theorem State.chan_modKept (s : State) (id : CtxId) (uid : Nat) (g : Ctx → Ctx) (ch : Nat) :
    ((s.modKept id uid g).core id.core).chan ch = (s.core id.core).chan ch := by
  rw [State.core_modKept]
  split
  · rfl
  · split <;> rfl

section Told

variable {tt : TTId} {x : TileTask} {i : Nat} (hl : Lands s f) (htt : b.tt = some tt) (hx : s.tts.get? tt = some x) (hi : i < 4)
  (huid : (s.ctx ⟨b.core, i⟩).task.map Task.uid = some b.uid) (hfirst : ∀ j, j < i → (s.ctx ⟨b.core, j⟩).task.map Task.uid ≠ some b.uid)

include hl htt hx hi huid hfirst

/-- A denial is counted and makes PROT pending. -/
theorem denialTold (hpkt : f.pkt = .denial b none none addr) :
    ∃ t, exec (.writeDenial f.id) s = .next t ∧ Told i b tt x causeProt addr (s.drop f.id) t ∧
      t.cores = (s.modKept ⟨b.core, i⟩ b.uid (Ctx.withAsync causeProt addr)).cores := by
  obtain ⟨htold, hcores⟩ := Told.pend (s := s.drop f.id) (addr := addr) (code := causeProt) htt hx hi huid hfirst
  refine ⟨((((s.drop f.id).countDenial b addr).pend b.core b.uid causeProt addr)).logTaken f, ?_, ?_, ?_⟩
  · show execWriteDenial f.id s = _
    refine arrival_taken hl ?_
    simp only [hpkt, State.ackedIf]
  · exact htold.congr (State.ctxs_logTaken ..) (State.tts_logTaken ..) (SameMemory.logTaken (.refl _)) (State.net_logTaken ..)
  · have hdrop : (s.drop f.id).cores = s.cores := rfl
    rw [State.cores_logTaken, hcores]
    exact State.cores_modKept_congr hdrop _ _ _

/-- A refusal at ejection of a message of a channel gives its credits back and makes XPART pending. -/
theorem refusalTold {ch n : Nat} (hpkt : f.pkt = .xpart b none none addr (some (ch, n))) (hcore : b.engine = false) :
    ∃ t, exec (.xpartNotice f.id) s = .next t ∧ Told i b tt x causeXpart addr (s.drop f.id) t ∧
      (t.core b.core).chan ch = { (s.core b.core).chan ch with credits := ((s.core b.core).chan ch).credits + n } := by
  obtain ⟨htold, hcores⟩ := Told.pend (s := s.drop f.id) (addr := addr) (code := causeXpart) htt hx hi huid hfirst
  refine ⟨((((s.drop f.id).countDenial b addr).pend b.core b.uid causeXpart addr).modChan b.core ch fun y => { y with credits := y.credits + n }).logTaken f, ?_,
    ?_, ?_⟩
  · have hawaits (u : State) : u.awaits b none = false := by simp [State.awaits]
    show execXpartNotice f.id s = _
    refine arrival_taken hl ?_
    simp only [hpkt, State.ackedIf, State.xpartTo, hcore, hawaits, Bool.false_eq_true, if_false]
  · refine htold.congr ?_ ?_ ?_ ?_
    · rw [State.ctxs_logTaken]
      rfl
    · rw [State.tts_logTaken]
      rfl
    · exact SameMemory.logTaken ⟨rfl, rfl, fun _ => ⟨rfl, rfl⟩⟩
    · rw [State.net_logTaken]
      rfl
  · have hchan : (((((s.drop f.id).countDenial b addr).pend b.core b.uid causeXpart addr).core b.core).chan ch) = (s.core b.core).chan ch := by
      rw [State.core, hcores]
      exact State.chan_modKept (s.drop f.id) ⟨b.core, i⟩ b.uid _ ch
    rw [State.core_logTaken]
    refine (State.chan_modChan ..).trans ((if_pos rfl).trans ?_)
    rw [hchan]

end Told

/-- A unit in progress whose request was refused traps XPART, and takes no number (12 R353). -/
theorem refusalTraps {r need step n : Nat} {buf : List Byte} {wait : Bool} {g : BitVec 5} (hl : Lands s f)
    (hpkt : f.pkt = .xpart b none (some r) addr none) (hcore : b.engine = false) (htt : b.tt = none)
    (hphase : (s.ctx ⟨b.core, b.ctx⟩).phase = .busy r need buf step wait (.scalar g n false)) :
    exec (.xpartNotice f.id) s =
      .next ((({ (s.drop f.id).untake ⟨b.core, b.ctx⟩ with cur := ⟨b.core, b.ctx⟩ } : State).trap causeXpart addr).logTaken f) := by
  have hphase' : ((s.drop f.id).ctx ⟨b.core, b.ctx⟩).phase = .busy r need buf step wait (.scalar g n false) := hphase
  have hawaits : (s.drop f.id).awaits b (some r) = true := by simp [State.awaits, hphase']
  have hfault : (s.drop f.id).faultTo b r causeXpart addr =
      ({ (s.drop f.id).untake ⟨b.core, b.ctx⟩ with cur := ⟨b.core, b.ctx⟩ } : State).trap causeXpart addr := by
    simp only [State.faultTo, hphase', if_true]
  show execXpartNotice f.id s = _
  refine arrival_taken hl ?_
  simp only [hpkt, State.ackedIf, State.countDenial, htt, State.xpartTo, hcore, hawaits, hfault, Bool.false_eq_true, if_false, if_true, Option.getD_some]

theorem State.took_untake (s : State) (id : CtxId) : ((s.untake id).ctx id).took = none ∧ ∀ n, (s.ctx id).took = some n → ((s.untake id).ctx id).redo = some n := by
  unfold State.untake
  cases htook : (s.ctx id).took with
  | none => exact ⟨htook, fun _ h => nomatch h⟩
  | some m =>
    simp only [Option.isSome_some, if_true]
    rw [State.ctx_modCtx_self]
    exact ⟨rfl, fun n hn => htook.trans hn⟩

/-! ### Flush reads (11 R338) -/

theorem Image.awaits_flushRead (l : Nat) (b : Issuer) (r : Nat) (i : Image) : i.awaits (.flushRead l b r) = false :=
  i.awaits_eq_false (fun _ => rfl) (fun _ _ _ _ h => Packet.noConfusion h) fun _ _ _ _ _ h => Packet.noConfusion h

/-- A flush read is not logged. -/
theorem State.logTaken_flushRead {l r : Nat} (hpkt : f.pkt = .flushRead l b r) (u : State) : u.logTaken f = u :=
  State.logTaken_unlogged (by rw [hpkt]; rfl) (by rw [hpkt]; rfl) (by rw [hpkt]; exact Image.awaits_flushRead l b r)

/-- With the last flush read a fence goes on. -/
theorem lastFlushRead {l r step : Nat} {lk : List Nat} (hl : Lands s f) (hpkt : f.pkt = .flushRead l b r)
    (hphase : (s.ctx ⟨b.core, b.ctx⟩).phase = .stall (.flush [r] step (.fence lk false))) :
    exec (.flushReadComplete f.id) s = .next (({ s.drop f.id with cur := ⟨b.core, b.ctx⟩ } : State).finish step) := by
  have hphase' : ((s.drop f.id).ctx ⟨b.core, b.ctx⟩).phase = .stall (.flush [r] step (.fence lk false)) := hphase
  rw [← State.logTaken_flushRead hpkt (({ s.drop f.id with cur := ⟨b.core, b.ctx⟩ } : State).finish step)]
  show execFlushReadComplete f.id s = _
  refine arrival_taken hl ?_
  simp [hpkt, hphase', State.afterFlush]

/-- A flush read before the last leaves the others to come. -/
theorem flushReadBefore {l r q step : Nat} {rest : List Nat} {x : Released} (hl : Lands s f) (hpkt : f.pkt = .flushRead l b r) (hq : q ≠ r)
    (hphase : (s.ctx ⟨b.core, b.ctx⟩).phase = .stall (.flush (r :: q :: rest) step x)) :
    ∃ t, exec (.flushReadComplete f.id) s = .next t ∧ t = { s.drop f.id with ctxs := t.ctxs } ∧
      (t.ctx ⟨b.core, b.ctx⟩).phase = .stall (.flush ((q :: rest).filter fun y => y ≠ r) step x) := by
  have hphase' : ((s.drop f.id).ctx ⟨b.core, b.ctx⟩).phase = .stall (.flush (r :: q :: rest) step x) := hphase
  refine ⟨(s.drop f.id).modCtx ⟨b.core, b.ctx⟩ fun y => { y with phase := .stall (.flush ((q :: rest).filter fun y => y ≠ r) step x) }, ?_, rfl, ?_⟩
  · rw [← State.logTaken_flushRead hpkt ((s.drop f.id).modCtx ..)]
    show execFlushReadComplete f.id s = _
    refine arrival_taken hl ?_
    simp [hpkt, hphase', hq]
  · rw [State.ctx_modCtx_self]

/-! ### The answers together -/

theorem answerSteps : Claims.AnswerSteps := by
  intro s f hl
  refine ⟨fun b r pos bs => replyArrives hl, fun b r pos bs k => prefixArrives hl, fun b r code v => faultArrives hl,
    fun w hpkt hstall => ⟨fun hno => ?_, fun hno hsome => ?_⟩, fun b addr tt x i htt hx hi huid hfirst => ⟨fun hpkt => ?_, fun ch n hpkt hcore => ?_⟩,
    fun b r addr need buf step wait g n hpkt hcore htt hphase => ⟨refusalTraps hl hpkt hcore htt hphase, State.took_untake (s.drop f.id) _⟩,
    fun l b r step lk => lastFlushRead hl, fun l b r q rest step x => flushReadBefore hl⟩
  · exact (exec_ack hl hpkt).trans (congrArg _ (State.acked_of_no_transfer (s := s.drop f.id) hstall hno))
  · exact (exec_ack hl hpkt).trans (congrArg _ (State.acked_of_transfer (s := s.drop f.id) hno hsome))
  · obtain ⟨t, ht, ⟨hself, hothers, htask, hmem, hnet⟩, hcores⟩ := denialTold hl htt hx hi huid hfirst hpkt
    have hcore (k : CoreId) : t.core k = (s.modKept ⟨b.core, i⟩ b.uid (Ctx.withAsync causeProt addr)).core k :=
      congrArg (fun m => Map.getD m k Core.init) hcores
    exact ⟨t, ht, ⟨hself, hothers, htask, hmem, hnet⟩, fun k hk => (hcore k).trans (State.core_modKept_ne hk ..),
      (hcore b.core).trans (State.core_modKept s ⟨b.core, i⟩ b.uid _)⟩
  · obtain ⟨t, ht, htold, hchan⟩ := refusalTold hl htt hx hi huid hfirst hpkt hcore
    exact ⟨t, ht, htold, hchan⟩

/-! ### Answers beneath a handler (16 R446, R450) -/

theorem mem_ctxsOf {id : CtxId} (hrole : id.core.r ≠ .steward) (hc : id.c < 4) : id ∈ ctxsOf [id.core.tile] := by
  obtain ⟨⟨l, t, r⟩, c⟩ := id
  refine List.mem_flatMap.mpr ⟨⟨l, t, r⟩, ?_, List.mem_map.mpr ⟨c, List.mem_range.mpr hc, rfl⟩⟩
  cases r with
  | steward => exact absurd rfl hrole
  | mc | fc | ac => simp [coresOf, TileId.core, CoreId.tile]

/-- The answer to a unit in progress beneath the handler of its LONG kind 4 stays on its way until the unit goes on. -/
theorem answersBeneath : Claims.AnswersBeneath := by
  intro s f t x id u b r need pos step buf bs wait cont hf hpkt hdst hb hres hgen hforeign htile hrole hc hunder hphase
  have hbeneath : s.awaitsBeneath t f.pkt = true := by
    subst htile
    refine List.any_eq_true.mpr ⟨id, mem_ctxsOf hrole hc, ?_⟩
    obtain ⟨phase, pc, took⟩ := u
    have hbusy : phase = .busy r need buf step wait cont := hphase
    rw [hbusy] at hunder
    simp [hunder, hpkt, Packet.answers]
  have hlate : s.reachOf f = .late := by
    simp [State.reachOf, hdst, hb, hres, hgen, hforeign, hbeneath]
  show execReadReply f.id s = _
  simp only [execReadReply, arrival, hf, hpkt, hlate]

/-- Settles O41: each answer and each access is one case of what an arrival does. -/
theorem accessesAndAnswers : Obligations.AccessesAndAnswers := ⟨accessSteps, answerSteps, answersBeneath⟩

end Sys2Proof.Machine
end
